-- ==== Sys2Proof/Word.lean ====
section
/-! DEFINITION. Sys2Proof/Word.lean: the word types of the Gudolos and the plainest arithmetic on them. Registers are
32 bits wide (R9), Siriz registers are 32 bits wide (R86), and multi-byte values in memory are little-endian (R8). -/

namespace Sys2Proof

/-- A 32-bit word: a Siriz register, an instruction word, a device register as software sees it. -/
abbrev Word := BitVec 32

/-- One byte of memory. -/
abbrev Byte := BitVec 8

/-- Bits `[lo + w - 1 : lo]` of a number. -/
def bitsOf (v lo w : Nat) : Nat := (v >>> lo) % 2 ^ w

/-- The bit `i` of a number, as a Bool. -/
def bitOf (v i : Nat) : Bool := v.testBit i

/-- 1 for true, 0 for false: a Bool as the one-bit field it stands for. -/
def b2n (b : Bool) : Nat := if b then 1 else 0

/-- `n` rounded up to a multiple of `k`. -/
def roundUp (n k : Nat) : Nat := (n + k - 1) / k * k

/-- The little-endian number a list of bytes spells (R8). -/
def leNat : List Byte → Nat
  | [] => 0
  | b :: bs => b.toNat + 256 * leNat bs

/-- The `n` little-endian bytes of a number, the low byte first (R8). -/
def leBytes : Nat → Nat → List Byte
  | 0, _ => []
  | n + 1, v => BitVec.ofNat 8 v :: leBytes n (v / 256)

/-- The little-endian field of `n` bytes at offset `o` of a byte list; bytes past the end count as 0. -/
def leAt (bs : List Byte) (o n : Nat) : Nat := leNat ((bs.drop o).take n)

/-- The least number that saturates: `a + d`, held at `top`. -/
def satAdd (a d top : Nat) : Nat := min (a + d) top

/-- A signed reading of the low `w` bits of a number. -/
def signedOf (v w : Nat) : Int :=
  if v % 2 ^ w < 2 ^ (w - 1) then (v % 2 ^ w : Nat) else ((v % 2 ^ w : Nat) : Int) - (2 ^ w : Nat)

/-- The two's complement reading of an integer in `w` bits. -/
def unsignedOf (i : Int) (w : Nat) : Nat := (i % ((2 ^ w : Nat) : Int)).toNat

end Sys2Proof
end

