-- ==== Sys2Proof/Syntax.lean ====
section
/-! DEFINITION. Sys2Proof/Syntax.lean: the commands the Gudolos takes, one constructor per row of the opcode table, with
their operands. A command is a step of the part that the manual describes whole: a register write, a Siriz instruction
issued by a core, a frame arriving at a port, a timer's expiry. What the device cannot decide by itself (a measured
voltage, the bytes the host supplies, whether a NAND program passed) is an operand of the command that brings it. -/

namespace Sys2Proof

/-! ### Operands of the common rules (00, 01) -/

/-- A Siriz core: 0–31 the tile cores, 32–35 the house cores (Table 3.3, CORE_ID). -/
abbrev CoreId := Fin 36

/-- A tile (Table 1.3). -/
abbrev TileId := Fin 32

/-- Who issues an access (R54): a Siriz core, class A through BAR2 of NVMe controller 1 or 2, class D through the JTAG
TAP, or a DMA channel. -/
inductive Requester where
  | core (c : CoreId)
  | classA (ctrl : Fin 2)
  | classD
  | dma (ch : Fin 64)
  deriving DecidableEq, Repr

/-- The blocks of Table 1.11 that have registers. -/
inductive BlockId where
  | sys | ecc | disp | ret | flow | pat | rule | codec | nvme | pcie | media | ftla | dram | dma | digest | vault
  | nand (c : Fin 32)
  | keys | fab | cstore | hold | therm | wdt | gpio
  | tile (n : TileId)
  | dch (c : Fin 24)
  | dport (p : Fin 4)
  deriving DecidableEq, Repr

/-- The width of an access to register space, in bytes (R9, R10). -/
inductive AccWidth where
  | w8 | w16 | w32 | w64
  deriving DecidableEq, Repr

/-! ### Operands of Siriz instructions (03, 04) -/

/-- A general register number (R128: any of w0 to w15 may stand in any register field). -/
abbrev Reg := Fin 16

/-- The two forms of an ALU instruction: 16-bit destructive (R130), or ALU3 (R134). -/
inductive AluForm where
  | short (rd rb : Reg)
  | wide (rd ra rb : Reg)
  deriving DecidableEq, Repr

/-- The forms of a shift: 16-bit by register, 16-bit by uimm5, ALU3, SHI by a 6-bit count. -/
inductive ShiftForm where
  | short (rd rb : Reg)
  | imm5 (rd : Reg) (n : Fin 32)
  | wide (rd ra rb : Reg)
  | imm6 (rd ra : Reg) (n : Fin 64)
  deriving DecidableEq, Repr

/-- ADDI: 16-bit with simm7, or 32-bit with simm16. -/
inductive AddiForm where
  | short (rd : Reg) (imm : BitVec 7)
  | wide (rd ra : Reg) (imm : BitVec 16)
  deriving DecidableEq, Repr

/-- MOVI: 16-bit with simm7, or 32-bit with simm16. -/
inductive MoviForm where
  | short (rd : Reg) (imm : BitVec 7)
  | wide (rd : Reg) (imm : BitVec 16)
  deriving DecidableEq, Repr

/-- LDW and STW: 16-bit with uimm3, 16-bit stack form with uimm7, or 32-bit with simm16. `r` is rd or rs. -/
inductive WordForm where
  | short (r ra : Reg) (imm : BitVec 3)
  | stack (r : Reg) (imm : BitVec 7)
  | wide (r ra : Reg) (imm : BitVec 16)
  deriving DecidableEq, Repr

/-- B: 16-bit with simm11, or 32-bit with simm26. -/
inductive BranchForm where
  | short (imm : BitVec 11)
  | wide (imm : BitVec 26)
  deriving DecidableEq, Repr

/-- The size field of LDA and STA. -/
inductive AccSize where
  | byte | half | word
  deriving DecidableEq, Repr

/-- The skip conditions on values (Table 4.4). -/
inductive Cond where
  | eq | ne | slt | sge | ltu | geu | any | none
  deriving DecidableEq, Repr

/-- The skip conditions on flags (Table 4.5). -/
inductive FlagCond where
  | z | nz | n | nn | c | nc | v | nv | dz | ndz | slt | sge | ugt | ule
  deriving DecidableEq, Repr

/-- The scope of a CACHE instruction and its operand register (Tables 4.7 and 4.8). -/
inductive CacheScope where
  | addr (ra : Reg)
  | setWay (ra : Reg)
  | all
  deriving DecidableEq, Repr

/-- An instruction as fetched: a halfword, or a 32-bit word (R123). -/
inductive InstrWord where
  | half (h : BitVec 16)
  | word (w : BitVec 32)
  deriving DecidableEq, Repr

/-- What stores a codec or verifier test saw fail although the encoder's output was right: the hardware failure of
R228, by the test of CODEC_LASTV. -/
inductive VTest where
  | format | crc | nbytes | inputCrc | bound
  deriving DecidableEq, Repr

/-! ### Operands of NVMe commands (09) -/

/-- Where a command comes from: a submission queue of a controller (queue 0 is the admin queue) with its command
identifier, or the management endpoint, which tunnels it (R300). -/
inductive CmdRef where
  | host (ctrl : Fin 2) (sq : Nat) (cid : BitVec 16)
  | mi
  deriving DecidableEq, Repr

/-- A logical-block range of a Dataset Management command. -/
structure LbaRange where
  slba : Nat
  nlb : Nat
  deriving DecidableEq, Repr

/-- How a Write's data pointer was given (R83): PRPs, or an SGL with the sum of its lengths and its defect, if any (the
status code of Table 9.12). -/
inductive DataPtr where
  | prp
  | sgl (len : Nat)
  | bad (sc : Nat)
  deriving DecidableEq, Repr

/-- The queue a completion entry is posted for: a submission queue of a controller, or the management endpoint. -/
inductive QueueRef where
  | host (ctrl : Fin 2) (sq : Nat)
  | mi
  deriving DecidableEq, Repr

/-- What Namespace Management does (R270, R295): it creates an NVM namespace of a size in logical blocks and a format by
FLBAS, or a Subsystem Local Memory namespace of a number and a length in bytes, or deletes one. -/
inductive NsMgmt where
  | create (nsze flbas : Nat)
  | delete (nsid : Nat)
  | createSlm (slm len : Nat)
  | deleteSlm (slm : Nat)
  deriving DecidableEq, Repr

/-- A range of a memory range set: its SLM namespace, offset and length. -/
structure SlmRange where
  slm : Nat
  off : Nat
  len : Nat
  deriving DecidableEq, Repr

/-- What Memory Range Set Management does (R295). -/
inductive SetMgmt where
  | create (rsid : Nat) (ranges : List SlmRange)
  | delete (rsid : Nat)
  deriving DecidableEq, Repr

/-- The commands of Tables 9.4 and 9.9 with the fields the manual gives a meaning. `hi` holds CDW10 above a mode or OP
field, `data` and `image` the whole data buffer, `bad` the physical sectors that a read does not recover (R313), `fault`
and `ok` how a verification's comparison and a program of the code store end. -/
inductive NvmeOp where
  | createSq (qid size cqid prio : Nat)
  | createCq (qid size vector : Nat) (ien : Bool)
  | deleteSq (qid : Nat)
  | deleteCq (qid : Nat)
  | getLog (lid nsid off len : Nat) (rae : Bool)
  | identify (cns nsid : Nat)
  | abort (sqid cid : Nat)
  | setFeatures (fid nsid value : Nat) (save : Bool)
  | getFeatures (fid nsid : Nat)
  | asyncEvent
  | nsManage (m : NsMgmt)
  | nsAttach (nsid : Nat) (attach : Bool)
  | fwDownload (off : Nat) (bytes : List Byte)
  | fwCommit (action slot : Nat) (fault ok : Bool)
  | selfTest (code nsid : Nat)
  | dirSend (nsid dtype doper value : Nat)
  | dirReceive (nsid dtype doper : Nat)
  | formatNvm (nsid lbaf ses : Nat)
  | sanitize (crypto : Bool)
  | flowBind (cdw10 : Nat) (image : List Byte)
  | flowUnbind (cdw10 : Nat)
  | programLoad (cdw10 : Nat) (image : List Byte)
  | stepTableLoad (image : List Byte)
  | ruleLoad (mode hi : Nat) (image : List Byte)
  | automatonLoad (image : List Byte)
  | personalityLoad (cdw10 : Nat) (image : List Byte)
  | profileLoad (image : List Byte)
  | fabricLoad (hi : Nat) (image : List Byte)
  | fabricTags (hi : Nat) (records : List Byte)
  | requalify (op hi : Nat) (data : List Byte)
  | flush (nsid : Nat)
  | write (nsid slba nlb dtype dspec : Nat) (fua : Bool) (ptr : DataPtr)
  | read (nsid slba nlb : Nat) (bad : List Nat)
  | dsm (nsid : Nat) (ranges : List LbaRange)
  | verify (nsid slba nlb : Nat) (bad : List Nat)
  | parcelRead (nsid slba cdw12 : Nat) (bad : List Nat)
  | loadProgram (pind : Nat) (image : List Byte)
  | programActivate (pind : Nat) (act : Bool)
  | rangeSet (m : SetMgmt)
  | execute (pind rsid p0 p1 p2 : Nat)
  | memoryCopy (nsid slba nlb slm off : Nat) (bad : List Nat)
  | slmRead (slm off len : Nat)
  | slmWrite (slm off : Nat) (bytes : List Byte)
  | invalid (opcode : Nat)
  deriving DecidableEq, Repr

/-! ### Operands of thermal control (16) -/

/-- What a temperature channel's read brings (R468): a temperature in 1/16 °C, an open or shorted diode, or an I3C NAK. -/
inductive SensorRead where
  | temp (t : BitVec 16)
  | broken
  | nak
  deriving DecidableEq, Repr

/-! ### Operands of the DRAM controller (12) -/

/-- A request that reaches a channel engine (R379): its port, whether a house core issued it, the global address and
length, the bytes of a write (none: a read), its arrival in units of 100 ns, and its page hint. -/
structure DramReq where
  port : Fin 5
  house : Bool
  addr : Nat
  len : Nat
  data : Option (List Byte)
  time : Nat
  close : Bool
  deriving DecidableEq, Repr

/-! ### Operands of DMA (13) -/

/-- How a DMA channel is reached: through its own registers, or by a tile through TILE_DMA (R390). -/
inductive DmaVia where
  | reg (rq : Requester)
  | tile (t : TileId)
  deriving DecidableEq, Repr



/-- The commands: one constructor per row of the opcode table, in the table's order. -/
inductive Instr where
  /-- REGISTER_WRITE (R12). -/
  | registerWrite (rq : Requester) (off : Nat) (wd : AccWidth) (v : BitVec 64)
  /-- BLOCK_ENABLE (R17). -/
  | blockEnable (b : BlockId)
  /-- BLOCK_DISABLE (R17). -/
  | blockDisable (b : BlockId)
  /-- BLOCK_ENABLING_DONE (R20). -/
  | blockEnablingDone (b : BlockId)
  /-- BLOCK_QUIESCE_DONE (R18). -/
  | blockQuiesceDone (b : BlockId)
  /-- BLOCK_LOCK (R14). -/
  | blockLock (b : BlockId)
  /-- ROOT_PLL_LOCK_LOSS (R38). -/
  | rootPllLockLoss
  /-- ROOT_PLL_RELOCK (R38). -/
  | rootPllRelock
  /-- FLOW_BIND (R59). -/
  | flowBind (q : CmdRef) (cdw10 : BitVec 32) (image : List Byte)
  /-- FLOW_UNBIND (R61). -/
  | flowUnbind (q : CmdRef) (cdw10 : BitVec 32)
  /-- FLOW_CMD_ACTIVATE (R85). -/
  | flowCmdActivate (rq : Requester) (flow : Fin 262144)
  /-- FLOW_CMD_DRAIN (R85). -/
  | flowCmdDrain (rq : Requester) (flow : Fin 262144)
  /-- FLOW_CMD_DONE (R85). -/
  | flowCmdDone
  /-- PARCEL_CUT (R66). -/
  | parcelCut (flow : Fin 262144)
  /-- PARCEL_FETCH (R268). -/
  | parcelFetch (flow : Fin 262144) (seq : Nat) (bytes : List Byte)
  /-- RATE_METER_INTERVAL (R68). -/
  | rateMeterInterval
  /-- DISPATCH_WAITING (R70). -/
  | dispatchWaiting
  /-- PARCEL_TAKE (R71). -/
  | parcelTake (t : TileId)
  /-- STEAL_PROBE (R71). -/
  | stealProbe (thieves : List TileId)
  /-- STEAL_BACKOFF_EXPIRY (R71). -/
  | stealBackoffExpiry (t : TileId)
  /-- PARCEL_COMPLETE (R73). -/
  | parcelComplete (flow : Fin 262144) (seq : Nat)
  /-- RET_RELEASE (R74). -/
  | retRelease
  /-- HEAD_STALL_EXPIRY (R75). -/
  | headStallExpiry (flow : Fin 262144)
  /-- HEAD_DEADLINE_EXPIRY (R75). -/
  | headDeadlineExpiry (flow : Fin 262144)
  /-- RAW_STORE (R81). -/
  | rawStore (flow : Fin 262144) (seq : Nat) (reject : Bool)
  /-- GAP_TIMEOUT (R84). -/
  | gapTimeout (flow : Fin 262144) (seq : Nat)
  /-- NOP (R148). -/
  | nop (c : CoreId)
  /-- RTE (R111). -/
  | rte (c : CoreId)
  /-- WAIT (R148). -/
  | wait (c : CoreId)
  /-- WAIT_WAKE (R148). -/
  | waitWake (c : CoreId)
  /-- FENCE (R148). -/
  | fence (c : CoreId)
  /-- FENCE_DONE (R163). -/
  | fenceDone (c : CoreId)
  /-- BR (R141). -/
  | br (c : CoreId) (rt : Reg)
  /-- TRAP (R148). -/
  | trap (c : CoreId) (n : BitVec 8)
  /-- EXTERNAL_INTERRUPT (R109). -/
  | externalInterrupt (c : CoreId)
  /-- MOV (R130). -/
  | mov (c : CoreId) (rd rb : Reg)
  /-- ADD (R135). -/
  | add (c : CoreId) (f : AluForm)
  /-- SUB (R135). -/
  | sub (c : CoreId) (f : AluForm)
  /-- AND (R134). -/
  | and (c : CoreId) (f : AluForm)
  /-- OR (R134). -/
  | or (c : CoreId) (f : AluForm)
  /-- XOR (R134). -/
  | xor (c : CoreId) (f : AluForm)
  /-- ANDN (R134). -/
  | andn (c : CoreId) (rd ra rb : Reg)
  /-- NOT (R130). -/
  | not (c : CoreId) (rd rb : Reg)
  /-- NEG (R113). -/
  | neg (c : CoreId) (rd rb : Reg)
  /-- LSL (R113). -/
  | lsl (c : CoreId) (f : ShiftForm)
  /-- LSR (R113). -/
  | lsr (c : CoreId) (f : ShiftForm)
  /-- ASR (R113). -/
  | asr (c : CoreId) (f : ShiftForm)
  /-- ROR (R113). -/
  | ror (c : CoreId) (f : ShiftForm)
  /-- ROL (R113). -/
  | rol (c : CoreId) (f : ShiftForm)
  /-- MUL (R134). -/
  | mul (c : CoreId) (f : AluForm)
  /-- MULH (R134). -/
  | mulh (c : CoreId) (rd ra rb : Reg)
  /-- MULHU (R134). -/
  | mulhu (c : CoreId) (rd ra rb : Reg)
  /-- ADC (R135). -/
  | adc (c : CoreId) (f : AluForm)
  /-- SBC (R135). -/
  | sbc (c : CoreId) (f : AluForm)
  /-- MIN (R134). -/
  | min (c : CoreId) (rd ra rb : Reg)
  /-- MAX (R134). -/
  | max (c : CoreId) (rd ra rb : Reg)
  /-- MINU (R134). -/
  | minu (c : CoreId) (rd ra rb : Reg)
  /-- MAXU (R134). -/
  | maxu (c : CoreId) (rd ra rb : Reg)
  /-- ADDI (R135). -/
  | addi (c : CoreId) (f : AddiForm)
  /-- ANDI (R132). -/
  | andi (c : CoreId) (rd ra : Reg) (imm : BitVec 16)
  /-- ORI (R132). -/
  | ori (c : CoreId) (rd ra : Reg) (imm : BitVec 16)
  /-- XORI (R132). -/
  | xori (c : CoreId) (rd ra : Reg) (imm : BitVec 16)
  /-- MOVI (R132). -/
  | movi (c : CoreId) (f : MoviForm)
  /-- MOVHI (R132). -/
  | movhi (c : CoreId) (rd : Reg) (imm : BitVec 16)
  /-- ADR (R132). -/
  | adr (c : CoreId) (rd : Reg) (imm : BitVec 22)
  /-- DIV (R136). -/
  | div (c : CoreId) (rd ra rb rr : Reg)
  /-- DIVU (R136). -/
  | divu (c : CoreId) (rd ra rb rr : Reg)
  /-- SXB (R147). -/
  | sxb (c : CoreId) (rd rb : Reg)
  /-- SXH (R147). -/
  | sxh (c : CoreId) (rd rb : Reg)
  /-- ZXB (R147). -/
  | zxb (c : CoreId) (rd rb : Reg)
  /-- ZXH (R147). -/
  | zxh (c : CoreId) (rd rb : Reg)
  /-- CLZ (R147). -/
  | clz (c : CoreId) (rd rb : Reg)
  /-- POPC (R147). -/
  | popc (c : CoreId) (rd rb : Reg)
  /-- BSWAP (R147). -/
  | bswap (c : CoreId) (rd rb : Reg)
  /-- SKIP_ON_REGISTERS (R137). -/
  | skipOnRegisters (c : CoreId) (cond : Cond) (ra rb : Reg)
  /-- SKIPI (R139). -/
  | skipi (c : CoreId) (cond : Cond) (ra : Reg) (imm : BitVec 16)
  /-- SEQI (R139). -/
  | seqi (c : CoreId) (ra : Reg) (imm : BitVec 5)
  /-- SBS (R140). -/
  | sbs (c : CoreId) (ra : Reg) (b : Fin 32)
  /-- SBZ (R140). -/
  | sbz (c : CoreId) (ra : Reg) (b : Fin 32)
  /-- SFL (R140). -/
  | sfl (c : CoreId) (cond : FlagCond)
  /-- LDW (R145). -/
  | ldw (c : CoreId) (f : WordForm)
  /-- LDH (R132). -/
  | ldh (c : CoreId) (rd ra : Reg) (imm : BitVec 16)
  /-- LDHU (R132). -/
  | ldhu (c : CoreId) (rd ra : Reg) (imm : BitVec 16)
  /-- LDB (R132). -/
  | ldb (c : CoreId) (rd ra : Reg) (imm : BitVec 16)
  /-- LDBU (R132). -/
  | ldbu (c : CoreId) (rd ra : Reg) (imm : BitVec 16)
  /-- STW (R146). -/
  | stw (c : CoreId) (f : WordForm)
  /-- STH (R132). -/
  | sth (c : CoreId) (rs ra : Reg) (imm : BitVec 16)
  /-- STB (R132). -/
  | stb (c : CoreId) (rs ra : Reg) (imm : BitVec 16)
  /-- LDA (R133). -/
  | lda (c : CoreId) (rd : Reg) (size : AccSize) (off : BitVec 16)
  /-- STA (R133). -/
  | sta (c : CoreId) (rs : Reg) (size : AccSize) (off : BitVec 16)
  /-- B (R141). -/
  | b (c : CoreId) (f : BranchForm)
  /-- CALL (R103). -/
  | call (c : CoreId) (rt : Reg) (mask : BitVec 16)
  /-- RET (R104). -/
  | ret (c : CoreId) (mask : BitVec 16)
  /-- MFS (R88). -/
  | mfs (c : CoreId) (rd : Reg) (sn : Fin 32)
  /-- MTS (R89). -/
  | mts (c : CoreId) (sn : Fin 32) (ra : Reg)
  /-- CACHE_CLEAN_DC (R151). -/
  | cacheCleanDc (c : CoreId) (scope : CacheScope)
  /-- CACHE_INVALIDATE_DC (R151). -/
  | cacheInvalidateDc (c : CoreId) (scope : CacheScope)
  /-- CACHE_CLEAN_INVALIDATE_DC (R151). -/
  | cacheCleanInvalidateDc (c : CoreId) (scope : CacheScope)
  /-- CACHE_INVALIDATE_IC (R154). -/
  | cacheInvalidateIc (c : CoreId) (scope : CacheScope)
  /-- PROGRAM_SLOT_LOAD (R117). -/
  | programSlotLoad (q : CmdRef) (cdw10 : BitVec 32) (image : List Byte)
  /-- CACHE_ENABLE (R165). -/
  | cacheEnable (rq : Requester) (c : CoreId) (ic dc : Bool)
  /-- CACHE_DISABLE (R166). -/
  | cacheDisable (rq : Requester) (c : CoreId) (ic dc : Bool)
  /-- IC_INV (R165). -/
  | icInv (rq : Requester) (c : CoreId)
  /-- DC_INV (R165). -/
  | dcInv (rq : Requester) (c : CoreId)
  /-- DC_CLINV (R165). -/
  | dcClinv (rq : Requester) (c : CoreId)
  /-- INVALIDATE_ALL_DONE (R165). -/
  | invalidateAllDone (c : CoreId)
  /-- EVICTION_WRITE (R162). -/
  | evictionWrite (c : CoreId)
  /-- MERGE_ENTRY_TIMEOUT (R176). -/
  | mergeEntryTimeout (word : Nat)
  /-- TILE_RESET (R169). -/
  | tileReset (rq : Requester) (t : TileId)
  /-- TILE_RESET_DONE (R169). -/
  | tileResetDone (t : TileId)
  /-- TILE_DOORBELL (R172). -/
  | tileDoorbell (rq : Requester) (t : TileId) (v : BitVec 32)
  /-- SCRUB_WORD (R177). -/
  | scrubWord (slow : Bool)
  /-- ECC_REPAIR_ROW (R180). -/
  | eccRepairRow (rq : Requester) (mid index : Nat)
  /-- ECC_REPAIR_COLUMN (R180). -/
  | eccRepairColumn (rq : Requester) (mid index : Nat)
  /-- ECC_REPAIR_DONE (R180). -/
  | eccRepairDone
  /-- ECC_TEST_RAW_READ (R181). -/
  | eccTestRawRead (rq : Requester) (mid word : Nat)
  /-- ECC_TEST_RAW_WRITE (R181). -/
  | eccTestRawWrite (rq : Requester) (mid word : Nat) (data : BitVec 64) (chk : BitVec 8)
  /-- MARI_START (R202). -/
  | mariStart (rq : Requester) (t : TileId) (tab : Fin 8)
  /-- MARI_LOAD_DONE (R198). -/
  | mariLoadDone (t : TileId)
  /-- MARI_RESUME (R204). -/
  | mariResume (rq : Requester) (t : TileId) (step : Fin 1024)
  /-- MARI_ABORT (R202). -/
  | mariAbort (rq : Requester) (t : TileId)
  /-- MARI_RUN_END (R203). -/
  | mariRunEnd (t : TileId)
  /-- MARI_BUDGET_EXPIRY (R195). -/
  | mariBudgetExpiry (t : TileId)
  /-- MARI_NOP (R190). -/
  | mariNop (t : TileId)
  /-- MARI_MOV (R190). -/
  | mariMov (t : TileId)
  /-- MARI_ADD (R190). -/
  | mariAdd (t : TileId)
  /-- MARI_SUB (R190). -/
  | mariSub (t : TileId)
  /-- MARI_MIN (R190). -/
  | mariMin (t : TileId)
  /-- MARI_MAX (R190). -/
  | mariMax (t : TileId)
  /-- MARI_AND (R190). -/
  | mariAnd (t : TileId)
  /-- MARI_OR (R190). -/
  | mariOr (t : TileId)
  /-- MARI_XOR (R190). -/
  | mariXor (t : TileId)
  /-- MARI_CMPGT (R190). -/
  | mariCmpgt (t : TileId)
  /-- MARI_CMPGE (R190). -/
  | mariCmpge (t : TileId)
  /-- MARI_CMPEQ (R190). -/
  | mariCmpeq (t : TileId)
  /-- MARI_THR (R190). -/
  | mariThr (t : TileId)
  /-- MARI_SEL (R190). -/
  | mariSel (t : TileId)
  /-- MARI_SHL (R190). -/
  | mariShl (t : TileId)
  /-- MARI_SHR (R190). -/
  | mariShr (t : TileId)
  /-- MARI_SHN (R190). -/
  | mariShn (t : TileId)
  /-- MARI_POPC (R190). -/
  | mariPopc (t : TileId)
  /-- MARI_PSUM (R190). -/
  | mariPsum (t : TileId)
  /-- MARI_CPK (R190). -/
  | mariCpk (t : TileId)
  /-- MARI_CPKP (R190). -/
  | mariCpkp (t : TileId)
  /-- MARI_HIST (R191). -/
  | mariHist (t : TileId)
  /-- MARI_NSUM3 (R193). -/
  | mariNsum3 (t : TileId)
  /-- MARI_LMAX3 (R193). -/
  | mariLmax3 (t : TileId)
  /-- MARI_GATH (R191). -/
  | mariGath (t : TileId)
  /-- STEP_TABLE_LOAD (R200). -/
  | stepTableLoad (q : CmdRef) (image : List Byte)
  /-- CODEC_CLOSE (R222). -/
  | codecClose (rq : Requester) (t : TileId)
  /-- CODEC_PROFILE_SELECT (R224). -/
  | codecProfileSelect (rq : Requester) (t : TileId) (prof : Fin 256)
  /-- CODEC_BLOCK_FORM (R222). -/
  | codecBlockForm (t : TileId)
  /-- CODEC_ENCODE (R217). -/
  | codecEncode (t : TileId)
  /-- VERIFIER_DECIDE (R227). -/
  | verifierDecide (t : TileId) (failed : Option VTest)
  /-- BLOCK_OUTPUT_WRITE (R225). -/
  | blockOutputWrite (t : TileId)
  /-- CODEC_DQ_TAIL_WRITE (R234). -/
  | codecDqTailWrite (rq : Requester) (idx : BitVec 16)
  /-- DECODE_QUEUE_FETCH (R234). -/
  | decodeQueueFetch
  /-- DECODE_JOB_END (R235). -/
  | decodeJobEnd (t : TileId)
  /-- TILE_DJOB (R236). -/
  | tileDjob (rq : Requester) (t : TileId) (desc : Nat)
  /-- TILE_DECODE_JOB_END (R236). -/
  | tileDecodeJobEnd (t : TileId)
  /-- CODEC_PROFILE_LOAD (R238). -/
  | codecProfileLoad (q : CmdRef) (image : List Byte)
  /-- AUTOMATON_LOAD (R245). -/
  | automatonLoad (q : CmdRef) (image : List Byte)
  /-- AUTOMATON_SCAN (R246). -/
  | automatonScan (e : Fin 16)
  /-- TCAM_SEARCH (R252). -/
  | tcamSearch
  /-- RULE_TABLE_LOAD_REPLACE (R251). -/
  | ruleTableLoadReplace (q : CmdRef) (hi : BitVec 30) (image : List Byte)
  /-- RULE_TABLE_LOAD_INSERT (R251). -/
  | ruleTableLoadInsert (q : CmdRef) (hi : BitVec 30) (image : List Byte)
  /-- RULE_TABLE_LOAD_DELETE (R251). -/
  | ruleTableLoadDelete (q : CmdRef) (hi : BitVec 30) (image : List Byte)
  /-- RULE_CMD_INSERT (R255). -/
  | ruleCmdInsert (rq : Requester)
  /-- RULE_INSERT_DONE (R255). -/
  | ruleInsertDone
  /-- RULE_CMD_DELETE (R257). -/
  | ruleCmdDelete (rq : Requester) (set : Fin 256) (rid : BitVec 16)
  /-- RULE_DELETE_DONE (R257). -/
  | ruleDeleteDone
  /-- SHADOW_CHECK (R259). -/
  | shadowCheck (upset : Option (Nat × Nat))
  /-- PERST_ASSERT (R488). -/
  | perstAssert (p : Fin 2)
  /-- PERST_DEASSERT (R488). -/
  | perstDeassert (p : Fin 2) (bifur : Bool)
  /-- HOT_RESET (R488). -/
  | hotReset (p : Fin 2)
  /-- FLR (R489). -/
  | flr (p : Fin 2)
  /-- PCIE_LINK_UP (R264). -/
  | pcieLinkUp (p : Fin 2) (speed width : Nat) (flit : Bool)
  /-- PCIE_LINK_DOWN (R264). -/
  | pcieLinkDown (p : Fin 2)
  /-- BAR2_ACCESS (R267). -/
  | bar2Access (ctrl : Fin 2) (off : Nat) (wd : AccWidth) (w : Option (BitVec 64))
  /-- HOST_READ_FAILURE (R268). -/
  | hostReadFailure (q : CmdRef) (seq : Option Nat) (cto : Bool)
  /-- CONTROLLER_ENABLE (R482). -/
  | controllerEnable (c : Fin 2) (asqs acqs : Nat)
  /-- CONTROLLER_RESET (R489). -/
  | controllerReset (c : Fin 2)
  /-- SHUTDOWN_NOTIFY (R489). -/
  | shutdownNotify (c : Fin 2) (shn : Fin 4)
  /-- SHUTDOWN_COMPLETE (R489). -/
  | shutdownComplete (c : Fin 2)
  /-- SQ_TAIL_DOORBELL (R274). -/
  | sqTailDoorbell (c : Fin 2) (sq tail : Nat)
  /-- CQ_HEAD_DOORBELL (R274). -/
  | cqHeadDoorbell (c : Fin 2) (cq head : Nat)
  /-- COMMAND_START (R276). -/
  | commandStart (c : Fin 2)
  /-- COMMAND_COMPLETE (R284). -/
  | commandComplete (src : QueueRef)
  /-- CREATE_IO_SQ (R274). -/
  | createIoSq (q : CmdRef) (qid size cqid : Nat) (prio : Fin 4)
  /-- CREATE_IO_CQ (R274). -/
  | createIoCq (q : CmdRef) (qid size vector : Nat) (ien : Bool)
  /-- DELETE_IO_SQ (R288). -/
  | deleteIoSq (q : CmdRef) (qid : Nat)
  /-- DELETE_IO_CQ (R274). -/
  | deleteIoCq (q : CmdRef) (qid : Nat)
  /-- GET_LOG_PAGE (R293). -/
  | getLogPage (q : CmdRef) (lid nsid off len : Nat) (rae : Bool)
  /-- IDENTIFY (R271). -/
  | identify (q : CmdRef) (cns nsid : Nat)
  /-- ABORT (R287). -/
  | abort (q : CmdRef) (sqid : Nat) (cid : BitVec 16)
  /-- SET_FEATURES (R273). -/
  | setFeatures (q : CmdRef) (fid nsid value : Nat) (save : Bool)
  /-- GET_FEATURES (R273). -/
  | getFeatures (q : CmdRef) (fid nsid : Nat)
  /-- ASYNC_EVENT_REQUEST (R294). -/
  | asyncEventRequest (q : CmdRef)
  /-- NAMESPACE_MANAGEMENT (R270). -/
  | namespaceManagement (q : CmdRef) (m : NsMgmt)
  /-- NAMESPACE_ATTACHMENT (R269). -/
  | namespaceAttachment (q : CmdRef) (nsid : Nat) (attach : Bool)
  /-- FIRMWARE_IMAGE_DOWNLOAD (R450). -/
  | firmwareImageDownload (q : CmdRef) (off : Nat) (bytes : List Byte)
  /-- FIRMWARE_COMMIT_ACTION0 (R450). -/
  | firmwareCommitAction0 (q : CmdRef) (slot : Nat) (fault ok : Bool)
  /-- FIRMWARE_COMMIT_ACTION1 (R450). -/
  | firmwareCommitAction1 (q : CmdRef) (slot : Nat) (fault ok : Bool)
  /-- FIRMWARE_COMMIT_ACTION2 (R450). -/
  | firmwareCommitAction2 (q : CmdRef) (slot : Nat) (fault ok : Bool)
  /-- DEVICE_SELF_TEST_SHORT (R289). -/
  | deviceSelfTestShort (q : CmdRef) (nsid : Nat)
  /-- DEVICE_SELF_TEST_EXTENDED (R289). -/
  | deviceSelfTestExtended (q : CmdRef) (nsid : Nat)
  /-- DEVICE_SELF_TEST_ABORT (R290). -/
  | deviceSelfTestAbort (q : CmdRef)
  /-- SELF_TEST_END (R290). -/
  | selfTestEnd (pass : Bool)
  /-- DIRECTIVE_SEND (R278). -/
  | directiveSend (q : CmdRef) (nsid dtype doper value : Nat)
  /-- DIRECTIVE_RECEIVE (R278). -/
  | directiveReceive (q : CmdRef) (nsid dtype doper : Nat)
  /-- FORMAT_NVM (R270). -/
  | formatNvm (q : CmdRef) (nsid lbaf ses : Nat)
  /-- SANITIZE_BLOCK_ERASE (R272). -/
  | sanitizeBlockErase (q : CmdRef)
  /-- SANITIZE_CRYPTO_ERASE (R425). -/
  | sanitizeCryptoErase (q : CmdRef)
  /-- SANITIZE_DONE (R301). -/
  | sanitizeDone
  /-- PERSONALITY_LOAD (R308). -/
  | personalityLoad (q : CmdRef) (cdw10 : BitVec 32) (image : List Byte)
  /-- FABRIC_CONFIGURE_LOAD (R370). -/
  | fabricConfigureLoad (q : CmdRef) (hi : BitVec 30) (image : List Byte)
  /-- FABRIC_CONFIGURE_TAGS (R370). -/
  | fabricConfigureTags (q : CmdRef) (hi : BitVec 30) (records : List Byte)
  /-- HOLDUP_REQUALIFY (R462). -/
  | holdupRequalify (q : CmdRef) (hi : BitVec 30)
  /-- HOLDUP_REQUALIFY_PROFILE (R463). -/
  | holdupRequalifyProfile (q : CmdRef) (hi : BitVec 30) (data : List Byte)
  /-- HOLDUP_THERMAL_PROFILE (R463). -/
  | holdupThermalProfile (q : CmdRef) (hi : BitVec 30) (data : List Byte)
  /-- FLUSH (R285). -/
  | flush (q : CmdRef) (nsid : Nat)
  /-- WRITE (R284). -/
  | write (q : CmdRef) (nsid slba nlb dtype dspec : Nat) (fua : Bool) (ptr : DataPtr)
  /-- READ (R279). -/
  | read (q : CmdRef) (nsid slba nlb : Nat) (bad : List Nat)
  /-- DATASET_MANAGEMENT (R282). -/
  | datasetManagement (q : CmdRef) (nsid : Nat) (ranges : List LbaRange)
  /-- VERIFY (R272). -/
  | verify (q : CmdRef) (nsid slba nlb : Nat) (bad : List Nat)
  /-- PARCEL_READ (R280). -/
  | parcelRead (q : CmdRef) (nsid slba : Nat) (cdw12 : BitVec 32) (bad : List Nat)
  /-- LOAD_PROGRAM (R295). -/
  | loadProgram (q : CmdRef) (pind : Nat) (image : List Byte)
  /-- PROGRAM_ACTIVATION_MANAGEMENT (R295). -/
  | programActivationManagement (q : CmdRef) (pind : Nat) (act : Bool)
  /-- MEMORY_RANGE_SET_MANAGEMENT (R295). -/
  | memoryRangeSetManagement (q : CmdRef) (m : SetMgmt)
  /-- EXECUTE_PROGRAM (R296). -/
  | executeProgram (q : CmdRef) (pind rsid : Nat) (p0 p1 p2 : BitVec 32)
  /-- CP_TIME_LIMIT_EXPIRY (R298). -/
  | cpTimeLimitExpiry (t : TileId)
  /-- MEMORY_COPY (R299). -/
  | memoryCopy (q : CmdRef) (nsid slba nlb slm off : Nat) (bad : List Nat)
  /-- SLM_READ (R299). -/
  | slmRead (q : CmdRef) (slm off len : Nat)
  /-- SLM_WRITE (R299). -/
  | slmWrite (q : CmdRef) (slm off : Nat) (bytes : List Byte)
  /-- MI_DYNAMIC_ADDRESS (R300). -/
  | miDynamicAddress (addr : Fin 128)
  /-- MI_READ_DATA_STRUCTURE (R300). -/
  | miReadDataStructure (kind : Nat)
  /-- MI_SUBSYSTEM_HEALTH_POLL (R300). -/
  | miSubsystemHealthPoll
  /-- MI_CONTROLLER_HEALTH_POLL (R300). -/
  | miControllerHealthPoll (c : Nat)
  /-- MI_CONFIGURATION_SET (R427). -/
  | miConfigurationSet (id value : Nat)
  /-- MI_CONFIGURATION_GET (R300). -/
  | miConfigurationGet (id : Nat)
  /-- MI_VPD_READ (R300). -/
  | miVpdRead (off len : Nat)
  /-- MI_VPD_WRITE (R300). -/
  | miVpdWrite (off : Nat) (bytes : List Byte)
  /-- MI_PAUSE (R300). -/
  | miPause
  /-- MI_RESUME (R300). -/
  | miResume
  /-- MI_ABORT (R300). -/
  | miAbort
  /-- MI_GET_STATE (R300). -/
  | miGetState
  /-- NAND_OP_RESET (R305). -/
  | nandOpReset (lun : Nat)
  /-- NAND_OP_READ (R313). -/
  | nandOpRead (lun block page : Nat)
  /-- NAND_OP_READ_SLC (R305). -/
  | nandOpReadSlc (lun block page : Nat)
  /-- NAND_OP_PROGRAM (R305). -/
  | nandOpProgram (lun : Nat)
  /-- NAND_OP_PROGRAM_SLC (R305). -/
  | nandOpProgramSlc (lun : Nat)
  /-- NAND_OP_ERASE (R305). -/
  | nandOpErase (lun block : Nat)
  /-- NAND_OP_RETRY_SET (R307). -/
  | nandOpRetrySet (lun : Nat)
  /-- NAND_OP_RETRY_CLEAR (R305). -/
  | nandOpRetryClear (lun : Nat)
  /-- NAND_OP_PARAM_READ (R305). -/
  | nandOpParamRead (lun : Nat)
  /-- NAND_CMD (R306). -/
  | nandCmd (lun : Nat)
  /-- NAND_ADDR (R306). -/
  | nandAddr (lun : Nat)
  /-- NAND_DIN (R306). -/
  | nandDin (lun : Nat)
  /-- NAND_DOUT (R306). -/
  | nandDout (lun : Nat) (ok : List Bool) (bytes : List Byte)
  /-- NAND_WAIT (R306). -/
  | nandWait (lun : Nat)
  /-- NAND_POLL (R310). -/
  | nandPoll (lun : Nat) (status : BitVec 8)
  /-- NAND_POLL_TIMEOUT (R310). -/
  | nandPollTimeout (lun : Nat)
  /-- NAND_FEAT (R306). -/
  | nandFeat (lun : Nat)
  /-- NAND_END (R306). -/
  | nandEnd (lun : Nat)
  /-- UNIT_WRITE (R317). -/
  | unitWrite (nsid unit : Nat)
  /-- UNIT_TIMEOUT (R317). -/
  | unitTimeout (nsid unit : Nat)
  /-- IRREGULAR_REFORM (R316). -/
  | irregularReform
  /-- JOURNAL_COMMIT (R322). -/
  | journalCommit
  /-- CHECKPOINT (R322). -/
  | checkpoint
  /-- GC_VICTIM (R331). -/
  | gcVictim
  /-- GC_COMMIT (R331). -/
  | gcCommit
  /-- GC_ERASE (R331). -/
  | gcErase (lun block : Nat) (ok : Bool)
  /-- FTLA_SCAN_VICTIM (R330). -/
  | ftlaScanVictim (rq : Requester) (lun : Fin 1024) (all : Bool)
  /-- FTLA_SCAN_LEAST_WORN (R327). -/
  | ftlaScanLeastWorn (rq : Requester) (lun : Fin 1024) (all : Bool)
  /-- FTLA_SCAN_DONE (R330). -/
  | ftlaScanDone
  /-- DAMDOM_SIGNAL_DETECT (R337). -/
  | damdomSignalDetect (p : Fin 4)
  /-- DAMDOM_TRAIN_DONE (R338). -/
  | damdomTrainDone (p : Fin 4) (x4 : Bool)
  /-- DAMDOM_STATE_TIMEOUT (R337). -/
  | damdomStateTimeout (p : Fin 4)
  /-- DAMDOM_RETRY_WAIT (R337). -/
  | damdomRetryWait (p : Fin 4)
  /-- FLIT_RECEIVE (R340). -/
  | flitReceive (p : Fin 4) (fl : List Byte)
  /-- NAK_REPEAT (R340). -/
  | nakRepeat (p : Fin 4)
  /-- ACK_TIMER (R341). -/
  | ackTimer (p : Fin 4)
  /-- REPLAY_TIMEOUT (R341). -/
  | replayTimeout (p : Fin 4)
  /-- HELLO (R345). -/
  | hello (p : Fin 4)
  /-- HELLO_TIMER (R345). -/
  | helloTimer (p : Fin 4)
  /-- HELLO_TIMEOUT (R345). -/
  | helloTimeout (p : Fin 4)
  /-- NAK (R341). -/
  | nak (p : Fin 4)
  /-- CREDIT (R343). -/
  | credit (p : Fin 4)
  /-- TREQ (R363). -/
  | treq (p : Fin 4) (dt2 dt3 : Nat)
  /-- TRSP (R363). -/
  | trsp (p : Fin 4) (dt : Nat)
  /-- DOWN (R344). -/
  | down (p : Fin 4)
  /-- FRAME_FORWARD (R353). -/
  | frameForward (p : Fin 4) (vc : Fin 3)
  /-- PROBE (R352). -/
  | probe (p : Fin 4)
  /-- PROBE_REPLY (R352). -/
  | probeReply (p : Fin 4)
  /-- ASSIGN (R352). -/
  | assign (p : Fin 4)
  /-- ROUTES (R353). -/
  | routes (p : Fin 4)
  /-- EVENT (R352). -/
  | event (p : Fin 4)
  /-- SEGMENT_DISCOVERY (R352). -/
  | segmentDiscovery
  /-- MRESP (R369). -/
  | mresp (p : Fin 4)
  /-- MREQ_IDENT (R369). -/
  | mreqIdent (p : Fin 4)
  /-- MREQ_LOG (R369). -/
  | mreqLog (p : Fin 4)
  /-- MREQ_FLOWQ (R369). -/
  | mreqFlowq (p : Fin 4)
  /-- MREQ_TIMEQ (R369). -/
  | mreqTimeq (p : Fin 4) (dt : Nat)
  /-- MREQ_HWLIST (R369). -/
  | mreqHwlist (p : Fin 4)
  /-- MREQ_UNDEFINED (R369). -/
  | mreqUndefined (p : Fin 4)
  /-- OPEN (R355). -/
  | openFrame (p : Fin 4) (dt : Nat)
  /-- DATA (R357). -/
  | data (p : Fin 4)
  /-- HWR (R359). -/
  | hwr (p : Fin 4)
  /-- HRD (R359). -/
  | hrd (p : Fin 4)
  /-- HTAG (R360). -/
  | htag (p : Fin 4)
  /-- FAB_HWTAG_WRITE (R360). -/
  | fabHwtagWrite (rq : Requester) (win : Fin 64) (slot : Fin 1048576)
  /-- FAB_TIMESET (R362). -/
  | fabTimeset (rq : Requester) (t : BitVec 64)
  /-- TIME_EXCHANGE_TIMER (R363). -/
  | timeExchangeTimer (dt : Nat)
  /-- TIME_EXCHANGE_STALE (R365). -/
  | timeExchangeStale
  /-- DRAM_REQUEST_SERVE (R380). -/
  | dramRequestServe (c : Fin 24) (now fill0 fill1 : Nat) (arrivals : List DramReq)
  /-- REFRESH_DUE (R383). -/
  | refreshDue (c : Fin 24) (bank : Fin 16)
  /-- OWED_REFRESH_ISSUE (R383). -/
  | owedRefreshIssue (c : Fin 24)
  /-- MR4_POLL (R382). -/
  | mr4Poll (c : Fin 24) (rate : Fin 32)
  /-- RETRAIN_PAUSE_DUE (R384). -/
  | retrainPauseDue (c : Fin 24)
  /-- RETRAIN_DEFER_EXPIRY (R385). -/
  | retrainDeferExpiry (c : Fin 24)
  /-- RETRAIN_PAUSE_START (R385). -/
  | retrainPauseStart (c : Fin 24)
  /-- RETRAIN_PAUSE_END (R384). -/
  | retrainPauseEnd (c : Fin 24) (drift : Nat) (ok : Bool)
  /-- DRAM_SCRUB_LINE (R377). -/
  | dramScrubLine (upset : Fin 3) (slow : Bool)
  /-- DRAM_SEGMENT_INIT_DONE (R389). -/
  | dramSegmentInitDone
  /-- DMA_CLAIM (R390). -/
  | dmaClaim (vs : List DmaVia) (ch : Fin 64)
  /-- DMA_RELEASE (R391). -/
  | dmaRelease (v : DmaVia) (ch : Fin 64)
  /-- DMA_GO (R394). -/
  | dmaGo (v : DmaVia) (ch : Fin 64)
  /-- DMA_PAUSE (R395). -/
  | dmaPause (v : DmaVia) (ch : Fin 64)
  /-- DMA_UNPAUSE (R395). -/
  | dmaUnpause (v : DmaVia) (ch : Fin 64)
  /-- DMA_PAUSE_DRAINED (R395). -/
  | dmaPauseDrained (ch : Fin 64)
  /-- DMA_ABORT (R396). -/
  | dmaAbort (v : DmaVia) (ch : Fin 64)
  /-- DMA_KICK (R402). -/
  | dmaKick (rq : Requester) (ch : Fin 64)
  /-- DMA_MOVE (R399). -/
  | dmaMove (ch : Fin 64) (k : Nat)
  /-- DMA_LOOP (R399). -/
  | dmaLoop (ch : Fin 64)
  /-- DMA_WAIT (R399). -/
  | dmaWait (ch : Fin 64)
  /-- DMA_WAIT_WAKE (R400). -/
  | dmaWaitWake (e : Fin 64)
  /-- DMA_WAIT_TIMEOUT (R399). -/
  | dmaWaitTimeout (ch : Fin 64)
  /-- DMA_SIGNAL (R399). -/
  | dmaSignal (ch : Fin 64)
  /-- DMA_END (R399). -/
  | dmaEnd (ch : Fin 64)
  /-- DMA_DESCRIPTOR (R402). -/
  | dmaDescriptor (ch : Fin 64) (k : Nat)
  /-- DMA_CQ_HEAD_WRITE (R403). -/
  | dmaCqHeadWrite (q : Fin 8) (v : BitVec 16)
  /-- DMA_EVENT_SET (R400). -/
  | dmaEventSet (n : Fin 2) (v : BitVec 32)
  /-- DIGEST_CLAIM (R407). -/
  | digestClaim (vs : List DmaVia) (n : Fin 64)
  /-- DIGEST_RELEASE (R407). -/
  | digestRelease (v : DmaVia) (n : Fin 64)
  /-- DIGEST_INIT (R408). -/
  | digestInit (v : DmaVia) (n : Fin 64) (alg : Fin 4) (sealed : Bool)
  /-- DIGEST_FEED (R408). -/
  | digestFeed (v : DmaVia) (n : Fin 64)
  /-- DIGEST_FEED_DONE (R409). -/
  | digestFeedDone (n : Fin 64)
  /-- DIGEST_FINAL (R409). -/
  | digestFinal (v : DmaVia) (n : Fin 64)
  /-- DIGEST_ABSORB (R408). -/
  | digestAbsorb (v : DmaVia) (n src : Fin 64)
  /-- DIGEST_COMPARE (R411). -/
  | digestCompare (v : DmaVia) (n : Fin 64) (agree : Bool)
  /-- DIGEST_WIPE (R408). -/
  | digestWipe (v : DmaVia) (n : Fin 64)
  /-- KEYS_GENERATE (R414). -/
  | keysGenerate (rq : Requester) (slot : Fin 512) (ktype : BitVec 8) (usage : Fin 16)
  /-- KEYS_ERASE (R417). -/
  | keysErase (rq : Requester) (slot : Fin 512)
  /-- DRBG_READY (R418). -/
  | drbgReady
  /-- DRBG_RESEED (R418). -/
  | drbgReseed
  /-- NOISE_TEST_FAILURE (R418). -/
  | noiseTestFailure
  /-- KEYS_RNG_READ (R418). -/
  | keysRngRead (rq : Requester)
  /-- VAULT_ACQUIRE (R419). -/
  | vaultAcquire (rqs : List Requester)
  /-- VAULT_RELEASE (R419). -/
  | vaultRelease (rq : Requester)
  /-- VAULT_OPEN (R421). -/
  | vaultOpen (rq : Requester) (mode : Fin 3) (decrypt : Bool) (slot : Fin 512)
  /-- VAULT_STEP (R421). -/
  | vaultStep (rq : Requester)
  /-- VAULT_STEP_DONE (R422). -/
  | vaultStepDone (bad : Option Nat)
  /-- VAULT_CLOSE (R421). -/
  | vaultClose (rq : Requester)
  /-- VAULT_UNWRAP (R423). -/
  | vaultUnwrap (rq : Requester) (slot : Fin 512) (kek : Fin 514)
  /-- VAULT_WRAP (R423). -/
  | vaultWrap (rq : Requester) (slot : Fin 512) (kek : Fin 514)
  /-- VAULT_LEASE_LAPSE (R420). -/
  | vaultLeaseLapse
  /-- LIFECYCLE_ADVANCE (R427). -/
  | lifecycleAdvance (rq : Requester) (target : Fin 4) (keyword : BitVec 16)
  /-- LIFECYCLE_BURN_DONE (R427). -/
  | lifecycleBurnDone
  /-- GATE_ERASE (R438). -/
  | gateErase (c : CoreId)
  /-- GATE_PROGRAM (R433). -/
  | gateProgram (c : CoreId)
  /-- GATE_COMMIT (R448). -/
  | gateCommit (c : CoreId) (fault ok : Bool)
  /-- GATE_ACTIVATE (R448). -/
  | gateActivate (c : CoreId) (fault ok : Bool)
  /-- GATE_GROWN (R442). -/
  | gateGrown (c : CoreId) (ok0 ok1 : Bool)
  /-- CSTORE_ERASE_SEQUENCE (R438). -/
  | cstoreEraseSequence (rq : Requester) (addr : BitVec 26)
  /-- CSTORE_PAGE_PROGRAM (R434). -/
  | cstorePageProgram (rq : Requester) (addr : BitVec 26) (src : BitVec 22)
  /-- CSTORE_RECORD_PROGRAM (R434). -/
  | cstoreRecordProgram (rq : Requester) (addr : BitVec 26) (src : BitVec 22)
  /-- CSTORE_OP_DONE (R434). -/
  | cstoreOpDone (ok : Bool)
  /-- WATCHDOG_KICK (R451). -/
  | watchdogKick (rq : Requester) (v : BitVec 16)
  /-- WATCHDOG_BOOTOK (R453). -/
  | watchdogBootok (rq : Requester)
  /-- WATCHDOG_WARN (R451). -/
  | watchdogWarn
  /-- WATCHDOG_EXPIRY (R452). -/
  | watchdogExpiry
  /-- POWER_FAIL (R461). -/
  | powerFail (pin : Option (Fin 16))
  /-- FLUSH_END (R465). -/
  | flushEnd (us : Nat)
  /-- POSTFLUSH_RELEASE (R476). -/
  | postflushRelease (die : Int)
  /-- VOLTAGE_SAMPLE (R454). -/
  | voltageSample (mv : List Nat)
  /-- CHARGER_TICK (R455). -/
  | chargerTick
  /-- QUAL_CHARGE_TIMEOUT (R458). -/
  | qualChargeTimeout
  /-- STRING_TEST_SETTLE (R458). -/
  | stringTestSettle (mv : Nat)
  /-- STRING_LOAD_SAMPLE (R458). -/
  | stringLoadSample (mv : Nat)
  /-- STRING_TEST_END (R458). -/
  | stringTestEnd (mv : Nat)
  /-- HOLD_SAVE (R456). -/
  | holdSave (rq : Requester)
  /-- HOLD_SAVE_DONE (R456). -/
  | holdSaveDone
  /-- THERM_SAVE (R471). -/
  | thermSave (rq : Requester)
  /-- THERM_SAVE_DONE (R471). -/
  | thermSaveDone
  /-- CELLAR_REPLAY_WRITE (R466). -/
  | cellarReplayWrite
  /-- THERMAL_SENSOR_READ (R468). -/
  | thermalSensorRead (readings : List SensorRead) (rpm : List Nat) (die : Int)
  /-- FAN_STALL (R469). -/
  | fanStall (n : Fin 4)
  /-- THERMAL_TRIP (R471). -/
  | thermalTrip (die : Int)
  /-- GPIO_CLAIM (R473). -/
  | gpioClaim (rq : Requester) (pin : Fin 16)
  /-- GPIO_RELEASE (R473). -/
  | gpioRelease (rq : Requester) (pin : Fin 16)
  /-- GPIO_EDGE (R473). -/
  | gpioEdge (n : Fin 16) (level : Bool)
  /-- AON_POWER_ON (R474). -/
  | aonPowerOn
  /-- COLD_RESET (R474). -/
  | coldReset
  /-- SYS_RST_RELEASE (R502). -/
  | sysRstRelease (bifur : Bool)
  /-- MAIN_RAIL_LOW (R503). -/
  | mainRailLow (recorded us : Nat)
  /-- AON_RAIL_LOW (R503). -/
  | aonRailLow (recorded us : Nat)
  /-- WARM_RESET (R478). -/
  | warmReset (rq : Requester)
  /-- HOUSE_CORE_RUN (R481). -/
  | houseCoreRun (mask : Fin 8)
  /-- PHASE_CLOCKS (R481). -/
  | phaseClocks
  /-- PHASE_FUSES (R481). -/
  | phaseFuses (ok : Bool)
  /-- PHASE_ROM (R481). -/
  | phaseRom
  /-- PHASE_CSTORE (R440). -/
  | phaseCstore (bad : List Nat)
  /-- PHASE_VERIFY (R449). -/
  | phaseVerify (fault0 fault1 : Bool)
  /-- PHASE_FWLOAD (R437). -/
  | phaseFwload
  /-- PHASE_KEYS (R481). -/
  | phaseKeys (ok : Bool)
  /-- PHASE_DRAM (R372). -/
  | phaseDram (pop : Option (Fin 3 × Bool)) (trains : Bool)
  /-- PHASE_RECORDS (R481). -/
  | phaseRecords (bad : List Nat)
  /-- PHASE_NAND (R309). -/
  | phaseNand (ids : List (Nat × Nat)) (bad : List Nat) (marks : List (Nat × Nat))
  /-- PHASE_REPLAY (R481). -/
  | phaseReplay (indexOk : Bool) (fail : Option Bool)
  /-- RESCUE_WRITE (R480). -/
  | rescueWrite
  /-- PHASE_READY (R481). -/
  | phaseReady
  /-- PHASE_LIMIT_EXPIRY (R481). -/
  | phaseLimitExpiry
  /-- TAP_RESET (R474). -/
  | tapReset
  /-- TAP_EXTEST (R490). -/
  | tapExtest (levels shifted : Nat)
  /-- TAP_IDCODE (R490). -/
  | tapIdcode
  /-- TAP_SAMPLE_PRELOAD (R490). -/
  | tapSamplePreload (levels shifted : Nat)
  /-- TAP_HIGHZ (R490). -/
  | tapHighz
  /-- TAP_CLAMP (R490). -/
  | tapClamp
  /-- TAP_DEBUG (R490). -/
  | tapDebug
  /-- TAP_BYPASS (R490). -/
  | tapBypass
  /-- DEBUG_READ (R491). -/
  | debugRead (word : BitVec 46)
  /-- DEBUG_WRITE (R491). -/
  | debugWrite (word : BitVec 46) (v : BitVec 32)
  /-- ILLEGAL_INSTRUCTION (R127). -/
  | illegalInstruction (c : CoreId) (w : InstrWord)
  /-- FETCH_FAULT (R107). -/
  | fetchFault (c : CoreId)
  /-- DMA_UNDEFINED_INSTRUCTION (R405). -/
  | dmaUndefinedInstruction (ch : Fin 64)
  /-- INVALID_COMMAND_OPCODE (R272). -/
  | invalidCommandOpcode (q : CmdRef) (opcode : Nat)
  /-- FRAME_KIND_UNDEFINED (R349). -/
  | frameKindUndefined (p : Fin 4)
  /-- D3HOT_TRANSITION (R511). -/
  | d3hotTransition (p : Fin 2) (d3 : Bool)
  /-- PCIE_L1_ENTRY (R264). -/
  | pcieL1Entry (p : Fin 2)
  /-- PCIE_L1_EXIT (R264). -/
  | pcieL1Exit (p : Fin 2)
  /-- SERDES_PLL_LOCK (R35). -/
  | serdesPllLock (damdom : Bool)
  /-- RTC_CRYSTAL_START (R502). -/
  | rtcCrystalStart
  deriving DecidableEq, Repr

end Sys2Proof
end

