-- ==== Sys2Proof/Config.lean ====
section
/-! DEFINITION. Sys2Proof/Config.lean: what the manual leaves open, as opaque constants with no body: nothing in Lean can
evaluate one or prove a value of it, so a claim about the model is true whatever it is. Each is named in the assumption
log (notes/assumptions). -/

namespace Sys2Proof

/-- The 8 check bits of the SEC-DED (72,64) code of R173; the manual fixes what the code detects and not its matrix. -/
opaque Config.checkBits : BitVec 64 → BitVec 8

/-- The bytes of the boot ROM (Table 1.9), which the manual does not list. -/
opaque Config.bootRom : Nat → Byte

/-- TCLK cycles that pass beyond the issue cost of an instruction (R157, R164): misses, crossings, waits and idle time.
Its argument is the state's free-value counter. -/
opaque Config.stallCycles : Nat → Nat

/-- A fresh byte whose value the manual leaves open; its argument is the state's free-value counter. -/
opaque Config.freeByte : Nat → Byte

/-- A fresh 32-bit value the manual leaves open; its argument is the state's free-value counter. -/
opaque Config.freeWord : Nat → Word

/-- The random bits of the DRBG (R418); the argument is the state's free-value counter. -/
opaque Config.drbgByte : Nat → Byte

/-- The fine tables that the map's place in DRAM holds (R319, FTLA_FINE). -/
opaque Config.fineTables : Nat

/-- Does an LMS signature (its 1,612 bytes) over a header verify under a public key (R445, RFC 8554)? Arguments: header,
signature, public key. -/
opaque Config.lmsVerify : List Byte → List Byte → List Byte → Bool

/-- The status codes that the Computational Programs and SLM command sets name for a program index not loaded, an invalid
memory range set and an invalid SLM range (R301), which the manual does not list. -/
opaque Config.scNoProgram : Nat
opaque Config.scBadSet : Nat
opaque Config.scBadSlm : Nat

/-- The logical sectors that namespaces can have together (Namespace Insufficient Capacity, Table 9.12). -/
opaque Config.nsCapacity : Nat

/-- The vital product data as manufactured (R300). -/
opaque Config.vpdByte : Nat → Byte

end Sys2Proof
end

