-- ==== Sys2Proof/Machine/Tbl.lean ====
section
/-! DEFINITION. Sys2Proof/Machine/Tbl.lean: the one shape in which the model holds sparse data by number (memory by
address, register fields by their place, cores, tiles, flows, blocks by their index): a list of (key, value) pairs in
ONE canonical form, keys strictly rising and no entry equal to what an unlisted key reads as. -/

namespace Sys2Proof.Machine

/-- The value at a key; an unlisted key reads as `d`. -/
def tblGet {α : Type} (d : α) : List (Nat × α) → Nat → α
  | [], _ => d
  | (k, v) :: r, n => if n = k then v else tblGet d r n

/-- The table without a key. -/
def tblErase {α : Type} : List (Nat × α) → Nat → List (Nat × α)
  | [], _ => []
  | (k, v) :: r, n => if n = k then r else (k, v) :: tblErase r n

/-- The table with a key listed with a value, the keys still rising. -/
def tblPut {α : Type} : List (Nat × α) → Nat → α → List (Nat × α)
  | [], n, x => [(n, x)]
  | (k, v) :: r, n, x =>
    if n < k then (n, x) :: (k, v) :: r
    else if n = k then (n, x) :: r
    else (k, v) :: tblPut r n x

/-- Write a key: a value equal to what an unlisted key reads as removes the entry, so equal tables are equal lists. -/
def tblSet {α : Type} [DecidableEq α] (d : α) (t : List (Nat × α)) (n : Nat) (x : α) : List (Nat × α) :=
  if x = d then tblErase t n else tblPut t n x

/-- Every key of the table is above `b`, and the keys rise. -/
def tblAbove {α : Type} [DecidableEq α] (d : α) : Nat → List (Nat × α) → Bool
  | _, [] => true
  | b, (k, v) :: r => decide (b < k) && decide (v ≠ d) && tblAbove d k r

/-- The canonical form: keys strictly rising, no entry equal to what an unlisted key reads as. -/
def tblWf {α : Type} [DecidableEq α] (d : α) : List (Nat × α) → Bool
  | [] => true
  | (k, v) :: r => decide (v ≠ d) && tblAbove d k r

/-- Keep the entries whose key satisfies a test. -/
def tblKeep {α : Type} (p : Nat → Bool) (t : List (Nat × α)) : List (Nat × α) := t.filter (fun e => p e.1)

/-- The keys a table lists, in rising order. -/
def tblKeys {α : Type} (t : List (Nat × α)) : List Nat := t.map Prod.fst

/-- Write a list of values at consecutive keys. -/
def tblSetRange {α : Type} [DecidableEq α] (d : α) : List (Nat × α) → Nat → List α → List (Nat × α)
  | t, _, [] => t
  | t, n, x :: xs => tblSetRange d (tblSet d t n x) (n + 1) xs

/-- Read `len` values at consecutive keys. -/
def tblRange {α : Type} (d : α) (t : List (Nat × α)) (n : Nat) : Nat → List α
  | 0 => []
  | len + 1 => tblGet d t n :: tblRange d t (n + 1) len

end Sys2Proof.Machine
end

