-- ==== Sys2Proof/Machine/RegTable.lean ====
section
/-! DEFINITION. Sys2Proof/Machine/RegTable.lean: the register cards of the manual as data: for every register its
block, its offset and its fields with access code (Table 0.3), reset value and reserved encodings (R16). A FIELD is the
unit of register state: it is named by the offset of its register from 0x48_0000_0000 and by its low bit, so that one
field has one home and two fields never share a bit. `R.<REGISTER>_<FIELD>` names the field; its arguments, where it has
any, are the block's instance (tile, channel, port), then the register's index n, then k. -/

namespace Sys2Proof.Machine

/-- A register field: its register's offset in register space, its low bit and its width. -/
structure Fld where
  off : Nat
  lo : Nat
  width : Nat
  deriving DecidableEq, Repr

/-- The key under which a field is held. -/
def Fld.key (f : Fld) : Nat := 32 * f.off + f.lo

/-- The access codes of Table 0.3. -/
inductive Access where
  | ro | rw | wo | w1c | w1s | rwl
  deriving DecidableEq, Repr

/-- Which values of a multi-bit field are not reserved encodings (R16). `special`: the condition joins other fields or
the size of memory and is written out in the register write. -/
inductive Legal where
  | any
  | ranges (rs : List (Nat × Nat))
  | mult (k : Nat)
  | special
  deriving DecidableEq, Repr

/-- The value a field holds at reset. -/
inductive ResetVal where
  | val (v : Nat)
  | perIndex (vs : List Nat)
  | index
  | identity
  deriving DecidableEq, Repr

/-- One field of a register card. -/
structure CardField where
  lo : Nat
  width : Nat
  acc : Access
  reset : ResetVal
  legal : Legal
  deriving DecidableEq, Repr

/-- One register card: offset in the block's window, `n1` registers `s1` apart, each `n2` registers `s2` apart. -/
structure Card where
  off : Nat
  n1 : Nat
  s1 : Nat
  n2 : Nat
  s2 : Nat
  fields : List CardField
  deriving DecidableEq, Repr

/-- One block of Table 1.11: `count` windows of 64 KiB from `base`. -/
structure BlockCards where
  base : Nat
  count : Nat
  cards : List Card
  deriving DecidableEq, Repr

/-- The size of a block's window (R53). -/
def blockWindow : Nat := 0x10000

def R.SYS_ID_PART : Fld := ⟨0x10, 0, 16⟩
def R.SYS_ID_STEPPING : Fld := ⟨0x10, 16, 8⟩
def R.SYS_ID_FAMILY : Fld := ⟨0x10, 24, 8⟩
def R.SYS_CLKSTAT_ROOT_LOCK : Fld := ⟨0x14, 0, 1⟩
def R.SYS_CLKSTAT_PCIE_LOCK : Fld := ⟨0x14, 1, 1⟩
def R.SYS_CLKSTAT_DAMDOM_LOCK : Fld := ⟨0x14, 2, 1⟩
def R.SYS_CLKSTAT_AON_OSC : Fld := ⟨0x14, 3, 1⟩
def R.SYS_CLKSTAT_RTC_OSC : Fld := ⟨0x14, 4, 1⟩
def R.SYS_CLKSTAT_TCLK_ON : Fld := ⟨0x14, 8, 1⟩
def R.SYS_CLKSTAT_NCLK_ON : Fld := ⟨0x14, 9, 1⟩
def R.SYS_CLKSTAT_MCLK_ON : Fld := ⟨0x14, 10, 1⟩
def R.SYS_CLKSTAT_FCLK_ON : Fld := ⟨0x14, 11, 1⟩
def R.SYS_CLKSTAT_SCLK_ON : Fld := ⟨0x14, 12, 1⟩
def R.SYS_CLKSTAT_ROOT_LOSS : Fld := ⟨0x14, 16, 1⟩
def R.SYS_HWIN_BASE (n : Nat) : Fld := ⟨0x20 + 0x4 * n, 0, 18⟩
def R.SYS_HWIN_VALID (n : Nat) : Fld := ⟨0x20 + 0x4 * n, 31, 1⟩
def R.SYS_HCCTRL_IC_EN (n : Nat) : Fld := ⟨0x40 + 0x4 * n, 0, 1⟩
def R.SYS_HCCTRL_DC_EN (n : Nat) : Fld := ⟨0x40 + 0x4 * n, 1, 1⟩
def R.SYS_HCCTRL_IC_INV (n : Nat) : Fld := ⟨0x40 + 0x4 * n, 4, 1⟩
def R.SYS_HCCTRL_DC_INV (n : Nat) : Fld := ⟨0x40 + 0x4 * n, 5, 1⟩
def R.SYS_HCCTRL_DC_CLINV (n : Nat) : Fld := ⟨0x40 + 0x4 * n, 6, 1⟩
def R.SYS_HCCTRL_IC_OK (n : Nat) : Fld := ⟨0x40 + 0x4 * n, 8, 1⟩
def R.SYS_HCCTRL_DC_OK (n : Nat) : Fld := ⟨0x40 + 0x4 * n, 9, 1⟩
def R.SYS_HCCTRL_BUSY (n : Nat) : Fld := ⟨0x40 + 0x4 * n, 12, 1⟩
def R.SYS_HCCTRL_CERR (n : Nat) : Fld := ⟨0x40 + 0x4 * n, 16, 1⟩
def R.SYS_CTRL_LOCK : Fld := ⟨0x0, 31, 1⟩
def R.SYS_STATUS_CFGERR : Fld := ⟨0x4, 8, 1⟩
def R.SYS_STATUS_CLAIMERR : Fld := ⟨0x4, 9, 1⟩
def R.SYS_RSTCTL_HCRUN : Fld := ⟨0x50, 0, 3⟩
def R.SYS_RSTCTL_WARM : Fld := ⟨0x50, 16, 16⟩
def R.SYS_RSTCAUSE_AONPOR : Fld := ⟨0x54, 0, 1⟩
def R.SYS_RSTCAUSE_COLD : Fld := ⟨0x54, 1, 1⟩
def R.SYS_RSTCAUSE_SWWARM : Fld := ⟨0x54, 2, 1⟩
def R.SYS_RSTCAUSE_WDT : Fld := ⟨0x54, 3, 1⟩
def R.SYS_RSTCAUSE_DFAULT : Fld := ⟨0x54, 4, 1⟩
def R.SYS_RSTCAUSE_DRAMFAIL : Fld := ⟨0x54, 5, 1⟩
def R.SYS_RSTCAUSE_FLUSH : Fld := ⟨0x54, 6, 1⟩
def R.SYS_RSTCAUSE_HELD : Fld := ⟨0x54, 7, 1⟩
def R.SYS_RSTCAUSE_RETAINED : Fld := ⟨0x54, 8, 1⟩
def R.SYS_RSTCAUSE_RETLOST : Fld := ⟨0x54, 9, 1⟩
def R.SYS_RSTCAUSE_DFCORE : Fld := ⟨0x54, 10, 2⟩
def R.SYS_PHASE_PHASE : Fld := ⟨0x58, 0, 5⟩
def R.SYS_PHASE_FAILPH : Fld := ⟨0x58, 8, 5⟩
def R.SYS_PHASE_DETAIL : Fld := ⟨0x58, 16, 8⟩
def R.SYS_PHASE_FAIL : Fld := ⟨0x58, 31, 1⟩
def R.SYS_RETLOST_COUNT : Fld := ⟨0x5c, 0, 32⟩
def R.SYS_RETBASE_BASE : Fld := ⟨0x60, 0, 28⟩
def R.SYS_RETBASE_VALID : Fld := ⟨0x60, 31, 1⟩
def R.ECC_CTRL_EN : Fld := ⟨0x10000, 0, 1⟩
def R.ECC_CTRL_LOCK : Fld := ⟨0x10000, 31, 1⟩
def R.ECC_STATUS_STATE : Fld := ⟨0x10004, 0, 2⟩
def R.ECC_STATUS_CFGERR : Fld := ⟨0x10004, 8, 1⟩
def R.ECC_STATUS_CLAIMERR : Fld := ⟨0x10004, 9, 1⟩
def R.ECC_STATUS_PASSES : Fld := ⟨0x10004, 16, 16⟩
def R.ECC_ISR_CE : Fld := ⟨0x10008, 0, 1⟩
def R.ECC_ISR_UE : Fld := ⟨0x10008, 1, 1⟩
def R.ECC_ISR_POISON : Fld := ⟨0x10008, 2, 1⟩
def R.ECC_ISR_OVERRUN : Fld := ⟨0x10008, 3, 1⟩
def R.ECC_ISR_REPDONE : Fld := ⟨0x10008, 4, 1⟩
def R.ECC_IER_CE : Fld := ⟨0x1000c, 0, 1⟩
def R.ECC_IER_UE : Fld := ⟨0x1000c, 1, 1⟩
def R.ECC_IER_POISON : Fld := ⟨0x1000c, 2, 1⟩
def R.ECC_IER_OVERRUN : Fld := ⟨0x1000c, 3, 1⟩
def R.ECC_IER_REPDONE : Fld := ⟨0x1000c, 4, 1⟩
def R.ECC_SCRUB_PERIOD : Fld := ⟨0x10010, 0, 16⟩
def R.ECC_CECNT_COUNT : Fld := ⟨0x10014, 0, 32⟩
def R.ECC_UECNT_COUNT : Fld := ⟨0x10018, 0, 32⟩
def R.ECC_LASTCE_MACRO : Fld := ⟨0x1001c, 0, 12⟩
def R.ECC_LASTCE_WORD : Fld := ⟨0x1001c, 12, 15⟩
def R.ECC_LASTCE_VALID : Fld := ⟨0x1001c, 31, 1⟩
def R.ECC_LASTUE_MACRO : Fld := ⟨0x10020, 0, 12⟩
def R.ECC_LASTUE_WORD : Fld := ⟨0x10020, 12, 15⟩
def R.ECC_LASTUE_VALID : Fld := ⟨0x10020, 31, 1⟩
def R.ECC_REPAIR_MACRO : Fld := ⟨0x10024, 0, 12⟩
def R.ECC_REPAIR_KIND : Fld := ⟨0x10024, 12, 2⟩
def R.ECC_REPAIR_INDEX : Fld := ⟨0x10024, 14, 9⟩
def R.ECC_REPAIR_GO : Fld := ⟨0x10024, 31, 1⟩
def R.ECC_REPRES_RESULT : Fld := ⟨0x10028, 0, 3⟩
def R.ECC_REPRES_ROWS_LEFT : Fld := ⟨0x10028, 3, 2⟩
def R.ECC_REPRES_COLS_LEFT : Fld := ⟨0x10028, 5, 2⟩
def R.ECC_TEST_CTRL_EN : Fld := ⟨0x10030, 0, 1⟩
def R.ECC_TEST_CTRL_OP : Fld := ⟨0x10030, 1, 2⟩
def R.ECC_TEST_CTRL_MACRO : Fld := ⟨0x10030, 16, 12⟩
def R.ECC_TEST_ADDR_WORD : Fld := ⟨0x10034, 0, 15⟩
def R.ECC_TEST_DLO_DATA : Fld := ⟨0x10038, 0, 32⟩
def R.ECC_TEST_DHI_DATA : Fld := ⟨0x1003c, 0, 32⟩
def R.ECC_TEST_CHK_CHK : Fld := ⟨0x10040, 0, 8⟩
def R.DISP_CTRL_EN : Fld := ⟨0x20000, 0, 1⟩
def R.DISP_CTRL_LOCK : Fld := ⟨0x20000, 31, 1⟩
def R.DISP_STATUS_STATE : Fld := ⟨0x20004, 0, 2⟩
def R.DISP_STATUS_CFGERR : Fld := ⟨0x20004, 8, 1⟩
def R.DISP_STATUS_CLAIMERR : Fld := ⟨0x20004, 9, 1⟩
def R.DISP_STATUS_HOST_BP : Fld := ⟨0x20004, 16, 1⟩
def R.DISP_STATUS_FAB_BP : Fld := ⟨0x20004, 17, 1⟩
def R.DISP_ISR_SPILL : Fld := ⟨0x20008, 0, 1⟩
def R.DISP_ISR_LANDFULL : Fld := ⟨0x20008, 1, 1⟩
def R.DISP_ISR_INFLIGHT : Fld := ⟨0x20008, 2, 1⟩
def R.DISP_ISR_BADDECL : Fld := ⟨0x20008, 3, 1⟩
def R.DISP_ISR_SHORT : Fld := ⟨0x20008, 4, 1⟩
def R.DISP_ISR_LONG : Fld := ⟨0x20008, 5, 1⟩
def R.DISP_IER_SPILL : Fld := ⟨0x2000c, 0, 1⟩
def R.DISP_IER_LANDFULL : Fld := ⟨0x2000c, 1, 1⟩
def R.DISP_IER_INFLIGHT : Fld := ⟨0x2000c, 2, 1⟩
def R.DISP_IER_BADDECL : Fld := ⟨0x2000c, 3, 1⟩
def R.DISP_IER_SHORT : Fld := ⟨0x2000c, 4, 1⟩
def R.DISP_IER_LONG : Fld := ⟨0x2000c, 5, 1⟩
def R.DISP_PART_HOST_STG : Fld := ⟨0x20010, 0, 7⟩
def R.DISP_PART_HOST_RATE : Fld := ⟨0x20010, 8, 8⟩
def R.DISP_PART_LEND : Fld := ⟨0x20010, 16, 1⟩
def R.DISP_INFLIGHT_COUNT : Fld := ⟨0x20014, 0, 14⟩
def R.DISP_INFLIGHT_LIMIT : Fld := ⟨0x20014, 16, 14⟩
def R.DISP_STEAL_STEAL_MIN : Fld := ⟨0x20018, 0, 7⟩
def R.DISP_STEAL_STEAL_EN : Fld := ⟨0x20018, 8, 1⟩
def R.DISP_STEAL_BACKOFF : Fld := ⟨0x20018, 16, 8⟩
def R.DISP_GAPTO_GAP : Fld := ⟨0x2001c, 0, 16⟩
def R.DISP_LAND_BASE_BASE (n : Nat) : Fld := ⟨0x20020 + 0x8 * n, 0, 28⟩
def R.DISP_LAND_SIZE_SIZE (n : Nat) : Fld := ⟨0x20024 + 0x8 * n, 0, 18⟩
def R.DISP_UNBOUND_COUNT : Fld := ⟨0x20030, 0, 32⟩
def R.DISP_BADDECL_COUNT : Fld := ⟨0x20034, 0, 32⟩
def R.DISP_DEQ_OCC (n : Nat) : Fld := ⟨0x20100 + 0x4 * n, 0, 7⟩
def R.DISP_DEQ_BUSY (n : Nat) : Fld := ⟨0x20100 + 0x4 * n, 7, 1⟩
def R.DISP_DEQ_STOLEN (n : Nat) : Fld := ⟨0x20100 + 0x4 * n, 16, 16⟩
def R.RET_CTRL_LOCK : Fld := ⟨0x30000, 31, 1⟩
def R.RET_STATUS_CFGERR : Fld := ⟨0x30004, 8, 1⟩
def R.RET_STATUS_CLAIMERR : Fld := ⟨0x30004, 9, 1⟩
def R.RET_ISR_STALL : Fld := ⟨0x30008, 0, 1⟩
def R.RET_ISR_TIMEOUT : Fld := ⟨0x30008, 1, 1⟩
def R.RET_ISR_FAIL : Fld := ⟨0x30008, 2, 1⟩
def R.RET_ISR_OSTGFULL : Fld := ⟨0x30008, 3, 1⟩
def R.RET_IER_STALL : Fld := ⟨0x3000c, 0, 1⟩
def R.RET_IER_TIMEOUT : Fld := ⟨0x3000c, 1, 1⟩
def R.RET_IER_FAIL : Fld := ⟨0x3000c, 2, 1⟩
def R.RET_IER_OSTGFULL : Fld := ⟨0x3000c, 3, 1⟩
def R.RET_PTO_TIME : Fld := ⟨0x30010, 0, 24⟩
def R.RET_STALL_TIME : Fld := ⟨0x30014, 0, 24⟩
def R.RET_OSTG_BASE_BASE : Fld := ⟨0x30018, 0, 28⟩
def R.RET_OSTG_SIZE_SIZE : Fld := ⟨0x3001c, 0, 18⟩
def R.RET_OSTG_USED_USED : Fld := ⟨0x30020, 0, 18⟩
def R.RET_LASTFAIL_FLOW : Fld := ⟨0x30024, 0, 18⟩
def R.RET_LASTFAIL_CAUSE : Fld := ⟨0x30024, 18, 3⟩
def R.RET_LASTFAIL_VALID : Fld := ⟨0x30024, 31, 1⟩
def R.RET_STALLFLOW_FLOW : Fld := ⟨0x30028, 0, 18⟩
def R.RET_STALLFLOW_VALID : Fld := ⟨0x30028, 31, 1⟩
def R.FLOW_CTRL_LOCK : Fld := ⟨0x40000, 31, 1⟩
def R.FLOW_STATUS_CFGERR : Fld := ⟨0x40004, 8, 1⟩
def R.FLOW_STATUS_CLAIMERR : Fld := ⟨0x40004, 9, 1⟩
def R.FLOW_STATUS_CMD_BUSY : Fld := ⟨0x40004, 16, 1⟩
def R.FLOW_ISR_STOPPED : Fld := ⟨0x40008, 0, 1⟩
def R.FLOW_ISR_DRAINED : Fld := ⟨0x40008, 1, 1⟩
def R.FLOW_ISR_CMDDONE : Fld := ⟨0x40008, 2, 1⟩
def R.FLOW_IER_STOPPED : Fld := ⟨0x4000c, 0, 1⟩
def R.FLOW_IER_DRAINED : Fld := ⟨0x4000c, 1, 1⟩
def R.FLOW_IER_CMDDONE : Fld := ⟨0x4000c, 2, 1⟩
def R.FLOW_CMD_FLOW_ID : Fld := ⟨0x40010, 0, 18⟩
def R.FLOW_CMD_OP : Fld := ⟨0x40010, 18, 2⟩
def R.FLOW_CMDRES_RESULT : Fld := ⟨0x40014, 0, 4⟩
def R.FLOW_NBOUND_COUNT : Fld := ⟨0x40018, 0, 19⟩
def R.FLOW_LASTSTOP_FLOW : Fld := ⟨0x4001c, 0, 18⟩
def R.FLOW_LASTSTOP_VALID : Fld := ⟨0x4001c, 31, 1⟩
def R.PAT_CTRL_EN : Fld := ⟨0x50000, 0, 1⟩
def R.PAT_CTRL_LOCK : Fld := ⟨0x50000, 31, 1⟩
def R.PAT_STATUS_STATE : Fld := ⟨0x50004, 0, 2⟩
def R.PAT_STATUS_CFGERR : Fld := ⟨0x50004, 8, 1⟩
def R.PAT_STATUS_CLAIMERR : Fld := ⟨0x50004, 9, 1⟩
def R.PAT_STATUS_NSETS : Fld := ⟨0x50004, 16, 7⟩
def R.PAT_ISR_UE : Fld := ⟨0x50008, 0, 1⟩
def R.PAT_ISR_PARTIAL : Fld := ⟨0x50008, 1, 1⟩
def R.PAT_ISR_LOADED : Fld := ⟨0x50008, 2, 1⟩
def R.PAT_IER_UE : Fld := ⟨0x5000c, 0, 1⟩
def R.PAT_IER_PARTIAL : Fld := ⟨0x5000c, 1, 1⟩
def R.PAT_IER_LOADED : Fld := ⟨0x5000c, 2, 1⟩
def R.PAT_FREE_RUN : Fld := ⟨0x50010, 0, 23⟩
def R.PAT_KEYS_COUNT : Fld := ⟨0x50014, 0, 32⟩
def R.PAT_PARTIAL_COUNT : Fld := ⟨0x50018, 0, 32⟩
def R.PAT_SET_BASE_BASE (n : Nat) : Fld := ⟨0x50100 + 0x10 * n, 0, 22⟩
def R.PAT_SET_BASE_LOADED (n : Nat) : Fld := ⟨0x50100 + 0x10 * n, 31, 1⟩
def R.PAT_SET_ENTRIES_ENTRIES (n : Nat) : Fld := ⟨0x50104 + 0x10 * n, 0, 23⟩
def R.PAT_SET_START_START (n : Nat) : Fld := ⟨0x50108 + 0x10 * n, 0, 22⟩
def R.PAT_SET_SHAPE_STRIDE (n : Nat) : Fld := ⟨0x5010c + 0x10 * n, 0, 3⟩
def R.PAT_SET_SHAPE_NC (n : Nat) : Fld := ⟨0x5010c + 0x10 * n, 16, 9⟩
def R.RULE_CTRL_EN : Fld := ⟨0x60000, 0, 1⟩
def R.RULE_CTRL_CHK_EN : Fld := ⟨0x60000, 1, 1⟩
def R.RULE_CTRL_LOCK : Fld := ⟨0x60000, 31, 1⟩
def R.RULE_STATUS_STATE : Fld := ⟨0x60004, 0, 2⟩
def R.RULE_STATUS_CFGERR : Fld := ⟨0x60004, 8, 1⟩
def R.RULE_STATUS_CLAIMERR : Fld := ⟨0x60004, 9, 1⟩
def R.RULE_STATUS_BUSY : Fld := ⟨0x60004, 16, 1⟩
def R.RULE_ISR_CMDDONE : Fld := ⟨0x60008, 0, 1⟩
def R.RULE_ISR_SHMIS : Fld := ⟨0x60008, 1, 1⟩
def R.RULE_ISR_SHUE : Fld := ⟨0x60008, 2, 1⟩
def R.RULE_ISR_MULTI : Fld := ⟨0x60008, 3, 1⟩
def R.RULE_IER_CMDDONE : Fld := ⟨0x6000c, 0, 1⟩
def R.RULE_IER_SHMIS : Fld := ⟨0x6000c, 1, 1⟩
def R.RULE_IER_SHUE : Fld := ⟨0x6000c, 2, 1⟩
def R.RULE_IER_MULTI : Fld := ⟨0x6000c, 3, 1⟩
def R.RULE_SHBASE_BASE : Fld := ⟨0x60010, 0, 26⟩
def R.RULE_SCHK_INTERVAL : Fld := ⟨0x60014, 0, 16⟩
def R.RULE_CMD_RID : Fld := ⟨0x60018, 0, 16⟩
def R.RULE_CMD_SET : Fld := ⟨0x60018, 16, 8⟩
def R.RULE_CMD_OP : Fld := ⟨0x60018, 24, 2⟩
def R.RULE_CMDRES_RESULT : Fld := ⟨0x6001c, 0, 4⟩
def R.RULE_NVALID_COUNT : Fld := ⟨0x60020, 0, 17⟩
def R.RULE_SHCNT_COUNT : Fld := ⟨0x60024, 0, 32⟩
def R.RULE_LASTSH_INDEX : Fld := ⟨0x60028, 0, 15⟩
def R.RULE_LASTSH_VALID : Fld := ⟨0x60028, 31, 1⟩
def R.RULE_SRCH_COUNT : Fld := ⟨0x6002c, 0, 32⟩
def R.RULE_MULTICNT_COUNT : Fld := ⟨0x60030, 0, 32⟩
def R.RULE_REC_DATA (n : Nat) : Fld := ⟨0x60100 + 0x4 * n, 0, 32⟩
def R.CODEC_CTRL_EN : Fld := ⟨0x70000, 0, 1⟩
def R.CODEC_CTRL_LOCK : Fld := ⟨0x70000, 31, 1⟩
def R.CODEC_STATUS_STATE : Fld := ⟨0x70004, 0, 2⟩
def R.CODEC_STATUS_CFGERR : Fld := ⟨0x70004, 8, 1⟩
def R.CODEC_STATUS_CLAIMERR : Fld := ⟨0x70004, 9, 1⟩
def R.CODEC_STATUS_RUNNING : Fld := ⟨0x70004, 16, 6⟩
def R.CODEC_ISR_VFAIL : Fld := ⟨0x70008, 0, 1⟩
def R.CODEC_ISR_DCOMP : Fld := ⟨0x70008, 1, 1⟩
def R.CODEC_ISR_DERR : Fld := ⟨0x70008, 2, 1⟩
def R.CODEC_IER_VFAIL : Fld := ⟨0x7000c, 0, 1⟩
def R.CODEC_IER_DCOMP : Fld := ⟨0x7000c, 1, 1⟩
def R.CODEC_IER_DERR : Fld := ⟨0x7000c, 2, 1⟩
def R.CODEC_DQ_BASE_BASE : Fld := ⟨0x70010, 0, 28⟩
def R.CODEC_DQ_SIZE_LOG2 : Fld := ⟨0x70014, 0, 5⟩
def R.CODEC_DQ_TAIL_IDX : Fld := ⟨0x70018, 0, 16⟩
def R.CODEC_DQ_HEAD_IDX : Fld := ⟨0x7001c, 0, 16⟩
def R.CODEC_DC_BASE_BASE : Fld := ⟨0x70020, 0, 28⟩
def R.CODEC_DC_HEAD_IDX : Fld := ⟨0x70024, 0, 16⟩
def R.CODEC_DC_HEAD_PHASE : Fld := ⟨0x70024, 16, 1⟩
def R.CODEC_DQMASK_MASK : Fld := ⟨0x70028, 0, 32⟩
def R.CODEC_STCNT_COUNT : Fld := ⟨0x70030, 0, 32⟩
def R.CODEC_LLCNT_COUNT : Fld := ⟨0x70034, 0, 32⟩
def R.CODEC_FXCNT_COUNT : Fld := ⟨0x70038, 0, 32⟩
def R.CODEC_FICNT_COUNT : Fld := ⟨0x7003c, 0, 32⟩
def R.CODEC_VFCNT_COUNT : Fld := ⟨0x70040, 0, 32⟩
def R.CODEC_DECNT_COUNT : Fld := ⟨0x70044, 0, 32⟩
def R.CODEC_LASTV_TILE : Fld := ⟨0x70048, 0, 5⟩
def R.CODEC_LASTV_TEST : Fld := ⟨0x70048, 5, 3⟩
def R.CODEC_LASTV_VALID : Fld := ⟨0x70048, 31, 1⟩
def R.CODEC_PROF_MODE (n : Nat) : Fld := ⟨0x70400 + 0x4 * n, 0, 2⟩
def R.CODEC_PROF_PRED (n : Nat) : Fld := ⟨0x70400 + 0x4 * n, 2, 2⟩
def R.CODEC_PROF_WIDTH (n : Nat) : Fld := ⟨0x70400 + 0x4 * n, 4, 2⟩
def R.CODEC_PROF_BUDGET (n : Nat) : Fld := ⟨0x70400 + 0x4 * n, 6, 2⟩
def R.CODEC_PROF_LOADED (n : Nat) : Fld := ⟨0x70400 + 0x4 * n, 8, 1⟩
def R.CODEC_PROF_LINE (n : Nat) : Fld := ⟨0x70400 + 0x4 * n, 16, 13⟩
def R.NVME_CTRL_EN : Fld := ⟨0x80000, 0, 1⟩
def R.NVME_CTRL_LOCK : Fld := ⟨0x80000, 31, 1⟩
def R.NVME_STATUS_STATE : Fld := ⟨0x80004, 0, 2⟩
def R.NVME_STATUS_CFGERR : Fld := ⟨0x80004, 8, 1⟩
def R.NVME_STATUS_CLAIMERR : Fld := ⟨0x80004, 9, 1⟩
def R.NVME_STATUS_WHOLD : Fld := ⟨0x80004, 16, 1⟩
def R.NVME_STATUS_STEST : Fld := ⟨0x80004, 17, 1⟩
def R.NVME_ISR_ABORT : Fld := ⟨0x80008, 0, 1⟩
def R.NVME_ISR_LOCKWAIT : Fld := ⟨0x80008, 1, 1⟩
def R.NVME_ISR_CPTIME : Fld := ⟨0x80008, 2, 1⟩
def R.NVME_ISR_DXFER : Fld := ⟨0x80008, 3, 1⟩
def R.NVME_IER_ABORT : Fld := ⟨0x8000c, 0, 1⟩
def R.NVME_IER_LOCKWAIT : Fld := ⟨0x8000c, 1, 1⟩
def R.NVME_IER_CPTIME : Fld := ⟨0x8000c, 2, 1⟩
def R.NVME_IER_DXFER : Fld := ⟨0x8000c, 3, 1⟩
def R.NVME_CPMASK_MASK : Fld := ⟨0x80010, 0, 32⟩
def R.NVME_CPLIM_TIME : Fld := ⟨0x80014, 0, 24⟩
def R.NVME_RLOCK_HELD : Fld := ⟨0x80018, 0, 13⟩
def R.NVME_RLOCK_WAITS : Fld := ⟨0x80018, 16, 16⟩
def R.NVME_ABCNT_DONE : Fld := ⟨0x8001c, 0, 16⟩
def R.NVME_ABCNT_MISSED : Fld := ⟨0x8001c, 16, 16⟩
def R.PCIE_CTRL_EN : Fld := ⟨0x90000, 0, 1⟩
def R.PCIE_CTRL_REGWIN : Fld := ⟨0x90000, 1, 1⟩
def R.PCIE_CTRL_LOCK : Fld := ⟨0x90000, 31, 1⟩
def R.PCIE_STATUS_STATE : Fld := ⟨0x90004, 0, 2⟩
def R.PCIE_STATUS_CFGERR : Fld := ⟨0x90004, 8, 1⟩
def R.PCIE_STATUS_CLAIMERR : Fld := ⟨0x90004, 9, 1⟩
def R.PCIE_STATUS_BIFUR : Fld := ⟨0x90004, 16, 1⟩
def R.PCIE_ISR_LINKUP : Fld := ⟨0x90008, 0, 1⟩
def R.PCIE_ISR_LINKDN : Fld := ⟨0x90008, 1, 1⟩
def R.PCIE_ISR_BARERR : Fld := ⟨0x90008, 2, 1⟩
def R.PCIE_ISR_CTO : Fld := ⟨0x90008, 3, 1⟩
def R.PCIE_ISR_FLR : Fld := ⟨0x90008, 4, 1⟩
def R.PCIE_IER_LINKUP : Fld := ⟨0x9000c, 0, 1⟩
def R.PCIE_IER_LINKDN : Fld := ⟨0x9000c, 1, 1⟩
def R.PCIE_IER_BARERR : Fld := ⟨0x9000c, 2, 1⟩
def R.PCIE_IER_CTO : Fld := ⟨0x9000c, 3, 1⟩
def R.PCIE_IER_FLR : Fld := ⟨0x9000c, 4, 1⟩
def R.PCIE_LINK_SPEED (n : Nat) : Fld := ⟨0x90010 + 0x4 * n, 0, 3⟩
def R.PCIE_LINK_WIDTH (n : Nat) : Fld := ⟨0x90010 + 0x4 * n, 3, 5⟩
def R.PCIE_LINK_FLIT (n : Nat) : Fld := ⟨0x90010 + 0x4 * n, 8, 1⟩
def R.PCIE_LINK_L1 (n : Nat) : Fld := ⟨0x90010 + 0x4 * n, 9, 1⟩
def R.PCIE_LINK_RETRAIN (n : Nat) : Fld := ⟨0x90010 + 0x4 * n, 16, 16⟩
def R.MEDIA_CTRL_EN : Fld := ⟨0xa0000, 0, 1⟩
def R.MEDIA_CTRL_LOCK : Fld := ⟨0xa0000, 31, 1⟩
def R.MEDIA_STATUS_STATE : Fld := ⟨0xa0004, 0, 2⟩
def R.MEDIA_STATUS_CFGERR : Fld := ⟨0xa0004, 8, 1⟩
def R.MEDIA_STATUS_CLAIMERR : Fld := ⟨0xa0004, 9, 1⟩
def R.MEDIA_STATUS_PLOADED : Fld := ⟨0xa0004, 16, 4⟩
def R.MEDIA_STATUS_PPEND : Fld := ⟨0xa0004, 20, 4⟩
def R.MEDIA_ISR_PFAIL : Fld := ⟨0xa0008, 0, 1⟩
def R.MEDIA_ISR_EFAIL : Fld := ⟨0xa0008, 1, 1⟩
def R.MEDIA_ISR_RETRY : Fld := ⟨0xa0008, 2, 1⟩
def R.MEDIA_ISR_UNREC : Fld := ⟨0xa0008, 3, 1⟩
def R.MEDIA_ISR_OPTO : Fld := ⟨0xa0008, 4, 1⟩
def R.MEDIA_ISR_UNMATCHED : Fld := ⟨0xa0008, 5, 1⟩
def R.MEDIA_IER_PFAIL : Fld := ⟨0xa000c, 0, 1⟩
def R.MEDIA_IER_EFAIL : Fld := ⟨0xa000c, 1, 1⟩
def R.MEDIA_IER_RETRY : Fld := ⟨0xa000c, 2, 1⟩
def R.MEDIA_IER_UNREC : Fld := ⟨0xa000c, 3, 1⟩
def R.MEDIA_IER_OPTO : Fld := ⟨0xa000c, 4, 1⟩
def R.MEDIA_IER_UNMATCHED : Fld := ⟨0xa000c, 5, 1⟩
def R.MEDIA_LUNS_POP : Fld := ⟨0xa0010, 0, 11⟩
def R.MEDIA_LUNS_UNUSED : Fld := ⟨0xa0010, 16, 11⟩
def R.MEDIA_RETRYCNT_COUNT : Fld := ⟨0xa0020, 0, 32⟩
def R.MEDIA_UNRECCNT_COUNT : Fld := ⟨0xa0024, 0, 32⟩
def R.MEDIA_PFCNT_COUNT : Fld := ⟨0xa0028, 0, 32⟩
def R.MEDIA_EFCNT_COUNT : Fld := ⟨0xa002c, 0, 32⟩
def R.MEDIA_IRREG_COUNT : Fld := ⟨0xa0030, 0, 32⟩
def R.MEDIA_LASTERR_LUN : Fld := ⟨0xa0040, 0, 10⟩
def R.MEDIA_LASTERR_KIND : Fld := ⟨0xa0040, 10, 2⟩
def R.MEDIA_LASTERR_BLOCK : Fld := ⟨0xa0040, 12, 19⟩
def R.MEDIA_LASTERR_VALID : Fld := ⟨0xa0040, 31, 1⟩
def R.FTLA_CTRL_EN : Fld := ⟨0xb0000, 0, 1⟩
def R.FTLA_CTRL_LOCK : Fld := ⟨0xb0000, 31, 1⟩
def R.FTLA_STATUS_STATE : Fld := ⟨0xb0004, 0, 2⟩
def R.FTLA_STATUS_CFGERR : Fld := ⟨0xb0004, 8, 1⟩
def R.FTLA_STATUS_CLAIMERR : Fld := ⟨0xb0004, 9, 1⟩
def R.FTLA_STATUS_RDONLY : Fld := ⟨0xb0004, 16, 1⟩
def R.FTLA_STATUS_GCRUN : Fld := ⟨0xb0004, 17, 1⟩
def R.FTLA_STATUS_GCFORCED : Fld := ⟨0xb0004, 18, 1⟩
def R.FTLA_STATUS_SCANBUSY : Fld := ⟨0xb0004, 19, 1⟩
def R.FTLA_ISR_RDONLY : Fld := ⟨0xb0008, 0, 1⟩
def R.FTLA_ISR_RDWRITE : Fld := ⟨0xb0008, 1, 1⟩
def R.FTLA_ISR_FORCED : Fld := ⟨0xb0008, 2, 1⟩
def R.FTLA_ISR_SCANDONE : Fld := ⟨0xb0008, 3, 1⟩
def R.FTLA_ISR_RETIRED : Fld := ⟨0xb0008, 4, 1⟩
def R.FTLA_ISR_FINELOW : Fld := ⟨0xb0008, 5, 1⟩
def R.FTLA_IER_RDONLY : Fld := ⟨0xb000c, 0, 1⟩
def R.FTLA_IER_RDWRITE : Fld := ⟨0xb000c, 1, 1⟩
def R.FTLA_IER_FORCED : Fld := ⟨0xb000c, 2, 1⟩
def R.FTLA_IER_SCANDONE : Fld := ⟨0xb000c, 3, 1⟩
def R.FTLA_IER_RETIRED : Fld := ⟨0xb000c, 4, 1⟩
def R.FTLA_IER_FINELOW : Fld := ⟨0xb000c, 5, 1⟩
def R.FTLA_BTBASE_BASE : Fld := ⟨0xb0010, 0, 28⟩
def R.FTLA_SCAN_LUN : Fld := ⟨0xb0014, 0, 10⟩
def R.FTLA_SCAN_ALL : Fld := ⟨0xb0014, 10, 1⟩
def R.FTLA_SCAN_OP : Fld := ⟨0xb0014, 11, 2⟩
def R.FTLA_SRES_BLOCK : Fld := ⟨0xb0018, 0, 19⟩
def R.FTLA_SRES_LUN : Fld := ⟨0xb0018, 19, 10⟩
def R.FTLA_SRES_FOUND : Fld := ⟨0xb0018, 31, 1⟩
def R.FTLA_SSCORE_SCORE : Fld := ⟨0xb001c, 0, 32⟩
def R.FTLA_GCW_WI : Fld := ⟨0xb0020, 0, 8⟩
def R.FTLA_GCW_WA : Fld := ⟨0xb0020, 8, 8⟩
def R.FTLA_GCW_WW : Fld := ⟨0xb0020, 16, 8⟩
def R.FTLA_AGEU_AGE_UNIT : Fld := ⟨0xb0024, 0, 16⟩
def R.FTLA_CKPT_PERIOD : Fld := ⟨0xb0028, 0, 16⟩
def R.FTLA_UNITTO_TIME : Fld := ⟨0xb002c, 0, 16⟩
def R.FTLA_ATTIC_COUNT : Fld := ⟨0xb0030, 0, 30⟩
def R.FTLA_FLOOR_BLOCKS : Fld := ⟨0xb0034, 0, 30⟩
def R.FTLA_GCLOW_BLOCKS : Fld := ⟨0xb0038, 0, 30⟩
def R.FTLA_GCHIGH_BLOCKS : Fld := ⟨0xb003c, 0, 30⟩
def R.FTLA_WEAR_RETIRE_PCT : Fld := ⟨0xb0040, 0, 10⟩
def R.FTLA_WEAR_REFRESH : Fld := ⟨0xb0040, 16, 5⟩
def R.FTLA_FINE_FREE : Fld := ⟨0xb0044, 0, 24⟩
def R.FTLA_CELLAR_PER_LUN : Fld := ⟨0xb0048, 0, 4⟩
def R.FTLA_GROWN_COUNT : Fld := ⟨0xb004c, 0, 30⟩
def R.FTLA_FACTBAD_COUNT : Fld := ⟨0xb0050, 0, 30⟩
def R.DRAM_CTRL_EN : Fld := ⟨0xc0000, 0, 1⟩
def R.DRAM_CTRL_LOCK : Fld := ⟨0xc0000, 31, 1⟩
def R.DRAM_STATUS_STATE : Fld := ⟨0xc0004, 0, 2⟩
def R.DRAM_STATUS_CFGERR : Fld := ⟨0xc0004, 8, 1⟩
def R.DRAM_STATUS_CLAIMERR : Fld := ⟨0xc0004, 9, 1⟩
def R.DRAM_STATUS_PANIC0 : Fld := ⟨0xc0004, 16, 1⟩
def R.DRAM_STATUS_PANIC1 : Fld := ⟨0xc0004, 17, 1⟩
def R.DRAM_STATUS_INIT : Fld := ⟨0xc0004, 18, 1⟩
def R.DRAM_ISR_CE : Fld := ⟨0xc0008, 0, 1⟩
def R.DRAM_ISR_UE : Fld := ⟨0xc0008, 1, 1⟩
def R.DRAM_ISR_POISON : Fld := ⟨0xc0008, 2, 1⟩
def R.DRAM_ISR_RFORCE : Fld := ⟨0xc0008, 3, 1⟩
def R.DRAM_ISR_TFORCE : Fld := ⟨0xc0008, 4, 1⟩
def R.DRAM_ISR_TRFAIL : Fld := ⟨0xc0008, 5, 1⟩
def R.DRAM_ISR_SCRUBOVR : Fld := ⟨0xc0008, 6, 1⟩
def R.DRAM_IER_CE : Fld := ⟨0xc000c, 0, 1⟩
def R.DRAM_IER_UE : Fld := ⟨0xc000c, 1, 1⟩
def R.DRAM_IER_POISON : Fld := ⟨0xc000c, 2, 1⟩
def R.DRAM_IER_RFORCE : Fld := ⟨0xc000c, 3, 1⟩
def R.DRAM_IER_TFORCE : Fld := ⟨0xc000c, 4, 1⟩
def R.DRAM_IER_TRFAIL : Fld := ⟨0xc000c, 5, 1⟩
def R.DRAM_IER_SCRUBOVR : Fld := ⟨0xc000c, 6, 1⟩
def R.DRAM_CFG_NCH : Fld := ⟨0xc0010, 0, 1⟩
def R.DRAM_CFG_CAP : Fld := ⟨0xc0010, 1, 2⟩
def R.DRAM_SCHED_AGECAP : Fld := ⟨0xc0014, 0, 16⟩
def R.DRAM_PANIC_ON (n : Nat) : Fld := ⟨0xc0018 + 0x4 * n, 0, 7⟩
def R.DRAM_PANIC_OFF (n : Nat) : Fld := ⟨0xc0018 + 0x4 * n, 8, 7⟩
def R.DRAM_RH_K : Fld := ⟨0xc0020, 0, 5⟩
def R.DRAM_RH_EN : Fld := ⟨0xc0020, 8, 1⟩
def R.DRAM_RH_ADJ : Fld := ⟨0xc0020, 9, 1⟩
def R.DRAM_TRAIN_PMIN : Fld := ⟨0xc0024, 0, 8⟩
def R.DRAM_TRAIN_PMAX : Fld := ⟨0xc0024, 8, 8⟩
def R.DRAM_TRAIN_DHI : Fld := ⟨0xc0024, 16, 8⟩
def R.DRAM_TRAIN_DLO : Fld := ⟨0xc0024, 24, 8⟩
def R.DRAM_TDEFER_TIME : Fld := ⟨0xc0028, 0, 16⟩
def R.DRAM_SCRUB_PERIOD : Fld := ⟨0xc002c, 0, 16⟩
def R.DRAM_SCRUB_EN : Fld := ⟨0xc002c, 16, 1⟩
def R.DRAM_CECNT_COUNT : Fld := ⟨0xc0030, 0, 32⟩
def R.DRAM_UECNT_COUNT : Fld := ⟨0xc0034, 0, 32⟩
def R.DRAM_LASTERR_CH : Fld := ⟨0xc0038, 0, 5⟩
def R.DRAM_LASTERR_KIND : Fld := ⟨0xc0038, 5, 1⟩
def R.DRAM_LASTERR_VALID : Fld := ⟨0xc0038, 31, 1⟩
def R.DRAM_USABLE_MIB : Fld := ⟨0xc003c, 0, 18⟩
def R.DRAM_LASTADDR_ADDR : Fld := ⟨0xc0040, 0, 32⟩
def R.DRAM_ADJ_MAP (n : Nat) : Fld := ⟨0xc0100 + 0x4 * n, 0, 32⟩
def R.DMA_CTRL_EN : Fld := ⟨0xd0000, 0, 1⟩
def R.DMA_CTRL_LOCK : Fld := ⟨0xd0000, 31, 1⟩
def R.DMA_STATUS_STATE : Fld := ⟨0xd0004, 0, 2⟩
def R.DMA_STATUS_CFGERR : Fld := ⟨0xd0004, 8, 1⟩
def R.DMA_STATUS_CLAIMERR : Fld := ⟨0xd0004, 9, 1⟩
def R.DMA_STATUS_ACTIVE : Fld := ⟨0xd0004, 16, 7⟩
def R.DMA_ISR_REC : Fld := ⟨0xd0008, 0, 1⟩
def R.DMA_ISR_ERR : Fld := ⟨0xd0008, 1, 1⟩
def R.DMA_ISR_CQFULL : Fld := ⟨0xd0008, 2, 1⟩
def R.DMA_IER_REC : Fld := ⟨0xd000c, 0, 1⟩
def R.DMA_IER_ERR : Fld := ⟨0xd000c, 1, 1⟩
def R.DMA_IER_CQFULL : Fld := ⟨0xd000c, 2, 1⟩
def R.DMA_EVT_EVT (n : Nat) : Fld := ⟨0xd0010 + 0x4 * n, 0, 32⟩
def R.DMA_EVTSET_SET (n : Nat) : Fld := ⟨0xd0018 + 0x4 * n, 0, 32⟩
def R.DMA_CQ_BASE_BASE (n : Nat) : Fld := ⟨0xd0100 + 0x10 * n, 0, 28⟩
def R.DMA_CQ_SIZE_LOG2 (n : Nat) : Fld := ⟨0xd0104 + 0x10 * n, 0, 5⟩
def R.DMA_CQ_HEAD_HEAD (n : Nat) : Fld := ⟨0xd0108 + 0x10 * n, 0, 16⟩
def R.DMA_CQ_TAIL_TAIL (n : Nat) : Fld := ⟨0xd010c + 0x10 * n, 0, 16⟩
def R.DMA_CQ_TAIL_PHASE (n : Nat) : Fld := ⟨0xd010c + 0x10 * n, 16, 1⟩
def R.DMA_CH_CTRL_GO (n : Nat) : Fld := ⟨0xd1000 + 0x40 * n, 0, 1⟩
def R.DMA_CH_CTRL_PAUSE (n : Nat) : Fld := ⟨0xd1000 + 0x40 * n, 1, 1⟩
def R.DMA_CH_CTRL_ABORT (n : Nat) : Fld := ⟨0xd1000 + 0x40 * n, 2, 1⟩
def R.DMA_CH_CTRL_KICK (n : Nat) : Fld := ⟨0xd1000 + 0x40 * n, 3, 1⟩
def R.DMA_CH_CTRL_CQ (n : Nat) : Fld := ⟨0xd1000 + 0x40 * n, 4, 3⟩
def R.DMA_CH_STAT_CSTATE (n : Nat) : Fld := ⟨0xd1004 + 0x40 * n, 0, 3⟩
def R.DMA_CH_STAT_LAST (n : Nat) : Fld := ⟨0xd1004 + 0x40 * n, 8, 4⟩
def R.DMA_CH_OWN_KIND (n : Nat) : Fld := ⟨0xd1008 + 0x40 * n, 0, 2⟩
def R.DMA_CH_OWN_ID (n : Nat) : Fld := ⟨0xd1008 + 0x40 * n, 2, 5⟩
def R.DMA_CH_OWN_OP (n : Nat) : Fld := ⟨0xd1008 + 0x40 * n, 30, 2⟩
def R.DMA_CH_PROGLO_PROGLO (n : Nat) : Fld := ⟨0xd100c + 0x40 * n, 0, 32⟩
def R.DMA_CH_PROGHI_PROGHI (n : Nat) : Fld := ⟨0xd1010 + 0x40 * n, 0, 16⟩
def R.DMA_CH_PCLO_PCLO (n : Nat) : Fld := ⟨0xd1014 + 0x40 * n, 0, 32⟩
def R.DMA_CH_PCHI_PCHI (n : Nat) : Fld := ⟨0xd1018 + 0x40 * n, 0, 16⟩
def R.DMA_CH_ITER_ITER (n : Nat) : Fld := ⟨0xd101c + 0x40 * n, 0, 24⟩
def R.DMA_CH_DONE_DONE (n : Nat) : Fld := ⟨0xd1020 + 0x40 * n, 0, 25⟩
def R.DMA_CH_TOTAL_TOTAL (n : Nat) : Fld := ⟨0xd1024 + 0x40 * n, 0, 32⟩
def R.DMA_CH_ERRALO_ERRALO (n : Nat) : Fld := ⟨0xd1028 + 0x40 * n, 0, 32⟩
def R.DMA_CH_ERRAHI_ERRAHI (n : Nat) : Fld := ⟨0xd102c + 0x40 * n, 0, 16⟩
def R.DIGEST_CTRL_EN : Fld := ⟨0xe0000, 0, 1⟩
def R.DIGEST_CTRL_LOCK : Fld := ⟨0xe0000, 31, 1⟩
def R.DIGEST_STATUS_STATE : Fld := ⟨0xe0004, 0, 2⟩
def R.DIGEST_STATUS_CFGERR : Fld := ⟨0xe0004, 8, 1⟩
def R.DIGEST_STATUS_CLAIMERR : Fld := ⟨0xe0004, 9, 1⟩
def R.DIGEST_STATUS_OWNED : Fld := ⟨0xe0004, 16, 7⟩
def R.DIGEST_ISR_DONE : Fld := ⟨0xe0008, 0, 1⟩
def R.DIGEST_ISR_TRUNC : Fld := ⟨0xe0008, 1, 1⟩
def R.DIGEST_ISR_CMPFAULT : Fld := ⟨0xe0008, 2, 1⟩
def R.DIGEST_ISR_ERR : Fld := ⟨0xe0008, 3, 1⟩
def R.DIGEST_IER_DONE : Fld := ⟨0xe000c, 0, 1⟩
def R.DIGEST_IER_TRUNC : Fld := ⟨0xe000c, 1, 1⟩
def R.DIGEST_IER_CMPFAULT : Fld := ⟨0xe000c, 2, 1⟩
def R.DIGEST_IER_ERR : Fld := ⟨0xe000c, 3, 1⟩
def R.DIGEST_CTX_CTRL_OP (n : Nat) : Fld := ⟨0xe1000 + 0x80 * n, 0, 3⟩
def R.DIGEST_CTX_CTRL_ALG (n : Nat) : Fld := ⟨0xe1000 + 0x80 * n, 4, 3⟩
def R.DIGEST_CTX_CTRL_SEAL (n : Nat) : Fld := ⟨0xe1000 + 0x80 * n, 7, 1⟩
def R.DIGEST_CTX_CTRL_SRCCTX (n : Nat) : Fld := ⟨0xe1000 + 0x80 * n, 8, 6⟩
def R.DIGEST_CTX_STAT_CSTATE (n : Nat) : Fld := ⟨0xe1004 + 0x80 * n, 0, 3⟩
def R.DIGEST_CTX_STAT_TRUNC (n : Nat) : Fld := ⟨0xe1004 + 0x80 * n, 3, 1⟩
def R.DIGEST_CTX_STAT_ERR (n : Nat) : Fld := ⟨0xe1004 + 0x80 * n, 4, 4⟩
def R.DIGEST_CTX_STAT_SEALED (n : Nat) : Fld := ⟨0xe1004 + 0x80 * n, 8, 1⟩
def R.DIGEST_CTX_OWN_KIND (n : Nat) : Fld := ⟨0xe1008 + 0x80 * n, 0, 2⟩
def R.DIGEST_CTX_OWN_ID (n : Nat) : Fld := ⟨0xe1008 + 0x80 * n, 2, 5⟩
def R.DIGEST_CTX_OWN_OP (n : Nat) : Fld := ⟨0xe1008 + 0x80 * n, 30, 2⟩
def R.DIGEST_CTX_DECLLO_DECLLO (n : Nat) : Fld := ⟨0xe100c + 0x80 * n, 0, 32⟩
def R.DIGEST_CTX_DECLHI_DECLHI (n : Nat) : Fld := ⟨0xe1010 + 0x80 * n, 0, 32⟩
def R.DIGEST_CTX_SRCLO_SRCLO (n : Nat) : Fld := ⟨0xe1014 + 0x80 * n, 0, 32⟩
def R.DIGEST_CTX_SRCHI_SRCHI (n : Nat) : Fld := ⟨0xe1018 + 0x80 * n, 0, 16⟩
def R.DIGEST_CTX_LEN_LEN (n : Nat) : Fld := ⟨0xe101c + 0x80 * n, 0, 25⟩
def R.DIGEST_CTX_REFLO_REFLO (n : Nat) : Fld := ⟨0xe1020 + 0x80 * n, 0, 32⟩
def R.DIGEST_CTX_REFHI_REFHI (n : Nat) : Fld := ⟨0xe1024 + 0x80 * n, 0, 16⟩
def R.DIGEST_CTX_CMPA_CMPA (n : Nat) : Fld := ⟨0xe1028 + 0x80 * n, 0, 32⟩
def R.DIGEST_CTX_CMPB_CMPB (n : Nat) : Fld := ⟨0xe102c + 0x80 * n, 0, 32⟩
def R.DIGEST_CTX_COUNTLO_COUNTLO (n : Nat) : Fld := ⟨0xe1030 + 0x80 * n, 0, 32⟩
def R.DIGEST_CTX_COUNTHI_COUNTHI (n : Nat) : Fld := ⟨0xe1034 + 0x80 * n, 0, 32⟩
def R.DIGEST_CTX_RESULT_RESULT (n k : Nat) : Fld := ⟨0xe1040 + 0x80 * n + 0x4 * k, 0, 32⟩
def R.VAULT_CTRL_EN : Fld := ⟨0xf0000, 0, 1⟩
def R.VAULT_CTRL_LOCK : Fld := ⟨0xf0000, 31, 1⟩
def R.VAULT_STATUS_STATE : Fld := ⟨0xf0004, 0, 2⟩
def R.VAULT_STATUS_CFGERR : Fld := ⟨0xf0004, 8, 1⟩
def R.VAULT_STATUS_CLAIMERR : Fld := ⟨0xf0004, 9, 1⟩
def R.VAULT_ISR_DONE : Fld := ⟨0xf0008, 0, 1⟩
def R.VAULT_ISR_LAPSE : Fld := ⟨0xf0008, 1, 1⟩
def R.VAULT_ISR_MISMATCH : Fld := ⟨0xf0008, 2, 1⟩
def R.VAULT_IER_DONE : Fld := ⟨0xf000c, 0, 1⟩
def R.VAULT_IER_LAPSE : Fld := ⟨0xf000c, 1, 1⟩
def R.VAULT_IER_MISMATCH : Fld := ⟨0xf000c, 2, 1⟩
def R.VAULT_LOCK_ACQ : Fld := ⟨0xf0010, 0, 1⟩
def R.VAULT_LOCK_REL : Fld := ⟨0xf0010, 1, 1⟩
def R.VAULT_LOCK_VIEW : Fld := ⟨0xf0010, 8, 2⟩
def R.VAULT_LOCK_KIND : Fld := ⟨0xf0010, 16, 2⟩
def R.VAULT_LOCK_ID : Fld := ⟨0xf0010, 18, 5⟩
def R.VAULT_CMD_OP : Fld := ⟨0xf0014, 0, 3⟩
def R.VAULT_CMD_MODE : Fld := ⟨0xf0014, 4, 2⟩
def R.VAULT_CMD_DIR : Fld := ⟨0xf0014, 6, 1⟩
def R.VAULT_CMD_SLOT : Fld := ⟨0xf0014, 8, 10⟩
def R.VAULT_CMD_KEK : Fld := ⟨0xf0014, 18, 10⟩
def R.VAULT_SRCLO_ADDR : Fld := ⟨0xf0018, 0, 32⟩
def R.VAULT_SRCHI_ADDR : Fld := ⟨0xf001c, 0, 16⟩
def R.VAULT_DSTLO_ADDR : Fld := ⟨0xf0020, 0, 32⟩
def R.VAULT_DSTHI_ADDR : Fld := ⟨0xf0024, 0, 16⟩
def R.VAULT_LEN_LEN : Fld := ⟨0xf0028, 0, 17⟩
def R.VAULT_RES_CODE : Fld := ⟨0xf002c, 0, 4⟩
def R.VAULT_RES_BUSY : Fld := ⟨0xf002c, 4, 1⟩
def R.VAULT_RES_INMSG : Fld := ⟨0xf002c, 5, 1⟩
def R.VAULT_IV_IV (n : Nat) : Fld := ⟨0xf0030 + 0x4 * n, 0, 32⟩
def R.VAULT_MSGCNT_COUNT : Fld := ⟨0xf0040, 0, 32⟩
def R.NAND_CTRL_EN (b : Nat) : Fld := ⟨0x100000 + 0x10000 * b, 0, 1⟩
def R.NAND_CTRL_LOCK (b : Nat) : Fld := ⟨0x100000 + 0x10000 * b, 31, 1⟩
def R.NAND_STATUS_STATE (b : Nat) : Fld := ⟨0x100004 + 0x10000 * b, 0, 2⟩
def R.NAND_STATUS_CFGERR (b : Nat) : Fld := ⟨0x100004 + 0x10000 * b, 8, 1⟩
def R.NAND_STATUS_CLAIMERR (b : Nat) : Fld := ⟨0x100004 + 0x10000 * b, 9, 1⟩
def R.NAND_STATUS_CEPOP (b : Nat) : Fld := ⟨0x100004 + 0x10000 * b, 16, 8⟩
def R.NAND_STATUS_PSLOT (b : Nat) : Fld := ⟨0x100004 + 0x10000 * b, 24, 2⟩
def R.NAND_STATUS_RATE (b : Nat) : Fld := ⟨0x100004 + 0x10000 * b, 26, 3⟩
def R.KEYS_CTRL_EN : Fld := ⟨0x300000, 0, 1⟩
def R.KEYS_CTRL_LOCK : Fld := ⟨0x300000, 31, 1⟩
def R.KEYS_STATUS_STATE : Fld := ⟨0x300004, 0, 2⟩
def R.KEYS_STATUS_CFGERR : Fld := ⟨0x300004, 8, 1⟩
def R.KEYS_STATUS_CLAIMERR : Fld := ⟨0x300004, 9, 1⟩
def R.KEYS_STATUS_RNGOK : Fld := ⟨0x300004, 16, 1⟩
def R.KEYS_STATUS_LCBUSY : Fld := ⟨0x300004, 17, 1⟩
def R.KEYS_STATUS_LC : Fld := ⟨0x300004, 18, 2⟩
def R.KEYS_ISR_RNGFAIL : Fld := ⟨0x300008, 0, 1⟩
def R.KEYS_ISR_KEYDONE : Fld := ⟨0x300008, 1, 1⟩
def R.KEYS_ISR_LCDONE : Fld := ⟨0x300008, 2, 1⟩
def R.KEYS_IER_RNGFAIL : Fld := ⟨0x30000c, 0, 1⟩
def R.KEYS_IER_KEYDONE : Fld := ⟨0x30000c, 1, 1⟩
def R.KEYS_IER_LCDONE : Fld := ⟨0x30000c, 2, 1⟩
def R.KEYS_CMD_SLOT : Fld := ⟨0x300010, 0, 9⟩
def R.KEYS_CMD_OP : Fld := ⟨0x300010, 10, 2⟩
def R.KEYS_CMD_KTYPE : Fld := ⟨0x300010, 16, 8⟩
def R.KEYS_CMD_USAGE : Fld := ⟨0x300010, 24, 4⟩
def R.KEYS_RES_CODE : Fld := ⟨0x300014, 0, 4⟩
def R.KEYS_RNG_RNG : Fld := ⟨0x300018, 0, 32⟩
def R.KEYS_LCREQ_TARGET : Fld := ⟨0x30001c, 0, 2⟩
def R.KEYS_LCREQ_KEYWORD : Fld := ⟨0x30001c, 16, 16⟩
def R.KEYS_SLOT_ATTR_VALID (n : Nat) : Fld := ⟨0x301000 + 0x4 * n, 0, 1⟩
def R.KEYS_SLOT_ATTR_KTYPE (n : Nat) : Fld := ⟨0x301000 + 0x4 * n, 8, 8⟩
def R.KEYS_SLOT_ATTR_USAGE (n : Nat) : Fld := ⟨0x301000 + 0x4 * n, 16, 4⟩
def R.FAB_CTRL_EN : Fld := ⟨0x310000, 0, 1⟩
def R.FAB_CTRL_LOCK : Fld := ⟨0x310000, 31, 1⟩
def R.FAB_STATUS_STATE : Fld := ⟨0x310004, 0, 2⟩
def R.FAB_STATUS_CFGERR : Fld := ⟨0x310004, 8, 1⟩
def R.FAB_STATUS_CLAIMERR : Fld := ⟨0x310004, 9, 1⟩
def R.FAB_STATUS_ASSIGNED : Fld := ⟨0x310004, 16, 1⟩
def R.FAB_STATUS_FENCED : Fld := ⟨0x310004, 17, 1⟩
def R.FAB_STATUS_MANAGER : Fld := ⟨0x310004, 18, 1⟩
def R.FAB_STATUS_MASTER : Fld := ⟨0x310004, 19, 1⟩
def R.FAB_STATUS_UNSYNC : Fld := ⟨0x310004, 20, 1⟩
def R.FAB_STATUS_MGRCONF : Fld := ⟨0x310004, 21, 1⟩
def R.FAB_STATUS_MASTERCONF : Fld := ⟨0x310004, 22, 1⟩
def R.FAB_STATUS_DUPADDR : Fld := ⟨0x310004, 23, 1⟩
def R.FAB_ISR_ASSIGNED : Fld := ⟨0x310008, 0, 1⟩
def R.FAB_ISR_FENCED : Fld := ⟨0x310008, 1, 1⟩
def R.FAB_ISR_UNFENCED : Fld := ⟨0x310008, 2, 1⟩
def R.FAB_ISR_UNSYNC : Fld := ⟨0x310008, 3, 1⟩
def R.FAB_ISR_RESYNC : Fld := ⟨0x310008, 4, 1⟩
def R.FAB_ISR_CONFLICT : Fld := ⟨0x310008, 5, 1⟩
def R.FAB_ISR_SEGFULL : Fld := ⟨0x310008, 6, 1⟩
def R.FAB_ISR_HWDROP : Fld := ⟨0x310008, 7, 1⟩
def R.FAB_ISR_TAGCHG : Fld := ⟨0x310008, 8, 1⟩
def R.FAB_IER_ASSIGNED : Fld := ⟨0x31000c, 0, 1⟩
def R.FAB_IER_FENCED : Fld := ⟨0x31000c, 1, 1⟩
def R.FAB_IER_UNFENCED : Fld := ⟨0x31000c, 2, 1⟩
def R.FAB_IER_UNSYNC : Fld := ⟨0x31000c, 3, 1⟩
def R.FAB_IER_RESYNC : Fld := ⟨0x31000c, 4, 1⟩
def R.FAB_IER_CONFLICT : Fld := ⟨0x31000c, 5, 1⟩
def R.FAB_IER_SEGFULL : Fld := ⟨0x31000c, 6, 1⟩
def R.FAB_IER_HWDROP : Fld := ⟨0x31000c, 7, 1⟩
def R.FAB_IER_TAGCHG : Fld := ⟨0x31000c, 8, 1⟩
def R.FAB_UIDLO_UID : Fld := ⟨0x310010, 0, 32⟩
def R.FAB_UIDHI_UID : Fld := ⟨0x310014, 0, 32⟩
def R.FAB_ADDR_ADDR : Fld := ⟨0x310018, 0, 16⟩
def R.FAB_TIMELO_TIME : Fld := ⟨0x310020, 0, 32⟩
def R.FAB_TIMEHI_TIME : Fld := ⟨0x310024, 0, 32⟩
def R.FAB_TIMESETLO_SET : Fld := ⟨0x310028, 0, 32⟩
def R.FAB_TIMESETHI_SET : Fld := ⟨0x31002c, 0, 32⟩
def R.FAB_TOFF_OFFSET : Fld := ⟨0x310030, 0, 32⟩
def R.FAB_TSTAT_HOPS : Fld := ⟨0x310034, 0, 6⟩
def R.FAB_TSTAT_NOSRC : Fld := ⟨0x310034, 6, 1⟩
def R.FAB_TSTAT_UPPORT : Fld := ⟨0x310034, 8, 2⟩
def R.FAB_TSTAT_EXCH : Fld := ⟨0x310034, 16, 16⟩
def R.FAB_HWTAG_WIN : Fld := ⟨0x310040, 0, 6⟩
def R.FAB_HWTAG_SLOT : Fld := ⟨0x310040, 8, 20⟩
def R.FAB_HWTAG_RESULT : Fld := ⟨0x310040, 28, 2⟩
def R.FAB_HWTAG_BUSY : Fld := ⟨0x310040, 30, 1⟩
def R.FAB_HWTAG_GO : Fld := ⟨0x310040, 31, 1⟩
def R.FAB_HWNEW_TAG : Fld := ⟨0x310044, 0, 32⟩
def R.FAB_HWDROP_COUNT : Fld := ⟨0x310048, 0, 32⟩
def R.FAB_ADDRERR_COUNT : Fld := ⟨0x31004c, 0, 32⟩
def R.FAB_NOROUTE_COUNT : Fld := ⟨0x310050, 0, 32⟩
def R.FAB_TTLERR_COUNT : Fld := ⟨0x310054, 0, 32⟩
def R.FAB_HW_BASE_BASE (n : Nat) : Fld := ⟨0x310100 + 0x10 * n, 0, 32⟩
def R.FAB_HW_SLOTS_SLOTS (n : Nat) : Fld := ⟨0x310104 + 0x10 * n, 0, 21⟩
def R.FAB_HW_TAGBASE_TAGBASE (n : Nat) : Fld := ⟨0x310108 + 0x10 * n, 0, 32⟩
def R.FAB_HW_FLAGS_DEFINED (n : Nat) : Fld := ⟨0x31010c + 0x10 * n, 0, 1⟩
def R.FAB_HW_FLAGS_RDALL (n : Nat) : Fld := ⟨0x31010c + 0x10 * n, 1, 1⟩
def R.FAB_ROUTE_PORT (n : Nat) : Fld := ⟨0x311000 + 0x4 * n, 0, 2⟩
def R.FAB_ROUTE_VALID (n : Nat) : Fld := ⟨0x311000 + 0x4 * n, 2, 1⟩
def R.CSTORE_CTRL_EN : Fld := ⟨0x350000, 0, 1⟩
def R.CSTORE_CTRL_LOCK : Fld := ⟨0x350000, 31, 1⟩
def R.CSTORE_STATUS_STATE : Fld := ⟨0x350004, 0, 2⟩
def R.CSTORE_STATUS_CFGERR : Fld := ⟨0x350004, 8, 1⟩
def R.CSTORE_STATUS_CLAIMERR : Fld := ⟨0x350004, 9, 1⟩
def R.CSTORE_STATUS_BUSY : Fld := ⟨0x350004, 16, 1⟩
def R.CSTORE_STATUS_BANK : Fld := ⟨0x350004, 17, 2⟩
def R.CSTORE_STATUS_OP : Fld := ⟨0x350004, 19, 4⟩
def R.CSTORE_STATUS_PROGRESS : Fld := ⟨0x350004, 24, 8⟩
def R.CSTORE_ISR_DONE : Fld := ⟨0x350008, 0, 1⟩
def R.CSTORE_ISR_FAIL : Fld := ⟨0x350008, 1, 1⟩
def R.CSTORE_ISR_GATEREJ : Fld := ⟨0x350008, 2, 1⟩
def R.CSTORE_ISR_XOVIOL : Fld := ⟨0x350008, 3, 1⟩
def R.CSTORE_IER_DONE : Fld := ⟨0x35000c, 0, 1⟩
def R.CSTORE_IER_FAIL : Fld := ⟨0x35000c, 1, 1⟩
def R.CSTORE_IER_GATEREJ : Fld := ⟨0x35000c, 2, 1⟩
def R.CSTORE_IER_XOVIOL : Fld := ⟨0x35000c, 3, 1⟩
def R.CSTORE_CMD_OP : Fld := ⟨0x350010, 0, 3⟩
def R.CSTORE_CMD_GO : Fld := ⟨0x350010, 31, 1⟩
def R.CSTORE_ADDR_ADDR : Fld := ⟨0x350014, 0, 26⟩
def R.CSTORE_SRC_SRC : Fld := ⟨0x350018, 0, 22⟩
def R.CSTORE_RES_CODE : Fld := ⟨0x35001c, 0, 2⟩
def R.CSTORE_RES_PBLOCK : Fld := ⟨0x35001c, 2, 10⟩
def R.CSTORE_RES_VALID : Fld := ⟨0x35001c, 31, 1⟩
def R.CSTORE_XO_BASE (n : Nat) : Fld := ⟨0x350020 + 0x4 * n, 0, 10⟩
def R.CSTORE_XO_COUNT (n : Nat) : Fld := ⟨0x350020 + 0x4 * n, 10, 11⟩
def R.CSTORE_XO_VALID (n : Nat) : Fld := ⟨0x350020 + 0x4 * n, 31, 1⟩
def R.CSTORE_XOVIOL_ADDR : Fld := ⟨0x350040, 0, 26⟩
def R.CSTORE_XOVIOL_SRC : Fld := ⟨0x350040, 26, 3⟩
def R.CSTORE_XOVIOL_VALID : Fld := ⟨0x350040, 31, 1⟩
def R.CSTORE_XOVCNT_COUNT : Fld := ⟨0x350044, 0, 32⟩
def R.CSTORE_BOOTINFO_SLOT : Fld := ⟨0x350048, 0, 1⟩
def R.CSTORE_BOOTINFO_FALLBACK : Fld := ⟨0x350048, 1, 1⟩
def R.CSTORE_BOOTINFO_RECOV : Fld := ⟨0x350048, 8, 8⟩
def R.CSTORE_BOOTGEN_GEN : Fld := ⟨0x35004c, 0, 32⟩
def R.CSTORE_BADCNT_FACTORY : Fld := ⟨0x350050, 0, 8⟩
def R.CSTORE_BADCNT_GROWN : Fld := ⟨0x350050, 8, 8⟩
def R.CSTORE_REMAP_PHYS (n : Nat) : Fld := ⟨0x351000 + 0x4 * n, 0, 10⟩
def R.CSTORE_REMAP_UNMAPPED (n : Nat) : Fld := ⟨0x351000 + 0x4 * n, 30, 1⟩
def R.CSTORE_REMAP_REMAPPED (n : Nat) : Fld := ⟨0x351000 + 0x4 * n, 31, 1⟩
def R.HOLD_CTRL_EN : Fld := ⟨0x360000, 0, 1⟩
def R.HOLD_CTRL_LOCK : Fld := ⟨0x360000, 31, 1⟩
def R.HOLD_STATUS_STATE : Fld := ⟨0x360004, 0, 2⟩
def R.HOLD_STATUS_CFGERR : Fld := ⟨0x360004, 8, 1⟩
def R.HOLD_STATUS_CLAIMERR : Fld := ⟨0x360004, 9, 1⟩
def R.HOLD_STATUS_QBUSY : Fld := ⟨0x360004, 16, 1⟩
def R.HOLD_STATUS_QRES : Fld := ⟨0x360004, 17, 3⟩
def R.HOLD_STATUS_FLUSH : Fld := ⟨0x360004, 20, 1⟩
def R.HOLD_STATUS_BANKFLT : Fld := ⟨0x360004, 21, 1⟩
def R.HOLD_STATUS_PASSED : Fld := ⟨0x360004, 22, 4⟩
def R.HOLD_ISR_QDONE : Fld := ⟨0x360008, 0, 1⟩
def R.HOLD_ISR_WCHG : Fld := ⟨0x360008, 1, 1⟩
def R.HOLD_ISR_BANKFLT : Fld := ⟨0x360008, 2, 1⟩
def R.HOLD_ISR_LOST : Fld := ⟨0x360008, 3, 1⟩
def R.HOLD_IER_QDONE : Fld := ⟨0x36000c, 0, 1⟩
def R.HOLD_IER_WCHG : Fld := ⟨0x36000c, 1, 1⟩
def R.HOLD_IER_BANKFLT : Fld := ⟨0x36000c, 2, 1⟩
def R.HOLD_IER_LOST : Fld := ⟨0x36000c, 3, 1⟩
def R.HOLD_WIN_W : Fld := ⟨0x360010, 0, 32⟩
def R.HOLD_EXPO_X : Fld := ⟨0x360014, 0, 32⟩
def R.HOLD_CAP_CAP : Fld := ⟨0x360018, 0, 16⟩
def R.HOLD_LOST_COUNT : Fld := ⟨0x36001c, 0, 32⟩
def R.HOLD_RAIL_MV : Fld := ⟨0x360020, 0, 16⟩
def R.HOLD_RAIL_DUTY : Fld := ⟨0x360020, 16, 8⟩
def R.HOLD_STR_MV_MV (n : Nat) : Fld := ⟨0x360040 + 0x8 * n, 0, 16⟩
def R.HOLD_STR_MV_ISO (n : Nat) : Fld := ⟨0x360040 + 0x8 * n, 16, 1⟩
def R.HOLD_STR_MV_LOAD (n : Nat) : Fld := ⟨0x360040 + 0x8 * n, 17, 1⟩
def R.HOLD_STR_MEAS_C (n : Nat) : Fld := ⟨0x360044 + 0x8 * n, 0, 16⟩
def R.HOLD_STR_MEAS_ESR (n : Nat) : Fld := ⟨0x360044 + 0x8 * n, 16, 16⟩
def R.HOLD_PROF_DATA (n : Nat) : Fld := ⟨0x360100 + 0x4 * n, 0, 32⟩
def R.HOLD_SAVE_SAVE : Fld := ⟨0x360180, 0, 1⟩
def R.HOLD_SAVE_BUSY : Fld := ⟨0x360180, 1, 1⟩
def R.THERM_CTRL_EN : Fld := ⟨0x370000, 0, 1⟩
def R.THERM_CTRL_LOCK : Fld := ⟨0x370000, 31, 1⟩
def R.THERM_STATUS_STATE : Fld := ⟨0x370004, 0, 2⟩
def R.THERM_STATUS_CFGERR : Fld := ⟨0x370004, 8, 1⟩
def R.THERM_STATUS_CLAIMERR : Fld := ⟨0x370004, 9, 1⟩
def R.THERM_STATUS_WHOLD : Fld := ⟨0x370004, 16, 1⟩
def R.THERM_STATUS_TRIPPED : Fld := ⟨0x370004, 17, 1⟩
def R.THERM_STATUS_CHFAULT : Fld := ⟨0x370004, 18, 8⟩
def R.THERM_ISR_HOLD : Fld := ⟨0x370008, 0, 1⟩
def R.THERM_ISR_STALL : Fld := ⟨0x370008, 1, 1⟩
def R.THERM_ISR_FAULT : Fld := ⟨0x370008, 2, 1⟩
def R.THERM_IER_HOLD : Fld := ⟨0x37000c, 0, 1⟩
def R.THERM_IER_STALL : Fld := ⟨0x37000c, 1, 1⟩
def R.THERM_IER_FAULT : Fld := ⟨0x37000c, 2, 1⟩
def R.THERM_CH_CFG_SRC (n : Nat) : Fld := ⟨0x370020 + 0x8 * n, 0, 2⟩
def R.THERM_CH_CFG_ROLE (n : Nat) : Fld := ⟨0x370020 + 0x8 * n, 2, 2⟩
def R.THERM_CH_CFG_I3C (n : Nat) : Fld := ⟨0x370020 + 0x8 * n, 4, 7⟩
def R.THERM_CH_CFG_TEMP (n : Nat) : Fld := ⟨0x370020 + 0x8 * n, 16, 16⟩
def R.THERM_CH_MASK_MASK (n : Nat) : Fld := ⟨0x370024 + 0x8 * n, 0, 32⟩
def R.THERM_OUT_CFG_MODE (n : Nat) : Fld := ⟨0x370060 + 0x8 * n, 0, 1⟩
def R.THERM_OUT_CFG_SRC (n : Nat) : Fld := ⟨0x370060 + 0x8 * n, 8, 8⟩
def R.THERM_OUT_CFG_MINRPM (n : Nat) : Fld := ⟨0x370060 + 0x8 * n, 16, 16⟩
def R.THERM_OUT_STAT_DUTY (n : Nat) : Fld := ⟨0x370064 + 0x8 * n, 0, 8⟩
def R.THERM_OUT_STAT_RPM (n : Nat) : Fld := ⟨0x370064 + 0x8 * n, 16, 16⟩
def R.THERM_CURVE_T (n k : Nat) : Fld := ⟨0x370100 + 0x20 * n + 0x4 * k, 0, 8⟩
def R.THERM_CURVE_DUTY (n k : Nat) : Fld := ⟨0x370100 + 0x20 * n + 0x4 * k, 8, 8⟩
def R.THERM_CURVE_VALID (n k : Nat) : Fld := ⟨0x370100 + 0x20 * n + 0x4 * k, 16, 1⟩
def R.THERM_WCFG_HYST : Fld := ⟨0x370180, 0, 4⟩
def R.THERM_WCFG_MINPCT : Fld := ⟨0x370180, 8, 7⟩
def R.THERM_TRIP_TRIP : Fld := ⟨0x370184, 0, 8⟩
def R.THERM_SAVE_SAVE : Fld := ⟨0x370188, 0, 1⟩
def R.THERM_SAVE_BUSY : Fld := ⟨0x370188, 1, 1⟩
def R.WDT_CTRL_EN : Fld := ⟨0x380000, 0, 1⟩
def R.WDT_CTRL_LOCK : Fld := ⟨0x380000, 31, 1⟩
def R.WDT_STATUS_STATE : Fld := ⟨0x380004, 0, 2⟩
def R.WDT_STATUS_CFGERR : Fld := ⟨0x380004, 8, 1⟩
def R.WDT_STATUS_CLAIMERR : Fld := ⟨0x380004, 9, 1⟩
def R.WDT_STATUS_EXPIRED : Fld := ⟨0x380004, 16, 1⟩
def R.WDT_STATUS_FROZEN : Fld := ⟨0x380004, 17, 1⟩
def R.WDT_STATUS_BOOTFAIL : Fld := ⟨0x380004, 24, 4⟩
def R.WDT_ISR_WARN : Fld := ⟨0x380008, 0, 1⟩
def R.WDT_IER_WARN : Fld := ⟨0x38000c, 0, 1⟩
def R.WDT_TIMEOUT_TIMEOUT : Fld := ⟨0x380010, 0, 16⟩
def R.WDT_WARN_WARN : Fld := ⟨0x380014, 0, 16⟩
def R.WDT_COUNT_COUNT : Fld := ⟨0x380018, 0, 32⟩
def R.WDT_KICK_KEY : Fld := ⟨0x38001c, 0, 16⟩
def R.WDT_BOOTOK_OK : Fld := ⟨0x380020, 0, 1⟩
def R.GPIO_CTRL_LOCK : Fld := ⟨0x390000, 31, 1⟩
def R.GPIO_STATUS_CFGERR : Fld := ⟨0x390004, 8, 1⟩
def R.GPIO_STATUS_CLAIMERR : Fld := ⟨0x390004, 9, 1⟩
def R.GPIO_ISR_EDGE : Fld := ⟨0x390008, 0, 16⟩
def R.GPIO_IER_EDGE : Fld := ⟨0x39000c, 0, 16⟩
def R.GPIO_IN_IN : Fld := ⟨0x390010, 0, 16⟩
def R.GPIO_OUT_OUT : Fld := ⟨0x390014, 0, 16⟩
def R.GPIO_PIN_OE (n : Nat) : Fld := ⟨0x390040 + 0x4 * n, 0, 1⟩
def R.GPIO_PIN_EDGE (n : Nat) : Fld := ⟨0x390040 + 0x4 * n, 1, 2⟩
def R.GPIO_PIN_FUNC (n : Nat) : Fld := ⟨0x390040 + 0x4 * n, 3, 3⟩
def R.GPIO_PIN_OWN (n : Nat) : Fld := ⟨0x390040 + 0x4 * n, 6, 4⟩
def R.GPIO_PIN_OP (n : Nat) : Fld := ⟨0x390040 + 0x4 * n, 30, 2⟩
def R.TILE_CTRL_EN (b : Nat) : Fld := ⟨0x400000 + 0x10000 * b, 0, 1⟩
def R.TILE_CTRL_RST (b : Nat) : Fld := ⟨0x400000 + 0x10000 * b, 1, 1⟩
def R.TILE_CTRL_LOCK (b : Nat) : Fld := ⟨0x400000 + 0x10000 * b, 31, 1⟩
def R.TILE_STATUS_STATE (b : Nat) : Fld := ⟨0x400004 + 0x10000 * b, 0, 2⟩
def R.TILE_STATUS_CFGERR (b : Nat) : Fld := ⟨0x400004 + 0x10000 * b, 8, 1⟩
def R.TILE_STATUS_CLAIMERR (b : Nat) : Fld := ⟨0x400004 + 0x10000 * b, 9, 1⟩
def R.TILE_STATUS_JOB (b : Nat) : Fld := ⟨0x400004 + 0x10000 * b, 16, 1⟩
def R.TILE_STATUS_RSTBUSY (b : Nat) : Fld := ⟨0x400004 + 0x10000 * b, 17, 1⟩
def R.TILE_ISR_JOBFAIL (b : Nat) : Fld := ⟨0x400008 + 0x10000 * b, 0, 1⟩
def R.TILE_ISR_TRESET (b : Nat) : Fld := ⟨0x400008 + 0x10000 * b, 1, 1⟩
def R.TILE_ISR_CERR (b : Nat) : Fld := ⟨0x400008 + 0x10000 * b, 2, 1⟩
def R.TILE_ISR_DCUE (b : Nat) : Fld := ⟨0x400008 + 0x10000 * b, 3, 1⟩
def R.TILE_IER_JOBFAIL (b : Nat) : Fld := ⟨0x40000c + 0x10000 * b, 0, 1⟩
def R.TILE_IER_TRESET (b : Nat) : Fld := ⟨0x40000c + 0x10000 * b, 1, 1⟩
def R.TILE_IER_CERR (b : Nat) : Fld := ⟨0x40000c + 0x10000 * b, 2, 1⟩
def R.TILE_IER_DCUE (b : Nat) : Fld := ⟨0x40000c + 0x10000 * b, 3, 1⟩
def R.TILE_APB_APB (b : Nat) : Fld := ⟨0x400010 + 0x10000 * b, 0, 8⟩
def R.TILE_CCTRL_IC_EN (b : Nat) : Fld := ⟨0x400014 + 0x10000 * b, 0, 1⟩
def R.TILE_CCTRL_DC_EN (b : Nat) : Fld := ⟨0x400014 + 0x10000 * b, 1, 1⟩
def R.TILE_CCTRL_IC_INV (b : Nat) : Fld := ⟨0x400014 + 0x10000 * b, 4, 1⟩
def R.TILE_CCTRL_DC_INV (b : Nat) : Fld := ⟨0x400014 + 0x10000 * b, 5, 1⟩
def R.TILE_CCTRL_DC_CLINV (b : Nat) : Fld := ⟨0x400014 + 0x10000 * b, 6, 1⟩
def R.TILE_CCTRL_IC_OK (b : Nat) : Fld := ⟨0x400014 + 0x10000 * b, 8, 1⟩
def R.TILE_CCTRL_DC_OK (b : Nat) : Fld := ⟨0x400014 + 0x10000 * b, 9, 1⟩
def R.TILE_CCTRL_BUSY (b : Nat) : Fld := ⟨0x400014 + 0x10000 * b, 12, 1⟩
def R.TILE_CCTRL_CERR (b : Nat) : Fld := ⟨0x400014 + 0x10000 * b, 16, 1⟩
def R.TILE_CIRQ_MARI (b : Nat) : Fld := ⟨0x400018 + 0x10000 * b, 0, 1⟩
def R.TILE_CIRQ_CODEC (b : Nat) : Fld := ⟨0x400018 + 0x10000 * b, 1, 1⟩
def R.TILE_CIRQ_KEYQ (b : Nat) : Fld := ⟨0x400018 + 0x10000 * b, 2, 1⟩
def R.TILE_CIRQ_DOORBELL (b : Nat) : Fld := ⟨0x400018 + 0x10000 * b, 3, 1⟩
def R.TILE_CIRQ_CERR (b : Nat) : Fld := ⟨0x400018 + 0x10000 * b, 4, 1⟩
def R.TILE_CIEN_MARI (b : Nat) : Fld := ⟨0x40001c + 0x10000 * b, 0, 1⟩
def R.TILE_CIEN_CODEC (b : Nat) : Fld := ⟨0x40001c + 0x10000 * b, 1, 1⟩
def R.TILE_CIEN_KEYQ (b : Nat) : Fld := ⟨0x40001c + 0x10000 * b, 2, 1⟩
def R.TILE_CIEN_DOORBELL (b : Nat) : Fld := ⟨0x40001c + 0x10000 * b, 3, 1⟩
def R.TILE_CIEN_CERR (b : Nat) : Fld := ⟨0x40001c + 0x10000 * b, 4, 1⟩
def R.TILE_DOORBELL_VALUE (b : Nat) : Fld := ⟨0x400020 + 0x10000 * b, 0, 32⟩
def R.TILE_JOB_FLOW (b : Nat) : Fld := ⟨0x400024 + 0x10000 * b, 0, 18⟩
def R.TILE_JOB_CP (b : Nat) : Fld := ⟨0x400024 + 0x10000 * b, 30, 1⟩
def R.TILE_JOB_ACTIVE (b : Nat) : Fld := ⟨0x400024 + 0x10000 * b, 31, 1⟩
def R.TILE_MCMD_CMD (b : Nat) : Fld := ⟨0x400040 + 0x10000 * b, 0, 3⟩
def R.TILE_MCMD_TAB (b : Nat) : Fld := ⟨0x400040 + 0x10000 * b, 8, 3⟩
def R.TILE_MCMD_STEP (b : Nat) : Fld := ⟨0x400040 + 0x10000 * b, 16, 10⟩
def R.TILE_MSTAT_MSTATE (b : Nat) : Fld := ⟨0x400044 + 0x10000 * b, 0, 2⟩
def R.TILE_MSTAT_END (b : Nat) : Fld := ⟨0x400044 + 0x10000 * b, 8, 4⟩
def R.TILE_MSTAT_LAST (b : Nat) : Fld := ⟨0x400044 + 0x10000 * b, 16, 10⟩
def R.TILE_MSET_BASE (b : Nat) : Fld := ⟨0x400048 + 0x10000 * b, 0, 20⟩
def R.TILE_MSET_NTAB (b : Nat) : Fld := ⟨0x400048 + 0x10000 * b, 20, 4⟩
def R.TILE_MSET_SET (b : Nat) : Fld := ⟨0x400048 + 0x10000 * b, 24, 8⟩
def R.TILE_MEXEC_COUNT (b : Nat) : Fld := ⟨0x40004c + 0x10000 * b, 0, 32⟩
def R.TILE_MACC_ACC (b : Nat) : Fld := ⟨0x400050 + 0x10000 * b, 0, 32⟩
def R.TILE_MSWF_SWF (b : Nat) : Fld := ⟨0x400054 + 0x10000 * b, 0, 1⟩
def R.TILE_MIS_ALO_ALO (b n : Nat) : Fld := ⟨0x400080 + 0x10000 * b + 0x10 * n, 0, 32⟩
def R.TILE_MIS_AHI_ADDR (b n : Nat) : Fld := ⟨0x400084 + 0x10000 * b + 0x10 * n, 0, 16⟩
def R.TILE_MIS_AHI_SPACE (b n : Nat) : Fld := ⟨0x400084 + 0x10000 * b + 0x10 * n, 16, 1⟩
def R.TILE_MIS_AHI_METER (b n : Nat) : Fld := ⟨0x400084 + 0x10000 * b + 0x10 * n, 17, 1⟩
def R.TILE_MIS_LEN_LEN (b n : Nat) : Fld := ⟨0x400088 + 0x10000 * b + 0x10 * n, 0, 32⟩
def R.TILE_MIS_POS0_POS0 (b n : Nat) : Fld := ⟨0x40008c + 0x10000 * b + 0x10 * n, 0, 32⟩
def R.TILE_MOS_ADDR_ADDR (b n : Nat) : Fld := ⟨0x4000c0 + 0x10000 * b + 0x10 * n, 0, 20⟩
def R.TILE_MOS_LIMIT_LIMIT (b n : Nat) : Fld := ⟨0x4000c4 + 0x10000 * b + 0x10 * n, 0, 21⟩
def R.TILE_MOS_DEST_DEST (b n : Nat) : Fld := ⟨0x4000c8 + 0x10000 * b + 0x10 * n, 0, 2⟩
def R.TILE_MOS_USED_USED (b n : Nat) : Fld := ⟨0x4000cc + 0x10000 * b + 0x10 * n, 0, 21⟩
def R.TILE_CDCMD_CMD (b : Nat) : Fld := ⟨0x400100 + 0x10000 * b, 0, 2⟩
def R.TILE_CDSTAT_PEND (b : Nat) : Fld := ⟨0x400104 + 0x10000 * b, 0, 13⟩
def R.TILE_CDSTAT_PROF (b : Nat) : Fld := ⟨0x400104 + 0x10000 * b, 16, 8⟩
def R.TILE_CDSTAT_EBUSY (b : Nat) : Fld := ⟨0x400104 + 0x10000 * b, 24, 1⟩
def R.TILE_CDSTAT_DBUSY (b : Nat) : Fld := ⟨0x400104 + 0x10000 * b, 25, 1⟩
def R.TILE_CDSTAT_PADDED (b : Nat) : Fld := ⟨0x400104 + 0x10000 * b, 26, 1⟩
def R.TILE_CDPROF_PROF (b : Nat) : Fld := ⟨0x400108 + 0x10000 * b, 0, 8⟩
def R.TILE_CDBLK_BLOCKS (b : Nat) : Fld := ⟨0x40010c + 0x10000 * b, 0, 16⟩
def R.TILE_CDBLK_INEXACT (b : Nat) : Fld := ⟨0x40010c + 0x10000 * b, 16, 16⟩
def R.TILE_CDOUT_BYTES (b : Nat) : Fld := ⟨0x400110 + 0x10000 * b, 0, 32⟩
def R.TILE_DJOB_DESC (b : Nat) : Fld := ⟨0x400114 + 0x10000 * b, 0, 20⟩
def R.TILE_DJOB_GO (b : Nat) : Fld := ⟨0x400114 + 0x10000 * b, 31, 1⟩
def R.TILE_DRES_STATUS (b : Nat) : Fld := ⟨0x400118 + 0x10000 * b, 0, 4⟩
def R.TILE_DRES_BUSY (b : Nat) : Fld := ⟨0x400118 + 0x10000 * b, 4, 1⟩
def R.TILE_DRES_NBLK_OK (b : Nat) : Fld := ⟨0x400118 + 0x10000 * b, 16, 16⟩
def R.TILE_DOUT_BYTES (b : Nat) : Fld := ⟨0x40011c + 0x10000 * b, 0, 32⟩
def R.TILE_KQ_USED (b : Nat) : Fld := ⟨0x400120 + 0x10000 * b, 0, 13⟩
def R.TILE_KQ_THRESH (b : Nat) : Fld := ⟨0x400120 + 0x10000 * b, 16, 12⟩
def R.TILE_KQKEYS_COUNT (b : Nat) : Fld := ⟨0x400124 + 0x10000 * b, 0, 32⟩
def R.TILE_KQENT_COUNT (b : Nat) : Fld := ⟨0x400128 + 0x10000 * b, 0, 32⟩
def R.TILE_DMA_CH (b : Nat) : Fld := ⟨0x400140 + 0x10000 * b, 0, 6⟩
def R.TILE_DMA_HELD (b : Nat) : Fld := ⟨0x400140 + 0x10000 * b, 8, 1⟩
def R.TILE_DMA_OP (b : Nat) : Fld := ⟨0x400140 + 0x10000 * b, 24, 2⟩
def R.TILE_DMA_GO (b : Nat) : Fld := ⟨0x400140 + 0x10000 * b, 26, 1⟩
def R.TILE_DMA_PAUSE (b : Nat) : Fld := ⟨0x400140 + 0x10000 * b, 27, 1⟩
def R.TILE_DMA_ABORT (b : Nat) : Fld := ⟨0x400140 + 0x10000 * b, 28, 1⟩
def R.TILE_DMAPROG_ADDR (b : Nat) : Fld := ⟨0x400144 + 0x10000 * b, 0, 20⟩
def R.TILE_DMAREC_ADDR (b : Nat) : Fld := ⟨0x400148 + 0x10000 * b, 0, 20⟩
def R.TILE_DMASTAT_CSTATE (b : Nat) : Fld := ⟨0x40014c + 0x10000 * b, 0, 3⟩
def R.TILE_DMASTAT_LAST (b : Nat) : Fld := ⟨0x40014c + 0x10000 * b, 8, 4⟩
def R.TILE_DGSEL_CTX (b : Nat) : Fld := ⟨0x400160 + 0x10000 * b, 0, 6⟩
def R.DCH_CTRL_LOCK (b : Nat) : Fld := ⟨0x600000 + 0x10000 * b, 31, 1⟩
def R.DCH_STATUS_CFGERR (b : Nat) : Fld := ⟨0x600004 + 0x10000 * b, 8, 1⟩
def R.DCH_STATUS_CLAIMERR (b : Nat) : Fld := ⟨0x600004 + 0x10000 * b, 9, 1⟩
def R.DCH_STATUS_POP (b : Nat) : Fld := ⟨0x600004 + 0x10000 * b, 16, 1⟩
def R.DCH_STATUS_SR (b : Nat) : Fld := ⟨0x600004 + 0x10000 * b, 17, 1⟩
def R.DCH_STATUS_OWED (b : Nat) : Fld := ⟨0x600004 + 0x10000 * b, 18, 4⟩
def R.DCH_STATUS_TDUE (b : Nat) : Fld := ⟨0x600004 + 0x10000 * b, 22, 1⟩
def R.DCH_PASR_MASK (b : Nat) : Fld := ⟨0x600010 + 0x10000 * b, 0, 8⟩
def R.DCH_TRAIN_PERIOD (b : Nat) : Fld := ⟨0x600014 + 0x10000 * b, 0, 8⟩
def R.DCH_TRAIN_DRIFT (b : Nat) : Fld := ⟨0x600014 + 0x10000 * b, 8, 8⟩
def R.DCH_TRAIN_COUNT (b : Nat) : Fld := ⟨0x600014 + 0x10000 * b, 16, 16⟩
def R.DCH_TEMP_RATE (b : Nat) : Fld := ⟨0x600018 + 0x10000 * b, 0, 5⟩
def R.DCH_NRCNT_COUNT (b : Nat) : Fld := ⟨0x60001c + 0x10000 * b, 0, 32⟩
def R.DPORT_CTRL_EN (b : Nat) : Fld := ⟨0x780000 + 0x10000 * b, 0, 1⟩
def R.DPORT_CTRL_VOFFER (b : Nat) : Fld := ⟨0x780000 + 0x10000 * b, 1, 3⟩
def R.DPORT_CTRL_LOCK (b : Nat) : Fld := ⟨0x780000 + 0x10000 * b, 31, 1⟩
def R.DPORT_STATUS_STATE (b : Nat) : Fld := ⟨0x780004 + 0x10000 * b, 0, 2⟩
def R.DPORT_STATUS_CFGERR (b : Nat) : Fld := ⟨0x780004 + 0x10000 * b, 8, 1⟩
def R.DPORT_STATUS_CLAIMERR (b : Nat) : Fld := ⟨0x780004 + 0x10000 * b, 9, 1⟩
def R.DPORT_STATUS_LSTATE (b : Nat) : Fld := ⟨0x780004 + 0x10000 * b, 16, 3⟩
def R.DPORT_STATUS_VER (b : Nat) : Fld := ⟨0x780004 + 0x10000 * b, 19, 2⟩
def R.DPORT_STATUS_X4 (b : Nat) : Fld := ⟨0x780004 + 0x10000 * b, 21, 1⟩
def R.DPORT_STATUS_NOVER (b : Nat) : Fld := ⟨0x780004 + 0x10000 * b, 22, 1⟩
def R.DPORT_ISR_UP (b : Nat) : Fld := ⟨0x780008 + 0x10000 * b, 0, 1⟩
def R.DPORT_ISR_DOWN (b : Nat) : Fld := ⟨0x780008 + 0x10000 * b, 1, 1⟩
def R.DPORT_ISR_NOVER (b : Nat) : Fld := ⟨0x780008 + 0x10000 * b, 2, 1⟩
def R.DPORT_ISR_RETRAIN (b : Nat) : Fld := ⟨0x780008 + 0x10000 * b, 3, 1⟩
def R.DPORT_ISR_CRC (b : Nat) : Fld := ⟨0x780008 + 0x10000 * b, 4, 1⟩
def R.DPORT_ISR_VERDROP (b : Nat) : Fld := ⟨0x780008 + 0x10000 * b, 5, 1⟩
def R.DPORT_ISR_ORPHAN (b : Nat) : Fld := ⟨0x780008 + 0x10000 * b, 6, 1⟩
def R.DPORT_IER_UP (b : Nat) : Fld := ⟨0x78000c + 0x10000 * b, 0, 1⟩
def R.DPORT_IER_DOWN (b : Nat) : Fld := ⟨0x78000c + 0x10000 * b, 1, 1⟩
def R.DPORT_IER_NOVER (b : Nat) : Fld := ⟨0x78000c + 0x10000 * b, 2, 1⟩
def R.DPORT_IER_RETRAIN (b : Nat) : Fld := ⟨0x78000c + 0x10000 * b, 3, 1⟩
def R.DPORT_IER_CRC (b : Nat) : Fld := ⟨0x78000c + 0x10000 * b, 4, 1⟩
def R.DPORT_IER_VERDROP (b : Nat) : Fld := ⟨0x78000c + 0x10000 * b, 5, 1⟩
def R.DPORT_IER_ORPHAN (b : Nat) : Fld := ⟨0x78000c + 0x10000 * b, 6, 1⟩
def R.DPORT_PEERUIDLO_UID (b : Nat) : Fld := ⟨0x780010 + 0x10000 * b, 0, 32⟩
def R.DPORT_PEERUIDHI_UID (b : Nat) : Fld := ⟨0x780014 + 0x10000 * b, 0, 32⟩
def R.DPORT_PEERADDR_ADDR (b : Nat) : Fld := ⟨0x780018 + 0x10000 * b, 0, 16⟩
def R.DPORT_RETRY_TO (b : Nat) : Fld := ⟨0x78001c + 0x10000 * b, 0, 16⟩
def R.DPORT_RETRY_LIMIT (b : Nat) : Fld := ⟨0x78001c + 0x10000 * b, 16, 8⟩
def R.DPORT_CRCCNT_COUNT (b : Nat) : Fld := ⟨0x780020 + 0x10000 * b, 0, 32⟩
def R.DPORT_REPLAYCNT_COUNT (b : Nat) : Fld := ⟨0x780024 + 0x10000 * b, 0, 32⟩
def R.DPORT_RETRAINCNT_COUNT (b : Nat) : Fld := ⟨0x780028 + 0x10000 * b, 0, 32⟩
def R.DPORT_ORPHAN_COUNT (b : Nat) : Fld := ⟨0x78002c + 0x10000 * b, 0, 32⟩
def R.DPORT_VERDROP_COUNT (b : Nat) : Fld := ⟨0x780030 + 0x10000 * b, 0, 32⟩
def R.DPORT_FRAMEERR_COUNT (b : Nat) : Fld := ⟨0x780034 + 0x10000 * b, 0, 32⟩

/-- The cards of the SYS block (01_architecture.md). -/
def cardsSys : List Card := [
  -- SYS_ID
  ⟨0x10, 1, 0x0, 1, 0x0, [⟨0, 16, .ro, .val 12836, .any⟩, ⟨16, 8, .ro, .val 177, .any⟩, ⟨24, 8, .ro, .val 1, .any⟩]⟩,
  -- SYS_CLKSTAT
  ⟨0x14, 1, 0x0, 1, 0x0, [⟨0, 1, .ro, .val 0, .any⟩, ⟨1, 1, .ro, .val 0, .any⟩, ⟨2, 1, .ro, .val 0, .any⟩, ⟨3, 1, .ro, .val 0, .any⟩, ⟨4, 1, .ro, .val 0, .any⟩, ⟨8, 1, .ro, .val 0, .any⟩, ⟨9, 1, .ro, .val 0, .any⟩, ⟨10, 1, .ro, .val 0, .any⟩, ⟨11, 1, .ro, .val 0, .any⟩, ⟨12, 1, .ro, .val 0, .any⟩, ⟨16, 1, .w1c, .val 0, .any⟩]⟩,
  -- SYS_HWIN
  ⟨0x20, 3, 0x4, 1, 0x0, [⟨0, 18, .rwl, .val 0, .any⟩, ⟨31, 1, .rwl, .val 0, .any⟩]⟩,
  -- SYS_HCCTRL
  ⟨0x40, 4, 0x4, 1, 0x0, [⟨0, 1, .rw, .val 0, .any⟩, ⟨1, 1, .rw, .val 0, .any⟩, ⟨4, 1, .wo, .val 0, .any⟩, ⟨5, 1, .wo, .val 0, .any⟩, ⟨6, 1, .wo, .val 0, .any⟩, ⟨8, 1, .ro, .val 0, .any⟩, ⟨9, 1, .ro, .val 0, .any⟩, ⟨12, 1, .ro, .val 0, .any⟩, ⟨16, 1, .w1c, .val 0, .any⟩]⟩,
  -- SYS_CTRL
  ⟨0x0, 1, 0x0, 1, 0x0, [⟨31, 1, .w1s, .val 0, .any⟩]⟩,
  -- SYS_STATUS
  ⟨0x4, 1, 0x0, 1, 0x0, [⟨8, 1, .w1c, .val 0, .any⟩, ⟨9, 1, .w1c, .val 0, .any⟩]⟩,
  -- SYS_RSTCTL
  ⟨0x50, 1, 0x0, 1, 0x0, [⟨0, 3, .rw, .val 0, .any⟩, ⟨16, 16, .wo, .val 0, .ranges [(0, 0), (22354, 22354)]⟩]⟩,
  -- SYS_RSTCAUSE
  ⟨0x54, 1, 0x0, 1, 0x0, [⟨0, 1, .w1c, .val 1, .any⟩, ⟨1, 1, .w1c, .val 0, .any⟩, ⟨2, 1, .w1c, .val 0, .any⟩, ⟨3, 1, .w1c, .val 0, .any⟩, ⟨4, 1, .w1c, .val 0, .any⟩, ⟨5, 1, .w1c, .val 0, .any⟩, ⟨6, 1, .w1c, .val 0, .any⟩, ⟨7, 1, .w1c, .val 0, .any⟩, ⟨8, 1, .w1c, .val 0, .any⟩, ⟨9, 1, .w1c, .val 0, .any⟩, ⟨10, 2, .ro, .val 0, .any⟩]⟩,
  -- SYS_PHASE
  ⟨0x58, 1, 0x0, 1, 0x0, [⟨0, 5, .ro, .val 1, .any⟩, ⟨8, 5, .ro, .val 0, .any⟩, ⟨16, 8, .ro, .val 0, .any⟩, ⟨31, 1, .ro, .val 0, .any⟩]⟩,
  -- SYS_RETLOST
  ⟨0x5c, 1, 0x0, 1, 0x0, [⟨0, 32, .ro, .val 0, .any⟩]⟩,
  -- SYS_RETBASE
  ⟨0x60, 1, 0x0, 1, 0x0, [⟨0, 28, .rw, .val 0, .any⟩, ⟨31, 1, .rw, .val 0, .any⟩]⟩]

/-- The cards of the ECC block (05_tiles_caches_ecc.md). -/
def cardsEcc : List Card := [
  -- ECC_CTRL
  ⟨0x0, 1, 0x0, 1, 0x0, [⟨0, 1, .rw, .val 0, .any⟩, ⟨31, 1, .w1s, .val 0, .any⟩]⟩,
  -- ECC_STATUS
  ⟨0x4, 1, 0x0, 1, 0x0, [⟨0, 2, .ro, .val 0, .any⟩, ⟨8, 1, .w1c, .val 0, .any⟩, ⟨9, 1, .w1c, .val 0, .any⟩, ⟨16, 16, .ro, .val 0, .any⟩]⟩,
  -- ECC_ISR
  ⟨0x8, 1, 0x0, 1, 0x0, [⟨0, 1, .w1c, .val 0, .any⟩, ⟨1, 1, .w1c, .val 0, .any⟩, ⟨2, 1, .w1c, .val 0, .any⟩, ⟨3, 1, .w1c, .val 0, .any⟩, ⟨4, 1, .w1c, .val 0, .any⟩]⟩,
  -- ECC_IER
  ⟨0xc, 1, 0x0, 1, 0x0, [⟨0, 1, .rw, .val 0, .any⟩, ⟨1, 1, .rw, .val 0, .any⟩, ⟨2, 1, .rw, .val 0, .any⟩, ⟨3, 1, .rw, .val 0, .any⟩, ⟨4, 1, .rw, .val 0, .any⟩]⟩,
  -- ECC_SCRUB
  ⟨0x10, 1, 0x0, 1, 0x0, [⟨0, 16, .rwl, .val 60, .ranges [(1, 65535)]⟩]⟩,
  -- ECC_CECNT
  ⟨0x14, 1, 0x0, 1, 0x0, [⟨0, 32, .ro, .val 0, .any⟩]⟩,
  -- ECC_UECNT
  ⟨0x18, 1, 0x0, 1, 0x0, [⟨0, 32, .ro, .val 0, .any⟩]⟩,
  -- ECC_LASTCE
  ⟨0x1c, 1, 0x0, 1, 0x0, [⟨0, 12, .ro, .val 0, .any⟩, ⟨12, 15, .ro, .val 0, .any⟩, ⟨31, 1, .w1c, .val 0, .any⟩]⟩,
  -- ECC_LASTUE
  ⟨0x20, 1, 0x0, 1, 0x0, [⟨0, 12, .ro, .val 0, .any⟩, ⟨12, 15, .ro, .val 0, .any⟩, ⟨31, 1, .w1c, .val 0, .any⟩]⟩,
  -- ECC_REPAIR
  ⟨0x24, 1, 0x0, 1, 0x0, [⟨0, 12, .rw, .val 0, .ranges [(0, 2047)]⟩, ⟨12, 2, .rw, .val 0, .ranges [(0, 2)]⟩, ⟨14, 9, .rw, .val 0, .any⟩, ⟨31, 1, .wo, .val 0, .any⟩]⟩,
  -- ECC_REPRES
  ⟨0x28, 1, 0x0, 1, 0x0, [⟨0, 3, .ro, .val 0, .any⟩, ⟨3, 2, .ro, .val 0, .any⟩, ⟨5, 2, .ro, .val 0, .any⟩]⟩,
  -- ECC_TEST_CTRL
  ⟨0x30, 1, 0x0, 1, 0x0, [⟨0, 1, .rw, .val 0, .any⟩, ⟨1, 2, .wo, .val 0, .ranges [(0, 2)]⟩, ⟨16, 12, .rw, .val 0, .special⟩]⟩,
  -- ECC_TEST_ADDR
  ⟨0x34, 1, 0x0, 1, 0x0, [⟨0, 15, .rw, .val 0, .special⟩]⟩,
  -- ECC_TEST_DLO
  ⟨0x38, 1, 0x0, 1, 0x0, [⟨0, 32, .rw, .val 0, .any⟩]⟩,
  -- ECC_TEST_DHI
  ⟨0x3c, 1, 0x0, 1, 0x0, [⟨0, 32, .rw, .val 0, .any⟩]⟩,
  -- ECC_TEST_CHK
  ⟨0x40, 1, 0x0, 1, 0x0, [⟨0, 8, .rw, .val 0, .any⟩]⟩]

/-- The cards of the DISP block (02_flows_and_ordered_work.md). -/
def cardsDisp : List Card := [
  -- DISP_CTRL
  ⟨0x0, 1, 0x0, 1, 0x0, [⟨0, 1, .rw, .val 0, .any⟩, ⟨31, 1, .w1s, .val 0, .any⟩]⟩,
  -- DISP_STATUS
  ⟨0x4, 1, 0x0, 1, 0x0, [⟨0, 2, .ro, .val 0, .any⟩, ⟨8, 1, .w1c, .val 0, .any⟩, ⟨9, 1, .w1c, .val 0, .any⟩, ⟨16, 1, .ro, .val 0, .any⟩, ⟨17, 1, .ro, .val 0, .any⟩]⟩,
  -- DISP_ISR
  ⟨0x8, 1, 0x0, 1, 0x0, [⟨0, 1, .w1c, .val 0, .any⟩, ⟨1, 1, .w1c, .val 0, .any⟩, ⟨2, 1, .w1c, .val 0, .any⟩, ⟨3, 1, .w1c, .val 0, .any⟩, ⟨4, 1, .w1c, .val 0, .any⟩, ⟨5, 1, .w1c, .val 0, .any⟩]⟩,
  -- DISP_IER
  ⟨0xc, 1, 0x0, 1, 0x0, [⟨0, 1, .rw, .val 0, .any⟩, ⟨1, 1, .rw, .val 0, .any⟩, ⟨2, 1, .rw, .val 0, .any⟩, ⟨3, 1, .rw, .val 0, .any⟩, ⟨4, 1, .rw, .val 0, .any⟩, ⟨5, 1, .rw, .val 0, .any⟩]⟩,
  -- DISP_PART
  ⟨0x10, 1, 0x0, 1, 0x0, [⟨0, 7, .rwl, .val 32, .ranges [(0, 64)]⟩, ⟨8, 8, .rwl, .val 64, .ranges [(0, 128)]⟩, ⟨16, 1, .rwl, .val 1, .any⟩]⟩,
  -- DISP_INFLIGHT
  ⟨0x14, 1, 0x0, 1, 0x0, [⟨0, 14, .ro, .val 0, .any⟩, ⟨16, 14, .rwl, .val 8192, .ranges [(1, 8192)]⟩]⟩,
  -- DISP_STEAL
  ⟨0x18, 1, 0x0, 1, 0x0, [⟨0, 7, .rwl, .val 2, .ranges [(1, 64)]⟩, ⟨8, 1, .rwl, .val 1, .any⟩, ⟨16, 8, .rwl, .val 10, .any⟩]⟩,
  -- DISP_GAPTO
  ⟨0x1c, 1, 0x0, 1, 0x0, [⟨0, 16, .rwl, .val 100, .any⟩]⟩,
  -- DISP_LAND_BASE
  ⟨0x20, 2, 0x8, 1, 0x0, [⟨0, 28, .rwl, .val 0, .any⟩]⟩,
  -- DISP_LAND_SIZE
  ⟨0x24, 2, 0x8, 1, 0x0, [⟨0, 18, .rwl, .val 0, .special⟩]⟩,
  -- DISP_UNBOUND
  ⟨0x30, 1, 0x0, 1, 0x0, [⟨0, 32, .ro, .val 0, .any⟩]⟩,
  -- DISP_BADDECL
  ⟨0x34, 1, 0x0, 1, 0x0, [⟨0, 32, .ro, .val 0, .any⟩]⟩,
  -- DISP_DEQ
  ⟨0x100, 32, 0x4, 1, 0x0, [⟨0, 7, .ro, .val 0, .any⟩, ⟨7, 1, .ro, .val 0, .any⟩, ⟨16, 16, .ro, .val 0, .any⟩]⟩]

/-- The cards of the RET block (02_flows_and_ordered_work.md). -/
def cardsRet : List Card := [
  -- RET_CTRL
  ⟨0x0, 1, 0x0, 1, 0x0, [⟨31, 1, .w1s, .val 0, .any⟩]⟩,
  -- RET_STATUS
  ⟨0x4, 1, 0x0, 1, 0x0, [⟨8, 1, .w1c, .val 0, .any⟩, ⟨9, 1, .w1c, .val 0, .any⟩]⟩,
  -- RET_ISR
  ⟨0x8, 1, 0x0, 1, 0x0, [⟨0, 1, .w1c, .val 0, .any⟩, ⟨1, 1, .w1c, .val 0, .any⟩, ⟨2, 1, .w1c, .val 0, .any⟩, ⟨3, 1, .w1c, .val 0, .any⟩]⟩,
  -- RET_IER
  ⟨0xc, 1, 0x0, 1, 0x0, [⟨0, 1, .rw, .val 0, .any⟩, ⟨1, 1, .rw, .val 0, .any⟩, ⟨2, 1, .rw, .val 0, .any⟩, ⟨3, 1, .rw, .val 0, .any⟩]⟩,
  -- RET_PTO
  ⟨0x10, 1, 0x0, 1, 0x0, [⟨0, 24, .rwl, .val 10000, .any⟩]⟩,
  -- RET_STALL
  ⟨0x14, 1, 0x0, 1, 0x0, [⟨0, 24, .rwl, .val 1000, .any⟩]⟩,
  -- RET_OSTG_BASE
  ⟨0x18, 1, 0x0, 1, 0x0, [⟨0, 28, .rwl, .val 0, .any⟩]⟩,
  -- RET_OSTG_SIZE
  ⟨0x1c, 1, 0x0, 1, 0x0, [⟨0, 18, .rwl, .val 0, .special⟩]⟩,
  -- RET_OSTG_USED
  ⟨0x20, 1, 0x0, 1, 0x0, [⟨0, 18, .ro, .val 0, .any⟩]⟩,
  -- RET_LASTFAIL
  ⟨0x24, 1, 0x0, 1, 0x0, [⟨0, 18, .ro, .val 0, .any⟩, ⟨18, 3, .ro, .val 0, .any⟩, ⟨31, 1, .w1c, .val 0, .any⟩]⟩,
  -- RET_STALLFLOW
  ⟨0x28, 1, 0x0, 1, 0x0, [⟨0, 18, .ro, .val 0, .any⟩, ⟨31, 1, .w1c, .val 0, .any⟩]⟩]

/-- The cards of the FLOW block (02_flows_and_ordered_work.md). -/
def cardsFlow : List Card := [
  -- FLOW_CTRL
  ⟨0x0, 1, 0x0, 1, 0x0, [⟨31, 1, .w1s, .val 0, .any⟩]⟩,
  -- FLOW_STATUS
  ⟨0x4, 1, 0x0, 1, 0x0, [⟨8, 1, .w1c, .val 0, .any⟩, ⟨9, 1, .w1c, .val 0, .any⟩, ⟨16, 1, .ro, .val 0, .any⟩]⟩,
  -- FLOW_ISR
  ⟨0x8, 1, 0x0, 1, 0x0, [⟨0, 1, .w1c, .val 0, .any⟩, ⟨1, 1, .w1c, .val 0, .any⟩, ⟨2, 1, .w1c, .val 0, .any⟩]⟩,
  -- FLOW_IER
  ⟨0xc, 1, 0x0, 1, 0x0, [⟨0, 1, .rw, .val 0, .any⟩, ⟨1, 1, .rw, .val 0, .any⟩, ⟨2, 1, .rw, .val 0, .any⟩]⟩,
  -- FLOW_CMD
  ⟨0x10, 1, 0x0, 1, 0x0, [⟨0, 18, .rw, .val 0, .any⟩, ⟨18, 2, .wo, .val 0, .ranges [(0, 2)]⟩]⟩,
  -- FLOW_CMDRES
  ⟨0x14, 1, 0x0, 1, 0x0, [⟨0, 4, .ro, .val 0, .any⟩]⟩,
  -- FLOW_NBOUND
  ⟨0x18, 1, 0x0, 1, 0x0, [⟨0, 19, .ro, .val 0, .any⟩]⟩,
  -- FLOW_LASTSTOP
  ⟨0x1c, 1, 0x0, 1, 0x0, [⟨0, 18, .ro, .val 0, .any⟩, ⟨31, 1, .w1c, .val 0, .any⟩]⟩]

/-- The cards of the PAT block (08_pattern_and_index.md). -/
def cardsPat : List Card := [
  -- PAT_CTRL
  ⟨0x0, 1, 0x0, 1, 0x0, [⟨0, 1, .rw, .val 0, .any⟩, ⟨31, 1, .w1s, .val 0, .any⟩]⟩,
  -- PAT_STATUS
  ⟨0x4, 1, 0x0, 1, 0x0, [⟨0, 2, .ro, .val 0, .any⟩, ⟨8, 1, .w1c, .val 0, .any⟩, ⟨9, 1, .w1c, .val 0, .any⟩, ⟨16, 7, .ro, .val 0, .any⟩]⟩,
  -- PAT_ISR
  ⟨0x8, 1, 0x0, 1, 0x0, [⟨0, 1, .w1c, .val 0, .any⟩, ⟨1, 1, .w1c, .val 0, .any⟩, ⟨2, 1, .w1c, .val 0, .any⟩]⟩,
  -- PAT_IER
  ⟨0xc, 1, 0x0, 1, 0x0, [⟨0, 1, .rw, .val 0, .any⟩, ⟨1, 1, .rw, .val 0, .any⟩, ⟨2, 1, .rw, .val 0, .any⟩]⟩,
  -- PAT_FREE
  ⟨0x10, 1, 0x0, 1, 0x0, [⟨0, 23, .ro, .val 4194304, .any⟩]⟩,
  -- PAT_KEYS
  ⟨0x14, 1, 0x0, 1, 0x0, [⟨0, 32, .ro, .val 0, .any⟩]⟩,
  -- PAT_PARTIAL
  ⟨0x18, 1, 0x0, 1, 0x0, [⟨0, 32, .ro, .val 0, .any⟩]⟩,
  -- PAT_SET_BASE
  ⟨0x100, 64, 0x10, 1, 0x0, [⟨0, 22, .ro, .val 0, .any⟩, ⟨31, 1, .ro, .val 0, .any⟩]⟩,
  -- PAT_SET_ENTRIES
  ⟨0x104, 64, 0x10, 1, 0x0, [⟨0, 23, .ro, .val 0, .any⟩]⟩,
  -- PAT_SET_START
  ⟨0x108, 64, 0x10, 1, 0x0, [⟨0, 22, .ro, .val 0, .any⟩]⟩,
  -- PAT_SET_SHAPE
  ⟨0x10c, 64, 0x10, 1, 0x0, [⟨0, 3, .ro, .val 0, .any⟩, ⟨16, 9, .ro, .val 0, .any⟩]⟩]

/-- The cards of the RULE block (08_pattern_and_index.md). -/
def cardsRule : List Card := [
  -- RULE_CTRL
  ⟨0x0, 1, 0x0, 1, 0x0, [⟨0, 1, .rw, .val 0, .any⟩, ⟨1, 1, .rwl, .val 1, .any⟩, ⟨31, 1, .w1s, .val 0, .any⟩]⟩,
  -- RULE_STATUS
  ⟨0x4, 1, 0x0, 1, 0x0, [⟨0, 2, .ro, .val 0, .any⟩, ⟨8, 1, .w1c, .val 0, .any⟩, ⟨9, 1, .w1c, .val 0, .any⟩, ⟨16, 1, .ro, .val 0, .any⟩]⟩,
  -- RULE_ISR
  ⟨0x8, 1, 0x0, 1, 0x0, [⟨0, 1, .w1c, .val 0, .any⟩, ⟨1, 1, .w1c, .val 0, .any⟩, ⟨2, 1, .w1c, .val 0, .any⟩, ⟨3, 1, .w1c, .val 0, .any⟩]⟩,
  -- RULE_IER
  ⟨0xc, 1, 0x0, 1, 0x0, [⟨0, 1, .rw, .val 0, .any⟩, ⟨1, 1, .rw, .val 0, .any⟩, ⟨2, 1, .rw, .val 0, .any⟩, ⟨3, 1, .rw, .val 0, .any⟩]⟩,
  -- RULE_SHBASE
  ⟨0x10, 1, 0x0, 1, 0x0, [⟨0, 26, .rwl, .val 0, .special⟩]⟩,
  -- RULE_SCHK
  ⟨0x14, 1, 0x0, 1, 0x0, [⟨0, 16, .rwl, .val 256, .ranges [(16, 65535)]⟩]⟩,
  -- RULE_CMD
  ⟨0x18, 1, 0x0, 1, 0x0, [⟨0, 16, .rw, .val 0, .any⟩, ⟨16, 8, .rw, .val 0, .any⟩, ⟨24, 2, .wo, .val 0, .ranges [(0, 2)]⟩]⟩,
  -- RULE_CMDRES
  ⟨0x1c, 1, 0x0, 1, 0x0, [⟨0, 4, .ro, .val 0, .any⟩]⟩,
  -- RULE_NVALID
  ⟨0x20, 1, 0x0, 1, 0x0, [⟨0, 17, .ro, .val 0, .any⟩]⟩,
  -- RULE_SHCNT
  ⟨0x24, 1, 0x0, 1, 0x0, [⟨0, 32, .ro, .val 0, .any⟩]⟩,
  -- RULE_LASTSH
  ⟨0x28, 1, 0x0, 1, 0x0, [⟨0, 15, .ro, .val 0, .any⟩, ⟨31, 1, .w1c, .val 0, .any⟩]⟩,
  -- RULE_SRCH
  ⟨0x2c, 1, 0x0, 1, 0x0, [⟨0, 32, .ro, .val 0, .any⟩]⟩,
  -- RULE_MULTICNT
  ⟨0x30, 1, 0x0, 1, 0x0, [⟨0, 32, .ro, .val 0, .any⟩]⟩,
  -- RULE_REC
  ⟨0x100, 24, 0x4, 1, 0x0, [⟨0, 32, .rw, .val 0, .any⟩]⟩]

/-- The cards of the CODEC block (07_block_code.md). -/
def cardsCodec : List Card := [
  -- CODEC_CTRL
  ⟨0x0, 1, 0x0, 1, 0x0, [⟨0, 1, .rw, .val 0, .any⟩, ⟨31, 1, .w1s, .val 0, .any⟩]⟩,
  -- CODEC_STATUS
  ⟨0x4, 1, 0x0, 1, 0x0, [⟨0, 2, .ro, .val 0, .any⟩, ⟨8, 1, .w1c, .val 0, .any⟩, ⟨9, 1, .w1c, .val 0, .any⟩, ⟨16, 6, .ro, .val 0, .any⟩]⟩,
  -- CODEC_ISR
  ⟨0x8, 1, 0x0, 1, 0x0, [⟨0, 1, .w1c, .val 0, .any⟩, ⟨1, 1, .w1c, .val 0, .any⟩, ⟨2, 1, .w1c, .val 0, .any⟩]⟩,
  -- CODEC_IER
  ⟨0xc, 1, 0x0, 1, 0x0, [⟨0, 1, .rw, .val 0, .any⟩, ⟨1, 1, .rw, .val 0, .any⟩, ⟨2, 1, .rw, .val 0, .any⟩]⟩,
  -- CODEC_DQ_BASE
  ⟨0x10, 1, 0x0, 1, 0x0, [⟨0, 28, .rwl, .val 0, .special⟩]⟩,
  -- CODEC_DQ_SIZE
  ⟨0x14, 1, 0x0, 1, 0x0, [⟨0, 5, .rwl, .val 4, .special⟩]⟩,
  -- CODEC_DQ_TAIL
  ⟨0x18, 1, 0x0, 1, 0x0, [⟨0, 16, .rw, .val 0, .special⟩]⟩,
  -- CODEC_DQ_HEAD
  ⟨0x1c, 1, 0x0, 1, 0x0, [⟨0, 16, .ro, .val 0, .any⟩]⟩,
  -- CODEC_DC_BASE
  ⟨0x20, 1, 0x0, 1, 0x0, [⟨0, 28, .rwl, .val 0, .special⟩]⟩,
  -- CODEC_DC_HEAD
  ⟨0x24, 1, 0x0, 1, 0x0, [⟨0, 16, .ro, .val 0, .any⟩, ⟨16, 1, .ro, .val 1, .any⟩]⟩,
  -- CODEC_DQMASK
  ⟨0x28, 1, 0x0, 1, 0x0, [⟨0, 32, .rwl, .val 4294967295, .any⟩]⟩,
  -- CODEC_STCNT
  ⟨0x30, 1, 0x0, 1, 0x0, [⟨0, 32, .ro, .val 0, .any⟩]⟩,
  -- CODEC_LLCNT
  ⟨0x34, 1, 0x0, 1, 0x0, [⟨0, 32, .ro, .val 0, .any⟩]⟩,
  -- CODEC_FXCNT
  ⟨0x38, 1, 0x0, 1, 0x0, [⟨0, 32, .ro, .val 0, .any⟩]⟩,
  -- CODEC_FICNT
  ⟨0x3c, 1, 0x0, 1, 0x0, [⟨0, 32, .ro, .val 0, .any⟩]⟩,
  -- CODEC_VFCNT
  ⟨0x40, 1, 0x0, 1, 0x0, [⟨0, 32, .ro, .val 0, .any⟩]⟩,
  -- CODEC_DECNT
  ⟨0x44, 1, 0x0, 1, 0x0, [⟨0, 32, .ro, .val 0, .any⟩]⟩,
  -- CODEC_LASTV
  ⟨0x48, 1, 0x0, 1, 0x0, [⟨0, 5, .ro, .val 0, .any⟩, ⟨5, 3, .ro, .val 0, .any⟩, ⟨31, 1, .w1c, .val 0, .any⟩]⟩,
  -- CODEC_PROF
  ⟨0x400, 256, 0x4, 1, 0x0, [⟨0, 2, .ro, .val 0, .any⟩, ⟨2, 2, .ro, .val 0, .any⟩, ⟨4, 2, .ro, .val 0, .any⟩, ⟨6, 2, .ro, .val 0, .any⟩, ⟨8, 1, .ro, .val 0, .any⟩, ⟨16, 13, .ro, .val 0, .any⟩]⟩]

/-- The cards of the NVME block (09_host_nvme.md). -/
def cardsNvme : List Card := [
  -- NVME_CTRL
  ⟨0x0, 1, 0x0, 1, 0x0, [⟨0, 1, .rw, .val 0, .any⟩, ⟨31, 1, .w1s, .val 0, .any⟩]⟩,
  -- NVME_STATUS
  ⟨0x4, 1, 0x0, 1, 0x0, [⟨0, 2, .ro, .val 0, .any⟩, ⟨8, 1, .w1c, .val 0, .any⟩, ⟨9, 1, .w1c, .val 0, .any⟩, ⟨16, 1, .ro, .val 0, .any⟩, ⟨17, 1, .ro, .val 0, .any⟩]⟩,
  -- NVME_ISR
  ⟨0x8, 1, 0x0, 1, 0x0, [⟨0, 1, .w1c, .val 0, .any⟩, ⟨1, 1, .w1c, .val 0, .any⟩, ⟨2, 1, .w1c, .val 0, .any⟩, ⟨3, 1, .w1c, .val 0, .any⟩]⟩,
  -- NVME_IER
  ⟨0xc, 1, 0x0, 1, 0x0, [⟨0, 1, .rw, .val 0, .any⟩, ⟨1, 1, .rw, .val 0, .any⟩, ⟨2, 1, .rw, .val 0, .any⟩, ⟨3, 1, .rw, .val 0, .any⟩]⟩,
  -- NVME_CPMASK
  ⟨0x10, 1, 0x0, 1, 0x0, [⟨0, 32, .rwl, .val 4278190080, .any⟩]⟩,
  -- NVME_CPLIM
  ⟨0x14, 1, 0x0, 1, 0x0, [⟨0, 24, .rwl, .val 100000, .ranges [(1, 16777215)]⟩]⟩,
  -- NVME_RLOCK
  ⟨0x18, 1, 0x0, 1, 0x0, [⟨0, 13, .ro, .val 0, .any⟩, ⟨16, 16, .ro, .val 0, .any⟩]⟩,
  -- NVME_ABCNT
  ⟨0x1c, 1, 0x0, 1, 0x0, [⟨0, 16, .ro, .val 0, .any⟩, ⟨16, 16, .ro, .val 0, .any⟩]⟩]

/-- The cards of the PCIE block (09_host_nvme.md). -/
def cardsPcie : List Card := [
  -- PCIE_CTRL
  ⟨0x0, 1, 0x0, 1, 0x0, [⟨0, 1, .rw, .val 0, .any⟩, ⟨1, 1, .rwl, .val 0, .any⟩, ⟨31, 1, .w1s, .val 0, .any⟩]⟩,
  -- PCIE_STATUS
  ⟨0x4, 1, 0x0, 1, 0x0, [⟨0, 2, .ro, .val 0, .any⟩, ⟨8, 1, .w1c, .val 0, .any⟩, ⟨9, 1, .w1c, .val 0, .any⟩, ⟨16, 1, .ro, .val 0, .any⟩]⟩,
  -- PCIE_ISR
  ⟨0x8, 1, 0x0, 1, 0x0, [⟨0, 1, .w1c, .val 0, .any⟩, ⟨1, 1, .w1c, .val 0, .any⟩, ⟨2, 1, .w1c, .val 0, .any⟩, ⟨3, 1, .w1c, .val 0, .any⟩, ⟨4, 1, .w1c, .val 0, .any⟩]⟩,
  -- PCIE_IER
  ⟨0xc, 1, 0x0, 1, 0x0, [⟨0, 1, .rw, .val 0, .any⟩, ⟨1, 1, .rw, .val 0, .any⟩, ⟨2, 1, .rw, .val 0, .any⟩, ⟨3, 1, .rw, .val 0, .any⟩, ⟨4, 1, .rw, .val 0, .any⟩]⟩,
  -- PCIE_LINK
  ⟨0x10, 2, 0x4, 1, 0x0, [⟨0, 3, .ro, .val 0, .any⟩, ⟨3, 5, .ro, .val 0, .any⟩, ⟨8, 1, .ro, .val 0, .any⟩, ⟨9, 1, .ro, .val 0, .any⟩, ⟨16, 16, .ro, .val 0, .any⟩]⟩]

/-- The cards of the MEDIA block (10_media_and_translation.md). -/
def cardsMedia : List Card := [
  -- MEDIA_CTRL
  ⟨0x0, 1, 0x0, 1, 0x0, [⟨0, 1, .rw, .val 0, .any⟩, ⟨31, 1, .w1s, .val 0, .any⟩]⟩,
  -- MEDIA_STATUS
  ⟨0x4, 1, 0x0, 1, 0x0, [⟨0, 2, .ro, .val 0, .any⟩, ⟨8, 1, .w1c, .val 0, .any⟩, ⟨9, 1, .w1c, .val 0, .any⟩, ⟨16, 4, .ro, .val 0, .any⟩, ⟨20, 4, .ro, .val 0, .any⟩]⟩,
  -- MEDIA_ISR
  ⟨0x8, 1, 0x0, 1, 0x0, [⟨0, 1, .w1c, .val 0, .any⟩, ⟨1, 1, .w1c, .val 0, .any⟩, ⟨2, 1, .w1c, .val 0, .any⟩, ⟨3, 1, .w1c, .val 0, .any⟩, ⟨4, 1, .w1c, .val 0, .any⟩, ⟨5, 1, .w1c, .val 0, .any⟩]⟩,
  -- MEDIA_IER
  ⟨0xc, 1, 0x0, 1, 0x0, [⟨0, 1, .rw, .val 0, .any⟩, ⟨1, 1, .rw, .val 0, .any⟩, ⟨2, 1, .rw, .val 0, .any⟩, ⟨3, 1, .rw, .val 0, .any⟩, ⟨4, 1, .rw, .val 0, .any⟩, ⟨5, 1, .rw, .val 0, .any⟩]⟩,
  -- MEDIA_LUNS
  ⟨0x10, 1, 0x0, 1, 0x0, [⟨0, 11, .ro, .val 0, .any⟩, ⟨16, 11, .ro, .val 0, .any⟩]⟩,
  -- MEDIA_RETRYCNT
  ⟨0x20, 1, 0x0, 1, 0x0, [⟨0, 32, .ro, .val 0, .any⟩]⟩,
  -- MEDIA_UNRECCNT
  ⟨0x24, 1, 0x0, 1, 0x0, [⟨0, 32, .ro, .val 0, .any⟩]⟩,
  -- MEDIA_PFCNT
  ⟨0x28, 1, 0x0, 1, 0x0, [⟨0, 32, .ro, .val 0, .any⟩]⟩,
  -- MEDIA_EFCNT
  ⟨0x2c, 1, 0x0, 1, 0x0, [⟨0, 32, .ro, .val 0, .any⟩]⟩,
  -- MEDIA_IRREG
  ⟨0x30, 1, 0x0, 1, 0x0, [⟨0, 32, .ro, .val 0, .any⟩]⟩,
  -- MEDIA_LASTERR
  ⟨0x40, 1, 0x0, 1, 0x0, [⟨0, 10, .ro, .val 0, .any⟩, ⟨10, 2, .ro, .val 0, .any⟩, ⟨12, 19, .ro, .val 0, .any⟩, ⟨31, 1, .w1c, .val 0, .any⟩]⟩]

/-- The cards of the FTLA block (10_media_and_translation.md). -/
def cardsFtla : List Card := [
  -- FTLA_CTRL
  ⟨0x0, 1, 0x0, 1, 0x0, [⟨0, 1, .rw, .val 0, .any⟩, ⟨31, 1, .w1s, .val 0, .any⟩]⟩,
  -- FTLA_STATUS
  ⟨0x4, 1, 0x0, 1, 0x0, [⟨0, 2, .ro, .val 0, .any⟩, ⟨8, 1, .w1c, .val 0, .any⟩, ⟨9, 1, .w1c, .val 0, .any⟩, ⟨16, 1, .ro, .val 0, .any⟩, ⟨17, 1, .ro, .val 0, .any⟩, ⟨18, 1, .ro, .val 0, .any⟩, ⟨19, 1, .ro, .val 0, .any⟩]⟩,
  -- FTLA_ISR
  ⟨0x8, 1, 0x0, 1, 0x0, [⟨0, 1, .w1c, .val 0, .any⟩, ⟨1, 1, .w1c, .val 0, .any⟩, ⟨2, 1, .w1c, .val 0, .any⟩, ⟨3, 1, .w1c, .val 0, .any⟩, ⟨4, 1, .w1c, .val 0, .any⟩, ⟨5, 1, .w1c, .val 0, .any⟩]⟩,
  -- FTLA_IER
  ⟨0xc, 1, 0x0, 1, 0x0, [⟨0, 1, .rw, .val 0, .any⟩, ⟨1, 1, .rw, .val 0, .any⟩, ⟨2, 1, .rw, .val 0, .any⟩, ⟨3, 1, .rw, .val 0, .any⟩, ⟨4, 1, .rw, .val 0, .any⟩, ⟨5, 1, .rw, .val 0, .any⟩]⟩,
  -- FTLA_BTBASE
  ⟨0x10, 1, 0x0, 1, 0x0, [⟨0, 28, .rwl, .val 0, .special⟩]⟩,
  -- FTLA_SCAN
  ⟨0x14, 1, 0x0, 1, 0x0, [⟨0, 10, .rw, .val 0, .any⟩, ⟨10, 1, .rw, .val 0, .any⟩, ⟨11, 2, .wo, .val 0, .ranges [(0, 2)]⟩]⟩,
  -- FTLA_SRES
  ⟨0x18, 1, 0x0, 1, 0x0, [⟨0, 19, .ro, .val 0, .any⟩, ⟨19, 10, .ro, .val 0, .any⟩, ⟨31, 1, .ro, .val 0, .any⟩]⟩,
  -- FTLA_SSCORE
  ⟨0x1c, 1, 0x0, 1, 0x0, [⟨0, 32, .ro, .val 0, .any⟩]⟩,
  -- FTLA_GCW
  ⟨0x20, 1, 0x0, 1, 0x0, [⟨0, 8, .rwl, .val 4, .any⟩, ⟨8, 8, .rwl, .val 1, .any⟩, ⟨16, 8, .rwl, .val 2, .any⟩]⟩,
  -- FTLA_AGEU
  ⟨0x24, 1, 0x0, 1, 0x0, [⟨0, 16, .rwl, .val 1, .ranges [(1, 65535)]⟩]⟩,
  -- FTLA_CKPT
  ⟨0x28, 1, 0x0, 1, 0x0, [⟨0, 16, .rwl, .val 60, .ranges [(1, 65535)]⟩]⟩,
  -- FTLA_UNITTO
  ⟨0x2c, 1, 0x0, 1, 0x0, [⟨0, 16, .rwl, .val 1000, .any⟩]⟩,
  -- FTLA_ATTIC
  ⟨0x30, 1, 0x0, 1, 0x0, [⟨0, 30, .ro, .val 0, .any⟩]⟩,
  -- FTLA_FLOOR
  ⟨0x34, 1, 0x0, 1, 0x0, [⟨0, 30, .rwl, .val 2048, .special⟩]⟩,
  -- FTLA_GCLOW
  ⟨0x38, 1, 0x0, 1, 0x0, [⟨0, 30, .rwl, .val 8192, .special⟩]⟩,
  -- FTLA_GCHIGH
  ⟨0x3c, 1, 0x0, 1, 0x0, [⟨0, 30, .rwl, .val 16384, .special⟩]⟩,
  -- FTLA_WEAR
  ⟨0x40, 1, 0x0, 1, 0x0, [⟨0, 10, .rwl, .val 150, .ranges [(100, 1000)]⟩, ⟨16, 5, .rwl, .val 8, .ranges [(1, 16)]⟩]⟩,
  -- FTLA_FINE
  ⟨0x44, 1, 0x0, 1, 0x0, [⟨0, 24, .ro, .val 0, .any⟩]⟩,
  -- FTLA_CELLAR
  ⟨0x48, 1, 0x0, 1, 0x0, [⟨0, 4, .rwl, .val 2, .ranges [(1, 8)]⟩]⟩,
  -- FTLA_GROWN
  ⟨0x4c, 1, 0x0, 1, 0x0, [⟨0, 30, .ro, .val 0, .any⟩]⟩,
  -- FTLA_FACTBAD
  ⟨0x50, 1, 0x0, 1, 0x0, [⟨0, 30, .ro, .val 0, .any⟩]⟩]

/-- The cards of the DRAM block (12_dram_controller.md). -/
def cardsDram : List Card := [
  -- DRAM_CTRL
  ⟨0x0, 1, 0x0, 1, 0x0, [⟨0, 1, .rw, .val 0, .any⟩, ⟨31, 1, .w1s, .val 0, .any⟩]⟩,
  -- DRAM_STATUS
  ⟨0x4, 1, 0x0, 1, 0x0, [⟨0, 2, .ro, .val 0, .any⟩, ⟨8, 1, .w1c, .val 0, .any⟩, ⟨9, 1, .w1c, .val 0, .any⟩, ⟨16, 1, .ro, .val 0, .any⟩, ⟨17, 1, .ro, .val 0, .any⟩, ⟨18, 1, .ro, .val 0, .any⟩]⟩,
  -- DRAM_ISR
  ⟨0x8, 1, 0x0, 1, 0x0, [⟨0, 1, .w1c, .val 0, .any⟩, ⟨1, 1, .w1c, .val 0, .any⟩, ⟨2, 1, .w1c, .val 0, .any⟩, ⟨3, 1, .w1c, .val 0, .any⟩, ⟨4, 1, .w1c, .val 0, .any⟩, ⟨5, 1, .w1c, .val 0, .any⟩, ⟨6, 1, .w1c, .val 0, .any⟩]⟩,
  -- DRAM_IER
  ⟨0xc, 1, 0x0, 1, 0x0, [⟨0, 1, .rw, .val 0, .any⟩, ⟨1, 1, .rw, .val 0, .any⟩, ⟨2, 1, .rw, .val 0, .any⟩, ⟨3, 1, .rw, .val 0, .any⟩, ⟨4, 1, .rw, .val 0, .any⟩, ⟨5, 1, .rw, .val 0, .any⟩, ⟨6, 1, .rw, .val 0, .any⟩]⟩,
  -- DRAM_CFG
  ⟨0x10, 1, 0x0, 1, 0x0, [⟨0, 1, .ro, .val 0, .any⟩, ⟨1, 2, .ro, .val 0, .any⟩]⟩,
  -- DRAM_SCHED
  ⟨0x14, 1, 0x0, 1, 0x0, [⟨0, 16, .rwl, .val 20, .ranges [(1, 65535)]⟩]⟩,
  -- DRAM_PANIC
  ⟨0x18, 2, 0x4, 1, 0x0, [⟨0, 7, .rwl, .perIndex [48, 16], .special⟩, ⟨8, 7, .rwl, .val 32, .special⟩]⟩,
  -- DRAM_RH
  ⟨0x20, 1, 0x0, 1, 0x0, [⟨0, 5, .rwl, .val 10, .ranges [(8, 16)]⟩, ⟨8, 1, .rwl, .val 1, .any⟩, ⟨9, 1, .rwl, .val 0, .special⟩]⟩,
  -- DRAM_TRAIN
  ⟨0x24, 1, 0x0, 1, 0x0, [⟨0, 8, .rwl, .val 1, .special⟩, ⟨8, 8, .rwl, .val 128, .special⟩, ⟨16, 8, .rwl, .val 20, .special⟩, ⟨24, 8, .rwl, .val 5, .special⟩]⟩,
  -- DRAM_TDEFER
  ⟨0x28, 1, 0x0, 1, 0x0, [⟨0, 16, .rwl, .val 500, .any⟩]⟩,
  -- DRAM_SCRUB
  ⟨0x2c, 1, 0x0, 1, 0x0, [⟨0, 16, .rwl, .val 24, .ranges [(1, 65535)]⟩, ⟨16, 1, .rwl, .val 1, .any⟩]⟩,
  -- DRAM_CECNT
  ⟨0x30, 1, 0x0, 1, 0x0, [⟨0, 32, .ro, .val 0, .any⟩]⟩,
  -- DRAM_UECNT
  ⟨0x34, 1, 0x0, 1, 0x0, [⟨0, 32, .ro, .val 0, .any⟩]⟩,
  -- DRAM_LASTERR
  ⟨0x38, 1, 0x0, 1, 0x0, [⟨0, 5, .ro, .val 0, .any⟩, ⟨5, 1, .ro, .val 0, .any⟩, ⟨31, 1, .w1c, .val 0, .any⟩]⟩,
  -- DRAM_USABLE
  ⟨0x3c, 1, 0x0, 1, 0x0, [⟨0, 18, .ro, .val 0, .any⟩]⟩,
  -- DRAM_LASTADDR
  ⟨0x40, 1, 0x0, 1, 0x0, [⟨0, 32, .ro, .val 0, .any⟩]⟩,
  -- DRAM_ADJ
  ⟨0x100, 64, 0x4, 1, 0x0, [⟨0, 32, .rwl, .identity, .any⟩]⟩]

/-- The cards of the DMA block (13_dma.md). -/
def cardsDma : List Card := [
  -- DMA_CTRL
  ⟨0x0, 1, 0x0, 1, 0x0, [⟨0, 1, .rw, .val 0, .any⟩, ⟨31, 1, .w1s, .val 0, .any⟩]⟩,
  -- DMA_STATUS
  ⟨0x4, 1, 0x0, 1, 0x0, [⟨0, 2, .ro, .val 0, .any⟩, ⟨8, 1, .w1c, .val 0, .any⟩, ⟨9, 1, .w1c, .val 0, .any⟩, ⟨16, 7, .ro, .val 0, .any⟩]⟩,
  -- DMA_ISR
  ⟨0x8, 1, 0x0, 1, 0x0, [⟨0, 1, .w1c, .val 0, .any⟩, ⟨1, 1, .w1c, .val 0, .any⟩, ⟨2, 1, .w1c, .val 0, .any⟩]⟩,
  -- DMA_IER
  ⟨0xc, 1, 0x0, 1, 0x0, [⟨0, 1, .rw, .val 0, .any⟩, ⟨1, 1, .rw, .val 0, .any⟩, ⟨2, 1, .rw, .val 0, .any⟩]⟩,
  -- DMA_EVT
  ⟨0x10, 2, 0x4, 1, 0x0, [⟨0, 32, .w1c, .val 0, .any⟩]⟩,
  -- DMA_EVTSET
  ⟨0x18, 2, 0x4, 1, 0x0, [⟨0, 32, .wo, .val 0, .any⟩]⟩,
  -- DMA_CQ_BASE
  ⟨0x100, 8, 0x10, 1, 0x0, [⟨0, 28, .rwl, .val 0, .special⟩]⟩,
  -- DMA_CQ_SIZE
  ⟨0x104, 8, 0x10, 1, 0x0, [⟨0, 5, .rwl, .val 6, .special⟩]⟩,
  -- DMA_CQ_HEAD
  ⟨0x108, 8, 0x10, 1, 0x0, [⟨0, 16, .rw, .val 0, .any⟩]⟩,
  -- DMA_CQ_TAIL
  ⟨0x10c, 8, 0x10, 1, 0x0, [⟨0, 16, .ro, .val 0, .any⟩, ⟨16, 1, .ro, .val 1, .any⟩]⟩,
  -- DMA_CH_CTRL
  ⟨0x1000, 64, 0x40, 1, 0x0, [⟨0, 1, .wo, .val 0, .any⟩, ⟨1, 1, .rw, .val 0, .any⟩, ⟨2, 1, .wo, .val 0, .any⟩, ⟨3, 1, .wo, .val 0, .any⟩, ⟨4, 3, .rw, .val 0, .any⟩]⟩,
  -- DMA_CH_STAT
  ⟨0x1004, 64, 0x40, 1, 0x0, [⟨0, 3, .ro, .val 0, .any⟩, ⟨8, 4, .ro, .val 0, .any⟩]⟩,
  -- DMA_CH_OWN
  ⟨0x1008, 64, 0x40, 1, 0x0, [⟨0, 2, .ro, .val 0, .any⟩, ⟨2, 5, .ro, .val 0, .any⟩, ⟨30, 2, .wo, .val 0, .ranges [(0, 2)]⟩]⟩,
  -- DMA_CH_PROGLO
  ⟨0x100c, 64, 0x40, 1, 0x0, [⟨0, 32, .rw, .val 0, .any⟩]⟩,
  -- DMA_CH_PROGHI
  ⟨0x1010, 64, 0x40, 1, 0x0, [⟨0, 16, .rw, .val 0, .any⟩]⟩,
  -- DMA_CH_PCLO
  ⟨0x1014, 64, 0x40, 1, 0x0, [⟨0, 32, .ro, .val 0, .any⟩]⟩,
  -- DMA_CH_PCHI
  ⟨0x1018, 64, 0x40, 1, 0x0, [⟨0, 16, .ro, .val 0, .any⟩]⟩,
  -- DMA_CH_ITER
  ⟨0x101c, 64, 0x40, 1, 0x0, [⟨0, 24, .ro, .val 0, .any⟩]⟩,
  -- DMA_CH_DONE
  ⟨0x1020, 64, 0x40, 1, 0x0, [⟨0, 25, .ro, .val 0, .any⟩]⟩,
  -- DMA_CH_TOTAL
  ⟨0x1024, 64, 0x40, 1, 0x0, [⟨0, 32, .ro, .val 0, .any⟩]⟩,
  -- DMA_CH_ERRALO
  ⟨0x1028, 64, 0x40, 1, 0x0, [⟨0, 32, .ro, .val 0, .any⟩]⟩,
  -- DMA_CH_ERRAHI
  ⟨0x102c, 64, 0x40, 1, 0x0, [⟨0, 16, .ro, .val 0, .any⟩]⟩]

/-- The cards of the DIGEST block (14_digest_cipher_keys.md). -/
def cardsDigest : List Card := [
  -- DIGEST_CTRL
  ⟨0x0, 1, 0x0, 1, 0x0, [⟨0, 1, .rw, .val 0, .any⟩, ⟨31, 1, .w1s, .val 0, .any⟩]⟩,
  -- DIGEST_STATUS
  ⟨0x4, 1, 0x0, 1, 0x0, [⟨0, 2, .ro, .val 0, .any⟩, ⟨8, 1, .w1c, .val 0, .any⟩, ⟨9, 1, .w1c, .val 0, .any⟩, ⟨16, 7, .ro, .val 0, .any⟩]⟩,
  -- DIGEST_ISR
  ⟨0x8, 1, 0x0, 1, 0x0, [⟨0, 1, .w1c, .val 0, .any⟩, ⟨1, 1, .w1c, .val 0, .any⟩, ⟨2, 1, .w1c, .val 0, .any⟩, ⟨3, 1, .w1c, .val 0, .any⟩]⟩,
  -- DIGEST_IER
  ⟨0xc, 1, 0x0, 1, 0x0, [⟨0, 1, .rw, .val 0, .any⟩, ⟨1, 1, .rw, .val 0, .any⟩, ⟨2, 1, .rw, .val 0, .any⟩, ⟨3, 1, .rw, .val 0, .any⟩]⟩,
  -- DIGEST_CTX_CTRL
  ⟨0x1000, 64, 0x80, 1, 0x0, [⟨0, 3, .wo, .val 0, .ranges [(0, 6)]⟩, ⟨4, 3, .rw, .val 0, .ranges [(0, 3)]⟩, ⟨7, 1, .rw, .val 0, .any⟩, ⟨8, 6, .rw, .val 0, .any⟩]⟩,
  -- DIGEST_CTX_STAT
  ⟨0x1004, 64, 0x80, 1, 0x0, [⟨0, 3, .ro, .val 0, .any⟩, ⟨3, 1, .ro, .val 0, .any⟩, ⟨4, 4, .ro, .val 0, .any⟩, ⟨8, 1, .ro, .val 0, .any⟩]⟩,
  -- DIGEST_CTX_OWN
  ⟨0x1008, 64, 0x80, 1, 0x0, [⟨0, 2, .ro, .val 0, .any⟩, ⟨2, 5, .ro, .val 0, .any⟩, ⟨30, 2, .wo, .val 0, .ranges [(0, 2)]⟩]⟩,
  -- DIGEST_CTX_DECLLO
  ⟨0x100c, 64, 0x80, 1, 0x0, [⟨0, 32, .rw, .val 4294967295, .any⟩]⟩,
  -- DIGEST_CTX_DECLHI
  ⟨0x1010, 64, 0x80, 1, 0x0, [⟨0, 32, .rw, .val 4294967295, .any⟩]⟩,
  -- DIGEST_CTX_SRCLO
  ⟨0x1014, 64, 0x80, 1, 0x0, [⟨0, 32, .rw, .val 0, .any⟩]⟩,
  -- DIGEST_CTX_SRCHI
  ⟨0x1018, 64, 0x80, 1, 0x0, [⟨0, 16, .rw, .val 0, .any⟩]⟩,
  -- DIGEST_CTX_LEN
  ⟨0x101c, 64, 0x80, 1, 0x0, [⟨0, 25, .rw, .val 0, .ranges [(1, 16777216)]⟩]⟩,
  -- DIGEST_CTX_REFLO
  ⟨0x1020, 64, 0x80, 1, 0x0, [⟨0, 32, .rw, .val 0, .any⟩]⟩,
  -- DIGEST_CTX_REFHI
  ⟨0x1024, 64, 0x80, 1, 0x0, [⟨0, 16, .rw, .val 0, .any⟩]⟩,
  -- DIGEST_CTX_CMPA
  ⟨0x1028, 64, 0x80, 1, 0x0, [⟨0, 32, .ro, .val 0, .any⟩]⟩,
  -- DIGEST_CTX_CMPB
  ⟨0x102c, 64, 0x80, 1, 0x0, [⟨0, 32, .ro, .val 0, .any⟩]⟩,
  -- DIGEST_CTX_COUNTLO
  ⟨0x1030, 64, 0x80, 1, 0x0, [⟨0, 32, .ro, .val 0, .any⟩]⟩,
  -- DIGEST_CTX_COUNTHI
  ⟨0x1034, 64, 0x80, 1, 0x0, [⟨0, 32, .ro, .val 0, .any⟩]⟩,
  -- DIGEST_CTX_RESULT
  ⟨0x1040, 64, 0x80, 16, 0x4, [⟨0, 32, .ro, .val 0, .any⟩]⟩]

/-- The cards of the VAULT block (14_digest_cipher_keys.md). -/
def cardsVault : List Card := [
  -- VAULT_CTRL
  ⟨0x0, 1, 0x0, 1, 0x0, [⟨0, 1, .rw, .val 0, .any⟩, ⟨31, 1, .w1s, .val 0, .any⟩]⟩,
  -- VAULT_STATUS
  ⟨0x4, 1, 0x0, 1, 0x0, [⟨0, 2, .ro, .val 0, .any⟩, ⟨8, 1, .w1c, .val 0, .any⟩, ⟨9, 1, .w1c, .val 0, .any⟩]⟩,
  -- VAULT_ISR
  ⟨0x8, 1, 0x0, 1, 0x0, [⟨0, 1, .w1c, .val 0, .any⟩, ⟨1, 1, .w1c, .val 0, .any⟩, ⟨2, 1, .w1c, .val 0, .any⟩]⟩,
  -- VAULT_IER
  ⟨0xc, 1, 0x0, 1, 0x0, [⟨0, 1, .rw, .val 0, .any⟩, ⟨1, 1, .rw, .val 0, .any⟩, ⟨2, 1, .rw, .val 0, .any⟩]⟩,
  -- VAULT_LOCK
  ⟨0x10, 1, 0x0, 1, 0x0, [⟨0, 1, .wo, .val 0, .any⟩, ⟨1, 1, .wo, .val 0, .any⟩, ⟨8, 2, .ro, .val 0, .any⟩, ⟨16, 2, .ro, .val 0, .any⟩, ⟨18, 5, .ro, .val 0, .any⟩]⟩,
  -- VAULT_CMD
  ⟨0x14, 1, 0x0, 1, 0x0, [⟨0, 3, .wo, .val 0, .ranges [(0, 5)]⟩, ⟨4, 2, .rw, .val 0, .ranges [(0, 2)]⟩, ⟨6, 1, .rw, .val 0, .any⟩, ⟨8, 10, .rw, .val 0, .ranges [(0, 511)]⟩, ⟨18, 10, .rw, .val 0, .ranges [(0, 513)]⟩]⟩,
  -- VAULT_SRCLO
  ⟨0x18, 1, 0x0, 1, 0x0, [⟨0, 32, .rw, .val 0, .any⟩]⟩,
  -- VAULT_SRCHI
  ⟨0x1c, 1, 0x0, 1, 0x0, [⟨0, 16, .rw, .val 0, .any⟩]⟩,
  -- VAULT_DSTLO
  ⟨0x20, 1, 0x0, 1, 0x0, [⟨0, 32, .rw, .val 0, .any⟩]⟩,
  -- VAULT_DSTHI
  ⟨0x24, 1, 0x0, 1, 0x0, [⟨0, 16, .rw, .val 0, .any⟩]⟩,
  -- VAULT_LEN
  ⟨0x28, 1, 0x0, 1, 0x0, [⟨0, 17, .rw, .val 0, .ranges [(1, 65536)]⟩]⟩,
  -- VAULT_RES
  ⟨0x2c, 1, 0x0, 1, 0x0, [⟨0, 4, .ro, .val 0, .any⟩, ⟨4, 1, .ro, .val 0, .any⟩, ⟨5, 1, .ro, .val 0, .any⟩]⟩,
  -- VAULT_IV
  ⟨0x30, 4, 0x4, 1, 0x0, [⟨0, 32, .rw, .val 0, .any⟩]⟩,
  -- VAULT_MSGCNT
  ⟨0x40, 1, 0x0, 1, 0x0, [⟨0, 32, .ro, .val 0, .any⟩]⟩]

/-- The cards of the NAND block (10_media_and_translation.md). -/
def cardsNand : List Card := [
  -- NAND_CTRL
  ⟨0x0, 1, 0x0, 1, 0x0, [⟨0, 1, .rw, .val 0, .any⟩, ⟨31, 1, .w1s, .val 0, .any⟩]⟩,
  -- NAND_STATUS
  ⟨0x4, 1, 0x0, 1, 0x0, [⟨0, 2, .ro, .val 0, .any⟩, ⟨8, 1, .w1c, .val 0, .any⟩, ⟨9, 1, .w1c, .val 0, .any⟩, ⟨16, 8, .ro, .val 0, .any⟩, ⟨24, 2, .ro, .val 0, .any⟩, ⟨26, 3, .ro, .val 0, .any⟩]⟩]

/-- The cards of the KEYS block (14_digest_cipher_keys.md). -/
def cardsKeys : List Card := [
  -- KEYS_CTRL
  ⟨0x0, 1, 0x0, 1, 0x0, [⟨0, 1, .rw, .val 0, .any⟩, ⟨31, 1, .w1s, .val 0, .any⟩]⟩,
  -- KEYS_STATUS
  ⟨0x4, 1, 0x0, 1, 0x0, [⟨0, 2, .ro, .val 0, .any⟩, ⟨8, 1, .w1c, .val 0, .any⟩, ⟨9, 1, .w1c, .val 0, .any⟩, ⟨16, 1, .ro, .val 0, .any⟩, ⟨17, 1, .ro, .val 0, .any⟩, ⟨18, 2, .ro, .val 0, .any⟩]⟩,
  -- KEYS_ISR
  ⟨0x8, 1, 0x0, 1, 0x0, [⟨0, 1, .w1c, .val 0, .any⟩, ⟨1, 1, .w1c, .val 0, .any⟩, ⟨2, 1, .w1c, .val 0, .any⟩]⟩,
  -- KEYS_IER
  ⟨0xc, 1, 0x0, 1, 0x0, [⟨0, 1, .rw, .val 0, .any⟩, ⟨1, 1, .rw, .val 0, .any⟩, ⟨2, 1, .rw, .val 0, .any⟩]⟩,
  -- KEYS_CMD
  ⟨0x10, 1, 0x0, 1, 0x0, [⟨0, 9, .rw, .val 0, .any⟩, ⟨10, 2, .wo, .val 0, .ranges [(0, 2)]⟩, ⟨16, 8, .rw, .val 0, .any⟩, ⟨24, 4, .rw, .val 0, .any⟩]⟩,
  -- KEYS_RES
  ⟨0x14, 1, 0x0, 1, 0x0, [⟨0, 4, .ro, .val 0, .any⟩]⟩,
  -- KEYS_RNG
  ⟨0x18, 1, 0x0, 1, 0x0, [⟨0, 32, .ro, .val 0, .any⟩]⟩,
  -- KEYS_LCREQ
  ⟨0x1c, 1, 0x0, 1, 0x0, [⟨0, 2, .wo, .val 0, .any⟩, ⟨16, 16, .wo, .val 0, .any⟩]⟩,
  -- KEYS_SLOT_ATTR
  ⟨0x1000, 512, 0x4, 1, 0x0, [⟨0, 1, .ro, .val 0, .any⟩, ⟨8, 8, .ro, .val 0, .any⟩, ⟨16, 4, .ro, .val 0, .any⟩]⟩]

/-- The cards of the FAB block (11_damdom_fabric.md). -/
def cardsFab : List Card := [
  -- FAB_CTRL
  ⟨0x0, 1, 0x0, 1, 0x0, [⟨0, 1, .rw, .val 0, .any⟩, ⟨31, 1, .w1s, .val 0, .any⟩]⟩,
  -- FAB_STATUS
  ⟨0x4, 1, 0x0, 1, 0x0, [⟨0, 2, .ro, .val 0, .any⟩, ⟨8, 1, .w1c, .val 0, .any⟩, ⟨9, 1, .w1c, .val 0, .any⟩, ⟨16, 1, .ro, .val 0, .any⟩, ⟨17, 1, .ro, .val 0, .any⟩, ⟨18, 1, .ro, .val 0, .any⟩, ⟨19, 1, .ro, .val 0, .any⟩, ⟨20, 1, .ro, .val 1, .any⟩, ⟨21, 1, .ro, .val 0, .any⟩, ⟨22, 1, .ro, .val 0, .any⟩, ⟨23, 1, .ro, .val 0, .any⟩]⟩,
  -- FAB_ISR
  ⟨0x8, 1, 0x0, 1, 0x0, [⟨0, 1, .w1c, .val 0, .any⟩, ⟨1, 1, .w1c, .val 0, .any⟩, ⟨2, 1, .w1c, .val 0, .any⟩, ⟨3, 1, .w1c, .val 0, .any⟩, ⟨4, 1, .w1c, .val 0, .any⟩, ⟨5, 1, .w1c, .val 0, .any⟩, ⟨6, 1, .w1c, .val 0, .any⟩, ⟨7, 1, .w1c, .val 0, .any⟩, ⟨8, 1, .w1c, .val 0, .any⟩]⟩,
  -- FAB_IER
  ⟨0xc, 1, 0x0, 1, 0x0, [⟨0, 1, .rw, .val 0, .any⟩, ⟨1, 1, .rw, .val 0, .any⟩, ⟨2, 1, .rw, .val 0, .any⟩, ⟨3, 1, .rw, .val 0, .any⟩, ⟨4, 1, .rw, .val 0, .any⟩, ⟨5, 1, .rw, .val 0, .any⟩, ⟨6, 1, .rw, .val 0, .any⟩, ⟨7, 1, .rw, .val 0, .any⟩, ⟨8, 1, .rw, .val 0, .any⟩]⟩,
  -- FAB_UIDLO
  ⟨0x10, 1, 0x0, 1, 0x0, [⟨0, 32, .ro, .val 0, .any⟩]⟩,
  -- FAB_UIDHI
  ⟨0x14, 1, 0x0, 1, 0x0, [⟨0, 32, .ro, .val 0, .any⟩]⟩,
  -- FAB_ADDR
  ⟨0x18, 1, 0x0, 1, 0x0, [⟨0, 16, .ro, .val 65535, .any⟩]⟩,
  -- FAB_TIMELO
  ⟨0x20, 1, 0x0, 1, 0x0, [⟨0, 32, .ro, .val 0, .any⟩]⟩,
  -- FAB_TIMEHI
  ⟨0x24, 1, 0x0, 1, 0x0, [⟨0, 32, .ro, .val 0, .any⟩]⟩,
  -- FAB_TIMESETLO
  ⟨0x28, 1, 0x0, 1, 0x0, [⟨0, 32, .rw, .val 0, .any⟩]⟩,
  -- FAB_TIMESETHI
  ⟨0x2c, 1, 0x0, 1, 0x0, [⟨0, 32, .rw, .val 0, .any⟩]⟩,
  -- FAB_TOFF
  ⟨0x30, 1, 0x0, 1, 0x0, [⟨0, 32, .ro, .val 0, .any⟩]⟩,
  -- FAB_TSTAT
  ⟨0x34, 1, 0x0, 1, 0x0, [⟨0, 6, .ro, .val 0, .any⟩, ⟨6, 1, .ro, .val 1, .any⟩, ⟨8, 2, .ro, .val 0, .any⟩, ⟨16, 16, .ro, .val 0, .any⟩]⟩,
  -- FAB_HWTAG
  ⟨0x40, 1, 0x0, 1, 0x0, [⟨0, 6, .rw, .val 0, .any⟩, ⟨8, 20, .rw, .val 0, .any⟩, ⟨28, 2, .ro, .val 0, .any⟩, ⟨30, 1, .ro, .val 0, .any⟩, ⟨31, 1, .wo, .val 0, .any⟩]⟩,
  -- FAB_HWNEW
  ⟨0x44, 1, 0x0, 1, 0x0, [⟨0, 32, .rw, .val 0, .any⟩]⟩,
  -- FAB_HWDROP
  ⟨0x48, 1, 0x0, 1, 0x0, [⟨0, 32, .ro, .val 0, .any⟩]⟩,
  -- FAB_ADDRERR
  ⟨0x4c, 1, 0x0, 1, 0x0, [⟨0, 32, .ro, .val 0, .any⟩]⟩,
  -- FAB_NOROUTE
  ⟨0x50, 1, 0x0, 1, 0x0, [⟨0, 32, .ro, .val 0, .any⟩]⟩,
  -- FAB_TTLERR
  ⟨0x54, 1, 0x0, 1, 0x0, [⟨0, 32, .ro, .val 0, .any⟩]⟩,
  -- FAB_HW_BASE
  ⟨0x100, 64, 0x10, 1, 0x0, [⟨0, 32, .ro, .val 0, .any⟩]⟩,
  -- FAB_HW_SLOTS
  ⟨0x104, 64, 0x10, 1, 0x0, [⟨0, 21, .ro, .val 0, .any⟩]⟩,
  -- FAB_HW_TAGBASE
  ⟨0x108, 64, 0x10, 1, 0x0, [⟨0, 32, .ro, .val 0, .any⟩]⟩,
  -- FAB_HW_FLAGS
  ⟨0x10c, 64, 0x10, 1, 0x0, [⟨0, 1, .ro, .val 0, .any⟩, ⟨1, 1, .ro, .val 0, .any⟩]⟩,
  -- FAB_ROUTE
  ⟨0x1000, 4096, 0x4, 1, 0x0, [⟨0, 2, .ro, .val 0, .any⟩, ⟨2, 1, .ro, .val 0, .any⟩]⟩]

/-- The cards of the CSTORE block (15_code_store.md). -/
def cardsCstore : List Card := [
  -- CSTORE_CTRL
  ⟨0x0, 1, 0x0, 1, 0x0, [⟨0, 1, .rw, .val 0, .any⟩, ⟨31, 1, .w1s, .val 0, .any⟩]⟩,
  -- CSTORE_STATUS
  ⟨0x4, 1, 0x0, 1, 0x0, [⟨0, 2, .ro, .val 0, .any⟩, ⟨8, 1, .w1c, .val 0, .any⟩, ⟨9, 1, .w1c, .val 0, .any⟩, ⟨16, 1, .ro, .val 0, .any⟩, ⟨17, 2, .ro, .val 0, .any⟩, ⟨19, 4, .ro, .val 0, .any⟩, ⟨24, 8, .ro, .val 0, .any⟩]⟩,
  -- CSTORE_ISR
  ⟨0x8, 1, 0x0, 1, 0x0, [⟨0, 1, .w1c, .val 0, .any⟩, ⟨1, 1, .w1c, .val 0, .any⟩, ⟨2, 1, .w1c, .val 0, .any⟩, ⟨3, 1, .w1c, .val 0, .any⟩]⟩,
  -- CSTORE_IER
  ⟨0xc, 1, 0x0, 1, 0x0, [⟨0, 1, .rw, .val 0, .any⟩, ⟨1, 1, .rw, .val 0, .any⟩, ⟨2, 1, .rw, .val 0, .any⟩, ⟨3, 1, .rw, .val 0, .any⟩]⟩,
  -- CSTORE_CMD
  ⟨0x10, 1, 0x0, 1, 0x0, [⟨0, 3, .rw, .val 0, .ranges [(0, 3)]⟩, ⟨31, 1, .wo, .val 0, .any⟩]⟩,
  -- CSTORE_ADDR
  ⟨0x14, 1, 0x0, 1, 0x0, [⟨0, 26, .rw, .val 0, .any⟩]⟩,
  -- CSTORE_SRC
  ⟨0x18, 1, 0x0, 1, 0x0, [⟨0, 22, .rw, .val 0, .any⟩]⟩,
  -- CSTORE_RES
  ⟨0x1c, 1, 0x0, 1, 0x0, [⟨0, 2, .ro, .val 0, .any⟩, ⟨2, 10, .ro, .val 0, .any⟩, ⟨31, 1, .w1c, .val 0, .any⟩]⟩,
  -- CSTORE_XO
  ⟨0x20, 8, 0x4, 1, 0x0, [⟨0, 10, .rwl, .val 0, .special⟩, ⟨10, 11, .rwl, .val 0, .special⟩, ⟨31, 1, .rwl, .val 0, .any⟩]⟩,
  -- CSTORE_XOVIOL
  ⟨0x40, 1, 0x0, 1, 0x0, [⟨0, 26, .ro, .val 0, .any⟩, ⟨26, 3, .ro, .val 0, .any⟩, ⟨31, 1, .w1c, .val 0, .any⟩]⟩,
  -- CSTORE_XOVCNT
  ⟨0x44, 1, 0x0, 1, 0x0, [⟨0, 32, .ro, .val 0, .any⟩]⟩,
  -- CSTORE_BOOTINFO
  ⟨0x48, 1, 0x0, 1, 0x0, [⟨0, 1, .ro, .val 0, .any⟩, ⟨1, 1, .ro, .val 0, .any⟩, ⟨8, 8, .ro, .val 0, .any⟩]⟩,
  -- CSTORE_BOOTGEN
  ⟨0x4c, 1, 0x0, 1, 0x0, [⟨0, 32, .ro, .val 0, .any⟩]⟩,
  -- CSTORE_BADCNT
  ⟨0x50, 1, 0x0, 1, 0x0, [⟨0, 8, .ro, .val 0, .any⟩, ⟨8, 8, .ro, .val 0, .any⟩]⟩,
  -- CSTORE_REMAP
  ⟨0x1000, 1024, 0x4, 1, 0x0, [⟨0, 10, .ro, .index, .any⟩, ⟨30, 1, .ro, .val 0, .any⟩, ⟨31, 1, .ro, .val 0, .any⟩]⟩]

/-- The cards of the HOLD block (16_hold_up_and_thermal.md). -/
def cardsHold : List Card := [
  -- HOLD_CTRL
  ⟨0x0, 1, 0x0, 1, 0x0, [⟨0, 1, .rw, .val 0, .any⟩, ⟨31, 1, .w1s, .val 0, .any⟩]⟩,
  -- HOLD_STATUS
  ⟨0x4, 1, 0x0, 1, 0x0, [⟨0, 2, .ro, .val 0, .any⟩, ⟨8, 1, .w1c, .val 0, .any⟩, ⟨9, 1, .w1c, .val 0, .any⟩, ⟨16, 1, .ro, .val 0, .any⟩, ⟨17, 3, .ro, .val 6, .any⟩, ⟨20, 1, .ro, .val 0, .any⟩, ⟨21, 1, .w1c, .val 0, .any⟩, ⟨22, 4, .ro, .val 0, .any⟩]⟩,
  -- HOLD_ISR
  ⟨0x8, 1, 0x0, 1, 0x0, [⟨0, 1, .w1c, .val 0, .any⟩, ⟨1, 1, .w1c, .val 0, .any⟩, ⟨2, 1, .w1c, .val 0, .any⟩, ⟨3, 1, .w1c, .val 0, .any⟩]⟩,
  -- HOLD_IER
  ⟨0xc, 1, 0x0, 1, 0x0, [⟨0, 1, .rw, .val 0, .any⟩, ⟨1, 1, .rw, .val 0, .any⟩, ⟨2, 1, .rw, .val 0, .any⟩, ⟨3, 1, .rw, .val 0, .any⟩]⟩,
  -- HOLD_WIN
  ⟨0x10, 1, 0x0, 1, 0x0, [⟨0, 32, .ro, .val 0, .any⟩]⟩,
  -- HOLD_EXPO
  ⟨0x14, 1, 0x0, 1, 0x0, [⟨0, 32, .ro, .val 0, .any⟩]⟩,
  -- HOLD_CAP
  ⟨0x18, 1, 0x0, 1, 0x0, [⟨0, 16, .rwl, .val 2048, .ranges [(1, 65535)]⟩]⟩,
  -- HOLD_LOST
  ⟨0x1c, 1, 0x0, 1, 0x0, [⟨0, 32, .ro, .val 0, .any⟩]⟩,
  -- HOLD_RAIL
  ⟨0x20, 1, 0x0, 1, 0x0, [⟨0, 16, .ro, .val 0, .any⟩, ⟨16, 8, .ro, .val 0, .any⟩]⟩,
  -- HOLD_STR_MV
  ⟨0x40, 4, 0x8, 1, 0x0, [⟨0, 16, .ro, .val 0, .any⟩, ⟨16, 1, .ro, .val 0, .any⟩, ⟨17, 1, .ro, .val 0, .any⟩]⟩,
  -- HOLD_STR_MEAS
  ⟨0x44, 4, 0x8, 1, 0x0, [⟨0, 16, .ro, .val 0, .any⟩, ⟨16, 16, .ro, .val 0, .any⟩]⟩,
  -- HOLD_PROF
  ⟨0x100, 32, 0x4, 1, 0x0, [⟨0, 32, .rwl, .val 0, .any⟩]⟩,
  -- HOLD_SAVE
  ⟨0x180, 1, 0x0, 1, 0x0, [⟨0, 1, .wo, .val 0, .any⟩, ⟨1, 1, .ro, .val 0, .any⟩]⟩]

/-- The cards of the THERM block (16_hold_up_and_thermal.md). -/
def cardsTherm : List Card := [
  -- THERM_CTRL
  ⟨0x0, 1, 0x0, 1, 0x0, [⟨0, 1, .rw, .val 0, .any⟩, ⟨31, 1, .w1s, .val 0, .any⟩]⟩,
  -- THERM_STATUS
  ⟨0x4, 1, 0x0, 1, 0x0, [⟨0, 2, .ro, .val 0, .any⟩, ⟨8, 1, .w1c, .val 0, .any⟩, ⟨9, 1, .w1c, .val 0, .any⟩, ⟨16, 1, .ro, .val 1, .any⟩, ⟨17, 1, .w1c, .val 0, .any⟩, ⟨18, 8, .ro, .val 0, .any⟩]⟩,
  -- THERM_ISR
  ⟨0x8, 1, 0x0, 1, 0x0, [⟨0, 1, .w1c, .val 0, .any⟩, ⟨1, 1, .w1c, .val 0, .any⟩, ⟨2, 1, .w1c, .val 0, .any⟩]⟩,
  -- THERM_IER
  ⟨0xc, 1, 0x0, 1, 0x0, [⟨0, 1, .rw, .val 0, .any⟩, ⟨1, 1, .rw, .val 0, .any⟩, ⟨2, 1, .rw, .val 0, .any⟩]⟩,
  -- THERM_CH_CFG
  ⟨0x20, 8, 0x8, 1, 0x0, [⟨0, 2, .rwl, .val 0, .ranges [(0, 2)]⟩, ⟨2, 2, .rwl, .val 0, .any⟩, ⟨4, 7, .rwl, .val 0, .any⟩, ⟨16, 16, .ro, .val 0, .any⟩]⟩,
  -- THERM_CH_MASK
  ⟨0x24, 8, 0x8, 1, 0x0, [⟨0, 32, .rwl, .val 0, .any⟩]⟩,
  -- THERM_OUT_CFG
  ⟨0x60, 4, 0x8, 1, 0x0, [⟨0, 1, .rwl, .val 0, .any⟩, ⟨8, 8, .rwl, .val 0, .any⟩, ⟨16, 16, .rwl, .val 0, .any⟩]⟩,
  -- THERM_OUT_STAT
  ⟨0x64, 4, 0x8, 1, 0x0, [⟨0, 8, .ro, .val 255, .any⟩, ⟨16, 16, .ro, .val 0, .any⟩]⟩,
  -- THERM_CURVE
  ⟨0x100, 4, 0x20, 8, 0x4, [⟨0, 8, .rwl, .val 0, .special⟩, ⟨8, 8, .rwl, .val 255, .special⟩, ⟨16, 1, .rwl, .val 0, .special⟩]⟩,
  -- THERM_WCFG
  ⟨0x180, 1, 0x0, 1, 0x0, [⟨0, 4, .rwl, .val 3, .any⟩, ⟨8, 7, .rwl, .val 100, .ranges [(1, 100)]⟩]⟩,
  -- THERM_TRIP
  ⟨0x184, 1, 0x0, 1, 0x0, [⟨0, 8, .rwl, .val 110, .ranges [(95, 125)]⟩]⟩,
  -- THERM_SAVE
  ⟨0x188, 1, 0x0, 1, 0x0, [⟨0, 1, .wo, .val 0, .any⟩, ⟨1, 1, .ro, .val 0, .any⟩]⟩]

/-- The cards of the WDT block (15_code_store.md). -/
def cardsWdt : List Card := [
  -- WDT_CTRL
  ⟨0x0, 1, 0x0, 1, 0x0, [⟨0, 1, .rwl, .val 0, .any⟩, ⟨31, 1, .w1s, .val 0, .any⟩]⟩,
  -- WDT_STATUS
  ⟨0x4, 1, 0x0, 1, 0x0, [⟨0, 2, .ro, .val 0, .any⟩, ⟨8, 1, .w1c, .val 0, .any⟩, ⟨9, 1, .w1c, .val 0, .any⟩, ⟨16, 1, .w1c, .val 0, .any⟩, ⟨17, 1, .ro, .val 0, .any⟩, ⟨24, 4, .ro, .val 0, .any⟩]⟩,
  -- WDT_ISR
  ⟨0x8, 1, 0x0, 1, 0x0, [⟨0, 1, .w1c, .val 0, .any⟩]⟩,
  -- WDT_IER
  ⟨0xc, 1, 0x0, 1, 0x0, [⟨0, 1, .rw, .val 0, .any⟩]⟩,
  -- WDT_TIMEOUT
  ⟨0x10, 1, 0x0, 1, 0x0, [⟨0, 16, .rwl, .val 2000, .special⟩]⟩,
  -- WDT_WARN
  ⟨0x14, 1, 0x0, 1, 0x0, [⟨0, 16, .rwl, .val 100, .special⟩]⟩,
  -- WDT_COUNT
  ⟨0x18, 1, 0x0, 1, 0x0, [⟨0, 32, .ro, .val 0, .any⟩]⟩,
  -- WDT_KICK
  ⟨0x1c, 1, 0x0, 1, 0x0, [⟨0, 16, .wo, .val 0, .ranges [(27421, 27421)]⟩]⟩,
  -- WDT_BOOTOK
  ⟨0x20, 1, 0x0, 1, 0x0, [⟨0, 1, .wo, .val 0, .any⟩]⟩]

/-- The cards of the GPIO block (16_hold_up_and_thermal.md). -/
def cardsGpio : List Card := [
  -- GPIO_CTRL
  ⟨0x0, 1, 0x0, 1, 0x0, [⟨31, 1, .w1s, .val 0, .any⟩]⟩,
  -- GPIO_STATUS
  ⟨0x4, 1, 0x0, 1, 0x0, [⟨8, 1, .w1c, .val 0, .any⟩, ⟨9, 1, .w1c, .val 0, .any⟩]⟩,
  -- GPIO_ISR
  ⟨0x8, 1, 0x0, 1, 0x0, [⟨0, 16, .w1c, .val 0, .any⟩]⟩,
  -- GPIO_IER
  ⟨0xc, 1, 0x0, 1, 0x0, [⟨0, 16, .rw, .val 0, .any⟩]⟩,
  -- GPIO_IN
  ⟨0x10, 1, 0x0, 1, 0x0, [⟨0, 16, .ro, .val 0, .any⟩]⟩,
  -- GPIO_OUT
  ⟨0x14, 1, 0x0, 1, 0x0, [⟨0, 16, .rw, .val 0, .any⟩]⟩,
  -- GPIO_PIN
  ⟨0x40, 16, 0x4, 1, 0x0, [⟨0, 1, .rw, .val 0, .any⟩, ⟨1, 2, .rw, .val 0, .any⟩, ⟨3, 3, .ro, .val 0, .any⟩, ⟨6, 4, .ro, .val 0, .any⟩, ⟨30, 2, .wo, .val 0, .ranges [(0, 2)]⟩]⟩]

/-- The cards of the TILE block (05_tiles_caches_ecc.md). -/
def cardsTile : List Card := [
  -- TILE_CTRL
  ⟨0x0, 1, 0x0, 1, 0x0, [⟨0, 1, .rw, .val 0, .any⟩, ⟨1, 1, .wo, .val 0, .any⟩, ⟨31, 1, .w1s, .val 0, .any⟩]⟩,
  -- TILE_STATUS
  ⟨0x4, 1, 0x0, 1, 0x0, [⟨0, 2, .ro, .val 0, .any⟩, ⟨8, 1, .w1c, .val 0, .any⟩, ⟨9, 1, .w1c, .val 0, .any⟩, ⟨16, 1, .ro, .val 0, .any⟩, ⟨17, 1, .ro, .val 0, .any⟩]⟩,
  -- TILE_ISR
  ⟨0x8, 1, 0x0, 1, 0x0, [⟨0, 1, .w1c, .val 0, .any⟩, ⟨1, 1, .w1c, .val 0, .any⟩, ⟨2, 1, .w1c, .val 0, .any⟩, ⟨3, 1, .w1c, .val 0, .any⟩]⟩,
  -- TILE_IER
  ⟨0xc, 1, 0x0, 1, 0x0, [⟨0, 1, .rw, .val 0, .any⟩, ⟨1, 1, .rw, .val 0, .any⟩, ⟨2, 1, .rw, .val 0, .any⟩, ⟨3, 1, .rw, .val 0, .any⟩]⟩,
  -- TILE_APB
  ⟨0x10, 1, 0x0, 1, 0x0, [⟨0, 8, .rwl, .val 0, .ranges [(0, 191)]⟩]⟩,
  -- TILE_CCTRL
  ⟨0x14, 1, 0x0, 1, 0x0, [⟨0, 1, .rw, .val 0, .any⟩, ⟨1, 1, .rw, .val 0, .any⟩, ⟨4, 1, .wo, .val 0, .any⟩, ⟨5, 1, .wo, .val 0, .any⟩, ⟨6, 1, .wo, .val 0, .any⟩, ⟨8, 1, .ro, .val 0, .any⟩, ⟨9, 1, .ro, .val 0, .any⟩, ⟨12, 1, .ro, .val 0, .any⟩, ⟨16, 1, .w1c, .val 0, .any⟩]⟩,
  -- TILE_CIRQ
  ⟨0x18, 1, 0x0, 1, 0x0, [⟨0, 1, .w1c, .val 0, .any⟩, ⟨1, 1, .w1c, .val 0, .any⟩, ⟨2, 1, .w1c, .val 0, .any⟩, ⟨3, 1, .w1c, .val 0, .any⟩, ⟨4, 1, .w1c, .val 0, .any⟩]⟩,
  -- TILE_CIEN
  ⟨0x1c, 1, 0x0, 1, 0x0, [⟨0, 1, .rw, .val 0, .any⟩, ⟨1, 1, .rw, .val 0, .any⟩, ⟨2, 1, .rw, .val 0, .any⟩, ⟨3, 1, .rw, .val 0, .any⟩, ⟨4, 1, .rw, .val 0, .any⟩]⟩,
  -- TILE_DOORBELL
  ⟨0x20, 1, 0x0, 1, 0x0, [⟨0, 32, .rw, .val 0, .any⟩]⟩,
  -- TILE_JOB
  ⟨0x24, 1, 0x0, 1, 0x0, [⟨0, 18, .ro, .val 0, .any⟩, ⟨30, 1, .ro, .val 0, .any⟩, ⟨31, 1, .ro, .val 0, .any⟩]⟩,
  -- TILE_MCMD
  ⟨0x40, 1, 0x0, 1, 0x0, [⟨0, 3, .wo, .val 0, .ranges [(0, 3)]⟩, ⟨8, 3, .rw, .val 0, .any⟩, ⟨16, 10, .rw, .val 0, .any⟩]⟩,
  -- TILE_MSTAT
  ⟨0x44, 1, 0x0, 1, 0x0, [⟨0, 2, .ro, .val 0, .any⟩, ⟨8, 4, .ro, .val 0, .any⟩, ⟨16, 10, .ro, .val 0, .any⟩]⟩,
  -- TILE_MSET
  ⟨0x48, 1, 0x0, 1, 0x0, [⟨0, 20, .ro, .val 0, .any⟩, ⟨20, 4, .ro, .val 0, .any⟩, ⟨24, 8, .ro, .val 0, .any⟩]⟩,
  -- TILE_MEXEC
  ⟨0x4c, 1, 0x0, 1, 0x0, [⟨0, 32, .ro, .val 0, .any⟩]⟩,
  -- TILE_MACC
  ⟨0x50, 1, 0x0, 1, 0x0, [⟨0, 32, .rw, .val 0, .any⟩]⟩,
  -- TILE_MSWF
  ⟨0x54, 1, 0x0, 1, 0x0, [⟨0, 1, .rw, .val 0, .any⟩]⟩,
  -- TILE_MIS_ALO
  ⟨0x80, 4, 0x10, 1, 0x0, [⟨0, 32, .rw, .val 0, .special⟩]⟩,
  -- TILE_MIS_AHI
  ⟨0x84, 4, 0x10, 1, 0x0, [⟨0, 16, .rw, .val 0, .any⟩, ⟨16, 1, .rw, .val 0, .any⟩, ⟨17, 1, .ro, .val 0, .any⟩]⟩,
  -- TILE_MIS_LEN
  ⟨0x88, 4, 0x10, 1, 0x0, [⟨0, 32, .rw, .val 0, .mult 64⟩]⟩,
  -- TILE_MIS_POS0
  ⟨0x8c, 4, 0x10, 1, 0x0, [⟨0, 32, .rw, .val 0, .any⟩]⟩,
  -- TILE_MOS_ADDR
  ⟨0xc0, 2, 0x10, 1, 0x0, [⟨0, 20, .rw, .val 0, .any⟩]⟩,
  -- TILE_MOS_LIMIT
  ⟨0xc4, 2, 0x10, 1, 0x0, [⟨0, 21, .rw, .val 0, .ranges [(0, 1048576)]⟩]⟩,
  -- TILE_MOS_DEST
  ⟨0xc8, 2, 0x10, 1, 0x0, [⟨0, 2, .rw, .val 0, .ranges [(0, 2)]⟩]⟩,
  -- TILE_MOS_USED
  ⟨0xcc, 2, 0x10, 1, 0x0, [⟨0, 21, .ro, .val 0, .any⟩]⟩,
  -- TILE_CDCMD
  ⟨0x100, 1, 0x0, 1, 0x0, [⟨0, 2, .wo, .val 0, .ranges [(0, 1)]⟩]⟩,
  -- TILE_CDSTAT
  ⟨0x104, 1, 0x0, 1, 0x0, [⟨0, 13, .ro, .val 0, .any⟩, ⟨16, 8, .ro, .val 0, .any⟩, ⟨24, 1, .ro, .val 0, .any⟩, ⟨25, 1, .ro, .val 0, .any⟩, ⟨26, 1, .ro, .val 0, .any⟩]⟩,
  -- TILE_CDPROF
  ⟨0x108, 1, 0x0, 1, 0x0, [⟨0, 8, .rw, .val 0, .any⟩]⟩,
  -- TILE_CDBLK
  ⟨0x10c, 1, 0x0, 1, 0x0, [⟨0, 16, .ro, .val 0, .any⟩, ⟨16, 16, .ro, .val 0, .any⟩]⟩,
  -- TILE_CDOUT
  ⟨0x110, 1, 0x0, 1, 0x0, [⟨0, 32, .ro, .val 0, .any⟩]⟩,
  -- TILE_DJOB
  ⟨0x114, 1, 0x0, 1, 0x0, [⟨0, 20, .rw, .val 0, .mult 32⟩, ⟨31, 1, .wo, .val 0, .any⟩]⟩,
  -- TILE_DRES
  ⟨0x118, 1, 0x0, 1, 0x0, [⟨0, 4, .ro, .val 0, .any⟩, ⟨4, 1, .ro, .val 0, .any⟩, ⟨16, 16, .ro, .val 0, .any⟩]⟩,
  -- TILE_DOUT
  ⟨0x11c, 1, 0x0, 1, 0x0, [⟨0, 32, .ro, .val 0, .any⟩]⟩,
  -- TILE_KQ
  ⟨0x120, 1, 0x0, 1, 0x0, [⟨0, 13, .ro, .val 0, .any⟩, ⟨16, 12, .rw, .val 2048, .any⟩]⟩,
  -- TILE_KQKEYS
  ⟨0x124, 1, 0x0, 1, 0x0, [⟨0, 32, .ro, .val 0, .any⟩]⟩,
  -- TILE_KQENT
  ⟨0x128, 1, 0x0, 1, 0x0, [⟨0, 32, .ro, .val 0, .any⟩]⟩,
  -- TILE_DMA
  ⟨0x140, 1, 0x0, 1, 0x0, [⟨0, 6, .rw, .val 0, .ranges [(0, 55)]⟩, ⟨8, 1, .ro, .val 0, .any⟩, ⟨24, 2, .wo, .val 0, .ranges [(0, 2)]⟩, ⟨26, 1, .wo, .val 0, .any⟩, ⟨27, 1, .rw, .val 0, .any⟩, ⟨28, 1, .wo, .val 0, .any⟩]⟩,
  -- TILE_DMAPROG
  ⟨0x144, 1, 0x0, 1, 0x0, [⟨0, 20, .rw, .val 0, .mult 32⟩]⟩,
  -- TILE_DMAREC
  ⟨0x148, 1, 0x0, 1, 0x0, [⟨0, 20, .rw, .val 0, .mult 16⟩]⟩,
  -- TILE_DMASTAT
  ⟨0x14c, 1, 0x0, 1, 0x0, [⟨0, 3, .ro, .val 0, .any⟩, ⟨8, 4, .ro, .val 0, .any⟩]⟩,
  -- TILE_DGSEL
  ⟨0x160, 1, 0x0, 1, 0x0, [⟨0, 6, .rw, .val 0, .any⟩]⟩]

/-- The cards of the DCH block (12_dram_controller.md). -/
def cardsDch : List Card := [
  -- DCH_CTRL
  ⟨0x0, 1, 0x0, 1, 0x0, [⟨31, 1, .w1s, .val 0, .any⟩]⟩,
  -- DCH_STATUS
  ⟨0x4, 1, 0x0, 1, 0x0, [⟨8, 1, .w1c, .val 0, .any⟩, ⟨9, 1, .w1c, .val 0, .any⟩, ⟨16, 1, .ro, .val 0, .any⟩, ⟨17, 1, .ro, .val 0, .any⟩, ⟨18, 4, .ro, .val 0, .any⟩, ⟨22, 1, .ro, .val 0, .any⟩]⟩,
  -- DCH_PASR
  ⟨0x10, 1, 0x0, 1, 0x0, [⟨0, 8, .rwl, .val 0, .special⟩]⟩,
  -- DCH_TRAIN
  ⟨0x14, 1, 0x0, 1, 0x0, [⟨0, 8, .ro, .val 0, .any⟩, ⟨8, 8, .ro, .val 0, .any⟩, ⟨16, 16, .ro, .val 0, .any⟩]⟩,
  -- DCH_TEMP
  ⟨0x18, 1, 0x0, 1, 0x0, [⟨0, 5, .ro, .val 0, .any⟩]⟩,
  -- DCH_NRCNT
  ⟨0x1c, 1, 0x0, 1, 0x0, [⟨0, 32, .ro, .val 0, .any⟩]⟩]

/-- The cards of the DPORT block (11_damdom_fabric.md). -/
def cardsDport : List Card := [
  -- DPORT_CTRL
  ⟨0x0, 1, 0x0, 1, 0x0, [⟨0, 1, .rw, .val 0, .any⟩, ⟨1, 3, .rwl, .val 7, .ranges [(1, 7)]⟩, ⟨31, 1, .w1s, .val 0, .any⟩]⟩,
  -- DPORT_STATUS
  ⟨0x4, 1, 0x0, 1, 0x0, [⟨0, 2, .ro, .val 0, .any⟩, ⟨8, 1, .w1c, .val 0, .any⟩, ⟨9, 1, .w1c, .val 0, .any⟩, ⟨16, 3, .ro, .val 0, .any⟩, ⟨19, 2, .ro, .val 0, .any⟩, ⟨21, 1, .ro, .val 0, .any⟩, ⟨22, 1, .ro, .val 0, .any⟩]⟩,
  -- DPORT_ISR
  ⟨0x8, 1, 0x0, 1, 0x0, [⟨0, 1, .w1c, .val 0, .any⟩, ⟨1, 1, .w1c, .val 0, .any⟩, ⟨2, 1, .w1c, .val 0, .any⟩, ⟨3, 1, .w1c, .val 0, .any⟩, ⟨4, 1, .w1c, .val 0, .any⟩, ⟨5, 1, .w1c, .val 0, .any⟩, ⟨6, 1, .w1c, .val 0, .any⟩]⟩,
  -- DPORT_IER
  ⟨0xc, 1, 0x0, 1, 0x0, [⟨0, 1, .rw, .val 0, .any⟩, ⟨1, 1, .rw, .val 0, .any⟩, ⟨2, 1, .rw, .val 0, .any⟩, ⟨3, 1, .rw, .val 0, .any⟩, ⟨4, 1, .rw, .val 0, .any⟩, ⟨5, 1, .rw, .val 0, .any⟩, ⟨6, 1, .rw, .val 0, .any⟩]⟩,
  -- DPORT_PEERUIDLO
  ⟨0x10, 1, 0x0, 1, 0x0, [⟨0, 32, .ro, .val 0, .any⟩]⟩,
  -- DPORT_PEERUIDHI
  ⟨0x14, 1, 0x0, 1, 0x0, [⟨0, 32, .ro, .val 0, .any⟩]⟩,
  -- DPORT_PEERADDR
  ⟨0x18, 1, 0x0, 1, 0x0, [⟨0, 16, .ro, .val 65535, .any⟩]⟩,
  -- DPORT_RETRY
  ⟨0x1c, 1, 0x0, 1, 0x0, [⟨0, 16, .rwl, .val 20, .ranges [(1, 65535)]⟩, ⟨16, 8, .rwl, .val 8, .ranges [(1, 255)]⟩]⟩,
  -- DPORT_CRCCNT
  ⟨0x20, 1, 0x0, 1, 0x0, [⟨0, 32, .ro, .val 0, .any⟩]⟩,
  -- DPORT_REPLAYCNT
  ⟨0x24, 1, 0x0, 1, 0x0, [⟨0, 32, .ro, .val 0, .any⟩]⟩,
  -- DPORT_RETRAINCNT
  ⟨0x28, 1, 0x0, 1, 0x0, [⟨0, 32, .ro, .val 0, .any⟩]⟩,
  -- DPORT_ORPHAN
  ⟨0x2c, 1, 0x0, 1, 0x0, [⟨0, 32, .ro, .val 0, .any⟩]⟩,
  -- DPORT_VERDROP
  ⟨0x30, 1, 0x0, 1, 0x0, [⟨0, 32, .ro, .val 0, .any⟩]⟩,
  -- DPORT_FRAMEERR
  ⟨0x34, 1, 0x0, 1, 0x0, [⟨0, 32, .ro, .val 0, .any⟩]⟩]

/-- Table 1.11: the blocks of register space with their cards. -/
def blockTable : List BlockCards := [
  ⟨0x0, 1, cardsSys⟩,
  ⟨0x10000, 1, cardsEcc⟩,
  ⟨0x20000, 1, cardsDisp⟩,
  ⟨0x30000, 1, cardsRet⟩,
  ⟨0x40000, 1, cardsFlow⟩,
  ⟨0x50000, 1, cardsPat⟩,
  ⟨0x60000, 1, cardsRule⟩,
  ⟨0x70000, 1, cardsCodec⟩,
  ⟨0x80000, 1, cardsNvme⟩,
  ⟨0x90000, 1, cardsPcie⟩,
  ⟨0xa0000, 1, cardsMedia⟩,
  ⟨0xb0000, 1, cardsFtla⟩,
  ⟨0xc0000, 1, cardsDram⟩,
  ⟨0xd0000, 1, cardsDma⟩,
  ⟨0xe0000, 1, cardsDigest⟩,
  ⟨0xf0000, 1, cardsVault⟩,
  ⟨0x100000, 32, cardsNand⟩,
  ⟨0x300000, 1, cardsKeys⟩,
  ⟨0x310000, 1, cardsFab⟩,
  ⟨0x350000, 1, cardsCstore⟩,
  ⟨0x360000, 1, cardsHold⟩,
  ⟨0x370000, 1, cardsTherm⟩,
  ⟨0x380000, 1, cardsWdt⟩,
  ⟨0x390000, 1, cardsGpio⟩,
  ⟨0x400000, 32, cardsTile⟩,
  ⟨0x600000, 24, cardsDch⟩,
  ⟨0x780000, 4, cardsDport⟩]

/-- Does the card hold the register at offset `r` of its block's window, and at which indexes? -/
def cardIndex (c : Card) (r : Nat) : Option (Nat × Nat) :=
  if r < c.off then none
  else
    let d := r - c.off
    let n := if c.s1 = 0 then 0 else d / c.s1
    let e := if c.s1 = 0 then d else d % c.s1
    let k := if c.s2 = 0 then 0 else e / c.s2
    let g := if c.s2 = 0 then e else e % c.s2
    if n < c.n1 ∧ k < c.n2 ∧ g = 0 then some (n, k) else none

/-- The card of the register at offset `r` of a window, with the register's index. -/
def findCardIn : List Card → Nat → Option (Card × Nat × Nat)
  | [], _ => none
  | c :: cs, r =>
    match cardIndex c r with
    | some nk => some (c, nk)
    | none => findCardIn cs r

/-- The block whose windows hold an offset of register space (Table 1.11); none: no block's window (R11, R53). -/
def findBlock : List BlockCards → Nat → Option BlockCards
  | [], _ => none
  | b :: bs, off =>
    if b.base ≤ off ∧ off < b.base + b.count * blockWindow then some b else findBlock bs off

/-- The card of the register at an offset of register space. -/
def findCard (off : Nat) : Option (Card × Nat × Nat) :=
  match findBlock blockTable off with
  | none => none
  | some b => findCardIn b.cards (off % blockWindow)

/-- The offset of the window that holds an offset of register space. -/
def windowOf (off : Nat) : Nat := off / blockWindow * blockWindow

/-- The value at reset of a field of the register with index `n`. `identity`: byte j of DRAM_ADJn is 4n + j (R387). -/
def resetValAt (n : Nat) : ResetVal → Nat
  | .val v => v
  | .perIndex vs => vs.getD n 0
  | .index => n
  | .identity => (4 * n) + (4 * n + 1) * 256 + (4 * n + 2) * 65536 + (4 * n + 3) * 16777216

/-- The (key, value) pairs of one register's fields that are not 0 at reset. -/
def cardResets (base : Nat) (c : Card) (n k : Nat) : List (Nat × Nat) :=
  c.fields.filterMap (fun f =>
    let v := resetValAt n f.reset
    if v = 0 then none else some ((base + c.off + n * c.s1 + k * c.s2) * 32 + f.lo, v))

/-- The (key, value) pairs of a block's fields that are not 0 at reset. -/
def blockResets (b : BlockCards) : List (Nat × Nat) :=
  (List.range b.count).flatMap (fun i =>
    b.cards.flatMap (fun c =>
      if c.fields.any (fun f => f.reset ≠ .val 0 && f.reset ≠ .index) then
        (List.range c.n1).flatMap (fun n =>
          (List.range c.n2).flatMap (fun k => cardResets (b.base + i * blockWindow) c n k))
      else []))

/-- Every register field that is not 0 at reset, as the cards give them, in key order. CSTORE_REMAPn.PHYS (reset n) is
not among them: the remap table is held apart, as the exceptions from that value. -/
def regResets : List (Nat × Nat) :=
  [(512, 12836), (528, 177), (536, 1), (2688, 1), (2816, 1), (2097664, 60), (4194816, 32), (4194824, 64), (4194832, 1), (4194960, 8192), (4195072, 2), (4195080, 1), (4195088, 10), (4195200, 100), (6291968, 10000), (6292096, 1000), (10486272, 4194304), (12582913, 1), (12583552, 256), (14680704, 4), (14681232, 1), (14681344, 4294967295), (16777728, 4278190080), (16777856, 100000), (23069696, 4), (23069704, 1), (23069712, 2), (23069824, 1), (23069952, 60), (23070080, 1000), (23070336, 2048), (23070464, 8192), (23070592, 16384), (23070720, 150), (23070736, 8), (23070976, 2), (25166464, 20), (25166592, 48), (25166600, 32), (25166720, 16)] ++
  [(25166728, 32), (25166848, 10), (25166856, 1), (25166976, 1), (25166984, 128), (25166992, 20), (25167000, 5), (25167104, 500), (25167232, 24), (25167248, 1), (25174016, 50462976), (25174144, 117835012), (25174272, 185207048), (25174400, 252579084), (25174528, 319951120), (25174656, 387323156), (25174784, 454695192), (25174912, 522067228), (25175040, 589439264), (25175168, 656811300), (25175296, 724183336), (25175424, 791555372), (25175552, 858927408), (25175680, 926299444), (25175808, 993671480), (25175936, 1061043516), (25176064, 1128415552), (25176192, 1195787588), (25176320, 1263159624), (25176448, 1330531660), (25176576, 1397903696), (25176704, 1465275732), (25176832, 1532647768), (25176960, 1600019804), (25177088, 1667391840), (25177216, 1734763876), (25177344, 1802135912), (25177472, 1869507948), (25177600, 1936879984), (25177728, 2004252020)] ++
  [(25177856, 2071624056), (25177984, 2138996092), (25178112, 2206368128), (25178240, 2273740164), (25178368, 2341112200), (25178496, 2408484236), (25178624, 2475856272), (25178752, 2543228308), (25178880, 2610600344), (25179008, 2677972380), (25179136, 2745344416), (25179264, 2812716452), (25179392, 2880088488), (25179520, 2947460524), (25179648, 3014832560), (25179776, 3082204596), (25179904, 3149576632), (25180032, 3216948668), (25180160, 3284320704), (25180288, 3351692740), (25180416, 3419064776), (25180544, 3486436812), (25180672, 3553808848), (25180800, 3621180884), (25180928, 3688552920), (25181056, 3755924956), (25181184, 3823296992), (25181312, 3890669028), (25181440, 3958041064), (25181568, 4025413100), (25181696, 4092785136), (25181824, 4160157172), (25181952, 4227529208), (25182080, 4294901244), (27271296, 6), (27271568, 1), (27271808, 6), (27272080, 1), (27272320, 6), (27272592, 1)] ++
  [(27272832, 6), (27273104, 1), (27273344, 6), (27273616, 1), (27273856, 6), (27274128, 1), (27274368, 6), (27274640, 1), (27274880, 6), (27275152, 1), (29491584, 4294967295), (29491712, 4294967295), (29495680, 4294967295), (29495808, 4294967295), (29499776, 4294967295), (29499904, 4294967295), (29503872, 4294967295), (29504000, 4294967295), (29507968, 4294967295), (29508096, 4294967295), (29512064, 4294967295), (29512192, 4294967295), (29516160, 4294967295), (29516288, 4294967295), (29520256, 4294967295), (29520384, 4294967295), (29524352, 4294967295), (29524480, 4294967295), (29528448, 4294967295), (29528576, 4294967295), (29532544, 4294967295), (29532672, 4294967295), (29536640, 4294967295), (29536768, 4294967295), (29540736, 4294967295), (29540864, 4294967295), (29544832, 4294967295), (29544960, 4294967295), (29548928, 4294967295), (29549056, 4294967295)] ++
  [(29553024, 4294967295), (29553152, 4294967295), (29557120, 4294967295), (29557248, 4294967295), (29561216, 4294967295), (29561344, 4294967295), (29565312, 4294967295), (29565440, 4294967295), (29569408, 4294967295), (29569536, 4294967295), (29573504, 4294967295), (29573632, 4294967295), (29577600, 4294967295), (29577728, 4294967295), (29581696, 4294967295), (29581824, 4294967295), (29585792, 4294967295), (29585920, 4294967295), (29589888, 4294967295), (29590016, 4294967295), (29593984, 4294967295), (29594112, 4294967295), (29598080, 4294967295), (29598208, 4294967295), (29602176, 4294967295), (29602304, 4294967295), (29606272, 4294967295), (29606400, 4294967295), (29610368, 4294967295), (29610496, 4294967295), (29614464, 4294967295), (29614592, 4294967295), (29618560, 4294967295), (29618688, 4294967295), (29622656, 4294967295), (29622784, 4294967295), (29626752, 4294967295), (29626880, 4294967295), (29630848, 4294967295), (29630976, 4294967295)] ++
  [(29634944, 4294967295), (29635072, 4294967295), (29639040, 4294967295), (29639168, 4294967295), (29643136, 4294967295), (29643264, 4294967295), (29647232, 4294967295), (29647360, 4294967295), (29651328, 4294967295), (29651456, 4294967295), (29655424, 4294967295), (29655552, 4294967295), (29659520, 4294967295), (29659648, 4294967295), (29663616, 4294967295), (29663744, 4294967295), (29667712, 4294967295), (29667840, 4294967295), (29671808, 4294967295), (29671936, 4294967295), (29675904, 4294967295), (29676032, 4294967295), (29680000, 4294967295), (29680128, 4294967295), (29684096, 4294967295), (29684224, 4294967295), (29688192, 4294967295), (29688320, 4294967295), (29692288, 4294967295), (29692416, 4294967295), (29696384, 4294967295), (29696512, 4294967295), (29700480, 4294967295), (29700608, 4294967295), (29704576, 4294967295), (29704704, 4294967295), (29708672, 4294967295), (29708800, 4294967295), (29712768, 4294967295), (29712896, 4294967295)] ++
  [(29716864, 4294967295), (29716992, 4294967295), (29720960, 4294967295), (29721088, 4294967295), (29725056, 4294967295), (29725184, 4294967295), (29729152, 4294967295), (29729280, 4294967295), (29733248, 4294967295), (29733376, 4294967295), (29737344, 4294967295), (29737472, 4294967295), (29741440, 4294967295), (29741568, 4294967295), (29745536, 4294967295), (29745664, 4294967295), (29749632, 4294967295), (29749760, 4294967295), (102760596, 1), (102761216, 65535), (102762118, 1), (113246353, 6), (113246976, 2048), (115343504, 1), (115346560, 255), (115346816, 255), (115347072, 255), (115347328, 255), (115351560, 255), (115351688, 255), (115351816, 255), (115351944, 255), (115352072, 255), (115352200, 255), (115352328, 255), (115352456, 255), (115352584, 255), (115352712, 255), (115352840, 255), (115352968, 255)] ++
  [(115353096, 255), (115353224, 255), (115353352, 255), (115353480, 255), (115353608, 255), (115353736, 255), (115353864, 255), (115353992, 255), (115354120, 255), (115354248, 255), (115354376, 255), (115354504, 255), (115354632, 255), (115354760, 255), (115354888, 255), (115355016, 255), (115355144, 255), (115355272, 255), (115355400, 255), (115355528, 255), (115355648, 3), (115355656, 100), (115355776, 110), (117441024, 2000), (117441152, 100), (134226960, 2048), (136324112, 2048), (138421264, 2048), (140518416, 2048), (142615568, 2048), (144712720, 2048), (146809872, 2048), (148907024, 2048), (151004176, 2048), (153101328, 2048), (155198480, 2048), (157295632, 2048), (159392784, 2048), (161489936, 2048), (163587088, 2048)] ++
  [(165684240, 2048), (167781392, 2048), (169878544, 2048), (171975696, 2048), (174072848, 2048), (176170000, 2048), (178267152, 2048), (180364304, 2048), (182461456, 2048), (184558608, 2048), (186655760, 2048), (188752912, 2048), (190850064, 2048), (192947216, 2048), (195044368, 2048), (197141520, 2048), (199238672, 2048), (251658241, 7), (251659008, 65535), (251659136, 20), (251659152, 8), (253755393, 7), (253756160, 65535), (253756288, 20), (253756304, 8), (255852545, 7), (255853312, 65535), (255853440, 20), (255853456, 8), (257949697, 7), (257950464, 65535), (257950592, 20), (257950608, 8)]

end Sys2Proof.Machine
end

