-- ==== Sys2Proof/Machine/State.lean ====
section
/-! DEFINITION. Sys2Proof/Machine/State.lean: the state of the Gudolos as plain data, and the state after reset. Sparse
data is held in the tables of Tbl.lean; what is held nowhere else is a register field (`regs`), by its key. -/

namespace Sys2Proof.Machine

/-- Why a step stops with a fault. The part's own errors are status values, flags, exceptions and discarded frames,
which are effects of a command and never stop the model; the one fault left is a device that its own rules have halted. -/
inductive Fault where
  /-- Raised by no command at stepping B1 as the manual gives it; kept so that the outcome type is inhabited. Safe. -/
  | deviceHalted
  deriving DecidableEq, Repr

/-- Why a command has no meaning. -/
inductive Refusal where
  /-- Raised by an arm of `exec` whose command has no meaning yet, by its mnemonic in the opcode table. Safe. -/
  | notModelled (mnemonic : String)
  deriving DecidableEq, Repr

/-! ### Cores and caches (03, 04, 05) -/

/-- What a core is doing: `idle` is a tile core without a job or a house core held in reset; `stopped` follows a double
fault (R112). -/
inductive RunState where
  | idle | run | wait | fence | stopped
  deriving DecidableEq, Repr

/-- A cache line (R161): the global address of its first byte, whether it is dirty, its 64 bytes, the check-bit
syndromes of its eight words (0: intact) and the recency stamp for least-recently-used replacement. -/
structure Line where
  addr : Nat
  dirty : Bool
  data : List Byte
  syn : List (Nat × Nat)
  stamp : Nat
  deriving DecidableEq, Repr

/-- A cache: lines by set × 4 + way, and the recency clock. -/
structure Cache where
  lines : List (Nat × Option Line)
  clock : Nat
  deriving DecidableEq, Repr

def Cache.empty : Cache := ⟨[], 1⟩

/-- An entry of the eviction buffer (R162). -/
structure EvEnt where
  addr : Nat
  data : List Byte
  syn : List (Nat × Nat)
  deriving DecidableEq, Repr

/-- An invalidate-all that a write of the cache control register started (R165): the caches it covers, and those that the
same write enables once it has completed. -/
structure CacheInv where
  ic : Bool
  dc : Bool
  enIc : Bool
  enDc : Bool
  deriving DecidableEq, Repr

/-- The architectural state of a Siriz core (Table 3.1), its caches and its eviction buffer. `cycHi` is the latched
CYCLE_HI (Table 3.3); `noVec` says that the running job's image has no vector table (R120);
`lastCause` is the CAUSE word of the last exception frame since the job began, 0 before one (Table 9.11). -/
structure Core where
  w : List (Nat × Word)
  pc : Word
  st : Word
  bnk : BitVec 16
  vbase : Word
  exdepth : Nat
  sgBase : List Word
  sgLimit : List Word
  sgPerm : List Word
  cycle : Nat
  cycHi : Option Word
  run : RunState
  noVec : Bool
  lastCause : Word
  ic : Cache
  dc : Cache
  ev : List EvEnt
  inv : Option CacheInv
  deriving DecidableEq, Repr

/-- A tile core at reset (Tables 3.2, 3.3 and 3.6): idle until its first job. -/
def Core.tileReset : Core :=
  { w := [], pc := 0, st := 0x200, bnk := 0, vbase := 1, exdepth := 0,
    sgBase := [0, 0, 0, 0x00100000], sgLimit := [0x000FFFFF, 0x000FFFFF, 0x000FFFFF, 0x0000FFFF],
    sgPerm := [5, 3, 3, 11], cycle := 0, cycHi := none, run := .idle, noVec := false, lastCause := 0,
    ic := Cache.empty, dc := Cache.empty, ev := [], inv := none }

/-- A house core at reset (Tables 3.2, 3.3 and 3.6): held until it is released, its first fetch at the reset vector
0x0080_0000 (R98, R106). -/
def Core.houseReset : Core :=
  { Core.tileReset with
    pc := 0x00800000, vbase := 0x00800001,
    sgBase := [0x00800000, 0, 0, 0x20000000], sgLimit := [0x0001FFFF, 0x003FFFFF, 0x003FFFFF, 0x00FFFFFF] }

/-- A merge-buffer entry (R176): the 8-byte word's address ÷ 8, the byte mask, the bytes, and the core whose write the
entry holds, where one does. -/
structure MergeEnt where
  word : Nat
  mask : Nat
  data : Nat
  owner : Option Nat
  deriving DecidableEq, Repr

/-! ### Flows, dispatcher and retirement (02) -/

/-- Where a parcel comes from: a host Write (by its command number) or a Damdom OPEN. -/
inductive Source where
  | host (cmd : Nat)
  | fab
  deriving DecidableEq, Repr

/-- Where a cut parcel stands on its way through the device. -/
inductive PState where
  | landing
  | waiting
  | queued (tile : Nat)
  | running (tile : Nat)
  | ended (tile : Nat)
  | complete
  deriving DecidableEq, Repr

/-- A parcel in flight (R66): its flow and sequence number, source, length in bytes, index within its command, landing
address and length, output-staging address and length, bytes arrived so far, and what its processing has made of it.
`cause` is the first failure cause of Table 2.3 (0: none). -/
structure Parcel where
  flow : Nat
  seq : Nat
  src : Source
  len : Nat
  part : Nat
  land : Nat
  landLen : Nat
  landHeld : Bool
  ost : Nat
  ostLen : Nat
  got : Nat
  tile : Nat
  st : PState
  cause : Nat
  discarded : Bool
  raw : Bool
  nblk : Nat
  ebytes : Nat
  nent : Nat
  codecProf : Nat
  jobEnded : Bool
  rawSkip : Bool
  deriving DecidableEq, Repr

/-- A run of reserved sequence numbers of one host command (R64): the next number to cut, how many are left, the
command, the index of the next parcel in the command and the bytes left. -/
structure SeqRun where
  flow : Nat
  next : Nat
  left : Nat
  cmd : Nat
  part : Nat
  bytes : Nat
  deriving DecidableEq, Repr

/-- A draining flow (R61) and the Flow Unbind command that waits for it, if one does. -/
structure Drain where
  flow : Nat
  cmd : Option Nat
  deriving DecidableEq, Repr

/-- What blocks a parcel that could not be cut (Table 2.4). -/
inductive Block where
  | window
  | device
  deriving DecidableEq, Repr

/-- A parcel the dispatcher could not cut, for which backpressure stands (R77). -/
structure Blocked where
  flow : Nat
  seq : Nat
  fab : Bool
  why : Block
  len : Nat
  deriving DecidableEq, Repr

/-- A thief's search (R71, R72): searching, or waiting out BACKOFF; the quad it probes next, how many of the other
quads it has probed, and the victims it has lost in this search. -/
structure Thief where
  searching : Bool
  backoff : Bool
  quad : Nat
  probed : Nat
  lost : List Nat
  lastQuad : Nat
  deriving DecidableEq, Repr

/-- The state of the dispatcher and the retirement unit beside their registers and the flow contexts in SRAM. `voids`:
runs of sequence numbers that will never be cut and retire in their places with nothing released (Tables 2.5 and 9.7).
`deques`: the parcels in each tile's deque, head first. `cmdOp`, `cmdFlow`: the FLOW_CMD operation in progress.
`stalled`: heads whose stall has been noted. -/
structure FlowSt where
  runs : List SeqRun
  voids : List SeqRun
  parcels : List Parcel
  deques : List (Nat × List (Nat × Nat))
  lastPush : Nat
  lastServed : Nat
  lastReleased : Nat
  draining : List Drain
  cmdOp : Nat
  cmdFlow : Nat
  blocked : List Blocked
  stalled : List (Nat × Nat)
  thieves : List (Nat × Thief)
  hostUsed : Nat
  fabUsed : Nat
  hostLimit : Nat
  fabLimit : Nat
  deriving DecidableEq, Repr

/-- The dispatcher after a reset that covers it (R70, R74): the previous push counts as tile 31, round robins start at
flow 0 (the flow served last counts as 262,143). -/
def FlowSt.reset : FlowSt :=
  { runs := [], voids := [], parcels := [], deques := [], lastPush := 31, lastServed := 262143, lastReleased := 262143,
    draining := [], cmdOp := 0, cmdFlow := 0, blocked := [], stalled := [], thieves := [],
    hostUsed := 0, fabUsed := 0, hostLimit := 64000, fabLimit := 64000 }

/-! ### Tiles: jobs, marionette, codec unit, key queue (03, 06, 07, 08) -/

/-- The job a block, a key or a running program belongs to: a parcel, or a computational-program command. -/
structure JobRef where
  cp : Bool
  flow : Nat
  seq : Nat
  cmd : Nat
  deriving DecidableEq, Repr

/-- A running job (R119): its program slot, its index profile where it has one, and whether its image has no vector
table (R120). -/
structure Job where
  ref : JobRef
  slot : Nat
  idxProf : Nat
  hasIdx : Bool
  noVec : Bool
  deriving DecidableEq, Repr

/-- A computational-program job by its command (R297): its tile, its output range (length 0: none), what has been placed
in it, the first failure cause, the DW0 of Table 9.11, and whether the job has ended. -/
structure CpJob where
  cmd : Nat
  tile : Nat
  outBase : Nat
  outLen : Nat
  ebytes : Nat
  nent : Nat
  cause : Nat
  dw : Nat
  ended : Bool
  deriving DecidableEq, Repr

/-- The marionette of a tile beside its TILE registers (Table 6.1): step memory with the header of the loaded table and
the loading it came from, the current step, its executions so far, whether control has just arrived from another step,
an end or pause that has been reached but not yet reported (R203), stream offsets, streams rewritten while paused,
vector registers (64 bytes as one number, byte 0 lowest) with position tags, masks, prefix carry, and the samples of the
rows held in the line buffers. -/
structure Mari where
  steps : List Nat
  resident : Option (Nat × Nat)
  nstep : Nat
  tab : Nat
  line : Nat
  start : Nat
  budget : Nat
  step : Nat
  k : Nat
  fresh : Bool
  ending : Option Nat
  isOff : List (Nat × Nat)
  isRewritten : List Nat
  osRewritten : List Nat
  v : List (Nat × Nat)
  tag : List (Nat × Nat)
  m0 : Nat
  m1 : Nat
  carry : Nat
  row2 : List Nat
  row1 : List Nat
  row0 : List Nat
  nrow : Nat
  metered : Nat
  deriving DecidableEq, Repr

def Mari.reset : Mari :=
  { steps := [], resident := none, nstep := 0, tab := 0, line := 0, start := 0, budget := 0, step := 0, k := 0, fresh := true,
    ending := none, isOff := [], isRewritten := [], osRewritten := [], v := [], tag := [], m0 := 0,
    m1 := 0, carry := 0, row2 := [], row1 := [], row0 := [], nrow := 0, metered := 0 }

/-- A codec profile entry (Table 7.12). -/
structure Prof where
  mode : Nat
  pred : Nat
  width : Nat
  budget : Nat
  line : Nat
  deriving DecidableEq, Repr

/-- A piece of the codec input from one block boundary to the next (R222), under the profile current when it began. -/
structure Seg where
  job : JobRef
  prof : Prof
  data : List Byte
  closed : Bool
  deriving DecidableEq, Repr

/-- A formed input block (R222): its bytes, its profile's fields and the CRC computed on entry (R226). -/
structure InBlock where
  job : JobRef
  prof : Prof
  data : List Byte
  crc : Nat
  deriving DecidableEq, Repr

/-- An encoded block with the input it came from. -/
structure EncBlock where
  inp : InBlock
  bytes : List Byte
  exact : Bool
  mode : Nat
  deriving DecidableEq, Repr

/-- A decode job (R232): its descriptor fields, whether the descriptor breaks R232, and whether a tile reset stopped it. -/
structure DecJob where
  src : Nat
  dst : Nat
  srcLen : Nat
  outLimit : Nat
  nblk : Nat
  tag : Nat
  bad : Bool
  stopped : Bool
  deriving DecidableEq, Repr

/-- A complete key in a key queue (R239). -/
structure Key where
  job : JobRef
  idxProf : Nat
  ord : Nat
  bytes : List Byte
  deriving DecidableEq, Repr

/-- A tile beside its TILE registers: job, marionette, codec unit (codec input by block boundaries, formed, encoded and
accepted blocks), key queue (complete keys, and the bytes short of one) and decode lane: `lane` is a device decode job,
`tileDec` one issued by the tile, waiting or running. A key queue holds 4,096 bytes; what the list holds beyond them
stands in the output stream's buffer. -/
structure Tile where
  job : Option Job
  mari : Mari
  segs : List Seg
  formed : List InBlock
  encoded : List EncBlock
  accepted : List EncBlock
  curProf : Nat
  kq : List Key
  kqPart : List Byte
  kqOrd : Nat
  lane : Option DecJob
  tileDec : Option DecJob
  tileDecRun : Bool
  rstBusy : Bool
  deriving DecidableEq, Repr

def Tile.reset : Tile :=
  { job := none, mari := Mari.reset, segs := [], formed := [], encoded := [], accepted := [], curProf := 0, kq := [],
    kqPart := [], kqOrd := 0, lane := none, tileDec := none, tileDecRun := false, rstBusy := false }

/-- A loaded image of a program slot (R115, R116): its kind, flags, placement and whether a computational program is
activated (R295). -/
structure ProgSlot where
  kind : Nat
  flags : Nat
  load : Nat
  entry : Nat
  vec : Nat
  code : Nat
  footprint : Nat
  active : Bool
  deriving DecidableEq, Repr

/-- A loaded step-table set (R199, R200): its base, table count, footprint and the number of its loading. -/
structure StepSet where
  base : Nat
  ntab : Nat
  footprint : Nat
  loading : Nat
  deriving DecidableEq, Repr

/-- What host software has loaded for the tiles: program slots, step-table sets and the class maps of automaton sets. -/
structure Loaded where
  progs : List (Nat × Option ProgSlot)
  sets : List (Nat × Option StepSet)
  loadings : Nat
  classMaps : List (Nat × List Nat)
  deriving DecidableEq, Repr

/-- A slot of the rule TCAM with its priority, rule ID, action and flags (R249). -/
structure TSlot where
  valid : Bool
  value : Nat
  mask : Nat
  prio : Nat
  rid : Nat
  action : Nat
  flags : Nat
  deriving DecidableEq, Repr

def TSlot.none : TSlot := ⟨false, 0, 0, 0, 0, 0, 0⟩

/-- An index profile (R239, Table 8.5). -/
structure IdxProf where
  aset : Nat
  klen : Nat
  emit : Nat
  mstep : Bool
  deriving DecidableEq, Repr

/-- An insert or delete in progress (R257). -/
inductive RuleOp where
  | insert (r : TSlot)
  | delete (set rid : Nat)
  deriving DecidableEq, Repr

/-- A key that has left its automaton engine with its report and waits for the rule TCAM. -/
structure Scanned where
  key : Key
  tile : Nat
  report : Nat
  aerr : Bool
  deriving DecidableEq, Repr

/-- The index cluster beside its registers: transition memory, the engines' alternation and held keys, TCAM slots,
index profiles, the operation in progress, the insertions or deletions of a Rule Table Load that follow it with the
command they belong to (R251), the checker's slot and the engine searched last. -/
structure IndexSt where
  tm : List (Nat × Nat)
  engTurn : List (Nat × Nat)
  engHold : List (Nat × Option Scanned)
  slots : List (Nat × TSlot)
  profs : List (Nat × Option IdxProf)
  op : Option RuleOp
  load : List RuleOp
  loadCmd : Option Nat
  checkAt : Nat
  lastEng : Nat
  deriving DecidableEq, Repr

/-- The index cluster after reset: every engine serves tile 2e first, searches start at engine 0 (R240, R254). -/
def IndexSt.reset : IndexSt :=
  { tm := [], engTurn := [], engHold := [], slots := [], profs := [], op := none, load := [], loadCmd := none, checkAt := 0, lastEng := 15 }

/-- The SRAM protection state beside the ECC registers: check-bit syndromes of words whose stored check bits differ from
the correct ones (0: intact), words of macros that no address names, the scrubber's place, a repair in progress and the
spares used per macro (rows + 4 × columns). -/
structure EccSt where
  syn : List (Nat × Nat)
  other : List (Nat × Nat)
  scrubAt : Nat
  repair : Option (Nat × Nat × Nat)
  spares : List (Nat × Nat)
  deriving DecidableEq, Repr

def EccSt.reset : EccSt := { syn := [], other := [], scrubAt := 0, repair := none, spares := [] }

/-- A defined hallway window (R358): its number, base, slots, tag base and RDALL flag. -/
structure HwWin where
  id : Nat
  base : Nat
  slots : Nat
  tagBase : Nat
  rdall : Bool
  deriving DecidableEq, Repr

/-! ### The code store (15) -/

/-- The operation the code-store controller runs (R434): an erase sequence at one of its steps (R438: 1 to 5), a page
program or a record program, with the physical block, the offset of its page in the array and the page's data. -/
structure CsOp where
  op : Nat
  stage : Nat
  block : Nat
  page : Nat
  data : List Byte
  deriving DecidableEq, Repr

/-- The NOR die and its controller beside the CSTORE registers: the array by physical byte address (an unlisted byte is
erased, 0xFF), the first four bytes of each block's flag row (R438), byte 0 of each block's mark row (R441), the remap of
logical blocks (an unlisted block maps to itself, 1,024 is unmapped, R431) and the operation in progress. -/
structure CodeSt where
  arr : List (Nat × Byte)
  flags : List (Nat × Nat)
  marks : List (Nat × Nat)
  remap : List (Nat × Nat)
  op : Option CsOp
  deriving DecidableEq, Repr

def CodeSt.reset : CodeSt := { arr := [], flags := [], marks := [], remap := [], op := none }

/-! ### NAND media and translation (10) -/

/-- A loaded personality (Tables 10.2 to 10.6): the fields the channel sequencers and the translation layer use. -/
structure Pers where
  cell : Nat
  nretry : Nat
  matchId : Nat
  idMask : Nat
  planes : Nat
  planeBit : Nat
  pgu : Nat
  adrCyc : Nat
  bpp : Nat
  ppb : Nat
  ppbSlc : Nat
  peLimit : Nat
  peSlc : Nat
  ptMin : Int
  ptMax : Int
  lunBit : Nat
  rate : Nat
  ops : List Nat
  retry : List Nat
  steps : List Nat
  deriving DecidableEq, Repr

/-- A physical sector as the array holds it: the tag of Table 10.7 and the enciphered data. -/
structure Sector where
  nsid : Nat
  lsec : Nat
  stamp : Nat
  use : Nat
  idx : Nat
  data : List Byte
  deriving DecidableEq, Repr

/-- A program operation waiting for its LUN or run by it: the block, its first page, whether in SLC mode, the sectors of
its pages with their PSAs, and the unit write it belongs to. -/
structure Prog where
  lun : Nat
  block : Nat
  page : Nat
  slc : Bool
  secs : List (Nat × Sector)
  job : Nat
  deriving DecidableEq, Repr

/-- An operation a channel sequencer runs on a LUN (R306): operation k of Table 10.5, its block and page, the next
micro-step, the bytes driven onto the bus so far, the pages moved, the ns it has waited, the program it runs, and the codewords that decoded
(R313). -/
structure NandOp where
  k : Nat
  block : Nat
  page : Nat
  pc : Nat
  bus : List Byte
  pages : Nat
  waits : Nat
  prog : Option Prog
  got : List (Option (List Byte))
  deriving DecidableEq, Repr

/-- What a LUN's retry sequence (R313) waits for. -/
inductive RetryPhase where
  | none | set | read | clear
  deriving DecidableEq, Repr

/-- A populated LUN (R309): the bytes READ ID returned, whether it is in use, its operation, the retry step applied (0:
default levels), what the retry sequence waits for, and the read that its steps repeat with what has decoded so far. -/
structure Lun where
  idBytes : Nat
  used : Bool
  op : Option NandOp
  retry : Nat
  phase : RetryPhase
  again : Option NandOp
  deriving DecidableEq, Repr

/-- The NAND back end beside its registers: personalities in force and those of the next start-up, the populated LUNs,
the array by PSA, the programs waiting, and the PSAs whose last read was unrecovered (R313). -/
structure MediaSt where
  pers : List (Nat × Option Pers)
  next : List (Nat × Option Pers)
  luns : List (Nat × Option Lun)
  cells : List (Nat × Option Sector)
  progs : List Prog
  unrec : List Nat
  deriving DecidableEq, Repr

def MediaSt.reset : MediaSt := { pers := [], next := [], luns := [], cells := [], progs := [], unrec := [] }

/-- A fine entry (Table 10.9), with the sectors whose blocks its extent holds (`stored`): those present now, and those
deallocated since it was written. -/
structure FineEnt where
  psa : Nat
  len : Nat
  kind : Nat
  budget : Nat
  present : Nat
  stored : Nat
  off : Nat
  deriving DecidableEq, Repr

/-- The map entry of a unit (Table 10.8), with the fine table where KIND is 3. -/
structure MapUnit where
  kind : Nat
  psa : Nat
  len : Nat
  budget : Nat
  side : Nat
  stamp : Nat
  fine : List (Nat × Option FineEnt)
  deriving DecidableEq, Repr

/-- The PSA that means none (R312). -/
def psaNone : Nat := 0xFFFFFFFFF

def MapUnit.none : MapUnit := { kind := 0, psa := 0, len := 0, budget := 0, side := psaNone, stamp := 0, fine := [] }

/-- A sector in the write buffers (R317): namespace, logical sector, its encoded block, whether it is a filler block, and
the release that wrote it. -/
structure WbSec where
  nsid : Nat
  lsec : Nat
  block : List Byte
  fill : Bool
  rel : Nat
  deriving DecidableEq, Repr

/-- A parcel released to translation: its release number, flow, sequence number, command, namespace, first logical
sector, sectors, length, bytes of blocks, entries and trailer (its side record without the header), RAW and INDET, whether
cellar replay restored it, and whether its side record is on the medium. A parcel that has persisted (R323) leaves the
list. -/
structure Rel where
  rel : Nat
  flow : Nat
  seq : Nat
  cmd : Option Nat
  nsid : Nat
  lsec : Nat
  nsec : Nat
  plen : Nat
  nblk : Nat
  ebytes : Nat
  side : List Byte
  nent : Nat
  raw : Bool
  indet : Bool
  blocks : List (List Byte)
  restored : Bool
  sided : Bool
  deriving DecidableEq, Repr

/-- The writing of a unit, from UNIT_WRITE or garbage collection to its commit (R317, R331): the entry it will have, the
sectors (with the release that wrote each) and side records it carries, the programs still outstanding, the STAMP it was
read at, whether it moves data for garbage collection, and the sectors deallocated meanwhile. -/
structure UnitJob where
  id : Nat
  nsid : Nat
  unit : Nat
  entry : MapUnit
  secs : List (Nat × Nat)
  sides : List Nat
  left : Nat
  stamp : Nat
  gc : Bool
  dead : List Nat
  deriving DecidableEq, Repr

/-- What waits to be taken into the map in release order (R316, R317): a released parcel, or a deallocate. -/
inductive MapReq where
  | parcel (rel : Nat)
  | dealloc (nsid lsec n : Nat)
  deriving DecidableEq, Repr

/-- A record of the map journal (R322): a map entry or a block's state. -/
inductive JRec where
  | map (seq nsid unit : Nat) (e : MapUnit)
  | blk (seq lun block erases closed state : Nat)
  | commit (seq flush flow pseq : Nat)
  deriving DecidableEq, Repr

/-- A checkpoint (R322): the map, and the block table by place with ERASES, VALID, CLOSED and STATE. -/
structure FtlImage where
  map : List (Nat × MapUnit)
  blocks : List (Nat × (Nat × Nat × Nat × Nat))
  deriving DecidableEq, Repr

/-- An entry of the flush manifest (Table 16.3) with the parcel it stands for, and whether the cellar holds it whole. -/
structure CellarEnt where
  rel : Rel
  acked : Bool
  complete : Bool
  deriving DecidableEq, Repr

/-- The cellar (R464 to R466): the flush number, its manifest, whether the END record was written. -/
structure Cellar where
  flush : Nat
  ents : List CellarEnt
  ended : Bool
  deriving DecidableEq, Repr

/-- The translation layer: the map by namespace × 2^40 + unit, the open block of each LUN with its next page, the LUN
of the last unit, write buffers, released parcels and what waits to be mapped, unit writes, units that are due, the
journal (pending and committed records), the checkpoint, blocks to relocate (with true: to retire), the
garbage-collection victim, the runs of aborted Writes whose parcels Parcel Read marks (flow, first, count; Table 9.7), the cellar, the device seconds counter, the attic at format, and the scan in progress. -/
structure Ftl where
  map : List (Nat × MapUnit)
  openBlk : List (Nat × Option (Nat × Nat))
  lastLun : Nat
  wb : List WbSec
  rels : List Rel
  queue : List MapReq
  nextRel : Nat
  jobs : List UnitJob
  nextJob : Nat
  due : List (Nat × Nat)
  jseq : Nat
  pend : List JRec
  journal : List JRec
  ckpt : FtlImage
  relocate : List (Nat × Bool)
  victim : Option Nat
  indets : List (Nat × Nat × Nat)
  cellar : Option Cellar
  replaying : Bool
  seconds : Nat
  atticFormat : Nat
  scan : Option (Nat × Nat × Bool)
  ready : Bool
  deriving DecidableEq, Repr

def Ftl.reset : Ftl :=
  { map := [], openBlk := [], lastLun := 1023, wb := [], rels := [], queue := [], nextRel := 0, jobs := [], nextJob := 0,
    due := [], jseq := 0, pend := [], journal := [], ckpt := ⟨[], []⟩, relocate := [], victim := none, indets := [], cellar := none,
    replaying := false, seconds := 0, atticFormat := 0, scan := none, ready := false }

/-! ### The NVMe subsystem (09) -/

/-- A submission queue: entries, head, tail, its completion queue and priority class. -/
structure Sq where
  size : Nat
  head : Nat
  tail : Nat
  cq : Nat
  prio : Nat
  deriving DecidableEq, Repr

/-- An entry posted to a completion queue, with the data the command left in host memory. -/
structure Cqe where
  sq : Nat
  cid : Nat
  status : Nat
  dw0 : Nat
  sqHead : Nat
  phase : Nat
  data : List Byte
  deriving DecidableEq, Repr

/-- A completion queue: entries, head, tail, phase, interrupt vector and enable, and the entries not yet consumed. -/
structure Cq where
  size : Nat
  head : Nat
  tail : Nat
  phase : Nat
  vector : Nat
  ien : Bool
  ents : List Cqe
  deriving DecidableEq, Repr

/-- Where a command stands (R276). -/
inductive CmdSt where
  | waiting
  | started
  | done
  deriving DecidableEq, Repr

/-- An outstanding command: its number in the model (2n + controller), where it came from, what it is, its state, its
completion so far (status SCT × 256 + SC with CRD and DNR as in the status field, DW0, data), the range lock it holds
(namespace, ranges as first logical block and length), whether it has waited for one, its run of sequence numbers (flow,
first, count) with the parcels still unreleased, the released parcels it waits for, the conditions R524 orders, and whether
a reset of its controller has abandoned it (R489). -/
structure Cmd where
  id : Nat
  src : CmdRef
  op : NvmeOp
  st : CmdSt
  status : Nat
  dw0 : Nat
  data : List Byte
  lock : Option (Nat × List (Nat × Nat))
  waited : Bool
  run : Option (Nat × Nat × Nat)
  left : Nat
  rels : List Nat
  sqDel : Bool
  aborted : Bool
  stopped : Bool
  xfer : Bool
  later : Bool
  abandoned : Bool
  deriving DecidableEq, Repr

/-- A namespace (R270): size in logical blocks, LBA format, whether its Streams directive is enabled. -/
structure Ns where
  nsze : Nat
  lbaf : Nat
  streams : Bool
  attached : Bool
  deriving DecidableEq, Repr

/-- An asynchronous event waiting to be reported: type, information, log page. -/
structure AEvent where
  kind : Nat
  info : Nat
  page : Nat
  deriving DecidableEq, Repr

/-- One NVMe controller: CC.EN, CC.SHN, CSTS.SHST, its queues, the values of features, the asynchronous events that wait
for a request, those reported whose log page has not been read (R294), and its arbitration (R275): the queue served last
in each class, the queue whose burst runs with the commands left in it, and the weights left to the high, medium and low
classes. -/
structure Ctrl where
  en : Bool
  shn : Nat
  shst : Nat
  sqs : List (Nat × Option Sq)
  cqs : List (Nat × Option Cq)
  feats : List (Nat × Nat)
  events : List AEvent
  masked : List AEvent
  last : List (Nat × Nat)
  burst : Option (Nat × Nat)
  cred : List Nat
  deriving DecidableEq, Repr

def Ctrl.reset : Ctrl :=
  { en := false, shn := 0, shst := 0, sqs := [], cqs := [], feats := [], events := [], masked := [],
    last := [], burst := none, cred := [] }

/-- A memory range set (R295): its ranges by SLM namespace, offset and length. -/
structure RangeSet where
  rsid : Nat
  ranges : List (Nat × Nat × Nat)
  deriving DecidableEq, Repr

/-- The device self-test (R289): code, the command that started it, and the result of the last one (log page 0x06). -/
structure SelfTest where
  run : Option Nat
  nsid : Nat
  last : Option (Nat × Nat)
  deriving DecidableEq, Repr

/-- The management endpoint (R300): on I3C with a dynamic address or on SMBus, paused, its configuration and the 256 bytes
of VPD, and the last response (status, data). -/
structure MiSt where
  i3c : Option Nat
  paused : Bool
  config : List (Nat × Nat)
  vpd : List (Nat × Byte)
  reply : Option (Nat × Nat × List Byte)
  deriving DecidableEq, Repr

/-- The NVM subsystem: controllers, outstanding commands in the order of their arrival, namespaces, SLM namespaces by
number (address, length), memory range sets, the firmware image download buffer, the sanitize in progress,
the power state, the error log, the functions in D3hot with the blocks turned off for it (R511), the ports whose
PE_PERSTp# is low, those whose link has trained since their reset, and the commands on their way whose reads of host memory
fail (R268). -/
structure NvmeSt where
  ctrls : List (Nat × Ctrl)
  cmds : List Cmd
  nextCmd : Nat
  nss : List (Nat × Option Ns)
  slms : List (Nat × Option (Nat × Nat))
  sets : List RangeSet
  fwBuf : List (Nat × Byte)
  sanitize : Option Nat
  power : Nat
  warn : Nat
  selfTest : SelfTest
  mi : MiSt
  errors : List Nat
  rdonly : Bool
  d3 : List Nat
  d3off : List BlockId
  perst : List Nat
  trained : List Nat
  walkFails : List CmdRef
  deriving DecidableEq, Repr

def NvmeSt.reset : NvmeSt :=
  { ctrls := [], cmds := [], nextCmd := 0, nss := [], slms := [], sets := [], fwBuf := [],
    sanitize := none, power := 0, warn := 0, selfTest := ⟨none, 0, none⟩, mi := ⟨none, false, [], [], none⟩,
    errors := [], rdonly := false, d3 := [], d3off := [], perst := [], trained := [], walkFails := [] }

/-! ### Hold-up, thermal control and pins (16) -/

/-- Where a qualification stands (R458): charging, a string isolated, its load closed, or recharging. -/
inductive QualStep where
  | idle
  | drain
  | charge
  | settle (n : Nat)
  | load (n : Nat)
  | vb (n : Nat)
  | recharge (n : Nat)
  deriving DecidableEq, Repr

/-- The hold-up controller beside its registers: the string under test with its voltages, measured strings, W in bytes as
computed and as in force, the stored profiles, what triggered the flush and its counters, the level of HU_PFAIL#, whether
the rail has reached VACK in a qualification, the profile that qualification runs under, the profile being stored, and
whether the last flush ran short. -/
structure HoldSt where
  qual : QualStep
  va : Nat
  vb : Nat
  wait : List Nat
  passed : List (Nat × (Nat × Nat))
  w : Nat
  computed : Option Nat
  eu : Nat
  cap : Nat
  esr : Nat
  prof : Option (List Byte)
  thermProf : Option (List Byte)
  cmd : Option Nat
  flushBy : Nat
  flushes : Nat
  lastFlush : Nat
  lastBytes : Nat
  lost : List CellarEnt
  lostSeen : Bool
  pfail : Bool
  reached : Bool
  active : List Byte
  saving : Option (List Byte)
  trip : Bool
  ranShort : Bool
  deriving DecidableEq, Repr

def HoldSt.reset : HoldSt :=
  { qual := .idle, va := 0, vb := 0, wait := [], passed := [], w := 0, computed := none, eu := 0, cap := 0, esr := 0,
    prof := none, thermProf := none, cmd := none, flushBy := 0, flushes := 0, lastFlush := 0, lastBytes := 0, lost := [],
    lostSeen := false, pfail := false, reached := false, active := [], saving := none, trip := false,
    ranShort := false }

/-- The thermal controller beside its registers: channels in the program window, I3C NAKs in a row, stalled fans, and the
counters of log page 0xC3 (`held`: write hold-off since start-up in units of 100 ms), and the profile being stored. -/
structure ThermSt where
  inWin : List (Nat × Bool)
  naks : List (Nat × Nat)
  stalled : List Nat
  dieMax : Int
  held : Nat
  saving : Option (List Byte)
  deriving DecidableEq, Repr

def ThermSt.reset : ThermSt := { inWin := [], naks := [], stalled := [], dieMax := 0, held := 0, saving := none }

/-! ### Keys (14) -/

/-- A key slot of the key store (R414): type, usage bits and the 64 bytes of its value. -/
structure KeySlot where
  ktype : Nat
  usage : Nat
  value : List Byte
  deriving DecidableEq, Repr
/-! ### DRAM channels (12) -/

/-- A channel engine beside its DCH registers: its queue, oldest first, the refreshes each bank owes, the open rows
(row + 1, 0: none), the bank refreshed last, whether a pause is due, forced or running, and the failed pauses in a row. -/
structure DramCh where
  queue : List DramReq
  owed : List (Nat × Nat)
  rows : List (Nat × Nat)
  lastBank : Nat
  due : Bool
  forced : Bool
  pausing : Bool
  fails : Nat
  deriving DecidableEq, Repr

def DramCh.reset : DramCh :=
  { queue := [], owed := [], rows := [], lastBank := 15, due := false, forced := false, pausing := false, fails := 0 }

/-- The DRAM controller beside its registers: channel engines, the scrubber's next line, the masked segments still to be
zeroed after self-refresh, and whether training has completed since the last cold reset (R478). -/
structure DramSt where
  chans : List (Nat × DramCh)
  scrubAt : Nat
  zeroing : Bool
  trained : Bool
  deriving DecidableEq, Repr

def DramSt.reset : DramSt := { chans := [], scrubAt := 0, zeroing := false, trained := false }

/-! ### DMA channels (13) -/

/-- A completion record that waits for room in its queue (R403): TAG, STATUS, the state the channel enters once it is
written, and its place in the order in which the channels produced their records. -/
structure DmaRec where
  tag : Nat
  status : Nat
  next : Nat
  ord : Nat
  deriving DecidableEq, Repr

/-- A DMA channel beside its registers: the LOOP that runs (R399), an abort asked for, paused by the block's EN (R397),
paused or waiting within a wait, the WAIT it stands in (event, CLR, TIMEOUT), the record that waits, and the instruction
or descriptor it goes on with once that record is written. -/
structure DmaCh where
  loopPc : Option Nat
  abort : Bool
  enPause : Bool
  inWait : Bool
  wait : Option (Nat × Bool × Nat)
  hold : Option DmaRec
  after : Option Nat
  deriving DecidableEq, Repr

def DmaCh.reset : DmaCh :=
  { loopPc := none, abort := false, enPause := false, inWait := false,
    wait := none, hold := none, after := none }

/-! ### Digest, vault, keys and fuses (14) -/

/-- A digest context beside its registers (R406 to R412): the bytes absorbed, the algorithm, the declared length, the
FEED in progress (source, length), and the digest while DONE. -/
structure DigCtx where
  msg : List Byte
  alg : Nat
  decl : Nat
  feed : Option (Nat × Nat)
  digest : List Byte
  deriving DecidableEq, Repr

def DigCtx.reset : DigCtx := { msg := [], alg := 0, decl := 2 ^ 64 - 1, feed := none, digest := [] }

/-- An open message of the vault (R421): mode, direction, key, chaining value or counter block, blocks so far, and
whether a partial last STEP has been made. -/
structure VMsg where
  mode : Nat
  decrypt : Bool
  key : List Byte
  chain : List Byte
  blocks : Nat
  last : Bool
  deriving DecidableEq, Repr

/-- The vault beside its registers: the requester whose lease lapsed (R420), the open message, and the command that runs
(OP of VAULT_CMD). -/
structure VaultSt where
  lapsed : Option (Nat × Nat)
  msg : Option VMsg
  run : Option Nat
  deriving DecidableEq, Repr

def VaultSt.reset : VaultSt := { lapsed := none, msg := none, run := none }

/-- The DRBG (R418): the generate requests since it was seeded, and whether a health test has stopped it. `burn`: the
lifecycle code being burnt (R427). -/
structure DrbgSt where
  requests : Nat
  failed : Bool
  burn : Option Nat
  deriving DecidableEq, Repr

def DrbgSt.reset : DrbgSt := { requests := 0, failed := false, burn := none }

/-- The fuse map, which no reset reaches: UID, lifecycle code, root and manufacturing keys, the hashes of Quothal's two
public keys with their revocation fuses, and the rollback count (R415, R426, R445). -/
structure Fuses where
  uid : Nat
  lc : Nat
  root : Option (List Byte)
  mfg : List Byte
  hashes : List (List Byte × Bool)
  rollback : Nat
  deriving DecidableEq, Repr

def Fuses.blank : Fuses :=
  { uid := 0, lc := 0, root := none, mfg := List.replicate 32 0, hashes := [(List.replicate 32 0, false), (List.replicate 32 0, false)],
    rollback := 0 }

/-! ### Start-up, reset and JTAG (17) -/

/-- What holds the device in reset: nothing, the rails and SYS_RST#, the post-flush reset of R476 (waiting also for the
sensors after a thermal trip), or the warm hold of R486 (likewise). -/
inductive Held where
  | none
  | rails
  | post (trip : Bool)
  | warm (trip : Bool)
  deriving DecidableEq, Repr

/-- The outcome in force after a failed start-up (R485). -/
inductive BootMode where
  | normal
  | halt
  | fatal
  | recovery
  deriving DecidableEq, Repr

/-- The retention index (R480): the released parcels not yet persisted and the sectors in the write buffers. -/
structure RetIdx where
  rels : List Rel
  wb : List WbSec
  queue : List MapReq
  deriving DecidableEq, Repr

/-- Start-up beside the SYS registers: what holds the device, the outcome in force, the retries of CLOCKS, whether the
root PLL lost lock before the flush, the retention index DRAM holds, the exposure in bytes and whether W was above 0 at
the last warm reset, the slot that booted with its RBIDX, whether WDT_BOOTOK has been written since the reset, SYS_RST#
low during a flush (R504), the count of the RTC, the power cycles of the main rails, and the house records of keys (R416)
and of the fabric configuration (R370). -/
structure BootSt where
  held : Held
  mode : BootMode
  retries : Nat
  pllLost : Bool
  index : Option RetIdx
  lostX : Nat
  lostW : Bool
  slot : Option Nat
  rbidx : Nat
  bootOk : Bool
  rstLow : Bool
  rtc : Nat
  cycles : Nat
  keyRecs : List (Nat × Option KeySlot)
  fabRec : Option (List Byte × List Byte)
  deriving DecidableEq, Repr

def BootSt.reset : BootSt :=
  { held := .rails, mode := .normal, retries := 0, pllLost := false, index := none, lostX := 0, lostW := false,
    slot := none, rbidx := 0, bootOk := false, rstLow := false, rtc := 0, cycles := 0, keyRecs := [], fabRec := none }

/-- The TAP's instruction (Table 17.3). -/
inductive TapIr where
  | extest | idcode | sample | highz | clamp | debug | bypass
  deriving DecidableEq, Repr

/-- The JTAG TAP (R490, R491): its instruction, the boundary-scan register, the levels its cells last captured, and the
debug register's data and STATUS as the next Capture-DR loads them. -/
structure TapSt where
  ir : TapIr
  cells : Nat
  captured : Nat
  dbgData : Nat
  dbgStatus : Nat
  deriving DecidableEq, Repr

def TapSt.reset : TapSt := { ir := .idcode, cells := 0, captured := 0, dbgData := 0, dbgStatus := 0 }

/-! ### The Damdom fabric (11) -/

/-- A frame: the header of Table 11.5 and its payload. -/
structure Frame where
  dst : Nat
  src : Nat
  kind : Nat
  ttl : Nat
  arg0 : Nat
  arg1 : Nat
  data : List Byte
  deriving DecidableEq, Repr

/-- What the last HELLO of a peer said (Table 11.3): the versions it offers, its configured segment, its time hops and
its time master. -/
structure PeerHello where
  offer : Nat
  seg : Nat
  hops : Nat
  master : Nat
  deriving DecidableEq, Repr

/-- An open parcel of a port (R357): its handle, its flow and number , whether it has its declared length, and whether data
beyond that has arrived. -/
structure OpenParcel where
  ph : Nat
  flow : Nat
  seq : Nat
  closed : Bool
  long : Bool
  deriving DecidableEq, Repr

/-- A Damdom port beside its DPORT registers: the next SEQ to send and to accept, whether a sequenced flit has been
accepted, whether a discard is outstanding, the replay buffer (SEQ and flit), the resends without progress, the credits
held and those owed for VC0 to VC2, the partial frame of each VC, the frames received whole (by VC, with their flits) and
the LINK messages received, the frames waiting to be sent, what the port has put on the link, the last HELLO, whether a
HELLO with byte 7 = 1 has been sent after it, whether DOWN was sent or received, open parcels and held flows (R356), and the
t1 of a TREQ in flight. -/
structure Port where
  txSeq : Nat
  rxSeq : Nat
  rxAny : Bool
  missing : Bool
  replay : List (Nat × List Byte)
  resends : Nat
  credit : List Nat
  owed : List Nat
  part : List (Nat × List (List Byte))
  rx : List (Nat × Frame × Nat)
  links : List (List Byte)
  txq : List (Nat × Frame)
  out : List (List Byte)
  peer : Option PeerHello
  said : Bool
  opens : List OpenParcel
  held : List Nat
  t1 : Option Nat
  deriving DecidableEq, Repr

def Port.reset : Port :=
  { txSeq := 0, rxSeq := 0, rxAny := false, missing := false, replay := [], resends := 0, credit := [0, 0, 0],
    owed := [0, 0, 0], part := [], rx := [], links := [], txq := [], out := [], peer := none, said := false, opens := [],
    held := [], t1 := none }

/-- The discovery of a segment (R352): the nodes recorded with the paths to them, and the paths of the probes not yet
answered. -/
structure Disc where
  nodes : List (List Nat × List Byte)
  wait : List (List Nat)
  deriving DecidableEq, Repr

/-- The node beside its FAB registers: the shared and local sections of its configuration (R366), the hash last received
in ASSIGN, the address of an ASSIGN whose ROUTES are awaited, the manager's address, the discovery in progress, fabric time in ns with the trim
in force, the flags of R365, and FAB_TIMEHI as a read of FAB_TIMELO latched it (R10). -/
structure FabSt where
  ports : List (Nat × Port)
  shared : List Byte
  locals : List Byte
  mgrHash : List Byte
  assign : Option Nat
  mgr : Nat
  disc : Option Disc
  tag : Nat
  time : Nat
  trim : Int
  good : Nat
  stepped : Nat
  bigOff : Bool
  stale : Bool
  upUnsync : Bool
  latch : Option Nat
  deriving DecidableEq, Repr

def FabSt.reset : FabSt :=
  { ports := [], shared := [], locals := [], mgrHash := [], assign := none, mgr := 0xFFFF, disc := none, tag := 0, time := 0, trim := 0,
    good := 0, stepped := 0, bigOff := false, stale := false, upUnsync := false, latch := none }


/-! ### The machine -/

/-- The state of the Gudolos. `regs`: every register field by its key, an unlisted field reading 0. `mem`: every byte of
DRAM and of the addressable SRAMs by its global address, an unlisted byte reading 0. `merge`: the merge buffers, oldest
entry first. `cpJobs`: the computational-program jobs by command. `free`: the counter that free values are taken from; the model's own field. `pending`: the commands waiting,
first in, first out. -/
structure State where
  regs : List (Nat × Nat)
  mem : List (Nat × Byte)
  dramBad : List (Nat × Nat)
  merge : List MergeEnt
  ecc : EccSt
  cores : List Core
  tiles : List (Nat × Tile)
  flows : FlowSt
  loaded : Loaded
  profs : List (Nat × Option Prof)
  lastLane : Nat
  decWait : Option DecJob
  index : IndexSt
  hwWins : List HwWin
  cpJobs : List CpJob
  code : CodeSt
  media : MediaSt
  ftl : Ftl
  nvme : NvmeSt
  hold : HoldSt
  therm : ThermSt
  keys : List (Nat × Option KeySlot)
  dram : DramSt
  dmas : List (Nat × DmaCh)
  digs : List (Nat × DigCtx)
  vault : VaultSt
  drbg : DrbgSt
  fuses : Fuses
  fab : FabSt
  boot : BootSt
  tap : TapSt
  free : Nat
  pending : List Instr
  deriving DecidableEq, Repr

/-- The machine right after the always-on power-on reset, the reset that resets everything (Table 17.1). -/
def State.reset : State :=
  { regs := regResets, mem := [], dramBad := [], merge := [], ecc := EccSt.reset,
    cores := List.replicate 32 Core.tileReset ++ List.replicate 4 Core.houseReset,
    tiles := [], flows := FlowSt.reset, loaded := { progs := [], sets := [], loadings := 0, classMaps := [] },
    profs := [], lastLane := 31, decWait := none, index := IndexSt.reset, hwWins := [], cpJobs := [], code := CodeSt.reset,
    media := MediaSt.reset, ftl := Ftl.reset, nvme := NvmeSt.reset, hold := HoldSt.reset, therm := ThermSt.reset, keys := [],
    dram := DramSt.reset, dmas := [], digs := [], vault := VaultSt.reset, drbg := DrbgSt.reset, fuses := Fuses.blank,
    fab := FabSt.reset, boot := BootSt.reset, tap := TapSt.reset, free := 0, pending := [] }

end Sys2Proof.Machine
end

