-- ==== Sys2Proof/Machine/Ops.lean ====
section
/-! DEFINITION. Sys2Proof/Machine/Ops.lean: the named operations over register fields that every block shares: reading
and writing a field, counters (R57), event captures (R521), interrupt flags (R24), the common control and status fields
(Table 0.4) and the enable states (R17 to R20). -/

namespace Sys2Proof.Machine

/-! ### Register fields -/

/-- The value of a field. -/
def State.fld (s : State) (f : Fld) : Nat := tblGet 0 s.regs f.key

/-- Is a one-bit field 1? -/
def State.flag (s : State) (f : Fld) : Bool := s.fld f != 0

/-- Write a field, at its width. -/
def State.setFld (s : State) (f : Fld) (v : Nat) : State :=
  { s with regs := tblSet 0 s.regs f.key (v % 2 ^ f.width) }

/-- Write several fields, in order. -/
def State.setFlds (s : State) : List (Fld × Nat) → State
  | [] => s
  | (f, v) :: r => (s.setFld f v).setFlds r

/-- Set a one-bit field: an event's ISR bit is set whether or not it is enabled (R24). -/
def State.raise (s : State) (f : Fld) : State := s.setFld f 1

/-- Clear a field. -/
def State.clear (s : State) (f : Fld) : State := s.setFld f 0

/-- Add to a counter that wraps at its width (R57). -/
def State.addWrap (s : State) (f : Fld) (n : Nat) : State := s.setFld f (s.fld f + n)

/-- Add to a counter that saturates at its width. -/
def State.addSat (s : State) (f : Fld) (n : Nat) : State := s.setFld f (satAdd (s.fld f) n (2 ^ f.width - 1))

/-- Write an event capture register (R521): the first event after the register is armed is kept. -/
def State.capture (s : State) (valid : Fld) (fs : List (Fld × Nat)) : State :=
  if s.flag valid then s else (s.setFlds fs).raise valid

/-- A whole register as its fields are held; a reserved bit reads 0 (R15). -/
def State.regStored (s : State) (off : Nat) : Nat :=
  match findCard off with
  | none => 0
  | some (c, _, _) => c.fields.foldl (fun n f => n + s.fld ⟨off, f.lo, f.width⟩ * 2 ^ f.lo) 0

/-! ### Free values -/

/-- A place for a fresh free value: the counter, and the state with the counter advanced. -/
def State.fresh (s : State) : Nat × State := (s.free, { s with free := s.free + 1 })

/-! ### Blocks (Table 0.4, Table 1.11) -/

/-- The offset of a block's window in register space (Table 1.11). -/
def blockBase : BlockId → Nat
  | .sys => 0x000000
  | .ecc => 0x010000
  | .disp => 0x020000
  | .ret => 0x030000
  | .flow => 0x040000
  | .pat => 0x050000
  | .rule => 0x060000
  | .codec => 0x070000
  | .nvme => 0x080000
  | .pcie => 0x090000
  | .media => 0x0A0000
  | .ftla => 0x0B0000
  | .dram => 0x0C0000
  | .dma => 0x0D0000
  | .digest => 0x0E0000
  | .vault => 0x0F0000
  | .nand c => 0x100000 + 0x10000 * c.val
  | .keys => 0x300000
  | .fab => 0x310000
  | .cstore => 0x350000
  | .hold => 0x360000
  | .therm => 0x370000
  | .wdt => 0x380000
  | .gpio => 0x390000
  | .tile n => 0x400000 + 0x10000 * n.val
  | .dch c => 0x600000 + 0x10000 * c.val
  | .dport p => 0x780000 + 0x10000 * p.val

/-- Blocks without an enable have no EN and no STATE field (R14). -/
def blockHasEnable : BlockId → Bool
  | .sys | .ret | .flow | .gpio | .dch _ => false
  | _ => true

/-- The common fields of Table 0.4 of the block whose window starts at `w`. -/
def fldEn (w : Nat) : Fld := ⟨w, 0, 1⟩
def fldLock (w : Nat) : Fld := ⟨w, 31, 1⟩
def fldState (w : Nat) : Fld := ⟨w + 4, 0, 2⟩
def fldCfgErr (w : Nat) : Fld := ⟨w + 4, 8, 1⟩
def fldClaimErr (w : Nat) : Fld := ⟨w + 4, 9, 1⟩

/-- The values of STATE (Table 0.4). -/
def stOff : Nat := 0
def stEnabling : Nat := 1
def stOn : Nat := 2
def stQuiescing : Nat := 3

/-- STATE of a block. -/
def blockState (s : State) (b : BlockId) : Nat := s.fld (fldState (blockBase b))

/-- Is the block ON? -/
def blockOn (s : State) (b : BlockId) : Bool := blockState s b == stOn

/-- Record a refused reserved encoding or a refused change of a locked field (Table 0.4). -/
def setCfgErr (s : State) (b : BlockId) : State := s.raise (fldCfgErr (blockBase b))

/-- Record a refused claim (Table 0.4). -/
def setClaimErr (s : State) (b : BlockId) : State := s.raise (fldClaimErr (blockBase b))

/-- Writing 1 to EN (R17, R18, R20): OFF passes to ENABLING; while QUIESCING the request waits for the drain's end. -/
def requestOn (s : State) (b : BlockId) : State :=
  let s1 := s.setFld (fldEn (blockBase b)) 1
  if blockState s b = stOff then s1.setFld (fldState (blockBase b)) stEnabling else s1

/-- Writing 0 to EN (R17, R19): ON passes to QUIESCING; while ENABLING the block first finishes enabling. -/
def requestOff (s : State) (b : BlockId) : State :=
  let s1 := s.setFld (fldEn (blockBase b)) 0
  if blockState s b = stOn then s1.setFld (fldState (blockBase b)) stQuiescing else s1

/-- The end of an enabling transition (R19, R20): by EN, to ON or directly to QUIESCING. -/
def enablingEnds (s : State) (b : BlockId) : State :=
  s.setFld (fldState (blockBase b)) (if s.flag (fldEn (blockBase b)) then stOn else stQuiescing)

/-- The end of a drain (R18, R20): by EN, to ENABLING or to OFF. -/
def quiesceEnds (s : State) (b : BlockId) : State :=
  s.setFld (fldState (blockBase b)) (if s.flag (fldEn (blockBase b)) then stEnabling else stOff)

/-! ### Cores, tiles and parcels -/

/-- The architectural state of a core. -/
def State.core (s : State) (c : Nat) : Core := s.cores.getD c Core.tileReset

/-- Write a core's state. -/
def State.setCore (s : State) (c : Nat) (k : Core) : State := { s with cores := s.cores.set c k }

/-- A tile. -/
def State.tile (s : State) (t : Nat) : Tile := tblGet Tile.reset s.tiles t

/-- Write a tile. -/
def State.setTile (s : State) (t : Nat) (x : Tile) : State := { s with tiles := tblSet Tile.reset s.tiles t x }

/-- A command's outcome: the next state. Every effect of the Gudolos is one; there is nothing it stops on. -/
abbrev Result := Host.Outcome State Fault Refusal

/-- The priority of power loss over every other claim is by rank (R45, Table 1.6): the rank of a claimant. -/
inductive Claimant where
  | powerLoss | dramPanic | refresh | retirement | ingest | readBack | background
  deriving DecidableEq, Repr

/-- Table 1.6; a lower rank preempts a higher one. -/
def rankOf : Claimant → Nat
  | .powerLoss => 1
  | .dramPanic => 2
  | .refresh => 3
  | .retirement => 4
  | .ingest => 5
  | .readBack => 6
  | .background => 7

end Sys2Proof.Machine
end

