-- ==== Sys2Proof/Machine/Mem.lean ====
section
/-! DEFINITION. Sys2Proof/Machine/Mem.lean: the global physical address space (R49 to R51), memory with its error
correction (R173 to R176, R374 to R376) and the merge buffers (R176). -/

namespace Sys2Proof.Machine

/-! ### The address map -/

def stagingBase : Nat := 0x4000000000
def stagingSize : Nat := 0x4000000
def flowCtxBase : Nat := 0x4010000000
def flowCtxSize : Nat := 0x1000000
def tileWinBase : Nat := 0x4100000000
def tileWinSize : Nat := 0x1000000
def tileLocalSize : Nat := 0x100000
def houseBase : Nat := 0x4200000000
def houseSize : Nat := 0x400000
def codeBase : Nat := 0x4400000000
def codeSize : Nat := 0x4000000
def romBase : Nat := 0x4440000000
def romSize : Nat := 0x20000
def regBase : Nat := 0x4800000000
def regSize : Nat := 0x7C0000

/-- What a global address reaches (Tables 1.9 and 1.11, R50, R51). -/
inductive Target where
  | dram
  | staging
  | flowCtx (flow : Nat)
  | tileLocal (tile : Nat)
  | house
  | code (off : Nat)
  | rom (off : Nat)
  | reg (off : Nat)
  | hole
  deriving DecidableEq, Repr

/-- The end of usable DRAM (R50, R373). -/
def dramEnd (s : State) : Nat := 0x100000 * s.fld R.DRAM_USABLE_MIB

/-- The target of a global address; a hole raises a bus error (R49, R53), and so does DRAM while it is not ON (R388). -/
def targetOf (s : State) (a : Nat) : Target :=
  if a < dramEnd s then (if s.fld R.DRAM_STATUS_STATE = stOn then .dram else .hole)
  else if stagingBase ≤ a ∧ a < stagingBase + stagingSize then .staging
  else if flowCtxBase ≤ a ∧ a < flowCtxBase + flowCtxSize then .flowCtx ((a - flowCtxBase) / 64)
  else if tileWinBase ≤ a ∧ a < tileWinBase + 32 * tileWinSize then
    let n := (a - tileWinBase) / tileWinSize
    let o := (a - tileWinBase) % tileWinSize
    if o < tileLocalSize then .tileLocal n
    else if o < tileLocalSize + blockWindow then .reg (0x400000 + n * blockWindow + (o - tileLocalSize))
    else .hole
  else if houseBase ≤ a ∧ a < houseBase + houseSize then .house
  else if codeBase ≤ a ∧ a < codeBase + codeSize then .code (a - codeBase)
  else if romBase ≤ a ∧ a < romBase + romSize then .rom (a - romBase)
  else if regBase ≤ a ∧ a < regBase + regSize then
    if (findBlock blockTable (a - regBase)).isSome then .reg (a - regBase) else .hole
  else .hole

/-- The global address of offset `o` of tile `t`'s local memory. -/
def tileLocalAddr (t o : Nat) : Nat := tileWinBase + t * tileWinSize + o

/-! ### SRAM macros (R178, Table 5.3) -/

/-- The ECC word of a global SRAM address: 32,768 × macro ID + word index; none for DRAM and unprotected space. -/
def eccKey (s : State) (a : Nat) : Option Nat :=
  match targetOf s a with
  | .staging => some (0x8000 * ((a - stagingBase) / 0x40000) + (a - stagingBase) % 0x40000 / 8)
  | .flowCtx _ => some (0x8000 * (0x100 + (a - flowCtxBase) / 0x40000) + (a - flowCtxBase) % 0x40000 / 8)
  | .tileLocal t =>
    let o := (a - tileWinBase) % tileWinSize
    some (0x8000 * (0x200 + 4 * t + o / 0x40000) + o % 0x40000 / 8)
  | .house => some (0x8000 * (0x300 + (a - houseBase) / 0x40000) + (a - houseBase) % 0x40000 / 8)
  | _ => none

/-- The global address of the first byte of an ECC word of classes 0 to 3. -/
def eccAddr (k : Nat) : Option Nat :=
  let m := k / 0x8000
  let o := k % 0x8000 * 8
  if m < 0x100 then some (stagingBase + 0x40000 * m + o)
  else if m < 0x140 then some (flowCtxBase + 0x40000 * (m - 0x100) + o)
  else if 0x200 ≤ m ∧ m < 0x280 then
    some (tileWinBase + (m - 0x200) / 4 * tileWinSize + 0x40000 * ((m - 0x200) % 4) + o)
  else if 0x300 ≤ m ∧ m < 0x310 then some (houseBase + 0x40000 * (m - 0x300) + o)
  else none

/-- The syndrome of a stored word: its check bits exclusive-or the correct ones (0: intact; 0xFF: poison, R174). -/
def synAt (s : State) (a : Nat) : Nat :=
  match eccKey s a with
  | none => 0
  | some k => tblGet 0 s.ecc.syn k

/-- What the SEC-DED decoder makes of a word (R173). -/
inductive EccView where
  | ok
  | corrected (data : Nat)
  | uncorrectable
  deriving DecidableEq, Repr

/-- The first data bit whose inversion explains a syndrome. -/
def synBit (d : Nat) (syn : Nat) : Nat → Option Nat
  | 0 => none
  | n + 1 =>
    match synBit d syn n with
    | some i => some i
    | none =>
      if ((Config.checkBits (BitVec.ofNat 64 d)) ^^^ (Config.checkBits (BitVec.ofNat 64 (d ^^^ 2 ^ n)))).toNat = syn
      then some n else none

/-- R173, R174: no error, one bit in error (in the check bits or the data), or two bits or the poison pattern. -/
def eccDecode (d syn : Nat) : EccView :=
  if syn = 0 then .ok
  else if syn = 0xFF then .uncorrectable
  else if [1, 2, 4, 8, 16, 32, 64, 128].contains syn then .corrected d
  else match synBit d syn 64 with
    | some i => .corrected (d ^^^ 2 ^ i)
    | none => .uncorrectable

/-! ### Stored bytes -/

/-- The stored byte at a global address, as the array holds it. -/
def State.rawByte (s : State) (a : Nat) : Byte := tblGet 0 s.mem a

/-- The stored 8-byte word that holds a global address, as a number. -/
def State.rawWord (s : State) (a : Nat) : Nat := leNat (tblRange 0 s.mem (a / 8 * 8) 8)

/-- The byte a read of a global address returns: the merge buffer's byte over the stored one, a single-bit error
corrected (R173, R176). -/
def State.memByte (s : State) (a : Nat) : Byte :=
  match s.merge.find? (fun e => e.word == a / 8 && e.mask.testBit (a % 8)) with
  | some e => BitVec.ofNat 8 (e.data >>> (8 * (a % 8)))
  | none =>
    match synAt s a with
    | 0 => s.rawByte a
    | syn =>
      match eccDecode (s.rawWord a) syn with
      | .corrected d => BitVec.ofNat 8 (d >>> (8 * (a % 8)))
      | _ => s.rawByte a

/-- The bytes a read of `n` bytes returns. -/
def State.memBytes (s : State) (a : Nat) : Nat → List Byte
  | 0 => []
  | n + 1 => s.memByte a :: s.memBytes (a + 1) n

/-- A little-endian number of `n` bytes read from memory. -/
def State.memNat (s : State) (a n : Nat) : Nat := leNat (s.memBytes a n)

/-! ### Error counting -/

/-- Count a correctable SRAM error at ECC word `k` (R173, ECC_CECNT, ECC_LASTCE). -/
def countCe (s : State) (k : Nat) : State :=
  ((s.addSat R.ECC_CECNT_COUNT 1).raise R.ECC_ISR_CE).capture R.ECC_LASTCE_VALID
    [(R.ECC_LASTCE_MACRO, k / 0x8000), (R.ECC_LASTCE_WORD, k % 0x8000)]

/-- Count an uncorrectable SRAM error at ECC word `k` (R173, ECC_UECNT, ECC_LASTUE). -/
def countUe (s : State) (k : Nat) : State :=
  ((s.addSat R.ECC_UECNT_COUNT 1).raise R.ECC_ISR_UE).capture R.ECC_LASTUE_VALID
    [(R.ECC_LASTUE_MACRO, k / 0x8000), (R.ECC_LASTUE_WORD, k % 0x8000)]

/-- The DRAM channel of a global address (R373): 24 or 12 channels by DRAM_CFG.NCH. -/
def dramChannels (s : State) : Nat := if s.flag R.DRAM_CFG_NCH then 12 else 24
def dramChannel (s : State) (a : Nat) : Nat := a / 2048 % dramChannels s

/-- Count a DRAM error of the line that holds a global address (R376): kind 0 correctable, 1 uncorrectable. -/
def countDram (s : State) (a kind : Nat) : State :=
  let s1 := if kind = 0 then (s.addSat R.DRAM_CECNT_COUNT 1).raise R.DRAM_ISR_CE
            else (s.addSat R.DRAM_UECNT_COUNT 1).raise R.DRAM_ISR_UE
  s1.capture R.DRAM_LASTERR_VALID
    [(R.DRAM_LASTERR_CH, dramChannel s a), (R.DRAM_LASTERR_KIND, kind), (R.DRAM_LASTADDR_ADDR, a / 64)]

/-- The error mark of a DRAM line: 0 none, 1 correctable, 2 uncorrectable, 3 the poison pattern (R375, R376). -/
def dramMark (s : State) (a : Nat) : Nat := tblGet 0 s.dramBad (a / 64)

/-- Read one word's protection: count what the decoder finds; the flag says uncorrectable. -/
def noteWord (s : State) (a : Nat) : State × Bool :=
  match eccKey s a with
  | some k =>
    match eccDecode (s.rawWord a) (tblGet 0 s.ecc.syn k) with
    | .ok => (s, false)
    | .corrected _ => (countCe s k, false)
    | .uncorrectable => (countUe s k, true)
  | none =>
    if a < dramEnd s then
      match dramMark s a with
      | 0 => (s, false)
      | 1 => (countDram s a 0, false)
      | _ => (countDram s a 1, true)
    else (s, false)

/-- Read the protection of `n` words from word address `w`; the address of the first uncorrectable one, if any. -/
def noteWords (s : State) (w : Nat) : Nat → State × Option Nat
  | 0 => (s, none)
  | n + 1 =>
    let (s1, bad) := noteWord s (w * 8)
    let (s2, rest) := noteWords s1 (w + 1) n
    (s2, if bad then some (w * 8) else rest)

/-- A read of `n` bytes of RAM by any requester: the bytes, the state with the errors counted, and the address of the
first uncorrectable word (R173, R376). -/
def readRam (s : State) (a n : Nat) : List Byte × State × Option Nat :=
  let r := if n = 0 ∨ (s.ecc.syn = [] ∧ s.dramBad = []) then (s, none)
    else noteWords s (a / 8) ((a + n - 1) / 8 - a / 8 + 1)
  (s.memBytes a n, r.1, r.2)

/-! ### Writes -/

/-- Store bytes as they are, in the array. -/
def State.putBytes (s : State) (a : Nat) (bs : List Byte) : State := { s with mem := tblSetRange 0 s.mem a bs }

/-- Set the syndrome of the word that holds a global address. -/
def setSyn (s : State) (a v : Nat) : State :=
  match eccKey s a with
  | none => s
  | some k => { s with ecc := { s.ecc with syn := tblSet 0 s.ecc.syn k v } }

/-- Set the error mark of a DRAM line. -/
def setDramMark (s : State) (a v : Nat) : State := { s with dramBad := tblSet 0 s.dramBad (a / 64) v }

/-- The bytes of a merge entry laid over a stored word. -/
def mergeOver (old data mask : Nat) : List Byte :=
  (List.range 8).map (fun i => BitVec.ofNat 8 ((if mask.testBit i then data else old) >>> (8 * i)))

/-- Write a merge entry to its bank (R176): a full mask writes without a read; otherwise a read-modify-write, which
corrects a single-bit error and writes the poison pattern over an uncorrectable word (R174). -/
def writeMerge (s : State) (e : MergeEnt) : State :=
  let a := e.word * 8
  let s0 := { s with merge := s.merge.filter (fun x => x.word != e.word) }
  if e.mask = 0xFF then setSyn (s0.putBytes a (mergeOver 0 e.data e.mask)) a 0
  else
    match eccDecode (s0.rawWord a) (synAt s0 a) with
    | .ok => s0.putBytes a (mergeOver (s0.rawWord a) e.data e.mask)
    | .corrected d =>
      setSyn ((match eccKey s0 a with | some k => countCe s0 k | none => s0).putBytes a (mergeOver d e.data e.mask)) a 0
    | .uncorrectable =>
      let s1 := match eccKey s0 a with | some k => countUe s0 k | none => s0
      (setSyn (s1.putBytes a (mergeOver (s0.rawWord a) e.data e.mask)) a 0xFF).raise R.ECC_ISR_POISON

/-- The bank of a word: entries of one bank share the 256 KiB the word lies in. -/
def sameBank (w v : Nat) : Bool := w / 0x8000 == v / 0x8000

/-- Join a narrow write to the merge buffer of its bank (R176): into the word's entry, or a free entry of the four, the
oldest being written when a fifth word needs one; a full mask is written at once. -/
def mergeWrite (s : State) (w mask data : Nat) (owner : Option Nat) : State :=
  match s.merge.find? (fun e => e.word == w) with
  | some e =>
    let e' : MergeEnt := { e with
      mask := e.mask ||| mask, data := leNat (mergeOver e.data data mask), owner := owner }
    if e'.mask = 0xFF then writeMerge s e'
    else { s with merge := s.merge.map (fun x => if x.word == w then e' else x) }
  | none =>
    let mine := s.merge.filter (fun e => sameBank e.word w)
    let s1 := if mine.length < 4 then s else
      match mine with
      | [] => s
      | old :: _ => writeMerge s old
    { s1 with merge := s1.merge ++ [⟨w, mask, data, owner⟩] }

/-- Write part or all of one 8-byte word of SRAM. -/
def writeSramWord (s : State) (w lo : Nat) (bs : List Byte) (owner : Option Nat) : State :=
  if lo = 0 ∧ bs.length = 8 then
    setSyn ({ s with merge := s.merge.filter (fun e => e.word != w) }.putBytes (w * 8) bs) (w * 8) 0
  else mergeWrite s w ((2 ^ bs.length - 1) <<< lo) (leNat bs <<< (8 * lo)) owner

/-- Write bytes of SRAM word by word, `fuel` words at most. -/
def writeSram (s : State) (a : Nat) (bs : List Byte) (owner : Option Nat) : Nat → State
  | 0 => s
  | fuel + 1 =>
    if bs = [] then s
    else
      let lo := a % 8
      let n := 8 - lo
      writeSram (writeSramWord s (a / 8) lo (bs.take n) owner) (a + n) (bs.drop n) owner fuel

/-- The error marks after a write of DRAM: a whole line is intact; a partial write of a correctable line repairs it, and
of an uncorrectable one writes the poison pattern (R375). -/
def dramMarks (s : State) (a n : Nat) : Nat → State
  | 0 => s
  | k + 1 =>
    let line := (a / 64 + k) * 64
    let whole := a ≤ line ∧ line + 64 ≤ a + n
    let s1 := dramMarks s a n k
    match dramMark s1 line with
    | 0 => s1
    | 1 => if whole then setDramMark s1 line 0 else setDramMark (countDram s1 line 0) line 0
    | _ => if whole then setDramMark s1 line 0
           else (setDramMark (countDram s1 line 1) line 3).raise R.DRAM_ISR_POISON

/-- A write of bytes of RAM by any requester: SRAM through the merge buffers, DRAM by line. -/
def writeRam (s : State) (a : Nat) (bs : List Byte) (owner : Option Nat) : State :=
  match targetOf s a with
  | .dram =>
    let s1 := s.putBytes a bs
    if bs = [] ∨ s.dramBad = [] then s1
    else dramMarks s1 a bs.length ((a + bs.length - 1) / 64 - a / 64 + 1)
  | .staging | .flowCtx _ | .tileLocal _ | .house => writeSram s a bs owner (bs.length + 1)
  | _ => s

/-- Write the merge entries that satisfy a test, oldest first. -/
def flushMergeList (s : State) : List MergeEnt → State
  | [] => s
  | e :: es => flushMergeList (writeMerge s e) es

/-- Write the merge entries that satisfy a test (a FENCE of the core that owns them, a DMA channel's completion, R176). -/
def flushMerge (s : State) (p : MergeEnt → Bool) : State := flushMergeList s (s.merge.filter p)

/-- Is a whole range of global addresses RAM (DRAM or addressable SRAM)? -/
def ramTarget (t : Target) : Bool :=
  match t with
  | .dram | .staging | .flowCtx _ | .tileLocal _ | .house => true
  | _ => false

/-! ### Hallway windows (R358, R359) -/

/-- The owner tag of a slot of a window (Table 11.9). -/
def slotTag (s : State) (w : HwWin) (slot : Nat) : Nat := s.memNat (w.tagBase + 4 * slot) 4

/-- The tag a writer must find: 0 local, host port p, or a peer by its fabric address (Table 11.9). -/
def tagLocal : Nat := 0
def tagHost (p : Nat) : Nat := 1 + 4 * p
def tagPeer (addr : Nat) : Nat := 2 + 0x10000 * addr

/-- May a writer with this tag write `n` bytes at `a` (R359)? -/
def hwAllows (s : State) (a n tag : Nat) : Bool :=
  s.hwWins.all (fun w =>
    if a + n ≤ w.base ∨ w.base + 0x10000 * w.slots ≤ a then true
    else
      let k0 := (a - w.base) / 0x10000
      let k1 := (a + n - 1 - w.base) / 0x10000
      (List.range (k1 - k0 + 1)).all (fun i => slotTag s w (k0 + i) == tag))

/-- A write into memory by a local writer, a host port or a peer: dropped in full and counted when it meets a slot of a
hallway window that the writer does not own (R359). -/
def writeMem (s : State) (a : Nat) (bs : List Byte) (owner : Option Nat) (tag : Nat) : State :=
  if hwAllows s a bs.length tag then writeRam s a bs owner
  else (s.addWrap R.FAB_HWDROP_COUNT 1).raise R.FAB_ISR_HWDROP

end Sys2Proof.Machine
end

