-- ==== Sys2Proof/Machine/Flow.lean ====
section
/-! DEFINITION. Sys2Proof/Machine/Flow.lean: flow contexts, parcels, landing and output staging, the tile deques, failure
and backpressure: the operations of 02 that the flow commands and the rest of the write path share. -/

namespace Sys2Proof.Machine

/-! ### Flow contexts (Table 2.1) -/

/-- A field of a flow context: byte offset of its word, low bit, width (32 bits at most). -/
structure CtxFld where
  off : Nat
  lo : Nat
  width : Nat
  deriving DecidableEq, Repr

def cxVALID : CtxFld := ⟨0x00, 0, 1⟩
def cxSTOPPED : CtxFld := ⟨0x00, 1, 1⟩
def cxERRPOL : CtxFld := ⟨0x00, 2, 2⟩
def cxFABIN : CtxFld := ⟨0x00, 4, 1⟩
def cxNSID : CtxFld := ⟨0x00, 8, 9⟩
def cxPROG : CtxFld := ⟨0x04, 0, 6⟩
def cxSTEP : CtxFld := ⟨0x04, 8, 8⟩
def cxCODEC : CtxFld := ⟨0x04, 16, 8⟩
def cxINDEX : CtxFld := ⟨0x04, 24, 8⟩
def cxMASK : CtxFld := ⟨0x08, 0, 32⟩
def cxPSIZE : CtxFld := ⟨0x0C, 0, 3⟩
def cxQUOTA : CtxFld := ⟨0x0C, 8, 11⟩
def cxNEXT : CtxFld := ⟨0x10, 0, 32⟩
def cxRET : CtxFld := ⟨0x14, 0, 32⟩
def cxDSPEC : CtxFld := ⟨0x18, 0, 16⟩
def cxHBOUND : CtxFld := ⟨0x18, 16, 1⟩
def cxFAILSEQ : CtxFld := ⟨0x1C, 0, 32⟩
def cxRETIRED : CtxFld := ⟨0x30, 0, 32⟩
def cxFAILED : CtxFld := ⟨0x34, 0, 32⟩
def cxSHORT : CtxFld := ⟨0x38, 0, 16⟩
def cxLONG : CtxFld := ⟨0x38, 16, 16⟩
def cxRAW : CtxFld := ⟨0x3C, 0, 32⟩

/-- The global address of a flow's context. -/
def ctxAddr (flow : Nat) : Nat := flowCtxBase + flow * 64

/-- Read a field of a flow's context. -/
def ctxGet (s : State) (flow : Nat) (f : CtxFld) : Nat := bitsOf (s.memNat (ctxAddr flow + f.off) 4) f.lo f.width

/-- Write bytes of whole 8-byte words of a context, as the Gudolos does for the words it maintains. -/
def ctxPut (s : State) (flow off : Nat) (bs : List Byte) : State := writeRam s (ctxAddr flow + off) bs none

/-- Write a field of a flow's context. -/
def ctxSet (s : State) (flow : Nat) (f : CtxFld) (v : Nat) : State :=
  let o8 := f.off / 8 * 8
  let sh := (f.off - o8) * 8 + f.lo
  let old := s.memNat (ctxAddr flow + o8) 8
  let new := old - (bitsOf old sh f.width) * 2 ^ sh + (v % 2 ^ f.width) * 2 ^ sh
  ctxPut s flow o8 (leBytes 8 new)

/-- Add to a counter of a context, with wrap (R57). -/
def ctxAdd (s : State) (flow : Nat) (f : CtxFld) (n : Nat) : State := ctxSet s flow f (ctxGet s flow f + n)

/-- Add to a 64-bit counter of a context (IN_UNITS, OUT_BYTES), with wrap. -/
def ctxAdd64 (s : State) (flow off n : Nat) : State :=
  ctxPut s flow off (leBytes 8 ((s.memNat (ctxAddr flow + off) 8 + n) % 2 ^ 64))

def ctxBound (s : State) (flow : Nat) : Bool := ctxGet s flow cxVALID == 1
def ctxDraining (s : State) (flow : Nat) : Bool := s.flows.draining.any (fun d => d.flow == flow)
def ctxStopped (s : State) (flow : Nat) : Bool := ctxGet s flow cxSTOPPED == 1

/-- A flow's parcel size in bytes (PSIZE). -/
def ctxParcelSize (s : State) (flow : Nat) : Nat := 2 ^ (12 + ctxGet s flow cxPSIZE)

/-- A flow's quota of parcels in flight: 0 stands for 1,024. -/
def ctxQuota (s : State) (flow : Nat) : Nat :=
  if ctxGet s flow cxQUOTA = 0 then 1024 else ctxGet s flow cxQUOTA

/-- Is the number within the flow's reorder window (R57)? -/
def inWindow (s : State) (flow seq : Nat) : Bool :=
  decide ((2 ^ 32 + seq - ctxGet s flow cxRET) % 2 ^ 32 < 1024)

/-! ### Parcels -/

/-- The parcel of a flow with a sequence number, if it is in flight. -/
def findParcel (s : State) (flow seq : Nat) : Option Parcel :=
  s.flows.parcels.find? (fun p => p.flow == flow && p.seq == seq)

/-- Change the parcel of a flow with a sequence number. -/
def updParcel (s : State) (flow seq : Nat) (g : Parcel → Parcel) : State :=
  { s with flows := { s.flows with
      parcels := s.flows.parcels.map (fun p => if p.flow == flow && p.seq == seq then g p else p) } }

/-- The parcels of a flow in flight. -/
def flowParcels (s : State) (flow : Nat) : List Parcel := s.flows.parcels.filter (fun p => p.flow == flow)

/-- The failure causes of Table 2.3. -/
def causeProgram : Nat := 1
def causeException : Nat := 2
def causeVerify : Nat := 3
def causeEcc : Nat := 4
def causeTimeout : Nat := 5
def causeShort : Nat := 6
def causeIdxOvf : Nat := 7

/-- A parcel meets a cause of Table 2.3 (R522): the first cause alone is recorded; a discarded parcel is not counted as
failed (R82). A parcel that is complete meets none. -/
def failParcel (s : State) (flow seq cause : Nat) : State :=
  match findParcel s flow seq with
  | none => s
  | some p =>
    if p.cause ≠ 0 ∨ p.st = .complete then s
    else
      let s1 := updParcel s flow seq (fun q => { q with cause := cause })
      if p.discarded then s1
      else
        (((ctxSet (ctxAdd s1 flow cxFAILED 1) flow cxFAILSEQ seq).raise R.RET_ISR_FAIL).capture
          R.RET_LASTFAIL_VALID [(R.RET_LASTFAIL_FLOW, flow), (R.RET_LASTFAIL_CAUSE, cause)])

/-! ### Landing and output staging (R67, R69) -/

/-- The lowest free run of `need` bytes in `[base, base + size)` beside the used ranges (start, length): tried at the
base and at the end of every used range. -/
def lowestFit (base size need : Nat) (used : List (Nat × Nat)) : Option Nat :=
  let fits (c : Nat) : Bool := base ≤ c && c + need ≤ base + size &&
    used.all (fun u => decide (c + need ≤ u.1) || decide (u.1 + u.2 ≤ c))
  (base :: used.map (fun u => u.1 + u.2)).foldl
    (fun best c => if fits c then (match best with | none => some c | some b => some (min b c)) else best) none

/-- A source's staging share (DISP_PART.HOST_STG): the host's share stands first, Damdom's follows. -/
def stagingShare (s : State) (fab : Bool) : Nat × Nat :=
  let h := 0x100000 * s.fld R.DISP_PART_HOST_STG
  if fab then (stagingBase + h, stagingSize - h) else (stagingBase, h)

/-- A source's DRAM landing buffer (DISP_LANDn). -/
def landingBuffer (s : State) (fab : Bool) : Nat × Nat :=
  let n := b2n fab
  (0x100000 * s.fld (R.DISP_LAND_BASE_BASE n), 0x100000 * s.fld (R.DISP_LAND_SIZE_SIZE n))

def landsHeld (s : State) : List (Nat × Nat) :=
  (s.flows.parcels.filter (fun p => p.landHeld && p.st != .complete)).map (fun p => (p.land, p.landLen))

/-- Where a parcel of `len` bytes would land: its address and whether it spills to DRAM (R67). -/
def landingFor (s : State) (fab : Bool) (len : Nat) : Option (Nat × Bool) :=
  let need := roundUp len 4096
  let sh := stagingShare s fab
  match lowestFit sh.1 sh.2 need (landsHeld s) with
  | some a => some (a, false)
  | none =>
    let lb := landingBuffer s fab
    match lowestFit lb.1 lb.2 need (landsHeld s) with
    | some a => some (a, true)
    | none => none

/-- The fixed-ratio budgets in bytes (Table 7.12). -/
def budgetBytes (code : Nat) : Nat := 2048 / 2 ^ code

/-- The output-staging allocation of a parcel in bytes (R69). -/
def ostLenFor (s : State) (flow len : Nat) : Nat :=
  let n := (len + 4095) / 4096
  let b := match tblGet none s.profs (ctxGet s flow cxCODEC) with
    | some p => if p.mode = 2 ∧ ctxGet s flow cxERRPOL ≠ 2 then budgetBytes p.budget else 4112
    | none => 4112
  roundUp (n * b + 4096) 4096

/-- The output-staging address a parcel's allocation would take (R69). -/
def ostFor (s : State) (need : Nat) : Option Nat :=
  lowestFit (0x100000 * s.fld R.RET_OSTG_BASE_BASE) (0x100000 * s.fld R.RET_OSTG_SIZE_SIZE) need
    (s.flows.parcels.map (fun p => (p.ost, p.ostLen)))

/-- Output staging in use, in MiB rounded up (RET_OSTG_USED). -/
def ostUsedMib (s : State) : Nat :=
  (s.flows.parcels.foldl (fun n p => n + p.ostLen) 0 + 0xFFFFF) / 0x100000

/-! ### Cutting (R66) and backpressure (R77) -/

/-- What keeps a parcel from being cut: the reorder window or the quota, or a device-wide condition (Table 2.4). -/
def cutBlock (s : State) (flow seq len : Nat) (fab : Bool) : Option Block :=
  if ¬ inWindow s flow seq ∨ ctxQuota s flow ≤ (flowParcels s flow).length then some .window
  else if s.fld R.DISP_INFLIGHT_LIMIT ≤ s.flows.parcels.length then some .device
  else if (landingFor s fab len).isNone then some .device
  else if (ostFor s (ostLenFor s flow len)).isNone then some .device
  else none

/-- Drop the blocked entries whose parcel can be cut now (R77). The length of a blocked host parcel is that of its run. -/
def clearBlocked (s : State) : State :=
  { s with flows := { s.flows with blocked := s.flows.blocked.filter (fun b =>
      match s.flows.runs.find? (fun r => r.flow == b.flow && r.next == b.seq) with
      | some r => (cutBlock s b.flow b.seq (min r.bytes (ctxParcelSize s b.flow)) b.fab).isSome
      | none => b.fab && (cutBlock s b.flow b.seq b.len true).isSome) } }

/-- Record that a parcel could not be cut, with the event bits of the condition. -/
def noteBlocked (s : State) (flow seq len : Nat) (fab : Bool) (why : Block) : State :=
  let s1 := { s with flows := { s.flows with
    blocked := s.flows.blocked.filter (fun b => !(b.flow == flow && b.seq == seq)) ++ [⟨flow, seq, fab, why, len⟩] } }
  match why with
  | .window => s1
  | .device =>
    if s.fld R.DISP_INFLIGHT_LIMIT ≤ s.flows.parcels.length then s1
    else if (landingFor s fab len).isNone then s1.raise R.DISP_ISR_LANDFULL
    else if (ostFor s (ostLenFor s flow len)).isNone then s1.raise R.RET_ISR_OSTGFULL
    else s1

/-- Cut a parcel (R66): it lands (R67) and takes its output-staging allocation (R69). none: it cannot be cut. -/
def cutParcel (s : State) (flow seq len part : Nat) (src : Source) : Option State :=
  let fab := decide (src = .fab)
  if (cutBlock s flow seq len fab).isSome then none
  else
    match landingFor s fab len, ostFor s (ostLenFor s flow len) with
    | some (a, spill), some o =>
      let p : Parcel :=
        { flow := flow, seq := seq, src := src, len := len, part := part, land := a, landLen := roundUp len 4096,
          landHeld := true, ost := o, ostLen := ostLenFor s flow len, got := 0, tile := 0, st := .landing, cause := 0,
          discarded := false, raw := false, nblk := 0, ebytes := 0, nent := 0, codecProf := ctxGet s flow cxCODEC,
          jobEnded := false, rawSkip := false }
      let s1 := { s with flows := { s.flows with
        parcels := s.flows.parcels ++ [p],
        blocked := s.flows.blocked.filter (fun b => !(b.flow == flow && b.seq == seq)) } }
      let s2 := if spill then s1.raise R.DISP_ISR_SPILL else s1
      some (if s.fld R.DISP_INFLIGHT_LIMIT ≤ s.flows.parcels.length + 1 then s2.raise R.DISP_ISR_INFLIGHT else s2)
    | _, _ => none

/-! ### Deques (R70, R171) -/

/-- A tile's deque, head first. -/
def dequeOf (s : State) (t : Nat) : List (Nat × Nat) := tblGet [] s.flows.deques t

def setDeque (s : State) (t : Nat) (d : List (Nat × Nat)) : State :=
  { s with flows := { s.flows with deques := tblSet [] s.flows.deques t d } }

/-- Is a tile's core processing a parcel (DISP_DEQn.BUSY)? -/
def tileBusy (s : State) (t : Nat) : Bool :=
  match (s.tile t).job with
  | some j => !j.ref.cp
  | none => false

/-- The load of a tile: occupied slots, plus 1 while its core is processing a parcel. -/
def tileLoad (s : State) (t : Nat) : Nat := (dequeOf s t).length + b2n (tileBusy s t)

/-- STATE of a tile. -/
def tileState (s : State) (t : Nat) : Nat := s.fld (R.TILE_STATUS_STATE t)

/-- May a parcel of the flow be pushed to the tile (R70, R171)? -/
def permitted (s : State) (flow t : Nat) : Bool :=
  (ctxGet s flow cxMASK).testBit t && decide ((dequeOf s t).length < 64) && tileState s t == stOn

/-- The permitted tile of least load; a tie goes to the tied tile that follows the tile of the previous push (R70). -/
def pushTarget (s : State) (flow : Nat) : Option Nat :=
  ((List.range 32).map (fun i => (s.flows.lastPush + 1 + i) % 32)).foldl
    (fun best t =>
      if permitted s flow t then
        match best with
        | none => some t
        | some b => if tileLoad s t < tileLoad s b then some t else best
      else best) none

/-- A push ends its tile's BACKOFF wait at once (R71). -/
def endBackoff (s : State) (t : Nat) : State :=
  { s with flows := { s.flows with thieves := s.flows.thieves.map (fun e =>
      if e.1 = t then (e.1, { e.2 with backoff := false, searching := false }) else e) } }

/-- Push a landed parcel to a deque, or leave it waiting at the dispatcher (R70). -/
def pushParcel (s : State) (flow seq : Nat) : State :=
  match pushTarget s flow with
  | none => updParcel s flow seq (fun p => { p with st := .waiting })
  | some t =>
    let s1 := updParcel s flow seq (fun p => { p with st := .queued t, tile := t })
    let s2 := setDeque s1 t (dequeOf s1 t ++ [(flow, seq)])
    endBackoff { s2 with flows := { s2.flows with lastPush := t } } t

/-- Move a tile's deque parcels, head first, to other permitted tiles (R171). -/
def redistribute (s : State) (t : Nat) : State :=
  (dequeOf s t).foldl (fun acc fq => pushParcel acc fq.1 fq.2) (setDeque s t [])

/-- A parcel has landed whole: its 4 KiB units are counted and it is pushed, or waits (R67, R70). -/
def parcelLanded (s : State) (flow seq len : Nat) : State :=
  pushParcel (ctxAdd64 s flow 0x20 ((len + 4095) / 4096)) flow seq

/-- A parcel is discarded when it was cut before its flow stopped, at a failed parcel ahead of it (Table 2.5). A parcel
of a stopped flow that has not begun processing leaves its deque; numbers not yet cut are never cut, and retire in their
places. -/
def discardFlow (s : State) (flow : Nat) : State :=
  let mark (p : Parcel) : Parcel :=
    { p with discarded := true,
             st := match p.st with
               | .landing | .waiting | .queued _ => .complete
               | x => x }
  let strip (e : Nat × List (Nat × Nat)) : Option (Nat × List (Nat × Nat)) :=
    let d := e.2.filter (fun x => x.1 != flow)
    if d = [] then none else some (e.1, d)
  { s with flows := { s.flows with
    parcels := s.flows.parcels.map (fun p => if p.flow == flow then mark p else p),
    runs := s.flows.runs.filter (fun r => r.flow != flow),
    voids := s.flows.voids ++ s.flows.runs.filter (fun r => r.flow == flow),
    deques := s.flows.deques.filterMap strip } }

/-! ### Metering (R68) -/

/-- The bytes each side may take in the next 1 µs interval: its rate share, plus what the other side left unused in the
interval that ends, where LEND allows it. -/
def meterInterval (s : State) : State :=
  let h := s.fld R.DISP_PART_HOST_RATE * 1000
  let f := (128 - s.fld R.DISP_PART_HOST_RATE) * 1000
  let lend := s.flag R.DISP_PART_LEND
  let hostLeft := s.flows.hostLimit - s.flows.hostUsed
  let fabLeft := s.flows.fabLimit - s.flows.fabUsed
  { s with flows := { s.flows with
      hostLimit := h + (if lend then min fabLeft f else 0),
      fabLimit := f + (if lend then min hostLeft h else 0),
      hostUsed := s.flows.hostUsed - s.flows.hostLimit,
      fabUsed := s.flows.fabUsed - s.flows.fabLimit } }

end Sys2Proof.Machine
end

