-- ==== Sys2Proof/Machine/NvmeBase.lean ====
section
/-! DEFINITION. Sys2Proof/Machine/NvmeBase.lean: what the rest of the device does to NVMe commands and controllers: their
status (R301, R524), namespaces (R270) and asynchronous events (R294). -/

namespace Sys2Proof.Machine

/-! ### Status codes (Table 9.12): SCT × 256 + SC -/

def scOk : Nat := 0x000
def scInvalidOpcode : Nat := 0x001
def scInvalidField : Nat := 0x002
def scCidConflict : Nat := 0x003
def scDataTransfer : Nat := 0x004
def scInternal : Nat := 0x006
def scAbortRequested : Nat := 0x007
def scAbortSqDel : Nat := 0x008
def scInvalidNs : Nat := 0x00B
def scSequence : Nat := 0x00C
def scSglLength : Nat := 0x00F
def scSanitize : Nat := 0x01D
def scWriteProtected : Nat := 0x020
def scLbaRange : Nat := 0x080
def scCapacity : Nat := 0x081
def scNsNotReady : Nat := 0x082
def scCqInvalid : Nat := 0x100
def scQidInvalid : Nat := 0x101
def scQSize : Nat := 0x102
def scAbortLimit : Nat := 0x103
def scAerLimit : Nat := 0x105
def scFwSlot : Nat := 0x106
def scFwImage : Nat := 0x107
def scVector : Nat := 0x108
def scLogPage : Nat := 0x109
def scFormat : Nat := 0x10A
def scQDeletion : Nat := 0x10C
def scNotSaveable : Nat := 0x10D
def scNotChangeable : Nat := 0x10E
def scNotNsSpecific : Nat := 0x10F
def scNsCapacity : Nat := 0x115
def scNsUnavailable : Nat := 0x116
def scNsAttached : Nat := 0x118
def scNsNotAttached : Nat := 0x11A
def scSelfTest : Nat := 0x11D
/-- Namespace Not Ready while writes are held off: CRD = 1, DNR = 0 (R281); and of an unavailable namespace: DNR = 1 (R484). CRD and DNR
stand at bits 11 and 14 of the 15-bit status field. -/
def scHeldOff : Nat := 0x882
def scUnavailable : Nat := 0x4082
def scWriteFault : Nat := 0x280
def scUnrecovered : Nat := 0x281
def scDeallocated : Nat := 0x287
def scImgFormat : Nat := 0x7C0
def scImgDigest : Nat := 0x7C1
def scImgFit : Nat := 0x7C2
def scInUse : Nat := 0x7C3
def scClass : Nat := 0x7C4
def scCpTime : Nat := 0x7C5
def scCpFailed : Nat := 0x7C6
def scCpException : Nat := 0x7C7
def scRequalify : Nat := 0x7C8

/-! ### Commands and namespaces -/

/-- The outstanding command of a number. -/
def findCmd (s : State) (id : Nat) : Option Cmd := s.nvme.cmds.find? (fun c => c.id == id)

/-- Change an outstanding command. -/
def updCmd (s : State) (id : Nat) (g : Cmd → Cmd) : State :=
  { s with nvme := { s.nvme with cmds := s.nvme.cmds.map (fun c => if c.id == id then g c else c) } }

/-- Give a command a status, where it has none yet. -/
def failCmd (s : State) (id st : Nat) : State :=
  updCmd s id (fun c => if c.status = 0 then { c with status := st } else c)

/-- A namespace, where it exists. -/
def nsOf (s : State) (nsid : Nat) : Option Ns := tblGet none s.nvme.nss nsid

/-- Logical sectors of 4 KiB in a logical block (R270, R314). -/
def nsSpb (n : Ns) : Nat := if n.lbaf = 0 then 1 else 4

/-- Logical sectors of a namespace. -/
def nsSectors (n : Ns) : Nat := n.nsze * nsSpb n

/-! ### Asynchronous events (R294) -/

/-- A controller. -/
def ctrlOf (s : State) (c : Nat) : Ctrl := tblGet Ctrl.reset s.nvme.ctrls c
def setCtrl (s : State) (c : Nat) (x : Ctrl) : State :=
  { s with nvme := { s.nvme with ctrls := tblSet Ctrl.reset s.nvme.ctrls c x } }

/-- The oldest Asynchronous Event Request of a controller that waits. -/
def waitingAer (s : State) (ctrl : Nat) : Option Cmd :=
  s.nvme.cmds.find? (fun c => c.op == .asyncEvent && c.st == .started &&
    (match c.src with | .host k _ _ => k.val == ctrl | .mi => false))

/-- Report an event to the requests of a controller: one that waits completes with it; an event is reported once until
its log page is read. -/
def deliverEvent (s : State) (ctrl : Nat) (e : AEvent) : State :=
  let x := ctrlOf s ctrl
  if x.masked.contains e then s
  else
    match waitingAer s ctrl with
    | some c =>
      updCmd (setCtrl s ctrl { x with masked := x.masked ++ [e], events := x.events.erase e }) c.id
        (fun c => { c with st := .done, dw0 := e.kind + e.info * 256 + 65536 * e.page })
    | none => if x.events.contains e then s else setCtrl s ctrl { x with events := x.events ++ [e] }

/-- Raise an asynchronous event on every enabled controller. -/
def notify (s : State) (kind info page : Nat) : State :=
  [0, 1].foldl (fun acc c => if (ctrlOf acc c).en then deliverEvent acc c ⟨kind, info, page⟩ else acc) s

/-- A vendor event of type 7h: a stopped flow, a window change, a write hold change. -/
def notifyVendor (s : State) (page : Nat) : State := notify s 7 page page

/-- A SMART critical-warning bit is set, with its event (type 1h). -/
def setWarn (s : State) (bit : Nat) : State :=
  if s.nvme.warn.testBit bit then s
  else notify { s with nvme := { s.nvme with warn := s.nvme.warn ||| 2 ^ bit } } 1 0 0x02
def clearWarn (s : State) (bit : Nat) : State :=
  if s.nvme.warn.testBit bit then { s with nvme := { s.nvme with warn := s.nvme.warn - 2 ^ bit } } else s

end Sys2Proof.Machine
end

