-- ==== Sys2Proof/Machine/Code.lean ====
section
/-! DEFINITION. Sys2Proof/Machine/Code.lean: reads of the code store (R429 to R436) and of any global address that holds
bytes (R49 to R51). -/

namespace Sys2Proof.Machine

/-! ### The NOR array -/

/-- Bytes of one erase block, blocks of the die and bytes of one bank (R429). -/
def csBlockSize : Nat := 0x10000
def csBlocks : Nat := 1024

/-- The physical block of a logical block (R431): none where it is unmapped. -/
def csPhys (s : State) (b : Nat) : Option Nat :=
  let p := tblGet b s.code.remap b
  if p < csBlocks then some p else none

/-- A byte of the array by physical address; erased cells read as 1 (R429). -/
def csByte (s : State) (a : Nat) : Byte := tblGet 0xFF s.code.arr a

/-- `n` bytes of the array at a physical address. -/
def csBytes (s : State) (a n : Nat) : List Byte := tblRange 0xFF s.code.arr a n

/-- A byte at a logical byte address as the boot ROM reads it, an unmapped block reading as ones. -/
def csLogical (s : State) (a : Nat) : Byte :=
  match csPhys s (a / csBlockSize) with
  | some p => csByte s (p * csBlockSize + a % csBlockSize)
  | none => 0xFF

/-- `n` bytes at a logical byte address. -/
def csRead (s : State) (a n : Nat) : List Byte := (List.range n).map (fun i => csLogical s (a + i))

/-- OP of CSTORE_STATUS for the operation in progress: the stage of an erase sequence (the verify of step 4 counts with
the array erase), 5 a page program, 6 a record program. -/
def csOpCode (o : CsOp) : Nat :=
  if o.op = 2 then 5 else if o.op = 3 then 6
  else match o.stage with
    | 1 => 1
    | 2 => 2
    | 3 | 4 => 3
    | _ => 4

/-- The busy bank (R435): the bank of the operation in progress. -/
def csBusyBank (s : State) : Option Nat := s.code.op.map (fun o => o.block / 256)

/-- Is a logical block execute-only (R436)? -/
def csXo (s : State) (b : Nat) : Bool :=
  (List.range 8).any (fun n =>
    s.flag (R.CSTORE_XO_VALID n) && decide (s.fld (R.CSTORE_XO_BASE n) ≤ b) &&
      decide (b < s.fld (R.CSTORE_XO_BASE n) + s.fld (R.CSTORE_XO_COUNT n)))

/-- The source codes of CSTORE_XOVIOL. -/
def xoHouse : Nat := 0
def xoDma : Nat := 1
def xoDigest : Nat := 2
def xoDecode : Nat := 3
def xoOther : Nat := 4

/-- Does a read of `n` bytes at a logical address touch an execute-only block? -/
def csXoHit (s : State) (a n : Nat) : Bool := n != 0 && (csXo s (a / csBlockSize) || csXo s ((a + n - 1) / csBlockSize))

/-- Does a read of `n` bytes at a logical address touch the busy bank? -/
def csBusyHit (s : State) (a n : Nat) : Bool :=
  (List.range (n / 4 + 2)).any (fun i =>
    let x := min (a + 4 * i) (a + n - 1)
    match csPhys s (x / csBlockSize) with
    | some p => some (p / 256) == csBusyBank s
    | none => false)

/-- The byte of a status word at an address (R435); the progress is a free value. -/
def csStatusByte (s : State) (a : Nat) (o : CsOp) : Byte :=
  match a % 4 with
  | 0 => Config.freeByte s.free
  | 1 => BitVec.ofNat 8 (csOpCode o * 16)
  | _ => 0xB5

/-- A data read of `n` bytes of the code-store window (R431, R435, R436) by a source of CSTORE_XOVIOL. -/
def csDataRead (s : State) (a n src : Nat) : List Byte × State :=
  if csXoHit s a n then
    let s1 := (s.addWrap R.CSTORE_XOVCNT_COUNT 1).raise R.CSTORE_ISR_XOVIOL
    let first := (List.range n).find? (fun i => csXo s ((a + i) / csBlockSize))
    let s2 := s1.capture R.CSTORE_XOVIOL_VALID
      [(R.CSTORE_XOVIOL_ADDR, a + first.getD 0), (R.CSTORE_XOVIOL_SRC, src)]
    ((List.range n).map (fun i => if csXo s ((a + i) / csBlockSize) then (0 : Byte) else csLogical s (a + i)), s2)
  else
    match s.code.op with
    | none => (csRead s a n, s)
    | some o =>
      if csBusyHit s a n then
        ((List.range n).map (fun i =>
          match csPhys s ((a + i) / csBlockSize) with
          | some p => if p / 256 = o.block / 256 then csStatusByte s (a + i) o else csLogical s (a + i)
          | none => 0xFF), (s.fresh).2)
      else (csRead s a n, s)

/-! ### Reads of the global space -/

/-- The boot ROM's bytes. -/
def romRead (o n : Nat) : List Byte := (List.range n).map (fun i => Config.bootRom (o + i))

/-- A read of `n` bytes at a global address by a bus agent that is no Siriz core: the bytes, the state, and the first
uncorrectable word's address; none is a bus error (R49 to R53). Register space is read by its own operation. -/
def readGlobal (s : State) (a n src : Nat) : Option (List Byte × State × Option Nat) :=
  if n = 0 then some ([], s, none)
  else
    let t0 := targetOf s a
    let t1 := targetOf s (a + n - 1)
    if ramTarget t0 && ramTarget t1 then some (readRam s a n)
    else
      match t0, t1 with
      | .code o, .code _ =>
        let r := csDataRead s o n src
        some (r.1, r.2, none)
      | .rom o, .rom _ => some (romRead o n, s, none)
      | _, _ => none

/-- Flow-context SRAM takes writes of house cores alone (R58). -/
def isFlowCtx (t : Target) : Bool :=
  match t with
  | .flowCtx _ => true
  | _ => false

/-- A write of bytes at a global address by the device itself (no core, no host, no peer): none is a bus error, which
flow-context SRAM raises too (R58). -/
def writeGlobal (s : State) (a : Nat) (bs : List Byte) : Option State :=
  if bs = [] then some s
  else if ramTarget (targetOf s a) && ramTarget (targetOf s (a + bs.length - 1)) && !isFlowCtx (targetOf s a) &&
      !isFlowCtx (targetOf s (a + bs.length - 1)) then
    some (writeMem s a bs none tagLocal)
  else none

end Sys2Proof.Machine
end

