-- ==== Sys2Proof/Machine/Cache.lean ====
section
/-! DEFINITION. Sys2Proof/Machine/Cache.lean: the caches of a core and its eviction buffer (R160 to R168, R175). Lines are
found by their global address; the set is the address's bits [12:6] on a tile core and [13:6] on a house core. -/

namespace Sys2Proof.Machine

/-- Sets of each cache of a core (R161): 128 on a tile core, 256 on a house core. -/
def cacheSets (c : Nat) : Nat := if c < 32 then 128 else 256

/-- The line address of a global address. -/
def lineOf (a : Nat) : Nat := a / 64 * 64

/-- The slot (set × 4 + way) of the line of address `a`, if the cache holds it. -/
def findWay (k : Cache) (sets a : Nat) : Option (Nat × Line) :=
  let set := a / 64 % sets
  (List.range 4).foldl (fun r w =>
    match r with
    | some x => some x
    | none =>
      match tblGet none k.lines (set * 4 + w) with
      | some l => if l.addr = lineOf a then some (set * 4 + w, l) else none
      | none => none) none

/-- The slot to fill in a line's set: an empty way, lowest first, else the least recently used (R161). -/
def victimSlot (k : Cache) (sets a : Nat) : Nat × Option Line :=
  let set := a / 64 % sets
  (List.range 4).foldl (fun r w =>
    match tblGet none k.lines (set * 4 + w), r.2 with
    | none, some _ => (set * 4 + w, none)
    | some l, some v => if l.stamp < v.stamp then (set * 4 + w, some l) else r
    | _, none => r) (set * 4, tblGet none k.lines (set * 4))

/-- Put a line in a slot, most recently used. -/
def putLine (k : Cache) (slot : Nat) (l : Line) : Cache :=
  { lines := tblSet none k.lines slot (some { l with stamp := k.clock }), clock := k.clock + 1 }

/-- Empty a slot. -/
def dropLine (k : Cache) (slot : Nat) : Cache := { k with lines := tblSet none k.lines slot none }

/-- Make a slot's line most recently used. -/
def touchLine (k : Cache) (slot : Nat) : Cache :=
  match tblGet none k.lines slot with
  | some l => putLine k slot l
  | none => k

/-- Is a global address in the flow context of a bound flow, whose words take no write while VALID is 1 (R58)? -/
def boundCtx (s : State) (a : Nat) : Bool :=
  match targetOf s a with
  | .flowCtx flow => s.memNat (flowCtxBase + flow * 64) 4 % 2 == 1
  | _ => false

/-- A write of RAM by a core: ignored in a bound flow's context, with FLOW_STATUS.CFGERR (R58). -/
def coreWrite (s : State) (c a : Nat) (bs : List Byte) : State :=
  if boundCtx s a then setCfgErr s .flow else writeMem s a bs (some c) tagLocal

/-- Write a line to memory: intact words as they are, an uncorrectable word as a poisoned one (R174, R175). -/
def storeLine (s : State) (c : Nat) (e : EvEnt) : State :=
  if boundCtx s e.addr then setCfgErr s .flow
  else
    let s1 := coreWrite s c e.addr e.data
    e.syn.foldl (fun (acc : State) x =>
      match eccDecode (leAt e.data (8 * x.1) 8) x.2 with
      | .ok => acc
      | .corrected d => acc.putBytes (e.addr + 8 * x.1) (leBytes 8 d)
      | .uncorrectable =>
        (match targetOf acc e.addr with
         | .dram => (setDramMark acc e.addr 3).raise R.DRAM_ISR_POISON
         | _ => setSyn acc (e.addr + 8 * x.1) 0xFF).raise R.ECC_ISR_POISON) s1

/-- Write the oldest entry of a core's eviction buffer to memory (R162, R163). -/
def evictHead (s : State) (c : Nat) : State :=
  match (s.core c).ev with
  | [] => s
  | e :: r => storeLine (s.setCore c { s.core c with ev := r }) c e

/-- Write every entry of a core's eviction buffer to memory, in entry order. -/
def evictAll (s : State) (c : Nat) : Nat → State
  | 0 => s
  | n + 1 => evictAll (evictHead s c) c n

/-- Copy a dirty line into the eviction buffer; with all 8 entries occupied, one is written first (R162). -/
def evictPush (s : State) (c : Nat) (l : Line) : State :=
  let s1 := if 8 ≤ (s.core c).ev.length then evictHead s c else s
  s1.setCore c { s1.core c with ev := (s1.core c).ev ++ [⟨l.addr, l.data, l.syn⟩] }

/-- Clean one slot of a core's data cache: a dirty line is copied to the eviction buffer and stays valid, clean (R163). -/
def cleanSlot (s : State) (c slot : Nat) : State :=
  match tblGet none (s.core c).dc.lines slot with
  | some l =>
    if l.dirty then
      let s1 := evictPush s c l
      let k := s1.core c
      s1.setCore c { k with dc := { k.dc with lines := tblSet none k.dc.lines slot (some { l with dirty := false }) } }
    else s
  | none => s

/-- Discard one slot of a core's data cache. -/
def dropSlot (s : State) (c slot : Nat) : State :=
  s.setCore c { s.core c with dc := dropLine (s.core c).dc slot }

/-- Discard one slot of a core's instruction cache. -/
def dropISlot (s : State) (c slot : Nat) : State :=
  s.setCore c { s.core c with ic := dropLine (s.core c).ic slot }

/-- Clean every line of a core's data cache, in slot order. -/
def cleanAll (s : State) (c : Nat) : State :=
  (tblKeys (s.core c).dc.lines).foldl (fun acc k => cleanSlot acc c k) s

/-- Discard every line of a core's data cache; dirty lines are lost (R165, R166). -/
def dropAll (s : State) (c : Nat) : State := s.setCore c { s.core c with dc := Cache.empty }

/-- Discard every line of a core's instruction cache. -/
def dropAllI (s : State) (c : Nat) : State := s.setCore c { s.core c with ic := Cache.empty }

/-- Take the newest entry of a line out of the eviction buffer: the write-back is cancelled (R162). -/
def takeEvict (ev : List EvEnt) (a : Nat) : Option (EvEnt × List EvEnt) :=
  match ev.reverse.find? (fun e => e.addr == lineOf a) with
  | none => none
  | some e => some (e, (ev.reverse.erase e).reverse)

/-- Make room in a line's set, a dirty victim going to the eviction buffer; the slot to fill. -/
def makeRoom (s : State) (c a : Nat) : State × Nat :=
  let v := victimSlot (s.core c).dc (cacheSets c) a
  match v.2 with
  | some l => (dropSlot (if l.dirty then evictPush s c l else s) c v.1, v.1)
  | none => (s, v.1)

/-- Make room in a line's set of the instruction cache. -/
def makeRoomI (s : State) (c a : Nat) : State × Nat :=
  let v := victimSlot (s.core c).ic (cacheSets c) a
  (dropISlot s c v.1, v.1)

/-- The cache control fields of a core: TILE_CCTRL or SYS_HCCTRLn. -/
def ccFld (c : Nat) (lo : Nat) : Fld := if c < 32 then ⟨0x400014 + 0x10000 * c, lo, 1⟩ else ⟨0x40 + (c - 32) * 4, lo, 1⟩
def ccIcEn (c : Nat) : Fld := ccFld c 0
def ccDcEn (c : Nat) : Fld := ccFld c 1
def ccIcOk (c : Nat) : Fld := ccFld c 8
def ccDcOk (c : Nat) : Fld := ccFld c 9
def ccBusy (c : Nat) : Fld := ccFld c 12
def ccErr (c : Nat) : Fld := ccFld c 16

/-- A refused cache enable (R165): CERR, and on a tile TILE_ISR.CERR and the copy in TILE_CIRQ. -/
def cacheErr (s : State) (c : Nat) : State :=
  let s1 := s.raise (ccErr c)
  if c < 32 then (s1.raise (R.TILE_ISR_CERR c)).raise (R.TILE_CIRQ_CERR c) else s1

/-- A tile reset's part on the caches (R169 step 3): the data cache cleaned and invalidated, the instruction cache
invalidated, IC_OK and DC_OK 1, the enables kept. The written-back lines reach memory. -/
def resetCaches (s : State) (c : Nat) : State :=
  let s1 := cleanAll s c
  let s2 := evictAll s1 c (s1.core c).ev.length
  ((dropAllI (dropAll s2 c) c).setFlds [(ccIcOk c, 1), (ccDcOk c, 1), (ccBusy c, 0)])

end Sys2Proof.Machine
end

