-- ==== Sys2Proof/Machine/Digests.lean ====
section
/-! DEFINITION. Sys2Proof/Machine/Digests.lean: the check value of blocks (CRC-32C, R219) and the digests that images and
the DIGEST block use (R6: SHA-256, SHA-384, SHA-512 and SHA3-256 as FIPS 180-4 and FIPS 202 give them). -/

namespace Sys2Proof.Machine

/-! ### CRC-32C (Table 7.4) -/

/-- One bit of the reflected CRC. -/
def crcBit (c : Nat) : Nat := if c % 2 = 1 then (c / 2) ^^^ 0x82F63B78 else c / 2

/-- Eight bits of the reflected CRC. -/
def crcByteShift (c : Nat) : Nat := crcBit (crcBit (crcBit (crcBit (crcBit (crcBit (crcBit (crcBit c)))))))

/-- The CRC register after a byte. -/
def crcStep (c : Nat) (b : Byte) : Nat := crcByteShift (c ^^^ b.toNat)

/-- CRC-32C of a byte list (R219). -/
def crc32c (bs : List Byte) : Nat := (bs.foldl crcStep 0xFFFFFFFF) ^^^ 0xFFFFFFFF

/-! ### SHA-2 -/

/-- Right rotation of a `w`-bit number. -/
def rotrN (w x n : Nat) : Nat := (x >>> n ||| (x <<< (w - n))) % 2 ^ w

/-- The complement of a `w`-bit number. -/
def notN (w x : Nat) : Nat := 2 ^ w - 1 - x

/-- The big-endian number a list of bytes spells. -/
def beNat (bs : List Byte) : Nat := bs.foldl (fun n b => n * 256 + b.toNat) 0

/-- The `n` big-endian bytes of a number. -/
def beBytes (n v : Nat) : List Byte := (leBytes n v).reverse

/-- A SHA-2 variant: word width, rounds, the rotation amounts of the two schedule functions and the two round
functions, and the round constants. -/
structure ShaParams where
  width : Nat
  rounds : Nat
  s0 : Nat × Nat × Nat
  s1 : Nat × Nat × Nat
  b0 : Nat × Nat × Nat
  b1 : Nat × Nat × Nat
  k : List Nat
  deriving DecidableEq, Repr

def shaK256 : List Nat :=
  [0x428a2f98, 0x71374491, 0xb5c0fbcf, 0xe9b5dba5, 0x3956c25b, 0x59f111f1, 0x923f82a4, 0xab1c5ed5] ++
  [0xd807aa98, 0x12835b01, 0x243185be, 0x550c7dc3, 0x72be5d74, 0x80deb1fe, 0x9bdc06a7, 0xc19bf174] ++
  [0xe49b69c1, 0xefbe4786, 0xfc19dc6, 0x240ca1cc, 0x2de92c6f, 0x4a7484aa, 0x5cb0a9dc, 0x76f988da] ++
  [0x983e5152, 0xa831c66d, 0xb00327c8, 0xbf597fc7, 0xc6e00bf3, 0xd5a79147, 0x6ca6351, 0x14292967] ++
  [0x27b70a85, 0x2e1b2138, 0x4d2c6dfc, 0x53380d13, 0x650a7354, 0x766a0abb, 0x81c2c92e, 0x92722c85] ++
  [0xa2bfe8a1, 0xa81a664b, 0xc24b8b70, 0xc76c51a3, 0xd192e819, 0xd6990624, 0xf40e3585, 0x106aa070] ++
  [0x19a4c116, 0x1e376c08, 0x2748774c, 0x34b0bcb5, 0x391c0cb3, 0x4ed8aa4a, 0x5b9cca4f, 0x682e6ff3] ++
  [0x748f82ee, 0x78a5636f, 0x84c87814, 0x8cc70208, 0x90befffa, 0xa4506ceb, 0xbef9a3f7, 0xc67178f2]

def shaK512 : List Nat :=
  [0x428a2f98d728ae22, 0x7137449123ef65cd, 0xb5c0fbcfec4d3b2f, 0xe9b5dba58189dbbc, 0x3956c25bf348b538] ++
  [0x59f111f1b605d019, 0x923f82a4af194f9b, 0xab1c5ed5da6d8118, 0xd807aa98a3030242, 0x12835b0145706fbe] ++
  [0x243185be4ee4b28c, 0x550c7dc3d5ffb4e2, 0x72be5d74f27b896f, 0x80deb1fe3b1696b1, 0x9bdc06a725c71235] ++
  [0xc19bf174cf692694, 0xe49b69c19ef14ad2, 0xefbe4786384f25e3, 0xfc19dc68b8cd5b5, 0x240ca1cc77ac9c65] ++
  [0x2de92c6f592b0275, 0x4a7484aa6ea6e483, 0x5cb0a9dcbd41fbd4, 0x76f988da831153b5, 0x983e5152ee66dfab] ++
  [0xa831c66d2db43210, 0xb00327c898fb213f, 0xbf597fc7beef0ee4, 0xc6e00bf33da88fc2, 0xd5a79147930aa725] ++
  [0x6ca6351e003826f, 0x142929670a0e6e70, 0x27b70a8546d22ffc, 0x2e1b21385c26c926, 0x4d2c6dfc5ac42aed] ++
  [0x53380d139d95b3df, 0x650a73548baf63de, 0x766a0abb3c77b2a8, 0x81c2c92e47edaee6, 0x92722c851482353b] ++
  [0xa2bfe8a14cf10364, 0xa81a664bbc423001, 0xc24b8b70d0f89791, 0xc76c51a30654be30, 0xd192e819d6ef5218] ++
  [0xd69906245565a910, 0xf40e35855771202a, 0x106aa07032bbd1b8, 0x19a4c116b8d2d0c8, 0x1e376c085141ab53] ++
  [0x2748774cdf8eeb99, 0x34b0bcb5e19b48a8, 0x391c0cb3c5c95a63, 0x4ed8aa4ae3418acb, 0x5b9cca4f7763e373] ++
  [0x682e6ff3d6b2b8a3, 0x748f82ee5defb2fc, 0x78a5636f43172f60, 0x84c87814a1f0ab72, 0x8cc702081a6439ec] ++
  [0x90befffa23631e28, 0xa4506cebde82bde9, 0xbef9a3f7b2c67915, 0xc67178f2e372532b, 0xca273eceea26619c] ++
  [0xd186b8c721c0c207, 0xeada7dd6cde0eb1e, 0xf57d4f7fee6ed178, 0x6f067aa72176fba, 0xa637dc5a2c898a6] ++
  [0x113f9804bef90dae, 0x1b710b35131c471b, 0x28db77f523047d84, 0x32caab7b40c72493, 0x3c9ebe0a15c9bebc] ++
  [0x431d67c49c100d4c, 0x4cc5d4becb3e42b6, 0x597f299cfc657e2a, 0x5fcb6fab3ad6faec, 0x6c44198c4a475817]

def shaH256 : List Nat := [0x6a09e667, 0xbb67ae85, 0x3c6ef372, 0xa54ff53a, 0x510e527f, 0x9b05688c, 0x1f83d9ab, 0x5be0cd19]
def shaH384 : List Nat := [0xcbbb9d5dc1059ed8, 0x629a292a367cd507, 0x9159015a3070dd17, 0x152fecd8f70e5939, 0x67332667ffc00b31, 0x8eb44a8768581511, 0xdb0c2e0d64f98fa7, 0x47b5481dbefa4fa4]
def shaH512 : List Nat := [0x6a09e667f3bcc908, 0xbb67ae8584caa73b, 0x3c6ef372fe94f82b, 0xa54ff53a5f1d36f1, 0x510e527fade682d1, 0x9b05688c2b3e6c1f, 0x1f83d9abfb41bd6b, 0x5be0cd19137e2179]

def sha256Params : ShaParams := ⟨32, 64, (7, 18, 3), (17, 19, 10), (2, 13, 22), (6, 11, 25), shaK256⟩
def sha512Params : ShaParams := ⟨64, 80, (1, 8, 7), (19, 61, 6), (28, 34, 39), (14, 18, 41), shaK512⟩

/-- The message schedule, newest word first, extended by `n` words. -/
def shaExtend (p : ShaParams) (ws : List Nat) : Nat → List Nat
  | 0 => ws
  | n + 1 =>
    let w2 := ws.getD 1 0
    let w7 := ws.getD 6 0
    let w15 := ws.getD 14 0
    let w16 := ws.getD 15 0
    let a := rotrN p.width w15 p.s0.1 ^^^ rotrN p.width w15 p.s0.2.1 ^^^ (w15 >>> p.s0.2.2)
    let b := rotrN p.width w2 p.s1.1 ^^^ rotrN p.width w2 p.s1.2.1 ^^^ (w2 >>> p.s1.2.2)
    shaExtend p (((w16 + a + w7 + b) % 2 ^ p.width) :: ws) n

/-- One round: the working variables a to h, a round constant and a schedule word. -/
def shaRound (p : ShaParams) (v : List Nat) (k w : Nat) : List Nat :=
  match v with
  | [a, b, c, d, e, f, g, h] =>
    let s1 := rotrN p.width e p.b1.1 ^^^ rotrN p.width e p.b1.2.1 ^^^ rotrN p.width e p.b1.2.2
    let ch := (e &&& f) ^^^ (notN p.width e &&& g)
    let t1 := h + s1 + ch + k + w
    let s0 := rotrN p.width a p.b0.1 ^^^ rotrN p.width a p.b0.2.1 ^^^ rotrN p.width a p.b0.2.2
    let mj := (a &&& b) ^^^ (a &&& c) ^^^ (b &&& c)
    [(t1 + s0 + mj) % 2 ^ p.width, a, b, c, (d + t1) % 2 ^ p.width, e, f, g]
  | _ => v

/-- The hash value after one block of 16 words. -/
def shaBlock (p : ShaParams) (hv : List Nat) (block : List Byte) : List Nat :=
  let n := p.width / 8
  let ws := (List.range 16).map (fun i => beNat ((block.drop (i * n)).take n))
  let sched := (shaExtend p ws.reverse (p.rounds - 16)).reverse
  let v := (p.k.zip sched).foldl (fun v kw => shaRound p v kw.1 kw.2) hv
  List.zipWith (fun a b => (a + b) % 2 ^ p.width) hv v

/-- The hash value after `n` blocks of `bl` bytes. -/
def shaBlocks (p : ShaParams) (bl : Nat) (hv : List Nat) (bs : List Byte) : Nat → List Nat
  | 0 => hv
  | n + 1 => shaBlocks p bl (shaBlock p hv (bs.take bl)) (bs.drop bl) n

/-- The padding of a SHA-2 message of `len` bytes. -/
def shaPad (bl lenBytes len : Nat) : List Byte :=
  let used := (len + 1 + lenBytes) % bl
  0x80 :: (List.replicate (if used = 0 then 0 else bl - used) 0 ++ beBytes lenBytes (8 * len))

/-- A SHA-2 digest of `out` bytes. -/
def sha2 (p : ShaParams) (iv : List Nat) (out : Nat) (bs : List Byte) : List Byte :=
  let bl := p.width * 2
  let msg := bs ++ shaPad bl (p.width / 4) bs.length
  ((shaBlocks p bl iv msg (msg.length / bl)).flatMap (beBytes (p.width / 8))).take out

def sha256 (bs : List Byte) : List Byte := sha2 sha256Params shaH256 32 bs
def sha384 (bs : List Byte) : List Byte := sha2 sha512Params shaH384 48 bs
def sha512 (bs : List Byte) : List Byte := sha2 sha512Params shaH512 64 bs

/-! ### SHA3-256 -/

def keccakRc : List Nat :=
  [0x1, 0x8082, 0x800000000000808a, 0x8000000080008000, 0x808b, 0x80000001] ++
  [0x8000000080008081, 0x8000000000008009, 0x8a, 0x88, 0x80008009, 0x8000000a] ++
  [0x8000808b, 0x800000000000008b, 0x8000000000008089, 0x8000000000008003, 0x8000000000008002, 0x8000000000000080] ++
  [0x800a, 0x800000008000000a, 0x8000000080008081, 0x8000000000008080, 0x80000001, 0x8000000080008008]

/-- The rotation amounts of lane x + 5y. -/
def keccakRot : List Nat := [0, 1, 62, 28, 27, 36, 44, 6, 55, 20, 3, 10, 43, 25, 39, 41, 45, 15, 21, 8, 18, 2, 61, 56, 14]

/-- One round of Keccak-f[1600] on 25 lanes, lane x + 5y. -/
def keccakRound (a : List Nat) (rc : Nat) : List Nat :=
  let l (i : Nat) : Nat := a.getD i 0
  let c (x : Nat) : Nat := l x ^^^ l (x + 5) ^^^ l (x + 10) ^^^ l (x + 15) ^^^ l (x + 20)
  let d (x : Nat) : Nat := c ((x + 4) % 5) ^^^ rotrN 64 (c ((x + 1) % 5)) 63
  let th := (List.range 25).map (fun i => l i ^^^ d (i % 5))
  let rotl (v n : Nat) : Nat := if n = 0 then v else rotrN 64 v (64 - n)
  -- b[y, 2x + 3y] := rot a[x, y]; so lane (x', y') of b comes from x = (x' + 3 y') mod 5, y = x'
  let b := (List.range 25).map (fun i =>
    let x' := i % 5
    let y' := i / 5
    let src := (x' + 3 * y') % 5 + 5 * x'
    rotl (th.getD src 0) (keccakRot.getD src 0))
  (List.range 25).map (fun i =>
    let x := i % 5
    let y := i / 5
    let v := b.getD i 0 ^^^ (notN 64 (b.getD ((x + 1) % 5 + 5 * y) 0) &&& b.getD ((x + 2) % 5 + 5 * y) 0)
    if i = 0 then v ^^^ rc else v)

/-- Keccak-f[1600]. -/
def keccakF (a : List Nat) : List Nat := keccakRc.foldl keccakRound a

/-- Absorb `n` blocks of 136 bytes. -/
def sha3Absorb (a : List Nat) (bs : List Byte) : Nat → List Nat
  | 0 => a
  | n + 1 =>
    sha3Absorb (keccakF ((List.range 25).map (fun i => a.getD i 0 ^^^ (if i < 17 then leAt bs (8 * i) 8 else 0))))
      (bs.drop 136) n

/-- SHA3-256 (FIPS 202): rate 136 bytes, domain bits 01, pad 10*1. -/
def sha3_256 (bs : List Byte) : List Byte :=
  let r := 136 - bs.length % 136
  let pad : List Byte := if r = 1 then [0x86] else 0x06 :: (List.replicate (r - 2) 0 ++ [0x80])
  let msg := bs ++ pad
  ((sha3Absorb (List.replicate 25 0) msg (msg.length / 136)).flatMap (leBytes 8)).take 32

end Sys2Proof.Machine
end

