-- ==== Sys2Proof/Machine/DmaBase.lean ====
section
/-! DEFINITION. Sys2Proof/Machine/DmaBase.lean: the DMA channels' ownership, states, events and completion records (R390
to R405): what the register writes, tile resets and the channels' instructions share. -/

namespace Sys2Proof.Machine

/-! ### Ownership (R390, R391) -/

/-- A claimant: KIND and ID of an OWN register (1 house core, 2 class A, 3 tile). A requester that may own nothing is given
KIND 4, and one that cannot reach the block at all (R54, R391) KIND 5; neither is ever held. -/
abbrev Who := Nat × Nat

/-- The claimant a requester of register space is. -/
def whoOf (rq : Requester) : Who :=
  match rq with
  | .core c => if c.val < 32 then (5, 0) else (1, c.val - 32)
  | .classA k => (2, k.val + 1)
  | .classD => (4, 0)
  | .dma _ => (5, 0)

/-- The claimant behind a channel command. -/
def dmaWho (v : DmaVia) : Who :=
  match v with
  | .reg rq => whoOf rq
  | .tile t => (3, t.val)

def dmaOf (s : State) (ch : Nat) : DmaCh := tblGet DmaCh.reset s.dmas ch
def setDma (s : State) (ch : Nat) (x : DmaCh) : State := { s with dmas := tblSet DmaCh.reset s.dmas ch x }

/-- The owner of a channel. -/
def dmaOwner (s : State) (ch : Nat) : Who := (s.fld (R.DMA_CH_OWN_KIND ch), s.fld (R.DMA_CH_OWN_ID ch))

/-- CSTATE of a channel and its values (Table 13.2). -/
def dmaState (s : State) (ch : Nat) : Nat := s.fld (R.DMA_CH_STAT_CSTATE ch)
def setDmaState (s : State) (ch v : Nat) : State := s.setFld (R.DMA_CH_STAT_CSTATE ch) v
def dmaIdle : Nat := 0
def dmaRunning : Nat := 1
def dmaWaiting : Nat := 2
def dmaPausing : Nat := 3
def dmaPaused : Nat := 4
def dmaError : Nat := 5
def dmaRecWait : Nat := 6

/-- The statuses of Table 13.6. -/
def dmaOk : Nat := 0
def dmaSignal : Nat := 1
def dmaBadProg : Nat := 2
def dmaRange : Nat := 3
def dmaBus : Nat := 4
def dmaEcc : Nat := 5
def dmaWaitTo : Nat := 6
def dmaAlign : Nat := 7
def dmaAborted : Nat := 8
def dmaBadDesc : Nat := 9

/-- The address of the current instruction or descriptor. -/
def dmaPc (s : State) (ch : Nat) : Nat := s.fld (R.DMA_CH_PCLO_PCLO ch) + 2 ^ 32 * s.fld (R.DMA_CH_PCHI_PCHI ch)
def setDmaPc (s : State) (ch a : Nat) : State :=
  s.setFlds [(R.DMA_CH_PCLO_PCLO ch, a), (R.DMA_CH_PCHI_PCHI ch, a / 2 ^ 32)]

/-- PROG of a channel. -/
def dmaProg (s : State) (ch : Nat) : Nat :=
  s.fld (R.DMA_CH_PROGLO_PROGLO ch) + 2 ^ 32 * s.fld (R.DMA_CH_PROGHI_PROGHI ch)

/-- Is the channel a descriptor channel? -/
def dmaIsDesc (ch : Nat) : Bool := decide (56 ≤ ch)

/-- A refused claim or drive sets CLAIMERR in the claimant's block (R22). -/
def dmaRefuse (s : State) (who : Who) : State :=
  if who.1 = 3 then setClaimErr s (.tile (Fin.ofNat 32 who.2)) else if who.1 = 5 then s else setClaimErr s .dma

/-- A claim (R390): a free channel is taken; a tile takes no descriptor channel. -/
def dmaClaim (s : State) (ch : Nat) (who : Who) : State :=
  if s.fld (R.DMA_CH_OWN_KIND ch) ≠ 0 ∨ 4 ≤ who.1 ∨ (who.1 = 3 ∧ dmaIsDesc ch) then dmaRefuse s who
  else s.setFlds [(R.DMA_CH_OWN_KIND ch, who.1), (R.DMA_CH_OWN_ID ch, who.2)]

/-- A release (R391): by the owner, in IDLE or ERROR. -/
def dmaRelease (s : State) (ch : Nat) (who : Who) : State :=
  if dmaOwner s ch = who ∧ (dmaState s ch = dmaIdle ∨ dmaState s ch = dmaError) then
    s.setFlds [(R.DMA_CH_OWN_KIND ch, 0), (R.DMA_CH_OWN_ID ch, 0)]
  else dmaRefuse s who

/-- Claims that arrive in one cycle resolve by Table 13.1: the rank of a claimant, class D below every other (R419). -/
def claimRank (w : Who) : Nat :=
  if w.1 = 1 then w.2 else if w.1 = 2 then 3 + w.2 else if w.1 = 3 then 6 + w.2 else 100

/-- Put a claimant into a list by rank. -/
def rankInsert (w : Who) : List Who → List Who
  | [] => [w]
  | x :: xs => if claimRank w ≤ claimRank x then w :: x :: xs else x :: rankInsert w xs

/-- Claimants by rank. -/
def ranked : List Who → List Who
  | [] => []
  | w :: ws => rankInsert w (ranked ws)

/-- May a tile's channel or context reach `n` bytes at a global address (R392): its window's local memory, and the GiB of
DRAM that TILE_APB selects? -/
def tileReach (s : State) (t a n : Nat) : Bool :=
  let lo := tileLocalAddr t 0
  let d := 2 ^ 30 * s.fld (R.TILE_APB_APB t)
  (decide (lo ≤ a) && decide (a + n ≤ lo + tileLocalSize)) || (decide (d ≤ a) && decide (a + n ≤ d + 2 ^ 30))

/-- May an owner's channel or context reach `n` bytes at a global address, register space apart (R392)? -/
def ownerReach (s : State) (w : Who) (a n : Nat) : Bool := w.1 != 3 || tileReach s w.2 a n

/-! ### Records (R403, R404) -/

/-- The owner mark of a channel's merge-buffer entries. -/
def dmaMergeOwner (ch : Nat) : Nat := 64 + ch

/-- Every earlier write of the channel completes at its target (R176, R399). -/
def dmaDrainWrites (s : State) (ch : Nat) : State := flushMerge s (fun e => e.owner == some (dmaMergeOwner ch))

/-- The 16 bytes of a completion record (Table 13.5). -/
def dmaRecBytes (s : State) (ch tag status phase : Nat) : List Byte :=
  leBytes 4 tag ++ leBytes 4 (s.fld (R.DMA_CH_TOTAL_TOTAL ch)) ++ [BitVec.ofNat 8 ch, BitVec.ofNat 8 status] ++
    List.replicate 5 0 ++ [BitVec.ofNat 8 (phase * 128)]

/-- A write of TILE_DOORBELL: the value, and the doorbell request to the core (R172). -/
def ringDoorbell (s : State) (t v : Nat) : State := (s.setFld (R.TILE_DOORBELL_VALUE t) v).raise (R.TILE_CIRQ_DOORBELL t)

/-- Records of a completion queue not yet consumed. -/
def dmaQueued (s : State) (q : Nat) : Nat :=
  (0x10000 + s.fld (R.DMA_CQ_TAIL_TAIL q) - s.fld (R.DMA_CQ_HEAD_HEAD q)) % 0x10000

/-- Is a completion queue full (R403)? -/
def dmaQueueFull (s : State) (q : Nat) : Bool := dmaQueued s q == 2 ^ s.fld (R.DMA_CQ_SIZE_LOG2 q)

/-- Append a record to a completion queue (R403). -/
def dmaAppend (s : State) (ch q tag status : Nat) : State :=
  let n := 2 ^ s.fld (R.DMA_CQ_SIZE_LOG2 q)
  let tail := s.fld (R.DMA_CQ_TAIL_TAIL q)
  let ph := s.fld (R.DMA_CQ_TAIL_PHASE q)
  let bs := dmaRecBytes s ch tag status ph
  let s1 := (writeGlobal s (0x100000 * s.fld (R.DMA_CQ_BASE_BASE q) + tail % n * 16) bs).getD s
  (s1.setFlds [(R.DMA_CQ_TAIL_TAIL q, tail + 1), (R.DMA_CQ_TAIL_PHASE q, if (tail + 1) % n = 0 then 1 - ph else ph),
    (R.DMA_CH_STAT_LAST ch, status)]).raise R.DMA_ISR_REC

/-- Write a tile's record to its local memory and ring its doorbell (R404). -/
def dmaTileRecord (s : State) (ch t tag status : Nat) : State :=
  let a := tileLocalAddr t (s.fld (R.TILE_DMAREC_ADDR t))
  let s1 := writeMem s a (dmaRecBytes s ch tag status 0) (some (dmaMergeOwner ch)) tagLocal
  ringDoorbell ((dmaDrainWrites s1 ch).setFld (R.DMA_CH_STAT_LAST ch) status) t (0x0D000000 + status * 0x100 + ch)

/-- The state a channel enters once its record is written: IDLE, ERROR (with its event), or on with the next instruction
or descriptor, between which a pending abort waits for its drain (R396). -/
def dmaGoOn (s : State) (ch next : Nat) : State :=
  let x := dmaOf s ch
  let s1 := match x.after with
    | some a => if next = dmaRunning then (setDmaPc s ch a).setFld (R.DMA_CH_DONE_DONE ch) 0 else s
    | none => s
  let s2 := setDma s1 ch { x with hold := none, after := none, abort := x.abort && next == dmaRunning }
  let s3 := setDmaState s2 ch (if next = dmaRunning ∧ x.abort then dmaPausing else next)
  if next = dmaError then s3.raise R.DMA_ISR_ERR else s3

/-- The place a record takes among those that wait. -/
def dmaNextOrd (s : State) : Nat :=
  s.dmas.foldl (fun (n : Nat) (e : Nat × DmaCh) => match e.2.hold with | some r => max n (r.ord + 1) | none => n) 0

/-- A channel produces a record (R403, R404): every write it reports completes first; with its queue full the channel
holds it in RECWAIT. -/
def dmaRecord (s : State) (ch tag status next : Nat) : State :=
  let s1 := dmaDrainWrites s ch
  let who := dmaOwner s ch
  if who.1 = 3 then dmaGoOn (dmaTileRecord s1 ch who.2 tag status) ch next
  else
    let q := s.fld (R.DMA_CH_CTRL_CQ ch)
    if dmaQueueFull s1 q then
      let x := dmaOf s1 ch
      (setDmaState (setDma s1 ch { x with hold := some ⟨tag, status, next, dmaNextOrd s1⟩ }) ch dmaRecWait).raise
        R.DMA_ISR_CQFULL
    else dmaGoOn (dmaAppend s1 ch q tag status) ch next

/-- The failing address of a channel (DMA_CHn_ERRA). -/
def setDmaErra (s : State) (ch a : Nat) : State :=
  s.setFlds [(R.DMA_CH_ERRALO_ERRALO ch, a), (R.DMA_CH_ERRAHI_ERRAHI ch, a / 2 ^ 32)]

/-- A channel ends with a status other than OK and SIGNAL (R405); `at?`: the address of the failing access; a status that
no access failed for leaves the address open, a free value. -/
def dmaFail (s : State) (ch status : Nat) (at? : Option Nat) : State :=
  let s1 := match at? with
    | some a => setDmaErra s ch a
    | none =>
      let f := s.fresh
      let g := f.2.fresh
      g.2.setFlds [(R.DMA_CH_ERRALO_ERRALO ch, (Config.freeWord f.1).toNat), (R.DMA_CH_ERRAHI_ERRAHI ch, (Config.freeWord g.1).toNat)]
  let x := dmaOf s1 ch
  dmaRecord (setDma s1 ch { x with wait := none, abort := false, inWait := false, after := none }) ch 0 status dmaError

/-! ### Go, pause, abort, kick (R394 to R397, R402) -/

/-- May the claimant drive the channel? -/
def dmaOwns (s : State) (ch : Nat) (who : Who) : Bool := dmaOwner s ch == who && who.1 != 0

/-- GO (R394): from IDLE or ERROR, with the block ON. A PAUSE that is held makes the channel enter PAUSED at once. -/
def dmaGo (s : State) (ch : Nat) (who : Who) : State :=
  if ¬ dmaOwns s ch who ∨ ¬ blockOn s .dma ∨ ¬ (dmaState s ch = dmaIdle ∨ dmaState s ch = dmaError) then dmaRefuse s who
  else
    let p := dmaProg s ch
    let s1 := (setDmaPc (setDma s ch DmaCh.reset) ch p).setFlds
      [(R.DMA_CH_ITER_ITER ch, 0), (R.DMA_CH_DONE_DONE ch, 0), (R.DMA_CH_TOTAL_TOTAL ch, 0)]
    if p % (if dmaIsDesc ch then 64 else 32) ≠ 0 then dmaFail s1 ch dmaAlign (some p)
    else setDmaState s1 ch (if s.flag (R.DMA_CH_CTRL_PAUSE ch) then dmaPaused else dmaRunning)

/-- A running or waiting channel begins to drain. -/
def dmaStartPause (s : State) (ch : Nat) : State :=
  if dmaState s ch = dmaRunning ∨ dmaState s ch = dmaWaiting then
    setDmaState (setDma s ch { dmaOf s ch with inWait := dmaState s ch == dmaWaiting }) ch dmaPausing
  else s

/-- Setting PAUSE (R395). -/
def dmaPause (s : State) (ch : Nat) : State := dmaStartPause (s.setFld (R.DMA_CH_CTRL_PAUSE ch) 1) ch

/-- A paused channel goes on: to WAITING if it paused in a wait, else to RUNNING. -/
def dmaResume (s : State) (ch : Nat) : State :=
  let x := dmaOf s ch
  setDmaState (setDma s ch { x with inWait := false, enPause := false }) ch (if x.inWait then dmaWaiting else dmaRunning)

/-- Clearing PAUSE (R395): a PAUSED channel goes on, unless the block's EN holds it (R397). -/
def dmaUnpause (s : State) (ch : Nat) : State :=
  let s1 := s.setFld (R.DMA_CH_CTRL_PAUSE ch) 0
  if dmaState s ch = dmaPaused then
    if blockOn s .dma then dmaResume s1 ch else setDma s1 ch { dmaOf s1 ch with enPause := true }
  else s1

/-- The end that ABORT brings (R396). -/
def dmaEndAborted (s : State) (ch : Nat) : State := dmaFail (s.setFld (R.DMA_CH_CTRL_PAUSE ch) 0) ch dmaAborted none

/-- ABORT (R396): acts as PAUSE, and ends the channel where it would enter PAUSED. -/
def dmaAbort (s : State) (ch : Nat) : State :=
  let x := dmaOf s ch
  if dmaState s ch = dmaPaused then dmaEndAborted s ch
  else if dmaState s ch = dmaRunning ∨ dmaState s ch = dmaWaiting ∨ dmaState s ch = dmaPausing then
    dmaStartPause (setDma s ch { x with abort := true }) ch
  else
    match x.hold with
    | some r => if r.next = dmaRunning then setDma s ch { x with abort := true } else s
    | none => s

/-- The reads of a pausing channel have completed (R395, R396). -/
def dmaDrained (s : State) (ch : Nat) : State :=
  let x := dmaOf s ch
  if dmaState s ch ≠ dmaPausing then s
  else if x.abort then dmaEndAborted s ch
  else if s.flag (R.DMA_CH_CTRL_PAUSE ch) ∨ x.enPause then setDmaState s ch dmaPaused
  else dmaResume s ch

/-- KICK (R402): a descriptor channel that waits reads its descriptor again. -/
def dmaKick (s : State) (ch : Nat) : State :=
  if dmaIsDesc ch ∧ dmaState s ch = dmaWaiting then setDmaState s ch dmaRunning else s

/-- Every channel by number. -/
def dmaAll : List Nat := List.range 64

/-- Clearing DMA_CTRL.EN pauses every channel that runs or waits (R397). -/
def dmaDisable (s : State) : State :=
  dmaAll.foldl (fun acc ch =>
    if dmaState acc ch = dmaRunning ∨ dmaState acc ch = dmaWaiting then
      dmaStartPause (setDma acc ch { dmaOf acc ch with enPause := true }) ch
    else acc) s

/-- The block is ON again: the channels its EN paused go on, unless their own PAUSE is 1 (R397). -/
def dmaEnable (s : State) : State :=
  dmaAll.foldl (fun acc ch =>
    let x := dmaOf acc ch
    if x.enPause then
      if dmaState acc ch = dmaPaused ∧ ¬ acc.flag (R.DMA_CH_CTRL_PAUSE ch) then dmaResume acc ch
      else setDma acc ch { x with enPause := false }
    else acc) s

/-- A tile reset aborts every channel the tile owns; the claim stays (R396). -/
def dmaTileAbort (s : State) (t : Nat) : State :=
  dmaAll.foldl (fun acc ch => if dmaOwner acc ch = (3, t) then dmaAbort acc ch else acc) s

/-- The channels not IDLE (DMA_STATUS.ACTIVE). -/
def dmaActive (s : State) : Nat := (dmaAll.filter (fun ch => dmaState s ch != dmaIdle)).length

/-! ### Events (R400) and queue heads (R403) -/

/-- Set event `e`. -/
def dmaSetEvent (s : State) (e : Nat) : State :=
  s.setFld (R.DMA_EVT_EVT (e / 32)) (s.fld (R.DMA_EVT_EVT (e / 32)) ||| 2 ^ (e % 32))

/-- Clear event `e`. -/
def dmaClearEvent (s : State) (e : Nat) : State :=
  s.setFld (R.DMA_EVT_EVT (e / 32)) (s.fld (R.DMA_EVT_EVT (e / 32)) &&& (0xFFFFFFFF ^^^ 2 ^ (e % 32)))

def dmaEvent (s : State) (e : Nat) : Bool := (s.fld (R.DMA_EVT_EVT (e / 32))).testBit (e % 32)

/-- A write of DMA_EVTSETn sets the events whose bits are 1. -/
def dmaEventSet (s : State) (n v : Nat) : State := s.setFld (R.DMA_EVT_EVT n) (s.fld (R.DMA_EVT_EVT n) ||| (v % 2 ^ 32))

/-- The channels that wait on an event. -/
def dmaWaiters (s : State) (e : Nat) : List Nat :=
  dmaAll.filter (fun ch => dmaState s ch == dmaWaiting && (match (dmaOf s ch).wait with | some w => w.1 == e | none => false))

/-- All channels waiting on a set event wake together; one with CLR clears it (R400). -/
def dmaWake (s : State) (e : Nat) : State :=
  if dmaEvent s e then
    let ws := dmaWaiters s e
    let clr := ws.any (fun ch => match (dmaOf s ch).wait with | some w => w.2.1 | none => false)
    let s1 := ws.foldl (fun acc ch =>
      setDmaState (setDmaPc (setDma acc ch { dmaOf acc ch with wait := none }) ch (dmaPc acc ch + 32)) ch dmaRunning) s
    if clr then dmaClearEvent s1 e else s1
  else s

/-- The channel whose record has waited longest for a queue. -/
def dmaOldest (s : State) (q : Nat) : Option (Nat × DmaRec) :=
  s.dmas.foldl (fun (best : Option (Nat × DmaRec)) (e : Nat × DmaCh) =>
    match e.2.hold with
    | none => best
    | some r =>
      if s.fld (R.DMA_CH_CTRL_CQ e.1) ≠ q then best
      else match best with
        | none => some (e.1, r)
        | some b => if r.ord < b.2.ord then some (e.1, r) else best) none

/-- Write the records that wait for a queue while it has room. -/
def dmaResumeRecords (s : State) (q : Nat) : Nat → State
  | 0 => s
  | n + 1 =>
    if dmaQueueFull s q then s
    else match dmaOldest s q with
      | none => s
      | some (ch, r) => dmaResumeRecords (dmaGoOn (dmaAppend s ch q r.tag r.status) ch r.next) q n

/-- Software advances HEAD (R403). -/
def dmaHeadWrite (s : State) (q v : Nat) : State := dmaResumeRecords (s.setFld (R.DMA_CQ_HEAD_HEAD q) v) q 64

/-! ### The commands -/

/-- Does the claimant hold the channel? If not, the drive is refused (R391). -/
def dmaDrive (s : State) (v : DmaVia) (ch : Nat) (f : State → State) : State :=
  if dmaOwns s ch (dmaWho v) then f s else dmaRefuse s (dmaWho v)

/-- A tile's drive names the channel in TILE_DMA.CH too. -/
def dmaName (s : State) (v : DmaVia) (ch : Nat) : State :=
  match v with
  | .tile t => if ch < 56 then s.setFld (R.TILE_DMA_CH t) ch else s
  | .reg _ => s

/-- The claims of one cycle on a channel, by rank (R390). -/
def execDmaClaim (vs : List DmaVia) (ch : Fin 64) (s : State) : Result :=
  .next ((ranked (vs.map dmaWho)).foldl (fun acc w => dmaClaim acc ch w) (vs.foldl (fun acc v => dmaName acc v ch) s))

def execDmaRelease (v : DmaVia) (ch : Fin 64) (s : State) : Result :=
  .next (if dmaOwns s ch (dmaWho v) then dmaRelease (dmaName s v ch) ch (dmaWho v) else dmaRefuse s (dmaWho v))

/-- GO by a tile starts at the window address of TILE_DMAPROG (the TILE_DMA card). -/
def execDmaGo (v : DmaVia) (ch : Fin 64) (s : State) : Result :=
  .next (dmaDrive s v ch (fun s1 =>
    match v with
    | .reg _ => dmaGo s1 ch (dmaWho v)
    | .tile t =>
      let a := tileLocalAddr t (s1.fld (R.TILE_DMAPROG_ADDR t))
      let s2 := dmaName s1 v ch
      dmaGo (s2.setFlds [(R.DMA_CH_PROGLO_PROGLO ch, a), (R.DMA_CH_PROGHI_PROGHI ch, a / 2 ^ 32)]) ch (dmaWho v)))

def execDmaPause (v : DmaVia) (ch : Fin 64) (s : State) : Result := .next (dmaDrive s v ch (fun s1 => dmaPause (dmaName s1 v ch) ch))

def execDmaUnpause (v : DmaVia) (ch : Fin 64) (s : State) : Result :=
  .next (dmaDrive s v ch (fun s1 => dmaUnpause (dmaName s1 v ch) ch))

def execDmaPauseDrained (ch : Fin 64) (s : State) : Result := .next (dmaDrained s ch)

def execDmaAbort (v : DmaVia) (ch : Fin 64) (s : State) : Result := .next (dmaDrive s v ch (fun s1 => dmaAbort (dmaName s1 v ch) ch))

def execDmaKick (rq : Requester) (ch : Fin 64) (s : State) : Result := .next (dmaDrive s (.reg rq) ch (fun s1 => dmaKick s1 ch))

def execDmaWaitWake (e : Fin 64) (s : State) : Result := .next (dmaWake s e)

/-- A WAIT reaches its TIMEOUT (R399); the time in PAUSING and PAUSED does not count (R395). -/
def execDmaWaitTimeout (ch : Fin 64) (s : State) : Result :=
  .next (match (dmaOf s ch).wait with
    | some w => if dmaState s ch = dmaWaiting ∧ w.2.2 ≠ 0 then dmaFail s ch dmaWaitTo none else s
    | none => s)

def execDmaCqHeadWrite (q : Fin 8) (v : BitVec 16) (s : State) : Result := .next (dmaHeadWrite s q v.toNat)

def execDmaEventSet (n : Fin 2) (v : BitVec 32) (s : State) : Result := .next (dmaEventSet s n v.toNat)

end Sys2Proof.Machine
end

