-- ==== Sys2Proof/Machine/Digest.lean ====
section
/-! DEFINITION. Sys2Proof/Machine/Digest.lean: the digest contexts: ownership, operations, sealing and comparison (R406 to
R413). -/

namespace Sys2Proof.Machine

def digOf (s : State) (n : Nat) : DigCtx := tblGet DigCtx.reset s.digs n
def setDig (s : State) (n : Nat) (x : DigCtx) : State := { s with digs := tblSet DigCtx.reset s.digs n x }

/-- The owner of a context. -/
def digOwner (s : State) (n : Nat) : Who := (s.fld (R.DIGEST_CTX_OWN_KIND n), s.fld (R.DIGEST_CTX_OWN_ID n))

/-- CSTATE of a context and its values. -/
def digState (s : State) (n : Nat) : Nat := s.fld (R.DIGEST_CTX_STAT_CSTATE n)
def setDigState (s : State) (n v : Nat) : State := s.setFld (R.DIGEST_CTX_STAT_CSTATE n) v
def cxIdle : Nat := 0
def cxOpen : Nat := 1
def cxBusy : Nat := 2
def cxDone : Nat := 3
def cxError : Nat := 4

/-- The values of STAT.ERR. -/
def deSeq : Nat := 1
def deShort : Nat := 2
def deBus : Nat := 3
def deEcc : Nat := 4
def deSrc : Nat := 5
def deRange : Nat := 6

/-- A refused claim or drive sets CLAIMERR in the claimant's block (R22). -/
def digRefuse (s : State) (who : Who) : State :=
  if who.1 = 3 then setClaimErr s (.tile (Fin.ofNat 32 who.2)) else if who.1 = 5 then s else setClaimErr s .digest

/-- Clear all state of a context: its registers but OWN, and what it has absorbed. -/
def digWipe (s : State) (n : Nat) : State :=
  (setDig s n DigCtx.reset).setFlds
    [(R.DIGEST_CTX_CTRL_ALG n, 0), (R.DIGEST_CTX_CTRL_SEAL n, 0), (R.DIGEST_CTX_CTRL_SRCCTX n, 0),
     (R.DIGEST_CTX_STAT_CSTATE n, cxIdle), (R.DIGEST_CTX_STAT_TRUNC n, 0), (R.DIGEST_CTX_STAT_ERR n, 0),
     (R.DIGEST_CTX_STAT_SEALED n, 0), (R.DIGEST_CTX_DECLLO_DECLLO n, 0xFFFFFFFF), (R.DIGEST_CTX_DECLHI_DECLHI n, 0xFFFFFFFF),
     (R.DIGEST_CTX_SRCLO_SRCLO n, 0), (R.DIGEST_CTX_SRCHI_SRCHI n, 0), (R.DIGEST_CTX_LEN_LEN n, 0),
     (R.DIGEST_CTX_REFLO_REFLO n, 0), (R.DIGEST_CTX_REFHI_REFHI n, 0), (R.DIGEST_CTX_CMPA_CMPA n, 0),
     (R.DIGEST_CTX_CMPB_CMPB n, 0), (R.DIGEST_CTX_COUNTLO_COUNTLO n, 0), (R.DIGEST_CTX_COUNTHI_COUNTHI n, 0)]

/-- A claim (R407). -/
def digClaim (s : State) (n : Nat) (who : Who) : State :=
  if s.fld (R.DIGEST_CTX_OWN_KIND n) ≠ 0 ∨ 4 ≤ who.1 then digRefuse s who
  else s.setFlds [(R.DIGEST_CTX_OWN_KIND n, who.1), (R.DIGEST_CTX_OWN_ID n, who.2)]

/-- A release (R391, R407): by the owner, in IDLE or ERROR; the context is wiped. -/
def digRelease (s : State) (n : Nat) (who : Who) : State :=
  if digOwner s n = who ∧ who.1 ≠ 0 ∧ (digState s n = cxIdle ∨ digState s n = cxError) then
    (digWipe s n).setFlds [(R.DIGEST_CTX_OWN_KIND n, 0), (R.DIGEST_CTX_OWN_ID n, 0)]
  else digRefuse s who

/-- The digest of a message by ALG (R406). -/
def digestOf (alg : Nat) (m : List Byte) : List Byte :=
  match alg with
  | 0 => sha256 m
  | 1 => sha384 m
  | 2 => sha512 m
  | _ => sha3_256 m

/-- The length of a digest by ALG. -/
def digestLen (alg : Nat) : Nat :=
  match alg with
  | 0 => 32
  | 1 => 48
  | 2 => 64
  | _ => 32

/-- An operation ends. -/
def digEnd (s : State) (n st : Nat) : State := (setDigState s n st).raise R.DIGEST_ISR_DONE

/-- A context enters ERROR. -/
def digFail (s : State) (n err : Nat) : State :=
  ((digEnd s n cxError).setFld (R.DIGEST_CTX_STAT_ERR n) err).raise R.DIGEST_ISR_ERR

/-- Absorb bytes up to DECL (R409). -/
def digAbsorb (s : State) (n : Nat) (bs : List Byte) : State :=
  let x := digOf s n
  let room := if x.decl = 2 ^ 64 - 1 then bs.length else x.decl - x.msg.length
  let s1 := setDig s n { x with msg := x.msg ++ bs.take room }
  let cnt := x.msg.length + min bs.length room
  let s2 := s1.setFlds [(R.DIGEST_CTX_COUNTLO_COUNTLO n, cnt), (R.DIGEST_CTX_COUNTHI_COUNTHI n, cnt / 2 ^ 32)]
  if room < bs.length then (s2.setFld (R.DIGEST_CTX_STAT_TRUNC n) 1).raise R.DIGEST_ISR_TRUNC else s2

/-- Is operation `op` accepted in the context's state (Table 14.1)? -/
def digAccepts (st op : Nat) : Bool :=
  match op with
  | 1 => st == cxIdle || st == cxOpen || st == cxDone || st == cxError
  | 2 | 3 | 4 => st == cxOpen
  | 5 => st == cxDone
  | 6 => st != cxBusy
  | _ => false

/-- INIT. -/
def digInit (s : State) (n alg : Nat) (sealed : Bool) : State :=
  let decl := s.fld (R.DIGEST_CTX_DECLLO_DECLLO n) + 2 ^ 32 * s.fld (R.DIGEST_CTX_DECLHI_DECLHI n)
  digEnd ((setDig s n { DigCtx.reset with alg := alg, decl := decl }).setFlds
    [(R.DIGEST_CTX_CTRL_ALG n, alg), (R.DIGEST_CTX_CTRL_SEAL n, b2n sealed), (R.DIGEST_CTX_STAT_SEALED n, b2n sealed),
     (R.DIGEST_CTX_STAT_TRUNC n, 0), (R.DIGEST_CTX_STAT_ERR n, 0), (R.DIGEST_CTX_CMPA_CMPA n, 0),
     (R.DIGEST_CTX_CMPB_CMPB n, 0), (R.DIGEST_CTX_COUNTLO_COUNTLO n, 0), (R.DIGEST_CTX_COUNTHI_COUNTHI n, 0)]) n cxOpen

/-- FEED starts. -/
def digFeed (s : State) (n : Nat) : State :=
  let src := s.fld (R.DIGEST_CTX_SRCLO_SRCLO n) + 2 ^ 32 * s.fld (R.DIGEST_CTX_SRCHI_SRCHI n)
  setDigState (setDig s n { digOf s n with feed := some (src, s.fld (R.DIGEST_CTX_LEN_LEN n)) }) n cxBusy

/-- A read by the digest engine on behalf of a context's owner (R407, R409): the bytes, or STAT.ERR. -/
def digRead (s : State) (n a len : Nat) : State × Except Nat (List Byte) :=
  if ¬ ownerReach s (digOwner s n) a len then (s, .error deRange)
  else
    match readGlobal s a len xoDigest with
    | none => (s, .error deBus)
    | some (bs, s1, bad) => if bad.isSome then (s1, .error deEcc) else (s1, .ok bs)

/-- A FEED completes (R409). -/
def digFeedDone (s : State) (n : Nat) : State :=
  match (digOf s n).feed with
  | none => s
  | some (src, len) =>
    let s1 := setDig s n { digOf s n with feed := none }
    match digRead s1 n src len with
    | (s2, .ok bs) => digEnd (digAbsorb s2 n bs) n cxOpen
    | (s2, .error e) => digFail s2 n e

/-- FINAL (R409). -/
def digFinal (s : State) (n : Nat) : State :=
  let x := digOf s n
  if x.decl ≠ 2 ^ 64 - 1 ∧ x.msg.length < x.decl then digFail s n deShort
  else digEnd (setDig s n { x with digest := digestOf x.alg x.msg }) n cxDone

/-- ABSORB (Table 14.1): the digest of a DONE context of the same owner, sealed or not. -/
def digAbsorbCtx (s : State) (n src : Nat) : State :=
  let s1 := s.setFld (R.DIGEST_CTX_CTRL_SRCCTX n) src
  if digState s src = cxDone ∧ digOwner s src = digOwner s n then digEnd (digAbsorb s1 n (digOf s src).digest) n cxOpen
  else digFail s1 n deSrc

/-- CMPA for a result. -/
def cmpEqual : Nat := 0x5AC3A53C
def cmpDiffer : Nat := 0xA53C5AC3

/-- COMPARE (R411); `agree`: the two comparators agree. -/
def digCompare (s : State) (n : Nat) (agree : Bool) : State :=
  let x := digOf s n
  let ref := s.fld (R.DIGEST_CTX_REFLO_REFLO n) + 2 ^ 32 * s.fld (R.DIGEST_CTX_REFHI_REFHI n)
  let zero (st : State) : State :=
    (st.setFlds [(R.DIGEST_CTX_CMPA_CMPA n, 0), (R.DIGEST_CTX_CMPB_CMPB n, 0)]).raise R.DIGEST_ISR_CMPFAULT
  match digRead s n ref (digestLen x.alg) with
  | (s1, .error e) => digFail (zero s1) n e
  | (s1, .ok bs) =>
    if ¬ agree then digEnd (zero s1) n cxDone
    else
      let v := if bs = x.digest then cmpEqual else cmpDiffer
      digEnd (s1.setFlds [(R.DIGEST_CTX_CMPA_CMPA n, v), (R.DIGEST_CTX_CMPB_CMPB n, 0xFFFFFFFF - v)]) n cxDone

/-- The RESULT registers of a context (R410). -/
def digResult (s : State) (n k : Nat) : Nat :=
  if digState s n = cxDone ∧ ¬ s.flag (R.DIGEST_CTX_STAT_SEALED n) then leAt (digOf s n).digest (4 * k) 4 else 0

/-- The contexts claimed (DIGEST_STATUS.OWNED). -/
def digOwned (s : State) : Nat := ((List.range 64).filter (fun n => s.fld (R.DIGEST_CTX_OWN_KIND n) != 0)).length

/-- A tile reset wipes every context the tile owns (R407). -/
def digTileWipe (s : State) (t : Nat) : State :=
  (List.range 64).foldl (fun acc n => if digOwner acc n = (3, t) then digWipe acc n else acc) s

/-- The context a command reaches: a tile's is the one in TILE_DGSEL (R413). -/
def digCtx (s : State) (v : DmaVia) (n : Nat) : Nat :=
  match v with
  | .tile t => s.fld (R.TILE_DGSEL_CTX t)
  | .reg _ => n

/-- Drive a context with operation `op` (R391, R408): by the owner, with the block ON, in a state that accepts it. -/
def digDrive (s : State) (who : Who) (n op : Nat) (f : State → State) : State :=
  if digOwner s n ≠ who ∨ who.1 = 0 ∨ ¬ blockOn s .digest then digRefuse s who
  else if digAccepts (digState s n) op then f s
  else setClaimErr (s.setFld (R.DIGEST_CTX_STAT_ERR n) deSeq) .digest

/-- The claims of one cycle on a context, by rank (R407). -/
def execDigestClaim (vs : List DmaVia) (n : Fin 64) (s : State) : Result :=
  .next ((ranked (vs.map dmaWho)).foldl (fun acc w => digClaim acc n w) s)

def execDigestRelease (v : DmaVia) (n : Fin 64) (s : State) : Result := .next (digRelease s (digCtx s v n) (dmaWho v))

def execDigestInit (v : DmaVia) (n : Fin 64) (alg : Fin 4) (sealed : Bool) (s : State) : Result :=
  .next (digDrive s (dmaWho v) (digCtx s v n) 1 (fun s1 => digInit s1 (digCtx s v n) alg sealed))

def execDigestFeed (v : DmaVia) (n : Fin 64) (s : State) : Result :=
  .next (digDrive s (dmaWho v) (digCtx s v n) 2 (fun s1 => digFeed s1 (digCtx s v n)))

def execDigestFeedDone (n : Fin 64) (s : State) : Result := .next (digFeedDone s n)

def execDigestFinal (v : DmaVia) (n : Fin 64) (s : State) : Result :=
  .next (digDrive s (dmaWho v) (digCtx s v n) 3 (fun s1 => digFinal s1 (digCtx s v n)))

def execDigestAbsorb (v : DmaVia) (n src : Fin 64) (s : State) : Result :=
  .next (digDrive s (dmaWho v) (digCtx s v n) 4 (fun s1 => digAbsorbCtx s1 (digCtx s v n) src))

def execDigestCompare (v : DmaVia) (n : Fin 64) (agree : Bool) (s : State) : Result :=
  .next (digDrive s (dmaWho v) (digCtx s v n) 5 (fun s1 => digCompare s1 (digCtx s v n) agree))

def execDigestWipe (v : DmaVia) (n : Fin 64) (s : State) : Result :=
  .next (digDrive s (dmaWho v) (digCtx s v n) 6 (fun s1 => (digWipe s1 (digCtx s v n)).raise R.DIGEST_ISR_DONE))

end Sys2Proof.Machine
end

