-- ==== Sys2Proof/Machine/Job.lean ====
section
/-! DEFINITION. Sys2Proof/Machine/Job.lean: jobs on a tile: how one starts (R119, R201, R224), ends (R120, R205, R222,
R239) and is cut short by a tile reset (R169, R170). -/

namespace Sys2Proof.Machine

/-- The parcel gate (Table 3.5). -/
def gateAddr : Word := 0x0010FFF0

/-- The position a profile number names; none: not loaded. -/
def profOf (s : State) (p : Nat) : Option Prof := tblGet none s.profs p

/-- Store a word in tile local memory as the core would see it: into its data-cache line where one is held. -/
def tilePut (s : State) (t a : Nat) (bs : List Byte) : State :=
  let g := tileLocalAddr t a
  match (if s.flag (ccDcEn t) then findWay (s.core t).dc (cacheSets t) g else none) with
  | some (slot, l) =>
    let o := g - l.addr
    let l' := { l with dirty := true, data := l.data.take o ++ bs ++ l.data.drop (o + bs.length) }
    s.setCore t { s.core t with dc := putLine (s.core t).dc slot l' }
  | none => writeMem s g bs (some t) tagLocal

/-- The marionette, codec and key-queue registers at the start of a job (R201, R223, R224, Table 8.x cards). `land` and
`len` bind IS0 to the parcel's landed data; a computational program has len 0. -/
def jobRegs (s : State) (t : Nat) (set : Option StepSet) (setNo prof land len : Nat) : State :=
  let b := match set with | some x => x.base | none => 0
  let n := match set with | some x => x.ntab | none => 0
  s.setFlds
    [ (R.TILE_MSET_BASE t, b), (R.TILE_MSET_NTAB t, n), (R.TILE_MSET_SET t, if n = 0 then 0 else setNo),
      (R.TILE_MIS_ALO_ALO t 0, land), (R.TILE_MIS_AHI_ADDR t 0, land / 2 ^ 32), (R.TILE_MIS_AHI_SPACE t 0, 1),
      (R.TILE_MIS_LEN_LEN t 0, len), (R.TILE_MIS_POS0_POS0 t 0, 0),
      (R.TILE_MIS_LEN_LEN t 1, 0), (R.TILE_MIS_LEN_LEN t 2, 0), (R.TILE_MIS_LEN_LEN t 3, 0),
      (R.TILE_MOS_DEST_DEST t 0, 1), (R.TILE_MOS_LIMIT_LIMIT t 0, 0), (R.TILE_MOS_USED_USED t 0, 0),
      (R.TILE_MOS_DEST_DEST t 1, 2), (R.TILE_MOS_LIMIT_LIMIT t 1, 0), (R.TILE_MOS_USED_USED t 1, 0),
      (R.TILE_MACC_ACC t, 0), (R.TILE_MSWF_SWF t, 0), (R.TILE_MSTAT_MSTATE t, 0),
      (R.TILE_CDPROF_PROF t, prof), (R.TILE_CDSTAT_PADDED t, 0), (R.TILE_CDBLK_BLOCKS t, 0), (R.TILE_CDBLK_INEXACT t, 0),
      (R.TILE_CDOUT_BYTES t, 0), (R.TILE_KQKEYS_COUNT t, 0), (R.TILE_KQENT_COUNT t, 0),
      (R.TILE_CIEN_MARI t, 0), (R.TILE_CIEN_CODEC t, 0), (R.TILE_CIEN_KEYQ t, 0), (R.TILE_CIEN_DOORBELL t, 0),
      (R.TILE_CIEN_CERR t, 0), (R.TILE_STATUS_JOB t, 1) ]

/-- The core at job entry (Table 3.11). SG0–SG3, the caches and the cycle count are unchanged. -/
def jobCore (k : Core) (p : ProgSlot) (a0 a1 a2 : Nat) : Core :=
  let sp := p.load + p.footprint - 4
  { k with
    w := tblSetRange 0 [] 0 [BitVec.ofNat 32 a0, BitVec.ofNat 32 a1, BitVec.ofNat 32 a2] |> (tblSet 0 · 14 (BitVec.ofNat 32 sp)),
    pc := BitVec.ofNat 32 (p.load + p.entry),
    st := if p.flags % 2 = 1 then 0x20 else 0,
    bnk := 0, exdepth := 0, lastCause := 0,
    vbase := if p.vec = 0xFFFFFFFF then 0 else BitVec.ofNat 32 (p.load + p.vec),
    run := .run, noVec := p.vec == 0xFFFFFFFF }

/-- Start a job on a tile (R119). -/
def startJob (s : State) (t : Nat) (j : Job) (p : ProgSlot) (setNo : Option Nat) (prof land len a0 a1 a2 : Nat) : State :=
  let set := match setNo with | some n => tblGet none s.loaded.sets n | none => none
  let s1 := jobRegs s t set (setNo.getD 0) prof land len
  let s2 := s1.setFlds [(R.TILE_JOB_FLOW t, if j.ref.cp then 0 else j.ref.flow), (R.TILE_JOB_CP t, b2n j.ref.cp),
    (R.TILE_JOB_ACTIVE t, 1)]
  let x := s2.tile t
  let s3 := s2.setTile t { x with job := some j, mari := { x.mari with ending := none }, curProf := prof, kqPart := [], kqOrd := 0 }
  let s4 := s3.setCore t (jobCore (s3.core t) p a0 a1 a2)
  tilePut s4 t (p.load + p.footprint - 4) (leBytes 4 gateAddr.toNat)

/-- Start the job of a parcel on a tile that takes it (R71, R119): w0 the flow ID, w1 the sequence number, w2 the length. -/
def startParcelJob (s : State) (t flow seq : Nat) : State :=
  match findParcel s flow seq with
  | none => s
  | some p =>
    match tblGet none s.loaded.progs (ctxGet s flow cxPROG) with
    | none => s
    | some slot =>
      let j : Job :=
        { ref := ⟨false, flow, seq, 0⟩, slot := ctxGet s flow cxPROG, idxProf := ctxGet s flow cxINDEX, hasIdx := true,
          noVec := slot.vec == 0xFFFFFFFF }
      let s1 := updParcel s flow seq (fun q => { q with st := .running t, tile := t })
      startJob s1 t j slot (some (ctxGet s flow cxSTEP)) (ctxGet s flow cxCODEC) p.land p.len flow seq p.len

/-- A close of the codec input (R222): the pending partial block ends as written; an empty one forms no block. -/
def closeSegs (segs : List Seg) : List Seg := segs.map (fun g => { g with closed := true })

/-- The fields that say a job is running, cleared. -/
def clearJobRegs (s : State) (t : Nat) : State :=
  s.setFlds [(R.TILE_JOB_FLOW t, 0), (R.TILE_JOB_CP t, 0), (R.TILE_JOB_ACTIVE t, 0), (R.TILE_STATUS_JOB t, 0)]

/-- Change the record of a computational-program job. -/
def updCp (s : State) (cmd : Nat) (g : CpJob → CpJob) : State :=
  { s with cpJobs := s.cpJobs.map (fun j => if j.cmd == cmd then g j else j) }

/-- A failure meets the parcel or the computational program a job belongs to: the first cause stands (R522, R297). -/
def failRef (s : State) (r : JobRef) (cause : Nat) : State :=
  if r.cp then updCp s r.cmd (fun j => if j.cause = 0 then { j with cause := cause } else j)
  else failParcel s r.flow r.seq cause

/-- Completion DW0 of Table 9.11 by the job's ending: w1, w0, the CAUSE word of the last frame or 0, or the cause code. -/
def cpDw (k : Core) (cause : Nat) : Nat :=
  if cause = 0 then (tblGet 0 k.w 1).toNat
  else if cause = causeProgram then (tblGet 0 k.w 0).toNat
  else if cause = causeException then k.lastCause.toNat
  else if cause = causeTimeout then 0
  else 0x80000000 + cause

/-- A job's failure or end reaches its parcel or its command: the cause (0: none) and what the core holds at the end. -/
def reportJob (s : State) (t : Nat) (k : Core) (r : JobRef) (cause : Nat) : State :=
  let s1 := if cause = 0 then s else s.raise (R.TILE_ISR_JOBFAIL t)
  let s2 := if cause = 0 then s1 else failRef s1 r cause
  if r.cp then updCp s2 r.cmd (fun j => { j with ended := true, dw := cpDw k j.cause })
  else
    updParcel s2 r.flow r.seq (fun p => { p with
      st := if p.discarded then .complete else .ended t, jobEnded := true })

/-- The running tile decode job, if any, stops with RESET (R236). -/
def stopTileDec (s : State) (t : Nat) : State :=
  match (s.tile t).tileDec with
  | none => s
  | some _ =>
    ((s.setTile t { s.tile t with tileDec := none, tileDecRun := false }).setFlds
      [(R.TILE_DRES_STATUS t, 8), (R.TILE_DRES_BUSY t, 0)])

/-- End the job of a tile (R120): `cause` as R120 decides. A run still in progress is aborted and fails the job with
PROGRAM unless the cause is EXCEPTION (R205); the codec input is closed (R222); a partial key is discarded (R239). -/
def endJob (s : State) (t cause : Nat) : State :=
  match (s.tile t).job with
  | none => s
  | some j =>
    let running := s.fld (R.TILE_MSTAT_MSTATE t) != 0
    let c := if running ∧ cause ≠ causeException then causeProgram else cause
    let x := s.tile t
    let part := x.kqPart
    let s1 := s.setTile t { x with
      job := none, segs := closeSegs x.segs, kqPart := [],
      mari := { x.mari with ending := none } }
    let s2 := if running then s1.setFlds [(R.TILE_MSTAT_MSTATE t, 0), (R.TILE_MSTAT_END t, 3)] else s1
    let s3 := if part = [] then s2 else (s2.addWrap R.PAT_PARTIAL_COUNT 1).raise R.PAT_ISR_PARTIAL
    let s4 := stopTileDec (clearJobRegs s3 t) t
    reportJob (s4.setCore t { s4.core t with run := .idle }) t (s.core t) j.ref c

/-- The outcome R120 gives a job that reaches the parcel gate. -/
def gateCause (k : Core) : Nat :=
  if k.exdepth ≠ 0 then causeException else if tblGet 0 k.w 0 = 0 then 0 else causeProgram

/-- The parcels that a tile has not yet completed (R170). -/
def tileParcels (s : State) (t : Nat) : List Parcel :=
  s.flows.parcels.filter (fun p => p.st == .running t || p.st == .ended t)

/-- Has a job work still in a tile's codec unit or key queue? -/
def refBusy (x : Tile) (r : JobRef) : Bool :=
  x.segs.any (fun g => g.job == r) || x.formed.any (fun b => b.job == r) || x.encoded.any (fun b => b.inp.job == r) ||
    x.accepted.any (fun b => b.inp.job == r) || x.kq.any (fun k => k.job == r)

/-- A tile reset (R169): the core, the marionette, the datapath and the codec unit stop, the key queue is emptied, the
caches are cleaned and invalidated, the tile's DMA channels are aborted and its digest contexts wiped (R396, R407), and the
core's registers take their reset values. Every parcel of the tile that has
not completed fails with `cause`, unless it has failed already (R170, R522). -/
def tileReset (s : State) (t cause : Nat) : State :=
  if (s.tile t).rstBusy then s
  else
    let s1 := digTileWipe (dmaTileAbort (resetCaches s t) t) t
    let cps := s1.cpJobs.filter (fun j => j.tile == t && (!j.ended || refBusy (s1.tile t) ⟨true, 0, 0, j.cmd⟩))
    let ps := tileParcels s1 t
    let s2 := stopTileDec s1 t
    let x := s2.tile t
    let s3 := s2.setTile t { Tile.reset with
      curProf := x.curProf, lane := x.lane.map (fun d => { d with stopped := true }), rstBusy := true }
    let k := s3.core t
    let s4 := s3.setCore t { Core.tileReset with ic := k.ic, dc := k.dc, ev := k.ev }
    let s5 := clearJobRegs (s4.setFlds [(R.TILE_MSTAT_MSTATE t, 0), (R.TILE_STATUS_RSTBUSY t, 1)]) t
    let s6 := ps.foldl (fun acc p =>
      updParcel (failParcel acc p.flow p.seq cause) p.flow p.seq (fun q => { q with
        st := if q.discarded then .complete else .ended t, jobEnded := true, nblk := 0, ebytes := 0, nent := 0 })) s5
    let s7 := if ps = [] ∧ cps = [] then s6 else s6.raise (R.TILE_ISR_JOBFAIL t)
    cps.foldl (fun acc j =>
      updCp (failRef acc ⟨true, 0, 0, j.cmd⟩ cause) j.cmd (fun x => { x with ended := true, dw := cpDw (s1.core t) x.cause })) s7

/-- A tile reset completes (R169): TRESET is set and the tile can take its next parcel. -/
def tileResetDone (s : State) (t : Nat) : State :=
  if (s.tile t).rstBusy then
    (((s.setTile t { s.tile t with rstBusy := false }).setFld (R.TILE_STATUS_RSTBUSY t) 0).raise (R.TILE_ISR_TRESET t))
  else s

/-- Is the tile free to choose work (R28, R71)? -/
def tileReady (s : State) (t : Nat) : Bool :=
  tileState s t == stOn && (s.tile t).job.isNone && !(s.tile t).rstBusy && (s.core t).run == .idle

/-- Must the tile first store a failed parcel raw (R81)? -/
def rawDue (s : State) (p : Parcel) : Bool :=
  p.cause != 0 && p.cause != causeEcc && !p.discarded && !p.raw && !p.rawSkip && p.jobEnded &&
    ctxGet s p.flow cxERRPOL == 2

def tileOwesRaw (s : State) (t : Nat) : Bool :=
  s.flows.parcels.any (fun p => p.st == .ended t && rawDue s p)

/-- Take the head of a tile's own deque and start its job (R71). A parcel that failed before any tile took it (SHORT)
starts no job; it is the tile's to store raw or to leave as failed. -/
def takeHead (s : State) (t : Nat) : State :=
  match dequeOf s t with
  | [] => s
  | (f, q) :: r =>
    let s1 := setDeque s t r
    match findParcel s1 f q with
    | none => s1
    | some p =>
      if p.cause ≠ 0 then
        updParcel s1 f q (fun x => { x with st := .ended t, tile := t, jobEnded := true })
      else startParcelJob s1 t f q

end Sys2Proof.Machine
end

