-- ==== Sys2Proof/Machine/Out.lean ====
section
/-! DEFINITION. Sys2Proof/Machine/Out.lean: where a job's output goes: the codec input (R222, R224), the key queue (R239,
R240) and the placing of encoded blocks and index entries (R225, R262, R297). -/

namespace Sys2Proof.Machine

/-! ### The codec input -/

/-- The codec profile a tile's next block begins under (R224). -/
def curProfile (s : State) (t : Nat) : Prof := (profOf s (s.tile t).curProf).getD ⟨0, 0, 0, 0, 0⟩

/-- Bytes of the codec input that the lane has not accepted: with a free slot, those after the first block to come. -/
def codecWaiting (x : Tile) : Nat :=
  let segs := if x.formed.length + x.encoded.length < 2 then x.segs.drop 1 else x.segs
  segs.foldl (fun n g => n + g.data.length) 0

/-- Add bytes to the codec input: the open block takes them to 4,096 bytes, and each further block begins under the
profile current now. `fuel` bounds the blocks. -/
def codecAppend (segs : List Seg) (r : JobRef) (p : Prof) (bs : List Byte) : Nat → List Seg
  | 0 => segs
  | fuel + 1 =>
    if bs = [] then segs
    else
      match segs.getLast? with
      | some g =>
        if !g.closed && decide (g.data.length < 4096) then
          let n := 4096 - g.data.length
          codecAppend (segs.dropLast ++ [{ g with data := g.data ++ bs.take n }]) r p (bs.drop n) fuel
        else codecAppend (segs ++ [⟨r, p, bs.take 4096, false⟩]) r p (bs.drop 4096) fuel
      | none => codecAppend [⟨r, p, bs.take 4096, false⟩] r p (bs.drop 4096) fuel

/-- The length of the pending partial block (TILE_CDSTAT.PEND). -/
def codecPend (x : Tile) : Nat :=
  match x.segs.getLast? with
  | some g => if g.closed || decide (4096 ≤ g.data.length) then 0 else g.data.length
  | none => 0

/-- Write bytes to a tile's codec input. -/
def codecPut (s : State) (t : Nat) (r : JobRef) (bs : List Byte) : State :=
  let x := s.tile t
  s.setTile t { x with segs := codecAppend x.segs r (curProfile s t) bs (bs.length + 2) }

/-! ### The key queue -/

/-- Bytes a tile's key queue and its stream buffer hold. -/
def kqTotal (x : Tile) : Nat := x.kq.foldl (fun n k => n + k.bytes.length) x.kqPart.length

/-- TILE_KQ.USED: the queue holds 4,096 bytes, the rest stands in the stream's buffer. -/
def kqUsed (x : Tile) : Nat := min (kqTotal x) 4096

/-- The index profile of a number, where it is loaded. -/
def idxProfOf (s : State) (p : Nat) : Option IdxProf := tblGet none s.index.profs p

/-- Cut whole keys off the pending bytes (R239). -/
def cutKeys (r : JobRef) (prof klen : Nat) (ord : Nat) (bs : List Byte) : Nat → List Key × List Byte × Nat
  | 0 => ([], bs, ord)
  | fuel + 1 =>
    if klen = 0 ∨ bs.length < klen then ([], bs, ord)
    else
      let rest := cutKeys r prof klen (ord + 1) (bs.drop klen) fuel
      (⟨r, prof, ord, bs.take klen⟩ :: rest.1, rest.2)

/-- Write bytes to a tile's key queue: whole keys are cut and counted. -/
def kqPut (s : State) (t : Nat) (j : Job) (bs : List Byte) : State :=
  let x := s.tile t
  let klen := match idxProfOf s j.idxProf with | some p => p.klen | none => 0
  let all := x.kqPart ++ bs
  let c := cutKeys j.ref j.idxProf klen x.kqOrd all (all.length + 1)
  (s.setTile t { x with kq := x.kq ++ c.1, kqPart := c.2.1, kqOrd := c.2.2 }).addWrap (R.TILE_KQKEYS_COUNT t) c.1.length

/-- Take the first key out of a tile's queue; KEYQ is set when the free space rises above THRESH. -/
def kqTake (s : State) (t : Nat) : State :=
  let x := s.tile t
  let x' := { x with kq := x.kq.drop 1 }
  let s1 := s.setTile t x'
  let th := s.fld (R.TILE_KQ_THRESH t)
  if 4096 - kqUsed x ≤ th ∧ th < 4096 - kqUsed x' then s1.raise (R.TILE_CIRQ_KEYQ t) else s1

/-! ### Placing outputs -/

/-- The room a job's outputs have: first address, end (below the trailer), bytes of blocks and entries placed. -/
structure Room where
  lo : Nat
  hi : Nat
  ebytes : Nat
  nent : Nat
  deriving DecidableEq, Repr

/-- The computational-program job of a command. -/
def findCp (s : State) (cmd : Nat) : Option CpJob := s.cpJobs.find? (fun j => j.cmd == cmd)

/-- The room of a job; none where its outputs are to be discarded: the parcel is gone, has failed or is discarded. -/
def roomOf (s : State) (r : JobRef) : Option Room :=
  if r.cp then
    match findCp s r.cmd with
    | some j => if j.cause = 0 then some ⟨j.outBase, j.outBase + j.outLen, j.ebytes, j.nent⟩ else none
    | none => none
  else
    match findParcel s r.flow r.seq with
    | some p =>
      if p.cause = 0 ∧ !p.discarded then some ⟨p.ost, p.ost + p.ostLen - 64, p.ebytes, p.nent⟩ else none
    | none => none

/-- Count a block in its parcel or job. -/
def noteBlock (s : State) (r : JobRef) (n : Nat) : State :=
  if r.cp then updCp s r.cmd (fun j => { j with ebytes := j.ebytes + n })
  else updParcel s r.flow r.seq (fun p => { p with nblk := p.nblk + 1, ebytes := p.ebytes + n })

/-- Count an index entry in its parcel or job. -/
def noteEntry (s : State) (r : JobRef) : State :=
  if r.cp then updCp s r.cmd (fun j => { j with nent := j.nent + 1 })
  else updParcel s r.flow r.seq (fun p => { p with nent := p.nent + 1 })

/-- Write an encoded block at the end of the blocks, or fail with IDXOVF (R225, R297); the flag says it was written. -/
def placeBlock (s : State) (r : JobRef) (bs : List Byte) : State × Bool :=
  match roomOf s r with
  | none => (s, false)
  | some m =>
    if m.lo + m.ebytes + bs.length + 16 * m.nent ≤ m.hi then
      (noteBlock (writeMem s (m.lo + m.ebytes) bs none tagLocal) r bs.length, true)
    else (failRef s r causeIdxOvf, false)

/-- Write an index entry below the entries, or fail with IDXOVF (R262, R297); the flag says it was written. -/
def placeEntry (s : State) (r : JobRef) (bs : List Byte) : State × Bool :=
  match roomOf s r with
  | none => (s, false)
  | some m =>
    if m.lo + m.ebytes + 16 * (m.nent + 1) ≤ m.hi then
      (noteEntry (writeMem s (m.hi - 16 * (m.nent + 1)) bs none tagLocal) r, true)
    else (failRef s r causeIdxOvf, false)

end Sys2Proof.Machine
end

