-- ==== Sys2Proof/Machine/Index.lean ====
section
/-! DEFINITION. Sys2Proof/Machine/Index.lean: pattern automata and the rule index (08): scanning, the rule TCAM with its
insertion, deletion and shadow check, and index entries. -/

namespace Sys2Proof.Machine

/-! ### Automaton sets (R243 to R248) -/

/-- Entries of transition memory. -/
def tmSize : Nat := 4194304

/-- The ECC word of a transition-memory entry (R245). -/
def tmKey (e : Nat) : Nat := 0x8000 * 0x600 + e

/-- Is automaton set `n` loaded? -/
def asetLoaded (s : State) (n : Nat) : Bool := s.flag (R.PAT_SET_BASE_LOADED n)

/-- The runs of transition memory the loaded sets hold, without set `skip`. -/
def tmUsed (s : State) (skip : Nat) : List (Nat × Nat) :=
  ((List.range 64).filter (fun n => asetLoaded s n && n != skip)).map (fun n =>
    (s.fld (R.PAT_SET_BASE_BASE n), s.fld (R.PAT_SET_ENTRIES_ENTRIES n)))

/-- The length of the free run that starts at `a`; 0 where `a` is not free. -/
def freeRunAt (used : List (Nat × Nat)) (a : Nat) : Nat :=
  if used.any (fun u => decide (u.1 ≤ a) && decide (a < u.1 + u.2)) then 0
  else used.foldl (fun n u => if a ≤ u.1 then min n (u.1 - a) else n) (tmSize - a)

/-- Entries in the largest free run (PAT_FREE). -/
def largestFree (s : State) : Nat :=
  let used := tmUsed s 64
  (0 :: used.map (fun u => u.1 + u.2)).foldl (fun n a => max n (freeRunAt used a)) 0

/-- Put the entries of an accepted image into transition memory. -/
def tmWrite (s : State) (base : Nat) (es : List Nat) : State :=
  let n := es.length
  let new := (((List.range n).zip es).map (fun e => (base + e.1, e.2))).filter (fun e => e.2 != 0)
  { s with
    index := { s.index with
      tm := tblKeep (fun k => k < base) s.index.tm ++ new ++ tblKeep (fun k => base + n ≤ k) s.index.tm },
    ecc := { s.ecc with syn := tblKeep (fun k => k < tmKey base || tmKey (base + n) ≤ k) s.ecc.syn } }

/-- Read a transition entry: its value with a single-bit error corrected and counted; none is uncorrectable (R248). -/
def tmRead (s : State) (e : Nat) : Option Nat × State :=
  let v := tblGet 0 s.index.tm e
  match eccDecode v (tblGet 0 s.ecc.syn (tmKey e)) with
  | .ok => (some v, s)
  | .corrected d => (some d, countCe s (tmKey e))
  | .uncorrectable => (none, countUe s (tmKey e))

/-- The class of key byte `i` (R246): the pad class beyond the key. -/
def classAt (cm : List Nat) (nc : Nat) (key : List Byte) (i : Nat) : Nat :=
  if i < key.length then cm.getD (key.getD i 0).toNat 0 else nc - 1

/-- The stride class of transition `t` (R246). -/
def strideClass (cm : List Nat) (nc stride : Nat) (key : List Byte) (t : Nat) : Nat :=
  (List.range stride).reverse.foldl (fun acc j => acc * nc + classAt cm nc key (t * stride + j)) 0

/-- Scan from a row, `fuel` transitions at most: the report, or none for an uncorrectable read. -/
def scanFrom (s : State) (set : Nat) (cm : List Nat) (key : List Byte) (row report t : Nat) : Nat → Option Nat × State
  | 0 => (some report, s)
  | fuel + 1 =>
    let c := strideClass cm (s.fld (R.PAT_SET_SHAPE_NC set)) (s.fld (R.PAT_SET_SHAPE_STRIDE set)) key t
    match tmRead s (s.fld (R.PAT_SET_BASE_BASE set) + row + c) with
    | (none, s1) => (none, s1)
    | (some e, s1) =>
      if bitOf e 22 then (some (bitsOf e 32 16), s1)
      else scanFrom s1 set cm key (bitsOf e 0 22) (bitsOf e 32 16) (t + 1) fuel

/-- The report of a key scanned against a set (R246, R248), and whether a read was uncorrectable. -/
def scanKey (s : State) (set : Nat) (key : List Byte) : Nat × Bool × State :=
  let stride := max (s.fld (R.PAT_SET_SHAPE_STRIDE set)) 1
  let s0 := s.addWrap R.PAT_KEYS_COUNT 1
  match scanFrom s0 set (tblGet [] s.loaded.classMaps set) key (s.fld (R.PAT_SET_START_START set)) 0xFFFF 0
      ((key.length + stride - 1) / stride) with
  | (some r, s1) => (r, false, s1)
  | (none, s1) => (0xFFFE, true, s1.raise R.PAT_ISR_UE)

/-! ### The rule TCAM (R249, R252, R253) -/

/-- Slots of the TCAM. -/
def tcamSlots : Nat := 32768

def slotAt (s : State) (i : Nat) : TSlot := tblGet TSlot.none s.index.slots i

/-- The rule set of an entry: byte 2 of VALUE (R251). -/
def TSlot.set (x : TSlot) : Nat := bitsOf x.value 16 8

/-- The valid entries in index order. -/
def validSlots (s : State) : List (Nat × TSlot) := s.index.slots.filter (fun e => e.2.valid)

/-- RULE_NVALID.COUNT. -/
def nValid (s : State) : Nat := (validSlots s).length

/-- Does a rule set hold a rule? -/
def hasRules (s : State) (set : Nat) : Bool := (validSlots s).any (fun e => e.2.set == set)

/-- The search key (Table 8.4) as a number. -/
def searchKey (report set : Nat) (key : List Byte) : Nat := report + 2 ^ 16 * set + 2 ^ 32 * leNat key

/-- Does an entry match a search key (R249)? -/
def tMatches (x : TSlot) (key : Nat) : Bool := x.valid && (x.value ^^^ key) &&& x.mask == 0

/-- The matching entries in index order, two slots of one set and RID counting once (R252). -/
def allMatches (s : State) (key : Nat) : List TSlot :=
  ((validSlots s).filter (fun e => tMatches e.2 key)).foldl (fun acc e =>
    if acc.any (fun x => x.rid == e.2.rid && x.set == e.2.set) then acc else acc ++ [e.2]) []

/-- MULTI of a search: a second matching entry has the winner's PRIO (R252). -/
def isMulti (ms : List TSlot) : Bool :=
  match ms with
  | w :: r => r.any (fun x => x.prio == w.prio && x.rid != w.rid)
  | [] => false

/-! ### Index entries (R260, R261) -/

/-- One index entry (Table 8.7). -/
def indexEntry (ord report rid action flags step : Nat) : List Byte :=
  leBytes 4 ord ++ leBytes 2 report ++ leBytes 2 rid ++ leBytes 4 action ++ leBytes 1 flags ++ leBytes 1 step ++ leBytes 2 0

/-- The entries of the yielded matches, from the `j`-th on. -/
def hitEntries (k : Scanned) (multi trunc : Bool) (j : Nat) : List TSlot → List (List Byte)
  | [] => []
  | x :: xs =>
    let last := j = 15 ∧ trunc
    indexEntry k.key.ord k.report x.rid x.action
      (1 + 2 * b2n multi + 4 * b2n (0 < j) + 8 * b2n last + 16 * b2n k.aerr) j :: hitEntries k multi trunc (j + 1) xs

/-- The entries a key emits (R261). -/
def keyEntries (p : IdxProf) (k : Scanned) (ms : List TSlot) : List (List Byte) :=
  let emits := if p.emit = 1 then !ms.isEmpty else if p.emit = 2 then decide (k.report < 0xFFFE) else true
  match ms with
  | [] => if emits then [indexEntry k.key.ord k.report 0xFFFF 0 (16 * b2n k.aerr) 0] else []
  | w :: _ =>
    if w.flags % 2 = 1 ∨ !emits then []
    else if p.mstep then hitEntries k (isMulti ms) (decide (16 < ms.length)) 0 (ms.take 16)
    else hitEntries k (isMulti ms) false 0 [w]

/-- Write a key's entries, and count them for the tile's job. -/
def emitEntries (s : State) (t : Nat) (r : JobRef) : List (List Byte) → State
  | [] => s
  | e :: es =>
    match placeEntry s r e with
    | (s1, false) => s1
    | (s1, true) =>
      let here := match (s1.tile t).job with | some j => j.ref == r | none => true
      emitEntries (if here then s1.addWrap (R.TILE_KQENT_COUNT t) 1 else s1) t r es

/-- The index profile of a key. -/
def keyProf (s : State) (k : Key) : IdxProf := (idxProfOf s k.idxProf).getD ⟨0xFF, 0, 0, false⟩

/-- May the engine take this key now (R263, the PAT enable)? -/
def keyReady (s : State) (k : Key) : Bool := (keyProf s k).aset == 0xFF || blockOn s .pat

/-- The tile whose queue engine `e` serves next (R240). -/
def engineTile (s : State) (e : Nat) : Option Nat :=
  let ready (t : Nat) : Bool := match (s.tile t).kq with | k :: _ => keyReady s k | [] => false
  let first := 2 * e + tblGet 0 s.index.engTurn e
  let other := 2 * e + (1 - tblGet 0 s.index.engTurn e)
  if ready first then some first else if ready other then some other else none

/-- An automaton engine takes its next key and forms its report (R240, R241, R246): a key of a rule set without rules
emits at once, any other waits for the TCAM. -/
def automatonScan (s : State) (e : Nat) : State :=
  if (tblGet none s.index.engHold e).isSome then s
  else
    match engineTile s e with
    | none => s
    | some t =>
      match (s.tile t).kq with
      | [] => s
      | k :: _ =>
        let p := keyProf s k
        let s1 := kqTake { s with index := { s.index with engTurn := tblSet 0 s.index.engTurn e (1 - t % 2) } } t
        let r := if p.aset = 0xFF then (0xFFFF, false, s1) else scanKey s1 p.aset k.bytes
        let sc : Scanned := ⟨k, t, r.1, r.2.1⟩
        if hasRules r.2.2 k.idxProf then
          { r.2.2 with index := { r.2.2.index with engHold := tblSet none r.2.2.index.engHold e (some sc) } }
        else emitEntries r.2.2 t k.job (keyEntries p sc [])

/-- The TCAM searches for the next engine in round robin (R252 to R254), and the key's entries are written (R261). -/
def tcamSearch (s : State) : State :=
  if !blockOn s .rule then s
  else
    match ((List.range 16).map (fun i => (s.index.lastEng + 1 + i) % 16)).find? (fun e =>
        (tblGet none s.index.engHold e).isSome) with
    | none => s
    | some e =>
      match tblGet none s.index.engHold e with
      | none => s
      | some sc =>
        let ms := allMatches s (searchKey sc.report sc.key.idxProf sc.key.bytes)
        let s1 := { s with index := { s.index with engHold := tblSet none s.index.engHold e none, lastEng := e } }
        let s2 := s1.addWrap R.RULE_SRCH_COUNT 1
        let s3 := if isMulti ms then (s2.addWrap R.RULE_MULTICNT_COUNT 1).raise R.RULE_ISR_MULTI else s2
        emitEntries s3 sc.tile sc.key.job (keyEntries (keyProf s sc.key) sc ms)

/-! ### Insertion and deletion (R255 to R258) -/

/-- The 128 bytes of a shadow slot (R258). -/
def shadowBytes (x : TSlot) : List Byte :=
  leBytes 40 x.value ++ leBytes 40 x.mask ++ leBytes 2 x.prio ++ leBytes 2 x.rid ++ leBytes 4 x.action ++
    leBytes 1 x.flags ++ leBytes 7 0 ++ leBytes 1 (b2n x.valid) ++ leBytes 31 0

/-- A slot from the bytes of a rule record (Table 8.6). -/
def slotOfRecord (bs : List Byte) (valid : Bool) : TSlot :=
  { valid := valid, value := leAt bs 0 40, mask := leAt bs 40 40, prio := leAt bs 80 2, rid := leAt bs 82 2,
    action := leAt bs 84 4, flags := leAt bs 88 1 }

/-- The address of a shadow slot (RULE_SHBASE). -/
def shadowAddr (s : State) (i : Nat) : Nat := 0x400000 * s.fld R.RULE_SHBASE_BASE + 128 * i

/-- Write a TCAM slot, its shadow first (R258). -/
def writeSlot (s : State) (i : Nat) (x : TSlot) : State :=
  let s1 := writeMem s (shadowAddr s i) (shadowBytes x) none tagLocal
  { s1 with index := { s1.index with slots := tblSet TSlot.none s1.index.slots i x } }

/-- The valid entries of a set in index order. -/
def setSlots (s : State) (set : Nat) : List (Nat × TSlot) := (validSlots s).filter (fun e => e.2.set == set)

def isFree (s : State) (i : Nat) : Bool := decide (i < tcamSlots) && !(slotAt s i).valid

/-- The lowest free index of the TCAM. -/
def lowestFree (s : State) : Option Nat := (List.range tcamSlots).find? (isFree s)

/-- The insertion point of a rule (R255). -/
def insertionPoint (s : State) (x : TSlot) : Option Nat :=
  match setSlots s x.set with
  | [] => lowestFree s
  | e :: es =>
    match ((e :: es).filter (fun y => decide (y.2.prio ≤ x.prio))).getLast? with
    | some y => some (y.1 + 1)
    | none => some e.1

/-- The nearest free index above a place, and below it. -/
def freeAbove (s : State) (i : Nat) : Option Nat :=
  ((List.range (tcamSlots - i)).map (fun k => i + k)).find? (isFree s)
def freeBelow (s : State) (i : Nat) : Option Nat :=
  ((List.range i).map (fun k => i - 1 - k)).find? (isFree s)

/-- Move `n` entries up by one, the highest first: the entry at `i` goes to `i + 1`. -/
def moveUp (s : State) (i : Nat) : Nat → State
  | 0 => s
  | n + 1 => moveUp (writeSlot s (i + 1) (slotAt s i)) (i - 1) n

/-- Move `n` entries down by one, the lowest first: the entry at `i` goes to `i - 1`. -/
def moveDown (s : State) (i : Nat) : Nat → State
  | 0 => s
  | n + 1 => moveDown (writeSlot s (i - 1) (slotAt s i)) (i + 1) n

/-- Insert a rule with the moves it needs (R255); none: no free index. -/
def insertRule (s : State) (x : TSlot) : Option State :=
  match insertionPoint s x with
  | none => none
  | some ip =>
    if isFree s ip then some (writeSlot s ip x)
    else
      match freeAbove s ip with
      | some f => some (writeSlot (moveUp s (f - 1) (f - ip)) ip x)
      | none =>
        match freeBelow s ip with
        | some f => some (writeSlot (moveDown s (f + 1) (ip - 1 - f)) (ip - 1) x)
        | none => none

/-- The slot of a rule of a set. -/
def ruleSlot (s : State) (set rid : Nat) : Option (Nat × TSlot) := (setSlots s set).find? (fun e => e.2.rid == rid)

/-- Invalidate a rule's entry (R257). -/
def deleteRule (s : State) (set rid : Nat) : State :=
  match ruleSlot s set rid with
  | some e => writeSlot s e.1 { e.2 with valid := false }
  | none => s

/-- Does a record break R251: a VALUE bit where MASK is 0, MASK byte 2 not 0xFF, RID 0xFFFF, or a reserved bit? -/
def badRecord (bs : List Byte) : Bool :=
  let x := slotOfRecord bs true
  (x.value &&& x.mask) != x.value || bitsOf x.mask 16 8 != 0xFF || x.rid == 0xFFFF || x.flags / 2 != 0 ||
    leAt bs 89 7 != 0

/-- The record staged in RULE_REC. -/
def stagedRecord (s : State) : List Byte :=
  ((List.range 24).map (fun n => leBytes 4 (s.fld (R.RULE_REC_DATA n)))).flatten

def ruleResult (s : State) (r : Nat) : State := s.setFld R.RULE_CMDRES_RESULT r

/-- Accept an insert or delete: BUSY until it ends (R257). -/
def ruleAccept (s : State) (op : RuleOp) : State :=
  { s with index := { s.index with op := some op } }.raise R.RULE_STATUS_BUSY

/-- RULE_CMD.OP = 1 (R255): the refusals of RULE_CMDRES, else the insert begins. -/
def ruleInsert (s : State) : State :=
  let bs := stagedRecord s
  let x := slotOfRecord bs true
  if s.flag R.RULE_STATUS_BUSY then setClaimErr s .rule
  else if badRecord bs then ruleResult s 5
  else if (idxProfOf s x.set).isNone then ruleResult s 4
  else if (ruleSlot s x.set x.rid).isSome then ruleResult s 2
  else if tcamSlots ≤ nValid s then ruleResult s 1
  else ruleAccept s (.insert x)

/-- RULE_CMD.OP = 2 (R257). -/
def ruleDelete (s : State) (set rid : Nat) : State :=
  if s.flag R.RULE_STATUS_BUSY then setClaimErr s .rule
  else
    let s1 := s.setFlds [(R.RULE_CMD_RID, rid), (R.RULE_CMD_SET, set)]
    if (idxProfOf s set).isNone then ruleResult s1 4
    else if (ruleSlot s set rid).isNone then ruleResult s1 3
    else ruleAccept s1 (.delete set rid)

/-- House firmware issues the next insert or delete of a Rule Table Load through RULE_CMD, or the load completes (R251). -/
def ruleLoadNext (s : State) : State :=
  match s.index.load with
  | op :: r => ruleAccept { s with index := { s.index with load := r } } op
  | [] =>
    match s.index.loadCmd with
    | some id => updCmd { s with index := { s.index with loadCmd := none } } id (fun c => { c with st := .done })
    | none => s

/-- An insert or delete ends: BUSY clears, RESULT is 0 and CMDDONE is set. -/
def ruleEnds (s : State) : State :=
  ruleLoadNext (({ s with index := { s.index with op := none } }.setFlds
    [(R.RULE_STATUS_BUSY, 0), (R.RULE_CMDRES_RESULT, 0)]).raise R.RULE_ISR_CMDDONE)

/-- The moves and the final write of an insert (R255, R256). -/
def ruleInsertDone (s : State) : State :=
  match s.index.op with
  | some (.insert x) => ruleEnds ((insertRule s x).getD s)
  | _ => s

/-- The write of a delete (R257). -/
def ruleDeleteDone (s : State) : State :=
  match s.index.op with
  | some (.delete set rid) => ruleEnds (deleteRule s set rid)
  | _ => s

/-- An upset of a TCAM cell: bit 0–319 of VALUE, 320–639 of MASK, 640 the valid bit. -/
def upsetSlot (s : State) (i b : Nat) : State :=
  let x := slotAt s i
  let y := if b < 320 then { x with value := x.value ^^^ 2 ^ b }
    else if b < 640 then { x with mask := x.mask ^^^ 2 ^ (b - 320) }
    else { x with valid := !x.valid }
  { s with index := { s.index with slots := tblSet TSlot.none s.index.slots (i % tcamSlots) y } }

/-- The shadow checker reads its next slot (R259). -/
def shadowCheck (s : State) : State :=
  if !s.flag R.RULE_CTRL_CHK_EN ∨ s.flag R.RULE_STATUS_BUSY then s
  else
    let i := s.index.checkAt
    let s0 := { s with index := { s.index with checkAt := (i + 1) % tcamSlots } }
    match readRam s0 (shadowAddr s i) 128 with
    | (_, s1, some _) => s1.raise R.RULE_ISR_SHUE
    | (bs, s1, none) =>
      let x := slotOfRecord bs (bitOf (leAt bs 96 1) 0)
      let y := slotAt s1 i
      if x.valid = y.valid ∧ x.value = y.value ∧ x.mask = y.mask then s1
      else
        (((writeSlot s1 i x).addSat R.RULE_SHCNT_COUNT 1).raise R.RULE_ISR_SHMIS).capture R.RULE_LASTSH_VALID
          [(R.RULE_LASTSH_INDEX, i)]

/-! ### The rows of the opcode table -/

def execAutomatonScan (e : Fin 16) (s : State) : Result := .next (automatonScan s e)
def execTcamSearch (s : State) : Result := .next (tcamSearch s)
def execRuleInsertDone (s : State) : Result := .next (ruleInsertDone s)
def execRuleDeleteDone (s : State) : Result := .next (ruleDeleteDone s)
def execShadowCheck (upset : Option (Nat × Nat)) (s : State) : Result :=
  .next (shadowCheck (match upset with | some u => upsetSlot s u.1 u.2 | none => s))

end Sys2Proof.Machine
end

