-- ==== Sys2Proof/Machine/Ecc.lean ====
section
/-! DEFINITION. Sys2Proof/Machine/Ecc.lean: the scrubber, spare rows and columns and the check-bit test mode of the
on-chip SRAMs (R177 to R181). -/

namespace Sys2Proof.Machine

/-- The class of a macro ID and the index within it (R178). -/
def macClass (m : Nat) : Nat := m / 256
def macIndex (m : Nat) : Nat := m % 256

/-- Words of a macro (R178): 64 to a row; the data cache of a house core is twice that of a tile core (R161). -/
def macWords (m : Nat) : Nat := if macClass m = 4 then (if macIndex m < 32 then 4096 else 8192) else 32768

/-- Does a macro exist (Table 5.3)? -/
def macExists (m : Nat) : Bool :=
  decide (macIndex m < match macClass m with | 0 => 256 | 1 => 64 | 2 => 128 | 3 => 16 | 4 => 36 | 5 => 36 | 6 => 128 | 7 => 256 | _ => 0)

/-- A word of a macro that no address names: its data, and its check bits' syndrome above bit 64. -/
def otherWord (s : State) (k : Nat) : Nat × Nat := (tblGet 0 s.ecc.other k % 2 ^ 64, tblGet 0 s.ecc.other k / 2 ^ 64)
def setOther (s : State) (k data syn : Nat) : State :=
  { s with ecc := { s.ecc with other := tblSet 0 s.ecc.other k (data + 2 ^ 64 * syn) } }

/-- The stored word `w` of macro `m` with its syndrome (0: intact). A data-cache macro holds its lines by set × 4 + way. -/
def macRead (s : State) (m w : Nat) : Nat × Nat :=
  let k := 0x8000 * m + w
  match eccAddr k with
  | some a => (s.rawWord a, tblGet 0 s.ecc.syn k)
  | none =>
    if macClass m = 6 then (tblGet 0 s.index.tm (k - tmKey 0), tblGet 0 s.ecc.syn k)
    else if macClass m = 4 then
      match tblGet none (s.core (macIndex m)).dc.lines (w / 8) with
      | some l => (leAt l.data (8 * (w % 8)) 8, tblGet 0 l.syn (w % 8))
      | none => otherWord s k
    else otherWord s k

/-- Store a word of a macro with a syndrome. -/
def macWrite (s : State) (m w data syn : Nat) : State :=
  let k := 0x8000 * m + w
  let mark (t : State) : State := { t with ecc := { t.ecc with syn := tblSet 0 t.ecc.syn k syn } }
  match eccAddr k with
  | some a => mark (s.putBytes a (leBytes 8 data))
  | none =>
    if macClass m = 6 then mark { s with index := { s.index with tm := tblSet 0 s.index.tm (k - tmKey 0) data } }
    else if macClass m = 4 then
      let c := macIndex m
      match tblGet none (s.core c).dc.lines (w / 8) with
      | some l =>
        let o := 8 * (w % 8)
        let l' := { l with data := l.data.take o ++ leBytes 8 data ++ l.data.drop (o + 8), syn := tblSet 0 l.syn (w % 8) syn }
        let x := s.core c
        s.setCore c { x with dc := { x.dc with lines := tblSet none x.dc.lines (w / 8) (some l') } }
      | none => setOther s k data syn
    else setOther s k data syn

/-- Write the merge-buffer entry of a word to the bank (R176). -/
def macSettle (s : State) (m w : Nat) : State :=
  match eccAddr (0x8000 * m + w) with
  | some a => flushMerge s (fun e => e.word == a / 8)
  | none => s

/-! ### Scrubbing (R177) -/

/-- Macros the scrubber visits, and the `i`-th of them. -/
def scrubMacros : Nat := 848
def scrubMacro (i : Nat) : Nat :=
  if i < 256 then i
  else if i < 320 then 0x100 + (i - 256)
  else if i < 448 then 0x200 + (i - 320)
  else if i < 464 then 0x300 + (i - 448)
  else if i < 592 then 0x600 + (i - 464)
  else 0x700 + (i - 592)

/-- SCRUB_WORD: `slow` says that the pass that ends here took longer than twice PERIOD. -/
def scrubWord (s : State) (slow : Bool) : State :=
  if !blockOn s .ecc then s
  else
    let m := scrubMacro (s.ecc.scrubAt / 0x8000)
    let w := s.ecc.scrubAt % 0x8000
    let skip := s.flag R.ECC_TEST_CTRL_EN && s.fld R.ECC_TEST_CTRL_MACRO == m
    let r := macRead s m w
    let s1 :=
      if skip then s
      else
        match eccDecode r.1 r.2 with
        | .ok => s
        | .corrected d => macWrite (countCe s (0x8000 * m + w)) m w d 0
        | .uncorrectable => countUe s (0x8000 * m + w)
    let last := s.ecc.scrubAt + 1 = 0x8000 * scrubMacros
    let s2 := { s1 with ecc := { s1.ecc with scrubAt := if last then 0 else s.ecc.scrubAt + 1 } }
    if last then
      let s3 := s2.addWrap R.ECC_STATUS_PASSES 1
      if slow then s3.raise R.ECC_ISR_OVERRUN else s3
    else s2

/-! ### Spare rows and columns (R179, R180) -/

/-- Spare rows and columns a macro has used. -/
def rowsUsed (s : State) (m : Nat) : Nat := tblGet 0 s.ecc.spares m % 4
def colsUsed (s : State) (m : Nat) : Nat := tblGet 0 s.ecc.spares m / 4

/-- A repair request ends with a RESULT (ECC_REPRES). -/
def repairEnds (s : State) (m result : Nat) : State :=
  (s.setFlds [(R.ECC_REPRES_RESULT, result), (R.ECC_REPRES_ROWS_LEFT, 2 - rowsUsed s m),
    (R.ECC_REPRES_COLS_LEFT, 2 - colsUsed s m)]).raise R.ECC_ISR_REPDONE

/-- The RESULT that refuses a request at once; none: the repair runs. -/
def repairFault (s : State) (m kind index : Nat) : Option Nat :=
  if kind = 0 then some 4
  else if !macExists m || macClass m == 5 then some 3
  else if (kind = 1 ∧ macWords m / 64 ≤ index) ∨ (kind = 2 ∧ 72 ≤ index) then some 2
  else if (kind = 1 ∧ 2 ≤ rowsUsed s m) ∨ (kind = 2 ∧ 2 ≤ colsUsed s m) then some 1
  else none

/-- ECC_REPAIR.GO with the fields as they stand. -/
def repairGo (s : State) : State :=
  let m := s.fld R.ECC_REPAIR_MACRO
  let kind := s.fld R.ECC_REPAIR_KIND
  if s.ecc.repair.isSome then setClaimErr s .ecc
  else
    match repairFault s m kind (s.fld R.ECC_REPAIR_INDEX) with
    | some r => repairEnds s m r
    | none => { s with ecc := { s.ecc with repair := some (m, kind, s.fld R.ECC_REPAIR_INDEX) } }

/-- Copy one word through the corrector: an uncorrectable one is copied as a poisoned word (R174). -/
def repairWord (s0 : State) (m w : Nat) : State :=
  let s := macSettle s0 m w
  let r := macRead s m w
  match eccDecode r.1 r.2 with
  | .ok => s
  | .corrected d => macWrite (countCe s (0x8000 * m + w)) m w d 0
  | .uncorrectable => (macWrite (countUe s (0x8000 * m + w)) m w r.1 0xFF).raise R.ECC_ISR_POISON

/-- The words of macro `m` from `lo` to below `hi` that a copy can change. -/
def repairWords (s : State) (m lo hi : Nat) : List Nat :=
  if macClass m = 4 then (List.range (hi - lo)).map (· + lo)
  else
    ((tblKeys s.ecc.syn ++ tblKeys s.ecc.other ++ (s.merge.filterMap (fun e => eccKey s (e.word * 8)))).filter (fun k =>
      k / 0x8000 == m && decide (lo ≤ k % 0x8000) && decide (k % 0x8000 < hi))).map (· % 0x8000)

/-- ECC_REPAIR_DONE. -/
def repairDone (s : State) : State :=
  match s.ecc.repair with
  | none => s
  | some (m, kind, index) =>
    let ws := if kind = 1 then repairWords s m (64 * index) (64 * index + 64) else repairWords s m 0 (macWords m)
    let s1 := ws.foldl (fun acc w => repairWord acc m w) s
    let s2 := { s1 with ecc := { s1.ecc with
      repair := none, spares := tblSet 0 s1.ecc.spares m (tblGet 0 s1.ecc.spares m + (if kind = 1 then 1 else 4)) } }
    repairEnds s2 m 0

/-! ### Check-bit test mode (R181) -/

/-- The check bits stored with a word. -/
def storedCheck (data syn : Nat) : Nat := ((Config.checkBits (BitVec.ofNat 64 data)) ^^^ BitVec.ofNat 8 syn).toNat

/-- OP 1: in LOCKED and DECOMMISSIONED the data stays in the macro. A macro that Table 5.3 does not list holds free
values. -/
def testRawRead (s0 : State) : State :=
  let m := s0.fld R.ECC_TEST_CTRL_MACRO
  let w := s0.fld R.ECC_TEST_ADDR_WORD
  let s := macSettle s0 m w
  let r := macRead s m w
  let f := (Config.freeWord s.free).toNat + 2 ^ 32 * (Config.freeWord (s.free + 1)).toNat
  let data := if macExists m then r.1 else f
  let chk := if macExists m then storedCheck r.1 r.2 else (Config.freeByte s.free).toNat
  let s1 := if macExists m then s else { s with free := s.free + 2 }
  let open_ := decide (s.fuses.lc ≤ 1)
  s1.setFlds [(R.ECC_TEST_DLO_DATA, if open_ then data else 0), (R.ECC_TEST_DHI_DATA, if open_ then data / 2 ^ 32 else 0),
    (R.ECC_TEST_CHK_CHK, chk)]

/-- OP 2: data and check bits are stored as given. -/
def testRawWrite (s0 : State) : State :=
  let m := s0.fld R.ECC_TEST_CTRL_MACRO
  let w := s0.fld R.ECC_TEST_ADDR_WORD
  let s := macSettle s0 m w
  let data := s.fld R.ECC_TEST_DLO_DATA + 2 ^ 32 * s.fld R.ECC_TEST_DHI_DATA
  if macExists m then macWrite s m w data (storedCheck data (s.fld R.ECC_TEST_CHK_CHK)) else s

def testOp (s : State) (op : Nat) : State := if op = 1 then testRawRead s else if op = 2 then testRawWrite s else s

end Sys2Proof.Machine
end

