-- ==== Sys2Proof/Machine/Mari.lean ====
section
/-! DEFINITION. Sys2Proof/Machine/Mari.lean: the marionette of a tile (06): streams, steps, the datapath operations, flags
and next-step selection, and the commands START, RESUME and ABORT. -/

namespace Sys2Proof.Machine

/-! ### Steps (Table 6.2) -/

/-- The fields of a step. -/
structure Step where
  op : Nat
  lw : Nat
  srca : Nat
  srcb : Nat
  dst : Nat
  msel : Bool
  mop : Nat
  mu : Bool
  sgn : Bool
  sat : Bool
  pk : Bool
  sh : Nat
  flag : Nat
  nextT : Nat
  nextF : Nat
  rep : Nat
  imm : Nat
  deriving DecidableEq, Repr

/-- The step a 128-bit word of step memory holds. -/
def stepOf (v : Nat) : Step :=
  { op := bitsOf v 0 6, lw := bitsOf v 6 2, srca := bitsOf v 8 4, srcb := bitsOf v 12 4, dst := bitsOf v 16 4,
    msel := bitOf v 20, mop := bitsOf v 21 2, mu := bitOf v 23, sgn := bitOf v 24, sat := bitOf v 25, pk := bitOf v 26,
    sh := bitsOf v 27 5, flag := bitsOf v 32 4, nextT := bitsOf v 48 11, nextF := bitsOf v 64 11, rep := bitsOf v 80 16,
    imm := bitsOf v 96 32 }

/-- The lane width in bytes. -/
def Step.w (st : Step) : Nat := 2 ^ st.lw

/-- The number of lanes. -/
def Step.lanes (st : Step) : Nat := 64 / st.w

/-! ### Lanes -/

/-- The lanes of a vector at a lane width of `w` bytes, `n` of them. -/
def lanesOf (w : Nat) (v : Nat) : Nat → List Nat
  | 0 => []
  | n + 1 => v % 2 ^ (8 * w) :: lanesOf w (v / 2 ^ (8 * w)) n

/-- A vector from its lanes. -/
def packLanes (w : Nat) : List Nat → Nat
  | [] => 0
  | x :: xs => x % 2 ^ (8 * w) + 2 ^ (8 * w) * packLanes w xs

/-- A lane's value under SGN. -/
def laneVal (sgn : Bool) (w x : Nat) : Int := if sgn then signedOf x (8 * w) else (x : Int)

/-- Narrow an exact result to a lane (R189): wrapped, or clamped to the nearest end; the flag says it was clamped. -/
def narrow (sgn sat : Bool) (w : Nat) (r : Int) : Nat × Bool :=
  let lo : Int := if sgn then -((2 ^ (8 * w - 1) : Nat) : Int) else 0
  let hi : Int := if sgn then ((2 ^ (8 * w - 1) : Nat) : Int) - 1 else ((2 ^ (8 * w) : Nat) : Int) - 1
  if sat ∧ r < lo then (unsignedOf lo (8 * w), true)
  else if sat ∧ hi < r then (unsignedOf hi (8 * w), true)
  else (unsignedOf r (8 * w), false)

/-- Narrow every lane; was any clamped? -/
def narrowAll (st : Step) (w : Nat) (rs : List Int) : List Nat × Bool :=
  let ps := rs.map (narrow st.sgn st.sat w)
  (ps.map Prod.fst, ps.any Prod.snd)

/-! ### Input streams (R183) -/

def isSpace (s : State) (t n : Nat) : Bool := s.flag (R.TILE_MIS_AHI_SPACE t n)
def isLen (s : State) (t n : Nat) : Nat := s.fld (R.TILE_MIS_LEN_LEN t n)
def isOffset (s : State) (t n : Nat) : Nat := tblGet 0 (s.tile t).mari.isOff n

/-- The global address of a stream's first byte. -/
def isBase (s : State) (t n : Nat) : Nat :=
  let lo := s.fld (R.TILE_MIS_ALO_ALO t n)
  if isSpace s t n then lo + 2 ^ 32 * s.fld (R.TILE_MIS_AHI_ADDR t n) else tileLocalAddr t lo

/-- Has all of the stream's length been read? -/
def isExhausted (s : State) (t n : Nat) : Bool := decide (isLen s t n ≤ isOffset s t n)

/-- Does a stream break R183? -/
def isBroken (s : State) (t n : Nat) : Bool :=
  !isSpace s t n && decide (0x100000 < s.fld (R.TILE_MIS_ALO_ALO t n) + isLen s t n)

/-- Is a stream metered (R184): its source lies in staging SRAM or in a DRAM landing buffer? -/
def isMetered (s : State) (t n : Nat) : Bool :=
  isSpace s t n &&
    (let a := isBase s t n
     (match targetOf s a with | .staging => true | _ => false) ||
      [false, true].any (fun f =>
        let b := landingBuffer s f
        decide (b.1 ≤ a) && decide (a < b.1 + b.2)))

/-- The position tag of the vector at a stream offset. -/
def isTag (s : State) (t n off w : Nat) : Nat := (s.fld (R.TILE_MIS_POS0_POS0 t n) + off / w) % 2 ^ 32

/-- The end codes of Table 6.6. -/
def endOk : Nat := 0
def endFail : Nat := 1
def endPaused : Nat := 2
def endAborted : Nat := 3
def errEos : Nat := 4
def errOvf : Nat := 5
def errGather : Nat := 6
def errBudget : Nat := 7
def errEcc : Nat := 8
def errBus : Nat := 9

/-- What an execution makes: a value with the state its reads leave, or an end of the run. -/
inductive Got (α : Type) where
  | ok (v : α) (s : State)
  | stop (code : Nat) (s : State)

/-- Fail the parcel whose landed data a stream read found uncorrectable (R197). -/
def landedEcc (s : State) (t a : Nat) : State :=
  match (s.tile t).job with
  | some j =>
    if j.ref.cp then s
    else
      match findParcel s j.ref.flow j.ref.seq with
      | some p => if p.land ≤ a ∧ a < p.land + p.len then failParcel s p.flow p.seq causeEcc else s
      | none => s
  | none => s

/-- Read 64 bytes of stream `n` at an offset. -/
def readStream (s : State) (t n off : Nat) : Got Nat :=
  if isLen s t n ≤ off then .stop errEos s
  else
    let a := isBase s t n + off
    match readGlobal s a 64 xoOther with
    | none => .stop errBus s
    | some (bs, s1, none) => .ok (leNat bs) s1
    | some (_, s1, some _) => .stop errEcc (landedEcc s1 t a)

/-- A source operand: the vector and its position tag (R187). -/
def readSrc (s : State) (t : Nat) (st : Step) (code : Nat) : Got (Nat × Nat) :=
  if code < 4 then
    match readStream s t code (isOffset s t code) with
    | .ok v s1 => .ok (v, isTag s t code (isOffset s t code) st.w) s1
    | .stop c s1 => .stop c s1
  else if code < 12 then
    .ok (tblGet 0 (s.tile t).mari.v (code - 4), tblGet 0 (s.tile t).mari.tag (code - 4)) s
  else if code = 12 then .ok (packLanes st.w (List.replicate st.lanes st.imm), 0) s
  else .ok (0, 0) s

/-! ### Masks -/

def maskOf (s : State) (t : Nat) (sel : Bool) : Nat := if sel then (s.tile t).mari.m1 else (s.tile t).mari.m0

/-- Combine a per-lane test into a mask (R189). -/
def combineMask (old : Nat) (mop lanes : Nat) (test : List Bool) : Nat :=
  let m := test.foldr (fun b acc => b2n b + 2 * acc) 0
  if mop = 0 then m
  else
    let low := old % 2 ^ lanes
    let c := if mop = 1 then low &&& m else low ||| m
    old - low + c

/-! ### One execution -/

/-- The effect of an execution: the result vector with its tag, the bytes for an output stream where they are not the
vector's 64, and what the flags read. `mask` is the new value of the selected mask, where the operation sets it. -/
structure Exec where
  vec : Nat
  tag : Nat
  bytes : Option (List Byte)
  mask : Option Nat
  zero : Bool
  clamped : Bool
  hovf : Bool
  nbout : Bool
  m : Mari
  acc : Option Nat
  deriving DecidableEq, Repr

/-- A plain result. -/
def plain (m : Mari) (vec tag : Nat) : Exec :=
  { vec := vec, tag := tag, bytes := none, mask := none, zero := vec == 0, clamped := false, hovf := false,
    nbout := false, m := m, acc := none }

/-- The tag a vector destination takes (R189): source A's, or source B's when source A is IMM or zero. -/
def tagAB (st : Step) (ta tb : Nat) : Nat := if 12 ≤ st.srca then tb else ta

/-- Read both sources; the same stream in both is read once (R187). -/
def readAB (s : State) (t : Nat) (st : Step) : Got ((Nat × Nat) × (Nat × Nat)) :=
  match readSrc s t st st.srca with
  | .stop c s1 => .stop c s1
  | .ok a s1 =>
    if st.srcb = st.srca then .ok (a, a) s1
    else
      match readSrc s1 t st st.srcb with
      | .stop c s2 => .stop c s2
      | .ok b s2 => .ok (a, b) s2

/-- The streams an operation of sources A and B reads. -/
def streamsAB (st : Step) : List Nat :=
  (if st.srca < 4 then [st.srca] else []) ++ (if st.srcb < 4 ∧ st.srcb ≠ st.srca then [st.srcb] else [])
def streamsA (st : Step) : List Nat := if st.srca < 4 then [st.srca] else []

/-- A lane-by-lane operation of A and B whose exact results are narrowed. -/
def opArith (f : Int → Int → Int) (s : State) (t : Nat) (st : Step) : Got Exec :=
  match readAB s t st with
  | .stop c s1 => .stop c s1
  | .ok (a, b) s1 =>
    let rs := List.zipWith (fun x y => f (laneVal st.sgn st.w x) (laneVal st.sgn st.w y))
      (lanesOf st.w a.1 st.lanes) (lanesOf st.w b.1 st.lanes)
    let n := narrowAll st st.w rs
    .ok { plain (s1.tile t).mari (packLanes st.w n.1) (tagAB st a.2 b.2) with clamped := n.2 } s1

/-- A bitwise operation of A and B. -/
def opBits (f : Nat → Nat → Nat) (s : State) (t : Nat) (st : Step) : Got Exec :=
  match readAB s t st with
  | .stop c s1 => .stop c s1
  | .ok (a, b) s1 => .ok (plain (s1.tile t).mari (f a.1 b.1) (tagAB st a.2 b.2)) s1

/-- A mask operation's execution from its test and result lanes. -/
def maskExec (s : State) (t : Nat) (st : Step) (test : List Bool) (lanes : List Nat) (tag : Nat) : Exec :=
  let m := combineMask (maskOf s t st.msel) st.mop st.lanes test
  { plain (s.tile t).mari (packLanes st.w lanes) tag with mask := some m, zero := m % 2 ^ st.lanes == 0 }

/-- A comparison of A and B. -/
def opCmp (f : Int → Int → Bool) (s : State) (t : Nat) (st : Step) : Got Exec :=
  match readAB s t st with
  | .stop c s1 => .stop c s1
  | .ok (a, b) s1 =>
    let test := List.zipWith (fun x y => f (laneVal st.sgn st.w x) (laneVal st.sgn st.w y))
      (lanesOf st.w a.1 st.lanes) (lanesOf st.w b.1 st.lanes)
    .ok (maskExec s1 t st test (test.map (fun b => if b then 2 ^ (8 * st.w) - 1 else 0)) (tagAB st a.2 b.2)) s1

def opNop (s : State) (t : Nat) (_ : Step) : Got Exec := .ok { plain (s.tile t).mari 0 0 with zero := true } s

def opMov (s : State) (t : Nat) (st : Step) : Got Exec :=
  match readSrc s t st st.srca with
  | .stop c s1 => .stop c s1
  | .ok a s1 => .ok (plain (s1.tile t).mari a.1 a.2) s1

def opThr (s : State) (t : Nat) (st : Step) : Got Exec :=
  match readSrc s t st st.srca with
  | .stop c s1 => .stop c s1
  | .ok a s1 =>
    let band (x : Nat) : Int := if st.lw = 0 then laneVal st.sgn 1 (x % 256) else laneVal st.sgn 2 x
    let lo := band (st.imm % 65536)
    let hi := band (st.imm / 65536)
    let xs := lanesOf st.w a.1 st.lanes
    let test := xs.map (fun x => decide (lo ≤ laneVal st.sgn st.w x ∧ laneVal st.sgn st.w x ≤ hi))
    .ok (maskExec s1 t st test (List.zipWith (fun x (b : Bool) => if b then x else 0) xs test) a.2) s1

def opSel (s : State) (t : Nat) (st : Step) : Got Exec :=
  match readAB s t st with
  | .stop c s1 => .stop c s1
  | .ok (a, b) s1 =>
    let m := maskOf s1 t st.msel
    let xs := (List.range st.lanes).map (fun i =>
      bitsOf (if m.testBit i then a.1 else b.1) (8 * st.w * i) (8 * st.w))
    .ok (plain (s1.tile t).mari (packLanes st.w xs) (tagAB st a.2 b.2)) s1

def opShift (f : Int → Int) (s : State) (t : Nat) (st : Step) : Got Exec :=
  match readSrc s t st st.srca with
  | .stop c s1 => .stop c s1
  | .ok a s1 =>
    let n := narrowAll st st.w ((lanesOf st.w a.1 st.lanes).map (fun x => f (laneVal st.sgn st.w x)))
    .ok { plain (s1.tile t).mari (packLanes st.w n.1) a.2 with clamped := n.2 } s1

def opShn (s : State) (t : Nat) (st : Step) : Got Exec :=
  match readAB s t st with
  | .stop c s1 => .stop c s1
  | .ok (a, b) s1 =>
    let xs := lanesOf st.w a.1 st.lanes ++ lanesOf st.w b.1 st.lanes
    let n := narrowAll st (st.w / 2) (xs.map (fun x => laneVal st.sgn st.w x / ((2 ^ st.sh : Nat) : Int)))
    .ok { plain (s1.tile t).mari (packLanes (st.w / 2) n.1) (tagAB st a.2 b.2) with clamped := n.2 } s1

/-- The number of set bits among the first `n`. -/
def popBits (m n : Nat) : Nat := ((List.range n).filter (fun i => m.testBit i)).length

def opPopc (s : State) (t : Nat) (st : Step) : Got Exec :=
  let n := popBits (maskOf s t st.msel) st.lanes
  .ok { plain (s.tile t).mari (packLanes st.w (List.replicate st.lanes (min n (2 ^ (8 * st.w) - 1)))) 0 with
    zero := n == 0, acc := some ((s.fld (R.TILE_MACC_ACC t) + n) % 2 ^ 32) } s

/-- Running sums from a carry. -/
def prefixSums (c : Int) : List Int → List Int
  | [] => []
  | x :: xs => (c + x) :: prefixSums (c + x) xs

def opPsum (s : State) (t : Nat) (st : Step) : Got Exec :=
  match readSrc s t st st.srca with
  | .stop c s1 => .stop c s1
  | .ok a s1 =>
    let m := (s1.tile t).mari
    let c0 := if m.fresh ∧ st.imm % 2 = 0 then 0 else m.carry
    let n := narrowAll st st.w (prefixSums (laneVal st.sgn 4 c0)
      ((lanesOf st.w a.1 st.lanes).map (laneVal st.sgn st.w)))
    let last := n.1.getLast?.getD 0
    .ok { plain { m with carry := unsignedOf (laneVal st.sgn st.w last) 32 } (packLanes st.w n.1) a.2 with
      clamped := n.2 } s1

/-- The lanes of A whose mask bit is 1, with their numbers. -/
def selected (m : Nat) (xs : List Nat) : List (Nat × Nat) :=
  ((List.range xs.length).zip xs).filter (fun e => m.testBit e.1)

def opCpk (s : State) (t : Nat) (st : Step) : Got Exec :=
  match readSrc s t st st.srca with
  | .stop c s1 => .stop c s1
  | .ok a s1 =>
    let xs := (selected (maskOf s1 t st.msel) (lanesOf st.w a.1 st.lanes)).map Prod.snd
    .ok { plain (s1.tile t).mari (packLanes st.w xs) a.2 with
      bytes := some ((xs.map (leBytes st.w)).flatten), zero := xs.isEmpty } s1

def opCpkp (s : State) (t : Nat) (st : Step) : Got Exec :=
  match readSrc s t st st.srca with
  | .stop c s1 => .stop c s1
  | .ok a s1 =>
    let xs := selected (maskOf s1 t st.msel) (lanesOf st.w a.1 st.lanes)
    let rec1 (e : Nat × Nat) : List Byte :=
      leBytes 4 ((a.2 + e.1) % 2 ^ 32) ++ leBytes 4 (unsignedOf (laneVal st.sgn st.w e.2) 32)
    .ok { plain (s1.tile t).mari 0 a.2 with bytes := some ((xs.map rec1).flatten), zero := xs.isEmpty } s1

/-- Count bins in tile local memory (R190, R191): a counter at its top stays and sets HOVF. -/
def histBins (s : State) (t base : Nat) (hov : Bool) : List Nat → Got Bool
  | [] => .ok hov s
  | b :: bs =>
    let a := tileLocalAddr t (base + 4 * b)
    match readRam s a 4 with
    | (_, s1, some _) => .stop errEcc s1
    | (old, s1, none) =>
      if leNat old = 0xFFFFFFFF then histBins s1 t base true bs
      else histBins (writeMem s1 a (leBytes 4 (leNat old + 1)) none tagLocal) t base hov bs

/-- The bytes of a tile's local memory put back to what they were, for an execution that ends the run (R196). -/
def restoreMem (s old : State) : State :=
  { s with mem := old.mem, merge := old.merge, ecc := { s.ecc with syn := old.ecc.syn } }

def opHist (s : State) (t : Nat) (st : Step) : Got Exec :=
  match readSrc s t st st.srca with
  | .stop c s1 => .stop c s1
  | .ok a s1 =>
    let nb := st.imm / 2 ^ 20 + 1
    let m := maskOf s1 t st.msel
    let xs := ((List.range st.lanes).zip (lanesOf st.w a.1 st.lanes)).filter (fun e => !st.mu || m.testBit e.1)
    match histBins s1 t (st.imm % 2 ^ 20) false (xs.map (fun e => min (e.2 / 2 ^ st.sh) (nb - 1))) with
    | .stop c s2 => .stop c (restoreMem s2 s1)
    | .ok h s2 => .ok { plain (s2.tile t).mari 0 a.2 with zero := xs.isEmpty, hovf := h } s2

/-- Fetch the elements of a gather, in lane order (R191). -/
def gather (s : State) (t w : Nat) : List Nat → Got (List Nat)
  | [] => .ok [] s
  | o :: os =>
    if 0x100000 ≤ o then .stop errGather s
    else
      match readRam s (tileLocalAddr t o) w with
      | (_, s1, some _) => .stop errEcc s1
      | (bs, s1, none) =>
        match gather s1 t w os with
        | .stop c s2 => .stop c s2
        | .ok r s2 => .ok (leNat bs :: r) s2

def opGath (s : State) (t : Nat) (st : Step) : Got Exec :=
  match readSrc s t st st.srca with
  | .stop c s1 => .stop c s1
  | .ok a s1 =>
    match gather s1 t st.w ((lanesOf st.w a.1 st.lanes).map (fun x => st.imm + x * st.w)) with
    | .stop c s2 => .stop c s2
    | .ok xs s2 => .ok (plain (s2.tile t).mari (packLanes st.w xs) a.2) s2

/-! ### Neighbourhood operations (R192, R193) -/

/-- The rows around the consumed vector: the row above, the centre row and the row below with the lookahead lane. -/
structure Rows where
  up : List Nat
  mid : List Nat
  low : List Nat
  col : Nat
  line : Nat
  free : Nat
  deriving DecidableEq, Repr

/-- A sample of a row; outside the row it is none. A place of a row that no neighbourhood step has filled is free. -/
def sampleAt (r : List Nat) (line free w : Nat) (c : Int) : Option Nat :=
  if c < 0 ∨ (line : Int) ≤ c then none
  else some (r.getD c.toNat ((Config.freeWord (free + c.toNat)).toNat % 2 ^ (8 * w)))

/-- The nine samples around column `c`: the four before the centre in raster order, the centre, the four after it. -/
def nine (rw : Rows) (w : Nat) (c : Nat) : List (Option Nat) :=
  let g (r : List Nat) (d : Int) := sampleAt r rw.line rw.free w ((c : Int) + d)
  [g rw.up (-1), g rw.up 0, g rw.up 1, g rw.mid (-1), g rw.mid 0, g rw.mid 1, g rw.low (-1), g rw.low 0, g rw.low 1]

/-- Consume a vector of the raster: its tag, the rows where it produces an output, and the line buffers after it. -/
def readRaster (s : State) (t : Nat) (st : Step) : Got (Nat × Option Rows × Mari) :=
  let n := st.srca
  let off := isOffset s t n
  match readStream s t n off with
  | .stop c s1 => .stop c s1
  | .ok v s1 =>
    let m := (s1.tile t).mari
    let vpr := m.line * st.w / 64
    let k := off / 64 % vpr
    let r := off / 64 / vpr
    let tag := (2 ^ 32 + isTag s t n off st.w - m.line % 2 ^ 32) % 2 ^ 32
    let xs := lanesOf st.w v st.lanes
    let m0 := if k = 0 then { m with row2 := m.row1, row1 := m.row0, row0 := [] } else m
    let m1 := { m0 with row0 := m0.row0 ++ xs, nrow := r }
    let after := if st.pk then m else m1
    if r < 2 then .ok (tag, none, after) s1
    else if k + 1 = vpr then .ok (tag, some ⟨m1.row2, m1.row1, m1.row0, k * st.lanes, m1.line, s1.free⟩, after) s1
    else
      match readStream s1 t n (off + 64) with
      | .stop c s2 => .stop c s2
      | .ok nxt s2 =>
        .ok (tag, some ⟨m1.row2, m1.row1, m1.row0 ++ lanesOf st.w nxt 1, k * st.lanes, m1.line, s2.free⟩, after) s2

def opNsum3 (s : State) (t : Nat) (st : Step) : Got Exec :=
  match readRaster s t st with
  | .stop c s1 => .stop c s1
  | .ok (tag, none, m) s1 => .ok { plain m 0 tag with bytes := some [], zero := true } s1
  | .ok (tag, some rw, m) s1 =>
    let sum (c : Nat) : Int := (nine rw st.w c).foldl (fun a x => a + (match x with | some v => laneVal st.sgn st.w v | none => 0)) 0
    let n := narrowAll st st.w ((List.range st.lanes).map (fun i => sum (rw.col + i)))
    .ok { plain m (packLanes st.w n.1) tag with clamped := n.2, nbout := true } (s1.fresh).2

/-- Is the centre a local maximum: greater than the four before it, at least equal to the four after it? -/
def isLmax (sgn : Bool) (w : Nat) (xs : List (Option Nat)) : Bool :=
  match xs with
  | [a, b, c, d, some x, e, f, g, h] =>
    let v := laneVal sgn w x
    [a, b, c, d].all (fun o => match o with | some y => decide (laneVal sgn w y < v) | none => true) &&
      [e, f, g, h].all (fun o => match o with | some y => decide (laneVal sgn w y ≤ v) | none => true)
  | _ => false

def opLmax3 (s : State) (t : Nat) (st : Step) : Got Exec :=
  match readRaster s t st with
  | .stop c s1 => .stop c s1
  | .ok (tag, none, m) s1 =>
    let e := maskExec s1 t st (List.replicate st.lanes false) [] tag
    .ok { e with bytes := some [], zero := true, m := m } s1
  | .ok (tag, some rw, m) s1 =>
    let cs := (List.range st.lanes).map (fun i => nine rw st.w (rw.col + i))
    let e := maskExec s1 t st (cs.map (isLmax st.sgn st.w)) (cs.map (fun x => ((x.getD 4 none).getD 0))) tag
    .ok { e with m := m, nbout := true } (s1.fresh).2

/-! ### Writing the result -/

/-- Advance the streams a step has read, unless PK (R189, R195). -/
def advance (m : Mari) (st : Step) (ns : List Nat) : Mari :=
  if st.pk then m
  else ns.foldl (fun acc n => { acc with isOff := tblSet 0 acc.isOff n (tblGet 0 acc.isOff n + 64) }) m

/-- Lanes of a vector destination: with MU, the lanes whose mask bit is 0 keep their value. -/
def mergeMu (st : Step) (mask old new : Nat) : Nat :=
  if st.mu then
    packLanes st.w ((List.range st.lanes).map (fun i =>
      bitsOf (if mask.testBit i then new else old) (8 * st.w * i) (8 * st.w)))
  else new

/-- What a write to an output stream comes to: done, or a destination without room, or past its limit. -/
inductive Put where
  | done (s : State)
  | wait
  | over (s : State)

/-- Deliver bytes to an output stream's destination. -/
def deliver (s : State) (t n : Nat) (bs : List Byte) : State :=
  let used := s.fld (R.TILE_MOS_USED_USED t n)
  let s1 := s.setFld (R.TILE_MOS_USED_USED t n) (used + bs.length)
  match s.fld (R.TILE_MOS_DEST_DEST t n) with
  | 0 => writeMem s1 (tileLocalAddr t (s.fld (R.TILE_MOS_ADDR_ADDR t n) + used)) bs none tagLocal
  | 1 => match (s.tile t).job with
    | some j => codecPut s1 t j.ref bs
    | none => s1
  | _ => match (s.tile t).job with
    | some j => kqPut s1 t j bs
    | none => s1

/-- Has an output stream's destination room for `len` bytes (R198: its 4 KiB buffer)? -/
def hasRoom (s : State) (t n len : Nat) : Bool :=
  match s.fld (R.TILE_MOS_DEST_DEST t n) with
  | 0 => true
  | 1 => decide (codecWaiting (s.tile t) + len ≤ 4096) || len == 0
  | _ => decide (kqTotal (s.tile t) + len ≤ 8192) || len == 0

/-- Write an execution's bytes to an output stream (R189, R196): bytes up to LIMIT are kept under ERR_OVF. -/
def putStream (s : State) (t n : Nat) (bs : List Byte) : Put :=
  let used := s.fld (R.TILE_MOS_USED_USED t n)
  let lim := s.fld (R.TILE_MOS_LIMIT_LIMIT t n)
  let addr := s.fld (R.TILE_MOS_ADDR_ADDR t n)
  if !hasRoom s t n bs.length then .wait
  else if lim ≠ 0 ∧ lim < used + bs.length then
    let keep := bs.take (lim - used)
    if s.fld (R.TILE_MOS_DEST_DEST t n) = 0 ∧ 0x100000 < addr + used + keep.length then .over s
    else .over (deliver s t n keep)
  else if s.fld (R.TILE_MOS_DEST_DEST t n) = 0 ∧ 0x100000 < addr + used + bs.length ∧ bs ≠ [] then .over s
  else .done (deliver s t n bs)

/-- The flag a step tests (Table 6.5), on the state its execution leaves. -/
def testFlag (s : State) (t : Nat) (st : Step) (e : Exec) : Bool :=
  let m := maskOf s t st.msel % 2 ^ st.lanes
  let full (n : Nat) : Bool :=
    let lim := s.fld (R.TILE_MOS_LIMIT_LIMIT t n)
    lim != 0 && decide (lim < s.fld (R.TILE_MOS_USED_USED t n) + 512)
  match st.flag with
  | 0 => false
  | 1 => true
  | 2 => e.zero
  | 3 => m != 0
  | 4 => m == 2 ^ st.lanes - 1
  | 5 => isExhausted s t 0
  | 6 => isExhausted s t 1
  | 7 => isExhausted s t 2
  | 8 => isExhausted s t 3
  | 9 => full 0
  | 10 => full 1
  | 11 => e.clamped
  | 12 => e.hovf
  | 13 => s.flag (R.TILE_MSWF_SWF t)
  | 14 => e.nbout
  | _ => false

/-- Change a tile's marionette. -/
def updMari (s : State) (t : Nat) (g : Mari → Mari) : State := s.setTile t { s.tile t with mari := g (s.tile t).mari }

/-- The run reaches an end; it is reported once its bytes have been accepted (R203). -/
def mariEnding (s : State) (t code : Nat) : State := updMari s t (fun m => { m with ending := some code })

/-- Next-step selection (R195). -/
def selectNext (s : State) (t : Nat) (st : Step) (flag : Bool) : State :=
  let m := (s.tile t).mari
  let k := m.k + 1
  if !flag && (st.rep == 65535 || decide (k ≤ st.rep)) then updMari s t (fun m => { m with k := k, fresh := false })
  else
    let nxt := if flag then st.nextT else st.nextF
    if nxt < 1024 then updMari s t (fun m => { m with step := nxt, k := 0, fresh := decide (nxt ≠ m.step) })
    else if nxt = 0x400 then mariEnding s t endOk
    else if nxt = 0x401 then mariEnding s t endFail
    else mariEnding s t endPaused

/-- Write an execution's effects, then select the next step. -/
def finishExec (s : State) (t : Nat) (st : Step) (ns : List Nat) (e : Exec) : State :=
  let old := tblGet 0 e.m.v st.dst
  let m1 := advance e.m st ns
  let m2 := if st.dst < 8 ∧ st.op ≠ 0 ∧ st.op ≠ 0x15 then
      { m1 with v := tblSet 0 m1.v st.dst (mergeMu st (maskOf s t st.msel) old e.vec), tag := tblSet 0 m1.tag st.dst e.tag }
    else m1
  let m3 := match e.mask with
    | some x => if st.msel then { m2 with m1 := x } else { m2 with m0 := x }
    | none => m2
  let s1 := updMari s t (fun _ => m3)
  let s2 := match e.acc with | some a => s1.setFld (R.TILE_MACC_ACC t) a | none => s1
  let s3 := (s2.addWrap (R.TILE_MEXEC_COUNT t) 1).setFld (R.TILE_MSTAT_LAST t) (s.tile t).mari.step
  selectNext s3 t st (testFlag s3 t st e)

/-- The step the marionette executes next, where it runs and its budget is not spent (R195). -/
def dueStep (s : State) (t : Nat) : Option Step :=
  let m := (s.tile t).mari
  if s.fld (R.TILE_MSTAT_MSTATE t) ≠ 2 ∨ m.ending.isSome then none
  else if m.budget ≠ 0 ∧ s.fld (R.TILE_MEXEC_COUNT t) = m.budget then none
  else some (stepOf (m.steps.getD m.step 0))

/-- The bytes an execution writes to an output stream (Table 6.3). -/
def streamBytes (e : Exec) : List Byte := match e.bytes with | some b => b | none => leBytes 64 e.vec

/-- One execution of a step whose operation code lies in `[lo, hi]`; nothing happens where none is due. -/
def mariRun (s : State) (t lo hi : Nat) (streams : Step → List Nat) (f : State → Nat → Step → Got Exec) : State :=
  match dueStep s t with
  | none => s
  | some st =>
    if st.op < lo ∨ hi < st.op then s
    else
      match f s t st with
      | .stop c s1 => mariEnding s1 t c
      | .ok e s1 =>
        if st.op ≠ 0 ∧ (st.dst = 8 ∨ st.dst = 9) then
          match putStream s1 t (st.dst - 8) (streamBytes e) with
          | .wait => s
          | .over s2 => mariEnding s2 t errOvf
          | .done s2 => finishExec s2 t st (streams st) e
        else finishExec s1 t st (streams st) e

/-! ### Commands (R202 to R205) -/

def tileClaimErr (s : State) (t : Nat) : State := s.raise (R.TILE_STATUS_CLAIMERR t)
def tileCfgErr (s : State) (t : Nat) : State := s.raise (R.TILE_STATUS_CFGERR t)

/-- The local address of table `n` of a set whose tables begin at `a`. -/
def tableAddr (s : State) (t : Nat) (a : Nat) : Nat → Nat
  | 0 => a
  | n + 1 => tableAddr s t (a + 64 + 16 * s.memNat (tileLocalAddr t (a + 2)) 2) n

/-- The run starts at a step with MSTATE RUNNING. -/
def mariGo (s : State) (t : Nat) : State := s.setFld (R.TILE_MSTAT_MSTATE t) 2

/-- The loading that the tile's current set came from. -/
def curLoading (s : State) (t : Nat) : Nat :=
  match tblGet none s.loaded.sets (s.fld (R.TILE_MSET_SET t)) with
  | some x => x.loading
  | none => 0

/-- START (R202): vectors, masks, carry and line buffers are cleared; a table resident in step memory runs at once. -/
def mariStart (s : State) (t tab : Nat) : State :=
  if s.fld (R.TILE_MSTAT_MSTATE t) ≠ 0 then tileClaimErr s t
  else if s.fld (R.TILE_MSET_NTAB t) ≤ tab ∨ (List.range 4).any (isBroken s t) then tileCfgErr s t
  else
    let same := (s.tile t).mari.resident == some (curLoading s t, tab)
    let s1 := updMari s t (fun m => { m with
      v := [], tag := [], m0 := 0, m1 := 0, carry := 0, row2 := [], row1 := [], row0 := [], nrow := 0, isOff := [],
      isRewritten := [], osRewritten := [], ending := none, tab := tab, step := m.start, k := 0, fresh := true,
      resident := if same then m.resident else none })
    let s2 := s1.setFlds [(R.TILE_MEXEC_COUNT t, 0), (R.TILE_MOS_USED_USED t 0, 0), (R.TILE_MOS_USED_USED t 1, 0),
      (R.TILE_MCMD_TAB t, tab)]
    if same then mariGo s2 t else s2.setFld (R.TILE_MSTAT_MSTATE t) 1

/-- The copy of the table into step memory ends and the run begins (R195, R202). -/
def mariLoadDone (s : State) (t : Nat) : State :=
  if s.fld (R.TILE_MSTAT_MSTATE t) ≠ 1 then s
  else
    let a := tableAddr s t (s.fld (R.TILE_MSET_BASE t) + 64) (s.tile t).mari.tab
    let g := tileLocalAddr t a
    let n := s.memNat (g + 2) 2
    match readRam s g (64 + 16 * n) with
    | (bs, s1, bad) =>
      let steps := (List.range n).map (fun i => leAt bs (64 + 16 * i) 16)
      let s2 := updMari s1 t (fun m => { m with
        steps := steps, nstep := n, line := leAt bs 4 2, start := leAt bs 6 2, budget := leAt bs 8 4,
        step := leAt bs 6 2, k := 0, fresh := true,
        resident := if bad.isSome then none else some (curLoading s t, m.tab) })
      let s3 := mariGo s2 t
      if bad.isSome then mariEnding s3 t errEcc else s3

/-- RESUME (R202, R204): streams whose registers were written during the pause restart. -/
def mariResume (s : State) (t step : Nat) : State :=
  if s.fld (R.TILE_MSTAT_MSTATE t) ≠ 3 then tileClaimErr s t
  else if (s.tile t).mari.nstep ≤ step ∨ (List.range 4).any (isBroken s t) then tileCfgErr s t
  else
    let m := (s.tile t).mari
    let s1 := m.osRewritten.foldl (fun acc n => acc.setFld (R.TILE_MOS_USED_USED t n) 0) s
    let s2 := updMari s1 t (fun m => { m with
      isOff := tblKeep (fun n => !m.isRewritten.contains n) m.isOff, isRewritten := [], osRewritten := [],
      step := step, k := 0, fresh := decide (step ≠ s.fld (R.TILE_MSTAT_LAST t)) })
    mariGo s2 t

/-- A run is over: MSTATE, END and TILE_CIRQ.MARI (R203). -/
def mariReport (s : State) (t code : Nat) : State :=
  ((updMari s t (fun m => { m with ending := none })).setFlds
    [(R.TILE_MSTAT_MSTATE t, if code = endPaused then 3 else 0), (R.TILE_MSTAT_END t, code)]).raise (R.TILE_CIRQ_MARI t)

/-- ABORT (R202): accepted without effect once the run has reached its end or a pause that is not yet reported. -/
def mariAbort (s : State) (t : Nat) : State :=
  let st := s.fld (R.TILE_MSTAT_MSTATE t)
  if st = 0 then tileClaimErr s t
  else if (s.tile t).mari.ending.isSome then s
  else if st = 2 then mariEnding s t endAborted
  else mariReport s t endAborted

/-- Have the destinations accepted every byte the run wrote (R203)? -/
def outputsAccepted (x : Tile) : Bool := codecWaiting x == 0 && decide (kqTotal x ≤ 4096)

/-- The end or pause of a run is reported (R203). -/
def mariRunEnd (s : State) (t : Nat) : State :=
  match (s.tile t).mari.ending with
  | none => s
  | some c =>
    if s.fld (R.TILE_MSTAT_MSTATE t) = 2 ∧ outputsAccepted (s.tile t) then mariReport s t c else s

/-- The budget of the table is spent (R195). -/
def mariBudget (s : State) (t : Nat) : State :=
  let m := (s.tile t).mari
  if s.fld (R.TILE_MSTAT_MSTATE t) = 2 ∧ m.ending = none ∧ m.budget ≠ 0 ∧ s.fld (R.TILE_MEXEC_COUNT t) = m.budget then
    mariEnding s t errBudget
  else s

/-! ### The rows of the opcode table -/

def execMariNop (t : TileId) (s : State) : Result := .next (mariRun s t 0x00 0x00 (fun _ => []) opNop)
def execMariMov (t : TileId) (s : State) : Result := .next (mariRun s t 0x01 0x01 streamsA opMov)
def execMariAdd (t : TileId) (s : State) : Result := .next (mariRun s t 0x02 0x02 streamsAB (opArith (· + ·)))
def execMariSub (t : TileId) (s : State) : Result := .next (mariRun s t 0x03 0x03 streamsAB (opArith (· - ·)))
def execMariMin (t : TileId) (s : State) : Result := .next (mariRun s t 0x04 0x04 streamsAB (opArith min))
def execMariMax (t : TileId) (s : State) : Result := .next (mariRun s t 0x05 0x05 streamsAB (opArith max))
def execMariAnd (t : TileId) (s : State) : Result := .next (mariRun s t 0x06 0x06 streamsAB (opBits (· &&& ·)))
def execMariOr (t : TileId) (s : State) : Result := .next (mariRun s t 0x07 0x07 streamsAB (opBits (· ||| ·)))
def execMariXor (t : TileId) (s : State) : Result := .next (mariRun s t 0x08 0x08 streamsAB (opBits (· ^^^ ·)))
def execMariCmpgt (t : TileId) (s : State) : Result :=
  .next (mariRun s t 0x09 0x09 streamsAB (opCmp (fun a b => decide (b < a))))
def execMariCmpge (t : TileId) (s : State) : Result :=
  .next (mariRun s t 0x0A 0x0A streamsAB (opCmp (fun a b => decide (b ≤ a))))
def execMariCmpeq (t : TileId) (s : State) : Result :=
  .next (mariRun s t 0x0B 0x0B streamsAB (opCmp (fun a b => decide (a = b))))
def execMariThr (t : TileId) (s : State) : Result := .next (mariRun s t 0x0C 0x0C streamsA opThr)
def execMariSel (t : TileId) (s : State) : Result := .next (mariRun s t 0x0D 0x0D streamsAB opSel)
def execMariShl (t : TileId) (s : State) : Result :=
  .next (mariRun s t 0x0E 0x0E streamsA (fun s t st => opShift (fun x => x * ((2 ^ st.sh : Nat) : Int)) s t st))
def execMariShr (t : TileId) (s : State) : Result :=
  .next (mariRun s t 0x0F 0x0F streamsA (fun s t st => opShift (fun x => x / ((2 ^ st.sh : Nat) : Int)) s t st))
def execMariShn (t : TileId) (s : State) : Result := .next (mariRun s t 0x10 0x10 streamsAB opShn)
def execMariPopc (t : TileId) (s : State) : Result := .next (mariRun s t 0x11 0x11 (fun _ => []) opPopc)
def execMariPsum (t : TileId) (s : State) : Result := .next (mariRun s t 0x12 0x12 streamsA opPsum)
def execMariCpk (t : TileId) (s : State) : Result := .next (mariRun s t 0x13 0x13 streamsA opCpk)
def execMariCpkp (t : TileId) (s : State) : Result := .next (mariRun s t 0x14 0x14 streamsA opCpkp)
def execMariHist (t : TileId) (s : State) : Result := .next (mariRun s t 0x15 0x15 streamsA opHist)
def execMariNsum3 (t : TileId) (s : State) : Result := .next (mariRun s t 0x16 0x16 streamsA opNsum3)
def execMariLmax3 (t : TileId) (s : State) : Result := .next (mariRun s t 0x17 0x17 streamsA opLmax3)
def execMariGath (t : TileId) (s : State) : Result := .next (mariRun s t 0x18 0x18 streamsA opGath)
def execMariLoadDone (t : TileId) (s : State) : Result := .next (mariLoadDone s t)
def execMariRunEnd (t : TileId) (s : State) : Result := .next (mariRunEnd s t)
def execMariBudgetExpiry (t : TileId) (s : State) : Result := .next (mariBudget s t)

end Sys2Proof.Machine
end

