-- ==== Sys2Proof/Machine/Cstore.lean ====
section
/-! DEFINITION. Sys2Proof/Machine/Cstore.lean: the code store's operations (R429 to R443), firmware slots (R444 to R449)
and the watchdog (R451 to R453). -/

namespace Sys2Proof.Machine

/-! ### Flag rows, marks and the array (R429, R438 to R441) -/

/-- The first four bytes of a block's flag row: the erase-started cell low, the erase-done cell high. -/
def csFlags (s : State) (b : Nat) : Nat := tblGet 0xFFFFFFFF s.code.flags b
def setCsFlags (s : State) (b v : Nat) : State :=
  { s with code := { s.code with flags := tblSet 0xFFFFFFFF s.code.flags b v } }

/-- Byte 0 of a block's mark row: other than 0xFF, the block is factory bad (R441). -/
def csMark (s : State) (b : Nat) : Nat := tblGet 0xFF s.code.marks b

/-- Erase the array of a block: every cell reads 1. -/
def csEraseArr (s : State) (b : Nat) : State :=
  { s with code := { s.code with arr := tblKeep (fun a => a / csBlockSize != b) s.code.arr } }

/-- Program bytes at a physical address: programming clears bits only (R429). -/
def csProgram (s : State) (a : Nat) : List Byte → State
  | [] => s
  | x :: xs =>
    csProgram { s with code := { s.code with arr := tblSet 0xFF s.code.arr a (csByte s a &&& x) } } (a + 1) xs

/-- Must the boot ROM erase a block again (Table 15.5)? -/
def csInterrupted (s : State) (b : Nat) : Bool :=
  let f := csFlags s b
  if f % 0x10000 = 0xFFFF then f / 0x10000 != 0xFFFF else f / 0x10000 != 0

/-- The whole erase sequence of R438: with success, or stopped in its array erase with the erase-done cell left erased. -/
def csEraseWhole (s : State) (b : Nat) (ok : Bool) : State :=
  if ok then setCsFlags (csEraseArr s b) b 0 else setCsFlags s b 0xFFFF0000

/-! ### Operations of the controller (R434, R438) -/

/-- The house core that a requester is. -/
def houseOf (rq : Requester) : Option Nat :=
  match rq with
  | .core c => if 32 ≤ c.val then some c.val else none
  | _ => none

/-- Was the storing instruction fetched from the gate routine (R432)? -/
def inGate (s : State) (rq : Requester) : Bool :=
  match houseOf rq with
  | some c => decide (0x00800100 ≤ (s.core c).pc.toNat) && decide ((s.core c).pc.toNat ≤ 0x008007FF)
  | none => false

/-- GATE_REJECT: a write not issued from the gate routine is ignored. -/
def gateReject (s : State) : State := (setClaimErr s .cstore).raise R.CSTORE_ISR_GATEREJ

/-- Start an operation of the controller on a logical address: one runs at a time. -/
def csStart (s : State) (op addr src : Nat) : Option State :=
  if s.code.op.isSome ∨ ¬ blockOn s .cstore then none
  else
    match csPhys s (addr / csBlockSize) with
    | none => none
    | some p =>
      let data := if op = 1 then [] else (readRam s (houseBase + src) 256).1
      let o : CsOp := { op := op, stage := 1, block := p, page := p * csBlockSize + addr % csBlockSize, data := data }
      some { s with code := { s.code with op := some o } }

/-- CMD.GO with an operation: from the gate routine only. -/
def csGo (s : State) (rq : Requester) (op : Nat) : State :=
  if !inGate s rq then gateReject s
  else if op = 0 ∨ 4 ≤ op then s
  else
    let s1 := s.setFld R.CSTORE_CMD_OP op
    match csStart s1 op (s.fld R.CSTORE_ADDR_ADDR) (s.fld R.CSTORE_SRC_SRC) with
    | some s2 => s2
    | none => s1

/-- The end of the operation in progress, with its CSTORE_RES code. -/
def csEnd (s : State) (o : CsOp) (code : Nat) : State :=
  let s1 := { s with code := { s.code with op := none } }.setFlds
    [(R.CSTORE_RES_CODE, code), (R.CSTORE_RES_PBLOCK, o.block), (R.CSTORE_RES_VALID, 1)]
  (if code = 0 then s1 else s1.raise R.CSTORE_ISR_FAIL).raise R.CSTORE_ISR_DONE

/-- One step of the operation in progress ends, well or not (R438): an erase sequence ends with its fifth step or the
first that fails. -/
def csOpDone (s : State) (ok : Bool) : State :=
  match s.code.op with
  | none => s
  | some o =>
    let go (st : State) : State := { st with code := { st.code with op := some { o with stage := o.stage + 1 } } }
    if o.op = 1 then
      match o.stage with
      | 1 => if ok then go (setCsFlags s o.block 0xFFFFFFFF) else csEnd s o 1
      | 2 => if ok then go (setCsFlags s o.block 0xFFFF0000) else csEnd s o 1
      | 3 => if ok then go (csEraseArr s o.block) else csEnd s o 1
      | 4 => if ok then go s else csEnd s o 1
      | _ => if ok then csEnd (setCsFlags s o.block 0) o 0 else csEnd s o 1
    else if ok then csEnd (csProgram s o.page o.data) o 0
    else csEnd s o 2

/-- Free bytes from a place of the free-value stream on. -/
def freeBytes (k n : Nat) : List Byte := (List.range n).map (fun i => Config.freeByte (k + i))

/-- A reset cuts off the operation in progress (R452): what the cell or array it was working on holds is open; flag cells
and pages only lose bits. -/
def csCutOff (s : State) : State :=
  match s.code.op with
  | none => s
  | some o =>
    let k := s.free
    let s0 := { s with free := k + csBlockSize, code := { s.code with op := none } }
    if o.op = 1 then
      match o.stage with
      | 1 => setCsFlags s0 o.block (leNat (freeBytes k 4))
      | 2 => setCsFlags s0 o.block (0xFFFF0000 + leNat (freeBytes k 2))
      | 3 => { s0 with code := { s0.code with
                 arr := tblSetRange 0xFF s0.code.arr (o.block * csBlockSize) (freeBytes k csBlockSize) } }
      | 4 => s0
      | _ => setCsFlags s0 o.block (0x10000 * leNat (freeBytes k 2))
    else csProgram s0 o.page (List.zipWith (fun a b => a ||| b) o.data (freeBytes k 256))

/-! ### The grown table (R442, R443) -/

/-- Record `i` of copy `c` of the grown table: its SEQ and its blocks, where it is valid. -/
def grownRecord (s : State) (c i : Nat) : Option (Nat × List Nat) :=
  let r := csBytes s (c * csBlockSize + 256 * i) 256
  let n := leAt r 8 4
  if leAt r 0 4 = 0x4E575247 ∧ n ≤ 59 ∧ leAt r 0xFC 4 = crc32c (r.take 0xFC) then
    some (leAt r 4 4, (List.range n).map (fun k => leAt r (0x10 + 4 * k) 4 % 1024))
  else none

/-- The current table: the valid record of highest SEQ in either copy. -/
def grownTable (s : State) : Option (Nat × List Nat) :=
  ((List.range 2).flatMap (fun c => (List.range 256).filterMap (grownRecord s c))).foldl (fun best r =>
    match best with
    | none => some r
    | some b => if b.1 < r.1 then some r else some b) none

/-- The bytes of a grown-table record (Table 15.6). -/
def grownBytes (seq : Nat) (bs : List Nat) : List Byte :=
  let body := leBytes 4 0x4E575247 ++ leBytes 4 seq ++ leBytes 4 bs.length ++ leBytes 4 0 ++
    bs.flatMap (leBytes 4) ++ List.replicate (4 * (59 - bs.length)) 0xFF
  body ++ leBytes 4 (crc32c body)

/-- Is a page of the array erased? -/
def pageErased (s : State) (a : Nat) : Bool := (csBytes s a 256).all (fun b => b == 0xFF)

/-- The page after the last page of a block that is not fully erased; 256 where none is left. -/
def nextPage (s : State) (b : Nat) : Nat :=
  (List.range 256).foldl (fun n i => if pageErased s (b * csBlockSize + 256 * i) then n else i + 1) 0

/-- Write a grown-table record to a copy: to its next erased page; a copy with none left is erased and takes the current
table first. -/
def grownWrite (s : State) (c seq : Nat) (bs : List Nat) : State :=
  let n := nextPage s c
  if n < 256 then csProgram s (c * csBlockSize + 256 * n) (grownBytes seq bs)
  else
    let cur := grownTable s
    let s1 := csEraseWhole s c true
    match cur with
    | some t => csProgram (csProgram s1 (c * csBlockSize) (grownBytes t.1 t.2)) (c * csBlockSize + 256) (grownBytes seq bs)
    | none => csProgram s1 (c * csBlockSize) (grownBytes seq bs)

/-- The remap (R431) over the grown blocks. -/
def spareFor (s : State) (grown : List Nat) (used : List Nat) (b : Nat) : Option Nat :=
  let bank := b / 256
  let lo := bank * 256 + 240
  ((List.range 16).map (fun i => lo + i)).find? (fun p =>
    csMark s p == 0xFF && !grown.contains p && !used.contains p)

/-- Logical blocks that are spares of their bank (Table 15.2). -/
def isSpare (b : Nat) : Bool := decide (240 ≤ b % 256)

/-- Build the remap at start-up, blocks ascending; a spare is used once. -/
def csBuildRemap (s : State) (grown : List Nat) : State :=
  let bad (b : Nat) : Bool := csMark s b != 0xFF || grown.contains b
  let r := (List.range csBlocks).foldl (fun (acc : List Nat × List (Nat × Nat)) b =>
    if b < 2 ∨ ¬ bad b then acc
    else
      match spareFor s grown acc.1 b with
      | some p => (acc.1 ++ [p], acc.2 ++ [(b, p)])
      | none => (acc.1, acc.2 ++ [(b, csBlocks)])) ([], [])
  { s with code := { s.code with remap := r.2 } }

/-! ### Firmware slots (R444 to R449) -/

/-- The marker block and first image block of a slot (0: A, 1: B). -/
def slotMark (n : Nat) : Nat := 256 + 256 * n
def slotImg (n : Nat) : Nat := 257 + 256 * n

/-- The header of a slot's image. -/
def slotHeader (s : State) (n : Nat) : List Byte := csRead s (slotImg n * csBlockSize) 128

/-- GEN of marker record `i` of a slot, where the record is valid (R447). -/
def markGen (s : State) (n i : Nat) (hd : List Byte) : Option Nat :=
  let r := csRead s (slotMark n * csBlockSize + 256 * i) 256
  if leAt r 0 4 = 0x4B52414D ∧ leAt r 0x0C 4 = 0xB4ADBEB2 ∧ (r.drop 0x10).take 32 = sha256 hd then some (leAt r 4 4) else none

/-- GEN of a slot: that of its highest-indexed valid record; none where the slot is invalid. -/
def slotGen (s : State) (n : Nat) : Option Nat :=
  let hd := slotHeader s n
  (List.range 256).foldl (fun g i => match markGen s n i hd with | some x => some x | none => g) none

/-- Does a header have the values of Table 15.7? -/
def fwHeaderOk (h : List Byte) : Bool :=
  leAt h 0 4 == 0x57464851 && leAt h 4 2 == 1 && leAt h 6 2 == 128 && decide (leAt h 0x0C 4 ≤ 63) &&
    leAt h 0x10 4 % 2 == 0 && decide (128 ≤ leAt h 0x10 4) && decide (leAt h 0x10 4 < 128 + leAt h 0x14 4) &&
    leAt h 0x18 4 == 1612 && leAt h 0x1C 4 == 0 && leAt h 0x60 32 == 0 &&
    decide (128 + leAt h 0x14 4 + 1612 + 56 ≤ 15663104)

/-- The verification of a slot's image in the order of R446: 0 verified, otherwise the detail of Table 15.4. `fault`: a
comparison gave a pair that is neither pattern (R411). -/
def verifySlot (s : State) (n : Nat) (fault : Bool) : Nat :=
  let h := slotHeader s n
  let base := slotImg n * csBlockSize
  let len := leAt h 0x14 4
  if !fwHeaderOk h then 1
  else
    let key := csRead s (base + 128 + len + 1612) 56
    if fault then 6
    else if !(s.fuses.hashes.any (fun k => !k.2 && k.1 == sha256 key)) then 2
    else if !Config.lmsVerify h (csRead s (base + 128 + len) 1612) key then 3
    else if sha256 (csRead s (base + 128) len) ≠ (h.drop 0x40).take 32 then 4
    else if leAt h 0x0C 4 < s.fuses.rollback then 5
    else 0

/-- A marker record (Table 15.8). -/
def markBytes (gen : Nat) (h : List Byte) : List Byte :=
  leBytes 4 0x4B52414D ++ leBytes 4 gen ++ (h.drop 8).take 4 ++ leBytes 4 0xB4ADBEB2 ++ sha256 h ++ List.replicate 208 0xFF

/-- The slot chosen to boot before any verification: the valid slot of higher GEN, A on a tie (R449). -/
def bootChoice (s : State) : Option Nat :=
  match slotGen s 0, slotGen s 1 with
  | none, none => none
  | some _, none => some 0
  | none, some _ => some 1
  | some a, some b => if a < b then some 1 else some 0

/-! ### The gate routine's operations (R433) -/

def gateOk : Nat := 0
def gateBusy : Nat := 1
def gateBadaddr : Nat := 2
def gateProtected : Nat := 3
def gateVerify : Nat := 4
def gateFull : Nat := 5
def gateFail : Nat := 6

/-- Does a logical block belong to a slot, marker block included? -/
def slotOfBlock (b : Nat) : Option Nat :=
  if 256 ≤ b ∧ b ≤ 495 then some 0 else if 512 ≤ b ∧ b ≤ 751 then some 1 else none

/-- Is a block protected from ERASE or PROGRAM (Table 15.4)? -/
def gateProtects (s : State) (b : Nat) (program : Bool) : Bool :=
  b < 2 ||
    match slotOfBlock b with
    | none => false
    | some n =>
      s.boot.slot == some n || (b == slotMark n && program) || (b != slotMark n && (slotGen s n).isSome)

/-- Is the code store busy to a gate call: an operation in progress, or not ON? -/
def gateIsBusy (s : State) : Bool := s.code.op.isSome || !blockOn s .cstore

/-- ERASE: the result, the detail and the state. -/
def gateErase (s : State) (b : Nat) : Nat × Nat × State :=
  if gateIsBusy s then (gateBusy, 0, s)
  else if csBlocks ≤ b ∨ (csPhys s b).isNone then (gateBadaddr, 0, s)
  else if gateProtects s b false then (gateProtected, 0, s)
  else
    match csStart ((s.setFld R.CSTORE_ADDR_ADDR (b * csBlockSize)).setFld R.CSTORE_CMD_OP 1) 1 (b * csBlockSize) 0 with
    | some s1 => (gateOk, 0, s1)
    | none => (gateBusy, 0, s)

/-- PROGRAM: the result, the detail and the state. -/
def gateProgram (s : State) (off src : Nat) : Nat × Nat × State :=
  let b := off / csBlockSize
  if gateIsBusy s then (gateBusy, 0, s)
  else if codeSize ≤ off ∨ off % 256 ≠ 0 ∨ src % 4 ≠ 0 ∨ houseSize < src + 256 ∨ (csPhys s b).isNone then (gateBadaddr, 0, s)
  else if gateProtects s b true then (gateProtected, 0, s)
  else
    match csStart (s.setFlds [(R.CSTORE_ADDR_ADDR, off), (R.CSTORE_SRC_SRC, src), (R.CSTORE_CMD_OP, 2)]) 2 off src with
    | some s1 => (gateOk, 0, s1)
    | none => (gateBusy, 0, s)

/-- The end of a record program that the routine waits for. -/
def gateRecord (s : State) (n gen : Nat) (ok : Bool) : Nat × Nat × State :=
  let a := slotMark n * csBlockSize
  match csPhys s (slotMark n) with
  | none => (gateBadaddr, 0, s)
  | some p =>
    let i := nextPage s p
    if 256 ≤ i then (gateFull, 0, s)
    else
      let o : CsOp := { op := 3, stage := 1, block := p, page := p * csBlockSize + 256 * i, data := markBytes gen (slotHeader s n) }
      let s1 := { (s.setFlds [(R.CSTORE_ADDR_ADDR, a + 256 * i), (R.CSTORE_CMD_OP, 3)]) with code := { s.code with op := some o } }
      let s2 := csOpDone s1 ok
      if ok then (gateOk, 0, s2) else (gateFail, p, s2)

/-- The greater GEN of the two slots, an invalid one counting 0. -/
def topGen (s : State) : Nat := max ((slotGen s 0).getD 0) ((slotGen s 1).getD 0)

/-- COMMIT (R448). -/
def gateCommit (s : State) (n act : Nat) (fault ok : Bool) : Nat × Nat × State :=
  if gateIsBusy s then (gateBusy, 0, s)
  else if 2 ≤ n then (gateBadaddr, 0, s)
  else if s.boot.slot = some n then (gateProtected, 0, s)
  else
    match verifySlot s n fault with
    | 0 => gateRecord s n (if act % 2 = 1 then topGen s + 1 else 0) ok
    | d => (gateVerify, d, s)

/-- ACTIVATE (R448): the slot must already be valid; the detail of a slot that is not is open. -/
def gateActivate (s : State) (n : Nat) (fault ok : Bool) : Nat × Nat × State :=
  if gateIsBusy s then (gateBusy, 0, s)
  else if 2 ≤ n then (gateBadaddr, 0, s)
  else
    match verifySlot s n fault with
    | 0 => if (slotGen s n).isNone then (gateVerify, (Config.freeWord s.free).toNat, (s.fresh).2) else gateRecord s n (topGen s + 1) ok
    | d => (gateVerify, d, s)

/-- GROWN (R442, R443): the new table is written to copy 0 and then to copy 1; a copy that fails is passed over. -/
def gateGrown (s : State) (b : Nat) (ok0 ok1 : Bool) : Nat × Nat × State :=
  if gateIsBusy s then (gateBusy, 0, s)
  else if csBlocks ≤ b then (gateBadaddr, 0, s)
  else
    match csPhys s b with
    | none => (gateBadaddr, 0, s)
    | some p =>
      if p < 2 then (gateFail, p, s)
      else
        let t := (grownTable s).getD (0, [])
        if t.2.contains p then (gateOk, 0, s)
        else if 59 ≤ t.2.length then (gateFull, 0, s)
        else
          let s1 := if ok0 then grownWrite s 0 (t.1 + 1) (t.2 ++ [p]) else s
          let s2 := if ok1 then grownWrite s1 1 (t.1 + 1) (t.2 ++ [p]) else s1
          if ok0 && ok1 then (gateOk, 0, s2) else if ok0 || ok1 then (gateOk, 0, s2) else (gateFail, 0, s2)

/-! ### The watchdog (R451 to R453) -/

/-- A write of WDT_KICK. -/
def wdtKick (s : State) (v : Nat) : State :=
  if v = 0x6B1D then s.setFld R.WDT_COUNT_COUNT (25000 * s.fld R.WDT_TIMEOUT_TIMEOUT) else setCfgErr s .wdt

/-- A write of WDT_BOOTOK (R445, R453). -/
def wdtBootOk (s : State) (v : Nat) : State :=
  if v % 2 = 1 then
    { (s.clear R.WDT_STATUS_BOOTFAIL) with
      boot := { s.boot with bootOk := true }, fuses := { s.fuses with rollback := max s.fuses.rollback s.boot.rbidx } }
  else s

/-- Does the watchdog count? -/
def wdtRuns (s : State) : Bool := blockOn s .wdt && !s.flag R.WDT_STATUS_FROZEN

/-- The count reaches WDT_WARN. -/
def wdtWarn (s : State) : State :=
  if wdtRuns s && decide (25000 * s.fld R.WDT_WARN_WARN < s.fld R.WDT_COUNT_COUNT) then
    (s.setFld R.WDT_COUNT_COUNT (25000 * s.fld R.WDT_WARN_WARN)).raise R.WDT_ISR_WARN
  else s

end Sys2Proof.Machine
end

