-- ==== Sys2Proof/Machine/Codec.lean ====
section
/-! DEFINITION. Sys2Proof/Machine/Codec.lean: the Quothal block code (07): the encoder, the decoder with every check of
Table 7.7, the lanes of a tile's codec unit, decode jobs, and the raw store's stored-mode blocks. -/

namespace Sys2Proof.Machine

/-! ### Samples and prediction (R207, R211, R212) -/

/-- Sample width in bits of a WIDTH code. -/
def widthBits (c : Nat) : Nat := 8 * 2 ^ c

/-- The samples of `w` bytes each that a list of bytes holds. -/
def samplesOf (w : Nat) (bs : List Byte) : Nat → List Nat
  | 0 => []
  | n + 1 => leNat (bs.take w) :: samplesOf w (bs.drop w) n

/-- The prediction of sample `i` from the quantized values before it (R211). -/
def predict (pred line k : Nat) (q : Array Nat) (i : Nat) : Nat :=
  let at' (j : Nat) : Nat := q.getD j 0
  if pred = 0 ∨ i = 0 then 0
  else if pred = 1 ∨ i < line then at' (i - 1)
  else if i % line = 0 then at' (i - line)
  else (at' (i - 1) + at' (i - line) + 2 ^ k - at' (i - line - 1) % 2 ^ k) % 2 ^ k

/-- The mapped value of a quantized value and its prediction (R212). -/
def mapResidual (k q p : Nat) : Nat :=
  if k = 0 then 0
  else
    let d := (q + 2 ^ k - p % 2 ^ k) % 2 ^ k
    if d < 2 ^ (k - 1) then 2 * d else 2 * (2 ^ k - d) - 1

/-- The quantized value of a mapped value and its prediction (R212). -/
def unmapResidual (k z p : Nat) : Nat :=
  if k = 0 then 0
  else if z % 2 = 0 then (p + z / 2) % 2 ^ k
  else (p + 2 ^ k - (z + 1) / 2) % 2 ^ k

/-- The mapped values of a block at a shift. -/
def mappedOf (pred line k : Nat) (q : Array Nat) (i : Nat) : Nat → List Nat
  | 0 => []
  | n + 1 => mapResidual k (q.getD i 0) (predict pred line k q i) :: mappedOf pred line k q (i + 1) n

/-! ### Packing (R213) -/

/-- The bit length of a number below 2^33. -/
def bitLen : Nat → Nat → Nat
  | 0, _ => 0
  | fuel + 1, v => if v = 0 then 0 else 1 + bitLen fuel (v / 2)

/-- Groups of 16. -/
def groupsOf (zs : List Nat) : Nat → List (List Nat)
  | 0 => []
  | fuel + 1 => if zs = [] then [] else zs.take 16 :: groupsOf (zs.drop 16) fuel

/-- The width code of a group. -/
def groupWidth (g : List Nat) : Nat := bitLen 33 (g.foldl max 0)

/-- The stream bits of a block's groups. -/
def codedBits (gs : List (List Nat)) : Nat := gs.foldl (fun n g => n + 6 + groupWidth g * g.length) 0

/-- A group's values as one number, the first lowest, each in `c` bits. -/
def packGroup (c : Nat) : List Nat → Nat
  | [] => 0
  | z :: zs => z + 2 ^ c * packGroup c zs

/-- The payload as one number, stream bit 0 lowest. -/
def packGroups : List (List Nat) → Nat
  | [] => 0
  | g :: gs =>
    let c := groupWidth g
    c + 2 ^ 6 * (packGroup c g + 2 ^ (c * g.length) * packGroups gs)

/-- The groups of a block at shift `s`. -/
def blockGroups (pred line w s : Nat) (xs : List Nat) : List (List Nat) :=
  let q := (xs.map (fun x => if s = w then 0 else x >>> s)).toArray
  groupsOf (mappedOf pred line (w - s) q 0 xs.length) (xs.length + 1)

/-- The coded length in bytes (R213). -/
def codedLength (gs : List (List Nat)) : Nat := (codedBits gs + 7) / 8

/-! ### The encoder (R215 to R220) -/

/-- A block header (Table 7.2). -/
def blockHeader (mode pred width shift line plen nbytes crc : Nat) (exact : Bool) : List Byte :=
  leBytes 1 1 ++ leBytes 1 (mode + 4 * pred + 16 * width + 64 * b2n exact) ++ leBytes 1 shift ++ leBytes 1 0 ++
    leBytes 2 line ++ leBytes 2 plen ++ leBytes 2 nbytes ++ leBytes 2 0 ++ leBytes 4 crc

/-- A stored block (R215). -/
def storedBlock (width : Nat) (bs : List Byte) : List Byte :=
  blockHeader 0 0 width 0 0 bs.length bs.length (crc32c bs) true ++ bs

/-- The LINE field of a header: the profile's for PRED 2, else 0. -/
def lineField (pred line : Nat) : Nat := if pred = 2 then line else 0

/-- The reconstruction at shift `s` (R218). -/
def reconstruct (w s : Nat) (xs : List Nat) : List Byte :=
  (xs.map (fun x => leBytes (w / 8) (if s = w then 0 else (x >>> s) <<< s))).flatten

/-- The least shift whose coded length fits (R217), trying `s`, `s + 1`, … -/
def fitShift (pred line w room : Nat) (xs : List Nat) (s : Nat) : Nat → Nat
  | 0 => s
  | fuel + 1 =>
    if codedLength (blockGroups pred line w s xs) ≤ room then s else fitShift pred line w room xs (s + 1) fuel

/-- Encode a formed block (R215 to R217): its bytes, its mode and EXACT. -/
def encodeBlock (p : Prof) (bs : List Byte) : List Byte × Nat × Bool :=
  let w := widthBits p.width
  let xs := samplesOf (w / 8) bs (bs.length / (w / 8))
  if p.mode = 1 then
    let gs := blockGroups p.pred p.line w 0 xs
    let n := codedLength gs
    if n < bs.length then
      (blockHeader 1 p.pred p.width 0 (lineField p.pred p.line) n bs.length (crc32c bs) true ++
        leBytes n (packGroups gs), 1, true)
    else (storedBlock p.width bs, 0, true)
  else if p.mode = 2 then
    let room := budgetBytes p.budget - 16
    let s := fitShift p.pred p.line w room xs 0 w
    let gs := blockGroups p.pred p.line w s xs
    let crc := if s = 0 then crc32c bs else crc32c (reconstruct w s xs)
    (blockHeader 2 p.pred p.width s (lineField p.pred p.line) room bs.length crc (s = 0) ++
      leBytes room (packGroups gs), 2, decide (s = 0))
  else (storedBlock p.width bs, 0, true)

/-! ### The decoder (R229 to R231) -/

/-- The decode statuses (Table 7.9). -/
def dsOk : Nat := 0
def dsFormat : Nat := 1
def dsCrc : Nat := 2
def dsLimit : Nat := 3
def dsSrcShort : Nat := 4
def dsEcc : Nat := 5
def dsBus : Nat := 6
def dsBadDesc : Nat := 7
def dsReset : Nat := 8

/-- The fields of a header. -/
structure BlockHdr where
  mode : Nat
  pred : Nat
  width : Nat
  exact : Bool
  shift : Nat
  line : Nat
  plen : Nat
  nbytes : Nat
  crc : Nat
  bad : Bool
  deriving DecidableEq, Repr

/-- Read a header; `bad` says that a header check of Table 7.7 fails. -/
def readHdr (h : List Byte) : BlockHdr :=
  let b1 := leAt h 1 1
  let b2 := leAt h 2 1
  let mode := b1 % 4
  let pred := b1 / 4 % 4
  let width := b1 / 16 % 4
  let exact := bitOf b1 6
  let shift := b2 % 64
  let line := leAt h 4 2
  let plen := leAt h 6 2
  let nbytes := leAt h 8 2
  let w := widthBits width
  let bad :=
    leAt h 0 1 != 1 || mode == 3 || pred == 3 || width == 3 || b1 / 128 != 0 || b2 / 64 != 0 || leAt h 3 1 != 0 ||
    leAt h 10 2 != 0 || nbytes == 0 || decide (4096 < nbytes) || nbytes % (w / 8) != 0 || decide (w < shift) ||
    (pred != 2 && line != 0) || (pred == 2 && (line == 0 || decide (4096 < line))) ||
    (mode == 0 && (pred != 0 || shift != 0 || !exact || plen != nbytes)) ||
    (mode == 1 && (shift != 0 || !exact || plen == 0 || decide (nbytes ≤ plen))) ||
    (mode == 2 && (exact != (shift == 0) || !([2032, 1008, 496, 240].contains plen)))
  { mode := mode, pred := pred, width := width, exact := exact, shift := shift, line := line, plen := plen,
    nbytes := nbytes, crc := leAt h 12 4, bad := bad }

/-- Decode the values of one group: the quantized values so far, the stream and the bits read. -/
def decodeGroup (pred line k c : Nat) (q : Array Nat) (v : Nat) : Nat → Array Nat × Nat
  | 0 => (q, v)
  | n + 1 =>
    let z := v % 2 ^ c
    decodeGroup pred line k c (q.push (unmapResidual k z (predict pred line k q q.size))) (v / 2 ^ c) n

/-- Decode the groups of a block of `n` samples left: the quantized values, the stream left and the bits read; none is a
format error (R214, R229). -/
def decodeGroups (pred line k limit : Nat) (q : Array Nat) (v b n : Nat) : Nat → Option (Array Nat × Nat × Nat)
  | 0 => some (q, v, b)
  | fuel + 1 =>
    if n = 0 then some (q, v, b)
    else
      let c := v % 64
      let g := min n 16
      let b' := b + 6 + c * g
      if k < c ∨ limit < b' then none
      else
        let r := decodeGroup pred line k c q (v / 64) g
        decodeGroups pred line k limit r.1 r.2 b' (n - g) fuel

/-- Decode a payload: the output bytes, or none for a format error. -/
def decodePayload (h : BlockHdr) (p : List Byte) : Option (List Byte) :=
  if h.mode = 0 then some p
  else
    let w := widthBits h.width
    let k := w - h.shift
    let n := h.nbytes / (w / 8)
    match decodeGroups h.pred h.line k (8 * h.plen) #[] (leNat p) 0 n (n + 1) with
    | none => none
    | some (q, rest, b) =>
      if rest ≠ 0 ∨ (h.mode = 1 ∧ h.plen ≠ (b + 7) / 8) then none
      else some ((q.toList.map (fun x => leBytes (w / 8) (if h.shift = w then 0 else x <<< h.shift))).flatten)

/-! ### The lanes of a tile (R222 to R228) -/

/-- Is this the job whose counters TILE_CDBLK and TILE_CDOUT hold: no other job has begun on the tile? -/
def countsHere (s : State) (t : Nat) (r : JobRef) : Bool :=
  match (s.tile t).job with
  | some j => j.ref == r
  | none => true

/-- CLOSE (R222): the pending partial block ends as written. -/
def codecClose (s : State) (t : Nat) : State :=
  let x := s.tile t
  s.setTile t { x with segs := closeSegs x.segs }

/-- The profile selected for blocks that begin later (R224). -/
def codecSelect (s : State) (t prof : Nat) : State :=
  let x := s.tile t
  if codecPend x ≠ 0 then s.raise (R.TILE_STATUS_CLAIMERR t)
  else if (profOf s prof).isNone then s.raise (R.TILE_STATUS_CFGERR t)
  else (s.setTile t { x with curProf := prof }).setFld (R.TILE_CDPROF_PROF t) prof

/-- The encode lane forms the next block: 4,096 bytes, or a closed one padded to a whole sample (R222, R223, R226). -/
def blockForm (s : State) (t : Nat) : State :=
  let x := s.tile t
  match x.segs with
  | [] => s
  | g :: rest =>
    if 2 ≤ x.formed.length + x.encoded.length ∨ (¬ g.closed ∧ g.data.length < 4096) then s
    else
      let w := widthBits g.prof.width / 8
      let pad := (w - g.data.length % w) % w
      let data := g.data ++ List.replicate pad 0
      let s1 := s.setTile t { x with
        segs := rest, formed := x.formed ++ [⟨g.job, g.prof, data, crc32c data⟩] }
      if pad = 0 then s1 else s1.raise (R.TILE_CDSTAT_PADDED t)

/-- The encode lane encodes its oldest formed block (R215 to R217). -/
def codecEncode (s : State) (t : Nat) : State :=
  let x := s.tile t
  match x.formed with
  | [] => s
  | b :: rest =>
    let e := encodeBlock b.prof b.data
    s.setTile t { x with formed := rest, encoded := x.encoded ++ [⟨b, e.1, e.2.2, e.2.1⟩] }

/-- The test codes of CODEC_LASTV. -/
def vtestCode : VTest → Nat
  | .format => 0
  | .crc => 1
  | .nbytes => 2
  | .inputCrc => 3
  | .bound => 4

/-- The verifier's tests (R227) on an encoded block and its held input, with a hardware failure seen by `failed`. -/
def verify (e : EncBlock) (failed : Option VTest) : Option Nat :=
  match failed with
  | some v => some (vtestCode v)
  | none =>
    let h := readHdr e.bytes
    if h.bad then some 0
    else
      match decodePayload h (e.bytes.drop 16) with
      | none => some 0
      | some out =>
        if crc32c out ≠ h.crc then some 1
        else if h.nbytes ≠ e.inp.data.length then some 2
        else if h.exact then none
        else if crc32c e.inp.data ≠ e.inp.crc then some 3
        else
          let w := widthBits h.width / 8
          let n := h.nbytes / w
          if (List.zipWith (fun x y => decide (y ≤ x ∧ x - y ≤ 2 ^ h.shift - 1)) (samplesOf w e.inp.data n)
            (samplesOf w out n)).all id then none else some 4

/-- A rejection (R228): counted, captured, and the parcel or job fails with VERIFY; its accepted blocks are discarded. -/
def rejectBlock (s : State) (t : Nat) (r : JobRef) (test : Nat) : State :=
  let s1 := ((s.addWrap R.CODEC_VFCNT_COUNT 1).raise R.CODEC_ISR_VFAIL).capture R.CODEC_LASTV_VALID
    [(R.CODEC_LASTV_TILE, t), (R.CODEC_LASTV_TEST, test)]
  let x := s1.tile t
  failRef (s1.setTile t { x with accepted := x.accepted.filter (fun b => b.inp.job != r) }) r causeVerify

/-- The verifier lane decides on the oldest encoded block (R227, R228). -/
def verifierDecide (s : State) (t : Nat) (failed : Option VTest) : State :=
  let x := s.tile t
  match x.encoded with
  | [] => s
  | e :: rest =>
    let s1 := s.setTile t { x with encoded := rest }
    match verify e failed with
    | none => s1.setTile t { s1.tile t with accepted := x.accepted ++ [e] }
    | some test => rejectBlock s1 t e.inp.job test

/-- Count a block written to output staging, device-wide and by mode. -/
def countBlock (s : State) (mode : Nat) (exact : Bool) : State :=
  if mode = 0 then s.addWrap R.CODEC_STCNT_COUNT 1
  else if mode = 1 then s.addWrap R.CODEC_LLCNT_COUNT 1
  else if exact then s.addWrap R.CODEC_FXCNT_COUNT 1
  else s.addWrap R.CODEC_FICNT_COUNT 1

/-- An accepted block is written to output staging or to the output range (R225, R297). -/
def blockOutput (s : State) (t : Nat) : State :=
  let x := s.tile t
  match x.accepted with
  | [] => s
  | e :: rest =>
    let s1 := s.setTile t { x with accepted := rest }
    match placeBlock s1 e.inp.job e.bytes with
    | (s2, false) => s2
    | (s2, true) =>
      let s3 := countBlock s2 e.mode e.exact
      if countsHere s3 t e.inp.job then
        ((s3.addWrap (R.TILE_CDBLK_BLOCKS t) 1).addWrap (R.TILE_CDBLK_INEXACT t) (b2n (!e.exact))).addWrap
          (R.TILE_CDOUT_BYTES t) e.bytes.length
      else s3

/-! ### The raw store (R81, R215) -/

/-- The stored blocks of a parcel's landed bytes, 4,096 input bytes each. -/
def rawBlocks (bs : List Byte) : Nat → List (List Byte)
  | 0 => []
  | fuel + 1 => if bs = [] then [] else storedBlock 0 (bs.take 4096) :: rawBlocks (bs.drop 4096) fuel

/-- A failed parcel under ERRPOL 2 is stored raw by its tile: its partial outputs are discarded and its landed bytes are
written as stored blocks of WIDTH 0. `reject`: the verifier rejected one of them, and the parcel falls under skip. -/
def rawStore (s : State) (flow seq : Nat) (reject : Bool) : State :=
  match findParcel s flow seq with
  | none => s
  | some p =>
    match p.st with
    | .ended t =>
      if rawDue s p ∧ (s.tile t).job.isNone then
        let bs := s.memBytes p.land p.len
        let blocks := rawBlocks bs (p.len + 1)
        let s0 := s.setFlds [(R.TILE_CDBLK_BLOCKS t, 0), (R.TILE_CDBLK_INEXACT t, 0), (R.TILE_CDOUT_BYTES t, 0)]
        if reject then
          let s1 := ((s0.addWrap R.CODEC_VFCNT_COUNT 1).raise R.CODEC_ISR_VFAIL).capture R.CODEC_LASTV_VALID
            [(R.CODEC_LASTV_TILE, t), (R.CODEC_LASTV_TEST, (Config.freeByte s0.free).toNat % 5)]
          updParcel (s1.fresh).2 flow seq (fun q => { q with rawSkip := true, nblk := 0, ebytes := 0, nent := 0 })
        else
          let out := blocks.flatten
          let s1 := writeMem s0 p.ost out none tagLocal
          let s2 := blocks.foldl (fun acc _ => countBlock acc 0 true) s1
          let s3 := s2.setFlds [(R.TILE_CDBLK_BLOCKS t, blocks.length), (R.TILE_CDOUT_BYTES t, out.length)]
          updParcel s3 flow seq (fun q => { q with
            raw := true, nblk := blocks.length, ebytes := out.length, nent := 0 })
      else s
    | _ => s

/-! ### Decode jobs (R232 to R236) -/

/-- A decode job from the 32 bytes of its descriptor (Table 7.8). -/
def decJobOf (bs : List Byte) : DecJob :=
  { src := leAt bs 0 6, dst := leAt bs 8 6, srcLen := leAt bs 16 4, outLimit := leAt bs 20 4, nblk := leAt bs 24 2,
    tag := leAt bs 28 4, stopped := false,
    bad := leAt bs 6 2 != 0 || leAt bs 14 2 != 0 || leAt bs 26 2 != 0 || decide (leAt bs 16 4 < 16) ||
      leAt bs 20 4 == 0 || leAt bs 24 2 == 0 }

/-- What a decode job comes to: its status, the blocks and the bytes written. -/
structure DecEnd where
  status : Nat
  blocks : Nat
  bytes : Nat
  deriving DecidableEq, Repr

/-- Read source bytes for a decoder: a status, or the bytes. -/
def decRead (s : State) (a n : Nat) : Nat × List Byte × State :=
  match readGlobal s a n xoDecode with
  | none => (dsBus, [], s)
  | some (bs, s1, none) => (dsOk, bs, s1)
  | some (_, s1, some _) => (dsEcc, [], s1)

/-- Decode one block at source offset `o` (R229): a status with the source bytes and output bytes it took. -/
def decodeOne (s : State) (d : DecJob) (o done : Nat) : Nat × Nat × Nat × State :=
  if d.srcLen < o + 16 then (dsSrcShort, 0, 0, s)
  else
    match decRead s (d.src + o) 16 with
    | (st, hb, s1) =>
      if st ≠ dsOk then (st, 0, 0, s1)
      else
        let h := readHdr hb
        if h.bad then (dsFormat, 0, 0, s1)
        else if d.srcLen < o + 16 + h.plen then (dsSrcShort, 0, 0, s1)
        else if d.outLimit < done + h.nbytes then (dsLimit, 0, 0, s1)
        else
          match decRead s1 (d.src + o + 16) h.plen with
          | (st2, pb, s2) =>
            if st2 ≠ dsOk then (st2, 0, 0, s2)
            else
              match decodePayload h pb with
              | none => (dsFormat, 0, 0, s2)
              | some out =>
                if crc32c out ≠ h.crc then (dsCrc, 0, 0, s2)
                else
                  match writeGlobal s2 (d.dst + done) out with
                  | none => (dsBus, 0, 0, s2)
                  | some s3 => (dsOk, 16 + h.plen, h.nbytes, s3)

/-- Decode blocks in order until one stops (R233). -/
def decodeBlocks (s : State) (d : DecJob) (o done k : Nat) : Nat → DecEnd × State
  | 0 => (⟨dsOk, k, done⟩, s)
  | n + 1 =>
    match decodeOne s d o done with
    | (st, src, out, s1) =>
      if st ≠ dsOk then (⟨st, k, done⟩, s1) else decodeBlocks s1 d (o + src) (done + out) (k + 1) n

/-- Run a decode job. -/
def runDecode (s : State) (d : DecJob) : DecEnd × State :=
  if d.bad then (⟨dsBadDesc, 0, 0⟩, s)
  else if d.stopped then (⟨dsReset, 0, 0⟩, s)
  else decodeBlocks s d 0 0 0 d.nblk

/-- Is a tile's decode lane idle and permitted (R234)? -/
def laneIdle (s : State) (t : Nat) : Bool :=
  let x := s.tile t
  x.lane.isNone && x.tileDec.isNone && (s.fld R.CODEC_DQMASK_MASK).testBit t

/-- Assign the fetched job to an idle lane, the search starting after the tile assigned last (R234). -/
def assignLane (s : State) : State :=
  match s.decWait with
  | none => s
  | some d =>
    match ((List.range 32).map (fun i => (s.lastLane + 1 + i) % 32)).find? (laneIdle s) with
    | none => s
    | some t => { s.setTile t { s.tile t with lane := some d } with decWait := none, lastLane := t }

/-- The decode queue's rings. -/
def dqSize (s : State) : Nat := 2 ^ s.fld R.CODEC_DQ_SIZE_LOG2
def dqSlot (s : State) (idx : Nat) : Nat := 0x100000 * s.fld R.CODEC_DQ_BASE_BASE + 32 * (idx % dqSize s)
def dcSlot (s : State) (idx : Nat) : Nat := 0x100000 * s.fld R.CODEC_DC_BASE_BASE + 16 * (idx % dqSize s)

/-- The decode queue fetches the descriptor at its head and assigns it (R234). -/
def decodeFetch (s : State) : State :=
  if s.decWait.isSome then assignLane s
  else if blockOn s .codec ∧ s.fld R.CODEC_DQ_HEAD_IDX ≠ s.fld R.CODEC_DQ_TAIL_IDX then
    let h := s.fld R.CODEC_DQ_HEAD_IDX
    let r := readRam s (dqSlot s h) 32
    assignLane { r.2.1.setFld R.CODEC_DQ_HEAD_IDX (h + 1) with decWait := some (decJobOf r.1) }
  else s

/-- Write a completion record and advance the ring (R235). -/
def decComplete (s : State) (t tag : Nat) (e : DecEnd) : State :=
  let i := s.fld R.CODEC_DC_HEAD_IDX
  let ph := s.fld R.CODEC_DC_HEAD_PHASE
  let rec1 := leBytes 4 tag ++ leBytes 4 e.bytes ++ leBytes 2 e.blocks ++ leBytes 1 e.status ++ leBytes 1 t ++
    leBytes 3 0 ++ leBytes 1 (128 * ph)
  let s1 := (writeMem s (dcSlot s i) rec1 none tagLocal).setFld R.CODEC_DC_HEAD_IDX (i + 1)
  let s2 := if (i + 1) % dqSize s = 0 then s1.setFld R.CODEC_DC_HEAD_PHASE (1 - ph) else s1
  let s3 := s2.raise R.CODEC_ISR_DCOMP
  if e.status = dsOk then s3 else (s3.raise R.CODEC_ISR_DERR).addWrap R.CODEC_DECNT_COUNT 1

/-- A device decode job ends (R235); the lane then takes a waiting tile-issued job, else the fetched job (R234). -/
def decodeJobEnd (s : State) (t : Nat) : State :=
  match (s.tile t).lane with
  | none => s
  | some d =>
    match runDecode s d with
    | (e, s1) =>
      let s2 := decComplete s1 t d.tag e
      let x := s2.tile t
      assignLane (s2.setTile t { x with lane := none, tileDecRun := x.tileDec.isSome })

/-- A write of TILE_DJOB with GO (R236). -/
def tileDjob (s : State) (t desc : Nat) : State :=
  let x := s.tile t
  if x.tileDec.isSome then s.raise (R.TILE_STATUS_CLAIMERR t)
  else
    let r := readRam s (tileLocalAddr t desc) 32
    (r.2.1.setTile t { r.2.1.tile t with tileDec := some (decJobOf r.1), tileDecRun := x.lane.isNone }).setFld
      (R.TILE_DRES_BUSY t) 1

/-- A tile-issued decode job ends (R236). -/
def tileDecodeEnd (s : State) (t : Nat) : State :=
  match (s.tile t).tileDec with
  | none => s
  | some d =>
    if (s.tile t).tileDecRun then
      match runDecode s d with
      | (e, s1) =>
        let s2 := (s1.setTile t { s1.tile t with tileDec := none, tileDecRun := false }).setFlds
          [(R.TILE_DRES_STATUS t, e.status), (R.TILE_DRES_BUSY t, 0), (R.TILE_DRES_NBLK_OK t, e.blocks),
            (R.TILE_DOUT_BYTES t, e.bytes)]
        assignLane (s2.raise (R.TILE_CIRQ_CODEC t))
    else s

/-- A write of CODEC_DQ_TAIL (its card): at most 2^LOG2 descriptors ahead of HEAD. -/
def dqTailWrite (s : State) (idx : Nat) : State :=
  if dqSize s < (2 ^ 16 + idx - s.fld R.CODEC_DQ_HEAD_IDX) % 2 ^ 16 then setCfgErr s .codec
  else s.setFld R.CODEC_DQ_TAIL_IDX idx

/-! ### The rows of the opcode table -/

def execCodecBlockForm (t : TileId) (s : State) : Result := .next (blockForm s t)
def execCodecEncode (t : TileId) (s : State) : Result := .next (codecEncode s t)
def execVerifierDecide (t : TileId) (failed : Option VTest) (s : State) : Result := .next (verifierDecide s t failed)
def execBlockOutputWrite (t : TileId) (s : State) : Result := .next (blockOutput s t)
def execDecodeQueueFetch (s : State) : Result := .next (decodeFetch s)
def execDecodeJobEnd (t : TileId) (s : State) : Result := .next (decodeJobEnd s t)
def execTileDecodeJobEnd (t : TileId) (s : State) : Result := .next (tileDecodeEnd s t)
def execRawStore (flow : Fin 262144) (seq : Nat) (reject : Bool) (s : State) : Result :=
  .next (rawStore s flow seq reject)

end Sys2Proof.Machine
end

