-- ==== Sys2Proof/Machine/Cipher.lean ====
section
/-! DEFINITION. Sys2Proof/Machine/Cipher.lean: AES-256 and its XTS mode (R414, R425). The manual names the cipher and the
mode and the tweak; the algorithms themselves are those of the public standards (PRESUMED, the assumption log). -/

namespace Sys2Proof.Machine

/-- The S-box and its inverse, 256 bytes as one number, entry 0 lowest. -/
def aesSboxTable : Nat := 0x16bb54b00f2d99416842e6bf0d89a18cdf2855cee9871e9b948ed9691198f8e19e1dc186b95735610ef6034866b53e708a8bbd4b1f74dde8c6b4a61c2e2578ba08ae7a65eaf4566ca94ed58d6d37c8e779e4959162acd3c25c2406490a3a32e0db0b5ede14b8ee4688902a22dc4f816073195d643d7ea7c41744975fec130ccdd2f3ff1021dab6bcf5389d928f40a351a89f3c507f02f94585334d43fbaaefd0cf584c4a39becb6a5bb1fc20ed00d153842fe329b3d63b52a05a6e1b1a2c830975b227ebe28012079a059618c323c7041531d871f1e5a534ccf73f362693fdb7c072a49cafa2d4adf04759fa7dc982ca76abd7fe2b670130c56f6bf27b777c63
def aesInvTable : Nat := 0x7d0c2155631469e126d677ba7e042b17619953833cbbebc8b0f52aae4d3be0a0ef9cc9939f7ae52d0d4ab519a97f51605fec8027591012b131c7078833a8dd1ff45acd78fec0db9a2079d2c64b3e56fc1bbe18aa0e62b76f89c5291d711af1476edf751ce837f9e28535ade72274ac9673e6b4f0cecff297eadc674f4111913a6b8a130103bdafc1020f3fca8f1e2cd00645b3b80558e4f70ad3bc8c00abd890849d8da75746155edab9edfd5048706c92b6655dcc5ca4d41698688664f6f87225d18b6d49a25b76b224d92866a12e084ec3fa420b954cee3d23c2a632947b54cbe9dec444438e3487ff2f9b8239e37cfbd7f3819ea340bf38a53630d56a0952

def aesSub (x : Nat) : Nat := bitsOf aesSboxTable (8 * x) 8
def aesInvSub (x : Nat) : Nat := bitsOf aesInvTable (8 * x) 8

/-- Multiplication by x in GF(2^8). -/
def xtime (a : Nat) : Nat := if a < 128 then 2 * a else (2 * a) ^^^ 0x11B

/-- Multiplication in GF(2^8), by the low `n` bits of the second factor. -/
def gfMul (a b : Nat) : Nat → Nat
  | 0 => 0
  | n + 1 => (if b % 2 = 1 then a else 0) ^^^ gfMul (xtime a) (b / 2) n

/-- Exclusive or of two lists. -/
def xorList (a b : List Nat) : List Nat := List.zipWith (· ^^^ ·) a b

/-- Next words of the key schedule: `i` the index of the word to form, the words so far newest first. -/
def expandKey (ws : List (List Nat)) (i rcon : Nat) : Nat → List (List Nat)
  | 0 => ws
  | n + 1 =>
    let t := ws.headD []
    let u := if i % 8 = 0 then
        xorList ((t.drop 1 ++ t.take 1).map aesSub) [rcon, 0, 0, 0]
      else if i % 8 = 4 then t.map aesSub else t
    expandKey (xorList (ws.getD 7 []) u :: ws) (i + 1) (if i % 8 = 0 then xtime rcon else rcon) n

/-- Cut a list into pieces of `k`. -/
def chunks {α : Type} (k : Nat) (xs : List α) : Nat → List (List α)
  | 0 => []
  | fuel + 1 => if xs.isEmpty then [] else xs.take k :: chunks k (xs.drop k) fuel

/-- The 15 round keys of a 32-byte key. -/
def roundKeys (key : List Nat) : List (List Nat) :=
  (chunks 4 (expandKey (chunks 4 key 8).reverse 8 1 52).reverse 15).map List.flatten

/-- ShiftRows, and its inverse, on 16 bytes column by column. -/
def shiftRows (st : List Nat) : List Nat := (List.range 16).map (fun i => st.getD ((i + 4 * (i % 4)) % 16) 0)
def invShiftRows (st : List Nat) : List Nat := (List.range 16).map (fun i => st.getD ((i + 16 - 4 * (i % 4)) % 16) 0)

/-- MixColumns with the coefficients of one row of its matrix. -/
def mixWith (cs : List Nat) (st : List Nat) : List Nat :=
  (List.range 16).map (fun i =>
    let col := (st.drop (i / 4 * 4)).take 4
    (List.range 4).foldl (fun a j => a ^^^ gfMul (col.getD j 0) (cs.getD ((j + 4 - i % 4) % 4) 0) 8) 0)

/-- Encrypt and decrypt one block under its round keys. -/
def aesEncRounds (ks : List (List Nat)) (st : List Nat) : List Nat :=
  match ks with
  | [] => st
  | [k] => xorList (shiftRows (st.map aesSub)) k
  | k :: r => aesEncRounds r (xorList (mixWith [2, 3, 1, 1] (shiftRows (st.map aesSub))) k)

def aesEncrypt (key blk : List Nat) : List Nat :=
  match roundKeys key with
  | k :: r => aesEncRounds r (xorList blk k)
  | [] => blk

def aesDecRounds (ks : List (List Nat)) (st : List Nat) : List Nat :=
  match ks with
  | [] => st
  | [k] => xorList ((invShiftRows st).map aesInvSub) k
  | k :: r => aesDecRounds r (mixWith [14, 11, 13, 9] (xorList ((invShiftRows st).map aesInvSub) k))

def aesDecrypt (key blk : List Nat) : List Nat :=
  match (roundKeys key).reverse with
  | k :: r => aesDecRounds r (xorList blk k)
  | [] => blk

/-- The next tweak: multiplication by x in GF(2^128), the low byte first. -/
def tweakNext (t : Nat) : Nat := if t < 2 ^ 127 then 2 * t else (2 * t - 2 ^ 128) ^^^ 0x87

/-- 16 bytes as a number, and back. -/
def natBytes (n v : Nat) : List Nat := (leBytes n v).map (·.toNat)
def bytesNat (bs : List Nat) : Nat := leNat (bs.map (BitVec.ofNat 8))

/-- XTS over whole blocks of 16 bytes. -/
def xtsBlocks (f : List Nat → List Nat) (t : Nat) : List (List Nat) → List (List Nat)
  | [] => []
  | b :: r =>
    let tw := natBytes 16 t
    xorList (f (xorList b tw)) tw :: xtsBlocks f (tweakNext t) r

/-- XTS-AES-256 of a data unit under a 64-byte key (data key, then tweak key) and a tweak (R414, R425). -/
def xts (enc : Bool) (key : List Byte) (tweak : Nat) (data : List Byte) : List Byte :=
  let k := key.map (·.toNat)
  let t := bytesNat (aesEncrypt (k.drop 32) (natBytes 16 tweak))
  let f := if enc then aesEncrypt (k.take 32) else aesDecrypt (k.take 32)
  ((xtsBlocks f t (chunks 16 (data.map (·.toNat)) (data.length + 1))).flatten).map (BitVec.ofNat 8)

end Sys2Proof.Machine
end

