-- ==== Sys2Proof/Machine/Nand.lean ====
section
/-! DEFINITION. Sys2Proof/Machine/Nand.lean: personalities, LUNs, the block table and the NAND array (R302 to R313, R324),
and the inline media cipher (R425). -/

namespace Sys2Proof.Machine

/-! ### LUNs and personalities -/

/-- The channel of a LUN number (R302). -/
def lunChannel (lun : Nat) : Nat := lun / 32

def lunOf (s : State) (lun : Nat) : Option Lun := tblGet none s.media.luns lun
def setLun (s : State) (lun : Nat) (l : Lun) : State :=
  { s with media := { s.media with luns := tblSet none s.media.luns lun (some l) } }

def lunUsed (s : State) (lun : Nat) : Bool := match lunOf s lun with | some l => l.used | none => false

/-- The LUNs in use, ascending. -/
def usedLuns (s : State) : List Nat := (tblKeys s.media.luns).filter (lunUsed s)

/-- The personality of a channel's LUNs (R309). -/
def persOf (s : State) (lun : Nat) : Option Pers :=
  tblGet none s.media.pers (s.fld (R.NAND_STATUS_PSLOT (lunChannel lun)))

/-- Pages per block that a PSA counts (R312). -/
def psaPages (p : Pers) : Nat := max p.ppb p.ppbSlc

/-- Blocks of a LUN. -/
def lunBlocks (p : Pers) : Nat := p.planes * p.bpp

/-- The PSA of a sector (R312). -/
def psaOf (p : Pers) (lun block page sec : Nat) : Nat := 2 ^ 26 * lun + (block * psaPages p + page) * 4 + sec

/-- The LUN and block of a PSA. -/
def psaLun (a : Nat) : Nat := a / 2 ^ 26
def psaBlock (s : State) (a : Nat) : Nat :=
  match persOf s (psaLun a) with
  | some p => a % 2 ^ 26 / (4 * psaPages p)
  | none => 0

/-- A block by LUN × 2^19 + block. -/
def blkKey (lun block : Nat) : Nat := 2 ^ 19 * lun + block

/-! ### The block table (R324) -/

/-- The place of a LUN's first entry: entries are ordered by LUN in use and then by block. -/
def btFirst (s : State) (lun : Nat) : Nat :=
  ((usedLuns s).filter (fun l => l < lun)).foldl (fun n l =>
    n + match persOf s l with | some p => lunBlocks p | none => 0) 0

def btAddr (s : State) (lun block : Nat) : Nat := 0x100000 * s.fld R.FTLA_BTBASE_BASE + 16 * (btFirst s lun + block)

def btErases (s : State) (lun block : Nat) : Nat := s.memNat (btAddr s lun block) 4
def btValid (s : State) (lun block : Nat) : Nat := s.memNat (btAddr s lun block + 4) 4
def btClosed (s : State) (lun block : Nat) : Nat := s.memNat (btAddr s lun block + 8) 4
def btState (s : State) (lun block : Nat) : Nat := s.memNat (btAddr s lun block + 12) 1

/-- Write a block table entry. -/
def btSet (s : State) (lun block erases valid closed state : Nat) : State :=
  writeMem s (btAddr s lun block)
    (leBytes 4 erases ++ leBytes 4 valid ++ leBytes 4 closed ++ leBytes 1 state ++ leBytes 3 0) none tagLocal

def btSetState (s : State) (lun block st : Nat) : State :=
  btSet s lun block (btErases s lun block) (btValid s lun block) (btClosed s lun block) st
def btSetValid (s : State) (lun block v : Nat) : State :=
  btSet s lun block (btErases s lun block) v (btClosed s lun block) (btState s lun block)

/-- The states of a block (Table 10.10). -/
def bsFree : Nat := 0
def bsOpen : Nat := 1
def bsClosed : Nat := 2
def bsCellar : Nat := 3
def bsMap : Nat := 4
def bsFactory : Nat := 5
def bsGrown : Nat := 6
def bsPending : Nat := 7

/-- The blocks of the LUNs in use, by LUN and block. -/
def allBlocks (s : State) : List (Nat × Nat) :=
  ((usedLuns s).map (fun l =>
    (List.range (match persOf s l with | some p => lunBlocks p | none => 0)).map (fun b => (l, b)))).flatten

/-- Blocks in a state. -/
def blocksIn (s : State) (st : Nat) : List (Nat × Nat) := (allBlocks s).filter (fun b => btState s b.1 b.2 == st)

/-- The attic (R327): blocks in STATE 0. -/
def atticCount (s : State) : Nat := (blocksIn s bsFree).length

/-! ### The array and the media cipher (R311, R425) -/

/-- The media key of a namespace: the value of its slot. -/
def mediaKey (s : State) (nsid : Nat) : List Byte :=
  match tblGet none s.keys nsid with
  | some k => k.value
  | none => List.replicate 64 0

/-- The sector stored at a PSA, its data deciphered. -/
def readSector (s : State) (psa : Nat) : Option Sector :=
  (tblGet none s.media.cells psa).map (fun x => { x with data := xts false (mediaKey s x.nsid) psa x.data })

/-- Program sectors: their data enciphered under the key of their namespace and their PSA. -/
def programSectors (s : State) (secs : List (Nat × Sector)) : State :=
  { s with media := { s.media with cells := secs.foldl (fun c e =>
      tblSet none c e.1 (some { e.2 with data := xts true (mediaKey s e.2.nsid) e.1 e.2.data })) s.media.cells } }

/-- Erase a block: its sectors hold nothing. -/
def eraseCells (s : State) (lun block : Nat) : State :=
  match persOf s lun with
  | none => s
  | some p =>
    let lo := psaOf p lun block 0 0
    let hi := lo + 4 * psaPages p
    { s with media := { s.media with cells := tblKeep (fun k => k < lo || hi ≤ k) s.media.cells } }

/-- The bytes of `n` consecutive sectors; a sector that holds nothing reads as zeros. -/
def extRead (s : State) (psa : Nat) : Nat → List Byte
  | 0 => []
  | n + 1 =>
    (match readSector s psa with | some x => x.data | none => List.replicate 4096 0) ++ extRead s (psa + 1) n

/-- Record a media error (MEDIA_LASTERR): kind 0 program, 1 erase, 2 unrecovered read, 3 timeout. -/
def mediaErr (s : State) (lun block kind : Nat) : State :=
  s.capture R.MEDIA_LASTERR_VALID
    [(R.MEDIA_LASTERR_LUN, lun), (R.MEDIA_LASTERR_KIND, kind), (R.MEDIA_LASTERR_BLOCK, block)]

end Sys2Proof.Machine
end

