-- ==== Sys2Proof/Machine/NandOps.lean ====
section
/-! DEFINITION. Sys2Proof/Machine/NandOps.lean: the channel sequencers: operations of a personality and their micro-steps
(R304 to R310, R313). What an operation's end means to the translation layer is Ftl.lean's. -/

namespace Sys2Proof.Machine

/-! ### Starting an operation -/

/-- The operations of Table 10.5. -/
def opReset : Nat := 0
def opRead : Nat := 1
def opReadSlc : Nat := 2
def opProgram : Nat := 3
def opProgramSlc : Nat := 4
def opErase : Nat := 5
def opRetrySet : Nat := 6
def opRetryClear : Nat := 7
def opParamRead : Nat := 8

/-- The first micro-step of an operation; none: the operation is absent. -/
def opStart (s : State) (lun k : Nat) : Option Nat :=
  match persOf s lun with
  | none => none
  | some p => if p.ops.getD k 0xFFFF = 0xFFFF then none else some (p.ops.getD k 0xFFFF)

/-- May a channel sequencer start an operation on a LUN? MEDIA and the channel are ON, the LUN is in use and runs none. -/
def lunFree (s : State) (lun : Nat) : Bool :=
  blockOn s .media && s.fld (R.NAND_STATUS_STATE (lunChannel lun)) == stOn &&
    (match lunOf s lun with | some l => l.used && l.op.isNone | none => false)

/-- An operation at its first micro-step. -/
def newOp (k block page start : Nat) (prog : Option Prog) : NandOp :=
  { k := k, block := block, page := page, pc := start, bus := [], pages := 0, waits := 0, prog := prog, got := [] }

/-- Start an operation on a LUN. -/
def beginOp (s : State) (lun k block page : Nat) (prog : Option Prog) : State :=
  match lunOf s lun, opStart s lun k with
  | some l, some a => setLun s lun { l with op := some (newOp k block page a prog) }
  | _, _ => s

/-- What a LUN's retry sequence waits for. -/
def lunPhase (s : State) (lun : Nat) : RetryPhase := match lunOf s lun with | some l => l.phase | none => .none

/-- Start READ or READ_SLC of a page; within a retry sequence, the page it repeats. -/
def startRead (s : State) (lun k block page : Nat) : State :=
  if lunFree s lun then
    match lunOf s lun, lunPhase s lun with
    | some l, .read =>
      (match l.again with
       | some o => if o.k = k then
           setLun s lun { l with op := some { o with pc := (opStart s lun k).getD 0, bus := [], pages := 0, waits := 0 } } else s
       | none => s)
    | _, .none => beginOp s lun k block page none
    | _, _ => s
  else s

/-- Start the next program that waits for a LUN, in normal or SLC mode. -/
def startProgram (s : State) (lun : Nat) (slc : Bool) : State :=
  if lunFree s lun ∧ lunPhase s lun = .none then
    match s.media.progs.find? (fun p => p.lun == lun && p.slc == slc) with
    | none => s
    | some p =>
      beginOp { s with media := { s.media with progs := s.media.progs.erase p } } lun
        (if slc then opProgramSlc else opProgram) p.block p.page (some p)
  else s

/-- Start the erase of a block in STATE 7. -/
def startErase (s : State) (lun block : Nat) : State :=
  if lunFree s lun ∧ lunPhase s lun = .none ∧ btState s lun block = bsPending then
    beginOp s lun opErase block 0 none
  else s

/-- Start RESET, or another operation that moves no page (PARAM_READ). -/
def startPlain (s : State) (lun k : Nat) : State :=
  if lunFree s lun ∧ lunPhase s lun = .none then beginOp s lun k 0 0 none else s

/-- Start RETRY_SET for the next retry step (R313). -/
def startRetrySet (s : State) (lun : Nat) : State :=
  if lunFree s lun ∧ lunPhase s lun = .set then
    match lunOf s lun with
    | some l => beginOp (setLun s lun { l with retry := l.retry + 1 }) lun opRetrySet 0 0 none
    | none => s
  else s

/-- Start RETRY_CLEAR at the end of a retry sequence. -/
def startRetryClear (s : State) (lun : Nat) : State :=
  if lunFree s lun ∧ lunPhase s lun = .clear then beginOp s lun opRetryClear 0 0 none else s

/-! ### Micro-steps (Table 10.6) -/

/-- The micro-step a LUN's operation is at, with the LUN, the operation and its personality. -/
def atStep (s : State) (lun : Nat) : Option (Lun × NandOp × Pers × Nat) :=
  match lunOf s lun, persOf s lun with
  | some l, some p =>
    (match l.op with
     | some o => some (l, o, p, p.steps.getD o.pc 0)
     | none => none)
  | _, _ => none

def stepKind (w : Nat) : Nat := bitsOf w 0 4
def stepArg (w : Nat) : Nat := bitsOf w 4 4
def stepByte (w : Nat) : Nat := bitsOf w 8 8
def stepVal (w : Nat) : Nat := bitsOf w 16 8
def stepFailm (w : Nat) : Nat := bitsOf w 24 8
def stepTime (w : Nat) : Nat := bitsOf w 32 32

/-- The row address of an operation's page (R306): page, plane and block, LUN select, at the bit positions that PPB,
PLANEBIT and LUNBIT imply; `add` is a plane added. -/
def rowAddr (p : Pers) (lun block page add : Nat) : Nat :=
  page + (block % p.planes + add) * 2 ^ p.planeBit + block / p.planes * p.planes * 2 ^ p.planeBit + lun % 4 * 2 ^ p.lunBit

/-- Move on to the next micro-step with bytes driven onto the bus. -/
def nandAdvance (s : State) (lun : Nat) (l : Lun) (o : NandOp) (bs : List Byte) : State :=
  setLun s lun { l with op := some { o with pc := o.pc + 1, bus := o.bus ++ bs } }

/-- CMD: the command byte. -/
def nandCmd (s : State) (lun : Nat) : State :=
  match atStep s lun with
  | some (l, o, _, w) => if stepKind w = 1 then nandAdvance s lun l o [BitVec.ofNat 8 (stepByte w)] else s
  | none => s

/-- ADDR: column and row cycles, row cycles, or one byte. -/
def nandAddr (s : State) (lun : Nat) : State :=
  match atStep s lun with
  | some (l, o, p, w) =>
    if stepKind w = 2 then
      let rows := leBytes (p.adrCyc / 16) (rowAddr p lun o.block (o.page + o.pages) (stepVal w))
      nandAdvance s lun l o
        (if stepArg w = 0 then leBytes (p.adrCyc % 16) 0 ++ rows
         else if stepArg w = 1 then rows else [BitVec.ofNat 8 (stepByte w)])
    else s
  | none => s

/-- DIN: the next page's codewords, or TIME bytes, into the NAND. -/
def nandDin (s : State) (lun : Nat) : State :=
  match atStep s lun with
  | some (l, o, _, w) =>
    if stepKind w = 3 then nandAdvance s lun l { o with pages := o.pages + (if stepArg w = 0 then 1 else 0) } [] else s
  | none => s

/-- The codewords of a page read after this transfer: those that decode now, with those that had decoded (R313). -/
def mergeGot (old : List (Option (List Byte))) (data : List (List Byte)) (ok : List Bool) : List (Option (List Byte)) :=
  (List.range 4).map (fun i =>
    match old.getD i none with
    | some d => some d
    | none => if ok.getD i false then some (data.getD i []) else none)

/-- DOUT: the next page's codewords out of the NAND, each decoded by the LDPC decoder or not (`ok`), or TIME bytes. -/
def nandDout (s : State) (lun : Nat) (ok : List Bool) (bytes : List Byte) : State :=
  match atStep s lun with
  | some (l, o, p, w) =>
    if stepKind w = 4 then
      if stepArg w = 0 then
        let a := psaOf p lun o.block (o.page + o.pages) 0
        let data := (List.range 4).map (fun i => extRead s (a + i) 1)
        nandAdvance s lun l { o with pages := o.pages + 1, got := mergeGot o.got data ok } []
      else nandAdvance s lun l o (bytes.take (stepTime w))
    else s
  | none => s

/-- WAIT: TIME ns pass. -/
def nandWait (s : State) (lun : Nat) : State :=
  match atStep s lun with
  | some (l, o, _, w) => if stepKind w = 5 then nandAdvance s lun l { o with waits := o.waits + stepTime w } [] else s
  | none => s

/-- FEAT: the parameters of TIME, or those of the current retry step (R307). -/
def nandFeat (s : State) (lun : Nat) : State :=
  match atStep s lun with
  | some (l, o, p, w) =>
    if stepKind w = 7 then
      let r := p.retry.getD (l.retry - 1) 0
      nandAdvance s lun l o
        (if stepArg w = 0 then BitVec.ofNat 8 (stepByte w) :: leBytes 4 (stepTime w)
         else BitVec.ofNat 8 r :: leBytes 4 (r / 256))
    else s
  | none => s

/-- How an operation ended (R310). -/
inductive OpEnd where
  | success | status | timeout
  deriving DecidableEq, Repr

/-- The end of READ or READ_SLC: with a codeword not decoded the next retry step is due, or the read is unrecovered
(R313). `relocate` is what marks the block. -/
def readEnd (s : State) (lun : Nat) (l : Lun) (p : Pers) (o : NandOp) (relocate : State → Nat → Nat → State) : State :=
  let got := mergeGot o.got [] []
  let bad := (List.range 4).filter (fun i => (got.getD i none).isNone)
  let a := psaOf p lun o.block o.page 0
  let good := (List.range 4).filter (fun i => (got.getD i none).isSome)
  let s1 := { s with media := { s.media with unrec := s.media.unrec.filter (fun x => !good.any (fun i => x == a + i)) } }
  let s2 := if bad ≠ [] ∧ l.retry = 0 ∧ p.nretry ≠ 0 then
      (s1.addWrap R.MEDIA_RETRYCNT_COUNT 1).raise R.MEDIA_ISR_RETRY else s1
  if bad ≠ [] ∧ l.retry < p.nretry then setLun s2 lun { l with op := none, phase := .set, again := some { o with got := got } }
  else
    let s3 := if bad = [] then s2 else
      let u := mediaErr ((s2.addWrap R.MEDIA_UNRECCNT_COUNT 1).raise R.MEDIA_ISR_UNREC) lun o.block 2
      { u with media := { u.media with unrec := u.media.unrec ++ bad.map (fun i => a + i) } }
    let s4 := if l.retry ≠ 0 ∧ s3.fld R.FTLA_WEAR_REFRESH ≤ l.retry then relocate s3 lun o.block else s3
    setLun s4 lun { l with op := none, phase := if l.retry = 0 then .none else .clear, again := none }

end Sys2Proof.Machine
end

