-- ==== Sys2Proof/Machine/FtlMap.lean ====
section
/-! DEFINITION. Sys2Proof/Machine/FtlMap.lean: logical sectors, write buffers and the map (R314 to R321): where a sector's
block lies, what a release or a deallocate does to it, and what has persisted (R323, R460). -/

namespace Sys2Proof.Machine

/-! ### Blocks of the block code -/

/-- The length of the encoded block at the head of some bytes: header and payload (R208). -/
def blockLen (bs : List Byte) : Nat := 16 + leAt bs 6 2

/-- The first `n` of the encoded blocks that lie back to back. -/
def splitBlocks (bs : List Byte) : Nat → List (List Byte)
  | 0 => []
  | n + 1 => bs.take (blockLen bs) :: splitBlocks (bs.drop (blockLen bs)) n

/-- Pass over `n` blocks. -/
def skipBlocks (bs : List Byte) : Nat → List Byte
  | 0 => bs
  | n + 1 => skipBlocks (bs.drop (blockLen bs)) n

/-- The budget code of a fixed-ratio block (Table 7.12); none for another mode. -/
def fixedBudget (b : List Byte) : Option Nat :=
  if (readHdr b).mode = 2 then (List.range 4).find? (fun c => budgetBytes c == b.length) else none

/-- A filler block (R315): of a fixed-slot unit with a budget, or otherwise. -/
def fillerBlock (budget : Option Nat) : List Byte :=
  let crc := crc32c (List.replicate 4096 0)
  match budget with
  | some c => blockHeader 2 0 2 0 0 (budgetBytes c - 16) 4096 crc true ++ List.replicate (budgetBytes c - 16) 0
  | none => blockHeader 1 0 2 0 0 48 4096 crc true ++ List.replicate 48 0

/-- The 4,096 bytes a block decodes to, the rest of its sector zero (R315); none where it does not decode. -/
def decodeSector (b : List Byte) : Option (List Byte) :=
  let h := readHdr b
  if h.bad then none
  else
    match decodePayload h ((b.drop 16).take h.plen) with
    | none => none
    | some out => if crc32c out = h.crc then some (out ++ List.replicate (4096 - out.length) 0) else none

/-! ### The map (Tables 10.8 and 10.9) -/

def mapKey (nsid unit : Nat) : Nat := 2 ^ 40 * nsid + unit
def mapOf (s : State) (nsid unit : Nat) : MapUnit := tblGet MapUnit.none s.ftl.map (mapKey nsid unit)
def setMap (s : State) (nsid unit : Nat) (u : MapUnit) : State :=
  { s with ftl := { s.ftl with map := tblSet MapUnit.none s.ftl.map (mapKey nsid unit) u } }

/-- Set bits of `mask` below `i`. -/
def bitsBelow (mask i : Nat) : Nat := ((List.range i).filter (fun k => mask.testBit k)).length

/-- Where a sector's block lies: the PSAs to read, and the block. -/
structure Located where
  psas : List Nat
  block : List Byte
  deriving DecidableEq, Repr

/-- The block at byte `o` of the run of sectors at a PSA, `n` bytes long. -/
def blockAt (s : State) (psa o n : Nat) : Located :=
  let a := psa + o / 4096
  let k := (o % 4096 + n + 4095) / 4096
  ⟨(List.range k).map (fun i => a + i), ((extRead s a k).drop (o % 4096)).take n⟩

/-- Block `k` of a length-class extent whose first block lies at byte `off`: the header chain is walked (R320). -/
def chainBlock (s : State) (psa len off k : Nat) : Located :=
  let bs := extRead s psa len
  let rest := skipBlocks (bs.drop off) k
  let fin := bs.length - rest.length + blockLen rest
  ⟨(List.range ((fin + 4095) / 4096)).map (fun i => psa + i), rest.take (blockLen rest)⟩

/-- The block of sector `i` of a unit in the array (R320); none where the sector holds none. -/
def locate (s : State) (u : MapUnit) (i : Nat) : Option Located :=
  match u.kind with
  | 1 => some (blockAt s u.psa (budgetBytes u.budget * i) (budgetBytes u.budget))
  | 2 => some (chainBlock s u.psa u.len 0 i)
  | 3 =>
    (match tblGet none u.fine (i / 4) with
     | none => none
     | some f =>
       if f.present.testBit (i % 4) then
         let k := bitsBelow f.stored (i % 4)
         if f.kind = 1 then some (blockAt s f.psa (f.off + budgetBytes f.budget * k) (budgetBytes f.budget))
         else some (chainBlock s f.psa f.len f.off k)
       else none)
  | _ => none

/-- The byte offsets of consecutive blocks of an extent. -/
def blockOffsets (bs : List Byte) (o : Nat) : Nat → List Nat
  | 0 => [o]
  | n + 1 => o :: blockOffsets (bs.drop (blockLen bs)) (o + blockLen bs) n

/-- A coarse unit as fine: each fine unit points into the old extent (R319). -/
def toFine (s : State) (u : MapUnit) : List (Nat × Option FineEnt) :=
  if u.kind = 3 then u.fine
  else if u.kind = 0 then []
  else
    let offs := if u.kind = 1 then (List.range 257).map (fun i => budgetBytes u.budget * i)
      else blockOffsets (extRead s u.psa u.len) 0 256
    (List.range 64).map (fun j =>
      let a := offs.getD (4 * j) 0
      let e := offs.getD (4 * j + 4) 0
      (j, some { psa := u.psa + a / 4096, len := (a % 4096 + (e - a) + 4095) / 4096, kind := u.kind, budget := u.budget,
                 present := 15, stored := 15, off := a % 4096 }))

/-- Take one sector out of a unit's entry: a coarse unit becomes fine (R319). -/
def unmapSector (s : State) (u : MapUnit) (i : Nat) : MapUnit :=
  let fine := toFine s u
  match tblGet none fine (i / 4) with
  | none => u
  | some f =>
    let p := if f.present.testBit (i % 4) then f.present - 2 ^ (i % 4) else f.present
    let fine' := tblSet none fine (i / 4) (if p = 0 then none else some { f with present := p })
    if fine' = [] then { MapUnit.none with side := u.side } else { MapUnit.none with kind := 3, side := u.side, fine := fine' }

/-- Is sector `i` of a unit mapped? -/
def sectorMapped (u : MapUnit) (i : Nat) : Bool :=
  match u.kind with
  | 0 => false
  | 3 => (match tblGet none u.fine (i / 4) with | some f => f.present.testBit (i % 4) | none => false)
  | _ => true

/-- The next journal sequence number. -/
def nextSeq (s : State) : State := { s with ftl := { s.ftl with jseq := (s.ftl.jseq + 1) % 2 ^ 32 } }

/-- Change a unit's entry, its STAMP and the pending map journal (R322). -/
def changeMap (s : State) (nsid unit : Nat) (u : MapUnit) : State :=
  let e := { u with stamp := s.ftl.jseq % 2 ^ 28 }
  let s1 := setMap s nsid unit e
  nextSeq { s1 with ftl := { s1.ftl with pend := s1.ftl.pend ++ [.map s.ftl.jseq nsid unit e] } }

/-- Fine tables in use, and FTLA_FINE.FREE. -/
def fineUsed (s : State) : Nat := (s.ftl.map.filter (fun e => e.2.kind == 3)).length
def fineFree (s : State) : Nat := Config.fineTables - fineUsed s

/-! ### Write buffers -/

/-- The sector of a namespace in the write buffers. -/
def wbFind (s : State) (nsid lsec : Nat) : Option WbSec := s.ftl.wb.find? (fun w => w.nsid == nsid && w.lsec == lsec)

/-- Put a sector into the write buffers; a later release wins (R317). -/
def wbPut (s : State) (w : WbSec) : State :=
  { s with ftl := { s.ftl with wb := s.ftl.wb.filter (fun x => !(x.nsid == w.nsid && x.lsec == w.lsec)) ++ [w] } }

/-- Deallocate a sector (R279, R317): it leaves the write buffers, the unit being written and the map. -/
def deallocSector (s : State) (nsid lsec : Nat) : State :=
  let s1 := { s with ftl := { s.ftl with
    wb := s.ftl.wb.filter (fun x => !(x.nsid == nsid && x.lsec == lsec)),
    jobs := s.ftl.jobs.map (fun j => if j.nsid == nsid && j.unit == lsec / 256 then { j with dead := j.dead ++ [lsec] } else j) } }
  let u := mapOf s1 nsid (lsec / 256)
  if sectorMapped u (lsec % 256) then changeMap s1 nsid (lsec / 256) (unmapSector s1 u (lsec % 256)) else s1

def deallocSectors (s : State) (nsid lsec : Nat) : Nat → State
  | 0 => s
  | n + 1 => deallocSectors (deallocSector s nsid lsec) nsid (lsec + 1) n

/-- The block that holds a sector: in the write buffers, or in the array (R317, R320). -/
def sectorBlock (s : State) (nsid lsec : Nat) : Option Located :=
  match wbFind s nsid lsec with
  | some w => some ⟨[], w.block⟩
  | none => locate s (mapOf s nsid (lsec / 256)) (lsec % 256)

/-! ### Released parcels (R314 to R316, R460) -/

/-- The released parcel of a number. -/
def findRel (s : State) (r : Nat) : Option Rel := s.ftl.rels.find? (fun x => x.rel == r)
def updRel (s : State) (r : Nat) (g : Rel → Rel) : State :=
  { s with ftl := { s.ftl with rels := s.ftl.rels.map (fun x => if x.rel == r then g x else x) } }

/-- Sectors that hold a parcel's blocks. -/
def relSectors (r : Rel) : Nat := (r.plen + 4095) / 4096

/-- Put the blocks of a parcel into the write buffers from sector `k` on, fillers past the last (R315). -/
def putSectors (s : State) (r : Rel) (k : Nat) (blocks : List (List Byte)) : Nat → State
  | 0 => s
  | n + 1 =>
    match blocks with
    | [] => putSectors (wbPut s ⟨r.nsid, r.lsec + k, fillerBlock none, true, r.rel⟩) r (k + 1) [] n
    | b :: bs => putSectors (wbPut s ⟨r.nsid, r.lsec + k, b, false, r.rel⟩) r (k + 1) bs n

/-- Take a parcel into its sectors: blocks beyond its sector count are discarded, sectors beyond its declared length are
deallocated (R314, R315). -/
def mapParcel (s : State) (r : Rel) : State :=
  deallocSectors (putSectors s r 0 r.blocks (relSectors r)) r.nsid (r.lsec + relSectors r) (r.nsec - relSectors r)

/-- Is a parcel irregular (R316)? -/
def isIrregular (r : Rel) : Bool := r.blocks.dropLast.any (fun b => decide ((readHdr b).nbytes < 4096))

/-- Take what waits into the map, in release order, up to an irregular parcel (R316, R317). -/
def runQueue (s : State) : List MapReq → State
  | [] => { s with ftl := { s.ftl with queue := [] } }
  | .dealloc nsid lsec n :: q => runQueue (deallocSectors s nsid lsec n) q
  | .parcel rel :: q =>
    match findRel s rel with
    | none => runQueue s q
    | some r => if isIrregular r then { s with ftl := { s.ftl with queue := .parcel rel :: q } } else runQueue (mapParcel s r) q

/-- Add a request to what waits for the map, and take what can be taken. -/
def enqueueMap (s : State) (m : MapReq) : State := runQueue s (s.ftl.queue ++ [m])

/-- The bytes a released parcel counts (R460): blocks and side record, each rounded up to 4 KiB. -/
def relBytes (r : Rel) : Nat := roundUp r.ebytes 4096 + roundUp (64 + r.side.length) 4096

/-- The exposure X in bytes (R460). -/
def exposure (s : State) : Nat := s.ftl.rels.foldl (fun n r => n + relBytes r) 0

/-- Is a released parcel held (R460): do its bytes and those of the unpersisted parcels before it total at most W? -/
def relHeld (s : State) (rel : Nat) : Bool :=
  decide ((s.ftl.rels.takeWhile (fun r => r.rel != rel)).foldl (fun n r => n + relBytes r)
    (match findRel s rel with | some r => relBytes r | none => 0) ≤ s.hold.w)

/-- Do some sectors of a range still wait in the write buffers or for the map, or in a unit not committed? -/
def rangePending (s : State) (nsid lsec n : Nat) : Bool :=
  s.ftl.wb.any (fun w => w.nsid == nsid && decide (lsec ≤ w.lsec) && decide (w.lsec < lsec + n)) ||
    s.ftl.queue.any (fun q => match q with
      | .parcel r => (match findRel s r with | some x => x.nsid == nsid && decide (lsec < x.lsec + x.nsec) && decide (x.lsec < lsec + n) | none => false)
      | .dealloc k l m => k == nsid && decide (lsec < l + m) && decide (l < lsec + n))

/-- Has a released parcel persisted (R323): its sectors programmed and mapped by committed records, its side record too? -/
def relPersists (s : State) (r : Rel) : Bool := r.sided && !rangePending s r.nsid r.lsec r.nsec

/-- Drop the parcels that have persisted; parcels after them may become held. -/
def dropPersisted (s : State) : State :=
  { s with ftl := { s.ftl with rels := s.ftl.rels.filter (fun r => !relPersists s r) } }

/-- The re-formed blocks of an irregular parcel (R316): decode in order until a block fails; the image and whether all
decoded. -/
def decodeImage : List (List Byte) → List Byte × Bool
  | [] => ([], true)
  | b :: bs =>
    let h := readHdr b
    if h.bad then ([], false)
    else
      match decodePayload h ((b.drop 16).take h.plen) with
      | none => ([], false)
      | some out =>
        if crc32c out = h.crc then
          let r := decodeImage bs
          (out ++ r.1, r.2)
        else ([], false)

/-- Stored-mode blocks of 4,096 bytes. -/
def storedBlocks (bs : List Byte) : Nat → List (List Byte)
  | 0 => []
  | n + 1 => storedBlock 0 (bs.take 4096 ++ List.replicate (4096 - (bs.take 4096).length) 0) :: storedBlocks (bs.drop 4096) n

/-- Re-form the irregular parcel that waits first (R316). Sectors not covered in full by what decoded before a failing
block are marked failed. -/
def irregularReform (s : State) : State :=
  match s.ftl.queue with
  | .parcel rel :: q =>
    (match findRel s rel with
     | none => s
     | some r =>
       if isIrregular r then
         let d := decodeImage r.blocks
         let n := if d.2 then relSectors r else min (relSectors r) (d.1.length / 4096)
         let bl := storedBlocks d.1 n
         let r' := { r with blocks := bl, ebytes := bl.flatten.length, nblk := bl.length }
         let s1 := (s.addWrap R.MEDIA_IRREG_COUNT 1).addWrap R.CODEC_DECNT_COUNT 1
         let s2 := putSectors (updRel s1 rel (fun _ => r')) r' 0 bl n
         runQueue (deallocSectors s2 r.nsid (r.lsec + n) (r.nsec - n)) q
       else s)
  | _ => s

end Sys2Proof.Machine
end

