-- ==== Sys2Proof/Machine/Ftl.lean ====
section
/-! DEFINITION. Sys2Proof/Machine/Ftl.lean: the translation layer's own work: writing units, side records, the journal and
the checkpoint, block states and retirement, garbage collection and the FTLA scans (R317 to R334). -/

namespace Sys2Proof.Machine

/-! ### The program window (R470) -/

/-- The NAND-role temperature channels that cover a NAND channel. -/
def coveringChans (s : State) (c : Nat) : List Nat :=
  (List.range 8).filter (fun n => s.fld (R.THERM_CH_CFG_SRC n) != 0 && s.fld (R.THERM_CH_CFG_ROLE n) == 1 &&
    (s.fld (R.THERM_CH_MASK_MASK n)).testBit c)

/-- Is a NAND channel in its program window? A channel nothing covers counts as in window, a faulted one as out (R468). -/
def chanInWindow (s : State) (c : Nat) : Bool :=
  (coveringChans s c).all (fun n => tblGet false s.therm.inWin (n * 32 + c) && !(s.fld R.THERM_STATUS_CHFAULT).testBit n)

/-! ### The attic and garbage collection's state (R327, R331, R333) -/

/-- The block whose change is journalled (R322). -/
def noteBlockState (s : State) (lun block : Nat) : State :=
  nextSeq { s with ftl := { s.ftl with pend := s.ftl.pend ++
    [.blk s.ftl.jseq lun block (btErases s lun block) (btClosed s lun block) (btState s lun block)] } }

/-- Put a block into a state, with its journal record. -/
def setBlock (s : State) (lun block st : Nat) : State := noteBlockState (btSetState s lun block st) lun block

/-- Garbage collection's state after the attic has changed: running from GCLOW to GCHIGH, forced at or below FLOOR;
read-only is left at GCHIGH. -/
def gcUpdate (s : State) : State :=
  let n := atticCount s
  let was := s.flag R.FTLA_STATUS_GCRUN
  let run := if n ≤ s.fld R.FTLA_GCLOW_BLOCKS then true else if s.fld R.FTLA_GCHIGH_BLOCKS ≤ n then false else was
  let forced := run && decide (n ≤ s.fld R.FTLA_FLOOR_BLOCKS)
  let s1 := if forced ∧ ¬ s.flag R.FTLA_STATUS_GCFORCED then s.raise R.FTLA_ISR_FORCED else s
  let s2 := s1.setFlds [(R.FTLA_STATUS_GCRUN, b2n run), (R.FTLA_STATUS_GCFORCED, b2n forced)]
  if s2.flag R.FTLA_STATUS_RDONLY ∧ s2.fld R.FTLA_GCHIGH_BLOCKS ≤ n then
    clearWarn ({ (s2.clear R.FTLA_STATUS_RDONLY) with nvme := { s2.nvme with rdonly := false } }.raise R.FTLA_ISR_RDWRITE) 3
  else s2

/-- The attic block with the lowest ERASES on a LUN, a tie to the lowest number (R327). -/
def leastWorn (s : State) (lun : Nat) : Option (Nat × Nat) :=
  (blocksIn s bsFree).foldl (fun best b =>
    if b.1 = lun then
      match best with
      | none => some (b.2, btErases s lun b.2)
      | some x => if btErases s lun b.2 < x.2 then some (b.2, btErases s lun b.2) else best
    else best) none

/-- The LUN the next unit goes to: round robin over LUNs in use, in window, with an attic block (R327). -/
def nextLun (s : State) : Option Nat :=
  let free := blocksIn s bsFree
  let ok := (usedLuns s).filter (fun l => chanInWindow s (lunChannel l) && free.any (fun b => b.1 == l))
  match ok.find? (fun l => decide (s.ftl.lastLun < l)) with
  | some l => some l
  | none => ok.head?

/-! ### Placing extents -/

/-- Close a LUN's open block. -/
def closeOpen (s : State) (lun : Nat) : State :=
  match tblGet none s.ftl.openBlk lun with
  | none => s
  | some (b, _) =>
    setBlock { (btSet s lun b (btErases s lun b) (btValid s lun b) s.ftl.seconds (btState s lun b)) with
      ftl := { s.ftl with openBlk := tblSet none s.ftl.openBlk lun none } } lun b bsClosed

/-- Open the least-worn attic block of a LUN; only garbage collection takes the attic below FLOOR (R331). -/
def openBlock (s : State) (lun : Nat) (gc : Bool) : Option State :=
  if !gc && decide (atticCount s ≤ s.fld R.FTLA_FLOOR_BLOCKS) then none
  else
    match leastWorn s lun with
    | none => none
    | some (b, _) =>
      let s1 := setBlock s lun b bsOpen
      some { s1 with ftl := { s1.ftl with openBlk := tblSet none s1.ftl.openBlk lun (some (b, 0)) } }

/-- Move a LUN's open block on to a sector. -/
def setOpenPos (s : State) (lun b pos : Nat) : State :=
  { s with ftl := { s.ftl with openBlk := tblSet none s.ftl.openBlk lun (some (b, pos)) } }

/-- A run of physical sectors in a LUN's open block, where it has room. -/
def allocHere (s : State) (p : Pers) (lun n : Nat) : Option (Nat × State) :=
  match tblGet none s.ftl.openBlk lun with
  | some (b, pos) => if pos + n ≤ p.ppb * 4 then some (psaOf p lun b 0 0 + pos, setOpenPos s lun b (pos + n)) else none
  | none => none

/-- A run of `n` sectors on a LUN: in its open block, or in a newly opened one. -/
def allocRun (s : State) (p : Pers) (lun n : Nat) (gc : Bool) : Option (Nat × State) :=
  match allocHere s p lun n with
  | some r => some r
  | none =>
    match openBlock (closeOpen s lun) lun gc with
    | some s1 => allocHere s1 p lun n
    | none => none

/-- The physical sectors of an extent's bytes (Table 10.7). -/
def extentSectors (nsid lsec stamp use psa : Nat) (bs : List Byte) (i : Nat) : Nat → List (Nat × Sector)
  | 0 => []
  | n + 1 =>
    (psa + i, ⟨nsid, lsec, stamp, use, i, bs.take 4096 ++ List.replicate (4096 - (bs.take 4096).length) 0⟩) ::
      extentSectors nsid lsec stamp use psa (bs.drop 4096) (i + 1) n

/-- What is being placed for a unit: the state, the sectors so far, and whether everything found room. -/
structure Placing where
  st : State
  secs : List (Nat × Sector)
  ok : Bool

/-- Place one extent: its PSA and sector count. -/
def placeExtent (x : Placing) (p : Pers) (lun : Nat) (gc : Bool) (nsid lsec use : Nat) (bs : List Byte) :
    Placing × Nat × Nat :=
  let n := (bs.length + 4095) / 4096
  match allocRun x.st p lun n gc with
  | none => ({ x with ok := false }, psaNone, n)
  | some (a, s1) =>
    ({ st := s1, secs := x.secs ++ extentSectors nsid lsec x.st.ftl.jseq use a bs 0 n, ok := x.ok }, a, n)

/-- The programs that carry sectors: one program operation per group of PGU pages (R305). -/
def progsOf (p : Pers) (lun job : Nat) (secs : List (Nat × Sector)) : List Prog :=
  let key (a : Nat) : Nat := 2 ^ 16 * (a % 2 ^ 26 / (4 * psaPages p)) + a % 2 ^ 26 % (4 * psaPages p) / (4 * p.pgu)
  let keys := (secs.map (fun e => key e.1)).eraseDups
  keys.map (fun k =>
    { lun := lun, block := k / 2 ^ 16, page := k % 2 ^ 16 * p.pgu, slc := false,
      secs := secs.filter (fun e => key e.1 == k), job := job })

/-- The end of a unit's placing: the open block stands at the next program group, and closes when it is full. -/
def finishPlacing (s : State) (p : Pers) (lun : Nat) : State :=
  match tblGet none s.ftl.openBlk lun with
  | none => s
  | some (b, pos) =>
    let q := roundUp pos (4 * p.pgu)
    if p.ppb * 4 ≤ q then closeOpen s lun else setOpenPos s lun b q

/-! ### A unit's extents (R318, R319, R321) -/

/-- The bytes of a run of blocks and their kind: fixed-slot when every block is fixed-ratio of one budget, fillers
taking the budget. -/
def extentOf (bs : List (List Byte × Bool)) : Nat × Nat × List Byte :=
  let real := bs.filter (fun b => !b.2)
  let bud := match real with
    | [] => none
    | b :: _ => fixedBudget b.1
  match bud with
  | some c =>
    if real.all (fun b => fixedBudget b.1 == some c) then
      (1, c, (bs.map (fun b => if b.2 then fillerBlock (some c) else b.1)).flatten)
    else (2, 0, (bs.map Prod.fst).flatten)
  | none => (2, 0, (bs.map Prod.fst).flatten)

/-- A 64-byte parcel record header (Table 9.6) with NEXT of R321. -/
def recordHeader (r : Rel) (slba ebytes nblk next : Nat) : List Byte :=
  leBytes 4 0x4C435250 ++ leBytes 4 r.flow ++ leBytes 4 r.seq ++ leBytes 4 (b2n r.raw + 2 * b2n r.indet) ++
    leBytes 8 slba ++ leBytes 4 r.plen ++ leBytes 4 ebytes ++ leBytes 4 nblk ++ leBytes 4 r.nent ++ leBytes 8 next ++
    List.replicate 16 0

/-- The first logical block of a sector. -/
def slbaOf (s : State) (nsid lsec : Nat) : Nat := match nsOf s nsid with | some n => lsec / nsSpb n | none => lsec

/-- The blocks of a parcel's sectors, and their bytes (R280, R315). -/
def relBlockCount (r : Rel) : Nat := relSectors r
def relBlockBytes (r : Rel) : Nat :=
  ((r.blocks.take (relSectors r)).map List.length).foldl (· + ·) 0 + 64 * (relSectors r - r.blocks.length)

/-- Place the side records of parcels that start in a unit, each chained to the one before (R321); the newest's PSA. -/
def placeSides (x : Placing) (p : Pers) (lun : Nat) (side : Nat) : List Rel → Placing × Nat
  | [] => (x, side)
  | r :: rs =>
    let hdr := recordHeader r (slbaOf x.st r.nsid r.lsec) (relBlockBytes r) (relBlockCount r)
      (if side = psaNone then 2 ^ 64 - 1 else side)
    let e := placeExtent x p lun false r.nsid r.lsec 1 (hdr ++ r.side)
    placeSides e.1 p lun e.2.1 rs

/-- Place the fine extents of the fine units given, each with its present sectors' blocks (R319). -/
def placeFine (x : Placing) (p : Pers) (lun : Nat) (gc : Bool) (nsid unit : Nat) :
    List (Nat × List (Nat × List Byte × Bool)) → Placing × List (Nat × Option FineEnt)
  | [] => (x, [])
  | (j, bs) :: rest =>
    let k := extentOf (bs.map Prod.snd)
    let e := placeExtent x p lun gc nsid (unit * 256 + 4 * j) 0 k.2.2
    let mask := (bs.map (fun b => 2 ^ b.1)).foldl (· + ·) 0
    let r := placeFine e.1 p lun gc nsid unit rest
    (r.1, (j, some { psa := e.2.1, len := e.2.2, kind := k.1, budget := k.2.1, present := mask, stored := mask, off := 0 }) :: r.2)

/-- The blocks of a fine unit: those in the write buffers over those mapped. -/
def fineBlocks (s : State) (nsid unit j : Nat) (u : MapUnit) (buffers : Bool) : List (Nat × List Byte × Bool) :=
  (List.range 4).filterMap (fun i =>
    match (if buffers then wbFind s nsid (unit * 256 + 4 * j + i) else none) with
    | some w => some (i, w.block, w.fill)
    | none =>
      match locate s u (4 * j + i) with
      | some l => some (i, l.block, false)
      | none => none)

/-- The sectors of a unit in the write buffers. -/
def wbUnit (s : State) (nsid unit : Nat) : List WbSec :=
  s.ftl.wb.filter (fun w => w.nsid == nsid && w.lsec / 256 == unit)

/-- The parcels that start in a unit and whose side records are still to be written. -/
def sidesDue (s : State) (nsid unit : Nat) : List Rel :=
  s.ftl.rels.filter (fun r => r.nsid == nsid && r.lsec / 256 == unit && !r.sided &&
    !s.ftl.queue.any (fun q => q == .parcel r.rel))

/-- Add a unit's writing to the jobs, its programs to those waiting. -/
def addJob (x : Placing) (p : Pers) (lun nsid unit : Nat) (e : MapUnit) (secs : List (Nat × Nat)) (sides : List Nat)
    (stamp : Nat) (gc : Bool) : State :=
  let s := finishPlacing x.st p lun
  let ps := progsOf p lun s.ftl.nextJob x.secs
  let j : UnitJob :=
    { id := s.ftl.nextJob, nsid := nsid, unit := unit, entry := e, secs := secs, sides := sides, left := ps.length,
      stamp := stamp, gc := gc, dead := [] }
  { s with
    media := { s.media with progs := s.media.progs ++ ps },
    ftl := { s.ftl with
      lastLun := lun, nextJob := s.ftl.nextJob + 1,
      jobs := s.ftl.jobs ++ [j] } }

/-- Does a unit's writing need a fine table that it has not (R319)? -/
def needsFine (s : State) (nsid unit : Nat) : Bool :=
  let ws := wbUnit s nsid unit
  ws != [] && ws.length != 256 && (mapOf s nsid unit).kind != 3

/-- Place the extents of a unit written from the write buffers: the whole unit as one extent where every sector is present,
otherwise the fine units that have new data (R318, R319). -/
def placeUnit (s : State) (p : Pers) (lun nsid unit : Nat) : Placing × MapUnit :=
  let u := mapOf s nsid unit
  let ws := wbUnit s nsid unit
  let x0 : Placing := ⟨s, [], true⟩
  if ws.length = 256 then
    let bs := (List.range 256).map (fun i =>
      match wbFind s nsid (unit * 256 + i) with | some w => (w.block, w.fill) | none => ([], false))
    let k := extentOf bs
    let e := placeExtent x0 p lun false nsid (unit * 256) 0 k.2.2
    (e.1, { u with kind := k.1, psa := e.2.1, len := e.2.2, budget := k.2.1, fine := [] })
  else
    let js := (List.range 64).filter (fun j => ws.any (fun w => w.lsec % 256 / 4 == j))
    let e := placeFine x0 p lun false nsid unit (js.map (fun j => (j, fineBlocks s nsid unit j u true)))
    (e.1, { MapUnit.none with kind := if js = [] then u.kind else 3, side := u.side, fine := e.2 })

/-- Write a unit from the write buffers (R317, R318, R319): none where it finds no room now. -/
def writeUnit (s : State) (nsid unit : Nat) : Option State :=
  match nextLun s with
  | none => none
  | some lun =>
    match persOf s lun with
    | none => none
    | some p =>
      let u := mapOf s nsid unit
      let ws := wbUnit s nsid unit
      let r := placeUnit s p lun nsid unit
      let sd := sidesDue s nsid unit
      let z := placeSides r.1 p lun u.side sd
      if z.1.ok then
        some (addJob z.1 p lun nsid unit { r.2 with side := z.2 } (ws.map (fun w => (w.lsec, w.rel))) (sd.map Rel.rel) u.stamp false)
      else none

/-- Does a shutdown of its controller wait for a parcel of a completed Write (R489)? A command's number tells its
controller. -/
def shutdownNeeds (s : State) (r : Rel) : Bool :=
  match r.cmd with
  | some id => (ctrlOf s (id % 2)).shst == 1 && (findCmd s id).isNone
  | none => false

/-- Must a released parcel reach the medium now: restored from the cellar, or a FUA write, a Flush or a shutdown needs it (R317, R489)?
With W = 0 every Write is as under FUA (R286). -/
def relNeeded (s : State) (r : Rel) : Bool :=
  r.restored || shutdownNeeds s r || s.nvme.cmds.any (fun c => c.st == .started &&
    (match c.op with
     | .write _ _ _ _ _ fua _ => r.cmd == some c.id && (fua || s.hold.w == 0)
     | .flush _ => c.rels.contains r.rel
     | _ => false))

/-- Is a unit due to be written (R317)? -/
def unitDue (s : State) (nsid unit : Nat) : Bool :=
  !s.ftl.jobs.any (fun j => j.nsid == nsid && j.unit == unit && !j.gc) &&
    ((wbUnit s nsid unit).length == 256 || s.ftl.due.contains (nsid, unit) ||
      s.ftl.rels.any (fun r => relNeeded s r && r.nsid == nsid &&
        ((wbUnit s nsid unit).any (fun w => decide (r.lsec ≤ w.lsec) && decide (w.lsec < r.lsec + r.nsec)) ||
          (r.lsec / 256 == unit && !r.sided))))

/-- With no fine table free, the writes whose sectors need one complete with Capacity Exceeded and nothing of them is
mapped (R319). -/
def noFineTable (s : State) (nsid unit : Nat) : State :=
  let ids := (wbUnit s nsid unit).filterMap (fun w => (findRel s w.rel).bind (fun r => r.cmd))
  let live := ids.filter (fun i => (findCmd s i).isSome)
  let s1 := live.foldl (fun acc i => failCmd acc i scCapacity) s
  let gone (r : Rel) : Bool := match r.cmd with | some i => live.contains i | none => false
  { s1 with ftl := { s1.ftl with
      wb := s1.ftl.wb.filter (fun w => match findRel s w.rel with | some r => !gone r | none => true),
      rels := s1.ftl.rels.filter (fun r => !gone r) } }

/-- UNIT_WRITE: a unit that is due is written; while the attic is at or below FLOOR units wait (R333). -/
def unitWrite (s : State) (nsid unit : Nat) : State :=
  if unitDue s nsid unit ∧ s.fld R.FTLA_FLOOR_BLOCKS < atticCount s then
    if needsFine s nsid unit ∧ fineFree s = 0 then noFineTable s nsid unit
    else
      match writeUnit s nsid unit with
      | some s1 => gcUpdate { s1 with ftl := { s1.ftl with due := s1.ftl.due.erase (nsid, unit) } }
      | none => s
  else s

/-- UNIT_TIMEOUT: no release has come into a unit for FTLA_UNITTO, and it is written. -/
def unitTimeout (s : State) (nsid unit : Nat) : State :=
  if s.fld R.FTLA_UNITTO_TIME ≠ 0 ∧ wbUnit s nsid unit ≠ [] ∧ !s.ftl.due.contains (nsid, unit) then
    unitWrite { s with ftl := { s.ftl with due := s.ftl.due ++ [(nsid, unit)] } } nsid unit
  else s

/-! ### Valid data (Table 10.10) -/

/-- The side records of a unit from the newest on: their PSAs and sector counts (R321). -/
def sideChain (s : State) (a : Nat) : Nat → List (Nat × Nat)
  | 0 => []
  | n + 1 =>
    if a = psaNone then []
    else
      let h := extRead s a 1
      let k := (128 + 16 * leAt h 0x24 4 + 4095) / 4096
      let next := leAt h 0x28 8
      (a, k) :: sideChain s (if next = 2 ^ 64 - 1 then psaNone else next) n

/-- The sectors of a unit's extents and side records. -/
def unitPsas (s : State) (u : MapUnit) : List Nat :=
  let run (a n : Nat) : List Nat := (List.range n).map (fun i => a + i)
  let ext := match u.kind with
    | 0 => []
    | 3 => (u.fine.map (fun e => match e.2 with | some f => run f.psa f.len | none => [])).flatten
    | _ => run u.psa u.len
  ext ++ ((sideChain s u.side 1024).map (fun e => run e.1 e.2)).flatten

/-- The sectors of valid extents in the whole array. -/
def validPsas (s : State) : List Nat := ((s.ftl.map.map (fun e => unitPsas s e.2)).flatten).eraseDups

/-- Bytes of valid extent data in a block. -/
def validIn (s : State) (lun block : Nat) : Nat :=
  4096 * ((validPsas s).filter (fun a => psaLun a == lun && psaBlock s a == block)).length

/-- Put VALID of the blocks that hold some sectors to what the map says. -/
def recount (s : State) (psas : List Nat) : State :=
  ((psas.map (fun a => (psaLun a, psaBlock s a))).eraseDups).foldl (fun acc b => btSetValid acc b.1 b.2 (validIn s b.1 b.2)) s

/-! ### Commit (R322, R323, R331, R332) -/

/-- The entry of a unit after its writing commits: fine extents laid over what the unit has now. -/
def mergedEntry (s : State) (j : UnitJob) : MapUnit :=
  let u := mapOf s j.nsid j.unit
  let side := if j.sides = [] ∧ !j.gc then u.side else j.entry.side
  if j.entry.kind = 3 then
    { MapUnit.none with kind := 3, side := side,
                        fine := j.entry.fine.foldl (fun t e => tblSet none t e.1 e.2) (toFine s u) }
  else if j.secs = [] ∧ !j.gc then { u with side := side }
  else { j.entry with side := side }

/-- Commit one unit: the entry with its journal record, the sectors deallocated meanwhile taken out, and the buffers that
it wrote released. -/
def commitUnit (s : State) (j : UnitJob) : State :=
  let old := unitPsas s (mapOf s j.nsid j.unit)
  let s1 := changeMap s j.nsid j.unit (mergedEntry s j)
  let s2 := j.dead.foldl (fun acc l =>
    if sectorMapped (mapOf acc j.nsid j.unit) (l % 256) then
      changeMap acc j.nsid j.unit (unmapSector acc (mapOf acc j.nsid j.unit) (l % 256)) else acc) s1
  let s3 := { s2 with ftl := { s2.ftl with
    jobs := s2.ftl.jobs.filter (fun x => x.id != j.id),
    wb := s2.ftl.wb.filter (fun w => !(w.nsid == j.nsid && j.secs.contains (w.lsec, w.rel))),
    rels := s2.ftl.rels.map (fun r => if j.sides.contains r.rel then { r with sided := true } else r) } }
  recount s3 (old ++ unitPsas s3 (mapOf s3 j.nsid j.unit))

/-- The pending records reach the journal. -/
def flushPend (s : State) : State :=
  { s with ftl := { s.ftl with journal := s.ftl.journal ++ s.ftl.pend, pend := [] } }

/-- The fine tables fell below 1,024. -/
def noteFine (old s : State) : State :=
  if 1024 ≤ fineFree old ∧ fineFree s < 1024 then s.raise R.FTLA_ISR_FINELOW else s

/-- Journal the commit of restored parcels with the flush number (R466). -/
def noteRestored (old s : State) : State :=
  match s.ftl.cellar with
  | none => s
  | some c =>
    let done := old.ftl.rels.filter (fun r => r.restored && (findRel s r.rel).isNone)
    { s with ftl := { s.ftl with journal := s.ftl.journal ++ done.map (fun r => .commit s.ftl.jseq c.flush r.flow r.seq) } }

/-- JOURNAL_COMMIT: a journal page programs with success: the units whose programs have all succeeded and the records
pending are committed. -/
def journalCommit (s : State) : State :=
  let js := s.ftl.jobs.filter (fun j => !j.gc && j.left == 0)
  let s1 := flushPend (js.foldl commitUnit s)
  gcUpdate (noteFine s (noteRestored s (dropPersisted s1)))

/-- CHECKPOINT: the whole map, block table and grown list are written, and the journal before it is freed. FTLA_CKPT
seconds have passed. -/
def checkpoint (s : State) : State :=
  let s1 := flushPend s
  let img : FtlImage :=
    ⟨s1.ftl.map, (allBlocks s1).map (fun b => (blkKey b.1 b.2,
      (btErases s1 b.1 b.2, btValid s1 b.1 b.2, btClosed s1 b.1 b.2, btState s1 b.1 b.2)))⟩
  { s1 with ftl := { s1.ftl with
      ckpt := img, seconds := s1.ftl.seconds + s1.fld R.FTLA_CKPT_PERIOD,
      journal := s1.ftl.journal.filter (fun r => match r with | .commit _ _ _ _ => true | _ => false) } }

/-! ### Failed programs and erases (R326) -/

/-- Retire a block: STATE 6, the grown list and its event. -/
def retireBlock (s : State) (lun block : Nat) : State :=
  (((setBlock s lun block bsGrown).setFld R.FTLA_GROWN_COUNT (s.fld R.FTLA_GROWN_COUNT + 1)).raise R.FTLA_ISR_RETIRED)

/-- Mark a block for relocation (R313, R326). -/
def markRelocate (s : State) (lun block : Nat) (retire : Bool) : State :=
  let k := blkKey lun block
  if s.ftl.relocate.any (fun e => e.1 == k && (e.2 || !retire)) then s
  else { s with ftl := { s.ftl with relocate := s.ftl.relocate.filter (fun e => e.1 != k) ++ [(k, retire)] } }

/-- The next page of a cellar block that no program has used. -/
def nextCellarPage (s : State) (p : Pers) (lun block : Nat) : Nat :=
  let lo := psaOf p lun block 0 0
  let used := (tblKeys s.media.cells).filter (fun a => decide (lo ≤ a) && decide (a < lo + 4 * psaPages p))
  let a := used.foldl (fun n x => max n ((x - lo) / 4 + 1)) 0
  s.media.progs.foldl (fun n q => if q.lun == lun && q.block == block then max n (q.page + 1) else n) a

/-- A program that ended: its sectors are in the array, or, where it failed, the unit is due again, its block closed for
retirement, and with no block free for the relocation its Writes complete with Write Fault. -/
def programDone (s : State) (g : Prog) (ok : Bool) : State :=
  if ok then
    let s1 := programSectors s g.secs
    { s1 with ftl := { s1.ftl with jobs := s1.ftl.jobs.map (fun j => if j.id == g.job && !g.slc then { j with left := j.left - 1 } else j) } }
  else
    let s1 := mediaErr ((s.addWrap R.MEDIA_PFCNT_COUNT 1).raise R.MEDIA_ISR_PFAIL) g.lun g.block 0
    if g.slc then
      let s2 := retireBlock s1 g.lun g.block
      match (blocksIn s2 bsCellar).head?, persOf s2 g.lun with
      | some (l, b), some p =>
        { s2 with media := { s2.media with progs := s2.media.progs ++ [{ g with lun := l, block := b, page := nextCellarPage s2 p l b }] } }
      | _, _ => s2
    else
      let open? := tblGet none s1.ftl.openBlk g.lun
      let s2 := match open? with
        | some (b, _) => if b = g.block then closeOpen s1 g.lun else s1
        | none => s1
      let s3 := markRelocate s2 g.lun g.block true
      match s3.ftl.jobs.find? (fun j => j.id == g.job) with
      | none => s3
      | some j =>
        let s4 := { s3 with
          media := { s3.media with progs := s3.media.progs.filter (fun q => q.slc || q.job != j.id) },
          ftl := { s3.ftl with
            jobs := s3.ftl.jobs.filter (fun x => x.id != j.id),
            due := if j.gc || s3.ftl.due.contains (j.nsid, j.unit) then s3.ftl.due else s3.ftl.due ++ [(j.nsid, j.unit)] } }
        if atticCount s4 = 0 then
          ((wbUnit s4 j.nsid j.unit).filterMap (fun w => (findRel s4 w.rel).bind (fun r => r.cmd))).foldl
            (fun acc i => failCmd acc i scWriteFault) s4
        else s4

/-- The erase count at which a block retires (R326). -/
def retireAt (s : State) (p : Pers) : Nat := p.peLimit * s.fld R.FTLA_WEAR_RETIRE_PCT / 100

/-- An erase that ended: the block returns to the attic, or retires: after a failed erase, or worn out. -/
def eraseDone (s : State) (lun block : Nat) (ok : Bool) : State :=
  match persOf s lun with
  | none => s
  | some p =>
    if ok then
      let s1 := eraseCells s lun block
      let n := btErases s1 lun block + 1
      let s2 := btSet s1 lun block n 0 (btClosed s1 lun block) bsPending
      gcUpdate (if retireAt s2 p ≤ n then retireBlock s2 lun block else setBlock s2 lun block bsFree)
    else
      gcUpdate (retireBlock (mediaErr ((s.addWrap R.MEDIA_EFCNT_COUNT 1).raise R.MEDIA_ISR_EFAIL) lun block 1) lun block)

/-! ### The end of a channel operation (R306, R310, R313) -/

/-- What an operation's end does, by its kind. -/
def opEnds (s : State) (lun : Nat) (l : Lun) (p : Pers) (o : NandOp) (e : OpEnd) : State :=
  let s0 := setLun s lun { l with op := none }
  let ok := e == .success
  if o.k = opRead ∨ o.k = opReadSlc then readEnd s0 lun l p o (fun st a b => markRelocate st a b false)
  else if o.k = opProgram ∨ o.k = opProgramSlc then
    match o.prog with
    | some g => programDone s0 g ok
    | none => s0
  else if o.k = opErase then eraseDone s0 lun o.block ok
  else if o.k = opRetrySet then setLun s0 lun { l with op := none, phase := .read }
  else if o.k = opRetryClear then setLun s0 lun { l with op := none, phase := .none, retry := 0 }
  else s0

/-- END: the operation ends with success, or with failure (ARG 1). -/
def nandEnd (s : State) (lun : Nat) : State :=
  match atStep s lun with
  | some (l, o, p, w) =>
    if stepKind w = 0 then opEnds s lun l p o (if stepArg w = 0 then .success else .status) else s
  | none => s

/-- POLL with a status read: not ready, it waits; ready, FAILM decides (R310). -/
def nandPoll (s : State) (lun : Nat) (status : BitVec 8) : State :=
  match atStep s lun with
  | some (l, o, p, w) =>
    if stepKind w = 6 then
      let bus := if stepArg w = 0 then [0x70] else 0x78 :: leBytes (p.adrCyc / 16) (rowAddr p lun o.block o.page 0)
      let o' := { o with bus := o.bus ++ bus }
      if status.toNat &&& stepByte w ≠ stepVal w then setLun s lun { l with op := some o' }
      else if status.toNat &&& stepFailm w ≠ 0 then opEnds s lun l p o' .status
      else nandAdvance s lun l o' []
    else s
  | none => s

/-- A POLL exceeds its TIME: the operation fails with TIMEOUT and RESET is run on the LUN (R310). -/
def nandPollTimeout (s : State) (lun : Nat) : State :=
  match atStep s lun with
  | some (l, o, p, w) =>
    if stepKind w = 6 then
      let s1 := mediaErr (s.raise R.MEDIA_ISR_OPTO) lun o.block 3
      beginOp (opEnds s1 lun l p o .timeout) lun opReset 0 0 none
    else s
  | none => s

/-! ### Garbage collection (R330 to R333) -/

/-- The score of a closed block (R330), and inv. -/
def gcScore (s : State) (p : Pers) (lun block : Nat) : Int × Int :=
  let cap := 16384 * p.ppb
  let inv : Int := 1024 - (1024 * btValid s lun block / cap : Nat)
  let age := min 1024 ((s.ftl.seconds - btClosed s lun block) / max 1 (s.fld R.FTLA_AGEU_AGE_UNIT))
  let wear := min 1024 (1024 * btErases s lun block / max 1 p.peLimit)
  (s.fld R.FTLA_GCW_WI * inv + s.fld R.FTLA_GCW_WA * age - (s.fld R.FTLA_GCW_WW * wear : Nat), inv)

/-- The victim over some LUNs (R330): the closed block of highest score with inv > 0. -/
def victimOver (s : State) (luns : List Nat) : Option (Nat × Nat × Int) :=
  (blocksIn s bsClosed).foldl (fun best b =>
    if luns.contains b.1 then
      match persOf s b.1 with
      | none => best
      | some p =>
        let sc := gcScore s p b.1 b.2
        if 0 < sc.2 then
          match best with
          | none => some (b.1, b.2, sc.1)
          | some x => if x.2.2 < sc.1 then some (b.1, b.2, sc.1) else best
        else best
    else best) none

/-- The bytes of an old side record with its NEXT replaced. -/
def relinkSide (bs : List Byte) (next : Nat) : List Byte :=
  bs.take 0x28 ++ leBytes 8 (if next = psaNone then 2 ^ 64 - 1 else next) ++ bs.drop 0x30

/-- Copy a unit's side records, oldest first. -/
def copySides (x : Placing) (p : Pers) (lun nsid unit side : Nat) : List (Nat × Nat) → Placing × Nat
  | [] => (x, side)
  | (a, k) :: r =>
    let e := placeExtent x p lun true nsid (unit * 256) 1 (relinkSide (extRead x.st a k) side)
    copySides e.1 p lun nsid unit e.2.1 r

/-- Place copies of what a unit has in a block, still encoded; a unit whose 256 sectors are all mapped becomes coarse (R319,
R331). -/
def placeCopy (s : State) (p : Pers) (lun nsid unit lun0 block0 : Nat) : Placing × MapUnit :=
  let u := mapOf s nsid unit
  let inBlk (a : Nat) : Bool := psaLun a == lun0 && psaBlock s a == block0
  let x0 : Placing := ⟨s, [], true⟩
  let hit := (unitPsas s { u with side := psaNone }).any inBlk
  if !hit then (x0, u)
  else if (List.range 256).all (sectorMapped u) then
    let bs := (List.range 256).map (fun i => match locate s u i with | some l => (l.block, false) | none => ([], false))
    let k := extentOf bs
    let e := placeExtent x0 p lun true nsid (unit * 256) 0 k.2.2
    (e.1, { u with kind := k.1, psa := e.2.1, len := e.2.2, budget := k.2.1, fine := [] })
  else
    let js := (List.range 64).filter (fun j =>
      match tblGet none u.fine j with | some f => (List.range f.len).any (fun i => inBlk (f.psa + i)) | none => false)
    let e := placeFine x0 p lun true nsid unit (js.map (fun j => (j, fineBlocks s nsid unit j u false)))
    (e.1, { u with fine := e.2 })

/-- Copy what a unit has in a block to new blocks with its side records. none: no room. -/
def copyUnit (s : State) (nsid unit lun0 block0 : Nat) : Option State :=
  match nextLun s with
  | none => none
  | some lun =>
    match persOf s lun with
    | none => none
    | some p =>
      let u := mapOf s nsid unit
      let inBlk (a : Nat) : Bool := psaLun a == lun0 && psaBlock s a == block0
      let r := placeCopy s p lun nsid unit lun0 block0
      let ch := sideChain s u.side 1024
      let z := if ch.any (fun e => (List.range e.2).any (fun i => inBlk (e.1 + i))) then
          copySides r.1 p lun nsid unit psaNone ch.reverse else (r.1, u.side)
      if z.1.ok then some (addJob z.1 p lun nsid unit { r.2 with side := z.2 } [] [] u.stamp true) else none

/-- The units with a valid sector in a block. -/
def unitsIn (s : State) (lun block : Nat) : List (Nat × Nat) :=
  (s.ftl.map.filter (fun e => (unitPsas s e.2).any (fun a => psaLun a == lun && psaBlock s a == block))).map
    (fun e => (e.1 / 2 ^ 40, e.1 % 2 ^ 40))

def copyUnits (s : State) (lun block : Nat) : List (Nat × Nat) → Option State
  | [] => some s
  | (n, u) :: r =>
    match copyUnit s n u lun block with
    | none => none
    | some s1 => copyUnits s1 lun block r

/-- The device enters read-only (R333). -/
def enterReadOnly (s : State) : State :=
  if s.flag R.FTLA_STATUS_RDONLY then s
  else
    setWarn ({ (s.raise R.FTLA_STATUS_RDONLY) with nvme := { s.nvme with rdonly := true } }.raise R.FTLA_ISR_RDONLY) 3

/-- GC_VICTIM: a block marked for relocation, or the victim while garbage collection runs, and the copies of its valid
extents. With the attic below FLOOR and no victim the device enters read-only. -/
def gcVictim (s : State) : State :=
  if s.ftl.victim.isSome then s
  else
    let marked := s.ftl.relocate.find? (fun e =>
      [bsOpen, bsClosed].contains (btState s (e.1 / 2 ^ 19) (e.1 % 2 ^ 19)))
    let pick : Option (Nat × Nat) :=
      match marked with
      | some (k, _) => some (k / 2 ^ 19, k % 2 ^ 19)
      | none =>
        if s.flag R.FTLA_STATUS_GCRUN then (victimOver s (usedLuns s)).map (fun v => (v.1, v.2.1)) else none
    match pick with
    | none =>
      if s.flag R.FTLA_STATUS_GCFORCED ∧ atticCount s < s.fld R.FTLA_FLOOR_BLOCKS then enterReadOnly s else s
    | some (l, b) =>
      let s0 := match tblGet none s.ftl.openBlk l with
        | some (o, _) => if o = b then closeOpen s l else s
        | none => s
      match copyUnits s0 l b (unitsIn s0 l b) with
      | none => s
      | some s1 => gcUpdate { s1 with ftl := { s1.ftl with victim := some (blkKey l b) } }

/-- GC_COMMIT: the new entries are journalled and committed, a superseded unit's copy being discarded, and the victim is
in STATE 7 in the same commit; a block to retire enters the grown list instead. -/
def gcCommit (s : State) : State :=
  match s.ftl.victim with
  | none => s
  | some k =>
    let js := s.ftl.jobs.filter (fun j => j.gc)
    if js.all (fun j => j.left == 0) && (unitsIn s (k / 2 ^ 19) (k % 2 ^ 19)).all (fun u =>
        js.any (fun j => (j.nsid, j.unit) == u)) then
      let s1 := js.foldl (fun acc j =>
        if (mapOf acc j.nsid j.unit).stamp = j.stamp then commitUnit acc j
        else { acc with ftl := { acc.ftl with jobs := acc.ftl.jobs.filter (fun x => x.id != j.id) } }) s
      let left := !(unitsIn s1 (k / 2 ^ 19) (k % 2 ^ 19)).isEmpty
      let s2 := if left then s1 else
        if s.ftl.relocate.any (fun e => e.1 == k && e.2) then retireBlock s1 (k / 2 ^ 19) (k % 2 ^ 19)
        else setBlock s1 (k / 2 ^ 19) (k % 2 ^ 19) bsPending
      let s3 := flushPend s2
      gcUpdate (noteFine s { s3 with ftl := { s3.ftl with
        victim := none,
        relocate := if left then s3.ftl.relocate else s3.ftl.relocate.filter (fun e => e.1 != k) } })
    else if js.all (fun j => j.left == 0) then
      { s with ftl := { s.ftl with victim := none, jobs := s.ftl.jobs.filter (fun j => !j.gc) } }
    else s

/-- Is a read of a block in flight? -/
def readInFlight (s : State) (lun block : Nat) : Bool :=
  match lunOf s lun with
  | some l =>
    (match l.op with | some o => (o.k == opRead || o.k == opReadSlc) && o.block == block | none => false) ||
      (match l.again with | some o => o.block == block | none => false)
  | none => false

/-- GC_ERASE: once no earlier read is in flight against it, a block in STATE 7 is erased and returns to the attic. -/
def gcErase (s : State) (lun block : Nat) (ok : Bool) : State :=
  if lunFree s lun ∧ btState s lun block = bsPending ∧ !readInFlight s lun block then eraseDone s lun block ok else s

/-! ### The FTLA scans (R327, R330) -/

/-- A write of OP 1 or 2 to FTLA_SCAN starts a scan; one already in progress refuses it. -/
def startScan (s : State) (op : Nat) : State :=
  if op = 0 ∨ op = 3 then s
  else if !blockOn s .ftla then s
  else if s.flag R.FTLA_STATUS_SCANBUSY then setClaimErr s .ftla
  else { (s.raise R.FTLA_STATUS_SCANBUSY) with ftl := { s.ftl with scan := some (op, s.fld R.FTLA_SCAN_LUN, s.flag R.FTLA_SCAN_ALL) } }

/-- The LUNs a scan covers. -/
def scanLuns (s : State) (lun : Nat) (all : Bool) : List Nat := if all then usedLuns s else [lun]

/-- The least-worn attic block over some LUNs: the lowest LUN and block of a tie. -/
def leastWornOver (s : State) (luns : List Nat) : Option (Nat × Nat) :=
  ((blocksIn s bsFree).foldl (fun best b =>
    if luns.contains b.1 then
      match best with
      | none => some (b.1, b.2, btErases s b.1 b.2)
      | some x => if btErases s b.1 b.2 < x.2.2 then some (b.1, b.2, btErases s b.1 b.2) else best
    else best) none).map (fun x => (x.1, x.2.1))

/-- FTLA_SCAN_DONE: the scan ends and FTLA_SRES and FTLA_SSCORE report it. -/
def scanDone (s : State) : State :=
  match s.ftl.scan with
  | none => s
  | some (op, lun, all) =>
    let s1 := { (s.clear R.FTLA_STATUS_SCANBUSY) with ftl := { s.ftl with scan := none } }
    let found : Option (Nat × Nat × Int) :=
      if op = 1 then victimOver s (scanLuns s lun all) else (leastWornOver s (scanLuns s lun all)).map (fun b => (b.1, b.2, 0))
    let s2 := match found with
      | some (l, b, sc) =>
        let r := s1.setFlds [(R.FTLA_SRES_BLOCK, b), (R.FTLA_SRES_LUN, l), (R.FTLA_SRES_FOUND, 1)]
        if op = 1 then r.setFld R.FTLA_SSCORE_SCORE (unsignedOf sc 32) else r
      | none => s1.setFlds [(R.FTLA_SRES_BLOCK, 0), (R.FTLA_SRES_LUN, 0), (R.FTLA_SRES_FOUND, 0)]
    s2.raise R.FTLA_ISR_SCANDONE

/-! ### Cellar replay (R466) -/

/-- Step 4 of cellar replay: the cellar blocks are erased. -/
def eraseCellar (s : State) : State :=
  let s1 := (blocksIn s bsCellar).foldl (fun acc b =>
    btSet (eraseCells acc b.1 b.2) b.1 b.2 (btErases acc b.1 b.2 + 1) 0 (btClosed acc b.1 b.2) bsCellar) s
  { s1 with ftl := { s1.ftl with cellar := none, replaying := false } }

/-- Write the first unit that is due among those of some restored parcels, as under a FUA write (R466, R480). -/
def writeRestored (s : State) (sel : Nat → Bool) : State :=
  let units := ((s.ftl.wb.filter (fun w => sel w.rel)).map (fun w => (w.nsid, w.lsec / 256))) ++
    (s.ftl.rels.filter (fun r => sel r.rel && !r.sided)).map (fun r => (r.nsid, r.lsec / 256))
  match units.find? (fun u => unitDue s u.1 u.2) with
  | some u => unitWrite s u.1 u.2
  | none => s

/-- Is a released parcel one that the cellar holds? -/
def inCellar (s : State) (rel : Nat) : Bool :=
  match s.ftl.cellar with
  | some c => c.ents.any (fun e => e.rel.rel == rel)
  | none => false

/-- The restored parcels not yet committed: those of the cellar, or those the rescue took from the retention index. -/
def restoredRels (s : State) (cellar : Bool) : List Nat :=
  (s.ftl.rels.filter (fun r => r.restored && inCellar s r.rel == cellar)).map Rel.rel

/-- CELLAR_REPLAY_WRITE: the unit of the first restored parcel not yet committed is written; with none left, the cellar
is erased. -/
def cellarReplayWrite (s : State) : State :=
  if s.ftl.replaying then
    if restoredRels s true = [] then eraseCellar s else writeRestored s (restoredRels s true).contains
  else s

/-! ### The commands -/

def execNandOpReset (lun : Nat) (s : State) : Result := .next (startPlain s lun opReset)
def execNandOpRead (lun block page : Nat) (s : State) : Result := .next (startRead s lun opRead block page)
def execNandOpReadSlc (lun block page : Nat) (s : State) : Result := .next (startRead s lun opReadSlc block page)
def execNandOpProgram (lun : Nat) (s : State) : Result := .next (startProgram s lun false)
def execNandOpProgramSlc (lun : Nat) (s : State) : Result := .next (startProgram s lun true)
def execNandOpErase (lun block : Nat) (s : State) : Result := .next (startErase s lun block)
def execNandOpRetrySet (lun : Nat) (s : State) : Result := .next (startRetrySet s lun)
def execNandOpRetryClear (lun : Nat) (s : State) : Result := .next (startRetryClear s lun)
def execNandOpParamRead (lun : Nat) (s : State) : Result := .next (startPlain s lun opParamRead)
def execNandCmd (lun : Nat) (s : State) : Result := .next (nandCmd s lun)
def execNandAddr (lun : Nat) (s : State) : Result := .next (nandAddr s lun)
def execNandDin (lun : Nat) (s : State) : Result := .next (nandDin s lun)
def execNandDout (lun : Nat) (ok : List Bool) (bytes : List Byte) (s : State) : Result := .next (nandDout s lun ok bytes)
def execNandWait (lun : Nat) (s : State) : Result := .next (nandWait s lun)
def execNandPoll (lun : Nat) (status : BitVec 8) (s : State) : Result := .next (nandPoll s lun status)
def execNandPollTimeout (lun : Nat) (s : State) : Result := .next (nandPollTimeout s lun)
def execNandFeat (lun : Nat) (s : State) : Result := .next (nandFeat s lun)
def execNandEnd (lun : Nat) (s : State) : Result := .next (nandEnd s lun)
def execUnitWrite (nsid unit : Nat) (s : State) : Result := .next (unitWrite s nsid unit)
def execUnitTimeout (nsid unit : Nat) (s : State) : Result := .next (unitTimeout s nsid unit)
def execIrregularReform (s : State) : Result := .next (irregularReform s)
def execJournalCommit (s : State) : Result := .next (journalCommit s)
def execCheckpoint (s : State) : Result := .next (checkpoint s)
def execGcVictim (s : State) : Result := .next (gcVictim s)
def execGcCommit (s : State) : Result := .next (gcCommit s)
def execGcErase (lun block : Nat) (ok : Bool) (s : State) : Result := .next (gcErase s lun block ok)
def execFtlaScanDone (s : State) : Result := .next (scanDone s)
def execCellarReplayWrite (s : State) : Result := .next (cellarReplayWrite s)

end Sys2Proof.Machine
end

