-- ==== Sys2Proof/Machine/Resets.lean ====
section
/-! DEFINITION. Sys2Proof/Machine/Resets.lean: the device resets of Table 17.1: what each reaches and what it keeps (R474 to
R478, R486). -/

namespace Sys2Proof.Machine

/-- Does the power-loss flush run? -/
def flushing (s : State) : Bool := s.flag R.HOLD_STATUS_FLUSH

/-- The fields held in the always-on domain (R475), with the string switches and the two always-on oscillators, which
that domain drives. -/
def aonFields : List Fld :=
  [R.SYS_RSTCAUSE_AONPOR, R.SYS_RSTCAUSE_COLD, R.SYS_RSTCAUSE_SWWARM, R.SYS_RSTCAUSE_WDT, R.SYS_RSTCAUSE_DFAULT,
   R.SYS_RSTCAUSE_DRAMFAIL, R.SYS_RSTCAUSE_FLUSH, R.SYS_RSTCAUSE_HELD, R.SYS_RSTCAUSE_RETAINED, R.SYS_RSTCAUSE_RETLOST,
   R.SYS_RSTCAUSE_DFCORE, R.SYS_RETBASE_BASE, R.SYS_RETBASE_VALID, R.SYS_CLKSTAT_ROOT_LOSS, R.SYS_CLKSTAT_AON_OSC,
   R.SYS_CLKSTAT_RTC_OSC, R.WDT_STATUS_EXPIRED, R.WDT_STATUS_BOOTFAIL, R.HOLD_STATUS_BANKFLT, R.THERM_STATUS_TRIPPED] ++
  (List.range 4).map R.HOLD_STR_MV_ISO ++ (List.range 4).map R.HOLD_STR_MV_MV

/-- The root clocks' status, which a warm reset keeps (R478). -/
def clockFields : List Fld :=
  [R.SYS_CLKSTAT_ROOT_LOCK, R.SYS_CLKSTAT_PCIE_LOCK, R.SYS_CLKSTAT_DAMDOM_LOCK, R.SYS_CLKSTAT_TCLK_ON,
   R.SYS_CLKSTAT_NCLK_ON, R.SYS_CLKSTAT_MCLK_ON, R.SYS_CLKSTAT_FCLK_ON, R.SYS_CLKSTAT_SCLK_ON]

/-- The fuse map as registers show it (KEYS_STATUS.LC, FAB_UIDLO, FAB_UIDHI). -/
def fuseRegs (s : State) : State :=
  s.setFlds [(R.KEYS_STATUS_LC, s.fuses.lc), (R.FAB_UIDLO_UID, s.fuses.uid), (R.FAB_UIDHI_UID, s.fuses.uid / 2 ^ 32)]

/-- The state after a reset of everything, with what no reset reaches: the NAND array with its journal, checkpoint and
cellar, the NOR array, the fuse map, and the records that house firmware keeps in the code store (R477). -/
def durable (s0 : State) : State :=
  let s := csCutOff s0
  fuseRegs { State.reset with
    ecc := { EccSt.reset with spares := s.ecc.spares },
    code := { CodeSt.reset with arr := s.code.arr, flags := s.code.flags, marks := s.code.marks },
    media := { MediaSt.reset with next := s.media.next, cells := s.media.cells },
    ftl := { Ftl.reset with
      jseq := s.ftl.jseq, journal := s.ftl.journal, ckpt := s.ftl.ckpt, cellar := s.ftl.cellar, nextRel := s.ftl.nextRel,
      seconds := s.ftl.seconds, atticFormat := s.ftl.atticFormat, indets := s.ftl.indets },
    nvme := { NvmeSt.reset with
      nextCmd := s.nvme.nextCmd, nss := s.nvme.nss.map (fun e => (e.1, e.2.map (fun n => { n with streams := false }))),
      sanitize := s.nvme.sanitize, selfTest := { s.nvme.selfTest with run := none }, perst := s.nvme.perst,
      mi := { NvmeSt.reset.mi with vpd := s.nvme.mi.vpd } },
    hold := { HoldSt.reset with
      prof := s.hold.prof, thermProf := s.hold.thermProf, flushBy := s.hold.flushBy, flushes := s.hold.flushes,
      lastFlush := s.hold.lastFlush, lastBytes := s.hold.lastBytes, lost := s.hold.lost, lostSeen := s.hold.lostSeen,
      pfail := s.hold.pfail, ranShort := s.hold.ranShort },
    fuses := s.fuses,
    boot := { BootSt.reset with
      cycles := s.boot.cycles, keyRecs := s.boot.keyRecs, fabRec := s.boot.fabRec },
    free := s.free, pending := s.pending }

/-- Carry some fields over from the state before a reset. -/
def keepFields (old s : State) (fs : List Fld) : State := s.setFlds (fs.map (fun f => (f, old.fld f)))

/-- The always-on power-on reset. -/
def powerOnReset (s : State) : State :=
  let s1 := durable s
  { s1 with boot := { s1.boot with held := .rails } }

/-- Does DRAM hold a retention index that the rescue has not yet taken into the map (R478, R480)? -/
def unrescued (s : State) : Option RetIdx := if s.ftl.ready then none else s.boot.index

/-- The cold reset: everything except the always-on domain. Exposure that DRAM retained from an earlier warm reset is lost
with it, which the next start-up reports (R486). -/
def coldReset (s : State) : State :=
  let s1 := keepFields s (durable s) aonFields
  { (s1.raise R.SYS_RSTCAUSE_COLD) with
    boot := { s1.boot with
      held := .rails, rtc := s.boot.rtc,
      lostX := if (unrescued s).isSome then s.boot.lostX else 0,
      lostW := (unrescued s).isSome && s.boot.lostW } }

/-- The bytes of DRAM that a retaining reset keeps. -/
def dramKept (s : State) : List (Nat × Byte) := tblKeep (fun a => a < stagingBase) s.mem

/-- The retention index as house firmware keeps it (R480): an index not yet rescued stands. -/
def indexNow (s : State) : RetIdx := (unrescued s).getD ⟨s.ftl.rels, s.ftl.wb, s.ftl.queue⟩

/-- What a warm or post-flush reset leaves, its causes apart: start-up begins again at FUSES. `retain`: DRAM contents are
retained (R478). The strap PE_BIFUR (R488) and the JTAG TAP keep what they hold. -/
def coreReset (s : State) (retain : Bool) : State :=
  let s1 := keepFields s (durable s) (R.PCIE_STATUS_BIFUR :: (aonFields ++ clockFields))
  let s2 := s1.setFlds [(R.SYS_PHASE_PHASE, 2), (R.SYS_RSTCAUSE_RETAINED, b2n retain)]
  let fresh := (unrescued s).isNone
  { s2 with
    mem := if retain then dramKept s else [],
    dramBad := if retain then s.dramBad else [],
    dram := { DramSt.reset with trained := retain },
    tap := s.tap,
    boot := { s2.boot with
      held := .none, rtc := s.boot.rtc,
      index := if retain then some (indexNow s) else none,
      lostX := if fresh then exposure s else s.boot.lostX,
      lostW := if fresh then decide (s.hold.w ≠ 0) else s.boot.lostW } }

/-- The warm reset (R478), with its cause bit. A flush covers it (R476), and a device that is held, or that HALT has stopped
(R485), takes none. -/
def warmReset (s : State) (cause : Fld) (retain : Bool) : State :=
  if flushing s ∨ s.boot.held ≠ .none ∨ s.boot.mode = .halt then s
  else (coreReset s (retain && s.dram.trained)).raise cause

/-- A house core's double fault (R112). -/
def doubleFaultReset (s : State) (house : Nat) : State :=
  if flushing s ∨ s.boot.held ≠ .none ∨ s.boot.mode = .halt then s
  else (warmReset s R.SYS_RSTCAUSE_DFAULT true).setFld R.SYS_RSTCAUSE_DFCORE house

/-- The hold of R486: HU_PFAIL# has fallen, or the die has tripped, before NAND has ended. -/
def heldReset (s : State) (trip : Bool) : State :=
  let s1 := (coreReset s s.dram.trained).raise R.SYS_RSTCAUSE_HELD
  { s1 with boot := { s1.boot with held := .warm trip } }

/-- The post-flush reset (R476), or the cold reset where SYS_RST# is still low (R504). -/
def postFlushReset (s : State) (trip : Bool) : State :=
  if s.boot.rstLow then coldReset s
  else
    let s1 := (coreReset s false).raise R.SYS_RSTCAUSE_FLUSH
    let s2 := if s.boot.pllLost then
        s1.setFlds
          ((R.SYS_PHASE_PHASE, 1) :: clockFields.map (fun f => (f, 0)))
      else s1
    { s2 with boot := { s2.boot with held := .post trip, pllLost := s.boot.pllLost, lostX := 0, lostW := false } }

end Sys2Proof.Machine
end

