-- ==== Sys2Proof/Machine/Dram.lean ====
section
/-! DEFINITION. Sys2Proof/Machine/Dram.lean: the channel engines of the DRAM controller: scheduling, refresh, retraining,
row disturbance, scrubbing and self-refresh (R372 to R389). -/

namespace Sys2Proof.Machine

/-! ### Addresses (R373) -/

/-- The channel offset of a global address. -/
def dramOff (s : State) (a : Nat) : Nat := a / 2048 / dramChannels s * 2048 + a % 2048

/-- The bank (bank group + 4 × bank) and the row of a channel offset. -/
def dramBank (off : Nat) : Nat := bitsOf off 11 2 + 4 * bitsOf off 13 2
def dramRow (off : Nat) : Nat := off / 32768

def reqBank (s : State) (q : DramReq) : Nat := dramBank (dramOff s q.addr)
def reqRow (s : State) (q : DramReq) : Nat := dramRow (dramOff s q.addr)

/-- A channel engine. -/
def dch (s : State) (c : Nat) : DramCh := tblGet DramCh.reset s.dram.chans c
def setDch (s : State) (c : Nat) (x : DramCh) : State :=
  { s with dram := { s.dram with chans := tblSet DramCh.reset s.dram.chans c x } }

/-- Is a channel served: populated, and the controller ON? -/
def dchServes (s : State) (c : Nat) : Bool := s.flag (R.DCH_STATUS_POP c) && blockOn s .dram

/-! ### Panic and the choice of a request (R380, R381) -/

/-- The panic flags after the buffers' fills in KiB (R381). -/
def panicUpdate (s : State) (fill0 fill1 : Nat) : State :=
  let p0 := if s.fld (R.DRAM_PANIC_ON 0) ≤ fill0 then true
            else if fill0 ≤ s.fld (R.DRAM_PANIC_OFF 0) then false else s.flag R.DRAM_STATUS_PANIC0
  let p1 := if fill1 ≤ s.fld (R.DRAM_PANIC_ON 1) then true
            else if s.fld (R.DRAM_PANIC_OFF 1) ≤ fill1 then false else s.flag R.DRAM_STATUS_PANIC1
  s.setFlds [(R.DRAM_STATUS_PANIC0, b2n p0), (R.DRAM_STATUS_PANIC1, b2n p1)]

/-- Is a request one of a panicking port? -/
def isPanic (s : State) (q : DramReq) : Bool :=
  (q.port == 0 && s.flag R.DRAM_STATUS_PANIC0) || (q.port == 1 && s.flag R.DRAM_STATUS_PANIC1)

/-- Does a panic request wait on a bank? -/
def panicOnBank (s : State) (c b : Nat) : Bool := (dch s c).queue.any (fun q => isPanic s q && reqBank s q == b)

/-- May a request be served now: in the flush only port 1 and house cores on port 4; ahead of a bank's owed refreshes
only a panic request (R381, R383)? -/
def mayServe (s : State) (c : Nat) (q : DramReq) : Bool :=
  if flushing s then q.port == 1 || (q.port == 4 && q.house)
  else isPanic s q || tblGet 0 (dch s c).owed (reqBank s q) == 0

/-- Does a request hit an open row? -/
def rowHit (s : State) (c : Nat) (q : DramReq) : Bool := tblGet 0 (dch s c).rows (reqBank s q) == reqRow s q + 1

/-- The request served next (R380), the queue being in order of age. -/
def nextReq (s : State) (c now : Nat) : Option DramReq :=
  let qs := (dch s c).queue.filter (mayServe s c)
  let first (p : DramReq → Bool) : Option DramReq := qs.find? p
  match first (fun q => q.port == 1 && isPanic s q) with
  | some q => some q
  | none =>
    match first (fun q => isPanic s q) with
    | some q => some q
    | none =>
      match first (fun q => decide (s.fld R.DRAM_SCHED_AGECAP < now - q.time)) with
      | some q => some q
      | none =>
        match first (rowHit s c) with
        | some q => some q
        | none => qs.head?

/-- An activate draws K random bits; all 0, its neighbours are refreshed (R386). -/
def activate (s : State) (c : Nat) : State :=
  if s.flag R.DRAM_RH_EN then
    let s1 := { s with free := s.free + 1 }
    if (Config.freeWord s.free).toNat % 2 ^ s.fld R.DRAM_RH_K = 0 then s1.addWrap (R.DCH_NRCNT_COUNT c) 1 else s1
  else s

/-- Serve one request: an activate where its row is not open, the access, and the row left open or closed by the hint. -/
def serveReq (s : State) (c : Nat) (q : DramReq) : State :=
  let hit := rowHit s c q
  let x := dch s c
  let s1 := setDch s c { x with
    queue := x.queue.erase q,
    rows := tblSet 0 x.rows (reqBank s q) (if q.close then 0 else reqRow s q + 1) }
  let s2 := if hit then s1 else activate s1 c
  match q.data with
  | some bs => writeRam s2 q.addr bs none
  | none => (readRam s2 q.addr q.len).2.1

/-- Requests that arrive while the controller is not ON, or for another channel, are not queued here (R388). -/
def queueReqs (s : State) (c : Nat) (qs : List DramReq) : State :=
  let x := dch s c
  setDch s c { x with queue := x.queue ++ qs.filter (fun q => dramChannel s q.addr == c && decide (q.addr < dramEnd s)) }

/-- DRAM_REQUEST_SERVE. -/
def requestServe (s : State) (c now fill0 fill1 : Nat) (qs : List DramReq) : State :=
  if dchServes s c then
    let s1 := queueReqs (panicUpdate s fill0 fill1) c qs
    if (dch s1 c).pausing then s1
    else
      match nextReq s1 c now with
      | some q => serveReq s1 c q
      | none => s1
  else s

/-! ### Refresh (R382, R383) -/

/-- DCH_STATUS.OWED: the largest count a bank owes. -/
def showOwed (s : State) (c : Nat) : State :=
  s.setFld (R.DCH_STATUS_OWED c) ((dch s c).owed.foldl (fun m e => max m e.2) 0)

/-- A bank's refresh is issued: its row closes. -/
def refreshBank (s : State) (c b : Nat) : State :=
  let x := dch s c
  setDch s c { x with rows := tblSet 0 x.rows b 0, lastBank := b }

def owe (s : State) (c b n : Nat) : State :=
  let x := dch s c
  showOwed (setDch s c { x with owed := tblSet 0 x.owed b n }) c

/-- REFRESH_DUE. -/
def refreshDue (s : State) (c b : Nat) : State :=
  if dchServes s c then
    let n := tblGet 0 (dch s c).owed b
    if (dch s c).pausing then owe s c b (min 8 (n + 1))
    else if panicOnBank s c b ∧ ¬ flushing s then
      if 8 ≤ n then (refreshBank s c b).raise R.DRAM_ISR_RFORCE else owe s c b (n + 1)
    else refreshBank s c b
  else s

/-- OWED_REFRESH_ISSUE: round robin over the banks that owe and have no panic request. -/
def owedIssue (s : State) (c : Nat) : State :=
  let x := dch s c
  if dchServes s c ∧ ¬ x.pausing then
    match ((List.range 16).map (fun i => (x.lastBank + 1 + i) % 16)).find? (fun b =>
        tblGet 0 x.owed b != 0 && (!panicOnBank s c b || flushing s)) with
    | some b => owe (refreshBank s c b) c b (tblGet 0 x.owed b - 1)
    | none => s
  else s

/-- MR4_POLL. -/
def mr4Poll (s : State) (c rate : Nat) : State := if dchServes s c then s.setFld (R.DCH_TEMP_RATE c) rate else s

/-! ### Retraining (R384, R385) -/

def panicRaised (s : State) : Bool := s.flag R.DRAM_STATUS_PANIC0 || s.flag R.DRAM_STATUS_PANIC1

/-- RETRAIN_PAUSE_DUE. -/
def pauseDue (s : State) (c : Nat) : State :=
  if dchServes s c ∧ ¬ (dch s c).pausing then
    let s1 := setDch s c { dch s c with due := true }
    if panicRaised s ∧ s.fld R.DRAM_TDEFER_TIME ≠ 0 then s1.raise (R.DCH_STATUS_TDUE c) else s1
  else s

/-- RETRAIN_DEFER_EXPIRY. -/
def deferExpiry (s : State) (c : Nat) : State :=
  if (dch s c).due ∧ s.flag (R.DCH_STATUS_TDUE c) ∧ ¬ (dch s c).forced then
    (setDch s c { dch s c with forced := true }).raise R.DRAM_ISR_TFORCE
  else s

/-- RETRAIN_PAUSE_START. -/
def pauseStart (s : State) (c : Nat) : State :=
  let x := dch s c
  if x.due ∧ dchServes s c ∧ ¬ flushing s ∧ (¬ panicRaised s ∨ x.forced ∨ s.fld R.DRAM_TDEFER_TIME = 0) ∧
      x.owed.all (fun e => decide (e.2 ≤ 4)) then
    setDch s c { x with due := false, pausing := true }
  else s

/-- PERIOD after a pause that measured a drift in ps. -/
def nextPeriod (s : State) (c drift : Nat) : Nat :=
  let p := s.fld (R.DCH_TRAIN_PERIOD c)
  if s.fld R.DRAM_TRAIN_DHI < drift then max (s.fld R.DRAM_TRAIN_PMIN) (p / 2)
  else if drift < s.fld R.DRAM_TRAIN_DLO then min (s.fld R.DRAM_TRAIN_PMAX) (2 * p)
  else p

/-- RETRAIN_PAUSE_END: a failed pause retries at once; the third failure in a row fails the channel, and the device takes
a warm reset that retains nothing (R478). -/
def pauseEnd (s : State) (c drift : Nat) (ok : Bool) : State :=
  let x := dch s c
  if x.pausing then
    if ok then
      ((setDch s c { x with pausing := false, forced := false, fails := 0 }).setFlds
        [(R.DCH_TRAIN_PERIOD c, nextPeriod s c drift), (R.DCH_TRAIN_DRIFT c, min 255 drift), (R.DCH_STATUS_TDUE c, 0)]).addWrap
          (R.DCH_TRAIN_COUNT c) 1
    else
      let s1 := (setDch s c { x with fails := x.fails + 1 }).raise R.DRAM_ISR_TRFAIL
      if 2 ≤ x.fails then warmReset s1 R.SYS_RSTCAUSE_DRAMFAIL false else s1
  else s

/-! ### Scrubbing and self-refresh (R377, R388, R389) -/

/-- DRAM_SCRUB_LINE: the next usable line is read, and rewritten where it is correctable. `upset`: the error mark that the
line has come to carry since it was last read; `slow`: the pass has taken longer than twice PERIOD. -/
def scrubLine (s : State) (upset : Nat) (slow : Bool) : State :=
  if blockOn s .dram ∧ s.flag R.DRAM_SCRUB_EN ∧ ¬ flushing s then
    let a := s.dram.scrubAt * 64
    let s1 := setDramMark s a (max upset (dramMark s a))
    let s2 := match dramMark s1 a with
      | 0 => s1
      | 1 => setDramMark (countDram s1 a 0) a 0
      | _ => countDram s1 a 1
    let next := if dramEnd s ≤ a + 64 then 0 else s.dram.scrubAt + 1
    let s3 := { s2 with dram := { s2.dram with scrubAt := next } }
    if slow then s3.raise R.DRAM_ISR_SCRUBOVR else s3
  else s

/-- The channels of the population. -/
def popChannels (s : State) : List Nat := (List.range 24).filter (fun c => s.flag (R.DCH_STATUS_POP c))

/-- The capacity of a channel (DRAM_CFG.CAP). -/
def dramCap (s : State) : Nat := if s.fld R.DRAM_CFG_CAP = 0 then 0 else 2 ^ (30 + s.fld R.DRAM_CFG_CAP)

/-- Is a global address in a segment that its channel's mask leaves out of self-refresh? -/
def segMasked (s : State) (a : Nat) : Bool :=
  (s.fld (R.DCH_PASR_MASK (dramChannel s a))).testBit (dramOff s a * 8 / max 1 (dramCap s))

/-- Complete every request queued at a channel, oldest first. -/
def serveAll (s : State) (c : Nat) : Nat → State
  | 0 => s
  | n + 1 =>
    match (dch s c).queue with
    | [] => s
    | q :: _ => serveAll (serveReq s c q) c n

/-- SELF_REFRESH_ENTER: the end of quiescing (R388): what is queued was accepted while the controller was ON. -/
def selfRefreshEnter (s : State) : State :=
  (popChannels s).foldl (fun acc c =>
    let t := (serveAll (acc.setFld R.DRAM_STATUS_STATE stOn) c (dch acc c).queue.length).setFld R.DRAM_STATUS_STATE stQuiescing
    (setDch t c { dch t c with rows := [], owed := [], due := false, forced := false, pausing := false }).setFlds
      [(R.DCH_STATUS_SR c, 1), (R.DCH_STATUS_OWED c, 0), (R.DCH_STATUS_TDUE c, 0)]) s

/-- SELF_REFRESH_EXIT: masked segments have lost their contents and are zeroed in the background; a request to a line not
yet written waits for it, so what it reads is zero (R389). -/
def selfRefreshExit (s : State) : State :=
  let chans := popChannels s
  let lost := chans.any (fun c => s.fld (R.DCH_PASR_MASK c) != 0 && s.flag (R.DCH_STATUS_SR c))
  let s1 := if lost then
      { (s.raise R.DRAM_STATUS_INIT) with
        mem := tblKeep (fun a => !(decide (a < dramEnd s) && segMasked s a)) s.mem,
        dramBad := tblKeep (fun l => !segMasked s (l * 64)) s.dramBad,
        dram := { s.dram with zeroing := true } }
    else s
  chans.foldl (fun acc c =>
    (acc.setFlds [(R.DCH_STATUS_SR c, 0), (R.DCH_TRAIN_PERIOD c, acc.fld R.DRAM_TRAIN_PMIN)]).addWrap (R.DCH_TRAIN_COUNT c) 1) s1

/-- DRAM_SEGMENT_INIT_DONE. -/
def segmentInitDone (s : State) : State :=
  if s.dram.zeroing then { (s.clear R.DRAM_STATUS_INIT) with dram := { s.dram with zeroing := false } } else s

/-! ### The commands -/

def execDramRequestServe (c : Fin 24) (now fill0 fill1 : Nat) (arrivals : List DramReq) (s : State) : Result :=
  .next (requestServe s c.val now fill0 fill1 arrivals)
def execRefreshDue (c : Fin 24) (bank : Fin 16) (s : State) : Result := .next (refreshDue s c.val bank.val)
def execOwedRefreshIssue (c : Fin 24) (s : State) : Result := .next (owedIssue s c.val)
def execMr4Poll (c : Fin 24) (rate : Fin 32) (s : State) : Result := .next (mr4Poll s c.val rate.val)
def execRetrainPauseDue (c : Fin 24) (s : State) : Result := .next (pauseDue s c.val)
def execRetrainDeferExpiry (c : Fin 24) (s : State) : Result := .next (deferExpiry s c.val)
def execRetrainPauseStart (c : Fin 24) (s : State) : Result := .next (pauseStart s c.val)
def execRetrainPauseEnd (c : Fin 24) (drift : Nat) (ok : Bool) (s : State) : Result := .next (pauseEnd s c.val drift ok)
def execDramScrubLine (upset : Fin 3) (slow : Bool) (s : State) : Result := .next (scrubLine s upset.val slow)
def execDramSegmentInitDone (s : State) : Result := .next (segmentInitDone s)

end Sys2Proof.Machine
end

