-- ==== Sys2Proof/Machine/Hold.lean ====
section
/-! DEFINITION. Sys2Proof/Machine/Hold.lean: the hold-up controller: profile, qualification, protected window and flush (R454
to R466). -/

namespace Sys2Proof.Machine

/-! ### The hold-up profile (R456, R457, Table 16.1) -/

/-- The profile HOLD_PROF0 to 31 hold. -/
def profBytes (s : State) : List Byte := (List.range 32).flatMap (fun k => leBytes 4 (s.fld (R.HOLD_PROF_DATA k)))

/-- Write a profile to HOLD_PROF0 to 31. -/
def setProf (s : State) (bs : List Byte) : State :=
  s.setFlds ((List.range 32).map (fun k => (R.HOLD_PROF_DATA k, leAt bs (4 * k) 4)))

def pfVCHG (p : List Byte) : Nat := leAt p 0x04 2
def pfVACK (p : List Byte) : Nat := leAt p 0x06 2
def pfVMIN (p : List Byte) : Nat := leAt p 0x08 2
def pfRLOAD (p : List Byte) : Nat := leAt p 0x0A 2
def pfCMIN (p : List Byte) : Nat := leAt p 0x0C 2
def pfESRMAX (p : List Byte) : Nat := leAt p 0x0E 2
def pfIMAX (p : List Byte) : Nat := leAt p 0x10 2
def pfEFF (p : List Byte) : Nat := leAt p 0x12 2
def pfEFIX (p : List Byte) : Nat := leAt p 0x14 2
def pfEPB (p : List Byte) : Nat := leAt p 0x16 2
def pfDMAX (p : List Byte) : Nat := leAt p 0x1A 1
def pfFitted (p : List Byte) (n : Nat) : Bool := (leAt p 0x19 1).testBit n && decide (n < 4)
def pfNPT (p : List Byte) : Nat := leAt p 0x03 1

/-- Point k of the curve: V in mV, e in mJ per farad. -/
def pfPoint (p : List Byte) (k : Nat) : Nat × Nat := (leAt p (0x20 + 6 * k) 2, leAt p (0x22 + 6 * k) 4)

/-- Is a profile valid (Table 16.1, R457)? -/
def holdProfOk (p : List Byte) : Bool :=
  let n := pfNPT p
  leAt p 0 2 == 0x5548 && leAt p 2 1 == 1 && decide (2 ≤ n) && decide (n ≤ 16) &&
    decide (pfVMIN p < pfVACK p) && decide (pfVACK p < pfVCHG p) && decide (12000 ≤ pfVMIN p) && decide (1000 ≤ pfRLOAD p) &&
    decide (1 ≤ pfEFF p) && decide (pfEFF p ≤ 1000) && pfEPB p != 0 && leAt p 0x18 1 != 0 &&
    leAt p 0x19 1 != 0 && decide (leAt p 0x19 1 < 16) && pfDMAX p != 0 && leAt p 0x1B 1 == 0 &&
    leAt p 0x1C 4 == crc32c (p.take 0x1C ++ (p.drop 0x20).take 96) &&
    (List.range (n - 1)).all (fun k =>
      decide ((pfPoint p k).1 < (pfPoint p (k + 1)).1) && decide ((pfPoint p k).2 ≤ (pfPoint p (k + 1)).2)) &&
    decide ((pfPoint p 0).1 ≤ pfVMIN p) && decide (pfVCHG p ≤ (pfPoint p (n - 1)).1) &&
    (List.range 16).all (fun k => decide (k < n) || (pfPoint p k == (0, 0)))

/-- The curve at a voltage in µV, in µJ per farad, interpolated linearly between the points (rounded down). -/
def curveAt (p : List Byte) (uv : Nat) : Nat :=
  let n := pfNPT p
  let k := (List.range (n - 1)).foldl (fun k i => if (pfPoint p i).1 * 1000 ≤ uv then i else k) 0
  let a := pfPoint p k
  let b := pfPoint p (k + 1)
  1000 * a.2 + (1000 * (b.2 - a.2)) * (uv - 1000 * a.1) / (1000 * max 1 (b.1 - a.1))

/-! ### Measurement of a string (R458) -/

/-- 2^32 × ln of a ratio a/b above 1, by the series 2 × (z + z³/3 + …) with z = (a − b)/(a + b), rounded down term by term. -/
def lnSeries (num den : Nat) : Nat → Nat
  | 0 => 0
  | n + 1 =>
    let k := n + 1
    lnSeries num den n + 2 * 2 ^ 32 * num ^ (2 * k - 1) / (den ^ (2 * k - 1) * (2 * k - 1))

def lnRatio (a b : Nat) : Nat := lnSeries (a - b) (a + b) 32

/-- The ESR of a string in µΩ from va, vb in mV. -/
def stringEsr (p : List Byte) (va vb : Nat) : Nat := (va - vb) * pfRLOAD p * 1000 / vb

/-- The capacitance of a string in µF: 50 ms over (rload + esr) × ln(vb / vc). -/
def stringCap (p : List Byte) (esr vb vc : Nat) : Nat :=
  50000000 * 1000 * 2 ^ 32 / ((pfRLOAD p * 1000 + esr) * lnRatio vb vc)

/-- What a test makes of a string: capacitance in µF and ESR in µΩ; voltages that do not fall give no stated result. -/
def measured (s : State) (p : List Byte) (va vb vc : Nat) : Nat × Nat :=
  if vb = 0 ∨ vc = 0 ∨ va < vb ∨ lnRatio vb vc = 0 then
    ((Config.freeWord s.free).toNat, (Config.freeWord (s.free + 1)).toNat)
  else (stringCap p (stringEsr p va vb) vb vc, stringEsr p va vb)

/-! ### The protected window (R459) -/

/-- The bank's capacitance in µF and its ESR in µΩ, over the strings that passed. -/
def bankCap (s : State) : Nat := s.hold.passed.foldl (fun n e => n + e.2.1) 0
def bankEsr (s : State) : Nat :=
  if s.hold.passed.any (fun e => e.2.2 == 0) then 0
  else 10 ^ 18 / max 1 (s.hold.passed.foldl (fun n e => n + 10 ^ 18 / e.2.2) 0)

/-- The SLC capacity of the cellar in bytes (R329, R459). -/
def cellarCap (s : State) : Nat :=
  (blocksIn s bsCellar).foldl (fun n b => n + match persOf s b.1 with | some p => p.ppbSlc * 16384 | none => 0) 0

/-- The usable energy in units of 10⁻⁹ mJ; a negative one counts as 0. -/
def usableEnergy (s : State) : Nat :=
  let p := s.hold.active
  let floor := 1000 * pfVMIN p + pfIMAX p * bankEsr s / 100
  bankCap s * (curveAt p (1000 * pfVACK p) - curveAt p floor)

/-- W in bytes. -/
def protectedWindow (s : State) : Nat :=
  let p := s.hold.active
  let w := (usableEnergy s * pfEFF p - pfEFIX p * 10 ^ 12) / (pfEPB p * 1000)
  min (min w (s.fld R.HOLD_CAP_CAP * 2 ^ 20)) (7 * cellarCap s / 8) / 4096 * 4096

/-- Change W, with its event. -/
def setWindow (s : State) (w : Nat) : State :=
  if s.hold.w = w then s else notifyVendor ({ s with hold := { s.hold with w := w } }.raise R.HOLD_ISR_WCHG) 0xC2

/-! ### Qualification (R457, R458, R462) -/

/-- The results of HOLD_STATUS.QRES. -/
def qPass : Nat := 0
def qNoProf : Nat := 1
def qBadProf : Nat := 2
def qChgTo : Nat := 3
def qNone : Nat := 4
def qPfail : Nat := 5

/-- The rail's voltage. -/
def railMv (s : State) : Nat := s.fld R.HOLD_RAIL_MV

/-- A computed W takes effect when the rail stands at VACK (R459). -/
def takeWindow (s : State) : State :=
  match s.hold.computed with
  | none => s
  | some w =>
    if pfVACK s.hold.active ≤ railMv s then setWindow { s with hold := { s.hold with computed := none } } w else s

/-- QUALIFICATION_END: the result, its event, the critical warning (R466) and the command that waits for it (R462). -/
def qualEnd (s : State) (res : Nat) : State :=
  let s1 := (({ s with hold := { s.hold with qual := .idle } }.clear R.HOLD_STATUS_QBUSY).setFlds
    [(R.HOLD_STATUS_QRES, res), (R.HOLD_STATUS_PASSED, s.hold.passed.foldl (fun (n : Nat) (e : Nat × Nat × Nat) => n + 2 ^ e.1) 0)]).raise R.HOLD_ISR_QDONE
  let s2 := if res = qPass then
      let t := { s1 with hold := { s1.hold with computed := some (protectedWindow s1), eu := usableEnergy s1, cap := bankCap s1, esr := bankEsr s1 } }
      if t.hold.lostSeen then clearWarn t 4 else t
    else if res = qNoProf ∨ res = qBadProf then s1 else setWarn s1 4
  let s3 := match s2.hold.cmd with
    | none => s2
    | some id =>
      let t := updCmd s2 id (fun c => { c with st := .done, dw0 := if res = qPass then protectedWindow s2 / 2 ^ 20 else 0,
                                               status := if res = qPass then scOk else scRequalify })
      { t with hold := { t.hold with cmd := none } }
  takeWindow s3

/-- Isolate the next string to test, or end. -/
def qualNext (s : State) : State :=
  match s.hold.wait with
  | [] => qualEnd s (if s.hold.passed = [] then qNone else qPass)
  | n :: r =>
    { (s.clear (R.HOLD_STR_MV_ISO n)) with hold := { s.hold with qual := .settle n, wait := r } }

/-- QUALIFICATION_START: W is 0, every fitted string is connected, and the rail charges to VCHG. -/
def qualStart (s : State) : State :=
  let p := profBytes s
  let s0 := setWindow { s with hold := { s.hold with computed := none, passed := [], reached := false, active := p } } 0
  let s1 := s0.raise R.HOLD_STATUS_QBUSY
  if leNat p = 0 then qualEnd s1 qNoProf
  else if !holdProfOk p then qualEnd s1 qBadProf
  else
    let fitted := (List.range 4).filter (pfFitted p)
    let s2 := s1.setFlds (fitted.flatMap (fun n => [(R.HOLD_STR_MV_ISO n, 1), (R.HOLD_STR_MV_LOAD n, 0)]))
    { s2 with hold := { s2.hold with qual := .charge, wait := fitted } }

/-- Hold-up Requalify first waits until X is 0 (R462). -/
def qualDrain (s : State) (cmd : Option Nat) : State :=
  let s1 := setWindow { s with hold := { s.hold with computed := none, cmd := cmd, qual := .drain } } 0
  if exposure s1 = 0 then qualStart s1 else s1

/-- Qualification ends with PFAIL: the load opens and every passing or untested string reconnects (R458). -/
def qualAbort (s : State) : State :=
  if s.hold.qual = .idle then s
  else
    let under : List Nat := match s.hold.qual with
      | .settle n | .load n | .vb n => [n]
      | _ => []
    let s1 := s.setFlds ((under ++ s.hold.wait).flatMap (fun n => [(R.HOLD_STR_MV_LOAD n, 0), (R.HOLD_STR_MV_ISO n, 1)]))
    qualEnd s1 qPfail

/-- STRING_TEST_SETTLE: va is measured and the load closes. -/
def testSettle (s : State) (v : Nat) : State :=
  match s.hold.qual with
  | .settle n => { (s.raise (R.HOLD_STR_MV_LOAD n)) with hold := { s.hold with va := v, qual := .load n } }
  | _ => s

/-- STRING_LOAD_SAMPLE: vb is measured. -/
def loadSample (s : State) (v : Nat) : State :=
  match s.hold.qual with
  | .load n => { s with hold := { s.hold with vb := v, qual := .vb n } }
  | _ => s

/-- STRING_TEST_END: vc is measured, the load opens, and the string reconnects where it passes. -/
def testEnd (s : State) (v : Nat) : State :=
  match s.hold.qual with
  | .vb n =>
    let m := measured s s.hold.active s.hold.va s.hold.vb v
    let pass := decide (10 * pfCMIN s.hold.active ≤ m.1) && decide (m.2 ≤ 1000 * pfESRMAX s.hold.active)
    let s1 := { s with free := s.free + 2 }.setFlds
      [(R.HOLD_STR_MV_LOAD n, 0), (R.HOLD_STR_MV_ISO n, b2n pass), (R.HOLD_STR_MEAS_C n, min 0xFFFF (m.1 / 10)),
       (R.HOLD_STR_MEAS_ESR n, min 0xFFFF (m.2 / 1000))]
    { s1 with hold := { s1.hold with
        qual := .recharge n, passed := if pass then s1.hold.passed ++ [(n, m)] else s1.hold.passed } }
  | _ => s

/-- QUAL_CHARGE_TIMEOUT: the rail has not reached VACK after 30 s. -/
def chargeTimeout (s : State) : State :=
  if s.hold.qual = .charge ∧ ¬ s.hold.reached then qualEnd s qChgTo else s

/-! ### The flush (R461, R464) -/

/-- The bytes a parcel occupies in the cellar: its blocks and its side record, each rounded up to 4 KiB (R460). -/
def cellarBytes (s : State) (r : Rel) : List Byte :=
  let pad (bs : List Byte) : List Byte := bs ++ List.replicate (roundUp bs.length 4096 - bs.length) 0
  pad r.blocks.flatten ++
    pad (recordHeader r (slbaOf s r.nsid r.lsec) (relBlockBytes r) (relBlockCount r) (2 ^ 64 - 1) ++ r.side)

/-- The places of the cellar in the order in which the flush fills them: its pages, block by block. -/
def cellarPages (s : State) : List (Nat × Nat × Nat) :=
  (blocksIn s bsCellar).flatMap (fun b =>
    match persOf s b.1 with
    | none => []
    | some p => ((List.range p.ppbSlc).drop (nextCellarPage s p b.1 b.2)).map (fun g => (b.1, b.2, g)))

/-- The program of one cellar page: up to four sectors of a parcel from sector `i` on. -/
def cellarProg (s : State) (r : Rel) (num i : Nat) (pg : Nat × Nat × Nat) (bs : List Byte) : Prog :=
  let a := match persOf s pg.1 with | some p => psaOf p pg.1 pg.2.1 pg.2.2 0 | none => 0
  { lun := pg.1, block := pg.2.1, page := pg.2.2, slc := true,
    secs := extentSectors r.nsid r.lsec num 4 a bs i ((bs.length + 4095) / 4096) |>.map (fun e => (e.1 - i, e.2)),
    job := r.rel }

/-- The programs of one parcel's sectors, a page at a time. -/
def cellarParcel (s : State) (r : Rel) (num i : Nat) (bs : List Byte) :
    List (Nat × Nat × Nat) → Nat → List Prog × List (Nat × Nat × Nat)
  | ps, 0 => ([], ps)
  | [], _ => ([], [])
  | p :: ps, n + 1 =>
    if bs = [] then ([], p :: ps)
    else
      let x := cellarParcel s r num (i + 4) (bs.drop 16384) ps n
      (cellarProg s r num i p (bs.take 16384) :: x.1, x.2)

/-- The programs of the parcels of a manifest, in release order. -/
def cellarProgs (s : State) (num : Nat) : List Rel → List (Nat × Nat × Nat) → List Prog
  | [], _ => []
  | r :: rs, ps =>
    let bs := cellarBytes s r
    let x := cellarParcel s r num 0 bs ps (bs.length / 16384 + 1)
    x.1 ++ cellarProgs s num rs x.2

/-- What the flush carries: the released parcels not yet persisted, with the retained ones not yet rescued (R486); while
a cellar has not been erased its parcels already lie there, and later ones were never acknowledged (R466). -/
def flushRels (s : State) : List Rel :=
  if s.ftl.cellar.isSome then []
  else (indexNow s).rels

/-- The tiles stop and unreleased parcels are abandoned (R464). -/
def stopTiles (s : State) : State :=
  { s with
    tiles := [], cpJobs := [],
    cores := s.cores.take 32 |>.map (fun k => { k with run := .idle }) |> (· ++ s.cores.drop 32),
    flows := { s.flows with parcels := [], runs := [], voids := [], deques := [], blocked := [], stalled := [], draining := [] } }

/-- Outputs during the flush: fans at full duty, heaters off. -/
def flushOutputs (s : State) : State :=
  s.setFlds ((List.range 4).map (fun n =>
    (R.THERM_OUT_STAT_DUTY n, if s.flag (R.THERM_OUT_CFG_MODE n) then 0 else 0xFF)))

/-- FLUSH_START, or the hold of R486 before NAND has ended. `by`: 0 power or a trip, 1 BANKFLT, 2 loss of PLL lock. -/
def flushStart (s : State) (by_ : Nat) (trip : Bool) : State :=
  if flushing s ∨ s.boot.held ≠ .none then s
  else if s.fld R.SYS_PHASE_PHASE < 11 ∨ s.fld R.SYS_PHASE_PHASE = 13 then heldReset s trip
  else
    let s1 := qualAbort s
    let rels := flushRels s1
    let num := s1.hold.flushes + 1
    let progs := cellarProgs s1 num rels (cellarPages s1)
    let ents := rels.map (fun r => ({ rel := r, acked := relHeld s1 r.rel, complete := false } : CellarEnt))
    let s2 := flushOutputs (stopTiles s1)
    { (s2.setFlds [(R.HOLD_STATUS_FLUSH, 1), (R.WDT_STATUS_FROZEN, 1), (R.HOLD_RAIL_DUTY, 0)]) with
      media := { s2.media with progs := s2.media.progs ++ progs },
      ftl := { s2.ftl with cellar := if s2.ftl.cellar.isSome ∨ rels = [] then s2.ftl.cellar else some ⟨num, ents, false⟩ },
      hold := { s2.hold with flushes := num, flushBy := by_, trip := trip } }

/-- The entries of a cellar after the flush has stopped: those recorded in journal pages whose sectors have all
programmed; they form a run from the first (R465). -/
def markComplete (waiting : List Nat) : List CellarEnt → Nat → List CellarEnt
  | [], _ => []
  | e :: es, 0 => e :: es
  | e :: es, n + 1 =>
    if waiting.contains e.rel.rel then e :: es else { e with complete := true } :: markComplete waiting es n

/-- The flush stops: with its END record, or cut off. `recorded`: the manifest entries recorded in journal pages. -/
def flushStops (s0 : State) (ended : Bool) (recorded us : Nat) : State :=
  let s := { s0 with hold := { s0.hold with ranShort := !ended } }
  let num := s.hold.flushes
  let busy := (s.media.progs.filter Prog.slc).map Prog.job ++
    (tblKeys s.media.luns).filterMap (fun l =>
      (lunOf s l).bind (fun x => x.op.bind (fun o => o.prog.bind (fun g => if g.slc then some g.job else none))))
  match s.ftl.cellar with
  | some c =>
    if c.flush = num then
      let es := markComplete busy c.ents recorded
      { s with
        ftl := { s.ftl with cellar := some ⟨num, es, ended && es.all CellarEnt.complete⟩ },
        hold := { s.hold with
          lastFlush := us, lastBytes := (es.filter CellarEnt.complete).foldl (fun n e => n + relBytes e.rel) 0 } }
    else { s with hold := { s.hold with lastFlush := us, lastBytes := 0 } }
  | none => { s with hold := { s.hold with lastFlush := us, lastBytes := 0 } }

/-! ### Samples, the charger and power (R454, R455, R461) -/

/-- POWER_FAIL: HU_PFAIL# falls and is accepted. The hold-up controller takes the pin it uses for FLUSH, where it has one,
from its holder (R473). -/
def preemptPin (s : State) (n owner func : Nat) : State :=
  let own := s.fld (R.GPIO_PIN_OWN n)
  let s1 := if own = 0 ∨ own ≤ owner then s else if own = 2 then setClaimErr s .therm else setClaimErr s .gpio
  if own ≠ 0 ∧ own < owner then s else s1.setFlds [(R.GPIO_PIN_OWN n, owner), (R.GPIO_PIN_FUNC n, func)]

def powerFail (s : State) (pin : Option Nat) : State :=
  if s.hold.pfail then s
  else
    let s1 := { s with hold := { s.hold with pfail := true } }
    let s2 := match pin with | some n => preemptPin s1 n 1 1 | none => s1
    flushStart s2 0 false

/-- The rail: the highest voltage among the connected strings. -/
def railOf (s : State) (vs : List Nat) : Nat :=
  (List.range 4).foldl (fun m n => if s.flag (R.HOLD_STR_MV_ISO n) then max m (vs.getD n 0) else m) 0

/-- VOLTAGE_SAMPLE. -/
def voltageSample (s : State) (vs : List Nat) : State :=
  let s1 := s.setFlds ((R.HOLD_RAIL_MV, railOf s vs) :: (List.range 4).map (fun n => (R.HOLD_STR_MV_MV n, vs.getD n 0)))
  let rail := railOf s vs
  let p := s.hold.active
  if s.hold.w ≠ 0 ∧ ¬ s.hold.pfail ∧ rail < pfVACK p ∧ ¬ flushing s then
    flushStart ((s1.raise R.HOLD_STATUS_BANKFLT).raise R.HOLD_ISR_BANKFLT) 1 false
  else
    match s.hold.qual with
    | .drain => if exposure s = 0 then qualStart s1 else s1
    | .charge =>
      let s2 := if pfVACK p ≤ rail then { s1 with hold := { s1.hold with reached := true } } else s1
      if pfVCHG p ≤ rail then qualNext s2 else s2
    | .recharge _ => if pfVCHG p ≤ rail then qualNext s1 else s1
    | _ => takeWindow s1

/-- CHARGER_TICK. -/
def chargerTick (s : State) : State :=
  let p := s.hold.active
  let d := s.fld R.HOLD_RAIL_DUTY
  if flushing s ∨ ¬ s.flag R.HOLD_CTRL_EN then s.setFld R.HOLD_RAIL_DUTY 0
  else if pfVCHG p ≤ railMv s then s.setFld R.HOLD_RAIL_DUTY (d - 1)
  else if railMv s + 200 < pfVCHG p then s.setFld R.HOLD_RAIL_DUTY (min (pfDMAX p) (d + 1))
  else s

/-! ### Saving the profile (R456) -/

def holdSave (s : State) (v : Nat) : State :=
  if v % 2 = 0 then s
  else if s.flag R.HOLD_SAVE_BUSY then setClaimErr s .hold
  else { (s.raise R.HOLD_SAVE_BUSY) with hold := { s.hold with saving := some (profBytes s) } }

def holdSaveDone (s : State) : State :=
  match s.hold.saving with
  | none => s
  | some p => { (s.clear R.HOLD_SAVE_BUSY) with hold := { s.hold with saving := none, prof := some p } }

/-! ### The block's enable -/

/-- QUIESCING: a running qualification ends, W becomes 0 and HU_CHG falls to 0. -/
def holdQuiesce (s : State) : State :=
  let s1 := qualAbort s
  (setWindow { s1 with hold := { s1.hold with computed := none } } 0).setFld R.HOLD_RAIL_DUTY 0

end Sys2Proof.Machine
end

