-- ==== Sys2Proof/Machine/Logs.lean ====
section
/-! DEFINITION. Sys2Proof/Machine/Logs.lean: the vendor log pages 0xC0 to 0xC5 (R293, R335, R371, R467, R472). A byte the
manual states no value for is free. -/

namespace Sys2Proof.Machine

/-- The bytes of a page, none where the manual leaves the byte open. -/
abbrev PageBytes := List (Option Byte)

/-- Bytes the manual states. -/
def stated (bs : List Byte) : PageBytes := bs.map some

/-- Open bytes. -/
def unstated (n : Nat) : PageBytes := List.replicate n none

/-- Page 0xC2 (Table 16.4). -/
def lossEntry (e : CellarEnt) : List Byte :=
  leBytes 3 (e.rel.flow % 2 ^ 18) ++ leBytes 1 (relBytes e.rel / 4096 % 128 + 128 * b2n e.acked) ++ leBytes 4 e.rel.seq ++
    leBytes 6 e.rel.lsec ++ leBytes 2 e.rel.nsid

def pageC2 (s : State) : PageBytes :=
  stated (leBytes 4 (s.hold.w / 4096) ++ leBytes 4 (exposure s / 4096) ++ leBytes 4 s.hold.eu ++ leBytes 4 s.hold.cap ++
    leBytes 4 s.hold.esr ++ leBytes 4 (s.fld R.HOLD_RAIL_MV) ++
    leBytes 4 (s.fld R.HOLD_STATUS_PASSED + leAt (profBytes s) 0x19 1 % 16 * 16 + s.fld R.HOLD_STATUS_QRES * 256) ++
    leBytes 4 s.hold.flushes ++
    leBytes 4 (b2n s.hold.ranShort + 2 * b2n (s.hold.flushBy == 1) + 4 * b2n (s.hold.flushBy == 2)) ++
    leBytes 4 s.hold.lastFlush ++ leBytes 4 (s.hold.lastBytes / 4096) ++ leBytes 4 s.hold.lost.length ++
    (List.range 4).flatMap (fun n => leBytes 2 (s.fld (R.HOLD_STR_MEAS_C n)) ++ leBytes 2 (s.fld (R.HOLD_STR_MEAS_ESR n))) ++
    s.hold.lost.flatMap lossEntry)

/-- Page 0xC3 (Table 16.6). The hours by temperature band, the junction cycles and the code store's erase counts are
device history that the model does not follow. -/
def pageC3 (s : State) : PageBytes :=
  stated (leBytes 4 (s.regStored R.THERM_STATUS_STATE.off) ++
    (List.range 8).flatMap (fun n => leBytes 2 (s.fld (R.THERM_CH_CFG_TEMP n))) ++
    (List.range 4).flatMap (fun n => leBytes 2 (s.fld (R.THERM_OUT_STAT_DUTY n))) ++
    (List.range 4).flatMap (fun n => leBytes 2 (s.fld (R.THERM_OUT_STAT_RPM n))) ++
    leBytes 4 (unsignedOf s.therm.dieMax 32) ++ leBytes 4 (s.therm.held / 10)) ++
  unstated 20 ++ stated (leBytes 4 s.boot.cycles ++ leBytes 4 s.hold.flushes) ++ unstated 8 ++ stated (List.replicate 16 0)

/-- The configuration hash of the node (R366). -/
def fabHash (s : State) : List Byte := if s.fab.shared = [] then List.replicate 32 0 else sha256 s.fab.shared

/-- The record of a port in page 0xC4. -/
def portRecord (s : State) (p : Nat) : List Byte :=
  leBytes 4 (s.regStored (R.DPORT_STATUS_STATE p).off) ++ leBytes 4 (s.fld (R.DPORT_PEERUIDLO_UID p)) ++
    leBytes 4 (s.fld (R.DPORT_PEERUIDHI_UID p)) ++ leBytes 4 (s.fld (R.DPORT_PEERADDR_ADDR p)) ++
    leBytes 4 (s.fld (R.DPORT_CRCCNT_COUNT p)) ++ leBytes 4 (s.fld (R.DPORT_REPLAYCNT_COUNT p)) ++
    leBytes 4 (s.fld (R.DPORT_RETRAINCNT_COUNT p)) ++ leBytes 4 (s.fld (R.DPORT_ORPHAN_COUNT p)) ++
    leBytes 4 (s.fld (R.DPORT_VERDROP_COUNT p)) ++ leBytes 4 (s.fld (R.DPORT_FRAMEERR_COUNT p)) ++ List.replicate 24 0

/-- Page 0xC4 (R371). -/
def pageC4 (s : State) : PageBytes :=
  stated (leBytes 8 s.fuses.uid ++ leBytes 4 (s.fld R.FAB_ADDR_ADDR) ++
    leBytes 4 (bitsOf (s.regStored R.FAB_STATUS_STATE.off) 16 8) ++ fabHash s ++
    (s.fab.mgrHash ++ List.replicate 32 0).take 32 ++ leBytes 8 (unsignedOf (signedOf (s.fld R.FAB_TOFF_OFFSET) 32) 64) ++
    leBytes 4 (s.regStored R.FAB_TSTAT_HOPS.off) ++ List.replicate 4 0 ++ leBytes 4 (s.fld R.FAB_HWDROP_COUNT) ++
    leBytes 4 (s.fld R.FAB_ADDRERR_COUNT) ++ leBytes 4 (s.fld R.FAB_NOROUTE_COUNT) ++ leBytes 4 (s.fld R.FAB_TTLERR_COUNT) ++
    List.replicate 16 0 ++ (List.range 4).flatMap (portRecord s))

/-- Blocks per LUN of page 0xC1: the largest PLANES × BPP among populated LUNs. -/
def pageBpl (s : State) : Nat :=
  (tblKeys s.media.luns).foldl (fun n l => match persOf s l with | some p => max n (lunBlocks p) | none => n) 0

/-- The head of page 0xC1 (Table 10.12). -/
def pageC1Head (s : State) : List Byte :=
  let es := (allBlocks s).map (fun b => btErases s b.1 b.2)
  leBytes 4 1024 ++ leBytes 4 (pageBpl s) ++ leBytes 4 (atticCount s) ++ leBytes 4 (s.fld R.FTLA_FLOOR_BLOCKS) ++
    leBytes 4 (blocksIn s bsFactory).length ++ leBytes 4 (blocksIn s bsGrown).length ++
    leBytes 4 (es.foldl max 0) ++ leBytes 4 (es.foldl (· + ·) 0 / es.length) ++
    leBytes 4 (s.fld R.FTLA_STATUS_RDONLY + 2 * s.fld R.FTLA_STATUS_GCFORCED) ++
    leBytes 4 (1024 - (usedLuns s).length) ++ List.replicate 24 0

/-- Does block `b` of a LUN have an entry? -/
def hasBlock (s : State) (lun b : Nat) : Bool :=
  lunUsed s lun && (match persOf s lun with | some p => decide (b < lunBlocks p) | none => false)

/-- The byte of page 0xC1 at an offset. -/
def pageC1Byte (s : State) (o : Nat) : Byte :=
  let bpl := pageBpl s
  if o < 0x40 then (pageC1Head s).getD o 0
  else if o < 0x40 + 4 * 1024 * bpl then
    let i := (o - 0x40) / 4
    if hasBlock s (i / bpl) (i % bpl) then (leBytes 4 (btErases s (i / bpl) (i % bpl))).getD (o % 4) 0 else 0xFF
  else
    let i := o - 0x40 - 4 * 1024 * bpl
    if hasBlock s (i / bpl) (i % bpl) then BitVec.ofNat 8 (btState s (i / bpl) (i % bpl)) else 0xFF

/-- Bytes `[off, off + n)` of a page that is a list. -/
def pageCut (p : PageBytes) (off n : Nat) : PageBytes := (p.drop off).take n

/-- The length of a vendor page; none: the manual gives it none. -/
def pageLen (s : State) (page : Nat) : Option Nat :=
  match page with
  | 0xC0 => some flowCtxSize
  | 0xC1 => some (0x40 + 5 * 1024 * pageBpl s)
  | 0xC2 => some (0x40 + 16 * s.hold.lost.length)
  | 0xC3 => some 96
  | 0xC4 => some 384
  | _ => none

/-- Bytes `[off, off + n)` of a vendor page, cut at its end; page 0xC5 has no stated layout. -/
def vendorPage (s : State) (page off n : Nat) : PageBytes :=
  let m := match pageLen s page with | some l => min n (l - off) | none => n
  match page with
  | 0xC0 => stated (s.memBytes (flowCtxBase + off) m)
  | 0xC1 => stated ((List.range m).map (fun i => pageC1Byte s (off + i)))
  | 0xC2 => pageCut (pageC2 s) off m
  | 0xC3 => pageCut (pageC3 s) off m
  | 0xC4 => pageCut (pageC4 s) off m
  | _ => unstated m

/-- Give the open bytes their free values. -/
def fillPage (s : State) : PageBytes → List Byte × State
  | [] => ([], s)
  | some b :: r =>
    let x := fillPage s r
    (b :: x.1, x.2)
  | none :: r =>
    let f := s.fresh
    let x := fillPage f.2 r
    (Config.freeByte f.1 :: x.1, x.2)

end Sys2Proof.Machine
end

