-- ==== Sys2Proof/Machine/FabBase.lean ====
section
/-! DEFINITION. Sys2Proof/Machine/FabBase.lean: the Damdom link: states, flits, sequence numbers and replay, credits, link
messages, and the sending of frames (R337 to R350, R353, R354). -/

namespace Sys2Proof.Machine

/-! ### Ports -/

def portOf (s : State) (p : Nat) : Port := tblGet Port.reset s.fab.ports p
def setPort (s : State) (p : Nat) (x : Port) : State :=
  { s with fab := { s.fab with ports := tblSet Port.reset s.fab.ports p x } }

/-- LSTATE and its values (Table 11.1). -/
def lState (s : State) (p : Nat) : Nat := s.fld (R.DPORT_STATUS_LSTATE p)
def setLState (s : State) (p v : Nat) : State := s.setFld (R.DPORT_STATUS_LSTATE p) v
def lsDown : Nat := 0
def lsDetect : Nat := 1
def lsTrain : Nat := 2
def lsNegotiate : Nat := 3
def lsActive : Nat := 4

/-- The node's address; 0xFFFF: unassigned. -/
def myAddr (s : State) : Nat := s.fld R.FAB_ADDR_ADDR
def isAssigned (s : State) : Bool := s.flag R.FAB_STATUS_ASSIGNED
def isFenced (s : State) : Bool := s.flag R.FAB_STATUS_FENCED
def isManager (s : State) : Bool := s.flag R.FAB_STATUS_MANAGER

/-- The configured segment; 0xFF: none. -/
def mySegment (s : State) : Nat := if s.fab.shared = [] then 0xFF else leAt s.fab.shared 0 1

/-- SEGMGR and TMASTER of the local section (Table 11.11). -/
def cfgSegMgr (s : State) : Bool := bitOf (leAt s.fab.locals 0 1) 0
def cfgTMaster (s : State) : Bool := bitOf (leAt s.fab.locals 0 1) 1

/-! ### Flits (R339) -/

def ftIdle : Nat := 0
def ftStart : Nat := 1
def ftMiddle : Nat := 2
def ftEnd : Nat := 3
def ftSingle : Nat := 4
def ftLink : Nat := 5

/-- A flit: header, payload padded to 56 bytes, and the CRC of bytes 0–59. -/
def mkFlit (ftype vc seq : Nat) (ack : Option Nat) (pay : List Byte) : List Byte :=
  let a := match ack with | some v => 64 + 2 ^ 20 * v | none => 0
  let body := leBytes 4 (ftype + vc * 16 + a + seq * 256) ++ (pay ++ List.replicate 56 0).take 56
  body ++ leBytes 4 (crc32c body)

/-- The newest ACK of a port, once one exists (R341). -/
def ackNow (x : Port) : Option Nat := if x.rxAny then some ((x.rxSeq + 4095) % 4096) else none

/-- A held flit as it is sent again, with the newest ACK. -/
def reAck (x : Port) (f : List Byte) : List Byte :=
  let h := leAt f 0 4
  mkFlit (bitsOf h 0 4) (bitsOf h 4 2) (bitsOf h 8 12) (ackNow x) ((f.drop 4).take 56)

/-- Put flits on the link. -/
def linkOut (s : State) (p : Nat) (fs : List (List Byte)) : State :=
  let x := portOf s p
  setPort s p { x with out := x.out ++ fs }

/-- Send a LINK flit (R344): LCTYPE and the bytes that follow. -/
def sendLink (s : State) (p lc : Nat) (rest : List Byte) : State :=
  linkOut s p [mkFlit ftLink 0 0 (ackNow (portOf s p)) (BitVec.ofNat 8 lc :: rest)]

/-- A NAK with the expected SEQ (R340). -/
def sendNak (s : State) (p : Nat) : State := sendLink s p 1 ([0] ++ leBytes 2 (portOf s p).rxSeq)

/-! ### Frames (R347) -/

/-- The virtual channel of a frame kind (Table 11.6). -/
def kindVc (k : Nat) : Nat := if k = 0x10 ∨ k = 0x11 then 1 else if 0x20 ≤ k ∧ k ≤ 0x25 then 2 else 0

/-- The protocol version a frame kind needs (Table 11.4). -/
def kindVersion (k : Nat) : Nat := if 0x20 ≤ k ∧ k ≤ 0x25 then 2 else 1

/-- Flits that a frame of `len` payload bytes needs. -/
def flitsFor (len : Nat) : Nat := if len ≤ 32 then 1 else 1 + (len - 32 + 55) / 56

/-- The header of a frame (Table 11.5). -/
def frameHeader (f : Frame) : List Byte :=
  leBytes 2 f.dst ++ leBytes 2 f.src ++ leBytes 1 f.kind ++ leBytes 1 f.ttl ++ leBytes 2 f.data.length ++ leBytes 8 f.arg0 ++
    leBytes 8 f.arg1

/-- The payloads of a frame's flits. -/
def framePays (f : Frame) : List (List Byte) :=
  (frameHeader f ++ f.data.take 32) :: chunks 56 (f.data.drop 32) (f.data.length + 1)

/-- FTYPE of flit `i` of `n`. -/
def flitType (i n : Nat) : Nat :=
  if n = 1 then ftSingle else if i = 0 then ftStart else if i + 1 = n then ftEnd else ftMiddle

/-- Read a frame from the payloads of its flits; none where LEN breaks R347. -/
def parseFrame (ps : List (List Byte)) : Option Frame :=
  let h := ps.headD []
  let len := leAt h 6 2
  if 4096 < len ∨ ps.length ≠ flitsFor len then none
  else
    let body := (h.drop 24).take 32 ++ (ps.drop 1).flatten
    some { dst := leAt h 0 2, src := leAt h 2 2, kind := leAt h 4 1, ttl := leAt h 5 1, arg0 := leAt h 8 8,
           arg1 := leAt h 16 8, data := body.take len }

/-! ### Sending (R341, R343) -/

/-- Put a frame's flits on the link and into the replay buffer, paying its credits. -/
def sendFlits (s : State) (p vc : Nat) (f : Frame) : State :=
  let x := portOf s p
  let ps := framePays f
  let n := ps.length
  let fl := (ps.zip (List.range n)).map (fun e =>
    ((x.txSeq + e.2) % 4096, mkFlit (flitType e.2 n) vc ((x.txSeq + e.2) % 4096) (ackNow x) e.1))
  setPort s p { x with
    txSeq := (x.txSeq + n) % 4096, replay := x.replay ++ fl, out := x.out ++ fl.map Prod.snd,
    credit := x.credit.set vc (x.credit.getD vc 0 - n) }

/-- The first waiting frame that may start: no earlier one of its VC waits, and there are credits and replay room for all
its flits. -/
def sendable (x : Port) : List Nat → List (Nat × Frame) → Option (Nat × Frame)
  | _, [] => none
  | seen, (vc, f) :: r =>
    if !seen.contains vc && decide (flitsFor f.data.length ≤ x.credit.getD vc 0) &&
        decide (x.replay.length + flitsFor f.data.length ≤ 1024) then some (vc, f)
    else sendable x (vc :: seen) r

/-- Send what may be sent. A frame whose KIND needs a version above that of the link is dropped (R367). -/
def pump (s : State) (p : Nat) : Nat → State
  | 0 => s
  | n + 1 =>
    if lState s p ≠ lsActive then s
    else
      match sendable (portOf s p) [] (portOf s p).txq with
      | none => s
      | some (vc, f) =>
        let x := portOf s p
        let s1 := setPort s p { x with txq := x.txq.erase (vc, f) }
        if s.fld (R.DPORT_STATUS_VER p) < kindVersion f.kind then
          pump ((s1.addWrap (R.DPORT_VERDROP_COUNT p) 1).raise (R.DPORT_ISR_VERDROP p)) p n
        else pump (sendFlits s1 p vc f) p n

def pumpPort (s : State) (p : Nat) : State := pump s p (portOf s p).txq.length

/-- Queue a frame at a port and send what may be sent. -/
def sendOn (s : State) (p vc : Nat) (f : Frame) : State :=
  let x := portOf s p
  pumpPort (setPort s p { x with txq := x.txq ++ [(vc, f)] }) p

/-- The special destinations of R348. -/
def dstDirected : Nat := 0xF000
def dstNeighbour : Nat := 0xF001
def srcNone : Nat := 0xFFFF

/-- A route entry: the egress port, where VALID (R353). -/
def routeOf (s : State) (a : Nat) : Option Nat :=
  if s.flag (R.FAB_ROUTE_VALID (a % 4096)) then some (s.fld (R.FAB_ROUTE_PORT (a % 4096))) else none

/-- Send a frame of the node's own to an address. -/
def sendTo (s : State) (dst kind arg0 arg1 : Nat) (data : List Byte) : State :=
  match routeOf s dst with
  | some p =>
    sendOn s p (kindVc kind) { dst := dst, src := myAddr s, kind := kind, ttl := 32, arg0 := arg0, arg1 := arg1, data := data }
  | none => s.addWrap R.FAB_NOROUTE_COUNT 1

/-- Send a neighbour frame. -/
def sendNeighbour (s : State) (p kind arg0 arg1 : Nat) (data : List Byte) : State :=
  sendOn s p (kindVc kind)
    { dst := dstNeighbour, src := myAddr s, kind := kind, ttl := 32, arg0 := arg0, arg1 := arg1, data := data }

/-- Answer a frame (R348): to its source, or out of the port at which it arrived where its source, or this node, has no
address. -/
def replyTo (s : State) (p : Nat) (f : Frame) (kind arg0 arg1 : Nat) (data : List Byte) : State :=
  if f.src = srcNone ∨ ¬ isAssigned s then sendNeighbour s p kind arg0 arg1 data else sendTo s f.src kind arg0 arg1 data

/-! ### Directed frames (R351) -/

def pathHops (a : Nat) : Nat := bitsOf a 40 5
def pathIndex (a : Nat) : Nat := bitsOf a 45 5
def pathPort (a i : Nat) : Nat := bitsOf a (2 * i) 2

/-- A path with its next-hop index. -/
def mkPath (ports : List Nat) (index : Nat) : Nat :=
  (ports.zip (List.range ports.length)).foldl (fun n e => n + e.1 % 4 * 2 ^ (2 * e.2)) 0 + 2 ^ 40 * ports.length + 2 ^ 45 * index

/-- Send a directed frame along a path. -/
def sendDirected (s : State) (ports : List Nat) (kind : Nat) (data : List Byte) : State :=
  match ports with
  | [] => s
  | p :: _ =>
    sendOn s p 0
      { dst := dstDirected, src := myAddr s, kind := kind, ttl := 32, arg0 := 0, arg1 := mkPath ports 1, data := data }

/-- The reverse of the path a directed frame took that arrived at port `p`. -/
def reversePath (f : Frame) (p : Nat) : List Nat :=
  let h := pathHops f.arg1
  p :: (List.range (h - 1)).map (fun i => pathPort f.arg0 (h - 1 - i))

/-! ### Receiving (R340 to R343) -/

/-- Are VC1 credits withheld (R77, Table 2.4)? -/
def fabWithheld (s : State) : Bool := s.flows.blocked.any (fun b => b.fab && b.why == .device)

/-- Return the credits owed by a CREDIT message, those of VC1 only where none are withheld. -/
def returnCredits (s : State) (p : Nat) : State :=
  let x := portOf s p
  let give := if fabWithheld s then x.owed.set 1 0 else x.owed
  if lState s p ≠ lsActive ∨ give.all (· == 0) then s
  else
    let s1 := setPort s p { x with owed := if fabWithheld s then [0, x.owed.getD 1 0, 0] else [0, 0, 0] }
    sendLink s1 p 2 ([0] ++ (give ++ [0]).flatMap (leBytes 2))

/-- The frame at the head of a VC's receive buffer. -/
def headFrame (s : State) (p vc : Nat) : Option Frame :=
  ((portOf s p).rx.find? (fun e => e.1 == vc)).map (fun e => e.2.1)

/-- Take the frame at the head of a VC out of the buffer; its credits are owed, and returned. -/
def popFrame (s : State) (p vc : Nat) : State :=
  let x := portOf s p
  match x.rx.find? (fun e => e.1 == vc) with
  | none => s
  | some e => returnCredits (setPort s p { x with rx := x.rx.erase e, owed := x.owed.set vc (x.owed.getD vc 0 + e.2.2) }) p

/-- Count a discarded frame (DPORT_FRAMEERR). -/
def frameErr (s : State) (p : Nat) : State := s.addWrap (R.DPORT_FRAMEERR_COUNT p) 1

/-- Does an address have a reserved nonzero field (R32, R348)? -/
def badAddr (a : Nat) : Bool := decide (0x1000 ≤ a)

/-- Is this node a frame's destination (R348, R351, R353)? -/
def forUs (s : State) (f : Frame) : Bool :=
  f.dst == dstNeighbour || (f.dst == dstDirected && pathIndex f.arg1 == pathHops f.arg1) ||
    (isAssigned s && f.dst == myAddr s)

/-- Kinds that only answer something a Gudolos never asks: nothing follows from one. -/
def silentKind (k : Nat) : Bool := k == 0x12 || k == 0x22 || k == 0x24 || k == 0x25

/-- A frame has arrived whole on a VC: it waits in the buffer, or is discarded (R343, R347, R348) and its credits owed. -/
def frameArrived (s : State) (p vc : Nat) (ps : List (List Byte)) : State :=
  let x := portOf s p
  let drop (st : State) : State :=
    returnCredits (setPort st p { x with owed := x.owed.set vc (x.owed.getD vc 0 + ps.length) }) p
  match parseFrame ps with
  | none => drop (frameErr s p)
  | some f =>
    if vc = 3 then frameErr s p
    else if (badAddr f.dst && f.dst != dstDirected && f.dst != dstNeighbour) || (badAddr f.src && f.src != srcNone) then
      drop (s.addWrap R.FAB_ADDRERR_COUNT 1)
    else if silentKind f.kind && forUs s f then drop s
    else setPort s p { x with rx := x.rx ++ [(vc, f, ps.length)] }

/-- A sequenced flit is accepted: it begins, continues or ends a frame of its VC. -/
def flitAccepted (s : State) (p ftype vc : Nat) (pay : List Byte) : State :=
  let x := portOf s p
  let old := tblGet [] x.part vc
  let put (st : State) (l : List (List Byte)) : State := setPort st p { portOf st p with part := tblSet [] (portOf st p).part vc l }
  let lose (st : State) (n : Nat) : State :=
    let y := portOf st p
    setPort (frameErr st p) p { y with owed := y.owed.set vc (y.owed.getD vc 0 + n) }
  if ftype = ftSingle then frameArrived (if old = [] then s else put (lose s old.length) []) p vc [pay]
  else if ftype = ftStart then put (if old = [] then s else lose s old.length) [pay]
  else if old = [] then lose s 1
  else if ftype = ftMiddle then put s (old ++ [pay])
  else frameArrived (put s []) p vc (old ++ [pay])

/-- An ACK releases the held flits it covers (R341). -/
def takeAck (s : State) (p ack : Nat) : State :=
  let x := portOf s p
  if x.replay.any (fun e => e.1 == ack) then
    let rest := (x.replay.dropWhile (fun e => e.1 != ack)).drop 1
    pumpPort (setPort s p { x with replay := rest, resends := 0 }) p
  else s

/-- A flit arrives on a port in NEGOTIATE or ACTIVE (R340). -/
def flitReceive (s : State) (p : Nat) (fl : List Byte) : State :=
  if lState s p ≠ lsNegotiate ∧ lState s p ≠ lsActive then s
  else
    let h := leAt fl 0 4
    let ft := bitsOf h 0 4
    if fl.length ≠ 64 ∨ leAt fl 60 4 ≠ crc32c (fl.take 60) ∨ ftLink < ft ∨ bitOf h 7 then
      (s.addWrap (R.DPORT_CRCCNT_COUNT p) 1).raise (R.DPORT_ISR_CRC p)
    else
      let s1 := if bitOf h 6 then takeAck s p (bitsOf h 20 12) else s
      let pay := (fl.drop 4).take 56
      let x := portOf s1 p
      if ft = ftIdle then s1
      else if ft = ftLink then
        if 5 < leAt pay 0 1 then frameErr s1 p else setPort s1 p { x with links := x.links ++ [pay] }
      else if bitsOf h 8 12 = x.rxSeq then
        flitAccepted (setPort s1 p { x with rxSeq := (x.rxSeq + 1) % 4096, rxAny := true, missing := false }) p ft
          (bitsOf h 4 2) pay
      else
        let s2 := s1.raise (R.DPORT_ISR_CRC p)
        if x.missing then s2 else sendNak (setPort s2 p { x with missing := true }) p

/-! ### Leaving and entering ACTIVE (R342 to R345) -/

/-- Report a change of a port's ACTIVE state to the manager (R354). -/
def portEvent (s : State) (p : Nat) (up : Bool) : State :=
  if isManager s ∨ ¬ isAssigned s ∨ s.fab.mgr = srcNone then s else sendTo s s.fab.mgr 0x07 (p + 4 * b2n up) 0 []

/-- The link loses its sequence state: numbers restart at 0, the replay buffer and partial frames are dropped (R342). -/
def linkReset (s : State) (p : Nat) : State :=
  let x := portOf s p
  setPort s p { x with
    txSeq := 0, rxSeq := 0, rxAny := false, missing := false, replay := [], resends := 0, credit := [0, 0, 0],
    owed := [0, 0, 0], part := [], links := [], peer := none, said := false, t1 := none }

/-- The port leaves its state for another; leaving ACTIVE is an event. -/
def leaveLink (s : State) (p l : Nat) : State :=
  let s1 := setLState (linkReset s p) p l
  let s2 := s1.setFlds [(R.DPORT_STATUS_VER p, 0), (R.DPORT_STATUS_NOVER p, 0), (R.DPORT_PEERUIDLO_UID p, 0),
    (R.DPORT_PEERUIDHI_UID p, 0), (R.DPORT_PEERADDR_ADDR p, 0xFFFF)]
  if lState s p = lsActive then portEvent (s2.raise (R.DPORT_ISR_DOWN p)) p false else s2

/-- The receive buffers in flits (R343). -/
def vcBuffer : List Nat := [128, 2048, 1024]

/-- The port enters ACTIVE: it grants the room of its buffers by its first CREDIT message. -/
def enterActive (s : State) (p : Nat) : State :=
  let x := portOf s p
  let used (vc : Nat) : Nat := (x.rx.filter (fun e => e.1 == vc)).foldl (fun n e => n + e.2.2) 0
  let s1 := setLState (setPort s p { x with owed := (List.range 3).map (fun vc => vcBuffer.getD vc 0 - used vc) }) p lsActive
  pumpPort (portEvent (returnCredits (s1.raise (R.DPORT_ISR_UP p)) p) p true) p

/-- The port returns to TRAIN (R342). -/
def retrain (s : State) (p : Nat) : State :=
  ((leaveLink s p lsTrain).addWrap (R.DPORT_RETRAINCNT_COUNT p) 1).raise (R.DPORT_ISR_RETRAIN p)

/-- Resend held flits (R341), or retrain after LIMIT resends without progress (R342). -/
def resend (s : State) (p : Nat) (fs : List (List Byte)) : State :=
  let x := portOf s p
  if s.fld (R.DPORT_RETRY_LIMIT p) ≤ x.resends then retrain s p
  else
    (linkOut (setPort s p { x with resends := x.resends + 1 }) p (fs.map (reAck x))).addWrap (R.DPORT_REPLAYCNT_COUNT p) 1

/-- A NAK: every held flit from the SEQ named. -/
def nakReceived (s : State) (p seq : Nat) : State :=
  let fs := (portOf s p).replay.dropWhile (fun e => e.1 != seq)
  if fs = [] then s else resend s p (fs.map Prod.snd)

/-- Take the oldest LINK message of a port, where it has the LCTYPE. -/
def takeLink (s : State) (p lc : Nat) : Option (List Byte × State) :=
  let x := portOf s p
  match x.links with
  | m :: r => if leAt m 0 1 = lc then some (m, setPort s p { x with links := r }) else none
  | [] => none

/-! ### Time (R362 to R365) -/

/-- Fabric time advances by `dt` ns of the node's clock. -/
def timePass (s : State) (dt : Nat) : State := { s with fab := { s.fab with time := (s.fab.time + dt) % 2 ^ 63 } }

/-- The timestamp the node issues now. -/
def timestamp (s : State) : Nat := s.fab.time + 2 ^ 63 * s.fld R.FAB_STATUS_UNSYNC

/-- The best upstream port (R364): version 3, lowest master UID, fewest hops, lowest port. -/
def bestUpstream (s : State) : Option (Nat × PeerHello) :=
  (List.range 4).foldl (fun (best : Option (Nat × PeerHello)) p =>
    match (portOf s p).peer with
    | none => best
    | some h =>
      if lState s p ≠ lsActive ∨ s.fld (R.DPORT_STATUS_VER p) ≠ 3 ∨ h.hops = 0xFF then best
      else
        match best with
        | none => some (p, h)
        | some b => if h.master < b.2.master ∨ (h.master = b.2.master ∧ h.hops < b.2.hops) then some (p, h) else best) none

/-- Does a condition of R365 hold that makes the node unsynced? -/
def unsyncNow (s : State) : Bool :=
  !s.flag R.FAB_STATUS_MASTER &&
    (s.flag R.FAB_TSTAT_NOSRC || s.fab.bigOff || s.fab.stale || s.fab.stepped != 0 || s.fab.upUnsync)

/-- Bring UNSYNC up to date, with its events. -/
def syncUpdate (s : State) : State :=
  let old := s.flag R.FAB_STATUS_UNSYNC
  let new := !s.flag R.FAB_STATUS_MASTER && (unsyncNow s || (old && decide (s.fab.good < 4)))
  let s1 := s.setFld R.FAB_STATUS_UNSYNC (b2n new)
  if new && !old then s1.raise R.FAB_ISR_UNSYNC else if old && !new then s1.raise R.FAB_ISR_RESYNC else s1

/-- Choose the time source again (R364). -/
def timeSource (s : State) : State :=
  let up := bestUpstream s
  let lower := match up with | some b => decide (b.2.master < s.fuses.uid) | none => false
  let gives := cfgTMaster s && lower
  let master := cfgTMaster s && !lower
  let s1 := if gives && !s.flag R.FAB_STATUS_MASTERCONF then
      (s.raise R.FAB_STATUS_MASTERCONF).raise R.FAB_ISR_CONFLICT else s
  let s2 := if master then s1.setFlds [(R.FAB_TSTAT_HOPS, 0), (R.FAB_TSTAT_NOSRC, 0), (R.FAB_TSTAT_UPPORT, 0)]
    else match up with
      | some b => if 63 < b.2.hops + 1 then s1.setFlds [(R.FAB_TSTAT_HOPS, 0), (R.FAB_TSTAT_NOSRC, 1)]
          else s1.setFlds [(R.FAB_TSTAT_HOPS, b.2.hops + 1), (R.FAB_TSTAT_NOSRC, 0), (R.FAB_TSTAT_UPPORT, b.1)]
      | none => s1.setFlds [(R.FAB_TSTAT_HOPS, 0), (R.FAB_TSTAT_NOSRC, 1), (R.FAB_TSTAT_UPPORT, 0)]
  syncUpdate (s2.setFld R.FAB_STATUS_MASTER (b2n master))

/-- The upstream port of a node that is not a master. -/
def upstream (s : State) : Option Nat :=
  if s.flag R.FAB_STATUS_MASTER ∨ s.flag R.FAB_TSTAT_NOSRC then none else some (s.fld R.FAB_TSTAT_UPPORT)

/-- The time hops and the master UID the node advertises. -/
def myHops (s : State) : Nat := if s.flag R.FAB_TSTAT_NOSRC then 0xFF else s.fld R.FAB_TSTAT_HOPS
def myMaster (s : State) : Nat :=
  if s.flag R.FAB_STATUS_MASTER then s.fuses.uid
  else match upstream s with
    | some p => (match (portOf s p).peer with | some h => h.master | none => 0)
    | none => 0

/-! ### HELLO (R344, R345) -/

/-- The HELLO a port sends (Table 11.3), bytes 5 onwards. -/
def helloBytes (s : State) (p : Nat) (active : Bool) : List Byte :=
  [BitVec.ofNat 8 (s.fld (R.DPORT_CTRL_VOFFER p)), BitVec.ofNat 8 p, BitVec.ofNat 8 (b2n active)] ++ leBytes 8 s.fuses.uid ++
    leBytes 2 (myAddr s) ++ leBytes 1 (mySegment s) ++ [0] ++ (fabHash s).take 8 ++ leBytes 1 (myHops s) ++
    List.replicate 3 0 ++ leBytes 8 (myMaster s)

/-- The highest version in both offers; 0: none. -/
def commonVersion (a b : Nat) : Nat := if bitOf (a &&& b) 2 then 3 else if bitOf (a &&& b) 1 then 2 else b2n (bitOf (a &&& b) 0)

/-- A HELLO is received (R345). -/
def helloReceived (s : State) (p : Nat) (m : List Byte) : State :=
  let offer := leAt m 1 1 % 8
  let addr := leAt m 12 2
  let h : PeerHello := ⟨offer, leAt m 14 1, leAt m 24 1, leAt m 28 8⟩
  let v := commonVersion (s.fld (R.DPORT_CTRL_VOFFER p)) offer
  let s0 := if lState s p = lsActive ∧ v ≠ s.fld (R.DPORT_STATUS_VER p) then leaveLink s p lsNegotiate else s
  let s1 := (setPort s0 p { portOf s0 p with peer := some h }).setFlds
    [(R.DPORT_PEERUIDLO_UID p, leAt m 4 4), (R.DPORT_PEERUIDHI_UID p, leAt m 8 4), (R.DPORT_PEERADDR_ADDR p, addr),
     (R.DPORT_STATUS_VER p, v)]
  let s2 := if v = 0 then (s1.setFld (R.DPORT_STATUS_NOVER p) 1).raise (R.DPORT_ISR_NOVER p)
    else s1.setFld (R.DPORT_STATUS_NOVER p) 0
  let s3 := if isAssigned s ∧ addr = myAddr s then
      portEvent ((if s.flag R.FAB_STATUS_DUPADDR then s2 else (s2.raise R.FAB_STATUS_DUPADDR).raise R.FAB_ISR_CONFLICT)) p true
    else s2
  timeSource s3

/-- HELLO_TIMER: a HELLO is sent; in NEGOTIATE one with byte 7 = 1 after a HELLO of a common version brings ACTIVE. -/
def helloTimer (s : State) (p : Nat) : State :=
  if lState s p = lsActive then returnCredits (sendLink s p 0 (helloBytes s p true)) p
  else if lState s p = lsNegotiate then
    let ready := (portOf s p).peer.isSome && s.fld (R.DPORT_STATUS_VER p) != 0
    let s1 := sendLink s p 0 (helloBytes s p ready)
    if ready then enterActive (setPort s1 p { portOf s1 p with said := true }) p else s1
  else s

/-! ### The port's enable (R337) -/

/-- EN is set: the port begins to look for a signal. -/
def portEnabled (s : State) (p : Nat) : State := if lState s p = lsDown then setLState s p lsDetect else s

/-- QUIESCING begins: the port sends DOWN. -/
def portQuiesce (s : State) (p : Nat) : State := if lState s p = lsActive then sendLink s p 5 [] else s

/-- QUIESCING ends: the link goes to DOWN. -/
def portOff (s : State) (p : Nat) : State := leaveLink s p lsDown

end Sys2Proof.Machine
end

