-- ==== Sys2Proof/Machine/Release.lean ====
section
/-! DEFINITION. Sys2Proof/Machine/Release.lean: the completion of a parcel and its release in order (R73 to R82, R262). -/

namespace Sys2Proof.Machine

/-! ### Completion (R73, R262) -/

/-- The index entries of a parcel in ordinal order: they lie downwards from below the trailer (R262). -/
def parcelEntries (s : State) (p : Parcel) : List Byte :=
  ((List.range p.nent).map (fun i => s.memBytes (p.ost + p.ostLen - 64 - 16 * (i + 1)) 16)).flatten

/-- The parcel trailer (Table 8.9). -/
def trailerOf (s : State) (p : Parcel) : List Byte :=
  let ent := parcelEntries s p
  let body :=
    leBytes 4 0x4C525450 ++ leBytes 4 p.flow ++ leBytes 4 p.seq ++ leBytes 4 p.nblk ++ leBytes 4 p.ebytes ++
      leBytes 4 p.nent ++ leBytes 4 (crc32c (s.memBytes p.ost p.ebytes)) ++
      leBytes 4 (if p.nent = 0 then 0 else crc32c ent) ++ leBytes 4 (b2n p.raw) ++ List.replicate 24 0
  body ++ leBytes 4 (crc32c body)

/-- Does a parcel release its outputs: it has not failed, or it was stored raw, and it is not discarded? -/
def releases (p : Parcel) : Bool := !p.discarded && (p.cause == 0 || p.raw)

/-- Is a parcel at its completion (R73, R81, R522)? Its job has ended, it owes no raw store, and, where it has not failed,
its blocks and keys have all been accepted and written. -/
def completes (s : State) (p : Parcel) : Bool :=
  match p.st with
  | .ended t =>
    p.jobEnded && !rawDue s p && (p.cause != 0 || !refBusy (s.tile t) ⟨false, p.flow, p.seq, 0⟩ &&
      !s.index.engHold.any (fun e => match e.2 with | some k => k.key.job == ⟨false, p.flow, p.seq, 0⟩ | none => false))
  | _ => false

/-- PARCEL_COMPLETE: the trailer is written, and the parcel's landing space is released (R67). -/
def parcelComplete (s : State) (flow seq : Nat) : State :=
  match findParcel s flow seq with
  | none => s
  | some p =>
    if completes s p then
      let s1 := if releases p then writeMem s (p.ost + p.ostLen - 64) (trailerOf s p) none tagLocal else s
      clearBlocked (updParcel s1 flow seq (fun q => { q with st := .complete, landHeld := false }))
    else s

/-! ### Release (R74, R76, R80) -/

/-- The void run that holds a flow's head, if any. -/
def voidAt (s : State) (flow seq : Nat) : Option SeqRun :=
  s.flows.voids.find? (fun r => r.flow == flow && decide ((2 ^ 32 + seq - r.next) % 2 ^ 32 < r.left))

/-- What a flow's head is, where it can be released: a complete parcel, or a number that retires with nothing. -/
inductive Head where
  | parcel (p : Parcel)
  | void (r : SeqRun)

def headOf (s : State) (flow : Nat) : Option Head :=
  let q := ctxGet s flow cxRET
  match findParcel s flow q with
  | some p => if p.st = .complete then some (.parcel p) else none
  | none => (voidAt s flow q).map .void

/-- The flow whose head is released next: round robin in ascending flow ID after the flow released last. -/
def nextRelease (s : State) : Option Nat :=
  let fs := (s.flows.parcels.map Parcel.flow ++ s.flows.voids.map SeqRun.flow).eraseDups
  let ready := fs.filter (fun f => (headOf s f).isSome)
  let least (l : List Nat) : Option Nat :=
    l.foldl (fun b f => match b with | none => some f | some x => some (min x f)) none
  match least (ready.filter (fun f => decide (s.flows.lastReleased < f))) with
  | some f => some f
  | none => least ready

/-- The logical sectors of a parcel (R314): first sector, sectors taken. -/
def parcelSectors (s : State) (p : Parcel) : Nat × Nat :=
  let unit := ctxParcelSize s p.flow / 4096
  match p.src with
  | .host cmd =>
    let spb := match nsOf s (ctxGet s p.flow cxNSID) with | some n => nsSpb n | none => 1
    (match findCmd s cmd with
     | some c => (match c.op with | .write _ slba _ _ _ _ _ => slba * spb + p.part * unit | _ => p.part * unit)
     | none => p.part * unit, (p.len + 4095) / 4096)
  | .fab =>
    let total := match nsOf s (ctxGet s p.flow cxNSID) with | some n => nsSectors n | none => 0
    (p.seq * unit % (total / unit * unit), unit)

/-- The command of a parcel. -/
def parcelCmd (p : Parcel) : Option Nat := match p.src with | .host c => some c | .fab => none

/-- A command abandoned by a reset of its controller is gone, its range lock with it, when its parcels have retired
(R489). -/
def dropAbandoned (s : State) : State :=
  { s with nvme := { s.nvme with cmds := s.nvme.cmds.filter (fun c => !(c.abandoned && c.left == 0)) } }

/-- One number of a command's run has retired. -/
def cmdRetire (s : State) (cmd : Option Nat) (rel : Option Nat) : State :=
  match cmd with
  | none => s
  | some id =>
    dropAbandoned (updCmd s id (fun c => { c with
      left := c.left - 1, rels := c.rels ++ (match rel with | some r => [r] | none => []) }))

/-- Release a parcel's outputs to the translation layer; house firmware enters it in the retention index (R480). -/
def releaseOutputs (s : State) (p : Parcel) : State :=
  let sec := parcelSectors s p
  let n := s.ftl.nextRel
  let indet := s.ftl.indets.any (fun r => r.1 == p.flow && decide ((2 ^ 32 + p.seq - r.2.1) % 2 ^ 32 < r.2.2))
  let r : Rel :=
    { rel := n, flow := p.flow, seq := p.seq, cmd := parcelCmd p, nsid := ctxGet s p.flow cxNSID, lsec := sec.1,
      nsec := sec.2, plen := p.len, nblk := p.nblk, ebytes := p.ebytes,
      side := parcelEntries s p ++ s.memBytes (p.ost + p.ostLen - 64) 64, nent := p.nent, raw := p.raw, indet := indet,
      blocks := splitBlocks (s.memBytes p.ost p.ebytes) p.nblk, restored := false, sided := false }
  let s1 := ctxAdd64 s p.flow 0x28 (p.ebytes + 16 * p.nent + 64)
  let s2 := if p.raw then ctxAdd s1 p.flow cxRAW 1 else s1
  let s3 := { (s2.raise R.SYS_RETBASE_VALID) with ftl := { s2.ftl with rels := s2.ftl.rels ++ [r], nextRel := n + 1 } }
  cmdRetire (enqueueMap s3 (.parcel n)) (parcelCmd p) (some n)

/-- FLOW_STOP: a failed parcel under ERRPOL 1 stops its flow (Table 2.5). -/
def stopFlow (s : State) (p : Parcel) : State :=
  let s1 := (ctxSet s p.flow cxSTOPPED 1).raise R.FLOW_ISR_STOPPED
  let s2 := s1.capture R.FLOW_LASTSTOP_VALID [(R.FLOW_LASTSTOP_FLOW, p.flow)]
  let s3 := discardFlow s2 p.flow
  let s4 := { s3 with nvme := { s3.nvme with cmds := s3.nvme.cmds.map (fun c =>
    if some c.id = parcelCmd p then { c with stopped := true }
    else if c.run.any (fun r => r.1 == p.flow) && c.left != 0 then { c with later := true } else c) } }
  notifyVendor s4 0xC0

/-- Release a failed or discarded parcel: nothing, its logical blocks marked failed where it failed (Table 2.5). -/
def releaseNothing (s : State) (p : Parcel) : State :=
  let s1 := cmdRetire s (parcelCmd p) none
  if p.discarded then s1
  else
    let sec := parcelSectors s p
    let s2 := enqueueMap s1 (.dealloc (ctxGet s p.flow cxNSID) sec.1 sec.2)
    if ctxGet s p.flow cxERRPOL = 1 then stopFlow s2 p else s2

/-- FLOW_DRAIN_DONE: the last parcel of a draining flow has retired (R61). -/
def drainDone (s : State) (flow : Nat) : State :=
  match s.flows.draining.find? (fun d => d.flow == flow) with
  | none => s
  | some d =>
    if (flowParcels s flow).isEmpty && !s.flows.runs.any (fun r => r.flow == flow) && !s.flows.voids.any (fun r => r.flow == flow) then
      let s1 := ((ctxSet s flow cxVALID 0).raise R.FLOW_ISR_DRAINED)
      let s2 := s1.setFld R.FLOW_NBOUND_COUNT (s1.fld R.FLOW_NBOUND_COUNT - 1)
      let s3 := { s2 with flows := { s2.flows with draining := s2.flows.draining.filter (fun x => x.flow != flow) } }
      match d.cmd with
      | some id => updCmd s3 id (fun c => { c with st := .done })
      | none => s3
    else s

/-- Advance a flow's RET_SEQ past its head. -/
def advanceHead (s : State) (flow : Nat) : State :=
  let s1 := ctxAdd (ctxAdd s flow cxRET 1) flow cxRETIRED 1
  { s1 with flows := { s1.flows with
      lastReleased := flow, stalled := s1.flows.stalled.filter (fun x => x.1 != flow) } }

/-- Take one number out of a void run. -/
def shrinkVoid (r : SeqRun) (seq : Nat) : Option SeqRun :=
  if (2 ^ 32 + seq - r.next) % 2 ^ 32 = 0 then
    if r.left ≤ 1 then none else some { r with next := (r.next + 1) % 2 ^ 32, left := r.left - 1 }
  else some r

/-- RET_RELEASE: one releasable head, round robin. -/
def retRelease (s : State) : State :=
  match nextRelease s with
  | none => s
  | some f =>
    match headOf s f with
    | none => s
    | some (.void r) =>
      let q := ctxGet s f cxRET
      let s1 := { s with flows := { s.flows with
        voids := s.flows.voids.filterMap (fun x => if x = r then shrinkVoid x q else some x) } }
      clearBlocked (drainDone (cmdRetire (advanceHead s1 f) (some r.cmd) none) f)
    | some (.parcel p) =>
      let s1 := if releases p then releaseOutputs s p else releaseNothing s p
      let s2 := { s1 with flows := { s1.flows with
        parcels := s1.flows.parcels.filter (fun x => !(x.flow == f && x.seq == p.seq)) } }
      clearBlocked (drainDone (advanceHead s2 f) f)

/-! ### The head's timers (R75) -/

/-- The parcel at the head of a flow, where it has not completed. -/
def waitingHead (s : State) (flow : Nat) : Option Parcel :=
  match findParcel s flow (ctxGet s flow cxRET) with
  | some p => if p.st = .complete then none else some p
  | none => none

/-- HEAD_STALL_EXPIRY: noted once for a parcel. -/
def headStall (s : State) (flow : Nat) : State :=
  match waitingHead s flow with
  | none => s
  | some p =>
    if s.fld R.RET_STALL_TIME = 0 ∨ s.flows.stalled.contains (flow, p.seq) then s
    else
      ({ s with flows := { s.flows with stalled := s.flows.stalled ++ [(flow, p.seq)] } }.raise R.RET_ISR_STALL).capture
        R.RET_STALLFLOW_VALID [(R.RET_STALLFLOW_FLOW, flow)]

/-- HEAD_DEADLINE_EXPIRY: the parcel fails with TIMEOUT and its tile is reset; other parcels of the tile fail with
EXCEPTION (R170). -/
def headDeadline (s : State) (flow : Nat) : State :=
  match waitingHead s flow with
  | none => s
  | some p =>
    if s.fld R.RET_PTO_TIME = 0 then s
    else
      let s1 := failParcel (s.raise R.RET_ISR_TIMEOUT) flow p.seq causeTimeout
      match p.st with
      | .running t | .ended t => tileReset s1 t causeException
      | _ => s1

/-! ### Short parcels (R84) -/

/-- A Damdom parcel ends short: it fails with SHORT, its landed data padded with zero bytes to the declared length (R81),
and goes to a tile's deque. -/
def shortParcel (s : State) (flow seq : Nat) : State :=
  match findParcel s flow seq with
  | none => s
  | some p =>
    if p.st = .landing ∧ p.src = .fab then
      let s1 := failParcel ((ctxAdd s flow cxSHORT 1).raise R.DISP_ISR_SHORT) flow seq causeShort
      let s2 := writeMem s1 (p.land + p.got) (List.replicate (p.len - p.got) 0) none tagLocal
      pushParcel (ctxAdd64 s2 flow 0x20 ((p.got + 4095) / 4096)) flow seq
    else s

/-! ### The commands -/

def execParcelComplete (flow : Fin 262144) (seq : Nat) (s : State) : Result := .next (parcelComplete s flow.val seq)
def execRetRelease (s : State) : Result := .next (retRelease s)
def execHeadStallExpiry (flow : Fin 262144) (s : State) : Result := .next (headStall s flow.val)
def execHeadDeadlineExpiry (flow : Fin 262144) (s : State) : Result := .next (headDeadline s flow.val)

end Sys2Proof.Machine
end

