-- ==== Sys2Proof/Machine/FlowCmds.lean ====
section
/-! DEFINITION. Sys2Proof/Machine/FlowCmds.lean: binding (R59 to R61, R85), cutting and fetching parcels (R64 to R68, R77),
the deques and stealing (R70 to R72). -/

namespace Sys2Proof.Machine

/-! ### Binding (Table 2.2) -/

/-- The flows whose context holds anything. -/
def ctxCandidates (s : State) : List Nat :=
  let inCtx (a : Nat) : Bool := decide (flowCtxBase ≤ a) && decide (a < flowCtxBase + flowCtxSize)
  (((tblKeys s.mem).filter inCtx).map (fun a => (a - flowCtxBase) / 64) ++
    ((s.merge.map (fun e => e.word * 8)).filter inCtx).map (fun a => (a - flowCtxBase) / 64) ++
    ((tblKeys s.ecc.syn).filterMap eccAddr |>.filter inCtx).map (fun a => (a - flowCtxBase) / 64)).eraseDups

/-- The bound flows. -/
def boundFlows (s : State) : List Nat := (ctxCandidates s).filter (ctxBound s)

/-- A field of a context image. -/
def imgFld (img : List Byte) (f : CtxFld) : Nat := bitsOf (leAt img f.off 4) f.lo f.width

/-- The image of a flow's context in SRAM. -/
def ctxImage (s : State) (flow : Nat) : List Byte := s.memBytes (ctxAddr flow) 64

/-- Does an image set a reserved bit of its binding words (Table 2.1)? -/
def imgReserved (img : List Byte) : Bool :=
  bitsOf (leAt img 0x00 4) 5 3 != 0 || bitsOf (leAt img 0x00 4) 17 15 != 0 || bitsOf (leAt img 0x04 4) 6 2 != 0 ||
    bitsOf (leAt img 0x0C 4) 3 5 != 0 || bitsOf (leAt img 0x0C 4) 19 13 != 0 || bitsOf (leAt img 0x18 4) 17 15 != 0

/-- Is a program slot loaded with a tile program (KIND 0)? -/
def tileProgram (s : State) (slot : Nat) : Bool :=
  match tblGet none s.loaded.progs slot with | some p => p.kind == 0 | none => false

/-- Do STEP_SET, CODEC_PROF and INDEX_PROF name something loaded? -/
def namesLoaded (s : State) (step codec index : Nat) : Bool :=
  (tblGet none s.loaded.sets step).isSome && (profOf s codec).isSome && (idxProfOf s index).isSome

/-- The first row of Table 2.2 that an activation meets: its status, or none. -/
def bindFault (s : State) (flow : Nat) (img : List Byte) : Option Nat :=
  let nsid := imgFld img cxNSID
  if imgReserved img ∨ nsid = 0 ∨ 257 ≤ nsid then some scInvalidField
  else if imgFld img cxSTOPPED = 1 ∨ imgFld img cxERRPOL = 3 ∨ imgFld img cxPSIZE = 7 ∨ 1024 < imgFld img cxQUOTA ∨
      imgFld img cxMASK = 0 then some scInvalidField
  else if imgFld img cxHBOUND = 0 ∧ imgFld img cxFABIN = 0 then some scInvalidField
  else if !tileProgram s (imgFld img cxPROG) || !namesLoaded s (imgFld img cxSTEP) (imgFld img cxCODEC) (imgFld img cxINDEX) then
    some scInvalidField
  else
    match nsOf s nsid with
    | none => some scInvalidNs
    | some n =>
      if imgFld img cxFABIN = 1 ∧ nsSectors n < 2 ^ imgFld img cxPSIZE then some scInvalidField
      else if ctxBound s flow ∨ ctxDraining s flow then some scSequence
      else if imgFld img cxHBOUND = 1 ∧ (boundFlows s).any (fun f => ctxGet s f cxHBOUND == 1 &&
          ctxGet s f cxNSID == nsid && ctxGet s f cxDSPEC == imgFld img cxDSPEC) then some scSequence
      else none

/-- The row of Table 2.2 that an unbinding meets. -/
def unbindFault (s : State) (flow : Nat) : Option Nat :=
  if !ctxBound s flow || ctxDraining s flow then some scSequence else none

/-- Tiles that the power state quiesces (Table 18.13). -/
def psQuiesced (ps t : Nat) : Bool := if ps = 1 then decide (16 ≤ t) else if ps = 2 then decide (4 ≤ t) else false

/-- R512: does a mask name quiesced tiles only? -/
def maskQuiesced (s : State) (mask : Nat) : Bool :=
  (List.range 32).all (fun t => !mask.testBit t || psQuiesced s.nvme.power t)

/-- Bind a flow from an image (R59): the binding words, RET_SEQ equal to NEXT_SEQ, the rest cleared, VALID set. -/
def bindFlow (s : State) (flow : Nat) (img : List Byte) : State :=
  let w0 := leAt img 0 4 / 2 * 2 + 1
  let next := leAt img 0x10 4
  let s1 := ctxPut s flow 0 (leBytes 4 w0 ++ (img.drop 4).take 12 ++ leBytes 4 next ++ leBytes 4 next ++
    (img.drop 0x18).take 4 ++ List.replicate 36 0)
  s1.setFld R.FLOW_NBOUND_COUNT (s1.fld R.FLOW_NBOUND_COUNT + 1)

/-- A flow begins to drain (R61); a drain with nothing to wait for ends at once. -/
def drainFlow (s : State) (flow : Nat) (cmd : Option Nat) : State :=
  drainDone { s with flows := { s.flows with draining := s.flows.draining ++ [⟨flow, cmd⟩] } } flow

/-- A write of OP to FLOW_CMD (R85). -/
def flowCmd (s : State) (flow op : Nat) : State :=
  if op = 0 ∨ op = 3 then s
  else if s.flag R.FLOW_STATUS_CMD_BUSY then setClaimErr s .flow
  else { (s.raise R.FLOW_STATUS_CMD_BUSY) with flows := { s.flows with cmdOp := op, cmdFlow := flow } }

/-- RESULT of FLOW_CMDRES by the row of Table 2.2 (R85). -/
def flowResult (op : Nat) (st : Option Nat) : Nat :=
  match st with
  | none => 0
  | some c => if c = scInvalidField then 1 else if c = scInvalidNs then 2 else if op = 1 then 3 else 4

/-- FLOW_CMD_DONE: the operation in progress ends: the image is checked and the flow activated, or its drain begins. -/
def flowCmdDone (s : State) : State :=
  if s.flag R.FLOW_STATUS_CMD_BUSY then
    let f := s.flows.cmdFlow
    let st := if s.flows.cmdOp = 1 then bindFault s f (ctxImage s f) else unbindFault s f
    let s1 := (((s.clear R.FLOW_STATUS_CMD_BUSY).setFld R.FLOW_CMDRES_RESULT (flowResult s.flows.cmdOp st)).raise
      R.FLOW_ISR_CMDDONE)
    match st with
    | some _ => s1
    | none =>
      if s.flows.cmdOp = 1 then
        (ctxSet s1 f cxVALID 1).setFld R.FLOW_NBOUND_COUNT (s1.fld R.FLOW_NBOUND_COUNT + 1)
      else drainFlow s1 f none
  else s

/-! ### Cutting and fetching (R64 to R68, R77) -/

/-- PARCEL_CUT: the next reserved number of a flow is cut, or backpressure stands for it. -/
def cutNext (s : State) (flow : Nat) : State :=
  match s.flows.runs.find? (fun r => r.flow == flow) with
  | none => s
  | some r =>
    let len := min r.bytes (ctxParcelSize s flow)
    if blockState s .disp = stOff ∨ blockState s .disp = stEnabling then s
    else
      match cutParcel s flow r.next len r.part (.host r.cmd) with
      | some s1 =>
        let r' := { r with next := (r.next + 1) % 2 ^ 32, left := r.left - 1, part := r.part + 1, bytes := r.bytes - len }
        { s1 with flows := { s1.flows with
            runs := s1.flows.runs.filterMap (fun x => if x = r then (if r'.left = 0 then none else some r') else some x) } }
      | none =>
        match cutBlock s flow r.next len false with
        | some w => noteBlocked s flow r.next len false w
        | none => s

/-- Bytes of a parcel arrive: they are written behind those that have landed; a parcel landed whole is pushed (R67). -/
def landBytes (s : State) (p : Parcel) (bs : List Byte) : State :=
  let b := bs.take (p.len - p.got)
  let s1 := writeMem s (p.land + p.got) b none tagLocal
  let s2 := updParcel s1 p.flow p.seq (fun q => { q with got := q.got + b.length })
  if p.got + b.length = p.len then parcelLanded s2 p.flow p.seq p.len else s2

/-- PARCEL_FETCH: host data of a cut parcel arrives, within the host's rate (R68). -/
def fetchParcel (s : State) (flow seq : Nat) (bs : List Byte) : State :=
  match findParcel s flow seq with
  | none => s
  | some p =>
    match p.src, p.st with
    | .host _, .landing =>
      if s.flows.hostLimit ≤ s.flows.hostUsed then s
      else landBytes { s with flows := { s.flows with hostUsed := s.flows.hostUsed + bs.length } } p bs
    | _, _ => s

/-- DISPATCH_WAITING: a parcel that waits for a permitted tile is pushed, flows round robin (R70). -/
def dispatchWaiting (s : State) : State :=
  let fs := (s.flows.parcels.filter (fun p => p.st == .waiting && (pushTarget s p.flow).isSome)).map Parcel.flow
  let least (l : List Nat) : Option Nat :=
    l.foldl (fun b f => match b with | none => some f | some x => some (min x f)) none
  let pick := match least (fs.filter (fun f => decide (s.flows.lastServed < f))) with
    | some f => some f
    | none => least fs
  match pick with
  | none => s
  | some f =>
    match s.flows.parcels.find? (fun p => p.flow == f && p.st == .waiting) with
    | none => s
    | some p =>
      let s1 := pushParcel s f p.seq
      { s1 with flows := { s1.flows with lastServed := f } }

/-! ### Taking and stealing (R71, R72) -/

/-- PARCEL_TAKE: a tile ready for work takes the head of its own deque. -/
def parcelTake (s : State) (t : Nat) : State :=
  if tileReady s t && !tileOwesRaw s t then takeHead s t else s

/-- A tile's search state; at reset it counts as having last probed its own quad. -/
def thiefOf (s : State) (t : Nat) : Thief :=
  match s.flows.thieves.find? (fun e => e.1 == t) with
  | some e => e.2
  | none => { searching := false, backoff := false, quad := t / 4, probed := 0, lost := [], lastQuad := t / 4 }

def setThief (s : State) (t : Nat) (x : Thief) : State :=
  { s with flows := { s.flows with thieves := s.flows.thieves.filter (fun e => e.1 != t) ++ [(t, x)] } }

/-- May a tile probe now: ready, its deque empty, stealing enabled, not waiting out BACKOFF? -/
def mayProbe (s : State) (t : Nat) : Bool :=
  tileReady s t && !tileOwesRaw s t && (dequeOf s t).isEmpty && s.flag R.DISP_STEAL_STEAL_EN && !(thiefOf s t).backoff

/-- The search as its next probe finds it: a new search starts at the thief's own quad. -/
def searchOf (s : State) (t : Nat) : Thief :=
  let x := thiefOf s t
  if x.searching then x else { x with searching := true, quad := t / 4, probed := 0, lost := [] }

/-- Is a deque a candidate for a thief: STEAL_MIN parcels, the tail's flow permitting the thief, not lost before? -/
def isCandidate (s : State) (thief v : Nat) (lost : List Nat) : Bool :=
  v != thief && !lost.contains v && decide (s.fld R.DISP_STEAL_STEAL_MIN ≤ (dequeOf s v).length) &&
    (match (dequeOf s v).getLast? with
     | some x => (ctxGet s x.1 cxMASK).testBit thief
     | none => false)

/-- The candidate of highest load in a quad, a tie to the lower tile number. -/
def candidateIn (s : State) (thief quad : Nat) (lost : List Nat) : Option Nat :=
  ((List.range 4).map (fun i => quad * 4 + i)).foldl (fun best v =>
    if isCandidate s thief v lost then
      match best with
      | none => some v
      | some b => if tileLoad s b < tileLoad s v then some v else best
    else best) none

/-- The quad after one, passing over the thief's own. -/
def quadAfter (q own : Nat) : Nat := if (q + 1) % 8 = own then (q + 2) % 8 else (q + 1) % 8

/-- A probe finds no candidate: the next quad, or the end of the search after all seven others. -/
def probeFails (s : State) (t : Nat) (x : Thief) : State :=
  let own := t / 4
  if x.quad = own then setThief s t { x with quad := quadAfter x.lastQuad own, probed := 0 }
  else if 6 ≤ x.probed then
    setThief s t { x with searching := false, backoff := decide (s.fld R.DISP_STEAL_BACKOFF ≠ 0), lastQuad := x.quad, lost := [] }
  else setThief s t { x with quad := quadAfter x.quad own, probed := x.probed + 1, lastQuad := x.quad }

/-- A thief takes the tail parcel of its victim and starts on it. -/
def stealTail (s : State) (t v : Nat) (x : Thief) : State :=
  match (dequeOf s v).getLast? with
  | none => s
  | some fq =>
    let s1 := (setDeque s v (dequeOf s v).dropLast).addWrap (R.DISP_DEQ_STOLEN v) 1
    let last := if x.quad = t / 4 then x.lastQuad else x.quad
    takeHead (setDeque (setThief s1 t { x with searching := false, lastQuad := last, lost := [] }) t [fq]) t

/-- The choices of thieves whose probes end in one cycle, from the deques as they stand (R71). -/
def choices (s : State) (ts : List Nat) : List (Nat × Thief × Option Nat) :=
  (ts.filter (mayProbe s)).map (fun t => (t, searchOf s t, candidateIn s t (searchOf s t).quad (searchOf s t).lost))

/-- STEAL_PROBE: probes of some thieves end in the same cycle: of those that choose one victim the lowest-numbered gets the
parcel, and the others mark it lost and probe the same quad again (R72). -/
def stealProbe (s : State) (ts : List Nat) : State :=
  let cs := choices s ts
  cs.foldl (fun acc c =>
    match c.2.2 with
    | none => probeFails acc c.1 c.2.1
    | some v =>
      if cs.any (fun d => d.2.2 == some v && decide (d.1 < c.1)) then
        setThief acc c.1 { c.2.1 with lost := c.2.1.lost ++ [v] }
      else stealTail acc c.1 v c.2.1) s

/-- STEAL_BACKOFF_EXPIRY: the wait ends and the search starts again. -/
def backoffExpiry (s : State) (t : Nat) : State :=
  let x := thiefOf s t
  if x.backoff then setThief s t { x with backoff := false, searching := false } else s

/-! ### The commands -/

def execFlowCmdDone (s : State) : Result := .next (flowCmdDone s)
def execParcelCut (flow : Fin 262144) (s : State) : Result := .next (cutNext s flow.val)
def execParcelFetch (flow : Fin 262144) (seq : Nat) (bytes : List Byte) (s : State) : Result :=
  .next (fetchParcel s flow.val seq bytes)
def execRateMeterInterval (s : State) : Result := .next (meterInterval s)
def execDispatchWaiting (s : State) : Result := .next (dispatchWaiting s)
def execParcelTake (t : TileId) (s : State) : Result := .next (parcelTake s t.val)
def execStealProbe (thieves : List TileId) (s : State) : Result := .next (stealProbe s (thieves.map Fin.val))
def execStealBackoffExpiry (t : TileId) (s : State) : Result := .next (backoffExpiry s t.val)

end Sys2Proof.Machine
end

