-- ==== Sys2Proof/Machine/Fabric.lean ====
section
/-! DEFINITION. Sys2Proof/Machine/Fabric.lean: the Damdom commands: link timers and messages, forwarding, discovery and
routes, management requests, ingest, hallway windows and fabric time (R337 to R369). -/

namespace Sys2Proof.Machine

/-! ### Link timers -/

def execDamdomSignalDetect (p : Fin 4) (s : State) : Result :=
  .next (if lState s p = lsDetect then setLState s p lsTrain else s)

def execDamdomTrainDone (p : Fin 4) (x4 : Bool) (s : State) : Result :=
  .next (if lState s p = lsTrain then (setLState s p lsNegotiate).setFld (R.DPORT_STATUS_X4 p) (b2n x4) else s)

/-- A limit of Table 11.1 is exceeded: 50 ms in TRAIN, 1 ms in NEGOTIATE unless the offers share no version (R345). -/
def execDamdomStateTimeout (p : Fin 4) (s : State) : Result :=
  .next (if lState s p = lsTrain ∨ (lState s p = lsNegotiate ∧ ¬ s.flag (R.DPORT_STATUS_NOVER p)) then leaveLink s p lsDown else s)

def execDamdomRetryWait (p : Fin 4) (s : State) : Result :=
  .next (if s.flag (R.DPORT_CTRL_EN p) then portEnabled s p else s)

def execFlitReceive (p : Fin 4) (fl : List Byte) (s : State) : Result := .next (flitReceive s p fl)

def execNakRepeat (p : Fin 4) (s : State) : Result := .next (if (portOf s p).missing then sendNak s p else s)

/-- A flit carrying ACK (R341), and the credits that have become free to return (R343). -/
def execAckTimer (p : Fin 4) (s : State) : Result :=
  .next (if lState s p = lsActive then
    returnCredits (linkOut s p [mkFlit ftIdle 0 0 (ackNow (portOf s p)) []]) p else s)

def execReplayTimeout (p : Fin 4) (s : State) : Result :=
  .next (if lState s p = lsActive ∧ (portOf s p).replay ≠ [] then resend s p ((portOf s p).replay.map Prod.snd) else s)

def execHello (p : Fin 4) (s : State) : Result :=
  .next (match takeLink s p 0 with | some (m, s1) => helloReceived s1 p m | none => s)

def execHelloTimer (p : Fin 4) (s : State) : Result := .next (helloTimer s p)

def execHelloTimeout (p : Fin 4) (s : State) : Result :=
  .next (if lState s p = lsActive then leaveLink s p lsTrain else s)

def execNak (p : Fin 4) (s : State) : Result :=
  .next (match takeLink s p 1 with | some (m, s1) => nakReceived s1 p (leAt m 2 2 % 4096) | none => s)

/-- CREDIT (Table 11.3): credits for VC0 to VC2; VC3 carries no frames. -/
def execCredit (p : Fin 4) (s : State) : Result :=
  .next (match takeLink s p 2 with
    | some (m, s1) =>
      let x := portOf s1 p
      pumpPort (setPort s1 p { x with credit := (List.range 3).map (fun vc => x.credit.getD vc 0 + leAt m (2 + 2 * vc) 2) }) p
    | none => s)

def execDown (p : Fin 4) (s : State) : Result :=
  .next (match takeLink s p 5 with | some (_, s1) => leaveLink s1 p lsDown | none => s)

/-! ### Frames at the head of a port's buffers -/

/-- The virtual channel whose oldest frame satisfies a test. -/
def headVc (s : State) (p : Nat) (ok : Frame → Bool) : Option (Nat × Frame) :=
  (List.range 3).foldl (fun (r : Option (Nat × Frame)) vc =>
    match r with
    | some x => some x
    | none => match headFrame s p vc with | some f => if ok f then some (vc, f) else none | none => none) none

/-- Take the oldest frame of a kind addressed to this node, and act on it. While FAB is not ON a frame on VC0 or VC2 is
discarded and counted in FAB_NOROUTE. -/
def onFrame (s : State) (p : Nat) (ok : Frame → Bool) (act : State → Frame → State) : State :=
  match headVc s p (fun f => ok f && forUs s f) with
  | none => s
  | some (vc, f) =>
    let s1 := popFrame s p vc
    if vc ≠ 1 ∧ ¬ blockOn s .fab then s1.addWrap R.FAB_NOROUTE_COUNT 1 else act s1 f

def isKind (k : Nat) (f : Frame) : Bool := f.kind == k

/-- The answer status of a hallway request (R361). -/
def hkOk : Nat := 0
def hkNotOwner : Nat := 1
def hkBadWin : Nat := 2
def hkRange : Nat := 3
def hkFenced : Nat := 4
def hkVersion : Nat := 5
def hkNoRead : Nat := 6

/-- The answer to a hallway request with a status and no data: HACK, or HRDATA to an HRD; a HWR without ACKREQ has none. -/
def hallwayAnswer (s : State) (p : Nat) (f : Frame) (st : Nat) : State :=
  if f.kind = 0x20 then
    if bitOf f.arg0 60 then replyTo s p f 0x24 (bitsOf f.arg0 44 16 + 2 ^ 16 * st) 0 [] else s
  else if f.kind = 0x21 then replyTo s p f 0x22 (bitsOf f.arg0 44 16 + 2 ^ 16 * st) 0 []
  else if f.kind = 0x23 then replyTo s p f 0x24 (bitsOf f.arg0 28 16 + 2 ^ 16 * st) 0 []
  else s

/-! ### Forwarding (R351, R353, R367) -/

/-- Send a frame on out of a port; a KIND above the egress link's version is dropped, counted and, where R367 says so,
answered. -/
def passOn (s : State) (p vc q : Nat) (f : Frame) : State :=
  if s.fld (R.DPORT_STATUS_VER q) ≠ 0 ∧ s.fld (R.DPORT_STATUS_VER q) < kindVersion f.kind then
    hallwayAnswer ((s.addWrap (R.DPORT_VERDROP_COUNT q) 1).raise (R.DPORT_ISR_VERDROP q)) p f hkVersion
  else sendOn s q vc f

/-- FRAME_FORWARD: the oldest frame of a VC that is not for this node. -/
def frameForward (s : State) (p vc : Nat) : State :=
  match headFrame s p vc with
  | none => s
  | some f =>
    if forUs s f then s
    else
      let s1 := popFrame s p vc
      if isFenced s ∧ vc ≠ 0 then s1
      else if f.dst = dstDirected then
        let i := pathIndex f.arg1
        if pathHops f.arg1 < i ∨ 20 ≤ i then s1
        else
          sendOn s1 (pathPort f.arg1 i) vc { f with
            arg0 := f.arg0 - pathPort f.arg0 i * 2 ^ (2 * i) + p * 2 ^ (2 * i), arg1 := f.arg1 + 2 ^ 45 }
      else if ¬ isAssigned s then s1
      else if f.ttl ≤ 1 then s1.addWrap R.FAB_TTLERR_COUNT 1
      else
        match routeOf s f.dst with
        | none => s1.addWrap R.FAB_NOROUTE_COUNT 1
        | some q =>
          if q = p then s1.addWrap R.FAB_NOROUTE_COUNT 1 else passOn s1 p vc q { f with ttl := f.ttl - 1 }

def execFrameForward (p : Fin 4) (vc : Fin 3) (s : State) : Result := .next (frameForward s p vc)

/-- FRAME_KIND_UNDEFINED (R349). -/
def kindDefined (k : Nat) : Bool :=
  (decide (1 ≤ k) && decide (k ≤ 7)) || (decide (0x10 ≤ k) && decide (k ≤ 0x12)) || (decide (0x20 ≤ k) && decide (k ≤ 0x25))

def execFrameKindUndefined (p : Fin 4) (s : State) : Result :=
  .next (match headVc s p (fun f => !kindDefined f.kind && forUs s f) with
    | some (vc, _) => frameErr (popFrame s p vc) p
    | none => s)

/-! ### Discovery (R351 to R354) -/

/-- The node record (Table 11.7). -/
def nodeRecord (s : State) : List Byte :=
  let offers := (List.range 4).foldl (fun n p => n ||| s.fld (R.DPORT_CTRL_VOFFER p)) 0
  let peer (p : Nat) : Nat :=
    if lState s p = lsActive then s.fld (R.DPORT_PEERUIDLO_UID p) + 2 ^ 32 * s.fld (R.DPORT_PEERUIDHI_UID p) else 0
  leBytes 8 s.fuses.uid ++ leBytes 2 0x3224 ++ leBytes 1 offers ++ [4] ++ leBytes 1 (mySegment s) ++
    leBytes 1 (b2n (cfgSegMgr s) + 2 * b2n (cfgTMaster s)) ++ leBytes 2 (myAddr s) ++
    (List.range 4).flatMap (fun p => leBytes 8 (peer p)) ++ (fabHash s).take 8 ++ List.replicate 8 0

def recUid (r : List Byte) : Nat := leAt r 0 8
def recSeg (r : List Byte) : Nat := leAt r 0x0C 1
def recMgr (r : List Byte) : Bool := bitOf (leAt r 0x0D 1) 0
def recPeer (r : List Byte) (q : Nat) : Nat := leAt r (0x10 + 8 * q) 8

/-- Put a route table in force: 4,096 entries of one byte (R353). -/
def loadRoutes (s : State) (bs : List Byte) : State :=
  let lo := (R.FAB_ROUTE_PORT 0).key
  let hi := (R.FAB_ROUTE_PORT 4096).key
  let s1 := { s with regs := tblKeep (fun k => decide (k < lo) || decide (hi ≤ k)) s.regs }
  (bs.take 4096).zipIdx.foldl (fun (acc : State) (e : Byte × Nat) =>
    if e.1 = 0 then acc
    else acc.setFlds [(R.FAB_ROUTE_PORT e.2, e.1.toNat), (R.FAB_ROUTE_VALID e.2, e.1.toNat / 4)]) s1

/-- Leave the assigned state (R354): every route entry is cleared. -/
def leaveAssigned (s : State) : State :=
  (loadRoutes s []).setFlds [(R.FAB_STATUS_ASSIGNED, 0), (R.FAB_ADDR_ADDR, 0xFFFF)]

/-- The fence of R367: a hash in ASSIGN that differs from the node's own applies it, an equal one lifts it. -/
def fenceCheck (s : State) (hash : List Byte) : State :=
  if hash ≠ fabHash s then (if isFenced s then s else (s.raise R.FAB_STATUS_FENCED).raise R.FAB_ISR_FENCED)
  else if isFenced s then (s.clear R.FAB_STATUS_FENCED).raise R.FAB_ISR_UNFENCED
  else s

/-- ASSIGN (R352, R367): the address waits for its ROUTES. -/
def assignReceived (s : State) (f : Frame) : State :=
  let s1 := leaveAssigned s
  let hash := (f.data.drop 4).take 32
  fenceCheck { s1 with fab := { s1.fab with assign := some (leAt f.data 0 2), mgr := f.src, mgrHash := hash } } hash

/-- Enter the assigned state. -/
def enterAssigned (s : State) (addr : Nat) : State :=
  (({ s with fab := { s.fab with assign := none } }).setFlds [(R.FAB_ADDR_ADDR, addr), (R.FAB_STATUS_ASSIGNED, 1)]).raise
    R.FAB_ISR_ASSIGNED

/-- ROUTES. -/
def routesReceived (s : State) (f : Frame) : State :=
  let s1 := loadRoutes s f.data
  match s.fab.assign with
  | some a => enterAssigned s1 a
  | none => s1

/-- Send a probe along a path. -/
def probeOne (s : State) (path : List Nat) : State := sendDirected s path 0x01 []

/-- The probes that a recorded node calls for: each port with a peer not yet recorded, within 20 hops; a boundary node is
not probed through. -/
def probesFrom (s : State) (nodes : List (List Nat × List Byte)) (path : List Nat) (r : List Byte) : List (List Nat) :=
  if recSeg r ≠ mySegment s ∨ 20 ≤ path.length then []
  else
    (List.range 4).filterMap (fun q =>
      if recPeer r q ≠ 0 ∧ ¬ nodes.any (fun n => recUid n.2 == recPeer r q) then some (path ++ [q]) else none)

/-- Insert a node by UID. -/
def uidInsert (n : List Nat × List Byte) : List (List Nat × List Byte) → List (List Nat × List Byte)
  | [] => [n]
  | x :: xs => if recUid n.2 ≤ recUid x.2 then n :: x :: xs else x :: uidInsert n xs

/-- The device number the device map lists for a UID (Table 11.11). -/
def mapNumber (s : State) (uid : Nat) : Option Nat :=
  ((List.range (leAt s.fab.shared 2 1)).find? (fun i => leAt s.fab.shared (0x10 + 16 * i) 8 == uid)).map
    (fun i => leAt s.fab.shared (0x18 + 16 * i) 1)

/-- Number the nodes of the segment (R352): UID and device number. -/
def numberNodes (s : State) (ns : List (List Nat × List Byte)) : List (Nat × Nat) :=
  let listed := ns.filterMap (fun n => (mapNumber s (recUid n.2)).map (fun d => (recUid n.2, d)))
  ns.foldl (fun (acc : List (Nat × Nat)) n =>
    if acc.any (fun e => e.1 == recUid n.2) then acc
    else
      match (List.range 64).find? (fun d => !acc.any (fun e => e.2 == d)) with
      | some d => acc ++ [(recUid n.2, d)]
      | none => acc) listed

/-- Distances in hops to one node over the segment's links, by UID. -/
def hopsTo (rs : List (List Byte)) (ds : List (Nat × Nat)) : Nat → List (Nat × Nat)
  | 0 => ds
  | n + 1 =>
    let next := rs.filterMap (fun r =>
      if ds.any (fun e => e.1 == recUid r) then none
      else
        (List.range 4).foldl (fun (b : Option (Nat × Nat)) q =>
          match ds.find? (fun e => e.1 == recPeer r q && recPeer r q != 0) with
          | some e => (match b with | some x => if e.2 + 1 < x.2 then some (recUid r, e.2 + 1) else b
                                    | none => some (recUid r, e.2 + 1))
          | none => b) none)
    if next = [] then ds else hopsTo rs (ds ++ next) n

/-- The egress port of a node toward another along a shortest path; a tie goes to the lower port (R353). -/
def egressTo (rs : List (List Byte)) (r : List Byte) (dst : Nat) : Option Nat :=
  let ds := hopsTo rs [(dst, 0)] 64
  ((List.range 4).foldl (fun (b : Option (Nat × Nat)) q =>
    match ds.find? (fun e => e.1 == recPeer r q && recPeer r q != 0) with
    | some e => (match b with | some x => if e.2 < x.2 then some (q, e.2) else b | none => some (q, e.2))
    | none => b) none).map Prod.fst

/-- The route byte of an egress port. -/
def routeByte (q : Option Nat) : Byte := match q with | some p => BitVec.ofNat 8 (p % 4 + 4) | none => 0

/-- The route table the manager gives a node (R353). -/
def routeTable (s : State) (rs : List (List Byte)) (nums : List (Nat × Nat)) (r : List Byte) : List Byte :=
  let seg := mySegment s
  let toDev (d : Nat) : Option Nat :=
    match nums.find? (fun e => e.2 == d) with
    | some e => if e.1 = recUid r then none else egressTo rs r e.1
    | none => none
  let own := (List.range 64).map (fun d => routeByte (toDev d))
  let base := 0x10 + 16 * leAt s.fab.shared 2 1
  let segRoute (g : Nat) : Byte :=
    match (List.range (leAt s.fab.shared 3 1)).find? (fun i => leAt s.fab.shared (base + 4 * i) 1 == g) with
    | none => 0
    | some i =>
      let bdev := leAt s.fab.shared (base + 4 * i + 1) 1
      if nums.any (fun e => e.1 == recUid r && e.2 == bdev) then routeByte (some (leAt s.fab.shared (base + 4 * i + 2) 1))
      else routeByte (toDev bdev)
  (List.range 64).flatMap (fun g => if g = seg then own else List.replicate 64 (segRoute g))

/-- Discovery has ended (R352): numbers are assigned, and each node gets ASSIGN and then ROUTES. -/
def discFinish (s : State) (nodes : List (List Nat × List Byte)) : State :=
  let mine := (nodes.filter (fun n => recSeg n.2 == mySegment s)).foldr uidInsert []
  let nums := numberNodes s mine
  let rs := mine.map Prod.snd
  let s0 := { s with fab := { s.fab with disc := none } }
  let s1 := if nums.length < mine.length then s0.raise R.FAB_ISR_SEGFULL else s0
  mine.foldl (fun acc n =>
    match nums.find? (fun e => e.1 == recUid n.2) with
    | none => acc
    | some e =>
      let addr := mySegment s * 64 + e.2
      let tab := routeTable s rs nums n.2
      if n.1 = [] then enterAssigned (loadRoutes acc tab) addr
      else
        sendDirected (sendDirected acc n.1 0x03 (leBytes 2 addr ++ [0, 0] ++ fabHash s)) n.1 0x04 tab) s1

/-- SEGMENT_DISCOVERY: the manager starts outwards from its own ports. -/
def discStart (s : State) : State :=
  if ¬ isManager s ∨ ¬ blockOn s .fab then s
  else
    let own := nodeRecord s
    let ps := probesFrom s [([], own)] [] own
    if ps = [] then discFinish s [([], own)]
    else ps.foldl probeOne { s with fab := { s.fab with disc := some ⟨[([], own)], ps⟩ } }

/-- The path of a probe from its answer, arrived at port `p`. -/
def probePath (f : Frame) (p : Nat) : List Nat := reversePath f p

/-- PROBE_REPLY (R352): the node is recorded, and its peers probed; the lower UID of two managers manages (R367). -/
def probeReply (s : State) (p : Nat) (f : Frame) : State :=
  match s.fab.disc with
  | none => s
  | some d =>
    let path := probePath f p
    let r := f.data
    let wait := d.wait.erase path
    let known := d.nodes.any (fun n => recUid n.2 == recUid r)
    let nodes := if known then d.nodes else d.nodes ++ [(path, r)]
    if recMgr r && recSeg r == mySegment s && decide (recUid r < s.fuses.uid) then
      let s1 := { s with fab := { s.fab with disc := none } }
      ((s1.clear R.FAB_STATUS_MANAGER).raise R.FAB_STATUS_MGRCONF).raise R.FAB_ISR_CONFLICT
    else
      let more := if known then [] else probesFrom s nodes path r
      if wait = [] ∧ more = [] then discFinish s nodes
      else more.foldl probeOne { s with fab := { s.fab with disc := some ⟨nodes, wait ++ more⟩ } }

/-- The answer to a PROBE, along the reverse path (R351). -/
def probeAnswer (s : State) (p : Nat) (f : Frame) : State :=
  if f.dst = dstDirected then sendDirected s (reversePath f p) 0x02 (nodeRecord s) else replyTo s p f 0x02 0 0 (nodeRecord s)

def execProbe (p : Fin 4) (s : State) : Result := .next (onFrame s p (isKind 0x01) (fun t f => probeAnswer t p f))
def execProbeReply (p : Fin 4) (s : State) : Result := .next (onFrame s p (isKind 0x02) (fun t f => probeReply t p f))
def execAssign (p : Fin 4) (s : State) : Result := .next (onFrame s p (isKind 0x03) assignReceived)
def execRoutes (p : Fin 4) (s : State) : Result := .next (onFrame s p (isKind 0x04) routesReceived)
def execEvent (p : Fin 4) (s : State) : Result := .next (onFrame s p (isKind 0x07) (fun t _ => discStart t))
def execSegmentDiscovery (s : State) : Result := .next (discStart s)

/-! ### Management requests (R369) -/

/-- An MREQ with a code that satisfies a test. -/
def isMreq (ok : Nat → Bool) (f : Frame) : Bool := f.kind == 0x05 && ok (bitsOf f.arg0 0 8)

/-- The answer to an MREQ. -/
def mresp (s : State) (p : Nat) (f : Frame) (st : Nat) (data : List Byte) : State :=
  replyTo s p f 0x06 (st + bitsOf f.arg0 8 16 * 256) 0 data

def execMresp (p : Fin 4) (s : State) : Result := .next (onFrame s p (isKind 0x06) (fun t _ => t))

def execMreqIdent (p : Fin 4) (s : State) : Result :=
  .next (onFrame s p (isMreq (· == 0x01)) (fun t f => mresp t p f 0 (nodeRecord t)))

/-- LOG: up to 4,096 bytes of page 0xC0, 0xC2, 0xC3 or 0xC4; any other page, or an offset not a multiple of 4 or beyond the
page, is a bad argument. -/
def mreqLog (s : State) (p : Nat) (f : Frame) : State :=
  let page := bitsOf f.arg1 0 8
  let off := bitsOf f.arg1 8 32
  if ¬ (page = 0xC0 ∨ page = 0xC2 ∨ page = 0xC3 ∨ page = 0xC4) ∨ off % 4 ≠ 0 ∨ (pageLen s page).getD 0 ≤ off then mresp s p f 3 []
  else
    let r := fillPage s (vendorPage s page off 4096)
    mresp r.2 p f 0 r.1

def execMreqLog (p : Fin 4) (s : State) : Result := .next (onFrame s p (isMreq (· == 0x02)) (fun t f => mreqLog t p f))

def execMreqFlowq (p : Fin 4) (s : State) : Result :=
  .next (onFrame s p (isMreq (· == 0x03)) (fun t f =>
    if 2 ^ 18 ≤ f.arg1 then mresp t p f 3 [] else mresp t p f 0 (t.memBytes (ctxAddr f.arg1) 64)))

def execMreqTimeq (p : Fin 4) (dt : Nat) (s : State) : Result :=
  .next (onFrame s p (isMreq (· == 0x04)) (fun t f => let u := timePass t dt; mresp u p f 0 (leBytes 8 (timestamp u))))

/-- The 64 entries of HWLIST. -/
def hwList (s : State) : List Byte :=
  (List.range 64).flatMap (fun n =>
    match s.hwWins.find? (fun w => w.id == n) with
    | some w => leBytes 4 (n + 64 + 128 * b2n w.rdall) ++ leBytes 4 w.slots
    | none => leBytes 8 n)

def execMreqHwlist (p : Fin 4) (s : State) : Result :=
  .next (onFrame s p (isMreq (· == 0x05)) (fun t f => mresp t p f 0 (hwList t)))

def execMreqUndefined (p : Fin 4) (s : State) : Result :=
  .next (onFrame s p (isMreq (fun c => c == 0 || decide (5 < c))) (fun t f => mresp t p f 1 []))

/-! ### Ingest (R355 to R357) -/

/-- REPLY statuses (Table 11.8). -/
def rpAccept : Nat := 0
def rpRetry : Nat := 1
def rpStop : Nat := 2
def rpRefused : Nat := 3
def rpFenced : Nat := 4

/-- A REPLY to an OPEN; at version 3 it carries the time of the OPEN's arrival. -/
def openReply (s : State) (p : Nat) (f : Frame) (st reason seq : Nat) : State :=
  replyTo s p f 0x12 (bitsOf f.arg0 32 16 + 2 ^ 16 * st + 2 ^ 20 * reason) seq
    (if s.fld (R.DPORT_STATUS_VER p) = 3 then leBytes 8 (timestamp s) else [])

/-- A malformed parcel is counted (R65). -/
def badDecl (s : State) : State := (s.addWrap R.DISP_BADDECL_COUNT 1).raise R.DISP_ISR_BADDECL

/-- The pair of a port and a flow becomes held (R356). -/
def holdPair (s : State) (p flow : Nat) : State :=
  let x := portOf s p
  setPort s p { x with held := if x.held.contains flow then x.held else x.held ++ [flow] }

/-- A parcel that cannot be cut: its backpressure stands (R77). -/
def blockOpen (s : State) (flow seq len : Nat) : State :=
  match cutBlock s flow seq len true with
  | some w => noteBlocked s flow seq len true w
  | none => s

/-- OPEN (R355): the conditions in their order. -/
def openFrame (s : State) (p : Nat) (f : Frame) : State :=
  let flow := bitsOf f.arg0 0 18
  let ph := bitsOf f.arg0 32 16
  let len := bitsOf f.arg1 0 32
  let x := portOf s p
  if isFenced s then openReply s p f rpFenced 0 0
  else if x.held.contains flow ∧ ¬ bitOf f.arg0 48 then openReply s p f rpRetry 0 0
  else
    let s1 := setPort s p { x with held := x.held.erase flow }
    if len = 0 ∨ len % 4096 ≠ 0 then openReply (badDecl s1) p f rpRefused 0 0
    else if ¬ ctxBound s flow ∨ ctxDraining s flow then openReply (badDecl s1) p f rpRefused 1 0
    else if ctxGet s flow cxFABIN = 0 then openReply (badDecl s1) p f rpRefused 2 0
    else if ctxParcelSize s flow < len then openReply (badDecl s1) p f rpRefused 0 0
    else if ctxStopped s flow then openReply s1 p f rpStop 0 0
    else
      let seq := ctxGet s flow cxNEXT
      if 256 ≤ x.opens.length ∨ ¬ blockOn s .disp ∨ ¬ blockOn s (.dport (Fin.ofNat 4 p)) then
        openReply (holdPair s1 p flow) p f rpRetry 0 0
      else
        match cutParcel s1 flow seq len 0 .fab with
        | none => openReply (blockOpen (holdPair s1 p flow) flow seq len) p f rpRetry 0 0
        | some s2 =>
          let s3 := ctxSet s2 flow cxNEXT (seq + 1)
          let y := portOf s3 p
          openReply (setPort s3 p { y with opens := y.opens ++ [⟨ph, flow, seq, false, false⟩] }) p f rpAccept 0 seq

/-- OPEN arrives `dt` ns after the node's last time event. -/
def execOpenFrame (p : Fin 4) (dt : Nat) (s : State) : Result :=
  .next (onFrame s p (isKind 0x10) (fun t f => openFrame (timePass t dt) p f))

/-- The parcel of an open entry that still lands. -/
def landingParcel (s : State) (o : OpenParcel) : Option Parcel :=
  match findParcel s o.flow o.seq with
  | some q => if q.st = .landing ∧ q.src = .fab then some q else none
  | none => none

/-- DATA (R357, R84): appended to its open parcel up to the declared length; LAST releases the handle. -/
def dataFrame (s : State) (p : Nat) (f : Frame) : State :=
  let ph := bitsOf f.arg0 0 16
  match (portOf s p).opens.find? (fun o => o.ph == ph) with
  | none => (s.addWrap (R.DPORT_ORPHAN_COUNT p) 1).raise (R.DPORT_ISR_ORPHAN p)
  | some o =>
    let n := f.data.length
    let r := match landingParcel s o with
      | some q =>
        let room := q.len - q.got
        ((if n = 0 then s else
          landBytes { s with flows := { s.flows with fabUsed := s.flows.fabUsed + n } } q (f.data.take room)),
          decide (room ≤ n), decide (room < n))
      | none => (s, o.closed, o.closed && decide (0 < n))
    let s1 := if r.2.2 ∧ ¬ o.long then (ctxAdd r.1 o.flow cxLONG 1).raise R.DISP_ISR_LONG else r.1
    let o' : OpenParcel := { o with closed := o.closed || r.2.1, long := o.long || r.2.2 }
    let y := portOf s1 p
    if bitOf f.arg0 16 then
      shortParcel (setPort s1 p { y with opens := y.opens.erase o }) o.flow o.seq
    else setPort s1 p { y with opens := y.opens.map (fun z => if z = o then o' else z) }

/-- DATA waits while Damdom ingest has used its share of the interval (R68); a fenced node discards it (R367). -/
def execData (p : Fin 4) (s : State) : Result :=
  .next (if s.flows.fabLimit ≤ s.flows.fabUsed ∧ ¬ isFenced s then s
    else onFrame s p (isKind 0x11) (fun t f => if isFenced t then t else dataFrame t p f))

/-- GAP_TIMEOUT (R84, R357): no frame of an open parcel for DISP_GAPTO; with data still due it is short, and its handle is
released. -/
def gapTimeout (s : State) (flow seq : Nat) : State :=
  if s.fld R.DISP_GAPTO_GAP = 0 then s else
  match (List.range 4).find? (fun p => (portOf s p).opens.any (fun o => o.flow == flow && o.seq == seq)) with
  | none => s
  | some p =>
    let x := portOf s p
    shortParcel (setPort s p { x with opens := x.opens.filter (fun o => !(o.flow == flow && o.seq == seq)) }) flow seq

def execGapTimeout (flow : Fin 262144) (seq : Nat) (s : State) : Result := .next (gapTimeout s flow seq)

/-! ### Hallway windows (R358 to R361) -/

def findWin (s : State) (n : Nat) : Option HwWin := s.hwWins.find? (fun w => w.id == n)

/-- Does an access break R359: OFFSET or length not a multiple of 8, length 0 or above 4,096, beyond its slot or the
window? -/
def hwRangeBad (w : HwWin) (off len : Nat) : Bool :=
  off % 8 != 0 || len % 8 != 0 || len == 0 || decide (4096 < len) || off / 0x10000 != (off + len - 1) / 0x10000 ||
    decide (0x10000 * w.slots < off + len)

/-- HWR (R359). -/
def hwrFrame (s : State) (p : Nat) (f : Frame) : State :=
  let off := bitsOf f.arg0 8 36
  if isFenced s then hallwayAnswer s p f hkFenced
  else
    match findWin s (bitsOf f.arg0 0 6) with
    | none => hallwayAnswer s p f hkBadWin
    | some w =>
      if hwRangeBad w off f.data.length then hallwayAnswer s p f hkRange
      else if slotTag s w (off / 0x10000) ≠ tagPeer f.src then
        hallwayAnswer ((s.addWrap R.FAB_HWDROP_COUNT 1).raise R.FAB_ISR_HWDROP) p f hkNotOwner
      else hallwayAnswer (writeRam s (w.base + off) f.data none) p f hkOk

/-- HRD (R359): to the owner, or to anyone where RDALL is 1. -/
def hrdFrame (s : State) (p : Nat) (f : Frame) : State :=
  let off := bitsOf f.arg0 8 36
  let len := bitsOf f.arg1 0 13
  if isFenced s then hallwayAnswer s p f hkFenced
  else
    match findWin s (bitsOf f.arg0 0 6) with
    | none => hallwayAnswer s p f hkBadWin
    | some w =>
      if hwRangeBad w off len then hallwayAnswer s p f hkRange
      else if ¬ w.rdall ∧ slotTag s w (off / 0x10000) ≠ tagPeer f.src then hallwayAnswer s p f hkNoRead
      else
        let r := readRam s (w.base + off) len
        replyTo r.2.1 p f 0x22 (bitsOf f.arg0 44 16) 0 r.1

/-- Is a new tag refused with RANGE (R360): KIND 3, or KIND 2 with a PEER that is no assigned address? -/
def tagBad (t : Nat) : Bool := t % 4 == 3 || (t % 4 == 2 && badAddr (t / 0x10000))

/-- Pass a slot to a new owner; a peer that gets it is told by HOWNED (R360). -/
def passSlot (s : State) (w : HwWin) (slot tag : Nat) : State :=
  let s1 := (writeRam s (w.tagBase + 4 * slot) (leBytes 4 tag) none).raise R.FAB_ISR_TAGCHG
  if tag % 4 = 2 then sendTo s1 (tag / 0x10000) 0x25 (w.id + slot * 256) 0 [] else s1

/-- HTAG (R360): always answered. -/
def htagFrame (s : State) (p : Nat) (f : Frame) : State :=
  let slot := bitsOf f.arg0 8 20
  let tag := bitsOf f.arg1 0 32
  if isFenced s then hallwayAnswer s p f hkFenced
  else
    match findWin s (bitsOf f.arg0 0 6) with
    | none => hallwayAnswer s p f hkBadWin
    | some w =>
      if w.slots ≤ slot then hallwayAnswer s p f hkRange
      else if slotTag s w slot ≠ tagPeer f.src then hallwayAnswer s p f hkNotOwner
      else if tagBad tag then hallwayAnswer s p f hkRange
      else hallwayAnswer (passSlot s w slot tag) p f hkOk

def execHwr (p : Fin 4) (s : State) : Result := .next (onFrame s p (isKind 0x20) (fun t f => hwrFrame t p f))
def execHrd (p : Fin 4) (s : State) : Result := .next (onFrame s p (isKind 0x21) (fun t f => hrdFrame t p f))
def execHtag (p : Fin 4) (s : State) : Result := .next (onFrame s p (isKind 0x23) (fun t f => htagFrame t p f))

/-- GO of FAB_HWTAG: a tag write by the local owner. -/
def hwTagGo (s : State) (win slot : Nat) : State :=
  let tag := s.fld R.FAB_HWNEW_TAG
  if ¬ blockOn s .fab then setClaimErr s .fab
  else
    match findWin s win with
    | none => s.setFld R.FAB_HWTAG_RESULT 2
    | some w =>
      if w.slots ≤ slot then s.setFld R.FAB_HWTAG_RESULT 2
      else if slotTag s w slot ≠ tagLocal then s.setFld R.FAB_HWTAG_RESULT 1
      else if tagBad tag then s.setFld R.FAB_HWTAG_RESULT 2
      else (passSlot s w slot tag).setFld R.FAB_HWTAG_RESULT 0

/-! ### Fabric time (R362 to R365) -/

/-- A write of FAB_TIMESETHI sets fabric time on a master. -/
def timeSet (s : State) : State :=
  if s.flag R.FAB_STATUS_MASTER then
    { s with fab := { s.fab with
        time := (s.fld R.FAB_TIMESETLO_SET + 2 ^ 32 * s.fld R.FAB_TIMESETHI_SET) % 2 ^ 63 } }
  else s

/-- TIME_EXCHANGE_TIMER (R363): TREQ on the upstream port. -/
def timeExchange (s0 : State) (dt : Nat) : State :=
  let s := timePass s0 dt
  match upstream s with
  | none => s
  | some p =>
    if lState s p ≠ lsActive ∨ ¬ blockOn s .fab then s
    else
      let t1 := s.fab.time
      sendLink (setPort s p { portOf s p with t1 := some t1 }) p 3 (List.replicate 3 0 ++ leBytes 8 t1)

/-- TREQ: recorded at t2 and answered at t3, on a link of version 3. -/
def treqReceived (s : State) (p : Nat) (m : List Byte) (dt2 dt3 : Nat) : State :=
  if s.fld (R.DPORT_STATUS_VER p) ≠ 3 ∨ ¬ blockOn s .fab then s
  else
    let a := timePass s dt2
    let b := timePass a dt3
    sendLink b p 4 (List.replicate 3 0 ++ leBytes 8 (leAt m 4 8) ++ leBytes 8 a.fab.time ++ leBytes 8 b.fab.time ++
      [BitVec.ofNat 8 (b.fld R.FAB_STATUS_UNSYNC)])

/-- A signed number held at 32 bits. -/
def clamp32 (i : Int) : Int := if i < -2147483648 then -2147483648 else if 2147483647 < i then 2147483647 else i

/-- TRSP (R363, R365): the exchange completes; the node steps or trims its time. -/
def trspReceived (s0 : State) (p : Nat) (m : List Byte) (dt : Nat) : State :=
  let s := timePass s0 dt
  let t1 := leAt m 4 8
  if upstream s ≠ some p ∨ (portOf s p).t1 ≠ some t1 ∨ ¬ blockOn s .fab then s
  else
    let off : Int := Int.tdiv (((leAt m 12 8 : Int) - t1) - ((s.fab.time : Int) - leAt m 20 8)) 2
    let per : Int := leAt s.fab.shared 4 2
    let big := decide (100 < off.natAbs)
    let step := decide (1000 ≤ off.natAbs)
    let s1 := (setPort s p { portOf s p with t1 := none }).addWrap R.FAB_TSTAT_EXCH 1
    let s2 := s1.setFld R.FAB_TOFF_OFFSET (unsignedOf (clamp32 off) 32)
    let lim := per * 200 / 1000
    syncUpdate { s2 with fab := { s2.fab with
      time := if step then unsignedOf ((s2.fab.time : Int) + off) 63 else s2.fab.time,
      trim := if step then 0 else max (-lim) (min lim off),
      good := if big then 0 else s2.fab.good + 1,
      stepped := if step then 4 else s2.fab.stepped - 1,
      bigOff := big, stale := false, upUnsync := bitOf (leAt m 28 1) 0 } }

/-- TIME_EXCHANGE_STALE (R365). -/
def timeStale (s : State) : State :=
  match upstream s with
  | none => s
  | some _ => syncUpdate { s with fab := { s.fab with stale := true, good := 0 } }

def execTreq (p : Fin 4) (dt2 dt3 : Nat) (s : State) : Result :=
  .next (match takeLink s p 3 with | some (m, s1) => treqReceived s1 p m dt2 dt3 | none => s)

def execTrsp (p : Fin 4) (dt : Nat) (s : State) : Result :=
  .next (match takeLink s p 4 with | some (m, s1) => trspReceived s1 p m dt | none => s)

def execTimeExchangeTimer (dt : Nat) (s : State) : Result := .next (timeExchange s dt)
def execTimeExchangeStale (s : State) : Result := .next (timeStale s)

end Sys2Proof.Machine
end

