-- ==== Sys2Proof/Machine/Therm.lean ====
section
/-! DEFINITION. Sys2Proof/Machine/Therm.lean: thermal control (R468 to R472), the shared pins (R473), and the commands of
hold-up, thermal control and pins. -/

namespace Sys2Proof.Machine

/-! ### Temperature channels and the program window (R468, R470) -/

/-- A temperature channel's TEMP in 1/16 °C. -/
def chanTemp (s : State) (n : Nat) : Int := signedOf (s.fld (R.THERM_CH_CFG_TEMP n)) 16

/-- The personality of a NAND channel's LUNs. -/
def chanPers (s : State) (c : Nat) : Option Pers := tblGet none s.media.pers (s.fld (R.NAND_STATUS_PSLOT c))

/-- A channel enters, leaves or keeps the program window of a NAND channel it covers (R470). -/
def windowStep (p : Pers) (hyst : Nat) (t : Int) (was : Bool) : Bool :=
  if t < 16 * p.ptMin ∨ 16 * p.ptMax < t then false
  else if 16 * (p.ptMin + hyst) ≤ t ∧ t ≤ 16 * (p.ptMax - hyst) then true
  else was

/-- The windows of the NAND channels that temperature channel `n` covers, after a reading. -/
def chanWindows (s : State) (n : Nat) : State :=
  if s.fld (R.THERM_CH_CFG_ROLE n) ≠ 1 then s
  else
    (List.range 32).foldl (fun acc c =>
      if (s.fld (R.THERM_CH_MASK_MASK n)).testBit c then
        match chanPers acc c with
        | none => acc
        | some p =>
          let k := n * 32 + c
          let w := windowStep p (s.fld R.THERM_WCFG_HYST) (chanTemp acc n) (tblGet false acc.therm.inWin k)
          { acc with therm := { acc.therm with inWin := tblSet false acc.therm.inWin k w } }
      else acc) s

/-- A channel faults, with its event. -/
def chanFault (s : State) (n : Nat) : State :=
  if (s.fld R.THERM_STATUS_CHFAULT).testBit n then s
  else (s.setFld R.THERM_STATUS_CHFAULT (s.fld R.THERM_STATUS_CHFAULT + 2 ^ n)).raise R.THERM_ISR_FAULT

/-- A channel reads again: its fault ends. -/
def chanHeals (s : State) (n : Nat) : State :=
  if (s.fld R.THERM_STATUS_CHFAULT).testBit n then s.setFld R.THERM_STATUS_CHFAULT (s.fld R.THERM_STATUS_CHFAULT - 2 ^ n) else s

def setNaks (s : State) (n v : Nat) : State := { s with therm := { s.therm with naks := tblSet 0 s.therm.naks n v } }

/-- One channel's reading. -/
def chanRead (s : State) (n : Nat) (r : SensorRead) : State :=
  if s.fld (R.THERM_CH_CFG_SRC n) = 0 then s
  else
    match r with
    | .temp t => chanWindows (setNaks (chanHeals (s.setFld (R.THERM_CH_CFG_TEMP n) t.toNat) n) n 0) n
    | .broken => chanFault s n
    | .nak =>
      let k := tblGet 0 s.therm.naks n + 1
      let s1 := setNaks s n k
      if 3 ≤ k then chanFault s1 n else s1

/-- Are writes to be held off (R470)? -/
def holdsOff (s : State) : Bool :=
  let luns := usedLuns s
  decide ((luns.filter (fun l => chanInWindow s (lunChannel l))).length * 100 < s.fld R.THERM_WCFG_MINPCT * luns.length)

/-- WHOLD_CHANGE. -/
def wholdUpdate (s : State) : State :=
  let h := b2n (holdsOff s)
  if s.fld R.THERM_STATUS_WHOLD = h then s.setFld R.NVME_STATUS_WHOLD h
  else notifyVendor ((s.setFlds [(R.THERM_STATUS_WHOLD, h), (R.NVME_STATUS_WHOLD, h)]).raise R.THERM_ISR_HOLD) 0xC3

/-! ### Outputs (R469) -/

/-- The used points of an output's curve: T in °C and duty, in register order. -/
def curvePoints (s : State) (n : Nat) : List (Int × Nat) :=
  (List.range 8).filterMap (fun k =>
    if s.flag (R.THERM_CURVE_VALID n k) then some (signedOf (s.fld (R.THERM_CURVE_T n k)) 8, s.fld (R.THERM_CURVE_DUTY n k)) else none)

/-- The duty of a curve at a temperature in 1/16 °C, held flat beyond its end points. -/
def dutyAt : List (Int × Nat) → Int → Option Nat
  | [], _ => none
  | [a], _ => some a.2
  | a :: b :: r, t =>
    if t ≤ 16 * a.1 then some a.2
    else if t ≤ 16 * b.1 then
      some ((a.2 : Int) + ((b.2 : Int) - a.2) * (t - 16 * a.1) / (16 * (b.1 - a.1))).toNat
    else dutyAt (b :: r) t

/-- The channels that feed an output. -/
def feeds (s : State) (n : Nat) : List Nat := (List.range 8).filter (fun c => (s.fld (R.THERM_OUT_CFG_SRC n)).testBit c)

/-- The input temperature of an output: the maximum for a fan, the minimum for a heater. -/
def outputTemp (s : State) (n : Nat) : Option Int :=
  let heater := s.flag (R.THERM_OUT_CFG_MODE n)
  (feeds s n).foldl (fun b c =>
    match b with
    | none => some (chanTemp s c)
    | some x => some (if heater then min x (chanTemp s c) else max x (chanTemp s c))) none

/-- An output's duty: full for a fan that a faulted channel feeds or while another fan is stalled; by its curve otherwise.
An output that nothing feeds, or whose curve has no point, has no stated duty: a free value. -/
def outputDuty (s : State) (n : Nat) : Nat :=
  let fan := !s.flag (R.THERM_OUT_CFG_MODE n)
  if fan && ((feeds s n).any (fun c => (s.fld R.THERM_STATUS_CHFAULT).testBit c) || s.therm.stalled.any (fun m => m != n)) then 0xFF
  else
    match (outputTemp s n).bind (dutyAt (curvePoints s n)) with
    | some d => d
    | none => (Config.freeByte (s.free + n)).toNat

/-- A fan's measured speed; one that turns again is stalled no longer. -/
def setSpeed (s : State) (n rpm : Nat) : State :=
  let s1 := s.setFld (R.THERM_OUT_STAT_RPM n) (min rpm 0xFFFF)
  if s.fld (R.THERM_OUT_CFG_MINRPM n) ≤ rpm then
    { s1 with therm := { s1.therm with stalled := s1.therm.stalled.filter (fun m => m != n) } }
  else s1

/-- THERMAL_SENSOR_READ: the channels' readings, the fans' speeds and the hottest on-die sensor. -/
def sensorRead (s : State) (rs : List SensorRead) (rpm : List Nat) (die : Int) : State :=
  let s1 := (List.range 8).foldl (fun acc n => match rs[n]? with | some r => chanRead acc n r | none => acc) s
  let s2 := (List.range 4).foldl (fun acc n => match rpm[n]? with | some r => setSpeed acc n r | none => acc) s1
  let s3 := { s2 with therm := { s2.therm with
    dieMax := max s2.therm.dieMax die, held := s2.therm.held + s2.fld R.THERM_STATUS_WHOLD } }
  let s4 := if blockOn s3 .therm ∧ ¬ flushing s3 then
      { (s3.setFlds ((List.range 4).map (fun n => (R.THERM_OUT_STAT_DUTY n, outputDuty s3 n)))) with free := s3.free + 4 }
    else s3
  wholdUpdate s4

/-- FAN_STALL. -/
def fanStall (s : State) (n : Nat) : State :=
  if s.flag (R.THERM_OUT_CFG_MODE n) ∨ s.fld (R.THERM_OUT_CFG_MINRPM n) ≤ s.fld (R.THERM_OUT_STAT_RPM n) ∨
      s.fld (R.THERM_OUT_STAT_DUTY n) = 0 then s
  else
    let s1 := { s with therm := { s.therm with stalled := s.therm.stalled.filter (fun m => m != n) ++ [n] } }
    (s1.setFlds (((List.range 4).filter (fun m => m != n && !s1.flag (R.THERM_OUT_CFG_MODE m))).map
      (fun m => (R.THERM_OUT_STAT_DUTY m, 0xFF)))).raise R.THERM_ISR_STALL

/-- THERMAL_TRIP: an on-die sensor stands at THERM_TRIP (R471, R486). -/
def thermalTrip (s : State) (die : Int) : State :=
  if 16 * (s.fld R.THERM_TRIP_TRIP : Int) ≤ die then flushStart (s.raise R.THERM_STATUS_TRIPPED) 0 true else s

/-! ### The thermal profile (Table 16.7) -/

/-- Every field of the profile's registers with its place in the profile: byte offset, low bit and field. -/
def thermFields : List (Nat × Nat × Fld) :=
  (List.range 8).flatMap (fun n =>
    [(8 * n, 0, R.THERM_CH_CFG_SRC n), (8 * n, 2, R.THERM_CH_CFG_ROLE n), (8 * n, 4, R.THERM_CH_CFG_I3C n),
     (8 * n + 4, 0, R.THERM_CH_MASK_MASK n)]) ++
  (List.range 4).flatMap (fun n =>
    [(0x40 + 4 * n, 0, R.THERM_OUT_CFG_MODE n), (0x40 + 4 * n, 8, R.THERM_OUT_CFG_SRC n),
     (0x40 + 4 * n, 16, R.THERM_OUT_CFG_MINRPM n)]) ++
  (List.range 32).flatMap (fun i =>
    [(0x50 + 4 * i, 0, R.THERM_CURVE_T (i / 8) (i % 8)), (0x50 + 4 * i, 8, R.THERM_CURVE_DUTY (i / 8) (i % 8)),
     (0x50 + 4 * i, 16, R.THERM_CURVE_VALID (i / 8) (i % 8))]) ++
  [(0xD0, 0, R.THERM_WCFG_HYST), (0xD0, 8, R.THERM_WCFG_MINPCT), (0xD4, 0, R.THERM_TRIP_TRIP)]

/-- The word of a profile at an offset, from the registers. -/
def thermWord (s : State) (o : Nat) : Nat :=
  (thermFields.filter (fun f => f.1 == o)).foldl (fun n f => n + s.fld f.2.2 * 2 ^ f.2.1) 0

/-- The profile as the registers stand. -/
def thermProfile (s : State) : List Byte :=
  let body := (List.range 63).flatMap (fun i => leBytes 4 (thermWord s (4 * i)))
  body ++ leBytes 4 (crc32c body)

/-- The field of a profile that a register field takes. -/
def thermField (p : List Byte) (f : Nat × Nat × Fld) : Nat := bitsOf (leAt p f.1 4) f.2.1 f.2.2.width

/-- Do the used points of a curve ascend in T? -/
def ascends : List (Int × Nat) → Bool
  | a :: b :: r => decide (a.1 < b.1) && ascends (b :: r)
  | _ => true

/-- The points of output `n`'s curve in a profile. -/
def profPoints (p : List Byte) (n : Nat) : List (Int × Nat) :=
  (List.range 8).filterMap (fun k =>
    let w := leAt p (0x50 + 0x20 * n + 4 * k) 4
    if w.testBit 16 then some (signedOf (w % 256) 8, w / 256 % 256) else none)

/-- May a thermal profile be loaded (R463): no reserved encoding or bit, TEMP 0, the CRC right? -/
def thermProfOk (p : List Byte) : Bool :=
  leAt p 0xFC 4 == crc32c (p.take 0xFC) &&
    (List.range 63).all (fun i =>
      leAt p (4 * i) 4 == (thermFields.filter (fun f => f.1 == 4 * i)).foldl (fun n f => n + thermField p f * 2 ^ f.2.1) 0) &&
    (List.range 8).all (fun n => leAt p (8 * n) 4 % 4 != 3) &&
    (List.range 4).all (fun n => ascends (profPoints p n)) &&
    decide (1 ≤ leAt p 0xD1 1 % 128) && decide (leAt p 0xD1 1 % 128 ≤ 100) &&
    decide (95 ≤ leAt p 0xD4 1) && decide (leAt p 0xD4 1 ≤ 125)

/-- Write a profile's fields to their registers. -/
def thermLoad (s : State) (p : List Byte) : State := s.setFlds (thermFields.map (fun f => (f.2.2, thermField p f)))

def thermSave (s : State) (v : Nat) : State :=
  if v % 2 = 0 then s
  else if s.flag R.THERM_SAVE_BUSY then setClaimErr s .therm
  else { (s.raise R.THERM_SAVE_BUSY) with therm := { s.therm with saving := some (thermProfile s) } }

def thermSaveDone (s : State) : State :=
  match s.therm.saving with
  | none => s
  | some p =>
    { (s.clear R.THERM_SAVE_BUSY) with therm := { s.therm with saving := none }, hold := { s.hold with thermProf := some p } }

/-! ### Pins (R473, Table 16.5) -/

/-- The priority of a requester's claims on pins; a tile, a DMA channel or JTAG has none. -/
def gpioRank (rq : Requester) : Option Nat :=
  match rq with
  | .core c => if 32 ≤ c.val then some (3 + (c.val - 32)) else none
  | .classA k => some (7 + k.val)
  | _ => none

def gpioClaim (s : State) (rq : Requester) (n : Nat) : State :=
  match gpioRank rq with
  | some r => if s.fld (R.GPIO_PIN_OWN n) = 0 then s.setFlds [(R.GPIO_PIN_OWN n, r), (R.GPIO_PIN_FUNC n, 0)] else setClaimErr s .gpio
  | none => setClaimErr s .gpio

def gpioRelease (s : State) (rq : Requester) (n : Nat) : State :=
  match gpioRank rq with
  | some r => if s.fld (R.GPIO_PIN_OWN n) = r then s.setFld (R.GPIO_PIN_OWN n) 0 else setClaimErr s .gpio
  | none => setClaimErr s .gpio

/-- GPIO_EDGE: a pin's level changes. -/
def gpioEdge (s : State) (n : Nat) (level : Bool) : State :=
  let was := (s.fld R.GPIO_IN_IN).testBit n
  if was = level then s
  else
    let s1 := s.setFld R.GPIO_IN_IN (if level then s.fld R.GPIO_IN_IN + 2 ^ n else s.fld R.GPIO_IN_IN - 2 ^ n)
    let e := s.fld (R.GPIO_PIN_EDGE n)
    if (level && e.testBit 0) || (!level && e.testBit 1) then
      s1.setFld R.GPIO_ISR_EDGE (s.fld R.GPIO_ISR_EDGE ||| 2 ^ n)
    else s1

/-! ### The commands -/

def execPowerFail (pin : Option (Fin 16)) (s : State) : Result := .next (powerFail s (pin.map Fin.val))
def execVoltageSample (mv : List Nat) (s : State) : Result := .next (voltageSample s mv)
def execChargerTick (s : State) : Result := .next (chargerTick s)
def execQualChargeTimeout (s : State) : Result := .next (chargeTimeout s)
def execStringTestSettle (mv : Nat) (s : State) : Result := .next (testSettle s mv)
def execStringLoadSample (mv : Nat) (s : State) : Result := .next (loadSample s mv)
def execStringTestEnd (mv : Nat) (s : State) : Result := .next (testEnd s mv)
def execHoldSaveDone (s : State) : Result := .next (holdSaveDone s)
def execThermSaveDone (s : State) : Result := .next (thermSaveDone s)
def execThermalSensorRead (readings : List SensorRead) (rpm : List Nat) (die : Int) (s : State) : Result :=
  .next (sensorRead s readings rpm die)
def execFanStall (n : Fin 4) (s : State) : Result := .next (fanStall s n.val)
def execThermalTrip (die : Int) (s : State) : Result := .next (thermalTrip s die)
def execGpioEdge (n : Fin 16) (level : Bool) (s : State) : Result := .next (gpioEdge s n.val level)

end Sys2Proof.Machine
end

