-- ==== Sys2Proof/Machine/Keys.lean ====
section
/-! DEFINITION. Sys2Proof/Machine/Keys.lean: the key store, the DRBG and the lifecycle (R414 to R418, R426, R427). -/

namespace Sys2Proof.Machine

/-! ### Lifecycle and access (R418, R426) -/

def lcManufacture : Nat := 0
def lcProvisioned : Nat := 1
def lcLocked : Nat := 2
def lcDecommissioned : Nat := 3

/-- May class D act (Table 14.5)? -/
def classDOpen (s : State) : Bool := decide (s.fuses.lc ≤ lcProvisioned)

/-- Who reaches the VAULT and KEYS blocks: KIND and ID of VAULT_LOCK (1 house core, 2 class A, 3 class D); none: the
access raises a bus error at its requester. -/
def vaultWho (s : State) (rq : Requester) : Option Who :=
  match rq with
  | .core c => if c.val < 32 then none else some (1, c.val - 32)
  | .classA k => some (2, k.val + 1)
  | .classD => if classDOpen s then some (3, 0) else none
  | .dma _ => none

/-! ### The DRBG (R418) -/

/-- `n` DRBG bytes, in free values. -/
def drbgTake (s : State) : Nat → List Byte × State
  | 0 => ([], s)
  | n + 1 =>
    let f := s.fresh
    let r := drbgTake f.2 n
    (Config.drbgByte f.1 :: r.1, r.2)

/-- A generate of `n` bytes: each request yields at most 64. -/
def drbgBytes (s : State) (n : Nat) : List Byte × State :=
  let r := drbgTake s n
  (r.1, { r.2 with drbg := { r.2.drbg with requests := r.2.drbg.requests + (n + 63) / 64 } })

def rngOk (s : State) : Bool := s.flag R.KEYS_STATUS_RNGOK

/-- The DRBG has been instantiated (R418). -/
def drbgReady (s : State) : State :=
  if s.flag R.KEYS_CTRL_EN ∧ ¬ rngOk s ∧ ¬ s.drbg.failed then
    ({ s with drbg := { s.drbg with requests := 0 } }).raise R.KEYS_STATUS_RNGOK
  else s

/-- The reseed after 65,536 generate requests. -/
def drbgReseed (s : State) : State :=
  if rngOk s ∧ 65536 ≤ s.drbg.requests then { s with drbg := { s.drbg with requests := s.drbg.requests - 65536 } } else s

/-- A health test of the raw noise fails: the DRBG stops until the next reset. -/
def noiseFail (s : State) : State :=
  if s.flag R.KEYS_CTRL_EN then
    (({ s with drbg := { s.drbg with failed := true } }).clear R.KEYS_STATUS_RNGOK).raise R.KEYS_ISR_RNGFAIL
  else s

/-! ### Slots (R414 to R417) -/

/-- The result codes of Table 14.3. -/
def krOk : Nat := 0
def krSeq : Nat := 1
def krBadKey : Nat := 2
def krBadLen : Nat := 3
def krMismatch : Nat := 4
def krBus : Nat := 5
def krEcc : Nat := 6
def krNoRng : Nat := 7
def krUnwrapFail : Nat := 8
def krSlotFull : Nat := 9
def krLifecycle : Nat := 10

def ktAes : Nat := 1
def ktXts : Nat := 2
def usXts : Nat := 0
def usVault : Nat := 1
def usWrap : Nat := 2
def usExport : Nat := 3

def slotKey (s : State) (n : Nat) : Option KeySlot := tblGet none s.keys n

/-- Does R414 permit a KTYPE with a USAGE? -/
def keyPermitted (ktype usage : Nat) : Bool :=
  (ktype == ktAes && !bitOf usage usXts) || (ktype == ktXts && !bitOf usage usVault && !bitOf usage usWrap)

/-- Write or erase a slot; house firmware keeps every valid slot, wrapped under the root key, in the code store (R416). -/
def putKey (s : State) (n : Nat) (k : Option KeySlot) : State :=
  { s with
    keys := tblSet none s.keys n k,
    boot := if s.fuses.root.isSome then { s.boot with keyRecs := tblSet none s.boot.keyRecs n k } else s.boot }

/-- A KEYS command ends (R424). -/
def keysEnd (s : State) (code : Nat) : State := (s.setFld R.KEYS_RES_CODE code).raise R.KEYS_ISR_KEYDONE

/-- A fresh key of a type. -/
def newKey (s : State) (ktype usage : Nat) : KeySlot × State :=
  let n := if ktype = ktXts then 64 else 32
  let r := drbgBytes s n
  (⟨ktype, usage, r.1 ++ List.replicate (64 - n) 0⟩, r.2)

/-- GENERATE (R414, R417). -/
def keysGenerate (s : State) (slot ktype usage : Nat) : State :=
  if s.fuses.lc = lcDecommissioned then keysEnd s krLifecycle
  else if ¬ keyPermitted ktype usage then keysEnd s krBadKey
  else if (slotKey s slot).isSome then keysEnd s krSlotFull
  else if ¬ rngOk s then keysEnd s krNoRng
  else
    let k := newKey s ktype usage
    keysEnd (putKey k.2 slot (some k.1)) krOk

/-- ERASE: the slot is overwritten with zeros and VALID cleared (R414). A sector operation is one command of the model, so
none is under way. -/
def keysErase (s : State) (slot : Nat) : State :=
  if s.fuses.lc = lcDecommissioned then keysEnd s krLifecycle else keysEnd (putKey s slot none) krOk

/-- A write of KEYS_CMD: its fields, and the command where KEYS is ON. -/
def keysCmd (s : State) (op slot ktype usage : Nat) : State :=
  let s1 := s.setFlds [(R.KEYS_CMD_SLOT, slot), (R.KEYS_CMD_KTYPE, ktype), (R.KEYS_CMD_USAGE, usage)]
  if op = 0 then s1
  else if op = 3 then setCfgErr s1 .keys
  else if ¬ blockOn s .keys then setClaimErr s1 .keys
  else if op = 1 then keysGenerate s1 slot ktype usage
  else keysErase s1 slot

/-! ### The lifecycle (R427) -/

def lcKeyword : Nat := 0x4C43

/-- Erase every slot and its record. -/
def eraseAllKeys (s : State) : State := { s with keys := [], boot := { s.boot with keyRecs := [] } }

/-- Start the burn to the next state. -/
def lifecycleBurn (s : State) (target : Nat) : State :=
  let s1 :=
    if target = lcProvisioned then
      let r := drbgBytes s 32
      let s2 := { r.2 with fuses := { r.2.fuses with root := some r.1 } }
      { s2 with boot := { s2.boot with keyRecs := s2.keys } }
    else if target = lcDecommissioned then
      let s2 := eraseAllKeys s
      { s2 with fuses := { s2.fuses with root := none } }
    else s
  ({ s1 with drbg := { s1.drbg with burn := some target } }).raise R.KEYS_STATUS_LCBUSY

/-- A write of KEYS_LCREQ (R427): by a house core, with the keyword and the next code; the advance that needs the DRBG
receives NORNG without it (R418). -/
def lifecycleAdvance (s : State) (rq : Requester) (target keyword : Nat) : State :=
  let house : Bool := match rq with | .core c => decide (32 ≤ c.val) | _ => false
  if ¬ house ∨ keyword ≠ lcKeyword ∨ target ≠ s.fuses.lc + 1 ∨ 3 < target ∨ s.drbg.burn.isSome then setCfgErr s .keys
  else if target = lcProvisioned ∧ ¬ rngOk s then s.setFld R.KEYS_RES_CODE krNoRng
  else lifecycleBurn s target

/-- The burn ends: both copies read programmed. -/
def lifecycleBurnDone (s : State) : State :=
  match s.drbg.burn with
  | none => s
  | some t =>
    (({ s with drbg := { s.drbg with burn := none }, fuses := { s.fuses with lc := t } }).setFlds
      [(R.KEYS_STATUS_LC, t), (R.KEYS_STATUS_LCBUSY, 0)]).raise R.KEYS_ISR_LCDONE

/-! ### The commands -/

def execKeysGenerate (rq : Requester) (slot : Fin 512) (ktype : BitVec 8) (usage : Fin 16) (s : State) : Result :=
  .next (if (vaultWho s rq).isSome then keysCmd s 1 slot ktype.toNat usage else s)

def execKeysErase (rq : Requester) (slot : Fin 512) (s : State) : Result :=
  .next (if (vaultWho s rq).isSome then keysCmd s 2 slot (s.fld R.KEYS_CMD_KTYPE) (s.fld R.KEYS_CMD_USAGE) else s)

def execDrbgReady (s : State) : Result := .next (drbgReady s)
def execDrbgReseed (s : State) : Result := .next (drbgReseed s)
def execNoiseTestFailure (s : State) : Result := .next (noiseFail s)

/-- A read of KEYS_RNG: 32 DRBG bits, or 0 while RNGOK is 0. -/
def rngRead (s : State) : Nat × State :=
  if rngOk s then
    let r := drbgBytes s 4
    (leNat r.1, r.2)
  else (0, s)

def execKeysRngRead (rq : Requester) (s : State) : Result := .next (if (vaultWho s rq).isSome then (rngRead s).2 else s)

def execLifecycleAdvance (rq : Requester) (target : Fin 4) (keyword : BitVec 16) (s : State) : Result :=
  .next (if (vaultWho s rq).isSome then lifecycleAdvance s rq target keyword.toNat else s)

def execLifecycleBurnDone (s : State) : Result := .next (lifecycleBurnDone s)

end Sys2Proof.Machine
end

