-- ==== Sys2Proof/Machine/Vault.lean ====
section
/-! DEFINITION. Sys2Proof/Machine/Vault.lean: the vault cipher: its lock and lease, messages, wrapping and unwrapping (R419
to R424). -/

namespace Sys2Proof.Machine

/-! ### The lock (R419, R420) -/

def vaultOwner (s : State) : Who := (s.fld R.VAULT_LOCK_KIND, s.fld R.VAULT_LOCK_ID)
def vaultHeld (s : State) : Bool := s.fld R.VAULT_LOCK_KIND != 0
def vaultMine (s : State) (w : Who) : Bool := vaultHeld s && vaultOwner s == w

/-- VIEW of VAULT_LOCK for a reader. -/
def vaultView (s : State) (w : Who) : Nat :=
  if vaultMine s w then 1 else if s.vault.lapsed = some w then 3 else if vaultHeld s then 2 else 0

/-- Wipe the key schedule, chaining value, counter and buffers, and end the message. -/
def vaultWipe (s : State) : State :=
  ({ s with vault := { s.vault with msg := none, run := none } }).setFlds [(R.VAULT_RES_INMSG, 0), (R.VAULT_RES_BUSY, 0)]

/-- Free the lock. -/
def vaultFree (s : State) : State := (vaultWipe s).setFlds [(R.VAULT_LOCK_KIND, 0), (R.VAULT_LOCK_ID, 0)]

/-- The rank of a claimant among acquisitions of one cycle: Table 13.1, then class D. -/
def vaultRank (w : Who) : Nat := if w.1 = 1 then w.2 else if w.1 = 2 then 3 + w.2 else 100

/-- The claimants of one cycle by rank. -/
def vaultInsert (w : Who) : List Who → List Who
  | [] => [w]
  | x :: xs => if vaultRank w ≤ vaultRank x then w :: x :: xs else x :: vaultInsert w xs

def vaultRanked (ws : List Who) : List Who := ws.foldr vaultInsert []

/-- ACQ by one claimant: a free vault that is ON is taken. -/
def vaultAcquire (s : State) (w : Who) : State :=
  let s1 := if s.vault.lapsed = some w then { s with vault := { s.vault with lapsed := none } } else s
  if vaultHeld s ∨ ¬ blockOn s .vault then setClaimErr s1 .vault
  else s1.setFlds [(R.VAULT_LOCK_KIND, w.1), (R.VAULT_LOCK_ID, w.2)]

/-- REL: by the owner alone; all vault state is wiped. -/
def vaultRelease (s : State) (w : Who) : State := if vaultMine s w then vaultFree s else setClaimErr s .vault

/-- The lease lapses (R420): with no step running. -/
def vaultLapse (s : State) : State :=
  if vaultHeld s ∧ s.vault.run.isNone then
    let w := vaultOwner s
    let s1 := vaultFree s
    ({ s1 with vault := { s1.vault with lapsed := some w } }).raise R.VAULT_ISR_LAPSE
  else s

/-! ### Results (R424) -/

/-- A command ends with a code; every code other than OK ends an open message. -/
def vaultEnd (s : State) (code : Nat) : State :=
  let s1 := ({ s with vault := { s.vault with run := none } }).setFlds [(R.VAULT_RES_CODE, code), (R.VAULT_RES_BUSY, 0)]
  let s2 := if code = krOk then s1
    else ({ s1 with vault := { s1.vault with msg := none } }).setFld R.VAULT_RES_INMSG 0
  (if code = krMismatch then s2.raise R.VAULT_ISR_MISMATCH else s2).raise R.VAULT_ISR_DONE

/-- A command starts running. -/
def vaultRun (s : State) (op : Nat) : State :=
  ({ s with vault := { s.vault with run := some op } }).setFld R.VAULT_RES_BUSY 1

/-! ### Blocks (R421, R422) -/

/-- AES-256 of one block under a 32-byte key, and its inverse. -/
def aesBlock (key blk : List Byte) : List Byte := (aesEncrypt (key.map (·.toNat)) (blk.map (·.toNat))).map (BitVec.ofNat 8)
def aesUnblock (key blk : List Byte) : List Byte := (aesDecrypt (key.map (·.toNat)) (blk.map (·.toNat))).map (BitVec.ofNat 8)

def xorBytes (a b : List Byte) : List Byte := List.zipWith (· ^^^ ·) a b

/-- The standard incrementing function on the last 32 bits of a counter block. -/
def ctrNext (c : List Byte) : List Byte := c.take 12 ++ beBytes 4 ((beNat (c.drop 12) + 1) % 2 ^ 32)

/-- One block (or the partial last block) of a message: the output and the next chaining value. MODE 0 CBC, 1 CTR,
2 CFB-128. -/
def vaultBlock (m : VMsg) (x : List Byte) : List Byte × List Byte :=
  match m.mode with
  | 0 =>
    if m.decrypt then (xorBytes (aesUnblock m.key x) m.chain, x)
    else
      let c := aesBlock m.key (xorBytes x m.chain)
      (c, c)
  | 1 => (xorBytes x (aesBlock m.key m.chain), ctrNext m.chain)
  | _ =>
    let y := xorBytes x (aesBlock m.key m.chain)
    (y, if m.decrypt then x else y)

/-- Process `len` bytes from `src` to `dst`, block by block; block `bad` disagrees between the datapaths. The code, the
state and the message as far as it came. -/
def vaultBlocks (s : State) (m : VMsg) (src dst len bad : Nat) : Nat → Nat × State × VMsg
  | 0 => (krOk, s, m)
  | fuel + 1 =>
    if len = 0 then (krOk, s, m)
    else
      let n := min len 16
      match readGlobal s src n xoOther with
      | none => (krBus, s, m)
      | some (x, s1, ecc) =>
        if ecc.isSome then (krEcc, s1, m)
        else if bad = 0 then (krMismatch, s1, m)
        else
          let r := vaultBlock m x
          match writeGlobal s1 dst r.1 with
          | none => (krBus, s1, m)
          | some s2 =>
            vaultBlocks s2 { m with chain := r.2, blocks := m.blocks + 1, last := decide (n < 16) } (src + n) (dst + n) (len - n)
              (bad - 1) fuel

/-- CBC of whole blocks in memory order. -/
def cbcEnc (key chain : List Byte) : List (List Byte) → List Byte
  | [] => []
  | b :: bs =>
    let c := aesBlock key (xorBytes b chain)
    c ++ cbcEnc key c bs

def cbcDec (key chain : List Byte) : List (List Byte) → List Byte
  | [] => []
  | b :: bs => xorBytes (aesUnblock key b) chain ++ cbcDec key b bs

/-! ### Messages (R421) -/

/-- The key under a KEK number (R415, R423), or the code that refuses it. -/
def kekKey (s : State) (kek : Nat) : Except Nat (List Byte) :=
  if s.fuses.lc = lcDecommissioned then .error krLifecycle
  else if kek = 512 then (match s.fuses.root with | some k => .ok k | none => .error krBadKey)
  else if kek = 513 then (if s.fuses.lc = lcManufacture then .ok s.fuses.mfg else .error krLifecycle)
  else
    match slotKey s kek with
    | some k => if bitOf k.usage usWrap ∧ k.ktype = ktAes then .ok (k.value.take 32) else .error krBadKey
    | none => .error krBadKey

/-- The IV registers as 16 bytes, and their writing. -/
def vaultIv (s : State) : List Byte := ((List.range 4).map (fun k => leBytes 4 (s.fld (R.VAULT_IV_IV k)))).flatten
def setVaultIv (s : State) (iv : List Byte) : State :=
  s.setFlds ((List.range 4).map (fun k => (R.VAULT_IV_IV k, leAt iv (4 * k) 4)))

/-- A new IV: 96 DRBG bits, then a 32-bit value, big-endian. -/
def newIv (s : State) (v : Nat) : List Byte × State :=
  let r := drbgBytes s 12
  (r.1 ++ beBytes 4 v, r.2)

/-- OPEN (R421). -/
def vaultOpen (s : State) (mode slot : Nat) (decrypt : Bool) : State :=
  if s.vault.msg.isSome then vaultEnd s krSeq
  else if s.fuses.lc = lcDecommissioned then vaultEnd s krLifecycle
  else
    match slotKey s slot with
    | none => vaultEnd s krBadKey
    | some k =>
      if k.ktype ≠ ktAes ∨ ¬ bitOf k.usage usVault then vaultEnd s krBadKey
      else if ¬ decrypt ∧ ¬ rngOk s then vaultEnd s krNoRng
      else
        let r := if decrypt then (vaultIv s, s) else newIv s (if mode = 1 then 0 else s.fld R.VAULT_MSGCNT_COUNT)
        let s1 := if decrypt then r.2 else (setVaultIv r.2 r.1).addWrap R.VAULT_MSGCNT_COUNT 1
        vaultEnd (({ s1 with vault := { s1.vault with msg := some ⟨mode, decrypt, k.value.take 32, r.1, 0, false⟩ } }).setFld
          R.VAULT_RES_INMSG 1) krOk

/-- Does a STEP of `len` bytes break R421? -/
def stepBad (m : VMsg) (len : Nat) : Bool :=
  len == 0 || decide (65536 < len) || (m.mode == 0 && len % 16 != 0) || decide (2 ^ 32 < m.blocks + (len + 15) / 16)

/-- STEP (R421): it runs until VAULT_STEP_DONE. -/
def vaultStep (s : State) : State :=
  match s.vault.msg with
  | none => vaultEnd s krSeq
  | some m =>
    if m.last then vaultEnd s krSeq
    else if stepBad m (s.fld R.VAULT_LEN_LEN) then vaultEnd s krBadLen
    else vaultRun s 2

/-- CLOSE. -/
def vaultClose (s : State) : State :=
  match s.vault.msg with
  | none => vaultEnd s krSeq
  | some _ => vaultEnd (({ s with vault := { s.vault with msg := none } }).setFld R.VAULT_RES_INMSG 0) krOk

/-! ### Wrapping (R423, Table 14.2) -/

def wrapMagic : Nat := 0x50574B51

/-- The check value of a wrapped key. -/
def wrapCheck (head key : List Byte) : List Byte := sha256 (head ++ key)

/-- The wrapped form of a slot. -/
def wrapBytes (kek iv : List Byte) (k : KeySlot) : List Byte :=
  let head := leBytes 4 wrapMagic ++ [1, BitVec.ofNat 8 k.ktype] ++ leBytes 2 k.usage ++ List.replicate 8 0
  let body := k.value ++ wrapCheck head k.value
  head ++ iv ++ cbcEnc kek iv (chunks 16 body 8)

/-- Check and decrypt a wrapped key: the slot it gives, or a code. -/
def unwrapBytes (kek bs : List Byte) : Except Nat KeySlot :=
  let head := bs.take 16
  let body := cbcDec kek ((bs.drop 16).take 16) (chunks 16 ((bs.drop 32).take 96) 8)
  let key := body.take 64
  let kt := leAt bs 5 1
  let us := leAt bs 6 2
  if leAt bs 0 4 ≠ wrapMagic ∨ leAt bs 4 1 ≠ 1 ∨ 16 ≤ us ∨ leAt bs 8 8 ≠ 0 then .error krUnwrapFail
  else if body.drop 64 ≠ wrapCheck head key then .error krUnwrapFail
  else if ¬ keyPermitted kt us then .error krBadKey
  else if kt = ktAes ∧ key.drop 32 ≠ List.replicate 32 0 then .error krUnwrapFail
  else .ok ⟨kt, us, key⟩

/-- UNWRAP and WRAP start: what refuses them ends them at once. -/
def vaultUnwrap (s : State) : State :=
  if s.vault.msg.isSome then vaultEnd s krSeq
  else
    match kekKey s (s.fld R.VAULT_CMD_KEK) with
    | .error e => vaultEnd s e
    | .ok _ =>
      if (slotKey s (s.fld R.VAULT_CMD_SLOT)).isSome then vaultEnd s krSlotFull else vaultRun s 4

def vaultWrap (s : State) : State :=
  if s.vault.msg.isSome then vaultEnd s krSeq
  else
    match kekKey s (s.fld R.VAULT_CMD_KEK), slotKey s (s.fld R.VAULT_CMD_SLOT) with
    | .error e, _ => vaultEnd s e
    | .ok _, none => vaultEnd s krBadKey
    | .ok _, some k =>
      if ¬ bitOf k.usage usExport ∧ s.fld R.VAULT_CMD_KEK ≠ 512 then vaultEnd s krBadKey
      else if ¬ rngOk s then vaultEnd s krNoRng
      else vaultRun s 5

def vaultSrc (s : State) : Nat := s.fld R.VAULT_SRCLO_ADDR + 2 ^ 32 * s.fld R.VAULT_SRCHI_ADDR
def vaultDst (s : State) : Nat := s.fld R.VAULT_DSTLO_ADDR + 2 ^ 32 * s.fld R.VAULT_DSTHI_ADDR

/-- The running command ends (R422); `bad`: the first block on which the two datapaths disagree. -/
def vaultDone (s : State) (bad : Option Nat) : State :=
  match s.vault.run with
  | some 2 =>
    (match s.vault.msg with
    | none => s
    | some m =>
      let len := s.fld R.VAULT_LEN_LEN
      let r := vaultBlocks s m (vaultSrc s) (vaultDst s) len (bad.getD len) len
      vaultEnd { r.2.1 with vault := { r.2.1.vault with msg := some r.2.2 } } r.1)
  | some 4 =>
    (match readGlobal s (vaultSrc s) 128 xoOther, kekKey s (s.fld R.VAULT_CMD_KEK) with
    | none, _ => vaultEnd s krBus
    | some (bs, s1, ecc), k =>
      if ecc.isSome then vaultEnd s1 krEcc
      else if bad.isSome then vaultEnd s1 krMismatch
      else
        match k with
        | .error e => vaultEnd s1 e
        | .ok key =>
          match unwrapBytes key bs with
          | .error e => vaultEnd s1 e
          | .ok slot => vaultEnd (putKey s1 (s.fld R.VAULT_CMD_SLOT) (some slot)) krOk)
  | some 5 =>
    let iv := newIv s (s.fld R.VAULT_MSGCNT_COUNT)
    let s1 := iv.2.addWrap R.VAULT_MSGCNT_COUNT 1
    (match kekKey s (s.fld R.VAULT_CMD_KEK), slotKey s (s.fld R.VAULT_CMD_SLOT) with
    | .ok key, some k =>
      if bad.isSome then vaultEnd s1 krMismatch
      else
        match writeGlobal s1 (vaultDst s) (wrapBytes key iv.1 k) with
        | none => vaultEnd s1 krBus
        | some s2 => vaultEnd s2 krOk
    | _, _ => vaultEnd s krBadKey)
  | _ => s

/-! ### The commands -/

/-- A command write (R419, R420): by the owner, with no command running. -/
def vaultCmd (s : State) (w : Who) (f : State → State) : State :=
  if vaultMine s w ∧ s.vault.run.isNone then f s else setClaimErr s .vault

/-- A command of a requester that reaches the block. -/
def vaultAs (s : State) (rq : Requester) (f : Who → State) : State :=
  match vaultWho s rq with
  | some w => f w
  | none => s

/-- The acquisitions of one cycle (R419). -/
def execVaultAcquire (rqs : List Requester) (s : State) : Result :=
  .next ((vaultRanked (rqs.filterMap (vaultWho s))).foldl vaultAcquire s)

def execVaultRelease (rq : Requester) (s : State) : Result := .next (vaultAs s rq (vaultRelease s))

def execVaultOpen (rq : Requester) (mode : Fin 3) (decrypt : Bool) (slot : Fin 512) (s : State) : Result :=
  .next (vaultAs s rq (fun w => vaultCmd s w (fun s1 =>
    vaultOpen (s1.setFlds [(R.VAULT_CMD_MODE, mode), (R.VAULT_CMD_DIR, b2n decrypt), (R.VAULT_CMD_SLOT, slot)]) mode slot decrypt)))

def execVaultStep (rq : Requester) (s : State) : Result := .next (vaultAs s rq (fun w => vaultCmd s w vaultStep))

def execVaultStepDone (bad : Option Nat) (s : State) : Result := .next (vaultDone s bad)

def execVaultClose (rq : Requester) (s : State) : Result := .next (vaultAs s rq (fun w => vaultCmd s w vaultClose))

def execVaultUnwrap (rq : Requester) (slot : Fin 512) (kek : Fin 514) (s : State) : Result :=
  .next (vaultAs s rq (fun w => vaultCmd s w (fun s1 =>
    vaultUnwrap (s1.setFlds [(R.VAULT_CMD_SLOT, slot), (R.VAULT_CMD_KEK, kek)]))))

def execVaultWrap (rq : Requester) (slot : Fin 512) (kek : Fin 514) (s : State) : Result :=
  .next (vaultAs s rq (fun w => vaultCmd s w (fun s1 =>
    vaultWrap (s1.setFlds [(R.VAULT_CMD_SLOT, slot), (R.VAULT_CMD_KEK, kek)]))))

def execVaultLeaseLapse (s : State) : Result := .next (vaultLapse s)

end Sys2Proof.Machine
end

