-- ==== Sys2Proof/Machine/Blocks.lean ====
section
/-! DEFINITION. Sys2Proof/Machine/Blocks.lean: enabling, quiescing and locking of blocks (R14, R17 to R20), with what each
block's own chapter does at those moments. -/

namespace Sys2Proof.Machine

/-! ### PCIe links (R264) -/

/-- Is the link of a port up? -/
def pcieUp (s : State) (p : Nat) : Bool := s.fld (R.PCIE_LINK_SPEED p) != 0

/-- A link leaves L0 for Detect. -/
def pcieLinkDown (s : State) (p : Nat) : State :=
  if pcieUp s p then
    (s.setFlds [(R.PCIE_LINK_SPEED p, 0), (R.PCIE_LINK_WIDTH p, 0), (R.PCIE_LINK_FLIT p, 0), (R.PCIE_LINK_L1 p, 0)]).raise
      R.PCIE_ISR_LINKDN
  else s

/-! ### Entering a state -/

/-- A block enters QUIESCING: a tile's deque is redistributed (R171), running DMA channels pause (R397), a qualification
ends and W falls to 0 (the HOLD card), a Damdom port sends DOWN. -/
def enterQuiesce (s : State) (b : BlockId) : State :=
  match b with
  | .tile t => redistribute s t.val
  | .dma => dmaDisable s
  | .hold => holdQuiesce s
  | .dport p => portQuiesce s p.val
  | _ => s

/-- The manager role of a node whose configuration sets SEGMGR (R352): it starts discovery. -/
def takeManager (s : State) : State :=
  if cfgSegMgr s ∧ blockOn s .fab then discStart (s.raise R.FAB_STATUS_MANAGER) else s

/-- A block enters ON: the watchdog counts from TIMEOUT (R451), paused DMA channels go on (R397), a Damdom port leaves
DOWN (R337), a manager starts discovery (R352). -/
def enterOn (s : State) (b : BlockId) : State :=
  match b with
  | .wdt => s.setFld R.WDT_COUNT_COUNT (25000 * s.fld R.WDT_TIMEOUT_TIMEOUT)
  | .dma => dmaEnable s
  | .dport p => portEnabled s p.val
  | .fab => takeManager s
  | _ => s

/-- A block has enabled: DRAM leaves self-refresh (R389). -/
def enabled (s : State) (b : BlockId) : State :=
  match b with
  | .dram => selfRefreshExit s
  | _ => s

/-- A block's drain ends: DRAM enters self-refresh (R388), the vault is wiped and freed, the DRBG is gone until EN is set
again (R418), a Damdom link goes to DOWN, PCIe links go to Detect. -/
def drainEnds (s : State) (b : BlockId) : State :=
  match b with
  | .dram => selfRefreshEnter s
  | .vault => vaultFree s
  | .keys => s.clear R.KEYS_STATUS_RNGOK
  | .dport p => portOff s p.val
  | .pcie => pcieLinkDown (pcieLinkDown s 0) 1
  | _ => s

/-! ### When a drain can end -/

/-- Does a LUN of a set run an operation or a retry sequence? -/
def lunsBusy (s : State) (p : Nat → Bool) : Bool :=
  (tblKeys s.media.luns).any (fun l => p l &&
    (match lunOf s l with | some x => x.op.isSome || x.phase != .none | none => false))

/-- Does a block hold no more work that it must finish before OFF (each block's card)? -/
def drained (s : State) (b : BlockId) : Bool :=
  match b with
  | .disp => s.flows.runs.isEmpty && !s.flows.parcels.any (fun p => p.st == .landing || p.st == .waiting)
  | .pat => !s.index.engHold.any (fun e => e.2.isSome)
  | .rule => s.index.op.isNone
  | .codec => s.decWait.isNone && s.tiles.all (fun e => e.2.lane.isNone)
  | .nvme => s.nvme.cmds.all (fun c => c.st == .waiting || c.op == .asyncEvent)
  | .media => !lunsBusy s (fun _ => true)
  | .nand c => !lunsBusy s (fun l => lunChannel l == c.val)
  | .ftla => s.ftl.scan.isNone
  | .dma => dmaAll.all (fun ch => dmaState s ch != dmaPausing)
  | .digest => s.digs.all (fun e => e.2.feed.isNone)
  | .vault => s.vault.run.isNone
  | .keys => s.drbg.burn.isNone
  | .cstore => s.code.op.isNone
  | .tile t => (s.tile t.val).job.isNone && (dequeOf s t.val).isEmpty
  | _ => true

/-! ### The operations -/

/-- EN written 1 (R17, R18). -/
def blockEnable (s : State) (b : BlockId) : State := if blockHasEnable b then requestOn s b else s

/-- EN written 0 (R17, R19). -/
def blockDisable (s : State) (b : BlockId) : State :=
  if blockHasEnable b then
    let was := blockState s b
    let s1 := requestOff s b
    if was = stOn then enterQuiesce s1 b else s1
  else s

/-- EN written with a value: a change of a locked watchdog EN is refused (R14). -/
def writeEn (s : State) (b : BlockId) (v : Nat) : State :=
  if b = .wdt ∧ s.flag R.WDT_CTRL_LOCK then
    if s.fld R.WDT_CTRL_EN = v then s else setCfgErr s b
  else if v = 1 then blockEnable s b else blockDisable s b

/-! ### D3hot (R389, R511) -/

/-- The blocks that use DRAM beside the tiles. -/
def dramUsers : List BlockId := [.nvme, .disp, .ret, .pat, .rule, .codec, .ftla, .dma, .digest, .vault, .fab]

/-- Is every function that exists in D3hot? -/
def allInD3 (s : State) : Bool := s.nvme.d3.contains 0 && (!s.flag R.PCIE_STATUS_BIFUR || s.nvme.d3.contains 1)

/-- House firmware carries a D3hot transition on: with every function in D3hot and each block that it turned off OFF, DRAM
follows; with a function back in D0, DRAM comes first and the others after it. -/
def d3Settle (s : State) : State :=
  if allInD3 s then
    if s.nvme.d3off.contains .dram ∧ blockOn s .dram ∧ s.nvme.d3off.all (fun b => b == .dram || blockState s b == stOff) then
      writeEn s .dram 0
    else s
  else if s.nvme.d3off.contains .dram ∧ !blockOn s .dram then
    if blockState s .dram = stOff then writeEn s .dram 1 else s
  else (s.nvme.d3off.filter (fun b => b != .dram)).foldl (fun acc b => writeEn acc b 1) { s with nvme := { s.nvme with d3off := [] } }

/-- The last function enters D3hot: the tiles and the users of DRAM that are ON are turned off. -/
def d3Enter (s : State) : State :=
  if allInD3 s ∧ s.nvme.d3off = [] then
    let offs := (dramUsers ++ (List.finRange 32).map BlockId.tile).filter (blockOn s)
    let s1 := { s with nvme := { s.nvme with d3off := offs ++ (if blockOn s .dram then [.dram] else []) } }
    d3Settle (offs.foldl (fun acc b => writeEn acc b 0) s1)
  else s

/-- A function changes its power state, or a reset brings it back to D0. -/
def d3Move (s : State) (p : Nat) (d3 : Bool) : State :=
  let l := s.nvme.d3.filter (· != p)
  let s1 := { s with nvme := { s.nvme with d3 := if d3 then l ++ [p] else l } }
  if d3 then d3Enter s1 else if s1.nvme.d3off = [] then s1 else d3Settle s1

/-- BLOCK_ENABLING_DONE (R19, R20). -/
def blockEnablingDone (s : State) (b : BlockId) : State :=
  if blockHasEnable b ∧ blockState s b = stEnabling then
    let s1 := enablingEnds (enabled s b) b
    let s2 := if blockState s1 b = stOn then enterOn s1 b else enterQuiesce s1 b
    if b = .dram ∧ s2.nvme.d3off ≠ [] then d3Settle s2 else s2
  else s

/-- BLOCK_QUIESCE_DONE (R18, R20). -/
def blockQuiesceDone (s : State) (b : BlockId) : State :=
  if blockHasEnable b ∧ blockState s b = stQuiescing ∧ drained s b then
    let s1 := quiesceEnds (drainEnds s b) b
    if s1.nvme.d3off = [] then s1 else d3Settle s1
  else s

/-- LOCK written 1 (R14). -/
def blockLock (s : State) (b : BlockId) : State := s.raise (fldLock (blockBase b))

/-- What a start-up phase does to a block whose EN it sets: the phase lasts until the block is ON. -/
def bringUp (s : State) (b : BlockId) : State := blockEnablingDone (blockEnable s b) b

def bringUpAll (s : State) (bs : List BlockId) : State := bs.foldl bringUp s

/-! ### The commands -/

def execBlockEnable (b : BlockId) (s : State) : Result := .next (writeEn s b 1)
def execBlockDisable (b : BlockId) (s : State) : Result := .next (writeEn s b 0)
def execBlockEnablingDone (b : BlockId) (s : State) : Result := .next (blockEnablingDone s b)
def execBlockQuiesceDone (b : BlockId) (s : State) : Result := .next (blockQuiesceDone s b)

def execBlockLock (b : BlockId) (s : State) : Result := .next (blockLock s b)

end Sys2Proof.Machine
end

