-- ==== Sys2Proof/Machine/FabCfg.lean ====
section
/-! DEFINITION. Sys2Proof/Machine/FabCfg.lean: the fabric configuration image: its checks in the order of R292, and what
loading it does (R366, R370, Table 11.11). -/

namespace Sys2Proof.Machine

/-! ### The sections (Table 11.11) -/

/-- The sections of an image: shared and local. -/
def fcShared (img : List Byte) : List Byte := (img.drop 64).take (leAt img 8 4)
def fcLocals (img : List Byte) : List Byte := (img.drop (64 + leAt img 8 4)).take (leAt img 12 4)

/-- The windows of a local section. -/
def fcWindow (l : List Byte) (i : Nat) : HwWin :=
  let o := 0x10 + 32 * i
  { id := leAt l o 1, base := leAt l (o + 8) 8, slots := leAt l (o + 4) 4, tagBase := leAt l (o + 16) 8,
    rdall := leAt l (o + 1) 1 != 0 }
def fcWindows (l : List Byte) : List HwWin := (List.range (leAt l 2 1)).map (fcWindow l)

/-- Is every byte of a range 0? -/
def zeros (bs : List Byte) (o n : Nat) : Bool := ((bs.drop o).take n).all (fun b => b == 0)

/-- Are the numbers of a list all different? -/
def distinct (l : List Nat) : Bool := l.eraseDups.length == l.length

/-- The header and the data length (step 1 of R292). -/
def fcHeaderOk (d : List Byte) : Bool :=
  leAt d 0 4 == 0x42464451 && leAt d 4 2 == 1 && leAt d 6 2 == 64 && leAt d 16 4 == leAt d 8 4 + leAt d 12 4 &&
    zeros d 0x14 12 && decide (64 + leAt d 16 4 ≤ d.length)

/-- The shared section (step 3). -/
def fcSharedOk (b : List Byte) : Bool :=
  let m := leAt b 2 1
  let r := leAt b 3 1
  let uid (i : Nat) : Nat := leAt b (0x10 + 16 * i) 8
  let dev (i : Nat) : Nat := leAt b (0x18 + 16 * i) 1
  let sr (i k : Nat) : Nat := leAt b (0x10 + 16 * m + 4 * i + k) 1
  decide (0x10 ≤ b.length) && decide (leAt b 0 1 ≤ 63) && leAt b 1 1 % 8 == leAt b 1 1 && leAt b 1 1 != 0 &&
    decide (m ≤ 64) && decide (r ≤ 63) && decide (16 ≤ leAt b 4 2) && decide (leAt b 4 2 ≤ 1000) && zeros b 6 10 &&
    b.length == 0x10 + 16 * m + 4 * r &&
    (List.range m).all (fun i => decide (dev i ≤ 63) && zeros b (0x19 + 16 * i) 7) &&
    distinct ((List.range m).map uid) && distinct ((List.range m).map dev) &&
    (List.range r).all (fun i => decide (sr i 0 ≤ 63) && decide (sr i 1 ≤ 63) && decide (sr i 2 ≤ 3) && sr i 3 == 0)

/-- The local section (step 3). -/
def fcLocalsOk (b : List Byte) : Bool :=
  let n := leAt b 2 1
  decide (0x10 ≤ b.length) && decide (leAt b 0 1 < 4) && decide (leAt b 1 1 < 16) && decide (n ≤ 64) && zeros b 3 13 &&
    b.length == 0x10 + 32 * n &&
    (List.range n).all (fun i =>
      let o := 0x10 + 32 * i
      decide (leAt b o 1 ≤ 63) && decide (leAt b (o + 1) 1 ≤ 1) && zeros b (o + 2) 2 && decide (1 ≤ leAt b (o + 4) 4) &&
        decide (leAt b (o + 4) 4 ≤ 0x100000) && leAt b (o + 8) 8 % 0x10000 == 0 && leAt b (o + 16) 8 % 0x10000 == 0 &&
        zeros b (o + 24) 8) &&
    distinct ((fcWindows b).map HwWin.id)

/-- The window or tag ranges of a configuration. -/
def fcRanges (ws : List HwWin) : List (Nat × Nat) :=
  ws.flatMap (fun w => [(w.base, 0x10000 * w.slots), (w.tagBase, 4 * w.slots)])

/-- Where the house region starts (R523): the top quarter of usable DRAM. -/
def houseRegion (s : State) : Nat := dramEnd s / 4 * 3

/-- Do two ranges overlap? -/
def overlaps (a b : Nat × Nat) : Bool := decide (a.1 < b.1 + b.2) && decide (b.1 < a.1 + a.2)

/-- Do the ranges of a list keep apart and below the house region (step 6)? -/
def fcFits (s : State) : List (Nat × Nat) → Bool
  | [] => true
  | r :: rs => decide (r.1 + r.2 ≤ houseRegion s) && !rs.any (overlaps r) && fcFits s rs

/-- Is a defined window removed or changed while a slot of it is not tagged local (step 5)? -/
def fcInUse (s : State) (ws : List HwWin) : Bool :=
  s.hwWins.any (fun w => !ws.contains w && (List.range w.slots).any (fun k => slotTag s w k != tagLocal))

/-- The status of a configuration image: the first cause that holds in the order of R292. -/
def fcStatus (s : State) (d : List Byte) : Nat :=
  if !fcHeaderOk d then scImgFormat
  else if sha256 ((d.drop 64).take (leAt d 16 4)) ≠ (d.drop 0x20).take 32 then scImgDigest
  else if !(fcSharedOk (fcShared d) && fcLocalsOk (fcLocals d)) then scImgFormat
  else if fcInUse s (fcWindows (fcLocals d)) then scInUse
  else if !fcFits s (fcRanges (fcWindows (fcLocals d))) then scImgFit
  else scOk

/-! ### Putting a configuration in force -/

/-- Zero a range of DRAM. -/
def zeroRam (s : State) (a n : Nat) : State :=
  { s with
    mem := tblKeep (fun x => decide (x < a) || decide (a + n ≤ x)) s.mem,
    dramBad := tblKeep (fun l => decide (l < a / 64) || decide ((a + n + 63) / 64 ≤ l)) s.dramBad }

/-- The slots of a newly defined window belong to the local node: its tag table holds 0. -/
def freshWindows (s : State) (old : List HwWin) : List HwWin → State
  | [] => s
  | w :: ws => freshWindows (if old.contains w then s else zeroRam s w.tagBase (4 * w.slots)) old ws

/-- Enable or disable a Damdom port as the local section gives. -/
def fcPort (ports : Nat) (s : State) (p : Fin 4) : State := writeEn s (.dport p) (b2n (bitOf ports p.val))

/-- Load a configuration (R352, R354, R366, R370): the node leaves the assigned state, every VOFFER is VMASK, the ports are
enabled as given, the windows and time source follow, and a segment manager starts discovery. -/
def fabApply (s : State) (shared locals : List Byte) : State :=
  let s1 := leaveAssigned { s with fab := { s.fab with shared := shared, locals := locals } }
  let s2 := s1.setFlds ((List.range 4).map (fun p => (R.DPORT_CTRL_VOFFER p, leAt shared 1 1)))
  let ws := fcWindows locals
  let s3 := { freshWindows s2 s.hwWins ws with hwWins := ws }
  let s4 := [0, 1, 2, 3].foldl (fcPort (leAt locals 1 1)) s3
  let s5 := timeSource s4
  if cfgSegMgr s5 then takeManager s5 else s5.clear R.FAB_STATUS_MANAGER

/-- An accepted image in force: house firmware keeps its sections in the code store (R477). -/
def fabLoad (s : State) (d : List Byte) : State :=
  let s1 := fabApply s (fcShared d) (fcLocals d)
  { s1 with boot := { s1.boot with fabRec := some (fcShared d, fcLocals d) } }

/-- Tag-change records, in order, from a host port (R370): the number applied, and whether all were. -/
def fabTags (s : State) (hport : Nat) (d : List Byte) : Nat → Nat → Nat × Bool × State
  | _, 0 => (0, true, s)
  | i, n + 1 =>
    let a := leAt d (8 * i) 4
    let tag := leAt d (8 * i + 4) 4
    let slot := bitsOf a 8 20
    match findWin s (bitsOf a 0 6) with
    | none => (0, false, s)
    | some w =>
      if w.slots ≤ slot ∨ slotTag s w slot ≠ tagHost hport ∨ tagBad tag then (0, false, s)
      else
        let r := fabTags (passSlot s w slot tag) hport d (i + 1) n
        (r.1 + 1, r.2.1, r.2.2)

end Sys2Proof.Machine
end

