-- ==== Sys2Proof/Machine/Start.lean ====
section
/-! DEFINITION. Sys2Proof/Machine/Start.lean: what starts and stops the device: rails and resets (R474 to R478, R486, R502 to
R504), the end of a flush (R465, R476), the watchdog's end (R452), the root PLL (R34 to R38) and the JTAG instructions
(R490). -/

namespace Sys2Proof.Machine

/-! ### Rails and device resets -/

/-- A flush that a rail's fall or a reset cuts off has run short (R465, R503). -/
def cutFlush (s : State) (recorded us : Nat) : State := if flushing s then flushStops s false recorded us else s

/-- A main rail fell: counted once until the rails are back. -/
def countCycle (old s : State) : State :=
  if old.boot.held = .rails then s else { s with boot := { s.boot with cycles := s.boot.cycles + 1 } }

/-- COLD_RESET: SYS_RST# falls. During a flush it has no effect until the flush ends (R504). -/
def sysRstLow (s : State) : State :=
  if flushing s then { s with boot := { s.boot with rstLow := true } } else coldReset s

/-- SYS_RST_RELEASE: SYS_RST# rises. With the rails in range start-up begins at CLOCKS (R502); PE_BIFUR is sampled (R488). -/
def sysRstHigh (s : State) (bifur : Bool) : State :=
  if flushing s then { s with boot := { s.boot with rstLow := false } }
  else if s.boot.held = .rails then
    let s1 := s.setFlds [(R.SYS_PHASE_PHASE, 1), (R.PCIE_STATUS_BIFUR, b2n bifur), (R.SYS_CLKSTAT_AON_OSC, 1)]
    { s1 with boot := { s1.boot with held := .none }, hold := { s1.hold with pfail := false } }
  else s

/-- The sensors have cooled to 10 °C below the trip point (R476): `die` is the highest reading in 1/16 °C. -/
def tripCooled (s : State) (die : Int) : Bool :=
  decide (die ≤ 16 * ((s.fld R.THERM_TRIP_TRIP : Int) - 10))

/-- POSTFLUSH_RELEASE: HU_PFAIL# has been high for 100 ms; the device leaves its hold (R476, R486). -/
def holdRelease (s : State) (die : Int) : State :=
  let go : State := { s with
    boot := { s.boot with held := .none, pllLost := false }, hold := { s.hold with pfail := false } }
  match s.boot.held with
  | .post trip | .warm trip => if trip ∧ ¬ tripCooled s die then s else go
  | _ => s

/-- Has the flush nothing left to program? -/
def flushIdle (s : State) : Bool :=
  !s.media.progs.any Prog.slc && !(tblKeys s.media.luns).any (fun l =>
    match lunOf s l with
    | some x => (match x.op with | some o => (match o.prog with | some g => g.slc | none => false) | none => false)
    | none => false)

/-- FLUSH_END: the pending journal records and the END record are written (R464), and the post-flush reset follows. -/
def flushEnd (s : State) (us : Nat) : State :=
  if flushing s ∧ flushIdle s then
    let n := match s.ftl.cellar with | some c => c.ents.length | none => 0
    let s1 := if exposure s = 0 then s else flushPend s
    postFlushReset (flushStops s1 true n us) s.hold.trip
  else s

/-- A warm reset by SYS_RSTCTL.WARM (R478): from a house core, or a class D requester. -/
def warmBy (s : State) (rq : Requester) : State :=
  match rq with
  | .classD => warmReset s R.SYS_RSTCAUSE_SWWARM true
  | .core c => if 32 ≤ c.val then warmReset s R.SYS_RSTCAUSE_SWWARM true else s
  | _ => s

/-- SYS_RSTCTL.HCRUN: house cores 1 to 3 leave reset; clearing a bit does not stop a core. -/
def houseRun (s : State) (mask : Nat) : State :=
  [1, 2, 3].foldl (fun acc n =>
    if mask.testBit (n - 1) ∧ (acc.core (32 + n)).run = .idle then
      acc.setCore (32 + n) { Core.houseReset with run := .run, ic := (acc.core (32 + n)).ic, dc := (acc.core (32 + n)).dc }
    else acc) (s.setFld R.SYS_RSTCTL_HCRUN mask)

/-! ### The watchdog -/

/-- WATCHDOG_EXPIRY: the warm reset, at once; before WDT_BOOTOK it counts towards BOOTFAIL (R452, R453). -/
def wdtExpiry (s : State) : State :=
  if wdtRuns s then
    let s1 := s.raise R.WDT_STATUS_EXPIRED
    warmReset (if s.boot.bootOk then s1 else s1.addSat R.WDT_STATUS_BOOTFAIL 1) R.SYS_RSTCAUSE_WDT true
  else s

/-! ### Start-up failures (R485) -/

/-- Record a failed phase and the outcome in force. -/
def bootFail (s : State) (ph detail : Nat) (m : BootMode) : State :=
  let s1 := s.setFlds [(R.SYS_PHASE_FAILPH, ph), (R.SYS_PHASE_DETAIL, detail), (R.SYS_PHASE_FAIL, 1)]
  { s1 with boot := { s1.boot with mode := m } }

/-- HALT: the device stops. -/
def bootHalt (s : State) (ph detail : Nat) : State :=
  let s1 := bootFail s ph detail .halt
  { s1 with cores := s1.cores.map (fun k => { k with run := .idle }) }

/-- FATAL: PCIe and the NVMe controller keep running. -/
def bootFatal (s : State) (ph detail : Nat) : State := bringUp (bootFail s ph detail .fatal) .nvme

/-- RECOVERY: the boot ROM's minimal endpoint. -/
def bootRecovery (s : State) (ph detail : Nat) : State := (bootFail s ph detail .recovery).setFld R.SYS_PHASE_PHASE 13

/-- A failure of CLOCKS: retried twice, then HALT. -/
def clocksFail (s : State) (detail : Nat) : State :=
  if s.boot.retries < 2 then
    let s1 := s.setFlds ((R.SYS_PHASE_PHASE, 1) :: clockFields.map (fun f => (f, 0)))
    { s1 with boot := { s1.boot with retries := s1.boot.retries + 1 } }
  else bootHalt s 1 detail

/-! ### The root PLL (R34 to R38) -/

def coreClocks : List Fld :=
  [R.SYS_CLKSTAT_ROOT_LOCK, R.SYS_CLKSTAT_TCLK_ON, R.SYS_CLKSTAT_NCLK_ON, R.SYS_CLKSTAT_MCLK_ON, R.SYS_CLKSTAT_FCLK_ON,
   R.SYS_CLKSTAT_SCLK_ON]

def clocksOn (s : State) : State := s.setFlds (coreClocks.map (fun f => (f, 1)))
def clocksOff (s : State) : State := s.setFlds (coreClocks.map (fun f => (f, 0)))

/-- ROOT_PLL_LOCK_LOSS: in service the hold-up controller takes control; during start-up the clock phase fails. -/
def pllLoss (s : State) : State :=
  if s.boot.held ≠ .none ∨ s.boot.mode = .halt ∨ ¬ s.flag R.SYS_CLKSTAT_ROOT_LOCK then s
  else
    let s1 := (clocksOff s).raise R.SYS_CLKSTAT_ROOT_LOSS
    if s.fld R.SYS_PHASE_PHASE = 12 ∨ flushing s then { s1 with boot := { s1.boot with pllLost := true } }
    else clocksFail s1 0

/-- ROOT_PLL_RELOCK: the flush begins, exactly as for a loss of input power. -/
def pllRelock (s : State) : State :=
  if s.boot.pllLost ∧ ¬ s.flag R.SYS_CLKSTAT_ROOT_LOCK ∧ s.boot.held = .none then flushStart (clocksOn s) 2 false else s

/-! ### JTAG (R490) -/

/-- Lifecycle LOCKED or DECOMMISSIONED leave only IDCODE and BYPASS. -/
def tapClosed (s : State) : Bool := decide (2 ≤ s.fuses.lc)

/-- Select an instruction. -/
def tapIr (s : State) (ir : TapIr) : State :=
  { s with tap := { s.tap with ir := if tapClosed s ∧ ir ≠ .idcode then .bypass else ir } }

/-- EXTEST or SAMPLE/PRELOAD with one pass through the boundary-scan register: the levels captured, the value shifted in. -/
def tapScan (s : State) (ir : TapIr) (levels shifted : Nat) : State :=
  let s1 := tapIr s ir
  if s1.tap.ir = .bypass then s1 else { s1 with tap := { s1.tap with captured := levels, cells := shifted } }

/-! ### The commands -/

def execFlushEnd (us : Nat) (s : State) : Result := .next (flushEnd s us)
def execPostflushRelease (die : Int) (s : State) : Result := .next (holdRelease s die)
def execAonPowerOn (s : State) : Result := .next (powerOnReset s)
def execColdReset (s : State) : Result := .next (sysRstLow s)
def execSysRstRelease (bifur : Bool) (s : State) : Result := .next (sysRstHigh s bifur)
def execMainRailLow (recorded us : Nat) (s : State) : Result := .next (countCycle s (coldReset (cutFlush s recorded us)))
def execAonRailLow (recorded us : Nat) (s : State) : Result := .next (countCycle s (powerOnReset (cutFlush s recorded us)))
def execWarmReset (rq : Requester) (s : State) : Result := .next (warmBy s rq)
def execHouseCoreRun (mask : Fin 8) (s : State) : Result := .next (houseRun s mask.val)
def execWatchdogWarn (s : State) : Result := .next (wdtWarn s)
def execWatchdogExpiry (s : State) : Result := .next (wdtExpiry s)
def execRootPllLockLoss (s : State) : Result := .next (pllLoss s)
def execRootPllRelock (s : State) : Result := .next (pllRelock s)
def execSerdesPllLock (damdom : Bool) (s : State) : Result :=
  .next (s.raise (if damdom then R.SYS_CLKSTAT_DAMDOM_LOCK else R.SYS_CLKSTAT_PCIE_LOCK))
def execRtcCrystalStart (s : State) : Result := .next (s.raise R.SYS_CLKSTAT_RTC_OSC)
def execTapReset (s : State) : Result := .next { s with tap := { s.tap with ir := .idcode } }
def execTapExtest (levels shifted : Nat) (s : State) : Result := .next (tapScan s .extest levels shifted)
def execTapIdcode (s : State) : Result := .next (tapIr s .idcode)
def execTapSamplePreload (levels shifted : Nat) (s : State) : Result := .next (tapScan s .sample levels shifted)
def execTapHighz (s : State) : Result := .next (tapIr s .highz)
def execTapClamp (s : State) : Result := .next (tapIr s .clamp)
def execTapDebug (s : State) : Result := .next (tapIr s .debug)
def execTapBypass (s : State) : Result := .next (tapIr s .bypass)

end Sys2Proof.Machine
end

