-- ==== Sys2Proof/Machine/Reg.lean ====
section
/-! DEFINITION. Sys2Proof/Machine/Reg.lean: writes to register space: who reaches a block (R54, R428), the field access
codes (R12), reserved encodings (R16), locks, and what the cards give a write beyond that. -/

namespace Sys2Proof.Machine

/-! ### Windows and who reaches them -/

/-- The block whose window holds an offset of register space (Table 1.11). -/
def windowBlock (off : Nat) : Option BlockId :=
  let w := off / blockWindow
  if w = 0 then some .sys else if w = 1 then some .ecc else if w = 2 then some .disp else if w = 3 then some .ret
  else if w = 4 then some .flow else if w = 5 then some .pat else if w = 6 then some .rule else if w = 7 then some .codec
  else if w = 8 then some .nvme else if w = 9 then some .pcie else if w = 0xA then some .media else if w = 0xB then some .ftla
  else if w = 0xC then some .dram else if w = 0xD then some .dma else if w = 0xE then some .digest else if w = 0xF then some .vault
  else if h : 0x10 ≤ w ∧ w < 0x30 then some (.nand ⟨w - 0x10, by omega⟩)
  else if w = 0x30 then some .keys else if w = 0x31 then some .fab else if w = 0x35 then some .cstore
  else if w = 0x36 then some .hold else if w = 0x37 then some .therm else if w = 0x38 then some .wdt
  else if w = 0x39 then some .gpio
  else if h : 0x40 ≤ w ∧ w < 0x60 then some (.tile ⟨w - 0x40, by omega⟩)
  else if h : 0x60 ≤ w ∧ w < 0x78 then some (.dch ⟨w - 0x60, by omega⟩)
  else if h : 0x78 ≤ w ∧ w < 0x7C then some (.dport ⟨w - 0x78, by omega⟩)
  else none

/-- May a requester reach a block (R54, R391, R428)? A tile core reaches its own TILE registers alone, a DMA channel
neither the DMA block nor VAULT and KEYS, and class D nothing once the part is LOCKED. -/
def mayReach (s : State) (rq : Requester) (b : BlockId) : Bool :=
  match rq with
  | .core c => if c.val < 32 then (match b with | .tile t => t.val == c.val | _ => false) else true
  | .classA _ => true
  | .classD => classDOpen s
  | .dma _ => b != .dma && b != .vault && b != .keys

/-! ### The access codes (R12) and reserved encodings (R16) -/

/-- Do `n` bytes from global address `base` end within usable DRAM? -/
def inDram (s : State) (base n : Nat) : Bool := decide (base + n ≤ dramEnd s)

/-- Bytes of the block table (R325). -/
def blockTableBytes (s : State) : Nat :=
  16 * (usedLuns s).foldl (fun n l => n + match persOf s l with | some p => lunBlocks p | none => 0) 0

/-- Is the adjacency table a permutation of 0 to 255 (R387)? -/
def adjOk (s : State) : Bool :=
  let m := (List.range 64).flatMap (fun n => (List.range 4).map (fun j => bitsOf (s.fld (R.DRAM_ADJ_MAP n)) (8 * j) 8))
  m.eraseDups.length == 256

/-- The points of a curve with point `k` written as `v`, ascending? -/
def curveOk (s : State) (n k v : Nat) : Bool :=
  ascends ((List.range 8).filterMap (fun i =>
    if i = k then (if bitOf v 16 then some (signedOf v 8, bitsOf v 8 8) else none)
    else if s.flag (R.THERM_CURVE_VALID n i) then
      some (signedOf (s.fld (R.THERM_CURVE_T n i)) 8, s.fld (R.THERM_CURVE_DUTY n i))
    else none))

/-- A DRAM_PANICn value (its card). -/
def panicOk (n v : Nat) : Bool :=
  let on := bitsOf v 0 7
  let off := bitsOf v 8 7
  decide (on ≤ 64) && decide (off ≤ 64) && (if n = 0 then decide (off < on) else decide (on < off))

/-- Does a value written leave the completion queue `n` of DMA within DRAM? -/
def dmaQueueFits (s : State) (base log2 : Nat) : Bool := inDram s (0x100000 * base) (16 * 2 ^ log2)

/-- The conditions that join fields or the size of memory: may field `lo` of the register at offset `o` of a block take
its part of the value `v` written? -/
def specialOk (s : State) (b : BlockId) (o lo v : Nat) : Bool :=
  let dq := s.fld R.CODEC_DQ_SIZE_LOG2
  match b with
  | .ecc =>
    if o = 0x30 then decide (bitsOf v 24 4 < 8) && bitsOf v 24 4 != 5
    else decide (bitsOf v 0 15 < macWords (s.fld R.ECC_TEST_CTRL_MACRO))
  | .disp => bitsOf v 0 18 == 0 || inDram s (0x100000 * s.fld (R.DISP_LAND_BASE_BASE (o / 8 - 4))) (0x100000 * bitsOf v 0 18)
  | .ret => bitsOf v 0 18 == 0 || inDram s (0x100000 * s.fld R.RET_OSTG_BASE_BASE) (0x100000 * bitsOf v 0 18)
  | .rule => inDram s (0x400000 * bitsOf v 0 26) 0x400000
  | .codec =>
    if o = 0x10 then inDram s (0x100000 * bitsOf v 0 28) (32 * 2 ^ dq)
    else if o = 0x20 then inDram s (0x100000 * bitsOf v 0 28) (16 * 2 ^ dq)
    else
      let n := bitsOf v 0 5
      decide (4 ≤ n) && decide (n ≤ 16) && inDram s (0x100000 * s.fld R.CODEC_DQ_BASE_BASE) (32 * 2 ^ n) &&
        inDram s (0x100000 * s.fld R.CODEC_DC_BASE_BASE) (16 * 2 ^ n)
  | .ftla =>
    let x := bitsOf v 0 30
    if o = 0x10 then inDram s (0x100000 * bitsOf v 0 28) (blockTableBytes s)
    else if o = 0x34 then decide (x < s.fld R.FTLA_GCLOW_BLOCKS)
    else if o = 0x38 then decide (s.fld R.FTLA_FLOOR_BLOCKS < x) && decide (x < s.fld R.FTLA_GCHIGH_BLOCKS)
    else decide (s.fld R.FTLA_GCLOW_BLOCKS < x)
  | .dram =>
    if o = 0x18 then panicOk 0 v
    else if o = 0x1C then panicOk 1 v
    else if o = 0x20 then !bitOf v 9 || adjOk s
    else if lo < 16 then bitsOf v 0 8 != 0 && decide (bitsOf v 0 8 ≤ bitsOf v 8 8)
    else decide (bitsOf v 24 8 < bitsOf v 16 8)
  | .dma =>
    let n := o / 0x10 - 0x10
    if o % 0x10 = 0 then dmaQueueFits s (bitsOf v 0 28) (s.fld (R.DMA_CQ_SIZE_LOG2 n))
    else decide (4 ≤ bitsOf v 0 5) && decide (bitsOf v 0 5 ≤ 16) && dmaQueueFits s (s.fld (R.DMA_CQ_BASE_BASE n)) (bitsOf v 0 5)
  | .cstore => decide (bitsOf v 0 10 + bitsOf v 10 11 ≤ csBlocks)
  | .therm => curveOk s ((o - 0x100) / 0x20) (o % 0x20 / 4) v
  | .wdt => if o = 0x10 then bitsOf v 0 16 != 0 else decide (bitsOf v 0 16 < s.fld R.WDT_TIMEOUT_TIMEOUT)
  | .tile _ => v % 64 == 0
  | .dch _ => !bitOf v 7 || bitsOf v 0 8 == 0xFF
  | _ => true

/-- May a field take a value (R16)? -/
def legalFor (s : State) (b : BlockId) (o v : Nat) (f : CardField) : Bool :=
  let x := bitsOf v f.lo f.width
  match f.legal with
  | .any => true
  | .ranges rs => rs.any (fun r => decide (r.1 ≤ x) && decide (x ≤ r.2))
  | .mult k => x % k == 0
  | .special => specialOk s b o f.lo v

/-- Set a field, or keep it and record the reserved encoding. -/
def setLegal (s : State) (b : BlockId) (f : Fld) (x : Nat) (ok : Bool) : State := if ok then s.setFld f x else setCfgErr s b

/-- One field of a register write. `s0`: the state before the access, by which reserved encodings are judged. EN has its
own effect (R17). -/
def writeField (s0 : State) (b : BlockId) (o v : Nat) (s : State) (f : CardField) : State :=
  let fl : Fld := ⟨blockBase b + o, f.lo, f.width⟩
  let x := bitsOf v f.lo f.width
  let ok := legalFor s0 b o v f
  if o = 0 ∧ f.lo = 0 ∧ blockHasEnable b then s
  else
    match f.acc with
    | .ro => s
    | .rw => setLegal s b fl x ok
    | .wo => if ok then s else setCfgErr s b
    | .w1c => s.setFld fl (s.fld fl &&& (x ^^^ (2 ^ f.width - 1)))
    | .w1s => s.setFld fl (s.fld fl ||| x)
    | .rwl => if s0.flag (fldLock (blockBase b)) then (if x = s0.fld fl then s else setCfgErr s b) else setLegal s b fl x ok

/-- A register write by the access codes alone; a write to an unassigned offset is ignored (R11). -/
def writeCodes (s : State) (b : BlockId) (o v : Nat) : State :=
  match findCard (blockBase b + o) with
  | none => s
  | some (c, _, _) => c.fields.foldl (writeField s b o v) s

/-! ### Cache control (R165 to R168) -/

/-- One enable bit as written: the state, and whether the enable waits for the invalidate-all of the same write. -/
def cacheEnable (s : State) (c : Nat) (en ok : Fld) (want inv busy : Bool) : State × Bool :=
  if !want then (if s.flag en then s.setFlds [(en, 0), (ok, 0)] else s, false)
  else if s.flag en then (s, false)
  else if inv then (s, true)
  else if busy then (cacheErr s c, false)
  else if s.flag ok then (s.raise en, false)
  else (cacheErr s c, false)

/-- A write of TILE_CCTRL or SYS_HCCTRLn for core `c`. -/
def cacheControl (s0 : State) (c v : Nat) : State :=
  let old := (s0.core c).inv.getD ⟨false, false, false, false⟩
  let invI := bitOf v 4
  let invD := bitOf v 5 || bitOf v 6
  let s1 := if bitOf v 16 then s0.clear (ccErr c) else s0
  let s2 := if bitOf v 6 then cleanAll s1 c else s1
  let s3 := if invD then dropAll s2 c else s2
  let s4 := if invI then dropAllI s3 c else s3
  let i := cacheEnable s4 c (ccIcEn c) (ccIcOk c) (bitOf v 0) invI old.ic
  let d := cacheEnable i.1 c (ccDcEn c) (ccDcOk c) (bitOf v 1) invD old.dc
  let now : CacheInv :=
    ⟨old.ic || invI, old.dc || invD, i.2 || (old.enIc && bitOf v 0), d.2 || (old.enDc && bitOf v 1)⟩
  if now.ic || now.dc then (d.1.setCore c { d.1.core c with inv := some now }).raise (ccBusy c) else d.1

/-- INVALIDATE_ALL_DONE. -/
def invalidateDone (s : State) (c : Nat) : State :=
  match (s.core c).inv with
  | none => s
  | some i =>
    let s1 := (s.setCore c { s.core c with inv := none }).clear (ccBusy c)
    let s2 := if i.ic then s1.raise (ccIcOk c) else s1
    let s3 := if i.dc then s2.raise (ccDcOk c) else s2
    let s4 := if i.enIc then s3.raise (ccIcEn c) else s3
    if i.enDc then s4.raise (ccDcEn c) else s4

/-- Is the requester core `c`? -/
def isCore (rq : Requester) (c : Nat) : Bool := match rq with | .core k => k.val == c | _ => false

/-- Is the requester a house core? -/
def isHouse (rq : Requester) : Bool := (houseOf rq).isSome

/-- A write of the cache control register of core `c` by a requester (R168). -/
def cacheControlBy (s : State) (rq : Requester) (c v : Nat) : State :=
  let classA := match rq with | .classA _ => true | _ => false
  if c < 32 then
    if (isHouse rq || classA) && (s.tile c).job.isSome then tileClaimErr s c else cacheControl s c v
  else if isHouse rq && !isCore rq c then setClaimErr s .sys
  else cacheControl s c v

/-! ### The blocks -/

def sysWrite (s : State) (rq : Requester) (o v : Nat) : State :=
  if 0x40 ≤ o ∧ o < 0x50 then cacheControlBy s rq (32 + (o - 0x40) / 4) v
  else if o = 0x50 then
    let s1 := houseRun s (bitsOf v 0 3)
    let w := bitsOf v 16 16
    if w = 0 then s1 else if w = 0x5752 then warmBy s1 rq else setCfgErr s1 .sys
  else if o = 0x60 ∧ ¬ isHouse rq then s
  else writeCodes s .sys o v

def eccWrite (s : State) (rq : Requester) (o v : Nat) : State :=
  if o = 0x24 then
    let s1 := writeCodes s .ecc o v
    if bitOf v 31 then (if s.ecc.repair.isSome then setClaimErr s .ecc else repairGo s1) else s1
  else if 0x30 ≤ o ∧ o ≤ 0x40 then
    if !isHouse rq then setClaimErr s .ecc
    else if o = 0x30 then testOp (writeCodes s .ecc o v) (bitsOf v 1 2)
    else writeCodes s .ecc o v
  else writeCodes s .ecc o v

def flowWrite (s : State) (o v : Nat) : State :=
  if o = 0x10 then
    let op := bitsOf v 18 2
    let s1 := writeCodes s .flow o v
    if op = 0 ∨ op = 3 then s1 else flowCmd s1 (bitsOf v 0 18) op
  else writeCodes s .flow o v

def ruleWrite (s : State) (o v : Nat) : State :=
  let busy := s.flag R.RULE_STATUS_BUSY
  if o = 0x18 then
    let op := bitsOf v 24 2
    if busy ∧ op ≠ 0 then setClaimErr s .rule
    else
      let s1 := writeCodes s .rule o v
      if op = 1 then ruleInsert s1 else if op = 2 then ruleDelete s1 (bitsOf v 16 8) (bitsOf v 0 16) else s1
  else if 0x100 ≤ o ∧ o < 0x160 ∧ busy then setClaimErr s .rule
  else writeCodes s .rule o v

def ftlaWrite (s : State) (o v : Nat) : State :=
  if o = 0x14 then
    let op := bitsOf v 11 2
    if s.flag R.FTLA_STATUS_SCANBUSY ∧ op ≠ 0 ∧ op ≠ 3 then setClaimErr s .ftla else startScan (writeCodes s .ftla o v) op
  else if 0x34 ≤ o ∧ o ≤ 0x3C then gcUpdate (writeCodes s .ftla o v)
  else writeCodes s .ftla o v

def dramWrite (s : State) (o v : Nat) : State :=
  if 0x100 ≤ o ∧ o < 0x200 ∧ s.flag R.DRAM_RH_ADJ then setClaimErr s .dram else writeCodes s .dram o v

/-- The claim and release of an OWN register by its OP. -/
def ownWrite (s : State) (b : BlockId) (op : Nat) (claim release : State → State) : State :=
  if op = 1 then claim s else if op = 2 then release s else if op = 3 then setCfgErr s b else s

/-- DMA_CHn_CTRL as its owner writes it. -/
def dmaCtrl (s : State) (who : Who) (ch v : Nat) : State :=
  let s1 := s.setFld (R.DMA_CH_CTRL_CQ ch) (bitsOf v 4 3)
  let s2 := if bitOf v 0 then dmaGo s1 ch who else s1
  let was := s2.flag (R.DMA_CH_CTRL_PAUSE ch)
  let s3 := if bitOf v 1 then (if was then s2 else dmaPause s2 ch) else if was then dmaUnpause s2 ch else s2
  let s4 := if bitOf v 2 then dmaAbort s3 ch else s3
  if bitOf v 3 then dmaKick s4 ch else s4

/-- A write of a channel's registers: from its owner alone, OWN and STAT apart (R391). -/
def dmaChWrite (s : State) (rq : Requester) (ch r o v : Nat) : State :=
  let who := whoOf rq
  if r = 0x08 then ownWrite s .dma (bitsOf v 30 2) (fun t => dmaClaim t ch who) (fun t => if dmaOwns t ch who then dmaRelease t ch who else dmaRefuse t who)
  else if r = 0x04 then s
  else if ¬ dmaOwns s ch who then dmaRefuse s who
  else if r = 0 then dmaCtrl s who ch v
  else writeCodes s .dma o v

def dmaWrite (s : State) (rq : Requester) (o v : Nat) : State :=
  if o = 0x18 ∨ o = 0x1C then dmaEventSet s ((o - 0x18) / 4) v
  else if 0x100 ≤ o ∧ o < 0x180 ∧ o % 0x10 = 8 then dmaHeadWrite s ((o - 0x100) / 0x10) (bitsOf v 0 16)
  else if 0x1000 ≤ o ∧ o < 0x2000 ∧ o % 0x40 < 0x30 then dmaChWrite s rq ((o - 0x1000) / 0x40) (o % 0x40) o v
  else writeCodes s .dma o v

/-- DIGEST_CTXn_CTRL as its owner writes it. -/
def digCtrl (s : State) (who : Who) (n v : Nat) : State :=
  let s1 := writeCodes s .digest (0x1000 + n * 0x80) v
  let op := bitsOf v 0 3
  let alg := s1.fld (R.DIGEST_CTX_CTRL_ALG n)
  if op = 1 then digDrive s1 who n 1 (fun t => digInit t n alg (bitOf v 7))
  else if op = 2 then digDrive s1 who n 2 (fun t => digFeed t n)
  else if op = 3 then digDrive s1 who n 3 (fun t => digFinal t n)
  else if op = 4 then digDrive s1 who n 4 (fun t => digAbsorbCtx t n (bitsOf v 8 6))
  else if op = 5 then digDrive s1 who n 5 (fun t => digCompare t n true)
  else if op = 6 then digDrive s1 who n 6 (fun t => (digWipe t n).raise R.DIGEST_ISR_DONE)
  else s1

/-- A write of register `r` of context `n` (R407, R408). -/
def digCtxWrite (s : State) (who : Who) (n r v : Nat) : State :=
  if r = 0x08 then ownWrite s .digest (bitsOf v 30 2) (fun t => digClaim t n who) (fun t => digRelease t n who)
  else if r = 0x04 ∨ r = 0x38 ∨ r = 0x3C then s
  else if digOwner s n ≠ who ∨ who.1 = 0 then digRefuse s who
  else if r = 0 then digCtrl s who n v
  else writeCodes s .digest (0x1000 + n * 0x80 + r) v

def digestWrite (s : State) (rq : Requester) (o v : Nat) : State :=
  if 0x1000 ≤ o ∧ o < 0x3000 then digCtxWrite s (whoOf rq) ((o - 0x1000) / 0x80) (o % 0x80) v else writeCodes s .digest o v

/-- VAULT_CMD as the owner writes it. -/
def vaultCmdWrite (s : State) (w : Who) (v : Nat) : State :=
  let s1 := writeCodes s .vault 0x14 v
  let op := bitsOf v 0 3
  let mode := s1.fld R.VAULT_CMD_MODE
  let slot := s1.fld R.VAULT_CMD_SLOT
  if op = 1 then vaultCmd s1 w (fun t => vaultOpen t mode slot (bitOf v 6))
  else if op = 2 then vaultCmd s1 w vaultStep
  else if op = 3 then vaultCmd s1 w vaultClose
  else if op = 4 then vaultCmd s1 w vaultUnwrap
  else if op = 5 then vaultCmd s1 w vaultWrap
  else s1

/-- Is a message being encrypted? -/
def vaultEncrypting (s : State) : Bool := match s.vault.msg with | some m => !m.decrypt | none => false

def vaultWrite (s : State) (rq : Requester) (o v : Nat) : State :=
  match vaultWho s rq with
  | none => s
  | some w =>
    if o = 0x10 then
      let s1 := if bitOf v 0 then vaultAcquire s w else s
      if bitOf v 1 then vaultRelease s1 w else s1
    else if 0x14 ≤ o ∧ o < 0x40 ∧ o ≠ 0x2C then
      if !vaultMine s w then setClaimErr s .vault
      else if o = 0x14 then vaultCmdWrite s w v
      else if 0x30 ≤ o ∧ vaultEncrypting s then s
      else writeCodes s .vault o v
    else writeCodes s .vault o v

def keysWrite (s : State) (rq : Requester) (o v : Nat) : State :=
  if o = 0x10 then keysCmd s (bitsOf v 10 2) (bitsOf v 0 9) (bitsOf v 16 8) (bitsOf v 24 4)
  else if o = 0x1C then lifecycleAdvance s rq (bitsOf v 0 2) (bitsOf v 16 16)
  else writeCodes s .keys o v

def fabWrite (s : State) (o v : Nat) : State :=
  let s1 := writeCodes s .fab o v
  if o = 0x2C then timeSet s1
  else if o = 0x40 ∧ bitOf v 31 then hwTagGo s1 (bitsOf v 0 6) (bitsOf v 8 20)
  else s1

def cstoreWrite (s : State) (rq : Requester) (o v : Nat) : State :=
  if 0x10 ≤ o ∧ o ≤ 0x18 then
    if !inGate s rq then gateReject s
    else
      let s1 := writeCodes s .cstore o v
      if o = 0x10 ∧ bitOf v 31 then csGo s1 rq (bitsOf v 0 3) else s1
  else writeCodes s .cstore o v

def wdtWrite (s : State) (o v : Nat) : State :=
  if o = 0x1C then wdtKick s (bitsOf v 0 16) else if o = 0x20 then wdtBootOk s v else writeCodes s .wdt o v

/-- The pins whose OUT bit a write reaches: held by cores or class A, with OE = 1. -/
def drivenPins (s : State) : List Nat :=
  (List.range 16).filter (fun n => decide (3 ≤ s.fld (R.GPIO_PIN_OWN n)) && s.flag (R.GPIO_PIN_OE n))

def gpioWrite (s : State) (rq : Requester) (o v : Nat) : State :=
  if o = 0x14 then
    s.setFld R.GPIO_OUT_OUT ((List.range 16).foldl (fun (acc : Nat) n =>
      let bit := if (drivenPins s).contains n then bitOf v n else (s.fld R.GPIO_OUT_OUT).testBit n
      acc + b2n bit * 2 ^ n) 0)
  else if 0x40 ≤ o ∧ o < 0x80 then
    let n := (o - 0x40) / 4
    let op := bitsOf v 30 2
    let mine (t : State) : Bool := (gpioRank rq).isSome && gpioRank rq == some (t.fld (R.GPIO_PIN_OWN n))
    let s1 := ownWrite s .gpio op (fun t => gpioClaim t rq n) (fun t => gpioRelease t rq n)
    let s2 := s1.setFld (R.GPIO_PIN_EDGE n) (bitsOf v 1 2)
    if mine s || mine s1 then s2.setFld (R.GPIO_PIN_OE n) (bitsOf v 0 1) else s2
  else writeCodes s .gpio o v

/-! ### TILE registers (R158, R201 to R204, R222, R224, R236, R413) -/

/-- TILE_DMA as written: CH takes effect first, then the tile's claim, release, GO, PAUSE and ABORT. -/
def tileDmaWrite (s : State) (t v : Nat) : State :=
  let s1 := writeCodes s (.tile (Fin.ofNat 32 t)) 0x140 (v &&& 0xF7FFFFFF)
  let ch := s1.fld (R.TILE_DMA_CH t)
  let who : Who := (3, t)
  let s2 := if bitsOf v 24 2 = 1 then dmaClaim s1 ch who
    else if bitsOf v 24 2 = 2 then (if dmaOwns s1 ch who then dmaRelease s1 ch who else dmaRefuse s1 who) else s1
  if !dmaOwns s2 ch who then (if bitOf v 26 || bitOf v 28 then dmaRefuse s2 who else s2)
  else
    let a := tileLocalAddr t (s2.fld (R.TILE_DMAPROG_ADDR t))
    let s3 := if bitOf v 26 then
        dmaGo (s2.setFlds [(R.DMA_CH_PROGLO_PROGLO ch, a), (R.DMA_CH_PROGHI_PROGHI ch, a / 2 ^ 32)]) ch who
      else s2
    let was := s3.flag (R.DMA_CH_CTRL_PAUSE ch)
    let s4 := if bitOf v 27 then (if was then s3 else dmaPause s3 ch) else if was then dmaUnpause s3 ch else s3
    if bitOf v 28 then dmaAbort s4 ch else s4

/-- A write of a TILE_MIS, TILE_MOS or TILE_MACC register (R204). -/
def streamWrite (s : State) (t o v : Nat) : State :=
  let b : BlockId := .tile (Fin.ofNat 32 t)
  let st := s.fld (R.TILE_MSTAT_MSTATE t)
  if st = 1 ∨ st = 2 then tileClaimErr s t
  else
    let s1 := writeCodes s b o v
    if st ≠ 3 then s1
    else if 0x80 ≤ o ∧ o < 0xC0 then
      updMari s1 t (fun m => { m with isRewritten := (o - 0x80) / 0x10 :: m.isRewritten.filter (· != (o - 0x80) / 0x10) })
    else if 0xC0 ≤ o ∧ o < 0xE0 then
      updMari s1 t (fun m => { m with osRewritten := (o - 0xC0) / 0x10 :: m.osRewritten.filter (· != (o - 0xC0) / 0x10) })
    else s1

/-- TILE_MCMD: TAB and STEP take their values, then CMD acts (R202). -/
def mcmdWrite (s : State) (t v : Nat) : State :=
  let s1 := writeCodes s (.tile (Fin.ofNat 32 t)) 0x40 v
  let cmd := bitsOf v 0 3
  if cmd = 1 then mariStart s1 t (bitsOf v 8 3)
  else if cmd = 2 then mariResume s1 t (bitsOf v 16 10)
  else if cmd = 3 then mariAbort s1 t
  else s1

def tileWrite (s : State) (rq : Requester) (t o v : Nat) : State :=
  let b : BlockId := .tile (Fin.ofNat 32 t)
  if o = 0 then
    let s1 := writeCodes s b o v
    if bitOf v 1 then tileReset s1 t causeException else s1
  else if o = 0x14 then cacheControlBy s rq t v
  else if o = 0x20 then ringDoorbell s t v
  else if o = 0x40 then mcmdWrite s t v
  else if o = 0x50 ∨ (0x80 ≤ o ∧ o < 0xE0) then streamWrite s t o v
  else if o = 0x100 then (if bitsOf v 0 2 = 1 then codecClose s t else writeCodes s b o v)
  else if o = 0x108 then codecSelect s t (bitsOf v 0 8)
  else if o = 0x114 then
    let s1 := writeCodes s b o v
    if bitOf v 31 then tileDjob s1 t (s1.fld (R.TILE_DJOB_DESC t)) else s1
  else if o = 0x140 then tileDmaWrite s t v
  else if 0x200 ≤ o ∧ o < 0x280 then digCtxWrite s (3, t) (s.fld (R.TILE_DGSEL_CTX t)) (o - 0x200) v
  else writeCodes s b o v

/-! ### The write -/

/-- What a 32-bit write does to a block's registers beyond EN. -/
def blockBody (s : State) (rq : Requester) (b : BlockId) (o v : Nat) : State :=
  match b with
  | .sys => sysWrite s rq o v
  | .ecc => eccWrite s rq o v
  | .disp => clearBlocked (writeCodes s b o v)
  | .flow => flowWrite s o v
  | .rule => ruleWrite s o v
  | .codec => if o = 0x18 then dqTailWrite s (bitsOf v 0 16) else writeCodes s b o v
  | .ftla => ftlaWrite s o v
  | .dram => dramWrite s o v
  | .dma => dmaWrite s rq o v
  | .digest => digestWrite s rq o v
  | .vault => vaultWrite s rq o v
  | .keys => keysWrite s rq o v
  | .fab => fabWrite s o v
  | .cstore => cstoreWrite s rq o v
  | .hold => if o = 0x180 then holdSave s v else writeCodes s b o v
  | .therm => if o = 0x188 then thermSave s v else writeCodes s b o v
  | .wdt => wdtWrite s o v
  | .gpio => gpioWrite s rq o v
  | .tile t => tileWrite s rq t.val o v
  | _ => writeCodes s b o v

/-- A 32-bit write at offset `o` of a block's window: the request in EN (R17), then the rest. -/
def blockWrite (s : State) (rq : Requester) (b : BlockId) (o v : Nat) : State :=
  if o = 0 ∧ blockHasEnable b then
    let s1 := writeEn s b (v % 2)
    if b = .wdt ∧ s.flag R.WDT_CTRL_LOCK then s1 else blockBody s1 rq b o v
  else blockBody s rq b o v

/-- A 32-bit write to register space; none is a bus error at the requester (R9, R11, R53, R54). -/
def regWrite (s : State) (rq : Requester) (off v : Nat) : Option State :=
  if off % 4 ≠ 0 then none
  else
    match windowBlock off with
    | none => none
    | some b => if mayReach s rq b then some (blockWrite s rq b (off % blockWindow) (v % 2 ^ 32)) else none

/-- A 64-bit write: the low word, then the high one (R10). -/
def regWrite64 (s : State) (rq : Requester) (off v : Nat) : Option State :=
  if off % 8 ≠ 0 then none
  else
    match regWrite s rq off v with
    | none => none
    | some s1 => regWrite s1 rq (off + 4) (v / 2 ^ 32)

end Sys2Proof.Machine
end

