-- ==== Sys2Proof/Machine/RegView.lean ====
section
/-! DEFINITION. Sys2Proof/Machine/RegView.lean: reads of register space: the stored fields, the fields that show what the
model holds elsewhere, and the reads that have an effect. -/

namespace Sys2Proof.Machine

/-- A register's stored fields; a write-only field reads 0 (R12), and so does an unassigned offset (R11). -/
def regShown (s : State) (off : Nat) : Nat :=
  match findCard off with
  | none => 0
  | some (c, _, _) => c.fields.foldl (fun (n : Nat) f =>
      if f.acc = .wo then n else n + s.fld ⟨off, f.lo, f.width⟩ * 2 ^ f.lo) 0

/-- A value with one field replaced. -/
def withField (n lo w x : Nat) : Nat := n - bitsOf n lo w * 2 ^ lo + x % 2 ^ w * 2 ^ lo

/-- A value with several fields replaced: low bit, width, value. -/
def withFields (n : Nat) (fs : List (Nat × Nat × Nat)) : Nat := fs.foldl (fun (a : Nat) f => withField a f.1 f.2.1 f.2.2) n

/-- How many elements of a list satisfy a test. -/
def countOf {α : Type} (l : List α) (p : α → Bool) : Nat := (l.filter p).length

/-- The profile register of codec profile `n` (CODEC_PROFn). -/
def profWord (s : State) (n : Nat) : Nat :=
  match profOf s n with
  | some p => withFields 0 [(0, 2, p.mode), (2, 2, p.pred), (4, 2, p.width), (6, 2, p.budget), (8, 1, 1), (16, 13, p.line)]
  | none => 0

/-- The attribute register of key slot `n`. -/
def keyAttr (s : State) (n : Nat) : Nat :=
  match slotKey s n with
  | some k => withFields 0 [(0, 1, 1), (8, 8, k.ktype), (16, 4, k.usage)]
  | none => 0

/-- The registers of hallway window `n` (FAB_HWn). -/
def hwWord (s : State) (n r : Nat) : Nat :=
  match findWin s n with
  | some w =>
    if r = 0 then w.base / 0x10000 else if r = 4 then w.slots else if r = 8 then w.tagBase / 0x10000
    else 1 + 2 * b2n w.rdall
  | none => 0

/-- The remap register of logical block `n` (R431). -/
def remapWord (s : State) (n : Nat) : Nat :=
  match csPhys s n with
  | some p => p + (if p = n then 0 else 2 ^ 31)
  | none => n + 2 ^ 30

/-- CSTORE_STATUS of the operation in progress; the progress is a free value. -/
def cstoreStatus (s : State) (n : Nat) : Nat × State :=
  match s.code.op with
  | none => (n, s)
  | some o =>
    (withFields n [(16, 1, 1), (17, 2, o.block / 256), (19, 4, csOpCode o), (24, 8, (Config.freeByte s.free).toNat)], s.fresh.2)

/-- Register `r` of digest context `n`. -/
def digWord (s : State) (n r : Nat) : Nat :=
  if 0x40 ≤ r then digResult s n ((r - 0x40) / 4) else regShown s (blockBase .digest + 0x1000 + n * 0x80 + r)

/-- TILE registers of tile `t`. -/
def tileView (s : State) (t o n : Nat) : Nat :=
  let x := s.tile t
  if 0x80 ≤ o ∧ o < 0xC0 ∧ o % 0x10 = 4 then withField n 17 1 (b2n (isMetered s t ((o - 0x80) / 0x10)))
  else if o = 0x104 then
    withFields n [(0, 13, codecPend x), (16, 8, x.curProf), (24, 1, b2n (!x.formed.isEmpty || !x.encoded.isEmpty)),
      (25, 1, b2n (x.lane.isSome || x.tileDecRun))]
  else if o = 0x120 then withField n 0 13 (kqUsed x)
  else if o = 0x140 ∨ o = 0x14C then
    let ch := s.fld (R.TILE_DMA_CH t)
    if dmaOwns s ch (3, t) then
      if o = 0x140 then withFields n [(8, 1, 1), (27, 1, s.fld (R.DMA_CH_CTRL_PAUSE ch))]
      else withFields n [(0, 3, dmaState s ch), (8, 4, s.fld (R.DMA_CH_STAT_LAST ch))]
    else n
  else if 0x200 ≤ o ∧ o < 0x280 then digWord s (s.fld (R.TILE_DGSEL_CTX t)) (o - 0x200)
  else n

/-- The time registers (R10): a read of the low word latches the high one for its next read. -/
def timeView (s : State) (o : Nat) : Nat × State :=
  if o = 0x20 then (timestamp s % 2 ^ 32, { s with fab := { s.fab with latch := some (timestamp s / 2 ^ 32) } })
  else (s.fab.latch.getD (timestamp s / 2 ^ 32), { s with fab := { s.fab with latch := none } })

/-- What a read of offset `o` of a block returns, `n` being its stored fields. -/
def blockView (s : State) (rq : Requester) (b : BlockId) (o n : Nat) : Nat × State :=
  match b with
  | .ecc => if 0x30 ≤ o ∧ o ≤ 0x40 ∧ ¬ isHouse rq then (0, setClaimErr s .ecc) else (n, s)
  | .disp =>
    if o = 4 then
      (withFields n [(16, 1, b2n (!blockOn s .disp || s.flows.blocked.any (fun x => !x.fab && x.why == .device))),
        (17, 1, b2n (fabWithheld s))], s)
    else if o = 0x14 then (withField n 0 14 s.flows.parcels.length, s)
    else if 0x100 ≤ o ∧ o < 0x180 then
      let t := (o - 0x100) / 4
      (withFields n [(0, 7, (dequeOf s t).length), (7, 1, b2n (tileBusy s t))], s)
    else (n, s)
  | .ret => if o = 0x20 then (ostUsedMib s, s) else (n, s)
  | .pat =>
    if o = 4 then (withField n 16 7 (countOf (List.range 64) (asetLoaded s)), s)
    else if o = 0x10 then (largestFree s, s)
    else (n, s)
  | .rule => if o = 0x20 then (nValid s, s) else (n, s)
  | .codec =>
    if o = 4 then (withField n 16 6 (countOf s.tiles (fun e => e.2.lane.isSome)), s)
    else if 0x400 ≤ o ∧ o < 0x800 then (profWord s ((o - 0x400) / 4), s)
    else (n, s)
  | .nvme =>
    if o = 4 then (withField n 17 1 (b2n s.nvme.selfTest.run.isSome), s)
    else if o = 0x18 then (withField n 0 13 (countOf s.nvme.cmds (fun c => c.lock.isSome)), s)
    else (n, s)
  | .ftla =>
    if o = 0x30 then (atticCount s, s)
    else if o = 0x44 then (withField 0 0 24 (fineFree s), s)
    else (n, s)
  | .dma => if o = 4 then (withField n 16 7 (dmaActive s), s) else (n, s)
  | .digest =>
    if o = 4 then (withField n 16 7 (digOwned s), s)
    else if 0x1000 ≤ o ∧ o < 0x3000 then (digWord s ((o - 0x1000) / 0x80) (o % 0x80), s)
    else (n, s)
  | .vault =>
    if o = 0x10 then
      match vaultWho s rq with
      | some w => (withField n 8 2 (vaultView s w), s)
      | none => (n, s)
    else (n, s)
  | .keys =>
    if o = 0x18 then rngRead s
    else if 0x1000 ≤ o ∧ o < 0x1800 then (keyAttr s ((o - 0x1000) / 4), s)
    else (n, s)
  | .fab =>
    if o = 0x20 ∨ o = 0x24 then timeView s o
    else if 0x100 ≤ o ∧ o < 0x500 then (hwWord s ((o - 0x100) / 0x10) (o % 0x10), s)
    else (n, s)
  | .cstore =>
    if o = 4 then cstoreStatus s n
    else if 0x1000 ≤ o ∧ o < 0x2000 then (remapWord s ((o - 0x1000) / 4), s)
    else (n, s)
  | .hold => if o = 0x10 then (s.hold.w / 4096, s) else if o = 0x14 then ((exposure s + 4095) / 4096, s) else (n, s)
  | .tile t => (tileView s t.val o n, s)
  | _ => (n, s)

/-- A 32-bit read of register space; none is a bus error at the requester. -/
def regRead (s : State) (rq : Requester) (off : Nat) : Option (Nat × State) :=
  if off % 4 ≠ 0 then none
  else
    match windowBlock off with
    | none => none
    | some b => if mayReach s rq b then some (blockView s rq b (off % blockWindow) (regShown s off)) else none

/-- A 64-bit read: the low word, then the high one (R10). -/
def regRead64 (s : State) (rq : Requester) (off : Nat) : Option (Nat × State) :=
  if off % 8 ≠ 0 then none
  else
    match regRead s rq off with
    | none => none
    | some (lo, s1) =>
      match regRead s1 rq (off + 4) with
      | none => none
      | some (hi, s2) => some (lo + 2 ^ 32 * hi, s2)

/-! ### Interrupts of the house cores (R24) -/

/-- The offsets of every block's window. -/
def windowOffsets : List Nat := ((List.range 0x7C).map (· * blockWindow)).filter (fun w => (windowBlock w).isSome)

/-- Does a block assert an event: an ISR bit whose IER bit is 1? -/
def asserts (s : State) (w : Nat) : Bool := (s.regStored (w + 8)) &&& (s.regStored (w + 0xC)) != 0

/-- Is any enabled event asserted to the house cores? -/
def houseIrq (s : State) : Bool := windowOffsets.any (asserts s)

/-- The request of a tile core (R172). -/
def tileIrq (s : State) (t : Nat) : Bool :=
  (s.regStored (0x400018 + t * blockWindow)) &&& (s.regStored (0x40001C + t * blockWindow)) != 0

end Sys2Proof.Machine
end

