-- ==== Sys2Proof/Machine/Access.lean ====
section
/-! DEFINITION. Sys2Proof/Machine/Access.lean: the accesses of a Siriz core: how an address is checked (R91 to R93), what it
reaches (R52, R95 to R97) and how the caches and the eviction buffer serve it (R160 to R163, R175). -/

namespace Sys2Proof.Machine

/-- The kind of an access, as CAUSE names it (Table 3.8). -/
inductive AccKind where
  | fetch | read | write | stackRead | stackWrite
  deriving DecidableEq, Repr

def accCode : AccKind → Nat
  | .fetch => 1
  | .read => 2
  | .write => 3
  | .stackRead => 4
  | .stackWrite => 5

def accWrites : AccKind → Bool
  | .write | .stackWrite => true
  | _ => false

/-- An exception that an instruction raises: its vector, the access kind and FADDR of its frame, `n` of TRAP, whether the
return PC is the next instruction (Table 3.7), whether the target of an access reported it, and the words performed
before it (R517). -/
structure Trap where
  v : Nat
  kind : Nat
  faddr : Word
  arg : Nat
  after : Bool
  target : Bool
  done : Nat
  deriving DecidableEq, Repr

/-- An exception on an access. -/
def accTrap (v : Nat) (k : AccKind) (a : Word) (target : Bool) : Trap :=
  { v := v, kind := accCode k, faddr := a, arg := 0, after := false, target := target, done := 0 }

/-- What an access or an instruction comes to: its result, or an exception; and the state. -/
inductive CoreAcc (α : Type) where
  | ok (x : α) (s : State)
  | trap (t : Trap) (s : State)

/-- One access after another. -/
def CoreAcc.andThen {α β : Type} (r : CoreAcc α) (f : α → State → CoreAcc β) : CoreAcc β :=
  match r with
  | .ok x s => f x s
  | .trap t s => .trap t s

/-! ### Segments (Table 3.4) -/

/-- Do `n` bytes at `a` lie inside segment `i`, clipped at the top of the address space (Table 3.3)? -/
def segHolds (k : Core) (i : Nat) (a : Word) (n : Nat) : Bool :=
  let b := (k.sgBase.getD i 0).toNat
  decide (b ≤ a.toNat) && decide (a.toNat + n - 1 ≤ min (b + (k.sgLimit.getD i 0).toNat) 0xFFFFFFFF)

/-- The segment that governs an access: SG0 a fetch, SG2 a stack access, else SG1, or SG3 where the address lies outside SG1. -/
def segFor (k : Core) (kind : AccKind) (a : Word) : Nat :=
  match kind with
  | .fetch => 0
  | .stackRead | .stackWrite => 2
  | .read | .write => if segHolds k 1 a 1 then 1 else 3

/-- The permission bit an access needs in SGn_PERM. -/
def segNeed : AccKind → Nat
  | .read | .stackRead => 0
  | .write | .stackWrite => 1
  | .fetch => 2

/-- The check of R92: none is a segment fault; otherwise whether the segment makes the access uncached (R93). -/
def segCheck (k : Core) (kind : AccKind) (a : Word) (n : Nat) : Option Bool :=
  if k.st.getLsbD 9 then
    let i := segFor k kind a
    let p := k.sgPerm.getD i 0
    if segHolds k i a n && p.getLsbD (segNeed kind) then some (p.getLsbD 3) else none
  else some false

/-! ### The address maps (Tables 1.10 and 3.5) -/

/-- What a tile core's address reaches, as a global address. -/
def tileMap (s : State) (t a : Nat) : Option Nat :=
  if a < 0x100000 then some (tileLocalAddr t a)
  else if a < 0x110000 then some (regBase + 0x400000 + t * blockWindow + (a - 0x100000))
  else if 0x40000000 ≤ a ∧ a < 0x80000000 then
    let g := 0x40000000 * s.fld (R.TILE_APB_APB t) + (a - 0x40000000)
    if g < dramEnd s then some g else none
  else none

/-- What a house core's address reaches, as a global address. -/
def houseMap (s : State) (a : Nat) : Option Nat :=
  if a < 0x400000 then some (houseBase + a)
  else if 0x800000 ≤ a ∧ a < 0x820000 then some (romBase + (a - 0x800000))
  else if 0x10000000 ≤ a ∧ a < 0x14000000 then some (codeBase + (a - 0x10000000))
  else if 0x20000000 ≤ a ∧ a < 0x21000000 then some (regBase + (a - 0x20000000))
  else if 0x40000000 ≤ a then
    let n := a / 0x40000000 - 1
    if s.flag (R.SYS_HWIN_VALID n) then some (0x40000000 * s.fld (R.SYS_HWIN_BASE n) + a % 0x40000000) else none
  else none

/-- What a core's address reaches. -/
def coreMap (s : State) (c a : Nat) : Option Nat := if c < 32 then tileMap s c a else houseMap s a

/-- Is a target memory that takes stores of a core? The code store's read window and the boot ROM take none. -/
def takesStores (t : Target) : Bool := ramTarget t

/-- The checks of an access that meets R91 (R107: segment, then bus): its global address, and whether a segment makes it
uncached. `n`: its size in bytes. -/
def coreLocate (s : State) (c : Nat) (kind : AccKind) (a : Word) (n : Nat) : Except Trap (Nat × Bool) :=
  match segCheck (s.core c) kind a n with
  | none => .error (accTrap 3 kind a false)
  | some io =>
    match coreMap s c a.toNat with
    | none => .error (accTrap 7 kind a false)
    | some g =>
      match targetOf s g with
      | .hole => .error (accTrap 7 kind a true)
      | .reg _ =>
        if kind = .fetch then .error (accTrap 7 kind a false)
        else if n = 4 then .ok (g, io)
        else .error (accTrap 7 kind a true)
      | t => if accWrites kind && !takesStores t then .error (accTrap 7 kind a true) else .ok (g, io)

/-! ### Lines and their check bits -/

/-- Word `i` of a line, and its syndrome. -/
def lineWord (l : Line) (i : Nat) : Nat := leAt l.data (8 * i) 8
def lineSyn (l : Line) (i : Nat) : Nat := tblGet 0 l.syn i

/-- Replace the bytes at an offset of a list. -/
def bytesPut (bs : List Byte) (o : Nat) (xs : List Byte) : List Byte := bs.take o ++ xs ++ bs.drop (o + xs.length)

/-- The ECC word of a data-cache word (Table 5.3, class 4). -/
def dcKey (c slot i : Nat) : Nat := 0x8000 * (0x400 + c) + slot * 8 + i

/-- TILE_ISR.DCUE: an uncorrectable data-cache word was found. -/
def noteDcue (s : State) (c : Nat) : State := if c < 32 then s.raise (R.TILE_ISR_DCUE c) else s

/-- What the corrector makes of a cached word (R175). -/
inductive Looked where
  | use (s : State)
  | gone (s : State)
  | bad (s : State)

/-- Read word `i` of a data-cache line through the corrector: one bit in error is corrected and rewritten; a clean line
with an uncorrectable word is discarded; a dirty one stands. -/
def dcCheck (s : State) (c slot : Nat) (l : Line) (i : Nat) : Looked :=
  match eccDecode (lineWord l i) (lineSyn l i) with
  | .ok => .use s
  | .corrected d =>
    let l' := { l with data := bytesPut l.data (8 * i) (leBytes 8 d), syn := tblSet 0 l.syn i 0 }
    let s1 := countCe s (dcKey c slot i)
    .use (s1.setCore c { s1.core c with dc := putLine (s1.core c).dc slot l' })
  | .uncorrectable =>
    let s1 := noteDcue (countUe s (dcKey c slot i)) c
    if l.dirty then .bad s1 else .gone (dropSlot s1 c slot)

/-- The check of a line's words as memory gives them: the words that are uncorrectable, marked, with the errors counted. A
DRAM line is one word of its code (R375). -/
def fillMarks (s : State) (g : Nat) : State × List (Nat × Nat) :=
  match targetOf s g with
  | .dram =>
    let r := noteWord s g
    (r.1, if r.2 then (List.range 8).map (fun i => (i, 0xFF)) else [])
  | _ =>
    (List.range 8).foldl (fun (acc : State × List (Nat × Nat)) i =>
      let r := noteWord acc.1 (g + 8 * i)
      (r.1, if r.2 then tblSet 0 acc.2 i 0xFF else acc.2)) (s, [])

/-- The bytes of a line as memory holds them. -/
def lineBytes (s : State) (g : Nat) : List Byte :=
  match targetOf s g with
  | .code o => csRead s o 64
  | .rom o => romRead o 64
  | _ => s.memBytes g 64

/-! ### The data cache -/

/-- Must a data read of the code store stay out of the cache: an execute-only block, or the busy bank (R435, R436)? -/
def csNotCached (s : State) (g n : Nat) : Bool :=
  match targetOf s g with
  | .code o => csXoHit s o n || csBusyHit s o n
  | _ => false

/-- A miss: the line is taken back from the eviction buffer, dirty (R162), or filled from memory. None: the word a load
asks for is uncorrectable in memory. -/
def dcMiss (s : State) (c g : Nat) (load : Bool) : Option Nat × State :=
  let la := lineOf g
  match takeEvict (s.core c).ev g with
  | some (e, rest) =>
    let r := makeRoom (s.setCore c { s.core c with ev := rest }) c g
    (some r.2, r.1.setCore c { r.1.core c with dc := putLine (r.1.core c).dc r.2 ⟨la, true, e.data, e.syn, 0⟩ })
  | none =>
    let m := fillMarks s la
    if load && tblGet 0 m.2 (g % 64 / 8) != 0 then (none, m.1)
    else
      let bs := lineBytes m.1 la
      let r := makeRoom m.1 c g
      (some r.2, r.1.setCore c { r.1.core c with dc := putLine (r.1.core c).dc r.2 ⟨la, false, bs, m.2, 0⟩ })

/-- The slot that holds the line of an access, filled if need be. None: uncorrectable (loads alone). -/
def dcLine (s : State) (c g : Nat) (load : Bool) : Option Nat × State :=
  match findWay (s.core c).dc (cacheSets c) g with
  | some (slot, l) =>
    match dcCheck s c slot l (g % 64 / 8) with
    | .use s1 => (some slot, s1)
    | .bad s1 => (if load then none else some slot, s1)
    | .gone s1 => dcMiss s1 c g load
  | none => dcMiss s c g load

/-- A load through the data cache. -/
def dcLoad (s : State) (c g n : Nat) : Option Nat × State :=
  match dcLine s c g true with
  | (none, s1) => (none, s1)
  | (some slot, s1) =>
    match tblGet none (s1.core c).dc.lines slot with
    | some l => (some (leAt l.data (g % 64) n), s1.setCore c { s1.core c with dc := touchLine (s1.core c).dc slot })
    | none => (none, s1)

/-- A store through the data cache: the line becomes dirty; an uncorrectable word stays so (R174). -/
def dcStore (s : State) (c g : Nat) (bs : List Byte) : State :=
  match dcLine s c g false with
  | (none, s1) => s1
  | (some slot, s1) =>
    match tblGet none (s1.core c).dc.lines slot with
    | some l =>
      let i := g % 64 / 8
      let syn := if eccDecode (lineWord l i) (lineSyn l i) = .uncorrectable then tblSet 0 l.syn i 0xFF else tblSet 0 l.syn i 0
      let l' := { l with dirty := true, data := bytesPut l.data (g % 64) bs, syn := syn }
      s1.setCore c { s1.core c with dc := putLine (s1.core c).dc slot l' }
    | none => s1

/-! ### Loads and stores of a core -/

/-- Is an access cached: data cache enabled, no IO segment, no register space (R93, R167)? -/
def dcServes (s : State) (c : Nat) (io : Bool) : Bool := s.flag (ccDcEn c) && !io

/-- Before an access that goes past the cache, a line of it in the eviction buffer reaches memory. -/
def settleEv (s : State) (c g : Nat) : State :=
  if (s.core c).ev.any (fun e => e.addr == lineOf g) then evictAll s c (s.core c).ev.length else s

/-- A load that goes past the cache. None: uncorrectable. -/
def rawLoad (s0 : State) (c g n : Nat) : Option Nat × State :=
  let s := settleEv s0 c g
  match targetOf s g with
  | .code o =>
    let r := csDataRead s o n xoHouse
    (some (leNat r.1), r.2)
  | .rom o => (some (leNat (romRead o n)), s)
  | _ =>
    match readRam s g n with
    | (bs, s1, none) => (some (leNat bs), s1)
    | (_, s1, some _) => (none, s1)

/-- The core as a requester of register space. -/
def coreRq (c : Nat) : Requester := .core (Fin.ofNat 36 c)

/-- A load of `n` bytes, zero-extended: alignment (R91), the checks of `coreLocate`, then the access. -/
def coreLoad (s : State) (c : Nat) (kind : AccKind) (a : Word) (n : Nat) : CoreAcc Nat :=
  if a.toNat % n ≠ 0 then .trap (accTrap 4 kind a false) s
  else
    match coreLocate s c kind a n with
    | .error t => .trap t s
    | .ok (g, io) =>
      match targetOf s g with
      | .reg off =>
        match regRead s (coreRq c) off with
        | some (v, s1) => .ok v s1
        | none => .trap (accTrap 7 kind a true) s
      | _ =>
        let r := if dcServes s c io && !csNotCached s g n then dcLoad s c g n else rawLoad s c g n
        match r with
        | (some v, s1) => .ok v s1
        | (none, s1) => .trap (accTrap 6 kind a true) s1

/-- A store of the low `n` bytes of a value. -/
def coreStore (s : State) (c : Nat) (kind : AccKind) (a : Word) (n v : Nat) : CoreAcc Unit :=
  if a.toNat % n ≠ 0 then .trap (accTrap 4 kind a false) s
  else
    match coreLocate s c kind a n with
    | .error t => .trap t s
    | .ok (g, io) =>
      match targetOf s g with
      | .reg off =>
        match regWrite s (coreRq c) off v with
        | some s1 => .ok () s1
        | none => .trap (accTrap 7 kind a true) s
      | _ =>
        if dcServes s c io then .ok () (dcStore s c g (leBytes n v))
        else .ok () (coreWrite (settleEv s c g) c g (leBytes n v))

/-! ### Instruction fetch (R123, R138) -/

/-- A fetch miss: a line in the eviction buffer serves it; otherwise memory does. None: the halfword is uncorrectable. -/
def icMiss (s : State) (c g : Nat) : Option Nat × State :=
  let la := lineOf g
  match takeEvict (s.core c).ev g with
  | some (e, _) =>
    let r := makeRoomI s c g
    (some r.2, r.1.setCore c { r.1.core c with ic := putLine (r.1.core c).ic r.2 ⟨la, false, e.data, e.syn, 0⟩ })
  | none =>
    let m := fillMarks s la
    if tblGet 0 m.2 (g % 64 / 8) != 0 then (none, m.1)
    else
      let bs := lineBytes m.1 la
      let r := makeRoomI m.1 c g
      (some r.2, r.1.setCore c { r.1.core c with ic := putLine (r.1.core c).ic r.2 ⟨la, false, bs, m.2, 0⟩ })

/-- The slot of the instruction cache that holds a fetched line; a line marked bad at the word is refetched (R175). -/
def icLine (s : State) (c g : Nat) : Option Nat × State :=
  match findWay (s.core c).ic (cacheSets c) g with
  | some (slot, l) =>
    if lineSyn l (g % 64 / 8) = 0 then (some slot, s) else icMiss (dropISlot s c slot) c g
  | none => icMiss s c g

/-- A fetched halfword from the instruction cache. -/
def icLoad (s : State) (c g : Nat) : Option Nat × State :=
  match icLine s c g with
  | (none, s1) => (none, s1)
  | (some slot, s1) =>
    match tblGet none (s1.core c).ic.lines slot with
    | some l => (some (leAt l.data (g % 64) 2), s1.setCore c { s1.core c with ic := touchLine (s1.core c).ic slot })
    | none => (none, s1)

/-- A fetched halfword past the cache; fetches from an execute-only block are permitted (R436). -/
def rawFetch (s0 : State) (c g : Nat) : Option Nat × State :=
  let s := settleEv s0 c g
  match targetOf s g with
  | .code o => (some (leNat (csRead s o 2)), s)
  | _ => rawLoad s c g 2

/-- Would a fetch read the busy bank of the code store, which is a bus error (R435)? A line already cached is not read. -/
def fetchBusy (s : State) (c g : Nat) (cached : Bool) : Bool :=
  match targetOf s g with
  | .code o => csBusyHit s o 2 && !(cached && (findWay (s.core c).ic (cacheSets c) g).isSome)
  | _ => false

/-- The fetch of a halfword (R107: segment, bus, ECC). The parcel gate lies in the tile control region, where any fetch but
an instruction's first halfword at the gate is a bus error (R96, R125, R138). -/
def coreFetch (s : State) (c : Nat) (a : Word) : CoreAcc Nat :=
  match coreLocate s c .fetch a 2 with
  | .error t => .trap t s
  | .ok (g, io) =>
    let cached := s.flag (ccIcEn c) && !io
    if fetchBusy s c g cached then .trap (accTrap 7 .fetch a true) s
    else
      match (if cached then icLoad s c g else rawFetch s c g) with
      | (some v, s1) => .ok v s1
      | (none, s1) => .trap (accTrap 6 .fetch a true) s1

end Sys2Proof.Machine
end

