-- ==== Sys2Proof/Machine/Flags.lean ====
section
/-! DEFINITION. Sys2Proof/Machine/Flags.lean: the operations of the Siriz instructions on values and on the flags of ST
(Tables 3.9, 4.3 and 4.4a). Each takes its operands and ST, and gives the result and ST. -/

namespace Sys2Proof.Machine

/-! ### The bits of ST (Table 3.2) -/

def stZ : Nat := 0
def stN : Nat := 1
def stC : Nat := 2
def stV : Nat := 3
def stDZ : Nat := 4
def stDZT : Nat := 5
def stIE : Nat := 8
def stAM : Nat := 9

/-- A bit of ST. -/
def stBit (st : Word) (i : Nat) : Bool := st.getLsbD i

/-- ST with one bit written. -/
def stPut (st : Word) (i : Nat) (b : Bool) : Word :=
  (st &&& ~~~(1#32 <<< i)) ||| (if b then 1#32 <<< i else 0#32)

/-- Z and N from a result. -/
def stResult (st r : Word) : Word := stPut (stPut st stZ (r == 0#32)) stN r.msb

/-- Is an exact signed sum outside the 32-bit range? -/
def overflows (i : Int) : Bool := decide (i < -(2 ^ 31)) || decide (2 ^ 31 ≤ i)

/-! ### Addition and subtraction (R135) -/

/-- `a + b + c`: C is the carry out of bit 31, V signed overflow. -/
def addWith (a b : Word) (c : Bool) (st : Word) : Word × Word :=
  let n := a.toNat + b.toNat + b2n c
  let r := BitVec.ofNat 32 n
  (r, stPut (stPut (stResult st r) stC (decide (2 ^ 32 ≤ n))) stV (overflows (a.toInt + b.toInt + (b2n c : Int))))

/-- `a − b − c`: C is the borrow, V signed overflow. -/
def subWith (a b : Word) (c : Bool) (st : Word) : Word × Word :=
  let r := a - b - BitVec.ofNat 32 (b2n c)
  (r, stPut (stPut (stResult st r) stC (decide (a.toNat < b.toNat + b2n c))) stV (overflows (a.toInt - b.toInt - (b2n c : Int))))

def aluAdd (a b st : Word) : Word × Word := addWith a b false st
def aluAdc (a b st : Word) : Word × Word := addWith a b (stBit st stC) st
def aluSub (a b st : Word) : Word × Word := subWith a b false st
def aluSbc (a b st : Word) : Word × Word := subWith a b (stBit st stC) st

/-- NEG (Table 3.9). -/
def aluNeg (b st : Word) : Word × Word :=
  let r := 0#32 - b
  (r, stPut (stPut (stResult st r) stC (b != 0#32)) stV (b == 0x80000000#32))

/-! ### Logic, multiplication, minimum and maximum: Z and N alone -/

def aluAnd (a b st : Word) : Word × Word := (a &&& b, stResult st (a &&& b))
def aluOr (a b st : Word) : Word × Word := (a ||| b, stResult st (a ||| b))
def aluXor (a b st : Word) : Word × Word := (a ^^^ b, stResult st (a ^^^ b))
def aluAndn (a b st : Word) : Word × Word := (a &&& ~~~b, stResult st (a &&& ~~~b))
def aluNot (b st : Word) : Word × Word := (~~~b, stResult st (~~~b))

/-- A result with the flags that only Z and N follow. -/
def zn (r st : Word) : Word × Word := (r, stResult st r)

def aluMul (a b st : Word) : Word × Word := zn (a * b) st
def aluMulh (a b st : Word) : Word × Word := zn (BitVec.ofInt 32 (a.toInt * b.toInt / 2 ^ 32)) st
def aluMulhu (a b st : Word) : Word × Word := zn (BitVec.ofNat 32 (a.toNat * b.toNat / 2 ^ 32)) st
def aluMin (a b st : Word) : Word × Word := zn (if a.toInt ≤ b.toInt then a else b) st
def aluMax (a b st : Word) : Word × Word := zn (if a.toInt < b.toInt then b else a) st
def aluMinu (a b st : Word) : Word × Word := zn (if a.toNat ≤ b.toNat then a else b) st
def aluMaxu (a b st : Word) : Word × Word := zn (if a.toNat < b.toNat then b else a) st

/-! ### Shifts and rotates by a 6-bit count (Table 3.9) -/

/-- Z and N from the result, and C where the count writes it. -/
def shiftFlags (st r : Word) (c : Option Bool) : Word :=
  match c with
  | some b => stPut (stResult st r) stC b
  | none => stResult st r

def aluLsl (a : Word) (n : Nat) (st : Word) : Word × Word :=
  let r := a <<< n
  (r, shiftFlags st r (if n = 0 then none else some (if n ≤ 32 then a.getLsbD (32 - n) else false)))

def aluLsr (a : Word) (n : Nat) (st : Word) : Word × Word :=
  let r := a >>> n
  (r, shiftFlags st r (if n = 0 then none else some (if n ≤ 32 then a.getLsbD (n - 1) else false)))

def aluAsr (a : Word) (n : Nat) (st : Word) : Word × Word :=
  let r := a.sshiftRight n
  (r, shiftFlags st r (if n = 0 then none else some (if n ≤ 31 then a.getLsbD (n - 1) else a.msb)))

def aluRor (a : Word) (n : Nat) (st : Word) : Word × Word :=
  let r := a.rotateRight (n % 32)
  (r, shiftFlags st r (if n = 0 then none else some r.msb))

def aluRol (a : Word) (n : Nat) (st : Word) : Word × Word :=
  let r := a.rotateLeft (n % 32)
  (r, shiftFlags st r (if n = 0 then none else some (r.getLsbD 0)))

/-! ### Division (R136) -/

/-- The quotient and the remainder, and V; division by zero sets DZ. -/
def divide (signed : Bool) (a b st : Word) : Word × Word × Word :=
  if b = 0#32 then
    let q := 0xFFFFFFFF#32
    (q, a, stResult (stPut (stPut st stDZ true) stV false) q)
  else if signed ∧ a = 0x80000000#32 ∧ b = 0xFFFFFFFF#32 then
    let q := 0x80000000#32
    (q, 0#32, stResult (stPut st stV true) q)
  else if signed then
    let q := BitVec.ofInt 32 (a.toInt.tdiv b.toInt)
    (q, BitVec.ofInt 32 (a.toInt.tmod b.toInt), stResult (stPut st stV false) q)
  else
    let q := BitVec.ofNat 32 (a.toNat / b.toNat)
    (q, BitVec.ofNat 32 (a.toNat % b.toNat), stResult (stPut st stV false) q)

/-! ### Extend and count (R147): no flags -/

def aluSxb (b : Word) : Word := (b.truncate 8).signExtend 32
def aluSxh (b : Word) : Word := (b.truncate 16).signExtend 32
def aluZxb (b : Word) : Word := (b.truncate 8).zeroExtend 32
def aluZxh (b : Word) : Word := (b.truncate 16).zeroExtend 32

/-- The number of 1 bits below bit `n`. -/
def onesBelow (b : Word) : Nat → Nat
  | 0 => 0
  | n + 1 => onesBelow b n + b2n (b.getLsbD n)

def aluPopc (b : Word) : Word := BitVec.ofNat 32 (onesBelow b 32)

/-- The number of leading zeros of the low `n` bits. -/
def zerosFrom (b : Word) : Nat → Nat
  | 0 => 0
  | n + 1 => if b.getLsbD n then 0 else zerosFrom b n + 1

def aluClz (b : Word) : Word := BitVec.ofNat 32 (zerosFrom b 32)

def aluBswap (b : Word) : Word :=
  (b <<< 24) ||| ((b &&& 0xFF00#32) <<< 8) ||| ((b >>> 8) &&& 0xFF00#32) ||| (b >>> 24)

end Sys2Proof.Machine
end

