-- ==== Sys2Proof/Machine/Operands.lean ====
section
/-! DEFINITION. Sys2Proof/Machine/Operands.lean: the operands of the Siriz instructions: general registers, immediates,
address forms (R90, R130, R133, R145), skip conditions (Tables 4.4 and 4.5) and special registers (Table 3.3). -/

namespace Sys2Proof.Machine

/-- A general register. -/
def gpr (k : Core) (r : Reg) : Word := tblGet 0 k.w r.val

/-- Write a general register. -/
def setGpr (k : Core) (r : Reg) (v : Word) : Core := { k with w := tblSet 0 k.w r.val v }

/-- SP, which is w14. -/
def spReg : Reg := 14

/-- Sign extension to 32 bits. -/
def sext {n : Nat} (v : BitVec n) : Word := v.signExtend 32

/-- Zero extension to 32 bits. -/
def zext {n : Nat} (v : BitVec n) : Word := v.zeroExtend 32

/-- The short-form address of LDA and STA (R90, R133). -/
def shortAddr (k : Core) (off : BitVec 16) : Word := (zext k.bnk <<< 16) ||| zext off

/-- Bytes of an LDA or STA. -/
def sizeBytes : AccSize → Nat
  | .byte => 1
  | .half => 2
  | .word => 4

/-- The kind of a load or store with a base register: with w14 a stack access (R145). -/
def baseKind (ra : Reg) (store : Bool) : AccKind :=
  if ra = spReg then (if store then .stackWrite else .stackRead) else (if store then .write else .read)

/-- The register that LDW fills or STW stores, its base register, its address and its width in memory. -/
def wordForm (k : Core) : WordForm → Reg × Reg × Word × Nat
  | .short r ra imm => (r, ra, gpr k ra + (zext imm <<< 2), 2)
  | .stack r imm => (r, spReg, gpr k spReg + (zext imm <<< 2), 2)
  | .wide r ra imm => (r, ra, gpr k ra + sext imm, 4)

/-- The destination, the two operands and the width of an ALU form: the 16-bit one is destructive (R130). -/
def aluForm (k : Core) : AluForm → Reg × Word × Word × Nat
  | .short rd rb => (rd, gpr k rd, gpr k rb, 2)
  | .wide rd ra rb => (rd, gpr k ra, gpr k rb, 4)

/-- The destination, the operand, the count and the width of a shift form. -/
def shiftForm (k : Core) : ShiftForm → Reg × Word × Nat × Nat
  | .short rd rb => (rd, gpr k rd, (gpr k rb).toNat % 64, 2)
  | .imm5 rd n => (rd, gpr k rd, n.val, 2)
  | .wide rd ra rb => (rd, gpr k ra, (gpr k rb).toNat % 64, 4)
  | .imm6 rd ra n => (rd, gpr k ra, n.val, 4)

/-- The destination, the two operands and the width of ADDI. -/
def addiForm (k : Core) : AddiForm → Reg × Word × Word × Nat
  | .short rd imm => (rd, gpr k rd, sext imm, 2)
  | .wide rd ra imm => (rd, gpr k ra, sext imm, 4)

/-- The destination, the value and the width of MOVI. -/
def moviForm : MoviForm → Reg × Word × Nat
  | .short rd imm => (rd, sext imm, 2)
  | .wide rd imm => (rd, sext imm, 4)

/-- The target and the width of B, relative to its own address (R141). -/
def branchForm (pc : Word) : BranchForm → Word × Nat
  | .short imm => (pc + (sext imm <<< 1), 2)
  | .wide imm => (pc + (sext imm <<< 1), 4)

/-! ### Skip conditions -/

/-- Table 4.4. -/
def condHolds (c : Cond) (x y : Word) : Bool :=
  match c with
  | .eq => x == y
  | .ne => x != y
  | .slt => decide (x.toInt < y.toInt)
  | .sge => decide (y.toInt ≤ x.toInt)
  | .ltu => decide (x.toNat < y.toNat)
  | .geu => decide (y.toNat ≤ x.toNat)
  | .any => x &&& y != 0#32
  | .none => x &&& y == 0#32

/-- SKIPI's immediate: sign-extended for conditions 0 to 5, zero-extended for 6 and 7 (R139). -/
def skipImm (c : Cond) (imm : BitVec 16) : Word :=
  match c with
  | .any | .none => zext imm
  | _ => sext imm

/-- Table 4.5. -/
def flagHolds (f : FlagCond) (st : Word) : Bool :=
  match f with
  | .z => stBit st stZ
  | .nz => !stBit st stZ
  | .n => stBit st stN
  | .nn => !stBit st stN
  | .c => stBit st stC
  | .nc => !stBit st stC
  | .v => stBit st stV
  | .nv => !stBit st stV
  | .dz => stBit st stDZ
  | .ndz => !stBit st stDZ
  | .slt => stBit st stN != stBit st stV
  | .sge => stBit st stN == stBit st stV
  | .ugt => !stBit st stC && !stBit st stZ
  | .ule => stBit st stC || stBit st stZ

/-! ### Register masks (R103, R104, R144) -/

/-- The registers a mask names, ascending. -/
def maskRegs (m : BitVec 16) : List Reg := (List.range 16).filterMap (fun i => if m.getLsbD i then some (Fin.ofNat 16 i) else none)

/-! ### Special registers (Table 3.3) -/

/-- Is a number present in Table 3.3? -/
def srPresent (n : Nat) : Bool := decide (n ≤ 6) || (decide (8 ≤ n) && decide (n ≤ 19))

/-- Is a special register writable? -/
def srWritable (n : Nat) : Bool := decide (n ≤ 2) || (decide (8 ≤ n) && decide (n ≤ 19))

/-- The value of a special register, CYCLE apart. -/
def srGet (c : Nat) (k : Core) (n : Nat) : Word :=
  if n = 0 then k.st
  else if n = 1 then zext k.bnk
  else if n = 2 then k.vbase
  else if n = 3 then BitVec.ofNat 32 k.exdepth
  else if n = 4 then BitVec.ofNat 32 c
  else if n < 12 then k.sgBase.getD (n - 8) 0
  else if n < 16 then k.sgLimit.getD (n - 12) 0
  else k.sgPerm.getD (n - 16) 0

/-- A special register written; reserved bits are ignored (R87, R148). -/
def srSet (k : Core) (n : Nat) (v : Word) : Core :=
  if n = 0 then { k with st := v &&& 0x33F#32 }
  else if n = 1 then { k with bnk := v.truncate 16 }
  else if n = 2 then { k with vbase := v &&& 0xFFFFFF81#32 }
  else if n < 12 then { k with sgBase := k.sgBase.set (n - 8) v }
  else if n < 16 then { k with sgLimit := k.sgLimit.set (n - 12) v }
  else { k with sgPerm := k.sgPerm.set (n - 16) (v &&& 0xF#32) }

/-! ### Instruction words that FADDR shows (Table 4.2) -/

def wordMf (rd : Reg) (sn : Nat) (d : Nat) : Word := BitVec.ofNat 32 (2 ^ 31 + 2 ^ 26 * 0x18 + 2 ^ 22 * rd.val + 2 ^ 17 * sn + 2 ^ 16 * d)
def wordCall (rt : Reg) (m : BitVec 16) : Word := BitVec.ofNat 32 (2 ^ 31 + 2 ^ 26 * 0x16 + 2 ^ 22 * rt.val + m.toNat)
def wordRet (m : BitVec 16) : Word := BitVec.ofNat 32 (2 ^ 31 + 2 ^ 26 * 0x17 + m.toNat)

/-- Does Table 4.10 list a 16-bit instruction? -/
def illegalHalf (h : Nat) : Bool :=
  let op := bitsOf h 11 4
  let sub := bitsOf h 8 3
  decide (h < 0x8000) &&
    (decide (0xE ≤ op) ||
     (op == 0 && (decide (3 ≤ sub) || (sub == 0 && (h % 256 == 0 || decide (5 ≤ h % 256))) || (sub == 1 && bitsOf h 4 4 != 0))) ||
     (op == 7 && bitsOf h 9 2 == 2 && (decide (14 ≤ bitsOf h 4 5) || h % 16 != 0)) ||
     (op == 0xD && sub == 7))

/-- Does Table 4.10 list a 32-bit instruction? -/
def illegalWord (w : Nat) : Bool :=
  let op := bitsOf w 26 5
  let sn := bitsOf w 17 5
  bitOf w 31 &&
    (decide (0x1A ≤ op) ||
     (op == 0 && (decide (20 ≤ w % 32) || bitsOf w 5 9 != 0)) ||
     (op == 1 && bitsOf w 1 9 != 0) ||
     ((decide (2 ≤ op) && decide (op ≤ 5) || decide (0xA ≤ op) && decide (op ≤ 0x11)) && bitsOf w 16 2 != 0) ||
     (op == 6 && (decide (5 ≤ bitsOf w 6 3) || bitsOf w 9 9 != 0)) ||
     ((op == 7 || op == 8) && bitsOf w 16 6 != 0) ||
     ((op == 0x12 || op == 0x13) && (bitsOf w 16 2 == 3 || bitsOf w 18 4 != 0)) ||
     (op == 0x14 && (decide (8 ≤ bitsOf w 22 4) || bitsOf w 16 2 != 0)) ||
     (op == 0x16 && (bitsOf w 16 6 != 0 || bitOf w 14)) ||
     (op == 0x17 && (bitsOf w 16 10 != 0 || bitOf w 14)) ||
     (op == 0x18 && (bitsOf w 0 16 != 0 || !srPresent sn || (bitOf w 16 && !srWritable sn))) ||
     (op == 0x19 && (decide (2 ≤ bitsOf w 20 2) || bitsOf w 18 2 == 3 || bitsOf w 16 2 == 3 ||
        (bitsOf w 20 2 == 1 && bitsOf w 18 2 != 1) || (bitsOf w 16 2 == 2 && bitsOf w 22 4 != 0))))

/-- Does an instruction raise the illegal-instruction exception by its encoding (R156)? -/
def isIllegal : InstrWord → Bool
  | .half h => illegalHalf h.toNat
  | .word w => illegalWord w.toNat

/-- FADDR of an illegal instruction (Table 3.8). -/
def illegalFaddr : InstrWord → Word
  | .half h => zext h
  | .word w => w

/-- Bytes of an instruction. -/
def illegalWidth : InstrWord → Nat
  | .half _ => 2
  | .word _ => 4

end Sys2Proof.Machine
end

