-- ==== Sys2Proof/Machine/Exc.lean ====
section
/-! DEFINITION. Sys2Proof/Machine/Exc.lean: exceptions of a Siriz core (R106 to R112, R120, R517), the end of a job at the
parcel gate (R120), and the issue of an instruction. -/

namespace Sys2Proof.Machine

/-- Change a core. -/
def updCore (s : State) (c : Nat) (f : Core → Core) : State := s.setCore c (f (s.core c))

/-- Is an external interrupt requested of a core (R24, R172)? -/
def irqPending (s : State) (c : Nat) : Bool := if c < 32 then tileIrq s c else houseIrq s

/-- Does a core accept external interrupts: ST.IE, and a vector table on a tile (R109, R120)? -/
def irqOpen (k : Core) : Bool := stBit k.st stIE && !k.noVec

/-- Must the next instruction boundary accept an interrupt (R109)? -/
def irqDue (s : State) (c : Nat) : Bool := irqOpen (s.core c) && irqPending s c

/-! ### Exception entry -/

/-- The CAUSE word of a frame (Table 3.8). -/
def causeWord (t : Trap) : Word := BitVec.ofNat 32 (t.v + t.kind * 16 + t.arg * 256)

/-- The address of vector `v` (R106). -/
def vectorAddr (vbase : Word) (v : Nat) : Word := (vbase &&& 0xFFFFFF80#32) + BitVec.ofNat 32 (8 * (v - 1))

/-- A double fault (R112): the core stops; the tile's job fails with EXCEPTION and the tile is reset, or the device takes
the warm reset. -/
def doubleFault (s : State) (c : Nat) : State :=
  let s1 := updCore s c (fun k => { k with run := .stopped })
  if c < 32 then tileReset s1 c causeException else doubleFaultReset s1 (c - 32)

/-- Write the words of an exception frame below SP, the highest first (R110). -/
def pushFrame (s : State) (c : Nat) (sp : Word) : List Word → Option State
  | [] => some s
  | x :: xs =>
    match coreStore s c .stackWrite (sp - 4) 4 x.toNat with
    | .ok _ s1 => pushFrame s1 c (sp - 4) xs
    | .trap _ _ => none

/-- The TCLK cycles an exception takes in place of the issue cost (R517); access delays apart. -/
def trapCost (t : Trap) : Nat :=
  if t.v = 5 then 40 else if t.v = 8 then 7 else t.done + (if t.target && t.kind != 1 then 7 else 6)

/-- ST as the handler finds it: AM from HAM, IE 0 (R110). -/
def handlerSt (k : Core) : Word := stPut (stPut k.st stAM (k.vbase.getLsbD 0)) stIE false

/-- Taking an exception (R110): the frame is written under the new mode, EXDEPTH rises and the vector follows. A job whose
image has no vector table ends with EXCEPTION instead (R120). -/
def takeExc (s : State) (c : Nat) (t : Trap) (ret : Word) : State :=
  let k := s.core c
  if k.noVec ∧ c < 32 then endJob s c causeException
  else if k.exdepth = 15 then doubleFault s c
  else
    let sp := gpr k spReg
    let s1 := s.setCore c { k with st := handlerSt k }
    if sp.toNat % 4 ≠ 0 then doubleFault s1 c
    else
      match pushFrame s1 c sp [t.faddr, causeWord t, k.st, ret] with
      | none => doubleFault s1 c
      | some s2 =>
        updCore s2 c (fun x => { setGpr x spReg (sp - 16) with
          exdepth := k.exdepth + 1, pc := vectorAddr k.vbase t.v, lastCause := causeWord t,
          cycle := x.cycle + trapCost t })

/-- The exception of an external interrupt. -/
def irqTrap : Trap := { v := 9, kind := 0, faddr := 0, arg := 0, after := true, target := false, done := 0 }

/-- The illegal-instruction exception with the instruction in FADDR. -/
def illegalTrap (w : Word) : Trap := { v := 2, kind := 0, faddr := w, arg := 0, after := false, target := false, done := 0 }

/-- The alignment exception of a branch against its target (R91). -/
def targetTrap (a : Word) : Trap := { v := 4, kind := 0, faddr := a, arg := 0, after := false, target := false, done := 0 }

/-! ### Issue -/

/-- Does a tile core stand at the parcel gate, where the fetch of a first halfword ends the job (R120)? -/
def atGate (s : State) (c : Nat) : Bool := decide (c < 32) && (s.core c).pc == gateAddr

/-- The core reaches its next instruction boundary: at the parcel gate the job ends, the fetch passing its segment check
and no interrupt being accepted first (R107, R109, R120). -/
def arrive (s : State) (c : Nat) : State :=
  if atGate s c && (s.core c).run == .run && !irqDue s c && (segCheck (s.core c) .fetch gateAddr 2).isSome then
    endJob s c (gateCause (s.core c))
  else s

/-- May a core issue an instruction now: it runs, and no interrupt is to be accepted first? -/
def mayIssue (s : State) (c : Nat) : Bool := (s.core c).run == .run && !irqDue s c

/-- The fetch of an instruction of 2 or 4 bytes at PC: its first halfword, then its second (R123, R125). -/
def fetchInstr (s : State) (c width : Nat) : CoreAcc Unit :=
  let pc := (s.core c).pc
  (coreFetch s c pc).andThen (fun _ s1 =>
    if width = 4 then (coreFetch s1 c (pc + 2)).andThen (fun _ s2 => .ok () s2) else .ok () s1)

/-- An instruction completes: PC and the cycle count advance, unless its own effect stopped, reset or suspended the core. -/
def retire (s : State) (c : Nat) (pc : Word) (cost : Nat) : State :=
  if (s.core c).run = .run then arrive (updCore s c (fun k => { k with pc := pc, cycle := k.cycle + cost })) c else s

/-- The return PC of an exception (Table 3.7). -/
def returnPc (t : Trap) (pc : Word) (width : Nat) : Word := if t.after then pc + BitVec.ofNat 32 width else pc

/-- An instruction of `width` bytes: not due while the core cannot issue; else its fetch, then its effect, which gives the
next PC and its cost (Table 4.11), or an exception. -/
def issue (s : State) (c width : Nat) (body : State → CoreAcc (Word × Nat)) : State :=
  if mayIssue s c then
    if atGate s c then arrive s c
    else
      let pc := (s.core c).pc
      match (fetchInstr s c width).andThen (fun _ s1 => body s1) with
      | .ok r s2 => retire s2 c r.1 r.2
      | .trap t s2 => takeExc s2 c t (returnPc t pc width)
  else s

/-- The address after an instruction. -/
def nextPc (s : State) (c width : Nat) : Word := (s.core c).pc + BitVec.ofNat 32 width

/-- An instruction that only changes its core's registers, and falls through. -/
def issueCore (s : State) (c width cost : Nat) (f : Core → Core) : State :=
  issue s c width (fun s1 => .ok (nextPc s1 c width, cost) (updCore s1 c f))

end Sys2Proof.Machine
end

