-- ==== Sys2Proof/Machine/Alu.lean ====
section
/-! DEFINITION. Sys2Proof/Machine/Alu.lean: the arithmetic, logic, shift, move, division, extend and count instructions
(R129 to R136, R147). -/

namespace Sys2Proof.Machine

/-- Write a result and ST. -/
def putResult (k : Core) (rd : Reg) (r : Word × Word) : Core := setGpr { k with st := r.2 } rd r.1

/-- An ALU instruction of two operands. -/
def alu2 (s : State) (c : Nat) (f : AluForm) (op : Word → Word → Word → Word × Word) : State :=
  issueCore s c (aluForm (s.core c) f).2.2.2 1 (fun k =>
    let o := aluForm k f
    putResult k o.1 (op o.2.1 o.2.2.1 k.st))

/-- An ALU3 instruction. -/
def alu3 (s : State) (c : Nat) (rd ra rb : Reg) (op : Word → Word → Word → Word × Word) : State := alu2 s c (.wide rd ra rb) op

/-- A 16-bit instruction of one operand that writes flags (NOT, NEG). -/
def alu1 (s : State) (c : Nat) (rd rb : Reg) (op : Word → Word → Word × Word) : State :=
  issueCore s c 2 1 (fun k => putResult k rd (op (gpr k rb) k.st))

/-- A 16-bit instruction of one operand that writes no flag. -/
def move1 (s : State) (c : Nat) (rd rb : Reg) (op : Word → Word) : State :=
  issueCore s c 2 1 (fun k => setGpr k rd (op (gpr k rb)))

/-- A shift or rotate. -/
def shift (s : State) (c : Nat) (f : ShiftForm) (op : Word → Nat → Word → Word × Word) : State :=
  issueCore s c (shiftForm (s.core c) f).2.2.2 1 (fun k =>
    let o := shiftForm k f
    putResult k o.1 (op o.2.1 o.2.2.1 k.st))

/-- An instruction with a 16-bit logical immediate, zero-extended. -/
def logicImm (s : State) (c : Nat) (rd ra : Reg) (imm : BitVec 16) (op : Word → Word → Word → Word × Word) : State :=
  issueCore s c 4 1 (fun k => putResult k rd (op (gpr k ra) (zext imm) k.st))

/-- A division (R136): the quotient, then the remainder, then the divide trap. -/
def division (s : State) (c : Nat) (signed : Bool) (rd ra rb rr : Reg) : State :=
  issue s c 4 (fun s1 =>
    let k := s1.core c
    let b := gpr k rb
    let q := divide signed (gpr k ra) b k.st
    let s2 := s1.setCore c (setGpr (setGpr { k with st := q.2.2 } rd q.1) rr q.2.1)
    if b = 0#32 ∧ stBit k.st stDZT then
      .trap { v := 5, kind := 0, faddr := 0, arg := 0, after := true, target := false, done := 0 } s2
    else .ok (nextPc s1 c 4, 34) s2)

def execMov (c : CoreId) (rd rb : Reg) (s : State) : Result := .next (move1 s c.val rd rb id)
def execAdd (c : CoreId) (f : AluForm) (s : State) : Result := .next (alu2 s c.val f aluAdd)
def execSub (c : CoreId) (f : AluForm) (s : State) : Result := .next (alu2 s c.val f aluSub)
def execAnd (c : CoreId) (f : AluForm) (s : State) : Result := .next (alu2 s c.val f aluAnd)
def execOr (c : CoreId) (f : AluForm) (s : State) : Result := .next (alu2 s c.val f aluOr)
def execXor (c : CoreId) (f : AluForm) (s : State) : Result := .next (alu2 s c.val f aluXor)
def execAndn (c : CoreId) (rd ra rb : Reg) (s : State) : Result := .next (alu3 s c.val rd ra rb aluAndn)
def execNot (c : CoreId) (rd rb : Reg) (s : State) : Result := .next (alu1 s c.val rd rb aluNot)
def execNeg (c : CoreId) (rd rb : Reg) (s : State) : Result := .next (alu1 s c.val rd rb aluNeg)
def execLsl (c : CoreId) (f : ShiftForm) (s : State) : Result := .next (shift s c.val f aluLsl)
def execLsr (c : CoreId) (f : ShiftForm) (s : State) : Result := .next (shift s c.val f aluLsr)
def execAsr (c : CoreId) (f : ShiftForm) (s : State) : Result := .next (shift s c.val f aluAsr)
def execRor (c : CoreId) (f : ShiftForm) (s : State) : Result := .next (shift s c.val f aluRor)
def execRol (c : CoreId) (f : ShiftForm) (s : State) : Result := .next (shift s c.val f aluRol)
def execMul (c : CoreId) (f : AluForm) (s : State) : Result := .next (alu2 s c.val f aluMul)
def execMulh (c : CoreId) (rd ra rb : Reg) (s : State) : Result := .next (alu3 s c.val rd ra rb aluMulh)
def execMulhu (c : CoreId) (rd ra rb : Reg) (s : State) : Result := .next (alu3 s c.val rd ra rb aluMulhu)
def execAdc (c : CoreId) (f : AluForm) (s : State) : Result := .next (alu2 s c.val f aluAdc)
def execSbc (c : CoreId) (f : AluForm) (s : State) : Result := .next (alu2 s c.val f aluSbc)
def execMin (c : CoreId) (rd ra rb : Reg) (s : State) : Result := .next (alu3 s c.val rd ra rb aluMin)
def execMax (c : CoreId) (rd ra rb : Reg) (s : State) : Result := .next (alu3 s c.val rd ra rb aluMax)
def execMinu (c : CoreId) (rd ra rb : Reg) (s : State) : Result := .next (alu3 s c.val rd ra rb aluMinu)
def execMaxu (c : CoreId) (rd ra rb : Reg) (s : State) : Result := .next (alu3 s c.val rd ra rb aluMaxu)

def execAddi (c : CoreId) (f : AddiForm) (s : State) : Result :=
  .next (issueCore s c.val (addiForm (s.core c.val) f).2.2.2 1 (fun k =>
    let o := addiForm k f
    putResult k o.1 (aluAdd o.2.1 o.2.2.1 k.st)))

def execAndi (c : CoreId) (rd ra : Reg) (imm : BitVec 16) (s : State) : Result := .next (logicImm s c.val rd ra imm aluAnd)
def execOri (c : CoreId) (rd ra : Reg) (imm : BitVec 16) (s : State) : Result := .next (logicImm s c.val rd ra imm aluOr)
def execXori (c : CoreId) (rd ra : Reg) (imm : BitVec 16) (s : State) : Result := .next (logicImm s c.val rd ra imm aluXor)

def execMovi (c : CoreId) (f : MoviForm) (s : State) : Result :=
  .next (issueCore s c.val (moviForm f).2.2 1 (fun k => setGpr k (moviForm f).1 (moviForm f).2.1))

def execMovhi (c : CoreId) (rd : Reg) (imm : BitVec 16) (s : State) : Result :=
  .next (issueCore s c.val 4 1 (fun k => setGpr k rd ((zext imm <<< 16) ||| (gpr k rd &&& 0xFFFF#32))))

def execAdr (c : CoreId) (rd : Reg) (imm : BitVec 22) (s : State) : Result :=
  .next (issueCore s c.val 4 1 (fun k => setGpr k rd (k.pc + (sext imm <<< 1))))

def execDiv (c : CoreId) (rd ra rb rr : Reg) (s : State) : Result := .next (division s c.val true rd ra rb rr)
def execDivu (c : CoreId) (rd ra rb rr : Reg) (s : State) : Result := .next (division s c.val false rd ra rb rr)
def execSxb (c : CoreId) (rd rb : Reg) (s : State) : Result := .next (move1 s c.val rd rb aluSxb)
def execSxh (c : CoreId) (rd rb : Reg) (s : State) : Result := .next (move1 s c.val rd rb aluSxh)
def execZxb (c : CoreId) (rd rb : Reg) (s : State) : Result := .next (move1 s c.val rd rb aluZxb)
def execZxh (c : CoreId) (rd rb : Reg) (s : State) : Result := .next (move1 s c.val rd rb aluZxh)
def execClz (c : CoreId) (rd rb : Reg) (s : State) : Result := .next (move1 s c.val rd rb aluClz)
def execPopc (c : CoreId) (rd rb : Reg) (s : State) : Result := .next (move1 s c.val rd rb aluPopc)
def execBswap (c : CoreId) (rd rb : Reg) (s : State) : Result := .next (move1 s c.val rd rb aluBswap)

end Sys2Proof.Machine
end

