-- ==== Sys2Proof/Machine/Boot.lean ====
section
/-! DEFINITION. Sys2Proof/Machine/Boot.lean: the start-up phases of Table 17.2 (R481 to R487), each one command at its end:
what the phase does, and what its failure does. -/

namespace Sys2Proof.Machine

/-- Does start-up stand in phase `n`? -/
def phaseAt (s : State) (n : Nat) : Bool :=
  s.fld R.SYS_PHASE_PHASE == n && s.boot.held == .none && s.boot.mode == .normal && !flushing s

/-- Pass to the next phase. -/
def phaseNext (s : State) (n : Nat) : State := s.setFld R.SYS_PHASE_PHASE (n + 1)

/-! ### CLOCKS, FUSES, ROM -/

def phaseClocks (s : State) : State := if phaseAt s 1 then phaseNext (clocksOn s) 1 else s

/-- FUSES: the UID and the lifecycle state are loaded, and house core 0 leaves reset; the two copies may disagree. -/
def phaseFuses (s : State) (ok : Bool) : State :=
  if phaseAt s 2 then
    if ok then phaseNext ((fuseRegs s).setCore 32 { Core.houseReset with run := .run }) 2 else bootHalt s 2 2
  else s

/-- ROM: PCIe and the code store are enabled and the watchdog runs with 2,000 ms (R453). -/
def phaseRom (s : State) : State :=
  if phaseAt s 3 then
    phaseNext (bringUpAll (s.setFld R.WDT_TIMEOUT_TIMEOUT 2000) [.pcie, .cstore, .wdt]) 3
  else s

/-! ### CSTORE (R440 to R443) -/

/-- Physical blocks in the grown table now. -/
def grownNow (s : State) : Nat × List Nat := (grownTable s).getD (0, [])

/-- Add a block whose erase failed again to the grown table (R440, R442). -/
def grownAdd (s : State) (b : Nat) : State :=
  let t := grownNow s
  if b < 2 ∨ t.2.contains b ∨ 59 ≤ t.2.length then s
  else grownWrite (grownWrite s 0 (t.1 + 1) (t.2 ++ [b])) 1 (t.1 + 1) (t.2 ++ [b])

/-- Erase every interrupted block again: `bad` are those whose erase fails. -/
def reErase (s : State) (bad : List Nat) : List Nat → State
  | [] => s
  | b :: bs => reErase (csEraseWhole s b (!bad.contains b)) bad bs

/-- Build the remap and count bad blocks. -/
def remapNow (s : State) : State :=
  let g := (grownNow s).2
  let factory := ((List.range csBlocks).filter (fun b => csMark s b != 0xFF)).length
  (csBuildRemap s g).setFlds [(R.CSTORE_BADCNT_FACTORY, min 255 factory), (R.CSTORE_BADCNT_GROWN, g.length)]

def phaseCstore (s : State) (bad : List Nat) : State :=
  if phaseAt s 4 then
    let due := (List.range csBlocks).filter (csInterrupted s)
    let s1 := (reErase s bad due).setFld R.CSTORE_BOOTINFO_RECOV (min 255 due.length)
    phaseNext (remapNow ((due.filter (fun b => bad.contains b)).foldl grownAdd s1)) 4
  else s

/-! ### VERIFY (R446, R449) -/

/-- The slots in the order in which VERIFY tries them: the valid slot of higher GEN first, or, from the third failed boot
on, the other one. -/
def bootOrder (s : State) : List Nat :=
  match bootChoice s with
  | none => []
  | some a =>
    let b := 1 - a
    if (slotGen s b).isNone then [a] else if 3 ≤ s.fld R.WDT_STATUS_BOOTFAIL then [b, a] else [a, b]

def phaseVerify (s : State) (fault0 fault1 : Bool) : State :=
  if phaseAt s 5 then
    let order := bootOrder s
    match order.find? (fun n => verifySlot s n (if n = 0 then fault0 else fault1) == 0) with
    | none => bootRecovery s 5 3
    | some n =>
      let fallback := bootChoice s != some n
      let swapped := decide (3 ≤ s.fld R.WDT_STATUS_BOOTFAIL) && fallback && order.head? == some n
      let s1 := s.setFlds [(R.CSTORE_BOOTINFO_SLOT, n), (R.CSTORE_BOOTINFO_FALLBACK, b2n fallback),
        (R.CSTORE_BOOTGEN_GEN, (slotGen s n).getD 0)]
      let s2 := if swapped then s1.setFld R.WDT_STATUS_BOOTFAIL 0 else s1
      phaseNext { s2 with boot := { s2.boot with slot := some n, rbidx := leAt (slotHeader s n) 0x0C 4 } } 5
  else s

/-! ### FWLOAD (R437) -/

/-- The execute-only regions of the booted image's XO table. -/
def setXo (s : State) (n : Nat) : State :=
  let h := slotHeader s n
  s.setFlds ((List.range 8).flatMap (fun k =>
    let c := leAt h (0x22 + 4 * k) 2
    if c = 0 then [] else
      [(R.CSTORE_XO_BASE k, slotImg n + leAt h (0x20 + 4 * k) 2), (R.CSTORE_XO_COUNT k, c), (R.CSTORE_XO_VALID k, 1)]))

/-- House core 0 enters the image: its code segment maps the code store. -/
def enterImage (s : State) (n : Nat) : State :=
  let k := s.core 32
  s.setCore 32 { k with
    run := .run, pc := BitVec.ofNat 32 (0x10000000 + slotImg n * csBlockSize + leAt (slotHeader s n) 0x10 4),
    sgBase := k.sgBase.set 0 0x10000000, sgLimit := k.sgLimit.set 0 0x03FFFFFF }

def phaseFwload (s : State) : State :=
  if phaseAt s 6 then
    match s.boot.slot with
    | some n => phaseNext (houseRun (enterImage (blockLock (setXo s n) .cstore) n) 7) 6
    | none => s
  else s

/-! ### KEYS, DRAM, RECORDS -/

/-- KEYS: the DRBG is instantiated, or RNGFAIL set; REGWIN by lifecycle (R267). -/
def phaseKeys (s : State) (ok : Bool) : State :=
  if phaseAt s 7 then
    let s1 := bringUp s .keys
    let s2 := if ok then drbgReady s1 else noiseFail s1
    phaseNext (s2.setFld R.PCIE_CTRL_REGWIN (b2n (decide (s.fuses.lc ≤ 1)))) 7
  else s

/-- Record the population (R372): CAP 1 to 3 and NCH; POP of each channel. -/
def setPopulation (s : State) (cap : Nat) (half : Bool) : State :=
  let n := if half then 12 else 24
  s.setFlds ([(R.DRAM_CFG_CAP, cap), (R.DRAM_CFG_NCH, b2n half), (R.DRAM_USABLE_MIB, n * 2 ^ cap * 960)] ++
    (List.range n).map (fun c => (R.DCH_STATUS_POP c, 1)))

/-- DRAM: a population outside Table 12.1, or a channel that does not train, is FATAL. Retained contents leave self-refresh
(R479); otherwise every line is zeroed (R378). -/
def phaseDram (s : State) (pop : Option (Fin 3 × Bool)) (trains : Bool) : State :=
  if phaseAt s 8 then
    match pop with
    | none => bootFatal s 8 4
    | some (cap, half) =>
      let s1 := setPopulation s (cap.val + 1) half
      if s.dram.trained then
        phaseNext (bringUp (s1.setFlds ((List.range (if half then 12 else 24)).map (fun c => (R.DCH_STATUS_SR c, 1)))) .dram) 8
      else if trains then
        let s2 := enablingEnds (requestOn s1 .dram) .dram
        phaseNext { s2 with dram := { s2.dram with trained := true } } 8
      else bootFatal s1 8 5
  else s

/-- RECORDS: key slots are unwrapped but for the `bad` ones (R416, R484), the profiles restored, thermal control and
hold-up enabled, and qualification started (R483). -/
def phaseRecords (s : State) (bad : List Nat) : State :=
  if phaseAt s 9 then
    let s1 := { bringUp s .vault with keys := s.boot.keyRecs.filter (fun e => !bad.contains e.1) }
    let s2 := match s.hold.prof with | some p => setProf s1 p | none => s1
    let s3 := match s.hold.thermProf with | some p => thermLoad s2 p | none => s2
    phaseNext (qualStart (bringUpAll s3 [.therm, .hold])) 9
  else s

/-! ### NAND (R309, R325, R329) -/

/-- The lowest-numbered loaded slot that READ ID bytes match. -/
def matchSlot (s : State) (id : Nat) : Option Nat :=
  (List.range 4).find? (fun n =>
    match tblGet none s.media.pers n with
    | some p => (id &&& p.idMask) == (p.matchId &&& p.idMask)
    | none => false)

/-- The slot of a channel: that of its lowest populated LUN. -/
def chanSlot (s : State) (ids : List (Nat × Nat)) (c : Nat) : Option Nat :=
  ((List.range 32).findSome? (fun k => ids.find? (fun e => e.1 == c * 32 + k))).bind (fun e => matchSlot s e.2)

/-- Does a LUN match the slot of its channel? -/
def lunMatches (s : State) (ids : List (Nat × Nat)) (e : Nat × Nat) : Bool :=
  (matchSlot s e.2).isSome && matchSlot s e.2 == chanSlot s ids (lunChannel e.1)

/-- The mask of the slots that a table of personalities holds. -/
def persMask (t : List (Nat × Option Pers)) : Nat :=
  (List.range 4).foldl (fun m n => if (tblGet none t n).isSome then m + 2 ^ n else m) 0

/-- Enumerate the LUNs: `bad` channels did not train. -/
def enumerate (s0 : State) (ids : List (Nat × Nat)) (bad : List Nat) : State :=
  let s := ({ s0 with media := { s0.media with pers := s0.media.next } }).setFlds
    [(R.MEDIA_STATUS_PLOADED, persMask s0.media.next), (R.MEDIA_STATUS_PPEND, 0)]
  let used (e : Nat × Nat) : Bool := lunMatches s ids e && !bad.contains (lunChannel e.1)
  let s1 := { s with media := { s.media with
    luns := ids.foldl (fun (t : List (Nat × Option Lun)) (e : Nat × Nat) => tblSet none t e.1
      (some { idBytes := e.2, used := used e, op := none, retry := 0, phase := .none, again := none })) [] } }
  let s2 := s1.setFlds ([(R.MEDIA_LUNS_POP, (ids.filter used).length), (R.MEDIA_LUNS_UNUSED, (ids.filter (fun e => !used e)).length)] ++
    (List.range 32).flatMap (fun c =>
      let ce := (List.range 8).foldl (fun m k => if ids.any (fun e => used e && e.1 / 4 == c * 8 + k) then m + 2 ^ k else m) 0
      match chanSlot s ids c with
      | some n => [(R.NAND_STATUS_PSLOT c, n), (R.NAND_STATUS_CEPOP c, ce),
          (R.NAND_STATUS_RATE c, match tblGet none s.media.pers n with | some p => if ce = 0 then 0 else p.rate | none => 0)]
      | none => []))
  if ids.any (fun e => !lunMatches s ids e) then s2.raise R.MEDIA_ISR_UNMATCHED else s2

/-- The block-table entries that the first start-up of a LUN gives its blocks: factory-bad blocks by their marks, and, while
no namespace exists, the cellar's blocks. -/
def newLunBlocks (s : State) (marks : List (Nat × Nat)) (lun n : Nat) : List (Nat × (Nat × Nat × Nat × Nat)) :=
  let good := (List.range n).filter (fun b => !marks.contains (lun, b))
  let cellar := if s.nvme.nss.isEmpty then good.take (s.fld R.FTLA_CELLAR_PER_LUN) else []
  (List.range n).map (fun b =>
    (blkKey lun b, (0, 0, 0, if marks.contains (lun, b) then bsFactory else if cellar.contains b then bsCellar else bsFree)))

/-- Enter the blocks of LUNs seen for the first time; the attic at format is fixed by the first. -/
def addNewLuns (s : State) (marks : List (Nat × Nat)) : State :=
  let fresh := (usedLuns s).filter (fun l => !s.ftl.ckpt.blocks.any (fun e => e.1 / 2 ^ 19 == l))
  let es := fresh.flatMap (fun l => newLunBlocks s marks l (match persOf s l with | some p => lunBlocks p | none => 0))
  let free := (es.filter (fun e => e.2.2.2.2 == bsFree)).length
  { s with ftl := { s.ftl with
      ckpt := { s.ftl.ckpt with blocks := es.foldl (fun t e => tblPut t e.1 e.2) s.ftl.ckpt.blocks },
      atticFormat := if s.ftl.atticFormat = 0 then free else s.ftl.atticFormat } }

/-- The block entries of the checkpoint with the journal's over them; a block that was open is closed. -/
def replayedBlocks (s : State) : List (Nat × (Nat × Nat × Nat × Nat)) :=
  let t0 : List (Nat × (Nat × Nat × Nat × Nat)) := s.ftl.journal.foldl (fun t r => match r with
    | .blk _ lun b er cl st => tblPut t (blkKey lun b) (er, 0, cl, st)
    | _ => t) s.ftl.ckpt.blocks
  t0.map (fun e =>
      (e.1, (e.2.1, e.2.2.1, e.2.2.2.1, if e.2.2.2.2 = bsOpen then bsClosed else e.2.2.2.2)))

/-- Write the block table. -/
def loadBlocks (s : State) : State :=
  (replayedBlocks s).foldl (fun acc e =>
    if lunUsed acc (e.1 / 2 ^ 19) then btSet acc (e.1 / 2 ^ 19) (e.1 % 2 ^ 19) e.2.1 0 e.2.2.2.1 e.2.2.2.2 else acc)
    (s.setFld R.FTLA_BTBASE_BASE (houseRegion s / 2 ^ 20))

def phaseNand (s : State) (ids : List (Nat × Nat)) (bad : List Nat) (marks : List (Nat × Nat)) : State :=
  if phaseAt s 10 then
    let s1 := bringUpAll (enumerate s ids bad) (.media :: (List.finRange 32).map .nand)
    let s2 := loadBlocks (addNewLuns s1 marks)
    let grown := (blocksIn s2 bsGrown).length
    let factory := (blocksIn s2 bsFactory).length
    phaseNext (bringUp (wholdUpdate (gcUpdate (s2.setFlds [(R.FTLA_GROWN_COUNT, grown), (R.FTLA_FACTBAD_COUNT, factory)]))) .nvme) 10
  else s

/-! ### REPLAY (R322, R466, R480) -/

/-- Map replay: the checkpoint, then the journal in sequence order; VALID as the map gives it. -/
def mapReplay (s : State) : State :=
  let m := s.ftl.journal.foldl (fun t r => match r with
    | .map _ nsid unit e => tblSet MapUnit.none t (mapKey nsid unit) e
    | _ => t) s.ftl.ckpt.map
  let s1 := { s with ftl := { s.ftl with map := m } }
  recount s1 (validPsas s1)

/-- Is a cellar parcel's commit in the journal under the flush number? -/
def replayCommitted (s : State) (flush : Nat) (r : Rel) : Bool :=
  s.ftl.journal.any (fun j => match j with
    | .commit _ f flow q => f == flush && flow == r.flow && q == r.seq
    | _ => false)

/-- Take a restored parcel into the write buffers and the map (R466). -/
def restoreRel (s : State) (r : Rel) : State :=
  enqueueMap { s with ftl := { s.ftl with rels := s.ftl.rels ++ [{ r with restored := true, sided := false }] } } (.parcel r.rel)

/-- Cellar replay, steps 1 and 2. -/
def cellarReplay (s : State) : State :=
  match s.ftl.cellar with
  | none => s
  | some c =>
    let whole := (c.ents.takeWhile CellarEnt.complete).map CellarEnt.rel
    let lost := c.ents.dropWhile CellarEnt.complete
    let s1 := (whole.filter (fun r => !replayCommitted s c.flush r)).foldl restoreRel s
    let s2 := { s1 with
      ftl := { s1.ftl with replaying := true }, hold := { s1.hold with lost := lost, lostSeen := false } }
    let s3 := if lost = [] then s2.setFld R.HOLD_LOST_COUNT 0
      else (s2.setFld R.HOLD_LOST_COUNT lost.length).raise R.HOLD_ISR_LOST
    if lost.any CellarEnt.acked then setWarn s3 4 else s3

/-- The rescue takes the retained parcels into the map as sectors held in the write buffers (R480). -/
def rescueTake (s : State) (i : RetIdx) : State :=
  let new := i.rels.filter (fun r => (findRel s r.rel).isNone)
  let s1 := { s with ftl := { s.ftl with rels := s.ftl.rels ++ new.map (fun r => { r with restored := true }) } }
  let s2 := (i.wb.filter (fun w => new.any (fun r => r.rel == w.rel))).foldl wbPut s1
  runQueue s2 (s2.ftl.queue ++ i.queue.filter (fun q => match q with
    | .parcel r => new.any (fun x => x.rel == r)
    | .dealloc _ _ _ => true))

/-- The rescue, or, with exposure at the reset and no index to use, its loss. -/
def rescue (s : State) (indexOk : Bool) : State :=
  match s.boot.index with
  | some i =>
    if s.flag R.SYS_RETBASE_VALID ∧ indexOk then rescueTake s i
    else retLost s
  | none => retLost s
where
  retLost (s : State) : State :=
    if s.boot.lostX = 0 then s
    else
      let s1 := (s.raise R.SYS_RSTCAUSE_RETLOST).setFld R.SYS_RETLOST_COUNT (s.boot.lostX / 4096)
      let s2 := if s.boot.lostW then setWarn s1 4 else s1
      { s2 with boot := { s2.boot with index := none, lostX := 0, lostW := false } }

/-- Down to a multiple of 64 MiB. -/
def down64 (n : Nat) : Nat := n / 64 * 64

/-- The placement of Table 2.8, in MiB. -/
def placeBuffers (s : State) : State :=
  let l := s.fld R.DRAM_USABLE_MIB
  let o := down64 (l / 16)
  let n := down64 (l / 32)
  s.setFlds [(R.RET_OSTG_SIZE_SIZE, o), (R.RET_OSTG_BASE_BASE, l - o), (R.DISP_LAND_SIZE_SIZE 0, n),
    (R.DISP_LAND_BASE_BASE 0, l - o - n), (R.DISP_LAND_SIZE_SIZE 1, n), (R.DISP_LAND_BASE_BASE 1, l - o - 2 * n)]

/-- The blocks that REPLAY enables. -/
def replayBlocksOn : List BlockId :=
  [.ftla, .disp, .pat, .rule, .codec, .dma, .digest] ++ (List.finRange 32).map .tile

/-- The fabric: its configuration record is restored, and FAB_CTRL.EN set (R483). -/
def fabricUp (s : State) : State :=
  bringUp (match s.boot.fabRec with | some (sh, lo) => fabApply s sh lo | none => s) .fab

/-- REPLAY: `fail` 6 or 7 is a replay failure of SYS_PHASE.DETAIL. -/
def phaseReplay (s : State) (indexOk : Bool) (fail : Option Bool) : State :=
  if phaseAt s 11 ∧ ¬ s.ftl.ready then
    match fail with
    | some read => bootFatal s 11 (if read then 7 else 6)
    | none =>
      let s1 := rescue (cellarReplay (mapReplay s)) indexOk
      let s2 := fabricUp (bringUpAll (placeBuffers s1) replayBlocksOn)
      { s2 with ftl := { s2.ftl with ready := true } }
  else s

/-- RESCUE_WRITE: a due unit of the rescued parcels is written; with the last committed, VALID clears. -/
def rescueWrite (s : State) : State :=
  if s.boot.index.isSome ∧ s.ftl.ready then
    if restoredRels s false = [] then
      { (s.clear R.SYS_RETBASE_VALID) with boot := { s.boot with index := none, lostX := 0, lostW := false } }
    else writeRestored s (restoredRels s false).contains
  else s

def phaseReady (s : State) : State := if phaseAt s 11 ∧ s.ftl.ready then phaseNext s 11 else s

/-! ### Limits -/

/-- PHASE_LIMIT_EXPIRY: the outcome of Table 17.2 for the phase that stands; FWLOAD's is the watchdog's. -/
def phaseLimit (s : State) : State :=
  let n := s.fld R.SYS_PHASE_PHASE
  if ¬ phaseAt s n then s
  else
    let note := s.setFlds [(R.SYS_PHASE_FAILPH, n), (R.SYS_PHASE_DETAIL, 1)]
    match n with
    | 1 => clocksFail s 1
    | 2 | 3 => bootHalt s n 1
    | 4 => phaseNext (remapNow note) 4
    | 5 => bootRecovery s 5 1
    | 7 => phaseNext (noiseFail note) 7
    | 8 => bootFatal s 8 1
    | 9 => phaseNext (qualStart (bringUpAll note [.therm, .hold])) 9
    | 10 => phaseNext (bringUp note .nvme) 10
    | 11 => if s.ftl.ready then s else bootFatal s 11 1
    | _ => s

/-! ### The commands -/

def execPhaseClocks (s : State) : Result := .next (phaseClocks s)
def execPhaseFuses (ok : Bool) (s : State) : Result := .next (phaseFuses s ok)
def execPhaseRom (s : State) : Result := .next (phaseRom s)
def execPhaseCstore (bad : List Nat) (s : State) : Result := .next (phaseCstore s bad)
def execPhaseVerify (fault0 fault1 : Bool) (s : State) : Result := .next (phaseVerify s fault0 fault1)
def execPhaseFwload (s : State) : Result := .next (phaseFwload s)
def execPhaseKeys (ok : Bool) (s : State) : Result := .next (phaseKeys s ok)
def execPhaseDram (pop : Option (Fin 3 × Bool)) (trains : Bool) (s : State) : Result := .next (phaseDram s pop trains)
def execPhaseRecords (bad : List Nat) (s : State) : Result := .next (phaseRecords s bad)
def execPhaseNand (ids : List (Nat × Nat)) (bad : List Nat) (marks : List (Nat × Nat)) (s : State) : Result :=
  .next (phaseNand s ids bad marks)
def execPhaseReplay (indexOk : Bool) (fail : Option Bool) (s : State) : Result := .next (phaseReplay s indexOk fail)
def execRescueWrite (s : State) : Result := .next (rescueWrite s)
def execPhaseReady (s : State) : Result := .next (phaseReady s)
def execPhaseLimitExpiry (s : State) : Result := .next (phaseLimit s)

end Sys2Proof.Machine
end

