-- ==== Sys2Proof/Machine/Dma.lean ====
section
/-! DEFINITION. Sys2Proof/Machine/Dma.lean: the instructions of the program channels and the descriptors of the descriptor
channels (R392, R394, R398 to R402, R405). A channel fetches its instruction or descriptor from memory as it executes it. -/

namespace Sys2Proof.Machine

/-! ### The accesses of a channel (R392) -/

/-- An access of a channel: its result and the state, or the status it ends the channel with, and the address. -/
inductive DmaAcc (α : Type) where
  | ok (x : α) (s : State)
  | bad (status a : Nat) (s : State)

/-- The requester a channel is in register space. -/
def dmaRq (ch : Nat) : Requester := .dma (Fin.ofNat 64 ch)

/-- May a channel's owner reach an offset of register space: anyone but a tile, which reaches its TILE_DOORBELL alone? -/
def dmaReachReg (w : Who) (off : Nat) : Bool := w.1 != 3 || off == 0x400020 + w.2 * blockWindow

/-- A read of `n` bytes. -/
def dmaRead (s : State) (ch a n : Nat) : DmaAcc (List Byte) :=
  let w := dmaOwner s ch
  match targetOf s a with
  | .reg off =>
    if n ≠ 4 ∨ a % 4 ≠ 0 ∨ ¬ dmaReachReg w off then .bad dmaRange a s
    else
      match regRead s (dmaRq ch) off with
      | some r => .ok (leBytes 4 r.1) r.2
      | none => .bad dmaBus a s
  | _ =>
    if ¬ ownerReach s w a n then .bad dmaRange a s
    else
      match readGlobal s a n xoDma with
      | some (bs, s1, none) => .ok bs s1
      | some (_, s1, some _) => .bad dmaEcc a s1
      | none => .bad dmaBus a s

/-- A write of bytes: a local write (R359), no flow-context word among them (R58). -/
def dmaWriteBytes (s : State) (ch a : Nat) (bs : List Byte) : DmaAcc Unit :=
  let w := dmaOwner s ch
  match targetOf s a with
  | .reg off =>
    if bs.length ≠ 4 ∨ a % 4 ≠ 0 ∨ ¬ dmaReachReg w off then .bad dmaRange a s
    else
      match regWrite s (dmaRq ch) off (leNat bs) with
      | some s1 => .ok () s1
      | none => .bad dmaBus a s
  | t =>
    let t1 := targetOf s (a + bs.length - 1)
    if ¬ ownerReach s w a bs.length then .bad dmaRange a s
    else if ramTarget t && ramTarget t1 && !isFlowCtx t && !isFlowCtx t1 then
      .ok () (writeMem s a bs (some (dmaMergeOwner ch)) tagLocal)
    else .bad dmaBus a s

/-- Count bytes written in DONE and TOTAL. -/
def dmaCount (s : State) (ch n : Nat) : State :=
  (s.setFld (R.DMA_CH_DONE_DONE ch) (s.fld (R.DMA_CH_DONE_DONE ch) + n)).addWrap (R.DMA_CH_TOTAL_TOTAL ch) n

/-- Bytes of the next read: at most 256, within one 256-byte block of the source (R394). -/
def dmaPiece (src left : Nat) : Nat := min left (256 - src % 256)

/-- Copy `left` bytes, ascending, read by read, at most `fuel` reads. -/
def dmaCopy (s : State) (ch src dst left : Nat) : Nat → DmaAcc Unit
  | 0 => .ok () s
  | fuel + 1 =>
    if left = 0 then .ok () s
    else
      let n := dmaPiece src left
      match dmaRead s ch src n with
      | .bad st a s1 => .bad st a s1
      | .ok bs s1 =>
        match dmaWriteBytes s1 ch dst bs with
        | .bad st a s2 => .bad st a s2
        | .ok _ s2 => dmaCopy (dmaCount s2 ch n) ch (src + n) (dst + n) (left - n) fuel

/-- The next `k` bytes of a move of `len` bytes, from byte DONE onward. -/
def dmaMoveOn (s : State) (ch src dst len k : Nat) : DmaAcc Unit :=
  let done := s.fld (R.DMA_CH_DONE_DONE ch)
  let left := min k (len - done)
  dmaCopy s ch (src + done) (dst + done) left (left / 256 + 2)

/-- Would a move overwrite bytes it has yet to read (R399)? -/
def dmaOverlaps (src dst len : Nat) : Bool := decide (src < dst) && decide (dst < src + len)

/-! ### Fetching (R398) -/

/-- Are the bytes from `lo` up to `hi` all 0? -/
def zeroBytes (bs : List Byte) (lo hi : Nat) : Bool := ((bs.drop lo).take (hi - lo)).all (· == 0)

/-- The low four bits and the high four bits of byte 0. -/
def dmaOp (bs : List Byte) : Nat := leAt bs 0 1 % 16
def dmaMods (bs : List Byte) : Nat := leAt bs 0 1 / 16

/-- A program channel that runs fetches its instruction; a failed fetch ends it, and an instruction of another opcode is
not this command's. -/
def dmaInstr (s : State) (ch : Nat) (mine : Nat → Bool) (f : State → List Byte → State) : State :=
  if dmaIsDesc ch ∨ dmaState s ch ≠ dmaRunning then s
  else
    match dmaRead s ch (dmaPc s ch) 32 with
    | .bad st a s1 => dmaFail s1 ch st (some a)
    | .ok bs s1 => if mine (dmaOp bs) then f s1 bs else s

/-- The next instruction. -/
def dmaNext (s : State) (ch : Nat) : State := setDmaPc s ch (dmaPc s ch + 32)

/-- An instruction that is no program: BADPROG (R405). -/
def dmaBadInstr (s : State) (ch : Nat) : State := dmaFail s ch dmaBadProg none

/-! ### The instructions (R399) -/

/-- An address field with its stride, modulo 2^48. -/
def dmaAddr (base iter stride : Nat) : Nat := unsignedOf ((base : Int) + (iter : Int) * signedOf stride 32) 48

/-- MOVE: at most `k` further bytes; the instruction ends with its last byte. -/
def dmaMove (s : State) (ch k : Nat) (bs : List Byte) : State :=
  if !zeroBytes bs 1 4 || dmaMods bs / 2 != 0 || !zeroBytes bs 7 8 || !zeroBytes bs 0xE 0x10 || !zeroBytes bs 0x16 0x18 then
    dmaBadInstr s ch
  else
    let len := leAt bs 4 3 + 1
    let iter := s.fld (R.DMA_CH_ITER_ITER ch)
    let src := dmaAddr (leAt bs 8 6) iter (leAt bs 0x18 4)
    let dst := dmaAddr (leAt bs 0x10 6) iter (leAt bs 0x1C 4)
    if dmaOverlaps src dst len then dmaBadInstr s ch
    else
      match dmaMoveOn s ch src dst len k with
      | .bad st a s1 => dmaFail s1 ch st (some a)
      | .ok _ s1 =>
        if s1.fld (R.DMA_CH_DONE_DONE ch) = len then dmaNext (s1.setFld (R.DMA_CH_DONE_DONE ch) 0) ch else s1

def dmaLoop (s : State) (ch : Nat) (bs : List Byte) : State :=
  let count := leAt bs 4 3
  let back := leAt bs 8 2
  let pc := dmaPc s ch
  let iter := s.fld (R.DMA_CH_ITER_ITER ch)
  let x := dmaOf s ch
  if !zeroBytes bs 1 4 || dmaMods bs != 0 || !zeroBytes bs 7 8 || !zeroBytes bs 0xA 0x20 || decide (count < 2) || back == 0 then
    dmaBadInstr s ch
  else if x.loopPc ≠ some pc ∧ iter ≠ 0 then dmaBadInstr s ch
  else if pc < dmaProg s ch + 32 * back then dmaBadInstr s ch
  else if iter + 1 < count then
    setDmaPc ((setDma s ch { x with loopPc := some pc }).setFld (R.DMA_CH_ITER_ITER ch) (iter + 1)) ch (pc - 32 * back)
  else dmaNext (s.setFld (R.DMA_CH_ITER_ITER ch) 0) ch

def dmaWait (s : State) (ch : Nat) (bs : List Byte) : State :=
  let e := leAt bs 8 1
  let clr := dmaMods bs % 2 == 1
  if !zeroBytes bs 1 4 || dmaMods bs / 2 != 0 || decide (64 ≤ e) || !zeroBytes bs 9 0x20 then dmaBadInstr s ch
  else if dmaEvent s e then dmaNext (if clr then dmaClearEvent s e else s) ch
  else setDmaState (setDma s ch { dmaOf s ch with wait := some (e, clr, leAt bs 4 4) }) ch dmaWaiting

def dmaSignalInstr (s : State) (ch : Nat) (bs : List Byte) : State :=
  let e := leAt bs 8 1
  let mods := dmaMods bs
  if !zeroBytes bs 1 4 || mods / 4 != 0 || decide (64 ≤ e) || !zeroBytes bs 9 0x20 then dmaBadInstr s ch
  else
    let s1 := dmaDrainWrites s ch
    let s2 := if mods.testBit 1 then dmaSetEvent s1 e else s1
    if mods.testBit 0 then
      dmaRecord (setDma s2 ch { dmaOf s2 ch with after := some (dmaPc s ch + 32) }) ch (leAt bs 4 4) dmaSignal dmaRunning
    else dmaNext s2 ch

def dmaEnd (s : State) (ch : Nat) (bs : List Byte) : State :=
  if !zeroBytes bs 1 4 || dmaMods bs != 0 || !zeroBytes bs 8 0x20 then dmaBadInstr s ch
  else dmaRecord (dmaDrainWrites s ch) ch (leAt bs 4 4) dmaOk dmaIdle

/-! ### Descriptors (R401, R402) -/

/-- Does a reserved bit, LEN or the overlap rule make a descriptor bad? -/
def descBad (bs : List Byte) : Bool :=
  let ctrl := leAt bs 0x1C 4
  !zeroBytes bs 6 8 || !zeroBytes bs 0xE 0x10 || !zeroBytes bs 0x16 0x18 || bitsOf ctrl 10 21 != 0 || !zeroBytes bs 0x24 0x40 ||
    decide (16777216 < leAt bs 0x18 4) || dmaOverlaps (leAt bs 8 6) (leAt bs 0x10 6) (leAt bs 0x18 4)

/-- The end of a descriptor: CTRL written back, the event, the record, and NEXT. -/
def descDone (s0 : State) (ch : Nat) (bs : List Byte) : State :=
  let s := dmaDrainWrites s0 ch
  let ctrl := leAt bs 0x1C 4
  let tag := leAt bs 0x20 4
  let next := leAt bs 0 6
  match dmaWriteBytes s ch (dmaPc s ch + 0x1C) (leBytes 4 (ctrl / 2 * 2 % 2 ^ 31 + 2 ^ 31)) with
  | .bad st a s1 => dmaFail s1 ch st (some a)
  | .ok _ s1 =>
    let s2 := if bitOf ctrl 3 then dmaSetEvent s1 (bitsOf ctrl 4 6) else s1
    if next = 0 then dmaRecord s2 ch tag dmaOk dmaIdle
    else if bitOf ctrl 2 then dmaRecord (setDma s2 ch { dmaOf s2 ch with after := some next }) ch tag dmaOk dmaRunning
    else (setDmaPc s2 ch next).setFld (R.DMA_CH_DONE_DONE ch) 0

/-- A descriptor channel that runs reads its descriptor: it waits where VALID is 0, else moves at most `k` further bytes. -/
def dmaDescriptor (s : State) (ch k : Nat) : State :=
  if ¬ dmaIsDesc ch ∨ dmaState s ch ≠ dmaRunning then s
  else
    let pc := dmaPc s ch
    match dmaRead s ch pc 64 with
    | .bad st a s1 => dmaFail s1 ch st (some a)
    | .ok bs s1 =>
      let len := leAt bs 0x18 4
      if leAt bs 0x1C 4 % 2 = 0 then setDmaState s1 ch dmaWaiting
      else if leAt bs 0 1 % 64 ≠ 0 then dmaFail s1 ch dmaAlign (some (leAt bs 0 6))
      else if descBad bs then dmaFail s1 ch dmaBadDesc none
      else
        match dmaMoveOn s1 ch (leAt bs 8 6) (leAt bs 0x10 6) len k with
        | .bad st a s2 => dmaFail s2 ch st (some a)
        | .ok _ s2 => if s2.fld (R.DMA_CH_DONE_DONE ch) = len then descDone s2 ch bs else s2

/-! ### The commands -/

def execDmaMove (ch : Fin 64) (k : Nat) (s : State) : Result := .next (dmaInstr s ch (· == 1) (fun s1 bs => dmaMove s1 ch k bs))
def execDmaLoop (ch : Fin 64) (s : State) : Result := .next (dmaInstr s ch (· == 2) (fun s1 bs => dmaLoop s1 ch bs))
def execDmaWait (ch : Fin 64) (s : State) : Result := .next (dmaInstr s ch (· == 3) (fun s1 bs => dmaWait s1 ch bs))
def execDmaSignal (ch : Fin 64) (s : State) : Result := .next (dmaInstr s ch (· == 4) (fun s1 bs => dmaSignalInstr s1 ch bs))
def execDmaEnd (ch : Fin 64) (s : State) : Result := .next (dmaInstr s ch (· == 0) (fun s1 bs => dmaEnd s1 ch bs))
def execDmaUndefinedInstruction (ch : Fin 64) (s : State) : Result :=
  .next (dmaInstr s ch (fun op => decide (5 ≤ op)) (fun s1 _ => dmaBadInstr s1 ch))
def execDmaDescriptor (ch : Fin 64) (k : Nat) (s : State) : Result := .next (dmaDescriptor s ch k)

end Sys2Proof.Machine
end

