-- ==== Sys2Proof/Machine/Images.lean ====
section
/-! DEFINITION. Sys2Proof/Machine/Images.lean: the images that vendor commands load (R115 to R118, R199 and R200, R237 and
R238, R243 to R245, R250 and R251, R305 to R308): their checks in the order of R292, and what loading one does. -/

namespace Sys2Proof.Machine

/-! ### What every image has (R291, R292) -/

/-- The body of an image: the bytes after its header. -/
def imgBody (d : List Byte) (hlen len : Nat) : List Byte := (d.drop hlen).take len

/-- Does the digest of a header match the body? -/
def imgDigestOk (d : List Byte) (at_ : Nat) (body : List Byte) : Bool := sha256 body == (d.drop at_).take 32

/-- The tiles whose core runs a job. -/
def jobTiles (s : State) : List Nat := (List.range 32).filter (fun t => (s.tile t).job.isSome)

/-- Does a bound flow name something by a field of its context? -/
def flowNames (s : State) (f : CtxFld) (n : Nat) : Bool := (boundFlows s).any (fun x => ctxGet s x f == n)

/-! ### Programs (R115 to R118) -/

/-- The footprint of a program image in bytes (R116). -/
def progFootprint (d : List Byte) : Nat :=
  roundUp (leAt d 0x18 4) 64 + roundUp (leAt d 0x1C 4) 64 + roundUp (leAt d 0x20 4) 64 + leAt d 0x24 4

/-- The header of a program image of a kind, and the data length (step 1). -/
def progHeaderOk (kind : Nat) (d : List Byte) : Bool :=
  let code := leAt d 0x18 4
  let vec := leAt d 0x14 4
  leAt d 0 4 == 0x5A495253 && leAt d 4 2 == 1 && leAt d 6 2 == 96 && leAt d 8 1 == 1 && leAt d 9 1 == 0 &&
    leAt d 0x0A 1 == kind && decide (leAt d 0x0B 1 < 2) && leAt d 0x0C 4 % 64 == 0 && leAt d 0x10 4 % 2 == 0 &&
    decide (leAt d 0x10 4 < code) && (vec == 0xFFFFFFFF || (vec % 128 == 0 && decide (vec < code))) && decide (2 ≤ code) &&
    leAt d 0x24 4 % 64 == 0 && decide (256 ≤ leAt d 0x24 4) && leAt d 0x28 4 == code + leAt d 0x1C 4 &&
    zeros d 0x2C 20 && decide (96 + leAt d 0x28 4 ≤ d.length)

/-- The footprints of the loaded program slots but one. -/
def slotRanges (s : State) (skip : Option Nat) : List (Nat × Nat) :=
  s.loaded.progs.filterMap (fun e => if some e.1 = skip then none else e.2.map (fun p => (p.load, p.footprint)))

/-- The footprints of the loaded step-table sets but one. -/
def setRanges (s : State) (skip : Option Nat) : List (Nat × Nat) :=
  s.loaded.sets.filterMap (fun e => if some e.1 = skip then none else e.2.map (fun x => (x.base, x.footprint)))

/-- The status of a program image for a slot (R117, R292). -/
def progStatus (s : State) (kind slot : Nat) (d : List Byte) : Nat :=
  let fp := (leAt d 0x0C 4, progFootprint d)
  if !progHeaderOk kind d then scImgFormat
  else if !imgDigestOk d 0x40 (imgBody d 96 (leAt d 0x28 4)) then scImgDigest
  else if flowNames s cxPROG slot || (jobTiles s).any (fun t => (s.tile t).job.any (fun j => j.slot == slot)) then scInUse
  else if 0x100000 < fp.1 + fp.2 || (slotRanges s (some slot)).any (overlaps fp) then scImgFit
  else scOk

/-- Write the same bytes into every tile's local memory. -/
def writeTiles (s : State) (o : Nat) (bs : List Byte) : State :=
  (List.range 32).foldl (fun acc t => writeMem acc (tileLocalAddr t o) bs none tagLocal) s

/-- An accepted program image: code, data and zeroed data in every tile (R116, R118), and the slot. -/
def progLoad (s : State) (slot : Nat) (d : List Byte) : State :=
  let code := leAt d 0x18 4
  let data := leAt d 0x1C 4
  let load := leAt d 0x0C 4
  let body := imgBody d 96 (code + data)
  let s1 := writeTiles s load (body.take code)
  let s2 := writeTiles s1 (load + roundUp code 64) (body.drop code)
  let s3 := writeTiles s2 (load + roundUp code 64 + roundUp data 64) (List.replicate (leAt d 0x20 4) 0)
  let p : ProgSlot :=
    { kind := leAt d 0x0A 1, flags := leAt d 0x0B 1, load := load, entry := leAt d 0x10 4, vec := leAt d 0x14 4,
      code := code, footprint := progFootprint d, active := false }
  { s3 with loaded := { s3.loaded with progs := tblSet none s3.loaded.progs slot (some p) } }

/-! ### Step-table sets (R199, R200) -/

/-- The set header and the data length (step 1). -/
def setHeaderOk (d : List Byte) : Bool :=
  leAt d 0 4 == 0x4C425453 && leAt d 4 2 == 1 && leAt d 6 2 == 64 && decide (1 ≤ leAt d 9 1) && decide (leAt d 9 1 ≤ 8) &&
    zeros d 0x0A 2 && leAt d 0x0C 4 % 64 == 0 && zeros d 0x14 12 && decide (64 + leAt d 0x10 4 ≤ d.length)

/-- What the operations of Table 6.4 use, each as a row: source A, source B, DST, MSEL, MOP, MU, SGN, SAT, PK, SH, IMM. -/
structure OpUses where
  a : Bool := false
  b : Bool := false
  dst : Bool := true
  msel : Bool := false
  mop : Bool := false
  mu : Bool := false
  sgn : Bool := false
  sat : Bool := false
  pk : Bool := false
  sh : Bool := false
  imm : Bool := false

/-- The Uses column of Table 6.4 by OP; none: undefined. -/
def opUses (op : Nat) : Option OpUses :=
  match op with
  | 0x00 => some { dst := false }
  | 0x01 => some { a := true, mu := true }
  | 0x02 | 0x03 => some { a := true, b := true, sgn := true, sat := true, mu := true }
  | 0x04 | 0x05 => some { a := true, b := true, sgn := true, mu := true }
  | 0x06 | 0x07 | 0x08 => some { a := true, b := true, mu := true }
  | 0x09 | 0x0A | 0x0B => some { a := true, b := true, sgn := true, msel := true, mop := true }
  | 0x0C => some { a := true, sgn := true, msel := true, mop := true, imm := true }
  | 0x0D => some { a := true, b := true, msel := true, mu := true }
  | 0x0E => some { a := true, sh := true, sat := true, sgn := true, mu := true }
  | 0x0F => some { a := true, sh := true, sgn := true, mu := true }
  | 0x10 => some { a := true, b := true, sh := true, sgn := true, sat := true }
  | 0x11 => some { msel := true }
  | 0x12 => some { a := true, sgn := true, sat := true, imm := true }
  | 0x13 => some { a := true, msel := true }
  | 0x14 => some { a := true, msel := true, sgn := true }
  | 0x15 => some { a := true, sh := true, msel := true, mu := true, imm := true }
  | 0x16 => some { a := true, sgn := true, sat := true, pk := true }
  | 0x17 => some { a := true, sgn := true, msel := true, mop := true, pk := true }
  | 0x18 => some { a := true, imm := true }
  | _ => none

/-- Is a next step permitted (R186, R200)? -/
def nextOk (nstep n : Nat) : Bool := decide (n < nstep) || n == 0x400 || n == 0x401 || n == 0x402

/-- Is every field that an operation does not use 0 (R188)? IMM also serves a source of code 12. -/
def unusedZero (u : OpUses) (st : Step) : Bool :=
  (u.a || st.srca == 0) && (u.b || st.srcb == 0) && (u.dst || st.dst == 0) && (u.msel || !st.msel) &&
    (u.mop || st.mop == 0) && (u.mu || !st.mu) && (u.sgn || !st.sgn) && (u.sat || !st.sat) && (u.pk || !st.pk) &&
    (u.sh || st.sh == 0) && (u.imm || (u.a && st.srca == 12) || (u.b && st.srcb == 12) || st.imm == 0)

/-- Is the operation a neighbourhood operation (R192)? -/
def isNbh (st : Step) : Bool := st.op == 0x16 || st.op == 0x17

/-- The LW that Table 6.4 allows an operation. -/
def lwOk (st : Step) : Bool :=
  if st.op = 0 then st.lw == 0 else if st.op = 0x10 then st.lw == 1 || st.lw == 2 else decide (st.lw < 3)

/-- The DST that Table 6.4 allows an operation, and MU with it (R189). -/
def dstOk (st : Step) : Bool :=
  decide (st.dst ≤ 10) && (st.op != 0x14 || st.dst == 8 || st.dst == 9) && (st.op != 0x15 || st.dst == 10) &&
    (!st.mu || st.op == 0x15 || decide (st.dst < 8))

/-- The limits on IMM (Table 6.4, R191). -/
def immOk (st : Step) : Bool :=
  (st.op != 0x12 || decide (st.imm < 2)) &&
    (st.op != 0x15 || (st.imm % 4 == 0 && decide (bitsOf st.imm 0 20 + 4 * (bitsOf st.imm 20 12 + 1) ≤ 0x100000))) &&
    (st.op != 0x18 || st.imm % st.w == 0)

/-- Is a step permitted in a table of `nstep` steps (R200)? `v` is its 128-bit word. -/
def stepOk (nstep v : Nat) : Bool :=
  let st := stepOf v
  match opUses st.op with
  | none => false
  | some u =>
    bitsOf v 36 12 == 0 && bitsOf v 59 5 == 0 && bitsOf v 75 5 == 0 && lwOk st && decide (st.srca ≤ 13) &&
      decide (st.srcb ≤ 13) && decide (st.mop < 3) && decide (st.flag < 15) && nextOk nstep st.nextT &&
      nextOk nstep st.nextF && unusedZero u st && dstOk st && immOk st && (!isNbh st || decide (st.srca < 4))

/-- The steps of a table at a place of the body. -/
def tableSteps (b : List Byte) (o n : Nat) : List Nat := (List.range n).map (fun i => leAt b (o + 64 + 16 * i) 16)

/-- Do the neighbourhood steps of a table agree, and does LINE suit them (R192)? -/
def nbhOk (line : Nat) (vs : List Nat) : Bool :=
  match (vs.map stepOf).filter isNbh with
  | [] => true
  | st :: r =>
    line != 0 && line * st.w % 64 == 0 && decide (line * st.w ≤ 16384) &&
      r.all (fun x => x.srca == st.srca && x.lw == st.lw)

/-- Is the table at a place of the body permitted: its header and its steps (Table 6.9, R200)? -/
def tableOk (b : List Byte) (o : Nat) : Bool :=
  let n := leAt b (o + 2) 2
  let vs := tableSteps b o n
  decide (o + 64 ≤ b.length) && leAt b o 1 == 1 && zeros b (o + 1) 1 && decide (1 ≤ n) && decide (n ≤ 1024) &&
    decide (leAt b (o + 6) 2 < n) && zeros b (o + 12) 52 && decide (o + 64 + 16 * n ≤ b.length) && vs.all (stepOk n) &&
    nbhOk (leAt b (o + 4) 2) vs

/-- Do `k` tables from a place on fill the body exactly? -/
def tablesOk (b : List Byte) (o : Nat) : Nat → Bool
  | 0 => o == b.length
  | k + 1 => tableOk b o && tablesOk b (o + 64 + 16 * leAt b (o + 2) 2) k

/-- The status of a set image (R200, R292). -/
def setStatus (s : State) (d : List Byte) : Nat :=
  let n := leAt d 8 1
  let body := imgBody d 64 (leAt d 0x10 4)
  let fp := (leAt d 0x0C 4, roundUp (64 + leAt d 0x10 4) 64)
  if !setHeaderOk d then scImgFormat
  else if !imgDigestOk d 0x20 body then scImgDigest
  else if !tablesOk body 0 (leAt d 9 1) then scImgFormat
  else if flowNames s cxSTEP n ||
      (jobTiles s).any (fun t => s.fld (R.TILE_MSET_NTAB t) != 0 && s.fld (R.TILE_MSET_SET t) == n) then scInUse
  else if 0x100000 < fp.1 + fp.2 || (slotRanges s none).any (overlaps fp) || (setRanges s (some n)).any (overlaps fp) then
    scImgFit
  else scOk

/-- An accepted set: copied, header included, into every tile. -/
def setLoad (s : State) (d : List Byte) : State :=
  let len := 64 + leAt d 0x10 4
  let s1 := writeTiles s (leAt d 0x0C 4) (d.take len)
  let k := s1.loaded.loadings + 1
  let x : StepSet := { base := leAt d 0x0C 4, ntab := leAt d 9 1, footprint := roundUp len 64, loading := k }
  { s1 with loaded := { s1.loaded with loadings := k, sets := tblSet none s1.loaded.sets (leAt d 8 1) (some x) } }

/-! ### Codec profiles (R237, R238) -/

/-- The profile header and the data length (step 1). -/
def profHeaderOk (d : List Byte) : Bool :=
  let n := leAt d 8 2
  leAt d 0 4 == 0x50434251 && leAt d 4 2 == 1 && leAt d 6 2 == 64 && decide (1 ≤ n) && decide (n ≤ 256) && zeros d 0x0A 2 &&
    leAt d 0x0C 4 == 16 * n && zeros d 0x10 16 && decide (64 + 16 * n ≤ d.length)

/-- An entry of a profile image (Table 7.12): its profile, with BUDGET as its code. -/
def profEntry (d : List Byte) (i : Nat) : Nat × Prof :=
  let o := 64 + 16 * i
  let b := leAt d (o + 1) 1
  (leAt d o 1, { mode := bitsOf b 0 2, pred := bitsOf b 2 2, width := bitsOf b 4 2, budget := bitsOf b 6 2, line := leAt d (o + 2) 2 })

/-- Does an entry keep to Table 7.12? -/
def profEntryOk (d : List Byte) (i : Nat) : Bool :=
  let p := (profEntry d i).2
  decide (p.mode < 3) && decide (p.pred < 3) && decide (p.width < 3) && (p.mode != 0 || p.pred == 0) &&
    (p.mode == 2 || p.budget == 0) && (if p.pred = 2 then decide (1 ≤ p.line) && decide (p.line ≤ 4096) else p.line == 0) &&
    zeros d (68 + 16 * i) 12

def profEntries (d : List Byte) : List (Nat × Prof) := (List.range (leAt d 8 2)).map (profEntry d)

/-- The status of a profile image (R238, R292). -/
def profStatus (s : State) (d : List Byte) : Nat :=
  let ns := (profEntries d).map Prod.fst
  if !profHeaderOk d then scImgFormat
  else if !imgDigestOk d 0x20 (imgBody d 64 (leAt d 0x0C 4)) then scImgDigest
  else if !((List.range (leAt d 8 2)).all (profEntryOk d) && distinct ns) then scImgFormat
  else if ns.any (fun n => flowNames s cxCODEC n || (jobTiles s).any (fun t => (s.tile t).curProf == n)) then scInUse
  else scOk

/-- Accepted entries replace the profiles of their numbers, and CODEC_PROFn shows them. -/
def profLoad (s : State) (d : List Byte) : State :=
  (profEntries d).foldl (fun acc e =>
    { acc with profs := tblSet none acc.profs e.1 (some e.2) }.setFlds
      [(R.CODEC_PROF_MODE e.1, e.2.mode), (R.CODEC_PROF_PRED e.1, e.2.pred), (R.CODEC_PROF_WIDTH e.1, e.2.width),
       (R.CODEC_PROF_BUDGET e.1, e.2.budget), (R.CODEC_PROF_LOADED e.1, 1), (R.CODEC_PROF_LINE e.1, e.2.line)]) s

/-! ### Automata (R243 to R245) -/

/-- The row length W of an image: NC^STRIDE. -/
def autoRow (d : List Byte) : Nat := leAt d 0x0A 2 ^ leAt d 9 1

/-- The automaton header and the data length (step 1). -/
def autoHeaderOk (d : List Byte) : Bool :=
  let st := leAt d 9 1
  let nc := leAt d 0x0A 2
  let n := leAt d 0x0C 4
  leAt d 0 4 == 0x41544151 && leAt d 4 2 == 1 && leAt d 6 2 == 64 && decide (leAt d 8 1 < 64) &&
    (st == 1 || st == 2 || st == 4) && decide (2 ≤ nc) && decide (nc ≤ 256) && decide (autoRow d ≤ 65536) &&
    decide (1 ≤ n) && decide (n ≤ tmSize) && decide (leAt d 0x10 4 + autoRow d ≤ n) && leAt d 0x14 4 == 256 + 8 * n &&
    zeros d 0x18 8 && decide (64 + leAt d 0x14 4 ≤ d.length)

/-- The class map and the transition entries of an image. -/
def autoClasses (d : List Byte) : List Nat := (imgBody d 64 256).map BitVec.toNat
def autoEntries (d : List Byte) : List Nat := (List.range (leAt d 0x0C 4)).map (fun i => leAt d (320 + 8 * i) 8)

/-- Does a transition entry keep to Table 8.3 and R245? -/
def autoEntryOk (n row e : Nat) : Bool :=
  decide (bitsOf e 0 22 + row ≤ n) && bitsOf e 23 9 == 0 && bitsOf e 32 16 != 0xFFFE && bitsOf e 48 16 == 0

/-- Does a bound flow or a running job use an index profile? -/
def idxProfUsed (s : State) (p : Nat) : Bool :=
  flowNames s cxINDEX p || (jobTiles s).any (fun t => (s.tile t).job.any (fun j => j.hasIdx && j.idxProf == p))

/-- The lowest free run of transition memory that is long enough, without the old copy of a set. -/
def lowestRun (s : State) (set n : Nat) : Option Nat :=
  let used := tmUsed s set
  let starts := 0 :: used.map (fun u => u.1 + u.2)
  (starts.filter (fun a => decide (n ≤ freeRunAt used a))).foldl
    (fun (m : Option Nat) a => match m with | none => some a | some x => some (min x a)) none

/-- The status of an automaton image (R245, R292). -/
def autoStatus (s : State) (d : List Byte) : Nat :=
  let set := leAt d 8 1
  if !autoHeaderOk d then scImgFormat
  else if !imgDigestOk d 0x20 (imgBody d 64 (leAt d 0x14 4)) then scImgDigest
  else if !((autoClasses d).all (fun c => decide (c < leAt d 0x0A 2 - 1)) &&
      (autoEntries d).all (autoEntryOk (leAt d 0x0C 4) (autoRow d))) then scImgFormat
  else if s.index.profs.any (fun e => e.2.any (fun p => p.aset == set) && idxProfUsed s e.1) then scInUse
  else if (lowestRun s set (leAt d 0x0C 4)).isNone then scImgFit
  else scOk

/-- An accepted automaton: placed at the lowest free run that is long enough, recorded in PAT_SETn. -/
def autoLoad (s : State) (d : List Byte) : State :=
  let set := leAt d 8 1
  match lowestRun s set (leAt d 0x0C 4) with
  | none => s
  | some base =>
    let s1 := tmWrite s base (autoEntries d)
    let s2 := { s1 with loaded := { s1.loaded with classMaps := tblSet [] s1.loaded.classMaps set (autoClasses d) } }
    (s2.setFlds
      [(R.PAT_SET_BASE_BASE set, base), (R.PAT_SET_BASE_LOADED set, 1), (R.PAT_SET_ENTRIES_ENTRIES set, leAt d 0x0C 4),
       (R.PAT_SET_START_START set, leAt d 0x10 4), (R.PAT_SET_SHAPE_STRIDE set, leAt d 9 1),
       (R.PAT_SET_SHAPE_NC set, leAt d 0x0A 2)]).raise R.PAT_ISR_LOADED

/-! ### Rule images (R250, R251) -/

/-- The rule header and the data length (step 1). -/
def ruleHeaderOk (d : List Byte) : Bool :=
  let n := leAt d 0x0C 2
  leAt d 0 4 == 0x4C555251 && leAt d 4 2 == 1 && leAt d 6 2 == 64 && (decide (leAt d 9 1 < 64) || leAt d 9 1 == 0xFF) &&
    decide (1 ≤ leAt d 0x0A 1) && decide (leAt d 0x0A 1 ≤ 36) && decide (leAt d 0x0B 1 < 8) && leAt d 0x0B 1 % 4 != 3 &&
    decide (n ≤ 32768) && zeros d 0x0E 2 && leAt d 0x10 4 == 96 * n && zeros d 0x14 12 && decide (64 + 96 * n ≤ d.length)

def ruleRec (d : List Byte) (i : Nat) : List Byte := (d.drop (64 + 96 * i)).take 96
def ruleRecs (d : List Byte) : List (List Byte) := (List.range (leAt d 0x0C 2)).map (ruleRec d)

/-- Does a record keep to R251 in a mode: in mode 2 only RID, else the rules of a record with VALUE byte 2 the set? -/
def ruleRecOk (mode set : Nat) (r : List Byte) : Bool :=
  if mode = 2 then leAt r 0 82 == 0 && leAt r 84 12 == 0 && leAt r 82 2 != 0xFFFF
  else !badRecord r && leAt r 2 1 == set

/-- The index profile an image gives. -/
def ruleProf (d : List Byte) : IdxProf :=
  { aset := leAt d 9 1, klen := leAt d 0x0A 1, emit := leAt d 0x0B 1 % 4, mstep := bitOf (leAt d 0x0B 1) 2 }

/-- The status of a rule image in a mode (R251, R292). -/
def ruleStatus (s : State) (mode : Nat) (d : List Byte) : Nat :=
  let set := leAt d 8 1
  let rids := (ruleRecs d).map (fun r => leAt r 82 2)
  if !ruleHeaderOk d then scImgFormat
  else if !imgDigestOk d 0x20 (imgBody d 64 (leAt d 0x10 4)) then scImgDigest
  else if !((ruleRecs d).all (ruleRecOk mode set) && distinct rids) then scImgFormat
  else if mode = 0 then
    if leAt d 9 1 ≠ 0xFF ∧ !asetLoaded s (leAt d 9 1) then scImgFormat
    else if idxProfUsed s set then scInUse
    else if tcamSlots < nValid s - (setSlots s set).length + rids.length then scImgFit
    else scOk
  else
    match idxProfOf s set with
    | none => scSequence
    | some p =>
      if p ≠ ruleProf d then scImgFormat
      else if mode = 1 then
        if rids.any (fun r => (ruleSlot s set r).isSome) then scSequence
        else if tcamSlots < nValid s + rids.length then scImgFit
        else scOk
      else if rids.any (fun r => (ruleSlot s set r).isNone) then scSequence
      else scOk

/-- Mode 0: every rule of the set is deleted, the records are inserted in image order, and the profile recorded. No flow or
job uses the set, so no search tells one order of these from another. -/
def ruleReplace (s : State) (d : List Byte) : State :=
  let set := leAt d 8 1
  let s1 := (setSlots s set).foldl (fun acc e => writeSlot acc e.1 { e.2 with valid := false }) s
  let s2 := (ruleRecs d).foldl (fun acc r => (insertRule acc (slotOfRecord r true)).getD acc) s1
  { s2 with index := { s2.index with profs := tblSet none s2.index.profs set (some (ruleProf d)) } }

/-- Modes 1 and 2: the records are inserted or deleted one at a time through RULE_CMD. -/
def ruleQueue (s : State) (mode : Nat) (d : List Byte) (cmd : Nat) : State :=
  let ops := (ruleRecs d).map (fun r =>
    if mode = 1 then RuleOp.insert (slotOfRecord r true) else RuleOp.delete (leAt d 8 1) (leAt r 82 2))
  ruleLoadNext { s with index := { s.index with load := ops, loadCmd := some cmd } }

/-! ### Personalities (R305 to R308) -/

/-- The header of a personality image for a slot, and the data length (step 1). -/
def persHeaderOk (slot : Nat) (d : List Byte) : Bool :=
  let n := leAt d 0x0C 2
  let cell := leAt d 9 1
  leAt d 0 4 == 0x53524E51 && leAt d 4 2 == 1 && leAt d 6 2 == 64 && leAt d 8 1 == slot &&
    (cell == 1 || cell == 3 || cell == 4) && decide (leAt d 0x0A 1 ≤ 16) && zeros d 0x0B 1 && decide (1 ≤ n) &&
    decide (n ≤ 512) && zeros d 0x0E 2 && leAt d 0x10 4 == 320 + 8 * n && zeros d 0x14 12 &&
    decide (64 + leAt d 0x10 4 ≤ d.length)

/-- The geometry section (Table 10.3) with the limits of R308. `b` is the body. -/
def persGeomOk (b : List Byte) : Bool :=
  let pl := leAt b 0x10 1
  let pgu := leAt b 0x12 1
  let col := leAt b 0x13 1 % 16
  let row := leAt b 0x13 1 / 16
  let bpp := leAt b 0x14 4
  let ppb := leAt b 0x18 2
  let par := leAt b 0x1E 2
  zeros b 6 2 && zeros b 0x0E 2 && (pl == 1 || pl == 2 || pl == 4 || pl == 8) && decide (1 ≤ pgu) && decide (pgu ≤ 4) &&
    decide (1 ≤ col) && decide (col ≤ 2) && decide (2 ≤ row) && decide (row ≤ 4) && decide (1 ≤ bpp) && decide (bpp ≤ 65536) &&
    ppb % pgu == 0 && decide (128 ≤ par) && decide (par ≤ 1024) && par % 32 == 0 &&
    decide (signedOf (leAt b 0x28 1) 8 < signedOf (leAt b 0x29 1) 8) && zeros b 0x2B 21 &&
    decide (4 * (4112 + par) ≤ 16384 + leAt b 0x1C 2) && decide (pl * bpp * max ppb (leAt b 0x1A 2) * 4 ≤ 2 ^ 26)

/-- The timing section (Table 10.4). -/
def persTimingOk (b : List Byte) : Bool :=
  decide (leAt b 0x40 1 ≤ 3) && zeros b 0x41 1 && decide (50 ≤ leAt b 0x50 2) && zeros b 0x62 30

/-- Entry k of the operation index; the micro-steps; the retry steps. -/
def persOp (b : List Byte) (k : Nat) : Nat := leAt b (0x80 + 4 * k) 2
def persSteps (b : List Byte) (n : Nat) : List Nat := (List.range n).map (fun i => leAt b (0x140 + 8 * i) 8)
def persRetry (b : List Byte) (n : Nat) : List Nat := (List.range n).map (fun i => leAt b (0xC0 + 8 * i) 8)

/-- Does a micro-step keep to Table 10.6, the fields its kind does not use 0? -/
def microOk (planes v : Nat) : Bool :=
  let arg := bitsOf v 4 4
  let byte := bitsOf v 8 8
  let val := bitsOf v 16 8
  let failm := bitsOf v 24 8
  let time := bitsOf v 32 32
  match bitsOf v 0 4 with
  | 0 => decide (arg ≤ 1) && byte == 0 && val == 0 && failm == 0 && time == 0
  | 1 => arg == 0 && val == 0 && failm == 0 && time == 0
  | 2 => decide (arg ≤ 2) && (arg == 2 || byte == 0) && (if arg = 2 then val == 0 else decide (val < planes)) && failm == 0 &&
      time == 0
  | 3 | 4 => decide (arg ≤ 1) && byte == 0 && val == 0 && failm == 0 && (arg == 1 || time == 0)
  | 5 => arg == 0 && byte == 0 && val == 0 && failm == 0
  | 6 => decide (arg ≤ 1)
  | 7 => decide (arg ≤ 1) && val == 0 && failm == 0 && (arg == 0 || time == 0)
  | _ => false

/-- The micro-steps of an operation from its first to its first END, at most 64; none: it reaches no END. -/
def opSteps (steps : List Nat) (pc : Nat) : Nat → Option (List Nat)
  | 0 => none
  | n + 1 =>
    match steps[pc]? with
    | none => none
    | some v => if bitsOf v 0 4 = 0 then some [v] else (opSteps steps (pc + 1) n).map (v :: ·)

/-- The operations of a personality (Table 10.5, R308). -/
def persOpsOk (b : List Byte) (nretry : Nat) (steps : List Nat) : Bool :=
  let run (k : Nat) : Option (List Nat) := opSteps steps (persOp b k) 64
  (List.range 16).all (fun k =>
    zeros b (0x82 + 4 * k) 2 &&
    if persOp b k = 0xFFFF then decide (6 ≤ k) && (nretry == 0 || decide (8 ≤ k))
    else decide (k ≤ 8) &&
      (match run k with
       | none => false
       | some vs =>
         (k == opProgram || k == opProgramSlc || vs.all (fun v => stepKind v != 3)) &&
           (k != opProgram ||
             (vs.filter (fun v => stepKind v == 3 && stepArg v == 0)).length == leAt b 0x12 1)))

/-- The personality a body holds. -/
def persParse (d : List Byte) : Pers :=
  let b := d.drop 64
  { cell := leAt d 9 1, nretry := leAt d 0x0A 1, matchId := leAt b 0 6, idMask := leAt b 8 6, planes := leAt b 0x10 1,
    planeBit := leAt b 0x11 1, pgu := leAt b 0x12 1, adrCyc := leAt b 0x13 1, bpp := leAt b 0x14 4, ppb := leAt b 0x18 2,
    ppbSlc := leAt b 0x1A 2, peLimit := leAt b 0x20 4, peSlc := leAt b 0x24 4, ptMin := signedOf (leAt b 0x28 1) 8,
    ptMax := signedOf (leAt b 0x29 1) 8, lunBit := leAt b 0x2A 1, rate := leAt b 0x40 1,
    ops := (List.range 16).map (persOp b), retry := persRetry b 16, steps := persSteps b (leAt d 0x0C 2) }

/-- Does the current personality of a slot match a LUN that holds mapped data? -/
def persInUse (s : State) (slot : Nat) : Bool :=
  let luns := (usedLuns s).filter (fun l => s.fld (R.NAND_STATUS_PSLOT (lunChannel l)) == slot)
  let held := (validPsas s).map psaLun
  (tblGet none s.media.pers slot).isSome && luns.any (held.contains ·)

/-- The status of a personality image for a slot (R308, R292). -/
def persStatus (s : State) (slot : Nat) (d : List Byte) : Nat :=
  let b := imgBody d 64 (leAt d 0x10 4)
  let steps := persSteps b (leAt d 0x0C 2)
  if !persHeaderOk slot d then scImgFormat
  else if !imgDigestOk d 0x20 b then scImgDigest
  else if !(persGeomOk b && persTimingOk b && (persRetry b 16).all (fun v => bitsOf v 40 24 == 0) &&
      steps.all (microOk (leAt b 0x10 1)) && persOpsOk b (leAt d 0x0A 1) steps) then scImgFormat
  else if persInUse s slot then scInUse
  else scOk

/-- An accepted personality waits for the next start-up. -/
def persLoad (s : State) (slot : Nat) (d : List Byte) : State :=
  let next := tblSet none s.media.next slot (some (persParse d))
  let s1 := { s with media := { s.media with next := next } }
  s1.setFld R.MEDIA_STATUS_PPEND (s1.fld R.MEDIA_STATUS_PPEND ||| 2 ^ slot)

end Sys2Proof.Machine
end

