-- ==== Sys2Proof/Machine/Queues.lean ====
section
/-! DEFINITION. Sys2Proof/Machine/Queues.lean: NVMe controllers and queues (R269, R274 to R276), range locks (R282, R283),
completion (R284 to R286, R298, R524), aborts (R287, R288) and the reset of a controller (R489). -/

namespace Sys2Proof.Machine

/-! ### Controllers and queues -/

/-- Controller 2 exists where the ports are bifurcated (R265, R269). -/
def ctrlExists (s : State) (c : Nat) : Bool := c == 0 || s.flag R.PCIE_STATUS_BIFUR

/-- CSTS.RDY (NVME_CTRL card, R482). -/
def ctrlReady (s : State) (c : Nat) : Bool := (ctrlOf s c).en && blockOn s .nvme

def sqOf (s : State) (c q : Nat) : Option Sq := tblGet none (ctrlOf s c).sqs q
def cqOf (s : State) (c q : Nat) : Option Cq := tblGet none (ctrlOf s c).cqs q
def setSq (s : State) (c q : Nat) (x : Option Sq) : State :=
  let k := ctrlOf s c
  setCtrl s c { k with sqs := tblSet none k.sqs q x }
def setCq (s : State) (c q : Nat) (x : Option Cq) : State :=
  let k := ctrlOf s c
  setCtrl s c { k with cqs := tblSet none k.cqs q x }

/-- The queue a command came through. -/
def queueOf : CmdRef → QueueRef
  | .host c q _ => .host c q
  | .mi => .mi

/-- The controller of a queue; the management endpoint counts as the first. -/
def queueCtrl : QueueRef → Nat
  | .host c _ => c.val
  | .mi => 0

/-- The commands of a queue that a reset has not abandoned, in the order of their arrival. -/
def queueCmds (s : State) (r : QueueRef) : List Cmd := s.nvme.cmds.filter (fun c => queueOf c.src == r && !c.abandoned)

/-- Is a queue being deleted (R288)? -/
def deleting (s : State) (r : QueueRef) : Bool :=
  s.nvme.cmds.any (fun c => c.st == .started && queueCtrl (queueOf c.src) == queueCtrl r &&
    (match c.op, r with | .deleteSq q, .host _ n => q == n | _, _ => false))

/-- A command as it arrives. -/
def newCmd (id : Nat) (src : CmdRef) (op : NvmeOp) : Cmd :=
  { id := id, src := src, op := op, st := .waiting, status := 0, dw0 := 0, data := [], lock := none, waited := false,
    run := none, left := 0, rels := [], sqDel := false, aborted := false, stopped := false, xfer := false, later := false,
    abandoned := false }

/-- The number the next command of a controller takes. -/
def nextId (s : State) (src : CmdRef) : Nat := 2 * s.nvme.nextCmd + queueCtrl (queueOf src)

/-- Enter a command. One whose identifier an outstanding command of its queue has completes with Command ID Conflict. -/
def addCmd (s : State) (src : CmdRef) (op : NvmeOp) : State :=
  let c := newCmd (nextId s src) src op
  let clash := src != .mi && (queueCmds s (queueOf src)).any (fun d => d.src == src)
  let c' := if clash then { c with st := .done, status := scCidConflict } else c
  { s with nvme := { s.nvme with cmds := s.nvme.cmds ++ [c'], nextCmd := s.nvme.nextCmd + 1 } }

/-- Can the controller fetch the next entry of a submission queue: it is ready, the queue exists, is not empty and is not
being deleted? QUIESCING fetches nothing. -/
def canFetch (s : State) (src : CmdRef) : Bool :=
  match src with
  | .mi => true
  | .host c q _ =>
    ctrlReady s c.val && !deleting s (queueOf src) &&
      (match sqOf s c.val q with | some x => x.head != x.tail | none => false)

/-- Take an entry from its queue. -/
def fetchEntry (s : State) (src : CmdRef) : State :=
  match src with
  | .mi => s
  | .host c q _ =>
    match sqOf s c.val q with
    | some x => setSq s c.val q (some { x with head := (x.head + 1) % x.size })
    | none => s

/-- End a command: it waits for its completion entry. -/
def endCmd (s : State) (id st dw0 : Nat) (data : List Byte) : State :=
  updCmd s id (fun c => { c with st := .done, status := st, dw0 := dw0, data := data })

/-- A submission queue tail doorbell (R274); a value beyond the queue is ignored. -/
def sqTail (s : State) (c q tail : Nat) : State :=
  match sqOf s c q with
  | some x => if tail < x.size then setSq s c q (some { x with tail := tail }) else s
  | none => s

/-- A completion queue head doorbell (R274): the entries up to the new head are consumed. -/
def cqHead (s : State) (c q head : Nat) : State :=
  match cqOf s c q with
  | some x =>
    if head < x.size then
      let n := (head + x.size - x.head) % x.size
      if n ≤ x.ents.length then setCq s c q (some { x with head := head, ents := x.ents.drop n }) else s
    else s
  | none => s

/-! ### Range locks (R282, R283) -/

/-- The logical blocks a command tests against the range locks. -/
def opRanges (op : NvmeOp) : Option (Nat × List (Nat × Nat)) :=
  match op with
  | .read nsid slba nlb _ | .verify nsid slba nlb _ | .memoryCopy nsid slba nlb _ _ _ => some (nsid, [(slba, nlb)])
  | .write nsid slba nlb _ _ _ _ => some (nsid, [(slba, nlb)])
  | .dsm nsid rs => some (nsid, rs.map (fun r => (r.slba, r.nlb)))
  | _ => none

/-- Does a command take an entry of the range-lock table when it starts? -/
def opLocks (op : NvmeOp) : Bool :=
  match op with
  | .write .. | .dsm .. => true
  | _ => false

def rangesMeet (a b : List (Nat × Nat)) : Bool := a.any (fun x => b.any (overlaps x))

/-- Does a held entry overlap a command's range? -/
def lockHeld (s : State) (op : NvmeOp) : Bool :=
  match opRanges op with
  | none => false
  | some r => s.nvme.cmds.any (fun d => d.lock.any (fun l => l.1 == r.1 && rangesMeet l.2 r.2))

/-- Are all 4,096 entries held? -/
def locksFull (s : State) : Bool := decide (4096 ≤ s.nvme.cmds.countP (fun c => c.lock.isSome))

def entryWait (s : State) (op : NvmeOp) : Bool := opLocks op && locksFull s

/-- The first command of a queue that has not started. -/
def queueNext (s : State) (r : QueueRef) : Option Cmd := (queueCmds s r).find? (fun c => c.st == .waiting)

/-- Count the commands that wait for a lock or an entry, once each (NVME_RLOCK.WAITS, NVME_ISR.LOCKWAIT). -/
def noteWaits (s : State) : State :=
  let ids := (s.nvme.cmds.filter (fun c => !c.waited && (queueNext s (queueOf c.src)).any (fun d => d.id == c.id) &&
    (lockHeld s c.op || entryWait s c.op))).map Cmd.id
  if ids = [] then s
  else
    let s1 := (s.addWrap R.NVME_RLOCK_WAITS ids.length).raise R.NVME_ISR_LOCKWAIT
    { s1 with nvme := { s1.nvme with cmds := s1.nvme.cmds.map (fun c => if ids.contains c.id then { c with waited := true } else c) } }

/-! ### When a command completes (R276, R284 to R286, R298) -/

/-- Does a released parcel meet the persistence condition (R284, R286): it has persisted, or lies inside the protected
window and neither FUA nor W = 0 asks for more? -/
def relSafe (s : State) (fua : Bool) (rel : Nat) : Bool :=
  (findRel s rel).isNone || (!fua && s.hold.w != 0 && relHeld s rel)

/-- The job of an Execute Program. -/
def cpJobOf (s : State) (id : Nat) : Option CpJob := s.cpJobs.find? (fun j => j.cmd == id)

/-- Do the conditions of a command's own hold (R284, R285, R288, R297)? -/
def cmdReady (s : State) (c : Cmd) : Bool :=
  match c.st with
  | .waiting => false
  | .done => true
  | .started =>
    match c.op with
    | .write _ _ _ _ _ fua _ => c.left == 0 && c.rels.all (relSafe s fua)
    | .flush _ => c.rels.all (fun r => (findRel s r).isNone)
    | .execute .. => (cpJobOf s c.id).any (fun j => j.ended && !refBusy (s.tile j.tile) ⟨true, 0, 0, c.id⟩)
    | .deleteSq q =>
      (match c.src with
       | .host k _ _ => (queueCmds s (.host k q)).isEmpty
       | .mi => true)
    | _ => false

/-- The command of a queue that completes next: the first in submission order. An Asynchronous Event Request that waits for
an event stands aside. -/
def queueFront (s : State) (r : QueueRef) : Option Cmd :=
  (queueCmds s r).find? (fun c => !(c.op == .asyncEvent && c.st == .started))

/-- The status of a Write (R524). -/
def writeStatus (c : Cmd) : Nat :=
  if c.sqDel then scAbortSqDel
  else if c.aborted then scAbortRequested
  else if c.stopped then scInternal
  else if c.xfer then scDataTransfer
  else if c.later then scSequence
  else c.status

/-- The status of a job's ending (Table 9.11). -/
def cpStatus (cause : Nat) : Nat :=
  if cause = 0 then scOk
  else if cause = causeException then scCpException
  else if cause = causeTimeout then scCpTime
  else scCpFailed

/-- The status and DW0 of the entry. -/
def cmdResult (s : State) (c : Cmd) : Nat × Nat :=
  match c.st, c.op with
  | .started, .write .. => (writeStatus c, 0)
  | .started, .execute .. => (match cpJobOf s c.id with | some j => (cpStatus j.cause, j.dw) | none => (scInternal, 0))
  | _, _ => (c.status, c.dw0)

/-- Is there room in a completion queue? -/
def cqRoom (x : Cq) : Bool := (x.tail + 1) % x.size != x.head

/-- Post an entry; none: there is no room. The phase bit turns when the queue wraps. -/
def postEntry (s : State) (c : Cmd) (st dw0 : Nat) : Option State :=
  match c.src with
  | .mi => some { s with nvme := { s.nvme with mi := { s.nvme.mi with reply := some (st, dw0, c.data) } } }
  | .host k q cid =>
    match sqOf s k.val q with
    | none => some s
    | some sq =>
      match cqOf s k.val sq.cq with
      | none => some s
      | some x =>
        if cqRoom x then
          let e : Cqe := { sq := q, cid := cid.toNat, status := st, dw0 := dw0, sqHead := sq.head, phase := x.phase, data := c.data }
          let tail := (x.tail + 1) % x.size
          some (setCq s k.val sq.cq
            (some { x with tail := tail, phase := if tail = 0 then 1 - x.phase else x.phase, ents := x.ents ++ [e] }))
        else none

/-- What leaves the subsystem with a completed command: its range lock, its job, the queue it deletes. -/
def retireCmd (s : State) (c : Cmd) (st : Nat) : State :=
  let s1 := { s with
    nvme := { s.nvme with
      cmds := s.nvme.cmds.filter (fun d => d.id != c.id),
      errors := if st = scOk then s.nvme.errors else (st :: s.nvme.errors).take 64 },
    cpJobs := s.cpJobs.filter (fun j => j.cmd != c.id) }
  let s2 := if st = scDataTransfer then s1.raise R.NVME_ISR_DXFER else s1
  match c.st, c.op, c.src with
  | .started, .deleteSq q, .host k _ _ => setSq s2 k.val q none
  | _, _, _ => s2

/-- COMMAND_COMPLETE: the next completion entry of a queue is posted. -/
def commandComplete (s : State) (r : QueueRef) : State :=
  match queueFront s r with
  | none => s
  | some c =>
    if cmdReady s c then
      let x := cmdResult s c
      match postEntry s c x.1 x.2 with
      | some s1 => noteWaits (retireCmd s1 c x.1)
      | none => s
    else s

/-! ### Aborts (R287, R288) -/

/-- A run of a Write as numbers that will never be cut (Table 9.7). -/
def dropUncut (s : State) (id : Nat) : State :=
  clearBlocked { s with flows := { s.flows with
    runs := s.flows.runs.filter (fun r => r.cmd != id),
    voids := s.flows.voids ++ s.flows.runs.filter (fun r => r.cmd == id) } }

/-- Parcel Read marks every parcel of an aborted Write's run with INDET, those already released among them. -/
def markIndet (s : State) (c : Cmd) : State :=
  match c.run with
  | none => s
  | some r =>
    { s with ftl := { s.ftl with
        indets := s.ftl.indets ++ [r],
        rels := s.ftl.rels.map (fun x => if x.cmd = some c.id then { x with indet := true } else x) } }

/-- A device self-test ends with a result code of log page 0x06. -/
def endSelfTest (s : State) (code : Nat) : State :=
  match s.nvme.selfTest.run with
  | none => s
  | some k => { s with nvme := { s.nvme with selfTest := { s.nvme.selfTest with run := none, last := some (k, code) } } }

/-- Is a command an admin command: it came through queue 0 or the management endpoint? -/
def isAdmin (c : Cmd) : Bool :=
  match c.src with
  | .host _ q _ => q == 0
  | .mi => true

/-- Abort a command at the abort point (Table 9.7): whether it is aborted. `byDel`: its queue is deleted (R288). -/
def abortCmd (s : State) (c : Cmd) (byDel : Bool) : Bool × State :=
  let sc := if byDel then scAbortSqDel else scAbortRequested
  let test : Bool := match c.op with | .selfTest .. => true | _ => false
  if isAdmin c && !test then (false, s)
  else
    match c.st, c.op with
    | .waiting, _ => (true, endCmd s c.id sc 0 [])
    | .started, .write .. =>
      (true, dropUncut (markIndet (updCmd s c.id (fun d =>
        if byDel then { d with sqDel := true } else { d with aborted := true })) c) c.id)
    | _, .read .. | _, .verify .. | _, .parcelRead .. => (true, endCmd s c.id sc 0 [])
    | _, .selfTest .. => (true, endCmd (endSelfTest s 1) c.id sc 0 [])
    | _, _ => (false, s)

/-- Count an abort's outcome (NVME_ABCNT, NVME_ISR.ABORT). -/
def countAbort (s : State) (aborted : Bool) : State :=
  (s.addWrap (if aborted then R.NVME_ABCNT_DONE else R.NVME_ABCNT_MISSED) 1).raise R.NVME_ISR_ABORT

/-- The abort point of an Abort that names a queue and a command identifier: DW0 is 0 where the target is aborted. -/
def abortPoint (s : State) (c : Cmd) (sqid cid : Nat) : State :=
  let hit (d : Cmd) : Bool := !d.abandoned && d.id != c.id && queueCtrl (queueOf d.src) == queueCtrl (queueOf c.src) &&
    (match d.src with | .host _ q n => q == sqid && n.toNat == cid | .mi => false)
  let r := match s.nvme.cmds.find? hit with
    | none => (false, s)
    | some d => abortCmd s d false
  endCmd (countAbort r.2 r.1) c.id scOk (b2n !r.1) []

/-- Delete I/O Submission Queue aborts each command of the queue. -/
def abortQueue (s : State) (r : QueueRef) : State :=
  (queueCmds s r).foldl (fun acc c => (abortCmd acc c true).2) s

/-! ### Controller resets (R488, R489) -/

/-- What abandoning a controller's commands makes of one: it is gone, or, as a started Write, it goes on as an aborted one
until its parcels have retired. -/
def abandonOne (s : State) (c : Cmd) : State :=
  match c.st, c.op with
  | .started, .write .. =>
    dropUncut (markIndet (updCmd s c.id (fun d => { d with aborted := true, abandoned := true })) c) c.id
  | _, _ => { s with nvme := { s.nvme with cmds := s.nvme.cmds.filter (fun d => d.id != c.id) } }

/-- Does a command belong to a controller? -/
def ofCtrl (c : Nat) (d : Cmd) : Bool :=
  match d.src with
  | .host k _ _ => k.val == c
  | .mi => false

/-- The reset of a controller: its queues are deleted and its commands abandoned without completion; a device self-test
ends (R290). -/
def resetCtrl (s : State) (c : Nat) : State :=
  let s1 := (s.nvme.cmds.filter (fun d => ofCtrl c d && !d.abandoned)).foldl abandonOne s
  let s2 := noteWaits (setCtrl (dropAbandoned (endSelfTest s1 2)) c Ctrl.reset)
  { s2 with nvme := { s2.nvme with walkFails := s2.nvme.walkFails.filter (fun q => queueCtrl (queueOf q) != c || q == .mi) } }

/-- An admin queue of a size. -/
def adminSq (n : Nat) : Sq := { size := n, head := 0, tail := 0, cq := 0, prio := 0 }
def newCq (n vector : Nat) (ien : Bool) : Cq :=
  { size := n, head := 0, tail := 0, phase := 1, vector := vector, ien := ien, ents := [] }

/-- CC.EN written 1 with the sizes of the admin queues, 0's based (R271: up to 0xFFF). -/
def ctrlEnable (s : State) (c asqs acqs : Nat) : State :=
  if ctrlExists s c ∧ !(ctrlOf s c).en ∧ asqs ≤ 0xFFF ∧ acqs ≤ 0xFFF ∧ asqs ≠ 0 ∧ acqs ≠ 0 then
    setCtrl s c { Ctrl.reset with en := true, sqs := [(0, some (adminSq (asqs + 1)))], cqs := [(0, some (newCq (acqs + 1) 0 true))] }
  else s

/-- CC.EN written 0. -/
def ctrlDisable (s : State) (c : Nat) : State := if (ctrlOf s c).en then resetCtrl s c else s

/-- CC.SHN (R489): 1 or 2 starts a shutdown. -/
def shutdownStart (s : State) (c shn : Nat) : State :=
  let k := ctrlOf s c
  if k.en ∧ (shn = 1 ∨ shn = 2) then setCtrl s c { k with shn := shn, shst := 1 } else s

/-- Is every Write completed on a controller on the medium together with its map (R285, R489)? -/
def writesSafe (s : State) (c : Nat) : Bool :=
  !s.ftl.rels.any (fun r => match r.cmd with | some id => id % 2 == c && (findCmd s id).isNone | none => false)

/-- CSTS.SHST becomes 2. -/
def shutdownEnd (s : State) (c : Nat) : State :=
  let k := ctrlOf s c
  if k.shst = 1 ∧ writesSafe s c then setCtrl s c { k with shst := 2 } else s

end Sys2Proof.Machine
end

