-- ==== Sys2Proof/Machine/NvmeIo.lean ====
section
/-! DEFINITION. Sys2Proof/Machine/NvmeIo.lean: I/O commands, computational programs and Subsystem Local Memory at the moment
they start (R63, R64, R83, R278 to R286, R295 to R299). -/

namespace Sys2Proof.Machine

/-! ### What every I/O command meets first -/

/-- Are writes held off (R281)? -/
def heldOff (s : State) : Bool := s.flag R.NVME_STATUS_WHOLD

/-- Does a range of logical blocks end beyond the namespace? -/
def beyond (n : Ns) (slba nlb : Nat) : Bool := decide (n.nsze < slba + nlb)

/-- The status that stops an I/O command on a namespace, if any: an unknown or detached namespace, a sanitize, map replay
(R482), an unavailable namespace (R484), a range beyond its end. -/
def ioFault (s : State) (nsid : Nat) (ranges : List (Nat × Nat)) : Option Nat :=
  match nsOf s nsid with
  | none => some scInvalidNs
  | some n =>
    if !n.attached then some scInvalidNs
    else if s.nvme.sanitize.isSome then some scSanitize
    else if !s.ftl.ready then some scNsNotReady
    else if (slotKey s nsid).isNone then some scUnavailable
    else if ranges.any (fun r => beyond n r.1 r.2) then some scLbaRange
    else none

/-- The first logical sector and the sectors of a range of logical blocks. -/
def lbaSectors (s : State) (nsid slba nlb : Nat) : Nat × Nat :=
  match nsOf s nsid with
  | some n => (slba * nsSpb n, nlb * nsSpb n)
  | none => (slba, nlb)

/-- Does a parcel released or a deallocate still wait for the map over a range (R316, R317)? -/
def mapWaits (s : State) (nsid lsec n : Nat) : Bool :=
  s.ftl.queue.any (fun q => match q with
    | .parcel r => (match findRel s r with
      | some x => x.nsid == nsid && decide (lsec < x.lsec + x.nsec) && decide (x.lsec < lsec + n)
      | none => false)
    | .dealloc k l m => k == nsid && decide (lsec < l + m) && decide (l < lsec + n))

/-! ### Write (R63, R64, R83, R278) -/

/-- The bytes of a Write. -/
def writeBytes (s : State) (nsid nlb : Nat) : Nat := 4096 * (lbaSectors s nsid 0 nlb).2

/-- The bound flow of a host write (R63). -/
def hostFlow (s : State) (nsid dspec : Nat) : Option Nat :=
  (boundFlows s).find? (fun f => ctxGet s f cxHBOUND == 1 && ctxGet s f cxNSID == nsid && ctxGet s f cxDSPEC == dspec)

/-- The status that stops a Write before its flow is sought. -/
def writeFault (s : State) (nsid slba nlb dtype : Nat) (ptr : DataPtr) : Option Nat :=
  match ioFault s nsid [(slba, nlb)] with
  | some st => some st
  | none =>
    if 1 < dtype ∨ (dtype = 1 ∧ !(nsOf s nsid).any Ns.streams) then some scInvalidField
    else
      match ptr with
      | .bad st => some st
      | .sgl len =>
        if len < writeBytes s nsid nlb then some scSglLength
        else if heldOff s then some scHeldOff else if s.nvme.rdonly then some scWriteProtected else none
      | .prp => if heldOff s then some scHeldOff else if s.nvme.rdonly then some scWriteProtected else none

/-- What a Write meets: a status, or the flow that accepts it. A write that matches no bound flow, or a draining one, is
refused (R63); one of a stopped flow completes with Command Sequence Error (Table 2.5). -/
inductive WriteFate where
  | fails (st : Nat)
  | unbound
  | accepted (flow : Nat)

def writeFate (s : State) (xfer : Bool) (nsid slba nlb dtype dspec : Nat) (ptr : DataPtr) : WriteFate :=
  if xfer then .fails scDataTransfer
  else
    match writeFault s nsid slba nlb dtype ptr with
    | some st => .fails st
    | none =>
      match hostFlow s nsid (if dtype = 1 then dspec else 0) with
      | none => .unbound
      | some f => if ctxDraining s f then .unbound else if ctxStopped s f then .fails scSequence else .accepted f

/-- Reserve the run of an accepted Write (R64) with its range lock. A mark of an earlier aborted run at the same numbers
ends. -/
def reserveRun (s : State) (c : Cmd) (f nsid slba nlb : Nat) : State :=
  let bytes := writeBytes s nsid nlb
  let n := (bytes + ctxParcelSize s f - 1) / ctxParcelSize s f
  let first := ctxGet s f cxNEXT
  let s1 := updCmd (ctxSet s f cxNEXT (first + n)) c.id (fun d => { d with
    lock := some (nsid, [(slba, nlb)]), run := some (f, first, n), left := n })
  let stale (r : Nat × Nat × Nat) : Bool := r.1 == f && (decide ((2 ^ 32 + first - r.2.1) % 2 ^ 32 < r.2.2) ||
    decide ((2 ^ 32 + r.2.1 - first) % 2 ^ 32 < n))
  { s1 with
    flows := { s1.flows with
      runs := s1.flows.runs ++ [{ flow := f, next := first, left := n, cmd := c.id, part := 0, bytes := bytes }] },
    ftl := { s1.ftl with indets := s1.ftl.indets.filter (fun r => !stale r) } }

/-- A Write starts. -/
def startWrite (s : State) (c : Cmd) (nsid slba nlb dtype dspec : Nat) (ptr : DataPtr) : State :=
  match writeFate s c.xfer nsid slba nlb dtype dspec ptr with
  | .fails st => endCmd s c.id st 0 []
  | .unbound => endCmd (s.addWrap R.DISP_UNBOUND_COUNT 1) c.id scInvalidField 0 []
  | .accepted f => reserveRun s c f nsid slba nlb

/-! ### Read, Verify and Parcel Read (R279, R280, R313, R320) -/

/-- The bytes of a logical sector, or the status that stops a read of it. `bad`: the physical sectors not recovered. -/
def readSec (s : State) (bad : List Nat) (nsid lsec : Nat) : Nat × List Byte :=
  match sectorBlock s nsid lsec with
  | none => (scDeallocated, [])
  | some l =>
    if l.psas.any (bad.contains ·) then (scUnrecovered, [])
    else
      match decodeSector l.block with
      | some bs => (scOk, bs)
      | none => (scUnrecovered, [])

/-- A run of logical sectors: the first status that is not success, or the bytes. -/
def readSecs (s : State) (bad : List Nat) (nsid lsec : Nat) : Nat → Nat × List Byte
  | 0 => (scOk, [])
  | n + 1 =>
    let x := readSec s bad nsid lsec
    if x.1 = scOk then
      let y := readSecs s bad nsid (lsec + 1) n
      (y.1, if y.1 = scOk then x.2 ++ y.2 else [])
    else (x.1, [])

/-- The outcome of reading a range of logical blocks. -/
def readRange (s : State) (bad : List Nat) (nsid slba nlb : Nat) : Nat × List Byte :=
  match ioFault s nsid [(slba, nlb)] with
  | some st => (st, [])
  | none => readSecs s bad nsid (lbaSectors s nsid slba nlb).1 (lbaSectors s nsid slba nlb).2

def startHostRead (s : State) (c : Cmd) (nsid slba nlb : Nat) (bad : List Nat) : State :=
  let x := readRange s bad nsid slba nlb
  endCmd s c.id x.1 0 x.2

def startVerify (s : State) (c : Cmd) (nsid slba nlb : Nat) (bad : List Nat) : State :=
  endCmd s c.id (readRange s bad nsid slba nlb).1 0 []

/-- A parcel as Parcel Read finds it: flow, number, STATE, first sector, length, entries and its side bytes (index entries
and trailer). -/
structure FoundParcel where
  flow : Nat
  seq : Nat
  state : Nat
  lsec : Nat
  plen : Nat
  nent : Nat
  side : List Byte
  deriving DecidableEq, Repr

def foundRel (r : Rel) : FoundParcel :=
  ⟨r.flow, r.seq, b2n r.raw + 2 * b2n r.indet, r.lsec, r.plen, r.nent, r.side⟩

/-- A side record in the array (R321). -/
def foundSide (s : State) (a k : Nat) : FoundParcel :=
  let h := extRead s a k
  ⟨leAt h 4 4, leAt h 8 4, leAt h 0x0C 4, (match readSector s a with | some x => x.lsec | none => 0), leAt h 0x18 4, leAt h 0x24 4,
    (h.drop 64).take (16 * leAt h 0x24 4 + 64)⟩

def holdsSec (p : FoundParcel) (lsec : Nat) : Bool := decide (p.lsec ≤ lsec) && decide (lsec < p.lsec + (p.plen + 4095) / 4096)

/-- The parcel that holds a sector: the newest released one, or the newest in the chain of the sector's unit and then of the
unit before (R321). -/
def parcelOf (s : State) (nsid lsec : Nat) : Option FoundParcel :=
  let chain (u : Nat) : List FoundParcel := (sideChain s (mapOf s nsid u).side 1024).map (fun e => foundSide s e.1 e.2)
  let cands := ((s.ftl.rels.filter (fun r => r.nsid == nsid)).reverse.map foundRel) ++ chain (lsec / 256) ++
    (if lsec / 256 = 0 then [] else chain (lsec / 256 - 1))
  cands.find? (fun p => holdsSec p lsec)

/-- The stored output of a parcel: status, full length, record (Table 9.6). -/
def parcelRecord (s : State) (bad : List Nat) (nsid : Nat) (p : FoundParcel) : Nat × List Byte :=
  let ls := (List.range ((p.plen + 4095) / 4096)).filterMap (fun k => sectorBlock s nsid (p.lsec + k))
  let blocks := ls.map Located.block
  let eb := blocks.flatten
  let marked := s.ftl.indets.any (fun r => r.1 == p.flow && decide ((2 ^ 32 + p.seq - r.2.1) % 2 ^ 32 < r.2.2))
  let state := if marked && !bitOf p.state 1 then p.state + 2 else p.state
  if ls.any (fun l => l.psas.any (bad.contains ·)) then (scUnrecovered, [])
  else
    (scOk, leBytes 4 0x4C435250 ++ leBytes 4 p.flow ++ leBytes 4 p.seq ++ leBytes 4 state ++
      leBytes 8 (slbaOf s nsid p.lsec) ++ leBytes 4 p.plen ++ leBytes 4 eb.length ++ leBytes 4 blocks.length ++
      leBytes 4 p.nent ++ List.replicate 24 0 ++ eb ++ p.side)

def startParcelRead (s : State) (c : Cmd) (nsid slba cdw12 : Nat) (bad : List Nat) : State :=
  if cdw12 / 0x10000 ≠ 0 then endCmd s c.id scInvalidField 0 []
  else
    match ioFault s nsid [(slba, 1)] with
    | some st => endCmd s c.id st 0 []
    | none =>
      let lsec := (lbaSectors s nsid slba 1).1
      if (sectorBlock s nsid lsec).isNone then endCmd s c.id scDeallocated 0 []
      else
        match parcelOf s nsid lsec with
        | none => endCmd s c.id scDeallocated 0 []
        | some p =>
          let x := parcelRecord s bad nsid p
          endCmd s c.id x.1 x.2.length (x.2.take (4096 * (cdw12 % 0x10000 + 1)))

/-! ### Flush and Dataset Management (R281, R282, R285) -/

/-- The released parcels that a Flush waits for: those of Writes to its namespace that completed before it. -/
def flushSet (s : State) (nsid : Nat) : List Nat :=
  (s.ftl.rels.filter (fun r => (nsid == 0xFFFFFFFF || r.nsid == nsid) &&
    (match r.cmd with | some id => (findCmd s id).isNone | none => false))).map Rel.rel

def startFlush (s : State) (c : Cmd) (nsid : Nat) : State :=
  let fault := if nsid = 0xFFFFFFFF then
      (if s.nvme.sanitize.isSome then some scSanitize else if !s.ftl.ready then some scNsNotReady else none)
    else ioFault s nsid []
  match fault with
  | some st => endCmd s c.id st 0 []
  | none =>
    if heldOff s then endCmd s c.id scHeldOff 0 []
    else updCmd s c.id (fun d => { d with rels := flushSet s nsid })

/-- Deallocate: each range takes its place in release order (R317); the range lock stays until completion. -/
def startDsm (s : State) (c : Cmd) (nsid : Nat) (rs : List LbaRange) : State :=
  let ranges := rs.map (fun r => (r.slba, r.nlb))
  if c.xfer then endCmd s c.id scDataTransfer 0 []
  else
    match ioFault s nsid ranges with
    | some st => endCmd s c.id st 0 []
    | none =>
      if heldOff s then endCmd s c.id scHeldOff 0 []
      else
        let s1 := updCmd s c.id (fun d => { d with lock := some (nsid, ranges) })
        let s2 := rs.foldl (fun acc r =>
          let x := lbaSectors acc nsid r.slba r.nlb
          enqueueMap acc (.dealloc nsid x.1 x.2)) s1
        endCmd s2 c.id scOk 0 []

/-! ### Subsystem Local Memory (R295, R299) -/

/-- The region of an SLM namespace of a controller: its address and length. -/
def slmRegion (s : State) (ctrl slm : Nat) : Option (Nat × Nat) :=
  if slm < 16 then tblGet none s.nvme.slms (16 * ctrl + slm) else none

/-- The address of a range of an SLM namespace; none: an invalid SLM range. -/
def slmAddr (s : State) (ctrl slm off len : Nat) : Option Nat :=
  match slmRegion s ctrl slm with
  | some r => if off + len ≤ r.2 then some (r.1 + off) else none
  | none => none

def startSlmRead (s : State) (c : Cmd) (slm off len : Nat) : State :=
  match slmAddr s (queueCtrl (queueOf c.src)) slm off len with
  | none => endCmd s c.id Config.scBadSlm 0 []
  | some a =>
    match readRam s a len with
    | (bs, s1, none) => endCmd s1 c.id scOk 0 bs
    | (_, s1, some _) => endCmd s1 c.id scInternal 0 []

def startSlmWrite (s : State) (c : Cmd) (slm off : Nat) (bs : List Byte) : State :=
  let k := queueCtrl (queueOf c.src)
  if c.xfer then endCmd s c.id scDataTransfer 0 []
  else
    match slmAddr s k slm off bs.length with
    | none => endCmd s c.id Config.scBadSlm 0 []
    | some a => endCmd (writeMem s a bs none (tagHost k)) c.id scOk 0 []

/-- Memory Copy (R299): decoded images into an SLM namespace, written by the device. -/
def startMemoryCopy (s : State) (c : Cmd) (nsid slba nlb slm off : Nat) (bad : List Nat) : State :=
  let x := readRange s bad nsid slba nlb
  if x.1 ≠ scOk then endCmd s c.id x.1 0 []
  else
    match slmAddr s (queueCtrl (queueOf c.src)) slm off x.2.length with
    | none => endCmd s c.id Config.scBadSlm 0 []
    | some a => endCmd (writeMem s a x.2 none tagLocal) c.id scOk 0 []

/-! ### Computational programs (R295 to R298) -/

/-- The computational program of an index: a slot that holds KIND 1. -/
def cpProgram (s : State) (pind : Nat) : Option ProgSlot :=
  match tblGet none s.loaded.progs pind with
  | some p => if p.kind = 1 then some p else none
  | none => none

def startActivate (s : State) (c : Cmd) (pind : Nat) (act : Bool) : State :=
  match cpProgram s pind with
  | none => endCmd s c.id Config.scNoProgram 0 []
  | some p =>
    endCmd { s with loaded := { s.loaded with progs := tblSet none s.loaded.progs pind (some { p with active := act }) } }
      c.id scOk 0 []

/-- The number of a memory range set, by controller. -/
def setKey (ctrl rsid : Nat) : Nat := 0x10000 * ctrl + rsid % 0x10000
def setOf (s : State) (ctrl rsid : Nat) : Option RangeSet := s.nvme.sets.find? (fun x => x.rsid == setKey ctrl rsid)

def startRangeSet (s : State) (c : Cmd) (m : SetMgmt) : State :=
  let k := queueCtrl (queueOf c.src)
  let drop (rsid : Nat) : List RangeSet := s.nvme.sets.filter (fun x => x.rsid != setKey k rsid)
  match m with
  | .create rsid rs =>
    if c.xfer then endCmd s c.id scDataTransfer 0 []
    else if rs.all (fun r => (slmAddr s k r.slm r.off r.len).isSome) then
      endCmd { s with nvme := { s.nvme with sets := drop rsid ++ [⟨setKey k rsid, rs.map (fun r => (r.slm, r.off, r.len))⟩] } }
        c.id scOk 0 []
    else endCmd s c.id Config.scBadSlm 0 []
  | .delete rsid =>
    if (setOf s k rsid).isSome then endCmd { s with nvme := { s.nvme with sets := drop rsid } } c.id scOk 0 []
    else endCmd s c.id Config.scBadSet 0 []

/-- The tile that an Execute Program may start on: permitted by NVME_CPMASK, free to choose, with no parcel in its deque
(R28). -/
def cpTile (s : State) : Option Nat :=
  (List.range 32).find? (fun t => (s.fld R.NVME_CPMASK_MASK).testBit t && tileReady s t && (dequeOf s t).isEmpty && !tileOwesRaw s t)

/-- What an Execute Program needs: its program, the region of its memory range set and its ranges. -/
structure CpPlan where
  slot : ProgSlot
  region : Nat
  ranges : List (Nat × Nat)
  deriving DecidableEq, Repr

/-- Plan an Execute Program, or the status that refuses it (R295, R296). -/
def cpPlan (s : State) (ctrl pind rsid p2 : Nat) : Except Nat CpPlan :=
  match cpProgram s pind, setOf s ctrl rsid with
  | none, _ => .error scInvalidField
  | some _, none => .error Config.scBadSet
  | some p, some x =>
    match x.ranges with
    | [] => .error scInvalidField
    | r :: rs =>
      match slmRegion s ctrl r.1 with
      | none => .error scInvalidField
      | some g =>
        if !p.active || rs.any (fun y => y.1 != r.1) || p2 / 2 ^ 24 != 0 ||
            !namesLoaded s (bitsOf p2 0 8) (bitsOf p2 8 8) (bitsOf p2 16 8) then .error scInvalidField
        else .ok ⟨p, g.1, (r :: rs).map (fun y => (g.1 + y.2.1, y.2.2))⟩

/-- Start the job of an Execute Program on a tile (R296, R297): TILE_APB, the argument words, the output range. -/
def cpStart (s : State) (c : Cmd) (p : CpPlan) (t pind p0 p1 p2 : Nat) : State :=
  let out := p.ranges.getD 1 (0, 0)
  let a0 := 0x40000000 + ((p.ranges.getD 0 (0, 0)).1 - 2 ^ 30 * (p.region / 2 ^ 30))
  let j : Job :=
    { ref := ⟨true, 0, 0, c.id⟩, slot := pind, idxProf := bitsOf p2 16 8, hasIdx := true, noVec := p.slot.vec == 0xFFFFFFFF }
  let cp : CpJob :=
    { cmd := c.id, tile := t, outBase := out.1, outLen := out.2, ebytes := 0, nent := 0, cause := 0, dw := 0, ended := false }
  let live := s.cpJobs.filter (fun x => (findCmd s x.cmd).isSome || !x.ended)
  let s1 := { s.setFld (R.TILE_APB_APB t) (p.region / 2 ^ 30) with cpJobs := live ++ [cp] }
  startJob s1 t j p.slot (some (bitsOf p2 0 8)) (bitsOf p2 8 8) 0 0 a0 p0 p1

/-- Execute Program: what refuses it, or its job on the tile chosen. -/
def startExecute (s : State) (c : Cmd) (pind rsid p0 p1 p2 : Nat) : State :=
  match cpPlan s (queueCtrl (queueOf c.src)) pind rsid p2 with
  | .error st => endCmd s c.id st 0 []
  | .ok p =>
    match cpTile s with
    | none => s
    | some t => cpStart s c p t pind p0 p1 p2

/-- CP_TIME_LIMIT_EXPIRY (R298): the job of a computational program still running after NVME_CPLIM is stopped by a tile
reset. -/
def cpTimeLimit (s : State) (t : Nat) : State :=
  match (s.tile t).job with
  | some j => if j.ref.cp then tileReset (s.raise R.NVME_ISR_CPTIME) t causeTimeout else s
  | none => s

end Sys2Proof.Machine
end

