-- ==== Sys2Proof/Machine/NvmeAdmin.lean ====
section
/-! DEFINITION. Sys2Proof/Machine/NvmeAdmin.lean: admin commands at the moment they start: queues (R274, R288), Identify and
log pages (R271, R273, R293), features and power states (R273, R512), namespaces (R270, R295), firmware (R450, R485),
self-test (R289, R290), directives (R278), format and sanitize (R270, R425). Where NVMe Base 2.0c and not the manual lays
data out, the layout is PRESUMED. -/

namespace Sys2Proof.Machine

/-- The controller of a command. -/
def ctrlNum (c : Cmd) : Nat := queueCtrl (queueOf c.src)

/-! ### Queues (R274, Table 9.12) -/

def queueIdBad (q : Nat) : Bool := q == 0 || decide (1024 < q)
def queueSizeBad (n : Nat) : Bool := decide (n < 2) || decide (65536 < n)

/-- Create I/O Submission Queue. -/
def startCreateSq (s : State) (c : Cmd) (qid size cqid prio : Nat) : State :=
  let k := ctrlNum c
  if cqid = 0 ∨ (cqOf s k cqid).isNone then endCmd s c.id scCqInvalid 0 []
  else if queueIdBad qid ∨ (sqOf s k qid).isSome then endCmd s c.id scQidInvalid 0 []
  else if queueSizeBad size then endCmd s c.id scQSize 0 []
  else endCmd (setSq s k qid (some { size := size, head := 0, tail := 0, cq := cqid, prio := prio })) c.id scOk 0 []

/-- Create I/O Completion Queue. -/
def startCreateCq (s : State) (c : Cmd) (qid size vector : Nat) (ien : Bool) : State :=
  let k := ctrlNum c
  if queueIdBad qid ∨ (cqOf s k qid).isSome then endCmd s c.id scQidInvalid 0 []
  else if queueSizeBad size then endCmd s c.id scQSize 0 []
  else if 1024 < vector then endCmd s c.id scVector 0 []
  else endCmd (setCq s k qid (some (newCq size vector ien))) c.id scOk 0 []

/-- Delete I/O Submission Queue: every command of the queue is aborted; the command completes with the last of them. -/
def startDeleteSq (s : State) (c : Cmd) (qid : Nat) : State :=
  match c.src with
  | .mi => endCmd s c.id scInvalidOpcode 0 []
  | .host k _ _ =>
    if queueIdBad qid ∨ (sqOf s k.val qid).isNone then endCmd s c.id scQidInvalid 0 [] else abortQueue s (.host k qid)

/-- Delete I/O Completion Queue. -/
def startDeleteCq (s : State) (c : Cmd) (qid : Nat) : State :=
  let k := ctrlNum c
  if queueIdBad qid ∨ (cqOf s k qid).isNone then endCmd s c.id scQidInvalid 0 []
  else if (ctrlOf s k).sqs.any (fun e => e.2.any (fun q => q.cq == qid)) then endCmd s c.id scQDeletion 0 []
  else endCmd (setCq s k qid none) c.id scOk 0 []

/-! ### Pages of data -/

/-- A page of `n` bytes that states some fields (offset, bytes); the rest is open. -/
def pageOf (fields : List (Nat × List Byte)) (n : Nat) : PageBytes :=
  (List.range n).map (fun i => fields.findSome? (fun f => if f.1 ≤ i then f.2[i - f.1]? else none))

/-- A command returns a page, its open bytes free. -/
def returnPage (s : State) (c : Cmd) (dw0 : Nat) (p : PageBytes) : State :=
  let x := fillPage s p
  endCmd x.2 c.id scOk dw0 x.1

/-! ### Identify (R271, Table 9.3) -/

/-- The power-state descriptor of a state (Table 18.13): MP in 10 mW, ENLAT and EXLAT in µs. -/
def psDescriptor (mp enlat exlat : Nat) : List Byte := leBytes 2 mp ++ leBytes 2 0 ++ leBytes 4 enlat ++ leBytes 4 exlat

/-- The fields of Identify Controller that the manual gives: MDTS, CNTLID, VER, CRDT1 (R281), ACL, AERL, FRMW, ELPE
(Table 9.5), NPSS, EDSTT, SQES, CQES, NN, VWC and the power states. -/
def identifyCtrl (ctrl : Nat) : PageBytes :=
  pageOf [(77, leBytes 1 0), (78, leBytes 2 (ctrl + 1)), (80, leBytes 4 0x00020000), (128, leBytes 2 100), (258, leBytes 1 7),
    (259, leBytes 1 7), (260, leBytes 1 4), (262, leBytes 1 63), (263, leBytes 1 2), (316, leBytes 2 30), (512, leBytes 1 0x66),
    (513, leBytes 1 0x44), (516, leBytes 4 256), (525, leBytes 1 0), (2048, psDescriptor 14000 0 0),
    (2080, psDescriptor 7500 1000 1000), (2112, psDescriptor 3000 10000 5000)] 4096

/-- The formats of a namespace (R270): two, of 4,096 and 16,384 bytes, without metadata or protection information. -/
def identifyFormats : List (Nat × List Byte) :=
  [(25, leBytes 1 1), (27, leBytes 1 0), (28, leBytes 1 0), (29, leBytes 1 0), (128, leBytes 2 0 ++ leBytes 1 12),
   (132, leBytes 2 0 ++ leBytes 1 14)]

def identifyNs (n : Ns) : PageBytes :=
  pageOf ([(0, leBytes 8 n.nsze), (8, leBytes 8 n.nsze), (26, leBytes 1 n.lbaf)] ++ identifyFormats) 4096

/-- The namespaces with numbers above one, ascending, attached or all. -/
def nsList (s : State) (above : Nat) (all : Bool) : List Nat :=
  (List.range 257).filter (fun n => decide (above < n) && (match nsOf s n with | some x => all || x.attached | none => false))

/-- A namespace list: 4 bytes each, the rest 0. -/
def nsListPage (ns : List Nat) : PageBytes := stated ((ns.flatMap (leBytes 4) ++ List.replicate 4096 0).take 4096)

/-- Identify: CNS 0 and 0x11 a namespace, 1 the controller, 2 and 0x10 namespace lists. The manual gives no other data
structure any field. -/
def startIdentify (s : State) (c : Cmd) (cns nsid : Nat) : State :=
  match cns with
  | 0 | 0x11 =>
    if nsid = 0xFFFFFFFF then returnPage s c 0 (pageOf identifyFormats 4096)
    else
      match nsOf s nsid with
      | some n => returnPage s c 0 (identifyNs n)
      | none => endCmd s c.id scInvalidNs 0 []
  | 1 => returnPage s c 0 (identifyCtrl (ctrlNum c))
  | 2 => returnPage s c 0 (nsListPage (nsList s nsid false))
  | 0x10 => returnPage s c 0 (nsListPage (nsList s nsid true))
  | _ => returnPage s c 0 (unstated 4096)

/-! ### Log pages (R273, R293) -/

/-- The admin and I/O opcodes that the device supports (Tables 9.4 and 9.9), for log page 0x05. -/
def adminOpcodes : List Nat :=
  [0x00, 0x01, 0x02, 0x04, 0x05, 0x06, 0x08, 0x09, 0x0A, 0x0C, 0x0D, 0x10, 0x11, 0x14, 0x15, 0x19, 0x1A, 0x80, 0x84, 0xC0, 0xC1,
   0xC2, 0xC3, 0xC4, 0xC5, 0xC6, 0xC7, 0xC8, 0xC9]
def ioOpcodes : List Nat := [0x00, 0x01, 0x02, 0x09, 0x0C, 0x82]

/-- Log page 0x05: four bytes for each opcode, 0 for one that is not supported. -/
def effectsPage : PageBytes :=
  let ent (ops : List Nat) (i : Nat) : PageBytes := if ops.contains i then unstated 4 else stated (leBytes 4 0)
  (List.range 256).flatMap (ent adminOpcodes) ++ (List.range 256).flatMap (ent ioOpcodes) ++ unstated 2048

/-- An entry of log page 0x01: the status field; an entry that holds no error is 0. -/
def errorEntry (st : Option Nat) : PageBytes :=
  match st with
  | some v => pageOf [(12, leBytes 2 (2 * v))] 64
  | none => stated (List.replicate 64 0)

/-- The firmware slot that the next reset activates: 0 where it is the running one. -/
def nextSlot (s : State) : Nat :=
  match bootChoice s with
  | some n => if s.boot.slot = some n then 0 else n + 1
  | none => 0

/-- The standard log pages of Table 9.5. -/
def standardPage (s : State) (lid : Nat) : Option PageBytes :=
  match lid with
  | 0x01 => some ((List.range 64).flatMap (fun i => errorEntry s.nvme.errors[i]?))
  | 0x02 => some (pageOf [(0, leBytes 1 s.nvme.warn)] 512)
  | 0x03 => some (pageOf [(0, leBytes 1 ((match s.boot.slot with | some n => n + 1 | none => 0) + 16 * nextSlot s))] 512)
  | 0x04 => some (unstated 4096)
  | 0x05 => some effectsPage
  | 0x06 => some (pageOf ((0, leBytes 1 (s.nvme.selfTest.run.getD 0)) ::
      (match s.nvme.selfTest.last with | some x => [(4, leBytes 1 (x.2 + 16 * x.1))] | none => [(4, leBytes 1 0x0F)])) 564)
  | _ => none

/-- A read of a page with RAE = 0: its events are cleared (R294), and page 0xC2 has shown its loss report (R466). -/
def pageRead (s : State) (ctrl lid : Nat) (rae : Bool) : State :=
  if rae then s
  else
    let k := ctrlOf s ctrl
    let s1 := setCtrl s ctrl { k with masked := k.masked.filter (fun e => e.page != lid),
                                      events := k.events.filter (fun e => e.page != lid) }
    if lid = 0xC2 then { s1 with hold := { s1.hold with lostSeen := true } } else s1

def startGetLog (s : State) (c : Cmd) (lid off len : Nat) (rae : Bool) : State :=
  if 0xC0 ≤ lid ∧ lid ≤ 0xC5 then pageRead (returnPage s c 0 (vendorPage s lid off len)) (ctrlNum c) lid rae
  else
    match standardPage s lid with
    | some p => pageRead (returnPage s c 0 (pageCut p off len)) (ctrlNum c) lid rae
    | none => endCmd s c.id scLogPage 0 []

/-! ### Features (R273) and power states (R512) -/

def featArbitration : Nat := 0x01
def featPower : Nat := 0x02
def featErrorRecovery : Nat := 0x05
def featQueues : Nat := 0x07

/-- The features of Table 9.5. -/
def features : List Nat := [0x01, 0x02, 0x04, 0x05, 0x07, 0x08, 0x09, 0x0A, 0x0B, 0x0E]

/-- Where a feature's value is kept: Error Recovery by namespace. -/
def featKey (fid nsid : Nat) : Nat := if fid = featErrorRecovery then 256 * nsid + fid else fid

/-- The value of a feature: Error Recovery has DULBE fixed at 1, Number of Queues grants 1,024 of each (R274). -/
def featValue (s : State) (ctrl fid nsid : Nat) : Nat :=
  if fid = featPower then s.nvme.power
  else if fid = featQueues then 1023 + 2 ^ 16 * 1023
  else
    let v := tblGet 0 (ctrlOf s ctrl).feats (featKey fid nsid)
    if fid = featErrorRecovery then v % 2 ^ 16 + 2 ^ 16 else v

/-- The NSID of a feature command: Error Recovery belongs to a namespace, the others to the controller. -/
def featNsFault (s : State) (fid nsid : Nat) : Option Nat :=
  if fid = featErrorRecovery then
    if nsid = 0xFFFFFFFF ∨ (nsOf s nsid).isSome then none else some scInvalidNs
  else if nsid = 0 ∨ nsid = 0xFFFFFFFF then none else some scNotNsSpecific

/-- A tile that would be enabled in a power state: not quiesced there, and enabled now or enabled again on leaving the
present state. -/
def psEnabled (s : State) (ps t : Nat) : Bool :=
  !psQuiesced ps t && (s.flag (R.TILE_CTRL_EN t) || psQuiesced s.nvme.power t)

/-- Does a mask leave no enabled tile in a power state? -/
def maskStarves (s : State) (ps mask : Nat) : Bool := (List.range 32).all (fun t => !mask.testBit t || !psEnabled s ps t)

def isExecute (c : Cmd) : Bool := match c.op with | .execute .. => true | _ => false

/-- Would a power state leave a bound flow, or an outstanding Execute Program, without an enabled tile? -/
def powerFault (s : State) (ps : Nat) : Bool :=
  decide (2 < ps) || (boundFlows s).any (fun f => maskStarves s ps (ctxGet s f cxMASK)) ||
    (s.nvme.cmds.any isExecute && maskStarves s ps (s.fld R.NVME_CPMASK_MASK))

/-- Enter a power state: EN of the tiles that it quiesces is cleared, EN of those that the state left quiesced is set. -/
def powerEnter (s : State) (ps : Nat) : State :=
  let was := s.nvme.power
  (List.finRange 32).foldl (fun (acc : State) (t : Fin 32) =>
      if psQuiesced ps t.val then writeEn acc (.tile t) 0
      else if psQuiesced was t.val then writeEn acc (.tile t) 1 else acc)
    { s with nvme := { s.nvme with power := ps } }

def startSetFeatures (s : State) (c : Cmd) (fid nsid value : Nat) (save : Bool) : State :=
  let k := ctrlNum c
  if !features.contains fid then endCmd s c.id scInvalidField 0 []
  else if save then endCmd s c.id scNotSaveable 0 []
  else
    match featNsFault s fid nsid with
    | some st => endCmd s c.id st 0 []
    | none =>
      if fid = featErrorRecovery ∧ value.testBit 16 = false then endCmd s c.id scNotChangeable 0 []
      else if fid = featPower then
        if powerFault s (value % 32) then endCmd s c.id scInvalidField 0 [] else endCmd (powerEnter s (value % 32)) c.id scOk 0 []
      else
        let x := ctrlOf s k
        let s1 := setCtrl s k { x with feats := tblSet 0 x.feats (featKey fid nsid) value }
        endCmd s1 c.id scOk (if fid = featQueues then featValue s1 k fid nsid else 0) []

/-- Get Features: the value in DW0, of Timestamp in the data. -/
def startGetFeatures (s : State) (c : Cmd) (fid nsid : Nat) : State :=
  if !features.contains fid then endCmd s c.id scInvalidField 0 []
  else
    match featNsFault s fid nsid with
    | some st => endCmd s c.id st 0 []
    | none =>
      let v := featValue s (ctrlNum c) fid nsid
      if fid = 0x0E then endCmd s c.id scOk 0 (leBytes 8 v) else endCmd s c.id scOk v []

/-- Asynchronous Event Request: an event that waits completes it at once (R294). -/
def startAsync (s : State) (c : Cmd) : State :=
  let k := ctrlNum c
  let held := s.nvme.cmds.countP (fun d => d.id != c.id && d.op == .asyncEvent && d.st == .started && ctrlNum d == k)
  if 8 ≤ held then endCmd s c.id scAerLimit 0 []
  else
    match (ctrlOf s k).events with
    | [] => s
    | e :: _ => deliverEvent s k e

/-- Abort: at most eight outstanding (ACL). -/
def startAbort (s : State) (c : Cmd) (sqid cid : Nat) : State :=
  let held := s.nvme.cmds.countP (fun d =>
    d.id != c.id && d.st != .waiting && ctrlNum d == ctrlNum c && (match d.op with | .abort .. => true | _ => false))
  if 8 ≤ held then endCmd s c.id scAbortLimit 0 [] else abortPoint s c sqid cid

/-! ### Namespaces (R269, R270, R416, R425) -/

/-- Logical sectors that the namespaces take. -/
def sectorsTaken (s : State) : Nat :=
  s.nvme.nss.foldl (fun (n : Nat) (e : Nat × Option Ns) => match e.2 with | some x => n + nsSectors x | none => n) 0

/-- A namespace gets a new media key (R416); where the DRBG is not ready, none. -/
def newMediaKey (s : State) (nsid : Nat) : Option State :=
  if rngOk s then
    let k := newKey s ktXts usXts
    some (putKey k.2 nsid (some k.1))
  else none

/-- The units in which a namespace has data, mapped or released. -/
def nsUnits (s : State) (nsid : Nat) : List Nat :=
  ((((tblKeys s.ftl.map).filter (fun k => k / 2 ^ 40 == nsid)).map (· % 2 ^ 40)) ++
    ((s.ftl.rels.filter (fun (r : Rel) => r.nsid == nsid)).flatMap (fun (r : Rel) =>
      (List.range (r.nsec / 256 + 2)).map (fun i => r.lsec / 256 + i)))).eraseDups

/-- Deallocate all of a namespace, in release order. -/
def deallocNs (s : State) (nsid : Nat) : State :=
  (nsUnits s nsid).foldl (fun acc u => enqueueMap acc (.dealloc nsid (256 * u) 256)) s

def setNs (s : State) (nsid : Nat) (n : Option Ns) : State := { s with nvme := { s.nvme with nss := tblSet none s.nvme.nss nsid n } }

/-- Create a namespace: the lowest free identifier, unattached, with its media key. -/
def nsCreate (s : State) (nsze flbas : Nat) : Except Nat (Nat × State) :=
  let n : Ns := { nsze := nsze, lbaf := flbas, streams := false, attached := false }
  if 1 < flbas then .error scFormat
  else
    match (List.range 257).find? (fun i => decide (0 < i) && (nsOf s i).isNone) with
    | none => .error scNsUnavailable
    | some i =>
      if Config.nsCapacity < sectorsTaken s + nsSectors n then .error scNsCapacity
      else
        match newMediaKey s i with
        | none => .error scInternal
        | some s1 => .ok (i, setNs s1 i (some n))

/-- Delete a namespace: its data is deallocated and its key erased. -/
def nsDelete (s : State) (nsid : Nat) : State := setNs (putKey (deallocNs s nsid) nsid none) nsid none

def nsIds (s : State) : List Nat := (tblKeys s.nvme.nss).filter (fun n => (nsOf s n).isSome)

/-- The lowest place for an SLM namespace: 1 GiB aligned, below the house region, clear of every other and of the
hallway windows (R295). -/
def slmPlace (s : State) (len : Nat) : Option Nat :=
  let taken := s.nvme.slms.filterMap Prod.snd ++ fcRanges s.hwWins
  ((List.range (houseRegion s / 2 ^ 30 + 1)).map (· * 2 ^ 30)).find? (fun a =>
    decide (a + len ≤ houseRegion s) && !taken.any (overlaps (a, len)))

def setSlm (s : State) (k : Nat) (r : Option (Nat × Nat)) : State :=
  { s with nvme := { s.nvme with slms := tblSet none s.nvme.slms k r } }

def startNsManage (s : State) (c : Cmd) (m : NsMgmt) : State :=
  let k := ctrlNum c
  match m with
  | .create nsze flbas =>
    if c.xfer then endCmd s c.id scDataTransfer 0 []
    else
      match nsCreate s nsze flbas with
      | .ok r => endCmd r.2 c.id scOk r.1 []
      | .error st => endCmd s c.id st 0 []
  | .delete nsid =>
    if nsid = 0xFFFFFFFF then endCmd ((nsIds s).foldl nsDelete s) c.id scOk 0 []
    else if (nsOf s nsid).isNone then endCmd s c.id scInvalidNs 0 []
    else endCmd (nsDelete s nsid) c.id scOk 0 []
  | .createSlm slm len =>
    if c.xfer then endCmd s c.id scDataTransfer 0 []
    else if 16 ≤ slm ∨ (slmRegion s k slm).isSome then endCmd s c.id scNsUnavailable 0 []
    else if len = 0 ∨ 2 ^ 30 < len then endCmd s c.id scInvalidField 0 []
    else
      match slmPlace s len with
      | none => endCmd s c.id scNsCapacity 0 []
      | some a => endCmd (setSlm s (16 * k + slm) (some (a, len))) c.id scOk slm []
  | .deleteSlm slm =>
    if (slmRegion s k slm).isNone then endCmd s c.id scInvalidNs 0 [] else endCmd (setSlm s (16 * k + slm) none) c.id scOk 0 []

def startNsAttach (s : State) (c : Cmd) (nsid : Nat) (attach : Bool) : State :=
  match nsOf s nsid with
  | none => endCmd s c.id scInvalidNs 0 []
  | some n =>
    if c.xfer then endCmd s c.id scDataTransfer 0 []
    else if attach && n.attached then endCmd s c.id scNsAttached 0 []
    else if !attach && !n.attached then endCmd s c.id scNsNotAttached 0 []
    else endCmd (setNs s nsid (some { n with attached := attach })) c.id scOk 0 []

/-- Does a bound flow name a namespace? -/
def nsInFlow (s : State) (nsid : Nat) : Bool := (boundFlows s).any (fun f => ctxGet s f cxNSID == nsid)

/-- Format one namespace: its data is deallocated, the format set over the same sectors, the key replaced under Secure
Erase Settings 2. -/
def formatNs (lbaf ses : Nat) (s : State) (nsid : Nat) : State :=
  match nsOf s nsid with
  | none => s
  | some n =>
    let n' := { n with lbaf := lbaf }
    let s1 := setNs (deallocNs s nsid) nsid (some { n' with nsze := nsSectors n / nsSpb n' })
    if ses = 2 then (newMediaKey s1 nsid).getD s1 else s1

def startFormat (s : State) (c : Cmd) (nsid lbaf ses : Nat) : State :=
  let ids := if nsid = 0xFFFFFFFF then nsIds s else [nsid]
  if nsid ≠ 0xFFFFFFFF ∧ (nsOf s nsid).isNone then endCmd s c.id scInvalidNs 0 []
  else if 1 < lbaf then endCmd s c.id scFormat 0 []
  else if 2 < ses then endCmd s c.id scInvalidField 0 []
  else if s.nvme.sanitize.isSome then endCmd s c.id scSanitize 0 []
  else if ids.any (nsInFlow s) then endCmd s c.id scSequence 0 []
  else if ses = 2 ∧ ¬ rngOk s then endCmd s c.id scInternal 0 []
  else endCmd (ids.foldl (formatNs lbaf ses) s) c.id scOk 0 []

/-- Sanitize: it runs on after the command has completed. Crypto erase replaces every media key (R425). -/
def startSanitize (s : State) (c : Cmd) (crypto : Bool) : State :=
  if s.nvme.sanitize.isSome then endCmd s c.id scSanitize 0 []
  else if crypto ∧ ¬ rngOk s then endCmd s c.id scInternal 0 []
  else
    let s1 := if crypto then (0 :: nsIds s).foldl (fun acc n => (newMediaKey acc n).getD acc) s else s
    endCmd { s1 with nvme := { s1.nvme with sanitize := some (b2n crypto) } } c.id scOk 0 []

/-- SANITIZE_DONE: released parcels having persisted, every namespace reads as never written; a block erase has erased
every cell that held data. -/
def sanitizeDone (s : State) : State :=
  match s.nvme.sanitize with
  | none => s
  | some k =>
    if s.ftl.rels = [] then
      let s1 := (nsIds s).foldl deallocNs s
      let s2 := { s1 with nvme := { s1.nvme with sanitize := none } }
      if k = 0 then { s2 with media := { s2.media with cells := [] } } else s2
    else s

/-! ### Firmware (R450, R485) -/

/-- Erase the blocks of a slot, its marker block first: as many of its image blocks as an image of `n` bytes needs. -/
def slotErase (s : State) (slot n : Nat) : State :=
  (slotMark slot :: (List.range ((n + csBlockSize - 1) / csBlockSize)).map (slotImg slot + ·)).foldl (fun acc b =>
    match csPhys acc b with
    | some p => csEraseWhole acc p true
    | none => acc) s

/-- Program a slot's image bytes from an offset on. -/
def slotProgram (s : State) (slot off : Nat) (bs : List Byte) : State :=
  (bs.zipIdx off).foldl (fun acc x =>
    let a := slotImg slot * csBlockSize + x.2
    match csPhys acc (a / csBlockSize) with
    | some p => if x.2 < 239 * csBlockSize then csProgram acc (p * csBlockSize + a % csBlockSize) [x.1] else acc
    | none => acc) s

/-- The length of the download buffer. -/
def fwLength (s : State) : Nat := (tblKeys s.nvme.fwBuf).foldl (fun n k => max n (k + 1)) 0

/-- A piece of an image arrives in the download buffer. In RECOVERY the first piece erases slot A, and each is programmed
into it. -/
def startFwDownload (s : State) (c : Cmd) (off : Nat) (bs : List Byte) : State :=
  if c.xfer then endCmd s c.id scDataTransfer 0 []
  else
    let s1 := if s.boot.mode = .recovery then
        slotProgram (if s.nvme.fwBuf = [] then slotErase s 0 (239 * csBlockSize) else s) 0 off bs
      else s
    let buf := (bs.zipIdx off).foldl (fun t x => tblSet 0xFF t x.2 x.1) s.nvme.fwBuf
    endCmd { s1 with nvme := { s1.nvme with fwBuf := buf } } c.id scOk 0 []

/-- The status of a commit by the gate routine's result: VERIFY, or FULL of an activation, is Invalid Firmware Image; any
other failure is an Internal Error. -/
def commitStatus (act2 : Bool) (r : Nat) : Nat :=
  if r = gateOk then scOk else if r = gateVerify ∨ (act2 ∧ r = gateFull) then scFwImage else scInternal

/-- Firmware Commit: actions 0 and 1 write the image into the slot and call COMMIT, action 2 calls ACTIVATE. -/
def startFwCommit (s : State) (c : Cmd) (action slot : Nat) (fault ok : Bool) : State :=
  if s.boot.mode = .recovery then
    let r := gateCommit s 0 1 fault ok
    let s1 := endCmd { r.2.2 with nvme := { r.2.2.nvme with fwBuf := [] } } c.id (if r.1 = gateOk then scOk else scFwImage) 0 []
    if r.1 = gateOk then warmReset s1 R.SYS_RSTCAUSE_SWWARM true else s1
  else if slot = 0 ∨ 2 < slot ∨ s.boot.slot = some (slot - 1) then endCmd s c.id scFwSlot 0 []
  else if action = 2 then
    let r := gateActivate s (slot - 1) fault ok
    endCmd r.2.2 c.id (commitStatus true r.1) 0 []
  else
    let n := fwLength s
    let img := (List.range n).map (tblGet 0xFF s.nvme.fwBuf)
    let s1 := slotProgram (slotErase s (slot - 1) n) (slot - 1) 0 img
    let r := gateCommit s1 (slot - 1) action fault ok
    endCmd { r.2.2 with nvme := { r.2.2.nvme with fwBuf := [] } } c.id (commitStatus false r.1) 0 []

/-! ### Device self-test (R289, R290) -/

def startSelfTest (s : State) (c : Cmd) (code nsid : Nat) : State :=
  if code = 0xF then endCmd (endSelfTest s 1) c.id scOk 0 []
  else if code ≠ 1 ∧ code ≠ 2 then endCmd s c.id scInvalidField 0 []
  else if nsid ≠ 0 ∧ nsid ≠ 0xFFFFFFFF ∧ (nsOf s nsid).isNone then endCmd s c.id scInvalidNs 0 []
  else if s.nvme.selfTest.run.isSome then endCmd s c.id scSelfTest 0 []
  else endCmd { s with nvme := { s.nvme with selfTest := { s.nvme.selfTest with run := some code, nsid := nsid } } } c.id scOk 0 []

/-- The corrector checks: one correctable error is counted for a macro of each class that ECC_TEST serves; which macro and
word is open. -/
def correctorCheck (s : State) (cls : Nat) : State :=
  let f := s.fresh
  let w := (Config.freeWord f.1).toNat
  let m := 256 * cls + w / 2 ^ 16 % (match cls with | 0 => 256 | 1 => 64 | 2 => 128 | 3 => 16 | 4 => 36 | 6 => 128 | _ => 256)
  countCe f.2 (0x8000 * m + w % macWords m)

/-- SELF_TEST_END: the test in progress ends with its result: 0 without error, 7 a segment failed. -/
def selfTestEnd (s : State) (pass : Bool) : State :=
  match s.nvme.selfTest.run with
  | none => s
  | some _ =>
    let s1 := [0, 1, 2, 3, 4, 6, 7].foldl correctorCheck s
    let s2 := (List.range tcamSlots).foldl (fun acc _ => shadowCheck acc) s1
    endSelfTest s2 (if pass then 0 else 7)

/-! ### Directives (R278) -/

/-- Directive Send: Identify enables or disables Streams; Streams releases identifiers or resources, which does not touch
binding. -/
def startDirSend (s : State) (c : Cmd) (nsid dtype doper value : Nat) : State :=
  match nsOf s nsid with
  | none => endCmd s c.id scInvalidNs 0 []
  | some n =>
    if dtype = 0 ∧ doper = 1 ∧ bitsOf value 8 8 = 1 then
      endCmd (setNs s nsid (some { n with streams := value % 2 == 1 })) c.id scOk 0 []
    else if dtype = 1 ∧ n.streams ∧ (doper = 1 ∨ doper = 2) then endCmd s c.id scOk 0 []
    else endCmd s c.id scInvalidField 0 []

/-- Directive Receive: Identify gives the directives supported and enabled; Streams its parameters (65,535 identifiers),
its status, or an allocation that is reported only. -/
def startDirReceive (s : State) (c : Cmd) (nsid dtype doper : Nat) : State :=
  match nsOf s nsid with
  | none => endCmd s c.id scInvalidNs 0 []
  | some n =>
    if dtype = 0 ∧ doper = 1 then
      returnPage s c 0 (stated (leBytes 32 3 ++ leBytes 32 (1 + 2 * b2n n.streams) ++ List.replicate 4032 0))
    else if dtype = 1 ∧ n.streams ∧ doper = 1 then returnPage s c 0 (pageOf [(0, leBytes 2 65535)] 32)
    else if dtype = 1 ∧ n.streams ∧ doper = 2 then returnPage s c 0 (unstated 2)
    else if dtype = 1 ∧ n.streams ∧ doper = 3 then
      let f := s.fresh
      endCmd f.2 c.id scOk (Config.freeWord f.1).toNat []
    else endCmd s c.id scInvalidField 0 []

/-! ### Vendor commands (R291, R292) -/

/-- R291: the length of an image command's data, 1 to 12,582,912 dwords. -/
def dataLengthBad (d : List Byte) : Bool := decide (d.length < 4) || decide (12582912 * 4 < d.length)

/-- An image command: its data length, then its status, then its effect. -/
def startLoad (s : State) (c : Cmd) (d : List Byte) (fieldBad : Bool) (st : Nat) (go : State → State) : State :=
  if c.xfer then endCmd s c.id scDataTransfer 0 []
  else if dataLengthBad d || fieldBad then endCmd s c.id scInvalidField 0 []
  else if st = scOk then endCmd (go s) c.id scOk 0 [] else endCmd s c.id st 0 []

/-- Flow Bind (R59, R60, R512). -/
def startFlowBind (s : State) (c : Cmd) (cdw10 : Nat) (img : List Byte) : State :=
  if c.xfer then endCmd s c.id scDataTransfer 0 []
  else if img.length ≠ 64 ∨ 2 ^ 18 ≤ cdw10 then endCmd s c.id scInvalidField 0 []
  else
    match bindFault s cdw10 img with
    | some st => endCmd s c.id st 0 []
    | none =>
      if maskQuiesced s (imgFld img cxMASK) then endCmd s c.id scInvalidField 0 [] else endCmd (bindFlow s cdw10 img) c.id scOk 0 []

/-- Flow Unbind (R61): it completes with the drain. -/
def startFlowUnbind (s : State) (c : Cmd) (cdw10 : Nat) : State :=
  if 2 ^ 18 ≤ cdw10 then endCmd s c.id scInvalidField 0 []
  else
    match unbindFault s cdw10 with
    | some st => endCmd s c.id st 0 []
    | none => drainFlow s cdw10 (some c.id)

/-- Rule Table Load (R250, R251): mode 0 applies the image; modes 1 and 2 run one RULE_CMD operation at a time. -/
def startRuleLoad (s : State) (c : Cmd) (mode hi : Nat) (d : List Byte) : State :=
  if c.xfer then endCmd s c.id scDataTransfer 0 []
  else if dataLengthBad d ∨ hi ≠ 0 ∨ 3 ≤ mode then endCmd s c.id scInvalidField 0 []
  else
    let st := ruleStatus s mode d
    if st ≠ scOk then endCmd s c.id st 0 []
    else if mode = 0 then endCmd (ruleReplace s d) c.id scOk 0 []
    else ruleQueue s mode d c.id

/-- Fabric Configure OP 1 (R370): tag-change records, in order, as from the host port; the first refused ends them. The
service port owns no slot (R300). -/
def startFabTags (s : State) (c : Cmd) (hi : Nat) (d : List Byte) : State :=
  if c.xfer then endCmd s c.id scDataTransfer 0 []
  else if dataLengthBad d ∨ hi ≠ 0 then endCmd s c.id scInvalidField 0 []
  else
    match c.src with
    | .mi => endCmd s c.id scSequence 0 []
    | .host k _ _ =>
      let r := fabTags s k.val d 0 (d.length / 8)
      endCmd r.2.2 c.id (if r.2.1 then scOk else scSequence) r.1 []

/-- Is a qualification running? -/
def qualRunning (s : State) : Bool := s.hold.qual != .idle

/-- Hold-up Requalify (R462, R463). -/
def startRequalify (s : State) (c : Cmd) (op hi : Nat) (d : List Byte) : State :=
  if c.xfer then endCmd s c.id scDataTransfer 0 []
  else if hi ≠ 0 ∨ 3 ≤ op ∨ d.length ≠ (if op = 0 then 0 else if op = 1 then 128 else 256) then endCmd s c.id scInvalidField 0 []
  else if op = 2 then
    if thermProfOk d then endCmd (thermSave (thermLoad s d) 1) c.id scOk 0 [] else endCmd s c.id scInvalidField 0 []
  else if op = 1 ∧ !holdProfOk d then endCmd s c.id scInvalidField 0 []
  else if qualRunning s then endCmd s c.id scSequence 0 []
  else qualDrain (if op = 1 then holdSave (setProf s d) 1 else s) (some c.id)

end Sys2Proof.Machine
end

