-- ==== Sys2Proof/Machine/NvmeCmds.lean ====
section
/-! DEFINITION. Sys2Proof/Machine/NvmeCmds.lean: arbitration (R275, R276), the arrival and the start of NVMe commands, and
the rows of the opcode table that are NVMe commands. -/

namespace Sys2Proof.Machine

/-! ### What may start (R276, R282, R283) -/

/-- Commands of I/O queues; the opcode spaces of admin and I/O queues are disjoint (R428). -/
def opIsIo (op : NvmeOp) : Bool :=
  match op with
  | .flush .. | .write .. | .read .. | .dsm .. | .verify .. | .parcelRead .. | .loadProgram .. | .programActivate .. | .rangeSet .. |
    .execute .. | .memoryCopy .. | .slmRead .. | .slmWrite .. => true
  | _ => false

/-- Does a command meet the wrong kind of queue, or no command's opcode (R272, R428)? -/
def opMisplaced (c : Cmd) : Bool :=
  match c.op, c.src with
  | .invalid _, _ => true
  | op, .host _ q _ => opIsIo op == (q == 0)
  | op, .mi => opIsIo op

/-- What else than a range lock holds a command back: the dispatcher (R518), a release that waits for the map (R316), a
tile (R296), the code store, a rule operation, a profile being stored. -/
def opWaits (s : State) (c : Cmd) : Bool :=
  match c.op with
  | .write nsid slba nlb dtype dspec _ ptr =>
    !blockOn s .disp && (match writeFate s c.xfer nsid slba nlb dtype dspec ptr with | .accepted _ => true | _ => false)
  | .read nsid slba nlb _ | .verify nsid slba nlb _ | .memoryCopy nsid slba nlb _ _ _ =>
    mapWaits s nsid (lbaSectors s nsid slba nlb).1 (lbaSectors s nsid slba nlb).2
  | .parcelRead nsid slba _ _ => mapWaits s nsid (lbaSectors s nsid slba 1).1 1
  | .execute pind rsid _ _ p2 =>
    (match cpPlan s (ctrlNum c) pind rsid p2 with | .ok _ => (cpTile s).isNone | .error _ => false)
  | .fwCommit .. => gateIsBusy s
  | .ruleLoad .. => s.index.op.isSome || !s.index.load.isEmpty
  | .requalify op _ _ => (op == 1 && s.flag R.HOLD_SAVE_BUSY) || (op == 2 && s.flag R.THERM_SAVE_BUSY)
  | _ => false

def opBlocked (s : State) (c : Cmd) : Bool :=
  !opMisplaced c && (lockHeld s c.op || entryWait s c.op || opWaits s c)

/-- The command of a queue that may start: the first that has not started, where nothing blocks it. -/
def runnable (s : State) (r : QueueRef) : Option Cmd :=
  match queueNext s r with
  | some c => if opBlocked s c then none else some c
  | none => none

/-! ### Arbitration (R275) -/

/-- Classes: 0 admin, 1 urgent, 2 high, 3 medium, 4 low. -/
def queueClass (s : State) (k : Fin 2) (q : Nat) : Nat :=
  if q = 0 then 0 else match sqOf s k.val q with | some x => x.prio + 1 | none => 4

/-- The queues of a class with a command that may start. -/
def classQueues (s : State) (k : Fin 2) (cls : Nat) : List Nat :=
  (tblKeys (ctrlOf s k.val).sqs).filter (fun q => queueClass s k q == cls && (runnable s (.host k q)).isSome)

/-- Round robin: the lowest queue above the one served last, else the lowest. -/
def nextQueue (qs : List Nat) (last : Nat) : Option Nat :=
  match qs.find? (fun q => decide (last < q)) with
  | some q => some q
  | none => qs.head?

/-- The weights of the high, medium and low classes and the burst (Arbitration feature; all fields 0's based but AB). -/
def arbWeights (s : State) (k : Nat) : List Nat :=
  let v := tblGet 0 (ctrlOf s k).feats featArbitration
  [bitsOf v 24 8 + 1, bitsOf v 16 8 + 1, bitsOf v 8 8 + 1]
def arbBurst (s : State) (k : Nat) : Option Nat :=
  let ab := tblGet 0 (ctrlOf s k).feats featArbitration % 8
  if ab = 7 then none else some (2 ^ ab)

/-- The queue that arbitration serves next with its class, and whether the weights begin anew for it. -/
def arbChoice (s : State) (k : Fin 2) : Option (Nat × Nat × Bool) :=
  let x := ctrlOf s k.val
  let rr (cls : Nat) : Option Nat := nextQueue (classQueues s k cls) (tblGet 0 x.last cls)
  if (runnable s (.host k 0)).isSome then some (0, 0, false)
  else
    let urgent := rr 1
    match x.burst with
    | some (q, _) =>
      if (runnable s (.host k q)).isSome ∧ (queueClass s k q ≤ 1 ∨ urgent = none) then some (q, queueClass s k q, false)
      else pick x rr urgent
    | none => pick x rr urgent
where
  pick (x : Ctrl) (rr : Nat → Option Nat) (urgent : Option Nat) : Option (Nat × Nat × Bool) :=
    match urgent with
    | some q => some (q, 1, false)
    | none =>
      match [2, 3, 4].find? (fun c => (rr c).isSome && x.cred.getD (c - 2) 0 != 0) with
      | some c => (rr c).map (fun q => (q, c, false))
      | none =>
        match [2, 3, 4].find? (fun c => (rr c).isSome) with
        | some c => (rr c).map (fun q => (q, c, true))
        | none => none

/-- Note what arbitration served: the class's place, the burst, the weight spent. -/
def arbServed (s : State) (k : Fin 2) (q cls : Nat) (anew : Bool) : State :=
  let x := ctrlOf s k.val
  if cls = 0 then s
  else
    let left := match arbBurst s k.val, x.burst with
      | none, _ => some (q, 0)
      | some n, some (q', m) => if q' = q then (if m ≤ 1 then none else some (q, m - 1)) else (if n = 1 then none else some (q, n - 1))
      | some n, none => if n = 1 then none else some (q, n - 1)
    let cred := if anew then arbWeights s k.val else x.cred
    setCtrl s k.val { x with
      last := tblSet 0 x.last cls q, burst := left,
      cred := if cls < 2 then cred else cred.set (cls - 2) (cred.getD (cls - 2) 0 - 1) }

/-! ### Starting (R276) -/

/-- The effect of a command as it starts. -/
def startCmd (s : State) (c : Cmd) : State :=
  if opMisplaced c then endCmd s c.id scInvalidOpcode 0 []
  else
    match c.op with
    | .createSq qid size cqid prio => startCreateSq s c qid size cqid prio
    | .createCq qid size vector ien => startCreateCq s c qid size vector ien
    | .deleteSq qid => startDeleteSq s c qid
    | .deleteCq qid => startDeleteCq s c qid
    | .getLog lid _ off len rae => startGetLog s c lid off len rae
    | .identify cns nsid => startIdentify s c cns nsid
    | .abort sqid cid => startAbort s c sqid cid
    | .setFeatures fid nsid value save => startSetFeatures s c fid nsid value save
    | .getFeatures fid nsid => startGetFeatures s c fid nsid
    | .asyncEvent => startAsync s c
    | .nsManage m => startNsManage s c m
    | .nsAttach nsid attach => startNsAttach s c nsid attach
    | .fwDownload off bytes => startFwDownload s c off bytes
    | .fwCommit action slot fault ok => startFwCommit s c action slot fault ok
    | .selfTest code nsid => startSelfTest s c code nsid
    | .dirSend nsid dtype doper value => startDirSend s c nsid dtype doper value
    | .dirReceive nsid dtype doper => startDirReceive s c nsid dtype doper
    | .formatNvm nsid lbaf ses => startFormat s c nsid lbaf ses
    | .sanitize crypto => startSanitize s c crypto
    | .flowBind cdw10 image => startFlowBind s c cdw10 image
    | .flowUnbind cdw10 => startFlowUnbind s c cdw10
    | .programLoad cdw10 image =>
      startLoad s c image (decide (64 ≤ cdw10)) (progStatus s 0 cdw10 image) (fun t => progLoad t cdw10 image)
    | .stepTableLoad image => startLoad s c image false (setStatus s image) (fun t => setLoad t image)
    | .ruleLoad mode hi image => startRuleLoad s c mode hi image
    | .automatonLoad image => startLoad s c image false (autoStatus s image) (fun t => autoLoad t image)
    | .personalityLoad cdw10 image =>
      startLoad s c image (decide (4 ≤ cdw10)) (persStatus s cdw10 image) (fun t => persLoad t cdw10 image)
    | .profileLoad image => startLoad s c image false (profStatus s image) (fun t => profLoad t image)
    | .fabricLoad hi image => startLoad s c image (hi != 0) (fcStatus s image) (fun t => fabLoad t image)
    | .fabricTags hi records => startFabTags s c hi records
    | .requalify op hi data => startRequalify s c op hi data
    | .flush nsid => startFlush s c nsid
    | .write nsid slba nlb dtype dspec _ ptr => startWrite s c nsid slba nlb dtype dspec ptr
    | .read nsid slba nlb bad => startHostRead s c nsid slba nlb bad
    | .dsm nsid ranges => startDsm s c nsid ranges
    | .verify nsid slba nlb bad => startVerify s c nsid slba nlb bad
    | .parcelRead nsid slba cdw12 bad => startParcelRead s c nsid slba cdw12 bad
    | .loadProgram pind image =>
      startLoad s c image (decide (64 ≤ pind)) (progStatus s 1 pind image) (fun t => progLoad t pind image)
    | .programActivate pind act => startActivate s c pind act
    | .rangeSet m => startRangeSet s c m
    | .execute pind rsid p0 p1 p2 => startExecute s c pind rsid p0 p1 p2
    | .memoryCopy nsid slba nlb slm off bad => startMemoryCopy s c nsid slba nlb slm off bad
    | .slmRead slm off len => startSlmRead s c slm off len
    | .slmWrite slm off bytes => startSlmWrite s c slm off bytes
    | .invalid _ => endCmd s c.id scInvalidOpcode 0 []

/-- Start a command: it has its place in its queue's order from now on. -/
def startPicked (s : State) (c : Cmd) : State := startCmd (updCmd s c.id (fun d => { d with st := .started })) c

/-- Start what arbitration picks at a controller, where `want` accepts it. -/
def arbStart (s : State) (k : Fin 2) (want : Cmd → Bool) : State :=
  match arbChoice s k with
  | none => s
  | some (q, cls, anew) =>
    match runnable s (.host k q) with
    | none => s
    | some c => if want c then startPicked (arbServed s k q cls anew) c else s

/-- Start the command that the management endpoint tunnels. -/
def tunnelStart (s : State) : State :=
  match runnable s .mi with
  | none => s
  | some c => startPicked s c

/-- COMMAND_START: arbitration picks the next command that may start. The management endpoint's commands, which no
submission queue holds, start with those of the first controller. -/
def commandStart (s : State) (k : Fin 2) : State :=
  if ctrlReady s k.val && (arbChoice s k).isSome then noteWaits (arbStart s k (fun _ => true))
  else if k.val = 0 then noteWaits (tunnelStart s)
  else s

/-! ### Arrival -/

/-- Is the management endpoint alive: the device is out of reset and not halted? -/
def miUp (s : State) : Bool := s.boot.held == .none && s.boot.mode != .halt

/-- The commands that the endpoint tunnels (R300): those whose permitted-class mask has class S (Table 14.6). -/
def opTunnelled (op : NvmeOp) : Bool :=
  match op with
  | .identify .. | .getLog .. | .getFeatures .. | .selfTest .. | .fwDownload .. | .fwCommit .. | .fabricLoad .. | .fabricTags .. |
    .requalify .. => true
  | _ => false

/-- RECOVERY implements Firmware Image Download and Firmware Commit only (R485). -/
def opRecovery (op : NvmeOp) : Bool :=
  match op with
  | .fwDownload .. | .fwCommit .. => true
  | _ => false

/-- The status that refuses a tunnelled command. -/
def tunnelFault (s : State) (op : NvmeOp) : Option Nat :=
  match op with
  | .invalid _ => some scInvalidOpcode
  | _ =>
    if s.boot.mode = .recovery then (if opRecovery op then none else some scInvalidOpcode)
    else if opTunnelled op then none else some scClass

/-- The endpoint's response. -/
def miReply (s : State) (st dw0 : Nat) (data : List Byte) : State :=
  { s with nvme := { s.nvme with mi := { s.nvme.mi with reply := some (st, dw0, data) } } }

/-- Enter a command, noting a read of host memory that fails for it (R268). -/
def enterCmd (s : State) (q : CmdRef) (op : NvmeOp) : State :=
  let s1 := addCmd (fetchEntry s q) q op
  if s.nvme.walkFails.contains q then
    updCmd { s1 with nvme := { s1.nvme with walkFails := s1.nvme.walkFails.erase q } } (nextId s q) (fun c => { c with xfer := true })
  else s1

/-- A command arrives: it enters its queue, and starts where arbitration picks it. -/
def submit (s : State) (q : CmdRef) (op : NvmeOp) : State :=
  match q with
  | .mi =>
    if !miUp s || s.nvme.mi.paused then s
    else
      match tunnelFault s op with
      | some st => miReply s st 0 []
      | none => noteWaits (tunnelStart (enterCmd s q op))
  | .host k _ _ =>
    if canFetch s q then noteWaits (arbStart (enterCmd s q op) k (fun c => c.id == nextId s q)) else s

/-! ### Reads of host memory that fail (R268) -/

/-- The data fetch of parcel `seq` of a started Write fails: that parcel and the later ones that have not landed retire
with nothing released, as do the numbers not yet cut. -/
def fetchFails (s : State) (c : Cmd) (seq : Nat) : State :=
  match c.run with
  | none => s
  | some (f, first, n) =>
    let gone (p : Parcel) : Bool := p.flow == f && p.src == .host c.id && p.st == .landing &&
      decide ((2 ^ 32 + seq - first) % 2 ^ 32 ≤ (2 ^ 32 + p.seq - first) % 2 ^ 32)
    if (2 ^ 32 + seq - first) % 2 ^ 32 < n ∧ s.flows.parcels.any (fun p => gone p && p.seq == seq) then
      let s1 := dropUncut (updCmd s c.id (fun d => { d with xfer := true })) c.id
      let hole (p : Parcel) : SeqRun := { flow := f, next := p.seq, left := 1, cmd := c.id, part := p.part, bytes := p.len }
      { s1 with flows := { s1.flows with
          parcels := s1.flows.parcels.filter (fun p => !gone p),
          voids := s1.flows.voids ++ (s1.flows.parcels.filter gone).map hole } }
    else s

/-- HOST_READ_FAILURE: the walk of a command not yet started (`seq` none), on its way included, or the data fetch of a
parcel. -/
def hostReadFailure (s : State) (q : CmdRef) (seq : Option Nat) (cto : Bool) : State :=
  let s1 := if cto then s.raise R.PCIE_ISR_CTO else s
  match s1.nvme.cmds.find? (fun c => c.src == q && !c.abandoned), seq with
  | none, none => if q = .mi then s1 else { s1 with nvme := { s1.nvme with walkFails := s1.nvme.walkFails ++ [q] } }
  | none, some _ => s1
  | some c, none => if c.st = .waiting then updCmd s1 c.id (fun d => { d with xfer := true }) else s1
  | some c, some n => if c.st = .started then fetchFails s1 c n else s1

/-! ### The rows: queues and controllers -/

def execControllerEnable (c : Fin 2) (asqs acqs : Nat) (s : State) : Result := .next (ctrlEnable s c.val asqs acqs)
def execControllerReset (c : Fin 2) (s : State) : Result := .next (ctrlDisable s c.val)
def execShutdownNotify (c : Fin 2) (shn : Fin 4) (s : State) : Result := .next (shutdownStart s c.val shn.val)
def execShutdownComplete (c : Fin 2) (s : State) : Result := .next (shutdownEnd s c.val)
def execSqTailDoorbell (c : Fin 2) (sq tail : Nat) (s : State) : Result := .next (sqTail s c.val sq tail)
def execCqHeadDoorbell (c : Fin 2) (cq head : Nat) (s : State) : Result := .next (cqHead s c.val cq head)
def execCommandStart (c : Fin 2) (s : State) : Result := .next (commandStart s c)
def execCommandComplete (src : QueueRef) (s : State) : Result := .next (commandComplete s src)
def execHostReadFailure (q : CmdRef) (seq : Option Nat) (cto : Bool) (s : State) : Result := .next (hostReadFailure s q seq cto)

/-! ### The rows: admin commands -/

def execCreateIoSq (q : CmdRef) (qid size cqid : Nat) (prio : Fin 4) (s : State) : Result :=
  .next (submit s q (.createSq qid size cqid prio.val))
def execCreateIoCq (q : CmdRef) (qid size vector : Nat) (ien : Bool) (s : State) : Result :=
  .next (submit s q (.createCq qid size vector ien))
def execDeleteIoSq (q : CmdRef) (qid : Nat) (s : State) : Result := .next (submit s q (.deleteSq qid))
def execDeleteIoCq (q : CmdRef) (qid : Nat) (s : State) : Result := .next (submit s q (.deleteCq qid))
def execGetLogPage (q : CmdRef) (lid nsid off len : Nat) (rae : Bool) (s : State) : Result :=
  .next (submit s q (.getLog lid nsid off len rae))
def execIdentify (q : CmdRef) (cns nsid : Nat) (s : State) : Result := .next (submit s q (.identify cns nsid))
def execAbort (q : CmdRef) (sqid : Nat) (cid : BitVec 16) (s : State) : Result := .next (submit s q (.abort sqid cid.toNat))
def execSetFeatures (q : CmdRef) (fid nsid value : Nat) (save : Bool) (s : State) : Result :=
  .next (submit s q (.setFeatures fid nsid value save))
def execGetFeatures (q : CmdRef) (fid nsid : Nat) (s : State) : Result := .next (submit s q (.getFeatures fid nsid))
def execAsyncEventRequest (q : CmdRef) (s : State) : Result := .next (submit s q .asyncEvent)
def execNamespaceManagement (q : CmdRef) (m : NsMgmt) (s : State) : Result := .next (submit s q (.nsManage m))
def execNamespaceAttachment (q : CmdRef) (nsid : Nat) (attach : Bool) (s : State) : Result :=
  .next (submit s q (.nsAttach nsid attach))
def execFirmwareImageDownload (q : CmdRef) (off : Nat) (bytes : List Byte) (s : State) : Result :=
  .next (submit s q (.fwDownload off bytes))
def execFirmwareCommitAction0 (q : CmdRef) (slot : Nat) (fault ok : Bool) (s : State) : Result :=
  .next (submit s q (.fwCommit 0 slot fault ok))
def execFirmwareCommitAction1 (q : CmdRef) (slot : Nat) (fault ok : Bool) (s : State) : Result :=
  .next (submit s q (.fwCommit 1 slot fault ok))
def execFirmwareCommitAction2 (q : CmdRef) (slot : Nat) (fault ok : Bool) (s : State) : Result :=
  .next (submit s q (.fwCommit 2 slot fault ok))
def execDeviceSelfTestShort (q : CmdRef) (nsid : Nat) (s : State) : Result := .next (submit s q (.selfTest 1 nsid))
def execDeviceSelfTestExtended (q : CmdRef) (nsid : Nat) (s : State) : Result := .next (submit s q (.selfTest 2 nsid))
def execDeviceSelfTestAbort (q : CmdRef) (s : State) : Result := .next (submit s q (.selfTest 0xF 0))
def execSelfTestEnd (pass : Bool) (s : State) : Result := .next (selfTestEnd s pass)
def execDirectiveSend (q : CmdRef) (nsid dtype doper value : Nat) (s : State) : Result :=
  .next (submit s q (.dirSend nsid dtype doper value))
def execDirectiveReceive (q : CmdRef) (nsid dtype doper : Nat) (s : State) : Result :=
  .next (submit s q (.dirReceive nsid dtype doper))
def execFormatNvm (q : CmdRef) (nsid lbaf ses : Nat) (s : State) : Result := .next (submit s q (.formatNvm nsid lbaf ses))
def execSanitizeBlockErase (q : CmdRef) (s : State) : Result := .next (submit s q (.sanitize false))
def execSanitizeCryptoErase (q : CmdRef) (s : State) : Result := .next (submit s q (.sanitize true))
def execSanitizeDone (s : State) : Result := .next (sanitizeDone s)
def execInvalidCommandOpcode (q : CmdRef) (opcode : Nat) (s : State) : Result := .next (submit s q (.invalid opcode))

/-! ### The rows: vendor commands -/

def execFlowBind (q : CmdRef) (cdw10 : BitVec 32) (image : List Byte) (s : State) : Result :=
  .next (submit s q (.flowBind cdw10.toNat image))
def execFlowUnbind (q : CmdRef) (cdw10 : BitVec 32) (s : State) : Result := .next (submit s q (.flowUnbind cdw10.toNat))
def execProgramSlotLoad (q : CmdRef) (cdw10 : BitVec 32) (image : List Byte) (s : State) : Result :=
  .next (submit s q (.programLoad cdw10.toNat image))
def execStepTableLoad (q : CmdRef) (image : List Byte) (s : State) : Result := .next (submit s q (.stepTableLoad image))
def execCodecProfileLoad (q : CmdRef) (image : List Byte) (s : State) : Result := .next (submit s q (.profileLoad image))
def execAutomatonLoad (q : CmdRef) (image : List Byte) (s : State) : Result := .next (submit s q (.automatonLoad image))
def execRuleTableLoadReplace (q : CmdRef) (hi : BitVec 30) (image : List Byte) (s : State) : Result :=
  .next (submit s q (.ruleLoad 0 hi.toNat image))
def execRuleTableLoadInsert (q : CmdRef) (hi : BitVec 30) (image : List Byte) (s : State) : Result :=
  .next (submit s q (.ruleLoad 1 hi.toNat image))
def execRuleTableLoadDelete (q : CmdRef) (hi : BitVec 30) (image : List Byte) (s : State) : Result :=
  .next (submit s q (.ruleLoad 2 hi.toNat image))
def execPersonalityLoad (q : CmdRef) (cdw10 : BitVec 32) (image : List Byte) (s : State) : Result :=
  .next (submit s q (.personalityLoad cdw10.toNat image))
def execFabricConfigureLoad (q : CmdRef) (hi : BitVec 30) (image : List Byte) (s : State) : Result :=
  .next (submit s q (.fabricLoad hi.toNat image))
def execFabricConfigureTags (q : CmdRef) (hi : BitVec 30) (records : List Byte) (s : State) : Result :=
  .next (submit s q (.fabricTags hi.toNat records))
def execHoldupRequalify (q : CmdRef) (hi : BitVec 30) (s : State) : Result := .next (submit s q (.requalify 0 hi.toNat []))
def execHoldupRequalifyProfile (q : CmdRef) (hi : BitVec 30) (data : List Byte) (s : State) : Result :=
  .next (submit s q (.requalify 1 hi.toNat data))
def execHoldupThermalProfile (q : CmdRef) (hi : BitVec 30) (data : List Byte) (s : State) : Result :=
  .next (submit s q (.requalify 2 hi.toNat data))

/-! ### The rows: I/O, computational programs, Subsystem Local Memory -/

def execFlush (q : CmdRef) (nsid : Nat) (s : State) : Result := .next (submit s q (.flush nsid))
def execWrite (q : CmdRef) (nsid slba nlb dtype dspec : Nat) (fua : Bool) (ptr : DataPtr) (s : State) : Result :=
  .next (submit s q (.write nsid slba nlb dtype dspec fua ptr))
def execRead (q : CmdRef) (nsid slba nlb : Nat) (bad : List Nat) (s : State) : Result := .next (submit s q (.read nsid slba nlb bad))
def execDatasetManagement (q : CmdRef) (nsid : Nat) (ranges : List LbaRange) (s : State) : Result :=
  .next (submit s q (.dsm nsid ranges))
def execVerify (q : CmdRef) (nsid slba nlb : Nat) (bad : List Nat) (s : State) : Result :=
  .next (submit s q (.verify nsid slba nlb bad))
def execParcelRead (q : CmdRef) (nsid slba : Nat) (cdw12 : BitVec 32) (bad : List Nat) (s : State) : Result :=
  .next (submit s q (.parcelRead nsid slba cdw12.toNat bad))
def execLoadProgram (q : CmdRef) (pind : Nat) (image : List Byte) (s : State) : Result := .next (submit s q (.loadProgram pind image))
def execProgramActivationManagement (q : CmdRef) (pind : Nat) (act : Bool) (s : State) : Result :=
  .next (submit s q (.programActivate pind act))
def execMemoryRangeSetManagement (q : CmdRef) (m : SetMgmt) (s : State) : Result := .next (submit s q (.rangeSet m))
def execExecuteProgram (q : CmdRef) (pind rsid : Nat) (p0 p1 p2 : BitVec 32) (s : State) : Result :=
  .next (submit s q (.execute pind rsid p0.toNat p1.toNat p2.toNat))
def execCpTimeLimitExpiry (t : TileId) (s : State) : Result := .next (cpTimeLimit s t.val)
def execMemoryCopy (q : CmdRef) (nsid slba nlb slm off : Nat) (bad : List Nat) (s : State) : Result :=
  .next (submit s q (.memoryCopy nsid slba nlb slm off bad))
def execSlmRead (q : CmdRef) (slm off len : Nat) (s : State) : Result := .next (submit s q (.slmRead slm off len))
def execSlmWrite (q : CmdRef) (slm off : Nat) (bytes : List Byte) (s : State) : Result := .next (submit s q (.slmWrite slm off bytes))

end Sys2Proof.Machine
end

