-- ==== Sys2Proof/Machine/Mi.lean ====
section
/-! DEFINITION. Sys2Proof/Machine/Mi.lean: the management endpoint's own commands and control primitives (R300, R427, R485).
Data that NVMe-MI and not the manual lays out is free. -/

namespace Sys2Proof.Machine

/-- Change the endpoint. -/
def updMi (s : State) (g : MiSt → MiSt) : State := { s with nvme := { s.nvme with mi := g s.nvme.mi } }

/-- A dynamic address moves the endpoint from SMBus to I3C. -/
def miAddress (s : State) (addr : Nat) : State := if miUp s then updMi s (fun m => { m with i3c := some addr }) else s

/-- A management command: it answers while the endpoint is alive and not paused; RECOVERY implements Read NVMe-MI Data
Structure and the subsystem poll only (R485). -/
def miCommand (s : State) (inRecovery : Bool) (f : State → State) : State :=
  if !miUp s || s.nvme.mi.paused then s
  else if s.boot.mode = .recovery ∧ !inRecovery then miReply s scInvalidOpcode 0 []
  else f s

/-- A successful response with a page of data. -/
def miPage (s : State) (p : PageBytes) : State :=
  let x := fillPage s p
  miReply x.2 scOk 0 x.1

/-- Read NVMe-MI Data Structure: types 0 to 4. -/
def miReadDs (s : State) (kind : Nat) : State :=
  miCommand s true (fun t =>
    if 4 < kind then miReply t scInvalidField 0 []
    else if kind = 2 then
      let ids := if ctrlExists t 1 then [1, 2] else [1]
      miPage t (stated (leBytes 2 ids.length ++ ids.flatMap (leBytes 2)))
    else miPage t (unstated 32))

def miSubsystemPoll (s : State) : State := miCommand s true (fun t => miPage t (unstated 8))

/-- Controller Health Status Poll, from a controller number on. -/
def miControllerPoll (s : State) (c : Nat) : State :=
  miCommand s false (fun t =>
    let ids := (if ctrlExists t 1 then [1, 2] else [1]).filter (c ≤ ·)
    miPage t (ids.flatMap (fun i => stated (leBytes 2 i) ++ unstated 14)))

/-- Configuration Set: identifier 0xC0 requests the advance of the lifecycle (R427). -/
def miConfigSet (s : State) (id value : Nat) : State :=
  miCommand s false (fun t =>
    if id = 0xC0 then
      let u := lifecycleAdvance t (.core 32) value lcKeyword
      miReply u (if u.drbg.burn.isSome ∧ t.drbg.burn.isNone then scOk else scInvalidField) 0 []
    else if 1 ≤ id ∧ id ≤ 3 then
      miReply (updMi t (fun m => { m with config := tblSet 0 m.config id value })) scOk 0 []
    else miReply t scInvalidField 0 [])

def miConfigGet (s : State) (id : Nat) : State :=
  miCommand s false (fun t =>
    if 1 ≤ id ∧ id ≤ 3 then miReply t scOk (tblGet 0 t.nvme.mi.config id) [] else miReply t scInvalidField 0 [])

/-- A byte of the vital product data. -/
def vpdAt (s : State) (i : Nat) : Byte := tblGet (Config.vpdByte i) s.nvme.mi.vpd i

def miVpdRead (s : State) (off len : Nat) : State :=
  miCommand s false (fun t =>
    if 256 < off + len then miReply t scInvalidField 0 []
    else miReply t scOk 0 ((List.range len).map (fun i => vpdAt t (off + i))))

def miVpdWrite (s : State) (off : Nat) (bs : List Byte) : State :=
  miCommand s false (fun t =>
    if 256 < off + bs.length then miReply t scInvalidField 0 []
    else miReply (updMi t (fun m => { m with vpd := (bs.zipIdx off).foldl (fun v x => tblPut v x.2 x.1) m.vpd })) scOk 0 [])

/-- A control primitive answers while the endpoint is alive, paused or not. -/
def miPrimitive (s : State) (f : State → State) : State :=
  if !miUp s then s else if s.boot.mode = .recovery then miReply s scInvalidOpcode 0 [] else f s

/-- The endpoint's state: bit 6 paused; bits [1:0] 2 while a command is being processed (PRESUMED, NVMe-MI). -/
def miStateWord (s : State) : Nat := 64 * b2n s.nvme.mi.paused + 2 * b2n (!(queueCmds s .mi).isEmpty)

/-- Pause, Resume. -/
def miPause (s : State) (on : Bool) : State :=
  miPrimitive s (fun t =>
    let u := updMi t (fun m => { m with paused := on })
    miReply u scOk (miStateWord u) [])

/-- Abort: the tunnelled commands that have not started end without effect. -/
def miAbort (s : State) : State :=
  miPrimitive s (fun t =>
    let u := ((queueCmds t .mi).filter (fun c => c.st == .waiting)).foldl (fun acc c => endCmd acc c.id scAbortRequested 0 []) t
    miReply u scOk (miStateWord u) [])

def miGetState (s : State) : State := miPrimitive s (fun t => miReply t scOk (miStateWord t) [])

/-! ### The rows -/

def execMiDynamicAddress (addr : Fin 128) (s : State) : Result := .next (miAddress s addr.val)
def execMiReadDataStructure (kind : Nat) (s : State) : Result := .next (miReadDs s kind)
def execMiSubsystemHealthPoll (s : State) : Result := .next (miSubsystemPoll s)
def execMiControllerHealthPoll (c : Nat) (s : State) : Result := .next (miControllerPoll s c)
def execMiConfigurationSet (id value : Nat) (s : State) : Result := .next (miConfigSet s id value)
def execMiConfigurationGet (id : Nat) (s : State) : Result := .next (miConfigGet s id)
def execMiVpdRead (off len : Nat) (s : State) : Result := .next (miVpdRead s off len)
def execMiVpdWrite (off : Nat) (bytes : List Byte) (s : State) : Result := .next (miVpdWrite s off bytes)
def execMiPause (s : State) : Result := .next (miPause s true)
def execMiResume (s : State) : Result := .next (miPause s false)
def execMiAbort (s : State) : Result := .next (miAbort s)
def execMiGetState (s : State) : Result := .next (miGetState s)

end Sys2Proof.Machine
end

