-- ==== Sys2Proof/Machine/Pcie.lean ====
section
/-! DEFINITION. Sys2Proof/Machine/Pcie.lean: PCIe links, port and function resets (R264, R265, R488, R489) and D3hot (R511). -/

namespace Sys2Proof.Machine

/-! ### Resets (R488, R489) -/

/-- A port reset: the link goes to Detect, the function to D0, and the controller is reset. -/
def portReset (s : State) (p : Nat) : State :=
  let s1 := resetCtrl (pcieLinkDown s p) p
  d3Move { s1 with nvme := { s1.nvme with trained := s1.nvme.trained.filter (· != p) } } p false

/-- PE_PERSTp# falls. -/
def perstAssert (s : State) (p : Nat) : State :=
  portReset { s with nvme := { s.nvme with perst := s.nvme.perst.filter (· != p) ++ [p] } } p

/-- PE_PERSTp# rises: PE_BIFUR is sampled as PE_PERST0# rises while PE_PERST1# is low. -/
def perstDeassert (s : State) (p : Nat) (bifur : Bool) : State :=
  if s.nvme.perst.contains p then
    let s1 := { s with nvme := { s.nvme with perst := s.nvme.perst.filter (· != p) } }
    if p = 0 ∧ s1.nvme.perst.contains 1 then s1.setFld R.PCIE_STATUS_BIFUR (b2n bifur) else s1
  else s

/-- A hot reset, which arrives over a link. -/
def hotReset (s : State) (p : Nat) : State := if blockOn s .pcie ∧ ctrlExists s p then portReset s p else s

/-- A function-level reset. -/
def flr (s : State) (p : Nat) : State :=
  if blockOn s .pcie ∧ ctrlExists s p then d3Move ((resetCtrl s p).raise R.PCIE_ISR_FLR) p false else s

/-! ### Links (R264, R265) -/

/-- A link that a port can train to: its rate, its width, FLIT mode at 64 GT/s. -/
def linkOk (s : State) (speed width : Nat) (flit : Bool) : Bool :=
  decide (1 ≤ speed) && decide (speed ≤ 6) && (flit || speed != 6) &&
    ([1, 2, 4, 8].contains width || (width == 16 && !s.flag R.PCIE_STATUS_BIFUR))

/-- A link reaches L0. A link that had trained since its reset has retrained. -/
def pcieLinkUp (s : State) (p speed width : Nat) (flit : Bool) : State :=
  if blockOn s .pcie ∧ ctrlExists s p ∧ !s.nvme.perst.contains p ∧ linkOk s speed width flit then
    let s1 := (s.setFlds [(R.PCIE_LINK_SPEED p, speed), (R.PCIE_LINK_WIDTH p, width), (R.PCIE_LINK_FLIT p, b2n flit),
      (R.PCIE_LINK_L1 p, 0)]).raise R.PCIE_ISR_LINKUP
    if s.nvme.trained.contains p then s1.addWrap (R.PCIE_LINK_RETRAIN p) 1
    else { s1 with nvme := { s1.nvme with trained := s1.nvme.trained ++ [p] } }
  else s

/-- ASPM L1. -/
def pcieL1 (s : State) (p : Nat) (on : Bool) : State := if pcieUp s p then s.setFld (R.PCIE_LINK_L1 p) (b2n on) else s

/-- A function of a trained link moves between D0 and D3hot. -/
def d3hot (s : State) (p : Nat) (d3 : Bool) : State :=
  if pcieUp s p ∧ d3 ≠ s.nvme.d3.contains p then d3Move s p d3 else s

/-! ### The rows -/

def execPerstAssert (p : Fin 2) (s : State) : Result := .next (perstAssert s p.val)
def execPerstDeassert (p : Fin 2) (bifur : Bool) (s : State) : Result := .next (perstDeassert s p.val bifur)
def execHotReset (p : Fin 2) (s : State) : Result := .next (hotReset s p.val)
def execFlr (p : Fin 2) (s : State) : Result := .next (flr s p.val)
def execPcieLinkUp (p : Fin 2) (speed width : Nat) (flit : Bool) (s : State) : Result := .next (pcieLinkUp s p.val speed width flit)
def execPcieLinkDown (p : Fin 2) (s : State) : Result := .next (pcieLinkDown s p.val)
def execD3hotTransition (p : Fin 2) (d3 : Bool) (s : State) : Result := .next (d3hot s p.val d3)
def execPcieL1Entry (p : Fin 2) (s : State) : Result := .next (pcieL1 s p.val true)
def execPcieL1Exit (p : Fin 2) (s : State) : Result := .next (pcieL1 s p.val false)

end Sys2Proof.Machine
end

