-- ==== Sys2Proof/Machine/Siriz.lean ====
section
/-! DEFINITION. Sys2Proof/Machine/Siriz.lean: skips, branches, calls, loads and stores, special registers and the system
instructions (R137 to R150), and the exceptions that come without an instruction's effect. -/

namespace Sys2Proof.Machine

/-! ### Skips (R137) -/

/-- A skip instruction of `own` bytes. -/
def skip (s : State) (c own : Nat) (cond : Core → Bool) : State :=
  issue s c own (fun s1 =>
    let next := nextPc s1 c own
    if cond (s1.core c) then
      (coreFetch s1 c next).andThen (fun h s2 => .ok (next + (if bitOf h 15 then 4 else 2), 2) s2)
    else .ok (next, 1) s1)

def execSkipOnRegisters (c : CoreId) (cond : Cond) (ra rb : Reg) (s : State) : Result :=
  .next (skip s c.val 2 (fun k => condHolds cond (gpr k ra) (gpr k rb)))
def execSkipi (c : CoreId) (cond : Cond) (ra : Reg) (imm : BitVec 16) (s : State) : Result :=
  .next (skip s c.val 4 (fun k => condHolds cond (gpr k ra) (skipImm cond imm)))
def execSeqi (c : CoreId) (ra : Reg) (imm : BitVec 5) (s : State) : Result :=
  .next (skip s c.val 2 (fun k => condHolds .eq (gpr k ra) (sext imm)))
def execSbs (c : CoreId) (ra : Reg) (b : Fin 32) (s : State) : Result :=
  .next (skip s c.val 2 (fun k => (gpr k ra).getLsbD b.val))
def execSbz (c : CoreId) (ra : Reg) (b : Fin 32) (s : State) : Result :=
  .next (skip s c.val 2 (fun k => !(gpr k ra).getLsbD b.val))
def execSfl (c : CoreId) (cond : FlagCond) (s : State) : Result :=
  .next (skip s c.val 2 (fun k => flagHolds cond k.st))

/-! ### Branches, calls and returns -/

/-- Check the words of a CALL frame, ascending (R103, R107): the first that a store could not reach. -/
def checkWords (s : State) (c : Nat) (a : Word) : Nat → Option Trap
  | 0 => none
  | n + 1 =>
    match coreLocate s c .stackWrite a 4 with
    | .error t => some t
    | .ok _ => checkWords s c (a + 4) n

/-- Write words at rising addresses on the stack; an error the target reports leaves the words before it (R104). -/
def pushWords (s : State) (c done : Nat) (a : Word) : List Word → CoreAcc Unit
  | [] => .ok () s
  | x :: xs =>
    match coreStore s c .stackWrite a 4 x.toNat with
    | .ok _ s1 => pushWords s1 c (done + 1) (a + 4) xs
    | .trap t s1 => .trap { t with done := done } s1

/-- Read words at rising addresses from the stack, into temporaries (R104). -/
def popWords (s : State) (c done : Nat) (a : Word) : Nat → CoreAcc (List Word)
  | 0 => .ok [] s
  | n + 1 =>
    match coreLoad s c .stackRead a 4 with
    | .ok v s1 => (popWords s1 c (done + 1) (a + 4) n).andThen (fun vs s2 => .ok (BitVec.ofNat 32 v :: vs) s2)
    | .trap t s1 => .trap { t with done := done } s1

/-- Commit popped registers. -/
def setRegs (k : Core) : List (Reg × Word) → Core
  | [] => k
  | (r, v) :: xs => setRegs (setGpr k r v) xs

/-- CALL (R103, R142). -/
def callBody (c : Nat) (rt : Reg) (m : BitVec 16) (s : State) : CoreAcc (Word × Nat) :=
  let k := s.core c
  let target := gpr k rt
  let sp := gpr k spReg
  let regs := maskRegs m
  let newSp := sp - BitVec.ofNat 32 (4 * (regs.length + 1))
  if m.getLsbD 14 then .trap (illegalTrap (wordCall rt m)) s
  else if target.getLsbD 0 then .trap (targetTrap target) s
  else if sp.toNat % 4 ≠ 0 then .trap (accTrap 4 .stackWrite newSp false) s
  else
    match checkWords s c newSp (regs.length + 1) with
    | some t => .trap t s
    | none =>
      (pushWords s c 0 newSp (nextPc s c 4 :: regs.map (gpr k))).andThen (fun _ s1 =>
        .ok (target, 3 + regs.length) (updCore s1 c (fun x => setGpr x spReg newSp)))

/-- RET (R104, R143). -/
def retBody (c : Nat) (m : BitVec 16) (s : State) : CoreAcc (Word × Nat) :=
  let sp := gpr (s.core c) spReg
  let regs := maskRegs m
  if m.getLsbD 14 then .trap (illegalTrap (wordRet m)) s
  else if sp.toNat % 4 ≠ 0 then .trap (accTrap 4 .stackRead sp false) s
  else
    match coreLoad s c .stackRead sp 4 with
    | .trap t s1 => .trap t s1
    | .ok pc s1 =>
      if bitOf pc 0 then .trap { targetTrap (BitVec.ofNat 32 pc) with done := 1 } s1
      else
        (popWords s1 c 1 (sp + 4) regs.length).andThen (fun vs s2 =>
          .ok (BitVec.ofNat 32 pc, 3 + regs.length)
            (updCore s2 c (fun x => setGpr (setRegs x (regs.zip vs)) spReg (sp + BitVec.ofNat 32 (4 * (regs.length + 1))))))

/-- ST as RTE restores it: DZ stays 1 if it was (R114). -/
def restoredSt (old saved : Word) : Word := (saved &&& 0x33F#32) ||| (old &&& 0x10#32)

/-- RTE (R111). -/
def rteBody (c : Nat) (s : State) : CoreAcc (Word × Nat) :=
  let sp := gpr (s.core c) spReg
  if (s.core c).exdepth = 0 then .trap (illegalTrap 2) s
  else if sp.toNat % 4 ≠ 0 then .trap (accTrap 4 .stackRead sp false) s
  else
    match coreLoad s c .stackRead sp 4 with
    | .trap t s1 => .trap t s1
    | .ok pc s1 =>
      if bitOf pc 0 then .trap { targetTrap (BitVec.ofNat 32 pc) with done := 1 } s1
      else
        (popWords s1 c 1 (sp + 4) 1).andThen (fun vs s2 =>
          .ok (BitVec.ofNat 32 pc, 4) (updCore s2 c (fun x =>
            setGpr { x with st := restoredSt x.st (vs.headD 0), exdepth := x.exdepth - 1 } spReg (sp + 16))))

def execB (c : CoreId) (f : BranchForm) (s : State) : Result :=
  .next (issue s c.val (branchForm 0 f).2 (fun s1 => .ok ((branchForm (s1.core c.val).pc f).1, 2) s1))
def execBr (c : CoreId) (rt : Reg) (s : State) : Result :=
  .next (issue s c.val 2 (fun s1 =>
    let t := gpr (s1.core c.val) rt
    if t.getLsbD 0 then .trap (targetTrap t) s1 else .ok (t, 2) s1))
def execCall (c : CoreId) (rt : Reg) (mask : BitVec 16) (s : State) : Result := .next (issue s c.val 4 (callBody c.val rt mask))
def execRet (c : CoreId) (mask : BitVec 16) (s : State) : Result := .next (issue s c.val 4 (retBody c.val mask))
def execRte (c : CoreId) (s : State) : Result := .next (issue s c.val 2 (rteBody c.val))

/-! ### Loads and stores (R145, R146) -/

/-- A load: the value read goes to `rd` through an extension. -/
def loadBody (c : Nat) (kind : AccKind) (a : Word) (n width : Nat) (rd : Reg) (ext : Nat → Word) (s : State) : CoreAcc (Word × Nat) :=
  (coreLoad s c kind a n).andThen (fun v s1 => .ok (nextPc s c width, 1) (updCore s1 c (fun k => setGpr k rd (ext v))))

/-- A store of the low bytes of `rs`. -/
def storeBody (c : Nat) (kind : AccKind) (a : Word) (n width : Nat) (rs : Reg) (s : State) : CoreAcc (Word × Nat) :=
  (coreStore s c kind a n ((gpr (s.core c) rs).toNat % 2 ^ (8 * n))).andThen (fun _ s1 => .ok (nextPc s c width, 1) s1)

/-- A load with a base register and a 16-bit offset. -/
def loadWide (s : State) (c : Nat) (rd ra : Reg) (imm : BitVec 16) (n : Nat) (ext : Nat → Word) : State :=
  issue s c 4 (fun s1 => loadBody c (baseKind ra false) (gpr (s1.core c) ra + sext imm) n 4 rd ext s1)

/-- A store with a base register and a 16-bit offset. -/
def storeWide (s : State) (c : Nat) (rs ra : Reg) (imm : BitVec 16) (n : Nat) : State :=
  issue s c 4 (fun s1 => storeBody c (baseKind ra true) (gpr (s1.core c) ra + sext imm) n 4 rs s1)

def execLdw (c : CoreId) (f : WordForm) (s : State) : Result :=
  .next (issue s c.val (wordForm (s.core c.val) f).2.2.2 (fun s1 =>
    let o := wordForm (s1.core c.val) f
    loadBody c.val (baseKind o.2.1 false) o.2.2.1 4 o.2.2.2 o.1 (BitVec.ofNat 32) s1))
def execLdh (c : CoreId) (rd ra : Reg) (imm : BitVec 16) (s : State) : Result :=
  .next (loadWide s c.val rd ra imm 2 (fun v => sext (BitVec.ofNat 16 v)))
def execLdhu (c : CoreId) (rd ra : Reg) (imm : BitVec 16) (s : State) : Result :=
  .next (loadWide s c.val rd ra imm 2 (fun v => zext (BitVec.ofNat 16 v)))
def execLdb (c : CoreId) (rd ra : Reg) (imm : BitVec 16) (s : State) : Result :=
  .next (loadWide s c.val rd ra imm 1 (fun v => sext (BitVec.ofNat 8 v)))
def execLdbu (c : CoreId) (rd ra : Reg) (imm : BitVec 16) (s : State) : Result :=
  .next (loadWide s c.val rd ra imm 1 (fun v => zext (BitVec.ofNat 8 v)))
def execStw (c : CoreId) (f : WordForm) (s : State) : Result :=
  .next (issue s c.val (wordForm (s.core c.val) f).2.2.2 (fun s1 =>
    let o := wordForm (s1.core c.val) f
    storeBody c.val (baseKind o.2.1 true) o.2.2.1 4 o.2.2.2 o.1 s1))
def execSth (c : CoreId) (rs ra : Reg) (imm : BitVec 16) (s : State) : Result := .next (storeWide s c.val rs ra imm 2)
def execStb (c : CoreId) (rs ra : Reg) (imm : BitVec 16) (s : State) : Result := .next (storeWide s c.val rs ra imm 1)
def execLda (c : CoreId) (rd : Reg) (size : AccSize) (off : BitVec 16) (s : State) : Result :=
  .next (issue s c.val 4 (fun s1 =>
    loadBody c.val .read (shortAddr (s1.core c.val) off) (sizeBytes size) 4 rd (BitVec.ofNat 32) s1))
def execSta (c : CoreId) (rs : Reg) (size : AccSize) (off : BitVec 16) (s : State) : Result :=
  .next (issue s c.val 4 (fun s1 => storeBody c.val .write (shortAddr (s1.core c.val) off) (sizeBytes size) 4 rs s1))

/-! ### Special registers (R88, R89) -/

/-- A read of CYCLE_LO or CYCLE_HI: time beyond the issue costs is a free value (R157, R164); reading CYCLE_LO latches
CYCLE_HI for its next read. -/
def readCycle (s : State) (c : Nat) (hi : Bool) : Word × State :=
  let k := s.core c
  let n := k.cycle + Config.stallCycles s.free
  let s1 := s.fresh.2
  if hi then
    (k.cycHi.getD (BitVec.ofNat 32 (n / 2 ^ 32)), s1.setCore c { k with cycle := n, cycHi := none })
  else (BitVec.ofNat 32 n, s1.setCore c { k with cycle := n, cycHi := some (BitVec.ofNat 32 (n / 2 ^ 32)) })

def execMfs (c : CoreId) (rd : Reg) (sn : Fin 32) (s : State) : Result :=
  .next (issue s c.val 4 (fun s1 =>
    if srPresent sn.val then
      if sn.val = 5 ∨ sn.val = 6 then
        let r := readCycle s1 c.val (sn.val == 6)
        .ok (nextPc s1 c.val 4, 1) (updCore r.2 c.val (fun k => setGpr k rd r.1))
      else .ok (nextPc s1 c.val 4, 1) (updCore s1 c.val (fun k => setGpr k rd (srGet c.val k sn.val)))
    else .trap (illegalTrap (wordMf rd sn.val 0)) s1))

def execMts (c : CoreId) (sn : Fin 32) (ra : Reg) (s : State) : Result :=
  .next (issue s c.val 4 (fun s1 =>
    if srWritable sn.val then
      .ok (nextPc s1 c.val 4, if sn.val = 1 ∨ sn.val = 2 then 1 else 3)
        (updCore s1 c.val (fun k => srSet k sn.val (gpr k ra)))
    else .trap (illegalTrap (wordMf ra sn.val 1)) s1))

/-! ### System instructions (Table 4.6) -/

def execNop (c : CoreId) (s : State) : Result := .next (issueCore s c.val 2 1 id)

/-- WAIT: a request already pending ends it at once. -/
def execWait (c : CoreId) (s : State) : Result :=
  .next (issue s c.val 2 (fun s1 =>
    let pc := nextPc s1 c.val 2
    if irqPending s1 c.val then .ok (pc, 1) s1
    else .ok (pc, 1) (updCore s1 c.val (fun k => { k with pc := pc, cycle := k.cycle + 1, run := .wait }))))

/-- The interrupt of a core that accepts one at this boundary: its exception, with the next instruction as return PC. -/
def takeIrq (s : State) (c : Nat) : State := takeExc s c irqTrap (s.core c).pc

/-- WAIT_WAKE: a pending request ends a WAIT; the interrupt is taken where it is accepted (R148, R150). -/
def execWaitWake (c : CoreId) (s : State) : Result :=
  .next (if (s.core c.val).run = .wait ∧ irqPending s c.val then
    let s1 := updCore s c.val (fun k => { k with run := .run })
    if irqOpen (s1.core c.val) then takeIrq s1 c.val else arrive s1 c.val
  else s)

/-- FENCE: the core's merge entries are written; with the eviction buffer empty it completes (R163, R176). -/
def execFence (c : CoreId) (s : State) : Result :=
  .next (issue s c.val 2 (fun s1 =>
    let s2 := flushMerge s1 (fun e => e.owner == some c.val)
    let pc := nextPc s1 c.val 2
    if (s2.core c.val).ev.isEmpty then .ok (pc, 1) s2
    else .ok (pc, 1) (updCore s2 c.val (fun k => { k with pc := pc, cycle := k.cycle + 1, run := .fence }))))

/-- FENCE_DONE: the eviction buffer has emptied; what it wrote is no longer held in the merge buffers. -/
def execFenceDone (c : CoreId) (s : State) : Result :=
  .next (if (s.core c.val).run = .fence ∧ (s.core c.val).ev.isEmpty then
    let s1 := flushMerge s (fun e => e.owner == some c.val)
    arrive (updCore s1 c.val (fun k => { k with run := .run })) c.val
  else s)

def execTrap (c : CoreId) (n : BitVec 8) (s : State) : Result :=
  .next (issue s c.val 2 (fun s1 =>
    .trap { v := 8, kind := 0, faddr := 0, arg := n.toNat, after := true, target := false, done := 0 } s1))

/-- EXTERNAL_INTERRUPT (R109). -/
def execExternalInterrupt (c : CoreId) (s : State) : Result :=
  .next (if (s.core c.val).run = .run ∧ irqDue s c.val then takeIrq s c.val else s)

/-- ILLEGAL_INSTRUCTION: the core reaches an encoding of Table 4.10. -/
def execIllegalInstruction (c : CoreId) (w : InstrWord) (s : State) : Result :=
  .next (if isIllegal w then issue s c.val (illegalWidth w) (fun s1 => .trap (illegalTrap (illegalFaddr w)) s1) else s)

/-- FETCH_FAULT: the fetch of the first halfword raises an exception. -/
def execFetchFault (c : CoreId) (s : State) : Result :=
  .next (match coreFetch s c.val (s.core c.val).pc with
    | .ok _ _ => s
    | .trap _ _ => issue s c.val 2 (fun s1 => .ok (nextPc s1 c.val 2, 1) s1))

/-! ### Cache maintenance (R151 to R154) -/

/-- The slot that a set-and-way operand names (Table 4.8). -/
def wayOf (c : Nat) (v : Word) : Nat := v.toNat / 64 % cacheSets c * 4 + v.toNat / 2 ^ 30

/-- The check of a CACHE by address (R153): the line's global address, none where it lies in register space. -/
def cacheCheck (s : State) (c : Nat) (kind : AccKind) (a : Word) : Except Trap (Option Nat) :=
  match segCheck (s.core c) kind a 1 with
  | none => .error (accTrap 3 kind a false)
  | some _ =>
    match coreMap s c a.toNat with
    | none => .error (accTrap 7 kind a false)
    | some g =>
      match targetOf s g with
      | .hole => .error (accTrap 7 kind a false)
      | .reg _ => .ok none
      | _ => .ok (some g)

/-- A CACHE instruction: what it does to one slot of its cache, and to all lines. -/
def cacheOp (s : State) (c : Nat) (scope : CacheScope) (instr : Bool) (one : State → Nat → State) (all : State → State) : State :=
  issue s c 4 (fun s1 =>
    let k := s1.core c
    match scope with
    | .addr ra =>
      match cacheCheck s1 c (if instr then .fetch else .read) (gpr k ra) with
      | .error t => .trap t s1
      | .ok none => .ok (nextPc s1 c 4, 2) s1
      | .ok (some g) =>
        match findWay (if instr then k.ic else k.dc) (cacheSets c) g with
        | some (slot, _) => .ok (nextPc s1 c 4, 2) (one s1 slot)
        | none => .ok (nextPc s1 c 4, 2) s1
    | .setWay ra => .ok (nextPc s1 c 4, 2) (one s1 (wayOf c (gpr k ra)))
    | .all => .ok (nextPc s1 c 4, if c < 32 then 512 else 1024) (all s1))

def execCacheCleanDc (c : CoreId) (scope : CacheScope) (s : State) : Result :=
  .next (cacheOp s c.val scope false (fun t slot => cleanSlot t c.val slot) (fun t => cleanAll t c.val))
def execCacheInvalidateDc (c : CoreId) (scope : CacheScope) (s : State) : Result :=
  .next (cacheOp s c.val scope false (fun t slot => dropSlot t c.val slot)
    (fun t => (dropAll t c.val).raise (ccDcOk c.val)))
def execCacheCleanInvalidateDc (c : CoreId) (scope : CacheScope) (s : State) : Result :=
  .next (cacheOp s c.val scope false (fun t slot => dropSlot (cleanSlot t c.val slot) c.val slot)
    (fun t => (dropAll (cleanAll t c.val) c.val).raise (ccDcOk c.val)))
def execCacheInvalidateIc (c : CoreId) (scope : CacheScope) (s : State) : Result :=
  .next (cacheOp s c.val scope true (fun t slot => dropISlot t c.val slot)
    (fun t => (dropAllI t c.val).raise (ccIcOk c.val)))

/-! ### The gate routine (R432, R433) -/

/-- The entry of the gate routine. -/
def gateEntry : Word := 0x00800100

/-- A call of the gate routine by a house core that has reached its entry: the result in w0, the detail in w1, free values
in w2 and w3, then the routine's return. `op` is the operation asked for in w0. -/
def gateCall (s : State) (c op : Nat) (f : Core → Nat × Nat × State) : State :=
  let k := s.core c
  if 32 ≤ c ∧ mayIssue s c ∧ k.pc = gateEntry ∧ (gpr k 0).toNat = op then
    let r := f k
    let v2 := Config.freeWord r.2.2.free
    let s1 := r.2.2.fresh.2
    let v3 := Config.freeWord s1.free
    let s2 := updCore s1.fresh.2 c (fun x =>
      setRegs x [(0, BitVec.ofNat 32 r.1), (1, BitVec.ofNat 32 r.2.1), (2, v2), (3, v3)])
    match retBody c 0 s2 with
    | .ok x s3 => retire s3 c x.1 x.2
    | .trap t s3 => takeExc s3 c t k.pc
  else s

/-- Arguments w1 and w2 of a gate call. -/
def gateArg (k : Core) : Nat := (gpr k 1).toNat
def gateSrc (k : Core) : Nat := (gpr k 2).toNat

/-- A call with an operation Table 15.3 does not list returns BADADDR. -/
def gateUndefined (s : State) (c : Nat) : State :=
  let op := (gpr (s.core c) 0).toNat
  if op = 0 ∨ 6 ≤ op then gateCall s c op (fun _ => (gateBadaddr, 0, s)) else s

def execGateErase (c : CoreId) (s : State) : Result :=
  .next (if (gpr (s.core c.val) 0).toNat = 1 then gateCall s c.val 1 (fun k => gateErase s (gateArg k)) else gateUndefined s c.val)
def execGateProgram (c : CoreId) (s : State) : Result :=
  .next (gateCall s c.val 2 (fun k => gateProgram s (gateArg k) (gateSrc k)))
def execGateCommit (c : CoreId) (fault ok : Bool) (s : State) : Result :=
  .next (gateCall s c.val 3 (fun k => gateCommit s (gateArg k) (gateSrc k) fault ok))
def execGateActivate (c : CoreId) (fault ok : Bool) (s : State) : Result :=
  .next (gateCall s c.val 4 (fun k => gateActivate s (gateArg k) fault ok))
def execGateGrown (c : CoreId) (ok0 ok1 : Bool) (s : State) : Result :=
  .next (gateCall s c.val 5 (fun k => gateGrown s (gateArg k) ok0 ok1))

end Sys2Proof.Machine
end

