-- ==== Sys2Proof/Machine/RegCmds.lean ====
section
/-! DEFINITION. Sys2Proof/Machine/RegCmds.lean: the commands that are writes of registers, by any requester, and the debug
and BAR2 accesses (R9 to R12, R54, R267, R491); with the block's own completions that answer them. -/

namespace Sys2Proof.Machine

/-! ### An access and its bus error -/

/-- A register write of 4 or 8 bytes; none is a bus error: any other width, an address no block holds, or a block the
requester does not reach (R9 to R11, R53, R54). -/
def regWriteWd (s : State) (rq : Requester) (off : Nat) (wd : AccWidth) (v : Nat) : Option State :=
  match wd with
  | .w32 => regWrite s rq off v
  | .w64 => regWrite64 s rq off v
  | _ => none

/-- A register read of 4 or 8 bytes. -/
def regReadWd (s : State) (rq : Requester) (off : Nat) (wd : AccWidth) : Option (Nat × State) :=
  match wd with
  | .w32 => regRead s rq off
  | .w64 => regRead64 s rq off
  | _ => none

/-- The address at which a core sees an offset of register space. -/
def coreRegAddr (c off : Nat) : Word :=
  if c < 32 then BitVec.ofNat 32 (0x100000 + off % 0x10000) else BitVec.ofNat 32 (0x20000000 + off)

/-- What a bus error does at the requester of a register write: a core takes the exception (R106); through BAR2 the write
is discarded with PCIE_ISR.BARERR (R267); the debug register reports it (R491). A DMA channel's own rules follow with
the instruction that wrote (R395). -/
def busErrorAt (s : State) (rq : Requester) (off : Nat) : State :=
  match rq with
  | .core c =>
    if mayIssue s c.val then takeExc s c.val (accTrap 7 .write (coreRegAddr c.val off) true) (s.core c.val).pc else s
  | .classA _ => s.raise R.PCIE_ISR_BARERR
  | .classD => { s with tap := { s.tap with dbgStatus := 2 } }
  | .dma _ => s

/-- May a class A access pass BAR2 (R267)? -/
def barOpen (s : State) : Bool := s.flag R.PCIE_CTRL_REGWIN

/-- A register write of any width by a requester. -/
def writeByWd (s : State) (rq : Requester) (off : Nat) (wd : AccWidth) (v : Nat) : State :=
  match rq with
  | .classA _ =>
    if barOpen s then (regWriteWd s rq off wd v).getD (busErrorAt s rq off) else s.raise R.PCIE_ISR_BARERR
  | _ => (regWriteWd s rq off wd v).getD (busErrorAt s rq off)

/-- A 32-bit register write by a requester. -/
def writeBy (s : State) (rq : Requester) (off v : Nat) : State := writeByWd s rq off .w32 v

def execRegisterWrite (rq : Requester) (off : Nat) (wd : AccWidth) (v : BitVec 64) (s : State) : Result :=
  .next (writeByWd s rq off wd v.toNat)

/-! ### Flows, caches, tiles -/

def execFlowCmdActivate (rq : Requester) (flow : Fin 262144) (s : State) : Result :=
  .next (writeBy s rq 0x40010 (flow.val + 2 ^ 18 * 1))
def execFlowCmdDrain (rq : Requester) (flow : Fin 262144) (s : State) : Result :=
  .next (writeBy s rq 0x40010 (flow.val + 2 ^ 18 * 2))

/-- The offset of a core's cache control register. -/
def ccOff (c : Nat) : Nat := if c < 32 then 0x400014 + 0x10000 * c else 0x40 + (c - 32) * 4

/-- The enables a core's cache control register shows. -/
def ccNow (s : State) (c : Nat) : Nat := s.fld (ccIcEn c) + 2 * s.fld (ccDcEn c)

/-- A write of a cache control register that keeps the enables it does not name. -/
def ccWrite (s : State) (rq : Requester) (c set clr act : Nat) : State :=
  writeBy s rq (ccOff c) (((ccNow s c ||| set) &&& (3 ^^^ clr)) + act)

def execCacheEnable (rq : Requester) (c : CoreId) (ic dc : Bool) (s : State) : Result :=
  .next (ccWrite s rq c.val (b2n ic + 2 * b2n dc) 0 0)
def execCacheDisable (rq : Requester) (c : CoreId) (ic dc : Bool) (s : State) : Result :=
  .next (ccWrite s rq c.val 0 (b2n ic + 2 * b2n dc) 0)
def execIcInv (rq : Requester) (c : CoreId) (s : State) : Result := .next (ccWrite s rq c.val 0 0 0x10)
def execDcInv (rq : Requester) (c : CoreId) (s : State) : Result := .next (ccWrite s rq c.val 0 0 0x20)
def execDcClinv (rq : Requester) (c : CoreId) (s : State) : Result := .next (ccWrite s rq c.val 0 0 0x40)
def execInvalidateAllDone (c : CoreId) (s : State) : Result := .next (invalidateDone s c.val)
def execEvictionWrite (c : CoreId) (s : State) : Result := .next (evictHead s c.val)

/-- MERGE_ENTRY_TIMEOUT: 16 cycles of the bank have passed with no write to the entry of a word (R176). -/
def execMergeEntryTimeout (word : Nat) (s : State) : Result :=
  .next (match s.merge.find? (fun e => e.word == word) with
    | some e => writeMerge s e
    | none => s)

/-- The EN bit a write of TILE_CTRL keeps. -/
def tileEn (s : State) (t : Nat) : Nat := s.fld (fldEn (0x400000 + 0x10000 * t))

def execTileReset (rq : Requester) (t : TileId) (s : State) : Result :=
  .next (writeBy s rq (0x400000 + 0x10000 * t.val) (tileEn s t.val + 2))
def execTileResetDone (t : TileId) (s : State) : Result := .next (tileResetDone s t.val)
def execTileDoorbell (rq : Requester) (t : TileId) (v : BitVec 32) (s : State) : Result :=
  .next (writeBy s rq (0x400020 + 0x10000 * t.val) v.toNat)

/-! ### SRAM error correction -/

def execScrubWord (slow : Bool) (s : State) : Result := .next (scrubWord s slow)

/-- ECC_REPAIR with GO. -/
def eccRepair (s : State) (rq : Requester) (kind mid index : Nat) : State :=
  writeBy s rq 0x10024 (mid % 4096 + 2 ^ 12 * kind + 2 ^ 14 * (index % 512) + 2 ^ 31)

def execEccRepairRow (rq : Requester) (mid index : Nat) (s : State) : Result := .next (eccRepair s rq 1 mid index)
def execEccRepairColumn (rq : Requester) (mid index : Nat) (s : State) : Result := .next (eccRepair s rq 2 mid index)
def execEccRepairDone (s : State) : Result := .next (repairDone s)

/-- The writes of an ECC_TEST operation: the macro, the word, the data and check bits of a raw write, then OP. -/
def eccTest (s : State) (rq : Requester) (op mid word : Nat) (d : Option (Nat × Nat)) : State :=
  let en := s.fld R.ECC_TEST_CTRL_EN
  let s1 := writeBy s rq 0x10030 (en + 2 ^ 16 * (mid % 4096))
  let s2 := writeBy s1 rq 0x10034 (word % 2 ^ 15)
  let s3 := match d with
    | some (x, chk) => writeBy (writeBy (writeBy s2 rq 0x10038 (x % 2 ^ 32)) rq 0x1003C (x / 2 ^ 32)) rq 0x10040 chk
    | none => s2
  writeBy s3 rq 0x10030 (en + op * 2 + 2 ^ 16 * (mid % 4096))

def execEccTestRawRead (rq : Requester) (mid word : Nat) (s : State) : Result := .next (eccTest s rq 1 mid word none)
def execEccTestRawWrite (rq : Requester) (mid word : Nat) (data : BitVec 64) (chk : BitVec 8) (s : State) : Result :=
  .next (eccTest s rq 2 mid word (some (data.toNat, chk.toNat)))

/-! ### Marionette, codec unit, rules, translation assists -/

/-- TILE_MCMD. -/
def mcmd (s : State) (rq : Requester) (t cmd tab step : Nat) : State :=
  writeBy s rq (0x400040 + 0x10000 * t) (cmd + tab * 2 ^ 8 + 2 ^ 16 * step)

def execMariStart (rq : Requester) (t : TileId) (tab : Fin 8) (s : State) : Result :=
  .next (mcmd s rq t.val 1 tab.val (s.fld (R.TILE_MCMD_STEP t.val)))
def execMariResume (rq : Requester) (t : TileId) (step : Fin 1024) (s : State) : Result :=
  .next (mcmd s rq t.val 2 (s.fld (R.TILE_MCMD_TAB t.val)) step.val)
def execMariAbort (rq : Requester) (t : TileId) (s : State) : Result :=
  .next (mcmd s rq t.val 3 (s.fld (R.TILE_MCMD_TAB t.val)) (s.fld (R.TILE_MCMD_STEP t.val)))
def execCodecClose (rq : Requester) (t : TileId) (s : State) : Result := .next (writeBy s rq (0x400100 + 0x10000 * t.val) 1)
def execCodecProfileSelect (rq : Requester) (t : TileId) (prof : Fin 256) (s : State) : Result :=
  .next (writeBy s rq (0x400108 + 0x10000 * t.val) prof.val)
def execCodecDqTailWrite (rq : Requester) (idx : BitVec 16) (s : State) : Result := .next (writeBy s rq 0x70018 idx.toNat)
def execTileDjob (rq : Requester) (t : TileId) (desc : Nat) (s : State) : Result :=
  .next (writeBy s rq (0x400114 + 0x10000 * t.val) (desc % 2 ^ 20 + 2 ^ 31))
def execRuleCmdInsert (rq : Requester) (s : State) : Result := .next (writeBy s rq 0x60018 (2 ^ 24 * 1))
def execRuleCmdDelete (rq : Requester) (set : Fin 256) (rid : BitVec 16) (s : State) : Result :=
  .next (writeBy s rq 0x60018 (rid.toNat + 2 ^ 16 * set.val + 2 ^ 24 * 2))
def execFtlaScanVictim (rq : Requester) (lun : Fin 1024) (all : Bool) (s : State) : Result :=
  .next (writeBy s rq 0xB0014 (lun.val + b2n all * 2 ^ 10 + 1 * 2 ^ 11))
def execFtlaScanLeastWorn (rq : Requester) (lun : Fin 1024) (all : Bool) (s : State) : Result :=
  .next (writeBy s rq 0xB0014 (lun.val + b2n all * 2 ^ 10 + 2 * 2 ^ 11))

/-! ### Fabric, watchdog, code store, hold-up, thermal, GPIO -/

def execFabHwtagWrite (rq : Requester) (win : Fin 64) (slot : Fin 1048576) (s : State) : Result :=
  .next (writeBy s rq 0x310040 (win.val + slot.val * 2 ^ 8 + 2 ^ 31))

/-- FAB_TIMESET: the low word, then the high one, which acts (R362). -/
def execFabTimeset (rq : Requester) (t : BitVec 64) (s : State) : Result :=
  .next (writeBy (writeBy s rq 0x310028 (t.toNat % 2 ^ 32)) rq 0x31002C (t.toNat / 2 ^ 32))

def execWatchdogKick (rq : Requester) (v : BitVec 16) (s : State) : Result := .next (writeBy s rq 0x38001C v.toNat)
def execWatchdogBootok (rq : Requester) (s : State) : Result := .next (writeBy s rq 0x380020 1)

/-- CSTORE_ADDR, CSTORE_SRC and CSTORE_CMD with GO: accepted from the gate routine alone (R432). -/
def cstoreGo (s : State) (rq : Requester) (op addr src : Nat) : State :=
  writeBy (writeBy (writeBy s rq 0x350014 addr) rq 0x350018 src) rq 0x350010 (op + 2 ^ 31)

def execCstoreEraseSequence (rq : Requester) (addr : BitVec 26) (s : State) : Result := .next (cstoreGo s rq 1 addr.toNat 0)
def execCstorePageProgram (rq : Requester) (addr : BitVec 26) (src : BitVec 22) (s : State) : Result :=
  .next (cstoreGo s rq 2 addr.toNat src.toNat)
def execCstoreRecordProgram (rq : Requester) (addr : BitVec 26) (src : BitVec 22) (s : State) : Result :=
  .next (cstoreGo s rq 3 addr.toNat src.toNat)
def execCstoreOpDone (ok : Bool) (s : State) : Result := .next (csOpDone s ok)
def execHoldSave (rq : Requester) (s : State) : Result := .next (writeBy s rq 0x360180 1)
def execThermSave (rq : Requester) (s : State) : Result := .next (writeBy s rq 0x370188 1)

/-- GPIO_PINn with an OP, keeping OE and EDGE. -/
def gpioOp (s : State) (rq : Requester) (pin op : Nat) : State :=
  writeBy s rq (0x390040 + pin * 4) (s.fld (R.GPIO_PIN_OE pin) + s.fld (R.GPIO_PIN_EDGE pin) * 2 + 2 ^ 30 * op)

def execGpioClaim (rq : Requester) (pin : Fin 16) (s : State) : Result := .next (gpioOp s rq pin.val 1)
def execGpioRelease (rq : Requester) (pin : Fin 16) (s : State) : Result := .next (gpioOp s rq pin.val 2)

/-! ### BAR2 (R267) -/

/-- An access through BAR2 of a function's port: a write with its value, or a read, whose data go to the host. -/
def bar2 (s : State) (ctrl : Fin 2) (off : Nat) (wd : AccWidth) (w : Option (BitVec 64)) : State :=
  if ¬ barOpen s then s.raise R.PCIE_ISR_BARERR
  else
    match w with
    | some v => writeByWd s (.classA ctrl) off wd v.toNat
    | none =>
      match regReadWd s (.classA ctrl) off wd with
      | some r => r.2
      | none => s.raise R.PCIE_ISR_BARERR

def execBar2Access (ctrl : Fin 2) (off : Nat) (wd : AccWidth) (w : Option (BitVec 64)) (s : State) : Result :=
  .next (bar2 s ctrl off wd w)

/-! ### The DEBUG register (R491) -/

/-- What a debug access leaves in DATA and STATUS. -/
def dbgSet (s : State) (data status : Nat) : State := { s with tap := { s.tap with dbgData := data, dbgStatus := status } }

/-- May the DEBUG register start an access: the instruction is selected, and the part open to class D (R428, R490)? -/
def dbgSelected (s : State) : Bool := s.tap.ir == .debug

/-- A debug read of the word at a global address. -/
def debugRead (s : State) (word : Nat) : State :=
  let a := word * 4
  if ¬ dbgSelected s then s
  else if ¬ classDOpen s then dbgSet s s.tap.dbgData 3
  else
    match targetOf s a with
    | .reg off =>
      match regRead s .classD off with
      | some r => dbgSet r.2 r.1 0
      | none => dbgSet s s.tap.dbgData 2
    | _ =>
      match readGlobal s a 4 xoOther with
      | some (bs, s1, none) => dbgSet s1 (leNat bs) 0
      | some (_, s1, some _) => dbgSet s1 s1.tap.dbgData 2
      | none => dbgSet s s.tap.dbgData 2

/-- A debug write of the word at a global address. -/
def debugWrite (s : State) (word : Nat) (v : Word) : State :=
  let a := word * 4
  if ¬ dbgSelected s then s
  else if ¬ classDOpen s then dbgSet s v.toNat 3
  else
    match targetOf s a with
    | .reg off =>
      match regWrite s .classD off v.toNat with
      | some s1 => dbgSet s1 v.toNat 0
      | none => dbgSet s v.toNat 2
    | _ =>
      match writeGlobal s a (leBytes 4 v.toNat) with
      | some s1 => dbgSet s1 v.toNat 0
      | none => dbgSet s v.toNat 2

def execDebugRead (word : BitVec 46) (s : State) : Result := .next (debugRead s word.toNat)
def execDebugWrite (word : BitVec 46) (v : BitVec 32) (s : State) : Result := .next (debugWrite s word.toNat v)

end Sys2Proof.Machine
end

