-- ==== Sys2Proof/Machine/Dispatch.lean ====
section
/-! DEFINITION. Sys2Proof/Machine/Dispatch.lean: one arm per command. -/

namespace Sys2Proof.Machine

def exec (i : Instr) (s : State) : Host.Outcome State Fault Refusal :=
  match i with
  | .registerWrite rq off wd v => Sys2Proof.Machine.execRegisterWrite rq off wd v s
  | .blockEnable b => Sys2Proof.Machine.execBlockEnable b s
  | .blockDisable b => Sys2Proof.Machine.execBlockDisable b s
  | .blockEnablingDone b => Sys2Proof.Machine.execBlockEnablingDone b s
  | .blockQuiesceDone b => Sys2Proof.Machine.execBlockQuiesceDone b s
  | .blockLock b => Sys2Proof.Machine.execBlockLock b s
  | .rootPllLockLoss => Sys2Proof.Machine.execRootPllLockLoss s
  | .rootPllRelock => Sys2Proof.Machine.execRootPllRelock s
  | .flowBind q cdw10 image => Sys2Proof.Machine.execFlowBind q cdw10 image s
  | .flowUnbind q cdw10 => Sys2Proof.Machine.execFlowUnbind q cdw10 s
  | .flowCmdActivate rq flow => Sys2Proof.Machine.execFlowCmdActivate rq flow s
  | .flowCmdDrain rq flow => Sys2Proof.Machine.execFlowCmdDrain rq flow s
  | .flowCmdDone => Sys2Proof.Machine.execFlowCmdDone s
  | .parcelCut flow => Sys2Proof.Machine.execParcelCut flow s
  | .parcelFetch flow seq bytes => Sys2Proof.Machine.execParcelFetch flow seq bytes s
  | .rateMeterInterval => Sys2Proof.Machine.execRateMeterInterval s
  | .dispatchWaiting => Sys2Proof.Machine.execDispatchWaiting s
  | .parcelTake t => Sys2Proof.Machine.execParcelTake t s
  | .stealProbe thieves => Sys2Proof.Machine.execStealProbe thieves s
  | .stealBackoffExpiry t => Sys2Proof.Machine.execStealBackoffExpiry t s
  | .parcelComplete flow seq => Sys2Proof.Machine.execParcelComplete flow seq s
  | .retRelease => Sys2Proof.Machine.execRetRelease s
  | .headStallExpiry flow => Sys2Proof.Machine.execHeadStallExpiry flow s
  | .headDeadlineExpiry flow => Sys2Proof.Machine.execHeadDeadlineExpiry flow s
  | .rawStore flow seq reject => Sys2Proof.Machine.execRawStore flow seq reject s
  | .gapTimeout flow seq => Sys2Proof.Machine.execGapTimeout flow seq s
  | .nop c => Sys2Proof.Machine.execNop c s
  | .rte c => Sys2Proof.Machine.execRte c s
  | .wait c => Sys2Proof.Machine.execWait c s
  | .waitWake c => Sys2Proof.Machine.execWaitWake c s
  | .fence c => Sys2Proof.Machine.execFence c s
  | .fenceDone c => Sys2Proof.Machine.execFenceDone c s
  | .br c rt => Sys2Proof.Machine.execBr c rt s
  | .trap c n => Sys2Proof.Machine.execTrap c n s
  | .externalInterrupt c => Sys2Proof.Machine.execExternalInterrupt c s
  | .mov c rd rb => Sys2Proof.Machine.execMov c rd rb s
  | .add c f => Sys2Proof.Machine.execAdd c f s
  | .sub c f => Sys2Proof.Machine.execSub c f s
  | .and c f => Sys2Proof.Machine.execAnd c f s
  | .or c f => Sys2Proof.Machine.execOr c f s
  | .xor c f => Sys2Proof.Machine.execXor c f s
  | .andn c rd ra rb => Sys2Proof.Machine.execAndn c rd ra rb s
  | .not c rd rb => Sys2Proof.Machine.execNot c rd rb s
  | .neg c rd rb => Sys2Proof.Machine.execNeg c rd rb s
  | .lsl c f => Sys2Proof.Machine.execLsl c f s
  | .lsr c f => Sys2Proof.Machine.execLsr c f s
  | .asr c f => Sys2Proof.Machine.execAsr c f s
  | .ror c f => Sys2Proof.Machine.execRor c f s
  | .rol c f => Sys2Proof.Machine.execRol c f s
  | .mul c f => Sys2Proof.Machine.execMul c f s
  | .mulh c rd ra rb => Sys2Proof.Machine.execMulh c rd ra rb s
  | .mulhu c rd ra rb => Sys2Proof.Machine.execMulhu c rd ra rb s
  | .adc c f => Sys2Proof.Machine.execAdc c f s
  | .sbc c f => Sys2Proof.Machine.execSbc c f s
  | .min c rd ra rb => Sys2Proof.Machine.execMin c rd ra rb s
  | .max c rd ra rb => Sys2Proof.Machine.execMax c rd ra rb s
  | .minu c rd ra rb => Sys2Proof.Machine.execMinu c rd ra rb s
  | .maxu c rd ra rb => Sys2Proof.Machine.execMaxu c rd ra rb s
  | .addi c f => Sys2Proof.Machine.execAddi c f s
  | .andi c rd ra imm => Sys2Proof.Machine.execAndi c rd ra imm s
  | .ori c rd ra imm => Sys2Proof.Machine.execOri c rd ra imm s
  | .xori c rd ra imm => Sys2Proof.Machine.execXori c rd ra imm s
  | .movi c f => Sys2Proof.Machine.execMovi c f s
  | .movhi c rd imm => Sys2Proof.Machine.execMovhi c rd imm s
  | .adr c rd imm => Sys2Proof.Machine.execAdr c rd imm s
  | .div c rd ra rb rr => Sys2Proof.Machine.execDiv c rd ra rb rr s
  | .divu c rd ra rb rr => Sys2Proof.Machine.execDivu c rd ra rb rr s
  | .sxb c rd rb => Sys2Proof.Machine.execSxb c rd rb s
  | .sxh c rd rb => Sys2Proof.Machine.execSxh c rd rb s
  | .zxb c rd rb => Sys2Proof.Machine.execZxb c rd rb s
  | .zxh c rd rb => Sys2Proof.Machine.execZxh c rd rb s
  | .clz c rd rb => Sys2Proof.Machine.execClz c rd rb s
  | .popc c rd rb => Sys2Proof.Machine.execPopc c rd rb s
  | .bswap c rd rb => Sys2Proof.Machine.execBswap c rd rb s
  | .skipOnRegisters c cond ra rb => Sys2Proof.Machine.execSkipOnRegisters c cond ra rb s
  | .skipi c cond ra imm => Sys2Proof.Machine.execSkipi c cond ra imm s
  | .seqi c ra imm => Sys2Proof.Machine.execSeqi c ra imm s
  | .sbs c ra b => Sys2Proof.Machine.execSbs c ra b s
  | .sbz c ra b => Sys2Proof.Machine.execSbz c ra b s
  | .sfl c cond => Sys2Proof.Machine.execSfl c cond s
  | .ldw c f => Sys2Proof.Machine.execLdw c f s
  | .ldh c rd ra imm => Sys2Proof.Machine.execLdh c rd ra imm s
  | .ldhu c rd ra imm => Sys2Proof.Machine.execLdhu c rd ra imm s
  | .ldb c rd ra imm => Sys2Proof.Machine.execLdb c rd ra imm s
  | .ldbu c rd ra imm => Sys2Proof.Machine.execLdbu c rd ra imm s
  | .stw c f => Sys2Proof.Machine.execStw c f s
  | .sth c rs ra imm => Sys2Proof.Machine.execSth c rs ra imm s
  | .stb c rs ra imm => Sys2Proof.Machine.execStb c rs ra imm s
  | .lda c rd size off => Sys2Proof.Machine.execLda c rd size off s
  | .sta c rs size off => Sys2Proof.Machine.execSta c rs size off s
  | .b c f => Sys2Proof.Machine.execB c f s
  | .call c rt mask => Sys2Proof.Machine.execCall c rt mask s
  | .ret c mask => Sys2Proof.Machine.execRet c mask s
  | .mfs c rd sn => Sys2Proof.Machine.execMfs c rd sn s
  | .mts c sn ra => Sys2Proof.Machine.execMts c sn ra s
  | .cacheCleanDc c scope => Sys2Proof.Machine.execCacheCleanDc c scope s
  | .cacheInvalidateDc c scope => Sys2Proof.Machine.execCacheInvalidateDc c scope s
  | .cacheCleanInvalidateDc c scope => Sys2Proof.Machine.execCacheCleanInvalidateDc c scope s
  | .cacheInvalidateIc c scope => Sys2Proof.Machine.execCacheInvalidateIc c scope s
  | .programSlotLoad q cdw10 image => Sys2Proof.Machine.execProgramSlotLoad q cdw10 image s
  | .cacheEnable rq c ic dc => Sys2Proof.Machine.execCacheEnable rq c ic dc s
  | .cacheDisable rq c ic dc => Sys2Proof.Machine.execCacheDisable rq c ic dc s
  | .icInv rq c => Sys2Proof.Machine.execIcInv rq c s
  | .dcInv rq c => Sys2Proof.Machine.execDcInv rq c s
  | .dcClinv rq c => Sys2Proof.Machine.execDcClinv rq c s
  | .invalidateAllDone c => Sys2Proof.Machine.execInvalidateAllDone c s
  | .evictionWrite c => Sys2Proof.Machine.execEvictionWrite c s
  | .mergeEntryTimeout word => Sys2Proof.Machine.execMergeEntryTimeout word s
  | .tileReset rq t => Sys2Proof.Machine.execTileReset rq t s
  | .tileResetDone t => Sys2Proof.Machine.execTileResetDone t s
  | .tileDoorbell rq t v => Sys2Proof.Machine.execTileDoorbell rq t v s
  | .scrubWord slow => Sys2Proof.Machine.execScrubWord slow s
  | .eccRepairRow rq mid index => Sys2Proof.Machine.execEccRepairRow rq mid index s
  | .eccRepairColumn rq mid index => Sys2Proof.Machine.execEccRepairColumn rq mid index s
  | .eccRepairDone => Sys2Proof.Machine.execEccRepairDone s
  | .eccTestRawRead rq mid word => Sys2Proof.Machine.execEccTestRawRead rq mid word s
  | .eccTestRawWrite rq mid word data chk => Sys2Proof.Machine.execEccTestRawWrite rq mid word data chk s
  | .mariStart rq t tab => Sys2Proof.Machine.execMariStart rq t tab s
  | .mariLoadDone t => Sys2Proof.Machine.execMariLoadDone t s
  | .mariResume rq t step => Sys2Proof.Machine.execMariResume rq t step s
  | .mariAbort rq t => Sys2Proof.Machine.execMariAbort rq t s
  | .mariRunEnd t => Sys2Proof.Machine.execMariRunEnd t s
  | .mariBudgetExpiry t => Sys2Proof.Machine.execMariBudgetExpiry t s
  | .mariNop t => Sys2Proof.Machine.execMariNop t s
  | .mariMov t => Sys2Proof.Machine.execMariMov t s
  | .mariAdd t => Sys2Proof.Machine.execMariAdd t s
  | .mariSub t => Sys2Proof.Machine.execMariSub t s
  | .mariMin t => Sys2Proof.Machine.execMariMin t s
  | .mariMax t => Sys2Proof.Machine.execMariMax t s
  | .mariAnd t => Sys2Proof.Machine.execMariAnd t s
  | .mariOr t => Sys2Proof.Machine.execMariOr t s
  | .mariXor t => Sys2Proof.Machine.execMariXor t s
  | .mariCmpgt t => Sys2Proof.Machine.execMariCmpgt t s
  | .mariCmpge t => Sys2Proof.Machine.execMariCmpge t s
  | .mariCmpeq t => Sys2Proof.Machine.execMariCmpeq t s
  | .mariThr t => Sys2Proof.Machine.execMariThr t s
  | .mariSel t => Sys2Proof.Machine.execMariSel t s
  | .mariShl t => Sys2Proof.Machine.execMariShl t s
  | .mariShr t => Sys2Proof.Machine.execMariShr t s
  | .mariShn t => Sys2Proof.Machine.execMariShn t s
  | .mariPopc t => Sys2Proof.Machine.execMariPopc t s
  | .mariPsum t => Sys2Proof.Machine.execMariPsum t s
  | .mariCpk t => Sys2Proof.Machine.execMariCpk t s
  | .mariCpkp t => Sys2Proof.Machine.execMariCpkp t s
  | .mariHist t => Sys2Proof.Machine.execMariHist t s
  | .mariNsum3 t => Sys2Proof.Machine.execMariNsum3 t s
  | .mariLmax3 t => Sys2Proof.Machine.execMariLmax3 t s
  | .mariGath t => Sys2Proof.Machine.execMariGath t s
  | .stepTableLoad q image => Sys2Proof.Machine.execStepTableLoad q image s
  | .codecClose rq t => Sys2Proof.Machine.execCodecClose rq t s
  | .codecProfileSelect rq t prof => Sys2Proof.Machine.execCodecProfileSelect rq t prof s
  | .codecBlockForm t => Sys2Proof.Machine.execCodecBlockForm t s
  | .codecEncode t => Sys2Proof.Machine.execCodecEncode t s
  | .verifierDecide t failed => Sys2Proof.Machine.execVerifierDecide t failed s
  | .blockOutputWrite t => Sys2Proof.Machine.execBlockOutputWrite t s
  | .codecDqTailWrite rq idx => Sys2Proof.Machine.execCodecDqTailWrite rq idx s
  | .decodeQueueFetch => Sys2Proof.Machine.execDecodeQueueFetch s
  | .decodeJobEnd t => Sys2Proof.Machine.execDecodeJobEnd t s
  | .tileDjob rq t desc => Sys2Proof.Machine.execTileDjob rq t desc s
  | .tileDecodeJobEnd t => Sys2Proof.Machine.execTileDecodeJobEnd t s
  | .codecProfileLoad q image => Sys2Proof.Machine.execCodecProfileLoad q image s
  | .automatonLoad q image => Sys2Proof.Machine.execAutomatonLoad q image s
  | .automatonScan e => Sys2Proof.Machine.execAutomatonScan e s
  | .tcamSearch => Sys2Proof.Machine.execTcamSearch s
  | .ruleTableLoadReplace q hi image => Sys2Proof.Machine.execRuleTableLoadReplace q hi image s
  | .ruleTableLoadInsert q hi image => Sys2Proof.Machine.execRuleTableLoadInsert q hi image s
  | .ruleTableLoadDelete q hi image => Sys2Proof.Machine.execRuleTableLoadDelete q hi image s
  | .ruleCmdInsert rq => Sys2Proof.Machine.execRuleCmdInsert rq s
  | .ruleInsertDone => Sys2Proof.Machine.execRuleInsertDone s
  | .ruleCmdDelete rq set rid => Sys2Proof.Machine.execRuleCmdDelete rq set rid s
  | .ruleDeleteDone => Sys2Proof.Machine.execRuleDeleteDone s
  | .shadowCheck upset => Sys2Proof.Machine.execShadowCheck upset s
  | .perstAssert p => Sys2Proof.Machine.execPerstAssert p s
  | .perstDeassert p bifur => Sys2Proof.Machine.execPerstDeassert p bifur s
  | .hotReset p => Sys2Proof.Machine.execHotReset p s
  | .flr p => Sys2Proof.Machine.execFlr p s
  | .pcieLinkUp p speed width flit => Sys2Proof.Machine.execPcieLinkUp p speed width flit s
  | .pcieLinkDown p => Sys2Proof.Machine.execPcieLinkDown p s
  | .bar2Access ctrl off wd w => Sys2Proof.Machine.execBar2Access ctrl off wd w s
  | .hostReadFailure q seq cto => Sys2Proof.Machine.execHostReadFailure q seq cto s
  | .controllerEnable c asqs acqs => Sys2Proof.Machine.execControllerEnable c asqs acqs s
  | .controllerReset c => Sys2Proof.Machine.execControllerReset c s
  | .shutdownNotify c shn => Sys2Proof.Machine.execShutdownNotify c shn s
  | .shutdownComplete c => Sys2Proof.Machine.execShutdownComplete c s
  | .sqTailDoorbell c sq tail => Sys2Proof.Machine.execSqTailDoorbell c sq tail s
  | .cqHeadDoorbell c cq head => Sys2Proof.Machine.execCqHeadDoorbell c cq head s
  | .commandStart c => Sys2Proof.Machine.execCommandStart c s
  | .commandComplete src => Sys2Proof.Machine.execCommandComplete src s
  | .createIoSq q qid size cqid prio => Sys2Proof.Machine.execCreateIoSq q qid size cqid prio s
  | .createIoCq q qid size vector ien => Sys2Proof.Machine.execCreateIoCq q qid size vector ien s
  | .deleteIoSq q qid => Sys2Proof.Machine.execDeleteIoSq q qid s
  | .deleteIoCq q qid => Sys2Proof.Machine.execDeleteIoCq q qid s
  | .getLogPage q lid nsid off len rae => Sys2Proof.Machine.execGetLogPage q lid nsid off len rae s
  | .identify q cns nsid => Sys2Proof.Machine.execIdentify q cns nsid s
  | .abort q sqid cid => Sys2Proof.Machine.execAbort q sqid cid s
  | .setFeatures q fid nsid value save => Sys2Proof.Machine.execSetFeatures q fid nsid value save s
  | .getFeatures q fid nsid => Sys2Proof.Machine.execGetFeatures q fid nsid s
  | .asyncEventRequest q => Sys2Proof.Machine.execAsyncEventRequest q s
  | .namespaceManagement q m => Sys2Proof.Machine.execNamespaceManagement q m s
  | .namespaceAttachment q nsid attach => Sys2Proof.Machine.execNamespaceAttachment q nsid attach s
  | .firmwareImageDownload q off bytes => Sys2Proof.Machine.execFirmwareImageDownload q off bytes s
  | .firmwareCommitAction0 q slot fault ok => Sys2Proof.Machine.execFirmwareCommitAction0 q slot fault ok s
  | .firmwareCommitAction1 q slot fault ok => Sys2Proof.Machine.execFirmwareCommitAction1 q slot fault ok s
  | .firmwareCommitAction2 q slot fault ok => Sys2Proof.Machine.execFirmwareCommitAction2 q slot fault ok s
  | .deviceSelfTestShort q nsid => Sys2Proof.Machine.execDeviceSelfTestShort q nsid s
  | .deviceSelfTestExtended q nsid => Sys2Proof.Machine.execDeviceSelfTestExtended q nsid s
  | .deviceSelfTestAbort q => Sys2Proof.Machine.execDeviceSelfTestAbort q s
  | .selfTestEnd pass => Sys2Proof.Machine.execSelfTestEnd pass s
  | .directiveSend q nsid dtype doper value => Sys2Proof.Machine.execDirectiveSend q nsid dtype doper value s
  | .directiveReceive q nsid dtype doper => Sys2Proof.Machine.execDirectiveReceive q nsid dtype doper s
  | .formatNvm q nsid lbaf ses => Sys2Proof.Machine.execFormatNvm q nsid lbaf ses s
  | .sanitizeBlockErase q => Sys2Proof.Machine.execSanitizeBlockErase q s
  | .sanitizeCryptoErase q => Sys2Proof.Machine.execSanitizeCryptoErase q s
  | .sanitizeDone => Sys2Proof.Machine.execSanitizeDone s
  | .personalityLoad q cdw10 image => Sys2Proof.Machine.execPersonalityLoad q cdw10 image s
  | .fabricConfigureLoad q hi image => Sys2Proof.Machine.execFabricConfigureLoad q hi image s
  | .fabricConfigureTags q hi records => Sys2Proof.Machine.execFabricConfigureTags q hi records s
  | .holdupRequalify q hi => Sys2Proof.Machine.execHoldupRequalify q hi s
  | .holdupRequalifyProfile q hi data => Sys2Proof.Machine.execHoldupRequalifyProfile q hi data s
  | .holdupThermalProfile q hi data => Sys2Proof.Machine.execHoldupThermalProfile q hi data s
  | .flush q nsid => Sys2Proof.Machine.execFlush q nsid s
  | .write q nsid slba nlb dtype dspec fua ptr => Sys2Proof.Machine.execWrite q nsid slba nlb dtype dspec fua ptr s
  | .read q nsid slba nlb bad => Sys2Proof.Machine.execRead q nsid slba nlb bad s
  | .datasetManagement q nsid ranges => Sys2Proof.Machine.execDatasetManagement q nsid ranges s
  | .verify q nsid slba nlb bad => Sys2Proof.Machine.execVerify q nsid slba nlb bad s
  | .parcelRead q nsid slba cdw12 bad => Sys2Proof.Machine.execParcelRead q nsid slba cdw12 bad s
  | .loadProgram q pind image => Sys2Proof.Machine.execLoadProgram q pind image s
  | .programActivationManagement q pind act => Sys2Proof.Machine.execProgramActivationManagement q pind act s
  | .memoryRangeSetManagement q m => Sys2Proof.Machine.execMemoryRangeSetManagement q m s
  | .executeProgram q pind rsid p0 p1 p2 => Sys2Proof.Machine.execExecuteProgram q pind rsid p0 p1 p2 s
  | .cpTimeLimitExpiry t => Sys2Proof.Machine.execCpTimeLimitExpiry t s
  | .memoryCopy q nsid slba nlb slm off bad => Sys2Proof.Machine.execMemoryCopy q nsid slba nlb slm off bad s
  | .slmRead q slm off len => Sys2Proof.Machine.execSlmRead q slm off len s
  | .slmWrite q slm off bytes => Sys2Proof.Machine.execSlmWrite q slm off bytes s
  | .miDynamicAddress addr => Sys2Proof.Machine.execMiDynamicAddress addr s
  | .miReadDataStructure kind => Sys2Proof.Machine.execMiReadDataStructure kind s
  | .miSubsystemHealthPoll => Sys2Proof.Machine.execMiSubsystemHealthPoll s
  | .miControllerHealthPoll c => Sys2Proof.Machine.execMiControllerHealthPoll c s
  | .miConfigurationSet id value => Sys2Proof.Machine.execMiConfigurationSet id value s
  | .miConfigurationGet id => Sys2Proof.Machine.execMiConfigurationGet id s
  | .miVpdRead off len => Sys2Proof.Machine.execMiVpdRead off len s
  | .miVpdWrite off bytes => Sys2Proof.Machine.execMiVpdWrite off bytes s
  | .miPause => Sys2Proof.Machine.execMiPause s
  | .miResume => Sys2Proof.Machine.execMiResume s
  | .miAbort => Sys2Proof.Machine.execMiAbort s
  | .miGetState => Sys2Proof.Machine.execMiGetState s
  | .nandOpReset lun => Sys2Proof.Machine.execNandOpReset lun s
  | .nandOpRead lun block page => Sys2Proof.Machine.execNandOpRead lun block page s
  | .nandOpReadSlc lun block page => Sys2Proof.Machine.execNandOpReadSlc lun block page s
  | .nandOpProgram lun => Sys2Proof.Machine.execNandOpProgram lun s
  | .nandOpProgramSlc lun => Sys2Proof.Machine.execNandOpProgramSlc lun s
  | .nandOpErase lun block => Sys2Proof.Machine.execNandOpErase lun block s
  | .nandOpRetrySet lun => Sys2Proof.Machine.execNandOpRetrySet lun s
  | .nandOpRetryClear lun => Sys2Proof.Machine.execNandOpRetryClear lun s
  | .nandOpParamRead lun => Sys2Proof.Machine.execNandOpParamRead lun s
  | .nandCmd lun => Sys2Proof.Machine.execNandCmd lun s
  | .nandAddr lun => Sys2Proof.Machine.execNandAddr lun s
  | .nandDin lun => Sys2Proof.Machine.execNandDin lun s
  | .nandDout lun ok bytes => Sys2Proof.Machine.execNandDout lun ok bytes s
  | .nandWait lun => Sys2Proof.Machine.execNandWait lun s
  | .nandPoll lun status => Sys2Proof.Machine.execNandPoll lun status s
  | .nandPollTimeout lun => Sys2Proof.Machine.execNandPollTimeout lun s
  | .nandFeat lun => Sys2Proof.Machine.execNandFeat lun s
  | .nandEnd lun => Sys2Proof.Machine.execNandEnd lun s
  | .unitWrite nsid unit => Sys2Proof.Machine.execUnitWrite nsid unit s
  | .unitTimeout nsid unit => Sys2Proof.Machine.execUnitTimeout nsid unit s
  | .irregularReform => Sys2Proof.Machine.execIrregularReform s
  | .journalCommit => Sys2Proof.Machine.execJournalCommit s
  | .checkpoint => Sys2Proof.Machine.execCheckpoint s
  | .gcVictim => Sys2Proof.Machine.execGcVictim s
  | .gcCommit => Sys2Proof.Machine.execGcCommit s
  | .gcErase lun block ok => Sys2Proof.Machine.execGcErase lun block ok s
  | .ftlaScanVictim rq lun all => Sys2Proof.Machine.execFtlaScanVictim rq lun all s
  | .ftlaScanLeastWorn rq lun all => Sys2Proof.Machine.execFtlaScanLeastWorn rq lun all s
  | .ftlaScanDone => Sys2Proof.Machine.execFtlaScanDone s
  | .damdomSignalDetect p => Sys2Proof.Machine.execDamdomSignalDetect p s
  | .damdomTrainDone p x4 => Sys2Proof.Machine.execDamdomTrainDone p x4 s
  | .damdomStateTimeout p => Sys2Proof.Machine.execDamdomStateTimeout p s
  | .damdomRetryWait p => Sys2Proof.Machine.execDamdomRetryWait p s
  | .flitReceive p fl => Sys2Proof.Machine.execFlitReceive p fl s
  | .nakRepeat p => Sys2Proof.Machine.execNakRepeat p s
  | .ackTimer p => Sys2Proof.Machine.execAckTimer p s
  | .replayTimeout p => Sys2Proof.Machine.execReplayTimeout p s
  | .hello p => Sys2Proof.Machine.execHello p s
  | .helloTimer p => Sys2Proof.Machine.execHelloTimer p s
  | .helloTimeout p => Sys2Proof.Machine.execHelloTimeout p s
  | .nak p => Sys2Proof.Machine.execNak p s
  | .credit p => Sys2Proof.Machine.execCredit p s
  | .treq p dt2 dt3 => Sys2Proof.Machine.execTreq p dt2 dt3 s
  | .trsp p dt => Sys2Proof.Machine.execTrsp p dt s
  | .down p => Sys2Proof.Machine.execDown p s
  | .frameForward p vc => Sys2Proof.Machine.execFrameForward p vc s
  | .probe p => Sys2Proof.Machine.execProbe p s
  | .probeReply p => Sys2Proof.Machine.execProbeReply p s
  | .assign p => Sys2Proof.Machine.execAssign p s
  | .routes p => Sys2Proof.Machine.execRoutes p s
  | .event p => Sys2Proof.Machine.execEvent p s
  | .segmentDiscovery => Sys2Proof.Machine.execSegmentDiscovery s
  | .mresp p => Sys2Proof.Machine.execMresp p s
  | .mreqIdent p => Sys2Proof.Machine.execMreqIdent p s
  | .mreqLog p => Sys2Proof.Machine.execMreqLog p s
  | .mreqFlowq p => Sys2Proof.Machine.execMreqFlowq p s
  | .mreqTimeq p dt => Sys2Proof.Machine.execMreqTimeq p dt s
  | .mreqHwlist p => Sys2Proof.Machine.execMreqHwlist p s
  | .mreqUndefined p => Sys2Proof.Machine.execMreqUndefined p s
  | .openFrame p dt => Sys2Proof.Machine.execOpenFrame p dt s
  | .data p => Sys2Proof.Machine.execData p s
  | .hwr p => Sys2Proof.Machine.execHwr p s
  | .hrd p => Sys2Proof.Machine.execHrd p s
  | .htag p => Sys2Proof.Machine.execHtag p s
  | .fabHwtagWrite rq win slot => Sys2Proof.Machine.execFabHwtagWrite rq win slot s
  | .fabTimeset rq t => Sys2Proof.Machine.execFabTimeset rq t s
  | .timeExchangeTimer dt => Sys2Proof.Machine.execTimeExchangeTimer dt s
  | .timeExchangeStale => Sys2Proof.Machine.execTimeExchangeStale s
  | .dramRequestServe c now fill0 fill1 arrivals => Sys2Proof.Machine.execDramRequestServe c now fill0 fill1 arrivals s
  | .refreshDue c bank => Sys2Proof.Machine.execRefreshDue c bank s
  | .owedRefreshIssue c => Sys2Proof.Machine.execOwedRefreshIssue c s
  | .mr4Poll c rate => Sys2Proof.Machine.execMr4Poll c rate s
  | .retrainPauseDue c => Sys2Proof.Machine.execRetrainPauseDue c s
  | .retrainDeferExpiry c => Sys2Proof.Machine.execRetrainDeferExpiry c s
  | .retrainPauseStart c => Sys2Proof.Machine.execRetrainPauseStart c s
  | .retrainPauseEnd c drift ok => Sys2Proof.Machine.execRetrainPauseEnd c drift ok s
  | .dramScrubLine upset slow => Sys2Proof.Machine.execDramScrubLine upset slow s
  | .dramSegmentInitDone => Sys2Proof.Machine.execDramSegmentInitDone s
  | .dmaClaim vs ch => Sys2Proof.Machine.execDmaClaim vs ch s
  | .dmaRelease v ch => Sys2Proof.Machine.execDmaRelease v ch s
  | .dmaGo v ch => Sys2Proof.Machine.execDmaGo v ch s
  | .dmaPause v ch => Sys2Proof.Machine.execDmaPause v ch s
  | .dmaUnpause v ch => Sys2Proof.Machine.execDmaUnpause v ch s
  | .dmaPauseDrained ch => Sys2Proof.Machine.execDmaPauseDrained ch s
  | .dmaAbort v ch => Sys2Proof.Machine.execDmaAbort v ch s
  | .dmaKick rq ch => Sys2Proof.Machine.execDmaKick rq ch s
  | .dmaMove ch k => Sys2Proof.Machine.execDmaMove ch k s
  | .dmaLoop ch => Sys2Proof.Machine.execDmaLoop ch s
  | .dmaWait ch => Sys2Proof.Machine.execDmaWait ch s
  | .dmaWaitWake e => Sys2Proof.Machine.execDmaWaitWake e s
  | .dmaWaitTimeout ch => Sys2Proof.Machine.execDmaWaitTimeout ch s
  | .dmaSignal ch => Sys2Proof.Machine.execDmaSignal ch s
  | .dmaEnd ch => Sys2Proof.Machine.execDmaEnd ch s
  | .dmaDescriptor ch k => Sys2Proof.Machine.execDmaDescriptor ch k s
  | .dmaCqHeadWrite q v => Sys2Proof.Machine.execDmaCqHeadWrite q v s
  | .dmaEventSet n v => Sys2Proof.Machine.execDmaEventSet n v s
  | .digestClaim vs n => Sys2Proof.Machine.execDigestClaim vs n s
  | .digestRelease v n => Sys2Proof.Machine.execDigestRelease v n s
  | .digestInit v n alg sealed => Sys2Proof.Machine.execDigestInit v n alg sealed s
  | .digestFeed v n => Sys2Proof.Machine.execDigestFeed v n s
  | .digestFeedDone n => Sys2Proof.Machine.execDigestFeedDone n s
  | .digestFinal v n => Sys2Proof.Machine.execDigestFinal v n s
  | .digestAbsorb v n src => Sys2Proof.Machine.execDigestAbsorb v n src s
  | .digestCompare v n agree => Sys2Proof.Machine.execDigestCompare v n agree s
  | .digestWipe v n => Sys2Proof.Machine.execDigestWipe v n s
  | .keysGenerate rq slot ktype usage => Sys2Proof.Machine.execKeysGenerate rq slot ktype usage s
  | .keysErase rq slot => Sys2Proof.Machine.execKeysErase rq slot s
  | .drbgReady => Sys2Proof.Machine.execDrbgReady s
  | .drbgReseed => Sys2Proof.Machine.execDrbgReseed s
  | .noiseTestFailure => Sys2Proof.Machine.execNoiseTestFailure s
  | .keysRngRead rq => Sys2Proof.Machine.execKeysRngRead rq s
  | .vaultAcquire rqs => Sys2Proof.Machine.execVaultAcquire rqs s
  | .vaultRelease rq => Sys2Proof.Machine.execVaultRelease rq s
  | .vaultOpen rq mode decrypt slot => Sys2Proof.Machine.execVaultOpen rq mode decrypt slot s
  | .vaultStep rq => Sys2Proof.Machine.execVaultStep rq s
  | .vaultStepDone bad => Sys2Proof.Machine.execVaultStepDone bad s
  | .vaultClose rq => Sys2Proof.Machine.execVaultClose rq s
  | .vaultUnwrap rq slot kek => Sys2Proof.Machine.execVaultUnwrap rq slot kek s
  | .vaultWrap rq slot kek => Sys2Proof.Machine.execVaultWrap rq slot kek s
  | .vaultLeaseLapse => Sys2Proof.Machine.execVaultLeaseLapse s
  | .lifecycleAdvance rq target keyword => Sys2Proof.Machine.execLifecycleAdvance rq target keyword s
  | .lifecycleBurnDone => Sys2Proof.Machine.execLifecycleBurnDone s
  | .gateErase c => Sys2Proof.Machine.execGateErase c s
  | .gateProgram c => Sys2Proof.Machine.execGateProgram c s
  | .gateCommit c fault ok => Sys2Proof.Machine.execGateCommit c fault ok s
  | .gateActivate c fault ok => Sys2Proof.Machine.execGateActivate c fault ok s
  | .gateGrown c ok0 ok1 => Sys2Proof.Machine.execGateGrown c ok0 ok1 s
  | .cstoreEraseSequence rq addr => Sys2Proof.Machine.execCstoreEraseSequence rq addr s
  | .cstorePageProgram rq addr src => Sys2Proof.Machine.execCstorePageProgram rq addr src s
  | .cstoreRecordProgram rq addr src => Sys2Proof.Machine.execCstoreRecordProgram rq addr src s
  | .cstoreOpDone ok => Sys2Proof.Machine.execCstoreOpDone ok s
  | .watchdogKick rq v => Sys2Proof.Machine.execWatchdogKick rq v s
  | .watchdogBootok rq => Sys2Proof.Machine.execWatchdogBootok rq s
  | .watchdogWarn => Sys2Proof.Machine.execWatchdogWarn s
  | .watchdogExpiry => Sys2Proof.Machine.execWatchdogExpiry s
  | .powerFail pin => Sys2Proof.Machine.execPowerFail pin s
  | .flushEnd us => Sys2Proof.Machine.execFlushEnd us s
  | .postflushRelease die => Sys2Proof.Machine.execPostflushRelease die s
  | .voltageSample mv => Sys2Proof.Machine.execVoltageSample mv s
  | .chargerTick => Sys2Proof.Machine.execChargerTick s
  | .qualChargeTimeout => Sys2Proof.Machine.execQualChargeTimeout s
  | .stringTestSettle mv => Sys2Proof.Machine.execStringTestSettle mv s
  | .stringLoadSample mv => Sys2Proof.Machine.execStringLoadSample mv s
  | .stringTestEnd mv => Sys2Proof.Machine.execStringTestEnd mv s
  | .holdSave rq => Sys2Proof.Machine.execHoldSave rq s
  | .holdSaveDone => Sys2Proof.Machine.execHoldSaveDone s
  | .thermSave rq => Sys2Proof.Machine.execThermSave rq s
  | .thermSaveDone => Sys2Proof.Machine.execThermSaveDone s
  | .cellarReplayWrite => Sys2Proof.Machine.execCellarReplayWrite s
  | .thermalSensorRead readings rpm die => Sys2Proof.Machine.execThermalSensorRead readings rpm die s
  | .fanStall n => Sys2Proof.Machine.execFanStall n s
  | .thermalTrip die => Sys2Proof.Machine.execThermalTrip die s
  | .gpioClaim rq pin => Sys2Proof.Machine.execGpioClaim rq pin s
  | .gpioRelease rq pin => Sys2Proof.Machine.execGpioRelease rq pin s
  | .gpioEdge n level => Sys2Proof.Machine.execGpioEdge n level s
  | .aonPowerOn => Sys2Proof.Machine.execAonPowerOn s
  | .coldReset => Sys2Proof.Machine.execColdReset s
  | .sysRstRelease bifur => Sys2Proof.Machine.execSysRstRelease bifur s
  | .mainRailLow recorded us => Sys2Proof.Machine.execMainRailLow recorded us s
  | .aonRailLow recorded us => Sys2Proof.Machine.execAonRailLow recorded us s
  | .warmReset rq => Sys2Proof.Machine.execWarmReset rq s
  | .houseCoreRun mask => Sys2Proof.Machine.execHouseCoreRun mask s
  | .phaseClocks => Sys2Proof.Machine.execPhaseClocks s
  | .phaseFuses ok => Sys2Proof.Machine.execPhaseFuses ok s
  | .phaseRom => Sys2Proof.Machine.execPhaseRom s
  | .phaseCstore bad => Sys2Proof.Machine.execPhaseCstore bad s
  | .phaseVerify fault0 fault1 => Sys2Proof.Machine.execPhaseVerify fault0 fault1 s
  | .phaseFwload => Sys2Proof.Machine.execPhaseFwload s
  | .phaseKeys ok => Sys2Proof.Machine.execPhaseKeys ok s
  | .phaseDram pop trains => Sys2Proof.Machine.execPhaseDram pop trains s
  | .phaseRecords bad => Sys2Proof.Machine.execPhaseRecords bad s
  | .phaseNand ids bad marks => Sys2Proof.Machine.execPhaseNand ids bad marks s
  | .phaseReplay indexOk fail => Sys2Proof.Machine.execPhaseReplay indexOk fail s
  | .rescueWrite => Sys2Proof.Machine.execRescueWrite s
  | .phaseReady => Sys2Proof.Machine.execPhaseReady s
  | .phaseLimitExpiry => Sys2Proof.Machine.execPhaseLimitExpiry s
  | .tapReset => Sys2Proof.Machine.execTapReset s
  | .tapExtest levels shifted => Sys2Proof.Machine.execTapExtest levels shifted s
  | .tapIdcode => Sys2Proof.Machine.execTapIdcode s
  | .tapSamplePreload levels shifted => Sys2Proof.Machine.execTapSamplePreload levels shifted s
  | .tapHighz => Sys2Proof.Machine.execTapHighz s
  | .tapClamp => Sys2Proof.Machine.execTapClamp s
  | .tapDebug => Sys2Proof.Machine.execTapDebug s
  | .tapBypass => Sys2Proof.Machine.execTapBypass s
  | .debugRead word => Sys2Proof.Machine.execDebugRead word s
  | .debugWrite word v => Sys2Proof.Machine.execDebugWrite word v s
  | .illegalInstruction c w => Sys2Proof.Machine.execIllegalInstruction c w s
  | .fetchFault c => Sys2Proof.Machine.execFetchFault c s
  | .dmaUndefinedInstruction ch => Sys2Proof.Machine.execDmaUndefinedInstruction ch s
  | .invalidCommandOpcode q opcode => Sys2Proof.Machine.execInvalidCommandOpcode q opcode s
  | .frameKindUndefined p => Sys2Proof.Machine.execFrameKindUndefined p s
  | .d3hotTransition p d3 => Sys2Proof.Machine.execD3hotTransition p d3 s
  | .pcieL1Entry p => Sys2Proof.Machine.execPcieL1Entry p s
  | .pcieL1Exit p => Sys2Proof.Machine.execPcieL1Exit p s
  | .serdesPllLock damdom => Sys2Proof.Machine.execSerdesPllLock damdom s
  | .rtcCrystalStart => Sys2Proof.Machine.execRtcCrystalStart s

end Sys2Proof.Machine
end

