-- ==== Sys2Proof/WellFormed.lean ====
section
/-! DEFINITION. Sys2Proof/WellFormed.lean: the commands that can reach the part: operands within the fields of the manual's
encodings and of the commands that carry them. A number whose range a type of Syntax.lean gives is not checked again. -/

namespace Sys2Proof

/-- A number of a field of `w` bits. -/
def inBits (w v : Nat) : Bool := decide (v < 2 ^ w)

/-- A submission queue number: the admin queue or one of 1,024 (R274). -/
def QueueRef.ok (r : QueueRef) : Bool :=
  match r with
  | .host _ q => decide (q ≤ 1024)
  | .mi => true

def CmdRef.ok (q : CmdRef) : Bool :=
  match q with
  | .host _ n _ => decide (n ≤ 1024)
  | .mi => true

/-- A range of logical blocks: NLB is a 16-bit field, 0's based (R278). -/
def lbasOk (nsid slba nlb : Nat) : Bool :=
  inBits 32 nsid && inBits 64 slba && decide (1 ≤ nlb) && decide (nlb ≤ 65536)

/-- The range of a Dataset Management descriptor: a 32-bit count. -/
def LbaRange.ok (r : LbaRange) : Bool := inBits 64 r.slba && inBits 32 r.nlb

/-- Whole dwords of data, as CDW12 counts them (R291). -/
def dwords (bs : List Byte) : Bool := bs.length % 4 == 0

/-- A data pointer's defect is one of the statuses of a malformed SGL (Table 9.12). -/
def DataPtr.ok (p : DataPtr) : Bool :=
  match p with
  | .prp => true
  | .sgl n => n % 4 == 0
  | .bad sc => [0x0D, 0x0E, 0x11].contains sc

def SlmRange.ok (r : SlmRange) : Bool := inBits 32 r.slm && inBits 64 r.off && inBits 32 r.len

def NsMgmt.ok (m : NsMgmt) : Bool :=
  match m with
  | .create nsze flbas => inBits 64 nsze && inBits 8 flbas
  | .delete nsid => inBits 32 nsid
  | .createSlm slm len => inBits 32 slm && inBits 64 len
  | .deleteSlm slm => inBits 32 slm

def SetMgmt.ok (m : SetMgmt) : Bool :=
  match m with
  | .create rsid rs => inBits 16 rsid && rs.all SlmRange.ok
  | .delete rsid => inBits 16 rsid

/-- A path of requesters names each once. -/
def oneEach {α : Type} [BEq α] (l : List α) : Bool :=
  match l with
  | [] => true
  | x :: xs => !xs.contains x && oneEach xs

/-- A LUN number (R302). -/
def lunOk (lun : Nat) : Bool := decide (lun < 1024)

/-- The requests that reach a DRAM channel: at most a line each (R379). -/
def DramReq.ok (r : DramReq) : Bool :=
  inBits 64 r.addr && decide (r.len ≤ 64) && (match r.data with | some d => d.length == r.len | none => true)

/-- Can a command reach the part as it stands? -/
def WellFormed (i : Instr) : Bool :=
  match i with
  | .registerWrite _ off _ _ => inBits 32 off
  | .bar2Access _ off _ _ => decide (off < 0x800000)
  | .flowBind q _ img | .programSlotLoad q _ img | .personalityLoad q _ img => q.ok && dwords img
  | .ruleTableLoadReplace q _ img | .ruleTableLoadInsert q _ img | .ruleTableLoadDelete q _ img => q.ok && dwords img
  | .fabricConfigureLoad q _ img | .fabricConfigureTags q _ img => q.ok && dwords img
  | .holdupRequalifyProfile q _ d | .holdupThermalProfile q _ d => q.ok && dwords d
  | .stepTableLoad q img | .codecProfileLoad q img | .automatonLoad q img => q.ok && dwords img
  | .loadProgram q pind img => q.ok && inBits 16 pind && dwords img
  | .flowUnbind q _ | .holdupRequalify q _ | .asyncEventRequest q | .deviceSelfTestAbort q => q.ok
  | .sanitizeBlockErase q | .sanitizeCryptoErase q => q.ok
  | .parcelFetch _ seq bs => inBits 32 seq && !bs.isEmpty
  | .parcelComplete _ seq | .rawStore _ seq _ | .gapTimeout _ seq => inBits 32 seq
  | .stealProbe ts => oneEach ts && !ts.isEmpty
  | .hostReadFailure q seq _ => q.ok && (match seq with | some n => inBits 32 n | none => true)
  | .pcieLinkUp _ speed width _ => decide (1 ≤ speed) && decide (speed ≤ 6) && [1, 2, 4, 8, 16].contains width
  | .controllerEnable _ a b => decide (a ≤ 0xFFF) && decide (b ≤ 0xFFF)
  | .sqTailDoorbell _ q v | .cqHeadDoorbell _ q v => decide (q ≤ 1024) && inBits 16 v
  | .commandComplete r => r.ok
  | .createIoSq q qid size cqid _ => q.ok && inBits 16 qid && decide (1 ≤ size) && decide (size ≤ 65536) && inBits 16 cqid
  | .createIoCq q qid size vec _ => q.ok && inBits 16 qid && decide (1 ≤ size) && decide (size ≤ 65536) && inBits 16 vec
  | .deleteIoSq q qid | .deleteIoCq q qid => q.ok && inBits 16 qid
  | .getLogPage q lid nsid off len _ => q.ok && inBits 8 lid && inBits 32 nsid && inBits 64 off && inBits 34 len
  | .identify q cns nsid => q.ok && inBits 8 cns && inBits 32 nsid
  | .abort q sqid _ => q.ok && inBits 16 sqid
  | .setFeatures q fid nsid v _ => q.ok && inBits 8 fid && inBits 32 nsid && inBits 64 v
  | .getFeatures q fid nsid => q.ok && inBits 8 fid && inBits 32 nsid
  | .namespaceManagement q m => q.ok && m.ok
  | .namespaceAttachment q nsid _ => q.ok && inBits 32 nsid
  | .firmwareImageDownload q off bs => q.ok && inBits 34 off && dwords bs
  | .firmwareCommitAction0 q slot _ _ | .firmwareCommitAction1 q slot _ _ | .firmwareCommitAction2 q slot _ _ => q.ok && inBits 3 slot
  | .deviceSelfTestShort q nsid | .deviceSelfTestExtended q nsid => q.ok && inBits 32 nsid
  | .directiveSend q nsid ty op v => q.ok && inBits 32 nsid && inBits 8 ty && inBits 8 op && inBits 32 v
  | .directiveReceive q nsid ty op => q.ok && inBits 32 nsid && inBits 8 ty && inBits 8 op
  | .formatNvm q nsid lbaf ses => q.ok && inBits 32 nsid && inBits 6 lbaf && inBits 3 ses
  | .flush q nsid => q.ok && inBits 32 nsid
  | .write q nsid slba nlb ty spec _ ptr => q.ok && lbasOk nsid slba nlb && inBits 4 ty && inBits 16 spec && ptr.ok
  | .read q nsid slba nlb _ | .verify q nsid slba nlb _ => q.ok && lbasOk nsid slba nlb
  | .datasetManagement q nsid rs => q.ok && inBits 32 nsid && rs.all LbaRange.ok && !rs.isEmpty && decide (rs.length ≤ 256)
  | .parcelRead q nsid slba _ _ => q.ok && inBits 32 nsid && inBits 64 slba
  | .programActivationManagement q pind _ => q.ok && inBits 16 pind
  | .memoryRangeSetManagement q m => q.ok && m.ok
  | .executeProgram q pind rsid _ _ _ => q.ok && inBits 16 pind && inBits 16 rsid
  | .memoryCopy q nsid slba nlb slm off _ => q.ok && lbasOk nsid slba nlb && inBits 32 slm && inBits 64 off
  | .slmRead q slm off len => q.ok && inBits 32 slm && inBits 64 off && inBits 32 len
  | .slmWrite q slm off bs => q.ok && inBits 32 slm && inBits 64 off && dwords bs
  | .invalidCommandOpcode q op => q.ok && inBits 8 op
  | .miReadDataStructure k => inBits 8 k
  | .miControllerHealthPoll c => inBits 16 c
  | .miConfigurationSet id v => inBits 8 id && inBits 32 v
  | .miConfigurationGet id => inBits 8 id
  | .miVpdRead off len => inBits 16 off && inBits 16 len
  | .miVpdWrite off bs => inBits 16 off && inBits 16 bs.length
  | .eccRepairRow _ m i | .eccRepairColumn _ m i | .eccTestRawRead _ m i => inBits 12 m && inBits 16 i
  | .eccTestRawWrite _ m w _ _ => inBits 12 m && inBits 16 w
  | .tileDjob _ _ d => d % 64 == 0 && inBits 40 d
  | .shadowCheck u => (match u with | some x => inBits 13 x.1 | none => true)
  | .nandOpReset lun | .nandOpProgram lun | .nandOpProgramSlc lun | .nandOpRetrySet lun | .nandOpRetryClear lun => lunOk lun
  | .nandOpParamRead lun | .nandCmd lun | .nandAddr lun | .nandDin lun | .nandWait lun | .nandPoll lun _ => lunOk lun
  | .nandPollTimeout lun | .nandFeat lun | .nandEnd lun | .nandDout lun _ _ => lunOk lun
  | .nandOpRead lun b p | .nandOpReadSlc lun b p => lunOk lun && inBits 26 b && inBits 26 p
  | .nandOpErase lun b | .gcErase lun b _ => lunOk lun && inBits 26 b
  | .unitWrite nsid u | .unitTimeout nsid u => decide (1 ≤ nsid) && decide (nsid ≤ 256) && inBits 40 u
  | .flitReceive _ fl => fl.length == 256
  | .dramRequestServe _ _ _ _ rs => rs.all DramReq.ok
  | .dmaClaim vs _ | .digestClaim vs _ => oneEach vs && !vs.isEmpty
  | .vaultAcquire rs => oneEach rs && !rs.isEmpty
  | .voltageSample mv => mv.length == 4
  | .thermalSensorRead rs rpm _ => rs.length == 8 && rpm.length == 4
  | .phaseNand _ bad _ => bad.all lunOk
  | .tapExtest a b | .tapSamplePreload a b => inBits 512 a && inBits 512 b
  | _ => true

end Sys2Proof
end

