-- ==== Sys2Proof/Safety.lean ====
section
/-! DEFINITION. Sys2Proof/Safety.lean: what the claims call a well-formed state and a safe step. -/

namespace Sys2Proof.Machine

/-- The canonical form of memory: addresses rising, no byte listed that reads as an unlisted one. -/
abbrev Memory.wf (m : List (Nat × Byte)) : Bool := tblWf 0 m

/-- The canonical form of the register fields. -/
abbrev Registers.wf (r : List (Nat × Nat)) : Bool := tblWf 0 r

/-- The lifecycle is one of the four states of Table 14.5, and a burn in progress leads to the next (R427). -/
def LifecycleInv (s : State) : Prop := s.fuses.lc ≤ 3 ∧ ∀ n, s.drbg.burn = some n → n = s.fuses.lc + 1 ∧ n ≤ 3

/-! ### What the completion claims speak of -/

/-- Does a 32-bit register write by a requester reach a block: it may (R54), and through BAR2 the window is open (R267)? -/
def reaches (s : State) (rq : Requester) (b : BlockId) : Bool :=
  mayReach s rq b && (match rq with | .classA _ => barOpen s | _ => true)

/-- May a requester write the cache control register of a core with effect (R54, R168)? -/
def mayControlCache (s : State) (rq : Requester) (c : CoreId) : Bool :=
  if h : c.val < 32 then
    reaches s rq (.tile ⟨c.val, h⟩) && !((isHouse rq || (match rq with | .classA _ => true | _ => false)) && (s.tile c.val).job.isSome)
  else reaches s rq .sys && !(isHouse rq && !isCore rq c.val)

/-- Does a core run, among 36, so that what it completes is written back? -/
def coreRuns (s : State) (c : Nat) : Bool := (s.core c).run == .run && s.cores.length == 36

/-- Is an address no parcel gate of the core? -/
def offGate (c : Nat) (pc : Word) : Bool := decide (32 ≤ c) || pc != gateAddr

/-- The state after the fetch of an instruction of `width` bytes that a core issues now, where it neither stands at the parcel
gate nor would fall through to it. -/
def issued (s : State) (c width : Nat) : Option State :=
  if mayIssue s c && !atGate s c then
    match fetchInstr s c width with
    | .ok _ s1 => if coreRuns s1 c && offGate c ((s1.core c).pc + BitVec.ofNat 32 width) then some s1 else none
    | .trap _ _ => none
  else none

/-- The halfword at an address, where its fetch raises nothing, and the state after it. -/
def fetchedAt (s : State) (c : Nat) (a : Word) : Option (Nat × State) :=
  match coreFetch s c a with
  | .ok h s1 => if coreRuns s1 c then some (h, s1) else none
  | .trap _ _ => none

/-- The value a core's load gives, where it raises nothing, and the state after it. -/
def loadedAt (s : State) (c : Nat) (kind : AccKind) (a : Word) (n : Nat) : Option (Nat × State) :=
  match coreLoad s c kind a n with
  | .ok v s1 => if coreRuns s1 c then some (v, s1) else none
  | .trap _ _ => none

/-- The global address an access reaches, and whether a segment makes it uncached, where the address checks raise nothing. -/
def locatedAt (s : State) (c : Nat) (kind : AccKind) (a : Word) (n : Nat) : Option (Nat × Bool) :=
  match coreLocate s c kind a n with
  | .ok x => some x
  | .error _ => none

/-- The state after a core's store, where it raises nothing. -/
def storedAt (s : State) (c : Nat) (kind : AccKind) (a : Word) (n v : Nat) : Option State :=
  match coreStore s c kind a n v with
  | .ok _ s1 => if coreRuns s1 c then some s1 else none
  | .trap _ _ => none

/-- The state after a core has written the words of a frame at rising addresses, where no write raises anything. -/
def pushedAt (s : State) (c : Nat) (a : Word) (xs : List Word) : Option State :=
  match pushWords s c 0 a xs with
  | .ok _ s1 => if coreRuns s1 c then some s1 else none
  | .trap _ _ => none

/-- The words a core reads at rising addresses, where no read raises anything, and the state after it. -/
def poppedAt (s : State) (c : Nat) (a : Word) (n : Nat) : Option (List Word × State) :=
  match popWords s c 0 a n with
  | .ok vs s1 => if coreRuns s1 c then some (vs, s1) else none
  | .trap _ _ => none

/-- A core goes on at an address with registers `k`, `cost` cycles later. -/
def goneTo (s : State) (c : Nat) (k : Core) (pc : Word) (cost : Nat) : State :=
  s.setCore c { k with pc := pc, cycle := k.cycle + cost }

/-- A core has completed an instruction of `width` bytes with registers `k`. -/
def completed (s : State) (c : Nat) (k : Core) (width cost : Nat) : State :=
  goneTo s c k ((s.core c).pc + BitVec.ofNat 32 width) cost

/-- The state after an exception's frame is written, where the exception ends no job and is no double fault. -/
def framedAt (s : State) (c : Nat) (t : Trap) (ret : Word) : Option State :=
  let k := s.core c
  if (k.noVec && decide (c < 32)) || decide (k.exdepth = 15) || (gpr k spReg).toNat % 4 != 0 then none
  else
    match pushFrame (s.setCore c { k with st := handlerSt k }) c (gpr k spReg) [t.faddr, causeWord t, k.st, ret] with
    | some s1 => if coreRuns s1 c then some s1 else none
    | none => none

/-- A core enters an exception's handler: `s` is the state that raised it, `s1` the one after its frame. -/
def entered (s s1 : State) (c : Nat) (t : Trap) : State :=
  let k := s.core c
  s1.setCore c { setGpr (s1.core c) spReg (gpr k spReg - 16) with
    exdepth := k.exdepth + 1, pc := vectorAddr k.vbase t.v, lastCause := causeWord t,
    cycle := (s1.core c).cycle + trapCost t }

/-- The exception that the fetch at PC raises, and the state after it. -/
def fetchTrap (s : State) (c : Nat) : Option (Trap × State) :=
  match coreFetch s c (s.core c).pc with
  | .ok _ _ => none
  | .trap t s1 => some (t, s1)

/-- The global address that a CACHE by address names, where its check raises nothing and it lies outside register space. -/
def cacheLine (s : State) (c : Nat) (kind : AccKind) (a : Word) : Option Nat :=
  match cacheCheck s c kind a with
  | .ok g => g
  | .error _ => none

/-- The registers as the gate routine leaves them before its return. -/
def gateAnswer (c : Nat) (r : Nat × Nat × State) : State :=
  updCore r.2.2.fresh.2.fresh.2 c (fun x =>
    setRegs x [(0, BitVec.ofNat 32 r.1), (1, BitVec.ofNat 32 r.2.1), (2, Config.freeWord r.2.2.free),
      (3, Config.freeWord (r.2.2.free + 1))])

/-! ### Marionettes, DMA, frames and NVMe commands -/

/-- The due step of a tile, where its operation is `code`. -/
def dueAs (s : State) (t code : Nat) : Option Step :=
  match dueStep s t with
  | some st => if st.op = code then some st else none
  | none => none

/-- What a fetch of stream operands gives, where the marionette does not stop on it. -/
def gotOf {α : Type} (g : Got α) : Option (α × State) := match g with | .ok v s => some (v, s) | .stop _ _ => none

/-- The state after a step's result has gone into its output stream, where the step has one and there is room. -/
def puttable (s : State) (t : Nat) (st : Step) (e : Exec) : Option State :=
  if st.op ≠ 0 ∧ (st.dst = 8 ∨ st.dst = 9) then
    match putStream s t (st.dst - 8) (streamBytes e) with | .done s2 => some s2 | _ => none
  else some s

/-- What a DMA access gives, where it raises nothing, with the state after it. -/
def doneAt {α : Type} (r : DmaAcc α) : Option (α × State) := match r with | .ok x s => some (x, s) | .bad _ _ _ => none

/-- The instruction that program channel `ch` has fetched, of opcode `op`, with the state after its read. -/
def dmaFetched (s : State) (ch op : Nat) : Option (List Byte × State) :=
  if dmaIsDesc ch ∨ dmaState s ch ≠ dmaRunning then none
  else
    match dmaRead s ch (dmaPc s ch) 32 with
    | .ok bs s1 => if dmaOp bs = op then some (bs, s1) else none
    | .bad _ _ _ => none

/-- The oldest frame for this node at a port that satisfies a test, where it is acted on, and the state after it is taken. -/
def frameTaken (s : State) (p : Nat) (ok : Frame → Bool) : Option (Frame × State) :=
  match headVc s p (fun f => ok f && forUs s f) with
  | none => none
  | some (vc, f) => if vc ≠ 1 ∧ ¬ blockOn s .fab then none else some (f, popFrame s p vc)

/-- Is an opcode none of the device's (R272)? -/
def isInvalid (op : NvmeOp) : Bool := match op with | .invalid _ => true | _ => false

/-- The state in which an arriving command starts, and the command: its queue gives it up, arbitration picks it at once and
nothing holds it back (R275, R276, R283); it came through a queue that has its opcode, or is none of the device's. -/
def startsAtOnce (s : State) (q : CmdRef) (op : NvmeOp) : Option (State × Cmd) :=
  match q with
  | .mi => none
  | .host k _ _ =>
    if canFetch s q then
      let s1 := enterCmd s q op
      match arbChoice s1 k with
      | none => none
      | some (n, cls, anew) =>
        match runnable s1 (.host k n) with
        | none => none
        | some c =>
          if c.id = nextId s q ∧ c.op = op ∧ c.src = q ∧ c.xfer = false ∧ opMisplaced c = isInvalid op then
            some (updCmd (arbServed s1 k n cls anew) c.id (fun d => { d with st := .started }), c)
          else none
    else none

/-- A command has ended as it started. -/
def ended (s : State) (c : Cmd) (st dw0 : Nat) (data : List Byte) : State := noteWaits (endCmd s c.id st dw0 data)

/-- The namespace that a Namespace Management command creates, and the state after it. -/
def nsCreated (s : State) (nsze flbas : Nat) : Option (Nat × State) :=
  match nsCreate s nsze flbas with
  | .ok r => some r
  | .error _ => none

/-- The plan of an Execute Program that nothing refuses. -/
def cpPlanned (s : State) (ctrl pind rsid p2 : Nat) : Option CpPlan :=
  match cpPlan s ctrl pind rsid p2 with
  | .ok p => some p
  | .error _ => none

/-! ### Frames -/

def aluTarget : AluForm → Reg × Nat
  | .short rd _ => (rd, 2)
  | .wide rd _ _ => (rd, 4)
def shiftTarget : ShiftForm → Reg × Nat
  | .short rd _ => (rd, 2)
  | .imm5 rd _ => (rd, 2)
  | .wide rd _ _ => (rd, 4)
  | .imm6 rd _ _ => (rd, 4)
def addiTarget : AddiForm → Reg × Nat
  | .short rd _ => (rd, 2)
  | .wide rd _ _ => (rd, 4)
def moviTarget : MoviForm → Reg × Nat
  | .short rd _ => (rd, 2)
  | .wide rd _ => (rd, 4)

/-- Of an instruction that writes one general register alone: its core, the register, its width in bytes, and the flags of ST
that Table 4.4a lets it write (bit 0 Z, 1 N, 2 C, 3 V). -/
def regOnly (i : Instr) : Option (CoreId × Reg × Nat × Nat) :=
  match i with
  | .add c f | .sub c f | .adc c f | .sbc c f => some (c, (aluTarget f).1, (aluTarget f).2, 15)
  | .and c f | .or c f | .xor c f | .mul c f => some (c, (aluTarget f).1, (aluTarget f).2, 3)
  | .andn c rd _ _ | .mulh c rd _ _ | .mulhu c rd _ _ | .min c rd _ _ | .max c rd _ _ | .minu c rd _ _ | .maxu c rd _ _ =>
    some (c, rd, 4, 3)
  | .andi c rd _ _ | .ori c rd _ _ | .xori c rd _ _ => some (c, rd, 4, 3)
  | .addi c f => some (c, (addiTarget f).1, (addiTarget f).2, 15)
  | .neg c rd _ => some (c, rd, 2, 15)
  | .not c rd _ => some (c, rd, 2, 3)
  | .lsl c f | .lsr c f | .asr c f | .ror c f | .rol c f => some (c, (shiftTarget f).1, (shiftTarget f).2, 7)
  | .mov c rd _ | .sxb c rd _ | .sxh c rd _ | .zxb c rd _ | .zxh c rd _ | .clz c rd _ | .popc c rd _ | .bswap c rd _ =>
    some (c, rd, 2, 0)
  | .movi c f => some (c, (moviTarget f).1, (moviTarget f).2, 0)
  | .movhi c rd _ => some (c, rd, 4, 0)
  | .adr c rd _ => some (c, rd, 4, 0)
  | _ => none

/-- What a core's general registers and ST aside stays the same between two cores: every special register, the segments, the
data cache and what it has evicted. -/
def sameBeside (k k' : Core) : Prop :=
  k'.bnk = k.bnk ∧ k'.vbase = k.vbase ∧ k'.exdepth = k.exdepth ∧ k'.sgBase = k.sgBase ∧ k'.sgLimit = k.sgLimit ∧
    k'.sgPerm = k.sgPerm ∧ k'.cycHi = k.cycHi ∧ k'.run = k.run ∧ k'.noVec = k.noVec ∧ k'.lastCause = k.lastCause ∧
    k'.dc = k.dc ∧ k'.ev = k.ev

/-- The segments of a core that Table 3.6 gives, with VBASE. -/
def segmentsAt (k : Core) : List (Word × Word × Word) × Word :=
  ((List.range 4).map (fun i => (k.sgBase.getD i 0, k.sgLimit.getD i 0, k.sgPerm.getD i 0)), k.vbase)

/-- Of a command that the range locks hold back where its blocks overlap a held entry (R282): queue, namespace, first block,
blocks. -/
def lockTested (i : Instr) : Option (CmdRef × NvmeOp) :=
  match i with
  | .read q nsid slba nlb bad => some (q, .read nsid slba nlb bad)
  | .write q nsid slba nlb dtype dspec fua ptr => some (q, .write nsid slba nlb dtype dspec fua ptr)
  | .verify q nsid slba nlb bad => some (q, .verify nsid slba nlb bad)
  | .datasetManagement q nsid ranges => some (q, .dsm nsid ranges)
  | _ => none

/-- A step that does not stop. -/
def steps (s t : State) : Prop := step s = .next t

end Sys2Proof.Machine
end

