-- ==== Sys2Proof/Certificates/Slice0/Obligations.lean ====
section
/-! DEFINITION. Sys2Proof/Certificates/Slice0/Obligations.lean: the statements for the provers. Each clause of a completion
statement says for which states and operands exec of a command answers a next state, and which. -/

open Sys2Proof Sys2Proof.Machine

/-- A step takes the command at the front of the queue and runs it with the queue's rest (spec/opcode_table.json). -/
def Obligations.StepRunsTheFrontCommand : Prop :=
  ∀ (s : State) (c : Instr) (rest : List Instr), s.pending = c :: rest → step s = exec c { s with pending := rest }

/-- On an empty queue the block idles (the model's choice, log entry 6) (spec/opcode_table.json). -/
def Obligations.EmptyQueueIdles : Prop :=
  ∀ s : State, s.pending = [] → step s = .next s

/-- Every command has a next state, in every state, and leaves the commands that wait behind it alone
(spec/opcode_table.json). -/
def Obligations.EveryCommandHasANextState : Prop :=
  ∀ (c : Instr) (s : State), ∃ t, exec c s = .next t ∧ t.pending = s.pending

/-- Every step keeps the canonical forms of memory and of the register fields, and the 36 cores (01_architecture.md, R9). -/
def Obligations.MachineShapeIsKept : Prop :=
  ∀ s t : State, (Memory.wf s.mem = true ∧ Registers.wf s.regs = true ∧ s.cores.length = 36) → step s = .next t →
      (Memory.wf t.mem = true ∧ Registers.wf t.regs = true ∧ t.cores.length = 36)

/-- No step takes the lifecycle, the rollback counter or the unique identifier back, and a burn leads to the next state only
(R426, R427). -/
def Obligations.LifecycleNeverGoesBack : Prop :=
  ∀ s t : State, LifecycleInv s → step s = .next t →
      LifecycleInv t ∧ s.fuses.lc ≤ t.fuses.lc ∧ s.fuses.rollback ≤ t.fuses.rollback ∧ t.fuses.uid = s.fuses.uid

/-- The state after reset meets every invariant, with an empty queue (R426, R98). -/
def Obligations.ResetMeetsTheInvariants : Prop :=
  Memory.wf State.reset.mem = true ∧ Registers.wf State.reset.regs = true ∧ State.reset.cores.length = 36 ∧
      LifecycleInv State.reset ∧ State.reset.pending = []

/-- At reset the segment registers and VBASE have the values of Table 3.6, tile cores idle, house cores at their vector in
segment mode (R98). -/
def Obligations.ResetGivesTheSegmentsOfTable36 : Prop :=
  (∀ c, c < 32 → segmentsAt (State.reset.core c) =
        ([(0, 0x000FFFFF, 5), (0, 0x000FFFFF, 3), (0, 0x000FFFFF, 3), (0x00100000, 0x0000FFFF, 11)], 1) ∧
        (State.reset.core c).run = .idle) ∧
      (∀ c, 32 ≤ c → c < 36 → segmentsAt (State.reset.core c) =
        ([(0x00800000, 0x0001FFFF, 5), (0, 0x003FFFFF, 3), (0, 0x003FFFFF, 3), (0x20000000, 0x00FFFFFF, 11)], 0x00800001) ∧
        (State.reset.core c).pc = 0x00800000 ∧ stBit (State.reset.core c).st stAM = true)

/-- Register commands of the flow unit, the caches and the tiles complete with the effect of their register (R9, R54, R85,
R165, R166, R169). -/
def Obligations.RegisterWriteCommandsComplete : Prop :=
  (∀ (s : State) (rq : Requester) (v : BitVec 64),
      reaches s rq .ret = true →
      exec (.registerWrite rq 0x3000C .w32 v) s = .next (s.setFlds [(R.RET_IER_STALL, v.toNat), (R.RET_IER_TIMEOUT, v.toNat /
        2), (R.RET_IER_FAIL, v.toNat / 4),
       (R.RET_IER_OSTGFULL, v.toNat / 8)])) ∧
  (∀ (s : State) (rq : Requester) (flow : Fin 262144),
      reaches s rq .flow = true →
      s.flag R.FLOW_STATUS_CMD_BUSY = false →
      exec (.flowCmdActivate rq flow) s = .next
        ({ (s.setFlds [(R.FLOW_CMD_FLOW_ID, flow.val), (R.FLOW_STATUS_CMD_BUSY, 1)]) with
       flows := { s.flows with cmdOp := 1, cmdFlow := flow.val } })) ∧
  (∀ (s : State) (rq : Requester) (flow : Fin 262144),
      reaches s rq .flow = true →
      s.flag R.FLOW_STATUS_CMD_BUSY = false →
      exec (.flowCmdDrain rq flow) s = .next ({ (s.setFlds [(R.FLOW_CMD_FLOW_ID, flow.val), (R.FLOW_STATUS_CMD_BUSY, 1)]) with
       flows := { s.flows with cmdOp := 2, cmdFlow := flow.val } })) ∧
  (∀ (s : State) (rq : Requester) (c : CoreId) (ic dc : Bool),
      mayControlCache s rq c = true →
      s.fld (ccIcEn c.val) = 0 →
      s.fld (ccDcEn c.val) = 0 →
      s.flag (ccIcOk c.val) = true →
      s.flag (ccDcOk c.val) = true →
      (s.core c.val).inv = none →
      exec (.cacheEnable rq c ic dc) s = .next (s.setFlds ((if ic then [(ccIcEn c.val, 1)] else []) ++ (if dc then [(ccDcEn
        c.val, 1)] else [])))) ∧
  (∀ (s : State) (rq : Requester) (c : CoreId) (ic dc : Bool),
      mayControlCache s rq c = true →
      s.fld (ccIcEn c.val) = 1 →
      s.fld (ccDcEn c.val) = 1 →
      (s.core c.val).inv = none →
      exec (.cacheDisable rq c ic dc) s = .next (s.setFlds ((if ic then [(ccIcEn c.val, 0), (ccIcOk c.val, 0)] else []) ++ (if
        dc then [(ccDcEn c.val, 0), (ccDcOk c.val, 0)] else [])))) ∧
  (∀ (s : State) (rq : Requester) (c : CoreId),
      mayControlCache s rq c = true →
      s.fld (ccIcEn c.val) ≤ 1 →
      s.fld (ccDcEn c.val) ≤ 1 →
      s.cores.length = 36 →
      (s.core c.val).inv = none →
      ∃ t, exec (.icInv rq c) s = .next t ∧ (t.core c.val).ic = Cache.empty ∧ (t.core c.val).dc = (s.core c.val).dc ∧
        t.flag (ccBusy c.val) = true ∧
       (t.core c.val).inv = some ⟨true, false, false, false⟩ ∧ t = { s with regs := t.regs, cores := t.cores }) ∧
  (∀ (s : State) (rq : Requester) (c : CoreId),
      mayControlCache s rq c = true →
      s.fld (ccIcEn c.val) ≤ 1 →
      s.fld (ccDcEn c.val) ≤ 1 →
      s.cores.length = 36 →
      (s.core c.val).inv = none →
      ∃ t, exec (.dcInv rq c) s = .next t ∧ (t.core c.val).dc = Cache.empty ∧ (t.core c.val).ic = (s.core c.val).ic ∧
        (t.core c.val).ev = (s.core c.val).ev ∧
       t.flag (ccBusy c.val) = true ∧
       (t.core c.val).inv = some ⟨false, true, false, false⟩ ∧ t = { s with regs := t.regs, cores := t.cores }) ∧
  (∀ (s : State) (rq : Requester) (c : CoreId),
      mayControlCache s rq c = true →
      s.fld (ccIcEn c.val) ≤ 1 →
      s.fld (ccDcEn c.val) ≤ 1 →
      s.cores.length = 36 →
      (s.core c.val).inv = none →
      ∃ t, exec (.dcClinv rq c) s = .next t ∧ (t.core c.val).dc = Cache.empty ∧ t.flag (ccBusy c.val) = true ∧
        (t.core c.val).inv = some ⟨false, true, false, false⟩) ∧
  (∀ (s : State) (c : CoreId),
      s.cores.length = 36 →
      (s.core c.val).inv = some ⟨true, true, true, false⟩ →
      Registers.wf s.regs = true →
      ∃ t, exec (.invalidateAllDone c) s = .next t ∧ (t.core c.val).inv = none ∧ t.fld (ccBusy c.val) = 0 ∧
        t.fld (ccIcOk c.val) = 1 ∧ t.fld (ccDcOk c.val) = 1 ∧ t.fld (ccIcEn c.val) = 1 ∧
       t.fld (ccDcEn c.val) = s.fld (ccDcEn c.val) ∧ t = { s with regs := t.regs, cores := t.cores }) ∧
  (∀ (s : State) (c : CoreId) (e : EvEnt) (r : List EvEnt),
      (s.core c.val).ev = e :: r →
      exec (.evictionWrite c) s = .next (storeLine (s.setCore c.val { s.core c.val with ev := r }) c.val e)) ∧
  (∀ (s : State) (word : Nat) (e : MergeEnt),
      s.merge.find? (fun x => x.word == word) = some e →
      exec (.mergeEntryTimeout word) s = .next (writeMerge s e))

/-- Tile register commands and the SRAM protection commands complete with the effect of their register (R169, R177, R178,
R179, R180, R181). -/
def Obligations.TileAndEccCommandsComplete : Prop :=
  (∀ (s : State) (rq : Requester) (ti : TileId),
      reaches s rq (.tile ti) = true →
      s.fld (fldEn (0x400000 + 0x10000 * ti.val)) = 0 →
      blockState s (.tile ti) = stOff →
      s.fld (fldLock (0x400000 + 0x10000 * ti.val)) ≤ 1 →
      exec (.tileReset rq ti) s = .next (tileReset (s.setFld (fldLock (0x400000 + 0x10000 * ti.val)) (s.fld (fldLock (0x400000
        + 0x10000 * ti.val)))) ti.val causeException)) ∧
  (∀ (s : State) (ti : TileId),
      (s.tile ti.val).rstBusy = true →
      exec (.tileResetDone ti) s = .next (((s.setTile ti.val { s.tile ti.val with rstBusy := false }).setFld
        (R.TILE_STATUS_RSTBUSY ti.val) 0).raise (R.TILE_ISR_TRESET ti.val))) ∧
  (∀ (s : State) (rq : Requester) (ti : TileId) (v : BitVec 32),
      reaches s rq (.tile ti) = true →
      exec (.tileDoorbell rq ti v) s = .next ((s.setFld (R.TILE_DOORBELL_VALUE ti.val) v.toNat).raise (R.TILE_CIRQ_DOORBELL
        ti.val))) ∧
  (∀ (s : State) (slow : Bool),
      blockOn s .ecc = true →
      s.ecc.scrubAt = 0 →
      s.flag R.ECC_TEST_CTRL_EN = false →
      s.ecc.syn = [] →
      exec (.scrubWord slow) s = .next ({ s with ecc := { s.ecc with scrubAt := 1 } })) ∧
  (∀ (s : State) (rq : Requester) (mid index : Nat),
      reaches s rq .ecc = true →
      mid < 2048 →
      index < 512 →
      s.ecc.repair = none →
      repairFault s mid 1 index = none →
      Registers.wf s.regs = true →
      exec (.eccRepairRow rq mid index) s = .next
        ({ (s.setFlds [(R.ECC_REPAIR_MACRO, mid), (R.ECC_REPAIR_KIND, 1), (R.ECC_REPAIR_INDEX, index)]) with
       ecc := { s.ecc with repair := some (mid, 1, index) } })) ∧
  (∀ (s : State) (rq : Requester) (mid index : Nat),
      reaches s rq .ecc = true →
      mid < 2048 →
      index < 72 →
      s.ecc.repair = none →
      repairFault s mid 2 index = none →
      Registers.wf s.regs = true →
      exec (.eccRepairColumn rq mid index) s = .next
        ({ (s.setFlds [(R.ECC_REPAIR_MACRO, mid), (R.ECC_REPAIR_KIND, 2), (R.ECC_REPAIR_INDEX, index)]) with
       ecc := { s.ecc with repair := some (mid, 2, index) } })) ∧
  (∀ (s : State) (mid index : Nat),
      s.ecc.repair = some (mid, 1, index) →
      repairWords s mid (64 * index) (64 * index + 64) = [] →
      exec .eccRepairDone s = .next (repairEnds
        { s with ecc := { s.ecc with repair := none, spares := tblSet 0 s.ecc.spares mid (tblGet 0 s.ecc.spares mid + 1) } }
        mid 0)) ∧
  (∀ (s : State) (rq : Requester) (mid word : Nat),
      isHouse rq = true →
      macClass mid < 8 →
      macClass mid ≠ 5 →
      word < 4096 →
      Registers.wf s.regs = true →
      ∃ t, exec (.eccTestRawRead rq mid word) s = .next t ∧ t.fld R.ECC_TEST_CTRL_MACRO = mid ∧
        t.fld R.ECC_TEST_ADDR_WORD = word ∧ t.ecc.scrubAt = s.ecc.scrubAt) ∧
  (∀ (s : State) (rq : Requester) (mid word : Nat) (data : BitVec 64) (chk : BitVec 8),
      isHouse rq = true →
      macClass mid < 8 →
      macClass mid ≠ 5 →
      word < 4096 →
      Registers.wf s.regs = true →
      ∃ t, exec (.eccTestRawWrite rq mid word data chk) s = .next t ∧ t.fld R.ECC_TEST_CTRL_MACRO = mid ∧
        t.fld R.ECC_TEST_ADDR_WORD = word ∧ t.fld R.ECC_TEST_CHK_CHK = chk.toNat ∧
       t.fld R.ECC_TEST_DLO_DATA = data.toNat % 2 ^ 32 ∧ t.fld R.ECC_TEST_DHI_DATA = data.toNat / 2 ^ 32)

/-- Commands of the marionette, codec unit, rule engine and translation assists complete with the effect of their register
(R202, R222, R224, R236, R255, R257, R327, R330). -/
def Obligations.UnitCommandsComplete : Prop :=
  (∀ (s : State) (rq : Requester) (ti : TileId) (tab : Fin 8),
      reaches s rq (.tile ti) = true →
      s.fld (R.TILE_MSTAT_MSTATE ti.val) = 0 →
      tab.val < s.fld (R.TILE_MSET_NTAB ti.val) →
      (List.range 4).any (isBroken s ti.val) = false →
      Registers.wf s.regs = true →
      ∃ t, exec (.mariStart rq ti tab) s = .next t ∧ t.fld (R.TILE_MSTAT_MSTATE ti.val) ≠ 0 ∧
        t.fld (R.TILE_MCMD_TAB ti.val) = tab.val ∧ t.fld (R.TILE_MEXEC_COUNT ti.val) = 0 ∧
       (t.tile ti.val).mari.tab = tab.val ∧ (t.tile ti.val).mari.v = [] ∧ (t.tile ti.val).mari.m0 = 0 ∧
         (t.tile ti.val).mari.m1 = 0 ∧
       (t.tile ti.val).mari.carry = 0 ∧ t = { s with regs := t.regs, tiles := t.tiles }) ∧
  (∀ (s : State) (rq : Requester) (ti : TileId) (step : Fin 1024),
      reaches s rq (.tile ti) = true →
      s.fld (R.TILE_MSTAT_MSTATE ti.val) = 3 →
      step.val < (s.tile ti.val).mari.nstep →
      (List.range 4).any (isBroken s ti.val) = false →
      Registers.wf s.regs = true →
      ∃ t, exec (.mariResume rq ti step) s = .next t ∧ t.fld (R.TILE_MSTAT_MSTATE ti.val) = 2 ∧
        (t.tile ti.val).mari.step = step.val ∧ (t.tile ti.val).mari.k = 0 ∧
       (t.tile ti.val).mari.v = (s.tile ti.val).mari.v ∧ t = { s with regs := t.regs, tiles := t.tiles }) ∧
  (∀ (s : State) (rq : Requester) (ti : TileId),
      reaches s rq (.tile ti) = true →
      s.fld (R.TILE_MSTAT_MSTATE ti.val) = 3 →
      (s.tile ti.val).mari.ending = none →
      Registers.wf s.regs = true →
      ∃ t, exec (.mariAbort rq ti) s = .next t ∧ t.fld (R.TILE_MSTAT_MSTATE ti.val) = 0 ∧
        t.fld (R.TILE_MSTAT_END ti.val) = endAborted ∧ t.fld (R.TILE_CIRQ_MARI ti.val) = 1 ∧
       t = { s with regs := t.regs, tiles := t.tiles }) ∧
  (∀ (s : State) (rq : Requester) (ti : TileId),
      reaches s rq (.tile ti) = true →
      exec (.codecClose rq ti) s = .next (s.setTile ti.val { s.tile ti.val with segs := closeSegs (s.tile ti.val).segs })) ∧
  (∀ (s : State) (rq : Requester) (ti : TileId) (prof : Fin 256),
      reaches s rq (.tile ti) = true →
      codecPend (s.tile ti.val) = 0 →
      (profOf s prof.val).isSome = true →
      exec (.codecProfileSelect rq ti prof) s = .next ((s.setTile ti.val { s.tile ti.val with curProf := prof.val }).setFld
        (R.TILE_CDPROF_PROF ti.val) prof.val)) ∧
  (∀ (s : State) (rq : Requester) (idx : BitVec 16),
      reaches s rq .codec = true →
      (2 ^ 16 + idx.toNat - s.fld R.CODEC_DQ_HEAD_IDX) % 2 ^ 16 ≤ dqSize s →
      exec (.codecDqTailWrite rq idx) s = .next (s.setFld R.CODEC_DQ_TAIL_IDX idx.toNat)) ∧
  (∀ (s : State) (rq : Requester) (ti : TileId) (desc : Nat),
      reaches s rq (.tile ti) = true →
      desc % 32 = 0 →
      desc < 2 ^ 20 →
      (s.tile ti.val).tileDec = none →
      ∃ t, exec (.tileDjob rq ti desc) s = .next t ∧ t.fld (R.TILE_DRES_BUSY ti.val) = 1 ∧
        (t.tile ti.val).tileDec.isSome = true ∧ (t.tile ti.val).tileDecRun = (s.tile ti.val).lane.isNone ∧
       t.mem = s.mem) ∧
  (∀ (s : State) (rq : Requester) (x : TSlot),
      reaches s rq .rule = true →
      s.flag R.RULE_STATUS_BUSY = false →
      x = slotOfRecord (stagedRecord s) true →
      badRecord (stagedRecord s) = false →
      (idxProfOf s x.set).isSome = true →
      ruleSlot s x.set x.rid = none →
      nValid s < tcamSlots →
      Registers.wf s.regs = true →
      ∃ t, exec (.ruleCmdInsert rq) s = .next t ∧ t.index = { s.index with op := some (.insert x) } ∧
        t.fld R.RULE_STATUS_BUSY = 1 ∧
       t = { s with regs := t.regs, index := t.index }) ∧
  (∀ (s : State) (rq : Requester) (set : Fin 256) (rid : BitVec 16),
      reaches s rq .rule = true →
      s.flag R.RULE_STATUS_BUSY = false →
      (idxProfOf s set.val).isSome = true →
      (ruleSlot s set.val rid.toNat).isSome = true →
      Registers.wf s.regs = true →
      ∃ t, exec (.ruleCmdDelete rq set rid) s = .next t ∧ t.index = { s.index with op := some (.delete set.val rid.toNat) } ∧
        t.fld R.RULE_STATUS_BUSY = 1 ∧
       t = { s with regs := t.regs, index := t.index }) ∧
  (∀ (s : State) (rq : Requester) (lun : Fin 1024) (all : Bool),
      reaches s rq .ftla = true →
      blockOn s .ftla = true →
      s.flag R.FTLA_STATUS_SCANBUSY = false →
      Registers.wf s.regs = true →
      exec (.ftlaScanVictim rq lun all) s = .next
        ({ (s.setFlds [(R.FTLA_SCAN_LUN, lun.val), (R.FTLA_SCAN_ALL, b2n all), (R.FTLA_STATUS_SCANBUSY, 1)]) with
       ftl := { s.ftl with scan := some (1, lun.val, all) } })) ∧
  (∀ (s : State) (rq : Requester) (lun : Fin 1024) (all : Bool),
      reaches s rq .ftla = true →
      blockOn s .ftla = true →
      s.flag R.FTLA_STATUS_SCANBUSY = false →
      Registers.wf s.regs = true →
      exec (.ftlaScanLeastWorn rq lun all) s = .next
        ({ (s.setFlds [(R.FTLA_SCAN_LUN, lun.val), (R.FTLA_SCAN_ALL, b2n all), (R.FTLA_STATUS_SCANBUSY, 1)]) with
       ftl := { s.ftl with scan := some (2, lun.val, all) } }))

/-- Commands of fabric time, watchdog, code store, profiles, pins, BAR2 and the debug register complete with their effect
(R267, R362, R432, R438, R451, R456, R473, R491). -/
def Obligations.SystemRegisterCommandsComplete : Prop :=
  (∀ (s : State) (rq : Requester) (win : Fin 64) (slot : Fin 1048576) (x : HwWin),
      reaches s rq .fab = true →
      blockOn s .fab = true →
      findWin s win.val = some x →
      slot.val < x.slots →
      slotTag s x slot.val = tagLocal →
      tagBad (s.fld R.FAB_HWNEW_TAG) = false →
      Registers.wf s.regs = true →
      ∃ t, exec (.fabHwtagWrite rq win slot) s = .next t ∧ t = (passSlot (s.setFlds [(R.FAB_HWTAG_WIN, win.val),
        (R.FAB_HWTAG_SLOT, slot.val)]) x slot.val (s.fld R.FAB_HWNEW_TAG)).setFld
       R.FAB_HWTAG_RESULT 0) ∧
  (∀ (s : State) (rq : Requester) (x : BitVec 64),
      reaches s rq .fab = true →
      s.flag R.FAB_STATUS_MASTER = true →
      Registers.wf s.regs = true →
      ∃ t, exec (.fabTimeset rq x) s = .next t ∧ t.fab.time = x.toNat % 2 ^ 63 ∧
        t = { s with regs := t.regs, fab := { s.fab with time := t.fab.time } }) ∧
  (∀ (s : State) (rq : Requester),
      reaches s rq .wdt = true →
      exec (.watchdogKick rq 0x6B1D#16) s = .next (s.setFld R.WDT_COUNT_COUNT (25000 * s.fld R.WDT_TIMEOUT_TIMEOUT))) ∧
  (∀ (s : State) (rq : Requester),
      reaches s rq .wdt = true →
      exec (.watchdogBootok rq) s = .next ({ (s.clear R.WDT_STATUS_BOOTFAIL) with
       boot := { s.boot with bootOk := true }, fuses := { s.fuses with rollback := max s.fuses.rollback s.boot.rbidx } })) ∧
  (∀ (s : State) (rq : Requester) (addr : BitVec 26) (p : Nat),
      inGate s rq = true →
      blockOn s .cstore = true →
      s.code.op = none →
      csPhys s (addr.toNat / csBlockSize) = some p →
      Registers.wf s.regs = true →
      ∃ t, exec (.cstoreEraseSequence rq addr) s = .next t ∧ t.code =
        { s.code with op := some { op := 1, stage := 1, block := p, page := p * csBlockSize + addr.toNat % csBlockSize, data := [] } }
        ∧
       t = { s with regs := t.regs, code := t.code }) ∧
  (∀ (s : State) (rq : Requester) (addr : BitVec 26) (src : BitVec 22) (p : Nat),
      inGate s rq = true →
      blockOn s .cstore = true →
      s.code.op = none →
      csPhys s (addr.toNat / csBlockSize) = some p →
      Registers.wf s.regs = true →
      ∃ t, exec (.cstorePageProgram rq addr src) s = .next t ∧ t.code =
        { s.code with op := some { op := 2, stage := 1, block := p, page := p * csBlockSize + addr.toNat % csBlockSize, data := (readRam s (houseBase + src.toNat) 256).1 } }
        ∧ t = { s with regs := t.regs, code := t.code }) ∧
  (∀ (s : State) (rq : Requester) (addr : BitVec 26) (src : BitVec 22) (p : Nat),
      inGate s rq = true →
      blockOn s .cstore = true →
      s.code.op = none →
      csPhys s (addr.toNat / csBlockSize) = some p →
      Registers.wf s.regs = true →
      ∃ t, exec (.cstoreRecordProgram rq addr src) s = .next t ∧ t.code =
        { s.code with op := some { op := 3, stage := 1, block := p, page := p * csBlockSize + addr.toNat % csBlockSize, data := (readRam s (houseBase + src.toNat) 256).1 } }
        ∧ t = { s with regs := t.regs, code := t.code }) ∧
  (∀ (s : State) (o : CsOp),
      s.code.op = some o →
      o.op = 1 →
      o.stage = 2 →
      exec (.cstoreOpDone true) s = .next
        ({ (setCsFlags s o.block 0xFFFF0000) with code := { (setCsFlags s o.block 0xFFFF0000).code with op := some { o with stage := 3 } } }))
        ∧
  (∀ (s : State) (rq : Requester),
      reaches s rq .hold = true →
      s.flag R.HOLD_SAVE_BUSY = false →
      exec (.holdSave rq) s = .next ({ (s.raise R.HOLD_SAVE_BUSY) with hold := { s.hold with saving := some (profBytes s) } }))
        ∧
  (∀ (s : State) (rq : Requester),
      reaches s rq .therm = true →
      s.flag R.THERM_SAVE_BUSY = false →
      exec (.thermSave rq) s = .next
        ({ (s.raise R.THERM_SAVE_BUSY) with therm := { s.therm with saving := some (thermProfile s) } })) ∧
  (∀ (s : State) (c : CoreId) (pin : Fin 16),
      32 ≤ c.val →
      s.fld (R.GPIO_PIN_OWN pin.val) = 0 →
      s.fld (R.GPIO_PIN_OE pin.val) ≤ 1 →
      s.fld (R.GPIO_PIN_EDGE pin.val) ≤ 3 →
      Registers.wf s.regs = true →
      ∃ t, exec (.gpioClaim (.core c) pin) s = .next t ∧ t.fld (R.GPIO_PIN_OWN pin.val) = 3 + (c.val - 32) ∧
        t.fld (R.GPIO_PIN_FUNC pin.val) = 0 ∧
       t.fld (R.GPIO_PIN_OE pin.val) = s.fld (R.GPIO_PIN_OE pin.val) ∧
         t.fld (R.GPIO_PIN_EDGE pin.val) = s.fld (R.GPIO_PIN_EDGE pin.val) ∧
       t = { s with regs := t.regs }) ∧
  (∀ (s : State) (c : CoreId) (pin : Fin 16),
      32 ≤ c.val →
      s.fld (R.GPIO_PIN_OWN pin.val) = 3 + (c.val - 32) →
      s.fld (R.GPIO_PIN_OE pin.val) ≤ 1 →
      s.fld (R.GPIO_PIN_EDGE pin.val) ≤ 3 →
      Registers.wf s.regs = true →
      ∃ t, exec (.gpioRelease (.core c) pin) s = .next t ∧ t.fld (R.GPIO_PIN_OWN pin.val) = 0 ∧
        t.fld (R.GPIO_PIN_EDGE pin.val) = s.fld (R.GPIO_PIN_EDGE pin.val) ∧ t = { s with regs := t.regs }) ∧
  (∀ (s : State) (ctrl : Fin 2) (v : BitVec 64),
      barOpen s = true →
      exec (.bar2Access ctrl 0x3000C .w32 (some v)) s = .next (s.setFlds [(R.RET_IER_STALL, v.toNat), (R.RET_IER_TIMEOUT,
        v.toNat / 2), (R.RET_IER_FAIL, v.toNat / 4),
       (R.RET_IER_OSTGFULL, v.toNat / 8)])) ∧
  (∀ (s : State),
      s.tap.ir = .debug →
      classDOpen s = true →
      targetOf s 0x4800030010 = .reg 0x30010 →
      exec (.debugRead 0x120000C004#46) s = .next
        ({ s with tap := { s.tap with dbgData := s.fld R.RET_PTO_TIME, dbgStatus := 0 } })) ∧
  (∀ (s : State) (v : BitVec 32),
      s.tap.ir = .debug →
      classDOpen s = true →
      targetOf s 0x480003000C = .reg 0x3000C →
      exec (.debugWrite 0x120000C003#46 v) s = .next
        ({ (s.setFlds [(R.RET_IER_STALL, v.toNat), (R.RET_IER_TIMEOUT, v.toNat / 2), (R.RET_IER_FAIL, v.toNat / 4), (R.RET_IER_OSTGFULL, v.toNat / 8)]) with
       tap := { s.tap with dbgData := v.toNat, dbgStatus := 0 } }))

/-- Enabling, quiescing and locking a block move its STATE as R17 to R20 say (R14, R17, R18, R19, R20). -/
def Obligations.BlockCommandsComplete : Prop :=
  (∀ (s : State) (b : BlockId),
      blockHasEnable b = true →
      b ≠ .wdt →
      blockState s b = stOff →
      exec (.blockEnable b) s = .next (s.setFlds [(fldEn (blockBase b), 1), (fldState (blockBase b), stEnabling)])) ∧
  (∀ (s : State) (b : BlockId),
      b ∈ [.ecc, .disp, .pat, .rule, .codec, .nvme, .pcie, .media, .ftla, .digest, .vault, .keys, .fab, .cstore, .therm] →
      blockState s b = stOn →
      exec (.blockDisable b) s = .next (s.setFlds [(fldEn (blockBase b), 0), (fldState (blockBase b), stQuiescing)])) ∧
  (∀ (s : State) (b : BlockId),
      b ∈ [.ecc, .disp, .pat, .rule, .codec, .nvme, .pcie, .media, .ftla, .digest, .vault, .keys, .cstore, .therm] →
      blockState s b = stEnabling →
      s.flag (fldEn (blockBase b)) = true →
      Registers.wf s.regs = true →
      exec (.blockEnablingDone b) s = .next (s.setFld (fldState (blockBase b)) stOn)) ∧
  (∀ (s : State) (b : BlockId),
      b ∈ [.ecc, .disp, .pat, .rule, .codec, .nvme, .media, .ftla, .digest, .cstore, .therm] →
      blockState s b = stQuiescing →
      drained s b = true →
      s.flag (fldEn (blockBase b)) = false →
      s.nvme.d3off = [] →
      exec (.blockQuiesceDone b) s = .next (s.setFld (fldState (blockBase b)) stOff)) ∧
  (∀ (s : State) (b : BlockId),
      exec (.blockLock b) s = .next (s.setFld (fldLock (blockBase b)) 1))

/-- Reset, rail, watchdog and clock commands complete with the effect Table 17.1 and R34 to R38 give (R34, R36, R452, R465,
R474, R475, R476, R477, R478, R502, R504). -/
def Obligations.StartCommandsComplete : Prop :=
  (∀ (s : State),
      s.boot.held = .none →
      s.boot.mode ≠ .halt →
      s.flag R.SYS_CLKSTAT_ROOT_LOCK = true →
      s.fld R.SYS_PHASE_PHASE = 12 →
      exec .rootPllLockLoss s = .next
        ({ (s.setFlds [(R.SYS_CLKSTAT_ROOT_LOCK, 0), (R.SYS_CLKSTAT_TCLK_ON, 0), (R.SYS_CLKSTAT_NCLK_ON, 0), (R.SYS_CLKSTAT_MCLK_ON, 0),
       (R.SYS_CLKSTAT_FCLK_ON, 0), (R.SYS_CLKSTAT_SCLK_ON, 0), (R.SYS_CLKSTAT_ROOT_LOSS, 1)]) with boot := { s.boot with pllLost := true } }))
         ∧
  (∀ (s : State),
      s.boot.pllLost = true →
      s.flag R.SYS_CLKSTAT_ROOT_LOCK = false →
      s.boot.held = .none →
      exec .rootPllRelock s = .next (flushStart (s.setFlds [(R.SYS_CLKSTAT_ROOT_LOCK, 1), (R.SYS_CLKSTAT_TCLK_ON, 1),
        (R.SYS_CLKSTAT_NCLK_ON, 1), (R.SYS_CLKSTAT_MCLK_ON, 1),
       (R.SYS_CLKSTAT_FCLK_ON, 1), (R.SYS_CLKSTAT_SCLK_ON, 1)]) 2 false)) ∧
  (∀ (s : State),
      wdtRuns s = true →
      25000 * s.fld R.WDT_WARN_WARN < s.fld R.WDT_COUNT_COUNT →
      exec .watchdogWarn s = .next (s.setFlds [(R.WDT_COUNT_COUNT, 25000 * s.fld R.WDT_WARN_WARN), (R.WDT_ISR_WARN, 1)])) ∧
  (∀ (s : State),
      wdtRuns s = true →
      flushing s = false →
      s.boot.held = .none →
      s.boot.mode = .normal →
      s.boot.bootOk = true →
      ∃ t, exec .watchdogExpiry s = .next t ∧ t.fld R.SYS_RSTCAUSE_WDT = 1 ∧ t.fld R.WDT_STATUS_EXPIRED = 1 ∧
        t.fld R.SYS_PHASE_PHASE = 2 ∧ t.boot.held = .none ∧ t.flows = FlowSt.reset ∧
       t.tiles = [] ∧ t.fuses = s.fuses ∧ t.pending = s.pending) ∧
  (∀ (s : State) (us : Nat),
      flushing s = true →
      flushIdle s = true →
      s.boot.rstLow = false →
      s.boot.pllLost = false →
      ∃ t, exec (.flushEnd us) s = .next t ∧ t.boot.held = .post s.hold.trip ∧ t.fld R.SYS_RSTCAUSE_FLUSH = 1 ∧
        t.fld R.SYS_PHASE_PHASE = 2 ∧ t.mem = [] ∧ t.flows = FlowSt.reset ∧
       t.boot.lostX = 0) ∧
  (∀ (s : State) (die : Int),
      s.boot.held = .post false →
      exec (.postflushRelease die) s = .next
        ({ s with boot := { s.boot with held := .none, pllLost := false }, hold := { s.hold with pfail := false } })) ∧
  (∀ (s : State),
      ∃ t, exec .aonPowerOn s = .next t ∧ t.boot.held = .rails ∧ t.fld R.SYS_RSTCAUSE_AONPOR = 1 ∧
        t.fld R.SYS_PHASE_PHASE = 1 ∧ t.mem = [] ∧ t.cores = State.reset.cores ∧ t.tiles = [] ∧
       t.flows = FlowSt.reset ∧ t.boot.rtc = 0 ∧ t.tap = TapSt.reset ∧ t.fuses = s.fuses ∧ t.code.arr = (csCutOff s).code.arr ∧
         t.pending = s.pending) ∧
  (∀ (s : State),
      flushing s = false →
      Registers.wf s.regs = true →
      ∃ t, exec .coldReset s = .next t ∧ t.boot.held = .rails ∧ t.fld R.SYS_RSTCAUSE_COLD = 1 ∧ t.fld R.SYS_PHASE_PHASE = 1 ∧
        t.mem = [] ∧ t.boot.rtc = s.boot.rtc ∧
       t.fld R.SYS_CLKSTAT_ROOT_LOSS = s.fld R.SYS_CLKSTAT_ROOT_LOSS % 2 ∧
         t.fld R.THERM_STATUS_TRIPPED = s.fld R.THERM_STATUS_TRIPPED % 2 ∧ t.fuses = s.fuses) ∧
  (∀ (s : State) (bifur : Bool),
      flushing s = false →
      s.boot.held = .rails →
      exec (.sysRstRelease bifur) s = .next
        ({ (s.setFlds [(R.SYS_PHASE_PHASE, 1), (R.PCIE_STATUS_BIFUR, b2n bifur), (R.SYS_CLKSTAT_AON_OSC, 1)]) with
       boot := { s.boot with held := .none }, hold := { s.hold with pfail := false } })) ∧
  (∀ (s : State) (recorded us : Nat),
      flushing s = false →
      s.boot.held = .none →
      ∃ t, exec (.mainRailLow recorded us) s = .next t ∧ t.boot.held = .rails ∧ t.fld R.SYS_RSTCAUSE_COLD = 1 ∧
        t.boot.cycles = s.boot.cycles + 1 ∧ t.boot.rtc = s.boot.rtc ∧ t.mem = []) ∧
  (∀ (s : State) (recorded us : Nat),
      flushing s = false →
      ∃ t, exec (.aonRailLow recorded us) s = .next t ∧ t.boot.held = .rails ∧ t.fld R.SYS_RSTCAUSE_AONPOR = 1 ∧
        t.boot.rtc = 0 ∧ t.mem = [] ∧ t.fuses = s.fuses) ∧
  (∀ (s : State) (c : CoreId),
      32 ≤ c.val →
      flushing s = false →
      s.boot.held = .none →
      s.boot.mode = .normal →
      s.dram.trained = true →
      ∃ t, exec (.warmReset (.core c)) s = .next t ∧ t.fld R.SYS_RSTCAUSE_SWWARM = 1 ∧ t.fld R.SYS_RSTCAUSE_RETAINED = 1 ∧
        t.fld R.SYS_PHASE_PHASE = 2 ∧ t.mem = dramKept s ∧ t.flows = FlowSt.reset ∧
       t.loaded.progs = [] ∧ t.profs = [] ∧ t.tap = s.tap ∧ t.fuses = s.fuses) ∧
  (∀ (s : State) (mask : Fin 8),
      s.cores.length = 36 →
      (s.core 33).run = .idle →
      (s.core 34).run = .idle →
      (s.core 35).run = .idle →
      Registers.wf s.regs = true →
      ∃ t, exec (.houseCoreRun mask) s = .next t ∧ t.fld R.SYS_RSTCTL_HCRUN = mask.val ∧
        (t.core 33).run = (if mask.val.testBit 0 then .run else .idle) ∧
       (t.core 34).run = (if mask.val.testBit 1 then .run else .idle) ∧
         (t.core 35).run = (if mask.val.testBit 2 then .run else .idle) ∧
       t = { s with regs := t.regs, cores := t.cores })

/-- The JTAG instructions of Table 17.3 and the lock reports complete with their effect (R34, R428, R490). -/
def Obligations.JtagAndClockCommandsComplete : Prop :=
  (∀ (s : State),
      exec .tapReset s = .next ({ s with tap := { s.tap with ir := .idcode } })) ∧
  (∀ (s : State) (levels shifted : Nat),
      s.fuses.lc ≤ 1 →
      exec (.tapExtest levels shifted) s = .next
        ({ s with tap := { s.tap with ir := .extest, captured := levels, cells := shifted } })) ∧
  (∀ (s : State),
      exec .tapIdcode s = .next ({ s with tap := { s.tap with ir := .idcode } })) ∧
  (∀ (s : State) (levels shifted : Nat),
      s.fuses.lc ≤ 1 →
      exec (.tapSamplePreload levels shifted) s = .next
        ({ s with tap := { s.tap with ir := .sample, captured := levels, cells := shifted } })) ∧
  (∀ (s : State),
      s.fuses.lc ≤ 1 →
      exec .tapHighz s = .next ({ s with tap := { s.tap with ir := .highz } })) ∧
  (∀ (s : State),
      s.fuses.lc ≤ 1 →
      exec .tapClamp s = .next ({ s with tap := { s.tap with ir := .clamp } })) ∧
  (∀ (s : State),
      ∃ t, exec .tapDebug s = .next t ∧ t = { s with tap := { s.tap with ir := if 2 ≤ s.fuses.lc then .bypass else .debug } }) ∧
  (∀ (s : State),
      exec .tapBypass s = .next ({ s with tap := { s.tap with ir := .bypass } })) ∧
  (∀ (s : State) (damdom : Bool),
      exec (.serdesPllLock damdom) s = .next (s.setFld (if damdom then R.SYS_CLKSTAT_DAMDOM_LOCK else R.SYS_CLKSTAT_PCIE_LOCK)
        1)) ∧
  (∀ (s : State),
      exec .rtcCrystalStart s = .next (s.setFld R.SYS_CLKSTAT_RTC_OSC 1))

/-- Binding, cutting, landing and pushing of parcels complete with the effect of R60 to R70 and R85 (R60, R61, R64, R66, R67,
R68, R69, R70, R85). -/
def Obligations.FlowAndParcelCommandsComplete : Prop :=
  (∀ (s : State),
      s.flag R.FLOW_STATUS_CMD_BUSY = true →
      s.flows.cmdOp = 2 →
      unbindFault s s.flows.cmdFlow = some scSequence →
      Registers.wf s.regs = true →
      exec .flowCmdDone s = .next (s.setFlds [(R.FLOW_STATUS_CMD_BUSY, 0), (R.FLOW_CMDRES_RESULT, 4), (R.FLOW_ISR_CMDDONE,
        1)])) ∧
  (∀ (s : State) (flow : Fin 262144) (r : SeqRun),
      s.flows.runs.find? (fun x => x.flow == flow.val) = some r →
      blockState s .disp = stOn →
      cutBlock s flow.val r.next (min r.bytes (ctxParcelSize s flow.val)) false = none →
      ∃ t, exec (.parcelCut flow) s = .next t ∧ t.flows.parcels.dropLast = s.flows.parcels ∧
        t.flows.parcels.getLast?.map (fun p => (p.flow, p.seq, p.len, p.part, p.got)) =
       some (flow.val, r.next, min r.bytes (ctxParcelSize s flow.val), r.part, 0) ∧
       t.flows.parcels.getLast?.map (fun p => p.st) = some .landing ∧ t.mem = s.mem ∧
         t = { s with regs := t.regs, flows := t.flows }) ∧
  (∀ (s : State) (flow : Fin 262144) (seq : Nat) (bytes : List Byte) (p : Parcel) (id : Nat),
      findParcel s flow.val seq = some p →
      p.src = .host id →
      p.st = .landing →
      s.flows.hostUsed < s.flows.hostLimit →
      p.got + bytes.length < p.len →
      ∃ t, exec (.parcelFetch flow seq bytes) s = .next t ∧ t.flows.hostUsed = s.flows.hostUsed + bytes.length ∧
        t.flows.parcels = (updParcel s p.flow p.seq (fun q => { q with got := q.got + bytes.length })).flows.parcels ∧
       t.cores = s.cores ∧ t.nvme = s.nvme ∧ t.ftl = s.ftl) ∧
  (∀ (s : State),
      s.flag R.DISP_PART_LEND = false →
      exec .rateMeterInterval s = .next ({ s with flows := { s.flows with
       hostLimit := s.fld R.DISP_PART_HOST_RATE * 1000, fabLimit := (128 - s.fld R.DISP_PART_HOST_RATE) * 1000,
       hostUsed := s.flows.hostUsed - s.flows.hostLimit, fabUsed := s.flows.fabUsed - s.flows.fabLimit } })) ∧
  (∀ (s : State) (p : Parcel) (i : Nat),
      s.flows.parcels = [p] →
      p.st = .waiting →
      pushTarget s p.flow = some i →
      s.flows.deques = [] →
      ∃ t, exec .dispatchWaiting s = .next t ∧ dequeOf t i = [(p.flow, p.seq)] ∧ t.flows.lastPush = i ∧
        t.flows.lastServed = p.flow ∧ t.flows.parcels = [{ p with st := .queued i, tile := i }] ∧
       t = { s with flows := t.flows }) ∧
  (∀ (s : State) (ti : TileId) (fq : Nat × Nat) (r : List (Nat × Nat)),
      tileReady s ti.val = true →
      tileOwesRaw s ti.val = false →
      dequeOf s ti.val = fq :: r →
      exec (.parcelTake ti) s = .next (takeHead s ti.val)) ∧
  (∀ (s : State) (ti : TileId),
      mayProbe s ti.val = true →
      (thiefOf s ti.val).searching = false →
      candidateIn s ti.val (ti.val / 4) [] = none →
      exec (.stealProbe [ti]) s = .next (setThief s ti.val
        { (thiefOf s ti.val) with searching := true, quad := quadAfter (thiefOf s ti.val).lastQuad (ti.val / 4), probed := 0, lost := [] }))
        ∧
  (∀ (s : State) (ti : TileId),
      (thiefOf s ti.val).backoff = true →
      exec (.stealBackoffExpiry ti) s = .next (setThief s ti.val
        { (thiefOf s ti.val) with backoff := false, searching := false })) ∧
  (∀ (s : State) (flow : Fin 262144) (seq : Nat) (p : Parcel),
      findParcel s flow.val seq = some p →
      completes s p = true →
      releases p = false →
      s.flows.blocked = [] →
      exec (.parcelComplete flow seq) s = .next (updParcel s flow.val seq (fun q =>
        { q with st := .complete, landHeld := false }))) ∧
  (∀ (s : State) (f : Nat) (r : SeqRun),
      nextRelease s = some f →
      findParcel s f (ctxGet s f cxRET) = none →
      voidAt s f (ctxGet s f cxRET) = some r →
      ∃ t, exec .retRelease s = .next t ∧ t.flows.lastReleased = f ∧ t.flows.parcels = s.flows.parcels) ∧
  (∀ (s : State) (flow : Fin 262144) (p : Parcel),
      waitingHead s flow.val = some p →
      s.fld R.RET_STALL_TIME ≠ 0 →
      s.flows.stalled = [] →
      s.flag R.RET_STALLFLOW_VALID = false →
      exec (.headStallExpiry flow) s = .next
        ({ (s.setFlds [(R.RET_ISR_STALL, 1), (R.RET_STALLFLOW_FLOW, flow.val), (R.RET_STALLFLOW_VALID, 1)]) with
       flows := { s.flows with stalled := [(flow.val, p.seq)] } })) ∧
  (∀ (s : State) (flow : Fin 262144) (p : Parcel),
      waitingHead s flow.val = some p →
      s.fld R.RET_PTO_TIME ≠ 0 →
      p.st = .landing →
      p.cause = 0 →
      p.discarded = false →
      Registers.wf s.regs = true →
      ∃ t, exec (.headDeadlineExpiry flow) s = .next t ∧ t.fld R.RET_ISR_TIMEOUT = 1 ∧ t.fld R.RET_ISR_FAIL = 1 ∧
        t.flows.parcels = (updParcel s flow.val p.seq (fun q => { q with cause := causeTimeout })).flows.parcels ∧
       t.cores = s.cores ∧ t.tiles = s.tiles)

/-- Two-operand ALU instructions complete: result in rd, flags in ST, pc past the instruction, one cycle (R129, R130, R134,
R135). -/
def Obligations.AluRegisterFormsComplete : Prop :=
  (∀ (s : State) (c : CoreId) (f : AluForm) (s1 : State),
      issued s c.val (aluForm (s.core c.val) f).2.2.2 = some s1 →
      exec (.add c f) s = .next (completed s1 c.val (putResult (s1.core c.val) (aluForm (s1.core c.val) f).1
       (aluAdd (aluForm (s1.core c.val) f).2.1 (aluForm (s1.core c.val) f).2.2.1 (s1.core c.val).st)) (aluForm (s.core c.val)
         f).2.2.2 1)) ∧
  (∀ (s : State) (c : CoreId) (f : AluForm) (s1 : State),
      issued s c.val (aluForm (s.core c.val) f).2.2.2 = some s1 →
      exec (.sub c f) s = .next (completed s1 c.val (putResult (s1.core c.val) (aluForm (s1.core c.val) f).1
       (aluSub (aluForm (s1.core c.val) f).2.1 (aluForm (s1.core c.val) f).2.2.1 (s1.core c.val).st)) (aluForm (s.core c.val)
         f).2.2.2 1)) ∧
  (∀ (s : State) (c : CoreId) (f : AluForm) (s1 : State),
      issued s c.val (aluForm (s.core c.val) f).2.2.2 = some s1 →
      exec (.and c f) s = .next (completed s1 c.val (putResult (s1.core c.val) (aluForm (s1.core c.val) f).1
       (aluAnd (aluForm (s1.core c.val) f).2.1 (aluForm (s1.core c.val) f).2.2.1 (s1.core c.val).st)) (aluForm (s.core c.val)
         f).2.2.2 1)) ∧
  (∀ (s : State) (c : CoreId) (f : AluForm) (s1 : State),
      issued s c.val (aluForm (s.core c.val) f).2.2.2 = some s1 →
      exec (.or c f) s = .next (completed s1 c.val (putResult (s1.core c.val) (aluForm (s1.core c.val) f).1
       (aluOr (aluForm (s1.core c.val) f).2.1 (aluForm (s1.core c.val) f).2.2.1 (s1.core c.val).st)) (aluForm (s.core c.val)
         f).2.2.2 1)) ∧
  (∀ (s : State) (c : CoreId) (f : AluForm) (s1 : State),
      issued s c.val (aluForm (s.core c.val) f).2.2.2 = some s1 →
      exec (.xor c f) s = .next (completed s1 c.val (putResult (s1.core c.val) (aluForm (s1.core c.val) f).1
       (aluXor (aluForm (s1.core c.val) f).2.1 (aluForm (s1.core c.val) f).2.2.1 (s1.core c.val).st)) (aluForm (s.core c.val)
         f).2.2.2 1)) ∧
  (∀ (s : State) (c : CoreId) (f : AluForm) (s1 : State),
      issued s c.val (aluForm (s.core c.val) f).2.2.2 = some s1 →
      exec (.adc c f) s = .next (completed s1 c.val (putResult (s1.core c.val) (aluForm (s1.core c.val) f).1
       (aluAdc (aluForm (s1.core c.val) f).2.1 (aluForm (s1.core c.val) f).2.2.1 (s1.core c.val).st)) (aluForm (s.core c.val)
         f).2.2.2 1)) ∧
  (∀ (s : State) (c : CoreId) (f : AluForm) (s1 : State),
      issued s c.val (aluForm (s.core c.val) f).2.2.2 = some s1 →
      exec (.sbc c f) s = .next (completed s1 c.val (putResult (s1.core c.val) (aluForm (s1.core c.val) f).1
       (aluSbc (aluForm (s1.core c.val) f).2.1 (aluForm (s1.core c.val) f).2.2.1 (s1.core c.val).st)) (aluForm (s.core c.val)
         f).2.2.2 1)) ∧
  (∀ (s : State) (c : CoreId) (f : AluForm) (s1 : State),
      issued s c.val (aluForm (s.core c.val) f).2.2.2 = some s1 →
      exec (.mul c f) s = .next (completed s1 c.val (putResult (s1.core c.val) (aluForm (s1.core c.val) f).1
       (aluMul (aluForm (s1.core c.val) f).2.1 (aluForm (s1.core c.val) f).2.2.1 (s1.core c.val).st)) (aluForm (s.core c.val)
         f).2.2.2 1)) ∧
  (∀ (s : State) (c : CoreId) (rd ra rb : Reg) (s1 : State),
      issued s c.val 4 = some s1 →
      exec (.andn c rd ra rb) s = .next (completed s1 c.val (putResult (s1.core c.val) rd (aluAndn (gpr (s1.core c.val) ra)
        (gpr (s1.core c.val) rb) (s1.core c.val).st)) 4 1)) ∧
  (∀ (s : State) (c : CoreId) (rd ra rb : Reg) (s1 : State),
      issued s c.val 4 = some s1 →
      exec (.mulh c rd ra rb) s = .next (completed s1 c.val (putResult (s1.core c.val) rd (aluMulh (gpr (s1.core c.val) ra)
        (gpr (s1.core c.val) rb) (s1.core c.val).st)) 4 1)) ∧
  (∀ (s : State) (c : CoreId) (rd ra rb : Reg) (s1 : State),
      issued s c.val 4 = some s1 →
      exec (.mulhu c rd ra rb) s = .next (completed s1 c.val (putResult (s1.core c.val) rd (aluMulhu (gpr (s1.core c.val) ra)
        (gpr (s1.core c.val) rb) (s1.core c.val).st)) 4 1)) ∧
  (∀ (s : State) (c : CoreId) (rd ra rb : Reg) (s1 : State),
      issued s c.val 4 = some s1 →
      exec (.min c rd ra rb) s = .next (completed s1 c.val (putResult (s1.core c.val) rd (aluMin (gpr (s1.core c.val) ra) (gpr
        (s1.core c.val) rb) (s1.core c.val).st)) 4 1)) ∧
  (∀ (s : State) (c : CoreId) (rd ra rb : Reg) (s1 : State),
      issued s c.val 4 = some s1 →
      exec (.max c rd ra rb) s = .next (completed s1 c.val (putResult (s1.core c.val) rd (aluMax (gpr (s1.core c.val) ra) (gpr
        (s1.core c.val) rb) (s1.core c.val).st)) 4 1)) ∧
  (∀ (s : State) (c : CoreId) (rd ra rb : Reg) (s1 : State),
      issued s c.val 4 = some s1 →
      exec (.minu c rd ra rb) s = .next (completed s1 c.val (putResult (s1.core c.val) rd (aluMinu (gpr (s1.core c.val) ra)
        (gpr (s1.core c.val) rb) (s1.core c.val).st)) 4 1)) ∧
  (∀ (s : State) (c : CoreId) (rd ra rb : Reg) (s1 : State),
      issued s c.val 4 = some s1 →
      exec (.maxu c rd ra rb) s = .next (completed s1 c.val (putResult (s1.core c.val) rd (aluMaxu (gpr (s1.core c.val) ra)
        (gpr (s1.core c.val) rb) (s1.core c.val).st)) 4 1))

/-- Shifts, one-operand and immediate ALU instructions complete: result in rd, flags in ST, pc past the instruction (R129,
R130, R134, R135). -/
def Obligations.AluShiftAndImmediateComplete : Prop :=
  (∀ (s : State) (c : CoreId) (f : ShiftForm) (s1 : State),
      issued s c.val (shiftForm (s.core c.val) f).2.2.2 = some s1 →
      exec (.lsl c f) s = .next (completed s1 c.val (putResult (s1.core c.val) (shiftForm (s1.core c.val) f).1
       (aluLsl (shiftForm (s1.core c.val) f).2.1 (shiftForm (s1.core c.val) f).2.2.1 (s1.core c.val).st)) (shiftForm (s.core
         c.val) f).2.2.2 1)) ∧
  (∀ (s : State) (c : CoreId) (f : ShiftForm) (s1 : State),
      issued s c.val (shiftForm (s.core c.val) f).2.2.2 = some s1 →
      exec (.lsr c f) s = .next (completed s1 c.val (putResult (s1.core c.val) (shiftForm (s1.core c.val) f).1
       (aluLsr (shiftForm (s1.core c.val) f).2.1 (shiftForm (s1.core c.val) f).2.2.1 (s1.core c.val).st)) (shiftForm (s.core
         c.val) f).2.2.2 1)) ∧
  (∀ (s : State) (c : CoreId) (f : ShiftForm) (s1 : State),
      issued s c.val (shiftForm (s.core c.val) f).2.2.2 = some s1 →
      exec (.asr c f) s = .next (completed s1 c.val (putResult (s1.core c.val) (shiftForm (s1.core c.val) f).1
       (aluAsr (shiftForm (s1.core c.val) f).2.1 (shiftForm (s1.core c.val) f).2.2.1 (s1.core c.val).st)) (shiftForm (s.core
         c.val) f).2.2.2 1)) ∧
  (∀ (s : State) (c : CoreId) (f : ShiftForm) (s1 : State),
      issued s c.val (shiftForm (s.core c.val) f).2.2.2 = some s1 →
      exec (.ror c f) s = .next (completed s1 c.val (putResult (s1.core c.val) (shiftForm (s1.core c.val) f).1
       (aluRor (shiftForm (s1.core c.val) f).2.1 (shiftForm (s1.core c.val) f).2.2.1 (s1.core c.val).st)) (shiftForm (s.core
         c.val) f).2.2.2 1)) ∧
  (∀ (s : State) (c : CoreId) (f : ShiftForm) (s1 : State),
      issued s c.val (shiftForm (s.core c.val) f).2.2.2 = some s1 →
      exec (.rol c f) s = .next (completed s1 c.val (putResult (s1.core c.val) (shiftForm (s1.core c.val) f).1
       (aluRol (shiftForm (s1.core c.val) f).2.1 (shiftForm (s1.core c.val) f).2.2.1 (s1.core c.val).st)) (shiftForm (s.core
         c.val) f).2.2.2 1)) ∧
  (∀ (s : State) (c : CoreId) (rd rb : Reg) (s1 : State),
      issued s c.val 2 = some s1 →
      exec (.not c rd rb) s = .next (completed s1 c.val (putResult (s1.core c.val) rd (aluNot (gpr (s1.core c.val) rb) (s1.core
        c.val).st)) 2 1)) ∧
  (∀ (s : State) (c : CoreId) (rd rb : Reg) (s1 : State),
      issued s c.val 2 = some s1 →
      exec (.neg c rd rb) s = .next (completed s1 c.val (putResult (s1.core c.val) rd (aluNeg (gpr (s1.core c.val) rb) (s1.core
        c.val).st)) 2 1)) ∧
  (∀ (s : State) (c : CoreId) (f : AddiForm) (s1 : State),
      issued s c.val (addiForm (s.core c.val) f).2.2.2 = some s1 →
      exec (.addi c f) s = .next (completed s1 c.val (putResult (s1.core c.val) (addiForm (s1.core c.val) f).1
       (aluAdd (addiForm (s1.core c.val) f).2.1 (addiForm (s1.core c.val) f).2.2.1 (s1.core c.val).st)) (addiForm (s.core
         c.val) f).2.2.2 1)) ∧
  (∀ (s : State) (c : CoreId) (rd ra : Reg) (imm : BitVec 16) (s1 : State),
      issued s c.val 4 = some s1 →
      exec (.andi c rd ra imm) s = .next (completed s1 c.val (putResult (s1.core c.val) rd (aluAnd (gpr (s1.core c.val) ra)
        (imm.zeroExtend 32) (s1.core c.val).st)) 4 1)) ∧
  (∀ (s : State) (c : CoreId) (rd ra : Reg) (imm : BitVec 16) (s1 : State),
      issued s c.val 4 = some s1 →
      exec (.ori c rd ra imm) s = .next (completed s1 c.val (putResult (s1.core c.val) rd (aluOr (gpr (s1.core c.val) ra)
        (imm.zeroExtend 32) (s1.core c.val).st)) 4 1)) ∧
  (∀ (s : State) (c : CoreId) (rd ra : Reg) (imm : BitVec 16) (s1 : State),
      issued s c.val 4 = some s1 →
      exec (.xori c rd ra imm) s = .next (completed s1 c.val (putResult (s1.core c.val) rd (aluXor (gpr (s1.core c.val) ra)
        (imm.zeroExtend 32) (s1.core c.val).st)) 4 1))

/-- Moves, extends, counts and divisions complete: their registers written, ST as R136 and R147 say, pc past the instruction
(R131, R132, R136, R147). -/
def Obligations.MovesExtendsAndDivisionComplete : Prop :=
  (∀ (s : State) (c : CoreId) (rd rb : Reg) (s1 : State),
      issued s c.val 2 = some s1 →
      exec (.mov c rd rb) s = .next (completed s1 c.val (setGpr (s1.core c.val) rd (gpr (s1.core c.val) rb)) 2 1)) ∧
  (∀ (s : State) (c : CoreId) (rd rb : Reg) (s1 : State),
      issued s c.val 2 = some s1 →
      exec (.sxb c rd rb) s = .next (completed s1 c.val (setGpr (s1.core c.val) rd (aluSxb (gpr (s1.core c.val) rb))) 2 1)) ∧
  (∀ (s : State) (c : CoreId) (rd rb : Reg) (s1 : State),
      issued s c.val 2 = some s1 →
      exec (.sxh c rd rb) s = .next (completed s1 c.val (setGpr (s1.core c.val) rd (aluSxh (gpr (s1.core c.val) rb))) 2 1)) ∧
  (∀ (s : State) (c : CoreId) (rd rb : Reg) (s1 : State),
      issued s c.val 2 = some s1 →
      exec (.zxb c rd rb) s = .next (completed s1 c.val (setGpr (s1.core c.val) rd (aluZxb (gpr (s1.core c.val) rb))) 2 1)) ∧
  (∀ (s : State) (c : CoreId) (rd rb : Reg) (s1 : State),
      issued s c.val 2 = some s1 →
      exec (.zxh c rd rb) s = .next (completed s1 c.val (setGpr (s1.core c.val) rd (aluZxh (gpr (s1.core c.val) rb))) 2 1)) ∧
  (∀ (s : State) (c : CoreId) (rd rb : Reg) (s1 : State),
      issued s c.val 2 = some s1 →
      exec (.clz c rd rb) s = .next (completed s1 c.val (setGpr (s1.core c.val) rd (aluClz (gpr (s1.core c.val) rb))) 2 1)) ∧
  (∀ (s : State) (c : CoreId) (rd rb : Reg) (s1 : State),
      issued s c.val 2 = some s1 →
      exec (.popc c rd rb) s = .next (completed s1 c.val (setGpr (s1.core c.val) rd (aluPopc (gpr (s1.core c.val) rb))) 2 1)) ∧
  (∀ (s : State) (c : CoreId) (rd rb : Reg) (s1 : State),
      issued s c.val 2 = some s1 →
      exec (.bswap c rd rb) s = .next (completed s1 c.val (setGpr (s1.core c.val) rd (aluBswap (gpr (s1.core c.val) rb))) 2 1))
        ∧
  (∀ (s : State) (c : CoreId) (f : MoviForm) (s1 : State),
      issued s c.val (moviForm f).2.2 = some s1 →
      exec (.movi c f) s = .next (completed s1 c.val (setGpr (s1.core c.val) (moviForm f).1 (moviForm f).2.1) (moviForm f).2.2
        1)) ∧
  (∀ (s : State) (c : CoreId) (rd : Reg) (imm : BitVec 16) (s1 : State),
      issued s c.val 4 = some s1 →
      exec (.movhi c rd imm) s = .next (completed s1 c.val (setGpr (s1.core c.val) rd (imm ++ (gpr (s1.core c.val)
        rd).extractLsb' 0 16)) 4 1)) ∧
  (∀ (s : State) (c : CoreId) (rd : Reg) (imm : BitVec 22) (s1 : State),
      issued s c.val 4 = some s1 →
      exec (.adr c rd imm) s = .next (completed s1 c.val (setGpr (s1.core c.val) rd ((s1.core c.val).pc + (imm.signExtend 32
        <<< 1))) 4 1)) ∧
  (∀ (s : State) (c : CoreId) (rd ra rb rr : Reg) (s1 : State),
      issued s c.val 4 = some s1 →
      (gpr (s1.core c.val) rb ≠ 0#32 ∨ stBit (s1.core c.val).st stDZT = false) →
      exec (.div c rd ra rb rr) s = .next (completed s1 c.val (setGpr (setGpr
        { s1.core c.val with st := (divide true (gpr (s1.core c.val) ra) (gpr (s1.core c.val) rb) (s1.core c.val).st).2.2 } rd
       (divide true (gpr (s1.core c.val) ra) (gpr (s1.core c.val) rb) (s1.core c.val).st).1) rr
       (divide true (gpr (s1.core c.val) ra) (gpr (s1.core c.val) rb) (s1.core c.val).st).2.1) 4 34)) ∧
  (∀ (s : State) (c : CoreId) (rd ra rb rr : Reg) (s1 : State),
      issued s c.val 4 = some s1 →
      (gpr (s1.core c.val) rb ≠ 0#32 ∨ stBit (s1.core c.val).st stDZT = false) →
      exec (.divu c rd ra rb rr) s = .next (completed s1 c.val (setGpr (setGpr
        { s1.core c.val with st := (divide false (gpr (s1.core c.val) ra) (gpr (s1.core c.val) rb) (s1.core c.val).st).2.2 } rd
       (divide false (gpr (s1.core c.val) ra) (gpr (s1.core c.val) rb) (s1.core c.val).st).1) rr
       (divide false (gpr (s1.core c.val) ra) (gpr (s1.core c.val) rb) (s1.core c.val).st).2.1) 4 34))

/-- Skips, branches and special-register moves complete: the next PC, the cost and the registers the spec gives (R137, R139,
R141, R148). -/
def Obligations.SkipAndBranchComplete : Prop :=
  (∀ (s : State) (c : CoreId) (cond : Cond) (ra rb : Reg) (s1 : State) (x : Nat × State),
      issued s c.val 2 = some s1 →
      (condHolds cond (gpr (s1.core c.val) ra) (gpr (s1.core c.val) rb) = true →
        fetchedAt s1 c.val ((s1.core c.val).pc + 2#32) = some x) →
      (condHolds cond (gpr (s1.core c.val) ra) (gpr (s1.core c.val) rb) = true →
        offGate c.val ((s1.core c.val).pc + 2#32 + (if bitOf x.1 15 then 4 else 2)) = true) →
      exec (.skipOnRegisters c cond ra rb) s = .next (if condHolds cond (gpr (s1.core c.val) ra) (gpr (s1.core c.val) rb) then
        goneTo x.2 c.val (x.2.core c.val) ((s1.core c.val).pc + 2#32 + (if bitOf x.1 15 then 4 else 2)) 2
       else completed s1 c.val (s1.core c.val) 2 1)) ∧
  (∀ (s : State) (c : CoreId) (cond : Cond) (ra : Reg) (imm : BitVec 16) (s1 : State) (x : Nat × State),
      issued s c.val 4 = some s1 →
      (condHolds cond (gpr (s1.core c.val) ra) (skipImm cond imm) = true →
        fetchedAt s1 c.val ((s1.core c.val).pc + 4#32) = some x) →
      (condHolds cond (gpr (s1.core c.val) ra) (skipImm cond imm) = true →
        offGate c.val ((s1.core c.val).pc + 4#32 + (if bitOf x.1 15 then 4 else 2)) = true) →
      exec (.skipi c cond ra imm) s = .next (if condHolds cond (gpr (s1.core c.val) ra) (skipImm cond imm) then goneTo x.2
        c.val (x.2.core c.val) ((s1.core c.val).pc + 4#32 + (if bitOf x.1 15 then 4 else 2)) 2
       else completed s1 c.val (s1.core c.val) 4 1)) ∧
  (∀ (s : State) (c : CoreId) (ra : Reg) (imm : BitVec 5) (s1 : State) (x : Nat × State),
      issued s c.val 2 = some s1 →
      ((gpr (s1.core c.val) ra == imm.signExtend 32) = true → fetchedAt s1 c.val ((s1.core c.val).pc + 2#32) = some x) →
      ((gpr (s1.core c.val) ra == imm.signExtend 32) = true → offGate c.val ((s1.core c.val).pc + 2#32 + (if bitOf x.1 15 then
        4 else 2)) = true) →
      exec (.seqi c ra imm) s = .next (if (gpr (s1.core c.val) ra == imm.signExtend 32) then goneTo x.2 c.val (x.2.core c.val)
        ((s1.core c.val).pc + 2#32 + (if bitOf x.1 15 then 4 else 2)) 2
       else completed s1 c.val (s1.core c.val) 2 1)) ∧
  (∀ (s : State) (c : CoreId) (ra : Reg) (b : Fin 32) (s1 : State) (x : Nat × State),
      issued s c.val 2 = some s1 →
      ((gpr (s1.core c.val) ra).getLsbD b.val = true → fetchedAt s1 c.val ((s1.core c.val).pc + 2#32) = some x) →
      ((gpr (s1.core c.val) ra).getLsbD b.val = true → offGate c.val ((s1.core c.val).pc + 2#32 + (if bitOf x.1 15 then 4 else
        2)) = true) →
      exec (.sbs c ra b) s = .next (if (gpr (s1.core c.val) ra).getLsbD b.val then goneTo x.2 c.val (x.2.core c.val) ((s1.core
        c.val).pc + 2#32 + (if bitOf x.1 15 then 4 else 2)) 2
       else completed s1 c.val (s1.core c.val) 2 1)) ∧
  (∀ (s : State) (c : CoreId) (ra : Reg) (b : Fin 32) (s1 : State) (x : Nat × State),
      issued s c.val 2 = some s1 →
      ((!(gpr (s1.core c.val) ra).getLsbD b.val) = true → fetchedAt s1 c.val ((s1.core c.val).pc + 2#32) = some x) →
      ((!(gpr (s1.core c.val) ra).getLsbD b.val) = true → offGate c.val ((s1.core c.val).pc + 2#32 + (if bitOf x.1 15 then 4
        else 2)) = true) →
      exec (.sbz c ra b) s = .next (if (!(gpr (s1.core c.val) ra).getLsbD b.val) then goneTo x.2 c.val (x.2.core c.val)
        ((s1.core c.val).pc + 2#32 + (if bitOf x.1 15 then 4 else 2)) 2
       else completed s1 c.val (s1.core c.val) 2 1)) ∧
  (∀ (s : State) (c : CoreId) (cond : FlagCond) (s1 : State) (x : Nat × State),
      issued s c.val 2 = some s1 →
      (flagHolds cond (s1.core c.val).st = true → fetchedAt s1 c.val ((s1.core c.val).pc + 2#32) = some x) →
      (flagHolds cond (s1.core c.val).st = true → offGate c.val ((s1.core c.val).pc + 2#32 + (if bitOf x.1 15 then 4 else 2)) =
        true) →
      exec (.sfl c cond) s = .next (if flagHolds cond (s1.core c.val).st then goneTo x.2 c.val (x.2.core c.val) ((s1.core
        c.val).pc + 2#32 + (if bitOf x.1 15 then 4 else 2)) 2
       else completed s1 c.val (s1.core c.val) 2 1)) ∧
  (∀ (s : State) (c : CoreId) (f : BranchForm) (s1 : State),
      issued s c.val (branchForm 0 f).2 = some s1 →
      offGate c.val (branchForm (s1.core c.val).pc f).1 = true →
      exec (.b c f) s = .next (goneTo s1 c.val (s1.core c.val) (branchForm (s1.core c.val).pc f).1 2)) ∧
  (∀ (s : State) (c : CoreId) (rt : Reg) (s1 : State),
      issued s c.val 2 = some s1 →
      (gpr (s1.core c.val) rt).getLsbD 0 = false →
      offGate c.val (gpr (s1.core c.val) rt) = true →
      exec (.br c rt) s = .next (goneTo s1 c.val (s1.core c.val) (gpr (s1.core c.val) rt) 2)) ∧
  (∀ (s : State) (c : CoreId) (s1 : State),
      issued s c.val 2 = some s1 →
      exec (.nop c) s = .next (completed s1 c.val (s1.core c.val) 2 1)) ∧
  (∀ (s : State) (c : CoreId) (rd : Reg) (sn : Fin 32) (s1 : State),
      issued s c.val 4 = some s1 →
      srPresent sn.val = true →
      sn.val ≠ 5 →
      sn.val ≠ 6 →
      exec (.mfs c rd sn) s = .next (completed s1 c.val (setGpr (s1.core c.val) rd (srGet c.val (s1.core c.val) sn.val)) 4 1)) ∧
  (∀ (s : State) (c : CoreId) (sn : Fin 32) (ra : Reg) (s1 : State),
      issued s c.val 4 = some s1 →
      srWritable sn.val = true →
      exec (.mts c sn ra) s = .next (completed s1 c.val (srSet (s1.core c.val) sn.val (gpr (s1.core c.val) ra)) 4 (if sn.val =
        1 ∨ sn.val = 2 then 1 else 3)))

/-- Loads and stores complete: the register or the bytes written, pc past the instruction, one cycle (R90, R91, R133, R145).
-/
def Obligations.LoadAndStoreComplete : Prop :=
  (∀ (s : State) (c : CoreId) (f : WordForm) (s1 : State) (x : Nat × State),
      issued s c.val (wordForm (s.core c.val) f).2.2.2 = some s1 →
      loadedAt s1 c.val (baseKind (wordForm (s1.core c.val) f).2.1 false) (wordForm (s1.core c.val) f).2.2.1 4 = some x →
      offGate c.val ((s1.core c.val).pc + BitVec.ofNat 32 (wordForm (s1.core c.val) f).2.2.2) = true →
      exec (.ldw c f) s = .next (goneTo x.2 c.val (setGpr (x.2.core c.val) (wordForm (s1.core c.val) f).1 (BitVec.ofNat 32
        x.1)) ((s1.core c.val).pc + BitVec.ofNat 32 (wordForm (s1.core c.val) f).2.2.2) 1)) ∧
  (∀ (s : State) (c : CoreId) (f : WordForm) (s1 x : State),
      issued s c.val (wordForm (s.core c.val) f).2.2.2 = some s1 →
      storedAt s1 c.val (baseKind (wordForm (s1.core c.val) f).2.1 true) (wordForm (s1.core c.val) f).2.2.1 4 (gpr (s1.core
        c.val) (wordForm (s1.core c.val) f).1).toNat = some x →
      offGate c.val ((s1.core c.val).pc + BitVec.ofNat 32 (wordForm (s1.core c.val) f).2.2.2) = true →
      exec (.stw c f) s = .next (goneTo x c.val (x.core c.val) ((s1.core c.val).pc + BitVec.ofNat 32 (wordForm (s1.core c.val)
        f).2.2.2) 1)) ∧
  (∀ (s : State) (c : CoreId) (rd ra : Reg) (imm : BitVec 16) (s1 : State) (x : Nat × State),
      issued s c.val 4 = some s1 →
      loadedAt s1 c.val (baseKind ra false) (gpr (s1.core c.val) ra + imm.signExtend 32) 2 = some x →
      offGate c.val ((s1.core c.val).pc + 4#32) = true →
      exec (.ldh c rd ra imm) s = .next (goneTo x.2 c.val (setGpr (x.2.core c.val) rd ((BitVec.ofNat 16 x.1).signExtend 32))
        ((s1.core c.val).pc + 4#32) 1)) ∧
  (∀ (s : State) (c : CoreId) (rd ra : Reg) (imm : BitVec 16) (s1 : State) (x : Nat × State),
      issued s c.val 4 = some s1 →
      loadedAt s1 c.val (baseKind ra false) (gpr (s1.core c.val) ra + imm.signExtend 32) 2 = some x →
      offGate c.val ((s1.core c.val).pc + 4#32) = true →
      exec (.ldhu c rd ra imm) s = .next (goneTo x.2 c.val (setGpr (x.2.core c.val) rd ((BitVec.ofNat 16 x.1).zeroExtend 32))
        ((s1.core c.val).pc + 4#32) 1)) ∧
  (∀ (s : State) (c : CoreId) (rd ra : Reg) (imm : BitVec 16) (s1 : State) (x : Nat × State),
      issued s c.val 4 = some s1 →
      loadedAt s1 c.val (baseKind ra false) (gpr (s1.core c.val) ra + imm.signExtend 32) 1 = some x →
      offGate c.val ((s1.core c.val).pc + 4#32) = true →
      exec (.ldb c rd ra imm) s = .next (goneTo x.2 c.val (setGpr (x.2.core c.val) rd ((BitVec.ofNat 8 x.1).signExtend 32))
        ((s1.core c.val).pc + 4#32) 1)) ∧
  (∀ (s : State) (c : CoreId) (rd ra : Reg) (imm : BitVec 16) (s1 : State) (x : Nat × State),
      issued s c.val 4 = some s1 →
      loadedAt s1 c.val (baseKind ra false) (gpr (s1.core c.val) ra + imm.signExtend 32) 1 = some x →
      offGate c.val ((s1.core c.val).pc + 4#32) = true →
      exec (.ldbu c rd ra imm) s = .next (goneTo x.2 c.val (setGpr (x.2.core c.val) rd ((BitVec.ofNat 8 x.1).zeroExtend 32))
        ((s1.core c.val).pc + 4#32) 1)) ∧
  (∀ (s : State) (c : CoreId) (rs ra : Reg) (imm : BitVec 16) (s1 x : State),
      issued s c.val 4 = some s1 →
      storedAt s1 c.val (baseKind ra true) (gpr (s1.core c.val) ra + imm.signExtend 32) 2 ((gpr (s1.core c.val) rs).toNat % 2 ^
        16) = some x →
      offGate c.val ((s1.core c.val).pc + 4#32) = true →
      exec (.sth c rs ra imm) s = .next (goneTo x c.val (x.core c.val) ((s1.core c.val).pc + 4#32) 1)) ∧
  (∀ (s : State) (c : CoreId) (rs ra : Reg) (imm : BitVec 16) (s1 x : State),
      issued s c.val 4 = some s1 →
      storedAt s1 c.val (baseKind ra true) (gpr (s1.core c.val) ra + imm.signExtend 32) 1 ((gpr (s1.core c.val) rs).toNat % 2 ^
        8) = some x →
      offGate c.val ((s1.core c.val).pc + 4#32) = true →
      exec (.stb c rs ra imm) s = .next (goneTo x c.val (x.core c.val) ((s1.core c.val).pc + 4#32) 1)) ∧
  (∀ (s : State) (c : CoreId) (rd : Reg) (size : AccSize) (off : BitVec 16) (s1 : State) (x : Nat × State),
      issued s c.val 4 = some s1 →
      loadedAt s1 c.val .read (shortAddr (s1.core c.val) off) (sizeBytes size) = some x →
      offGate c.val ((s1.core c.val).pc + 4#32) = true →
      exec (.lda c rd size off) s = .next (goneTo x.2 c.val (setGpr (x.2.core c.val) rd (BitVec.ofNat 32 x.1)) ((s1.core
        c.val).pc + 4#32) 1)) ∧
  (∀ (s : State) (c : CoreId) (rs : Reg) (size : AccSize) (off : BitVec 16) (s1 x : State),
      issued s c.val 4 = some s1 →
      storedAt s1 c.val .write (shortAddr (s1.core c.val) off) (sizeBytes size) ((gpr (s1.core c.val) rs).toNat % 2 ^ (8 *
        sizeBytes size)) = some x →
      offGate c.val ((s1.core c.val).pc + 4#32) = true →
      exec (.sta c rs size off) s = .next (goneTo x c.val (x.core c.val) ((s1.core c.val).pc + 4#32) 1))

/-- Calls, returns, traps, interrupts, waits and fences complete with the frame, registers and mode the spec gives (R103,
R104, R106, R107, R109, R110, R111, R114, R142, R143, R148, R163). -/
def Obligations.CallReturnAndExceptionComplete : Prop :=
  (∀ (s : State) (c : CoreId) (rt : Reg) (mask : BitVec 16) (s1 x : State),
      issued s c.val 4 = some s1 →
      mask.getLsbD 14 = false →
      (gpr (s1.core c.val) rt).getLsbD 0 = false →
      (gpr (s1.core c.val) spReg).toNat % 4 = 0 →
      checkWords s1 c.val (gpr (s1.core c.val) spReg - BitVec.ofNat 32 (4 * ((maskRegs mask).length + 1))) ((maskRegs
        mask).length + 1) = none →
      pushedAt s1 c.val (gpr (s1.core c.val) spReg - BitVec.ofNat 32 (4 * ((maskRegs mask).length + 1)))
       (((s1.core c.val).pc + 4#32) :: (maskRegs mask).map (gpr (s1.core c.val))) = some x →
      offGate c.val (gpr (s1.core c.val) rt) = true →
      exec (.call c rt mask) s = .next (goneTo x c.val (setGpr (x.core c.val) spReg (gpr (s1.core c.val) spReg - BitVec.ofNat
        32 (4 * ((maskRegs mask).length + 1))))
       (gpr (s1.core c.val) rt) (3 + (maskRegs mask).length))) ∧
  (∀ (s : State) (c : CoreId) (mask : BitVec 16) (s1 x : State) (pc : Word) (vs : List Word),
      issued s c.val 4 = some s1 →
      mask.getLsbD 14 = false →
      (gpr (s1.core c.val) spReg).toNat % 4 = 0 →
      poppedAt s1 c.val (gpr (s1.core c.val) spReg) ((maskRegs mask).length + 1) = some (pc :: vs, x) →
      pc.getLsbD 0 = false →
      offGate c.val pc = true →
      exec (.ret c mask) s = .next (goneTo x c.val (setGpr (setRegs (x.core c.val) ((maskRegs mask).zip vs)) spReg
       (gpr (s1.core c.val) spReg + BitVec.ofNat 32 (4 * ((maskRegs mask).length + 1)))) pc (3 + (maskRegs mask).length))) ∧
  (∀ (s : State) (c : CoreId) (s1 x : State) (pc st : Word),
      issued s c.val 2 = some s1 →
      (s1.core c.val).exdepth ≠ 0 →
      (gpr (s1.core c.val) spReg).toNat % 4 = 0 →
      poppedAt s1 c.val (gpr (s1.core c.val) spReg) 2 = some ([pc, st], x) →
      pc.getLsbD 0 = false →
      offGate c.val pc = true →
      exec (.rte c) s = .next (goneTo x c.val (setGpr
        { x.core c.val with st := restoredSt (x.core c.val).st st, exdepth := (x.core c.val).exdepth - 1 } spReg
       (gpr (s1.core c.val) spReg + 16)) pc 4)) ∧
  (∀ (s : State) (c : CoreId) (n : BitVec 8) (s1 x : State),
      issued s c.val 2 = some s1 →
      framedAt s1 c.val ⟨8, 0, 0, n.toNat, true, false, 0⟩ ((s.core c.val).pc + 2#32) = some x →
      exec (.trap c n) s = .next (entered s1 x c.val ⟨8, 0, 0, n.toNat, true, false, 0⟩)) ∧
  (∀ (s : State) (c : CoreId) (w : InstrWord) (s1 x : State),
      isIllegal w = true →
      issued s c.val (illegalWidth w) = some s1 →
      framedAt s1 c.val (illegalTrap (illegalFaddr w)) (s.core c.val).pc = some x →
      exec (.illegalInstruction c w) s = .next (entered s1 x c.val (illegalTrap (illegalFaddr w)))) ∧
  (∀ (s : State) (c : CoreId) (p : Trap × State) (x : State),
      mayIssue s c.val = true →
      atGate s c.val = false →
      fetchTrap s c.val = some p →
      framedAt p.2 c.val p.1 (returnPc p.1 (s.core c.val).pc 2) = some x →
      exec (.fetchFault c) s = .next (entered p.2 x c.val p.1)) ∧
  (∀ (s : State) (c : CoreId) (x : State),
      (s.core c.val).run = .run →
      irqDue s c.val = true →
      framedAt s c.val irqTrap (s.core c.val).pc = some x →
      exec (.externalInterrupt c) s = .next (entered s x c.val irqTrap)) ∧
  (∀ (s : State) (c : CoreId) (s1 : State),
      issued s c.val 2 = some s1 →
      irqPending s1 c.val = false →
      exec (.wait c) s = .next (s1.setCore c.val
        { s1.core c.val with pc := (s1.core c.val).pc + 2#32, cycle := (s1.core c.val).cycle + 1, run := .wait })) ∧
  (∀ (s : State) (c : CoreId),
      (s.core c.val).run = .wait →
      irqPending s c.val = true →
      irqOpen (s.core c.val) = false →
      s.cores.length = 36 →
      offGate c.val (s.core c.val).pc = true →
      exec (.waitWake c) s = .next (s.setCore c.val { s.core c.val with run := .run })) ∧
  (∀ (s : State) (c : CoreId) (s1 x : State),
      issued s c.val 2 = some s1 →
      flushMerge s1 (fun e => e.owner == some c.val) = x →
      coreRuns x c.val = true →
      (x.core c.val).ev = [] →
      exec (.fence c) s = .next (goneTo x c.val (x.core c.val) ((s1.core c.val).pc + 2#32) 1)) ∧
  (∀ (s : State) (c : CoreId),
      (s.core c.val).run = .fence →
      (s.core c.val).ev = [] →
      s.merge = [] →
      s.cores.length = 36 →
      offGate c.val (s.core c.val).pc = true →
      exec (.fenceDone c) s = .next (s.setCore c.val { s.core c.val with run := .run }))

/-- CACHE instructions act on the line by address, on the set and way, or on the whole cache, and complete (R151, R152, R153,
R154, R165). -/
def Obligations.CacheInstructionsComplete : Prop :=
  (∀ (s : State) (c : CoreId) (ra : Reg) (s1 x : State) (g : Nat),
      issued s c.val 4 = some s1 →
      cacheLine s1 c.val .read (gpr (s1.core c.val) ra) = some g →
      x = (match findWay (s1.core c.val).dc (cacheSets c.val) g with | some e => cleanSlot s1 c.val e.1 | none => s1) →
      coreRuns x c.val = true →
      exec (.cacheCleanDc c (.addr ra)) s = .next (goneTo x c.val (x.core c.val) ((s1.core c.val).pc + 4#32) 2)) ∧
  (∀ (s : State) (c : CoreId) (ra : Reg) (s1 x : State),
      issued s c.val 4 = some s1 →
      x = cleanSlot s1 c.val (wayOf c.val (gpr (s1.core c.val) ra)) →
      coreRuns x c.val = true →
      exec (.cacheCleanDc c (.setWay ra)) s = .next (goneTo x c.val (x.core c.val) ((s1.core c.val).pc + 4#32) 2)) ∧
  (∀ (s : State) (c : CoreId) (s1 x : State),
      issued s c.val 4 = some s1 →
      x = cleanAll s1 c.val →
      coreRuns x c.val = true →
      exec (.cacheCleanDc c .all) s = .next (goneTo x c.val (x.core c.val) ((s1.core c.val).pc + 4#32) (if c.val < 32 then 512
        else 1024))) ∧
  (∀ (s : State) (c : CoreId) (ra : Reg) (s1 x : State) (g : Nat),
      issued s c.val 4 = some s1 →
      cacheLine s1 c.val .read (gpr (s1.core c.val) ra) = some g →
      x = (match findWay (s1.core c.val).dc (cacheSets c.val) g with | some e => dropSlot s1 c.val e.1 | none => s1) →
      coreRuns x c.val = true →
      exec (.cacheInvalidateDc c (.addr ra)) s = .next (goneTo x c.val (x.core c.val) ((s1.core c.val).pc + 4#32) 2)) ∧
  (∀ (s : State) (c : CoreId) (ra : Reg) (s1 x : State),
      issued s c.val 4 = some s1 →
      x = dropSlot s1 c.val (wayOf c.val (gpr (s1.core c.val) ra)) →
      coreRuns x c.val = true →
      exec (.cacheInvalidateDc c (.setWay ra)) s = .next (goneTo x c.val (x.core c.val) ((s1.core c.val).pc + 4#32) 2)) ∧
  (∀ (s : State) (c : CoreId) (s1 x : State),
      issued s c.val 4 = some s1 →
      x = (dropAll s1 c.val).raise (ccDcOk c.val) →
      coreRuns x c.val = true →
      exec (.cacheInvalidateDc c .all) s = .next (goneTo x c.val (x.core c.val) ((s1.core c.val).pc + 4#32) (if c.val < 32 then
        512 else 1024))) ∧
  (∀ (s : State) (c : CoreId) (ra : Reg) (s1 x : State) (g : Nat),
      issued s c.val 4 = some s1 →
      cacheLine s1 c.val .read (gpr (s1.core c.val) ra) = some g →
      x = (match findWay (s1.core c.val).dc (cacheSets c.val) g with | some e => dropSlot (cleanSlot s1 c.val e.1) c.val e.1 | none => s1)
        →
      coreRuns x c.val = true →
      exec (.cacheCleanInvalidateDc c (.addr ra)) s = .next (goneTo x c.val (x.core c.val) ((s1.core c.val).pc + 4#32) 2)) ∧
  (∀ (s : State) (c : CoreId) (ra : Reg) (s1 x : State),
      issued s c.val 4 = some s1 →
      x = dropSlot (cleanSlot s1 c.val (wayOf c.val (gpr (s1.core c.val) ra))) c.val (wayOf c.val (gpr (s1.core c.val) ra)) →
      coreRuns x c.val = true →
      exec (.cacheCleanInvalidateDc c (.setWay ra)) s = .next (goneTo x c.val (x.core c.val) ((s1.core c.val).pc + 4#32) 2)) ∧
  (∀ (s : State) (c : CoreId) (s1 x : State),
      issued s c.val 4 = some s1 →
      x = (dropAll (cleanAll s1 c.val) c.val).raise (ccDcOk c.val) →
      coreRuns x c.val = true →
      exec (.cacheCleanInvalidateDc c .all) s = .next (goneTo x c.val (x.core c.val) ((s1.core c.val).pc + 4#32) (if c.val < 32
        then 512 else 1024))) ∧
  (∀ (s : State) (c : CoreId) (ra : Reg) (s1 x : State) (g : Nat),
      issued s c.val 4 = some s1 →
      cacheLine s1 c.val .fetch (gpr (s1.core c.val) ra) = some g →
      x = (match findWay (s1.core c.val).ic (cacheSets c.val) g with | some e => dropISlot s1 c.val e.1 | none => s1) →
      coreRuns x c.val = true →
      exec (.cacheInvalidateIc c (.addr ra)) s = .next (goneTo x c.val (x.core c.val) ((s1.core c.val).pc + 4#32) 2)) ∧
  (∀ (s : State) (c : CoreId) (ra : Reg) (s1 x : State),
      issued s c.val 4 = some s1 →
      x = dropISlot s1 c.val (wayOf c.val (gpr (s1.core c.val) ra)) →
      coreRuns x c.val = true →
      exec (.cacheInvalidateIc c (.setWay ra)) s = .next (goneTo x c.val (x.core c.val) ((s1.core c.val).pc + 4#32) 2)) ∧
  (∀ (s : State) (c : CoreId) (s1 x : State),
      issued s c.val 4 = some s1 →
      x = (dropAllI s1 c.val).raise (ccIcOk c.val) →
      coreRuns x c.val = true →
      exec (.cacheInvalidateIc c .all) s = .next (goneTo x c.val (x.core c.val) ((s1.core c.val).pc + 4#32) (if c.val < 32 then
        512 else 1024)))

/-- Each operation of the gate routine answers in w0 and w1 and returns to its caller (R432, R433). -/
def Obligations.GateRoutineComplete : Prop :=
  (∀ (s : State) (c : CoreId)  (r : Nat × Nat × State) (sp : Word),
      32 ≤ c.val →
      mayIssue s c.val = true →
      (s.core c.val).pc = gateEntry →
      (gpr (s.core c.val) 0).toNat = 1 →
      r = gateErase s (gateArg (s.core c.val)) →
      coreRuns r.2.2 c.val = true →
      sp = gpr (r.2.2.core c.val) spReg →
      sp.toNat % 4 = 0 →
      sp.toNat + 4 ≤ 0x400000 →
      (segCheck (r.2.2.core c.val) .stackRead sp 4).isSome = true →
      targetOf r.2.2 (houseBase + sp.toNat) = .house →
      r.2.2.flag (ccDcEn c.val) = false →
      (r.2.2.core c.val).ev = [] →
      r.2.2.ecc.syn = [] →
      r.2.2.dramBad = [] →
      r.2.2.memNat (houseBase + sp.toNat) 4 % 2 = 0 →
      ∃ t, exec (.gateErase c) s = .next t ∧ gpr (t.core c.val) 0 = BitVec.ofNat 32 r.1 ∧
        gpr (t.core c.val) 1 = BitVec.ofNat 32 r.2.1 ∧
       (t.core c.val).pc = BitVec.ofNat 32 (r.2.2.memNat (houseBase + sp.toNat) 4) ∧ gpr (t.core c.val) spReg = sp + 4 ∧
       t = { r.2.2 with cores := t.cores, free := t.free }) ∧
  (∀ (s : State) (c : CoreId)  (r : Nat × Nat × State) (sp : Word),
      32 ≤ c.val →
      mayIssue s c.val = true →
      (s.core c.val).pc = gateEntry →
      (gpr (s.core c.val) 0).toNat = 2 →
      r = gateProgram s (gateArg (s.core c.val)) (gateSrc (s.core c.val)) →
      coreRuns r.2.2 c.val = true →
      sp = gpr (r.2.2.core c.val) spReg →
      sp.toNat % 4 = 0 →
      sp.toNat + 4 ≤ 0x400000 →
      (segCheck (r.2.2.core c.val) .stackRead sp 4).isSome = true →
      targetOf r.2.2 (houseBase + sp.toNat) = .house →
      r.2.2.flag (ccDcEn c.val) = false →
      (r.2.2.core c.val).ev = [] →
      r.2.2.ecc.syn = [] →
      r.2.2.dramBad = [] →
      r.2.2.memNat (houseBase + sp.toNat) 4 % 2 = 0 →
      ∃ t, exec (.gateProgram c) s = .next t ∧ gpr (t.core c.val) 0 = BitVec.ofNat 32 r.1 ∧
        gpr (t.core c.val) 1 = BitVec.ofNat 32 r.2.1 ∧
       (t.core c.val).pc = BitVec.ofNat 32 (r.2.2.memNat (houseBase + sp.toNat) 4) ∧ gpr (t.core c.val) spReg = sp + 4 ∧
       t = { r.2.2 with cores := t.cores, free := t.free }) ∧
  (∀ (s : State) (c : CoreId) (fault ok : Bool) (r : Nat × Nat × State) (sp : Word),
      32 ≤ c.val →
      mayIssue s c.val = true →
      (s.core c.val).pc = gateEntry →
      (gpr (s.core c.val) 0).toNat = 3 →
      r = gateCommit s (gateArg (s.core c.val)) (gateSrc (s.core c.val)) fault ok →
      coreRuns r.2.2 c.val = true →
      sp = gpr (r.2.2.core c.val) spReg →
      sp.toNat % 4 = 0 →
      sp.toNat + 4 ≤ 0x400000 →
      (segCheck (r.2.2.core c.val) .stackRead sp 4).isSome = true →
      targetOf r.2.2 (houseBase + sp.toNat) = .house →
      r.2.2.flag (ccDcEn c.val) = false →
      (r.2.2.core c.val).ev = [] →
      r.2.2.ecc.syn = [] →
      r.2.2.dramBad = [] →
      r.2.2.memNat (houseBase + sp.toNat) 4 % 2 = 0 →
      ∃ t, exec (.gateCommit c fault ok) s = .next t ∧ gpr (t.core c.val) 0 = BitVec.ofNat 32 r.1 ∧
        gpr (t.core c.val) 1 = BitVec.ofNat 32 r.2.1 ∧
       (t.core c.val).pc = BitVec.ofNat 32 (r.2.2.memNat (houseBase + sp.toNat) 4) ∧ gpr (t.core c.val) spReg = sp + 4 ∧
       t = { r.2.2 with cores := t.cores, free := t.free }) ∧
  (∀ (s : State) (c : CoreId) (fault ok : Bool) (r : Nat × Nat × State) (sp : Word),
      32 ≤ c.val →
      mayIssue s c.val = true →
      (s.core c.val).pc = gateEntry →
      (gpr (s.core c.val) 0).toNat = 4 →
      r = gateActivate s (gateArg (s.core c.val)) fault ok →
      coreRuns r.2.2 c.val = true →
      sp = gpr (r.2.2.core c.val) spReg →
      sp.toNat % 4 = 0 →
      sp.toNat + 4 ≤ 0x400000 →
      (segCheck (r.2.2.core c.val) .stackRead sp 4).isSome = true →
      targetOf r.2.2 (houseBase + sp.toNat) = .house →
      r.2.2.flag (ccDcEn c.val) = false →
      (r.2.2.core c.val).ev = [] →
      r.2.2.ecc.syn = [] →
      r.2.2.dramBad = [] →
      r.2.2.memNat (houseBase + sp.toNat) 4 % 2 = 0 →
      ∃ t, exec (.gateActivate c fault ok) s = .next t ∧ gpr (t.core c.val) 0 = BitVec.ofNat 32 r.1 ∧
        gpr (t.core c.val) 1 = BitVec.ofNat 32 r.2.1 ∧
       (t.core c.val).pc = BitVec.ofNat 32 (r.2.2.memNat (houseBase + sp.toNat) 4) ∧ gpr (t.core c.val) spReg = sp + 4 ∧
       t = { r.2.2 with cores := t.cores, free := t.free }) ∧
  (∀ (s : State) (c : CoreId) (ok0 ok1 : Bool) (r : Nat × Nat × State) (sp : Word),
      32 ≤ c.val →
      mayIssue s c.val = true →
      (s.core c.val).pc = gateEntry →
      (gpr (s.core c.val) 0).toNat = 5 →
      r = gateGrown s (gateArg (s.core c.val)) ok0 ok1 →
      coreRuns r.2.2 c.val = true →
      sp = gpr (r.2.2.core c.val) spReg →
      sp.toNat % 4 = 0 →
      sp.toNat + 4 ≤ 0x400000 →
      (segCheck (r.2.2.core c.val) .stackRead sp 4).isSome = true →
      targetOf r.2.2 (houseBase + sp.toNat) = .house →
      r.2.2.flag (ccDcEn c.val) = false →
      (r.2.2.core c.val).ev = [] →
      r.2.2.ecc.syn = [] →
      r.2.2.dramBad = [] →
      r.2.2.memNat (houseBase + sp.toNat) 4 % 2 = 0 →
      ∃ t, exec (.gateGrown c ok0 ok1) s = .next t ∧ gpr (t.core c.val) 0 = BitVec.ofNat 32 r.1 ∧
        gpr (t.core c.val) 1 = BitVec.ofNat 32 r.2.1 ∧
       (t.core c.val).pc = BitVec.ofNat 32 (r.2.2.memNat (houseBase + sp.toNat) 4) ∧ gpr (t.core c.val) spReg = sp + 4 ∧
       t = { r.2.2 with cores := t.cores, free := t.free })

/-- A due step of a lane operation reads its sources, makes the lanes of R189 and Table 6.4, writes its destination and
selects the next step (R187, R189, R195). -/
def Obligations.MarionetteLaneStepsComplete : Prop :=
  (∀ (s : State) (ti : TileId) (st : Step) (s1 s2 : State),
      dueAs s ti.val 0x00 = some st →
      s1 = s →
      puttable s1 ti.val st ({ plain ((s1.tile ti.val).mari) 0 0 with zero := true }) = some s2 →
      exec (.mariNop ti) s = .next (finishExec s2 ti.val st [] ({ plain ((s1.tile ti.val).mari) 0 0 with zero := true }))) ∧
  (∀ (s : State) (ti : TileId) (st : Step) (a : Nat × Nat) (s1 s2 : State),
      dueAs s ti.val 0x01 = some st →
      gotOf (readSrc s ti.val st st.srca) = some (a, s1) →
      puttable s1 ti.val st (plain ((s1.tile ti.val).mari) a.1 a.2) = some s2 →
      exec (.mariMov ti) s = .next (finishExec s2 ti.val st (streamsA st) (plain ((s1.tile ti.val).mari) a.1 a.2))) ∧
  (∀ (s : State) (ti : TileId) (st : Step) (a b : Nat × Nat) (s1 s2 : State),
      dueAs s ti.val 0x02 = some st →
      gotOf (readAB s ti.val st) = some ((a, b), s1) →
      puttable s1 ti.val st
        ({ plain ((s1.tile ti.val).mari) (packLanes st.w (narrowAll st st.w (List.zipWith (fun p q => (fun x y : Int => x + y) (laneVal st.sgn st.w p) (laneVal st.sgn st.w q)) (lanesOf st.w a.1 st.lanes) (lanesOf st.w b.1 st.lanes))).1) (tagAB st a.2 b.2) with clamped := (narrowAll st st.w (List.zipWith (fun p q => (fun x y : Int => x + y) (laneVal st.sgn st.w p) (laneVal st.sgn st.w q)) (lanesOf st.w a.1 st.lanes) (lanesOf st.w b.1 st.lanes))).2 })
        = some s2 →
      exec (.mariAdd ti) s = .next (finishExec s2 ti.val st (streamsAB st)
        ({ plain ((s1.tile ti.val).mari) (packLanes st.w (narrowAll st st.w (List.zipWith (fun p q => (fun x y : Int => x + y) (laneVal st.sgn st.w p) (laneVal st.sgn st.w q)) (lanesOf st.w a.1 st.lanes) (lanesOf st.w b.1 st.lanes))).1) (tagAB st a.2 b.2) with clamped := (narrowAll st st.w (List.zipWith (fun p q => (fun x y : Int => x + y) (laneVal st.sgn st.w p) (laneVal st.sgn st.w q)) (lanesOf st.w a.1 st.lanes) (lanesOf st.w b.1 st.lanes))).2 })))
        ∧
  (∀ (s : State) (ti : TileId) (st : Step) (a b : Nat × Nat) (s1 s2 : State),
      dueAs s ti.val 0x03 = some st →
      gotOf (readAB s ti.val st) = some ((a, b), s1) →
      puttable s1 ti.val st
        ({ plain ((s1.tile ti.val).mari) (packLanes st.w (narrowAll st st.w (List.zipWith (fun p q => (fun x y : Int => x - y) (laneVal st.sgn st.w p) (laneVal st.sgn st.w q)) (lanesOf st.w a.1 st.lanes) (lanesOf st.w b.1 st.lanes))).1) (tagAB st a.2 b.2) with clamped := (narrowAll st st.w (List.zipWith (fun p q => (fun x y : Int => x - y) (laneVal st.sgn st.w p) (laneVal st.sgn st.w q)) (lanesOf st.w a.1 st.lanes) (lanesOf st.w b.1 st.lanes))).2 })
        = some s2 →
      exec (.mariSub ti) s = .next (finishExec s2 ti.val st (streamsAB st)
        ({ plain ((s1.tile ti.val).mari) (packLanes st.w (narrowAll st st.w (List.zipWith (fun p q => (fun x y : Int => x - y) (laneVal st.sgn st.w p) (laneVal st.sgn st.w q)) (lanesOf st.w a.1 st.lanes) (lanesOf st.w b.1 st.lanes))).1) (tagAB st a.2 b.2) with clamped := (narrowAll st st.w (List.zipWith (fun p q => (fun x y : Int => x - y) (laneVal st.sgn st.w p) (laneVal st.sgn st.w q)) (lanesOf st.w a.1 st.lanes) (lanesOf st.w b.1 st.lanes))).2 })))
        ∧
  (∀ (s : State) (ti : TileId) (st : Step) (a b : Nat × Nat) (s1 s2 : State),
      dueAs s ti.val 0x04 = some st →
      gotOf (readAB s ti.val st) = some ((a, b), s1) →
      puttable s1 ti.val st
        ({ plain ((s1.tile ti.val).mari) (packLanes st.w (narrowAll st st.w (List.zipWith (fun p q => (fun x y : Int => min x y) (laneVal st.sgn st.w p) (laneVal st.sgn st.w q)) (lanesOf st.w a.1 st.lanes) (lanesOf st.w b.1 st.lanes))).1) (tagAB st a.2 b.2) with clamped := (narrowAll st st.w (List.zipWith (fun p q => (fun x y : Int => min x y) (laneVal st.sgn st.w p) (laneVal st.sgn st.w q)) (lanesOf st.w a.1 st.lanes) (lanesOf st.w b.1 st.lanes))).2 })
        = some s2 →
      exec (.mariMin ti) s = .next (finishExec s2 ti.val st (streamsAB st)
        ({ plain ((s1.tile ti.val).mari) (packLanes st.w (narrowAll st st.w (List.zipWith (fun p q => (fun x y : Int => min x y) (laneVal st.sgn st.w p) (laneVal st.sgn st.w q)) (lanesOf st.w a.1 st.lanes) (lanesOf st.w b.1 st.lanes))).1) (tagAB st a.2 b.2) with clamped := (narrowAll st st.w (List.zipWith (fun p q => (fun x y : Int => min x y) (laneVal st.sgn st.w p) (laneVal st.sgn st.w q)) (lanesOf st.w a.1 st.lanes) (lanesOf st.w b.1 st.lanes))).2 })))
        ∧
  (∀ (s : State) (ti : TileId) (st : Step) (a b : Nat × Nat) (s1 s2 : State),
      dueAs s ti.val 0x05 = some st →
      gotOf (readAB s ti.val st) = some ((a, b), s1) →
      puttable s1 ti.val st
        ({ plain ((s1.tile ti.val).mari) (packLanes st.w (narrowAll st st.w (List.zipWith (fun p q => (fun x y : Int => max x y) (laneVal st.sgn st.w p) (laneVal st.sgn st.w q)) (lanesOf st.w a.1 st.lanes) (lanesOf st.w b.1 st.lanes))).1) (tagAB st a.2 b.2) with clamped := (narrowAll st st.w (List.zipWith (fun p q => (fun x y : Int => max x y) (laneVal st.sgn st.w p) (laneVal st.sgn st.w q)) (lanesOf st.w a.1 st.lanes) (lanesOf st.w b.1 st.lanes))).2 })
        = some s2 →
      exec (.mariMax ti) s = .next (finishExec s2 ti.val st (streamsAB st)
        ({ plain ((s1.tile ti.val).mari) (packLanes st.w (narrowAll st st.w (List.zipWith (fun p q => (fun x y : Int => max x y) (laneVal st.sgn st.w p) (laneVal st.sgn st.w q)) (lanesOf st.w a.1 st.lanes) (lanesOf st.w b.1 st.lanes))).1) (tagAB st a.2 b.2) with clamped := (narrowAll st st.w (List.zipWith (fun p q => (fun x y : Int => max x y) (laneVal st.sgn st.w p) (laneVal st.sgn st.w q)) (lanesOf st.w a.1 st.lanes) (lanesOf st.w b.1 st.lanes))).2 })))
        ∧
  (∀ (s : State) (ti : TileId) (st : Step) (a b : Nat × Nat) (s1 s2 : State),
      dueAs s ti.val 0x06 = some st →
      gotOf (readAB s ti.val st) = some ((a, b), s1) →
      puttable s1 ti.val st (plain ((s1.tile ti.val).mari) (a.1 &&& b.1) (tagAB st a.2 b.2)) = some s2 →
      exec (.mariAnd ti) s = .next (finishExec s2 ti.val st (streamsAB st) (plain ((s1.tile ti.val).mari) (a.1 &&& b.1) (tagAB
        st a.2 b.2)))) ∧
  (∀ (s : State) (ti : TileId) (st : Step) (a b : Nat × Nat) (s1 s2 : State),
      dueAs s ti.val 0x07 = some st →
      gotOf (readAB s ti.val st) = some ((a, b), s1) →
      puttable s1 ti.val st (plain ((s1.tile ti.val).mari) (a.1 ||| b.1) (tagAB st a.2 b.2)) = some s2 →
      exec (.mariOr ti) s = .next (finishExec s2 ti.val st (streamsAB st) (plain ((s1.tile ti.val).mari) (a.1 ||| b.1) (tagAB
        st a.2 b.2)))) ∧
  (∀ (s : State) (ti : TileId) (st : Step) (a b : Nat × Nat) (s1 s2 : State),
      dueAs s ti.val 0x08 = some st →
      gotOf (readAB s ti.val st) = some ((a, b), s1) →
      puttable s1 ti.val st (plain ((s1.tile ti.val).mari) (a.1 ^^^ b.1) (tagAB st a.2 b.2)) = some s2 →
      exec (.mariXor ti) s = .next (finishExec s2 ti.val st (streamsAB st) (plain ((s1.tile ti.val).mari) (a.1 ^^^ b.1) (tagAB
        st a.2 b.2)))) ∧
  (∀ (s : State) (ti : TileId) (st : Step) (a b : Nat × Nat) (s1 s2 : State),
      dueAs s ti.val 0x09 = some st →
      gotOf (readAB s ti.val st) = some ((a, b), s1) →
      puttable s1 ti.val st (maskExec s1 ti.val st (List.zipWith (fun p q => (fun x y : Int => decide (y < x)) (laneVal st.sgn
        st.w p) (laneVal st.sgn st.w q)) (lanesOf st.w a.1 st.lanes) (lanesOf st.w b.1 st.lanes)) ((List.zipWith (fun p q =>
        (fun x y : Int => decide (y < x)) (laneVal st.sgn st.w p) (laneVal st.sgn st.w q)) (lanesOf st.w a.1 st.lanes) (lanesOf
        st.w b.1 st.lanes)).map (fun k => if k then 2 ^ (8 * st.w) - 1 else 0)) (tagAB st a.2 b.2)) = some s2 →
      exec (.mariCmpgt ti) s = .next (finishExec s2 ti.val st (streamsAB st) (maskExec s1 ti.val st (List.zipWith (fun p q =>
        (fun x y : Int => decide (y < x)) (laneVal st.sgn st.w p) (laneVal st.sgn st.w q)) (lanesOf st.w a.1 st.lanes) (lanesOf
        st.w b.1 st.lanes)) ((List.zipWith (fun p q => (fun x y : Int => decide (y < x)) (laneVal st.sgn st.w p) (laneVal
        st.sgn st.w q)) (lanesOf st.w a.1 st.lanes) (lanesOf st.w b.1 st.lanes)).map (fun k => if k then 2 ^ (8 * st.w) - 1
        else 0)) (tagAB st a.2 b.2)))) ∧
  (∀ (s : State) (ti : TileId) (st : Step) (a b : Nat × Nat) (s1 s2 : State),
      dueAs s ti.val 0x0A = some st →
      gotOf (readAB s ti.val st) = some ((a, b), s1) →
      puttable s1 ti.val st (maskExec s1 ti.val st (List.zipWith (fun p q => (fun x y : Int => decide (y ≤ x)) (laneVal st.sgn
        st.w p) (laneVal st.sgn st.w q)) (lanesOf st.w a.1 st.lanes) (lanesOf st.w b.1 st.lanes)) ((List.zipWith (fun p q =>
        (fun x y : Int => decide (y ≤ x)) (laneVal st.sgn st.w p) (laneVal st.sgn st.w q)) (lanesOf st.w a.1 st.lanes) (lanesOf
        st.w b.1 st.lanes)).map (fun k => if k then 2 ^ (8 * st.w) - 1 else 0)) (tagAB st a.2 b.2)) = some s2 →
      exec (.mariCmpge ti) s = .next (finishExec s2 ti.val st (streamsAB st) (maskExec s1 ti.val st (List.zipWith (fun p q =>
        (fun x y : Int => decide (y ≤ x)) (laneVal st.sgn st.w p) (laneVal st.sgn st.w q)) (lanesOf st.w a.1 st.lanes) (lanesOf
        st.w b.1 st.lanes)) ((List.zipWith (fun p q => (fun x y : Int => decide (y ≤ x)) (laneVal st.sgn st.w p) (laneVal
        st.sgn st.w q)) (lanesOf st.w a.1 st.lanes) (lanesOf st.w b.1 st.lanes)).map (fun k => if k then 2 ^ (8 * st.w) - 1
        else 0)) (tagAB st a.2 b.2)))) ∧
  (∀ (s : State) (ti : TileId) (st : Step) (a b : Nat × Nat) (s1 s2 : State),
      dueAs s ti.val 0x0B = some st →
      gotOf (readAB s ti.val st) = some ((a, b), s1) →
      puttable s1 ti.val st (maskExec s1 ti.val st (List.zipWith (fun p q => (fun x y : Int => decide (x = y)) (laneVal st.sgn
        st.w p) (laneVal st.sgn st.w q)) (lanesOf st.w a.1 st.lanes) (lanesOf st.w b.1 st.lanes)) ((List.zipWith (fun p q =>
        (fun x y : Int => decide (x = y)) (laneVal st.sgn st.w p) (laneVal st.sgn st.w q)) (lanesOf st.w a.1 st.lanes) (lanesOf
        st.w b.1 st.lanes)).map (fun k => if k then 2 ^ (8 * st.w) - 1 else 0)) (tagAB st a.2 b.2)) = some s2 →
      exec (.mariCmpeq ti) s = .next (finishExec s2 ti.val st (streamsAB st) (maskExec s1 ti.val st (List.zipWith (fun p q =>
        (fun x y : Int => decide (x = y)) (laneVal st.sgn st.w p) (laneVal st.sgn st.w q)) (lanesOf st.w a.1 st.lanes) (lanesOf
        st.w b.1 st.lanes)) ((List.zipWith (fun p q => (fun x y : Int => decide (x = y)) (laneVal st.sgn st.w p) (laneVal
        st.sgn st.w q)) (lanesOf st.w a.1 st.lanes) (lanesOf st.w b.1 st.lanes)).map (fun k => if k then 2 ^ (8 * st.w) - 1
        else 0)) (tagAB st a.2 b.2)))) ∧
  (∀ (s : State) (ti : TileId) (st : Step) (a : Nat × Nat) (s1 s2 : State),
      dueAs s ti.val 0x0C = some st →
      gotOf (readSrc s ti.val st st.srca) = some (a, s1) →
      (puttable s1 ti.val st (maskExec s1 ti.val st ((lanesOf st.w a.1 st.lanes).map (fun x => decide ((fun (x : Nat) => if
        st.lw = 0 then laneVal st.sgn 1 (x % 256) else laneVal st.sgn 2 x) (st.imm % 65536) ≤ laneVal st.sgn st.w x ∧
        laneVal st.sgn st.w x ≤ (fun (x : Nat) => if st.lw = 0 then laneVal st.sgn 1 (x % 256) else laneVal st.sgn 2 x) (st.imm
        / 65536)))) (List.zipWith (fun x (k : Bool) => if k then x else 0) (lanesOf st.w a.1 st.lanes) ((lanesOf st.w a.1
        st.lanes).map (fun x => decide ((fun (x : Nat) => if st.lw = 0 then laneVal st.sgn 1 (x % 256) else laneVal st.sgn 2 x)
        (st.imm % 65536) ≤ laneVal st.sgn st.w x ∧ laneVal st.sgn st.w x ≤ (fun (x : Nat) => if st.lw = 0 then laneVal st.sgn 1
        (x % 256) else laneVal st.sgn 2 x) (st.imm / 65536))))) a.2) = some s2) →
      exec (.mariThr ti) s = .next (finishExec s2 ti.val st (streamsA st) (maskExec s1 ti.val st ((lanesOf st.w a.1
        st.lanes).map (fun x => decide ((fun (x : Nat) => if st.lw = 0 then laneVal st.sgn 1 (x % 256) else laneVal st.sgn 2 x)
        (st.imm % 65536) ≤ laneVal st.sgn st.w x ∧ laneVal st.sgn st.w x ≤ (fun (x : Nat) => if st.lw = 0 then laneVal st.sgn 1
        (x % 256) else laneVal st.sgn 2 x) (st.imm / 65536)))) (List.zipWith (fun x (k : Bool) => if k then x else 0) (lanesOf
        st.w a.1 st.lanes) ((lanesOf st.w a.1 st.lanes).map (fun x => decide ((fun (x : Nat) => if st.lw = 0 then laneVal
        st.sgn 1 (x % 256) else laneVal st.sgn 2 x) (st.imm % 65536) ≤ laneVal st.sgn st.w x ∧
        laneVal st.sgn st.w x ≤ (fun (x : Nat) => if st.lw = 0 then laneVal st.sgn 1 (x % 256) else laneVal st.sgn 2 x) (st.imm
        / 65536))))) a.2))) ∧
  (∀ (s : State) (ti : TileId) (st : Step) (a b : Nat × Nat) (s1 s2 : State),
      dueAs s ti.val 0x0D = some st →
      gotOf (readAB s ti.val st) = some ((a, b), s1) →
      puttable s1 ti.val st (plain ((s1.tile ti.val).mari) (packLanes st.w ((List.range st.lanes).map (fun i => bitsOf (if
        (maskOf s1 ti.val st.msel).testBit i then a.1 else b.1) (8 * st.w * i) (8 * st.w)))) (tagAB st a.2 b.2)) = some s2 →
      exec (.mariSel ti) s = .next (finishExec s2 ti.val st (streamsAB st) (plain ((s1.tile ti.val).mari) (packLanes st.w
        ((List.range st.lanes).map (fun i => bitsOf (if (maskOf s1 ti.val st.msel).testBit i then a.1 else b.1) (8 * st.w * i)
        (8 * st.w)))) (tagAB st a.2 b.2)))) ∧
  (∀ (s : State) (ti : TileId) (st : Step) (a : Nat × Nat) (s1 s2 : State),
      dueAs s ti.val 0x0E = some st →
      gotOf (readSrc s ti.val st st.srca) = some (a, s1) →
      puttable s1 ti.val st
        ({ plain ((s1.tile ti.val).mari) (packLanes st.w (narrowAll st st.w ((lanesOf st.w a.1 st.lanes).map (fun x => laneVal st.sgn st.w x * ((2 ^ st.sh : Nat) : Int)))).1) a.2 with clamped := (narrowAll st st.w ((lanesOf st.w a.1 st.lanes).map (fun x => laneVal st.sgn st.w x * ((2 ^ st.sh : Nat) : Int)))).2 })
        = some s2 →
      exec (.mariShl ti) s = .next (finishExec s2 ti.val st (streamsA st)
        ({ plain ((s1.tile ti.val).mari) (packLanes st.w (narrowAll st st.w ((lanesOf st.w a.1 st.lanes).map (fun x => laneVal st.sgn st.w x * ((2 ^ st.sh : Nat) : Int)))).1) a.2 with clamped := (narrowAll st st.w ((lanesOf st.w a.1 st.lanes).map (fun x => laneVal st.sgn st.w x * ((2 ^ st.sh : Nat) : Int)))).2 })))
        ∧
  (∀ (s : State) (ti : TileId) (st : Step) (a : Nat × Nat) (s1 s2 : State),
      dueAs s ti.val 0x0F = some st →
      gotOf (readSrc s ti.val st st.srca) = some (a, s1) →
      puttable s1 ti.val st
        ({ plain ((s1.tile ti.val).mari) (packLanes st.w (narrowAll st st.w ((lanesOf st.w a.1 st.lanes).map (fun x => laneVal st.sgn st.w x / ((2 ^ st.sh : Nat) : Int)))).1) a.2 with clamped := (narrowAll st st.w ((lanesOf st.w a.1 st.lanes).map (fun x => laneVal st.sgn st.w x / ((2 ^ st.sh : Nat) : Int)))).2 })
        = some s2 →
      exec (.mariShr ti) s = .next (finishExec s2 ti.val st (streamsA st)
        ({ plain ((s1.tile ti.val).mari) (packLanes st.w (narrowAll st st.w ((lanesOf st.w a.1 st.lanes).map (fun x => laneVal st.sgn st.w x / ((2 ^ st.sh : Nat) : Int)))).1) a.2 with clamped := (narrowAll st st.w ((lanesOf st.w a.1 st.lanes).map (fun x => laneVal st.sgn st.w x / ((2 ^ st.sh : Nat) : Int)))).2 })))
        ∧
  (∀ (s : State) (ti : TileId) (st : Step) (a b : Nat × Nat) (s1 s2 : State),
      dueAs s ti.val 0x10 = some st →
      gotOf (readAB s ti.val st) = some ((a, b), s1) →
      puttable s1 ti.val st
        ({ plain ((s1.tile ti.val).mari) (packLanes (st.w / 2) (narrowAll st (st.w / 2) (((lanesOf st.w a.1 st.lanes) ++ (lanesOf st.w b.1 st.lanes)).map (fun x => laneVal st.sgn st.w x / ((2 ^ st.sh : Nat) : Int)))).1) (tagAB st a.2 b.2) with clamped := (narrowAll st (st.w / 2) (((lanesOf st.w a.1 st.lanes) ++ (lanesOf st.w b.1 st.lanes)).map (fun x => laneVal st.sgn st.w x / ((2 ^ st.sh : Nat) : Int)))).2 })
        = some s2 →
      exec (.mariShn ti) s = .next (finishExec s2 ti.val st (streamsAB st)
        ({ plain ((s1.tile ti.val).mari) (packLanes (st.w / 2) (narrowAll st (st.w / 2) (((lanesOf st.w a.1 st.lanes) ++ (lanesOf st.w b.1 st.lanes)).map (fun x => laneVal st.sgn st.w x / ((2 ^ st.sh : Nat) : Int)))).1) (tagAB st a.2 b.2) with clamped := (narrowAll st (st.w / 2) (((lanesOf st.w a.1 st.lanes) ++ (lanesOf st.w b.1 st.lanes)).map (fun x => laneVal st.sgn st.w x / ((2 ^ st.sh : Nat) : Int)))).2 })))

/-- The counting, packing, gathering and neighbourhood steps of the marionette, and the loading, end and budget of a run,
complete (R189, R190, R191, R192, R193, R195, R202, R203). -/
def Obligations.MarionetteCountsAndRunsComplete : Prop :=
  (∀ (s : State) (ti : TileId) (st : Step) (s1 s2 : State),
      dueAs s ti.val 0x11 = some st →
      s1 = s →
      puttable s1 ti.val st
        ({ plain ((s1.tile ti.val).mari) (packLanes st.w (List.replicate st.lanes (min (popBits (maskOf s1 ti.val st.msel) st.lanes) (2 ^ (8 * st.w) - 1)))) 0 with zero := (popBits (maskOf s1 ti.val st.msel) st.lanes) == 0, acc := some ((s1.fld (R.TILE_MACC_ACC ti.val) + (popBits (maskOf s1 ti.val st.msel) st.lanes)) % 2 ^ 32) })
        = some s2 →
      exec (.mariPopc ti) s = .next (finishExec s2 ti.val st []
        ({ plain ((s1.tile ti.val).mari) (packLanes st.w (List.replicate st.lanes (min (popBits (maskOf s1 ti.val st.msel) st.lanes) (2 ^ (8 * st.w) - 1)))) 0 with zero := (popBits (maskOf s1 ti.val st.msel) st.lanes) == 0, acc := some ((s1.fld (R.TILE_MACC_ACC ti.val) + (popBits (maskOf s1 ti.val st.msel) st.lanes)) % 2 ^ 32) })))
        ∧
  (∀ (s : State) (ti : TileId) (st : Step) (a : Nat × Nat) (s1 s2 : State),
      dueAs s ti.val 0x12 = some st →
      gotOf (readSrc s ti.val st st.srca) = some (a, s1) →
      (puttable s1 ti.val st
        ({ plain { ((s1.tile ti.val).mari) with carry := unsignedOf (laneVal st.sgn st.w ((narrowAll st st.w (prefixSums (laneVal st.sgn 4 (if ((s1.tile ti.val).mari).fresh ∧ st.imm % 2 = 0 then 0 else ((s1.tile ti.val).mari).carry)) ((lanesOf st.w a.1 st.lanes).map (laneVal st.sgn st.w)))).1.getLast?.getD 0)) 32 } (packLanes st.w (narrowAll st st.w (prefixSums (laneVal st.sgn 4 (if ((s1.tile ti.val).mari).fresh ∧ st.imm % 2 = 0 then 0 else ((s1.tile ti.val).mari).carry)) ((lanesOf st.w a.1 st.lanes).map (laneVal st.sgn st.w)))).1) a.2 with clamped := (narrowAll st st.w (prefixSums (laneVal st.sgn 4 (if ((s1.tile ti.val).mari).fresh ∧ st.imm % 2 = 0 then 0 else ((s1.tile ti.val).mari).carry)) ((lanesOf st.w a.1 st.lanes).map (laneVal st.sgn st.w)))).2 })
        = some s2) →
      exec (.mariPsum ti) s = .next (finishExec s2 ti.val st (streamsA st)
        ({ plain { ((s1.tile ti.val).mari) with carry := unsignedOf (laneVal st.sgn st.w ((narrowAll st st.w (prefixSums (laneVal st.sgn 4 (if ((s1.tile ti.val).mari).fresh ∧ st.imm % 2 = 0 then 0 else ((s1.tile ti.val).mari).carry)) ((lanesOf st.w a.1 st.lanes).map (laneVal st.sgn st.w)))).1.getLast?.getD 0)) 32 } (packLanes st.w (narrowAll st st.w (prefixSums (laneVal st.sgn 4 (if ((s1.tile ti.val).mari).fresh ∧ st.imm % 2 = 0 then 0 else ((s1.tile ti.val).mari).carry)) ((lanesOf st.w a.1 st.lanes).map (laneVal st.sgn st.w)))).1) a.2 with clamped := (narrowAll st st.w (prefixSums (laneVal st.sgn 4 (if ((s1.tile ti.val).mari).fresh ∧ st.imm % 2 = 0 then 0 else ((s1.tile ti.val).mari).carry)) ((lanesOf st.w a.1 st.lanes).map (laneVal st.sgn st.w)))).2 })))
        ∧
  (∀ (s : State) (ti : TileId) (st : Step) (a : Nat × Nat) (s1 s2 : State),
      dueAs s ti.val 0x13 = some st →
      gotOf (readSrc s ti.val st st.srca) = some (a, s1) →
      puttable s1 ti.val st
        ({ plain ((s1.tile ti.val).mari) (packLanes st.w ((selected (maskOf s1 ti.val st.msel) (lanesOf st.w a.1 st.lanes)).map Prod.snd)) a.2 with bytes := some ((((selected (maskOf s1 ti.val st.msel) (lanesOf st.w a.1 st.lanes)).map Prod.snd).map (leBytes st.w)).flatten), zero := ((selected (maskOf s1 ti.val st.msel) (lanesOf st.w a.1 st.lanes)).map Prod.snd).isEmpty })
        = some s2 →
      exec (.mariCpk ti) s = .next (finishExec s2 ti.val st (streamsA st)
        ({ plain ((s1.tile ti.val).mari) (packLanes st.w ((selected (maskOf s1 ti.val st.msel) (lanesOf st.w a.1 st.lanes)).map Prod.snd)) a.2 with bytes := some ((((selected (maskOf s1 ti.val st.msel) (lanesOf st.w a.1 st.lanes)).map Prod.snd).map (leBytes st.w)).flatten), zero := ((selected (maskOf s1 ti.val st.msel) (lanesOf st.w a.1 st.lanes)).map Prod.snd).isEmpty })))
        ∧
  (∀ (s : State) (ti : TileId) (st : Step) (a : Nat × Nat) (s1 s2 : State),
      dueAs s ti.val 0x14 = some st →
      gotOf (readSrc s ti.val st st.srca) = some (a, s1) →
      puttable s1 ti.val st
        ({ plain ((s1.tile ti.val).mari) 0 a.2 with bytes := some (((selected (maskOf s1 ti.val st.msel) (lanesOf st.w a.1 st.lanes)).map (fun e => leBytes 4 ((a.2 + e.1) % 2 ^ 32) ++ leBytes 4 (unsignedOf (laneVal st.sgn st.w e.2) 32))).flatten), zero := (selected (maskOf s1 ti.val st.msel) (lanesOf st.w a.1 st.lanes)).isEmpty })
        = some s2 →
      exec (.mariCpkp ti) s = .next (finishExec s2 ti.val st (streamsA st)
        ({ plain ((s1.tile ti.val).mari) 0 a.2 with bytes := some (((selected (maskOf s1 ti.val st.msel) (lanesOf st.w a.1 st.lanes)).map (fun e => leBytes 4 ((a.2 + e.1) % 2 ^ 32) ++ leBytes 4 (unsignedOf (laneVal st.sgn st.w e.2) 32))).flatten), zero := (selected (maskOf s1 ti.val st.msel) (lanesOf st.w a.1 st.lanes)).isEmpty })))
        ∧
  (∀ (s : State) (ti : TileId) (st : Step) (a : Nat × Nat) (s1 s2 : State) (hov : Bool) (xs : List (Nat × Nat)),
      dueAs s ti.val 0x15 = some st →
      gotOf (readSrc s ti.val st st.srca) = some (a, s1) →
      xs = ((List.range st.lanes).zip (lanesOf st.w a.1 st.lanes)).filter (fun e => !st.mu || (maskOf s1 ti.val
        st.msel).testBit e.1) →
      gotOf (histBins s1 ti.val (st.imm % 2 ^ 20) false (xs.map (fun e => min (e.2 / 2 ^ st.sh) (st.imm / 2 ^ 20)))) = some
        (hov, s2) →
      (st.dst ≠ 8 ∧ st.dst ≠ 9) →
      exec (.mariHist ti) s = .next (finishExec s2 ti.val st (streamsA st)
        { plain (s2.tile ti.val).mari 0 a.2 with zero := xs.isEmpty, hovf := hov })) ∧
  (∀ (s : State) (ti : TileId) (st : Step) (tag : Nat) (rw : Rows) (m : Mari) (s1 s2 : State),
      dueAs s ti.val 0x16 = some st →
      gotOf (readRaster s ti.val st) = some ((tag, some rw, m), s1) →
      puttable s1.fresh.2 ti.val st
        ({ plain m (packLanes st.w (narrowAll st st.w ((List.range st.lanes).map (fun i => (fun (k : Nat) => (nine rw st.w k).foldl (fun x y => x + (match y with | some v => laneVal st.sgn st.w v | none => 0)) (0 : Int)) (rw.col + i)))).1) tag with clamped := (narrowAll st st.w ((List.range st.lanes).map (fun i => (fun (k : Nat) => (nine rw st.w k).foldl (fun x y => x + (match y with | some v => laneVal st.sgn st.w v | none => 0)) (0 : Int)) (rw.col + i)))).2, nbout := true })
        = some s2 →
      exec (.mariNsum3 ti) s = .next (finishExec s2 ti.val st (streamsA st)
        ({ plain m (packLanes st.w (narrowAll st st.w ((List.range st.lanes).map (fun i => (fun (k : Nat) => (nine rw st.w k).foldl (fun x y => x + (match y with | some v => laneVal st.sgn st.w v | none => 0)) (0 : Int)) (rw.col + i)))).1) tag with clamped := (narrowAll st st.w ((List.range st.lanes).map (fun i => (fun (k : Nat) => (nine rw st.w k).foldl (fun x y => x + (match y with | some v => laneVal st.sgn st.w v | none => 0)) (0 : Int)) (rw.col + i)))).2, nbout := true })))
        ∧
  (∀ (s : State) (ti : TileId) (st : Step) (tag : Nat) (rw : Rows) (m : Mari) (s1 s2 : State),
      dueAs s ti.val 0x17 = some st →
      gotOf (readRaster s ti.val st) = some ((tag, some rw, m), s1) →
      puttable s1.fresh.2 ti.val st
        ({ maskExec s1 ti.val st (((List.range st.lanes).map (fun i => nine rw st.w (rw.col + i))).map (isLmax st.sgn st.w)) (((List.range st.lanes).map (fun i => nine rw st.w (rw.col + i))).map (fun x => ((x.getD 4 none).getD 0))) tag with m := m, nbout := true })
        = some s2 →
      exec (.mariLmax3 ti) s = .next (finishExec s2 ti.val st (streamsA st)
        ({ maskExec s1 ti.val st (((List.range st.lanes).map (fun i => nine rw st.w (rw.col + i))).map (isLmax st.sgn st.w)) (((List.range st.lanes).map (fun i => nine rw st.w (rw.col + i))).map (fun x => ((x.getD 4 none).getD 0))) tag with m := m, nbout := true })))
        ∧
  (∀ (s : State) (ti : TileId) (st : Step) (a : Nat × Nat) (s1 s2 s3 : State) (xs : List Nat),
      dueAs s ti.val 0x18 = some st →
      gotOf (readSrc s ti.val st st.srca) = some (a, s1) →
      gotOf (gather s1 ti.val st.w ((lanesOf st.w a.1 st.lanes).map (fun x => st.imm + x * st.w))) = some (xs, s2) →
      puttable s2 ti.val st (plain (s2.tile ti.val).mari (packLanes st.w xs) a.2) = some s3 →
      exec (.mariGath ti) s = .next (finishExec s3 ti.val st (streamsA st) (plain (s2.tile ti.val).mari (packLanes st.w xs)
        a.2))) ∧
  (∀ (s : State) (ti : TileId) (g n : Nat) (bs : List Byte) (s1 : State),
      s.fld (R.TILE_MSTAT_MSTATE ti.val) = 1 →
      g = tileLocalAddr ti.val (tableAddr s ti.val (s.fld (R.TILE_MSET_BASE ti.val) + 64) (s.tile ti.val).mari.tab) →
      n = s.memNat (g + 2) 2 →
      readRam s g (64 + 16 * n) = (bs, s1, none) →
      exec (.mariLoadDone ti) s = .next (mariGo (updMari s1 ti.val (fun m =>
        { m with steps := (List.range n).map (fun i => leAt bs (64 + 16 * i) 16), nstep := n, line := leAt bs 4 2, start := leAt bs 6 2, budget := leAt bs 8 4, step := leAt bs 6 2, k := 0, fresh := true, resident := some (curLoading s ti.val, m.tab) }))
        ti.val)) ∧
  (∀ (s : State) (ti : TileId) (code : Nat),
      (s.tile ti.val).mari.ending = some code →
      s.fld (R.TILE_MSTAT_MSTATE ti.val) = 2 →
      (codecWaiting (s.tile ti.val) = 0 ∧ kqTotal (s.tile ti.val) ≤ 4096) →
      exec (.mariRunEnd ti) s = .next (((updMari s ti.val (fun m => { m with ending := none })).setFlds [(R.TILE_MSTAT_MSTATE
        ti.val, if code = 2 then 3 else 0), (R.TILE_MSTAT_END ti.val, code)]).raise (R.TILE_CIRQ_MARI ti.val))) ∧
  (∀ (s : State) (ti : TileId),
      s.fld (R.TILE_MSTAT_MSTATE ti.val) = 2 →
      (s.tile ti.val).mari.ending = none →
      (s.tile ti.val).mari.budget ≠ 0 →
      s.fld (R.TILE_MEXEC_COUNT ti.val) = (s.tile ti.val).mari.budget →
      exec (.mariBudgetExpiry ti) s = .next (mariEnding s ti.val 7))

/-- Blocks are formed, encoded, verified and written, decode jobs run, keys are scanned and searched, and rules inserted,
deleted and checked (R222, R215, R227, R225, R81, R234, R235, R236, R246, R252, R255, R259). -/
def Obligations.CodecAndIndexCommandsComplete : Prop :=
  (∀ (s : State) (ti : TileId) (g : Seg) (rest : List Seg),
      (s.tile ti.val).segs = g :: rest →
      (s.tile ti.val).formed.length + (s.tile ti.val).encoded.length < 2 →
      g.data.length = 4096 →
      exec (.codecBlockForm ti) s = .next (s.setTile ti.val { s.tile ti.val with
       segs := rest, formed := (s.tile ti.val).formed ++ [⟨g.job, g.prof, g.data, crc32c g.data⟩] })) ∧
  (∀ (s : State) (ti : TileId) (b : InBlock) (rest : List InBlock),
      (s.tile ti.val).formed = b :: rest →
      exec (.codecEncode ti) s = .next (s.setTile ti.val { s.tile ti.val with
       formed := rest, encoded := (s.tile ti.val).encoded ++ [⟨b, (encodeBlock b.prof b.data).1, (encodeBlock b.prof b.data).2.2, (encodeBlock b.prof b.data).2.1⟩] }))
         ∧
  (∀ (s : State) (ti : TileId) (e : EncBlock) (rest : List EncBlock),
      (s.tile ti.val).encoded = e :: rest →
      verify e none = none →
      exec (.verifierDecide ti none) s = .next (s.setTile ti.val
        { s.tile ti.val with encoded := rest, accepted := (s.tile ti.val).accepted ++ [e] })) ∧
  (∀ (s : State) (ti : TileId) (e : EncBlock) (rest : List EncBlock) (test : Nat),
      (s.tile ti.val).encoded = e :: rest →
      verify e none = some test →
      exec (.verifierDecide ti none) s = .next (rejectBlock (s.setTile ti.val { s.tile ti.val with encoded := rest }) ti.val
        e.inp.job test)) ∧
  (∀ (s : State) (ti : TileId) (e : EncBlock) (rest : List EncBlock) (s2 : State),
      (s.tile ti.val).accepted = e :: rest →
      placeBlock (s.setTile ti.val { s.tile ti.val with accepted := rest }) e.inp.job e.bytes = (s2, true) →
      exec (.blockOutputWrite ti) s = .next (if countsHere (countBlock s2 e.mode e.exact) ti.val e.inp.job then (((countBlock
        s2 e.mode e.exact).addWrap (R.TILE_CDBLK_BLOCKS ti.val) 1).addWrap (R.TILE_CDBLK_INEXACT ti.val) (if e.exact then 0
        else 1)).addWrap (R.TILE_CDOUT_BYTES ti.val) e.bytes.length else (countBlock s2 e.mode e.exact))) ∧
  (∀ (s : State) (flow : Fin 262144) (seq : Nat) (p : Parcel) (ti : TileId),
      findParcel s flow.val seq = some p →
      p.st = .ended ti.val →
      rawDue s p = true →
      (s.tile ti.val).job = none →
      exec (.rawStore flow seq false) s = .next (updParcel (((rawBlocks (s.memBytes p.land p.len) (p.len + 1)).foldl (fun x _
        => x.addWrap R.CODEC_STCNT_COUNT 1) (writeMem (s.setFlds [(R.TILE_CDBLK_BLOCKS ti.val, 0), (R.TILE_CDBLK_INEXACT
        ti.val, 0), (R.TILE_CDOUT_BYTES ti.val, 0)]) p.ost (rawBlocks (s.memBytes p.land p.len) (p.len + 1)).flatten none
        tagLocal)).setFlds [(R.TILE_CDBLK_BLOCKS ti.val, (rawBlocks (s.memBytes p.land p.len) (p.len + 1)).length),
        (R.TILE_CDOUT_BYTES ti.val, (rawBlocks (s.memBytes p.land p.len) (p.len + 1)).flatten.length)]) flow.val seq (fun q =>
        { q with raw := true, nblk := (rawBlocks (s.memBytes p.land p.len) (p.len + 1)).length, ebytes := (rawBlocks (s.memBytes p.land p.len) (p.len + 1)).flatten.length, nent := 0 })))
        ∧
  (∀ (s : State) (d : DecJob),
      s.decWait = none →
      blockOn s .codec = true →
      s.fld R.CODEC_DQ_HEAD_IDX ≠ s.fld R.CODEC_DQ_TAIL_IDX →
      (readRam s (dqSlot s (s.fld R.CODEC_DQ_HEAD_IDX)) 32).2.2 = none →
      d = decJobOf (readRam s (dqSlot s (s.fld R.CODEC_DQ_HEAD_IDX)) 32).1 →
      exec .decodeQueueFetch s = .next (assignLane
        { (readRam s (dqSlot s (s.fld R.CODEC_DQ_HEAD_IDX)) 32).2.1.setFld R.CODEC_DQ_HEAD_IDX (s.fld R.CODEC_DQ_HEAD_IDX + 1) with decWait := some d }))
        ∧
  (∀ (s : State) (ti : TileId) (d : DecJob) (e : DecEnd) (s1 : State),
      (s.tile ti.val).lane = some d →
      runDecode s d = (e, s1) →
      exec (.decodeJobEnd ti) s = .next (assignLane ((decComplete s1 ti.val d.tag e).setTile ti.val
        { (decComplete s1 ti.val d.tag e).tile ti.val with lane := none, tileDecRun := ((decComplete s1 ti.val d.tag e).tile ti.val).tileDec.isSome })))
        ∧
  (∀ (s : State) (ti : TileId) (d : DecJob) (e : DecEnd) (s1 : State),
      (s.tile ti.val).tileDec = some d →
      (s.tile ti.val).tileDecRun = true →
      runDecode s d = (e, s1) →
      exec (.tileDecodeJobEnd ti) s = .next (assignLane (((s1.setTile ti.val
        { s1.tile ti.val with tileDec := none, tileDecRun := false }).setFlds [(R.TILE_DRES_STATUS ti.val, e.status),
        (R.TILE_DRES_BUSY ti.val, 0), (R.TILE_DRES_NBLK_OK ti.val, e.blocks), (R.TILE_DOUT_BYTES ti.val, e.bytes)]).raise
        (R.TILE_CIRQ_CODEC ti.val)))) ∧
  (∀ (s : State) (e : Fin 16) (ti : Nat) (k : Key) (q : List Key) (r : Nat × Bool × State),
      tblGet none s.index.engHold e.val = none →
      engineTile s e.val = some ti →
      (s.tile ti).kq = k :: q →
      r = (if (keyProf s k).aset = 0xFF then (0xFFFF, false, (kqTake
        { s with index := { s.index with engTurn := tblSet 0 s.index.engTurn e.val (1 - ti % 2) } } ti)) else scanKey (kqTake
        { s with index := { s.index with engTurn := tblSet 0 s.index.engTurn e.val (1 - ti % 2) } } ti) (keyProf s k).aset
        k.bytes) →
      hasRules r.2.2 k.idxProf = false →
      exec (.automatonScan e) s = .next (emitEntries r.2.2 ti k.job (keyEntries (keyProf s k) ⟨k, ti, r.1, r.2.1⟩ []))) ∧
  (∀ (s : State) (e : Fin 16) (ti : Nat) (k : Key) (q : List Key) (r : Nat × Bool × State),
      tblGet none s.index.engHold e.val = none →
      engineTile s e.val = some ti →
      (s.tile ti).kq = k :: q →
      r = (if (keyProf s k).aset = 0xFF then (0xFFFF, false, (kqTake
        { s with index := { s.index with engTurn := tblSet 0 s.index.engTurn e.val (1 - ti % 2) } } ti)) else scanKey (kqTake
        { s with index := { s.index with engTurn := tblSet 0 s.index.engTurn e.val (1 - ti % 2) } } ti) (keyProf s k).aset
        k.bytes) →
      hasRules r.2.2 k.idxProf = true →
      exec (.automatonScan e) s = .next
        ({ r.2.2 with index := { r.2.2.index with engHold := tblSet none r.2.2.index.engHold e.val (some ⟨k, ti, r.1, r.2.1⟩) } }))
        ∧
  (∀ (s : State) (e : Nat) (sc : Scanned) (ms : List TSlot),
      blockOn s .rule = true →
      ((List.range 16).map (fun i => (s.index.lastEng + 1 + i) % 16)).find? (fun n => (tblGet none s.index.engHold n).isSome) =
        some e →
      tblGet none s.index.engHold e = some sc →
      ms = allMatches s (searchKey sc.report sc.key.idxProf sc.key.bytes) →
      exec .tcamSearch s = .next (emitEntries (if isMulti ms then
        ((({ s with index := { s.index with engHold := tblSet none s.index.engHold e none, lastEng := e } }).addWrap
        R.RULE_SRCH_COUNT 1).addWrap R.RULE_MULTICNT_COUNT 1).raise R.RULE_ISR_MULTI else
        (({ s with index := { s.index with engHold := tblSet none s.index.engHold e none, lastEng := e } }).addWrap
        R.RULE_SRCH_COUNT 1)) sc.tile sc.key.job (keyEntries (keyProf s sc.key) sc ms))) ∧
  (∀ (s : State) (x : TSlot) (s1 : State),
      s.index.op = some (.insert x) →
      insertRule s x = some s1 →
      exec .ruleInsertDone s = .next (ruleLoadNext (({ s1 with index := { s1.index with op := none } }.setFlds
        [(R.RULE_STATUS_BUSY, 0), (R.RULE_CMDRES_RESULT, 0)]).raise R.RULE_ISR_CMDDONE))) ∧
  (∀ (s : State) (set rid : Nat) (e : Nat × TSlot),
      s.index.op = some (.delete set rid) →
      ruleSlot s set rid = some e →
      exec .ruleDeleteDone s = .next (ruleLoadNext
        (({ (writeSlot s e.1 { e.2 with valid := false }) with index := { (writeSlot s e.1 { e.2 with valid := false }).index with op := none } }.setFlds
        [(R.RULE_STATUS_BUSY, 0), (R.RULE_CMDRES_RESULT, 0)]).raise R.RULE_ISR_CMDDONE))) ∧
  (∀ (s : State) (bs : List Byte) (s1 : State),
      s.flag R.RULE_CTRL_CHK_EN = true →
      s.flag R.RULE_STATUS_BUSY = false →
      readRam { s with index := { s.index with checkAt := (s.index.checkAt + 1) % 32768 } } (shadowAddr s s.index.checkAt) 128
        = (bs, s1, none) →
      bitOf (leAt bs 96 1) 0 = (slotAt s1 s.index.checkAt).valid →
      (leAt bs 0 40 = (slotAt s1 s.index.checkAt).value ∧ leAt bs 40 40 = (slotAt s1 s.index.checkAt).mask) →
      exec (.shadowCheck none) s = .next s1)

/-- Power failure, voltage samples, the charger, the qualification's steps and the profiles' stores have the effect of R454 to
R464 (R454, R455, R456, R457, R458, R461, R464). -/
def Obligations.HoldUpCommandsComplete : Prop :=
  (∀ (s : State),
      s.hold.pfail = false →
      flushing s = false →
      s.boot.held = .none →
      s.fld R.SYS_PHASE_PHASE = 12 →
      s.hold.qual = .idle →
      Registers.wf s.regs = true →
      ∃ t, exec (.powerFail none) s = .next t ∧ t.hold.pfail = true ∧ t.fld R.HOLD_STATUS_FLUSH = 1 ∧
        t.fld R.WDT_STATUS_FROZEN = 1 ∧ t.fld R.HOLD_RAIL_DUTY = 0 ∧
       t.hold.flushes = s.hold.flushes + 1 ∧ t.flows.parcels = [] ∧ t.tiles = [] ∧ t.mem = s.mem ∧
       t.media.luns = s.media.luns ∧ t.media.cells = s.media.cells ∧
       t.ftl.cellar.isSome = (s.ftl.cellar.isSome || !(flushRels s).isEmpty)) ∧
  (∀ (s : State),
      s.hold.pfail = true →
      exec (.powerFail none) s = .next s) ∧
  (∀ (s : State) (mv : List Nat),
      s.hold.w = 0 →
      s.hold.qual = .idle →
      exec (.voltageSample mv) s = .next (takeWindow (s.setFlds ((R.HOLD_RAIL_MV, railOf s mv) :: (List.range 4).map (fun n =>
        (R.HOLD_STR_MV_MV n, mv.getD n 0)))))) ∧
  (∀ (s : State) (mv : List Nat),
      s.hold.w ≠ 0 →
      s.hold.pfail = false →
      flushing s = false →
      railOf s mv < pfVACK s.hold.active →
      exec (.voltageSample mv) s = .next (flushStart (((s.setFlds ((R.HOLD_RAIL_MV, railOf s mv) :: (List.range 4).map (fun n
        => (R.HOLD_STR_MV_MV n, mv.getD n 0)))).raise R.HOLD_STATUS_BANKFLT).raise R.HOLD_ISR_BANKFLT) 1 false)) ∧
  (∀ (s : State),
      flushing s = false →
      s.flag R.HOLD_CTRL_EN = true →
      railMv s + 200 < pfVCHG s.hold.active →
      exec .chargerTick s = .next (s.setFld R.HOLD_RAIL_DUTY (min (pfDMAX s.hold.active) (s.fld R.HOLD_RAIL_DUTY + 1)))) ∧
  (∀ (s : State),
      flushing s = false →
      s.flag R.HOLD_CTRL_EN = true →
      pfVCHG s.hold.active ≤ railMv s →
      exec .chargerTick s = .next (s.setFld R.HOLD_RAIL_DUTY (s.fld R.HOLD_RAIL_DUTY - 1))) ∧
  (∀ (s : State),
      s.hold.qual = .charge →
      s.hold.reached = false →
      exec .qualChargeTimeout s = .next (qualEnd s qChgTo)) ∧
  (∀ (s : State) (mv n : Nat),
      s.hold.qual = .settle n →
      exec (.stringTestSettle mv) s = .next
        ({ (s.raise (R.HOLD_STR_MV_LOAD n)) with hold := { s.hold with va := mv, qual := .load n } })) ∧
  (∀ (s : State) (mv n : Nat),
      s.hold.qual = .load n →
      exec (.stringLoadSample mv) s = .next ({ s with hold := { s.hold with vb := mv, qual := .vb n } })) ∧
  (∀ (s : State) (mv n : Nat) (pass : Bool),
      s.hold.qual = .vb n →
      pass = (decide (10 * pfCMIN s.hold.active ≤ (measured s s.hold.active s.hold.va s.hold.vb mv).1) && decide ((measured s
        s.hold.active s.hold.va s.hold.vb mv).2 ≤ 1000 * pfESRMAX s.hold.active)) →
      exec (.stringTestEnd mv) s = .next
        ({ ({ s with free := s.free + 2 }.setFlds [(R.HOLD_STR_MV_LOAD n, 0), (R.HOLD_STR_MV_ISO n, if pass then 1 else 0), (R.HOLD_STR_MEAS_C n, min 0xFFFF ((measured s s.hold.active s.hold.va s.hold.vb mv).1 / 10)), (R.HOLD_STR_MEAS_ESR n, min 0xFFFF ((measured s s.hold.active s.hold.va s.hold.vb mv).2 / 1000))]) with hold := { ({ s with free := s.free + 2 }.setFlds [(R.HOLD_STR_MV_LOAD n, 0), (R.HOLD_STR_MV_ISO n, if pass then 1 else 0), (R.HOLD_STR_MEAS_C n, min 0xFFFF ((measured s s.hold.active s.hold.va s.hold.vb mv).1 / 10)), (R.HOLD_STR_MEAS_ESR n, min 0xFFFF ((measured s s.hold.active s.hold.va s.hold.vb mv).2 / 1000))]).hold with qual := .recharge n, passed := if pass then ({ s with free := s.free + 2 }.setFlds [(R.HOLD_STR_MV_LOAD n, 0), (R.HOLD_STR_MV_ISO n, if pass then 1 else 0), (R.HOLD_STR_MEAS_C n, min 0xFFFF ((measured s s.hold.active s.hold.va s.hold.vb mv).1 / 10)), (R.HOLD_STR_MEAS_ESR n, min 0xFFFF ((measured s s.hold.active s.hold.va s.hold.vb mv).2 / 1000))]).hold.passed ++ [(n, (measured s s.hold.active s.hold.va s.hold.vb mv))] else ({ s with free := s.free + 2 }.setFlds [(R.HOLD_STR_MV_LOAD n, 0), (R.HOLD_STR_MV_ISO n, if pass then 1 else 0), (R.HOLD_STR_MEAS_C n, min 0xFFFF ((measured s s.hold.active s.hold.va s.hold.vb mv).1 / 10)), (R.HOLD_STR_MEAS_ESR n, min 0xFFFF ((measured s s.hold.active s.hold.va s.hold.vb mv).2 / 1000))]).hold.passed } }))
        ∧
  (∀ (s : State) (p : List Byte),
      s.hold.saving = some p →
      exec .holdSaveDone s = .next
        ({ (s.clear R.HOLD_SAVE_BUSY) with hold := { s.hold with saving := none, prof := some p } })) ∧
  (∀ (s : State) (p : List Byte),
      s.therm.saving = some p →
      exec .thermSaveDone s = .next
        ({ (s.clear R.THERM_SAVE_BUSY) with therm := { s.therm with saving := none }, hold := { s.hold with thermProf := some p } }))

/-- Sensor readings set temperatures and speeds, a stalled fan and a trip raise their events, and a pin's edge is latched
(R467, R469, R471, R472, R473). -/
def Obligations.ThermalAndPinCommandsComplete : Prop :=
  (∀ (s : State) (readings : List SensorRead) (rpm : List Nat) (die : Int) (s1 s2 : State),
      blockOn s .therm = false →
      s1 = (List.range 8).foldl (fun x n => match readings[n]? with | some r => chanRead x n r | none => x) s →
      s2 = (List.range 4).foldl (fun x n => match rpm[n]? with | some r => setSpeed x n r | none => x) s1 →
      blockOn s2 .therm = false →
      exec (.thermalSensorRead readings rpm die) s = .next (wholdUpdate
        { s2 with therm := { s2.therm with dieMax := max s2.therm.dieMax die, held := s2.therm.held + s2.fld R.THERM_STATUS_WHOLD } }))
        ∧
  (∀ (s : State) (readings : List SensorRead) (rpm : List Nat) (die : Int) (s1 s2 s3 : State),
      s1 = (List.range 8).foldl (fun x n => match readings[n]? with | some r => chanRead x n r | none => x) s →
      s2 = (List.range 4).foldl (fun x n => match rpm[n]? with | some r => setSpeed x n r | none => x) s1 →
      s3 = { s2 with therm := { s2.therm with dieMax := max s2.therm.dieMax die, held := s2.therm.held + s2.fld R.THERM_STATUS_WHOLD } }
        →
      blockOn s2 .therm = true →
      flushing s2 = false →
      exec (.thermalSensorRead readings rpm die) s = .next (wholdUpdate
        { (s3.setFlds ((List.range 4).map (fun n => (R.THERM_OUT_STAT_DUTY n, outputDuty s3 n)))) with free := s3.free + 4 })) ∧
  (∀ (s : State) (n : Fin 4),
      s.flag (R.THERM_OUT_CFG_MODE n.val) = false →
      s.fld (R.THERM_OUT_STAT_RPM n.val) < s.fld (R.THERM_OUT_CFG_MINRPM n.val) →
      s.fld (R.THERM_OUT_STAT_DUTY n.val) ≠ 0 →
      exec (.fanStall n) s = .next
        ((({ s with therm := { s.therm with stalled := s.therm.stalled.filter (fun m => m != n.val) ++ [n.val] } }).setFlds
        (((List.range 4).filter (fun m => m != n.val && !s.flag (R.THERM_OUT_CFG_MODE m))).map (fun m => (R.THERM_OUT_STAT_DUTY
        m, 0xFF)))).raise R.THERM_ISR_STALL)) ∧
  (∀ (s : State) (die : Int),
      16 * (s.fld R.THERM_TRIP_TRIP : Int) ≤ die →
      exec (.thermalTrip die) s = .next (flushStart (s.raise R.THERM_STATUS_TRIPPED) 0 true)) ∧
  (∀ (s : State) (die : Int),
      die < 16 * (s.fld R.THERM_TRIP_TRIP : Int) →
      exec (.thermalTrip die) s = .next s) ∧
  (∀ (s : State) (n : Fin 16),
      (s.fld R.GPIO_IN_IN).testBit n.val = false →
      (s.fld (R.GPIO_PIN_EDGE n.val)).testBit 0 = true →
      exec (.gpioEdge n true) s = .next ((s.setFld R.GPIO_IN_IN (s.fld R.GPIO_IN_IN + 2 ^ n.val)).setFld R.GPIO_ISR_EDGE (s.fld
        R.GPIO_ISR_EDGE ||| 2 ^ n.val))) ∧
  (∀ (s : State) (n : Fin 16),
      (s.fld R.GPIO_IN_IN).testBit n.val = true →
      (s.fld (R.GPIO_PIN_EDGE n.val)).testBit 1 = false →
      exec (.gpioEdge n false) s = .next (s.setFld R.GPIO_IN_IN (s.fld R.GPIO_IN_IN - 2 ^ n.val)))

/-- DRAM requests, refreshes, retraining pauses, scrubbing and segment clearing have the effect of R380 to R389 (R377, R380,
R381, R382, R383, R384, R385, R386, R389). -/
def Obligations.DramCommandsComplete : Prop :=
  (∀ (s : State) (c : Fin 24) (now fill0 fill1 : Nat) (arrivals : List DramReq) (q : DramReq),
      dchServes s c.val = true →
      (dch (queueReqs (panicUpdate s fill0 fill1) c.val arrivals) c.val).pausing = false →
      nextReq (queueReqs (panicUpdate s fill0 fill1) c.val arrivals) c.val now = some q →
      exec (.dramRequestServe c now fill0 fill1 arrivals) s = .next (serveReq (queueReqs (panicUpdate s fill0 fill1) c.val
        arrivals) c.val q)) ∧
  (∀ (s : State) (c : Fin 24) (bank : Fin 16),
      dchServes s c.val = true →
      (dch s c.val).pausing = false →
      panicOnBank s c.val bank.val = false →
      exec (.refreshDue c bank) s = .next (setDch s c.val
        { dch s c.val with rows := tblSet 0 (dch s c.val).rows bank.val 0, lastBank := bank.val })) ∧
  (∀ (s : State) (c : Fin 24) (bank : Fin 16),
      dchServes s c.val = true →
      (dch s c.val).pausing = false →
      panicOnBank s c.val bank.val = true →
      flushing s = false →
      tblGet 0 (dch s c.val).owed bank.val < 8 →
      exec (.refreshDue c bank) s = .next (owe s c.val bank.val (tblGet 0 (dch s c.val).owed bank.val + 1))) ∧
  (∀ (s : State) (c : Fin 24) (b : Nat),
      dchServes s c.val = true →
      (dch s c.val).pausing = false →
      ((List.range 16).map (fun i => ((dch s c.val).lastBank + 1 + i) % 16)).find? (fun b => tblGet 0 (dch s c.val).owed b != 0
        && (!panicOnBank s c.val b || flushing s)) = some b →
      exec (.owedRefreshIssue c) s = .next (owe (refreshBank s c.val b) c.val b (tblGet 0 (dch s c.val).owed b - 1))) ∧
  (∀ (s : State) (c : Fin 24) (rate : Fin 32),
      dchServes s c.val = true →
      exec (.mr4Poll c rate) s = .next (s.setFld (R.DCH_TEMP_RATE c.val) rate.val)) ∧
  (∀ (s : State) (c : Fin 24),
      dchServes s c.val = true →
      (dch s c.val).pausing = false →
      exec (.retrainPauseDue c) s = .next (if panicRaised s = true ∧
        s.fld R.DRAM_TDEFER_TIME ≠ 0 then (setDch s c.val { dch s c.val with due := true }).raise (R.DCH_STATUS_TDUE c.val)
        else setDch s c.val { dch s c.val with due := true })) ∧
  (∀ (s : State) (c : Fin 24),
      (dch s c.val).due = true →
      s.flag (R.DCH_STATUS_TDUE c.val) = true →
      (dch s c.val).forced = false →
      exec (.retrainDeferExpiry c) s = .next ((setDch s c.val { dch s c.val with forced := true }).raise R.DRAM_ISR_TFORCE)) ∧
  (∀ (s : State) (c : Fin 24),
      (dch s c.val).due = true →
      dchServes s c.val = true →
      flushing s = false →
      panicRaised s = false →
      (dch s c.val).owed.all (fun e => decide (e.2 ≤ 4)) = true →
      exec (.retrainPauseStart c) s = .next (setDch s c.val { dch s c.val with due := false, pausing := true })) ∧
  (∀ (s : State) (c : Fin 24) (drift : Nat),
      (dch s c.val).pausing = true →
      exec (.retrainPauseEnd c drift true) s = .next (((setDch s c.val
        { dch s c.val with pausing := false, forced := false, fails := 0 }).setFlds [(R.DCH_TRAIN_PERIOD c.val, nextPeriod s
        c.val drift), (R.DCH_TRAIN_DRIFT c.val, min 255 drift), (R.DCH_STATUS_TDUE c.val, 0)]).addWrap (R.DCH_TRAIN_COUNT
        c.val) 1)) ∧
  (∀ (s : State) (c : Fin 24) (drift : Nat),
      (dch s c.val).pausing = true →
      (dch s c.val).fails < 2 →
      exec (.retrainPauseEnd c drift false) s = .next ((setDch s c.val
        { dch s c.val with fails := (dch s c.val).fails + 1 }).raise R.DRAM_ISR_TRFAIL)) ∧
  (∀ (s : State) (n : Nat),
      blockOn s .dram = true →
      s.flag R.DRAM_SCRUB_EN = true →
      flushing s = false →
      dramMark s (s.dram.scrubAt * 64) = n →
      n ≤ 1 →
      tblWf 0 s.dramBad = true →
      ∃ t, exec (.dramScrubLine 0 false) s = .next t ∧ t.dram =
        { s.dram with scrubAt := (if dramEnd s ≤ (s.dram.scrubAt * 64) + 64 then 0 else s.dram.scrubAt + 1) } ∧ t.mem = s.mem ∧
        t.dramBad = tblSet 0 s.dramBad s.dram.scrubAt 0 ∧ (n = 0 → t.regs = s.regs)) ∧
  (∀ (s : State),
      s.dram.zeroing = true →
      exec .dramSegmentInitDone s = .next ({ (s.clear R.DRAM_STATUS_INIT) with dram := { s.dram with zeroing := false } }))

/-- Claiming, releasing, starting, pausing, aborting, kicking and waking DMA channels, their queues and events (R390, R391,
R394, R395, R396, R400, R402, R403). -/
def Obligations.DmaChannelCommandsComplete : Prop :=
  (∀ (s : State) (rq : Requester) (ch : Fin 64),
      (whoOf rq).1 < 3 →
      s.fld (R.DMA_CH_OWN_KIND ch.val) = 0 →
      exec (.dmaClaim [.reg rq] ch) s = .next (s.setFlds [(R.DMA_CH_OWN_KIND ch.val, (whoOf rq).1), (R.DMA_CH_OWN_ID ch.val,
        (whoOf rq).2)])) ∧
  (∀ (s : State) (ti : TileId) (ch : Fin 64),
      ch.val < 56 →
      s.fld (R.DMA_CH_OWN_KIND ch.val) = 0 →
      Registers.wf s.regs = true →
      exec (.dmaClaim [.tile ti] ch) s = .next ((s.setFld (R.TILE_DMA_CH ti.val) ch.val).setFlds [(R.DMA_CH_OWN_KIND ch.val,
        3), (R.DMA_CH_OWN_ID ch.val, ti.val)])) ∧
  (∀ (s : State) (rq : Requester) (ch : Fin 64),
      dmaOwns s ch.val (whoOf rq) = true →
      (dmaState s ch.val = 0 ∨ dmaState s ch.val = 5) →
      exec (.dmaRelease (.reg rq) ch) s = .next (s.setFlds [(R.DMA_CH_OWN_KIND ch.val, 0), (R.DMA_CH_OWN_ID ch.val, 0)])) ∧
  (∀ (s : State) (rq : Requester) (ch : Fin 64),
      dmaOwns s ch.val (whoOf rq) = true →
      blockOn s .dma = true →
      (dmaState s ch.val = 0 ∨ dmaState s ch.val = 5) →
      dmaProg s ch.val % 64 = 0 →
      s.flag (R.DMA_CH_CTRL_PAUSE ch.val) = false →
      Registers.wf s.regs = true →
      exec (.dmaGo (.reg rq) ch) s = .next (setDmaState ((setDmaPc (setDma s ch.val DmaCh.reset) ch.val (dmaProg s
        ch.val)).setFlds [(R.DMA_CH_ITER_ITER ch.val, 0), (R.DMA_CH_DONE_DONE ch.val, 0), (R.DMA_CH_TOTAL_TOTAL ch.val, 0)])
        ch.val 1)) ∧
  (∀ (s : State) (rq : Requester) (ch : Fin 64),
      dmaOwns s ch.val (whoOf rq) = true →
      dmaState s ch.val = 1 →
      Registers.wf s.regs = true →
      exec (.dmaPause (.reg rq) ch) s = .next (setDmaState (setDma (s.setFld (R.DMA_CH_CTRL_PAUSE ch.val) 1) ch.val
        { dmaOf s ch.val with inWait := false }) ch.val 3)) ∧
  (∀ (s : State) (ch : Fin 64),
      dmaState s ch.val = 3 →
      (dmaOf s ch.val).abort = false →
      s.flag (R.DMA_CH_CTRL_PAUSE ch.val) = true →
      exec (.dmaPauseDrained ch) s = .next (setDmaState s ch.val 4)) ∧
  (∀ (s : State) (rq : Requester) (ch : Fin 64),
      dmaOwns s ch.val (whoOf rq) = true →
      dmaState s ch.val = 4 →
      blockOn s .dma = true →
      exec (.dmaUnpause (.reg rq) ch) s = .next (setDmaState (setDma (s.setFld (R.DMA_CH_CTRL_PAUSE ch.val) 0) ch.val
        { dmaOf s ch.val with inWait := false, enPause := false }) ch.val (if (dmaOf s ch.val).inWait = true then 2 else 1))) ∧
  (∀ (s : State) (rq : Requester) (ch : Fin 64),
      dmaOwns s ch.val (whoOf rq) = true →
      dmaState s ch.val = 4 →
      exec (.dmaAbort (.reg rq) ch) s = .next (dmaFail (s.setFld (R.DMA_CH_CTRL_PAUSE ch.val) 0) ch.val 8 none)) ∧
  (∀ (s : State) (rq : Requester) (ch : Fin 64),
      dmaOwns s ch.val (whoOf rq) = true →
      dmaState s ch.val = 1 →
      exec (.dmaAbort (.reg rq) ch) s = .next (setDmaState (setDma s ch.val
        { dmaOf s ch.val with abort := true, inWait := false }) ch.val 3)) ∧
  (∀ (s : State) (rq : Requester) (ch : Fin 64),
      dmaOwns s ch.val (whoOf rq) = true →
      56 ≤ ch.val →
      dmaState s ch.val = 2 →
      exec (.dmaKick rq ch) s = .next (setDmaState s ch.val 1)) ∧
  (∀ (s : State) (e : Fin 64) (ch : Nat) (clr : Bool),
      dmaEvent s e.val = true →
      dmaWaiters s e.val = [ch] →
      ((dmaOf s ch).wait.map (fun x => x.2.1)) = some clr →
      exec (.dmaWaitWake e) s = .next (if clr then dmaClearEvent (setDmaState (setDmaPc (setDma s ch
        { dmaOf s ch with wait := none }) ch (dmaPc s ch + 32)) ch 1) e.val else (setDmaState (setDmaPc (setDma s ch
        { dmaOf s ch with wait := none }) ch (dmaPc s ch + 32)) ch 1))) ∧
  (∀ (s : State) (ch : Fin 64) (x : Nat × Bool × Nat),
      (dmaOf s ch.val).wait = some x →
      dmaState s ch.val = 2 →
      x.2.2 ≠ 0 →
      exec (.dmaWaitTimeout ch) s = .next (dmaFail s ch.val 6 none)) ∧
  (∀ (s : State) (q : Fin 8) (x : BitVec 16),
      dmaOldest s q.val = none →
      Registers.wf s.regs = true →
      exec (.dmaCqHeadWrite q x) s = .next (s.setFld (R.DMA_CQ_HEAD_HEAD q.val) x.toNat)) ∧
  (∀ (s : State) (n : Fin 2) (x : BitVec 32),
      exec (.dmaEventSet n x) s = .next (s.setFld (R.DMA_EVT_EVT n.val) (s.fld (R.DMA_EVT_EVT n.val) ||| x.toNat)))

/-- The instructions of the program channels and the descriptors of the descriptor channels complete (R392, R398, R399, R401,
R402, R404, R405). -/
def Obligations.DmaInstructionsComplete : Prop :=
  (∀ (s : State) (ch : Fin 64) (k : Nat) (bs : List Byte) (s1 s2 : State) (src dst len : Nat),
      dmaFetched s ch.val 1 = some (bs, s1) →
      (zeroBytes bs 1 4 = true ∧ dmaMods bs / 2 = 0 ∧ zeroBytes bs 7 8 = true ∧ zeroBytes bs 0xE 0x10 = true ∧
        zeroBytes bs 0x16 0x18 = true) →
      len = leAt bs 4 3 + 1 →
      src = dmaAddr (leAt bs 8 6) (s1.fld (R.DMA_CH_ITER_ITER ch.val)) (leAt bs 0x18 4) →
      dst = dmaAddr (leAt bs 0x10 6) (s1.fld (R.DMA_CH_ITER_ITER ch.val)) (leAt bs 0x1C 4) →
      dmaOverlaps src dst len = false →
      doneAt (dmaMoveOn s1 ch.val src dst len k) = some ((), s2) →
      exec (.dmaMove ch k) s = .next (if s2.fld (R.DMA_CH_DONE_DONE ch.val) = len then dmaNext (s2.setFld (R.DMA_CH_DONE_DONE
        ch.val) 0) ch.val else s2)) ∧
  (∀ (s : State) (ch : Fin 64) (bs : List Byte) (s1 : State),
      dmaFetched s ch.val 2 = some (bs, s1) →
      (zeroBytes bs 1 4 = true ∧ dmaMods bs = 0 ∧ zeroBytes bs 7 8 = true ∧ zeroBytes bs 0xA 0x20 = true ∧ 2 ≤ leAt bs 4 3 ∧
        leAt bs 8 2 ≠ 0) →
      ((dmaOf s1 ch.val).loopPc = some (dmaPc s1 ch.val) ∨ s1.fld (R.DMA_CH_ITER_ITER ch.val) = 0) →
      dmaProg s1 ch.val + 32 * leAt bs 8 2 ≤ dmaPc s1 ch.val →
      s1.fld (R.DMA_CH_ITER_ITER ch.val) + 1 < leAt bs 4 3 →
      exec (.dmaLoop ch) s = .next (setDmaPc ((setDma s1 ch.val
        { dmaOf s1 ch.val with loopPc := some (dmaPc s1 ch.val) }).setFld (R.DMA_CH_ITER_ITER ch.val) (s1.fld
        (R.DMA_CH_ITER_ITER ch.val) + 1)) ch.val (dmaPc s1 ch.val - 32 * leAt bs 8 2))) ∧
  (∀ (s : State) (ch : Fin 64) (bs : List Byte) (s1 : State),
      dmaFetched s ch.val 3 = some (bs, s1) →
      (zeroBytes bs 1 4 = true ∧ dmaMods bs / 2 = 0 ∧ leAt bs 8 1 < 64 ∧ zeroBytes bs 9 0x20 = true) →
      exec (.dmaWait ch) s = .next (if dmaEvent s1 (leAt bs 8 1) = true then dmaNext (if dmaMods bs % 2 = 1 then dmaClearEvent
        s1 (leAt bs 8 1) else s1) ch.val else setDmaState (setDma s1 ch.val
        { dmaOf s1 ch.val with wait := some (leAt bs 8 1, dmaMods bs % 2 == 1, leAt bs 4 4) }) ch.val 2)) ∧
  (∀ (s : State) (ch : Fin 64) (bs : List Byte) (s1 : State),
      dmaFetched s ch.val 4 = some (bs, s1) →
      (zeroBytes bs 1 4 = true ∧ dmaMods bs / 4 = 0 ∧ leAt bs 8 1 < 64 ∧ zeroBytes bs 9 0x20 = true) →
      exec (.dmaSignal ch) s = .next (if (dmaMods bs).testBit 0 = true then dmaRecord (setDma (if (dmaMods bs).testBit 1 = true
        then dmaSetEvent (dmaDrainWrites s1 ch.val) (leAt bs 8 1) else dmaDrainWrites s1 ch.val) ch.val
        { dmaOf (if (dmaMods bs).testBit 1 = true then dmaSetEvent (dmaDrainWrites s1 ch.val) (leAt bs 8 1) else dmaDrainWrites s1 ch.val) ch.val with after := some (dmaPc s1 ch.val + 32) })
        ch.val (leAt bs 4 4) 1 1 else dmaNext (if (dmaMods bs).testBit 1 = true then dmaSetEvent (dmaDrainWrites s1 ch.val)
        (leAt bs 8 1) else dmaDrainWrites s1 ch.val) ch.val)) ∧
  (∀ (s : State) (ch : Fin 64) (bs : List Byte) (s1 : State),
      dmaFetched s ch.val 0 = some (bs, s1) →
      (zeroBytes bs 1 4 = true ∧ dmaMods bs = 0 ∧ zeroBytes bs 8 0x20 = true) →
      exec (.dmaEnd ch) s = .next (dmaRecord (dmaDrainWrites s1 ch.val) ch.val (leAt bs 4 4) 0 0)) ∧
  (∀ (s : State) (ch : Fin 64) (op : Nat) (bs : List Byte) (s1 : State),
      dmaFetched s ch.val op = some (bs, s1) →
      5 ≤ op →
      exec (.dmaUndefinedInstruction ch) s = .next (dmaFail s1 ch.val 2 none)) ∧
  (∀ (s : State) (ch : Fin 64) (k : Nat) (bs : List Byte) (s1 : State),
      56 ≤ ch.val →
      dmaState s ch.val = 1 →
      doneAt (dmaRead s ch.val (dmaPc s ch.val) 64) = some (bs, s1) →
      leAt bs 0x1C 4 % 2 = 0 →
      exec (.dmaDescriptor ch k) s = .next (setDmaState s1 ch.val 2)) ∧
  (∀ (s : State) (ch : Fin 64) (k : Nat) (bs : List Byte) (s1 s2 : State),
      56 ≤ ch.val →
      dmaState s ch.val = 1 →
      doneAt (dmaRead s ch.val (dmaPc s ch.val) 64) = some (bs, s1) →
      (leAt bs 0x1C 4 % 2 = 1 ∧ leAt bs 0 1 % 64 = 0 ∧ descBad bs = false) →
      doneAt (dmaMoveOn s1 ch.val (leAt bs 8 6) (leAt bs 0x10 6) (leAt bs 0x18 4) k) = some ((), s2) →
      exec (.dmaDescriptor ch k) s = .next (if s2.fld (R.DMA_CH_DONE_DONE ch.val) = leAt bs 0x18 4 then descDone s2 ch.val bs
        else s2))

/-- A digest context is claimed, opened, fed, closed, joined, compared and wiped as R406 to R413 say (R391, R407, R408, R409,
R410, R411). -/
def Obligations.DigestCommandsComplete : Prop :=
  (∀ (s : State) (rq : Requester) (n : Fin 64),
      (whoOf rq).1 < 3 →
      s.fld (R.DIGEST_CTX_OWN_KIND n.val) = 0 →
      exec (.digestClaim [.reg rq] n) s = .next (s.setFlds [(R.DIGEST_CTX_OWN_KIND n.val, (whoOf rq).1), (R.DIGEST_CTX_OWN_ID
        n.val, (whoOf rq).2)])) ∧
  (∀ (s : State) (v : DmaVia) (n : Fin 64) (k : Nat),
      k = digCtx s v n.val →
      digOwner s k = dmaWho v →
      (dmaWho v).1 ≠ 0 →
      (digState s k = 0 ∨ digState s k = 4) →
      exec (.digestRelease v n) s = .next ((digWipe s k).setFlds [(R.DIGEST_CTX_OWN_KIND k, 0), (R.DIGEST_CTX_OWN_ID k, 0)])) ∧
  (∀ (s : State) (v : DmaVia) (n : Fin 64) (alg : Fin 4) (sealed : Bool) (k : Nat),
      k = digCtx s v n.val →
      digOwner s k = dmaWho v →
      (dmaWho v).1 ≠ 0 →
      blockOn s .digest = true →
      (digState s k = 0 ∨ digState s k = 1 ∨ digState s k = 3 ∨ digState s k = 4) →
      exec (.digestInit v n alg sealed) s = .next ((setDigState ((setDig s k
        { DigCtx.reset with alg := alg.val, decl := s.fld (R.DIGEST_CTX_DECLLO_DECLLO k) + 2 ^ 32 * s.fld (R.DIGEST_CTX_DECLHI_DECLHI k) }).setFlds
        [(R.DIGEST_CTX_CTRL_ALG k, alg.val), (R.DIGEST_CTX_CTRL_SEAL k, if sealed then 1 else 0), (R.DIGEST_CTX_STAT_SEALED k,
        if sealed then 1 else 0), (R.DIGEST_CTX_STAT_TRUNC k, 0), (R.DIGEST_CTX_STAT_ERR k, 0), (R.DIGEST_CTX_CMPA_CMPA k, 0),
        (R.DIGEST_CTX_CMPB_CMPB k, 0), (R.DIGEST_CTX_COUNTLO_COUNTLO k, 0), (R.DIGEST_CTX_COUNTHI_COUNTHI k, 0)]) k 1).raise
        R.DIGEST_ISR_DONE)) ∧
  (∀ (s : State) (v : DmaVia) (n : Fin 64) (k : Nat),
      k = digCtx s v n.val →
      digOwner s k = dmaWho v →
      (dmaWho v).1 ≠ 0 →
      blockOn s .digest = true →
      digState s k = 1 →
      exec (.digestFeed v n) s = .next (setDigState (setDig s k
        { digOf s k with feed := some (s.fld (R.DIGEST_CTX_SRCLO_SRCLO k) + 2 ^ 32 * s.fld (R.DIGEST_CTX_SRCHI_SRCHI k), s.fld (R.DIGEST_CTX_LEN_LEN k)) })
        k 2)) ∧
  (∀ (s : State) (n : Fin 64) (src len : Nat) (bs : List Byte) (s1 : State),
      (digOf s n.val).feed = some (src, len) →
      ownerReach s (digOwner s n.val) src len = true →
      readGlobal (setDig s n.val { digOf s n.val with feed := none }) src len xoDigest = some (bs, s1, none) →
      exec (.digestFeedDone n) s = .next ((setDigState (digAbsorb s1 n.val bs) n.val 1).raise R.DIGEST_ISR_DONE)) ∧
  (∀ (s : State) (v : DmaVia) (n : Fin 64) (k : Nat),
      k = digCtx s v n.val →
      digOwner s k = dmaWho v →
      (dmaWho v).1 ≠ 0 →
      blockOn s .digest = true →
      digState s k = 1 →
      ((digOf s k).decl = 2 ^ 64 - 1 ∨ (digOf s k).decl ≤ (digOf s k).msg.length) →
      exec (.digestFinal v n) s = .next ((setDigState (setDig s k
        { digOf s k with digest := digestOf (digOf s k).alg (digOf s k).msg }) k 3).raise R.DIGEST_ISR_DONE)) ∧
  (∀ (s : State) (v : DmaVia) (n : Fin 64) (k : Nat),
      k = digCtx s v n.val →
      digOwner s k = dmaWho v →
      (dmaWho v).1 ≠ 0 →
      blockOn s .digest = true →
      digState s k = 1 →
      ((digOf s k).decl ≠ 2 ^ 64 - 1 ∧ (digOf s k).msg.length < (digOf s k).decl) →
      exec (.digestFinal v n) s = .next (digFail s k 2)) ∧
  (∀ (s : State) (v : DmaVia) (n src : Fin 64) (k : Nat),
      k = digCtx s v n.val →
      digOwner s k = dmaWho v →
      (dmaWho v).1 ≠ 0 →
      blockOn s .digest = true →
      digState s k = 1 →
      (digState s src.val = 3 ∧ digOwner s src.val = digOwner s k) →
      exec (.digestAbsorb v n src) s = .next ((setDigState (digAbsorb (s.setFld (R.DIGEST_CTX_CTRL_SRCCTX k) src.val) k (digOf
        s src.val).digest) k 1).raise R.DIGEST_ISR_DONE)) ∧
  (∀ (s : State) (v : DmaVia) (n : Fin 64) (k x : Nat) (bs : List Byte) (s1 : State),
      k = digCtx s v n.val →
      digOwner s k = dmaWho v →
      (dmaWho v).1 ≠ 0 →
      blockOn s .digest = true →
      digState s k = 3 →
      ownerReach s (digOwner s k) (s.fld (R.DIGEST_CTX_REFLO_REFLO k) + 2 ^ 32 * s.fld (R.DIGEST_CTX_REFHI_REFHI k)) (digestLen
        (digOf s k).alg) = true →
      readGlobal s (s.fld (R.DIGEST_CTX_REFLO_REFLO k) + 2 ^ 32 * s.fld (R.DIGEST_CTX_REFHI_REFHI k)) (digestLen (digOf s
        k).alg) xoDigest = some (bs, s1, none) →
      x = (if bs = (digOf s k).digest then 0x5AC3A53C else 0xA53C5AC3) →
      exec (.digestCompare v n true) s = .next ((setDigState (s1.setFlds [(R.DIGEST_CTX_CMPA_CMPA k, x),
        (R.DIGEST_CTX_CMPB_CMPB k, 0xFFFFFFFF - x)]) k 3).raise R.DIGEST_ISR_DONE)) ∧
  (∀ (s : State) (v : DmaVia) (n : Fin 64) (k : Nat),
      k = digCtx s v n.val →
      digOwner s k = dmaWho v →
      (dmaWho v).1 ≠ 0 →
      blockOn s .digest = true →
      digState s k ≠ 2 →
      digState s k ≤ 4 →
      exec (.digestWipe v n) s = .next ((digWipe s k).raise R.DIGEST_ISR_DONE))

/-- Keys are generated and erased, the DRBG starts, reseeds and fails, and the lifecycle advances by one, as R414 to R418 and
R427 say (R414, R416, R417, R418, R427). -/
def Obligations.KeyStoreCommandsComplete : Prop :=
  (∀ (s : State) (rq : Requester) (slot : Fin 512) (ktype : BitVec 8) (usage : Fin 16) (k : KeySlot × State),
      (vaultWho s rq).isSome = true →
      blockOn s .keys = true →
      s.fuses.lc < 3 →
      keyPermitted ktype.toNat usage.val = true →
      slotKey s slot.val = none →
      rngOk s = true →
      Registers.wf s.regs = true →
      k = newKey (s.setFlds [(R.KEYS_CMD_SLOT, slot.val), (R.KEYS_CMD_KTYPE, ktype.toNat), (R.KEYS_CMD_USAGE, usage.val)])
        ktype.toNat usage.val →
      exec (.keysGenerate rq slot ktype usage) s = .next (keysEnd (putKey k.2 slot.val (some k.1)) 0)) ∧
  (∀ (s : State) (rq : Requester) (slot : Fin 512),
      (vaultWho s rq).isSome = true →
      blockOn s .keys = true →
      s.fuses.lc < 3 →
      Registers.wf s.regs = true →
      exec (.keysErase rq slot) s = .next (keysEnd (putKey (s.setFlds [(R.KEYS_CMD_SLOT, slot.val), (R.KEYS_CMD_KTYPE, s.fld
        R.KEYS_CMD_KTYPE), (R.KEYS_CMD_USAGE, s.fld R.KEYS_CMD_USAGE)]) slot.val none) 0)) ∧
  (∀ (s : State),
      s.flag R.KEYS_CTRL_EN = true →
      rngOk s = false →
      s.drbg.failed = false →
      exec .drbgReady s = .next (({ s with drbg := { s.drbg with requests := 0 } }).raise R.KEYS_STATUS_RNGOK)) ∧
  (∀ (s : State),
      rngOk s = true →
      65536 ≤ s.drbg.requests →
      exec .drbgReseed s = .next ({ s with drbg := { s.drbg with requests := s.drbg.requests - 65536 } })) ∧
  (∀ (s : State),
      s.flag R.KEYS_CTRL_EN = true →
      exec .noiseTestFailure s = .next ((({ s with drbg := { s.drbg with failed := true } }).clear R.KEYS_STATUS_RNGOK).raise
        R.KEYS_ISR_RNGFAIL)) ∧
  (∀ (s : State) (rq : Requester),
      (vaultWho s rq).isSome = true →
      rngOk s = true →
      exec (.keysRngRead rq) s = .next ((drbgBytes s 4).2)) ∧
  (∀ (s : State) (rq : Requester),
      (vaultWho s rq).isSome = true →
      rngOk s = false →
      exec (.keysRngRead rq) s = .next s) ∧
  (∀ (s : State) (c : CoreId) (target : Fin 4) (keyword : BitVec 16),
      32 ≤ c.val →
      keyword = 0x4C43#16 →
      target.val = s.fuses.lc + 1 →
      s.drbg.burn = none →
      (target.val ≠ 1 ∨ rngOk s = true) →
      exec (.lifecycleAdvance (.core c) target keyword) s = .next (lifecycleBurn s target.val)) ∧
  (∀ (s : State) (rq : Requester) (target : Fin 4) (keyword : BitVec 16),
      (vaultWho s rq).isSome = true →
      (keyword ≠ 0x4C43#16 ∨ target.val ≠ s.fuses.lc + 1) →
      exec (.lifecycleAdvance rq target keyword) s = .next (setCfgErr s .keys)) ∧
  (∀ (s : State) (n : Nat),
      s.drbg.burn = some n →
      exec .lifecycleBurnDone s = .next
        ((({ s with drbg := { s.drbg with burn := none }, fuses := { s.fuses with lc := n } }).setFlds [(R.KEYS_STATUS_LC, n),
        (R.KEYS_STATUS_LCBUSY, 0)]).raise R.KEYS_ISR_LCDONE))

/-- The vault is acquired, its messages opened, stepped and closed, its keys wrapped and unwrapped, and its lease lapses, as
R419 to R424 say (R419, R420, R421, R422, R423, R424). -/
def Obligations.VaultCommandsComplete : Prop :=
  (∀ (s : State) (rq : Requester) (who : Who),
      vaultWho s rq = some who →
      vaultHeld s = false →
      blockOn s .vault = true →
      s.vault.lapsed = none →
      exec (.vaultAcquire [rq]) s = .next (s.setFlds [(R.VAULT_LOCK_KIND, who.1), (R.VAULT_LOCK_ID, who.2)])) ∧
  (∀ (s : State) (rq : Requester) (who : Who),
      vaultWho s rq = some who →
      vaultMine s who = true →
      exec (.vaultRelease rq) s = .next ((vaultWipe s).setFlds [(R.VAULT_LOCK_KIND, 0), (R.VAULT_LOCK_ID, 0)])) ∧
  (∀ (s : State) (rq : Requester) (who : Who) (mode : Fin 3) (slot : Fin 512) (k : KeySlot),
      vaultWho s rq = some who →
      vaultMine s who = true →
      s.vault.run = none →
      s.vault.msg = none →
      s.fuses.lc < 3 →
      slotKey s slot.val = some k →
      (k.ktype = 1 ∧ bitOf k.usage 1 = true) →
      exec (.vaultOpen rq mode true slot) s = .next (vaultEnd
        (({ (s.setFlds [(R.VAULT_CMD_MODE, mode.val), (R.VAULT_CMD_DIR, 1), (R.VAULT_CMD_SLOT, slot.val)]) with vault := { (s.setFlds [(R.VAULT_CMD_MODE, mode.val), (R.VAULT_CMD_DIR, 1), (R.VAULT_CMD_SLOT, slot.val)]).vault with msg := some ⟨mode.val, true, k.value.take 32, vaultIv (s.setFlds [(R.VAULT_CMD_MODE, mode.val), (R.VAULT_CMD_DIR, 1), (R.VAULT_CMD_SLOT, slot.val)]), 0, false⟩ } }).setFld
        R.VAULT_RES_INMSG 1) 0)) ∧
  (∀ (s : State) (rq : Requester) (who : Who) (m : VMsg),
      vaultWho s rq = some who →
      vaultMine s who = true →
      s.vault.run = none →
      s.vault.msg = some m →
      m.last = false →
      stepBad m (s.fld R.VAULT_LEN_LEN) = false →
      exec (.vaultStep rq) s = .next (({ s with vault := { s.vault with run := some 2 } }).setFld R.VAULT_RES_BUSY 1)) ∧
  (∀ (s : State) (m : VMsg) (r : Nat × State × VMsg),
      s.vault.run = some 2 →
      s.vault.msg = some m →
      r = vaultBlocks s m (vaultSrc s) (vaultDst s) (s.fld R.VAULT_LEN_LEN) (s.fld R.VAULT_LEN_LEN) (s.fld R.VAULT_LEN_LEN) →
      exec (.vaultStepDone none) s = .next (vaultEnd { r.2.1 with vault := { r.2.1.vault with msg := some r.2.2 } } r.1)) ∧
  (∀ (s : State) (rq : Requester) (who : Who) (m : VMsg),
      vaultWho s rq = some who →
      vaultMine s who = true →
      s.vault.run = none →
      s.vault.msg = some m →
      exec (.vaultClose rq) s = .next (vaultEnd (({ s with vault := { s.vault with msg := none } }).setFld R.VAULT_RES_INMSG 0)
        0)) ∧
  (∀ (s : State) (rq : Requester) (who : Who) (slot : Fin 512) (kek : Fin 514) (key : List Byte),
      vaultWho s rq = some who →
      vaultMine s who = true →
      s.vault.run = none →
      s.vault.msg = none →
      Registers.wf s.regs = true →
      (kekKey (s.setFlds [(R.VAULT_CMD_SLOT, slot.val), (R.VAULT_CMD_KEK, kek.val)]) kek.val).toOption = some key →
      slotKey s slot.val = none →
      exec (.vaultUnwrap rq slot kek) s = .next
        (({ (s.setFlds [(R.VAULT_CMD_SLOT, slot.val), (R.VAULT_CMD_KEK, kek.val)]) with vault := { (s.setFlds [(R.VAULT_CMD_SLOT, slot.val), (R.VAULT_CMD_KEK, kek.val)]).vault with run := some 4 } }).setFld
        R.VAULT_RES_BUSY 1)) ∧
  (∀ (s : State) (rq : Requester) (who : Who) (slot : Fin 512) (kek : Fin 514) (key : List Byte) (k : KeySlot),
      vaultWho s rq = some who →
      vaultMine s who = true →
      s.vault.run = none →
      s.vault.msg = none →
      Registers.wf s.regs = true →
      (kekKey (s.setFlds [(R.VAULT_CMD_SLOT, slot.val), (R.VAULT_CMD_KEK, kek.val)]) kek.val).toOption = some key →
      slotKey s slot.val = some k →
      (bitOf k.usage 3 = true ∨ kek.val = 512) →
      rngOk s = true →
      exec (.vaultWrap rq slot kek) s = .next
        (({ (s.setFlds [(R.VAULT_CMD_SLOT, slot.val), (R.VAULT_CMD_KEK, kek.val)]) with vault := { (s.setFlds [(R.VAULT_CMD_SLOT, slot.val), (R.VAULT_CMD_KEK, kek.val)]).vault with run := some 5 } }).setFld
        R.VAULT_RES_BUSY 1)) ∧
  (∀ (s : State),
      vaultHeld s = true →
      s.vault.run = none →
      exec .vaultLeaseLapse s = .next
        (({ vaultFree s with vault := { (vaultFree s).vault with lapsed := some (vaultOwner s) } }).raise R.VAULT_ISR_LAPSE))

/-- A Damdom link is detected, trained, times out, takes flits and link messages, resends and greets, as R337 to R346 say
(R337, R339, R340, R341, R342, R343, R344, R345). -/
def Obligations.DamdomLinkCommandsComplete : Prop :=
  (∀ (s : State) (p : Fin 4),
      lState s p.val = 1 →
      exec (.damdomSignalDetect p) s = .next (setLState s p.val 2)) ∧
  (∀ (s : State) (p : Fin 4) (x4 : Bool),
      lState s p.val = 2 →
      exec (.damdomTrainDone p x4) s = .next ((setLState s p.val 3).setFld (R.DPORT_STATUS_X4 p.val) (if x4 then 1 else 0))) ∧
  (∀ (s : State) (p : Fin 4),
      (lState s p.val = 2 ∨ (lState s p.val = 3 ∧ s.flag (R.DPORT_STATUS_NOVER p.val) = false)) →
      exec (.damdomStateTimeout p) s = .next (leaveLink s p.val 0)) ∧
  (∀ (s : State) (p : Fin 4),
      s.flag (R.DPORT_CTRL_EN p.val) = true →
      lState s p.val = 0 →
      exec (.damdomRetryWait p) s = .next (setLState s p.val 1)) ∧
  (∀ (s : State) (p : Fin 4) (fl : List Byte),
      (lState s p.val = 3 ∨ lState s p.val = 4) →
      (fl.length ≠ 64 ∨ leAt fl 60 4 ≠ crc32c (fl.take 60)) →
      exec (.flitReceive p fl) s = .next ((s.addWrap (R.DPORT_CRCCNT_COUNT p.val) 1).raise (R.DPORT_ISR_CRC p.val))) ∧
  (∀ (s : State) (p : Fin 4) (fl : List Byte) (ft : Nat),
      (lState s p.val = 3 ∨ lState s p.val = 4) →
      (fl.length = 64 ∧ leAt fl 60 4 = crc32c (fl.take 60)) →
      ft = bitsOf (leAt fl 0 4) 0 4 →
      (1 ≤ ft ∧ ft ≤ 4) →
      (bitOf (leAt fl 0 4) 6 = false ∧ bitOf (leAt fl 0 4) 7 = false) →
      bitsOf (leAt fl 0 4) 8 12 = (portOf s p.val).rxSeq →
      exec (.flitReceive p fl) s = .next (flitAccepted (setPort s p.val
        { portOf s p.val with rxSeq := ((portOf s p.val).rxSeq + 1) % 4096, rxAny := true, missing := false }) p.val ft (bitsOf
        (leAt fl 0 4) 4 2) ((fl.drop 4).take 56))) ∧
  (∀ (s : State) (p : Fin 4),
      (portOf s p.val).missing = true →
      exec (.nakRepeat p) s = .next (sendLink s p.val 1 ([0] ++ leBytes 2 (portOf s p.val).rxSeq))) ∧
  (∀ (s : State) (p : Fin 4),
      lState s p.val = 4 →
      exec (.ackTimer p) s = .next (returnCredits (linkOut s p.val [mkFlit 0 0 0 (ackNow (portOf s p.val)) []]) p.val)) ∧
  (∀ (s : State) (p : Fin 4),
      lState s p.val = 4 →
      (portOf s p.val).replay ≠ [] →
      (portOf s p.val).resends < s.fld (R.DPORT_RETRY_LIMIT p.val) →
      exec (.replayTimeout p) s = .next ((linkOut (setPort s p.val
        { portOf s p.val with resends := (portOf s p.val).resends + 1 }) p.val (((portOf s p.val).replay.map Prod.snd).map
        (reAck (portOf s p.val)))).addWrap (R.DPORT_REPLAYCNT_COUNT p.val) 1)) ∧
  (∀ (s : State) (p : Fin 4),
      lState s p.val = 4 →
      (portOf s p.val).replay ≠ [] →
      s.fld (R.DPORT_RETRY_LIMIT p.val) ≤ (portOf s p.val).resends →
      exec (.replayTimeout p) s = .next (((leaveLink s p.val 2).addWrap (R.DPORT_RETRAINCNT_COUNT p.val) 1).raise
        (R.DPORT_ISR_RETRAIN p.val))) ∧
  (∀ (s : State) (p : Fin 4) (m : List Byte) (s1 : State),
      takeLink s p.val 0 = some (m, s1) →
      exec (.hello p) s = .next (helloReceived s1 p.val m)) ∧
  (∀ (s : State) (p : Fin 4),
      lState s p.val = 4 →
      exec (.helloTimer p) s = .next (returnCredits (sendLink s p.val 0 (helloBytes s p.val true)) p.val)) ∧
  (∀ (s : State) (p : Fin 4) (s1 : State),
      lState s p.val = 3 →
      (portOf s p.val).peer.isSome = true →
      s.fld (R.DPORT_STATUS_VER p.val) ≠ 0 →
      s1 = sendLink s p.val 0 (helloBytes s p.val true) →
      exec (.helloTimer p) s = .next (enterActive (setPort s1 p.val { portOf s1 p.val with said := true }) p.val)) ∧
  (∀ (s : State) (p : Fin 4),
      lState s p.val = 4 →
      exec (.helloTimeout p) s = .next (leaveLink s p.val 2)) ∧
  (∀ (s : State) (p : Fin 4) (m : List Byte) (s1 : State),
      takeLink s p.val 1 = some (m, s1) →
      exec (.nak p) s = .next (nakReceived s1 p.val (leAt m 2 2 % 4096))) ∧
  (∀ (s : State) (p : Fin 4) (m : List Byte) (s1 : State),
      takeLink s p.val 2 = some (m, s1) →
      exec (.credit p) s = .next (pumpPort (setPort s1 p.val
        { portOf s1 p.val with credit := (List.range 3).map (fun vc => (portOf s1 p.val).credit.getD vc 0 + leAt m (2 + 2 * vc) 2) })
        p.val)) ∧
  (∀ (s : State) (p : Fin 4) (m : List Byte) (s1 : State),
      takeLink s p.val 5 = some (m, s1) →
      exec (.down p) s = .next (leaveLink s1 p.val 0))

/-- Frames are forwarded, discovery and routes set, and management requests answered, as R349 to R354 and R369 say (R348,
R349, R351, R352, R353, R354, R369). -/
def Obligations.FabricFrameCommandsComplete : Prop :=
  (∀ (s : State) (p : Fin 4) (vc : Fin 3) (f : Frame) (q : Nat),
      headFrame s p.val vc.val = some f →
      forUs s f = false →
      isFenced s = false →
      f.dst ≠ 0xF000 →
      isAssigned s = true →
      1 < f.ttl →
      routeOf s f.dst = some q →
      q ≠ p.val →
      Registers.wf s.regs = true →
      exec (.frameForward p vc) s = .next (passOn (popFrame s p.val vc.val) p.val vc.val q { f with ttl := f.ttl - 1 })) ∧
  (∀ (s : State) (p : Fin 4) (vc : Nat) (f : Frame),
      headVc s p.val (fun f => !kindDefined f.kind && forUs s f) = some (vc, f) →
      exec (.frameKindUndefined p) s = .next ((popFrame s p.val vc).addWrap (R.DPORT_FRAMEERR_COUNT p.val) 1)) ∧
  (∀ (s : State) (p : Fin 4) (f : Frame) (s1 : State),
      frameTaken s p.val (fun f => f.kind == 0x01) = some (f, s1) →
      exec (.probe p) s = .next (if f.dst = 0xF000 then sendDirected s1 (reversePath f p.val) 0x02 (nodeRecord s1) else replyTo
        s1 p.val f 0x02 0 0 (nodeRecord s1))) ∧
  (∀ (s : State) (p : Fin 4) (f : Frame) (s1 : State) (d : Disc),
      frameTaken s p.val (fun f => f.kind == 0x02) = some (f, s1) →
      s1.fab.disc = some d →
      (recMgr f.data && recSeg f.data == mySegment s1 && decide (recUid f.data < s1.fuses.uid)) = false →
      d.nodes.any (fun n => recUid n.2 == recUid f.data) = true →
      d.wait.erase (reversePath f p.val) = [] →
      exec (.probeReply p) s = .next (discFinish s1 d.nodes)) ∧
  (∀ (s : State) (p : Fin 4) (f : Frame) (s1 : State),
      frameTaken s p.val (fun f => f.kind == 0x03) = some (f, s1) →
      exec (.assign p) s = .next (fenceCheck
        { leaveAssigned s1 with fab := { (leaveAssigned s1).fab with assign := some (leAt f.data 0 2), mgr := f.src, mgrHash := (f.data.drop 4).take 32 } }
        ((f.data.drop 4).take 32))) ∧
  (∀ (s : State) (p : Fin 4) (f : Frame) (s1 : State) (addr : Nat),
      frameTaken s p.val (fun f => f.kind == 0x04) = some (f, s1) →
      s1.fab.assign = some addr →
      exec (.routes p) s = .next (enterAssigned (loadRoutes s1 f.data) addr)) ∧
  (∀ (s : State) (p : Fin 4) (f : Frame) (s1 : State),
      frameTaken s p.val (fun f => f.kind == 0x07) = some (f, s1) →
      exec (.event p) s = .next (discStart s1)) ∧
  (∀ (s : State),
      isManager s = true →
      blockOn s .fab = true →
      probesFrom s [([], nodeRecord s)] [] (nodeRecord s) ≠ [] →
      exec .segmentDiscovery s = .next ((probesFrom s [([], nodeRecord s)] [] (nodeRecord s)).foldl probeOne
        { s with fab := { s.fab with disc := some ⟨[([], nodeRecord s)], probesFrom s [([], nodeRecord s)] [] (nodeRecord s)⟩ } }))
        ∧
  (∀ (s : State) (p : Fin 4) (f : Frame) (s1 : State),
      frameTaken s p.val (fun f => f.kind == 0x06) = some (f, s1) →
      exec (.mresp p) s = .next s1) ∧
  (∀ (s : State) (p : Fin 4) (f : Frame) (s1 : State),
      frameTaken s p.val (isMreq (fun k => k == 1)) = some (f, s1) →
      exec (.mreqIdent p) s = .next (mresp s1 p.val f 0 (nodeRecord s1))) ∧
  (∀ (s : State) (p : Fin 4) (f : Frame) (s1 : State),
      frameTaken s p.val (isMreq (fun k => k == 2)) = some (f, s1) →
      bitsOf f.arg1 8 32 % 4 ≠ 0 →
      exec (.mreqLog p) s = .next (mresp s1 p.val f 3 [])) ∧
  (∀ (s : State) (p : Fin 4) (f : Frame) (s1 : State) (r : List Byte × State),
      frameTaken s p.val (isMreq (fun k => k == 2)) = some (f, s1) →
      (bitsOf f.arg1 0 8 = 0xC0 ∨ bitsOf f.arg1 0 8 = 0xC2 ∨ bitsOf f.arg1 0 8 = 0xC3 ∨ bitsOf f.arg1 0 8 = 0xC4) →
      bitsOf f.arg1 8 32 % 4 = 0 →
      bitsOf f.arg1 8 32 < (pageLen s1 (bitsOf f.arg1 0 8)).getD 0 →
      r = fillPage s1 (vendorPage s1 (bitsOf f.arg1 0 8) (bitsOf f.arg1 8 32) 4096) →
      exec (.mreqLog p) s = .next (mresp r.2 p.val f 0 r.1)) ∧
  (∀ (s : State) (p : Fin 4) (f : Frame) (s1 : State),
      frameTaken s p.val (isMreq (fun k => k == 3)) = some (f, s1) →
      f.arg1 < 2 ^ 18 →
      exec (.mreqFlowq p) s = .next (mresp s1 p.val f 0 (s1.memBytes (ctxAddr f.arg1) 64))) ∧
  (∀ (s : State) (p : Fin 4) (dt : Nat) (f : Frame) (s1 : State),
      frameTaken s p.val (isMreq (fun k => k == 4)) = some (f, s1) →
      exec (.mreqTimeq p dt) s = .next (mresp (timePass s1 dt) p.val f 0 (leBytes 8 (timestamp (timePass s1 dt))))) ∧
  (∀ (s : State) (p : Fin 4) (f : Frame) (s1 : State),
      frameTaken s p.val (isMreq (fun k => k == 5)) = some (f, s1) →
      exec (.mreqHwlist p) s = .next (mresp s1 p.val f 0 (hwList s1))) ∧
  (∀ (s : State) (p : Fin 4) (f : Frame) (s1 : State),
      frameTaken s p.val (isMreq (fun k => k == 0 || decide (5 < k))) = some (f, s1) →
      exec (.mreqUndefined p) s = .next (mresp s1 p.val f 1 []))

/-- OPEN, DATA and their gap, hallway writes, reads and tags, and the exchanges of fabric time complete (R84, R355, R357,
R359, R360, R361, R363, R365). -/
def Obligations.IngestHallwayAndTimeComplete : Prop :=
  (∀ (s : State) (p : Fin 4) (dt : Nat) (f : Frame) (s0 s1 s2 : State) (flow seq len : Nat),
      frameTaken s p.val (fun f => f.kind == 0x10) = some (f, s0) →
      s1 = timePass s0 dt →
      isFenced s1 = false →
      (flow = bitsOf f.arg0 0 18 ∧ len = bitsOf f.arg1 0 32 ∧ seq = ctxGet s1 flow cxNEXT) →
      (portOf s1 p.val).held.contains flow = false →
      (len ≠ 0 ∧ len % 4096 = 0 ∧ len ≤ ctxParcelSize s1 flow) →
      (ctxBound s1 flow = true ∧ ctxDraining s1 flow = false ∧ ctxGet s1 flow cxFABIN ≠ 0 ∧ ctxStopped s1 flow = false) →
      ((portOf s1 p.val).opens.length < 256 ∧ blockOn s1 .disp = true ∧ blockOn s1 (.dport p) = true) →
      cutParcel (setPort s1 p.val { portOf s1 p.val with held := (portOf s1 p.val).held.erase flow }) flow seq len 0 .fab =
        some s2 →
      exec (.openFrame p dt) s = .next (openReply (setPort (ctxSet s2 flow cxNEXT (seq + 1)) p.val
        { portOf (ctxSet s2 flow cxNEXT (seq + 1)) p.val with opens := (portOf (ctxSet s2 flow cxNEXT (seq + 1)) p.val).opens ++ [⟨bitsOf f.arg0 32 16, flow, seq, false, false⟩] })
        p.val f 0 0 seq)) ∧
  (∀ (s : State) (p : Fin 4) (dt : Nat) (f : Frame) (s1 : State),
      frameTaken s p.val (fun f => f.kind == 0x10) = some (f, s1) →
      isFenced s1 = true →
      exec (.openFrame p dt) s = .next (openReply (timePass s1 dt) p.val f 4 0 0)) ∧
  (∀ (s : State) (p : Fin 4) (f : Frame) (s1 : State),
      s.flows.fabUsed < s.flows.fabLimit →
      frameTaken s p.val (fun f => f.kind == 0x11) = some (f, s1) →
      isFenced s1 = false →
      (portOf s1 p.val).opens.find? (fun o => o.ph == bitsOf f.arg0 0 16) = none →
      exec (.data p) s = .next ((s1.addWrap (R.DPORT_ORPHAN_COUNT p.val) 1).raise (R.DPORT_ISR_ORPHAN p.val))) ∧
  (∀ (s : State) (p : Fin 4) (f : Frame) (s1 : State) (o : OpenParcel) (q : Parcel),
      s.flows.fabUsed < s.flows.fabLimit →
      frameTaken s p.val (fun f => f.kind == 0x11) = some (f, s1) →
      isFenced s1 = false →
      (portOf s1 p.val).opens.find? (fun o => o.ph == bitsOf f.arg0 0 16) = some o →
      landingParcel s1 o = some q →
      (f.data ≠ [] ∧ q.got + f.data.length < q.len) →
      bitOf f.arg0 16 = false →
      (o.closed = false ∧ o.long = false) →
      exec (.data p) s = .next (setPort (landBytes
        { s1 with flows := { s1.flows with fabUsed := s1.flows.fabUsed + f.data.length } } q f.data) p.val
        { portOf (landBytes { s1 with flows := { s1.flows with fabUsed := s1.flows.fabUsed + f.data.length } } q f.data) p.val with opens := (portOf (landBytes { s1 with flows := { s1.flows with fabUsed := s1.flows.fabUsed + f.data.length } } q f.data) p.val).opens.map (fun z => if z = o then o else z) }))
        ∧
  (∀ (s : State) (flow : Fin 262144) (seq p : Nat),
      s.fld R.DISP_GAPTO_GAP ≠ 0 →
      (List.range 4).find? (fun p => (portOf s p).opens.any (fun o => o.flow == flow.val && o.seq == seq)) = some p →
      exec (.gapTimeout flow seq) s = .next (shortParcel (setPort s p
        { portOf s p with opens := (portOf s p).opens.filter (fun o => !(o.flow == flow.val && o.seq == seq)) }) flow.val seq))
        ∧
  (∀ (s : State) (p : Fin 4) (f : Frame) (s1 : State) (x : HwWin),
      frameTaken s p.val (fun f => f.kind == 0x20) = some (f, s1) →
      isFenced s1 = false →
      findWin s1 (bitsOf f.arg0 0 6) = some x →
      hwRangeBad x (bitsOf f.arg0 8 36) f.data.length = false →
      slotTag s1 x (bitsOf f.arg0 8 36 / 0x10000) = tagPeer f.src →
      exec (.hwr p) s = .next (hallwayAnswer (writeRam s1 (x.base + bitsOf f.arg0 8 36) f.data none) p.val f 0)) ∧
  (∀ (s : State) (p : Fin 4) (f : Frame) (s1 : State) (x : HwWin),
      frameTaken s p.val (fun f => f.kind == 0x20) = some (f, s1) →
      isFenced s1 = false →
      findWin s1 (bitsOf f.arg0 0 6) = some x →
      hwRangeBad x (bitsOf f.arg0 8 36) f.data.length = false →
      slotTag s1 x (bitsOf f.arg0 8 36 / 0x10000) ≠ tagPeer f.src →
      exec (.hwr p) s = .next (hallwayAnswer ((s1.addWrap R.FAB_HWDROP_COUNT 1).raise R.FAB_ISR_HWDROP) p.val f 1)) ∧
  (∀ (s : State) (p : Fin 4) (f : Frame) (s1 s2 : State) (x : HwWin) (bs : List Byte),
      frameTaken s p.val (fun f => f.kind == 0x21) = some (f, s1) →
      isFenced s1 = false →
      findWin s1 (bitsOf f.arg0 0 6) = some x →
      hwRangeBad x (bitsOf f.arg0 8 36) (bitsOf f.arg1 0 13) = false →
      (x.rdall = true ∨ slotTag s1 x (bitsOf f.arg0 8 36 / 0x10000) = tagPeer f.src) →
      readRam s1 (x.base + bitsOf f.arg0 8 36) (bitsOf f.arg1 0 13) = (bs, s2, none) →
      exec (.hrd p) s = .next (replyTo s2 p.val f 0x22 (bitsOf f.arg0 44 16) 0 bs)) ∧
  (∀ (s : State) (p : Fin 4) (f : Frame) (s1 : State) (x : HwWin),
      frameTaken s p.val (fun f => f.kind == 0x23) = some (f, s1) →
      isFenced s1 = false →
      findWin s1 (bitsOf f.arg0 0 6) = some x →
      bitsOf f.arg0 8 20 < x.slots →
      slotTag s1 x (bitsOf f.arg0 8 20) = tagPeer f.src →
      tagBad (bitsOf f.arg1 0 32) = false →
      exec (.htag p) s = .next (hallwayAnswer (passSlot s1 x (bitsOf f.arg0 8 20) (bitsOf f.arg1 0 32)) p.val f 0)) ∧
  (∀ (s : State) (p : Fin 4) (dt2 dt3 : Nat) (m : List Byte) (s1 : State),
      takeLink s p.val 3 = some (m, s1) →
      s1.fld (R.DPORT_STATUS_VER p.val) = 3 →
      blockOn s1 .fab = true →
      exec (.treq p dt2 dt3) s = .next (sendLink (timePass (timePass s1 dt2) dt3) p.val 4 (List.replicate 3 0 ++ leBytes 8
        (leAt m 4 8) ++ leBytes 8 (timePass s1 dt2).fab.time ++ leBytes 8 (timePass (timePass s1 dt2) dt3).fab.time ++
        [BitVec.ofNat 8 ((timePass (timePass s1 dt2) dt3).fld R.FAB_STATUS_UNSYNC)]))) ∧
  (∀ (s : State) (p : Fin 4) (dt : Nat) (m : List Byte) (s1 : State),
      takeLink s p.val 4 = some (m, s1) →
      upstream (timePass s1 dt) = some p.val →
      (portOf s1 p.val).t1 = some (leAt m 4 8) →
      blockOn s1 .fab = true →
      Registers.wf s1.regs = true →
      ∃ t, exec (.trsp p dt) s = .next t ∧ t.fab.stale = false ∧ (portOf t p.val).t1 = none ∧
        t.fab.upUnsync = bitOf (leAt m 28 1) 0 ∧ t.mem = s1.mem ∧ t.cores = s1.cores) ∧
  (∀ (s : State) (dt p : Nat),
      upstream (timePass s dt) = some p →
      lState s p = 4 →
      blockOn s .fab = true →
      exec (.timeExchangeTimer dt) s = .next (sendLink (setPort (timePass s dt) p
        { portOf (timePass s dt) p with t1 := some (timePass s dt).fab.time }) p 3 (List.replicate 3 0 ++ leBytes 8 (timePass s
        dt).fab.time))) ∧
  (∀ (s : State) (p : Nat),
      upstream s = some p →
      exec .timeExchangeStale s = .next (syncUpdate { s with fab := { s.fab with stale := true, good := 0 } }))

/-- Each start-up phase has the effect of R483 and passes to the next, and a phase past its limit has the outcome of Table
17.2 (R440, R446, R453, R478, R480, R483, R485). -/
def Obligations.StartUpPhasesComplete : Prop :=
  (∀ (s : State),
      phaseAt s 1 = true →
      exec .phaseClocks s = .next ((clocksOn s).setFld R.SYS_PHASE_PHASE 2)) ∧
  (∀ (s : State),
      phaseAt s 2 = true →
      exec (.phaseFuses true) s = .next (((fuseRegs s).setCore 32 { Core.houseReset with run := .run }).setFld
        R.SYS_PHASE_PHASE 3)) ∧
  (∀ (s : State),
      phaseAt s 2 = true →
      exec (.phaseFuses false) s = .next (bootHalt s 2 2)) ∧
  (∀ (s : State),
      phaseAt s 3 = true →
      exec .phaseRom s = .next ((bringUpAll (s.setFld R.WDT_TIMEOUT_TIMEOUT 2000) [.pcie, .cstore, .wdt]).setFld
        R.SYS_PHASE_PHASE 4)) ∧
  (∀ (s : State) (bad : List Nat) (due : List Nat),
      phaseAt s 4 = true →
      due = (List.range csBlocks).filter (csInterrupted s) →
      exec (.phaseCstore bad) s = .next ((remapNow ((due.filter (fun b => bad.contains b)).foldl grownAdd ((reErase s bad
        due).setFld R.CSTORE_BOOTINFO_RECOV (min 255 due.length)))).setFld R.SYS_PHASE_PHASE 5)) ∧
  (∀ (s : State) (f0 f1 : Bool) (n : Nat),
      phaseAt s 5 = true →
      s.fld R.WDT_STATUS_BOOTFAIL < 3 →
      bootChoice s = some n →
      slotGen s (1 - n) = none →
      exec (.phaseVerify f0 f1) s = .next (if verifySlot s n (if n = 0 then f0 else f1) = 0 then
        { s.setFlds [(R.CSTORE_BOOTINFO_SLOT, n), (R.CSTORE_BOOTINFO_FALLBACK, 0), (R.CSTORE_BOOTGEN_GEN, (slotGen s n).getD 0)] with boot := { s.boot with slot := some n, rbidx := leAt (slotHeader s n) 0x0C 4 } }.setFld
        R.SYS_PHASE_PHASE 6 else (bootFail s 5 3 .recovery).setFld R.SYS_PHASE_PHASE 13)) ∧
  (∀ (s : State) (f0 f1 : Bool),
      phaseAt s 5 = true →
      bootChoice s = none →
      exec (.phaseVerify f0 f1) s = .next ((bootFail s 5 3 .recovery).setFld R.SYS_PHASE_PHASE 13)) ∧
  (∀ (s : State) (n : Nat),
      phaseAt s 6 = true →
      s.boot.slot = some n →
      exec .phaseFwload s = .next ((houseRun (enterImage (blockLock (setXo s n) .cstore) n) 7).setFld R.SYS_PHASE_PHASE 7)) ∧
  (∀ (s : State),
      phaseAt s 7 = true →
      exec (.phaseKeys true) s = .next (((drbgReady (bringUp s .keys)).setFld R.PCIE_CTRL_REGWIN (if s.fuses.lc ≤ 1 then 1 else
        0)).setFld R.SYS_PHASE_PHASE 8)) ∧
  (∀ (s : State) (cap : Fin 3) (half : Bool),
      phaseAt s 8 = true →
      s.dram.trained = false →
      exec (.phaseDram (some (cap, half)) true) s = .next
        ({ (enablingEnds (requestOn (setPopulation s (cap.val + 1) half) .dram) .dram) with dram := { (enablingEnds (requestOn (setPopulation s (cap.val + 1) half) .dram) .dram).dram with trained := true } }.setFld
        R.SYS_PHASE_PHASE 9)) ∧
  (∀ (s : State) (cap : Fin 3) (half : Bool),
      phaseAt s 8 = true →
      s.dram.trained = false →
      exec (.phaseDram (some (cap, half)) false) s = .next (bootFatal (setPopulation s (cap.val + 1) half) 8 5)) ∧
  (∀ (s : State) (bad : List Nat),
      phaseAt s 9 = true →
      (s.hold.prof = none ∧ s.hold.thermProf = none) →
      exec (.phaseRecords bad) s = .next ((qualStart (bringUpAll
        ({ bringUp s .vault with keys := s.boot.keyRecs.filter (fun e => !bad.contains e.1) }) [.therm, .hold])).setFld
        R.SYS_PHASE_PHASE 10)) ∧
  (∀ (s : State) (ids : List (Nat × Nat)) (bad : List Nat) (marks : List (Nat × Nat)) (s2 : State),
      phaseAt s 10 = true →
      s2 = loadBlocks (addNewLuns (bringUpAll (enumerate s ids bad) (.media :: (List.finRange 32).map .nand)) marks) →
      exec (.phaseNand ids bad marks) s = .next ((bringUp (wholdUpdate (gcUpdate (s2.setFlds [(R.FTLA_GROWN_COUNT, (blocksIn s2
        bsGrown).length), (R.FTLA_FACTBAD_COUNT, (blocksIn s2 bsFactory).length)]))) .nvme).setFld R.SYS_PHASE_PHASE 11)) ∧
  (∀ (s : State) (indexOk : Bool) (s2 : State),
      phaseAt s 11 = true →
      s.ftl.ready = false →
      s2 = fabricUp (bringUpAll (placeBuffers (rescue (cellarReplay (mapReplay s)) indexOk)) replayBlocksOn) →
      exec (.phaseReplay indexOk none) s = .next ({ s2 with ftl := { s2.ftl with ready := true } })) ∧
  (∀ (s : State),
      s.boot.index.isSome = true →
      s.ftl.ready = true →
      restoredRels s false ≠ [] →
      exec .rescueWrite s = .next (writeRestored s (restoredRels s false).contains)) ∧
  (∀ (s : State),
      s.boot.index.isSome = true →
      s.ftl.ready = true →
      restoredRels s false = [] →
      exec .rescueWrite s = .next
        ({ (s.clear R.SYS_RETBASE_VALID) with boot := { s.boot with index := none, lostX := 0, lostW := false } })) ∧
  (∀ (s : State),
      phaseAt s 11 = true →
      s.ftl.ready = true →
      exec .phaseReady s = .next (s.setFld R.SYS_PHASE_PHASE 12)) ∧
  (∀ (s : State),
      phaseAt s 5 = true →
      exec .phaseLimitExpiry s = .next ((bootFail s 5 1 .recovery).setFld R.SYS_PHASE_PHASE 13)) ∧
  (∀ (s : State),
      phaseAt s 8 = true →
      exec .phaseLimitExpiry s = .next (bootFatal s 8 1))

/-- The PCIe ports' resets, links, function-level resets, D3hot and L1 have the effect of R264 to R266 (R264, R265, R266). -/
def Obligations.PcieCommandsComplete : Prop :=
  (∀ (s : State) (p : Fin 2),
      exec (.perstAssert p) s = .next (d3Move
        { (resetCtrl (pcieLinkDown { s with nvme := { s.nvme with perst := s.nvme.perst.filter (fun q => q != p.val) ++ [p.val] } } p.val) p.val) with nvme := { (resetCtrl (pcieLinkDown { s with nvme := { s.nvme with perst := s.nvme.perst.filter (fun q => q != p.val) ++ [p.val] } } p.val) p.val).nvme with trained := (resetCtrl (pcieLinkDown { s with nvme := { s.nvme with perst := s.nvme.perst.filter (fun q => q != p.val) ++ [p.val] } } p.val) p.val).nvme.trained.filter (fun q => q != p.val) } }
        p.val false)) ∧
  (∀ (s : State) (p : Fin 2) (bifur : Bool),
      s.nvme.perst.contains p.val = true →
      (p.val = 1 ∨ s.nvme.perst.contains 1 = false) →
      exec (.perstDeassert p bifur) s = .next
        ({ s with nvme := { s.nvme with perst := s.nvme.perst.filter (fun q => q != p.val) } })) ∧
  (∀ (s : State) (bifur : Bool),
      s.nvme.perst.contains 0 = true →
      s.nvme.perst.contains 1 = true →
      exec (.perstDeassert 0 bifur) s = .next
        ({ s with nvme := { s.nvme with perst := s.nvme.perst.filter (fun q => q != 0) } }.setFld R.PCIE_STATUS_BIFUR (if bifur
        then 1 else 0))) ∧
  (∀ (s : State) (p : Fin 2),
      blockOn s .pcie = true →
      ctrlExists s p.val = true →
      exec (.hotReset p) s = .next (d3Move
        { (resetCtrl (pcieLinkDown s p.val) p.val) with nvme := { (resetCtrl (pcieLinkDown s p.val) p.val).nvme with trained := (resetCtrl (pcieLinkDown s p.val) p.val).nvme.trained.filter (fun q => q != p.val) } }
        p.val false)) ∧
  (∀ (s : State) (p : Fin 2),
      blockOn s .pcie = true →
      ctrlExists s p.val = true →
      exec (.flr p) s = .next (d3Move ((resetCtrl s p.val).raise R.PCIE_ISR_FLR) p.val false)) ∧
  (∀ (s : State) (p : Fin 2) (speed width : Nat) (flit : Bool),
      blockOn s .pcie = true →
      ctrlExists s p.val = true →
      s.nvme.perst.contains p.val = false →
      linkOk s speed width flit = true →
      s.nvme.trained.contains p.val = false →
      exec (.pcieLinkUp p speed width flit) s = .next
        ({ ((s.setFlds [(R.PCIE_LINK_SPEED p.val, speed), (R.PCIE_LINK_WIDTH p.val, width), (R.PCIE_LINK_FLIT p.val, if flit then 1 else 0), (R.PCIE_LINK_L1 p.val, 0)]).raise R.PCIE_ISR_LINKUP) with nvme := { s.nvme with trained := s.nvme.trained ++ [p.val] } }))
        ∧
  (∀ (s : State) (p : Fin 2),
      pcieUp s p.val = true →
      exec (.pcieLinkDown p) s = .next ((s.setFlds [(R.PCIE_LINK_SPEED p.val, 0), (R.PCIE_LINK_WIDTH p.val, 0),
        (R.PCIE_LINK_FLIT p.val, 0), (R.PCIE_LINK_L1 p.val, 0)]).raise R.PCIE_ISR_LINKDN)) ∧
  (∀ (s : State) (p : Fin 2) (d3 : Bool),
      pcieUp s p.val = true →
      d3 ≠ s.nvme.d3.contains p.val →
      exec (.d3hotTransition p d3) s = .next (d3Move s p.val d3)) ∧
  (∀ (s : State) (p : Fin 2),
      pcieUp s p.val = true →
      exec (.pcieL1Entry p) s = .next (s.setFld (R.PCIE_LINK_L1 p.val) 1)) ∧
  (∀ (s : State) (p : Fin 2),
      pcieUp s p.val = true →
      exec (.pcieL1Exit p) s = .next (s.setFld (R.PCIE_LINK_L1 p.val) 0))

/-- The NVMe-MI endpoint takes its address and answers its commands and control primitives (R300, R427, R485). -/
def Obligations.ManagementInterfaceComplete : Prop :=
  (∀ (s : State) (addr : Fin 128),
      miUp s = true →
      exec (.miDynamicAddress addr) s = .next (updMi s (fun m => { m with i3c := some addr.val }))) ∧
  (∀ (s : State) (kind : Nat),
      miUp s = true →
      s.nvme.mi.paused = false →
      kind = 2 →
      exec (.miReadDataStructure kind) s = .next (miPage s (stated (leBytes 2 (if ctrlExists s 1 then 2 else 1) ++ (if
        ctrlExists s 1 then leBytes 2 1 ++ leBytes 2 2 else leBytes 2 1))))) ∧
  (∀ (s : State),
      miUp s = true →
      s.nvme.mi.paused = false →
      exec .miSubsystemHealthPoll s = .next (miPage s (unstated 8))) ∧
  (∀ (s : State) (n : Nat),
      miUp s = true →
      s.nvme.mi.paused = false →
      s.boot.mode ≠ .recovery →
      exec (.miControllerHealthPoll n) s = .next (miPage s (((if ctrlExists s 1 then [1, 2] else [1]).filter (fun i => n ≤
        i)).flatMap (fun i => stated (leBytes 2 i) ++ unstated 14)))) ∧
  (∀ (s : State) (id x : Nat),
      miUp s = true →
      s.nvme.mi.paused = false →
      s.boot.mode ≠ .recovery →
      (1 ≤ id ∧ id ≤ 3) →
      exec (.miConfigurationSet id x) s = .next (miReply (updMi s (fun m => { m with config := tblSet 0 m.config id x })) 0 0
        [])) ∧
  (∀ (s : State) (id : Nat),
      miUp s = true →
      s.nvme.mi.paused = false →
      s.boot.mode ≠ .recovery →
      (1 ≤ id ∧ id ≤ 3) →
      exec (.miConfigurationGet id) s = .next (miReply s 0 (tblGet 0 s.nvme.mi.config id) [])) ∧
  (∀ (s : State) (off len : Nat),
      miUp s = true →
      s.nvme.mi.paused = false →
      s.boot.mode ≠ .recovery →
      off + len ≤ 256 →
      exec (.miVpdRead off len) s = .next (miReply s 0 0 ((List.range len).map (fun i => vpdAt s (off + i))))) ∧
  (∀ (s : State) (off : Nat) (bytes : List Byte),
      miUp s = true →
      s.nvme.mi.paused = false →
      s.boot.mode ≠ .recovery →
      off + bytes.length ≤ 256 →
      exec (.miVpdWrite off bytes) s = .next (miReply (updMi s (fun m =>
        { m with vpd := (bytes.zipIdx off).foldl (fun v x => tblPut v x.2 x.1) m.vpd })) 0 0 [])) ∧
  (∀ (s : State),
      miUp s = true →
      s.boot.mode ≠ .recovery →
      exec .miPause s = .next (miReply (updMi s (fun m => { m with paused := true })) 0 (miStateWord (updMi s (fun m =>
        { m with paused := true }))) [])) ∧
  (∀ (s : State),
      miUp s = true →
      s.boot.mode ≠ .recovery →
      exec .miResume s = .next (miReply (updMi s (fun m => { m with paused := false })) 0 (miStateWord (updMi s (fun m =>
        { m with paused := false }))) [])) ∧
  (∀ (s : State),
      miUp s = true →
      s.boot.mode ≠ .recovery →
      exec .miAbort s = .next (miReply (((queueCmds s .mi).filter (fun c => c.st == .waiting)).foldl (fun x c => endCmd x c.id
        scAbortRequested 0 []) s) 0 (miStateWord (((queueCmds s .mi).filter (fun c => c.st == .waiting)).foldl (fun x c =>
        endCmd x c.id scAbortRequested 0 []) s)) [])) ∧
  (∀ (s : State),
      miUp s = true →
      s.boot.mode ≠ .recovery →
      exec .miGetState s = .next (miReply s 0 (miStateWord s) []))

/-- A channel sequencer starts each NAND operation of Table 10.5 on a free LUN at its first micro-step (R305, R306, R313). -/
def Obligations.NandOperationsStart : Prop :=
  (∀ (s : State) (lun : Nat) (l : Lun) (b : Nat),
      lunFree s lun = true →
      (lunOf s lun = some l ∧ l.phase = .none) →
      opStart s lun 0 = some b →
      exec (.nandOpReset lun) s = .next (setLun s lun { l with op := some (newOp 0 0 0 b none) })) ∧
  (∀ (s : State) (lun : Nat) (l : Lun) (b : Nat),
      lunFree s lun = true →
      (lunOf s lun = some l ∧ l.phase = .none) →
      opStart s lun 8 = some b →
      exec (.nandOpParamRead lun) s = .next (setLun s lun { l with op := some (newOp 8 0 0 b none) })) ∧
  (∀ (s : State) (lun block page : Nat) (l : Lun) (b : Nat),
      lunFree s lun = true →
      (lunOf s lun = some l ∧ l.phase = .none) →
      opStart s lun 1 = some b →
      exec (.nandOpRead lun block page) s = .next (setLun s lun { l with op := some (newOp 1 block page b none) })) ∧
  (∀ (s : State) (lun block page : Nat) (l : Lun) (b : Nat),
      lunFree s lun = true →
      (lunOf s lun = some l ∧ l.phase = .none) →
      opStart s lun 2 = some b →
      exec (.nandOpReadSlc lun block page) s = .next (setLun s lun { l with op := some (newOp 2 block page b none) })) ∧
  (∀ (s : State) (lun : Nat) (l : Lun) (b : Nat) (g : Prog),
      lunFree s lun = true →
      (lunOf s lun = some l ∧ l.phase = .none) →
      opStart s lun 3 = some b →
      s.media.progs.find? (fun q => q.lun == lun && q.slc == false) = some g →
      exec (.nandOpProgram lun) s = .next (setLun { s with media := { s.media with progs := s.media.progs.erase g } } lun
        { l with op := some (newOp 3 g.block g.page b (some g)) })) ∧
  (∀ (s : State) (lun : Nat) (l : Lun) (b : Nat) (g : Prog),
      lunFree s lun = true →
      (lunOf s lun = some l ∧ l.phase = .none) →
      opStart s lun 4 = some b →
      s.media.progs.find? (fun q => q.lun == lun && q.slc == true) = some g →
      exec (.nandOpProgramSlc lun) s = .next (setLun { s with media := { s.media with progs := s.media.progs.erase g } } lun
        { l with op := some (newOp 4 g.block g.page b (some g)) })) ∧
  (∀ (s : State) (lun block : Nat) (l : Lun) (b : Nat),
      lunFree s lun = true →
      (lunOf s lun = some l ∧ l.phase = .none) →
      btState s lun block = 7 →
      opStart s lun 5 = some b →
      exec (.nandOpErase lun block) s = .next (setLun s lun { l with op := some (newOp 5 block 0 b none) })) ∧
  (∀ (s : State) (lun : Nat) (l : Lun) (b : Nat),
      lunFree s lun = true →
      (lunOf s lun = some l ∧ l.phase = .set) →
      opStart s lun 6 = some b →
      l.op = none →
      exec (.nandOpRetrySet lun) s = .next (setLun (setLun s lun { l with retry := l.retry + 1 }) lun
        { l with retry := l.retry + 1, op := some (newOp 6 0 0 b none) })) ∧
  (∀ (s : State) (lun : Nat) (l : Lun) (b : Nat),
      lunFree s lun = true →
      (lunOf s lun = some l ∧ l.phase = .clear) →
      opStart s lun 7 = some b →
      exec (.nandOpRetryClear lun) s = .next (setLun s lun { l with op := some (newOp 7 0 0 b none) }))

/-- The micro-steps of Table 10.6 drive the NAND bus, move pages, wait, poll and end the operation (R306, R307, R310, R313).
-/
def Obligations.NandMicroStepsComplete : Prop :=
  (∀ (s : State) (lun : Nat) (l : Lun) (o : NandOp) (p : Pers) (n : Nat),
      atStep s lun = some (l, o, p, n) →
      stepKind n = 1 →
      exec (.nandCmd lun) s = .next (setLun s lun
        { l with op := some { o with pc := o.pc + 1, bus := o.bus ++ [BitVec.ofNat 8 (stepByte n)] } })) ∧
  (∀ (s : State) (lun : Nat) (l : Lun) (o : NandOp) (p : Pers) (n : Nat),
      atStep s lun = some (l, o, p, n) →
      stepKind n = 2 →
      stepArg n = 0 →
      exec (.nandAddr lun) s = .next (setLun s lun
        { l with op := some { o with pc := o.pc + 1, bus := o.bus ++ (leBytes (p.adrCyc % 16) 0 ++ leBytes (p.adrCyc / 16) (rowAddr p lun o.block (o.page + o.pages) (stepVal n))) } }))
        ∧
  (∀ (s : State) (lun : Nat) (l : Lun) (o : NandOp) (p : Pers) (n : Nat),
      atStep s lun = some (l, o, p, n) →
      stepKind n = 3 →
      stepArg n = 0 →
      exec (.nandDin lun) s = .next (setLun s lun
        { l with op := some { o with pc := o.pc + 1, pages := o.pages + 1, bus := o.bus ++ [] } })) ∧
  (∀ (s : State) (lun : Nat) (ok : List Bool) (bytes : List Byte) (l : Lun) (o : NandOp) (p : Pers) (n : Nat),
      atStep s lun = some (l, o, p, n) →
      stepKind n = 4 →
      stepArg n = 0 →
      exec (.nandDout lun ok bytes) s = .next (setLun s lun
        { l with op := some { o with pc := o.pc + 1, pages := o.pages + 1, got := mergeGot o.got ((List.range 4).map (fun i => extRead s (psaOf p lun o.block (o.page + o.pages) 0 + i) 1)) ok, bus := o.bus ++ [] } }))
        ∧
  (∀ (s : State) (lun : Nat) (l : Lun) (o : NandOp) (p : Pers) (n : Nat),
      atStep s lun = some (l, o, p, n) →
      stepKind n = 5 →
      exec (.nandWait lun) s = .next (setLun s lun
        { l with op := some { o with pc := o.pc + 1, waits := o.waits + stepTime n, bus := o.bus ++ [] } })) ∧
  (∀ (s : State) (lun : Nat) (status : BitVec 8) (l : Lun) (o : NandOp) (p : Pers) (n : Nat),
      atStep s lun = some (l, o, p, n) →
      stepKind n = 6 →
      stepArg n = 0 →
      status.toNat &&& stepByte n = stepVal n →
      status.toNat &&& stepFailm n = 0 →
      exec (.nandPoll lun status) s = .next (setLun s lun
        { l with op := some { o with pc := o.pc + 1, bus := o.bus ++ [0x70] ++ [] } })) ∧
  (∀ (s : State) (lun : Nat) (status : BitVec 8) (l : Lun) (o : NandOp) (p : Pers) (n : Nat),
      atStep s lun = some (l, o, p, n) →
      stepKind n = 6 →
      stepArg n = 0 →
      status.toNat &&& stepByte n ≠ stepVal n →
      exec (.nandPoll lun status) s = .next (setLun s lun { l with op := some { o with bus := o.bus ++ [0x70] } })) ∧
  (∀ (s : State) (lun : Nat) (l : Lun) (o : NandOp) (p : Pers) (n : Nat),
      atStep s lun = some (l, o, p, n) →
      stepKind n = 6 →
      exec (.nandPollTimeout lun) s = .next (beginOp (opEnds (mediaErr (s.raise R.MEDIA_ISR_OPTO) lun o.block 3) lun l p o
        .timeout) lun 0 0 0 none)) ∧
  (∀ (s : State) (lun : Nat) (l : Lun) (o : NandOp) (p : Pers) (n : Nat),
      atStep s lun = some (l, o, p, n) →
      stepKind n = 7 →
      stepArg n = 0 →
      exec (.nandFeat lun) s = .next (setLun s lun
        { l with op := some { o with pc := o.pc + 1, bus := o.bus ++ (BitVec.ofNat 8 (stepByte n) :: leBytes 4 (stepTime n)) } }))
        ∧
  (∀ (s : State) (lun : Nat) (l : Lun) (o : NandOp) (p : Pers) (n : Nat),
      atStep s lun = some (l, o, p, n) →
      stepKind n = 0 →
      exec (.nandEnd lun) s = .next (opEnds s lun l p o (if stepArg n = 0 then .success else .status)))

/-- Units are written and committed, the map checkpointed, blocks collected and erased, and the scans and the cellar replay
end, as R317 to R333 and R466 say (R316, R317, R319, R322, R326, R327, R330, R331, R333, R466). -/
def Obligations.TranslationCommandsComplete : Prop :=
  (∀ (s : State) (nsid unit : Nat) (s1 : State),
      unitDue s nsid unit = true →
      s.fld R.FTLA_FLOOR_BLOCKS < atticCount s →
      (needsFine s nsid unit = false ∨ fineFree s ≠ 0) →
      writeUnit s nsid unit = some s1 →
      exec (.unitWrite nsid unit) s = .next (gcUpdate { s1 with ftl := { s1.ftl with due := s1.ftl.due.erase (nsid, unit) } }))
        ∧
  (∀ (s : State) (nsid unit : Nat),
      s.fld R.FTLA_UNITTO_TIME ≠ 0 →
      wbUnit s nsid unit ≠ [] →
      s.ftl.due.contains (nsid, unit) = false →
      exec (.unitTimeout nsid unit) s = .next (unitWrite { s with ftl := { s.ftl with due := s.ftl.due ++ [(nsid, unit)] } }
        nsid unit)) ∧
  (∀ (s : State) (rel : Nat) (q : List MapReq) (r : Rel) (n : Nat) (bl : List (List Byte)),
      s.ftl.queue = .parcel rel :: q →
      findRel s rel = some r →
      isIrregular r = true →
      n = (if (decodeImage r.blocks).2 then relSectors r else min (relSectors r) ((decodeImage r.blocks).1.length / 4096)) →
      bl = storedBlocks (decodeImage r.blocks).1 n →
      exec .irregularReform s = .next (runQueue (deallocSectors (putSectors (updRel ((s.addWrap R.MEDIA_IRREG_COUNT 1).addWrap
        R.CODEC_DECNT_COUNT 1) rel (fun _ => ({ r with blocks := bl, ebytes := bl.flatten.length, nblk := bl.length })))
        ({ r with blocks := bl, ebytes := bl.flatten.length, nblk := bl.length }) 0 bl n) r.nsid (r.lsec + n) (r.nsec - n)) q))
        ∧
  (∀ (s : State),
      exec .journalCommit s = .next (gcUpdate (noteFine s (noteRestored s (dropPersisted (flushPend ((s.ftl.jobs.filter (fun j
        => !j.gc && j.left == 0)).foldl commitUnit s))))))) ∧
  (∀ (s : State),
      exec .checkpoint s = .next
        ({ (flushPend s) with ftl := { (flushPend s).ftl with ckpt := ⟨(flushPend s).ftl.map, (allBlocks (flushPend s)).map (fun b => (blkKey b.1 b.2, (btErases (flushPend s) b.1 b.2, btValid (flushPend s) b.1 b.2, btClosed (flushPend s) b.1 b.2, btState (flushPend s) b.1 b.2)))⟩, seconds := (flushPend s).ftl.seconds + (flushPend s).fld R.FTLA_CKPT_PERIOD, journal := (flushPend s).ftl.journal.filter (fun r => match r with | .commit _ _ _ _ => true | _ => false) } }))
        ∧
  (∀ (s : State) (lun block : Nat) (sc : Int) (s0 s1 : State),
      s.ftl.victim = none →
      s.ftl.relocate = [] →
      s.flag R.FTLA_STATUS_GCRUN = true →
      victimOver s (usedLuns s) = some (lun, block, sc) →
      s0 = (match tblGet none s.ftl.openBlk lun with | some (o, _) => if o = block then closeOpen s lun else s | none => s) →
      copyUnits s0 lun block (unitsIn s0 lun block) = some s1 →
      exec .gcVictim s = .next (gcUpdate { s1 with ftl := { s1.ftl with victim := some (blkKey lun block) } })) ∧
  (∀ (s : State),
      s.ftl.victim = none →
      s.ftl.relocate = [] →
      (s.flag R.FTLA_STATUS_GCRUN = true ∧ s.flag R.FTLA_STATUS_GCFORCED = true) →
      victimOver s (usedLuns s) = none →
      atticCount s < s.fld R.FTLA_FLOOR_BLOCKS →
      exec .gcVictim s = .next (enterReadOnly s)) ∧
  (∀ (s : State) (k : Nat) (s2 : State),
      s.ftl.victim = some k →
      s.ftl.jobs = [] →
      unitsIn s (k / 2 ^ 19) (k % 2 ^ 19) = [] →
      s2 = (if s.ftl.relocate.any (fun e => e.1 == k && e.2) then retireBlock s (k / 2 ^ 19) (k % 2 ^ 19) else setBlock s (k /
        2 ^ 19) (k % 2 ^ 19) 7) →
      exec .gcCommit s = .next (gcUpdate (noteFine s
        { flushPend s2 with ftl := { (flushPend s2).ftl with victim := none, relocate := (flushPend s2).ftl.relocate.filter (fun e => e.1 != k) } })))
        ∧
  (∀ (s : State) (lun block : Nat) (ok : Bool),
      lunFree s lun = true →
      btState s lun block = 7 →
      readInFlight s lun block = false →
      exec (.gcErase lun block ok) s = .next (eraseDone s lun block ok)) ∧
  (∀ (s : State) (lun : Nat) (all : Bool) (l b : Nat),
      s.ftl.scan = some (2, lun, all) →
      leastWornOver s (scanLuns s lun all) = some (l, b) →
      exec .ftlaScanDone s = .next ((({ (s.clear R.FTLA_STATUS_SCANBUSY) with ftl := { s.ftl with scan := none } }).setFlds
        [(R.FTLA_SRES_BLOCK, b), (R.FTLA_SRES_LUN, l), (R.FTLA_SRES_FOUND, 1)]).raise R.FTLA_ISR_SCANDONE)) ∧
  (∀ (s : State),
      s.ftl.replaying = true →
      restoredRels s true = [] →
      exec .cellarReplayWrite s = .next (eraseCellar s)) ∧
  (∀ (s : State),
      s.ftl.replaying = true →
      restoredRels s true ≠ [] →
      exec .cellarReplayWrite s = .next (writeRestored s (restoredRels s true).contains))

/-- Controllers, doorbells, arbitration, completion entries and queue management complete as R274 to R288 and R489 say (R268,
R274, R275, R276, R287, R288, R489). -/
def Obligations.ControllersAndQueuesComplete : Prop :=
  (∀ (s : State) (k : Fin 2) (asqs acqs : Nat),
      (ctrlExists s k.val = true ∧ (ctrlOf s k.val).en = false) →
      (1 ≤ asqs ∧ asqs ≤ 4095) →
      (1 ≤ acqs ∧ acqs ≤ 4095) →
      exec (.controllerEnable k asqs acqs) s = .next (setCtrl s k.val
        { Ctrl.reset with en := true, sqs := [(0, some (adminSq (asqs + 1)))], cqs := [(0, some (newCq (acqs + 1) 0 true))] }))
        ∧
  (∀ (s : State) (k : Fin 2),
      (ctrlOf s k.val).en = true →
      exec (.controllerReset k) s = .next (resetCtrl s k.val)) ∧
  (∀ (s : State) (k : Fin 2) (shn : Fin 4),
      (ctrlOf s k.val).en = true →
      (shn.val = 1 ∨ shn.val = 2) →
      exec (.shutdownNotify k shn) s = .next (setCtrl s k.val { ctrlOf s k.val with shn := shn.val, shst := 1 })) ∧
  (∀ (s : State) (k : Fin 2),
      (ctrlOf s k.val).shst = 1 →
      writesSafe s k.val = true →
      exec (.shutdownComplete k) s = .next (setCtrl s k.val { ctrlOf s k.val with shst := 2 })) ∧
  (∀ (s : State) (k : Fin 2) (q tail : Nat) (x : Sq),
      sqOf s k.val q = some x →
      tail < x.size →
      exec (.sqTailDoorbell k q tail) s = .next (setSq s k.val q (some { x with tail := tail }))) ∧
  (∀ (s : State) (k : Fin 2) (q head n : Nat) (x : Cq),
      (cqOf s k.val q = some x ∧ head < x.size) →
      n = (head + x.size - x.head) % x.size →
      n ≤ x.ents.length →
      exec (.cqHeadDoorbell k q head) s = .next (setCq s k.val q (some { x with head := head, ents := x.ents.drop n }))) ∧
  (∀ (s : State) (k : Fin 2) (q cls : Nat) (anew : Bool) (c : Cmd),
      ctrlReady s k.val = true →
      arbChoice s k = some (q, cls, anew) →
      runnable s (.host k q) = some c →
      exec (.commandStart k) s = .next (noteWaits (startCmd (updCmd (arbServed s k q cls anew) c.id (fun d =>
        { d with st := .started })) c))) ∧
  (∀ (s : State) (src : QueueRef) (c : Cmd) (s1 : State),
      queueFront s src = some c →
      cmdReady s c = true →
      postEntry s c (cmdResult s c).1 (cmdResult s c).2 = some s1 →
      exec (.commandComplete src) s = .next (noteWaits (retireCmd s1 c (cmdResult s c).1))) ∧
  (∀ (s : State) (q : CmdRef) (cto : Bool) (c : Cmd),
      s.nvme.cmds.find? (fun d => d.src == q && !d.abandoned) = some c →
      c.st = .waiting →
      exec (.hostReadFailure q none cto) s = .next (updCmd (if cto then s.raise R.PCIE_ISR_CTO else s) c.id (fun d =>
        { d with xfer := true }))) ∧
  (∀ (s : State) (q : CmdRef) (n : Nat) (cto : Bool) (c : Cmd),
      s.nvme.cmds.find? (fun d => d.src == q && !d.abandoned) = some c →
      c.st = .started →
      exec (.hostReadFailure q (some n) cto) s = .next (fetchFails (if cto then s.raise R.PCIE_ISR_CTO else s) c n)) ∧
  (∀ (s : State) (q : CmdRef) (qid size cqid : Nat) (prio : Fin 4) (s1 : State) (c : Cmd),
      startsAtOnce s q (.createSq qid size cqid prio.val) = some (s1, c) →
      (cqid ≠ 0 ∧ (cqOf s1 (ctrlNum c) cqid).isSome = true) →
      (1 ≤ qid ∧ qid ≤ 1024 ∧ sqOf s1 (ctrlNum c) qid = none) →
      (2 ≤ size ∧ size ≤ 65536) →
      exec (.createIoSq q qid size cqid prio) s = .next (ended (setSq s1 (ctrlNum c) qid (some ⟨size, 0, 0, cqid, prio.val⟩)) c
        scOk 0 [])) ∧
  (∀ (s : State) (q : CmdRef) (qid size vector : Nat) (ien : Bool) (s1 : State) (c : Cmd),
      startsAtOnce s q (.createCq qid size vector ien) = some (s1, c) →
      (1 ≤ qid ∧ qid ≤ 1024 ∧ cqOf s1 (ctrlNum c) qid = none) →
      (2 ≤ size ∧ size ≤ 65536) →
      vector ≤ 1024 →
      exec (.createIoCq q qid size vector ien) s = .next (ended (setCq s1 (ctrlNum c) qid (some (newCq size vector ien))) c
        scOk 0 [])) ∧
  (∀ (s : State) (q : CmdRef) (k : Fin 2) (cid : BitVec 16) (qid : Nat) (s1 : State) (c : Cmd),
      startsAtOnce s q (.deleteSq qid) = some (s1, c) →
      q = .host k 0 cid →
      (1 ≤ qid ∧ qid ≤ 1024 ∧ (sqOf s1 k.val qid).isSome = true) →
      exec (.deleteIoSq q qid) s = .next (noteWaits (abortQueue s1 (.host k qid)))) ∧
  (∀ (s : State) (q : CmdRef) (qid : Nat) (s1 : State) (c : Cmd),
      startsAtOnce s q (.deleteCq qid) = some (s1, c) →
      (1 ≤ qid ∧ qid ≤ 1024 ∧ (cqOf s1 (ctrlNum c) qid).isSome = true) →
      (ctrlOf s1 (ctrlNum c)).sqs.any (fun e => e.2.any (fun x => x.cq == qid)) = false →
      exec (.deleteIoCq q qid) s = .next (ended (setCq s1 (ctrlNum c) qid none) c scOk 0 [])) ∧
  (∀ (s : State) (q : CmdRef) (sqid : Nat) (cid : BitVec 16) (s1 : State) (c : Cmd),
      startsAtOnce s q (.abort sqid cid.toNat) = some (s1, c) →
      s1.nvme.cmds.countP (fun d => d.id != c.id && d.st != .waiting && ctrlNum d == ctrlNum c &&
        (match d.op with | .abort .. => true | _ => false)) < 8 →
      exec (.abort q sqid cid) s = .next (noteWaits (abortPoint s1 c sqid cid.toNat))) ∧
  (∀ (s : State) (q : CmdRef) (opcode : Nat) (s1 : State) (c : Cmd),
      startsAtOnce s q (.invalid opcode) = some (s1, c) →
      exec (.invalidCommandOpcode q opcode) s = .next (ended s1 c scInvalidOpcode 0 []))

/-- Identify, log pages, features, events, namespaces, directives, Format and Sanitize complete as R270 to R273, R278, R293 to
R295 and R425 say (R270, R271, R273, R278, R293, R294, R295, R425, R512). -/
def Obligations.AdminCommandsComplete : Prop :=
  (∀ (s : State) (q : CmdRef) (cns nsid : Nat) (n : Ns) (s1 : State) (c : Cmd),
      startsAtOnce s q (.identify cns nsid) = some (s1, c) →
      (cns = 0 ∧ nsid ≠ 0xFFFFFFFF) →
      nsOf s1 nsid = some n →
      exec (.identify q cns nsid) s = .next (noteWaits (returnPage s1 c 0 (identifyNs n)))) ∧
  (∀ (s : State) (q : CmdRef) (nsid : Nat) (s1 : State) (c : Cmd),
      startsAtOnce s q (.identify 1 nsid) = some (s1, c) →
      exec (.identify q 1 nsid) s = .next (noteWaits (returnPage s1 c 0 (identifyCtrl (ctrlNum c))))) ∧
  (∀ (s : State) (q : CmdRef) (lid nsid off len : Nat) (rae : Bool) (s1 : State) (c : Cmd),
      startsAtOnce s q (.getLog lid nsid off len rae) = some (s1, c) →
      (0xC0 ≤ lid ∧ lid ≤ 0xC5) →
      exec (.getLogPage q lid nsid off len rae) s = .next (noteWaits (pageRead (returnPage s1 c 0 (vendorPage s1 lid off len))
        (ctrlNum c) lid rae))) ∧
  (∀ (s : State) (q : CmdRef) (lid nsid off len : Nat) (rae : Bool) (pg : PageBytes) (s1 : State) (c : Cmd),
      startsAtOnce s q (.getLog lid nsid off len rae) = some (s1, c) →
      standardPage s1 lid = some pg →
      exec (.getLogPage q lid nsid off len rae) s = .next (noteWaits (pageRead (returnPage s1 c 0 (pageCut pg off len))
        (ctrlNum c) lid rae))) ∧
  (∀ (s : State) (q : CmdRef) (fid nsid value : Nat) (s1 : State) (c : Cmd),
      startsAtOnce s q (.setFeatures fid nsid value false) = some (s1, c) →
      (features.contains fid = true ∧ fid ≠ featPower ∧ fid ≠ featQueues ∧ fid ≠ featErrorRecovery) →
      (nsid = 0 ∨ nsid = 0xFFFFFFFF) →
      exec (.setFeatures q fid nsid value false) s = .next (ended (setCtrl s1 (ctrlNum c)
        { ctrlOf s1 (ctrlNum c) with feats := tblSet 0 (ctrlOf s1 (ctrlNum c)).feats fid value }) c scOk 0 [])) ∧
  (∀ (s : State) (q : CmdRef) (nsid value : Nat) (s1 : State) (c : Cmd),
      startsAtOnce s q (.setFeatures 2 nsid value false) = some (s1, c) →
      (nsid = 0 ∨ nsid = 0xFFFFFFFF) →
      powerFault s1 (value % 32) = false →
      exec (.setFeatures q 2 nsid value false) s = .next (ended (powerEnter s1 (value % 32)) c scOk 0 [])) ∧
  (∀ (s : State) (q : CmdRef) (fid nsid : Nat) (s1 : State) (c : Cmd),
      startsAtOnce s q (.getFeatures fid nsid) = some (s1, c) →
      (features.contains fid = true ∧ fid ≠ 0x0E ∧ fid ≠ featErrorRecovery) →
      (nsid = 0 ∨ nsid = 0xFFFFFFFF) →
      exec (.getFeatures q fid nsid) s = .next (ended s1 c scOk (featValue s1 (ctrlNum c) fid nsid) [])) ∧
  (∀ (s : State) (q : CmdRef) (s1 : State) (c : Cmd),
      startsAtOnce s q (.asyncEvent) = some (s1, c) →
      s1.nvme.cmds.countP (fun d => d.id != c.id && d.op == .asyncEvent && d.st == .started && ctrlNum d == ctrlNum c) < 8 →
      (ctrlOf s1 (ctrlNum c)).events = [] →
      exec (.asyncEventRequest q) s = .next (noteWaits s1)) ∧
  (∀ (s : State) (q : CmdRef) (e : AEvent) (es : List AEvent) (s1 : State) (c : Cmd),
      startsAtOnce s q (.asyncEvent) = some (s1, c) →
      s1.nvme.cmds.countP (fun d => d.id != c.id && d.op == .asyncEvent && d.st == .started && ctrlNum d == ctrlNum c) < 8 →
      (ctrlOf s1 (ctrlNum c)).events = e :: es →
      exec (.asyncEventRequest q) s = .next (noteWaits (deliverEvent s1 (ctrlNum c) e))) ∧
  (∀ (s : State) (q : CmdRef) (nsze flbas id : Nat) (s2 : State) (s1 : State) (c : Cmd),
      startsAtOnce s q (.nsManage (.create nsze flbas)) = some (s1, c) →
      nsCreated s1 nsze flbas = some (id, s2) →
      exec (.namespaceManagement q (.create nsze flbas)) s = .next (ended s2 c scOk id [])) ∧
  (∀ (s : State) (q : CmdRef) (nsid : Nat) (s1 : State) (c : Cmd),
      startsAtOnce s q (.nsManage (.delete nsid)) = some (s1, c) →
      (nsid ≠ 0xFFFFFFFF ∧ (nsOf s1 nsid).isSome = true) →
      exec (.namespaceManagement q (.delete nsid)) s = .next (ended (nsDelete s1 nsid) c scOk 0 [])) ∧
  (∀ (s : State) (q : CmdRef) (slm len a : Nat) (s1 : State) (c : Cmd),
      startsAtOnce s q (.nsManage (.createSlm slm len)) = some (s1, c) →
      (slm < 16 ∧ slmRegion s1 (ctrlNum c) slm = none) →
      (1 ≤ len ∧ len ≤ 2 ^ 30) →
      slmPlace s1 len = some a →
      exec (.namespaceManagement q (.createSlm slm len)) s = .next (ended (setSlm s1 (16 * ctrlNum c + slm) (some (a, len))) c
        scOk slm [])) ∧
  (∀ (s : State) (q : CmdRef) (nsid : Nat) (attach : Bool) (n : Ns) (s1 : State) (c : Cmd),
      startsAtOnce s q (.nsAttach nsid attach) = some (s1, c) →
      nsOf s1 nsid = some n →
      n.attached = !attach →
      exec (.namespaceAttachment q nsid attach) s = .next (ended (setNs s1 nsid (some { n with attached := attach })) c scOk 0
        [])) ∧
  (∀ (s : State) (q : CmdRef) (nsid value : Nat) (n : Ns) (s1 : State) (c : Cmd),
      startsAtOnce s q (.dirSend nsid 0 1 value) = some (s1, c) →
      nsOf s1 nsid = some n →
      bitsOf value 8 8 = 1 →
      exec (.directiveSend q nsid 0 1 value) s = .next (ended (setNs s1 nsid (some { n with streams := value % 2 == 1 })) c
        scOk 0 [])) ∧
  (∀ (s : State) (q : CmdRef) (nsid : Nat) (n : Ns) (s1 : State) (c : Cmd),
      startsAtOnce s q (.dirReceive nsid 0 1) = some (s1, c) →
      nsOf s1 nsid = some n →
      exec (.directiveReceive q nsid 0 1) s = .next (noteWaits (returnPage s1 c 0 (stated (leBytes 32 3 ++ leBytes 32 (1 + 2 *
        b2n n.streams) ++ List.replicate 4032 0))))) ∧
  (∀ (s : State) (q : CmdRef) (nsid lbaf ses : Nat) (s1 : State) (c : Cmd),
      startsAtOnce s q (.formatNvm nsid lbaf ses) = some (s1, c) →
      (nsid ≠ 0xFFFFFFFF ∧ (nsOf s1 nsid).isSome = true) →
      (lbaf ≤ 1 ∧ ses ≤ 2) →
      (s1.nvme.sanitize = none ∧ nsInFlow s1 nsid = false) →
      (ses = 2 → rngOk s1 = true) →
      exec (.formatNvm q nsid lbaf ses) s = .next (ended (formatNs lbaf ses s1 nsid) c scOk 0 [])) ∧
  (∀ (s : State) (q : CmdRef) (s1 : State) (c : Cmd),
      startsAtOnce s q (.sanitize false) = some (s1, c) →
      s1.nvme.sanitize = none →
      exec (.sanitizeBlockErase q) s = .next (ended { s1 with nvme := { s1.nvme with sanitize := some 0 } } c scOk 0 [])) ∧
  (∀ (s : State) (q : CmdRef) (s2 : State) (s1 : State) (c : Cmd),
      startsAtOnce s q (.sanitize true) = some (s1, c) →
      (s1.nvme.sanitize = none ∧ rngOk s1 = true) →
      s2 = (0 :: nsIds s1).foldl (fun acc n => (newMediaKey acc n).getD acc) s1 →
      exec (.sanitizeCryptoErase q) s = .next (ended { s2 with nvme := { s2.nvme with sanitize := some 1 } } c scOk 0 [])) ∧
  (∀ (s : State) (k : Nat) (s1 : State),
      (s.nvme.sanitize = some k ∧ s.ftl.rels = []) →
      s1 = { (nsIds s).foldl deallocNs s with nvme := { ((nsIds s).foldl deallocNs s).nvme with sanitize := none } } →
      exec .sanitizeDone s = .next ((if k = 0 then { s1 with media := { s1.media with cells := [] } } else s1)))

/-- Firmware download and commit, the device self-test and Hold-up Requalify complete as R289, R290, R450, R462 and R463 say
(R289, R290, R450, R462, R463). -/
def Obligations.FirmwareSelfTestAndRequalifyComplete : Prop :=
  (∀ (s : State) (q : CmdRef) (off : Nat) (bytes : List Byte) (s1 : State) (c : Cmd),
      startsAtOnce s q (.fwDownload off bytes) = some (s1, c) →
      s1.boot.mode ≠ .recovery →
      exec (.firmwareImageDownload q off bytes) s = .next (ended
        { s1 with nvme := { s1.nvme with fwBuf := (bytes.zipIdx off).foldl (fun t x => tblSet 0xFF t x.2 x.1) s1.nvme.fwBuf } }
        c scOk 0 [])) ∧
  (∀ (s : State) (q : CmdRef) (slot : Nat) (fault ok : Bool) (img : List Byte) (s2 : State) (r : Nat × Nat × State) (s1 :
    State) (c : Cmd),
      startsAtOnce s q (.fwCommit 0 slot fault ok) = some (s1, c) →
      s1.boot.mode ≠ .recovery →
      ((slot = 1 ∨ slot = 2) ∧ s1.boot.slot ≠ some (slot - 1)) →
      img = (List.range (fwLength s1)).map (tblGet 0xFF s1.nvme.fwBuf) →
      s2 = slotProgram (slotErase s1 (slot - 1) (fwLength s1)) (slot - 1) 0 img →
      r = gateCommit s2 (slot - 1) 0 fault ok →
      exec (.firmwareCommitAction0 q slot fault ok) s = .next (ended { r.2.2 with nvme := { r.2.2.nvme with fwBuf := [] } } c
        (commitStatus false r.1) 0 [])) ∧
  (∀ (s : State) (q : CmdRef) (slot : Nat) (fault ok : Bool) (img : List Byte) (s2 : State) (r : Nat × Nat × State) (s1 :
    State) (c : Cmd),
      startsAtOnce s q (.fwCommit 1 slot fault ok) = some (s1, c) →
      s1.boot.mode ≠ .recovery →
      ((slot = 1 ∨ slot = 2) ∧ s1.boot.slot ≠ some (slot - 1)) →
      img = (List.range (fwLength s1)).map (tblGet 0xFF s1.nvme.fwBuf) →
      s2 = slotProgram (slotErase s1 (slot - 1) (fwLength s1)) (slot - 1) 0 img →
      r = gateCommit s2 (slot - 1) 1 fault ok →
      exec (.firmwareCommitAction1 q slot fault ok) s = .next (ended { r.2.2 with nvme := { r.2.2.nvme with fwBuf := [] } } c
        (commitStatus false r.1) 0 [])) ∧
  (∀ (s : State) (q : CmdRef) (slot : Nat) (fault ok : Bool) (r : Nat × Nat × State) (s1 : State) (c : Cmd),
      startsAtOnce s q (.fwCommit 2 slot fault ok) = some (s1, c) →
      s1.boot.mode ≠ .recovery →
      ((slot = 1 ∨ slot = 2) ∧ s1.boot.slot ≠ some (slot - 1)) →
      r = gateActivate s1 (slot - 1) fault ok →
      exec (.firmwareCommitAction2 q slot fault ok) s = .next (ended r.2.2 c (commitStatus true r.1) 0 [])) ∧
  (∀ (s : State) (q : CmdRef) (nsid : Nat) (s1 : State) (c : Cmd),
      startsAtOnce s q (.selfTest 1 nsid) = some (s1, c) →
      (nsid = 0 ∨ nsid = 0xFFFFFFFF ∨ (nsOf s1 nsid).isSome = true) →
      s1.nvme.selfTest.run = none →
      exec (.deviceSelfTestShort q nsid) s = .next (ended
        { s1 with nvme := { s1.nvme with selfTest := { s1.nvme.selfTest with run := some 1, nsid := nsid } } } c scOk 0 [])) ∧
  (∀ (s : State) (q : CmdRef) (nsid : Nat) (s1 : State) (c : Cmd),
      startsAtOnce s q (.selfTest 2 nsid) = some (s1, c) →
      (nsid = 0 ∨ nsid = 0xFFFFFFFF ∨ (nsOf s1 nsid).isSome = true) →
      s1.nvme.selfTest.run = none →
      exec (.deviceSelfTestExtended q nsid) s = .next (ended
        { s1 with nvme := { s1.nvme with selfTest := { s1.nvme.selfTest with run := some 2, nsid := nsid } } } c scOk 0 [])) ∧
  (∀ (s : State) (q : CmdRef) (s1 : State) (c : Cmd),
      startsAtOnce s q (.selfTest 0xF 0) = some (s1, c) →
      exec (.deviceSelfTestAbort q) s = .next (ended (endSelfTest s1 1) c scOk 0 [])) ∧
  (∀ (s : State) (pass : Bool) (k : Nat) (s1 : State),
      s.nvme.selfTest.run = some k →
      s1 = (List.range tcamSlots).foldl (fun acc _ => shadowCheck acc) ([0, 1, 2, 3, 4, 6, 7].foldl correctorCheck s) →
      exec (.selfTestEnd pass) s = .next (endSelfTest s1 (if pass then 0 else 7))) ∧
  (∀ (s : State) (q : CmdRef) (hi : BitVec 30) (s1 : State) (c : Cmd),
      startsAtOnce s q (.requalify 0 hi.toNat []) = some (s1, c) →
      hi = 0 →
      qualRunning s1 = false →
      exec (.holdupRequalify q hi) s = .next (noteWaits (qualDrain s1 (some c.id)))) ∧
  (∀ (s : State) (q : CmdRef) (hi : BitVec 30) (data : List Byte) (s1 : State) (c : Cmd),
      startsAtOnce s q (.requalify 1 hi.toNat data) = some (s1, c) →
      (hi = 0 ∧ data.length = 128) →
      holdProfOk data = true →
      qualRunning s1 = false →
      exec (.holdupRequalifyProfile q hi data) s = .next (noteWaits (qualDrain (holdSave (setProf s1 data) 1) (some c.id)))) ∧
  (∀ (s : State) (q : CmdRef) (hi : BitVec 30) (data : List Byte) (s1 : State) (c : Cmd),
      startsAtOnce s q (.requalify 2 hi.toNat data) = some (s1, c) →
      (hi = 0 ∧ data.length = 256) →
      thermProfOk data = true →
      exec (.holdupThermalProfile q hi data) s = .next (ended (thermSave (thermLoad s1 data) 1) c scOk 0 []))

/-- Flush, Write, Read, Dataset Management, Verify, Parcel Read and the SLM commands complete as R64, R278 to R285, R295 and
R299 say (R64, R278, R279, R280, R281, R282, R285, R299). -/
def Obligations.InputOutputCommandsComplete : Prop :=
  (∀ (s : State) (q : CmdRef) (nsid : Nat) (s1 : State) (c : Cmd),
      startsAtOnce s q (.flush nsid) = some (s1, c) →
      (nsid ≠ 0xFFFFFFFF ∧ ioFault s1 nsid [] = none) →
      heldOff s1 = false →
      exec (.flush q nsid) s = .next (noteWaits (updCmd s1 c.id (fun d => { d with rels := flushSet s1 nsid })))) ∧
  (∀ (s : State) (q : CmdRef) (nsid slba nlb dtype dspec f : Nat) (fua : Bool) (ptr : DataPtr) (s1 : State) (c : Cmd),
      startsAtOnce s q (.write nsid slba nlb dtype dspec fua ptr) = some (s1, c) →
      writeFault s1 nsid slba nlb dtype ptr = none →
      hostFlow s1 nsid (if dtype = 1 then dspec else 0) = some f →
      (ctxDraining s1 f = false ∧ ctxStopped s1 f = false) →
      exec (.write q nsid slba nlb dtype dspec fua ptr) s = .next (noteWaits (reserveRun s1 c f nsid slba nlb))) ∧
  (∀ (s : State) (q : CmdRef) (nsid slba nlb : Nat) (bad : List Nat) (s1 : State) (c : Cmd),
      startsAtOnce s q (.read nsid slba nlb bad) = some (s1, c) →
      (readRange s1 bad nsid slba nlb).1 = scOk →
      exec (.read q nsid slba nlb bad) s = .next (ended s1 c scOk 0 (readRange s1 bad nsid slba nlb).2)) ∧
  (∀ (s : State) (q : CmdRef) (nsid slba nlb : Nat) (bad : List Nat) (s1 : State) (c : Cmd),
      startsAtOnce s q (.verify nsid slba nlb bad) = some (s1, c) →
      (readRange s1 bad nsid slba nlb).1 = scOk →
      exec (.verify q nsid slba nlb bad) s = .next (ended s1 c scOk 0 [])) ∧
  (∀ (s : State) (q : CmdRef) (nsid : Nat) (ranges : List LbaRange) (s1 : State) (c : Cmd),
      startsAtOnce s q (.dsm nsid ranges) = some (s1, c) →
      ioFault s1 nsid (ranges.map (fun r => (r.slba, r.nlb))) = none →
      heldOff s1 = false →
      exec (.datasetManagement q nsid ranges) s = .next (ended (ranges.foldl (fun acc r => enqueueMap acc (.dealloc nsid
        (lbaSectors acc nsid r.slba r.nlb).1 (lbaSectors acc nsid r.slba r.nlb).2)) (updCmd s1 c.id (fun d =>
        { d with lock := some (nsid, ranges.map (fun r => (r.slba, r.nlb))) }))) c scOk 0 [])) ∧
  (∀ (s : State) (q : CmdRef) (nsid slba : Nat) (cdw12 : BitVec 32) (bad : List Nat) (pc : FoundParcel) (s1 : State) (c : Cmd),
      startsAtOnce s q (.parcelRead nsid slba cdw12.toNat bad) = some (s1, c) →
      (cdw12.toNat < 0x10000 ∧ ioFault s1 nsid [(slba, 1)] = none) →
      (sectorBlock s1 nsid (lbaSectors s1 nsid slba 1).1).isSome = true →
      parcelOf s1 nsid (lbaSectors s1 nsid slba 1).1 = some pc →
      exec (.parcelRead q nsid slba cdw12 bad) s = .next (ended s1 c (parcelRecord s1 bad nsid pc).1 (parcelRecord s1 bad nsid
        pc).2.length ((parcelRecord s1 bad nsid pc).2.take (4096 * (cdw12.toNat % 0x10000 + 1))))) ∧
  (∀ (s : State) (q : CmdRef) (slm off len a : Nat) (bs : List Byte) (s2 : State) (s1 : State) (c : Cmd),
      startsAtOnce s q (.slmRead slm off len) = some (s1, c) →
      slmAddr s1 (ctrlNum c) slm off len = some a →
      readRam s1 a len = (bs, s2, none) →
      exec (.slmRead q slm off len) s = .next (ended s2 c scOk 0 bs)) ∧
  (∀ (s : State) (q : CmdRef) (slm off a : Nat) (bytes : List Byte) (s1 : State) (c : Cmd),
      startsAtOnce s q (.slmWrite slm off bytes) = some (s1, c) →
      slmAddr s1 (ctrlNum c) slm off bytes.length = some a →
      exec (.slmWrite q slm off bytes) s = .next (ended (writeMem s1 a bytes none (tagHost (ctrlNum c))) c scOk 0 [])) ∧
  (∀ (s : State) (q : CmdRef) (nsid slba nlb slm off a : Nat) (bad : List Nat) (s1 : State) (c : Cmd),
      startsAtOnce s q (.memoryCopy nsid slba nlb slm off bad) = some (s1, c) →
      (readRange s1 bad nsid slba nlb).1 = scOk →
      slmAddr s1 (ctrlNum c) slm off (readRange s1 bad nsid slba nlb).2.length = some a →
      exec (.memoryCopy q nsid slba nlb slm off bad) s = .next (ended (writeMem s1 a (readRange s1 bad nsid slba nlb).2 none
        tagLocal) c scOk 0 []))

/-- Flow Bind and Unbind and every image load complete as R60, R61, R117, R200, R238, R245, R251, R308 and R370 say (R60, R61,
R117, R200, R238, R245, R251, R292, R308, R370). -/
def Obligations.VendorLoadsComplete : Prop :=
  (∀ (s : State) (q : CmdRef) (cdw10 : BitVec 32) (image : List Byte) (s1 : State) (c : Cmd),
      startsAtOnce s q (.flowBind cdw10.toNat image) = some (s1, c) →
      (image.length = 64 ∧ cdw10.toNat < 2 ^ 18) →
      bindFault s1 cdw10.toNat image = none →
      maskQuiesced s1 (imgFld image cxMASK) = false →
      exec (.flowBind q cdw10 image) s = .next (ended (bindFlow s1 cdw10.toNat image) c scOk 0 [])) ∧
  (∀ (s : State) (q : CmdRef) (cdw10 : BitVec 32) (s1 : State) (c : Cmd),
      startsAtOnce s q (.flowUnbind cdw10.toNat) = some (s1, c) →
      cdw10.toNat < 2 ^ 18 →
      (ctxBound s1 cdw10.toNat = true ∧ ctxDraining s1 cdw10.toNat = false) →
      exec (.flowUnbind q cdw10) s = .next (noteWaits (drainFlow s1 cdw10.toNat (some c.id)))) ∧
  (∀ (s : State) (q : CmdRef) (cdw10 : BitVec 32) (image : List Byte) (s1 : State) (c : Cmd),
      startsAtOnce s q (.programLoad cdw10.toNat image) = some (s1, c) →
      dataLengthBad image = false →
      cdw10.toNat < 64 →
      progStatus s1 0 cdw10.toNat image = scOk →
      exec (.programSlotLoad q cdw10 image) s = .next (ended (progLoad s1 cdw10.toNat image) c scOk 0 [])) ∧
  (∀ (s : State) (q : CmdRef) (image : List Byte) (s1 : State) (c : Cmd),
      startsAtOnce s q (.stepTableLoad image) = some (s1, c) →
      dataLengthBad image = false →
      setStatus s1 image = scOk →
      exec (.stepTableLoad q image) s = .next (ended (setLoad s1 image) c scOk 0 [])) ∧
  (∀ (s : State) (q : CmdRef) (image : List Byte) (s1 : State) (c : Cmd),
      startsAtOnce s q (.profileLoad image) = some (s1, c) →
      dataLengthBad image = false →
      profStatus s1 image = scOk →
      exec (.codecProfileLoad q image) s = .next (ended (profLoad s1 image) c scOk 0 [])) ∧
  (∀ (s : State) (q : CmdRef) (image : List Byte) (s1 : State) (c : Cmd),
      startsAtOnce s q (.automatonLoad image) = some (s1, c) →
      dataLengthBad image = false →
      autoStatus s1 image = scOk →
      exec (.automatonLoad q image) s = .next (ended (autoLoad s1 image) c scOk 0 [])) ∧
  (∀ (s : State) (q : CmdRef) (cdw10 : BitVec 32) (image : List Byte) (s1 : State) (c : Cmd),
      startsAtOnce s q (.personalityLoad cdw10.toNat image) = some (s1, c) →
      dataLengthBad image = false →
      cdw10.toNat < 4 →
      persStatus s1 cdw10.toNat image = scOk →
      exec (.personalityLoad q cdw10 image) s = .next (ended (persLoad s1 cdw10.toNat image) c scOk 0 [])) ∧
  (∀ (s : State) (q : CmdRef) (hi : BitVec 30) (image : List Byte) (s1 : State) (c : Cmd),
      startsAtOnce s q (.fabricLoad hi.toNat image) = some (s1, c) →
      dataLengthBad image = false →
      hi = 0 →
      fcStatus s1 image = scOk →
      exec (.fabricConfigureLoad q hi image) s = .next (ended (fabLoad s1 image) c scOk 0 [])) ∧
  (∀ (s : State) (q : CmdRef) (k : Fin 2) (n : Nat) (cid : BitVec 16) (hi : BitVec 30) (records : List Byte) (r : Nat × Bool ×
    State) (s1 : State) (c : Cmd),
      startsAtOnce s q (.fabricTags hi.toNat records) = some (s1, c) →
      (q = .host k n cid ∧ hi = 0 ∧ dataLengthBad records = false) →
      r = fabTags s1 k.val records 0 (records.length / 8) →
      exec (.fabricConfigureTags q hi records) s = .next (ended r.2.2 c (if r.2.1 then scOk else scSequence) r.1 [])) ∧
  (∀ (s : State) (q : CmdRef) (hi : BitVec 30) (image : List Byte) (s1 : State) (c : Cmd),
      startsAtOnce s q (.ruleLoad 0 hi.toNat image) = some (s1, c) →
      (hi = 0 ∧ dataLengthBad image = false) →
      ruleStatus s1 0 image = scOk →
      exec (.ruleTableLoadReplace q hi image) s = .next (ended (ruleReplace s1 image) c scOk 0 [])) ∧
  (∀ (s : State) (q : CmdRef) (hi : BitVec 30) (image : List Byte) (s1 : State) (c : Cmd),
      startsAtOnce s q (.ruleLoad 1 hi.toNat image) = some (s1, c) →
      (hi = 0 ∧ dataLengthBad image = false) →
      ruleStatus s1 1 image = scOk →
      exec (.ruleTableLoadInsert q hi image) s = .next (noteWaits (ruleQueue s1 1 image c.id))) ∧
  (∀ (s : State) (q : CmdRef) (hi : BitVec 30) (image : List Byte) (s1 : State) (c : Cmd),
      startsAtOnce s q (.ruleLoad 2 hi.toNat image) = some (s1, c) →
      (hi = 0 ∧ dataLengthBad image = false) →
      ruleStatus s1 2 image = scOk →
      exec (.ruleTableLoadDelete q hi image) s = .next (noteWaits (ruleQueue s1 2 image c.id)))

/-- The computational-program commands complete as R295 to R298 say (R295, R296, R297, R298). -/
def Obligations.ComputationalProgramsComplete : Prop :=
  (∀ (s : State) (q : CmdRef) (pind : Nat) (image : List Byte) (s1 : State) (c : Cmd),
      startsAtOnce s q (.loadProgram pind image) = some (s1, c) →
      dataLengthBad image = false →
      pind < 64 →
      progStatus s1 1 pind image = scOk →
      exec (.loadProgram q pind image) s = .next (ended (progLoad s1 pind image) c scOk 0 [])) ∧
  (∀ (s : State) (q : CmdRef) (pind : Nat) (act : Bool) (pg : ProgSlot) (s1 : State) (c : Cmd),
      startsAtOnce s q (.programActivate pind act) = some (s1, c) →
      cpProgram s1 pind = some pg →
      exec (.programActivationManagement q pind act) s = .next (ended
        { s1 with loaded := { s1.loaded with progs := tblSet none s1.loaded.progs pind (some { pg with active := act }) } } c
        scOk 0 [])) ∧
  (∀ (s : State) (q : CmdRef) (rsid : Nat) (rs : List SlmRange) (s1 : State) (c : Cmd),
      startsAtOnce s q (.rangeSet (.create rsid rs)) = some (s1, c) →
      rs.all (fun r => (slmAddr s1 (ctrlNum c) r.slm r.off r.len).isSome) = true →
      exec (.memoryRangeSetManagement q (.create rsid rs)) s = .next (ended
        { s1 with nvme := { s1.nvme with sets := s1.nvme.sets.filter (fun x => x.rsid != setKey (ctrlNum c) rsid) ++ [⟨setKey (ctrlNum c) rsid, rs.map (fun r => (r.slm, r.off, r.len))⟩] } }
        c scOk 0 [])) ∧
  (∀ (s : State) (q : CmdRef) (rsid : Nat) (s1 : State) (c : Cmd),
      startsAtOnce s q (.rangeSet (.delete rsid)) = some (s1, c) →
      (setOf s1 (ctrlNum c) rsid).isSome = true →
      exec (.memoryRangeSetManagement q (.delete rsid)) s = .next (ended
        { s1 with nvme := { s1.nvme with sets := s1.nvme.sets.filter (fun x => x.rsid != setKey (ctrlNum c) rsid) } } c scOk 0
        [])) ∧
  (∀ (s : State) (q : CmdRef) (pind rsid t0 : Nat) (p0 p1 p2 : BitVec 32) (pl : CpPlan) (s1 : State) (c : Cmd),
      startsAtOnce s q (.execute pind rsid p0.toNat p1.toNat p2.toNat) = some (s1, c) →
      cpPlanned s1 (ctrlNum c) pind rsid p2.toNat = some pl →
      cpTile s1 = some t0 →
      exec (.executeProgram q pind rsid p0 p1 p2) s = .next (noteWaits (cpStart s1 c pl t0 pind p0.toNat p1.toNat p2.toNat))) ∧
  (∀ (s : State) (k : TileId) (j : Job),
      (s.tile k.val).job = some j →
      j.ref.cp = true →
      exec (.cpTimeLimitExpiry k) s = .next (tileReset (s.raise R.NVME_ISR_CPTIME) k.val causeTimeout))

/-- An instruction of registers alone completes and changes its destination and its flags, and nothing else that software sees
(R113, Table 4.4a of 04_siriz_encoding.md, R126). -/
def Obligations.RegisterInstructionsKeepTheRest : Prop :=
  ∀ (i : Instr) (c : CoreId) (rd : Reg) (w m : Nat) (s s1 : State), regOnly i = some (c, rd, w, m) →
    issued s c.val w = some s1 →
      (s.core c.val).ev = [] →
      ∃ t, exec i s = .next t ∧ (∀ d, d ≠ c.val → t.core d = s.core d) ∧
        (∀ r, r ≠ rd → gpr (t.core c.val) r = gpr (s.core c.val) r) ∧
        (∀ b, m.testBit b = false → stBit (t.core c.val).st b = stBit (s.core c.val).st b) ∧
        sameBeside (s.core c.val) (t.core c.val) ∧ (∀ a, t.memByte a = s.memByte a) ∧
        (∀ f : Fld, f.lo < 32 → windowBlock f.off ≠ some .ecc → windowBlock f.off ≠ some .dram → t.fld f = s.fld f)

/-- The fetch of an instruction changes no register, no special register and no other core (R123, R138). -/
def Obligations.FetchKeepsEveryRegister : Prop :=
  ∀ (s s1 : State) (c : Nat) (a : Word) (h : Nat), s.cores.length = 36 → coreFetch s c a = .ok h s1 →
      (∀ d, d ≠ c → s1.core d = s.core d) ∧ (s1.core c).w = (s.core c).w ∧ (s1.core c).pc = (s.core c).pc ∧
        (s1.core c).st = (s.core c).st ∧ (s1.core c).sgBase = (s.core c).sgBase ∧ (s1.core c).sgLimit = (s.core c).sgLimit ∧
        (s1.core c).sgPerm = (s.core c).sgPerm ∧ (s1.core c).bnk = (s.core c).bnk ∧ (s1.core c).vbase = (s.core c).vbase ∧
        (s1.core c).exdepth = (s.core c).exdepth ∧ (s1.core c).cycle = (s.core c).cycle ∧ (s1.core c).run = (s.core c).run ∧
        (s1.core c).dc = (s.core c).dc

/-- C, V, Z and N of addition and subtraction, and of NEG, are those of Tables 3.9 and 4.4a (R113, Table 4.4a of
04_siriz_encoding.md). -/
def Obligations.FlagsOfArithmetic : Prop :=
  (∀ (a b st : Word) (ci : Bool),
        let r := addWith a b ci st
        r.1.toNat = (a.toNat + b.toNat + ci.toNat) % 2 ^ 32 ∧ stBit r.2 stZ = (r.1 == 0#32) ∧ stBit r.2 stN = r.1.msb ∧
        (stBit r.2 stC = true ↔ 2 ^ 32 ≤ a.toNat + b.toNat + ci.toNat) ∧
        (stBit r.2 stV = true ↔ r.1.toInt ≠ a.toInt + b.toInt + (ci.toNat : Int)) ∧
        ∀ i, 4 ≤ i → stBit r.2 i = stBit st i) ∧
      (∀ (a b st : Word) (ci : Bool),
        let r := subWith a b ci st
        ((r.1.toNat : Int) = ((a.toNat : Int) - b.toNat - ci.toNat) % 2 ^ 32) ∧ stBit r.2 stZ = (r.1 == 0#32) ∧
        stBit r.2 stN = r.1.msb ∧ (stBit r.2 stC = true ↔ a.toNat < b.toNat + ci.toNat) ∧
        (stBit r.2 stV = true ↔ r.1.toInt ≠ a.toInt - b.toInt - (ci.toNat : Int)) ∧
        ∀ i, 4 ≤ i → stBit r.2 i = stBit st i) ∧
      (∀ b st : Word,
        let r := aluNeg b st
        r.1 = -b ∧ stBit r.2 stZ = (r.1 == 0#32) ∧ stBit r.2 stN = r.1.msb ∧ stBit r.2 stC = (b != 0#32) ∧
        stBit r.2 stV = (b == 0x80000000#32) ∧ ∀ i, 4 ≤ i → stBit r.2 i = stBit st i)

/-- DIV and DIVU write quotient, remainder and flags as R136 sets out, and take the divide trap after them (R136). -/
def Obligations.DivisionFollowsTheManual : Prop :=
  ∀ (sgn : Bool) (c : CoreId) (rd ra rb rr : Reg) (s s1 : State), issued s c.val 4 = some s1 →
      let k := s1.core c.val
      let a := gpr k ra
      let b := gpr k rb
      let q : Word := if b = 0#32 then 0xFFFFFFFF#32 else if sgn then a.sdiv b else a / b
      let r : Word := if b = 0#32 then a else if sgn then a.srem b else a % b
      let v : Bool := sgn && a == 0x80000000#32 && b == 0xFFFFFFFF#32
      ∃ st' : Word,
        stBit st' stZ = (q == 0#32) ∧ stBit st' stN = q.msb ∧ stBit st' stV = v ∧
        stBit st' stDZ = (stBit k.st stDZ || b == 0#32) ∧
        (∀ i, i ≠ stZ → i ≠ stN → i ≠ stV → i ≠ stDZ → stBit st' i = stBit k.st i) ∧
        let k' := setGpr (setGpr { k with st := st' } rd q) rr r
        exec (if sgn then .div c rd ra rb rr else .divu c rd ra rb rr) s =
          .next (if b = 0#32 ∧ stBit k.st stDZT = true then
            takeExc (s1.setCore c.val k') c.val ⟨5, 0, 0, 0, true, false, 0⟩ (k.pc + 4)
          else completed s1 c.val k' 4 34)

/-- DZ outlives divisions, exception entry and RTE; MTS to ST writes it (R114, R110, R111). -/
def Obligations.DivideByZeroIsSticky : Prop :=
  (∀ (sgn : Bool) (a b st : Word), stBit st stDZ = true → stBit (divide sgn a b st).2.2 stDZ = true) ∧
      (∀ (s s1 : State) (c : CoreId) (t : Trap) (ret : Word), framedAt s c.val t ret = some s1 →
        (s1.core c.val).st = handlerSt (s.core c.val) →
        stBit ((takeExc s c.val t ret).core c.val).st stDZ = stBit (s.core c.val).st stDZ) ∧
      (∀ (s s1 x : State) (c : CoreId) (pc st : Word), issued s c.val 2 = some s1 → (s1.core c.val).exdepth ≠ 0 →
        (gpr (s1.core c.val) spReg).toNat % 4 = 0 → poppedAt s1 c.val (gpr (s1.core c.val) spReg) 2 = some ([pc, st], x) →
        pc.getLsbD 0 = false → offGate c.val pc = true →
        ∃ t, exec (.rte c) s = .next t ∧ stBit (t.core c.val).st stDZ = (stBit (x.core c.val).st stDZ || stBit st stDZ) ∧
          ∀ b ∈ [stZ, stN, stC, stV, stDZT, stIE, stAM], stBit (t.core c.val).st b = stBit st b) ∧
      (∀ (s s1 : State) (c : CoreId) (ra : Reg), issued s c.val 4 = some s1 →
        ∃ t, exec (.mts c 0 ra) s = .next t ∧ stBit (t.core c.val).st stDZ = stBit (gpr (s1.core c.val) ra) stDZ)

/-- An unassigned offset of a block's window reads 0 and ignores a write; an offset in no window is a bus error (R11). -/
def Obligations.UnassignedOffsetsReadZero : Prop :=
  (∀ (s : State) (rq : Requester) (off v : Nat) (b : BlockId), off % 4 = 0 → windowBlock off = some b → mayReach s rq b = true →
        findCard off = none → ((∃ t, b = .tile t) → off % 0x10000 < 0x200 ∨ 0x280 ≤ off % 0x10000) →
        regRead s rq off = some (0, s) ∧ regWrite s rq off v = some s) ∧
      (∀ (s : State) (rq : Requester) (off v : Nat), windowBlock off = none → regRead s rq off = none ∧
        regWrite s rq off v = none)

/-- The mapped value of a residual, its range, and the decoder's inverse, as R212 gives them (R212). -/
def Obligations.ResidualMappingInverts : Prop :=
  ∀ (k q p : Nat), q < 2 ^ k → p < 2 ^ k →
      let r : Int := Int.bmod ((q : Int) - p) (2 ^ k)
      (0 ≤ r → (mapResidual k q p : Int) = 2 * r) ∧ (r < 0 → (mapResidual k q p : Int) = -2 * r - 1) ∧
        mapResidual k q p < 2 ^ k ∧
      unmapResidual k (mapResidual k q p) p = q ∧
      ∀ z, z < 2 ^ k → (unmapResidual k z p : Int) = ((p : Int) + (if z % 2 = 0 then (z : Int) / 2 else -(((z : Int) + 1) /
        2))) % 2 ^ k

/-- A fixed-ratio block reconstructs each sample at its shift, never above the input and within 2^s - 1 of it (R218). -/
def Obligations.FixedRatioErrorIsOneSided : Prop :=
  ∀ (w s : Nat) (xs : List Nat), (w = 8 ∨ w = 16 ∨ w = 32) → s ≤ w → (∀ x ∈ xs, x < 2 ^ w) →
      samplesOf (w / 8) (reconstruct w s xs) xs.length = xs.map (fun x => if s = w then 0 else x / 2 ^ s * 2 ^ s) ∧
      ∀ x ∈ xs, ∀ y, y = (if s = w then 0 else x / 2 ^ s * 2 ^ s) → y ≤ x ∧ x - y ≤ 2 ^ s - 1

/-- A lane result is reduced modulo its width, or clamped to the nearest end with the SAT flag (R189). -/
def Obligations.LanesWrapOrClamp : Prop :=
  ∀ (sgn sat : Bool) (w : Nat) (r : Int), (w = 1 ∨ w = 2 ∨ w = 4) →
      let lo : Int := if sgn then -(2 ^ (8 * w - 1)) else 0
      let hi : Int := if sgn then 2 ^ (8 * w - 1) - 1 else 2 ^ (8 * w) - 1
      let x := narrow sgn sat w r
      x.1 < 2 ^ (8 * w) ∧
      (sat = false → (x.1 : Int) = r % 2 ^ (8 * w) ∧ x.2 = false) ∧
      (lo ≤ r → r ≤ hi → laneVal sgn w x.1 = r ∧ x.2 = false) ∧
      (sat = true → r < lo → laneVal sgn w x.1 = lo ∧ x.2 = true) ∧
      (sat = true → hi < r → laneVal sgn w x.1 = hi ∧ x.2 = true)

/-- A Read, Write, Verify or Dataset Management whose blocks overlap a held range lock does not start (Range locks section of
09_host_nvme.md, R276). -/
def Obligations.RangeLocksHoldCommandsBack : Prop :=
  ∀ (s : State) (i : Instr) (q : CmdRef) (op : NvmeOp), lockTested i = some (q, op) → lockHeld (enterCmd s q op) op = true →
      (∀ d ∈ s.nvme.cmds, d.id ≠ nextId s q) → q ≠ .mi →
      ∃ t, exec i s = .next t ∧ ∀ c ∈ t.nvme.cmds, c.id = nextId s q → c.st ≠ .started

/-- A store past the cache into DRAM writes the bytes it stores and no other byte of memory (R91, R93, Memory map section of
01_architecture.md). -/
def Obligations.StoreReachesItsBytesAlone : Prop :=
  ∀ (s s1 : State) (c : Nat) (kind : AccKind) (a : Word) (n v g : Nat) (io : Bool),
      storedAt s c kind a n v = some s1 → (n = 1 ∨ n = 2 ∨ n = 4) → locatedAt s c kind a n = some (g, io) →
        dcServes s c io = false →
      (s.core c).ev = [] → Memory.wf s.mem = true → targetOf s g = .dram → hwAllows s g n tagLocal = true →
      (∀ e ∈ s.merge, e.word * 8 + 8 ≤ g ∨ g + n ≤ e.word * 8) →
      s1.memBytes g n = leBytes n v ∧ (∀ b, b < g ∨ g + n ≤ b → s1.memByte b = s.memByte b) ∧ s1.cores = s.cores
end

