-- ==== Sys2Proof/Laws/State.lean ====
section
/-! SUPPORT. Sys2Proof/Laws/State.lean: what each plain update of the state leaves and gives, field by field, so that no proof
unfolds a record update. -/

set_option Elab.async false

namespace Sys2Proof.Machine

/-! ### Writing a register field -/

@[simp] theorem State.setFld_regs (s : State) (f : Fld) (v : Nat) : (s.setFld f v).regs = tblSet 0 s.regs f.key (v % 2 ^ f.width) := (rfl)
@[simp] theorem State.setFld_mem (s : State) (f : Fld) (v : Nat) : (s.setFld f v).mem = s.mem := (rfl)
@[simp] theorem State.setFld_dramBad (s : State) (f : Fld) (v : Nat) : (s.setFld f v).dramBad = s.dramBad := (rfl)
@[simp] theorem State.setFld_merge (s : State) (f : Fld) (v : Nat) : (s.setFld f v).merge = s.merge := (rfl)
@[simp] theorem State.setFld_ecc (s : State) (f : Fld) (v : Nat) : (s.setFld f v).ecc = s.ecc := (rfl)
@[simp] theorem State.setFld_cores (s : State) (f : Fld) (v : Nat) : (s.setFld f v).cores = s.cores := (rfl)
@[simp] theorem State.setFld_tiles (s : State) (f : Fld) (v : Nat) : (s.setFld f v).tiles = s.tiles := (rfl)
@[simp] theorem State.setFld_flows (s : State) (f : Fld) (v : Nat) : (s.setFld f v).flows = s.flows := (rfl)
@[simp] theorem State.setFld_loaded (s : State) (f : Fld) (v : Nat) : (s.setFld f v).loaded = s.loaded := (rfl)
@[simp] theorem State.setFld_profs (s : State) (f : Fld) (v : Nat) : (s.setFld f v).profs = s.profs := (rfl)
@[simp] theorem State.setFld_lastLane (s : State) (f : Fld) (v : Nat) : (s.setFld f v).lastLane = s.lastLane := (rfl)
@[simp] theorem State.setFld_decWait (s : State) (f : Fld) (v : Nat) : (s.setFld f v).decWait = s.decWait := (rfl)
@[simp] theorem State.setFld_index (s : State) (f : Fld) (v : Nat) : (s.setFld f v).index = s.index := (rfl)
@[simp] theorem State.setFld_hwWins (s : State) (f : Fld) (v : Nat) : (s.setFld f v).hwWins = s.hwWins := (rfl)
@[simp] theorem State.setFld_cpJobs (s : State) (f : Fld) (v : Nat) : (s.setFld f v).cpJobs = s.cpJobs := (rfl)
@[simp] theorem State.setFld_code (s : State) (f : Fld) (v : Nat) : (s.setFld f v).code = s.code := (rfl)
@[simp] theorem State.setFld_media (s : State) (f : Fld) (v : Nat) : (s.setFld f v).media = s.media := (rfl)
@[simp] theorem State.setFld_ftl (s : State) (f : Fld) (v : Nat) : (s.setFld f v).ftl = s.ftl := (rfl)
@[simp] theorem State.setFld_nvme (s : State) (f : Fld) (v : Nat) : (s.setFld f v).nvme = s.nvme := (rfl)
@[simp] theorem State.setFld_hold (s : State) (f : Fld) (v : Nat) : (s.setFld f v).hold = s.hold := (rfl)
@[simp] theorem State.setFld_therm (s : State) (f : Fld) (v : Nat) : (s.setFld f v).therm = s.therm := (rfl)
@[simp] theorem State.setFld_keys (s : State) (f : Fld) (v : Nat) : (s.setFld f v).keys = s.keys := (rfl)
@[simp] theorem State.setFld_dram (s : State) (f : Fld) (v : Nat) : (s.setFld f v).dram = s.dram := (rfl)
@[simp] theorem State.setFld_dmas (s : State) (f : Fld) (v : Nat) : (s.setFld f v).dmas = s.dmas := (rfl)
@[simp] theorem State.setFld_digs (s : State) (f : Fld) (v : Nat) : (s.setFld f v).digs = s.digs := (rfl)
@[simp] theorem State.setFld_vault (s : State) (f : Fld) (v : Nat) : (s.setFld f v).vault = s.vault := (rfl)
@[simp] theorem State.setFld_drbg (s : State) (f : Fld) (v : Nat) : (s.setFld f v).drbg = s.drbg := (rfl)
@[simp] theorem State.setFld_fuses (s : State) (f : Fld) (v : Nat) : (s.setFld f v).fuses = s.fuses := (rfl)
@[simp] theorem State.setFld_fab (s : State) (f : Fld) (v : Nat) : (s.setFld f v).fab = s.fab := (rfl)
@[simp] theorem State.setFld_boot (s : State) (f : Fld) (v : Nat) : (s.setFld f v).boot = s.boot := (rfl)
@[simp] theorem State.setFld_tap (s : State) (f : Fld) (v : Nat) : (s.setFld f v).tap = s.tap := (rfl)
@[simp] theorem State.setFld_free (s : State) (f : Fld) (v : Nat) : (s.setFld f v).free = s.free := (rfl)
@[simp] theorem State.setFld_pending (s : State) (f : Fld) (v : Nat) : (s.setFld f v).pending = s.pending := (rfl)

/-! ### Writing a core -/

@[simp] theorem State.setCore_regs (s : State) (c : Nat) (k : Core) : (s.setCore c k).regs = s.regs := (rfl)
@[simp] theorem State.setCore_mem (s : State) (c : Nat) (k : Core) : (s.setCore c k).mem = s.mem := (rfl)
@[simp] theorem State.setCore_dramBad (s : State) (c : Nat) (k : Core) : (s.setCore c k).dramBad = s.dramBad := (rfl)
@[simp] theorem State.setCore_merge (s : State) (c : Nat) (k : Core) : (s.setCore c k).merge = s.merge := (rfl)
@[simp] theorem State.setCore_ecc (s : State) (c : Nat) (k : Core) : (s.setCore c k).ecc = s.ecc := (rfl)
@[simp] theorem State.setCore_cores (s : State) (c : Nat) (k : Core) : (s.setCore c k).cores = s.cores.set c k := (rfl)
@[simp] theorem State.setCore_tiles (s : State) (c : Nat) (k : Core) : (s.setCore c k).tiles = s.tiles := (rfl)
@[simp] theorem State.setCore_flows (s : State) (c : Nat) (k : Core) : (s.setCore c k).flows = s.flows := (rfl)
@[simp] theorem State.setCore_loaded (s : State) (c : Nat) (k : Core) : (s.setCore c k).loaded = s.loaded := (rfl)
@[simp] theorem State.setCore_profs (s : State) (c : Nat) (k : Core) : (s.setCore c k).profs = s.profs := (rfl)
@[simp] theorem State.setCore_lastLane (s : State) (c : Nat) (k : Core) : (s.setCore c k).lastLane = s.lastLane := (rfl)
@[simp] theorem State.setCore_decWait (s : State) (c : Nat) (k : Core) : (s.setCore c k).decWait = s.decWait := (rfl)
@[simp] theorem State.setCore_index (s : State) (c : Nat) (k : Core) : (s.setCore c k).index = s.index := (rfl)
@[simp] theorem State.setCore_hwWins (s : State) (c : Nat) (k : Core) : (s.setCore c k).hwWins = s.hwWins := (rfl)
@[simp] theorem State.setCore_cpJobs (s : State) (c : Nat) (k : Core) : (s.setCore c k).cpJobs = s.cpJobs := (rfl)
@[simp] theorem State.setCore_code (s : State) (c : Nat) (k : Core) : (s.setCore c k).code = s.code := (rfl)
@[simp] theorem State.setCore_media (s : State) (c : Nat) (k : Core) : (s.setCore c k).media = s.media := (rfl)
@[simp] theorem State.setCore_ftl (s : State) (c : Nat) (k : Core) : (s.setCore c k).ftl = s.ftl := (rfl)
@[simp] theorem State.setCore_nvme (s : State) (c : Nat) (k : Core) : (s.setCore c k).nvme = s.nvme := (rfl)
@[simp] theorem State.setCore_hold (s : State) (c : Nat) (k : Core) : (s.setCore c k).hold = s.hold := (rfl)
@[simp] theorem State.setCore_therm (s : State) (c : Nat) (k : Core) : (s.setCore c k).therm = s.therm := (rfl)
@[simp] theorem State.setCore_keys (s : State) (c : Nat) (k : Core) : (s.setCore c k).keys = s.keys := (rfl)
@[simp] theorem State.setCore_dram (s : State) (c : Nat) (k : Core) : (s.setCore c k).dram = s.dram := (rfl)
@[simp] theorem State.setCore_dmas (s : State) (c : Nat) (k : Core) : (s.setCore c k).dmas = s.dmas := (rfl)
@[simp] theorem State.setCore_digs (s : State) (c : Nat) (k : Core) : (s.setCore c k).digs = s.digs := (rfl)
@[simp] theorem State.setCore_vault (s : State) (c : Nat) (k : Core) : (s.setCore c k).vault = s.vault := (rfl)
@[simp] theorem State.setCore_drbg (s : State) (c : Nat) (k : Core) : (s.setCore c k).drbg = s.drbg := (rfl)
@[simp] theorem State.setCore_fuses (s : State) (c : Nat) (k : Core) : (s.setCore c k).fuses = s.fuses := (rfl)
@[simp] theorem State.setCore_fab (s : State) (c : Nat) (k : Core) : (s.setCore c k).fab = s.fab := (rfl)
@[simp] theorem State.setCore_boot (s : State) (c : Nat) (k : Core) : (s.setCore c k).boot = s.boot := (rfl)
@[simp] theorem State.setCore_tap (s : State) (c : Nat) (k : Core) : (s.setCore c k).tap = s.tap := (rfl)
@[simp] theorem State.setCore_free (s : State) (c : Nat) (k : Core) : (s.setCore c k).free = s.free := (rfl)
@[simp] theorem State.setCore_pending (s : State) (c : Nat) (k : Core) : (s.setCore c k).pending = s.pending := (rfl)

/-! ### Writing a tile -/

@[simp] theorem State.setTile_regs (s : State) (t : Nat) (x : Tile) : (s.setTile t x).regs = s.regs := (rfl)
@[simp] theorem State.setTile_mem (s : State) (t : Nat) (x : Tile) : (s.setTile t x).mem = s.mem := (rfl)
@[simp] theorem State.setTile_dramBad (s : State) (t : Nat) (x : Tile) : (s.setTile t x).dramBad = s.dramBad := (rfl)
@[simp] theorem State.setTile_merge (s : State) (t : Nat) (x : Tile) : (s.setTile t x).merge = s.merge := (rfl)
@[simp] theorem State.setTile_ecc (s : State) (t : Nat) (x : Tile) : (s.setTile t x).ecc = s.ecc := (rfl)
@[simp] theorem State.setTile_cores (s : State) (t : Nat) (x : Tile) : (s.setTile t x).cores = s.cores := (rfl)
@[simp] theorem State.setTile_tiles (s : State) (t : Nat) (x : Tile) : (s.setTile t x).tiles = tblSet Tile.reset s.tiles t x := (rfl)
@[simp] theorem State.setTile_flows (s : State) (t : Nat) (x : Tile) : (s.setTile t x).flows = s.flows := (rfl)
@[simp] theorem State.setTile_loaded (s : State) (t : Nat) (x : Tile) : (s.setTile t x).loaded = s.loaded := (rfl)
@[simp] theorem State.setTile_profs (s : State) (t : Nat) (x : Tile) : (s.setTile t x).profs = s.profs := (rfl)
@[simp] theorem State.setTile_lastLane (s : State) (t : Nat) (x : Tile) : (s.setTile t x).lastLane = s.lastLane := (rfl)
@[simp] theorem State.setTile_decWait (s : State) (t : Nat) (x : Tile) : (s.setTile t x).decWait = s.decWait := (rfl)
@[simp] theorem State.setTile_index (s : State) (t : Nat) (x : Tile) : (s.setTile t x).index = s.index := (rfl)
@[simp] theorem State.setTile_hwWins (s : State) (t : Nat) (x : Tile) : (s.setTile t x).hwWins = s.hwWins := (rfl)
@[simp] theorem State.setTile_cpJobs (s : State) (t : Nat) (x : Tile) : (s.setTile t x).cpJobs = s.cpJobs := (rfl)
@[simp] theorem State.setTile_code (s : State) (t : Nat) (x : Tile) : (s.setTile t x).code = s.code := (rfl)
@[simp] theorem State.setTile_media (s : State) (t : Nat) (x : Tile) : (s.setTile t x).media = s.media := (rfl)
@[simp] theorem State.setTile_ftl (s : State) (t : Nat) (x : Tile) : (s.setTile t x).ftl = s.ftl := (rfl)
@[simp] theorem State.setTile_nvme (s : State) (t : Nat) (x : Tile) : (s.setTile t x).nvme = s.nvme := (rfl)
@[simp] theorem State.setTile_hold (s : State) (t : Nat) (x : Tile) : (s.setTile t x).hold = s.hold := (rfl)
@[simp] theorem State.setTile_therm (s : State) (t : Nat) (x : Tile) : (s.setTile t x).therm = s.therm := (rfl)
@[simp] theorem State.setTile_keys (s : State) (t : Nat) (x : Tile) : (s.setTile t x).keys = s.keys := (rfl)
@[simp] theorem State.setTile_dram (s : State) (t : Nat) (x : Tile) : (s.setTile t x).dram = s.dram := (rfl)
@[simp] theorem State.setTile_dmas (s : State) (t : Nat) (x : Tile) : (s.setTile t x).dmas = s.dmas := (rfl)
@[simp] theorem State.setTile_digs (s : State) (t : Nat) (x : Tile) : (s.setTile t x).digs = s.digs := (rfl)
@[simp] theorem State.setTile_vault (s : State) (t : Nat) (x : Tile) : (s.setTile t x).vault = s.vault := (rfl)
@[simp] theorem State.setTile_drbg (s : State) (t : Nat) (x : Tile) : (s.setTile t x).drbg = s.drbg := (rfl)
@[simp] theorem State.setTile_fuses (s : State) (t : Nat) (x : Tile) : (s.setTile t x).fuses = s.fuses := (rfl)
@[simp] theorem State.setTile_fab (s : State) (t : Nat) (x : Tile) : (s.setTile t x).fab = s.fab := (rfl)
@[simp] theorem State.setTile_boot (s : State) (t : Nat) (x : Tile) : (s.setTile t x).boot = s.boot := (rfl)
@[simp] theorem State.setTile_tap (s : State) (t : Nat) (x : Tile) : (s.setTile t x).tap = s.tap := (rfl)
@[simp] theorem State.setTile_free (s : State) (t : Nat) (x : Tile) : (s.setTile t x).free = s.free := (rfl)
@[simp] theorem State.setTile_pending (s : State) (t : Nat) (x : Tile) : (s.setTile t x).pending = s.pending := (rfl)

/-! ### Storing bytes -/

@[simp] theorem State.putBytes_regs (s : State) (a : Nat) (bs : List Byte) : (s.putBytes a bs).regs = s.regs := (rfl)
@[simp] theorem State.putBytes_mem (s : State) (a : Nat) (bs : List Byte) : (s.putBytes a bs).mem = tblSetRange 0 s.mem a bs := (rfl)
@[simp] theorem State.putBytes_dramBad (s : State) (a : Nat) (bs : List Byte) : (s.putBytes a bs).dramBad = s.dramBad := (rfl)
@[simp] theorem State.putBytes_merge (s : State) (a : Nat) (bs : List Byte) : (s.putBytes a bs).merge = s.merge := (rfl)
@[simp] theorem State.putBytes_ecc (s : State) (a : Nat) (bs : List Byte) : (s.putBytes a bs).ecc = s.ecc := (rfl)
@[simp] theorem State.putBytes_cores (s : State) (a : Nat) (bs : List Byte) : (s.putBytes a bs).cores = s.cores := (rfl)
@[simp] theorem State.putBytes_tiles (s : State) (a : Nat) (bs : List Byte) : (s.putBytes a bs).tiles = s.tiles := (rfl)
@[simp] theorem State.putBytes_flows (s : State) (a : Nat) (bs : List Byte) : (s.putBytes a bs).flows = s.flows := (rfl)
@[simp] theorem State.putBytes_loaded (s : State) (a : Nat) (bs : List Byte) : (s.putBytes a bs).loaded = s.loaded := (rfl)
@[simp] theorem State.putBytes_profs (s : State) (a : Nat) (bs : List Byte) : (s.putBytes a bs).profs = s.profs := (rfl)
@[simp] theorem State.putBytes_lastLane (s : State) (a : Nat) (bs : List Byte) : (s.putBytes a bs).lastLane = s.lastLane := (rfl)
@[simp] theorem State.putBytes_decWait (s : State) (a : Nat) (bs : List Byte) : (s.putBytes a bs).decWait = s.decWait := (rfl)
@[simp] theorem State.putBytes_index (s : State) (a : Nat) (bs : List Byte) : (s.putBytes a bs).index = s.index := (rfl)
@[simp] theorem State.putBytes_hwWins (s : State) (a : Nat) (bs : List Byte) : (s.putBytes a bs).hwWins = s.hwWins := (rfl)
@[simp] theorem State.putBytes_cpJobs (s : State) (a : Nat) (bs : List Byte) : (s.putBytes a bs).cpJobs = s.cpJobs := (rfl)
@[simp] theorem State.putBytes_code (s : State) (a : Nat) (bs : List Byte) : (s.putBytes a bs).code = s.code := (rfl)
@[simp] theorem State.putBytes_media (s : State) (a : Nat) (bs : List Byte) : (s.putBytes a bs).media = s.media := (rfl)
@[simp] theorem State.putBytes_ftl (s : State) (a : Nat) (bs : List Byte) : (s.putBytes a bs).ftl = s.ftl := (rfl)
@[simp] theorem State.putBytes_nvme (s : State) (a : Nat) (bs : List Byte) : (s.putBytes a bs).nvme = s.nvme := (rfl)
@[simp] theorem State.putBytes_hold (s : State) (a : Nat) (bs : List Byte) : (s.putBytes a bs).hold = s.hold := (rfl)
@[simp] theorem State.putBytes_therm (s : State) (a : Nat) (bs : List Byte) : (s.putBytes a bs).therm = s.therm := (rfl)
@[simp] theorem State.putBytes_keys (s : State) (a : Nat) (bs : List Byte) : (s.putBytes a bs).keys = s.keys := (rfl)
@[simp] theorem State.putBytes_dram (s : State) (a : Nat) (bs : List Byte) : (s.putBytes a bs).dram = s.dram := (rfl)
@[simp] theorem State.putBytes_dmas (s : State) (a : Nat) (bs : List Byte) : (s.putBytes a bs).dmas = s.dmas := (rfl)
@[simp] theorem State.putBytes_digs (s : State) (a : Nat) (bs : List Byte) : (s.putBytes a bs).digs = s.digs := (rfl)
@[simp] theorem State.putBytes_vault (s : State) (a : Nat) (bs : List Byte) : (s.putBytes a bs).vault = s.vault := (rfl)
@[simp] theorem State.putBytes_drbg (s : State) (a : Nat) (bs : List Byte) : (s.putBytes a bs).drbg = s.drbg := (rfl)
@[simp] theorem State.putBytes_fuses (s : State) (a : Nat) (bs : List Byte) : (s.putBytes a bs).fuses = s.fuses := (rfl)
@[simp] theorem State.putBytes_fab (s : State) (a : Nat) (bs : List Byte) : (s.putBytes a bs).fab = s.fab := (rfl)
@[simp] theorem State.putBytes_boot (s : State) (a : Nat) (bs : List Byte) : (s.putBytes a bs).boot = s.boot := (rfl)
@[simp] theorem State.putBytes_tap (s : State) (a : Nat) (bs : List Byte) : (s.putBytes a bs).tap = s.tap := (rfl)
@[simp] theorem State.putBytes_free (s : State) (a : Nat) (bs : List Byte) : (s.putBytes a bs).free = s.free := (rfl)
@[simp] theorem State.putBytes_pending (s : State) (a : Nat) (bs : List Byte) : (s.putBytes a bs).pending = s.pending := (rfl)

/-! ### Taking a free value -/

@[simp] theorem State.fresh_regs (s : State) : (s.fresh.2).regs = s.regs := (rfl)
@[simp] theorem State.fresh_mem (s : State) : (s.fresh.2).mem = s.mem := (rfl)
@[simp] theorem State.fresh_dramBad (s : State) : (s.fresh.2).dramBad = s.dramBad := (rfl)
@[simp] theorem State.fresh_merge (s : State) : (s.fresh.2).merge = s.merge := (rfl)
@[simp] theorem State.fresh_ecc (s : State) : (s.fresh.2).ecc = s.ecc := (rfl)
@[simp] theorem State.fresh_cores (s : State) : (s.fresh.2).cores = s.cores := (rfl)
@[simp] theorem State.fresh_tiles (s : State) : (s.fresh.2).tiles = s.tiles := (rfl)
@[simp] theorem State.fresh_flows (s : State) : (s.fresh.2).flows = s.flows := (rfl)
@[simp] theorem State.fresh_loaded (s : State) : (s.fresh.2).loaded = s.loaded := (rfl)
@[simp] theorem State.fresh_profs (s : State) : (s.fresh.2).profs = s.profs := (rfl)
@[simp] theorem State.fresh_lastLane (s : State) : (s.fresh.2).lastLane = s.lastLane := (rfl)
@[simp] theorem State.fresh_decWait (s : State) : (s.fresh.2).decWait = s.decWait := (rfl)
@[simp] theorem State.fresh_index (s : State) : (s.fresh.2).index = s.index := (rfl)
@[simp] theorem State.fresh_hwWins (s : State) : (s.fresh.2).hwWins = s.hwWins := (rfl)
@[simp] theorem State.fresh_cpJobs (s : State) : (s.fresh.2).cpJobs = s.cpJobs := (rfl)
@[simp] theorem State.fresh_code (s : State) : (s.fresh.2).code = s.code := (rfl)
@[simp] theorem State.fresh_media (s : State) : (s.fresh.2).media = s.media := (rfl)
@[simp] theorem State.fresh_ftl (s : State) : (s.fresh.2).ftl = s.ftl := (rfl)
@[simp] theorem State.fresh_nvme (s : State) : (s.fresh.2).nvme = s.nvme := (rfl)
@[simp] theorem State.fresh_hold (s : State) : (s.fresh.2).hold = s.hold := (rfl)
@[simp] theorem State.fresh_therm (s : State) : (s.fresh.2).therm = s.therm := (rfl)
@[simp] theorem State.fresh_keys (s : State) : (s.fresh.2).keys = s.keys := (rfl)
@[simp] theorem State.fresh_dram (s : State) : (s.fresh.2).dram = s.dram := (rfl)
@[simp] theorem State.fresh_dmas (s : State) : (s.fresh.2).dmas = s.dmas := (rfl)
@[simp] theorem State.fresh_digs (s : State) : (s.fresh.2).digs = s.digs := (rfl)
@[simp] theorem State.fresh_vault (s : State) : (s.fresh.2).vault = s.vault := (rfl)
@[simp] theorem State.fresh_drbg (s : State) : (s.fresh.2).drbg = s.drbg := (rfl)
@[simp] theorem State.fresh_fuses (s : State) : (s.fresh.2).fuses = s.fuses := (rfl)
@[simp] theorem State.fresh_fab (s : State) : (s.fresh.2).fab = s.fab := (rfl)
@[simp] theorem State.fresh_boot (s : State) : (s.fresh.2).boot = s.boot := (rfl)
@[simp] theorem State.fresh_tap (s : State) : (s.fresh.2).tap = s.tap := (rfl)
@[simp] theorem State.fresh_free (s : State) : (s.fresh.2).free = s.free + 1 := (rfl)
@[simp] theorem State.fresh_pending (s : State) : (s.fresh.2).pending = s.pending := (rfl)

/-! ### Taking the command at the front -/

@[simp] theorem State.popped_regs (s : State) (rest : List Instr) : (s.popped rest).regs = s.regs := (rfl)
@[simp] theorem State.popped_mem (s : State) (rest : List Instr) : (s.popped rest).mem = s.mem := (rfl)
@[simp] theorem State.popped_dramBad (s : State) (rest : List Instr) : (s.popped rest).dramBad = s.dramBad := (rfl)
@[simp] theorem State.popped_merge (s : State) (rest : List Instr) : (s.popped rest).merge = s.merge := (rfl)
@[simp] theorem State.popped_ecc (s : State) (rest : List Instr) : (s.popped rest).ecc = s.ecc := (rfl)
@[simp] theorem State.popped_cores (s : State) (rest : List Instr) : (s.popped rest).cores = s.cores := (rfl)
@[simp] theorem State.popped_tiles (s : State) (rest : List Instr) : (s.popped rest).tiles = s.tiles := (rfl)
@[simp] theorem State.popped_flows (s : State) (rest : List Instr) : (s.popped rest).flows = s.flows := (rfl)
@[simp] theorem State.popped_loaded (s : State) (rest : List Instr) : (s.popped rest).loaded = s.loaded := (rfl)
@[simp] theorem State.popped_profs (s : State) (rest : List Instr) : (s.popped rest).profs = s.profs := (rfl)
@[simp] theorem State.popped_lastLane (s : State) (rest : List Instr) : (s.popped rest).lastLane = s.lastLane := (rfl)
@[simp] theorem State.popped_decWait (s : State) (rest : List Instr) : (s.popped rest).decWait = s.decWait := (rfl)
@[simp] theorem State.popped_index (s : State) (rest : List Instr) : (s.popped rest).index = s.index := (rfl)
@[simp] theorem State.popped_hwWins (s : State) (rest : List Instr) : (s.popped rest).hwWins = s.hwWins := (rfl)
@[simp] theorem State.popped_cpJobs (s : State) (rest : List Instr) : (s.popped rest).cpJobs = s.cpJobs := (rfl)
@[simp] theorem State.popped_code (s : State) (rest : List Instr) : (s.popped rest).code = s.code := (rfl)
@[simp] theorem State.popped_media (s : State) (rest : List Instr) : (s.popped rest).media = s.media := (rfl)
@[simp] theorem State.popped_ftl (s : State) (rest : List Instr) : (s.popped rest).ftl = s.ftl := (rfl)
@[simp] theorem State.popped_nvme (s : State) (rest : List Instr) : (s.popped rest).nvme = s.nvme := (rfl)
@[simp] theorem State.popped_hold (s : State) (rest : List Instr) : (s.popped rest).hold = s.hold := (rfl)
@[simp] theorem State.popped_therm (s : State) (rest : List Instr) : (s.popped rest).therm = s.therm := (rfl)
@[simp] theorem State.popped_keys (s : State) (rest : List Instr) : (s.popped rest).keys = s.keys := (rfl)
@[simp] theorem State.popped_dram (s : State) (rest : List Instr) : (s.popped rest).dram = s.dram := (rfl)
@[simp] theorem State.popped_dmas (s : State) (rest : List Instr) : (s.popped rest).dmas = s.dmas := (rfl)
@[simp] theorem State.popped_digs (s : State) (rest : List Instr) : (s.popped rest).digs = s.digs := (rfl)
@[simp] theorem State.popped_vault (s : State) (rest : List Instr) : (s.popped rest).vault = s.vault := (rfl)
@[simp] theorem State.popped_drbg (s : State) (rest : List Instr) : (s.popped rest).drbg = s.drbg := (rfl)
@[simp] theorem State.popped_fuses (s : State) (rest : List Instr) : (s.popped rest).fuses = s.fuses := (rfl)
@[simp] theorem State.popped_fab (s : State) (rest : List Instr) : (s.popped rest).fab = s.fab := (rfl)
@[simp] theorem State.popped_boot (s : State) (rest : List Instr) : (s.popped rest).boot = s.boot := (rfl)
@[simp] theorem State.popped_tap (s : State) (rest : List Instr) : (s.popped rest).tap = s.tap := (rfl)
@[simp] theorem State.popped_free (s : State) (rest : List Instr) : (s.popped rest).free = s.free := (rfl)
@[simp] theorem State.popped_pending (s : State) (rest : List Instr) : (s.popped rest).pending = rest := (rfl)

/-! ### Putting a command at the front -/

@[simp] theorem State.pushFront_regs (s : State) (c : Instr) : (s.pushFront c).regs = s.regs := (rfl)
@[simp] theorem State.pushFront_mem (s : State) (c : Instr) : (s.pushFront c).mem = s.mem := (rfl)
@[simp] theorem State.pushFront_dramBad (s : State) (c : Instr) : (s.pushFront c).dramBad = s.dramBad := (rfl)
@[simp] theorem State.pushFront_merge (s : State) (c : Instr) : (s.pushFront c).merge = s.merge := (rfl)
@[simp] theorem State.pushFront_ecc (s : State) (c : Instr) : (s.pushFront c).ecc = s.ecc := (rfl)
@[simp] theorem State.pushFront_cores (s : State) (c : Instr) : (s.pushFront c).cores = s.cores := (rfl)
@[simp] theorem State.pushFront_tiles (s : State) (c : Instr) : (s.pushFront c).tiles = s.tiles := (rfl)
@[simp] theorem State.pushFront_flows (s : State) (c : Instr) : (s.pushFront c).flows = s.flows := (rfl)
@[simp] theorem State.pushFront_loaded (s : State) (c : Instr) : (s.pushFront c).loaded = s.loaded := (rfl)
@[simp] theorem State.pushFront_profs (s : State) (c : Instr) : (s.pushFront c).profs = s.profs := (rfl)
@[simp] theorem State.pushFront_lastLane (s : State) (c : Instr) : (s.pushFront c).lastLane = s.lastLane := (rfl)
@[simp] theorem State.pushFront_decWait (s : State) (c : Instr) : (s.pushFront c).decWait = s.decWait := (rfl)
@[simp] theorem State.pushFront_index (s : State) (c : Instr) : (s.pushFront c).index = s.index := (rfl)
@[simp] theorem State.pushFront_hwWins (s : State) (c : Instr) : (s.pushFront c).hwWins = s.hwWins := (rfl)
@[simp] theorem State.pushFront_cpJobs (s : State) (c : Instr) : (s.pushFront c).cpJobs = s.cpJobs := (rfl)
@[simp] theorem State.pushFront_code (s : State) (c : Instr) : (s.pushFront c).code = s.code := (rfl)
@[simp] theorem State.pushFront_media (s : State) (c : Instr) : (s.pushFront c).media = s.media := (rfl)
@[simp] theorem State.pushFront_ftl (s : State) (c : Instr) : (s.pushFront c).ftl = s.ftl := (rfl)
@[simp] theorem State.pushFront_nvme (s : State) (c : Instr) : (s.pushFront c).nvme = s.nvme := (rfl)
@[simp] theorem State.pushFront_hold (s : State) (c : Instr) : (s.pushFront c).hold = s.hold := (rfl)
@[simp] theorem State.pushFront_therm (s : State) (c : Instr) : (s.pushFront c).therm = s.therm := (rfl)
@[simp] theorem State.pushFront_keys (s : State) (c : Instr) : (s.pushFront c).keys = s.keys := (rfl)
@[simp] theorem State.pushFront_dram (s : State) (c : Instr) : (s.pushFront c).dram = s.dram := (rfl)
@[simp] theorem State.pushFront_dmas (s : State) (c : Instr) : (s.pushFront c).dmas = s.dmas := (rfl)
@[simp] theorem State.pushFront_digs (s : State) (c : Instr) : (s.pushFront c).digs = s.digs := (rfl)
@[simp] theorem State.pushFront_vault (s : State) (c : Instr) : (s.pushFront c).vault = s.vault := (rfl)
@[simp] theorem State.pushFront_drbg (s : State) (c : Instr) : (s.pushFront c).drbg = s.drbg := (rfl)
@[simp] theorem State.pushFront_fuses (s : State) (c : Instr) : (s.pushFront c).fuses = s.fuses := (rfl)
@[simp] theorem State.pushFront_fab (s : State) (c : Instr) : (s.pushFront c).fab = s.fab := (rfl)
@[simp] theorem State.pushFront_boot (s : State) (c : Instr) : (s.pushFront c).boot = s.boot := (rfl)
@[simp] theorem State.pushFront_tap (s : State) (c : Instr) : (s.pushFront c).tap = s.tap := (rfl)
@[simp] theorem State.pushFront_free (s : State) (c : Instr) : (s.pushFront c).free = s.free := (rfl)
@[simp] theorem State.pushFront_pending (s : State) (c : Instr) : (s.pushFront c).pending = c :: s.pending := (rfl)

/-! ### Register updates made of one write -/

@[simp] theorem State.raise_mem (s : State) (f : Fld) : (s.raise f).mem = s.mem := (rfl)
@[simp] theorem State.raise_dramBad (s : State) (f : Fld) : (s.raise f).dramBad = s.dramBad := (rfl)
@[simp] theorem State.raise_merge (s : State) (f : Fld) : (s.raise f).merge = s.merge := (rfl)
@[simp] theorem State.raise_ecc (s : State) (f : Fld) : (s.raise f).ecc = s.ecc := (rfl)
@[simp] theorem State.raise_cores (s : State) (f : Fld) : (s.raise f).cores = s.cores := (rfl)
@[simp] theorem State.raise_tiles (s : State) (f : Fld) : (s.raise f).tiles = s.tiles := (rfl)
@[simp] theorem State.raise_flows (s : State) (f : Fld) : (s.raise f).flows = s.flows := (rfl)
@[simp] theorem State.raise_loaded (s : State) (f : Fld) : (s.raise f).loaded = s.loaded := (rfl)
@[simp] theorem State.raise_profs (s : State) (f : Fld) : (s.raise f).profs = s.profs := (rfl)
@[simp] theorem State.raise_lastLane (s : State) (f : Fld) : (s.raise f).lastLane = s.lastLane := (rfl)
@[simp] theorem State.raise_decWait (s : State) (f : Fld) : (s.raise f).decWait = s.decWait := (rfl)
@[simp] theorem State.raise_index (s : State) (f : Fld) : (s.raise f).index = s.index := (rfl)
@[simp] theorem State.raise_hwWins (s : State) (f : Fld) : (s.raise f).hwWins = s.hwWins := (rfl)
@[simp] theorem State.raise_cpJobs (s : State) (f : Fld) : (s.raise f).cpJobs = s.cpJobs := (rfl)
@[simp] theorem State.raise_code (s : State) (f : Fld) : (s.raise f).code = s.code := (rfl)
@[simp] theorem State.raise_media (s : State) (f : Fld) : (s.raise f).media = s.media := (rfl)
@[simp] theorem State.raise_ftl (s : State) (f : Fld) : (s.raise f).ftl = s.ftl := (rfl)
@[simp] theorem State.raise_nvme (s : State) (f : Fld) : (s.raise f).nvme = s.nvme := (rfl)
@[simp] theorem State.raise_hold (s : State) (f : Fld) : (s.raise f).hold = s.hold := (rfl)
@[simp] theorem State.raise_therm (s : State) (f : Fld) : (s.raise f).therm = s.therm := (rfl)
@[simp] theorem State.raise_keys (s : State) (f : Fld) : (s.raise f).keys = s.keys := (rfl)
@[simp] theorem State.raise_dram (s : State) (f : Fld) : (s.raise f).dram = s.dram := (rfl)
@[simp] theorem State.raise_dmas (s : State) (f : Fld) : (s.raise f).dmas = s.dmas := (rfl)
@[simp] theorem State.raise_digs (s : State) (f : Fld) : (s.raise f).digs = s.digs := (rfl)
@[simp] theorem State.raise_vault (s : State) (f : Fld) : (s.raise f).vault = s.vault := (rfl)
@[simp] theorem State.raise_drbg (s : State) (f : Fld) : (s.raise f).drbg = s.drbg := (rfl)
@[simp] theorem State.raise_fuses (s : State) (f : Fld) : (s.raise f).fuses = s.fuses := (rfl)
@[simp] theorem State.raise_fab (s : State) (f : Fld) : (s.raise f).fab = s.fab := (rfl)
@[simp] theorem State.raise_boot (s : State) (f : Fld) : (s.raise f).boot = s.boot := (rfl)
@[simp] theorem State.raise_tap (s : State) (f : Fld) : (s.raise f).tap = s.tap := (rfl)
@[simp] theorem State.raise_free (s : State) (f : Fld) : (s.raise f).free = s.free := (rfl)
@[simp] theorem State.raise_pending (s : State) (f : Fld) : (s.raise f).pending = s.pending := (rfl)
@[simp] theorem State.clear_mem (s : State) (f : Fld) : (s.clear f).mem = s.mem := (rfl)
@[simp] theorem State.clear_dramBad (s : State) (f : Fld) : (s.clear f).dramBad = s.dramBad := (rfl)
@[simp] theorem State.clear_merge (s : State) (f : Fld) : (s.clear f).merge = s.merge := (rfl)
@[simp] theorem State.clear_ecc (s : State) (f : Fld) : (s.clear f).ecc = s.ecc := (rfl)
@[simp] theorem State.clear_cores (s : State) (f : Fld) : (s.clear f).cores = s.cores := (rfl)
@[simp] theorem State.clear_tiles (s : State) (f : Fld) : (s.clear f).tiles = s.tiles := (rfl)
@[simp] theorem State.clear_flows (s : State) (f : Fld) : (s.clear f).flows = s.flows := (rfl)
@[simp] theorem State.clear_loaded (s : State) (f : Fld) : (s.clear f).loaded = s.loaded := (rfl)
@[simp] theorem State.clear_profs (s : State) (f : Fld) : (s.clear f).profs = s.profs := (rfl)
@[simp] theorem State.clear_lastLane (s : State) (f : Fld) : (s.clear f).lastLane = s.lastLane := (rfl)
@[simp] theorem State.clear_decWait (s : State) (f : Fld) : (s.clear f).decWait = s.decWait := (rfl)
@[simp] theorem State.clear_index (s : State) (f : Fld) : (s.clear f).index = s.index := (rfl)
@[simp] theorem State.clear_hwWins (s : State) (f : Fld) : (s.clear f).hwWins = s.hwWins := (rfl)
@[simp] theorem State.clear_cpJobs (s : State) (f : Fld) : (s.clear f).cpJobs = s.cpJobs := (rfl)
@[simp] theorem State.clear_code (s : State) (f : Fld) : (s.clear f).code = s.code := (rfl)
@[simp] theorem State.clear_media (s : State) (f : Fld) : (s.clear f).media = s.media := (rfl)
@[simp] theorem State.clear_ftl (s : State) (f : Fld) : (s.clear f).ftl = s.ftl := (rfl)
@[simp] theorem State.clear_nvme (s : State) (f : Fld) : (s.clear f).nvme = s.nvme := (rfl)
@[simp] theorem State.clear_hold (s : State) (f : Fld) : (s.clear f).hold = s.hold := (rfl)
@[simp] theorem State.clear_therm (s : State) (f : Fld) : (s.clear f).therm = s.therm := (rfl)
@[simp] theorem State.clear_keys (s : State) (f : Fld) : (s.clear f).keys = s.keys := (rfl)
@[simp] theorem State.clear_dram (s : State) (f : Fld) : (s.clear f).dram = s.dram := (rfl)
@[simp] theorem State.clear_dmas (s : State) (f : Fld) : (s.clear f).dmas = s.dmas := (rfl)
@[simp] theorem State.clear_digs (s : State) (f : Fld) : (s.clear f).digs = s.digs := (rfl)
@[simp] theorem State.clear_vault (s : State) (f : Fld) : (s.clear f).vault = s.vault := (rfl)
@[simp] theorem State.clear_drbg (s : State) (f : Fld) : (s.clear f).drbg = s.drbg := (rfl)
@[simp] theorem State.clear_fuses (s : State) (f : Fld) : (s.clear f).fuses = s.fuses := (rfl)
@[simp] theorem State.clear_fab (s : State) (f : Fld) : (s.clear f).fab = s.fab := (rfl)
@[simp] theorem State.clear_boot (s : State) (f : Fld) : (s.clear f).boot = s.boot := (rfl)
@[simp] theorem State.clear_tap (s : State) (f : Fld) : (s.clear f).tap = s.tap := (rfl)
@[simp] theorem State.clear_free (s : State) (f : Fld) : (s.clear f).free = s.free := (rfl)
@[simp] theorem State.clear_pending (s : State) (f : Fld) : (s.clear f).pending = s.pending := (rfl)
@[simp] theorem State.addWrap_mem (s : State) (f : Fld) (n : Nat) : (s.addWrap f n).mem = s.mem := (rfl)
@[simp] theorem State.addWrap_dramBad (s : State) (f : Fld) (n : Nat) : (s.addWrap f n).dramBad = s.dramBad := (rfl)
@[simp] theorem State.addWrap_merge (s : State) (f : Fld) (n : Nat) : (s.addWrap f n).merge = s.merge := (rfl)
@[simp] theorem State.addWrap_ecc (s : State) (f : Fld) (n : Nat) : (s.addWrap f n).ecc = s.ecc := (rfl)
@[simp] theorem State.addWrap_cores (s : State) (f : Fld) (n : Nat) : (s.addWrap f n).cores = s.cores := (rfl)
@[simp] theorem State.addWrap_tiles (s : State) (f : Fld) (n : Nat) : (s.addWrap f n).tiles = s.tiles := (rfl)
@[simp] theorem State.addWrap_flows (s : State) (f : Fld) (n : Nat) : (s.addWrap f n).flows = s.flows := (rfl)
@[simp] theorem State.addWrap_loaded (s : State) (f : Fld) (n : Nat) : (s.addWrap f n).loaded = s.loaded := (rfl)
@[simp] theorem State.addWrap_profs (s : State) (f : Fld) (n : Nat) : (s.addWrap f n).profs = s.profs := (rfl)
@[simp] theorem State.addWrap_lastLane (s : State) (f : Fld) (n : Nat) : (s.addWrap f n).lastLane = s.lastLane := (rfl)
@[simp] theorem State.addWrap_decWait (s : State) (f : Fld) (n : Nat) : (s.addWrap f n).decWait = s.decWait := (rfl)
@[simp] theorem State.addWrap_index (s : State) (f : Fld) (n : Nat) : (s.addWrap f n).index = s.index := (rfl)
@[simp] theorem State.addWrap_hwWins (s : State) (f : Fld) (n : Nat) : (s.addWrap f n).hwWins = s.hwWins := (rfl)
@[simp] theorem State.addWrap_cpJobs (s : State) (f : Fld) (n : Nat) : (s.addWrap f n).cpJobs = s.cpJobs := (rfl)
@[simp] theorem State.addWrap_code (s : State) (f : Fld) (n : Nat) : (s.addWrap f n).code = s.code := (rfl)
@[simp] theorem State.addWrap_media (s : State) (f : Fld) (n : Nat) : (s.addWrap f n).media = s.media := (rfl)
@[simp] theorem State.addWrap_ftl (s : State) (f : Fld) (n : Nat) : (s.addWrap f n).ftl = s.ftl := (rfl)
@[simp] theorem State.addWrap_nvme (s : State) (f : Fld) (n : Nat) : (s.addWrap f n).nvme = s.nvme := (rfl)
@[simp] theorem State.addWrap_hold (s : State) (f : Fld) (n : Nat) : (s.addWrap f n).hold = s.hold := (rfl)
@[simp] theorem State.addWrap_therm (s : State) (f : Fld) (n : Nat) : (s.addWrap f n).therm = s.therm := (rfl)
@[simp] theorem State.addWrap_keys (s : State) (f : Fld) (n : Nat) : (s.addWrap f n).keys = s.keys := (rfl)
@[simp] theorem State.addWrap_dram (s : State) (f : Fld) (n : Nat) : (s.addWrap f n).dram = s.dram := (rfl)
@[simp] theorem State.addWrap_dmas (s : State) (f : Fld) (n : Nat) : (s.addWrap f n).dmas = s.dmas := (rfl)
@[simp] theorem State.addWrap_digs (s : State) (f : Fld) (n : Nat) : (s.addWrap f n).digs = s.digs := (rfl)
@[simp] theorem State.addWrap_vault (s : State) (f : Fld) (n : Nat) : (s.addWrap f n).vault = s.vault := (rfl)
@[simp] theorem State.addWrap_drbg (s : State) (f : Fld) (n : Nat) : (s.addWrap f n).drbg = s.drbg := (rfl)
@[simp] theorem State.addWrap_fuses (s : State) (f : Fld) (n : Nat) : (s.addWrap f n).fuses = s.fuses := (rfl)
@[simp] theorem State.addWrap_fab (s : State) (f : Fld) (n : Nat) : (s.addWrap f n).fab = s.fab := (rfl)
@[simp] theorem State.addWrap_boot (s : State) (f : Fld) (n : Nat) : (s.addWrap f n).boot = s.boot := (rfl)
@[simp] theorem State.addWrap_tap (s : State) (f : Fld) (n : Nat) : (s.addWrap f n).tap = s.tap := (rfl)
@[simp] theorem State.addWrap_free (s : State) (f : Fld) (n : Nat) : (s.addWrap f n).free = s.free := (rfl)
@[simp] theorem State.addWrap_pending (s : State) (f : Fld) (n : Nat) : (s.addWrap f n).pending = s.pending := (rfl)
@[simp] theorem State.addSat_mem (s : State) (f : Fld) (n : Nat) : (s.addSat f n).mem = s.mem := (rfl)
@[simp] theorem State.addSat_dramBad (s : State) (f : Fld) (n : Nat) : (s.addSat f n).dramBad = s.dramBad := (rfl)
@[simp] theorem State.addSat_merge (s : State) (f : Fld) (n : Nat) : (s.addSat f n).merge = s.merge := (rfl)
@[simp] theorem State.addSat_ecc (s : State) (f : Fld) (n : Nat) : (s.addSat f n).ecc = s.ecc := (rfl)
@[simp] theorem State.addSat_cores (s : State) (f : Fld) (n : Nat) : (s.addSat f n).cores = s.cores := (rfl)
@[simp] theorem State.addSat_tiles (s : State) (f : Fld) (n : Nat) : (s.addSat f n).tiles = s.tiles := (rfl)
@[simp] theorem State.addSat_flows (s : State) (f : Fld) (n : Nat) : (s.addSat f n).flows = s.flows := (rfl)
@[simp] theorem State.addSat_loaded (s : State) (f : Fld) (n : Nat) : (s.addSat f n).loaded = s.loaded := (rfl)
@[simp] theorem State.addSat_profs (s : State) (f : Fld) (n : Nat) : (s.addSat f n).profs = s.profs := (rfl)
@[simp] theorem State.addSat_lastLane (s : State) (f : Fld) (n : Nat) : (s.addSat f n).lastLane = s.lastLane := (rfl)
@[simp] theorem State.addSat_decWait (s : State) (f : Fld) (n : Nat) : (s.addSat f n).decWait = s.decWait := (rfl)
@[simp] theorem State.addSat_index (s : State) (f : Fld) (n : Nat) : (s.addSat f n).index = s.index := (rfl)
@[simp] theorem State.addSat_hwWins (s : State) (f : Fld) (n : Nat) : (s.addSat f n).hwWins = s.hwWins := (rfl)
@[simp] theorem State.addSat_cpJobs (s : State) (f : Fld) (n : Nat) : (s.addSat f n).cpJobs = s.cpJobs := (rfl)
@[simp] theorem State.addSat_code (s : State) (f : Fld) (n : Nat) : (s.addSat f n).code = s.code := (rfl)
@[simp] theorem State.addSat_media (s : State) (f : Fld) (n : Nat) : (s.addSat f n).media = s.media := (rfl)
@[simp] theorem State.addSat_ftl (s : State) (f : Fld) (n : Nat) : (s.addSat f n).ftl = s.ftl := (rfl)
@[simp] theorem State.addSat_nvme (s : State) (f : Fld) (n : Nat) : (s.addSat f n).nvme = s.nvme := (rfl)
@[simp] theorem State.addSat_hold (s : State) (f : Fld) (n : Nat) : (s.addSat f n).hold = s.hold := (rfl)
@[simp] theorem State.addSat_therm (s : State) (f : Fld) (n : Nat) : (s.addSat f n).therm = s.therm := (rfl)
@[simp] theorem State.addSat_keys (s : State) (f : Fld) (n : Nat) : (s.addSat f n).keys = s.keys := (rfl)
@[simp] theorem State.addSat_dram (s : State) (f : Fld) (n : Nat) : (s.addSat f n).dram = s.dram := (rfl)
@[simp] theorem State.addSat_dmas (s : State) (f : Fld) (n : Nat) : (s.addSat f n).dmas = s.dmas := (rfl)
@[simp] theorem State.addSat_digs (s : State) (f : Fld) (n : Nat) : (s.addSat f n).digs = s.digs := (rfl)
@[simp] theorem State.addSat_vault (s : State) (f : Fld) (n : Nat) : (s.addSat f n).vault = s.vault := (rfl)
@[simp] theorem State.addSat_drbg (s : State) (f : Fld) (n : Nat) : (s.addSat f n).drbg = s.drbg := (rfl)
@[simp] theorem State.addSat_fuses (s : State) (f : Fld) (n : Nat) : (s.addSat f n).fuses = s.fuses := (rfl)
@[simp] theorem State.addSat_fab (s : State) (f : Fld) (n : Nat) : (s.addSat f n).fab = s.fab := (rfl)
@[simp] theorem State.addSat_boot (s : State) (f : Fld) (n : Nat) : (s.addSat f n).boot = s.boot := (rfl)
@[simp] theorem State.addSat_tap (s : State) (f : Fld) (n : Nat) : (s.addSat f n).tap = s.tap := (rfl)
@[simp] theorem State.addSat_free (s : State) (f : Fld) (n : Nat) : (s.addSat f n).free = s.free := (rfl)
@[simp] theorem State.addSat_pending (s : State) (f : Fld) (n : Nat) : (s.addSat f n).pending = s.pending := (rfl)
@[simp] theorem setCfgErr_mem (s : State) (b : BlockId) : (setCfgErr s b).mem = s.mem := (rfl)
@[simp] theorem setCfgErr_dramBad (s : State) (b : BlockId) : (setCfgErr s b).dramBad = s.dramBad := (rfl)
@[simp] theorem setCfgErr_merge (s : State) (b : BlockId) : (setCfgErr s b).merge = s.merge := (rfl)
@[simp] theorem setCfgErr_ecc (s : State) (b : BlockId) : (setCfgErr s b).ecc = s.ecc := (rfl)
@[simp] theorem setCfgErr_cores (s : State) (b : BlockId) : (setCfgErr s b).cores = s.cores := (rfl)
@[simp] theorem setCfgErr_tiles (s : State) (b : BlockId) : (setCfgErr s b).tiles = s.tiles := (rfl)
@[simp] theorem setCfgErr_flows (s : State) (b : BlockId) : (setCfgErr s b).flows = s.flows := (rfl)
@[simp] theorem setCfgErr_loaded (s : State) (b : BlockId) : (setCfgErr s b).loaded = s.loaded := (rfl)
@[simp] theorem setCfgErr_profs (s : State) (b : BlockId) : (setCfgErr s b).profs = s.profs := (rfl)
@[simp] theorem setCfgErr_lastLane (s : State) (b : BlockId) : (setCfgErr s b).lastLane = s.lastLane := (rfl)
@[simp] theorem setCfgErr_decWait (s : State) (b : BlockId) : (setCfgErr s b).decWait = s.decWait := (rfl)
@[simp] theorem setCfgErr_index (s : State) (b : BlockId) : (setCfgErr s b).index = s.index := (rfl)
@[simp] theorem setCfgErr_hwWins (s : State) (b : BlockId) : (setCfgErr s b).hwWins = s.hwWins := (rfl)
@[simp] theorem setCfgErr_cpJobs (s : State) (b : BlockId) : (setCfgErr s b).cpJobs = s.cpJobs := (rfl)
@[simp] theorem setCfgErr_code (s : State) (b : BlockId) : (setCfgErr s b).code = s.code := (rfl)
@[simp] theorem setCfgErr_media (s : State) (b : BlockId) : (setCfgErr s b).media = s.media := (rfl)
@[simp] theorem setCfgErr_ftl (s : State) (b : BlockId) : (setCfgErr s b).ftl = s.ftl := (rfl)
@[simp] theorem setCfgErr_nvme (s : State) (b : BlockId) : (setCfgErr s b).nvme = s.nvme := (rfl)
@[simp] theorem setCfgErr_hold (s : State) (b : BlockId) : (setCfgErr s b).hold = s.hold := (rfl)
@[simp] theorem setCfgErr_therm (s : State) (b : BlockId) : (setCfgErr s b).therm = s.therm := (rfl)
@[simp] theorem setCfgErr_keys (s : State) (b : BlockId) : (setCfgErr s b).keys = s.keys := (rfl)
@[simp] theorem setCfgErr_dram (s : State) (b : BlockId) : (setCfgErr s b).dram = s.dram := (rfl)
@[simp] theorem setCfgErr_dmas (s : State) (b : BlockId) : (setCfgErr s b).dmas = s.dmas := (rfl)
@[simp] theorem setCfgErr_digs (s : State) (b : BlockId) : (setCfgErr s b).digs = s.digs := (rfl)
@[simp] theorem setCfgErr_vault (s : State) (b : BlockId) : (setCfgErr s b).vault = s.vault := (rfl)
@[simp] theorem setCfgErr_drbg (s : State) (b : BlockId) : (setCfgErr s b).drbg = s.drbg := (rfl)
@[simp] theorem setCfgErr_fuses (s : State) (b : BlockId) : (setCfgErr s b).fuses = s.fuses := (rfl)
@[simp] theorem setCfgErr_fab (s : State) (b : BlockId) : (setCfgErr s b).fab = s.fab := (rfl)
@[simp] theorem setCfgErr_boot (s : State) (b : BlockId) : (setCfgErr s b).boot = s.boot := (rfl)
@[simp] theorem setCfgErr_tap (s : State) (b : BlockId) : (setCfgErr s b).tap = s.tap := (rfl)
@[simp] theorem setCfgErr_free (s : State) (b : BlockId) : (setCfgErr s b).free = s.free := (rfl)
@[simp] theorem setCfgErr_pending (s : State) (b : BlockId) : (setCfgErr s b).pending = s.pending := (rfl)
@[simp] theorem setClaimErr_mem (s : State) (b : BlockId) : (setClaimErr s b).mem = s.mem := (rfl)
@[simp] theorem setClaimErr_dramBad (s : State) (b : BlockId) : (setClaimErr s b).dramBad = s.dramBad := (rfl)
@[simp] theorem setClaimErr_merge (s : State) (b : BlockId) : (setClaimErr s b).merge = s.merge := (rfl)
@[simp] theorem setClaimErr_ecc (s : State) (b : BlockId) : (setClaimErr s b).ecc = s.ecc := (rfl)
@[simp] theorem setClaimErr_cores (s : State) (b : BlockId) : (setClaimErr s b).cores = s.cores := (rfl)
@[simp] theorem setClaimErr_tiles (s : State) (b : BlockId) : (setClaimErr s b).tiles = s.tiles := (rfl)
@[simp] theorem setClaimErr_flows (s : State) (b : BlockId) : (setClaimErr s b).flows = s.flows := (rfl)
@[simp] theorem setClaimErr_loaded (s : State) (b : BlockId) : (setClaimErr s b).loaded = s.loaded := (rfl)
@[simp] theorem setClaimErr_profs (s : State) (b : BlockId) : (setClaimErr s b).profs = s.profs := (rfl)
@[simp] theorem setClaimErr_lastLane (s : State) (b : BlockId) : (setClaimErr s b).lastLane = s.lastLane := (rfl)
@[simp] theorem setClaimErr_decWait (s : State) (b : BlockId) : (setClaimErr s b).decWait = s.decWait := (rfl)
@[simp] theorem setClaimErr_index (s : State) (b : BlockId) : (setClaimErr s b).index = s.index := (rfl)
@[simp] theorem setClaimErr_hwWins (s : State) (b : BlockId) : (setClaimErr s b).hwWins = s.hwWins := (rfl)
@[simp] theorem setClaimErr_cpJobs (s : State) (b : BlockId) : (setClaimErr s b).cpJobs = s.cpJobs := (rfl)
@[simp] theorem setClaimErr_code (s : State) (b : BlockId) : (setClaimErr s b).code = s.code := (rfl)
@[simp] theorem setClaimErr_media (s : State) (b : BlockId) : (setClaimErr s b).media = s.media := (rfl)
@[simp] theorem setClaimErr_ftl (s : State) (b : BlockId) : (setClaimErr s b).ftl = s.ftl := (rfl)
@[simp] theorem setClaimErr_nvme (s : State) (b : BlockId) : (setClaimErr s b).nvme = s.nvme := (rfl)
@[simp] theorem setClaimErr_hold (s : State) (b : BlockId) : (setClaimErr s b).hold = s.hold := (rfl)
@[simp] theorem setClaimErr_therm (s : State) (b : BlockId) : (setClaimErr s b).therm = s.therm := (rfl)
@[simp] theorem setClaimErr_keys (s : State) (b : BlockId) : (setClaimErr s b).keys = s.keys := (rfl)
@[simp] theorem setClaimErr_dram (s : State) (b : BlockId) : (setClaimErr s b).dram = s.dram := (rfl)
@[simp] theorem setClaimErr_dmas (s : State) (b : BlockId) : (setClaimErr s b).dmas = s.dmas := (rfl)
@[simp] theorem setClaimErr_digs (s : State) (b : BlockId) : (setClaimErr s b).digs = s.digs := (rfl)
@[simp] theorem setClaimErr_vault (s : State) (b : BlockId) : (setClaimErr s b).vault = s.vault := (rfl)
@[simp] theorem setClaimErr_drbg (s : State) (b : BlockId) : (setClaimErr s b).drbg = s.drbg := (rfl)
@[simp] theorem setClaimErr_fuses (s : State) (b : BlockId) : (setClaimErr s b).fuses = s.fuses := (rfl)
@[simp] theorem setClaimErr_fab (s : State) (b : BlockId) : (setClaimErr s b).fab = s.fab := (rfl)
@[simp] theorem setClaimErr_boot (s : State) (b : BlockId) : (setClaimErr s b).boot = s.boot := (rfl)
@[simp] theorem setClaimErr_tap (s : State) (b : BlockId) : (setClaimErr s b).tap = s.tap := (rfl)
@[simp] theorem setClaimErr_free (s : State) (b : BlockId) : (setClaimErr s b).free = s.free := (rfl)
@[simp] theorem setClaimErr_pending (s : State) (b : BlockId) : (setClaimErr s b).pending = s.pending := (rfl)
@[simp] theorem enablingEnds_mem (s : State) (b : BlockId) : (enablingEnds s b).mem = s.mem := (rfl)
@[simp] theorem enablingEnds_dramBad (s : State) (b : BlockId) : (enablingEnds s b).dramBad = s.dramBad := (rfl)
@[simp] theorem enablingEnds_merge (s : State) (b : BlockId) : (enablingEnds s b).merge = s.merge := (rfl)
@[simp] theorem enablingEnds_ecc (s : State) (b : BlockId) : (enablingEnds s b).ecc = s.ecc := (rfl)
@[simp] theorem enablingEnds_cores (s : State) (b : BlockId) : (enablingEnds s b).cores = s.cores := (rfl)
@[simp] theorem enablingEnds_tiles (s : State) (b : BlockId) : (enablingEnds s b).tiles = s.tiles := (rfl)
@[simp] theorem enablingEnds_flows (s : State) (b : BlockId) : (enablingEnds s b).flows = s.flows := (rfl)
@[simp] theorem enablingEnds_loaded (s : State) (b : BlockId) : (enablingEnds s b).loaded = s.loaded := (rfl)
@[simp] theorem enablingEnds_profs (s : State) (b : BlockId) : (enablingEnds s b).profs = s.profs := (rfl)
@[simp] theorem enablingEnds_lastLane (s : State) (b : BlockId) : (enablingEnds s b).lastLane = s.lastLane := (rfl)
@[simp] theorem enablingEnds_decWait (s : State) (b : BlockId) : (enablingEnds s b).decWait = s.decWait := (rfl)
@[simp] theorem enablingEnds_index (s : State) (b : BlockId) : (enablingEnds s b).index = s.index := (rfl)
@[simp] theorem enablingEnds_hwWins (s : State) (b : BlockId) : (enablingEnds s b).hwWins = s.hwWins := (rfl)
@[simp] theorem enablingEnds_cpJobs (s : State) (b : BlockId) : (enablingEnds s b).cpJobs = s.cpJobs := (rfl)
@[simp] theorem enablingEnds_code (s : State) (b : BlockId) : (enablingEnds s b).code = s.code := (rfl)
@[simp] theorem enablingEnds_media (s : State) (b : BlockId) : (enablingEnds s b).media = s.media := (rfl)
@[simp] theorem enablingEnds_ftl (s : State) (b : BlockId) : (enablingEnds s b).ftl = s.ftl := (rfl)
@[simp] theorem enablingEnds_nvme (s : State) (b : BlockId) : (enablingEnds s b).nvme = s.nvme := (rfl)
@[simp] theorem enablingEnds_hold (s : State) (b : BlockId) : (enablingEnds s b).hold = s.hold := (rfl)
@[simp] theorem enablingEnds_therm (s : State) (b : BlockId) : (enablingEnds s b).therm = s.therm := (rfl)
@[simp] theorem enablingEnds_keys (s : State) (b : BlockId) : (enablingEnds s b).keys = s.keys := (rfl)
@[simp] theorem enablingEnds_dram (s : State) (b : BlockId) : (enablingEnds s b).dram = s.dram := (rfl)
@[simp] theorem enablingEnds_dmas (s : State) (b : BlockId) : (enablingEnds s b).dmas = s.dmas := (rfl)
@[simp] theorem enablingEnds_digs (s : State) (b : BlockId) : (enablingEnds s b).digs = s.digs := (rfl)
@[simp] theorem enablingEnds_vault (s : State) (b : BlockId) : (enablingEnds s b).vault = s.vault := (rfl)
@[simp] theorem enablingEnds_drbg (s : State) (b : BlockId) : (enablingEnds s b).drbg = s.drbg := (rfl)
@[simp] theorem enablingEnds_fuses (s : State) (b : BlockId) : (enablingEnds s b).fuses = s.fuses := (rfl)
@[simp] theorem enablingEnds_fab (s : State) (b : BlockId) : (enablingEnds s b).fab = s.fab := (rfl)
@[simp] theorem enablingEnds_boot (s : State) (b : BlockId) : (enablingEnds s b).boot = s.boot := (rfl)
@[simp] theorem enablingEnds_tap (s : State) (b : BlockId) : (enablingEnds s b).tap = s.tap := (rfl)
@[simp] theorem enablingEnds_free (s : State) (b : BlockId) : (enablingEnds s b).free = s.free := (rfl)
@[simp] theorem enablingEnds_pending (s : State) (b : BlockId) : (enablingEnds s b).pending = s.pending := (rfl)
@[simp] theorem quiesceEnds_mem (s : State) (b : BlockId) : (quiesceEnds s b).mem = s.mem := (rfl)
@[simp] theorem quiesceEnds_dramBad (s : State) (b : BlockId) : (quiesceEnds s b).dramBad = s.dramBad := (rfl)
@[simp] theorem quiesceEnds_merge (s : State) (b : BlockId) : (quiesceEnds s b).merge = s.merge := (rfl)
@[simp] theorem quiesceEnds_ecc (s : State) (b : BlockId) : (quiesceEnds s b).ecc = s.ecc := (rfl)
@[simp] theorem quiesceEnds_cores (s : State) (b : BlockId) : (quiesceEnds s b).cores = s.cores := (rfl)
@[simp] theorem quiesceEnds_tiles (s : State) (b : BlockId) : (quiesceEnds s b).tiles = s.tiles := (rfl)
@[simp] theorem quiesceEnds_flows (s : State) (b : BlockId) : (quiesceEnds s b).flows = s.flows := (rfl)
@[simp] theorem quiesceEnds_loaded (s : State) (b : BlockId) : (quiesceEnds s b).loaded = s.loaded := (rfl)
@[simp] theorem quiesceEnds_profs (s : State) (b : BlockId) : (quiesceEnds s b).profs = s.profs := (rfl)
@[simp] theorem quiesceEnds_lastLane (s : State) (b : BlockId) : (quiesceEnds s b).lastLane = s.lastLane := (rfl)
@[simp] theorem quiesceEnds_decWait (s : State) (b : BlockId) : (quiesceEnds s b).decWait = s.decWait := (rfl)
@[simp] theorem quiesceEnds_index (s : State) (b : BlockId) : (quiesceEnds s b).index = s.index := (rfl)
@[simp] theorem quiesceEnds_hwWins (s : State) (b : BlockId) : (quiesceEnds s b).hwWins = s.hwWins := (rfl)
@[simp] theorem quiesceEnds_cpJobs (s : State) (b : BlockId) : (quiesceEnds s b).cpJobs = s.cpJobs := (rfl)
@[simp] theorem quiesceEnds_code (s : State) (b : BlockId) : (quiesceEnds s b).code = s.code := (rfl)
@[simp] theorem quiesceEnds_media (s : State) (b : BlockId) : (quiesceEnds s b).media = s.media := (rfl)
@[simp] theorem quiesceEnds_ftl (s : State) (b : BlockId) : (quiesceEnds s b).ftl = s.ftl := (rfl)
@[simp] theorem quiesceEnds_nvme (s : State) (b : BlockId) : (quiesceEnds s b).nvme = s.nvme := (rfl)
@[simp] theorem quiesceEnds_hold (s : State) (b : BlockId) : (quiesceEnds s b).hold = s.hold := (rfl)
@[simp] theorem quiesceEnds_therm (s : State) (b : BlockId) : (quiesceEnds s b).therm = s.therm := (rfl)
@[simp] theorem quiesceEnds_keys (s : State) (b : BlockId) : (quiesceEnds s b).keys = s.keys := (rfl)
@[simp] theorem quiesceEnds_dram (s : State) (b : BlockId) : (quiesceEnds s b).dram = s.dram := (rfl)
@[simp] theorem quiesceEnds_dmas (s : State) (b : BlockId) : (quiesceEnds s b).dmas = s.dmas := (rfl)
@[simp] theorem quiesceEnds_digs (s : State) (b : BlockId) : (quiesceEnds s b).digs = s.digs := (rfl)
@[simp] theorem quiesceEnds_vault (s : State) (b : BlockId) : (quiesceEnds s b).vault = s.vault := (rfl)
@[simp] theorem quiesceEnds_drbg (s : State) (b : BlockId) : (quiesceEnds s b).drbg = s.drbg := (rfl)
@[simp] theorem quiesceEnds_fuses (s : State) (b : BlockId) : (quiesceEnds s b).fuses = s.fuses := (rfl)
@[simp] theorem quiesceEnds_fab (s : State) (b : BlockId) : (quiesceEnds s b).fab = s.fab := (rfl)
@[simp] theorem quiesceEnds_boot (s : State) (b : BlockId) : (quiesceEnds s b).boot = s.boot := (rfl)
@[simp] theorem quiesceEnds_tap (s : State) (b : BlockId) : (quiesceEnds s b).tap = s.tap := (rfl)
@[simp] theorem quiesceEnds_free (s : State) (b : BlockId) : (quiesceEnds s b).free = s.free := (rfl)
@[simp] theorem quiesceEnds_pending (s : State) (b : BlockId) : (quiesceEnds s b).pending = s.pending := (rfl)

/-! ### Register updates made of several writes: only `regs` changes -/

@[simp] theorem State.setFlds_mem (s : State) (l : List (Fld × Nat)) : (s.setFlds l).mem = s.mem := by
  induction l generalizing s with
  | nil => rfl
  | cons a l ih => cases a; exact ih _
@[simp] theorem State.setFlds_dramBad (s : State) (l : List (Fld × Nat)) : (s.setFlds l).dramBad = s.dramBad := by
  induction l generalizing s with
  | nil => rfl
  | cons a l ih => cases a; exact ih _
@[simp] theorem State.setFlds_merge (s : State) (l : List (Fld × Nat)) : (s.setFlds l).merge = s.merge := by
  induction l generalizing s with
  | nil => rfl
  | cons a l ih => cases a; exact ih _
@[simp] theorem State.setFlds_ecc (s : State) (l : List (Fld × Nat)) : (s.setFlds l).ecc = s.ecc := by
  induction l generalizing s with
  | nil => rfl
  | cons a l ih => cases a; exact ih _
@[simp] theorem State.setFlds_cores (s : State) (l : List (Fld × Nat)) : (s.setFlds l).cores = s.cores := by
  induction l generalizing s with
  | nil => rfl
  | cons a l ih => cases a; exact ih _
@[simp] theorem State.setFlds_tiles (s : State) (l : List (Fld × Nat)) : (s.setFlds l).tiles = s.tiles := by
  induction l generalizing s with
  | nil => rfl
  | cons a l ih => cases a; exact ih _
@[simp] theorem State.setFlds_flows (s : State) (l : List (Fld × Nat)) : (s.setFlds l).flows = s.flows := by
  induction l generalizing s with
  | nil => rfl
  | cons a l ih => cases a; exact ih _
@[simp] theorem State.setFlds_loaded (s : State) (l : List (Fld × Nat)) : (s.setFlds l).loaded = s.loaded := by
  induction l generalizing s with
  | nil => rfl
  | cons a l ih => cases a; exact ih _
@[simp] theorem State.setFlds_profs (s : State) (l : List (Fld × Nat)) : (s.setFlds l).profs = s.profs := by
  induction l generalizing s with
  | nil => rfl
  | cons a l ih => cases a; exact ih _
@[simp] theorem State.setFlds_lastLane (s : State) (l : List (Fld × Nat)) : (s.setFlds l).lastLane = s.lastLane := by
  induction l generalizing s with
  | nil => rfl
  | cons a l ih => cases a; exact ih _
@[simp] theorem State.setFlds_decWait (s : State) (l : List (Fld × Nat)) : (s.setFlds l).decWait = s.decWait := by
  induction l generalizing s with
  | nil => rfl
  | cons a l ih => cases a; exact ih _
@[simp] theorem State.setFlds_index (s : State) (l : List (Fld × Nat)) : (s.setFlds l).index = s.index := by
  induction l generalizing s with
  | nil => rfl
  | cons a l ih => cases a; exact ih _
@[simp] theorem State.setFlds_hwWins (s : State) (l : List (Fld × Nat)) : (s.setFlds l).hwWins = s.hwWins := by
  induction l generalizing s with
  | nil => rfl
  | cons a l ih => cases a; exact ih _
@[simp] theorem State.setFlds_cpJobs (s : State) (l : List (Fld × Nat)) : (s.setFlds l).cpJobs = s.cpJobs := by
  induction l generalizing s with
  | nil => rfl
  | cons a l ih => cases a; exact ih _
@[simp] theorem State.setFlds_code (s : State) (l : List (Fld × Nat)) : (s.setFlds l).code = s.code := by
  induction l generalizing s with
  | nil => rfl
  | cons a l ih => cases a; exact ih _
@[simp] theorem State.setFlds_media (s : State) (l : List (Fld × Nat)) : (s.setFlds l).media = s.media := by
  induction l generalizing s with
  | nil => rfl
  | cons a l ih => cases a; exact ih _
@[simp] theorem State.setFlds_ftl (s : State) (l : List (Fld × Nat)) : (s.setFlds l).ftl = s.ftl := by
  induction l generalizing s with
  | nil => rfl
  | cons a l ih => cases a; exact ih _
@[simp] theorem State.setFlds_nvme (s : State) (l : List (Fld × Nat)) : (s.setFlds l).nvme = s.nvme := by
  induction l generalizing s with
  | nil => rfl
  | cons a l ih => cases a; exact ih _
@[simp] theorem State.setFlds_hold (s : State) (l : List (Fld × Nat)) : (s.setFlds l).hold = s.hold := by
  induction l generalizing s with
  | nil => rfl
  | cons a l ih => cases a; exact ih _
@[simp] theorem State.setFlds_therm (s : State) (l : List (Fld × Nat)) : (s.setFlds l).therm = s.therm := by
  induction l generalizing s with
  | nil => rfl
  | cons a l ih => cases a; exact ih _
@[simp] theorem State.setFlds_keys (s : State) (l : List (Fld × Nat)) : (s.setFlds l).keys = s.keys := by
  induction l generalizing s with
  | nil => rfl
  | cons a l ih => cases a; exact ih _
@[simp] theorem State.setFlds_dram (s : State) (l : List (Fld × Nat)) : (s.setFlds l).dram = s.dram := by
  induction l generalizing s with
  | nil => rfl
  | cons a l ih => cases a; exact ih _
@[simp] theorem State.setFlds_dmas (s : State) (l : List (Fld × Nat)) : (s.setFlds l).dmas = s.dmas := by
  induction l generalizing s with
  | nil => rfl
  | cons a l ih => cases a; exact ih _
@[simp] theorem State.setFlds_digs (s : State) (l : List (Fld × Nat)) : (s.setFlds l).digs = s.digs := by
  induction l generalizing s with
  | nil => rfl
  | cons a l ih => cases a; exact ih _
@[simp] theorem State.setFlds_vault (s : State) (l : List (Fld × Nat)) : (s.setFlds l).vault = s.vault := by
  induction l generalizing s with
  | nil => rfl
  | cons a l ih => cases a; exact ih _
@[simp] theorem State.setFlds_drbg (s : State) (l : List (Fld × Nat)) : (s.setFlds l).drbg = s.drbg := by
  induction l generalizing s with
  | nil => rfl
  | cons a l ih => cases a; exact ih _
@[simp] theorem State.setFlds_fuses (s : State) (l : List (Fld × Nat)) : (s.setFlds l).fuses = s.fuses := by
  induction l generalizing s with
  | nil => rfl
  | cons a l ih => cases a; exact ih _
@[simp] theorem State.setFlds_fab (s : State) (l : List (Fld × Nat)) : (s.setFlds l).fab = s.fab := by
  induction l generalizing s with
  | nil => rfl
  | cons a l ih => cases a; exact ih _
@[simp] theorem State.setFlds_boot (s : State) (l : List (Fld × Nat)) : (s.setFlds l).boot = s.boot := by
  induction l generalizing s with
  | nil => rfl
  | cons a l ih => cases a; exact ih _
@[simp] theorem State.setFlds_tap (s : State) (l : List (Fld × Nat)) : (s.setFlds l).tap = s.tap := by
  induction l generalizing s with
  | nil => rfl
  | cons a l ih => cases a; exact ih _
@[simp] theorem State.setFlds_free (s : State) (l : List (Fld × Nat)) : (s.setFlds l).free = s.free := by
  induction l generalizing s with
  | nil => rfl
  | cons a l ih => cases a; exact ih _
@[simp] theorem State.setFlds_pending (s : State) (l : List (Fld × Nat)) : (s.setFlds l).pending = s.pending := by
  induction l generalizing s with
  | nil => rfl
  | cons a l ih => cases a; exact ih _
@[simp] theorem State.capture_mem (s : State) (v : Fld) (l : List (Fld × Nat)) : (s.capture v l).mem = s.mem := by
  unfold State.capture; split <;> simp
@[simp] theorem State.capture_dramBad (s : State) (v : Fld) (l : List (Fld × Nat)) : (s.capture v l).dramBad = s.dramBad := by
  unfold State.capture; split <;> simp
@[simp] theorem State.capture_merge (s : State) (v : Fld) (l : List (Fld × Nat)) : (s.capture v l).merge = s.merge := by
  unfold State.capture; split <;> simp
@[simp] theorem State.capture_ecc (s : State) (v : Fld) (l : List (Fld × Nat)) : (s.capture v l).ecc = s.ecc := by
  unfold State.capture; split <;> simp
@[simp] theorem State.capture_cores (s : State) (v : Fld) (l : List (Fld × Nat)) : (s.capture v l).cores = s.cores := by
  unfold State.capture; split <;> simp
@[simp] theorem State.capture_tiles (s : State) (v : Fld) (l : List (Fld × Nat)) : (s.capture v l).tiles = s.tiles := by
  unfold State.capture; split <;> simp
@[simp] theorem State.capture_flows (s : State) (v : Fld) (l : List (Fld × Nat)) : (s.capture v l).flows = s.flows := by
  unfold State.capture; split <;> simp
@[simp] theorem State.capture_loaded (s : State) (v : Fld) (l : List (Fld × Nat)) : (s.capture v l).loaded = s.loaded := by
  unfold State.capture; split <;> simp
@[simp] theorem State.capture_profs (s : State) (v : Fld) (l : List (Fld × Nat)) : (s.capture v l).profs = s.profs := by
  unfold State.capture; split <;> simp
@[simp] theorem State.capture_lastLane (s : State) (v : Fld) (l : List (Fld × Nat)) : (s.capture v l).lastLane = s.lastLane := by
  unfold State.capture; split <;> simp
@[simp] theorem State.capture_decWait (s : State) (v : Fld) (l : List (Fld × Nat)) : (s.capture v l).decWait = s.decWait := by
  unfold State.capture; split <;> simp
@[simp] theorem State.capture_index (s : State) (v : Fld) (l : List (Fld × Nat)) : (s.capture v l).index = s.index := by
  unfold State.capture; split <;> simp
@[simp] theorem State.capture_hwWins (s : State) (v : Fld) (l : List (Fld × Nat)) : (s.capture v l).hwWins = s.hwWins := by
  unfold State.capture; split <;> simp
@[simp] theorem State.capture_cpJobs (s : State) (v : Fld) (l : List (Fld × Nat)) : (s.capture v l).cpJobs = s.cpJobs := by
  unfold State.capture; split <;> simp
@[simp] theorem State.capture_code (s : State) (v : Fld) (l : List (Fld × Nat)) : (s.capture v l).code = s.code := by
  unfold State.capture; split <;> simp
@[simp] theorem State.capture_media (s : State) (v : Fld) (l : List (Fld × Nat)) : (s.capture v l).media = s.media := by
  unfold State.capture; split <;> simp
@[simp] theorem State.capture_ftl (s : State) (v : Fld) (l : List (Fld × Nat)) : (s.capture v l).ftl = s.ftl := by
  unfold State.capture; split <;> simp
@[simp] theorem State.capture_nvme (s : State) (v : Fld) (l : List (Fld × Nat)) : (s.capture v l).nvme = s.nvme := by
  unfold State.capture; split <;> simp
@[simp] theorem State.capture_hold (s : State) (v : Fld) (l : List (Fld × Nat)) : (s.capture v l).hold = s.hold := by
  unfold State.capture; split <;> simp
@[simp] theorem State.capture_therm (s : State) (v : Fld) (l : List (Fld × Nat)) : (s.capture v l).therm = s.therm := by
  unfold State.capture; split <;> simp
@[simp] theorem State.capture_keys (s : State) (v : Fld) (l : List (Fld × Nat)) : (s.capture v l).keys = s.keys := by
  unfold State.capture; split <;> simp
@[simp] theorem State.capture_dram (s : State) (v : Fld) (l : List (Fld × Nat)) : (s.capture v l).dram = s.dram := by
  unfold State.capture; split <;> simp
@[simp] theorem State.capture_dmas (s : State) (v : Fld) (l : List (Fld × Nat)) : (s.capture v l).dmas = s.dmas := by
  unfold State.capture; split <;> simp
@[simp] theorem State.capture_digs (s : State) (v : Fld) (l : List (Fld × Nat)) : (s.capture v l).digs = s.digs := by
  unfold State.capture; split <;> simp
@[simp] theorem State.capture_vault (s : State) (v : Fld) (l : List (Fld × Nat)) : (s.capture v l).vault = s.vault := by
  unfold State.capture; split <;> simp
@[simp] theorem State.capture_drbg (s : State) (v : Fld) (l : List (Fld × Nat)) : (s.capture v l).drbg = s.drbg := by
  unfold State.capture; split <;> simp
@[simp] theorem State.capture_fuses (s : State) (v : Fld) (l : List (Fld × Nat)) : (s.capture v l).fuses = s.fuses := by
  unfold State.capture; split <;> simp
@[simp] theorem State.capture_fab (s : State) (v : Fld) (l : List (Fld × Nat)) : (s.capture v l).fab = s.fab := by
  unfold State.capture; split <;> simp
@[simp] theorem State.capture_boot (s : State) (v : Fld) (l : List (Fld × Nat)) : (s.capture v l).boot = s.boot := by
  unfold State.capture; split <;> simp
@[simp] theorem State.capture_tap (s : State) (v : Fld) (l : List (Fld × Nat)) : (s.capture v l).tap = s.tap := by
  unfold State.capture; split <;> simp
@[simp] theorem State.capture_free (s : State) (v : Fld) (l : List (Fld × Nat)) : (s.capture v l).free = s.free := by
  unfold State.capture; split <;> simp
@[simp] theorem State.capture_pending (s : State) (v : Fld) (l : List (Fld × Nat)) : (s.capture v l).pending = s.pending := by
  unfold State.capture; split <;> simp
@[simp] theorem requestOn_mem (s : State) (b : BlockId) : (requestOn s b).mem = s.mem := by
  unfold requestOn; split <;> rfl
@[simp] theorem requestOn_dramBad (s : State) (b : BlockId) : (requestOn s b).dramBad = s.dramBad := by
  unfold requestOn; split <;> rfl
@[simp] theorem requestOn_merge (s : State) (b : BlockId) : (requestOn s b).merge = s.merge := by
  unfold requestOn; split <;> rfl
@[simp] theorem requestOn_ecc (s : State) (b : BlockId) : (requestOn s b).ecc = s.ecc := by
  unfold requestOn; split <;> rfl
@[simp] theorem requestOn_cores (s : State) (b : BlockId) : (requestOn s b).cores = s.cores := by
  unfold requestOn; split <;> rfl
@[simp] theorem requestOn_tiles (s : State) (b : BlockId) : (requestOn s b).tiles = s.tiles := by
  unfold requestOn; split <;> rfl
@[simp] theorem requestOn_flows (s : State) (b : BlockId) : (requestOn s b).flows = s.flows := by
  unfold requestOn; split <;> rfl
@[simp] theorem requestOn_loaded (s : State) (b : BlockId) : (requestOn s b).loaded = s.loaded := by
  unfold requestOn; split <;> rfl
@[simp] theorem requestOn_profs (s : State) (b : BlockId) : (requestOn s b).profs = s.profs := by
  unfold requestOn; split <;> rfl
@[simp] theorem requestOn_lastLane (s : State) (b : BlockId) : (requestOn s b).lastLane = s.lastLane := by
  unfold requestOn; split <;> rfl
@[simp] theorem requestOn_decWait (s : State) (b : BlockId) : (requestOn s b).decWait = s.decWait := by
  unfold requestOn; split <;> rfl
@[simp] theorem requestOn_index (s : State) (b : BlockId) : (requestOn s b).index = s.index := by
  unfold requestOn; split <;> rfl
@[simp] theorem requestOn_hwWins (s : State) (b : BlockId) : (requestOn s b).hwWins = s.hwWins := by
  unfold requestOn; split <;> rfl
@[simp] theorem requestOn_cpJobs (s : State) (b : BlockId) : (requestOn s b).cpJobs = s.cpJobs := by
  unfold requestOn; split <;> rfl
@[simp] theorem requestOn_code (s : State) (b : BlockId) : (requestOn s b).code = s.code := by
  unfold requestOn; split <;> rfl
@[simp] theorem requestOn_media (s : State) (b : BlockId) : (requestOn s b).media = s.media := by
  unfold requestOn; split <;> rfl
@[simp] theorem requestOn_ftl (s : State) (b : BlockId) : (requestOn s b).ftl = s.ftl := by
  unfold requestOn; split <;> rfl
@[simp] theorem requestOn_nvme (s : State) (b : BlockId) : (requestOn s b).nvme = s.nvme := by
  unfold requestOn; split <;> rfl
@[simp] theorem requestOn_hold (s : State) (b : BlockId) : (requestOn s b).hold = s.hold := by
  unfold requestOn; split <;> rfl
@[simp] theorem requestOn_therm (s : State) (b : BlockId) : (requestOn s b).therm = s.therm := by
  unfold requestOn; split <;> rfl
@[simp] theorem requestOn_keys (s : State) (b : BlockId) : (requestOn s b).keys = s.keys := by
  unfold requestOn; split <;> rfl
@[simp] theorem requestOn_dram (s : State) (b : BlockId) : (requestOn s b).dram = s.dram := by
  unfold requestOn; split <;> rfl
@[simp] theorem requestOn_dmas (s : State) (b : BlockId) : (requestOn s b).dmas = s.dmas := by
  unfold requestOn; split <;> rfl
@[simp] theorem requestOn_digs (s : State) (b : BlockId) : (requestOn s b).digs = s.digs := by
  unfold requestOn; split <;> rfl
@[simp] theorem requestOn_vault (s : State) (b : BlockId) : (requestOn s b).vault = s.vault := by
  unfold requestOn; split <;> rfl
@[simp] theorem requestOn_drbg (s : State) (b : BlockId) : (requestOn s b).drbg = s.drbg := by
  unfold requestOn; split <;> rfl
@[simp] theorem requestOn_fuses (s : State) (b : BlockId) : (requestOn s b).fuses = s.fuses := by
  unfold requestOn; split <;> rfl
@[simp] theorem requestOn_fab (s : State) (b : BlockId) : (requestOn s b).fab = s.fab := by
  unfold requestOn; split <;> rfl
@[simp] theorem requestOn_boot (s : State) (b : BlockId) : (requestOn s b).boot = s.boot := by
  unfold requestOn; split <;> rfl
@[simp] theorem requestOn_tap (s : State) (b : BlockId) : (requestOn s b).tap = s.tap := by
  unfold requestOn; split <;> rfl
@[simp] theorem requestOn_free (s : State) (b : BlockId) : (requestOn s b).free = s.free := by
  unfold requestOn; split <;> rfl
@[simp] theorem requestOn_pending (s : State) (b : BlockId) : (requestOn s b).pending = s.pending := by
  unfold requestOn; split <;> rfl
@[simp] theorem requestOff_mem (s : State) (b : BlockId) : (requestOff s b).mem = s.mem := by
  unfold requestOff; split <;> rfl
@[simp] theorem requestOff_dramBad (s : State) (b : BlockId) : (requestOff s b).dramBad = s.dramBad := by
  unfold requestOff; split <;> rfl
@[simp] theorem requestOff_merge (s : State) (b : BlockId) : (requestOff s b).merge = s.merge := by
  unfold requestOff; split <;> rfl
@[simp] theorem requestOff_ecc (s : State) (b : BlockId) : (requestOff s b).ecc = s.ecc := by
  unfold requestOff; split <;> rfl
@[simp] theorem requestOff_cores (s : State) (b : BlockId) : (requestOff s b).cores = s.cores := by
  unfold requestOff; split <;> rfl
@[simp] theorem requestOff_tiles (s : State) (b : BlockId) : (requestOff s b).tiles = s.tiles := by
  unfold requestOff; split <;> rfl
@[simp] theorem requestOff_flows (s : State) (b : BlockId) : (requestOff s b).flows = s.flows := by
  unfold requestOff; split <;> rfl
@[simp] theorem requestOff_loaded (s : State) (b : BlockId) : (requestOff s b).loaded = s.loaded := by
  unfold requestOff; split <;> rfl
@[simp] theorem requestOff_profs (s : State) (b : BlockId) : (requestOff s b).profs = s.profs := by
  unfold requestOff; split <;> rfl
@[simp] theorem requestOff_lastLane (s : State) (b : BlockId) : (requestOff s b).lastLane = s.lastLane := by
  unfold requestOff; split <;> rfl
@[simp] theorem requestOff_decWait (s : State) (b : BlockId) : (requestOff s b).decWait = s.decWait := by
  unfold requestOff; split <;> rfl
@[simp] theorem requestOff_index (s : State) (b : BlockId) : (requestOff s b).index = s.index := by
  unfold requestOff; split <;> rfl
@[simp] theorem requestOff_hwWins (s : State) (b : BlockId) : (requestOff s b).hwWins = s.hwWins := by
  unfold requestOff; split <;> rfl
@[simp] theorem requestOff_cpJobs (s : State) (b : BlockId) : (requestOff s b).cpJobs = s.cpJobs := by
  unfold requestOff; split <;> rfl
@[simp] theorem requestOff_code (s : State) (b : BlockId) : (requestOff s b).code = s.code := by
  unfold requestOff; split <;> rfl
@[simp] theorem requestOff_media (s : State) (b : BlockId) : (requestOff s b).media = s.media := by
  unfold requestOff; split <;> rfl
@[simp] theorem requestOff_ftl (s : State) (b : BlockId) : (requestOff s b).ftl = s.ftl := by
  unfold requestOff; split <;> rfl
@[simp] theorem requestOff_nvme (s : State) (b : BlockId) : (requestOff s b).nvme = s.nvme := by
  unfold requestOff; split <;> rfl
@[simp] theorem requestOff_hold (s : State) (b : BlockId) : (requestOff s b).hold = s.hold := by
  unfold requestOff; split <;> rfl
@[simp] theorem requestOff_therm (s : State) (b : BlockId) : (requestOff s b).therm = s.therm := by
  unfold requestOff; split <;> rfl
@[simp] theorem requestOff_keys (s : State) (b : BlockId) : (requestOff s b).keys = s.keys := by
  unfold requestOff; split <;> rfl
@[simp] theorem requestOff_dram (s : State) (b : BlockId) : (requestOff s b).dram = s.dram := by
  unfold requestOff; split <;> rfl
@[simp] theorem requestOff_dmas (s : State) (b : BlockId) : (requestOff s b).dmas = s.dmas := by
  unfold requestOff; split <;> rfl
@[simp] theorem requestOff_digs (s : State) (b : BlockId) : (requestOff s b).digs = s.digs := by
  unfold requestOff; split <;> rfl
@[simp] theorem requestOff_vault (s : State) (b : BlockId) : (requestOff s b).vault = s.vault := by
  unfold requestOff; split <;> rfl
@[simp] theorem requestOff_drbg (s : State) (b : BlockId) : (requestOff s b).drbg = s.drbg := by
  unfold requestOff; split <;> rfl
@[simp] theorem requestOff_fuses (s : State) (b : BlockId) : (requestOff s b).fuses = s.fuses := by
  unfold requestOff; split <;> rfl
@[simp] theorem requestOff_fab (s : State) (b : BlockId) : (requestOff s b).fab = s.fab := by
  unfold requestOff; split <;> rfl
@[simp] theorem requestOff_boot (s : State) (b : BlockId) : (requestOff s b).boot = s.boot := by
  unfold requestOff; split <;> rfl
@[simp] theorem requestOff_tap (s : State) (b : BlockId) : (requestOff s b).tap = s.tap := by
  unfold requestOff; split <;> rfl
@[simp] theorem requestOff_free (s : State) (b : BlockId) : (requestOff s b).free = s.free := by
  unfold requestOff; split <;> rfl
@[simp] theorem requestOff_pending (s : State) (b : BlockId) : (requestOff s b).pending = s.pending := by
  unfold requestOff; split <;> rfl

end Sys2Proof.Machine
end

