-- ==== Sys2Proof/Laws/Issue.lean ====
section
/-! SUPPORT. Sys2Proof/Laws/Issue.lean: what the issue of an instruction comes to, once: with its fetch done and off the gate
(`issued`), an instruction that falls through leaves `completed`. -/

set_option Elab.async false

namespace Sys2Proof.Machine

/-- A core reads as what was written to it. -/
theorem core_setCore_same (s : State) {c : Nat} (k : Core) (h : c < s.cores.length) : (s.setCore c k).core c = k := by
  simp [State.core, State.setCore, List.getD, h]

/-- The second of two writes of a core stands. -/
theorem setCore_setCore (s : State) (c : Nat) (k k' : Core) : (s.setCore c k).setCore c k' = s.setCore c k' := by
  simp [State.setCore]

/-- What `issued` says of the fetch and of the core. -/
theorem issued_spec {s s1 : State} {c width : Nat} (h : issued s c width = some s1) :
    mayIssue s c = true ∧ atGate s c = false ∧ fetchInstr s c width = .ok () s1 ∧ (s1.core c).run = .run ∧ s1.cores.length = 36 ∧
      offGate c ((s1.core c).pc + BitVec.ofNat 32 width) = true := by
  unfold issued at h
  split at h
  · next h1 =>
    simp only [Bool.and_eq_true, Bool.not_eq_true'] at h1
    split at h
    · next u s2 hf =>
      split at h
      · next h2 =>
        simp only [Bool.and_eq_true, coreRuns, beq_iff_eq] at h2
        cases h
        exact ⟨h1.1, h1.2, hf, h2.1.1, h2.1.2, h2.2⟩
      · cases h
    · cases h
  · cases h

/-- Away from the parcel gate a core's next instruction boundary changes nothing. -/
theorem arrive_offGate (s : State) (c : Nat) (h : offGate c (s.core c).pc = true) : arrive s c = s := by
  have hg : atGate s c = false := by
    simp only [offGate, Bool.or_eq_true, decide_eq_true_eq, bne_iff_ne] at h
    simp only [atGate, Bool.and_eq_false_iff, decide_eq_false_iff_not, beq_eq_false_iff_ne]
    rcases h with h | h
    · exact .inl (by omega)
    · exact .inr h
  simp [arrive, hg]

/-- Retiring an instruction of a core that still runs, to an address that is no gate. -/
theorem retire_goneTo (s : State) (c : Nat) (pc : Word) (cost : Nat) (hc : c < s.cores.length) (hr : (s.core c).run = .run)
    (hg : offGate c pc = true) : retire s c pc cost = goneTo s c (s.core c) pc cost := by
  unfold retire
  rw [if_pos hr, arrive_offGate _ _ (by rw [updCore, core_setCore_same s _ hc]; exact hg)]
  rfl

/-- An issued instruction is its effect on the state after its fetch. -/
theorem issue_of_issued {s s1 : State} {c width : Nat} (body : State → CoreAcc (Word × Nat)) (h : issued s c width = some s1) :
    issue s c width body =
      match body s1 with
      | .ok r s2 => retire s2 c r.1 r.2
      | .trap t s2 => takeExc s2 c t (returnPc t (s.core c).pc width) := by
  obtain ⟨h1, h2, h3, -⟩ := issued_spec h
  unfold issue
  rw [if_pos h1, if_neg (by simp [h2])]
  simp only [h3, CoreAcc.andThen] <;> rfl

/-- An issued instruction that only changes its core's registers completes with them. -/
theorem issueCore_of_issued {s s1 : State} {c width : Nat} (cost : Nat) (f : Core → Core) (hc : c < 36)
    (hf : ∀ k, (f k).run = k.run) (h : issued s c width = some s1) :
    issueCore s c width cost f = completed s1 c (f (s1.core c)) width cost := by
  obtain ⟨-, -, -, h4, h5, h6⟩ := issued_spec h
  unfold issueCore
  rw [issue_of_issued _ h]
  have hl : c < s1.cores.length := by omega
  simp only
  rw [retire_goneTo _ _ _ _ (by simp [updCore, State.setCore, hl]) (by rw [updCore, core_setCore_same s1 _ hl, hf, h4])
    (by simpa [nextPc] using h6)]
  rw [updCore, core_setCore_same s1 _ hl, goneTo, setCore_setCore]
  rfl

end Sys2Proof.Machine
end

