-- ==== Sys2Proof/Laws/Tbl.lean ====
section
/-! SUPPORT. Sys2Proof/Laws/Tbl.lean: reading what was written to a table, and the canonical form that every operation on a
table keeps. -/

set_option Elab.async false

namespace Sys2Proof.Machine

variable {α : Type}

/-! ### Bounds -/

theorem tblAbove_mono [DecidableEq α] {d : α} {b c : Nat} {t : List (Nat × α)} (h : tblAbove d c t = true) (hb : b ≤ c) :
    tblAbove d b t = true := by
  cases t with
  | nil => rfl
  | cons e r =>
    cases e with
    | mk k v =>
      simp only [tblAbove, Bool.and_eq_true, decide_eq_true_eq] at h ⊢
      exact ⟨⟨by omega, h.1.2⟩, h.2⟩

theorem tblWf_of_above [DecidableEq α] {d : α} {b : Nat} {t : List (Nat × α)} (h : tblAbove d b t = true) : tblWf d t = true := by
  cases t with
  | nil => rfl
  | cons e r =>
    cases e with
    | mk k v =>
      simp only [tblAbove, tblWf, Bool.and_eq_true, decide_eq_true_eq] at h ⊢
      exact ⟨h.1.2, h.2⟩

theorem tblGet_above [DecidableEq α] {d : α} {b n : Nat} {t : List (Nat × α)} (h : tblAbove d b t = true) (hn : n ≤ b) :
    tblGet d t n = d := by
  induction t generalizing b with
  | nil => rfl
  | cons e r ih =>
    cases e with
    | mk k v =>
      simp only [tblAbove, Bool.and_eq_true, decide_eq_true_eq] at h
      have hk : n ≠ k := by omega
      simp only [tblGet, if_neg hk]
      exact ih h.2 (by omega)

/-! ### Listing a key -/

theorem tblGet_tblPut_same (d : α) (t : List (Nat × α)) (n : Nat) (x : α) : tblGet d (tblPut t n x) n = x := by
  induction t with
  | nil => simp [tblPut, tblGet]
  | cons e r ih =>
    cases e with
    | mk k v =>
      unfold tblPut
      split
      · simp [tblGet]
      · split
        · simp [tblGet]
        · next h => simp [tblGet, h, ih]

theorem tblGet_tblPut_ne (d : α) (t : List (Nat × α)) {n m : Nat} (x : α) (h : m ≠ n) :
    tblGet d (tblPut t n x) m = tblGet d t m := by
  induction t with
  | nil => simp [tblPut, tblGet, h]
  | cons e r ih =>
    cases e with
    | mk k v =>
      unfold tblPut
      split
      · simp [tblGet, h]
      · split
        · next hk => subst hk; simp [tblGet, h]
        · simp [tblGet, ih]

theorem tblAbove_tblPut [DecidableEq α] {d x : α} {b n : Nat} {t : List (Nat × α)} (h : tblAbove d b t = true) (hb : b < n)
    (hx : x ≠ d) : tblAbove d b (tblPut t n x) = true := by
  induction t generalizing b with
  | nil => simp [tblPut, tblAbove, hb, hx]
  | cons e r ih =>
    cases e with
    | mk k v =>
      simp only [tblAbove, Bool.and_eq_true, decide_eq_true_eq] at h
      unfold tblPut
      split
      · next hk => simp [tblAbove, hb, hx, hk, h.1.2, h.2]
      · split
        · next hk => subst hk; simp [tblAbove, hb, hx, h.2]
        · next h1 h2 => simp [tblAbove, h.1.1, h.1.2, ih h.2 (by omega)]

theorem tblWf_tblPut [DecidableEq α] {d x : α} {t : List (Nat × α)} (n : Nat) (h : tblWf d t = true) (hx : x ≠ d) :
    tblWf d (tblPut t n x) = true := by
  cases t with
  | nil => simp [tblPut, tblWf, tblAbove, hx]
  | cons e r =>
    cases e with
    | mk k v =>
      simp only [tblWf, Bool.and_eq_true, decide_eq_true_eq] at h
      unfold tblPut
      split
      · next hk => simp [tblWf, tblAbove, hx, hk, h.1, h.2]
      · split
        · next hk => subst hk; simp [tblWf, hx, h.2]
        · next h1 h2 => simp [tblWf, h.1, tblAbove_tblPut h.2 (by omega : k < n) hx]

/-! ### Removing a key -/

theorem tblAbove_tblErase [DecidableEq α] {d : α} {b : Nat} {t : List (Nat × α)} (n : Nat) (h : tblAbove d b t = true) :
    tblAbove d b (tblErase t n) = true := by
  induction t generalizing b with
  | nil => rfl
  | cons e r ih =>
    cases e with
    | mk k v =>
      simp only [tblAbove, Bool.and_eq_true, decide_eq_true_eq] at h
      unfold tblErase
      split
      · exact tblAbove_mono h.2 (by omega)
      · simp [tblAbove, h.1.1, h.1.2, ih h.2]

theorem tblWf_tblErase [DecidableEq α] {d : α} {t : List (Nat × α)} (n : Nat) (h : tblWf d t = true) :
    tblWf d (tblErase t n) = true := by
  cases t with
  | nil => rfl
  | cons e r =>
    cases e with
    | mk k v =>
      simp only [tblWf, Bool.and_eq_true, decide_eq_true_eq] at h
      unfold tblErase
      split
      · exact tblWf_of_above h.2
      · simp [tblWf, h.1, tblAbove_tblErase n h.2]

theorem tblGet_tblErase_same [DecidableEq α] {d : α} {t : List (Nat × α)} (n : Nat) (h : tblWf d t = true) :
    tblGet d (tblErase t n) n = d := by
  induction t with
  | nil => rfl
  | cons e r ih =>
    cases e with
    | mk k v =>
      simp only [tblWf, Bool.and_eq_true, decide_eq_true_eq] at h
      unfold tblErase
      split
      · next hk => subst hk; exact tblGet_above h.2 (le_refl _)
      · next hk => simp [tblGet, hk, ih (tblWf_of_above h.2)]

theorem tblGet_tblErase_ne (d : α) (t : List (Nat × α)) {n m : Nat} (h : m ≠ n) : tblGet d (tblErase t n) m = tblGet d t m := by
  induction t with
  | nil => rfl
  | cons e r ih =>
    cases e with
    | mk k v =>
      unfold tblErase
      split
      · next hk => subst hk; simp [tblGet, h]
      · simp [tblGet, ih]

/-! ### Writing a key -/

/-- A key reads as what was written to it. -/
theorem tblGet_tblSet_same [DecidableEq α] {d : α} {t : List (Nat × α)} (n : Nat) (x : α) (h : tblWf d t = true) :
    tblGet d (tblSet d t n x) n = x := by
  unfold tblSet
  split
  · next hx => rw [tblGet_tblErase_same n h, hx]
  · exact tblGet_tblPut_same d t n x

/-- Every other key reads as before. -/
@[simp] theorem tblGet_tblSet_ne [DecidableEq α] (d : α) (t : List (Nat × α)) {n m : Nat} (x : α) (h : m ≠ n) :
    tblGet d (tblSet d t n x) m = tblGet d t m := by
  unfold tblSet
  split
  · exact tblGet_tblErase_ne d t h
  · exact tblGet_tblPut_ne d t x h

/-- Writing keeps the canonical form. -/
theorem tblWf_tblSet [DecidableEq α] {d : α} {t : List (Nat × α)} (n : Nat) (x : α) (h : tblWf d t = true) :
    tblWf d (tblSet d t n x) = true := by
  unfold tblSet
  split
  · exact tblWf_tblErase n h
  · next hx => exact tblWf_tblPut n h hx

theorem tblWf_tblSetRange [DecidableEq α] {d : α} {t : List (Nat × α)} (n : Nat) (xs : List α) (h : tblWf d t = true) :
    tblWf d (tblSetRange d t n xs) = true := by
  induction xs generalizing t n with
  | nil => exact h
  | cons x xs ih => exact ih (n + 1) (tblWf_tblSet n x h)

/-- A write of a range leaves every key outside it. -/
theorem tblGet_tblSetRange_out [DecidableEq α] (d : α) (t : List (Nat × α)) (n : Nat) (xs : List α) {m : Nat}
    (h : m < n ∨ n + xs.length ≤ m) : tblGet d (tblSetRange d t n xs) m = tblGet d t m := by
  induction xs generalizing t n with
  | nil => rfl
  | cons x xs ih =>
    simp only [List.length_cons] at h
    unfold tblSetRange
    rw [ih (tblSet d t n x) (n + 1) (by omega), tblGet_tblSet_ne d t x (by omega)]

/-- A key inside a written range reads as the value written there. -/
theorem tblGet_tblSetRange_in [DecidableEq α] {d : α} {t : List (Nat × α)} (n : Nat) (xs : List α) {i : Nat} (hi : i < xs.length)
    (h : tblWf d t = true) : tblGet d (tblSetRange d t n xs) (n + i) = xs[i] := by
  induction xs generalizing t n i with
  | nil => simp at hi
  | cons x xs ih =>
    unfold tblSetRange
    cases i with
    | zero =>
      rw [tblGet_tblSetRange_out d _ (n + 1) xs (by omega)]
      simpa using tblGet_tblSet_same n x h
    | succ i =>
      have := ih (n + 1) (i := i) (by simpa using hi) (tblWf_tblSet n x h)
      simpa [Nat.add_assoc, Nat.add_comm, Nat.add_left_comm] using this

/-! ### Keeping some keys -/

theorem tblAbove_tblKeep [DecidableEq α] {d : α} {b : Nat} {t : List (Nat × α)} (p : Nat → Bool) (h : tblAbove d b t = true) :
    tblAbove d b (tblKeep p t) = true := by
  induction t generalizing b with
  | nil => rfl
  | cons e r ih =>
    cases e with
    | mk k v =>
      simp only [tblAbove, Bool.and_eq_true, decide_eq_true_eq] at h
      unfold tblKeep
      simp only [List.filter]
      split
      · simp only [tblAbove, Bool.and_eq_true, decide_eq_true_eq]; exact ⟨h.1, ih h.2⟩
      · exact tblAbove_mono (ih h.2) (by omega)

theorem tblWf_tblKeep [DecidableEq α] {d : α} {t : List (Nat × α)} (p : Nat → Bool) (h : tblWf d t = true) :
    tblWf d (tblKeep p t) = true := by
  cases t with
  | nil => rfl
  | cons e r =>
    cases e with
    | mk k v =>
      simp only [tblWf, Bool.and_eq_true, decide_eq_true_eq] at h
      unfold tblKeep
      simp only [List.filter]
      split
      · simp only [tblWf, Bool.and_eq_true, decide_eq_true_eq]; exact ⟨h.1, tblAbove_tblKeep p h.2⟩
      · exact tblWf_of_above (tblAbove_tblKeep p h.2)

end Sys2Proof.Machine
end

