-- ==== Sys2Proof/Laws/Reg.lean ====
section
/-! SUPPORT. Sys2Proof/Laws/Reg.lean: register fields: what a write leaves to read, counters, captures and the states of a
block (R13 to R20, R57, R521). Every register operation keeps the canonical form of `regs`. -/

set_option Elab.async false

namespace Sys2Proof.Machine

/-! ### One field -/

theorem setFld_regs_wf (s : State) (f : Fld) (v : Nat) (h : tblWf 0 s.regs = true) : tblWf 0 (s.setFld f v).regs = true :=
  tblWf_tblSet _ _ h

theorem fld_setFld_same (s : State) (f : Fld) (v : Nat) (h : tblWf 0 s.regs = true) : (s.setFld f v).fld f = v % 2 ^ f.width :=
  tblGet_tblSet_same _ _ h

theorem fld_setFld_ne (s : State) {f g : Fld} (v : Nat) (h : g.key ≠ f.key) : (s.setFld f v).fld g = s.fld g :=
  tblGet_tblSet_ne 0 s.regs _ h

/-- A one-bit event reads 1 once raised, and other fields read as before. -/
theorem fld_raise_same (s : State) (f : Fld) (hw : 0 < f.width) (h : tblWf 0 s.regs = true) : (s.raise f).fld f = 1 := by
  have h1 : (1 : Nat) < 2 ^ f.width := Nat.one_lt_two_pow (by omega)
  rw [State.raise, fld_setFld_same s f 1 h, Nat.mod_eq_of_lt h1]

theorem fld_raise_ne (s : State) {f g : Fld} (h : g.key ≠ f.key) : (s.raise f).fld g = s.fld g := fld_setFld_ne s 1 h

theorem fld_clear_same (s : State) (f : Fld) (h : tblWf 0 s.regs = true) : (s.clear f).fld f = 0 := by
  rw [State.clear, fld_setFld_same s f 0 h, Nat.zero_mod]

theorem fld_clear_ne (s : State) {f g : Fld} (h : g.key ≠ f.key) : (s.clear f).fld g = s.fld g := fld_setFld_ne s 0 h

/-- A wrapping counter (R57). -/
theorem fld_addWrap_same (s : State) (f : Fld) (n : Nat) (h : tblWf 0 s.regs = true) :
    (s.addWrap f n).fld f = (s.fld f + n) % 2 ^ f.width := fld_setFld_same s f _ h

/-- A saturating counter. -/
theorem fld_addSat_same (s : State) (f : Fld) (n : Nat) (h : tblWf 0 s.regs = true) :
    (s.addSat f n).fld f = min (s.fld f + n) (2 ^ f.width - 1) := by
  have hp : 0 < 2 ^ f.width := Nat.two_pow_pos _
  rw [State.addSat, fld_setFld_same s f _ h, satAdd, Nat.mod_eq_of_lt (by omega)]

/-! ### Several fields -/

theorem setFlds_regs_wf (s : State) (l : List (Fld × Nat)) (h : tblWf 0 s.regs = true) : tblWf 0 (s.setFlds l).regs = true := by
  induction l generalizing s with
  | nil => exact h
  | cons a l ih => cases a with | mk f v => exact ih _ (setFld_regs_wf s f v h)

/-- A field that none of several writes names. -/
theorem fld_setFlds_out (s : State) (l : List (Fld × Nat)) (g : Fld) (h : ∀ e ∈ l, g.key ≠ e.1.key) :
    (s.setFlds l).fld g = s.fld g := by
  induction l generalizing s with
  | nil => rfl
  | cons a l ih =>
    cases a with
    | mk f v =>
      rw [State.setFlds, ih _ (fun e he => h e (List.mem_cons_of_mem _ he)), fld_setFld_ne s v (h (f, v) (List.mem_cons_self ..))]

theorem capture_regs_wf (s : State) (v : Fld) (l : List (Fld × Nat)) (h : tblWf 0 s.regs = true) :
    tblWf 0 (s.capture v l).regs = true := by
  unfold State.capture
  split
  · exact h
  · exact setFld_regs_wf _ _ _ (setFlds_regs_wf s l h)

/-- A capture that is armed no more keeps what it holds (R521). -/
theorem capture_held (s : State) (v : Fld) (l : List (Fld × Nat)) (h : s.flag v = true) : s.capture v l = s := by
  simp [State.capture, h]

/-- A field that no write of a capture names. -/
theorem fld_capture_out (s : State) (v : Fld) (l : List (Fld × Nat)) (g : Fld) (hv : g.key ≠ v.key) (h : ∀ e ∈ l, g.key ≠ e.1.key) :
    (s.capture v l).fld g = s.fld g := by
  unfold State.capture
  split
  · rfl
  · rw [fld_raise_ne _ hv, fld_setFlds_out s l g h]

/-! ### The states of a block (R17 to R20) -/

theorem requestOn_regs_wf (s : State) (b : BlockId) (h : tblWf 0 s.regs = true) : tblWf 0 (requestOn s b).regs = true := by
  unfold requestOn
  split
  · exact setFld_regs_wf _ _ _ (setFld_regs_wf _ _ _ h)
  · exact setFld_regs_wf _ _ _ h

theorem requestOff_regs_wf (s : State) (b : BlockId) (h : tblWf 0 s.regs = true) : tblWf 0 (requestOff s b).regs = true := by
  unfold requestOff
  split
  · exact setFld_regs_wf _ _ _ (setFld_regs_wf _ _ _ h)
  · exact setFld_regs_wf _ _ _ h

/-- EN and STATE of a block are different fields. -/
theorem state_key_ne_en (b : BlockId) : (fldState (blockBase b)).key ≠ (fldEn (blockBase b)).key := by
  simp [fldState, fldEn, Fld.key]

/-- EN written 1 takes a block that is OFF to ENABLING, and leaves the state of any other. -/
theorem blockState_requestOn (s : State) (b : BlockId) (h : tblWf 0 s.regs = true) :
    blockState (requestOn s b) b = if blockState s b = stOff then stEnabling else blockState s b := by
  have hw : (fldState (blockBase b)).width = 2 := rfl
  unfold requestOn
  split
  · simp only [blockState] at *
    rw [fld_setFld_same _ _ _ (setFld_regs_wf s _ _ h), hw]; rfl
  · exact fld_setFld_ne s 1 (state_key_ne_en b)

/-- EN written 0 takes a block that is ON to QUIESCING, and leaves the state of any other. -/
theorem blockState_requestOff (s : State) (b : BlockId) (h : tblWf 0 s.regs = true) :
    blockState (requestOff s b) b = if blockState s b = stOn then stQuiescing else blockState s b := by
  have hw : (fldState (blockBase b)).width = 2 := rfl
  unfold requestOff
  split
  · simp only [blockState] at *
    rw [fld_setFld_same _ _ _ (setFld_regs_wf s _ _ h), hw]; rfl
  · exact fld_setFld_ne s 0 (state_key_ne_en b)

/-- The end of an enabling transition, by EN (R19, R20). -/
theorem blockState_enablingEnds (s : State) (b : BlockId) (h : tblWf 0 s.regs = true) :
    blockState (enablingEnds s b) b = if s.flag (fldEn (blockBase b)) then stOn else stQuiescing := by
  have hw : (fldState (blockBase b)).width = 2 := rfl
  rw [blockState, enablingEnds, fld_setFld_same _ _ _ h, hw]
  split <;> rfl

/-- The end of a drain, by EN (R18, R20). -/
theorem blockState_quiesceEnds (s : State) (b : BlockId) (h : tblWf 0 s.regs = true) :
    blockState (quiesceEnds s b) b = if s.flag (fldEn (blockBase b)) then stEnabling else stOff := by
  have hw : (fldState (blockBase b)).width = 2 := rfl
  rw [blockState, quiesceEnds, fld_setFld_same _ _ _ h, hw]
  split <;> rfl

end Sys2Proof.Machine
end

