-- ==== Sys2Proof/Laws/Mem.lean ====
section
/-! SUPPORT. Sys2Proof/Laws/Mem.lean: memory: every operation of Mem.lean keeps the canonical form, a stored byte reads back,
and a store leaves every other byte. -/

set_option Elab.async false

namespace Sys2Proof.Machine

/-! ### Stored bytes -/

theorem rawByte_putBytes_out (s : State) (a : Nat) (bs : List Byte) {x : Nat} (h : x < a ∨ a + bs.length ≤ x) :
    (s.putBytes a bs).rawByte x = s.rawByte x := tblGet_tblSetRange_out 0 s.mem a bs h

theorem rawByte_putBytes_in (s : State) (a : Nat) (bs : List Byte) {i : Nat} (hi : i < bs.length) (h : Memory.wf s.mem = true) :
    (s.putBytes a bs).rawByte (a + i) = bs[i] := tblGet_tblSetRange_in a bs hi h

theorem putBytes_wf (s : State) (a : Nat) (bs : List Byte) (h : Memory.wf s.mem = true) : Memory.wf (s.putBytes a bs).mem = true :=
  tblWf_tblSetRange a bs h

/-! ### Operations that do not store -/

@[simp] theorem countCe_mem (s : State) (k : Nat) : (countCe s k).mem = s.mem := by simp [countCe]
@[simp] theorem countUe_mem (s : State) (k : Nat) : (countUe s k).mem = s.mem := by simp [countUe]
@[simp] theorem countDram_mem (s : State) (a k : Nat) : (countDram s a k).mem = s.mem := by
  unfold countDram; simp; split <;> simp
@[simp] theorem setSyn_mem (s : State) (a v : Nat) : (setSyn s a v).mem = s.mem := by unfold setSyn; split <;> rfl
@[simp] theorem setDramMark_mem (s : State) (a v : Nat) : (setDramMark s a v).mem = s.mem := (rfl)

@[simp] theorem noteWord_mem (s : State) (a : Nat) : (noteWord s a).1.mem = s.mem := by
  unfold noteWord
  split
  · split <;> simp
  · split
    · split <;> simp
    · rfl

@[simp] theorem noteWords_mem (s : State) (w n : Nat) : (noteWords s w n).1.mem = s.mem := by
  induction n generalizing s w with
  | zero => rfl
  | succ n ih => simp only [noteWords]; rw [ih]; simp

/-- A read changes no stored byte. -/
@[simp] theorem readRam_mem (s : State) (a n : Nat) : (readRam s a n).2.1.mem = s.mem := by
  unfold readRam
  simp only
  split <;> simp

@[simp] theorem dramMarks_mem (s : State) (a n k : Nat) : (dramMarks s a n k).mem = s.mem := by
  induction k with
  | zero => rfl
  | succ k ih =>
    unfold dramMarks
    simp only
    split
    · exact ih
    · split <;> simp [ih]
    · split <;> simp [ih]

/-! ### Operations that store -/

theorem writeMerge_wf (s : State) (e : MergeEnt) (h : Memory.wf s.mem = true) : Memory.wf (writeMerge s e).mem = true := by
  unfold writeMerge
  simp only
  split
  · simp only [setSyn_mem]; exact putBytes_wf _ _ _ h
  · split
    · exact putBytes_wf _ _ _ h
    · simp only [setSyn_mem]
      refine putBytes_wf _ _ _ ?_
      split <;> simpa using h
    · simp only [State.raise_mem, setSyn_mem]
      refine putBytes_wf _ _ _ ?_
      split <;> simpa using h

theorem mergeWrite_wf (s : State) (w mask data : Nat) (owner : Option Nat) (h : Memory.wf s.mem = true) :
    Memory.wf (mergeWrite s w mask data owner).mem = true := by
  unfold mergeWrite
  split
  · simp only
    split
    · exact writeMerge_wf _ _ h
    · exact h
  · simp only
    split
    · exact h
    · split
      · exact h
      · exact writeMerge_wf _ _ h

theorem writeSramWord_wf (s : State) (w lo : Nat) (bs : List Byte) (owner : Option Nat) (h : Memory.wf s.mem = true) :
    Memory.wf (writeSramWord s w lo bs owner).mem = true := by
  unfold writeSramWord
  split
  · simp only [setSyn_mem]; exact putBytes_wf _ _ _ h
  · exact mergeWrite_wf _ _ _ _ _ h

theorem writeSram_wf (s : State) (a : Nat) (bs : List Byte) (owner : Option Nat) (n : Nat) (h : Memory.wf s.mem = true) :
    Memory.wf (writeSram s a bs owner n).mem = true := by
  induction n generalizing s a bs with
  | zero => exact h
  | succ n ih =>
    unfold writeSram
    split
    · exact h
    · exact ih _ _ _ (writeSramWord_wf _ _ _ _ _ h)

/-- A write of memory keeps the canonical form. -/
theorem writeRam_wf (s : State) (a : Nat) (bs : List Byte) (owner : Option Nat) (h : Memory.wf s.mem = true) :
    Memory.wf (writeRam s a bs owner).mem = true := by
  unfold writeRam
  split
  · simp only
    split
    · exact putBytes_wf _ _ _ h
    · simpa using putBytes_wf _ _ _ h
  all_goals first | exact writeSram_wf _ _ _ _ _ h | exact h

theorem flushMergeList_wf (s : State) (es : List MergeEnt) (h : Memory.wf s.mem = true) : Memory.wf (flushMergeList s es).mem = true := by
  induction es generalizing s with
  | nil => exact h
  | cons e es ih => exact ih _ (writeMerge_wf s e h)

theorem flushMerge_wf (s : State) (p : MergeEnt → Bool) (h : Memory.wf s.mem = true) : Memory.wf (flushMerge s p).mem = true :=
  flushMergeList_wf _ _ h

/-- A write through the hallway check keeps the canonical form. -/
theorem writeMem_wf (s : State) (a : Nat) (bs : List Byte) (owner : Option Nat) (tag : Nat) (h : Memory.wf s.mem = true) :
    Memory.wf (writeMem s a bs owner tag).mem = true := by
  unfold writeMem
  split
  · exact writeRam_wf _ _ _ _ h
  · simpa using h

/-- What a reset keeps of memory is in canonical form. -/
theorem tblKeep_mem_wf (s : State) (p : Nat → Bool) (h : Memory.wf s.mem = true) : Memory.wf (tblKeep p s.mem) = true :=
  tblWf_tblKeep p h

theorem reset_mem_wf : Memory.wf State.reset.mem = true := rfl

/-! ### DRAM -/

/-- A write of DRAM leaves every stored byte outside it. -/
theorem rawByte_writeRam_dram (s : State) (a : Nat) (bs : List Byte) (owner : Option Nat) {x : Nat} (ht : targetOf s a = .dram)
    (h : x < a ∨ a + bs.length ≤ x) : (writeRam s a bs owner).rawByte x = s.rawByte x := by
  unfold writeRam
  rw [ht]
  simp only
  split
  · exact rawByte_putBytes_out s a bs h
  · simpa [State.rawByte] using rawByte_putBytes_out s a bs h

/-- A byte written to DRAM is stored. -/
theorem rawByte_writeRam_dram_in (s : State) (a : Nat) (bs : List Byte) (owner : Option Nat) {i : Nat} (ht : targetOf s a = .dram)
    (hi : i < bs.length) (h : Memory.wf s.mem = true) : (writeRam s a bs owner).rawByte (a + i) = bs[i] := by
  unfold writeRam
  rw [ht]
  simp only
  split
  · exact rawByte_putBytes_in s a bs hi h
  · simpa [State.rawByte] using rawByte_putBytes_in s a bs hi h

/-- The hallway check drops a write in full: no stored byte changes and the drop is counted (R359). -/
theorem writeMem_dropped (s : State) (a : Nat) (bs : List Byte) (owner : Option Nat) (tag : Nat) (h : hwAllows s a bs.length tag = false) :
    (writeMem s a bs owner tag).mem = s.mem ∧
      (writeMem s a bs owner tag) = (s.addWrap R.FAB_HWDROP_COUNT 1).raise R.FAB_ISR_HWDROP := by
  simp [writeMem, h]

end Sys2Proof.Machine
end

