-- ==== Sys2Proof/Laws/Keeps.lean ====
section
/-! SUPPORT. Sys2Proof/Laws/Keeps.lean: the relation between the state before and after anything the part does: the canonical
forms stay, the lifecycle stays legal and never goes back, the fuses of identity stay, and the queue is left alone. One lemma
per operation says that it keeps all of these (Laws/Keeps*.lean); the invariants of a step follow. -/

set_option Elab.async false

namespace Sys2Proof.Machine

/-- What the state `t` keeps of the state `s` it came from. -/
structure Keeps (s t : State) : Prop where
  pending : t.pending = s.pending
  regs : Registers.wf s.regs = true → Registers.wf t.regs = true
  mem : Memory.wf s.mem = true → Memory.wf t.mem = true
  life : LifecycleInv s → LifecycleInv t
  up : LifecycleInv s → s.fuses.lc ≤ t.fuses.lc
  back : s.fuses.rollback ≤ t.fuses.rollback
  uid : t.fuses.uid = s.fuses.uid
  cores : s.cores.length = 36 → t.cores.length = 36

set_option maxRecDepth 20000 in
/-- The register fields of reset are in canonical form. -/
theorem reset_regs_wf : Registers.wf State.reset.regs = true := by decide

theorem Keeps.refl (s : State) : Keeps s s :=
  ⟨rfl, id, id, id, fun _ => Nat.le_refl _, Nat.le_refl _, rfl, id⟩

theorem Keeps.trans {s t u : State} (h : Keeps s t) (k : Keeps t u) : Keeps s u :=
  ⟨k.pending.trans h.pending, k.regs ∘ h.regs, k.mem ∘ h.mem, k.life ∘ h.life,
    fun i => Nat.le_trans (h.up i) (k.up (h.life i)), Nat.le_trans h.back k.back, k.uid.trans h.uid, k.cores ∘ h.cores⟩

/-- An update of anything else keeps all. -/
theorem Keeps.of_eq {s0 s t : State} (h : Keeps s0 s) (hp : t.pending = s.pending) (hr : t.regs = s.regs) (hm : t.mem = s.mem)
    (hf : t.fuses = s.fuses) (hd : t.drbg.burn = s.drbg.burn) (hc : t.cores = s.cores) : Keeps s0 t := by
  refine h.trans ⟨hp, ?_, ?_, ?_, ?_, ?_, ?_, ?_⟩
  · rw [hr]; exact id
  · rw [hm]; exact id
  · unfold LifecycleInv; rw [hf, hd]; exact id
  · rw [hf]; exact fun _ => Nat.le_refl _
  · rw [hf]
  · rw [hf]
  · rw [hc]; exact id

/-- An update of a field that `Keeps` says nothing of. -/
theorem Keeps.upd {s0 s : State} {x_dramBad : List (Nat × Nat)} {x_merge : List MergeEnt} {x_ecc : EccSt} {x_tiles : List
      (Nat × Tile)} {x_flows : FlowSt} {x_loaded : Loaded} {x_profs : List (Nat × Option Prof)} {x_lastLane : Nat} {x_decWait
      : Option DecJob} {x_index : IndexSt} {x_hwWins : List HwWin} {x_cpJobs : List CpJob} {x_code : CodeSt} {x_media :
      MediaSt} {x_ftl : Ftl} {x_nvme : NvmeSt} {x_hold : HoldSt} {x_therm : ThermSt} {x_keys : List (Nat × Option KeySlot)}
      {x_dram : DramSt} {x_dmas : List (Nat × DmaCh)} {x_digs : List (Nat × DigCtx)} {x_vault : VaultSt} {x_fab : FabSt}
      {x_boot : BootSt} {x_tap : TapSt} {x_free : Nat}
    (h : Keeps s0 s) : Keeps s0
      (State.mk s.regs s.mem x_dramBad x_merge x_ecc s.cores x_tiles x_flows x_loaded x_profs x_lastLane x_decWait x_index
      x_hwWins x_cpJobs x_code x_media x_ftl x_nvme x_hold x_therm x_keys x_dram x_dmas x_digs x_vault s.drbg s.fuses x_fab
      x_boot x_tap x_free s.pending) :=
  h.of_eq rfl rfl rfl rfl rfl rfl

/-- An update of the DRBG that leaves the burn. -/
theorem Keeps.updDrbg {s0 s : State} {x_dramBad : List (Nat × Nat)} {x_merge : List MergeEnt} {x_ecc : EccSt} {x_tiles : List
      (Nat × Tile)} {x_flows : FlowSt} {x_loaded : Loaded} {x_profs : List (Nat × Option Prof)} {x_lastLane : Nat} {x_decWait
      : Option DecJob} {x_index : IndexSt} {x_hwWins : List HwWin} {x_cpJobs : List CpJob} {x_code : CodeSt} {x_media :
      MediaSt} {x_ftl : Ftl} {x_nvme : NvmeSt} {x_hold : HoldSt} {x_therm : ThermSt} {x_keys : List (Nat × Option KeySlot)}
      {x_dram : DramSt} {x_dmas : List (Nat × DmaCh)} {x_digs : List (Nat × DigCtx)} {x_vault : VaultSt} {x_fab : FabSt}
      {x_boot : BootSt} {x_tap : TapSt} {x_free : Nat} {x_drbg : DrbgSt}
    (h : Keeps s0 s) (e : x_drbg.burn = s.drbg.burn) : Keeps s0
      (State.mk s.regs s.mem x_dramBad x_merge x_ecc s.cores x_tiles x_flows x_loaded x_profs x_lastLane x_decWait x_index
      x_hwWins x_cpJobs x_code x_media x_ftl x_nvme x_hold x_therm x_keys x_dram x_dmas x_digs x_vault x_drbg s.fuses x_fab
      x_boot x_tap x_free s.pending) :=
  h.of_eq rfl rfl rfl rfl e rfl

/-- An update of memory in canonical form. -/
theorem Keeps.updMem {s0 s : State} {x_dramBad : List (Nat × Nat)} {x_merge : List MergeEnt} {x_ecc : EccSt} {x_tiles : List
      (Nat × Tile)} {x_flows : FlowSt} {x_loaded : Loaded} {x_profs : List (Nat × Option Prof)} {x_lastLane : Nat} {x_decWait
      : Option DecJob} {x_index : IndexSt} {x_hwWins : List HwWin} {x_cpJobs : List CpJob} {x_code : CodeSt} {x_media :
      MediaSt} {x_ftl : Ftl} {x_nvme : NvmeSt} {x_hold : HoldSt} {x_therm : ThermSt} {x_keys : List (Nat × Option KeySlot)}
      {x_dram : DramSt} {x_dmas : List (Nat × DmaCh)} {x_digs : List (Nat × DigCtx)} {x_vault : VaultSt} {x_fab : FabSt}
      {x_boot : BootSt} {x_tap : TapSt} {x_free : Nat} {x_mem : List (Nat × Byte)}
    (h : Keeps s0 s) (e : Memory.wf s.mem = true → Memory.wf x_mem = true) : Keeps s0
      (State.mk s.regs x_mem x_dramBad x_merge x_ecc s.cores x_tiles x_flows x_loaded x_profs x_lastLane x_decWait x_index
      x_hwWins x_cpJobs x_code x_media x_ftl x_nvme x_hold x_therm x_keys x_dram x_dmas x_digs x_vault s.drbg s.fuses x_fab
      x_boot x_tap x_free s.pending) :=
  h.trans ⟨rfl, id, e, id, fun _ => Nat.le_refl _, Nat.le_refl _, rfl, id⟩

theorem State.setFld_keeps {s0 s : State} {f : Fld} {v : Nat} (h : Keeps s0 s) : Keeps s0 (s.setFld f v) :=
  h.trans ⟨rfl, fun w => tblWf_tblSet f.key _ w, id, id, fun _ => Nat.le_refl _, Nat.le_refl _, rfl, id⟩

theorem State.setCore_keeps {s0 s : State} {c : Nat} {k : Core} (h : Keeps s0 s) : Keeps s0 (s.setCore c k) :=
  h.trans ⟨rfl, id, id, id, fun _ => Nat.le_refl _, Nat.le_refl _, rfl, by simp⟩

theorem State.putBytes_keeps {s0 s : State} {a : Nat} {bs : List Byte} (h : Keeps s0 s) : Keeps s0 (s.putBytes a bs) :=
  h.trans ⟨rfl, id, fun w => putBytes_wf s a bs w, id, fun _ => Nat.le_refl _, Nat.le_refl _, rfl, id⟩

theorem keeps_ite {s0 a b : State} {c : Prop} [Decidable c] (ha : Keeps s0 a) (hb : Keeps s0 b) : Keeps s0 (if c then a else b) := by
  split
  · exact ha
  · exact hb

theorem keeps_foldl {α : Type} {s0 s : State} {l : List α} {g : State → α → State}
    (hg : ∀ a x, Keeps s0 a → Keeps s0 (g a x)) (h : Keeps s0 s) : Keeps s0 (l.foldl g s) := by
  induction l generalizing s with
  | nil => exact h
  | cons x xs ih => exact ih (hg s x h)

/-! ### States within results -/

/-- Whatever an option holds satisfies `P`. -/
def KOpt {α : Type} (P : α → Prop) (o : Option α) : Prop :=
  match o with
  | none => True
  | some x => P x

def KExc {ε α : Type} (P : α → Prop) (o : Except ε α) : Prop :=
  match o with
  | .error _ => True
  | .ok x => P x

/-- The outcome is a next state, and it keeps all. -/
def KRes (s0 : State) (r : Result) : Prop :=
  match r with
  | .next t => Keeps s0 t
  | .fault _ => False
  | .refused _ => False

def KGot {α : Type} (s0 : State) (r : Got α) : Prop :=
  match r with
  | .ok _ s => Keeps s0 s
  | .stop _ s => Keeps s0 s

def KAcc {α : Type} (s0 : State) (r : CoreAcc α) : Prop :=
  match r with
  | .ok _ s => Keeps s0 s
  | .trap _ s => Keeps s0 s

def KDma {α : Type} (s0 : State) (r : DmaAcc α) : Prop :=
  match r with
  | .ok _ s => Keeps s0 s
  | .bad _ _ s => Keeps s0 s

def KLook (s0 : State) (r : Looked) : Prop :=
  match r with
  | .use s => Keeps s0 s
  | .gone s => Keeps s0 s
  | .bad s => Keeps s0 s

def KPut (s0 : State) (r : Put) : Prop :=
  match r with
  | .done s => Keeps s0 s
  | .wait => True
  | .over s => Keeps s0 s

theorem kOpt_none {α : Type} {P : α → Prop} : KOpt P none := trivial
theorem kOpt_some {α : Type} {P : α → Prop} {x : α} (h : P x) : KOpt P (some x) := h
theorem kExc_error {ε α : Type} {P : α → Prop} {e : ε} : KExc P (.error e) := trivial
theorem kExc_ok {ε α : Type} {P : α → Prop} {x : α} (h : P x) : KExc P (.ok x : Except ε α) := h
theorem kRes_next {s0 t : State} (h : Keeps s0 t) : KRes s0 (.next t) := h
theorem kGot_ok {α : Type} {s0 t : State} {x : α} (h : Keeps s0 t) : KGot s0 (.ok x t) := h
theorem kGot_stop {α : Type} {s0 t : State} {c : Nat} (h : Keeps s0 t) : KGot s0 (.stop c t : Got α) := h
theorem kAcc_ok {α : Type} {s0 t : State} {x : α} (h : Keeps s0 t) : KAcc s0 (.ok x t) := h
theorem kAcc_trap {α : Type} {s0 t : State} {x : Trap} (h : Keeps s0 t) : KAcc s0 (.trap x t : CoreAcc α) := h
theorem kDma_ok {α : Type} {s0 t : State} {x : α} (h : Keeps s0 t) : KDma s0 (.ok x t) := h
theorem kDma_bad {α : Type} {s0 t : State} {c a : Nat} (h : Keeps s0 t) : KDma s0 (.bad c a t : DmaAcc α) := h
theorem kLook_use {s0 t : State} (h : Keeps s0 t) : KLook s0 (.use t) := h
theorem kLook_gone {s0 t : State} (h : Keeps s0 t) : KLook s0 (.gone t) := h
theorem kLook_bad {s0 t : State} (h : Keeps s0 t) : KLook s0 (.bad t) := h
theorem kPut_done {s0 t : State} (h : Keeps s0 t) : KPut s0 (.done t) := h
theorem kPut_wait {s0 : State} : KPut s0 .wait := trivial
theorem kPut_over {s0 t : State} (h : Keeps s0 t) : KPut s0 (.over t) := h

theorem kAcc_andThen {α β : Type} {s0 : State} {r : CoreAcc α} {f : α → State → CoreAcc β} (h : KAcc s0 r)
    (hf : ∀ a s, Keeps s0 s → KAcc s0 (f a s)) : KAcc s0 (r.andThen f) := by
  cases r with
  | ok a s => exact hf a s h
  | trap t s => exact h

theorem keeps_getD {s0 d : State} {o : Option State} (h : KOpt (fun x => Keeps s0 x) o) (hd : Keeps s0 d) : Keeps s0 (o.getD d) := by
  cases o with
  | none => exact hd
  | some x => exact h

end Sys2Proof.Machine
end

