-- ==== Sys2Proof/Laws/Keeps1.lean ====
section
/-! SUPPORT. Sys2Proof/Laws/Keeps1.lean: what each operation of Ops, Mem, Flow, NvmeBase, Code, Cache, DmaBase, Digest, Job, Out keeps (`Keeps`). -/

set_option Elab.async false
set_option linter.unusedVariables false

namespace Sys2Proof.Machine

/-! ### Ops -/

theorem State.raise_keeps {s0 : State} {s : State} {f : Fld} (h : Keeps s0 s) : Keeps s0 (State.raise s f) := by
  unfold State.raise
  (repeat' (first | with_reducible assumption | (with_reducible refine State.setFld_keeps ?_)))

theorem State.setFlds_keeps {s0 : State} {s : State} {y1 : List (Fld × Nat)} (h : Keeps s0 s) : Keeps s0 (State.setFlds s y1)
    := by
  fun_induction State.setFlds s y1 <;> (repeat' (first
    | (with_reducible refine State.setFld_keeps ?_) | with_reducible apply_assumption))

theorem State.clear_keeps {s0 : State} {s : State} {f : Fld} (h : Keeps s0 s) : Keeps s0 (State.clear s f) := by
  unfold State.clear
  (repeat' (first | with_reducible assumption | (with_reducible refine State.setFld_keeps ?_)))

theorem State.addWrap_keeps {s0 : State} {s : State} {f : Fld} {n : Nat} (h : Keeps s0 s) : Keeps s0 (State.addWrap s f n) := by
  unfold State.addWrap
  (repeat' (first | with_reducible assumption | (with_reducible refine State.setFld_keeps ?_)))

theorem State.fresh_keeps {s0 : State} {s : State} (h : Keeps s0 s) : Keeps s0 (State.fresh s).2 := by
  unfold State.fresh
  (repeat' (first | with_reducible assumption | fail_if_no_progress (with_reducible refine Keeps.upd ?_)))

theorem State.fresh_keeps_e {s0 : State} {s : State} {x0} {t : State} (h : Keeps s0 s) (e : State.fresh s = (x0, t)) : Keeps s0
    t := by
  have k := State.fresh_keeps (s0 := s0) (s := s) h
  rw [e] at k
  exact k

theorem State.addSat_keeps {s0 : State} {s : State} {f : Fld} {n : Nat} (h : Keeps s0 s) : Keeps s0 (State.addSat s f n) := by
  unfold State.addSat
  (repeat' (first | with_reducible assumption | (with_reducible refine State.setFld_keeps ?_)))

theorem State.capture_keeps {s0 : State} {s : State} {valid : Fld} {fs : List (Fld × Nat)} (h : Keeps s0 s) : Keeps s0
    (State.capture s valid fs) := by
  unfold State.capture
  (repeat' (first
    | with_reducible assumption | (with_reducible refine State.setFlds_keeps ?_) | (with_reducible refine State.raise_keeps ?_)
    | with_reducible refine keeps_ite ?_ ?_))

theorem State.setTile_keeps {s0 : State} {s : State} {t_ : Nat} {x : Tile} (h : Keeps s0 s) : Keeps s0 (State.setTile s t_ x)
    := by
  unfold State.setTile
  (repeat' (first | with_reducible assumption | fail_if_no_progress (with_reducible refine Keeps.upd ?_)))

theorem requestOn_keeps {s0 : State} {s : State} {b : BlockId} (h : Keeps s0 s) : Keeps s0 (requestOn s b) := by
  unfold requestOn
  (repeat' (first
    | with_reducible assumption | (with_reducible refine State.setFld_keeps ?_) | with_reducible refine keeps_ite ?_ ?_))

theorem setCfgErr_keeps {s0 : State} {s : State} {b : BlockId} (h : Keeps s0 s) : Keeps s0 (setCfgErr s b) := by
  unfold setCfgErr
  (repeat' (first | with_reducible assumption | (with_reducible refine State.raise_keeps ?_)))

theorem requestOff_keeps {s0 : State} {s : State} {b : BlockId} (h : Keeps s0 s) : Keeps s0 (requestOff s b) := by
  unfold requestOff
  (repeat' (first
    | with_reducible assumption | (with_reducible refine State.setFld_keeps ?_) | with_reducible refine keeps_ite ?_ ?_))

theorem setClaimErr_keeps {s0 : State} {s : State} {b : BlockId} (h : Keeps s0 s) : Keeps s0 (setClaimErr s b) := by
  unfold setClaimErr
  (repeat' (first | with_reducible assumption | (with_reducible refine State.raise_keeps ?_)))

theorem enablingEnds_keeps {s0 : State} {s : State} {b : BlockId} (h : Keeps s0 s) : Keeps s0 (enablingEnds s b) := by
  unfold enablingEnds
  (repeat' (first | with_reducible assumption | (with_reducible refine State.setFld_keeps ?_)))

theorem quiesceEnds_keeps {s0 : State} {s : State} {b : BlockId} (h : Keeps s0 s) : Keeps s0 (quiesceEnds s b) := by
  unfold quiesceEnds
  (repeat' (first | with_reducible assumption | (with_reducible refine State.setFld_keeps ?_)))

/-! ### Mem -/

theorem countDram_keeps {s0 : State} {s : State} {a : Nat} {kind : Nat} (h : Keeps s0 s) : Keeps s0 (countDram s a kind) := by
  unfold countDram
  (repeat' (first
    | with_reducible assumption | (with_reducible refine State.addSat_keeps ?_) | (with_reducible refine State.raise_keeps ?_)
    | (with_reducible refine State.capture_keeps ?_) | with_reducible refine keeps_ite ?_ ?_))

theorem countUe_keeps {s0 : State} {s : State} {k_ : Nat} (h : Keeps s0 s) : Keeps s0 (countUe s k_) := by
  unfold countUe
  (repeat' (first
    | with_reducible assumption | (with_reducible refine State.addSat_keeps ?_) | (with_reducible refine State.raise_keeps ?_)
    | (with_reducible refine State.capture_keeps ?_)))

theorem countCe_keeps {s0 : State} {s : State} {k_ : Nat} (h : Keeps s0 s) : Keeps s0 (countCe s k_) := by
  unfold countCe
  (repeat' (first
    | with_reducible assumption | (with_reducible refine State.addSat_keeps ?_) | (with_reducible refine State.raise_keeps ?_)
    | (with_reducible refine State.capture_keeps ?_)))

theorem noteWord_keeps {s0 : State} {s : State} {a : Nat} (h : Keeps s0 s) : Keeps s0 (noteWord s a).1 := by
  unfold noteWord
  (repeat' (first
    | with_reducible assumption | (with_reducible refine countDram_keeps ?_) | (with_reducible refine countUe_keeps ?_)
    | (with_reducible refine countCe_keeps ?_) | split))

theorem noteWord_keeps_e {s0 : State} {s : State} {a : Nat} {x0} {t : State} (h : Keeps s0 s) (e : noteWord s a = (t, x0)) :
    Keeps s0 t := by
  have k := noteWord_keeps (s0 := s0) (s := s) (a := a) h
  rw [e] at k
  exact k

theorem noteWords_keeps {s0 : State} {s : State} {w : Nat} {y2 : Nat} (h : Keeps s0 s) : Keeps s0 (noteWords s w y2).1 := by
  fun_induction noteWords s w y2 <;> (repeat' (first
    | (with_reducible refine noteWord_keeps_e ?_ (by assumption)) | with_reducible apply_assumption
    | fail_if_no_progress (simp_all only [])))

theorem noteWords_keeps_e {s0 : State} {s : State} {w : Nat} {y2 : Nat} {x0} {t : State} (h : Keeps s0 s) (e : noteWords s w y2
    = (t, x0)) : Keeps s0 t := by
  have k := noteWords_keeps (s0 := s0) (s := s) (w := w) (y2 := y2) h
  rw [e] at k
  exact k

theorem readRam_keeps {s0 : State} {s : State} {a : Nat} {n : Nat} (h : Keeps s0 s) : Keeps s0 (readRam s a n).2.1 := by
  unfold readRam
  (repeat' (first | with_reducible assumption | (with_reducible refine noteWords_keeps ?_) | split))

theorem readRam_keeps_e {s0 : State} {s : State} {a : Nat} {n : Nat} {x0 x1} {t : State} (h : Keeps s0 s) (e : readRam s a n =
    (x0, (t, x1))) : Keeps s0 t := by
  have k := readRam_keeps (s0 := s0) (s := s) (a := a) (n := n) h
  rw [e] at k
  exact k

theorem setSyn_keeps {s0 : State} {s : State} {a : Nat} {v : Nat} (h : Keeps s0 s) : Keeps s0 (setSyn s a v) := by
  unfold setSyn
  (repeat' (first | with_reducible assumption | split | fail_if_no_progress (with_reducible refine Keeps.upd ?_)))

theorem writeMerge_keeps {s0 : State} {s : State} {e_ : MergeEnt} (h : Keeps s0 s) : Keeps s0 (writeMerge s e_) := by
  unfold writeMerge
  (repeat' (first
    | with_reducible assumption | (with_reducible refine setSyn_keeps ?_) | (with_reducible refine State.raise_keeps ?_)
    | (with_reducible refine countUe_keeps ?_) | (with_reducible refine countCe_keeps ?_)
    | (with_reducible refine State.putBytes_keeps ?_) | with_reducible refine keeps_ite ?_ ?_ | split
    | fail_if_no_progress (with_reducible refine Keeps.upd ?_)))

theorem mergeWrite_keeps {s0 : State} {s : State} {w : Nat} {mask : Nat} {data : Nat} {owner : Option Nat} (h : Keeps s0 s) :
    Keeps s0 (mergeWrite s w mask data owner) := by
  unfold mergeWrite
  (repeat' (first
    | with_reducible assumption | (with_reducible refine writeMerge_keeps ?_) | with_reducible refine keeps_ite ?_ ?_ | split
    | fail_if_no_progress (with_reducible refine Keeps.upd ?_)))

theorem writeSramWord_keeps {s0 : State} {s : State} {w : Nat} {lo : Nat} {bs : List Byte} {owner : Option Nat} (h : Keeps s0
    s) : Keeps s0 (writeSramWord s w lo bs owner) := by
  unfold writeSramWord
  (repeat' (first
    | with_reducible assumption | (with_reducible refine setSyn_keeps ?_) | (with_reducible refine mergeWrite_keeps ?_)
    | (with_reducible refine State.putBytes_keeps ?_) | with_reducible refine keeps_ite ?_ ?_
    | fail_if_no_progress (with_reducible refine Keeps.upd ?_)))

theorem writeSram_keeps {s0 : State} {s : State} {a : Nat} {bs : List Byte} {owner : Option Nat} {y4 : Nat} (h : Keeps s0 s) :
    Keeps s0 (writeSram s a bs owner y4) := by
  fun_induction writeSram s a bs owner y4 <;> (repeat' (first
    | (with_reducible refine writeSramWord_keeps ?_) | with_reducible apply_assumption))

theorem setDramMark_keeps {s0 : State} {s : State} {a : Nat} {v : Nat} (h : Keeps s0 s) : Keeps s0 (setDramMark s a v) := by
  unfold setDramMark
  (repeat' (first | with_reducible assumption | fail_if_no_progress (with_reducible refine Keeps.upd ?_)))

theorem dramMarks_keeps {s0 : State} {s : State} {a : Nat} {n : Nat} {y3 : Nat} (h : Keeps s0 s) : Keeps s0 (dramMarks s a n
    y3) := by
  fun_induction dramMarks s a n y3 <;> (repeat' (first
    | with_reducible assumption | (with_reducible refine countDram_keeps ?_) | (with_reducible refine State.raise_keeps ?_)
    | (with_reducible refine setDramMark_keeps ?_)))

theorem writeRam_keeps {s0 : State} {s : State} {a : Nat} {bs : List Byte} {owner : Option Nat} (h : Keeps s0 s) : Keeps s0
    (writeRam s a bs owner) := by
  unfold writeRam
  (repeat' (first
    | with_reducible assumption | (with_reducible refine writeSram_keeps ?_) | (with_reducible refine dramMarks_keeps ?_)
    | (with_reducible refine State.putBytes_keeps ?_) | split))

theorem writeMem_keeps {s0 : State} {s : State} {a : Nat} {bs : List Byte} {owner : Option Nat} {tag : Nat} (h : Keeps s0 s) :
    Keeps s0 (writeMem s a bs owner tag) := by
  unfold writeMem
  (repeat' (first
    | with_reducible assumption | (with_reducible refine State.raise_keeps ?_) | (with_reducible refine writeRam_keeps ?_)
    | (with_reducible refine State.addWrap_keeps ?_) | with_reducible refine keeps_ite ?_ ?_))

theorem flushMergeList_keeps {s0 : State} {s : State} {y1 : List MergeEnt} (h : Keeps s0 s) : Keeps s0 (flushMergeList s y1) :=
    by
  fun_induction flushMergeList s y1 <;> (repeat' (first
    | (with_reducible refine writeMerge_keeps ?_) | with_reducible apply_assumption))

theorem flushMerge_keeps {s0 : State} {s : State} {p : MergeEnt → Bool} (h : Keeps s0 s) : Keeps s0 (flushMerge s p) := by
  unfold flushMerge
  (repeat' (first | with_reducible assumption | (with_reducible refine flushMergeList_keeps ?_)))

/-! ### Flow -/

theorem ctxPut_keeps {s0 : State} {s : State} {flow : Nat} {off : Nat} {bs : List Byte} (h : Keeps s0 s) : Keeps s0 (ctxPut s
    flow off bs) := by
  unfold ctxPut
  (repeat' (first | with_reducible assumption | (with_reducible refine writeRam_keeps ?_)))

theorem ctxSet_keeps {s0 : State} {s : State} {flow : Nat} {f : CtxFld} {v : Nat} (h : Keeps s0 s) : Keeps s0 (ctxSet s flow f
    v) := by
  unfold ctxSet
  (repeat' (first | with_reducible assumption | (with_reducible refine ctxPut_keeps ?_)))

theorem setDeque_keeps {s0 : State} {s : State} {t_ : Nat} {d : List (Nat × Nat)} (h : Keeps s0 s) : Keeps s0 (setDeque s t_ d)
    := by
  unfold setDeque
  (repeat' (first | with_reducible assumption | fail_if_no_progress (with_reducible refine Keeps.upd ?_)))

theorem updParcel_keeps {s0 : State} {s : State} {flow : Nat} {seq : Nat} {g : Parcel → Parcel} (h : Keeps s0 s) : Keeps s0
    (updParcel s flow seq g) := by
  unfold updParcel
  (repeat' (first | with_reducible assumption | fail_if_no_progress (with_reducible refine Keeps.upd ?_)))

theorem endBackoff_keeps {s0 : State} {s : State} {t_ : Nat} (h : Keeps s0 s) : Keeps s0 (endBackoff s t_) := by
  unfold endBackoff
  (repeat' (first | with_reducible assumption | fail_if_no_progress (with_reducible refine Keeps.upd ?_)))

theorem pushParcel_keeps {s0 : State} {s : State} {flow : Nat} {seq : Nat} (h : Keeps s0 s) : Keeps s0 (pushParcel s flow seq)
    := by
  unfold pushParcel
  (repeat' (first
    | with_reducible assumption | (with_reducible refine setDeque_keeps ?_) | (with_reducible refine updParcel_keeps ?_)
    | (with_reducible refine endBackoff_keeps ?_) | split | fail_if_no_progress (with_reducible refine Keeps.upd ?_)))

theorem redistribute_keeps {s0 : State} {s : State} {t_ : Nat} (h : Keeps s0 s) : Keeps s0 (redistribute s t_) := by
  unfold redistribute
  (repeat' (first
    | with_reducible assumption | (with_reducible refine setDeque_keeps ?_) | (with_reducible refine pushParcel_keeps ?_)
    | with_reducible refine keeps_foldl (fun _ _ _ => ?_) ?_))

theorem clearBlocked_keeps {s0 : State} {s : State} (h : Keeps s0 s) : Keeps s0 (clearBlocked s) := by
  unfold clearBlocked
  (repeat' (first | with_reducible assumption | fail_if_no_progress (with_reducible refine Keeps.upd ?_)))

theorem ctxAdd_keeps {s0 : State} {s : State} {flow : Nat} {f : CtxFld} {n : Nat} (h : Keeps s0 s) : Keeps s0 (ctxAdd s flow f
    n) := by
  unfold ctxAdd
  (repeat' (first | with_reducible assumption | (with_reducible refine ctxSet_keeps ?_)))

theorem failParcel_keeps {s0 : State} {s : State} {flow : Nat} {seq : Nat} {cause : Nat} (h : Keeps s0 s) : Keeps s0
    (failParcel s flow seq cause) := by
  unfold failParcel
  (repeat' (first
    | with_reducible assumption | (with_reducible refine ctxSet_keeps ?_) | (with_reducible refine State.raise_keeps ?_)
    | (with_reducible refine updParcel_keeps ?_) | (with_reducible refine ctxAdd_keeps ?_)
    | (with_reducible refine State.capture_keeps ?_) | split))

theorem discardFlow_keeps {s0 : State} {s : State} {flow : Nat} (h : Keeps s0 s) : Keeps s0 (discardFlow s flow) := by
  unfold discardFlow
  (repeat' (first | with_reducible assumption | fail_if_no_progress (with_reducible refine Keeps.upd ?_)))

theorem meterInterval_keeps {s0 : State} {s : State} (h : Keeps s0 s) : Keeps s0 (meterInterval s) := by
  unfold meterInterval
  (repeat' (first | with_reducible assumption | fail_if_no_progress (with_reducible refine Keeps.upd ?_)))

theorem ctxAdd64_keeps {s0 : State} {s : State} {flow : Nat} {off : Nat} {n : Nat} (h : Keeps s0 s) : Keeps s0 (ctxAdd64 s flow
    off n) := by
  unfold ctxAdd64
  (repeat' (first | with_reducible assumption | (with_reducible refine ctxPut_keeps ?_)))

theorem parcelLanded_keeps {s0 : State} {s : State} {flow : Nat} {seq : Nat} {len : Nat} (h : Keeps s0 s) : Keeps s0
    (parcelLanded s flow seq len) := by
  unfold parcelLanded
  (repeat' (first
    | with_reducible assumption | (with_reducible refine ctxAdd64_keeps ?_) | (with_reducible refine pushParcel_keeps ?_)))

theorem noteBlocked_keeps {s0 : State} {s : State} {flow : Nat} {seq : Nat} {len : Nat} {fab : Bool} {why : Block} (h : Keeps
    s0 s) : Keeps s0 (noteBlocked s flow seq len fab why) := by
  unfold noteBlocked
  (repeat' (first
    | with_reducible assumption | (with_reducible refine State.raise_keeps ?_) | split
    | fail_if_no_progress (with_reducible refine Keeps.upd ?_)))

theorem cutParcel_keeps {s0 : State} {s : State} {flow : Nat} {seq : Nat} {len : Nat} {part : Nat} {src : Source} (h : Keeps s0
    s) : KOpt (fun x => Keeps s0 x) (cutParcel s flow seq len part src) := by
  unfold cutParcel
  (repeat' (first
    | with_reducible assumption | (with_reducible refine State.raise_keeps ?_) | with_reducible exact kOpt_none
    | with_reducible refine kOpt_some ?_ | dsimp only | split | fail_if_no_progress (with_reducible refine Keeps.upd ?_)))

theorem cutParcel_keeps_e {s0 : State} {s : State} {flow : Nat} {seq : Nat} {len : Nat} {part : Nat} {src : Source} {t : State}
    (h : Keeps s0 s) (e : cutParcel s flow seq len part src = .some t) : Keeps s0 t := by
  have k := cutParcel_keeps (s0 := s0) (s := s) (flow := flow) (seq := seq) (len := len) (part := part) (src := src) h
  rw [e] at k
  exact k

/-! ### NvmeBase -/

theorem setCtrl_keeps {s0 : State} {s : State} {c : Nat} {x : Ctrl} (h : Keeps s0 s) : Keeps s0 (setCtrl s c x) := by
  unfold setCtrl
  (repeat' (first | with_reducible assumption | fail_if_no_progress (with_reducible refine Keeps.upd ?_)))

theorem updCmd_keeps {s0 : State} {s : State} {id : Nat} {g : Cmd → Cmd} (h : Keeps s0 s) : Keeps s0 (updCmd s id g) := by
  unfold updCmd
  (repeat' (first | with_reducible assumption | fail_if_no_progress (with_reducible refine Keeps.upd ?_)))

theorem deliverEvent_keeps {s0 : State} {s : State} {ctrl : Nat} {e_ : AEvent} (h : Keeps s0 s) : Keeps s0 (deliverEvent s ctrl
    e_) := by
  unfold deliverEvent
  (repeat' (first
    | with_reducible assumption | (with_reducible refine setCtrl_keeps ?_) | (with_reducible refine updCmd_keeps ?_)
    | with_reducible refine keeps_ite ?_ ?_ | split))

theorem notify_keeps {s0 : State} {s : State} {kind : Nat} {info : Nat} {page : Nat} (h : Keeps s0 s) : Keeps s0 (notify s kind
    info page) := by
  unfold notify
  (repeat' (first
    | with_reducible assumption | (with_reducible refine deliverEvent_keeps ?_) | with_reducible refine keeps_ite ?_ ?_
    | with_reducible refine keeps_foldl (fun _ _ _ => ?_) ?_))

theorem notifyVendor_keeps {s0 : State} {s : State} {page : Nat} (h : Keeps s0 s) : Keeps s0 (notifyVendor s page) := by
  unfold notifyVendor
  (repeat' (first | with_reducible assumption | (with_reducible refine notify_keeps ?_)))

theorem setWarn_keeps {s0 : State} {s : State} {bit : Nat} (h : Keeps s0 s) : Keeps s0 (setWarn s bit) := by
  unfold setWarn
  (repeat' (first
    | with_reducible assumption | (with_reducible refine notify_keeps ?_) | with_reducible refine keeps_ite ?_ ?_
    | fail_if_no_progress (with_reducible refine Keeps.upd ?_)))

theorem clearWarn_keeps {s0 : State} {s : State} {bit : Nat} (h : Keeps s0 s) : Keeps s0 (clearWarn s bit) := by
  unfold clearWarn
  (repeat' (first
    | with_reducible assumption | with_reducible refine keeps_ite ?_ ?_
    | fail_if_no_progress (with_reducible refine Keeps.upd ?_)))

theorem failCmd_keeps {s0 : State} {s : State} {id : Nat} {st : Nat} (h : Keeps s0 s) : Keeps s0 (failCmd s id st) := by
  unfold failCmd
  (repeat' (first | with_reducible assumption | (with_reducible refine updCmd_keeps ?_)))

/-! ### Code -/

theorem csDataRead_keeps {s0 : State} {s : State} {a : Nat} {n : Nat} {src : Nat} (h : Keeps s0 s) : Keeps s0 (csDataRead s a n
    src).2 := by
  unfold csDataRead
  (repeat' (first
    | with_reducible assumption | (with_reducible refine State.fresh_keeps ?_) | (with_reducible refine State.raise_keeps ?_)
    | (with_reducible refine State.addWrap_keeps ?_) | (with_reducible refine State.capture_keeps ?_) | split))

theorem csDataRead_keeps_e {s0 : State} {s : State} {a : Nat} {n : Nat} {src : Nat} {x0} {t : State} (h : Keeps s0 s) (e :
    csDataRead s a n src = (x0, t)) : Keeps s0 t := by
  have k := csDataRead_keeps (s0 := s0) (s := s) (a := a) (n := n) (src := src) h
  rw [e] at k
  exact k

theorem readGlobal_keeps {s0 : State} {s : State} {a : Nat} {n : Nat} {src : Nat} (h : Keeps s0 s) : KOpt (fun x => Keeps s0
    x.2.1) (readGlobal s a n src) := by
  unfold readGlobal
  (repeat' (first
    | with_reducible assumption | (with_reducible refine readRam_keeps ?_) | (with_reducible refine csDataRead_keeps ?_)
    | with_reducible exact kOpt_none | with_reducible refine kOpt_some ?_ | dsimp only | split))

theorem readGlobal_keeps_e {s0 : State} {s : State} {a : Nat} {n : Nat} {src : Nat} {x10 x11} {t : State} (h : Keeps s0 s) (e :
    readGlobal s a n src = .some (x10, (t, x11))) : Keeps s0 t := by
  have k := readGlobal_keeps (s0 := s0) (s := s) (a := a) (n := n) (src := src) h
  rw [e] at k
  exact k

theorem writeGlobal_keeps {s0 : State} {s : State} {a : Nat} {bs : List Byte} (h : Keeps s0 s) : KOpt (fun x => Keeps s0 x)
    (writeGlobal s a bs) := by
  unfold writeGlobal
  (repeat' (first
    | with_reducible assumption | (with_reducible refine writeMem_keeps ?_) | with_reducible exact kOpt_none
    | with_reducible refine kOpt_some ?_ | split))

theorem writeGlobal_keeps_e {s0 : State} {s : State} {a : Nat} {bs : List Byte} {t : State} (h : Keeps s0 s) (e : writeGlobal s
    a bs = .some t) : Keeps s0 t := by
  have k := writeGlobal_keeps (s0 := s0) (s := s) (a := a) (bs := bs) h
  rw [e] at k
  exact k

/-! ### Cache -/

theorem coreWrite_keeps {s0 : State} {s : State} {c : Nat} {a : Nat} {bs : List Byte} (h : Keeps s0 s) : Keeps s0 (coreWrite s
    c a bs) := by
  unfold coreWrite
  (repeat' (first
    | with_reducible assumption | (with_reducible refine writeMem_keeps ?_) | (with_reducible refine setCfgErr_keeps ?_)
    | with_reducible refine keeps_ite ?_ ?_))

theorem storeLine_keeps {s0 : State} {s : State} {c : Nat} {e_ : EvEnt} (h : Keeps s0 s) : Keeps s0 (storeLine s c e_) := by
  unfold storeLine
  (repeat' (first
    | with_reducible assumption | (with_reducible refine setSyn_keeps ?_) | (with_reducible refine coreWrite_keeps ?_)
    | (with_reducible refine State.raise_keeps ?_) | (with_reducible refine setCfgErr_keeps ?_)
    | (with_reducible refine setDramMark_keeps ?_) | (with_reducible refine State.putBytes_keeps ?_)
    | with_reducible refine keeps_foldl (fun _ _ _ => ?_) ?_ | split))

theorem evictHead_keeps {s0 : State} {s : State} {c : Nat} (h : Keeps s0 s) : Keeps s0 (evictHead s c) := by
  unfold evictHead
  (repeat' (first
    | with_reducible assumption | (with_reducible refine storeLine_keeps ?_) | (with_reducible refine State.setCore_keeps ?_)
    | split))

theorem evictPush_keeps {s0 : State} {s : State} {c : Nat} {l : Line} (h : Keeps s0 s) : Keeps s0 (evictPush s c l) := by
  unfold evictPush
  (repeat' (first
    | with_reducible assumption | (with_reducible refine evictHead_keeps ?_) | (with_reducible refine State.setCore_keeps ?_)
    | with_reducible refine keeps_ite ?_ ?_))

theorem cleanSlot_keeps {s0 : State} {s : State} {c : Nat} {slot : Nat} (h : Keeps s0 s) : Keeps s0 (cleanSlot s c slot) := by
  unfold cleanSlot
  (repeat' (first
    | with_reducible assumption | (with_reducible refine State.setCore_keeps ?_) | (with_reducible refine evictPush_keeps ?_)
    | split))

theorem cleanAll_keeps {s0 : State} {s : State} {c : Nat} (h : Keeps s0 s) : Keeps s0 (cleanAll s c) := by
  unfold cleanAll
  (repeat' (first
    | with_reducible assumption | (with_reducible refine cleanSlot_keeps ?_)
    | with_reducible refine keeps_foldl (fun _ _ _ => ?_) ?_))

theorem evictAll_keeps {s0 : State} {s : State} {c : Nat} {y2 : Nat} (h : Keeps s0 s) : Keeps s0 (evictAll s c y2) := by
  fun_induction evictAll s c y2 <;> (repeat' (first
    | (with_reducible refine evictHead_keeps ?_) | with_reducible apply_assumption))

theorem dropAll_keeps {s0 : State} {s : State} {c : Nat} (h : Keeps s0 s) : Keeps s0 (dropAll s c) := by
  unfold dropAll
  (repeat' (first | with_reducible assumption | (with_reducible refine State.setCore_keeps ?_)))

theorem dropAllI_keeps {s0 : State} {s : State} {c : Nat} (h : Keeps s0 s) : Keeps s0 (dropAllI s c) := by
  unfold dropAllI
  (repeat' (first | with_reducible assumption | (with_reducible refine State.setCore_keeps ?_)))

theorem resetCaches_keeps {s0 : State} {s : State} {c : Nat} (h : Keeps s0 s) : Keeps s0 (resetCaches s c) := by
  unfold resetCaches
  (repeat' (first
    | with_reducible assumption | (with_reducible refine cleanAll_keeps ?_) | (with_reducible refine State.setFlds_keeps ?_)
    | (with_reducible refine evictAll_keeps ?_) | (with_reducible refine dropAll_keeps ?_)
    | (with_reducible refine dropAllI_keeps ?_)))

theorem cacheErr_keeps {s0 : State} {s : State} {c : Nat} (h : Keeps s0 s) : Keeps s0 (cacheErr s c) := by
  unfold cacheErr
  (repeat' (first
    | with_reducible assumption | (with_reducible refine State.raise_keeps ?_) | with_reducible refine keeps_ite ?_ ?_))

theorem dropSlot_keeps {s0 : State} {s : State} {c : Nat} {slot : Nat} (h : Keeps s0 s) : Keeps s0 (dropSlot s c slot) := by
  unfold dropSlot
  (repeat' (first | with_reducible assumption | (with_reducible refine State.setCore_keeps ?_)))

theorem makeRoom_keeps {s0 : State} {s : State} {c : Nat} {a : Nat} (h : Keeps s0 s) : Keeps s0 (makeRoom s c a).1 := by
  unfold makeRoom
  (repeat' (first
    | with_reducible assumption | (with_reducible refine dropSlot_keeps ?_) | (with_reducible refine evictPush_keeps ?_)
    | dsimp only | split))

theorem makeRoom_keeps_e {s0 : State} {s : State} {c : Nat} {a : Nat} {x0} {t : State} (h : Keeps s0 s) (e : makeRoom s c a =
    (t, x0)) : Keeps s0 t := by
  have k := makeRoom_keeps (s0 := s0) (s := s) (c := c) (a := a) h
  rw [e] at k
  exact k

theorem dropISlot_keeps {s0 : State} {s : State} {c : Nat} {slot : Nat} (h : Keeps s0 s) : Keeps s0 (dropISlot s c slot) := by
  unfold dropISlot
  (repeat' (first | with_reducible assumption | (with_reducible refine State.setCore_keeps ?_)))

theorem makeRoomI_keeps {s0 : State} {s : State} {c : Nat} {a : Nat} (h : Keeps s0 s) : Keeps s0 (makeRoomI s c a).1 := by
  unfold makeRoomI
  (repeat' (first | with_reducible assumption | (with_reducible refine dropISlot_keeps ?_)))

theorem makeRoomI_keeps_e {s0 : State} {s : State} {c : Nat} {a : Nat} {x0} {t : State} (h : Keeps s0 s) (e : makeRoomI s c a =
    (t, x0)) : Keeps s0 t := by
  have k := makeRoomI_keeps (s0 := s0) (s := s) (c := c) (a := a) h
  rw [e] at k
  exact k

/-! ### DmaBase -/

theorem setDma_keeps {s0 : State} {s : State} {ch : Nat} {x : DmaCh} (h : Keeps s0 s) : Keeps s0 (setDma s ch x) := by
  unfold setDma
  (repeat' (first | with_reducible assumption | fail_if_no_progress (with_reducible refine Keeps.upd ?_)))

theorem setDmaState_keeps {s0 : State} {s : State} {ch : Nat} {v : Nat} (h : Keeps s0 s) : Keeps s0 (setDmaState s ch v) := by
  unfold setDmaState
  (repeat' (first | with_reducible assumption | (with_reducible refine State.setFld_keeps ?_)))

theorem dmaStartPause_keeps {s0 : State} {s : State} {ch : Nat} (h : Keeps s0 s) : Keeps s0 (dmaStartPause s ch) := by
  unfold dmaStartPause
  (repeat' (first
    | with_reducible assumption | (with_reducible refine setDmaState_keeps ?_) | (with_reducible refine setDma_keeps ?_)
    | with_reducible refine keeps_ite ?_ ?_))

theorem dmaDisable_keeps {s0 : State} {s : State} (h : Keeps s0 s) : Keeps s0 (dmaDisable s) := by
  unfold dmaDisable
  (repeat' (first
    | with_reducible assumption | (with_reducible refine setDma_keeps ?_) | (with_reducible refine dmaStartPause_keeps ?_)
    | with_reducible refine keeps_ite ?_ ?_ | with_reducible refine keeps_foldl (fun _ _ _ => ?_) ?_))

theorem setDmaErra_keeps {s0 : State} {s : State} {ch : Nat} {a : Nat} (h : Keeps s0 s) : Keeps s0 (setDmaErra s ch a) := by
  unfold setDmaErra
  (repeat' (first | with_reducible assumption | (with_reducible refine State.setFlds_keeps ?_)))

theorem setDmaPc_keeps {s0 : State} {s : State} {ch : Nat} {a : Nat} (h : Keeps s0 s) : Keeps s0 (setDmaPc s ch a) := by
  unfold setDmaPc
  (repeat' (first | with_reducible assumption | (with_reducible refine State.setFlds_keeps ?_)))

theorem dmaGoOn_keeps {s0 : State} {s : State} {ch : Nat} {next : Nat} (h : Keeps s0 s) : Keeps s0 (dmaGoOn s ch next) := by
  unfold dmaGoOn
  (repeat' (first
    | with_reducible assumption | (with_reducible refine setDmaState_keeps ?_) | (with_reducible refine setDma_keeps ?_)
    | (with_reducible refine State.setFld_keeps ?_) | (with_reducible refine setDmaPc_keeps ?_)
    | (with_reducible refine State.raise_keeps ?_) | split))

theorem dmaDrainWrites_keeps {s0 : State} {s : State} {ch : Nat} (h : Keeps s0 s) : Keeps s0 (dmaDrainWrites s ch) := by
  unfold dmaDrainWrites
  (repeat' (first | with_reducible assumption | (with_reducible refine flushMerge_keeps ?_)))

theorem dmaAppend_keeps {s0 : State} {s : State} {ch : Nat} {q : Nat} {tag : Nat} {status : Nat} (h : Keeps s0 s) : Keeps s0
    (dmaAppend s ch q tag status) := by
  unfold dmaAppend
  (repeat' (first
    | with_reducible assumption | (with_reducible refine writeGlobal_keeps ?_) | (with_reducible refine State.setFlds_keeps ?_)
    | (with_reducible refine State.raise_keeps ?_) | with_reducible refine keeps_getD ?_ ?_))

theorem ringDoorbell_keeps {s0 : State} {s : State} {t_ : Nat} {v : Nat} (h : Keeps s0 s) : Keeps s0 (ringDoorbell s t_ v) := by
  unfold ringDoorbell
  (repeat' (first
    | with_reducible assumption | (with_reducible refine State.setFld_keeps ?_)
    | (with_reducible refine State.raise_keeps ?_)))

theorem dmaTileRecord_keeps {s0 : State} {s : State} {ch : Nat} {t_ : Nat} {tag : Nat} {status : Nat} (h : Keeps s0 s) : Keeps
    s0 (dmaTileRecord s ch t_ tag status) := by
  unfold dmaTileRecord
  (repeat' (first
    | with_reducible assumption | (with_reducible refine writeMem_keeps ?_) | (with_reducible refine State.setFld_keeps ?_)
    | (with_reducible refine ringDoorbell_keeps ?_) | (with_reducible refine dmaDrainWrites_keeps ?_)))

theorem dmaRecord_keeps {s0 : State} {s : State} {ch : Nat} {tag : Nat} {status : Nat} {next : Nat} (h : Keeps s0 s) : Keeps s0
    (dmaRecord s ch tag status next) := by
  unfold dmaRecord
  (repeat' (first
    | with_reducible assumption | (with_reducible refine setDmaState_keeps ?_) | (with_reducible refine setDma_keeps ?_)
    | (with_reducible refine State.raise_keeps ?_) | (with_reducible refine dmaGoOn_keeps ?_)
    | (with_reducible refine dmaDrainWrites_keeps ?_) | (with_reducible refine dmaAppend_keeps ?_)
    | (with_reducible refine dmaTileRecord_keeps ?_) | with_reducible refine keeps_ite ?_ ?_))

theorem dmaFail_keeps {s0 : State} {s : State} {ch : Nat} {status : Nat} {at? : Option Nat} (h : Keeps s0 s) : Keeps s0
    (dmaFail s ch status at?) := by
  unfold dmaFail
  (repeat' (first
    | with_reducible assumption | (with_reducible refine setDma_keeps ?_) | (with_reducible refine State.fresh_keeps ?_)
    | (with_reducible refine State.setFlds_keeps ?_) | (with_reducible refine setDmaErra_keeps ?_)
    | (with_reducible refine dmaRecord_keeps ?_) | split))

theorem dmaEndAborted_keeps {s0 : State} {s : State} {ch : Nat} (h : Keeps s0 s) : Keeps s0 (dmaEndAborted s ch) := by
  unfold dmaEndAborted
  (repeat' (first
    | with_reducible assumption | (with_reducible refine dmaFail_keeps ?_) | (with_reducible refine State.setFld_keeps ?_)))

theorem dmaAbort_keeps {s0 : State} {s : State} {ch : Nat} (h : Keeps s0 s) : Keeps s0 (dmaAbort s ch) := by
  unfold dmaAbort
  (repeat' (first
    | with_reducible assumption | (with_reducible refine setDma_keeps ?_) | (with_reducible refine dmaStartPause_keeps ?_)
    | (with_reducible refine dmaEndAborted_keeps ?_) | with_reducible refine keeps_ite ?_ ?_ | split))

theorem dmaTileAbort_keeps {s0 : State} {s : State} {t_ : Nat} (h : Keeps s0 s) : Keeps s0 (dmaTileAbort s t_) := by
  unfold dmaTileAbort
  (repeat' (first
    | with_reducible assumption | (with_reducible refine dmaAbort_keeps ?_) | with_reducible refine keeps_ite ?_ ?_
    | with_reducible refine keeps_foldl (fun _ _ _ => ?_) ?_))

theorem dmaRefuse_keeps {s0 : State} {s : State} {who : Who} (h : Keeps s0 s) : Keeps s0 (dmaRefuse s who) := by
  unfold dmaRefuse
  (repeat' (first
    | with_reducible assumption | (with_reducible refine setClaimErr_keeps ?_) | with_reducible refine keeps_ite ?_ ?_))

theorem dmaRelease_keeps {s0 : State} {s : State} {ch : Nat} {who : Who} (h : Keeps s0 s) : Keeps s0 (dmaRelease s ch who) := by
  unfold dmaRelease
  (repeat' (first
    | with_reducible assumption | (with_reducible refine dmaRefuse_keeps ?_) | (with_reducible refine State.setFlds_keeps ?_)
    | with_reducible refine keeps_ite ?_ ?_))

theorem dmaResume_keeps {s0 : State} {s : State} {ch : Nat} (h : Keeps s0 s) : Keeps s0 (dmaResume s ch) := by
  unfold dmaResume
  (repeat' (first
    | with_reducible assumption | (with_reducible refine setDmaState_keeps ?_) | (with_reducible refine setDma_keeps ?_)))

theorem dmaUnpause_keeps {s0 : State} {s : State} {ch : Nat} (h : Keeps s0 s) : Keeps s0 (dmaUnpause s ch) := by
  unfold dmaUnpause
  (repeat' (first
    | with_reducible assumption | (with_reducible refine setDma_keeps ?_) | (with_reducible refine State.setFld_keeps ?_)
    | (with_reducible refine dmaResume_keeps ?_) | with_reducible refine keeps_ite ?_ ?_))

theorem dmaClaim_keeps {s0 : State} {s : State} {ch : Nat} {who : Who} (h : Keeps s0 s) : Keeps s0 (dmaClaim s ch who) := by
  unfold dmaClaim
  (repeat' (first
    | with_reducible assumption | (with_reducible refine dmaRefuse_keeps ?_) | (with_reducible refine State.setFlds_keeps ?_)
    | with_reducible refine keeps_ite ?_ ?_))

theorem dmaPause_keeps {s0 : State} {s : State} {ch : Nat} (h : Keeps s0 s) : Keeps s0 (dmaPause s ch) := by
  unfold dmaPause
  (repeat' (first
    | with_reducible assumption | (with_reducible refine State.setFld_keeps ?_)
    | (with_reducible refine dmaStartPause_keeps ?_)))

theorem dmaGo_keeps {s0 : State} {s : State} {ch : Nat} {who : Who} (h : Keeps s0 s) : Keeps s0 (dmaGo s ch who) := by
  unfold dmaGo
  (repeat' (first
    | with_reducible assumption | (with_reducible refine dmaRefuse_keeps ?_) | (with_reducible refine setDmaState_keeps ?_)
    | (with_reducible refine setDma_keeps ?_) | (with_reducible refine dmaFail_keeps ?_)
    | (with_reducible refine State.setFlds_keeps ?_) | (with_reducible refine setDmaPc_keeps ?_)
    | with_reducible refine keeps_ite ?_ ?_))

theorem dmaResumeRecords_keeps {s0 : State} {s : State} {q : Nat} {y2 : Nat} (h : Keeps s0 s) : Keeps s0 (dmaResumeRecords s q
    y2) := by
  fun_induction dmaResumeRecords s q y2 <;> (repeat' (first
    | (with_reducible refine dmaGoOn_keeps ?_) | (with_reducible refine dmaAppend_keeps ?_) | with_reducible apply_assumption))

theorem dmaHeadWrite_keeps {s0 : State} {s : State} {q : Nat} {v : Nat} (h : Keeps s0 s) : Keeps s0 (dmaHeadWrite s q v) := by
  unfold dmaHeadWrite
  (repeat' (first
    | with_reducible assumption | (with_reducible refine State.setFld_keeps ?_)
    | (with_reducible refine dmaResumeRecords_keeps ?_)))

theorem dmaEventSet_keeps {s0 : State} {s : State} {n : Nat} {v : Nat} (h : Keeps s0 s) : Keeps s0 (dmaEventSet s n v) := by
  unfold dmaEventSet
  (repeat' (first | with_reducible assumption | (with_reducible refine State.setFld_keeps ?_)))

theorem dmaKick_keeps {s0 : State} {s : State} {ch : Nat} (h : Keeps s0 s) : Keeps s0 (dmaKick s ch) := by
  unfold dmaKick
  (repeat' (first
    | with_reducible assumption | (with_reducible refine setDmaState_keeps ?_) | with_reducible refine keeps_ite ?_ ?_))

theorem dmaSetEvent_keeps {s0 : State} {s : State} {e_ : Nat} (h : Keeps s0 s) : Keeps s0 (dmaSetEvent s e_) := by
  unfold dmaSetEvent
  (repeat' (first | with_reducible assumption | (with_reducible refine State.setFld_keeps ?_)))

theorem dmaClearEvent_keeps {s0 : State} {s : State} {e_ : Nat} (h : Keeps s0 s) : Keeps s0 (dmaClearEvent s e_) := by
  unfold dmaClearEvent
  (repeat' (first | with_reducible assumption | (with_reducible refine State.setFld_keeps ?_)))

theorem dmaWake_keeps {s0 : State} {s : State} {e_ : Nat} (h : Keeps s0 s) : Keeps s0 (dmaWake s e_) := by
  unfold dmaWake
  (repeat' (first
    | with_reducible assumption | (with_reducible refine setDmaState_keeps ?_) | (with_reducible refine setDma_keeps ?_)
    | (with_reducible refine setDmaPc_keeps ?_) | (with_reducible refine dmaClearEvent_keeps ?_)
    | with_reducible refine keeps_ite ?_ ?_ | with_reducible refine keeps_foldl (fun _ _ _ => ?_) ?_))

theorem execDmaWaitWake_keeps {s0 : State} {e_ : Fin 64} {s : State} (h : Keeps s0 s) : KRes s0 (execDmaWaitWake e_ s) := by
  unfold execDmaWaitWake
  (repeat' (first | with_reducible assumption | (with_reducible refine dmaWake_keeps ?_) | with_reducible refine kRes_next ?_))

theorem execDmaEventSet_keeps {s0 : State} {n : Fin 2} {v : BitVec 32} {s : State} (h : Keeps s0 s) : KRes s0 (execDmaEventSet
    n v s) := by
  unfold execDmaEventSet
  (repeat' (first
    | with_reducible assumption | (with_reducible refine dmaEventSet_keeps ?_) | with_reducible refine kRes_next ?_))

theorem dmaEnable_keeps {s0 : State} {s : State} (h : Keeps s0 s) : Keeps s0 (dmaEnable s) := by
  unfold dmaEnable
  (repeat' (first
    | with_reducible assumption | (with_reducible refine setDma_keeps ?_) | (with_reducible refine dmaResume_keeps ?_)
    | with_reducible refine keeps_ite ?_ ?_ | with_reducible refine keeps_foldl (fun _ _ _ => ?_) ?_))

theorem dmaName_keeps {s0 : State} {s : State} {v : DmaVia} {ch : Nat} (h : Keeps s0 s) : Keeps s0 (dmaName s v ch) := by
  unfold dmaName
  (repeat' (first | with_reducible assumption | (with_reducible refine State.setFld_keeps ?_) | split))

theorem execDmaClaim_keeps {s0 : State} {vs : List DmaVia} {ch : Fin 64} {s : State} (h : Keeps s0 s) : KRes s0 (execDmaClaim
    vs ch s) := by
  unfold execDmaClaim
  (repeat' (first
    | with_reducible assumption | (with_reducible refine dmaName_keeps ?_) | (with_reducible refine dmaClaim_keeps ?_)
    | with_reducible refine kRes_next ?_ | with_reducible refine keeps_foldl (fun _ _ _ => ?_) ?_))

theorem dmaDrained_keeps {s0 : State} {s : State} {ch : Nat} (h : Keeps s0 s) : Keeps s0 (dmaDrained s ch) := by
  unfold dmaDrained
  (repeat' (first
    | with_reducible assumption | (with_reducible refine setDmaState_keeps ?_) | (with_reducible refine dmaResume_keeps ?_)
    | (with_reducible refine dmaEndAborted_keeps ?_) | with_reducible refine keeps_ite ?_ ?_))

theorem execDmaPauseDrained_keeps {s0 : State} {ch : Fin 64} {s : State} (h : Keeps s0 s) : KRes s0 (execDmaPauseDrained ch s)
    := by
  unfold execDmaPauseDrained
  (repeat' (first
    | with_reducible assumption | (with_reducible refine dmaDrained_keeps ?_) | with_reducible refine kRes_next ?_))

theorem execDmaWaitTimeout_keeps {s0 : State} {ch : Fin 64} {s : State} (h : Keeps s0 s) : KRes s0 (execDmaWaitTimeout ch s) :=
    by
  unfold execDmaWaitTimeout
  (repeat' (first
    | with_reducible assumption | (with_reducible refine dmaFail_keeps ?_) | with_reducible refine kRes_next ?_ | split))

theorem dmaDrive_keeps {s0 : State} {s : State} {v : DmaVia} {ch : Nat} {f : State → State} (h : Keeps s0 s) (h_f : ∀ z0, Keeps
    s0 z0 → Keeps s0 (f z0)) : Keeps s0 (dmaDrive s v ch f) := by
  unfold dmaDrive
  (repeat' (first
    | (with_reducible refine dmaRefuse_keeps ?_) | with_reducible refine keeps_ite ?_ ?_ | with_reducible apply_assumption))

theorem execDmaAbort_keeps {s0 : State} {v : DmaVia} {ch : Fin 64} {s : State} (h : Keeps s0 s) : KRes s0 (execDmaAbort v ch s)
    := by
  unfold execDmaAbort
  (repeat' (first
    | with_reducible assumption | (with_reducible refine dmaAbort_keeps ?_) | (with_reducible refine dmaName_keeps ?_)
    | (with_reducible refine dmaDrive_keeps ?_ ?_) | with_reducible refine kRes_next ?_ | intro _))

theorem execDmaUnpause_keeps {s0 : State} {v : DmaVia} {ch : Fin 64} {s : State} (h : Keeps s0 s) : KRes s0 (execDmaUnpause v
    ch s) := by
  unfold execDmaUnpause
  (repeat' (first
    | with_reducible assumption | (with_reducible refine dmaUnpause_keeps ?_) | (with_reducible refine dmaName_keeps ?_)
    | (with_reducible refine dmaDrive_keeps ?_ ?_) | with_reducible refine kRes_next ?_ | intro _))

theorem execDmaGo_keeps {s0 : State} {v : DmaVia} {ch : Fin 64} {s : State} (h : Keeps s0 s) : KRes s0 (execDmaGo v ch s) := by
  unfold execDmaGo
  (repeat' (first
    | with_reducible assumption | (with_reducible refine dmaName_keeps ?_) | (with_reducible refine State.setFlds_keeps ?_)
    | (with_reducible refine dmaGo_keeps ?_) | (with_reducible refine dmaDrive_keeps ?_ ?_)
    | with_reducible refine kRes_next ?_ | intro _ | split))

theorem execDmaPause_keeps {s0 : State} {v : DmaVia} {ch : Fin 64} {s : State} (h : Keeps s0 s) : KRes s0 (execDmaPause v ch s)
    := by
  unfold execDmaPause
  (repeat' (first
    | with_reducible assumption | (with_reducible refine dmaName_keeps ?_) | (with_reducible refine dmaPause_keeps ?_)
    | (with_reducible refine dmaDrive_keeps ?_ ?_) | with_reducible refine kRes_next ?_ | intro _))

theorem execDmaKick_keeps {s0 : State} {rq : Requester} {ch : Fin 64} {s : State} (h : Keeps s0 s) : KRes s0 (execDmaKick rq ch
    s) := by
  unfold execDmaKick
  (repeat' (first
    | with_reducible assumption | (with_reducible refine dmaDrive_keeps ?_ ?_) | (with_reducible refine dmaKick_keeps ?_)
    | with_reducible refine kRes_next ?_ | intro _))

theorem execDmaRelease_keeps {s0 : State} {v : DmaVia} {ch : Fin 64} {s : State} (h : Keeps s0 s) : KRes s0 (execDmaRelease v
    ch s) := by
  unfold execDmaRelease
  (repeat' (first
    | with_reducible assumption | (with_reducible refine dmaRefuse_keeps ?_) | (with_reducible refine dmaRelease_keeps ?_)
    | (with_reducible refine dmaName_keeps ?_) | with_reducible refine kRes_next ?_ | with_reducible refine keeps_ite ?_ ?_))

theorem execDmaCqHeadWrite_keeps {s0 : State} {q : Fin 8} {v : BitVec 16} {s : State} (h : Keeps s0 s) : KRes s0
    (execDmaCqHeadWrite q v s) := by
  unfold execDmaCqHeadWrite
  (repeat' (first
    | with_reducible assumption | (with_reducible refine dmaHeadWrite_keeps ?_) | with_reducible refine kRes_next ?_))

/-! ### Digest -/

theorem setDig_keeps {s0 : State} {s : State} {n : Nat} {x : DigCtx} (h : Keeps s0 s) : Keeps s0 (setDig s n x) := by
  unfold setDig
  (repeat' (first | with_reducible assumption | fail_if_no_progress (with_reducible refine Keeps.upd ?_)))

theorem digWipe_keeps {s0 : State} {s : State} {n : Nat} (h : Keeps s0 s) : Keeps s0 (digWipe s n) := by
  unfold digWipe
  (repeat' (first
    | with_reducible assumption | (with_reducible refine State.setFlds_keeps ?_) | (with_reducible refine setDig_keeps ?_)))

theorem digRefuse_keeps {s0 : State} {s : State} {who : Who} (h : Keeps s0 s) : Keeps s0 (digRefuse s who) := by
  unfold digRefuse
  (repeat' (first
    | with_reducible assumption | (with_reducible refine setClaimErr_keeps ?_) | with_reducible refine keeps_ite ?_ ?_))

theorem digRelease_keeps {s0 : State} {s : State} {n : Nat} {who : Who} (h : Keeps s0 s) : Keeps s0 (digRelease s n who) := by
  unfold digRelease
  (repeat' (first
    | with_reducible assumption | (with_reducible refine State.setFlds_keeps ?_) | (with_reducible refine digWipe_keeps ?_)
    | (with_reducible refine digRefuse_keeps ?_) | with_reducible refine keeps_ite ?_ ?_))

theorem setDigState_keeps {s0 : State} {s : State} {n : Nat} {v : Nat} (h : Keeps s0 s) : Keeps s0 (setDigState s n v) := by
  unfold setDigState
  (repeat' (first | with_reducible assumption | (with_reducible refine State.setFld_keeps ?_)))

theorem digEnd_keeps {s0 : State} {s : State} {n : Nat} {st : Nat} (h : Keeps s0 s) : Keeps s0 (digEnd s n st) := by
  unfold digEnd
  (repeat' (first
    | with_reducible assumption | (with_reducible refine setDigState_keeps ?_) | (with_reducible refine State.raise_keeps ?_)))

theorem digFail_keeps {s0 : State} {s : State} {n : Nat} {err : Nat} (h : Keeps s0 s) : Keeps s0 (digFail s n err) := by
  unfold digFail
  (repeat' (first
    | with_reducible assumption | (with_reducible refine digEnd_keeps ?_) | (with_reducible refine State.setFld_keeps ?_)
    | (with_reducible refine State.raise_keeps ?_)))

theorem digRead_keeps {s0 : State} {s : State} {n : Nat} {a : Nat} {len : Nat} (h : Keeps s0 s) : Keeps s0 (digRead s n a
    len).1 := by
  unfold digRead
  (repeat' (first | with_reducible assumption | (with_reducible refine readGlobal_keeps_e ?_ (by assumption)) | split))

theorem digRead_keeps_e {s0 : State} {s : State} {n : Nat} {a : Nat} {len : Nat} {x0} {t : State} (h : Keeps s0 s) (e : digRead
    s n a len = (t, x0)) : Keeps s0 t := by
  have k := digRead_keeps (s0 := s0) (s := s) (n := n) (a := a) (len := len) h
  rw [e] at k
  exact k

theorem digCompare_keeps {s0 : State} {s : State} {n : Nat} {agree : Bool} (h : Keeps s0 s) : Keeps s0 (digCompare s n agree)
    := by
  unfold digCompare
  (repeat' (first
    | with_reducible assumption | (with_reducible refine digEnd_keeps ?_) | (with_reducible refine State.setFlds_keeps ?_)
    | (with_reducible refine digFail_keeps ?_) | (with_reducible refine State.raise_keeps ?_)
    | (with_reducible refine digRead_keeps_e ?_ (by assumption)) | dsimp only | split))

theorem digDrive_keeps {s0 : State} {s : State} {who : Who} {n : Nat} {op : Nat} {f : State → State} (h : Keeps s0 s) (h_f : ∀
    z0, Keeps s0 z0 → Keeps s0 (f z0)) : Keeps s0 (digDrive s who n op f) := by
  unfold digDrive
  (repeat' (first
    | (with_reducible refine setClaimErr_keeps ?_) | (with_reducible refine State.setFld_keeps ?_)
    | (with_reducible refine digRefuse_keeps ?_) | with_reducible refine keeps_ite ?_ ?_ | with_reducible apply_assumption))

theorem digInit_keeps {s0 : State} {s : State} {n : Nat} {alg : Nat} {sealed : Bool} (h : Keeps s0 s) : Keeps s0 (digInit s n
    alg sealed) := by
  unfold digInit
  (repeat' (first
    | with_reducible assumption | (with_reducible refine digEnd_keeps ?_) | (with_reducible refine State.setFlds_keeps ?_)
    | (with_reducible refine setDig_keeps ?_)))

theorem digFinal_keeps {s0 : State} {s : State} {n : Nat} (h : Keeps s0 s) : Keeps s0 (digFinal s n) := by
  unfold digFinal
  (repeat' (first
    | with_reducible assumption | (with_reducible refine digEnd_keeps ?_) | (with_reducible refine digFail_keeps ?_)
    | (with_reducible refine setDig_keeps ?_) | with_reducible refine keeps_ite ?_ ?_))

theorem digAbsorb_keeps {s0 : State} {s : State} {n : Nat} {bs : List Byte} (h : Keeps s0 s) : Keeps s0 (digAbsorb s n bs) := by
  unfold digAbsorb
  (repeat' (first
    | with_reducible assumption | (with_reducible refine State.setFld_keeps ?_)
    | (with_reducible refine State.setFlds_keeps ?_) | (with_reducible refine State.raise_keeps ?_)
    | (with_reducible refine setDig_keeps ?_) | with_reducible refine keeps_ite ?_ ?_))

theorem digAbsorbCtx_keeps {s0 : State} {s : State} {n : Nat} {src : Nat} (h : Keeps s0 s) : Keeps s0 (digAbsorbCtx s n src) :=
    by
  unfold digAbsorbCtx
  (repeat' (first
    | with_reducible assumption | (with_reducible refine digAbsorb_keeps ?_) | (with_reducible refine digEnd_keeps ?_)
    | (with_reducible refine State.setFld_keeps ?_) | (with_reducible refine digFail_keeps ?_)
    | with_reducible refine keeps_ite ?_ ?_))

theorem digFeed_keeps {s0 : State} {s : State} {n : Nat} (h : Keeps s0 s) : Keeps s0 (digFeed s n) := by
  unfold digFeed
  (repeat' (first
    | with_reducible assumption | (with_reducible refine setDigState_keeps ?_) | (with_reducible refine setDig_keeps ?_)))

theorem digClaim_keeps {s0 : State} {s : State} {n : Nat} {who : Who} (h : Keeps s0 s) : Keeps s0 (digClaim s n who) := by
  unfold digClaim
  (repeat' (first
    | with_reducible assumption | (with_reducible refine State.setFlds_keeps ?_) | (with_reducible refine digRefuse_keeps ?_)
    | with_reducible refine keeps_ite ?_ ?_))

theorem digTileWipe_keeps {s0 : State} {s : State} {t_ : Nat} (h : Keeps s0 s) : Keeps s0 (digTileWipe s t_) := by
  unfold digTileWipe
  (repeat' (first
    | with_reducible assumption | (with_reducible refine digWipe_keeps ?_) | with_reducible refine keeps_ite ?_ ?_
    | with_reducible refine keeps_foldl (fun _ _ _ => ?_) ?_))

theorem digFeedDone_keeps {s0 : State} {s : State} {n : Nat} (h : Keeps s0 s) : Keeps s0 (digFeedDone s n) := by
  unfold digFeedDone
  (repeat' (first
    | with_reducible assumption | (with_reducible refine digAbsorb_keeps ?_) | (with_reducible refine digEnd_keeps ?_)
    | (with_reducible refine digFail_keeps ?_) | (with_reducible refine setDig_keeps ?_)
    | (with_reducible refine digRead_keeps_e ?_ (by assumption)) | dsimp only | split))

theorem execDigestWipe_keeps {s0 : State} {v : DmaVia} {n : Fin 64} {s : State} (h : Keeps s0 s) : KRes s0 (execDigestWipe v n
    s) := by
  unfold execDigestWipe
  (repeat' (first
    | with_reducible assumption | (with_reducible refine digDrive_keeps ?_ ?_) | (with_reducible refine State.raise_keeps ?_)
    | (with_reducible refine digWipe_keeps ?_) | with_reducible refine kRes_next ?_ | intro _))

theorem execDigestRelease_keeps {s0 : State} {v : DmaVia} {n : Fin 64} {s : State} (h : Keeps s0 s) : KRes s0
    (execDigestRelease v n s) := by
  unfold execDigestRelease
  (repeat' (first
    | with_reducible assumption | (with_reducible refine digRelease_keeps ?_) | with_reducible refine kRes_next ?_))

theorem execDigestCompare_keeps {s0 : State} {v : DmaVia} {n : Fin 64} {agree : Bool} {s : State} (h : Keeps s0 s) : KRes s0
    (execDigestCompare v n agree s) := by
  unfold execDigestCompare
  (repeat' (first
    | with_reducible assumption | (with_reducible refine digCompare_keeps ?_) | (with_reducible refine digDrive_keeps ?_ ?_)
    | with_reducible refine kRes_next ?_ | intro _))

theorem execDigestInit_keeps {s0 : State} {v : DmaVia} {n : Fin 64} {alg : Fin 4} {sealed : Bool} {s : State} (h : Keeps s0 s)
    : KRes s0 (execDigestInit v n alg sealed s) := by
  unfold execDigestInit
  (repeat' (first
    | with_reducible assumption | (with_reducible refine digDrive_keeps ?_ ?_) | (with_reducible refine digInit_keeps ?_)
    | with_reducible refine kRes_next ?_ | intro _))

theorem execDigestFeed_keeps {s0 : State} {v : DmaVia} {n : Fin 64} {s : State} (h : Keeps s0 s) : KRes s0 (execDigestFeed v n
    s) := by
  unfold execDigestFeed
  (repeat' (first
    | with_reducible assumption | (with_reducible refine digDrive_keeps ?_ ?_) | (with_reducible refine digFeed_keeps ?_)
    | with_reducible refine kRes_next ?_ | intro _))

theorem execDigestClaim_keeps {s0 : State} {vs : List DmaVia} {n : Fin 64} {s : State} (h : Keeps s0 s) : KRes s0
    (execDigestClaim vs n s) := by
  unfold execDigestClaim
  (repeat' (first
    | with_reducible assumption | (with_reducible refine digClaim_keeps ?_) | with_reducible refine kRes_next ?_
    | with_reducible refine keeps_foldl (fun _ _ _ => ?_) ?_))

theorem execDigestAbsorb_keeps {s0 : State} {v : DmaVia} {n : Fin 64} {src : Fin 64} {s : State} (h : Keeps s0 s) : KRes s0
    (execDigestAbsorb v n src s) := by
  unfold execDigestAbsorb
  (repeat' (first
    | with_reducible assumption | (with_reducible refine digDrive_keeps ?_ ?_) | (with_reducible refine digAbsorbCtx_keeps ?_)
    | with_reducible refine kRes_next ?_ | intro _))

theorem execDigestFeedDone_keeps {s0 : State} {n : Fin 64} {s : State} (h : Keeps s0 s) : KRes s0 (execDigestFeedDone n s) := by
  unfold execDigestFeedDone
  (repeat' (first
    | with_reducible assumption | (with_reducible refine digFeedDone_keeps ?_) | with_reducible refine kRes_next ?_))

theorem execDigestFinal_keeps {s0 : State} {v : DmaVia} {n : Fin 64} {s : State} (h : Keeps s0 s) : KRes s0 (execDigestFinal v
    n s) := by
  unfold execDigestFinal
  (repeat' (first
    | with_reducible assumption | (with_reducible refine digDrive_keeps ?_ ?_) | (with_reducible refine digFinal_keeps ?_)
    | with_reducible refine kRes_next ?_ | intro _))

/-! ### Job -/

theorem tilePut_keeps {s0 : State} {s : State} {t_ : Nat} {a : Nat} {bs : List Byte} (h : Keeps s0 s) : Keeps s0 (tilePut s t_
    a bs) := by
  unfold tilePut
  (repeat' (first
    | with_reducible assumption | (with_reducible refine writeMem_keeps ?_) | (with_reducible refine State.setCore_keeps ?_)
    | dsimp only | split))

theorem jobRegs_keeps {s0 : State} {s : State} {t_ : Nat} {set : Option StepSet} {setNo : Nat} {prof : Nat} {land : Nat} {len :
    Nat} (h : Keeps s0 s) : Keeps s0 (jobRegs s t_ set setNo prof land len) := by
  unfold jobRegs
  (repeat' (first | with_reducible assumption | (with_reducible refine State.setFlds_keeps ?_)))

theorem startJob_keeps {s0 : State} {s : State} {t_ : Nat} {j : Job} {p : ProgSlot} {setNo : Option Nat} {prof : Nat} {land :
    Nat} {len : Nat} {a0 : Nat} {a1 : Nat} {a2 : Nat} (h : Keeps s0 s) : Keeps s0 (startJob s t_ j p setNo prof land len a0 a1
    a2) := by
  unfold startJob
  (repeat' (first
    | with_reducible assumption | (with_reducible refine State.setFlds_keeps ?_) | (with_reducible refine tilePut_keeps ?_)
    | (with_reducible refine jobRegs_keeps ?_) | (with_reducible refine State.setTile_keeps ?_)
    | (with_reducible refine State.setCore_keeps ?_)))

theorem stopTileDec_keeps {s0 : State} {s : State} {t_ : Nat} (h : Keeps s0 s) : Keeps s0 (stopTileDec s t_) := by
  unfold stopTileDec
  (repeat' (first
    | with_reducible assumption | (with_reducible refine State.setFlds_keeps ?_)
    | (with_reducible refine State.setTile_keeps ?_) | split))

theorem clearJobRegs_keeps {s0 : State} {s : State} {t_ : Nat} (h : Keeps s0 s) : Keeps s0 (clearJobRegs s t_) := by
  unfold clearJobRegs
  (repeat' (first | with_reducible assumption | (with_reducible refine State.setFlds_keeps ?_)))

theorem updCp_keeps {s0 : State} {s : State} {cmd : Nat} {g : CpJob → CpJob} (h : Keeps s0 s) : Keeps s0 (updCp s cmd g) := by
  unfold updCp
  (repeat' (first | with_reducible assumption | fail_if_no_progress (with_reducible refine Keeps.upd ?_)))

theorem failRef_keeps {s0 : State} {s : State} {r : JobRef} {cause : Nat} (h : Keeps s0 s) : Keeps s0 (failRef s r cause) := by
  unfold failRef
  (repeat' (first
    | with_reducible assumption | (with_reducible refine updCp_keeps ?_) | (with_reducible refine failParcel_keeps ?_)
    | with_reducible refine keeps_ite ?_ ?_))

theorem reportJob_keeps {s0 : State} {s : State} {t_ : Nat} {k_ : Core} {r : JobRef} {cause : Nat} (h : Keeps s0 s) : Keeps s0
    (reportJob s t_ k_ r cause) := by
  unfold reportJob
  (repeat' (first
    | with_reducible assumption | (with_reducible refine updCp_keeps ?_) | (with_reducible refine State.raise_keeps ?_)
    | (with_reducible refine updParcel_keeps ?_) | (with_reducible refine failRef_keeps ?_)
    | with_reducible refine keeps_ite ?_ ?_))

theorem endJob_keeps {s0 : State} {s : State} {t_ : Nat} {cause : Nat} (h : Keeps s0 s) : Keeps s0 (endJob s t_ cause) := by
  unfold endJob
  (repeat' (first
    | with_reducible assumption | (with_reducible refine stopTileDec_keeps ?_) | (with_reducible refine clearJobRegs_keeps ?_)
    | (with_reducible refine State.setFlds_keeps ?_) | (with_reducible refine reportJob_keeps ?_)
    | (with_reducible refine State.setTile_keeps ?_) | (with_reducible refine State.raise_keeps ?_)
    | (with_reducible refine State.setCore_keeps ?_) | (with_reducible refine State.addWrap_keeps ?_) | split))

theorem tileReset_keeps {s0 : State} {s : State} {t_ : Nat} {cause : Nat} (h : Keeps s0 s) : Keeps s0 (tileReset s t_ cause) :=
    by
  unfold tileReset
  (repeat' (first
    | with_reducible assumption | (with_reducible refine stopTileDec_keeps ?_) | (with_reducible refine clearJobRegs_keeps ?_)
    | (with_reducible refine resetCaches_keeps ?_) | (with_reducible refine digTileWipe_keeps ?_)
    | (with_reducible refine State.setFlds_keeps ?_) | (with_reducible refine updCp_keeps ?_)
    | (with_reducible refine State.setTile_keeps ?_) | (with_reducible refine State.raise_keeps ?_)
    | (with_reducible refine State.setCore_keeps ?_) | (with_reducible refine updParcel_keeps ?_)
    | (with_reducible refine failParcel_keeps ?_) | (with_reducible refine failRef_keeps ?_)
    | (with_reducible refine dmaTileAbort_keeps ?_) | with_reducible refine keeps_ite ?_ ?_
    | with_reducible refine keeps_foldl (fun _ _ _ => ?_) ?_))

theorem startParcelJob_keeps {s0 : State} {s : State} {t_ : Nat} {flow : Nat} {seq : Nat} (h : Keeps s0 s) : Keeps s0
    (startParcelJob s t_ flow seq) := by
  unfold startParcelJob
  (repeat' (first
    | with_reducible assumption | (with_reducible refine startJob_keeps ?_) | (with_reducible refine updParcel_keeps ?_)
    | split))

theorem takeHead_keeps {s0 : State} {s : State} {t_ : Nat} (h : Keeps s0 s) : Keeps s0 (takeHead s t_) := by
  unfold takeHead
  (repeat' (first
    | with_reducible assumption | (with_reducible refine setDeque_keeps ?_) | (with_reducible refine updParcel_keeps ?_)
    | (with_reducible refine startParcelJob_keeps ?_) | dsimp only | split))

theorem tileResetDone_keeps {s0 : State} {s : State} {t_ : Nat} (h : Keeps s0 s) : Keeps s0 (tileResetDone s t_) := by
  unfold tileResetDone
  (repeat' (first
    | with_reducible assumption | (with_reducible refine State.setFld_keeps ?_)
    | (with_reducible refine State.setTile_keeps ?_) | (with_reducible refine State.raise_keeps ?_)
    | with_reducible refine keeps_ite ?_ ?_))

/-! ### Out -/

theorem codecPut_keeps {s0 : State} {s : State} {t_ : Nat} {r : JobRef} {bs : List Byte} (h : Keeps s0 s) : Keeps s0 (codecPut
    s t_ r bs) := by
  unfold codecPut
  (repeat' (first | with_reducible assumption | (with_reducible refine State.setTile_keeps ?_)))

theorem kqPut_keeps {s0 : State} {s : State} {t_ : Nat} {j : Job} {bs : List Byte} (h : Keeps s0 s) : Keeps s0 (kqPut s t_ j
    bs) := by
  unfold kqPut
  (repeat' (first
    | with_reducible assumption | (with_reducible refine State.setTile_keeps ?_)
    | (with_reducible refine State.addWrap_keeps ?_)))

theorem noteBlock_keeps {s0 : State} {s : State} {r : JobRef} {n : Nat} (h : Keeps s0 s) : Keeps s0 (noteBlock s r n) := by
  unfold noteBlock
  (repeat' (first
    | with_reducible assumption | (with_reducible refine updCp_keeps ?_) | (with_reducible refine updParcel_keeps ?_)
    | with_reducible refine keeps_ite ?_ ?_))

theorem placeBlock_keeps {s0 : State} {s : State} {r : JobRef} {bs : List Byte} (h : Keeps s0 s) : Keeps s0 (placeBlock s r
    bs).1 := by
  unfold placeBlock
  (repeat' (first
    | with_reducible assumption | (with_reducible refine writeMem_keeps ?_) | (with_reducible refine failRef_keeps ?_)
    | (with_reducible refine noteBlock_keeps ?_) | split))

theorem placeBlock_keeps_e {s0 : State} {s : State} {r : JobRef} {bs : List Byte} {x0} {t : State} (h : Keeps s0 s) (e :
    placeBlock s r bs = (t, x0)) : Keeps s0 t := by
  have k := placeBlock_keeps (s0 := s0) (s := s) (r := r) (bs := bs) h
  rw [e] at k
  exact k

theorem noteEntry_keeps {s0 : State} {s : State} {r : JobRef} (h : Keeps s0 s) : Keeps s0 (noteEntry s r) := by
  unfold noteEntry
  (repeat' (first
    | with_reducible assumption | (with_reducible refine updCp_keeps ?_) | (with_reducible refine updParcel_keeps ?_)
    | with_reducible refine keeps_ite ?_ ?_))

theorem placeEntry_keeps {s0 : State} {s : State} {r : JobRef} {bs : List Byte} (h : Keeps s0 s) : Keeps s0 (placeEntry s r
    bs).1 := by
  unfold placeEntry
  (repeat' (first
    | with_reducible assumption | (with_reducible refine writeMem_keeps ?_) | (with_reducible refine noteEntry_keeps ?_)
    | (with_reducible refine failRef_keeps ?_) | split))

theorem placeEntry_keeps_e {s0 : State} {s : State} {r : JobRef} {bs : List Byte} {x0} {t : State} (h : Keeps s0 s) (e :
    placeEntry s r bs = (t, x0)) : Keeps s0 t := by
  have k := placeEntry_keeps (s0 := s0) (s := s) (r := r) (bs := bs) h
  rw [e] at k
  exact k

theorem kqTake_keeps {s0 : State} {s : State} {t_ : Nat} (h : Keeps s0 s) : Keeps s0 (kqTake s t_) := by
  unfold kqTake
  (repeat' (first
    | with_reducible assumption | (with_reducible refine State.setTile_keeps ?_) | (with_reducible refine State.raise_keeps ?_)
    | with_reducible refine keeps_ite ?_ ?_))

end Sys2Proof.Machine
end

