-- ==== Sys2Proof/Laws/Keeps2.lean ====
section
/-! SUPPORT. Sys2Proof/Laws/Keeps2.lean: what each operation of Index, Ecc, Mari, Cstore keeps (`Keeps`). -/

set_option Elab.async false
set_option linter.unusedVariables false

namespace Sys2Proof.Machine

/-! ### Index -/

theorem tmWrite_keeps {s0 : State} {s : State} {base : Nat} {es : List Nat} (h : Keeps s0 s) : Keeps s0 (tmWrite s base es) :=
    by
  unfold tmWrite
  (repeat' (first | with_reducible assumption | fail_if_no_progress (with_reducible refine Keeps.upd ?_)))

theorem writeSlot_keeps {s0 : State} {s : State} {i : Nat} {x : TSlot} (h : Keeps s0 s) : Keeps s0 (writeSlot s i x) := by
  unfold writeSlot
  (repeat' (first
    | with_reducible assumption | (with_reducible refine writeMem_keeps ?_)
    | fail_if_no_progress (with_reducible refine Keeps.upd ?_)))

theorem moveDown_keeps {s0 : State} {s : State} {i : Nat} {y2 : Nat} (h : Keeps s0 s) : Keeps s0 (moveDown s i y2) := by
  fun_induction moveDown s i y2 <;> (repeat' (first
    | (with_reducible refine writeSlot_keeps ?_) | with_reducible apply_assumption))

theorem moveUp_keeps {s0 : State} {s : State} {i : Nat} {y2 : Nat} (h : Keeps s0 s) : Keeps s0 (moveUp s i y2) := by
  fun_induction moveUp s i y2 <;> (repeat' (first
    | (with_reducible refine writeSlot_keeps ?_) | with_reducible apply_assumption))

theorem insertRule_keeps {s0 : State} {s : State} {x : TSlot} (h : Keeps s0 s) : KOpt (fun x => Keeps s0 x) (insertRule s x) :=
    by
  unfold insertRule
  (repeat' (first
    | with_reducible assumption | (with_reducible refine writeSlot_keeps ?_) | (with_reducible refine moveDown_keeps ?_)
    | (with_reducible refine moveUp_keeps ?_) | with_reducible exact kOpt_none | with_reducible refine kOpt_some ?_ | split))

theorem insertRule_keeps_e {s0 : State} {s : State} {x : TSlot} {t : State} (h : Keeps s0 s) (e : insertRule s x = .some t) :
    Keeps s0 t := by
  have k := insertRule_keeps (s0 := s0) (s := s) (x := x) h
  rw [e] at k
  exact k

theorem ruleAccept_keeps {s0 : State} {s : State} {op : RuleOp} (h : Keeps s0 s) : Keeps s0 (ruleAccept s op) := by
  unfold ruleAccept
  (repeat' (first
    | with_reducible assumption | (with_reducible refine State.raise_keeps ?_)
    | fail_if_no_progress (with_reducible refine Keeps.upd ?_)))

theorem ruleLoadNext_keeps {s0 : State} {s : State} (h : Keeps s0 s) : Keeps s0 (ruleLoadNext s) := by
  unfold ruleLoadNext
  (repeat' (first
    | with_reducible assumption | (with_reducible refine ruleAccept_keeps ?_) | (with_reducible refine updCmd_keeps ?_) | split
    | fail_if_no_progress (with_reducible refine Keeps.upd ?_)))

theorem ruleResult_keeps {s0 : State} {s : State} {r : Nat} (h : Keeps s0 s) : Keeps s0 (ruleResult s r) := by
  unfold ruleResult
  (repeat' (first | with_reducible assumption | (with_reducible refine State.setFld_keeps ?_)))

theorem ruleInsert_keeps {s0 : State} {s : State} (h : Keeps s0 s) : Keeps s0 (ruleInsert s) := by
  unfold ruleInsert
  (repeat' (first
    | with_reducible assumption | (with_reducible refine setClaimErr_keeps ?_) | (with_reducible refine ruleAccept_keeps ?_)
    | (with_reducible refine ruleResult_keeps ?_) | with_reducible refine keeps_ite ?_ ?_))

theorem ruleDelete_keeps {s0 : State} {s : State} {set : Nat} {rid : Nat} (h : Keeps s0 s) : Keeps s0 (ruleDelete s set rid) :=
    by
  unfold ruleDelete
  (repeat' (first
    | with_reducible assumption | (with_reducible refine setClaimErr_keeps ?_) | (with_reducible refine State.setFlds_keeps ?_)
    | (with_reducible refine ruleAccept_keeps ?_) | (with_reducible refine ruleResult_keeps ?_)
    | with_reducible refine keeps_ite ?_ ?_))

theorem ruleEnds_keeps {s0 : State} {s : State} (h : Keeps s0 s) : Keeps s0 (ruleEnds s) := by
  unfold ruleEnds
  (repeat' (first
    | with_reducible assumption | (with_reducible refine ruleLoadNext_keeps ?_)
    | (with_reducible refine State.setFlds_keeps ?_) | (with_reducible refine State.raise_keeps ?_)
    | fail_if_no_progress (with_reducible refine Keeps.upd ?_)))

theorem deleteRule_keeps {s0 : State} {s : State} {set : Nat} {rid : Nat} (h : Keeps s0 s) : Keeps s0 (deleteRule s set rid) :=
    by
  unfold deleteRule
  (repeat' (first | with_reducible assumption | (with_reducible refine writeSlot_keeps ?_) | split))

theorem ruleDeleteDone_keeps {s0 : State} {s : State} (h : Keeps s0 s) : Keeps s0 (ruleDeleteDone s) := by
  unfold ruleDeleteDone
  (repeat' (first
    | with_reducible assumption | (with_reducible refine ruleEnds_keeps ?_) | (with_reducible refine deleteRule_keeps ?_)
    | split))

theorem ruleInsertDone_keeps {s0 : State} {s : State} (h : Keeps s0 s) : Keeps s0 (ruleInsertDone s) := by
  unfold ruleInsertDone
  (repeat' (first
    | with_reducible assumption | (with_reducible refine ruleEnds_keeps ?_) | (with_reducible refine insertRule_keeps ?_)
    | with_reducible refine keeps_getD ?_ ?_ | split))

theorem execRuleInsertDone_keeps {s0 : State} {s : State} (h : Keeps s0 s) : KRes s0 (execRuleInsertDone s) := by
  unfold execRuleInsertDone
  (repeat' (first
    | with_reducible assumption | (with_reducible refine ruleInsertDone_keeps ?_) | with_reducible refine kRes_next ?_))

theorem shadowCheck_keeps {s0 : State} {s : State} (h : Keeps s0 s) : Keeps s0 (shadowCheck s) := by
  unfold shadowCheck
  (repeat' (first
    | with_reducible assumption | (with_reducible refine readRam_keeps_e ?_ (by assumption))
    | (with_reducible refine State.addSat_keeps ?_) | (with_reducible refine writeSlot_keeps ?_)
    | (with_reducible refine State.raise_keeps ?_) | (with_reducible refine State.capture_keeps ?_) | dsimp only | split
    | fail_if_no_progress (with_reducible refine Keeps.upd ?_)))

theorem emitEntries_keeps {s0 s : State} {t_ : Nat} {r : JobRef} {es : List (List Byte)} (h : Keeps s0 s) :
    Keeps s0 (emitEntries s t_ r es) := by
  induction es generalizing s with
  | nil => exact h
  | cons e es ih =>
    unfold emitEntries
    split
    · next e2 => exact placeEntry_keeps_e h e2
    · next e2 =>
      have k := placeEntry_keeps_e h e2
      dsimp only
      split
      all_goals exact ih (keeps_ite (State.addWrap_keeps k) k)


theorem tcamSearch_keeps {s0 : State} {s : State} (h : Keeps s0 s) : Keeps s0 (tcamSearch s) := by
  unfold tcamSearch
  (repeat' (first
    | with_reducible assumption | (with_reducible refine emitEntries_keeps ?_) | (with_reducible refine State.raise_keeps ?_)
    | (with_reducible refine State.addWrap_keeps ?_) | split | fail_if_no_progress (with_reducible refine Keeps.upd ?_)))

theorem execTcamSearch_keeps {s0 : State} {s : State} (h : Keeps s0 s) : KRes s0 (execTcamSearch s) := by
  unfold execTcamSearch
  (repeat' (first
    | with_reducible assumption | (with_reducible refine tcamSearch_keeps ?_) | with_reducible refine kRes_next ?_))

theorem upsetSlot_keeps {s0 : State} {s : State} {i : Nat} {b : Nat} (h : Keeps s0 s) : Keeps s0 (upsetSlot s i b) := by
  unfold upsetSlot
  (repeat' (first | with_reducible assumption | fail_if_no_progress (with_reducible refine Keeps.upd ?_)))

theorem execShadowCheck_keeps {s0 : State} {upset : Option (Nat × Nat)} {s : State} (h : Keeps s0 s) : KRes s0 (execShadowCheck
    upset s) := by
  unfold execShadowCheck
  (repeat' (first
    | with_reducible assumption | (with_reducible refine shadowCheck_keeps ?_) | (with_reducible refine upsetSlot_keeps ?_)
    | with_reducible refine kRes_next ?_ | split))

theorem tmRead_keeps {s0 : State} {s : State} {e_ : Nat} (h : Keeps s0 s) : Keeps s0 (tmRead s e_).2 := by
  unfold tmRead
  (repeat' (first
    | with_reducible assumption | (with_reducible refine countUe_keeps ?_) | (with_reducible refine countCe_keeps ?_)
    | dsimp only | split))

theorem tmRead_keeps_e {s0 : State} {s : State} {e_ : Nat} {x0} {t : State} (h : Keeps s0 s) (e : tmRead s e_ = (x0, t)) :
    Keeps s0 t := by
  have k := tmRead_keeps (s0 := s0) (s := s) (e_ := e_) h
  rw [e] at k
  exact k

theorem scanFrom_keeps {s0 : State} {s : State} {set : Nat} {cm : List Nat} {key : List Byte} {row : Nat} {report : Nat} {t_ :
    Nat} {y7 : Nat} (h : Keeps s0 s) : Keeps s0 (scanFrom s set cm key row report t_ y7).2 := by
  fun_induction scanFrom s set cm key row report t_ y7 <;> (repeat' (first
    | (with_reducible refine tmRead_keeps_e ?_ (by assumption)) | with_reducible apply_assumption))

theorem scanFrom_keeps_e {s0 : State} {s : State} {set : Nat} {cm : List Nat} {key : List Byte} {row : Nat} {report : Nat} {t_
    : Nat} {y7 : Nat} {x0} {t : State} (h : Keeps s0 s) (e : scanFrom s set cm key row report t_ y7 = (x0, t)) : Keeps s0 t :=
    by
  have k := scanFrom_keeps (s0 := s0) (s := s) (set := set) (cm := cm) (key := key) (row := row) (report := report) (t_ := t_)
      (y7 := y7) h
  rw [e] at k
  exact k

theorem scanKey_keeps {s0 : State} {s : State} {set : Nat} {key : List Byte} (h : Keeps s0 s) : Keeps s0 (scanKey s set
    key).2.2 := by
  unfold scanKey
  (repeat' (first
    | with_reducible assumption | (with_reducible refine State.raise_keeps ?_) | (with_reducible refine State.addWrap_keeps ?_)
    | (with_reducible refine scanFrom_keeps_e ?_ (by assumption)) | dsimp only | split))

theorem scanKey_keeps_e {s0 : State} {s : State} {set : Nat} {key : List Byte} {x0 x1} {t : State} (h : Keeps s0 s) (e :
    scanKey s set key = (x0, (x1, t))) : Keeps s0 t := by
  have k := scanKey_keeps (s0 := s0) (s := s) (set := set) (key := key) h
  rw [e] at k
  exact k

theorem automatonScan_keeps {s0 : State} {s : State} {e_ : Nat} (h : Keeps s0 s) : Keeps s0 (automatonScan s e_) := by
  unfold automatonScan
  (repeat' (first
    | with_reducible assumption | (with_reducible refine emitEntries_keeps ?_) | (with_reducible refine scanKey_keeps ?_)
    | (with_reducible refine kqTake_keeps ?_) | with_reducible refine keeps_ite ?_ ?_ | split
    | fail_if_no_progress (with_reducible refine Keeps.upd ?_)))

theorem execAutomatonScan_keeps {s0 : State} {e_ : Fin 16} {s : State} (h : Keeps s0 s) : KRes s0 (execAutomatonScan e_ s) := by
  unfold execAutomatonScan
  (repeat' (first
    | with_reducible assumption | (with_reducible refine automatonScan_keeps ?_) | with_reducible refine kRes_next ?_))

theorem execRuleDeleteDone_keeps {s0 : State} {s : State} (h : Keeps s0 s) : KRes s0 (execRuleDeleteDone s) := by
  unfold execRuleDeleteDone
  (repeat' (first
    | with_reducible assumption | (with_reducible refine ruleDeleteDone_keeps ?_) | with_reducible refine kRes_next ?_))

/-! ### Ecc -/

theorem repairEnds_keeps {s0 : State} {s : State} {m : Nat} {result : Nat} (h : Keeps s0 s) : Keeps s0 (repairEnds s m result)
    := by
  unfold repairEnds
  (repeat' (first
    | with_reducible assumption | (with_reducible refine State.setFlds_keeps ?_)
    | (with_reducible refine State.raise_keeps ?_)))

theorem repairGo_keeps {s0 : State} {s : State} (h : Keeps s0 s) : Keeps s0 (repairGo s) := by
  unfold repairGo
  (repeat' (first
    | with_reducible assumption | (with_reducible refine setClaimErr_keeps ?_) | (with_reducible refine repairEnds_keeps ?_)
    | with_reducible refine keeps_ite ?_ ?_ | split | fail_if_no_progress (with_reducible refine Keeps.upd ?_)))

theorem macSettle_keeps {s0 : State} {s : State} {m : Nat} {w : Nat} (h : Keeps s0 s) : Keeps s0 (macSettle s m w) := by
  unfold macSettle
  (repeat' (first | with_reducible assumption | (with_reducible refine flushMerge_keeps ?_) | split))

theorem testRawRead_keeps {s0 : State} {s0_ : State} (h : Keeps s0 s0_) : Keeps s0 (testRawRead s0_) := by
  unfold testRawRead
  (repeat' (first
    | with_reducible assumption | (with_reducible refine State.setFlds_keeps ?_) | (with_reducible refine macSettle_keeps ?_)
    | with_reducible refine keeps_ite ?_ ?_ | fail_if_no_progress (with_reducible refine Keeps.upd ?_)))

theorem setOther_keeps {s0 : State} {s : State} {k_ : Nat} {data : Nat} {syn : Nat} (h : Keeps s0 s) : Keeps s0 (setOther s k_
    data syn) := by
  unfold setOther
  (repeat' (first | with_reducible assumption | fail_if_no_progress (with_reducible refine Keeps.upd ?_)))

theorem macWrite_keeps {s0 : State} {s : State} {m : Nat} {w : Nat} {data : Nat} {syn : Nat} (h : Keeps s0 s) : Keeps s0
    (macWrite s m w data syn) := by
  unfold macWrite
  (repeat' (first
    | with_reducible assumption | (with_reducible refine setOther_keeps ?_) | (with_reducible refine State.setCore_keeps ?_)
    | (with_reducible refine State.putBytes_keeps ?_) | dsimp only | split
    | fail_if_no_progress (with_reducible refine Keeps.upd ?_)))

theorem testRawWrite_keeps {s0 : State} {s0_ : State} (h : Keeps s0 s0_) : Keeps s0 (testRawWrite s0_) := by
  unfold testRawWrite
  (repeat' (first
    | with_reducible assumption | (with_reducible refine macWrite_keeps ?_) | (with_reducible refine macSettle_keeps ?_)
    | with_reducible refine keeps_ite ?_ ?_))

theorem testOp_keeps {s0 : State} {s : State} {op : Nat} (h : Keeps s0 s) : Keeps s0 (testOp s op) := by
  unfold testOp
  (repeat' (first
    | with_reducible assumption | (with_reducible refine testRawRead_keeps ?_) | (with_reducible refine testRawWrite_keeps ?_)
    | with_reducible refine keeps_ite ?_ ?_))

theorem scrubWord_keeps {s0 : State} {s : State} {slow : Bool} (h : Keeps s0 s) : Keeps s0 (scrubWord s slow) := by
  unfold scrubWord
  (repeat' (first
    | with_reducible assumption | (with_reducible refine State.raise_keeps ?_) | (with_reducible refine countUe_keeps ?_)
    | (with_reducible refine macWrite_keeps ?_) | (with_reducible refine State.addWrap_keeps ?_)
    | (with_reducible refine countCe_keeps ?_) | with_reducible refine keeps_ite ?_ ?_ | split
    | fail_if_no_progress (with_reducible refine Keeps.upd ?_)))

theorem repairWord_keeps {s0 : State} {s0_ : State} {m : Nat} {w : Nat} (h : Keeps s0 s0_) : Keeps s0 (repairWord s0_ m w) := by
  unfold repairWord
  (repeat' (first
    | with_reducible assumption | (with_reducible refine State.raise_keeps ?_) | (with_reducible refine countUe_keeps ?_)
    | (with_reducible refine macWrite_keeps ?_) | (with_reducible refine macSettle_keeps ?_)
    | (with_reducible refine countCe_keeps ?_) | dsimp only | split))

theorem repairDone_keeps {s0 : State} {s : State} (h : Keeps s0 s) : Keeps s0 (repairDone s) := by
  unfold repairDone
  (repeat' (first
    | with_reducible assumption | (with_reducible refine repairEnds_keeps ?_) | (with_reducible refine repairWord_keeps ?_)
    | with_reducible refine keeps_foldl (fun _ _ _ => ?_) ?_ | split
    | fail_if_no_progress (with_reducible refine Keeps.upd ?_)))

/-! ### Mari -/

theorem updMari_keeps {s0 : State} {s : State} {t_ : Nat} {g : Mari → Mari} (h : Keeps s0 s) : Keeps s0 (updMari s t_ g) := by
  unfold updMari
  (repeat' (first | with_reducible assumption | (with_reducible refine State.setTile_keeps ?_)))

theorem mariEnding_keeps {s0 : State} {s : State} {t_ : Nat} {code : Nat} (h : Keeps s0 s) : Keeps s0 (mariEnding s t_ code) :=
    by
  unfold mariEnding
  (repeat' (first | with_reducible assumption | (with_reducible refine updMari_keeps ?_)))

theorem selectNext_keeps {s0 : State} {s : State} {t_ : Nat} {st : Step} {flag : Bool} (h : Keeps s0 s) : Keeps s0 (selectNext
    s t_ st flag) := by
  unfold selectNext
  (repeat' (first
    | with_reducible assumption | (with_reducible refine mariEnding_keeps ?_) | (with_reducible refine updMari_keeps ?_)
    | with_reducible refine keeps_ite ?_ ?_))

theorem finishExec_keeps {s0 : State} {s : State} {t_ : Nat} {st : Step} {ns : List Nat} {e_ : Exec} (h : Keeps s0 s) : Keeps
    s0 (finishExec s t_ st ns e_) := by
  unfold finishExec
  (repeat' (first
    | with_reducible assumption | (with_reducible refine State.setFld_keeps ?_) | (with_reducible refine selectNext_keeps ?_)
    | (with_reducible refine State.addWrap_keeps ?_) | (with_reducible refine updMari_keeps ?_) | split))

theorem deliver_keeps {s0 : State} {s : State} {t_ : Nat} {n : Nat} {bs : List Byte} (h : Keeps s0 s) : Keeps s0 (deliver s t_
    n bs) := by
  unfold deliver
  (repeat' (first
    | with_reducible assumption | (with_reducible refine writeMem_keeps ?_) | (with_reducible refine State.setFld_keeps ?_)
    | (with_reducible refine codecPut_keeps ?_) | (with_reducible refine kqPut_keeps ?_) | split))

theorem putStream_keeps {s0 : State} {s : State} {t_ : Nat} {n : Nat} {bs : List Byte} (h : Keeps s0 s) : KPut s0 (putStream s
    t_ n bs) := by
  unfold putStream
  (repeat' (first
    | with_reducible assumption | (with_reducible refine deliver_keeps ?_) | with_reducible refine kPut_done ?_
    | with_reducible exact kPut_wait | with_reducible refine kPut_over ?_ | dsimp only | split))

theorem putStream_keeps_e0 {s0 : State} {s : State} {t_ : Nat} {n : Nat} {bs : List Byte} {t : State} (h : Keeps s0 s) (e :
    putStream s t_ n bs = .done t) : Keeps s0 t := by
  have k := putStream_keeps (s0 := s0) (s := s) (t_ := t_) (n := n) (bs := bs) h
  rw [e] at k
  exact k

theorem putStream_keeps_e1 {s0 : State} {s : State} {t_ : Nat} {n : Nat} {bs : List Byte} {t : State} (h : Keeps s0 s) (e :
    putStream s t_ n bs = .over t) : Keeps s0 t := by
  have k := putStream_keeps (s0 := s0) (s := s) (t_ := t_) (n := n) (bs := bs) h
  rw [e] at k
  exact k

theorem mariRun_keeps {s0 s : State} {t_ lo hi : Nat} {streams : Step → List Nat} {f : State → Nat → Step → Got Exec} (h :
    Keeps s0 s)
    (hf : ∀ z a b, Keeps s0 z → KGot s0 (f z a b)) : Keeps s0 (mariRun s t_ lo hi streams f) := by
  unfold mariRun
  split
  · exact h
  · next st _ =>
    refine keeps_ite h ?_
    have k := hf s t_ st h
    split
    · next e => rw [e] at k; exact mariEnding_keeps k
    · next e =>
      rw [e] at k
      refine keeps_ite ?_ (finishExec_keeps k)
      split
      · exact h
      · next e2 => exact mariEnding_keeps (putStream_keeps_e1 k e2)
      · next e2 => exact finishExec_keeps (putStream_keeps_e0 k e2)


theorem landedEcc_keeps {s0 : State} {s : State} {t_ : Nat} {a : Nat} (h : Keeps s0 s) : Keeps s0 (landedEcc s t_ a) := by
  unfold landedEcc
  (repeat' (first | with_reducible assumption | (with_reducible refine failParcel_keeps ?_) | split))

theorem readStream_keeps {s0 : State} {s : State} {t_ : Nat} {n : Nat} {off : Nat} (h : Keeps s0 s) : KGot s0 (readStream s t_
    n off) := by
  unfold readStream
  (repeat' (first
    | with_reducible assumption | (with_reducible refine landedEcc_keeps ?_)
    | (with_reducible refine readGlobal_keeps_e ?_ (by assumption)) | with_reducible refine kGot_ok ?_
    | with_reducible refine kGot_stop ?_ | dsimp only | split))

theorem readStream_keeps_e0 {s0 : State} {s : State} {t_ : Nat} {n : Nat} {off : Nat} {x0} {t : State} (h : Keeps s0 s) (e :
    readStream s t_ n off = .ok x0 t) : Keeps s0 t := by
  have k := readStream_keeps (s0 := s0) (s := s) (t_ := t_) (n := n) (off := off) h
  rw [e] at k
  exact k

theorem readStream_keeps_e1 {s0 : State} {s : State} {t_ : Nat} {n : Nat} {off : Nat} {x0} {t : State} (h : Keeps s0 s) (e :
    readStream s t_ n off = .stop x0 t) : Keeps s0 t := by
  have k := readStream_keeps (s0 := s0) (s := s) (t_ := t_) (n := n) (off := off) h
  rw [e] at k
  exact k

theorem readSrc_keeps {s0 : State} {s : State} {t_ : Nat} {st : Step} {code : Nat} (h : Keeps s0 s) : KGot s0 (readSrc s t_ st
    code) := by
  unfold readSrc
  (repeat' (first
    | with_reducible assumption | (with_reducible refine readStream_keeps_e0 ?_ (by assumption))
    | (with_reducible refine readStream_keeps_e1 ?_ (by assumption)) | with_reducible refine kGot_ok ?_
    | with_reducible refine kGot_stop ?_ | split))

theorem readSrc_keeps_e0 {s0 : State} {s : State} {t_ : Nat} {st : Step} {code : Nat} {x0} {t : State} (h : Keeps s0 s) (e :
    readSrc s t_ st code = .ok x0 t) : Keeps s0 t := by
  have k := readSrc_keeps (s0 := s0) (s := s) (t_ := t_) (st := st) (code := code) h
  rw [e] at k
  exact k

theorem readSrc_keeps_e1 {s0 : State} {s : State} {t_ : Nat} {st : Step} {code : Nat} {x0} {t : State} (h : Keeps s0 s) (e :
    readSrc s t_ st code = .stop x0 t) : Keeps s0 t := by
  have k := readSrc_keeps (s0 := s0) (s := s) (t_ := t_) (st := st) (code := code) h
  rw [e] at k
  exact k

theorem opShift_keeps {s0 : State} {f : Int → Int} {s : State} {t_ : Nat} {st : Step} (h : Keeps s0 s) : KGot s0 (opShift f s
    t_ st) := by
  unfold opShift
  (repeat' (first
    | with_reducible assumption | (with_reducible refine readSrc_keeps_e0 ?_ (by assumption))
    | (with_reducible refine readSrc_keeps_e1 ?_ (by assumption)) | with_reducible refine kGot_ok ?_
    | with_reducible refine kGot_stop ?_ | split))

theorem opShift_keeps_e0 {s0 : State} {f : Int → Int} {s : State} {t_ : Nat} {st : Step} {x0} {t : State} (h : Keeps s0 s) (e :
    opShift f s t_ st = .ok x0 t) : Keeps s0 t := by
  have k := opShift_keeps (s0 := s0) (f := f) (s := s) (t_ := t_) (st := st) h
  rw [e] at k
  exact k

theorem opShift_keeps_e1 {s0 : State} {f : Int → Int} {s : State} {t_ : Nat} {st : Step} {x0} {t : State} (h : Keeps s0 s) (e :
    opShift f s t_ st = .stop x0 t) : Keeps s0 t := by
  have k := opShift_keeps (s0 := s0) (f := f) (s := s) (t_ := t_) (st := st) h
  rw [e] at k
  exact k

theorem execMariShr_keeps {s0 : State} {t_ : TileId} {s : State} (h : Keeps s0 s) : KRes s0 (execMariShr t_ s) := by
  unfold execMariShr
  (repeat' (first
    | with_reducible assumption | (with_reducible refine mariRun_keeps ?_ ?_) | (with_reducible refine opShift_keeps ?_)
    | with_reducible refine kRes_next ?_ | intro _))

theorem tileCfgErr_keeps {s0 : State} {s : State} {t_ : Nat} (h : Keeps s0 s) : Keeps s0 (tileCfgErr s t_) := by
  unfold tileCfgErr
  (repeat' (first | with_reducible assumption | (with_reducible refine State.raise_keeps ?_)))

theorem tileClaimErr_keeps {s0 : State} {s : State} {t_ : Nat} (h : Keeps s0 s) : Keeps s0 (tileClaimErr s t_) := by
  unfold tileClaimErr
  (repeat' (first | with_reducible assumption | (with_reducible refine State.raise_keeps ?_)))

theorem mariGo_keeps {s0 : State} {s : State} {t_ : Nat} (h : Keeps s0 s) : Keeps s0 (mariGo s t_) := by
  unfold mariGo
  (repeat' (first | with_reducible assumption | (with_reducible refine State.setFld_keeps ?_)))

theorem mariResume_keeps {s0 : State} {s : State} {t_ : Nat} {step : Nat} (h : Keeps s0 s) : Keeps s0 (mariResume s t_ step) :=
    by
  unfold mariResume
  (repeat' (first
    | with_reducible assumption | (with_reducible refine tileCfgErr_keeps ?_) | (with_reducible refine State.setFld_keeps ?_)
    | (with_reducible refine tileClaimErr_keeps ?_) | (with_reducible refine mariGo_keeps ?_)
    | (with_reducible refine updMari_keeps ?_) | with_reducible refine keeps_ite ?_ ?_
    | with_reducible refine keeps_foldl (fun _ _ _ => ?_) ?_))

theorem mariReport_keeps {s0 : State} {s : State} {t_ : Nat} {code : Nat} (h : Keeps s0 s) : Keeps s0 (mariReport s t_ code) :=
    by
  unfold mariReport
  (repeat' (first
    | with_reducible assumption | (with_reducible refine State.setFlds_keeps ?_) | (with_reducible refine State.raise_keeps ?_)
    | (with_reducible refine updMari_keeps ?_)))

theorem mariAbort_keeps {s0 : State} {s : State} {t_ : Nat} (h : Keeps s0 s) : Keeps s0 (mariAbort s t_) := by
  unfold mariAbort
  (repeat' (first
    | with_reducible assumption | (with_reducible refine mariEnding_keeps ?_) | (with_reducible refine mariReport_keeps ?_)
    | (with_reducible refine tileClaimErr_keeps ?_) | with_reducible refine keeps_ite ?_ ?_))

theorem mariStart_keeps {s0 : State} {s : State} {t_ : Nat} {tab : Nat} (h : Keeps s0 s) : Keeps s0 (mariStart s t_ tab) := by
  unfold mariStart
  (repeat' (first
    | with_reducible assumption | (with_reducible refine tileCfgErr_keeps ?_) | (with_reducible refine State.setFld_keeps ?_)
    | (with_reducible refine State.setFlds_keeps ?_) | (with_reducible refine tileClaimErr_keeps ?_)
    | (with_reducible refine mariGo_keeps ?_) | (with_reducible refine updMari_keeps ?_)
    | with_reducible refine keeps_ite ?_ ?_))

theorem readAB_keeps {s0 : State} {s : State} {t_ : Nat} {st : Step} (h : Keeps s0 s) : KGot s0 (readAB s t_ st) := by
  unfold readAB
  (repeat' (first
    | with_reducible assumption | (with_reducible refine readSrc_keeps_e0 ?_ (by assumption))
    | (with_reducible refine readSrc_keeps_e1 ?_ (by assumption)) | with_reducible refine kGot_ok ?_
    | with_reducible refine kGot_stop ?_ | split))

theorem readAB_keeps_e0 {s0 : State} {s : State} {t_ : Nat} {st : Step} {x0} {t : State} (h : Keeps s0 s) (e : readAB s t_ st =
    .ok x0 t) : Keeps s0 t := by
  have k := readAB_keeps (s0 := s0) (s := s) (t_ := t_) (st := st) h
  rw [e] at k
  exact k

theorem readAB_keeps_e1 {s0 : State} {s : State} {t_ : Nat} {st : Step} {x0} {t : State} (h : Keeps s0 s) (e : readAB s t_ st =
    .stop x0 t) : Keeps s0 t := by
  have k := readAB_keeps (s0 := s0) (s := s) (t_ := t_) (st := st) h
  rw [e] at k
  exact k

theorem opCmp_keeps {s0 : State} {f : Int → Int → Bool} {s : State} {t_ : Nat} {st : Step} (h : Keeps s0 s) : KGot s0 (opCmp f
    s t_ st) := by
  unfold opCmp
  (repeat' (first
    | with_reducible assumption | (with_reducible refine readAB_keeps_e0 ?_ (by assumption))
    | (with_reducible refine readAB_keeps_e1 ?_ (by assumption)) | with_reducible refine kGot_ok ?_
    | with_reducible refine kGot_stop ?_ | split))

theorem opCmp_keeps_e0 {s0 : State} {f : Int → Int → Bool} {s : State} {t_ : Nat} {st : Step} {x0} {t : State} (h : Keeps s0 s)
    (e : opCmp f s t_ st = .ok x0 t) : Keeps s0 t := by
  have k := opCmp_keeps (s0 := s0) (f := f) (s := s) (t_ := t_) (st := st) h
  rw [e] at k
  exact k

theorem opCmp_keeps_e1 {s0 : State} {f : Int → Int → Bool} {s : State} {t_ : Nat} {st : Step} {x0} {t : State} (h : Keeps s0 s)
    (e : opCmp f s t_ st = .stop x0 t) : Keeps s0 t := by
  have k := opCmp_keeps (s0 := s0) (f := f) (s := s) (t_ := t_) (st := st) h
  rw [e] at k
  exact k

theorem execMariCmpgt_keeps {s0 : State} {t_ : TileId} {s : State} (h : Keeps s0 s) : KRes s0 (execMariCmpgt t_ s) := by
  unfold execMariCmpgt
  (repeat' (first
    | with_reducible assumption | (with_reducible refine mariRun_keeps ?_ ?_) | (with_reducible refine opCmp_keeps ?_)
    | with_reducible refine kRes_next ?_ | intro _))

theorem mariLoadDone_keeps {s0 : State} {s : State} {t_ : Nat} (h : Keeps s0 s) : Keeps s0 (mariLoadDone s t_) := by
  unfold mariLoadDone
  (repeat' (first
    | with_reducible assumption | (with_reducible refine readRam_keeps ?_) | (with_reducible refine mariEnding_keeps ?_)
    | (with_reducible refine mariGo_keeps ?_) | (with_reducible refine updMari_keeps ?_)
    | with_reducible refine keeps_ite ?_ ?_))

theorem execMariLoadDone_keeps {s0 : State} {t_ : TileId} {s : State} (h : Keeps s0 s) : KRes s0 (execMariLoadDone t_ s) := by
  unfold execMariLoadDone
  (repeat' (first
    | with_reducible assumption | (with_reducible refine mariLoadDone_keeps ?_) | with_reducible refine kRes_next ?_))

theorem mariBudget_keeps {s0 : State} {s : State} {t_ : Nat} (h : Keeps s0 s) : Keeps s0 (mariBudget s t_) := by
  unfold mariBudget
  (repeat' (first
    | with_reducible assumption | (with_reducible refine mariEnding_keeps ?_) | with_reducible refine keeps_ite ?_ ?_))

theorem execMariBudgetExpiry_keeps {s0 : State} {t_ : TileId} {s : State} (h : Keeps s0 s) : KRes s0 (execMariBudgetExpiry t_
    s) := by
  unfold execMariBudgetExpiry
  (repeat' (first
    | with_reducible assumption | (with_reducible refine mariBudget_keeps ?_) | with_reducible refine kRes_next ?_))

theorem opShn_keeps {s0 : State} {s : State} {t_ : Nat} {st : Step} (h : Keeps s0 s) : KGot s0 (opShn s t_ st) := by
  unfold opShn
  (repeat' (first
    | with_reducible assumption | (with_reducible refine readAB_keeps_e0 ?_ (by assumption))
    | (with_reducible refine readAB_keeps_e1 ?_ (by assumption)) | with_reducible refine kGot_ok ?_
    | with_reducible refine kGot_stop ?_ | split))

theorem opShn_keeps_e0 {s0 : State} {s : State} {t_ : Nat} {st : Step} {x0} {t : State} (h : Keeps s0 s) (e : opShn s t_ st =
    .ok x0 t) : Keeps s0 t := by
  have k := opShn_keeps (s0 := s0) (s := s) (t_ := t_) (st := st) h
  rw [e] at k
  exact k

theorem opShn_keeps_e1 {s0 : State} {s : State} {t_ : Nat} {st : Step} {x0} {t : State} (h : Keeps s0 s) (e : opShn s t_ st =
    .stop x0 t) : Keeps s0 t := by
  have k := opShn_keeps (s0 := s0) (s := s) (t_ := t_) (st := st) h
  rw [e] at k
  exact k

theorem execMariShn_keeps {s0 : State} {t_ : TileId} {s : State} (h : Keeps s0 s) : KRes s0 (execMariShn t_ s) := by
  unfold execMariShn
  (repeat' (first
    | with_reducible assumption | (with_reducible refine opShn_keeps ?_) | (with_reducible refine mariRun_keeps ?_ ?_)
    | with_reducible refine kRes_next ?_ | intro _))

theorem opMov_keeps {s0 : State} {s : State} {t_ : Nat} {st : Step} (h : Keeps s0 s) : KGot s0 (opMov s t_ st) := by
  unfold opMov
  (repeat' (first
    | with_reducible assumption | (with_reducible refine readSrc_keeps_e0 ?_ (by assumption))
    | (with_reducible refine readSrc_keeps_e1 ?_ (by assumption)) | with_reducible refine kGot_ok ?_
    | with_reducible refine kGot_stop ?_ | split))

theorem opMov_keeps_e0 {s0 : State} {s : State} {t_ : Nat} {st : Step} {x0} {t : State} (h : Keeps s0 s) (e : opMov s t_ st =
    .ok x0 t) : Keeps s0 t := by
  have k := opMov_keeps (s0 := s0) (s := s) (t_ := t_) (st := st) h
  rw [e] at k
  exact k

theorem opMov_keeps_e1 {s0 : State} {s : State} {t_ : Nat} {st : Step} {x0} {t : State} (h : Keeps s0 s) (e : opMov s t_ st =
    .stop x0 t) : Keeps s0 t := by
  have k := opMov_keeps (s0 := s0) (s := s) (t_ := t_) (st := st) h
  rw [e] at k
  exact k

theorem execMariMov_keeps {s0 : State} {t_ : TileId} {s : State} (h : Keeps s0 s) : KRes s0 (execMariMov t_ s) := by
  unfold execMariMov
  (repeat' (first
    | with_reducible assumption | (with_reducible refine mariRun_keeps ?_ ?_) | (with_reducible refine opMov_keeps ?_)
    | with_reducible refine kRes_next ?_ | intro _))

theorem mariRunEnd_keeps {s0 : State} {s : State} {t_ : Nat} (h : Keeps s0 s) : Keeps s0 (mariRunEnd s t_) := by
  unfold mariRunEnd
  (repeat' (first | with_reducible assumption | (with_reducible refine mariReport_keeps ?_) | split))

theorem opSel_keeps {s0 : State} {s : State} {t_ : Nat} {st : Step} (h : Keeps s0 s) : KGot s0 (opSel s t_ st) := by
  unfold opSel
  (repeat' (first
    | with_reducible assumption | (with_reducible refine readAB_keeps_e0 ?_ (by assumption))
    | (with_reducible refine readAB_keeps_e1 ?_ (by assumption)) | with_reducible refine kGot_ok ?_
    | with_reducible refine kGot_stop ?_ | split))

theorem opSel_keeps_e0 {s0 : State} {s : State} {t_ : Nat} {st : Step} {x0} {t : State} (h : Keeps s0 s) (e : opSel s t_ st =
    .ok x0 t) : Keeps s0 t := by
  have k := opSel_keeps (s0 := s0) (s := s) (t_ := t_) (st := st) h
  rw [e] at k
  exact k

theorem opSel_keeps_e1 {s0 : State} {s : State} {t_ : Nat} {st : Step} {x0} {t : State} (h : Keeps s0 s) (e : opSel s t_ st =
    .stop x0 t) : Keeps s0 t := by
  have k := opSel_keeps (s0 := s0) (s := s) (t_ := t_) (st := st) h
  rw [e] at k
  exact k

theorem execMariSel_keeps {s0 : State} {t_ : TileId} {s : State} (h : Keeps s0 s) : KRes s0 (execMariSel t_ s) := by
  unfold execMariSel
  (repeat' (first
    | with_reducible assumption | (with_reducible refine opSel_keeps ?_) | (with_reducible refine mariRun_keeps ?_ ?_)
    | with_reducible refine kRes_next ?_ | intro _))

theorem gather_keeps {s0 s : State} {t_ w : Nat} {os : List Nat} (h : Keeps s0 s) : KGot s0 (gather s t_ w os) := by
  induction os generalizing s with
  | nil => exact h
  | cons o os ih =>
    unfold gather
    split
    · exact h
    · split
      · next e => exact readRam_keeps_e h e
      · next bs s1 e =>
        have k := ih (readRam_keeps_e h e)
        split
        · next e2 => rw [e2] at k; exact k
        · next e2 => rw [e2] at k; exact k

theorem gather_keeps_e0 {s0 s : State} {t_ w : Nat} {os r : List Nat} {t : State} (h : Keeps s0 s) (e : gather s t_ w os = .ok
    r t) :
    Keeps s0 t := by
  have k := gather_keeps (t_ := t_) (w := w) (os := os) h
  rw [e] at k
  exact k

theorem gather_keeps_e1 {s0 s : State} {t_ w c : Nat} {os : List Nat} {t : State} (h : Keeps s0 s) (e : gather s t_ w os =
    .stop c t) :
    Keeps s0 t := by
  have k := gather_keeps (t_ := t_) (w := w) (os := os) h
  rw [e] at k
  exact k


theorem opGath_keeps {s0 : State} {s : State} {t_ : Nat} {st : Step} (h : Keeps s0 s) : KGot s0 (opGath s t_ st) := by
  unfold opGath
  (repeat' (first
    | with_reducible assumption | (with_reducible refine gather_keeps_e0 ?_ (by assumption))
    | (with_reducible refine gather_keeps_e1 ?_ (by assumption)) | (with_reducible refine readSrc_keeps_e0 ?_ (by assumption))
    | (with_reducible refine readSrc_keeps_e1 ?_ (by assumption)) | with_reducible refine kGot_ok ?_
    | with_reducible refine kGot_stop ?_ | split))

theorem opGath_keeps_e0 {s0 : State} {s : State} {t_ : Nat} {st : Step} {x0} {t : State} (h : Keeps s0 s) (e : opGath s t_ st =
    .ok x0 t) : Keeps s0 t := by
  have k := opGath_keeps (s0 := s0) (s := s) (t_ := t_) (st := st) h
  rw [e] at k
  exact k

theorem opGath_keeps_e1 {s0 : State} {s : State} {t_ : Nat} {st : Step} {x0} {t : State} (h : Keeps s0 s) (e : opGath s t_ st =
    .stop x0 t) : Keeps s0 t := by
  have k := opGath_keeps (s0 := s0) (s := s) (t_ := t_) (st := st) h
  rw [e] at k
  exact k

theorem execMariGath_keeps {s0 : State} {t_ : TileId} {s : State} (h : Keeps s0 s) : KRes s0 (execMariGath t_ s) := by
  unfold execMariGath
  (repeat' (first
    | with_reducible assumption | (with_reducible refine opGath_keeps ?_) | (with_reducible refine mariRun_keeps ?_ ?_)
    | with_reducible refine kRes_next ?_ | intro _))

theorem opCpk_keeps {s0 : State} {s : State} {t_ : Nat} {st : Step} (h : Keeps s0 s) : KGot s0 (opCpk s t_ st) := by
  unfold opCpk
  (repeat' (first
    | with_reducible assumption | (with_reducible refine readSrc_keeps_e0 ?_ (by assumption))
    | (with_reducible refine readSrc_keeps_e1 ?_ (by assumption)) | with_reducible refine kGot_ok ?_
    | with_reducible refine kGot_stop ?_ | split))

theorem opCpk_keeps_e0 {s0 : State} {s : State} {t_ : Nat} {st : Step} {x0} {t : State} (h : Keeps s0 s) (e : opCpk s t_ st =
    .ok x0 t) : Keeps s0 t := by
  have k := opCpk_keeps (s0 := s0) (s := s) (t_ := t_) (st := st) h
  rw [e] at k
  exact k

theorem opCpk_keeps_e1 {s0 : State} {s : State} {t_ : Nat} {st : Step} {x0} {t : State} (h : Keeps s0 s) (e : opCpk s t_ st =
    .stop x0 t) : Keeps s0 t := by
  have k := opCpk_keeps (s0 := s0) (s := s) (t_ := t_) (st := st) h
  rw [e] at k
  exact k

theorem histBins_keeps {s0 : State} {s : State} {t_ : Nat} {base : Nat} {hov : Bool} {y4 : List Nat} (h : Keeps s0 s) : KGot s0
    (histBins s t_ base hov y4) := by
  fun_induction histBins s t_ base hov y4 <;> (repeat' (first
    | (with_reducible refine writeMem_keeps ?_) | (with_reducible refine readRam_keeps_e ?_ (by assumption))
    | with_reducible refine kGot_stop ?_ | with_reducible apply_assumption))

theorem histBins_keeps_e0 {s0 : State} {s : State} {t_ : Nat} {base : Nat} {hov : Bool} {y4 : List Nat} {x0} {t : State} (h :
    Keeps s0 s) (e : histBins s t_ base hov y4 = .ok x0 t) : Keeps s0 t := by
  have k := histBins_keeps (s0 := s0) (s := s) (t_ := t_) (base := base) (hov := hov) (y4 := y4) h
  rw [e] at k
  exact k

theorem histBins_keeps_e1 {s0 : State} {s : State} {t_ : Nat} {base : Nat} {hov : Bool} {y4 : List Nat} {x0} {t : State} (h :
    Keeps s0 s) (e : histBins s t_ base hov y4 = .stop x0 t) : Keeps s0 t := by
  have k := histBins_keeps (s0 := s0) (s := s) (t_ := t_) (base := base) (hov := hov) (y4 := y4) h
  rw [e] at k
  exact k

theorem opArith_keeps {s0 : State} {f : Int → Int → Int} {s : State} {t_ : Nat} {st : Step} (h : Keeps s0 s) : KGot s0 (opArith
    f s t_ st) := by
  unfold opArith
  (repeat' (first
    | with_reducible assumption | (with_reducible refine readAB_keeps_e0 ?_ (by assumption))
    | (with_reducible refine readAB_keeps_e1 ?_ (by assumption)) | with_reducible refine kGot_ok ?_
    | with_reducible refine kGot_stop ?_ | split))

theorem opArith_keeps_e0 {s0 : State} {f : Int → Int → Int} {s : State} {t_ : Nat} {st : Step} {x0} {t : State} (h : Keeps s0
    s) (e : opArith f s t_ st = .ok x0 t) : Keeps s0 t := by
  have k := opArith_keeps (s0 := s0) (f := f) (s := s) (t_ := t_) (st := st) h
  rw [e] at k
  exact k

theorem opArith_keeps_e1 {s0 : State} {f : Int → Int → Int} {s : State} {t_ : Nat} {st : Step} {x0} {t : State} (h : Keeps s0
    s) (e : opArith f s t_ st = .stop x0 t) : Keeps s0 t := by
  have k := opArith_keeps (s0 := s0) (f := f) (s := s) (t_ := t_) (st := st) h
  rw [e] at k
  exact k

theorem execMariMax_keeps {s0 : State} {t_ : TileId} {s : State} (h : Keeps s0 s) : KRes s0 (execMariMax t_ s) := by
  unfold execMariMax
  (repeat' (first
    | with_reducible assumption | (with_reducible refine opArith_keeps ?_) | (with_reducible refine mariRun_keeps ?_ ?_)
    | with_reducible refine kRes_next ?_ | intro _))

theorem opNop_keeps {s0 : State} {s : State} {t_ : Nat} {y2 : Step} (h : Keeps s0 s) : KGot s0 (opNop s t_ y2) := by
  unfold opNop
  (repeat' (first | with_reducible assumption | with_reducible refine kGot_ok ?_))

theorem opNop_keeps_e0 {s0 : State} {s : State} {t_ : Nat} {y2 : Step} {x0} {t : State} (h : Keeps s0 s) (e : opNop s t_ y2 =
    .ok x0 t) : Keeps s0 t := by
  have k := opNop_keeps (s0 := s0) (s := s) (t_ := t_) (y2 := y2) h
  rw [e] at k
  exact k

theorem opNop_keeps_e1 {s0 : State} {s : State} {t_ : Nat} {y2 : Step} {x0} {t : State} (h : Keeps s0 s) (e : opNop s t_ y2 =
    .stop x0 t) : Keeps s0 t := by
  have k := opNop_keeps (s0 := s0) (s := s) (t_ := t_) (y2 := y2) h
  rw [e] at k
  exact k

theorem execMariNop_keeps {s0 : State} {t_ : TileId} {s : State} (h : Keeps s0 s) : KRes s0 (execMariNop t_ s) := by
  unfold execMariNop
  (repeat' (first
    | with_reducible assumption | (with_reducible refine opNop_keeps ?_) | (with_reducible refine mariRun_keeps ?_ ?_)
    | with_reducible refine kRes_next ?_ | intro _))

theorem readRaster_keeps {s0 : State} {s : State} {t_ : Nat} {st : Step} (h : Keeps s0 s) : KGot s0 (readRaster s t_ st) := by
  unfold readRaster
  (repeat' (first
    | with_reducible assumption | (with_reducible refine readStream_keeps_e0 ?_ (by assumption))
    | (with_reducible refine readStream_keeps_e1 ?_ (by assumption)) | with_reducible refine kGot_ok ?_
    | with_reducible refine kGot_stop ?_ | dsimp only | split))

theorem readRaster_keeps_e0 {s0 : State} {s : State} {t_ : Nat} {st : Step} {x0} {t : State} (h : Keeps s0 s) (e : readRaster s
    t_ st = .ok x0 t) : Keeps s0 t := by
  have k := readRaster_keeps (s0 := s0) (s := s) (t_ := t_) (st := st) h
  rw [e] at k
  exact k

theorem readRaster_keeps_e1 {s0 : State} {s : State} {t_ : Nat} {st : Step} {x0} {t : State} (h : Keeps s0 s) (e : readRaster s
    t_ st = .stop x0 t) : Keeps s0 t := by
  have k := readRaster_keeps (s0 := s0) (s := s) (t_ := t_) (st := st) h
  rw [e] at k
  exact k

theorem opNsum3_keeps {s0 : State} {s : State} {t_ : Nat} {st : Step} (h : Keeps s0 s) : KGot s0 (opNsum3 s t_ st) := by
  unfold opNsum3
  (repeat' (first
    | with_reducible assumption | (with_reducible refine State.fresh_keeps ?_)
    | (with_reducible refine readRaster_keeps_e0 ?_ (by assumption))
    | (with_reducible refine readRaster_keeps_e1 ?_ (by assumption)) | with_reducible refine kGot_ok ?_
    | with_reducible refine kGot_stop ?_ | split))

theorem opNsum3_keeps_e0 {s0 : State} {s : State} {t_ : Nat} {st : Step} {x0} {t : State} (h : Keeps s0 s) (e : opNsum3 s t_ st
    = .ok x0 t) : Keeps s0 t := by
  have k := opNsum3_keeps (s0 := s0) (s := s) (t_ := t_) (st := st) h
  rw [e] at k
  exact k

theorem opNsum3_keeps_e1 {s0 : State} {s : State} {t_ : Nat} {st : Step} {x0} {t : State} (h : Keeps s0 s) (e : opNsum3 s t_ st
    = .stop x0 t) : Keeps s0 t := by
  have k := opNsum3_keeps (s0 := s0) (s := s) (t_ := t_) (st := st) h
  rw [e] at k
  exact k

theorem execMariNsum3_keeps {s0 : State} {t_ : TileId} {s : State} (h : Keeps s0 s) : KRes s0 (execMariNsum3 t_ s) := by
  unfold execMariNsum3
  (repeat' (first
    | with_reducible assumption | (with_reducible refine mariRun_keeps ?_ ?_) | (with_reducible refine opNsum3_keeps ?_)
    | with_reducible refine kRes_next ?_ | intro _))

theorem opPopc_keeps {s0 : State} {s : State} {t_ : Nat} {st : Step} (h : Keeps s0 s) : KGot s0 (opPopc s t_ st) := by
  unfold opPopc
  (repeat' (first | with_reducible assumption | with_reducible refine kGot_ok ?_))

theorem opPopc_keeps_e0 {s0 : State} {s : State} {t_ : Nat} {st : Step} {x0} {t : State} (h : Keeps s0 s) (e : opPopc s t_ st =
    .ok x0 t) : Keeps s0 t := by
  have k := opPopc_keeps (s0 := s0) (s := s) (t_ := t_) (st := st) h
  rw [e] at k
  exact k

theorem opPopc_keeps_e1 {s0 : State} {s : State} {t_ : Nat} {st : Step} {x0} {t : State} (h : Keeps s0 s) (e : opPopc s t_ st =
    .stop x0 t) : Keeps s0 t := by
  have k := opPopc_keeps (s0 := s0) (s := s) (t_ := t_) (st := st) h
  rw [e] at k
  exact k

theorem execMariPopc_keeps {s0 : State} {t_ : TileId} {s : State} (h : Keeps s0 s) : KRes s0 (execMariPopc t_ s) := by
  unfold execMariPopc
  (repeat' (first
    | with_reducible assumption | (with_reducible refine mariRun_keeps ?_ ?_) | (with_reducible refine opPopc_keeps ?_)
    | with_reducible refine kRes_next ?_ | intro _))

theorem opPsum_keeps {s0 : State} {s : State} {t_ : Nat} {st : Step} (h : Keeps s0 s) : KGot s0 (opPsum s t_ st) := by
  unfold opPsum
  (repeat' (first
    | with_reducible assumption | (with_reducible refine readSrc_keeps_e0 ?_ (by assumption))
    | (with_reducible refine readSrc_keeps_e1 ?_ (by assumption)) | with_reducible refine kGot_ok ?_
    | with_reducible refine kGot_stop ?_ | split))

theorem opPsum_keeps_e0 {s0 : State} {s : State} {t_ : Nat} {st : Step} {x0} {t : State} (h : Keeps s0 s) (e : opPsum s t_ st =
    .ok x0 t) : Keeps s0 t := by
  have k := opPsum_keeps (s0 := s0) (s := s) (t_ := t_) (st := st) h
  rw [e] at k
  exact k

theorem opPsum_keeps_e1 {s0 : State} {s : State} {t_ : Nat} {st : Step} {x0} {t : State} (h : Keeps s0 s) (e : opPsum s t_ st =
    .stop x0 t) : Keeps s0 t := by
  have k := opPsum_keeps (s0 := s0) (s := s) (t_ := t_) (st := st) h
  rw [e] at k
  exact k

theorem execMariPsum_keeps {s0 : State} {t_ : TileId} {s : State} (h : Keeps s0 s) : KRes s0 (execMariPsum t_ s) := by
  unfold execMariPsum
  (repeat' (first
    | with_reducible assumption | (with_reducible refine opPsum_keeps ?_) | (with_reducible refine mariRun_keeps ?_ ?_)
    | with_reducible refine kRes_next ?_ | intro _))

theorem opCpkp_keeps {s0 : State} {s : State} {t_ : Nat} {st : Step} (h : Keeps s0 s) : KGot s0 (opCpkp s t_ st) := by
  unfold opCpkp
  (repeat' (first
    | with_reducible assumption | (with_reducible refine readSrc_keeps_e0 ?_ (by assumption))
    | (with_reducible refine readSrc_keeps_e1 ?_ (by assumption)) | with_reducible refine kGot_ok ?_
    | with_reducible refine kGot_stop ?_ | split))

theorem opCpkp_keeps_e0 {s0 : State} {s : State} {t_ : Nat} {st : Step} {x0} {t : State} (h : Keeps s0 s) (e : opCpkp s t_ st =
    .ok x0 t) : Keeps s0 t := by
  have k := opCpkp_keeps (s0 := s0) (s := s) (t_ := t_) (st := st) h
  rw [e] at k
  exact k

theorem opCpkp_keeps_e1 {s0 : State} {s : State} {t_ : Nat} {st : Step} {x0} {t : State} (h : Keeps s0 s) (e : opCpkp s t_ st =
    .stop x0 t) : Keeps s0 t := by
  have k := opCpkp_keeps (s0 := s0) (s := s) (t_ := t_) (st := st) h
  rw [e] at k
  exact k

theorem execMariCpkp_keeps {s0 : State} {t_ : TileId} {s : State} (h : Keeps s0 s) : KRes s0 (execMariCpkp t_ s) := by
  unfold execMariCpkp
  (repeat' (first
    | with_reducible assumption | (with_reducible refine opCpkp_keeps ?_) | (with_reducible refine mariRun_keeps ?_ ?_)
    | with_reducible refine kRes_next ?_ | intro _))

theorem execMariCpk_keeps {s0 : State} {t_ : TileId} {s : State} (h : Keeps s0 s) : KRes s0 (execMariCpk t_ s) := by
  unfold execMariCpk
  (repeat' (first
    | with_reducible assumption | (with_reducible refine mariRun_keeps ?_ ?_) | (with_reducible refine opCpk_keeps ?_)
    | with_reducible refine kRes_next ?_ | intro _))

theorem opBits_keeps {s0 : State} {f : Nat → Nat → Nat} {s : State} {t_ : Nat} {st : Step} (h : Keeps s0 s) : KGot s0 (opBits f
    s t_ st) := by
  unfold opBits
  (repeat' (first
    | with_reducible assumption | (with_reducible refine readAB_keeps_e0 ?_ (by assumption))
    | (with_reducible refine readAB_keeps_e1 ?_ (by assumption)) | with_reducible refine kGot_ok ?_
    | with_reducible refine kGot_stop ?_ | split))

theorem opBits_keeps_e0 {s0 : State} {f : Nat → Nat → Nat} {s : State} {t_ : Nat} {st : Step} {x0} {t : State} (h : Keeps s0 s)
    (e : opBits f s t_ st = .ok x0 t) : Keeps s0 t := by
  have k := opBits_keeps (s0 := s0) (f := f) (s := s) (t_ := t_) (st := st) h
  rw [e] at k
  exact k

theorem opBits_keeps_e1 {s0 : State} {f : Nat → Nat → Nat} {s : State} {t_ : Nat} {st : Step} {x0} {t : State} (h : Keeps s0 s)
    (e : opBits f s t_ st = .stop x0 t) : Keeps s0 t := by
  have k := opBits_keeps (s0 := s0) (f := f) (s := s) (t_ := t_) (st := st) h
  rw [e] at k
  exact k

theorem execMariOr_keeps {s0 : State} {t_ : TileId} {s : State} (h : Keeps s0 s) : KRes s0 (execMariOr t_ s) := by
  unfold execMariOr
  (repeat' (first
    | with_reducible assumption | (with_reducible refine opBits_keeps ?_) | (with_reducible refine mariRun_keeps ?_ ?_)
    | with_reducible refine kRes_next ?_ | intro _))

theorem execMariCmpge_keeps {s0 : State} {t_ : TileId} {s : State} (h : Keeps s0 s) : KRes s0 (execMariCmpge t_ s) := by
  unfold execMariCmpge
  (repeat' (first
    | with_reducible assumption | (with_reducible refine mariRun_keeps ?_ ?_) | (with_reducible refine opCmp_keeps ?_)
    | with_reducible refine kRes_next ?_ | intro _))

theorem restoreMem_keeps {s0 s old : State} (h : Keeps s0 s) (ho : Keeps s0 old) : Keeps s0 (restoreMem s old) :=
  ⟨h.pending, h.regs, ho.mem, h.life, h.up, h.back, h.uid, h.cores⟩


theorem opHist_keeps {s0 : State} {s : State} {t_ : Nat} {st : Step} (h : Keeps s0 s) : KGot s0 (opHist s t_ st) := by
  unfold opHist
  (repeat' (first
    | with_reducible assumption | (with_reducible refine histBins_keeps_e0 ?_ (by assumption))
    | (with_reducible refine histBins_keeps_e1 ?_ (by assumption)) | (with_reducible refine restoreMem_keeps ?_ ?_)
    | (with_reducible refine readSrc_keeps_e0 ?_ (by assumption)) | (with_reducible refine readSrc_keeps_e1 ?_ (by assumption))
    | with_reducible refine kGot_ok ?_ | with_reducible refine kGot_stop ?_ | dsimp only | split))

theorem opHist_keeps_e0 {s0 : State} {s : State} {t_ : Nat} {st : Step} {x0} {t : State} (h : Keeps s0 s) (e : opHist s t_ st =
    .ok x0 t) : Keeps s0 t := by
  have k := opHist_keeps (s0 := s0) (s := s) (t_ := t_) (st := st) h
  rw [e] at k
  exact k

theorem opHist_keeps_e1 {s0 : State} {s : State} {t_ : Nat} {st : Step} {x0} {t : State} (h : Keeps s0 s) (e : opHist s t_ st =
    .stop x0 t) : Keeps s0 t := by
  have k := opHist_keeps (s0 := s0) (s := s) (t_ := t_) (st := st) h
  rw [e] at k
  exact k

theorem execMariHist_keeps {s0 : State} {t_ : TileId} {s : State} (h : Keeps s0 s) : KRes s0 (execMariHist t_ s) := by
  unfold execMariHist
  (repeat' (first
    | with_reducible assumption | (with_reducible refine opHist_keeps ?_) | (with_reducible refine mariRun_keeps ?_ ?_)
    | with_reducible refine kRes_next ?_ | intro _))

theorem execMariCmpeq_keeps {s0 : State} {t_ : TileId} {s : State} (h : Keeps s0 s) : KRes s0 (execMariCmpeq t_ s) := by
  unfold execMariCmpeq
  (repeat' (first
    | with_reducible assumption | (with_reducible refine mariRun_keeps ?_ ?_) | (with_reducible refine opCmp_keeps ?_)
    | with_reducible refine kRes_next ?_ | intro _))

theorem opLmax3_keeps {s0 : State} {s : State} {t_ : Nat} {st : Step} (h : Keeps s0 s) : KGot s0 (opLmax3 s t_ st) := by
  unfold opLmax3
  (repeat' (first
    | with_reducible assumption | (with_reducible refine State.fresh_keeps ?_)
    | (with_reducible refine readRaster_keeps_e0 ?_ (by assumption))
    | (with_reducible refine readRaster_keeps_e1 ?_ (by assumption)) | with_reducible refine kGot_ok ?_
    | with_reducible refine kGot_stop ?_ | split))

theorem opLmax3_keeps_e0 {s0 : State} {s : State} {t_ : Nat} {st : Step} {x0} {t : State} (h : Keeps s0 s) (e : opLmax3 s t_ st
    = .ok x0 t) : Keeps s0 t := by
  have k := opLmax3_keeps (s0 := s0) (s := s) (t_ := t_) (st := st) h
  rw [e] at k
  exact k

theorem opLmax3_keeps_e1 {s0 : State} {s : State} {t_ : Nat} {st : Step} {x0} {t : State} (h : Keeps s0 s) (e : opLmax3 s t_ st
    = .stop x0 t) : Keeps s0 t := by
  have k := opLmax3_keeps (s0 := s0) (s := s) (t_ := t_) (st := st) h
  rw [e] at k
  exact k

theorem execMariMin_keeps {s0 : State} {t_ : TileId} {s : State} (h : Keeps s0 s) : KRes s0 (execMariMin t_ s) := by
  unfold execMariMin
  (repeat' (first
    | with_reducible assumption | (with_reducible refine opArith_keeps ?_) | (with_reducible refine mariRun_keeps ?_ ?_)
    | with_reducible refine kRes_next ?_ | intro _))

theorem execMariXor_keeps {s0 : State} {t_ : TileId} {s : State} (h : Keeps s0 s) : KRes s0 (execMariXor t_ s) := by
  unfold execMariXor
  (repeat' (first
    | with_reducible assumption | (with_reducible refine opBits_keeps ?_) | (with_reducible refine mariRun_keeps ?_ ?_)
    | with_reducible refine kRes_next ?_ | intro _))

theorem execMariRunEnd_keeps {s0 : State} {t_ : TileId} {s : State} (h : Keeps s0 s) : KRes s0 (execMariRunEnd t_ s) := by
  unfold execMariRunEnd
  (repeat' (first
    | with_reducible assumption | (with_reducible refine mariRunEnd_keeps ?_) | with_reducible refine kRes_next ?_))

theorem execMariAnd_keeps {s0 : State} {t_ : TileId} {s : State} (h : Keeps s0 s) : KRes s0 (execMariAnd t_ s) := by
  unfold execMariAnd
  (repeat' (first
    | with_reducible assumption | (with_reducible refine opBits_keeps ?_) | (with_reducible refine mariRun_keeps ?_ ?_)
    | with_reducible refine kRes_next ?_ | intro _))

theorem opThr_keeps {s0 : State} {s : State} {t_ : Nat} {st : Step} (h : Keeps s0 s) : KGot s0 (opThr s t_ st) := by
  unfold opThr
  (repeat' (first
    | with_reducible assumption | (with_reducible refine readSrc_keeps_e0 ?_ (by assumption))
    | (with_reducible refine readSrc_keeps_e1 ?_ (by assumption)) | with_reducible refine kGot_ok ?_
    | with_reducible refine kGot_stop ?_ | split))

theorem opThr_keeps_e0 {s0 : State} {s : State} {t_ : Nat} {st : Step} {x0} {t : State} (h : Keeps s0 s) (e : opThr s t_ st =
    .ok x0 t) : Keeps s0 t := by
  have k := opThr_keeps (s0 := s0) (s := s) (t_ := t_) (st := st) h
  rw [e] at k
  exact k

theorem opThr_keeps_e1 {s0 : State} {s : State} {t_ : Nat} {st : Step} {x0} {t : State} (h : Keeps s0 s) (e : opThr s t_ st =
    .stop x0 t) : Keeps s0 t := by
  have k := opThr_keeps (s0 := s0) (s := s) (t_ := t_) (st := st) h
  rw [e] at k
  exact k

theorem execMariThr_keeps {s0 : State} {t_ : TileId} {s : State} (h : Keeps s0 s) : KRes s0 (execMariThr t_ s) := by
  unfold execMariThr
  (repeat' (first
    | with_reducible assumption | (with_reducible refine opThr_keeps ?_) | (with_reducible refine mariRun_keeps ?_ ?_)
    | with_reducible refine kRes_next ?_ | intro _))

theorem execMariShl_keeps {s0 : State} {t_ : TileId} {s : State} (h : Keeps s0 s) : KRes s0 (execMariShl t_ s) := by
  unfold execMariShl
  (repeat' (first
    | with_reducible assumption | (with_reducible refine mariRun_keeps ?_ ?_) | (with_reducible refine opShift_keeps ?_)
    | with_reducible refine kRes_next ?_ | intro _))

theorem execMariAdd_keeps {s0 : State} {t_ : TileId} {s : State} (h : Keeps s0 s) : KRes s0 (execMariAdd t_ s) := by
  unfold execMariAdd
  (repeat' (first
    | with_reducible assumption | (with_reducible refine opArith_keeps ?_) | (with_reducible refine mariRun_keeps ?_ ?_)
    | with_reducible refine kRes_next ?_ | intro _))

theorem execMariLmax3_keeps {s0 : State} {t_ : TileId} {s : State} (h : Keeps s0 s) : KRes s0 (execMariLmax3 t_ s) := by
  unfold execMariLmax3
  (repeat' (first
    | with_reducible assumption | (with_reducible refine opLmax3_keeps ?_) | (with_reducible refine mariRun_keeps ?_ ?_)
    | with_reducible refine kRes_next ?_ | intro _))

theorem execMariSub_keeps {s0 : State} {t_ : TileId} {s : State} (h : Keeps s0 s) : KRes s0 (execMariSub t_ s) := by
  unfold execMariSub
  (repeat' (first
    | with_reducible assumption | (with_reducible refine opArith_keeps ?_) | (with_reducible refine mariRun_keeps ?_ ?_)
    | with_reducible refine kRes_next ?_ | intro _))

/-! ### Cstore -/

theorem csEraseArr_keeps {s0 : State} {s : State} {b : Nat} (h : Keeps s0 s) : Keeps s0 (csEraseArr s b) := by
  unfold csEraseArr
  (repeat' (first | with_reducible assumption | fail_if_no_progress (with_reducible refine Keeps.upd ?_)))

theorem setCsFlags_keeps {s0 : State} {s : State} {b : Nat} {v : Nat} (h : Keeps s0 s) : Keeps s0 (setCsFlags s b v) := by
  unfold setCsFlags
  (repeat' (first | with_reducible assumption | fail_if_no_progress (with_reducible refine Keeps.upd ?_)))

theorem csEraseWhole_keeps {s0 : State} {s : State} {b : Nat} {ok : Bool} (h : Keeps s0 s) : Keeps s0 (csEraseWhole s b ok) :=
    by
  unfold csEraseWhole
  (repeat' (first
    | with_reducible assumption | (with_reducible refine csEraseArr_keeps ?_) | (with_reducible refine setCsFlags_keeps ?_)
    | with_reducible refine keeps_ite ?_ ?_))

theorem csProgram_keeps {s0 : State} {s : State} {a : Nat} {y2 : List Byte} (h : Keeps s0 s) : Keeps s0 (csProgram s a y2) := by
  fun_induction csProgram s a y2 <;> (repeat' (first
    | fail_if_no_progress (with_reducible refine Keeps.upd ?_) | with_reducible apply_assumption))

theorem csCutOff_keeps {s0 : State} {s : State} (h : Keeps s0 s) : Keeps s0 (csCutOff s) := by
  unfold csCutOff
  (repeat' (first
    | with_reducible assumption | (with_reducible refine setCsFlags_keeps ?_) | (with_reducible refine csProgram_keeps ?_)
    | split | fail_if_no_progress (with_reducible refine Keeps.upd ?_)))

theorem csEnd_keeps {s0 : State} {s : State} {o : CsOp} {code : Nat} (h : Keeps s0 s) : Keeps s0 (csEnd s o code) := by
  unfold csEnd
  (repeat' (first
    | with_reducible assumption | (with_reducible refine State.setFlds_keeps ?_) | (with_reducible refine State.raise_keeps ?_)
    | with_reducible refine keeps_ite ?_ ?_ | fail_if_no_progress (with_reducible refine Keeps.upd ?_)))

theorem csOpDone_keeps {s0 : State} {s : State} {ok : Bool} (h : Keeps s0 s) : Keeps s0 (csOpDone s ok) := by
  unfold csOpDone
  (repeat' (first
    | with_reducible assumption | (with_reducible refine csEnd_keeps ?_) | (with_reducible refine csEraseArr_keeps ?_)
    | (with_reducible refine setCsFlags_keeps ?_) | (with_reducible refine csProgram_keeps ?_) | split
    | fail_if_no_progress (with_reducible refine Keeps.upd ?_)))

theorem gateRecord_keeps {s0 : State} {s : State} {n : Nat} {gen : Nat} {ok : Bool} (h : Keeps s0 s) : Keeps s0 (gateRecord s n
    gen ok).2.2 := by
  unfold gateRecord
  (repeat' (first
    | with_reducible assumption | (with_reducible refine State.setFlds_keeps ?_) | (with_reducible refine csOpDone_keeps ?_)
    | dsimp only | split | fail_if_no_progress (with_reducible refine Keeps.upd ?_)))

theorem gateRecord_keeps_e {s0 : State} {s : State} {n : Nat} {gen : Nat} {ok : Bool} {x0 x1} {t : State} (h : Keeps s0 s) (e :
    gateRecord s n gen ok = (x0, (x1, t))) : Keeps s0 t := by
  have k := gateRecord_keeps (s0 := s0) (s := s) (n := n) (gen := gen) (ok := ok) h
  rw [e] at k
  exact k

theorem gateCommit_keeps {s0 : State} {s : State} {n : Nat} {act : Nat} {fault : Bool} {ok : Bool} (h : Keeps s0 s) : Keeps s0
    (gateCommit s n act fault ok).2.2 := by
  unfold gateCommit
  (repeat' (first | with_reducible assumption | (with_reducible refine gateRecord_keeps ?_) | split))

theorem gateCommit_keeps_e {s0 : State} {s : State} {n : Nat} {act : Nat} {fault : Bool} {ok : Bool} {x0 x1} {t : State} (h :
    Keeps s0 s) (e : gateCommit s n act fault ok = (x0, (x1, t))) : Keeps s0 t := by
  have k := gateCommit_keeps (s0 := s0) (s := s) (n := n) (act := act) (fault := fault) (ok := ok) h
  rw [e] at k
  exact k

theorem gateActivate_keeps {s0 : State} {s : State} {n : Nat} {fault : Bool} {ok : Bool} (h : Keeps s0 s) : Keeps s0
    (gateActivate s n fault ok).2.2 := by
  unfold gateActivate
  (repeat' (first
    | with_reducible assumption | (with_reducible refine State.fresh_keeps ?_) | (with_reducible refine gateRecord_keeps ?_)
    | split))

theorem gateActivate_keeps_e {s0 : State} {s : State} {n : Nat} {fault : Bool} {ok : Bool} {x0 x1} {t : State} (h : Keeps s0 s)
    (e : gateActivate s n fault ok = (x0, (x1, t))) : Keeps s0 t := by
  have k := gateActivate_keeps (s0 := s0) (s := s) (n := n) (fault := fault) (ok := ok) h
  rw [e] at k
  exact k

theorem gateReject_keeps {s0 : State} {s : State} (h : Keeps s0 s) : Keeps s0 (gateReject s) := by
  unfold gateReject
  (repeat' (first
    | with_reducible assumption | (with_reducible refine setClaimErr_keeps ?_) | (with_reducible refine State.raise_keeps ?_)))

theorem csStart_keeps {s0 : State} {s : State} {op : Nat} {addr : Nat} {src : Nat} (h : Keeps s0 s) : KOpt (fun x => Keeps s0
    x) (csStart s op addr src) := by
  unfold csStart
  (repeat' (first
    | with_reducible assumption | with_reducible exact kOpt_none | with_reducible refine kOpt_some ?_ | split
    | fail_if_no_progress (with_reducible refine Keeps.upd ?_)))

theorem csStart_keeps_e {s0 : State} {s : State} {op : Nat} {addr : Nat} {src : Nat} {t : State} (h : Keeps s0 s) (e : csStart
    s op addr src = .some t) : Keeps s0 t := by
  have k := csStart_keeps (s0 := s0) (s := s) (op := op) (addr := addr) (src := src) h
  rw [e] at k
  exact k

theorem csGo_keeps {s0 : State} {s : State} {rq : Requester} {op : Nat} (h : Keeps s0 s) : Keeps s0 (csGo s rq op) := by
  unfold csGo
  (repeat' (first
    | with_reducible assumption | (with_reducible refine csStart_keeps_e ?_ (by assumption))
    | (with_reducible refine State.setFld_keeps ?_) | (with_reducible refine gateReject_keeps ?_) | dsimp only | split))

theorem wdtBootOk_keeps {s0 s : State} {v : Nat} (h : Keeps s0 s) : Keeps s0 (wdtBootOk s v) := by
  unfold wdtBootOk
  refine keeps_ite (h.trans ?_) h
  have k : Keeps s (s.clear R.WDT_STATUS_BOOTFAIL) := State.clear_keeps (Keeps.refl s)
  exact k.trans ⟨rfl, id, id, id, fun _ => Nat.le_refl _, Nat.le_max_left _ _, rfl, id⟩


theorem wdtKick_keeps {s0 : State} {s : State} {v : Nat} (h : Keeps s0 s) : Keeps s0 (wdtKick s v) := by
  unfold wdtKick
  (repeat' (first
    | with_reducible assumption | (with_reducible refine State.setFld_keeps ?_) | (with_reducible refine setCfgErr_keeps ?_)
    | with_reducible refine keeps_ite ?_ ?_))

theorem grownWrite_keeps {s0 : State} {s : State} {c : Nat} {seq : Nat} {bs : List Nat} (h : Keeps s0 s) : Keeps s0 (grownWrite
    s c seq bs) := by
  unfold grownWrite
  (repeat' (first
    | with_reducible assumption | (with_reducible refine csEraseWhole_keeps ?_) | (with_reducible refine csProgram_keeps ?_)
    | dsimp only | split))

theorem csBuildRemap_keeps {s0 : State} {s : State} {grown : List Nat} (h : Keeps s0 s) : Keeps s0 (csBuildRemap s grown) := by
  unfold csBuildRemap
  (repeat' (first | with_reducible assumption | fail_if_no_progress (with_reducible refine Keeps.upd ?_)))

theorem gateGrown_keeps {s0 : State} {s : State} {b : Nat} {ok0 : Bool} {ok1 : Bool} (h : Keeps s0 s) : Keeps s0 (gateGrown s b
    ok0 ok1).2.2 := by
  fun_cases gateGrown s b ok0 ok1 <;> (repeat' (first
    | with_reducible assumption | (with_reducible refine grownWrite_keeps ?_) | with_reducible refine keeps_ite ?_ ?_))

theorem gateGrown_keeps_e {s0 : State} {s : State} {b : Nat} {ok0 : Bool} {ok1 : Bool} {x0 x1} {t : State} (h : Keeps s0 s) (e
    : gateGrown s b ok0 ok1 = (x0, (x1, t))) : Keeps s0 t := by
  have k := gateGrown_keeps (s0 := s0) (s := s) (b := b) (ok0 := ok0) (ok1 := ok1) h
  rw [e] at k
  exact k

theorem gateProgram_keeps {s0 : State} {s : State} {off : Nat} {src : Nat} (h : Keeps s0 s) : Keeps s0 (gateProgram s off
    src).2.2 := by
  unfold gateProgram
  (repeat' (first
    | with_reducible assumption | (with_reducible refine csStart_keeps_e ?_ (by assumption))
    | (with_reducible refine State.setFlds_keeps ?_) | dsimp only | split))

theorem gateProgram_keeps_e {s0 : State} {s : State} {off : Nat} {src : Nat} {x0 x1} {t : State} (h : Keeps s0 s) (e :
    gateProgram s off src = (x0, (x1, t))) : Keeps s0 t := by
  have k := gateProgram_keeps (s0 := s0) (s := s) (off := off) (src := src) h
  rw [e] at k
  exact k

theorem wdtWarn_keeps {s0 : State} {s : State} (h : Keeps s0 s) : Keeps s0 (wdtWarn s) := by
  unfold wdtWarn
  (repeat' (first
    | with_reducible assumption | (with_reducible refine State.setFld_keeps ?_) | (with_reducible refine State.raise_keeps ?_)
    | with_reducible refine keeps_ite ?_ ?_))

theorem gateErase_keeps {s0 : State} {s : State} {b : Nat} (h : Keeps s0 s) : Keeps s0 (gateErase s b).2.2 := by
  unfold gateErase
  (repeat' (first
    | with_reducible assumption | (with_reducible refine csStart_keeps_e ?_ (by assumption))
    | (with_reducible refine State.setFld_keeps ?_) | split))

theorem gateErase_keeps_e {s0 : State} {s : State} {b : Nat} {x0 x1} {t : State} (h : Keeps s0 s) (e : gateErase s b = (x0,
    (x1, t))) : Keeps s0 t := by
  have k := gateErase_keeps (s0 := s0) (s := s) (b := b) h
  rw [e] at k
  exact k

end Sys2Proof.Machine
end

