-- ==== Sys2Proof/Laws/Keeps3.lean ====
section
/-! SUPPORT. Sys2Proof/Laws/Keeps3.lean: what each operation of Codec, Nand, NandOps, FtlMap, Ftl, Resets, Dram keeps (`Keeps`). -/

set_option Elab.async false
set_option linter.unusedVariables false

namespace Sys2Proof.Machine

/-! ### Codec -/

theorem dqTailWrite_keeps {s0 : State} {s : State} {idx : Nat} (h : Keeps s0 s) : Keeps s0 (dqTailWrite s idx) := by
  unfold dqTailWrite
  (repeat' (first
    | with_reducible assumption | (with_reducible refine State.setFld_keeps ?_) | (with_reducible refine setCfgErr_keeps ?_)
    | with_reducible refine keeps_ite ?_ ?_))

theorem tileDjob_keeps {s0 : State} {s : State} {t_ : Nat} {desc : Nat} (h : Keeps s0 s) : Keeps s0 (tileDjob s t_ desc) := by
  unfold tileDjob
  (repeat' (first
    | with_reducible assumption | (with_reducible refine readRam_keeps ?_) | (with_reducible refine State.setFld_keeps ?_)
    | (with_reducible refine State.setTile_keeps ?_) | (with_reducible refine State.raise_keeps ?_)
    | with_reducible refine keeps_ite ?_ ?_))

theorem codecClose_keeps {s0 : State} {s : State} {t_ : Nat} (h : Keeps s0 s) : Keeps s0 (codecClose s t_) := by
  unfold codecClose
  (repeat' (first | with_reducible assumption | (with_reducible refine State.setTile_keeps ?_)))

theorem codecSelect_keeps {s0 : State} {s : State} {t_ : Nat} {prof : Nat} (h : Keeps s0 s) : Keeps s0 (codecSelect s t_ prof)
    := by
  unfold codecSelect
  (repeat' (first
    | with_reducible assumption | (with_reducible refine State.setFld_keeps ?_)
    | (with_reducible refine State.setTile_keeps ?_) | (with_reducible refine State.raise_keeps ?_)
    | with_reducible refine keeps_ite ?_ ?_))

theorem decRead_keeps {s0 : State} {s : State} {a : Nat} {n : Nat} (h : Keeps s0 s) : Keeps s0 (decRead s a n).2.2 := by
  unfold decRead
  (repeat' (first | with_reducible assumption | (with_reducible refine readGlobal_keeps_e ?_ (by assumption)) | split))

theorem decRead_keeps_e {s0 : State} {s : State} {a : Nat} {n : Nat} {x0 x1} {t : State} (h : Keeps s0 s) (e : decRead s a n =
    (x0, (x1, t))) : Keeps s0 t := by
  have k := decRead_keeps (s0 := s0) (s := s) (a := a) (n := n) h
  rw [e] at k
  exact k

theorem decodeOne_keeps {s0 : State} {s : State} {d : DecJob} {o : Nat} {done : Nat} (h : Keeps s0 s) : Keeps s0 (decodeOne s d
    o done).2.2.2 := by
  unfold decodeOne
  (repeat' (first
    | with_reducible assumption | (with_reducible refine writeGlobal_keeps_e ?_ (by assumption))
    | (with_reducible refine decRead_keeps ?_) | dsimp only | split))

theorem decodeOne_keeps_e {s0 : State} {s : State} {d : DecJob} {o : Nat} {done : Nat} {x0 x1 x2} {t : State} (h : Keeps s0 s)
    (e : decodeOne s d o done = (x0, (x1, (x2, t)))) : Keeps s0 t := by
  have k := decodeOne_keeps (s0 := s0) (s := s) (d := d) (o := o) (done := done) h
  rw [e] at k
  exact k

theorem countBlock_keeps {s0 : State} {s : State} {mode : Nat} {exact : Bool} (h : Keeps s0 s) : Keeps s0 (countBlock s mode
    exact) := by
  unfold countBlock
  (repeat' (first
    | with_reducible assumption | (with_reducible refine State.addWrap_keeps ?_) | with_reducible refine keeps_ite ?_ ?_))

theorem blockOutput_keeps {s0 : State} {s : State} {t_ : Nat} (h : Keeps s0 s) : Keeps s0 (blockOutput s t_) := by
  unfold blockOutput
  (repeat' (first
    | with_reducible assumption | (with_reducible refine State.setTile_keeps ?_) | (with_reducible refine countBlock_keeps ?_)
    | (with_reducible refine State.addWrap_keeps ?_) | (with_reducible refine placeBlock_keeps_e ?_ (by assumption))
    | dsimp only | split))

theorem rejectBlock_keeps {s0 : State} {s : State} {t_ : Nat} {r : JobRef} {test : Nat} (h : Keeps s0 s) : Keeps s0
    (rejectBlock s t_ r test) := by
  unfold rejectBlock
  (repeat' (first
    | with_reducible assumption | (with_reducible refine State.setTile_keeps ?_) | (with_reducible refine State.raise_keeps ?_)
    | (with_reducible refine failRef_keeps ?_) | (with_reducible refine State.addWrap_keeps ?_)
    | (with_reducible refine State.capture_keeps ?_)))

theorem verifierDecide_keeps {s0 : State} {s : State} {t_ : Nat} {failed : Option VTest} (h : Keeps s0 s) : Keeps s0
    (verifierDecide s t_ failed) := by
  unfold verifierDecide
  (repeat' (first
    | with_reducible assumption | (with_reducible refine rejectBlock_keeps ?_) | (with_reducible refine State.setTile_keeps ?_)
    | dsimp only | split))

theorem decComplete_keeps {s0 : State} {s : State} {t_ : Nat} {tag : Nat} {e_ : DecEnd} (h : Keeps s0 s) : Keeps s0
    (decComplete s t_ tag e_) := by
  unfold decComplete
  (repeat' (first
    | with_reducible assumption | (with_reducible refine writeMem_keeps ?_) | (with_reducible refine State.setFld_keeps ?_)
    | (with_reducible refine State.raise_keeps ?_) | (with_reducible refine State.addWrap_keeps ?_)
    | with_reducible refine keeps_ite ?_ ?_))

theorem assignLane_keeps {s0 : State} {s : State} (h : Keeps s0 s) : Keeps s0 (assignLane s) := by
  unfold assignLane
  (repeat' (first
    | with_reducible assumption | (with_reducible refine State.setTile_keeps ?_) | split
    | fail_if_no_progress (with_reducible refine Keeps.upd ?_)))

theorem decodeBlocks_keeps {s0 : State} {s : State} {d : DecJob} {o : Nat} {done : Nat} {k_ : Nat} {y5 : Nat} (h : Keeps s0 s)
    : Keeps s0 (decodeBlocks s d o done k_ y5).2 := by
  fun_induction decodeBlocks s d o done k_ y5 <;> (repeat' (first
    | (with_reducible refine decodeOne_keeps_e ?_ (by assumption)) | with_reducible apply_assumption))

theorem decodeBlocks_keeps_e {s0 : State} {s : State} {d : DecJob} {o : Nat} {done : Nat} {k_ : Nat} {y5 : Nat} {x0} {t :
    State} (h : Keeps s0 s) (e : decodeBlocks s d o done k_ y5 = (x0, t)) : Keeps s0 t := by
  have k := decodeBlocks_keeps (s0 := s0) (s := s) (d := d) (o := o) (done := done) (k_ := k_) (y5 := y5) h
  rw [e] at k
  exact k

theorem runDecode_keeps {s0 : State} {s : State} {d : DecJob} (h : Keeps s0 s) : Keeps s0 (runDecode s d).2 := by
  unfold runDecode
  (repeat' (first | with_reducible assumption | (with_reducible refine decodeBlocks_keeps ?_) | split))

theorem runDecode_keeps_e {s0 : State} {s : State} {d : DecJob} {x0} {t : State} (h : Keeps s0 s) (e : runDecode s d = (x0, t))
    : Keeps s0 t := by
  have k := runDecode_keeps (s0 := s0) (s := s) (d := d) h
  rw [e] at k
  exact k

theorem tileDecodeEnd_keeps {s0 : State} {s : State} {t_ : Nat} (h : Keeps s0 s) : Keeps s0 (tileDecodeEnd s t_) := by
  unfold tileDecodeEnd
  (repeat' (first
    | with_reducible assumption | (with_reducible refine assignLane_keeps ?_) | (with_reducible refine State.setFlds_keeps ?_)
    | (with_reducible refine runDecode_keeps ?_) | (with_reducible refine State.setTile_keeps ?_)
    | (with_reducible refine State.raise_keeps ?_) | split))

theorem decodeFetch_keeps {s0 : State} {s : State} (h : Keeps s0 s) : Keeps s0 (decodeFetch s) := by
  unfold decodeFetch
  (repeat' (first
    | with_reducible assumption | (with_reducible refine readRam_keeps ?_) | (with_reducible refine assignLane_keeps ?_)
    | (with_reducible refine State.setFld_keeps ?_) | with_reducible refine keeps_ite ?_ ?_
    | fail_if_no_progress (with_reducible refine Keeps.upd ?_)))

theorem execDecodeQueueFetch_keeps {s0 : State} {s : State} (h : Keeps s0 s) : KRes s0 (execDecodeQueueFetch s) := by
  unfold execDecodeQueueFetch
  (repeat' (first
    | with_reducible assumption | (with_reducible refine decodeFetch_keeps ?_) | with_reducible refine kRes_next ?_))

theorem decodeJobEnd_keeps {s0 : State} {s : State} {t_ : Nat} (h : Keeps s0 s) : Keeps s0 (decodeJobEnd s t_) := by
  unfold decodeJobEnd
  (repeat' (first
    | with_reducible assumption | (with_reducible refine assignLane_keeps ?_) | (with_reducible refine runDecode_keeps ?_)
    | (with_reducible refine State.setTile_keeps ?_) | (with_reducible refine decComplete_keeps ?_) | split))

theorem rawStore_keeps {s0 : State} {s : State} {flow : Nat} {seq : Nat} {reject : Bool} (h : Keeps s0 s) : Keeps s0 (rawStore
    s flow seq reject) := by
  unfold rawStore
  (repeat' (first
    | with_reducible assumption | (with_reducible refine writeMem_keeps ?_) | (with_reducible refine State.fresh_keeps ?_)
    | (with_reducible refine State.setFlds_keeps ?_) | (with_reducible refine State.raise_keeps ?_)
    | (with_reducible refine updParcel_keeps ?_) | (with_reducible refine countBlock_keeps ?_)
    | (with_reducible refine State.addWrap_keeps ?_) | (with_reducible refine State.capture_keeps ?_)
    | with_reducible refine keeps_foldl (fun _ _ _ => ?_) ?_ | split))

theorem codecEncode_keeps {s0 : State} {s : State} {t_ : Nat} (h : Keeps s0 s) : Keeps s0 (codecEncode s t_) := by
  unfold codecEncode
  (repeat' (first | with_reducible assumption | (with_reducible refine State.setTile_keeps ?_) | dsimp only | split))

theorem execCodecEncode_keeps {s0 : State} {t_ : TileId} {s : State} (h : Keeps s0 s) : KRes s0 (execCodecEncode t_ s) := by
  unfold execCodecEncode
  (repeat' (first
    | with_reducible assumption | (with_reducible refine codecEncode_keeps ?_) | with_reducible refine kRes_next ?_))

theorem execRawStore_keeps {s0 : State} {flow : Fin 262144} {seq : Nat} {reject : Bool} {s : State} (h : Keeps s0 s) : KRes s0
    (execRawStore flow seq reject s) := by
  unfold execRawStore
  (repeat' (first | with_reducible assumption | (with_reducible refine rawStore_keeps ?_) | with_reducible refine kRes_next ?_))

theorem execBlockOutputWrite_keeps {s0 : State} {t_ : TileId} {s : State} (h : Keeps s0 s) : KRes s0 (execBlockOutputWrite t_
    s) := by
  unfold execBlockOutputWrite
  (repeat' (first
    | with_reducible assumption | (with_reducible refine blockOutput_keeps ?_) | with_reducible refine kRes_next ?_))

theorem execDecodeJobEnd_keeps {s0 : State} {t_ : TileId} {s : State} (h : Keeps s0 s) : KRes s0 (execDecodeJobEnd t_ s) := by
  unfold execDecodeJobEnd
  (repeat' (first
    | with_reducible assumption | (with_reducible refine decodeJobEnd_keeps ?_) | with_reducible refine kRes_next ?_))

theorem execVerifierDecide_keeps {s0 : State} {t_ : TileId} {failed : Option VTest} {s : State} (h : Keeps s0 s) : KRes s0
    (execVerifierDecide t_ failed s) := by
  unfold execVerifierDecide
  (repeat' (first
    | with_reducible assumption | (with_reducible refine verifierDecide_keeps ?_) | with_reducible refine kRes_next ?_))

theorem execTileDecodeJobEnd_keeps {s0 : State} {t_ : TileId} {s : State} (h : Keeps s0 s) : KRes s0 (execTileDecodeJobEnd t_
    s) := by
  unfold execTileDecodeJobEnd
  (repeat' (first
    | with_reducible assumption | (with_reducible refine tileDecodeEnd_keeps ?_) | with_reducible refine kRes_next ?_))

theorem blockForm_keeps {s0 : State} {s : State} {t_ : Nat} (h : Keeps s0 s) : Keeps s0 (blockForm s t_) := by
  unfold blockForm
  (repeat' (first
    | with_reducible assumption | (with_reducible refine State.setTile_keeps ?_) | (with_reducible refine State.raise_keeps ?_)
    | dsimp only | split))

theorem execCodecBlockForm_keeps {s0 : State} {t_ : TileId} {s : State} (h : Keeps s0 s) : KRes s0 (execCodecBlockForm t_ s) :=
    by
  unfold execCodecBlockForm
  (repeat' (first
    | with_reducible assumption | (with_reducible refine blockForm_keeps ?_) | with_reducible refine kRes_next ?_))

/-! ### Nand -/

theorem btSet_keeps {s0 : State} {s : State} {lun : Nat} {block : Nat} {erases : Nat} {valid : Nat} {closed : Nat} {state :
    Nat} (h : Keeps s0 s) : Keeps s0 (btSet s lun block erases valid closed state) := by
  unfold btSet
  (repeat' (first | with_reducible assumption | (with_reducible refine writeMem_keeps ?_)))

theorem btSetValid_keeps {s0 : State} {s : State} {lun : Nat} {block : Nat} {v : Nat} (h : Keeps s0 s) : Keeps s0 (btSetValid s
    lun block v) := by
  unfold btSetValid
  (repeat' (first | with_reducible assumption | (with_reducible refine btSet_keeps ?_)))

theorem btSetState_keeps {s0 : State} {s : State} {lun : Nat} {block : Nat} {st : Nat} (h : Keeps s0 s) : Keeps s0 (btSetState
    s lun block st) := by
  unfold btSetState
  (repeat' (first | with_reducible assumption | (with_reducible refine btSet_keeps ?_)))

theorem setLun_keeps {s0 : State} {s : State} {lun : Nat} {l : Lun} (h : Keeps s0 s) : Keeps s0 (setLun s lun l) := by
  unfold setLun
  (repeat' (first | with_reducible assumption | fail_if_no_progress (with_reducible refine Keeps.upd ?_)))

theorem mediaErr_keeps {s0 : State} {s : State} {lun : Nat} {block : Nat} {kind : Nat} (h : Keeps s0 s) : Keeps s0 (mediaErr s
    lun block kind) := by
  unfold mediaErr
  (repeat' (first | with_reducible assumption | (with_reducible refine State.capture_keeps ?_)))

theorem eraseCells_keeps {s0 : State} {s : State} {lun : Nat} {block : Nat} (h : Keeps s0 s) : Keeps s0 (eraseCells s lun
    block) := by
  unfold eraseCells
  (repeat' (first | with_reducible assumption | split | fail_if_no_progress (with_reducible refine Keeps.upd ?_)))

theorem programSectors_keeps {s0 : State} {s : State} {secs : List (Nat × Sector)} (h : Keeps s0 s) : Keeps s0 (programSectors
    s secs) := by
  unfold programSectors
  (repeat' (first | with_reducible assumption | fail_if_no_progress (with_reducible refine Keeps.upd ?_)))

/-! ### NandOps -/

theorem nandAdvance_keeps {s0 : State} {s : State} {lun : Nat} {l : Lun} {o : NandOp} {bs : List Byte} (h : Keeps s0 s) : Keeps
    s0 (nandAdvance s lun l o bs) := by
  unfold nandAdvance
  (repeat' (first | with_reducible assumption | (with_reducible refine setLun_keeps ?_)))

theorem nandCmd_keeps {s0 : State} {s : State} {lun : Nat} (h : Keeps s0 s) : Keeps s0 (nandCmd s lun) := by
  unfold nandCmd
  (repeat' (first | with_reducible assumption | (with_reducible refine nandAdvance_keeps ?_) | split))

theorem nandWait_keeps {s0 : State} {s : State} {lun : Nat} (h : Keeps s0 s) : Keeps s0 (nandWait s lun) := by
  unfold nandWait
  (repeat' (first | with_reducible assumption | (with_reducible refine nandAdvance_keeps ?_) | split))

theorem beginOp_keeps {s0 : State} {s : State} {lun : Nat} {k_ : Nat} {block : Nat} {page : Nat} {prog : Option Prog} (h :
    Keeps s0 s) : Keeps s0 (beginOp s lun k_ block page prog) := by
  unfold beginOp
  (repeat' (first | with_reducible assumption | (with_reducible refine setLun_keeps ?_) | split))

theorem startRead_keeps {s0 : State} {s : State} {lun : Nat} {k_ : Nat} {block : Nat} {page : Nat} (h : Keeps s0 s) : Keeps s0
    (startRead s lun k_ block page) := by
  unfold startRead
  (repeat' (first
    | with_reducible assumption | (with_reducible refine beginOp_keeps ?_) | (with_reducible refine setLun_keeps ?_) | split))

theorem readEnd_keeps {s0 : State} {s : State} {lun : Nat} {l : Lun} {p : Pers} {o : NandOp} {relocate : State → Nat → Nat →
    State} (h : Keeps s0 s) (h_relocate : ∀ z0 z1 z2, Keeps s0 z0 → Keeps s0 (relocate z0 z1 z2)) : Keeps s0 (readEnd s lun l p
    o relocate) := by
  unfold readEnd
  (repeat' (first
    | (with_reducible refine mediaErr_keeps ?_) | (with_reducible refine State.raise_keeps ?_)
    | (with_reducible refine State.addWrap_keeps ?_) | (with_reducible refine setLun_keeps ?_)
    | with_reducible refine keeps_ite ?_ ?_ | fail_if_no_progress (with_reducible refine Keeps.upd ?_)
    | with_reducible apply_assumption))

theorem startProgram_keeps {s0 : State} {s : State} {lun : Nat} {slc : Bool} (h : Keeps s0 s) : Keeps s0 (startProgram s lun
    slc) := by
  unfold startProgram
  (repeat' (first
    | with_reducible assumption | (with_reducible refine beginOp_keeps ?_) | split
    | fail_if_no_progress (with_reducible refine Keeps.upd ?_)))

theorem startPlain_keeps {s0 : State} {s : State} {lun : Nat} {k_ : Nat} (h : Keeps s0 s) : Keeps s0 (startPlain s lun k_) := by
  unfold startPlain
  (repeat' (first
    | with_reducible assumption | (with_reducible refine beginOp_keeps ?_) | with_reducible refine keeps_ite ?_ ?_))

theorem startErase_keeps {s0 : State} {s : State} {lun : Nat} {block : Nat} (h : Keeps s0 s) : Keeps s0 (startErase s lun
    block) := by
  unfold startErase
  (repeat' (first
    | with_reducible assumption | (with_reducible refine beginOp_keeps ?_) | with_reducible refine keeps_ite ?_ ?_))

theorem nandDin_keeps {s0 : State} {s : State} {lun : Nat} (h : Keeps s0 s) : Keeps s0 (nandDin s lun) := by
  unfold nandDin
  (repeat' (first | with_reducible assumption | (with_reducible refine nandAdvance_keeps ?_) | split))

theorem nandFeat_keeps {s0 : State} {s : State} {lun : Nat} (h : Keeps s0 s) : Keeps s0 (nandFeat s lun) := by
  unfold nandFeat
  (repeat' (first | with_reducible assumption | (with_reducible refine nandAdvance_keeps ?_) | split))

theorem startRetrySet_keeps {s0 : State} {s : State} {lun : Nat} (h : Keeps s0 s) : Keeps s0 (startRetrySet s lun) := by
  unfold startRetrySet
  (repeat' (first
    | with_reducible assumption | (with_reducible refine beginOp_keeps ?_) | (with_reducible refine setLun_keeps ?_) | split))

theorem nandAddr_keeps {s0 : State} {s : State} {lun : Nat} (h : Keeps s0 s) : Keeps s0 (nandAddr s lun) := by
  unfold nandAddr
  (repeat' (first | with_reducible assumption | (with_reducible refine nandAdvance_keeps ?_) | split))

theorem nandDout_keeps {s0 : State} {s : State} {lun : Nat} {ok : List Bool} {bytes : List Byte} (h : Keeps s0 s) : Keeps s0
    (nandDout s lun ok bytes) := by
  unfold nandDout
  (repeat' (first | with_reducible assumption | (with_reducible refine nandAdvance_keeps ?_) | split))

theorem startRetryClear_keeps {s0 : State} {s : State} {lun : Nat} (h : Keeps s0 s) : Keeps s0 (startRetryClear s lun) := by
  unfold startRetryClear
  (repeat' (first
    | with_reducible assumption | (with_reducible refine beginOp_keeps ?_) | with_reducible refine keeps_ite ?_ ?_))

/-! ### FtlMap -/

theorem nextSeq_keeps {s0 : State} {s : State} (h : Keeps s0 s) : Keeps s0 (nextSeq s) := by
  unfold nextSeq
  (repeat' (first | with_reducible assumption | fail_if_no_progress (with_reducible refine Keeps.upd ?_)))

theorem setMap_keeps {s0 : State} {s : State} {nsid : Nat} {unit : Nat} {u : MapUnit} (h : Keeps s0 s) : Keeps s0 (setMap s
    nsid unit u) := by
  unfold setMap
  (repeat' (first | with_reducible assumption | fail_if_no_progress (with_reducible refine Keeps.upd ?_)))

theorem changeMap_keeps {s0 : State} {s : State} {nsid : Nat} {unit : Nat} {u : MapUnit} (h : Keeps s0 s) : Keeps s0 (changeMap
    s nsid unit u) := by
  unfold changeMap
  (repeat' (first
    | with_reducible assumption | (with_reducible refine nextSeq_keeps ?_) | (with_reducible refine setMap_keeps ?_)
    | fail_if_no_progress (with_reducible refine Keeps.upd ?_)))

theorem deallocSector_keeps {s0 : State} {s : State} {nsid : Nat} {lsec : Nat} (h : Keeps s0 s) : Keeps s0 (deallocSector s
    nsid lsec) := by
  unfold deallocSector
  (repeat' (first
    | with_reducible assumption | (with_reducible refine changeMap_keeps ?_) | with_reducible refine keeps_ite ?_ ?_
    | fail_if_no_progress (with_reducible refine Keeps.upd ?_)))

theorem deallocSectors_keeps {s0 : State} {s : State} {nsid : Nat} {lsec : Nat} {y3 : Nat} (h : Keeps s0 s) : Keeps s0
    (deallocSectors s nsid lsec y3) := by
  fun_induction deallocSectors s nsid lsec y3 <;> (repeat' (first
    | (with_reducible refine deallocSector_keeps ?_) | with_reducible apply_assumption))

theorem wbPut_keeps {s0 : State} {s : State} {w : WbSec} (h : Keeps s0 s) : Keeps s0 (wbPut s w) := by
  unfold wbPut
  (repeat' (first | with_reducible assumption | fail_if_no_progress (with_reducible refine Keeps.upd ?_)))

theorem putSectors_keeps {s0 : State} {s : State} {r : Rel} {k_ : Nat} {blocks : List (List Byte)} {y4 : Nat} (h : Keeps s0 s)
    : Keeps s0 (putSectors s r k_ blocks y4) := by
  fun_induction putSectors s r k_ blocks y4 <;> (repeat' (first
    | (with_reducible refine wbPut_keeps ?_) | with_reducible apply_assumption))

theorem mapParcel_keeps {s0 : State} {s : State} {r : Rel} (h : Keeps s0 s) : Keeps s0 (mapParcel s r) := by
  unfold mapParcel
  (repeat' (first
    | with_reducible assumption | (with_reducible refine deallocSectors_keeps ?_)
    | (with_reducible refine putSectors_keeps ?_)))

theorem runQueue_keeps {s0 : State} {s : State} {y1 : List MapReq} (h : Keeps s0 s) : Keeps s0 (runQueue s y1) := by
  fun_induction runQueue s y1 <;> (repeat' (first
    | (with_reducible refine deallocSectors_keeps ?_) | (with_reducible refine mapParcel_keeps ?_)
    | fail_if_no_progress (with_reducible refine Keeps.upd ?_) | with_reducible apply_assumption))

theorem enqueueMap_keeps {s0 : State} {s : State} {m : MapReq} (h : Keeps s0 s) : Keeps s0 (enqueueMap s m) := by
  unfold enqueueMap
  (repeat' (first | with_reducible assumption | (with_reducible refine runQueue_keeps ?_)))

theorem dropPersisted_keeps {s0 : State} {s : State} (h : Keeps s0 s) : Keeps s0 (dropPersisted s) := by
  unfold dropPersisted
  (repeat' (first | with_reducible assumption | fail_if_no_progress (with_reducible refine Keeps.upd ?_)))

theorem updRel_keeps {s0 : State} {s : State} {r : Nat} {g : Rel → Rel} (h : Keeps s0 s) : Keeps s0 (updRel s r g) := by
  unfold updRel
  (repeat' (first | with_reducible assumption | fail_if_no_progress (with_reducible refine Keeps.upd ?_)))

theorem irregularReform_keeps {s0 : State} {s : State} (h : Keeps s0 s) : Keeps s0 (irregularReform s) := by
  unfold irregularReform
  (repeat' (first
    | with_reducible assumption | (with_reducible refine updRel_keeps ?_) | (with_reducible refine deallocSectors_keeps ?_)
    | (with_reducible refine putSectors_keeps ?_) | (with_reducible refine State.addWrap_keeps ?_)
    | (with_reducible refine runQueue_keeps ?_) | split))

/-! ### Ftl -/

theorem flushPend_keeps {s0 : State} {s : State} (h : Keeps s0 s) : Keeps s0 (flushPend s) := by
  unfold flushPend
  (repeat' (first | with_reducible assumption | fail_if_no_progress (with_reducible refine Keeps.upd ?_)))

theorem checkpoint_keeps {s0 : State} {s : State} (h : Keeps s0 s) : Keeps s0 (checkpoint s) := by
  unfold checkpoint
  (repeat' (first
    | with_reducible assumption | (with_reducible refine flushPend_keeps ?_)
    | fail_if_no_progress (with_reducible refine Keeps.upd ?_)))

theorem execCheckpoint_keeps {s0 : State} {s : State} (h : Keeps s0 s) : KRes s0 (execCheckpoint s) := by
  unfold execCheckpoint
  (repeat' (first
    | with_reducible assumption | (with_reducible refine checkpoint_keeps ?_) | with_reducible refine kRes_next ?_))

theorem gcUpdate_keeps {s0 : State} {s : State} (h : Keeps s0 s) : Keeps s0 (gcUpdate s) := by
  unfold gcUpdate
  (repeat' (first
    | with_reducible assumption | (with_reducible refine State.clear_keeps ?_) | (with_reducible refine State.setFlds_keeps ?_)
    | (with_reducible refine clearWarn_keeps ?_) | (with_reducible refine State.raise_keeps ?_)
    | with_reducible refine keeps_ite ?_ ?_ | fail_if_no_progress (with_reducible refine Keeps.upd ?_)))

theorem startScan_keeps {s0 : State} {s : State} {op : Nat} (h : Keeps s0 s) : Keeps s0 (startScan s op) := by
  unfold startScan
  (repeat' (first
    | with_reducible assumption | (with_reducible refine setClaimErr_keeps ?_) | (with_reducible refine State.raise_keeps ?_)
    | with_reducible refine keeps_ite ?_ ?_ | fail_if_no_progress (with_reducible refine Keeps.upd ?_)))

theorem recount_keeps {s0 : State} {s : State} {psas : List Nat} (h : Keeps s0 s) : Keeps s0 (recount s psas) := by
  unfold recount
  (repeat' (first
    | with_reducible assumption | (with_reducible refine btSetValid_keeps ?_)
    | with_reducible refine keeps_foldl (fun _ _ _ => ?_) ?_))

theorem setOpenPos_keeps {s0 : State} {s : State} {lun : Nat} {b : Nat} {pos : Nat} (h : Keeps s0 s) : Keeps s0 (setOpenPos s
    lun b pos) := by
  unfold setOpenPos
  (repeat' (first | with_reducible assumption | fail_if_no_progress (with_reducible refine Keeps.upd ?_)))

theorem allocHere_keeps {s0 : State} {s : State} {p : Pers} {lun : Nat} {n : Nat} (h : Keeps s0 s) : KOpt (fun x => Keeps s0
    x.2) (allocHere s p lun n) := by
  unfold allocHere
  (repeat' (first
    | with_reducible assumption | (with_reducible refine setOpenPos_keeps ?_) | with_reducible exact kOpt_none
    | with_reducible refine kOpt_some ?_ | split))

theorem allocHere_keeps_e {s0 : State} {s : State} {p : Pers} {lun : Nat} {n : Nat} {x10} {t : State} (h : Keeps s0 s) (e :
    allocHere s p lun n = .some (x10, t)) : Keeps s0 t := by
  have k := allocHere_keeps (s0 := s0) (s := s) (p := p) (lun := lun) (n := n) h
  rw [e] at k
  exact k

theorem noteBlockState_keeps {s0 : State} {s : State} {lun : Nat} {block : Nat} (h : Keeps s0 s) : Keeps s0 (noteBlockState s
    lun block) := by
  unfold noteBlockState
  (repeat' (first
    | with_reducible assumption | (with_reducible refine nextSeq_keeps ?_)
    | fail_if_no_progress (with_reducible refine Keeps.upd ?_)))

theorem setBlock_keeps {s0 : State} {s : State} {lun : Nat} {block : Nat} {st : Nat} (h : Keeps s0 s) : Keeps s0 (setBlock s
    lun block st) := by
  unfold setBlock
  (repeat' (first
    | with_reducible assumption | (with_reducible refine noteBlockState_keeps ?_)
    | (with_reducible refine btSetState_keeps ?_)))

theorem openBlock_keeps {s0 : State} {s : State} {lun : Nat} {gc : Bool} (h : Keeps s0 s) : KOpt (fun x => Keeps s0 x)
    (openBlock s lun gc) := by
  unfold openBlock
  (repeat' (first
    | with_reducible assumption | (with_reducible refine setBlock_keeps ?_) | with_reducible exact kOpt_none
    | with_reducible refine kOpt_some ?_ | split | fail_if_no_progress (with_reducible refine Keeps.upd ?_)))

theorem openBlock_keeps_e {s0 : State} {s : State} {lun : Nat} {gc : Bool} {t : State} (h : Keeps s0 s) (e : openBlock s lun gc
    = .some t) : Keeps s0 t := by
  have k := openBlock_keeps (s0 := s0) (s := s) (lun := lun) (gc := gc) h
  rw [e] at k
  exact k

theorem closeOpen_keeps {s0 : State} {s : State} {lun : Nat} (h : Keeps s0 s) : Keeps s0 (closeOpen s lun) := by
  unfold closeOpen
  (repeat' (first
    | with_reducible assumption | (with_reducible refine setBlock_keeps ?_) | (with_reducible refine btSet_keeps ?_) | split
    | fail_if_no_progress (with_reducible refine Keeps.upd ?_)))

theorem allocRun_keeps {s0 : State} {s : State} {p : Pers} {lun : Nat} {n : Nat} {gc : Bool} (h : Keeps s0 s) : KOpt (fun x =>
    Keeps s0 x.2) (allocRun s p lun n gc) := by
  unfold allocRun
  (repeat' (first
    | with_reducible assumption | (with_reducible refine allocHere_keeps ?_)
    | (with_reducible refine allocHere_keeps_e ?_ (by assumption))
    | (with_reducible refine openBlock_keeps_e ?_ (by assumption)) | (with_reducible refine closeOpen_keeps ?_)
    | with_reducible exact kOpt_none | with_reducible refine kOpt_some ?_ | split))

theorem allocRun_keeps_e {s0 : State} {s : State} {p : Pers} {lun : Nat} {n : Nat} {gc : Bool} {x10} {t : State} (h : Keeps s0
    s) (e : allocRun s p lun n gc = .some (x10, t)) : Keeps s0 t := by
  have k := allocRun_keeps (s0 := s0) (s := s) (p := p) (lun := lun) (n := n) (gc := gc) h
  rw [e] at k
  exact k

theorem noteRestored_keeps {s0 old s : State} (h : Keeps s0 s) : Keeps s0 (noteRestored old s) := by
  unfold noteRestored
  split
  · exact h
  · exact h.of_eq rfl rfl rfl rfl rfl rfl


theorem finishPlacing_keeps {s0 : State} {s : State} {p : Pers} {lun : Nat} (h : Keeps s0 s) : Keeps s0 (finishPlacing s p lun)
    := by
  unfold finishPlacing
  (repeat' (first
    | with_reducible assumption | (with_reducible refine setOpenPos_keeps ?_) | (with_reducible refine closeOpen_keeps ?_)
    | with_reducible refine keeps_ite ?_ ?_ | split))

theorem addJob_keeps {s0 : State} {x : Placing} {p : Pers} {lun nsid unit : Nat} {e : MapUnit} {secs : List (Nat × Nat)} {sides
    : List Nat}
    {stamp : Nat} {gc : Bool} (h : Keeps s0 x.st) : Keeps s0 (addJob x p lun nsid unit e secs sides stamp gc) := by
  have k : Keeps s0 (finishPlacing x.st p lun) := finishPlacing_keeps h
  exact k.of_eq rfl rfl rfl rfl rfl rfl


theorem placeExtent_keeps {s0 : State} {x : Placing} {p : Pers} {lun : Nat} {gc : Bool} {nsid lsec use : Nat} {bs : List Byte}
    (h : Keeps s0 x.st) : Keeps s0 (placeExtent x p lun gc nsid lsec use bs).1.st := by
  unfold placeExtent
  dsimp only
  split
  · exact h
  · next e => exact allocRun_keeps_e h e


theorem placeFine_keeps {s0 : State} {x : Placing} {p : Pers} {lun nsid unit : Nat} {gc : Bool}
    {js : List (Nat × List (Nat × List Byte × Bool))} (h : Keeps s0 x.st) : Keeps s0 (placeFine x p lun gc nsid unit js).1.st
        := by
  induction js generalizing x with
  | nil => exact h
  | cons r rs ih => exact ih (placeExtent_keeps h)


theorem placeUnit_keeps {s0 s : State} {p : Pers} {lun nsid unit : Nat} (h : Keeps s0 s) : Keeps s0 (placeUnit s p lun nsid
    unit).1.st := by
  unfold placeUnit
  dsimp only
  split
  · exact placeExtent_keeps h
  · exact placeFine_keeps h


theorem placeSides_keeps {s0 : State} {x : Placing} {p : Pers} {lun side : Nat} {rs : List Rel} (h : Keeps s0 x.st) :
    Keeps s0 (placeSides x p lun side rs).1.st := by
  induction rs generalizing x side with
  | nil => exact h
  | cons r rs ih => exact ih (placeExtent_keeps h)


theorem writeUnit_keeps {s0 s : State} {nsid unit : Nat} (h : Keeps s0 s) : KOpt (fun x => Keeps s0 x) (writeUnit s nsid unit)
    := by
  unfold writeUnit
  split
  · trivial
  · split
    · trivial
    · dsimp only
      split
      · exact addJob_keeps (placeSides_keeps (placeUnit_keeps h))
      · trivial

theorem writeUnit_keeps_e {s0 s : State} {nsid unit : Nat} {t : State} (h : Keeps s0 s) (e : writeUnit s nsid unit = some t) :
    Keeps s0 t := by
  have k := writeUnit_keeps (nsid := nsid) (unit := unit) h
  rw [e] at k
  exact k


theorem noFineTable_keeps {s0 : State} {s : State} {nsid : Nat} {unit : Nat} (h : Keeps s0 s) : Keeps s0 (noFineTable s nsid
    unit) := by
  unfold noFineTable
  (repeat' (first
    | with_reducible assumption | (with_reducible refine failCmd_keeps ?_)
    | with_reducible refine keeps_foldl (fun _ _ _ => ?_) ?_ | fail_if_no_progress (with_reducible refine Keeps.upd ?_)))

theorem unitWrite_keeps {s0 : State} {s : State} {nsid : Nat} {unit : Nat} (h : Keeps s0 s) : Keeps s0 (unitWrite s nsid unit)
    := by
  unfold unitWrite
  (repeat' (first
    | with_reducible assumption | (with_reducible refine writeUnit_keeps_e ?_ (by assumption))
    | (with_reducible refine noFineTable_keeps ?_) | (with_reducible refine gcUpdate_keeps ?_) | split
    | fail_if_no_progress (with_reducible refine Keeps.upd ?_)))

theorem writeRestored_keeps {s0 : State} {s : State} {sel : Nat → Bool} (h : Keeps s0 s) : Keeps s0 (writeRestored s sel) := by
  unfold writeRestored
  (repeat' (first | with_reducible assumption | (with_reducible refine unitWrite_keeps ?_) | dsimp only | split))

theorem retireBlock_keeps {s0 : State} {s : State} {lun : Nat} {block : Nat} (h : Keeps s0 s) : Keeps s0 (retireBlock s lun
    block) := by
  unfold retireBlock
  (repeat' (first
    | with_reducible assumption | (with_reducible refine State.setFld_keeps ?_) | (with_reducible refine State.raise_keeps ?_)
    | (with_reducible refine setBlock_keeps ?_)))

theorem eraseDone_keeps {s0 : State} {s : State} {lun : Nat} {block : Nat} {ok : Bool} (h : Keeps s0 s) : Keeps s0 (eraseDone s
    lun block ok) := by
  unfold eraseDone
  (repeat' (first
    | with_reducible assumption | (with_reducible refine mediaErr_keeps ?_) | (with_reducible refine eraseCells_keeps ?_)
    | (with_reducible refine retireBlock_keeps ?_) | (with_reducible refine State.raise_keeps ?_)
    | (with_reducible refine setBlock_keeps ?_) | (with_reducible refine gcUpdate_keeps ?_)
    | (with_reducible refine btSet_keeps ?_) | (with_reducible refine State.addWrap_keeps ?_) | split))

theorem gcErase_keeps {s0 : State} {s : State} {lun : Nat} {block : Nat} {ok : Bool} (h : Keeps s0 s) : Keeps s0 (gcErase s lun
    block ok) := by
  unfold gcErase
  (repeat' (first
    | with_reducible assumption | (with_reducible refine eraseDone_keeps ?_) | with_reducible refine keeps_ite ?_ ?_))

theorem execNandOpReadSlc_keeps {s0 : State} {lun : Nat} {block : Nat} {page : Nat} {s : State} (h : Keeps s0 s) : KRes s0
    (execNandOpReadSlc lun block page s) := by
  unfold execNandOpReadSlc
  (repeat' (first
    | with_reducible assumption | (with_reducible refine startRead_keeps ?_) | with_reducible refine kRes_next ?_))

theorem markRelocate_keeps {s0 : State} {s : State} {lun : Nat} {block : Nat} {retire : Bool} (h : Keeps s0 s) : Keeps s0
    (markRelocate s lun block retire) := by
  unfold markRelocate
  (repeat' (first
    | with_reducible assumption | with_reducible refine keeps_ite ?_ ?_
    | fail_if_no_progress (with_reducible refine Keeps.upd ?_)))

theorem commitUnit_keeps {s0 : State} {s : State} {j : UnitJob} (h : Keeps s0 s) : Keeps s0 (commitUnit s j) := by
  unfold commitUnit
  (repeat' (first
    | with_reducible assumption | (with_reducible refine changeMap_keeps ?_) | (with_reducible refine recount_keeps ?_)
    | with_reducible refine keeps_ite ?_ ?_ | with_reducible refine keeps_foldl (fun _ _ _ => ?_) ?_
    | fail_if_no_progress (with_reducible refine Keeps.upd ?_)))

theorem noteFine_keeps {s0 old s : State} (h : Keeps s0 s) : Keeps s0 (noteFine old s) :=
  keeps_ite (State.raise_keeps h) h


theorem gcCommit_keeps {s0 : State} {s : State} (h : Keeps s0 s) : Keeps s0 (gcCommit s) := by
  unfold gcCommit
  (repeat' (first
    | with_reducible assumption | (with_reducible refine retireBlock_keeps ?_) | (with_reducible refine flushPend_keeps ?_)
    | (with_reducible refine commitUnit_keeps ?_) | (with_reducible refine setBlock_keeps ?_)
    | (with_reducible refine gcUpdate_keeps ?_) | (with_reducible refine noteFine_keeps ?_)
    | with_reducible refine keeps_ite ?_ ?_ | with_reducible refine keeps_foldl (fun _ _ _ => ?_) ?_ | split
    | fail_if_no_progress (with_reducible refine Keeps.upd ?_)))

theorem programDone_keeps {s0 : State} {s : State} {g : Prog} {ok : Bool} (h : Keeps s0 s) : Keeps s0 (programDone s g ok) := by
  unfold programDone
  (repeat' (first
    | with_reducible assumption | (with_reducible refine mediaErr_keeps ?_) | (with_reducible refine retireBlock_keeps ?_)
    | (with_reducible refine markRelocate_keeps ?_) | (with_reducible refine programSectors_keeps ?_)
    | (with_reducible refine State.raise_keeps ?_) | (with_reducible refine closeOpen_keeps ?_)
    | (with_reducible refine State.addWrap_keeps ?_) | (with_reducible refine failCmd_keeps ?_)
    | with_reducible refine keeps_foldl (fun _ _ _ => ?_) ?_ | dsimp only | split
    | fail_if_no_progress (with_reducible refine Keeps.upd ?_)))

theorem opEnds_keeps {s0 : State} {s : State} {lun : Nat} {l : Lun} {p : Pers} {o : NandOp} {e_ : OpEnd} (h : Keeps s0 s) :
    Keeps s0 (opEnds s lun l p o e_) := by
  unfold opEnds
  (repeat' (first
    | with_reducible assumption | (with_reducible refine eraseDone_keeps ?_) | (with_reducible refine markRelocate_keeps ?_)
    | (with_reducible refine programDone_keeps ?_) | (with_reducible refine readEnd_keeps ?_ ?_)
    | (with_reducible refine setLun_keeps ?_) | intro _ | split))

theorem nandEnd_keeps {s0 : State} {s : State} {lun : Nat} (h : Keeps s0 s) : Keeps s0 (nandEnd s lun) := by
  unfold nandEnd
  (repeat' (first | with_reducible assumption | (with_reducible refine opEnds_keeps ?_) | split))

theorem execNandEnd_keeps {s0 : State} {lun : Nat} {s : State} (h : Keeps s0 s) : KRes s0 (execNandEnd lun s) := by
  unfold execNandEnd
  (repeat' (first | with_reducible assumption | (with_reducible refine nandEnd_keeps ?_) | with_reducible refine kRes_next ?_))

theorem journalCommit_keeps {s0 : State} {s : State} (h : Keeps s0 s) : Keeps s0 (journalCommit s) := by
  unfold journalCommit
  (repeat' (first
    | with_reducible assumption | (with_reducible refine flushPend_keeps ?_) | (with_reducible refine noteRestored_keeps ?_)
    | (with_reducible refine dropPersisted_keeps ?_) | (with_reducible refine commitUnit_keeps ?_)
    | (with_reducible refine gcUpdate_keeps ?_) | (with_reducible refine noteFine_keeps ?_)
    | with_reducible refine keeps_foldl (fun _ _ _ => ?_) ?_))

theorem unitTimeout_keeps {s0 : State} {s : State} {nsid : Nat} {unit : Nat} (h : Keeps s0 s) : Keeps s0 (unitTimeout s nsid
    unit) := by
  unfold unitTimeout
  (repeat' (first
    | with_reducible assumption | (with_reducible refine unitWrite_keeps ?_) | with_reducible refine keeps_ite ?_ ?_
    | fail_if_no_progress (with_reducible refine Keeps.upd ?_)))

theorem execUnitTimeout_keeps {s0 : State} {nsid : Nat} {unit : Nat} {s : State} (h : Keeps s0 s) : KRes s0 (execUnitTimeout
    nsid unit s) := by
  unfold execUnitTimeout
  (repeat' (first
    | with_reducible assumption | (with_reducible refine unitTimeout_keeps ?_) | with_reducible refine kRes_next ?_))

theorem execNandOpProgramSlc_keeps {s0 : State} {lun : Nat} {s : State} (h : Keeps s0 s) : KRes s0 (execNandOpProgramSlc lun s)
    := by
  unfold execNandOpProgramSlc
  (repeat' (first
    | with_reducible assumption | (with_reducible refine startProgram_keeps ?_) | with_reducible refine kRes_next ?_))

theorem execNandOpParamRead_keeps {s0 : State} {lun : Nat} {s : State} (h : Keeps s0 s) : KRes s0 (execNandOpParamRead lun s)
    := by
  unfold execNandOpParamRead
  (repeat' (first
    | with_reducible assumption | (with_reducible refine startPlain_keeps ?_) | with_reducible refine kRes_next ?_))

theorem execNandOpRead_keeps {s0 : State} {lun : Nat} {block : Nat} {page : Nat} {s : State} (h : Keeps s0 s) : KRes s0
    (execNandOpRead lun block page s) := by
  unfold execNandOpRead
  (repeat' (first
    | with_reducible assumption | (with_reducible refine startRead_keeps ?_) | with_reducible refine kRes_next ?_))

theorem execNandOpErase_keeps {s0 : State} {lun : Nat} {block : Nat} {s : State} (h : Keeps s0 s) : KRes s0 (execNandOpErase
    lun block s) := by
  unfold execNandOpErase
  (repeat' (first
    | with_reducible assumption | (with_reducible refine startErase_keeps ?_) | with_reducible refine kRes_next ?_))

theorem execNandOpReset_keeps {s0 : State} {lun : Nat} {s : State} (h : Keeps s0 s) : KRes s0 (execNandOpReset lun s) := by
  unfold execNandOpReset
  (repeat' (first
    | with_reducible assumption | (with_reducible refine startPlain_keeps ?_) | with_reducible refine kRes_next ?_))

theorem nandPoll_keeps {s0 : State} {s : State} {lun : Nat} {status : BitVec 8} (h : Keeps s0 s) : Keeps s0 (nandPoll s lun
    status) := by
  unfold nandPoll
  (repeat' (first
    | with_reducible assumption | (with_reducible refine opEnds_keeps ?_) | (with_reducible refine nandAdvance_keeps ?_)
    | (with_reducible refine setLun_keeps ?_) | split))

theorem execNandPoll_keeps {s0 : State} {lun : Nat} {status : BitVec 8} {s : State} (h : Keeps s0 s) : KRes s0 (execNandPoll
    lun status s) := by
  unfold execNandPoll
  (repeat' (first | with_reducible assumption | (with_reducible refine nandPoll_keeps ?_) | with_reducible refine kRes_next ?_))

theorem execGcCommit_keeps {s0 : State} {s : State} (h : Keeps s0 s) : KRes s0 (execGcCommit s) := by
  unfold execGcCommit
  (repeat' (first | with_reducible assumption | (with_reducible refine gcCommit_keeps ?_) | with_reducible refine kRes_next ?_))

theorem nandPollTimeout_keeps {s0 : State} {s : State} {lun : Nat} (h : Keeps s0 s) : Keeps s0 (nandPollTimeout s lun) := by
  unfold nandPollTimeout
  (repeat' (first
    | with_reducible assumption | (with_reducible refine opEnds_keeps ?_) | (with_reducible refine mediaErr_keeps ?_)
    | (with_reducible refine beginOp_keeps ?_) | (with_reducible refine State.raise_keeps ?_) | split))

theorem execNandDin_keeps {s0 : State} {lun : Nat} {s : State} (h : Keeps s0 s) : KRes s0 (execNandDin lun s) := by
  unfold execNandDin
  (repeat' (first | with_reducible assumption | (with_reducible refine nandDin_keeps ?_) | with_reducible refine kRes_next ?_))

theorem execUnitWrite_keeps {s0 : State} {nsid : Nat} {unit : Nat} {s : State} (h : Keeps s0 s) : KRes s0 (execUnitWrite nsid
    unit s) := by
  unfold execUnitWrite
  (repeat' (first
    | with_reducible assumption | (with_reducible refine unitWrite_keeps ?_) | with_reducible refine kRes_next ?_))

theorem execNandPollTimeout_keeps {s0 : State} {lun : Nat} {s : State} (h : Keeps s0 s) : KRes s0 (execNandPollTimeout lun s)
    := by
  unfold execNandPollTimeout
  (repeat' (first
    | with_reducible assumption | (with_reducible refine nandPollTimeout_keeps ?_) | with_reducible refine kRes_next ?_))

theorem execNandFeat_keeps {s0 : State} {lun : Nat} {s : State} (h : Keeps s0 s) : KRes s0 (execNandFeat lun s) := by
  unfold execNandFeat
  (repeat' (first | with_reducible assumption | (with_reducible refine nandFeat_keeps ?_) | with_reducible refine kRes_next ?_))

theorem execNandOpProgram_keeps {s0 : State} {lun : Nat} {s : State} (h : Keeps s0 s) : KRes s0 (execNandOpProgram lun s) := by
  unfold execNandOpProgram
  (repeat' (first
    | with_reducible assumption | (with_reducible refine startProgram_keeps ?_) | with_reducible refine kRes_next ?_))

theorem execNandCmd_keeps {s0 : State} {lun : Nat} {s : State} (h : Keeps s0 s) : KRes s0 (execNandCmd lun s) := by
  unfold execNandCmd
  (repeat' (first | with_reducible assumption | (with_reducible refine nandCmd_keeps ?_) | with_reducible refine kRes_next ?_))

theorem execNandAddr_keeps {s0 : State} {lun : Nat} {s : State} (h : Keeps s0 s) : KRes s0 (execNandAddr lun s) := by
  unfold execNandAddr
  (repeat' (first | with_reducible assumption | (with_reducible refine nandAddr_keeps ?_) | with_reducible refine kRes_next ?_))

theorem execNandOpRetrySet_keeps {s0 : State} {lun : Nat} {s : State} (h : Keeps s0 s) : KRes s0 (execNandOpRetrySet lun s) :=
    by
  unfold execNandOpRetrySet
  (repeat' (first
    | with_reducible assumption | (with_reducible refine startRetrySet_keeps ?_) | with_reducible refine kRes_next ?_))

theorem scanDone_keeps {s0 : State} {s : State} (h : Keeps s0 s) : Keeps s0 (scanDone s) := by
  unfold scanDone
  (repeat' (first
    | with_reducible assumption | (with_reducible refine State.clear_keeps ?_) | (with_reducible refine State.setFld_keeps ?_)
    | (with_reducible refine State.setFlds_keeps ?_) | (with_reducible refine State.raise_keeps ?_) | split
    | fail_if_no_progress (with_reducible refine Keeps.upd ?_)))

theorem execFtlaScanDone_keeps {s0 : State} {s : State} (h : Keeps s0 s) : KRes s0 (execFtlaScanDone s) := by
  unfold execFtlaScanDone
  (repeat' (first | with_reducible assumption | (with_reducible refine scanDone_keeps ?_) | with_reducible refine kRes_next ?_))

theorem execIrregularReform_keeps {s0 : State} {s : State} (h : Keeps s0 s) : KRes s0 (execIrregularReform s) := by
  unfold execIrregularReform
  (repeat' (first
    | with_reducible assumption | (with_reducible refine irregularReform_keeps ?_) | with_reducible refine kRes_next ?_))

theorem execJournalCommit_keeps {s0 : State} {s : State} (h : Keeps s0 s) : KRes s0 (execJournalCommit s) := by
  unfold execJournalCommit
  (repeat' (first
    | with_reducible assumption | (with_reducible refine journalCommit_keeps ?_) | with_reducible refine kRes_next ?_))

theorem enterReadOnly_keeps {s0 : State} {s : State} (h : Keeps s0 s) : Keeps s0 (enterReadOnly s) := by
  unfold enterReadOnly
  (repeat' (first
    | with_reducible assumption | (with_reducible refine setWarn_keeps ?_) | (with_reducible refine State.raise_keeps ?_)
    | with_reducible refine keeps_ite ?_ ?_ | fail_if_no_progress (with_reducible refine Keeps.upd ?_)))

theorem copySides_keeps {s0 : State} {x : Placing} {p : Pers} {lun nsid unit side : Nat} {rs : List (Nat × Nat)} (h : Keeps s0
    x.st) :
    Keeps s0 (copySides x p lun nsid unit side rs).1.st := by
  induction rs generalizing x side with
  | nil => exact h
  | cons r rs ih => exact ih (placeExtent_keeps h)


theorem placeCopy_keeps {s0 s : State} {p : Pers} {lun nsid unit lun0 block0 : Nat} (h : Keeps s0 s) :
    Keeps s0 (placeCopy s p lun nsid unit lun0 block0).1.st := by
  unfold placeCopy
  dsimp only
  split
  · exact h
  · split
    · exact placeExtent_keeps h
    · exact placeFine_keeps h


theorem copyUnit_keeps {s0 s : State} {nsid unit lun0 block0 : Nat} (h : Keeps s0 s) :
    KOpt (fun x => Keeps s0 x) (copyUnit s nsid unit lun0 block0) := by
  unfold copyUnit
  split
  · trivial
  · split
    · trivial
    · next lun _ _ p _ =>
      have k : Keeps s0 (placeCopy s p lun nsid unit lun0 block0).1.st := placeCopy_keeps h
      dsimp only
      split
      · split
        · exact addJob_keeps (copySides_keeps k)
        · trivial
      · split
        · exact addJob_keeps k
        · trivial

theorem copyUnit_keeps_e {s0 s : State} {nsid unit lun0 block0 : Nat} {t : State} (h : Keeps s0 s)
    (e : copyUnit s nsid unit lun0 block0 = some t) : Keeps s0 t := by
  have k := copyUnit_keeps (nsid := nsid) (unit := unit) (lun0 := lun0) (block0 := block0) h
  rw [e] at k
  exact k


theorem copyUnits_keeps {s0 : State} {s : State} {lun : Nat} {block : Nat} {y3 : List (Nat × Nat)} (h : Keeps s0 s) : KOpt (fun
    x => Keeps s0 x) (copyUnits s lun block y3) := by
  fun_induction copyUnits s lun block y3 <;> (repeat' (first
    | (with_reducible refine copyUnit_keeps_e ?_ (by assumption)) | with_reducible apply_assumption))

theorem copyUnits_keeps_e {s0 : State} {s : State} {lun : Nat} {block : Nat} {y3 : List (Nat × Nat)} {t : State} (h : Keeps s0
    s) (e : copyUnits s lun block y3 = .some t) : Keeps s0 t := by
  have k := copyUnits_keeps (s0 := s0) (s := s) (lun := lun) (block := block) (y3 := y3) h
  rw [e] at k
  exact k

theorem gcVictim_keeps {s0 : State} {s : State} (h : Keeps s0 s) : Keeps s0 (gcVictim s) := by
  unfold gcVictim
  (repeat' (first
    | with_reducible assumption | (with_reducible refine enterReadOnly_keeps ?_)
    | (with_reducible refine copyUnits_keeps_e ?_ (by assumption)) | (with_reducible refine gcUpdate_keeps ?_)
    | (with_reducible refine closeOpen_keeps ?_) | dsimp only | split
    | fail_if_no_progress (with_reducible refine Keeps.upd ?_)))

theorem execGcVictim_keeps {s0 : State} {s : State} (h : Keeps s0 s) : KRes s0 (execGcVictim s) := by
  unfold execGcVictim
  (repeat' (first | with_reducible assumption | (with_reducible refine gcVictim_keeps ?_) | with_reducible refine kRes_next ?_))

theorem execNandWait_keeps {s0 : State} {lun : Nat} {s : State} (h : Keeps s0 s) : KRes s0 (execNandWait lun s) := by
  unfold execNandWait
  (repeat' (first | with_reducible assumption | (with_reducible refine nandWait_keeps ?_) | with_reducible refine kRes_next ?_))

theorem eraseCellar_keeps {s0 : State} {s : State} (h : Keeps s0 s) : Keeps s0 (eraseCellar s) := by
  unfold eraseCellar
  (repeat' (first
    | with_reducible assumption | (with_reducible refine eraseCells_keeps ?_) | (with_reducible refine btSet_keeps ?_)
    | with_reducible refine keeps_foldl (fun _ _ _ => ?_) ?_ | fail_if_no_progress (with_reducible refine Keeps.upd ?_)))

theorem cellarReplayWrite_keeps {s0 : State} {s : State} (h : Keeps s0 s) : Keeps s0 (cellarReplayWrite s) := by
  unfold cellarReplayWrite
  (repeat' (first
    | with_reducible assumption | (with_reducible refine eraseCellar_keeps ?_) | (with_reducible refine writeRestored_keeps ?_)
    | with_reducible refine keeps_ite ?_ ?_))

theorem execCellarReplayWrite_keeps {s0 : State} {s : State} (h : Keeps s0 s) : KRes s0 (execCellarReplayWrite s) := by
  unfold execCellarReplayWrite
  (repeat' (first
    | with_reducible assumption | (with_reducible refine cellarReplayWrite_keeps ?_) | with_reducible refine kRes_next ?_))

theorem execGcErase_keeps {s0 : State} {lun : Nat} {block : Nat} {ok : Bool} {s : State} (h : Keeps s0 s) : KRes s0
    (execGcErase lun block ok s) := by
  unfold execGcErase
  (repeat' (first | with_reducible assumption | (with_reducible refine gcErase_keeps ?_) | with_reducible refine kRes_next ?_))

theorem execNandDout_keeps {s0 : State} {lun : Nat} {ok : List Bool} {bytes : List Byte} {s : State} (h : Keeps s0 s) : KRes s0
    (execNandDout lun ok bytes s) := by
  unfold execNandDout
  (repeat' (first | with_reducible assumption | (with_reducible refine nandDout_keeps ?_) | with_reducible refine kRes_next ?_))

theorem execNandOpRetryClear_keeps {s0 : State} {lun : Nat} {s : State} (h : Keeps s0 s) : KRes s0 (execNandOpRetryClear lun s)
    := by
  unfold execNandOpRetryClear
  (repeat' (first
    | with_reducible assumption | (with_reducible refine startRetryClear_keeps ?_) | with_reducible refine kRes_next ?_))

/-! ### Resets -/

theorem keepFields_keeps {s0 old s : State} {fs : List Fld} (h : Keeps s0 s) : Keeps s0 (keepFields old s fs) :=
  State.setFlds_keeps h


theorem fuseRegs_keeps {s0 : State} {s : State} (h : Keeps s0 s) : Keeps s0 (fuseRegs s) := by
  unfold fuseRegs
  (repeat' (first | with_reducible assumption | (with_reducible refine State.setFlds_keeps ?_)))

theorem durable_keeps {s0 s : State} (h : Keeps s0 s) : Keeps s0 (durable s) := by
  have k : Keeps s0 (csCutOff s) := csCutOff_keeps h
  unfold durable fuseRegs
  dsimp only
  refine State.setFlds_keeps ⟨k.pending, fun _ => reset_regs_wf, fun _ => reset_mem_wf, fun i => ⟨(k.life i).1, fun n hn =>
      nomatch hn⟩,
    k.up, k.back, k.uid, fun _ => rfl⟩


theorem coreReset_keeps {s0 s : State} {retain : Bool} (h : Keeps s0 s) : Keeps s0 (coreReset s retain) := by
  have k : Keeps s0 ((keepFields s (durable s) (R.PCIE_STATUS_BIFUR :: (aonFields ++ clockFields))).setFlds
      [(R.SYS_PHASE_PHASE, 2), (R.SYS_RSTCAUSE_RETAINED, b2n retain)]) :=
    State.setFlds_keeps (keepFields_keeps (durable_keeps h))
  have m : Memory.wf s0.mem = true → Memory.wf (if retain then dramKept s else []) = true := by
    intro w
    split
    · exact tblWf_tblKeep _ (h.mem w)
    · rfl
  unfold coreReset
  dsimp only
  generalize (keepFields s (durable s) (R.PCIE_STATUS_BIFUR :: (aonFields ++ clockFields))).setFlds
    [(R.SYS_PHASE_PHASE, 2), (R.SYS_RSTCAUSE_RETAINED, b2n retain)] = X at k ⊢
  exact ⟨k.pending, k.regs, m, k.life, k.up, k.back, k.uid, k.cores⟩


theorem heldReset_keeps {s0 : State} {s : State} {trip : Bool} (h : Keeps s0 s) : Keeps s0 (heldReset s trip) := by
  unfold heldReset
  (repeat' (first
    | with_reducible assumption | (with_reducible refine coreReset_keeps ?_) | (with_reducible refine State.raise_keeps ?_)
    | fail_if_no_progress (with_reducible refine Keeps.upd ?_)))

theorem warmReset_keeps {s0 : State} {s : State} {cause : Fld} {retain : Bool} (h : Keeps s0 s) : Keeps s0 (warmReset s cause
    retain) := by
  unfold warmReset
  (repeat' (first
    | with_reducible assumption | (with_reducible refine coreReset_keeps ?_) | (with_reducible refine State.raise_keeps ?_)
    | with_reducible refine keeps_ite ?_ ?_))

theorem doubleFaultReset_keeps {s0 : State} {s : State} {house : Nat} (h : Keeps s0 s) : Keeps s0 (doubleFaultReset s house) :=
    by
  unfold doubleFaultReset
  (repeat' (first
    | with_reducible assumption | (with_reducible refine State.setFld_keeps ?_) | (with_reducible refine warmReset_keeps ?_)
    | with_reducible refine keeps_ite ?_ ?_))

theorem coldReset_keeps {s0 : State} {s : State} (h : Keeps s0 s) : Keeps s0 (coldReset s) := by
  unfold coldReset
  (repeat' (first
    | with_reducible assumption | (with_reducible refine keepFields_keeps ?_) | (with_reducible refine State.raise_keeps ?_)
    | (with_reducible refine durable_keeps ?_) | fail_if_no_progress (with_reducible refine Keeps.upd ?_)))

theorem postFlushReset_keeps {s0 : State} {s : State} {trip : Bool} (h : Keeps s0 s) : Keeps s0 (postFlushReset s trip) := by
  unfold postFlushReset
  (repeat' (first
    | with_reducible assumption | (with_reducible refine State.setFlds_keeps ?_) | (with_reducible refine coreReset_keeps ?_)
    | (with_reducible refine State.raise_keeps ?_) | (with_reducible refine coldReset_keeps ?_)
    | with_reducible refine keeps_ite ?_ ?_ | fail_if_no_progress (with_reducible refine Keeps.upd ?_)))

theorem powerOnReset_keeps {s0 : State} {s : State} (h : Keeps s0 s) : Keeps s0 (powerOnReset s) := by
  unfold powerOnReset
  (repeat' (first
    | with_reducible assumption | (with_reducible refine durable_keeps ?_)
    | fail_if_no_progress (with_reducible refine Keeps.upd ?_)))

/-! ### Dram -/

theorem setDch_keeps {s0 : State} {s : State} {c : Nat} {x : DramCh} (h : Keeps s0 s) : Keeps s0 (setDch s c x) := by
  unfold setDch
  (repeat' (first | with_reducible assumption | fail_if_no_progress (with_reducible refine Keeps.upd ?_)))

theorem pauseStart_keeps {s0 : State} {s : State} {c : Nat} (h : Keeps s0 s) : Keeps s0 (pauseStart s c) := by
  unfold pauseStart
  (repeat' (first
    | with_reducible assumption | (with_reducible refine setDch_keeps ?_) | with_reducible refine keeps_ite ?_ ?_))

theorem execRetrainPauseStart_keeps {s0 : State} {c : Fin 24} {s : State} (h : Keeps s0 s) : KRes s0 (execRetrainPauseStart c
    s) := by
  unfold execRetrainPauseStart
  (repeat' (first
    | with_reducible assumption | (with_reducible refine pauseStart_keeps ?_) | with_reducible refine kRes_next ?_))

theorem queueReqs_keeps {s0 : State} {s : State} {c : Nat} {qs : List DramReq} (h : Keeps s0 s) : Keeps s0 (queueReqs s c qs)
    := by
  unfold queueReqs
  (repeat' (first | with_reducible assumption | (with_reducible refine setDch_keeps ?_)))

theorem panicUpdate_keeps {s0 : State} {s : State} {fill0 : Nat} {fill1 : Nat} (h : Keeps s0 s) : Keeps s0 (panicUpdate s fill0
    fill1) := by
  unfold panicUpdate
  (repeat' (first | with_reducible assumption | (with_reducible refine State.setFlds_keeps ?_)))

theorem activate_keeps {s0 : State} {s : State} {c : Nat} (h : Keeps s0 s) : Keeps s0 (activate s c) := by
  unfold activate
  (repeat' (first
    | with_reducible assumption | (with_reducible refine State.addWrap_keeps ?_) | with_reducible refine keeps_ite ?_ ?_
    | fail_if_no_progress (with_reducible refine Keeps.upd ?_)))

theorem serveReq_keeps {s0 : State} {s : State} {c : Nat} {q : DramReq} (h : Keeps s0 s) : Keeps s0 (serveReq s c q) := by
  unfold serveReq
  (repeat' (first
    | with_reducible assumption | (with_reducible refine activate_keeps ?_) | (with_reducible refine readRam_keeps ?_)
    | (with_reducible refine writeRam_keeps ?_) | (with_reducible refine setDch_keeps ?_) | split))

theorem requestServe_keeps {s0 : State} {s : State} {c : Nat} {now : Nat} {fill0 : Nat} {fill1 : Nat} {qs : List DramReq} (h :
    Keeps s0 s) : Keeps s0 (requestServe s c now fill0 fill1 qs) := by
  unfold requestServe
  (repeat' (first
    | with_reducible assumption | (with_reducible refine queueReqs_keeps ?_) | (with_reducible refine panicUpdate_keeps ?_)
    | (with_reducible refine serveReq_keeps ?_) | with_reducible refine keeps_ite ?_ ?_ | split))

theorem selfRefreshExit_keeps {s0 s : State} (h : Keeps s0 s) : Keeps s0 (selfRefreshExit s) := by
  have k : Keeps s0 (s.raise R.DRAM_STATUS_INIT) := State.raise_keeps h
  have m : ∀ p q d, Keeps s0 ({ (s.raise R.DRAM_STATUS_INIT) with
      mem := tblKeep p s.mem, dramBad := tblKeep q s.dramBad, dram := d } : State) := fun p _ _ =>
    ⟨k.pending, k.regs, fun w => tblWf_tblKeep p (h.mem w), k.life, k.up, k.back, k.uid, k.cores⟩
  unfold selfRefreshExit
  dsimp only
  exact keeps_foldl (fun _ _ k => State.addWrap_keeps (State.setFlds_keeps k)) (keeps_ite (m _ _ _) h)


theorem refreshBank_keeps {s0 : State} {s : State} {c : Nat} {b : Nat} (h : Keeps s0 s) : Keeps s0 (refreshBank s c b) := by
  unfold refreshBank
  (repeat' (first | with_reducible assumption | (with_reducible refine setDch_keeps ?_)))

theorem showOwed_keeps {s0 : State} {s : State} {c : Nat} (h : Keeps s0 s) : Keeps s0 (showOwed s c) := by
  unfold showOwed
  (repeat' (first | with_reducible assumption | (with_reducible refine State.setFld_keeps ?_)))

theorem owe_keeps {s0 : State} {s : State} {c : Nat} {b : Nat} {n : Nat} (h : Keeps s0 s) : Keeps s0 (owe s c b n) := by
  unfold owe
  (repeat' (first
    | with_reducible assumption | (with_reducible refine showOwed_keeps ?_) | (with_reducible refine setDch_keeps ?_)))

theorem refreshDue_keeps {s0 : State} {s : State} {c : Nat} {b : Nat} (h : Keeps s0 s) : Keeps s0 (refreshDue s c b) := by
  unfold refreshDue
  (repeat' (first
    | with_reducible assumption | (with_reducible refine refreshBank_keeps ?_) | (with_reducible refine State.raise_keeps ?_)
    | (with_reducible refine owe_keeps ?_) | with_reducible refine keeps_ite ?_ ?_))

theorem mr4Poll_keeps {s0 : State} {s : State} {c : Nat} {rate : Nat} (h : Keeps s0 s) : Keeps s0 (mr4Poll s c rate) := by
  unfold mr4Poll
  (repeat' (first
    | with_reducible assumption | (with_reducible refine State.setFld_keeps ?_) | with_reducible refine keeps_ite ?_ ?_))

theorem serveAll_keeps {s0 : State} {s : State} {c : Nat} {y2 : Nat} (h : Keeps s0 s) : Keeps s0 (serveAll s c y2) := by
  fun_induction serveAll s c y2 <;> (repeat' (first
    | (with_reducible refine serveReq_keeps ?_) | with_reducible apply_assumption))

theorem selfRefreshEnter_keeps {s0 : State} {s : State} (h : Keeps s0 s) : Keeps s0 (selfRefreshEnter s) := by
  unfold selfRefreshEnter
  (repeat' (first
    | with_reducible assumption | (with_reducible refine serveAll_keeps ?_) | (with_reducible refine State.setFld_keeps ?_)
    | (with_reducible refine State.setFlds_keeps ?_) | (with_reducible refine setDch_keeps ?_)
    | with_reducible refine keeps_foldl (fun _ _ _ => ?_) ?_))

theorem deferExpiry_keeps {s0 : State} {s : State} {c : Nat} (h : Keeps s0 s) : Keeps s0 (deferExpiry s c) := by
  unfold deferExpiry
  (repeat' (first
    | with_reducible assumption | (with_reducible refine State.raise_keeps ?_) | (with_reducible refine setDch_keeps ?_)
    | with_reducible refine keeps_ite ?_ ?_))

theorem pauseDue_keeps {s0 : State} {s : State} {c : Nat} (h : Keeps s0 s) : Keeps s0 (pauseDue s c) := by
  unfold pauseDue
  (repeat' (first
    | with_reducible assumption | (with_reducible refine State.raise_keeps ?_) | (with_reducible refine setDch_keeps ?_)
    | with_reducible refine keeps_ite ?_ ?_))

theorem owedIssue_keeps {s0 : State} {s : State} {c : Nat} (h : Keeps s0 s) : Keeps s0 (owedIssue s c) := by
  unfold owedIssue
  (repeat' (first
    | with_reducible assumption | (with_reducible refine refreshBank_keeps ?_) | (with_reducible refine owe_keeps ?_)
    | with_reducible refine keeps_ite ?_ ?_ | split))

theorem segmentInitDone_keeps {s0 : State} {s : State} (h : Keeps s0 s) : Keeps s0 (segmentInitDone s) := by
  unfold segmentInitDone
  (repeat' (first
    | with_reducible assumption | (with_reducible refine State.clear_keeps ?_) | with_reducible refine keeps_ite ?_ ?_
    | fail_if_no_progress (with_reducible refine Keeps.upd ?_)))

theorem execDramSegmentInitDone_keeps {s0 : State} {s : State} (h : Keeps s0 s) : KRes s0 (execDramSegmentInitDone s) := by
  unfold execDramSegmentInitDone
  (repeat' (first
    | with_reducible assumption | (with_reducible refine segmentInitDone_keeps ?_) | with_reducible refine kRes_next ?_))

theorem scrubLine_keeps {s0 : State} {s : State} {upset : Nat} {slow : Bool} (h : Keeps s0 s) : Keeps s0 (scrubLine s upset
    slow) := by
  unfold scrubLine
  (repeat' (first
    | with_reducible assumption | (with_reducible refine countDram_keeps ?_) | (with_reducible refine State.raise_keeps ?_)
    | (with_reducible refine setDramMark_keeps ?_) | split | fail_if_no_progress (with_reducible refine Keeps.upd ?_)))

theorem execDramScrubLine_keeps {s0 : State} {upset : Fin 3} {slow : Bool} {s : State} (h : Keeps s0 s) : KRes s0
    (execDramScrubLine upset slow s) := by
  unfold execDramScrubLine
  (repeat' (first
    | with_reducible assumption | (with_reducible refine scrubLine_keeps ?_) | with_reducible refine kRes_next ?_))

theorem pauseEnd_keeps {s0 : State} {s : State} {c : Nat} {drift : Nat} {ok : Bool} (h : Keeps s0 s) : Keeps s0 (pauseEnd s c
    drift ok) := by
  unfold pauseEnd
  (repeat' (first
    | with_reducible assumption | (with_reducible refine State.setFlds_keeps ?_) | (with_reducible refine State.raise_keeps ?_)
    | (with_reducible refine warmReset_keeps ?_) | (with_reducible refine State.addWrap_keeps ?_)
    | (with_reducible refine setDch_keeps ?_) | with_reducible refine keeps_ite ?_ ?_))

theorem execRefreshDue_keeps {s0 : State} {c : Fin 24} {bank : Fin 16} {s : State} (h : Keeps s0 s) : KRes s0 (execRefreshDue c
    bank s) := by
  unfold execRefreshDue
  (repeat' (first
    | with_reducible assumption | (with_reducible refine refreshDue_keeps ?_) | with_reducible refine kRes_next ?_))

theorem execMr4Poll_keeps {s0 : State} {c : Fin 24} {rate : Fin 32} {s : State} (h : Keeps s0 s) : KRes s0 (execMr4Poll c rate
    s) := by
  unfold execMr4Poll
  (repeat' (first | with_reducible assumption | (with_reducible refine mr4Poll_keeps ?_) | with_reducible refine kRes_next ?_))

theorem execDramRequestServe_keeps {s0 : State} {c : Fin 24} {now : Nat} {fill0 : Nat} {fill1 : Nat} {arrivals : List DramReq}
    {s : State} (h : Keeps s0 s) : KRes s0 (execDramRequestServe c now fill0 fill1 arrivals s) := by
  unfold execDramRequestServe
  (repeat' (first
    | with_reducible assumption | (with_reducible refine requestServe_keeps ?_) | with_reducible refine kRes_next ?_))

theorem execRetrainPauseEnd_keeps {s0 : State} {c : Fin 24} {drift : Nat} {ok : Bool} {s : State} (h : Keeps s0 s) : KRes s0
    (execRetrainPauseEnd c drift ok s) := by
  unfold execRetrainPauseEnd
  (repeat' (first | with_reducible assumption | (with_reducible refine pauseEnd_keeps ?_) | with_reducible refine kRes_next ?_))

theorem execRetrainDeferExpiry_keeps {s0 : State} {c : Fin 24} {s : State} (h : Keeps s0 s) : KRes s0 (execRetrainDeferExpiry c
    s) := by
  unfold execRetrainDeferExpiry
  (repeat' (first
    | with_reducible assumption | (with_reducible refine deferExpiry_keeps ?_) | with_reducible refine kRes_next ?_))

theorem execOwedRefreshIssue_keeps {s0 : State} {c : Fin 24} {s : State} (h : Keeps s0 s) : KRes s0 (execOwedRefreshIssue c s)
    := by
  unfold execOwedRefreshIssue
  (repeat' (first
    | with_reducible assumption | (with_reducible refine owedIssue_keeps ?_) | with_reducible refine kRes_next ?_))

theorem execRetrainPauseDue_keeps {s0 : State} {c : Fin 24} {s : State} (h : Keeps s0 s) : KRes s0 (execRetrainPauseDue c s) :=
    by
  unfold execRetrainPauseDue
  (repeat' (first | with_reducible assumption | (with_reducible refine pauseDue_keeps ?_) | with_reducible refine kRes_next ?_))

end Sys2Proof.Machine
end

