-- ==== Sys2Proof/Laws/Keeps4.lean ====
section
/-! SUPPORT. Sys2Proof/Laws/Keeps4.lean: what each operation of Hold, Logs, FabBase, Release, FlowCmds, Fabric keeps (`Keeps`). -/

set_option Elab.async false
set_option linter.unusedVariables false

namespace Sys2Proof.Machine

/-! ### Hold -/

theorem setWindow_keeps {s0 : State} {s : State} {w : Nat} (h : Keeps s0 s) : Keeps s0 (setWindow s w) := by
  unfold setWindow
  (repeat' (first
    | with_reducible assumption | (with_reducible refine State.raise_keeps ?_) | (with_reducible refine notifyVendor_keeps ?_)
    | with_reducible refine keeps_ite ?_ ?_ | fail_if_no_progress (with_reducible refine Keeps.upd ?_)))

theorem takeWindow_keeps {s0 : State} {s : State} (h : Keeps s0 s) : Keeps s0 (takeWindow s) := by
  unfold takeWindow
  (repeat' (first
    | with_reducible assumption | (with_reducible refine setWindow_keeps ?_) | split
    | fail_if_no_progress (with_reducible refine Keeps.upd ?_)))

theorem qualEnd_keeps {s0 : State} {s : State} {res : Nat} (h : Keeps s0 s) : Keeps s0 (qualEnd s res) := by
  unfold qualEnd
  (repeat' (first
    | with_reducible assumption | (with_reducible refine takeWindow_keeps ?_) | (with_reducible refine State.clear_keeps ?_)
    | (with_reducible refine State.setFlds_keeps ?_) | (with_reducible refine setWarn_keeps ?_)
    | (with_reducible refine clearWarn_keeps ?_) | (with_reducible refine State.raise_keeps ?_)
    | (with_reducible refine updCmd_keeps ?_) | with_reducible refine keeps_ite ?_ ?_ | split
    | fail_if_no_progress (with_reducible refine Keeps.upd ?_)))

theorem qualAbort_keeps {s0 : State} {s : State} (h : Keeps s0 s) : Keeps s0 (qualAbort s) := by
  unfold qualAbort
  (repeat' (first
    | with_reducible assumption | (with_reducible refine State.setFlds_keeps ?_) | (with_reducible refine qualEnd_keeps ?_)
    | with_reducible refine keeps_ite ?_ ?_))

theorem stopTiles_keeps {s0 s : State} (h : Keeps s0 s) : Keeps s0 (stopTiles s) :=
  h.trans ⟨rfl, id, id, id, fun _ => Nat.le_refl _, Nat.le_refl _, rfl, fun e => by simp [stopTiles, e]⟩


theorem flushOutputs_keeps {s0 : State} {s : State} (h : Keeps s0 s) : Keeps s0 (flushOutputs s) := by
  unfold flushOutputs
  (repeat' (first | with_reducible assumption | (with_reducible refine State.setFlds_keeps ?_)))

theorem flushStart_keeps {s0 : State} {s : State} {by_ : Nat} {trip : Bool} (h : Keeps s0 s) : Keeps s0 (flushStart s by_ trip)
    := by
  unfold flushStart
  (repeat' (first
    | with_reducible assumption | (with_reducible refine State.setFlds_keeps ?_) | (with_reducible refine qualAbort_keeps ?_)
    | (with_reducible refine heldReset_keeps ?_) | (with_reducible refine stopTiles_keeps ?_)
    | (with_reducible refine flushOutputs_keeps ?_) | with_reducible refine keeps_ite ?_ ?_
    | fail_if_no_progress (with_reducible refine Keeps.upd ?_)))

theorem holdQuiesce_keeps {s0 : State} {s : State} (h : Keeps s0 s) : Keeps s0 (holdQuiesce s) := by
  unfold holdQuiesce
  (repeat' (first
    | with_reducible assumption | (with_reducible refine State.setFld_keeps ?_) | (with_reducible refine qualAbort_keeps ?_)
    | (with_reducible refine setWindow_keeps ?_) | fail_if_no_progress (with_reducible refine Keeps.upd ?_)))

theorem qualStart_keeps {s0 : State} {s : State} (h : Keeps s0 s) : Keeps s0 (qualStart s) := by
  unfold qualStart
  (repeat' (first
    | with_reducible assumption | (with_reducible refine State.setFlds_keeps ?_) | (with_reducible refine State.raise_keeps ?_)
    | (with_reducible refine qualEnd_keeps ?_) | (with_reducible refine setWindow_keeps ?_)
    | with_reducible refine keeps_ite ?_ ?_ | fail_if_no_progress (with_reducible refine Keeps.upd ?_)))

theorem qualDrain_keeps {s0 : State} {s : State} {cmd : Option Nat} (h : Keeps s0 s) : Keeps s0 (qualDrain s cmd) := by
  unfold qualDrain
  (repeat' (first
    | with_reducible assumption | (with_reducible refine qualStart_keeps ?_) | (with_reducible refine setWindow_keeps ?_)
    | with_reducible refine keeps_ite ?_ ?_ | fail_if_no_progress (with_reducible refine Keeps.upd ?_)))

theorem holdSave_keeps {s0 : State} {s : State} {v : Nat} (h : Keeps s0 s) : Keeps s0 (holdSave s v) := by
  unfold holdSave
  (repeat' (first
    | with_reducible assumption | (with_reducible refine setClaimErr_keeps ?_) | (with_reducible refine State.raise_keeps ?_)
    | with_reducible refine keeps_ite ?_ ?_ | fail_if_no_progress (with_reducible refine Keeps.upd ?_)))

theorem setProf_keeps {s0 : State} {s : State} {bs : List Byte} (h : Keeps s0 s) : Keeps s0 (setProf s bs) := by
  unfold setProf
  (repeat' (first | with_reducible assumption | (with_reducible refine State.setFlds_keeps ?_)))

theorem testSettle_keeps {s0 : State} {s : State} {v : Nat} (h : Keeps s0 s) : Keeps s0 (testSettle s v) := by
  unfold testSettle
  (repeat' (first
    | with_reducible assumption | (with_reducible refine State.raise_keeps ?_) | split
    | fail_if_no_progress (with_reducible refine Keeps.upd ?_)))

theorem chargerTick_keeps {s0 : State} {s : State} (h : Keeps s0 s) : Keeps s0 (chargerTick s) := by
  unfold chargerTick
  (repeat' (first
    | with_reducible assumption | (with_reducible refine State.setFld_keeps ?_) | with_reducible refine keeps_ite ?_ ?_))

theorem flushStops_keeps {s0 : State} {s0_ : State} {ended : Bool} {recorded : Nat} {us : Nat} (h : Keeps s0 s0_) : Keeps s0
    (flushStops s0_ ended recorded us) := by
  unfold flushStops
  (repeat' (first | with_reducible assumption | dsimp only | split | fail_if_no_progress (with_reducible refine Keeps.upd ?_)))

theorem chargeTimeout_keeps {s0 : State} {s : State} (h : Keeps s0 s) : Keeps s0 (chargeTimeout s) := by
  unfold chargeTimeout
  (repeat' (first
    | with_reducible assumption | (with_reducible refine qualEnd_keeps ?_) | with_reducible refine keeps_ite ?_ ?_))

theorem holdSaveDone_keeps {s0 : State} {s : State} (h : Keeps s0 s) : Keeps s0 (holdSaveDone s) := by
  unfold holdSaveDone
  (repeat' (first
    | with_reducible assumption | (with_reducible refine State.clear_keeps ?_) | split
    | fail_if_no_progress (with_reducible refine Keeps.upd ?_)))

theorem testEnd_keeps {s0 : State} {s : State} {v : Nat} (h : Keeps s0 s) : Keeps s0 (testEnd s v) := by
  unfold testEnd
  (repeat' (first
    | with_reducible assumption | (with_reducible refine State.setFlds_keeps ?_) | split
    | fail_if_no_progress (with_reducible refine Keeps.upd ?_)))

theorem preemptPin_keeps {s0 : State} {s : State} {n : Nat} {owner : Nat} {func : Nat} (h : Keeps s0 s) : Keeps s0 (preemptPin
    s n owner func) := by
  unfold preemptPin
  (repeat' (first
    | with_reducible assumption | (with_reducible refine setClaimErr_keeps ?_) | (with_reducible refine State.setFlds_keeps ?_)
    | with_reducible refine keeps_ite ?_ ?_))

theorem powerFail_keeps {s0 : State} {s : State} {pin : Option Nat} (h : Keeps s0 s) : Keeps s0 (powerFail s pin) := by
  unfold powerFail
  (repeat' (first
    | with_reducible assumption | (with_reducible refine flushStart_keeps ?_) | (with_reducible refine preemptPin_keeps ?_)
    | split | fail_if_no_progress (with_reducible refine Keeps.upd ?_)))

theorem loadSample_keeps {s0 : State} {s : State} {v : Nat} (h : Keeps s0 s) : Keeps s0 (loadSample s v) := by
  unfold loadSample
  (repeat' (first | with_reducible assumption | split | fail_if_no_progress (with_reducible refine Keeps.upd ?_)))

theorem qualNext_keeps {s0 : State} {s : State} (h : Keeps s0 s) : Keeps s0 (qualNext s) := by
  unfold qualNext
  (repeat' (first
    | with_reducible assumption | (with_reducible refine State.clear_keeps ?_) | (with_reducible refine qualEnd_keeps ?_)
    | split | fail_if_no_progress (with_reducible refine Keeps.upd ?_)))

theorem voltageSample_keeps {s0 : State} {s : State} {vs : List Nat} (h : Keeps s0 s) : Keeps s0 (voltageSample s vs) := by
  unfold voltageSample
  (repeat' (first
    | with_reducible assumption | (with_reducible refine takeWindow_keeps ?_) | (with_reducible refine qualNext_keeps ?_)
    | (with_reducible refine State.setFlds_keeps ?_) | (with_reducible refine State.raise_keeps ?_)
    | (with_reducible refine flushStart_keeps ?_) | (with_reducible refine qualStart_keeps ?_)
    | with_reducible refine keeps_ite ?_ ?_ | split | fail_if_no_progress (with_reducible refine Keeps.upd ?_)))

/-! ### Logs -/

theorem fillPage_keeps {s0 : State} {s : State} {y1 : PageBytes} (h : Keeps s0 s) : Keeps s0 (fillPage s y1).2 := by
  fun_induction fillPage s y1 <;> (repeat' (first
    | (with_reducible refine State.fresh_keeps ?_) | with_reducible apply_assumption))

theorem fillPage_keeps_e {s0 : State} {s : State} {y1 : PageBytes} {x0} {t : State} (h : Keeps s0 s) (e : fillPage s y1 = (x0,
    t)) : Keeps s0 t := by
  have k := fillPage_keeps (s0 := s0) (s := s) (y1 := y1) h
  rw [e] at k
  exact k

/-! ### FabBase -/

theorem setPort_keeps {s0 : State} {s : State} {p : Nat} {x : Port} (h : Keeps s0 s) : Keeps s0 (setPort s p x) := by
  unfold setPort
  (repeat' (first | with_reducible assumption | fail_if_no_progress (with_reducible refine Keeps.upd ?_)))

theorem sendFlits_keeps {s0 : State} {s : State} {p : Nat} {vc : Nat} {f : Frame} (h : Keeps s0 s) : Keeps s0 (sendFlits s p vc
    f) := by
  unfold sendFlits
  (repeat' (first | with_reducible assumption | (with_reducible refine setPort_keeps ?_)))

theorem pump_keeps {s0 : State} {s : State} {p : Nat} {y2 : Nat} (h : Keeps s0 s) : Keeps s0 (pump s p y2) := by
  fun_induction pump s p y2 <;> (repeat' (first
    | (with_reducible refine sendFlits_keeps ?_) | (with_reducible refine State.raise_keeps ?_)
    | (with_reducible refine State.addWrap_keeps ?_) | (with_reducible refine setPort_keeps ?_)
    | with_reducible apply_assumption))

theorem pumpPort_keeps {s0 : State} {s : State} {p : Nat} (h : Keeps s0 s) : Keeps s0 (pumpPort s p) := by
  unfold pumpPort
  (repeat' (first | with_reducible assumption | (with_reducible refine pump_keeps ?_)))

theorem sendOn_keeps {s0 : State} {s : State} {p : Nat} {vc : Nat} {f : Frame} (h : Keeps s0 s) : Keeps s0 (sendOn s p vc f) :=
    by
  unfold sendOn
  (repeat' (first
    | with_reducible assumption | (with_reducible refine pumpPort_keeps ?_) | (with_reducible refine setPort_keeps ?_)))

theorem sendTo_keeps {s0 : State} {s : State} {dst : Nat} {kind : Nat} {arg0 : Nat} {arg1 : Nat} {data : List Byte} (h : Keeps
    s0 s) : Keeps s0 (sendTo s dst kind arg0 arg1 data) := by
  unfold sendTo
  (repeat' (first
    | with_reducible assumption | (with_reducible refine sendOn_keeps ?_) | (with_reducible refine State.addWrap_keeps ?_)
    | split))

theorem sendDirected_keeps {s0 : State} {s : State} {ports : List Nat} {kind : Nat} {data : List Byte} (h : Keeps s0 s) : Keeps
    s0 (sendDirected s ports kind data) := by
  unfold sendDirected
  (repeat' (first | with_reducible assumption | (with_reducible refine sendOn_keeps ?_) | split))

theorem linkOut_keeps {s0 : State} {s : State} {p : Nat} {fs : List (List Byte)} (h : Keeps s0 s) : Keeps s0 (linkOut s p fs)
    := by
  unfold linkOut
  (repeat' (first | with_reducible assumption | (with_reducible refine setPort_keeps ?_)))

theorem sendLink_keeps {s0 : State} {s : State} {p : Nat} {lc : Nat} {rest : List Byte} (h : Keeps s0 s) : Keeps s0 (sendLink s
    p lc rest) := by
  unfold sendLink
  (repeat' (first | with_reducible assumption | (with_reducible refine linkOut_keeps ?_)))

theorem portQuiesce_keeps {s0 : State} {s : State} {p : Nat} (h : Keeps s0 s) : Keeps s0 (portQuiesce s p) := by
  unfold portQuiesce
  (repeat' (first
    | with_reducible assumption | (with_reducible refine sendLink_keeps ?_) | with_reducible refine keeps_ite ?_ ?_))

theorem syncUpdate_keeps {s0 : State} {s : State} (h : Keeps s0 s) : Keeps s0 (syncUpdate s) := by
  unfold syncUpdate
  (repeat' (first
    | with_reducible assumption | (with_reducible refine State.setFld_keeps ?_) | (with_reducible refine State.raise_keeps ?_)
    | with_reducible refine keeps_ite ?_ ?_))

theorem timeSource_keeps {s0 : State} {s : State} (h : Keeps s0 s) : Keeps s0 (timeSource s) := by
  unfold timeSource
  (repeat' (first
    | with_reducible assumption | (with_reducible refine State.setFld_keeps ?_)
    | (with_reducible refine State.setFlds_keeps ?_) | (with_reducible refine State.raise_keeps ?_)
    | (with_reducible refine syncUpdate_keeps ?_) | split))

theorem returnCredits_keeps {s0 : State} {s : State} {p : Nat} (h : Keeps s0 s) : Keeps s0 (returnCredits s p) := by
  unfold returnCredits
  (repeat' (first
    | with_reducible assumption | (with_reducible refine sendLink_keeps ?_) | (with_reducible refine setPort_keeps ?_)
    | with_reducible refine keeps_ite ?_ ?_))

theorem popFrame_keeps {s0 : State} {s : State} {p : Nat} {vc : Nat} (h : Keeps s0 s) : Keeps s0 (popFrame s p vc) := by
  unfold popFrame
  (repeat' (first
    | with_reducible assumption | (with_reducible refine returnCredits_keeps ?_) | (with_reducible refine setPort_keeps ?_)
    | dsimp only | split))

theorem sendNeighbour_keeps {s0 : State} {s : State} {p : Nat} {kind : Nat} {arg0 : Nat} {arg1 : Nat} {data : List Byte} (h :
    Keeps s0 s) : Keeps s0 (sendNeighbour s p kind arg0 arg1 data) := by
  unfold sendNeighbour
  (repeat' (first | with_reducible assumption | (with_reducible refine sendOn_keeps ?_)))

theorem replyTo_keeps {s0 : State} {s : State} {p : Nat} {f : Frame} {kind : Nat} {arg0 : Nat} {arg1 : Nat} {data : List Byte}
    (h : Keeps s0 s) : Keeps s0 (replyTo s p f kind arg0 arg1 data) := by
  unfold replyTo
  (repeat' (first
    | with_reducible assumption | (with_reducible refine sendTo_keeps ?_) | (with_reducible refine sendNeighbour_keeps ?_)
    | with_reducible refine keeps_ite ?_ ?_))

theorem timePass_keeps {s0 : State} {s : State} {dt : Nat} (h : Keeps s0 s) : Keeps s0 (timePass s dt) := by
  unfold timePass
  (repeat' (first | with_reducible assumption | fail_if_no_progress (with_reducible refine Keeps.upd ?_)))

theorem setLState_keeps {s0 : State} {s : State} {p : Nat} {v : Nat} (h : Keeps s0 s) : Keeps s0 (setLState s p v) := by
  unfold setLState
  (repeat' (first | with_reducible assumption | (with_reducible refine State.setFld_keeps ?_)))

theorem frameErr_keeps {s0 : State} {s : State} {p : Nat} (h : Keeps s0 s) : Keeps s0 (frameErr s p) := by
  unfold frameErr
  (repeat' (first | with_reducible assumption | (with_reducible refine State.addWrap_keeps ?_)))

theorem frameArrived_keeps {s0 : State} {s : State} {p : Nat} {vc : Nat} {ps : List (List Byte)} (h : Keeps s0 s) : Keeps s0
    (frameArrived s p vc ps) := by
  unfold frameArrived
  (repeat' (first
    | with_reducible assumption | (with_reducible refine returnCredits_keeps ?_)
    | (with_reducible refine State.addWrap_keeps ?_) | (with_reducible refine frameErr_keeps ?_)
    | (with_reducible refine setPort_keeps ?_) | split))

theorem flitAccepted_keeps {s0 : State} {s : State} {p : Nat} {ftype : Nat} {vc : Nat} {pay : List Byte} (h : Keeps s0 s) :
    Keeps s0 (flitAccepted s p ftype vc pay) := by
  unfold flitAccepted
  (repeat' (first
    | with_reducible assumption | (with_reducible refine frameArrived_keeps ?_) | (with_reducible refine frameErr_keeps ?_)
    | (with_reducible refine setPort_keeps ?_) | with_reducible refine keeps_ite ?_ ?_))

theorem portEnabled_keeps {s0 : State} {s : State} {p : Nat} (h : Keeps s0 s) : Keeps s0 (portEnabled s p) := by
  unfold portEnabled
  (repeat' (first
    | with_reducible assumption | (with_reducible refine setLState_keeps ?_) | with_reducible refine keeps_ite ?_ ?_))

theorem linkReset_keeps {s0 : State} {s : State} {p : Nat} (h : Keeps s0 s) : Keeps s0 (linkReset s p) := by
  unfold linkReset
  (repeat' (first | with_reducible assumption | (with_reducible refine setPort_keeps ?_)))

theorem portEvent_keeps {s0 : State} {s : State} {p : Nat} {up : Bool} (h : Keeps s0 s) : Keeps s0 (portEvent s p up) := by
  unfold portEvent
  (repeat' (first
    | with_reducible assumption | (with_reducible refine sendTo_keeps ?_) | with_reducible refine keeps_ite ?_ ?_))

theorem leaveLink_keeps {s0 : State} {s : State} {p : Nat} {l : Nat} (h : Keeps s0 s) : Keeps s0 (leaveLink s p l) := by
  unfold leaveLink
  (repeat' (first
    | with_reducible assumption | (with_reducible refine linkReset_keeps ?_) | (with_reducible refine State.setFlds_keeps ?_)
    | (with_reducible refine State.raise_keeps ?_) | (with_reducible refine portEvent_keeps ?_)
    | (with_reducible refine setLState_keeps ?_) | with_reducible refine keeps_ite ?_ ?_))

theorem portOff_keeps {s0 : State} {s : State} {p : Nat} (h : Keeps s0 s) : Keeps s0 (portOff s p) := by
  unfold portOff
  (repeat' (first | with_reducible assumption | (with_reducible refine leaveLink_keeps ?_)))

theorem enterActive_keeps {s0 : State} {s : State} {p : Nat} (h : Keeps s0 s) : Keeps s0 (enterActive s p) := by
  unfold enterActive
  (repeat' (first
    | with_reducible assumption | (with_reducible refine returnCredits_keeps ?_) | (with_reducible refine State.raise_keeps ?_)
    | (with_reducible refine portEvent_keeps ?_) | (with_reducible refine pumpPort_keeps ?_)
    | (with_reducible refine setLState_keeps ?_) | (with_reducible refine setPort_keeps ?_)))

theorem helloTimer_keeps {s0 : State} {s : State} {p : Nat} (h : Keeps s0 s) : Keeps s0 (helloTimer s p) := by
  unfold helloTimer
  (repeat' (first
    | with_reducible assumption | (with_reducible refine returnCredits_keeps ?_) | (with_reducible refine sendLink_keeps ?_)
    | (with_reducible refine enterActive_keeps ?_) | (with_reducible refine setPort_keeps ?_)
    | with_reducible refine keeps_ite ?_ ?_))

theorem helloReceived_keeps {s0 : State} {s : State} {p : Nat} {m : List Byte} (h : Keeps s0 s) : Keeps s0 (helloReceived s p
    m) := by
  unfold helloReceived
  (repeat' (first
    | with_reducible assumption | (with_reducible refine State.setFld_keeps ?_)
    | (with_reducible refine State.setFlds_keeps ?_) | (with_reducible refine State.raise_keeps ?_)
    | (with_reducible refine leaveLink_keeps ?_) | (with_reducible refine portEvent_keeps ?_)
    | (with_reducible refine timeSource_keeps ?_) | (with_reducible refine setPort_keeps ?_)
    | with_reducible refine keeps_ite ?_ ?_))

theorem takeLink_keeps {s0 : State} {s : State} {p : Nat} {lc : Nat} (h : Keeps s0 s) : KOpt (fun x => Keeps s0 x.2) (takeLink
    s p lc) := by
  unfold takeLink
  (repeat' (first
    | with_reducible assumption | (with_reducible refine setPort_keeps ?_) | with_reducible exact kOpt_none
    | with_reducible refine kOpt_some ?_ | dsimp only | split))

theorem takeLink_keeps_e {s0 : State} {s : State} {p : Nat} {lc : Nat} {x10} {t : State} (h : Keeps s0 s) (e : takeLink s p lc
    = .some (x10, t)) : Keeps s0 t := by
  have k := takeLink_keeps (s0 := s0) (s := s) (p := p) (lc := lc) h
  rw [e] at k
  exact k

theorem retrain_keeps {s0 : State} {s : State} {p : Nat} (h : Keeps s0 s) : Keeps s0 (retrain s p) := by
  unfold retrain
  (repeat' (first
    | with_reducible assumption | (with_reducible refine State.raise_keeps ?_) | (with_reducible refine leaveLink_keeps ?_)
    | (with_reducible refine State.addWrap_keeps ?_)))

theorem resend_keeps {s0 : State} {s : State} {p : Nat} {fs : List (List Byte)} (h : Keeps s0 s) : Keeps s0 (resend s p fs) :=
    by
  unfold resend
  (repeat' (first
    | with_reducible assumption | (with_reducible refine linkOut_keeps ?_) | (with_reducible refine State.addWrap_keeps ?_)
    | (with_reducible refine setPort_keeps ?_) | (with_reducible refine retrain_keeps ?_)
    | with_reducible refine keeps_ite ?_ ?_))

theorem sendNak_keeps {s0 : State} {s : State} {p : Nat} (h : Keeps s0 s) : Keeps s0 (sendNak s p) := by
  unfold sendNak
  (repeat' (first | with_reducible assumption | (with_reducible refine sendLink_keeps ?_)))

theorem nakReceived_keeps {s0 : State} {s : State} {p : Nat} {seq : Nat} (h : Keeps s0 s) : Keeps s0 (nakReceived s p seq) := by
  unfold nakReceived
  (repeat' (first
    | with_reducible assumption | (with_reducible refine resend_keeps ?_) | with_reducible refine keeps_ite ?_ ?_))

theorem takeAck_keeps {s0 : State} {s : State} {p : Nat} {ack : Nat} (h : Keeps s0 s) : Keeps s0 (takeAck s p ack) := by
  unfold takeAck
  (repeat' (first
    | with_reducible assumption | (with_reducible refine pumpPort_keeps ?_) | (with_reducible refine setPort_keeps ?_)
    | with_reducible refine keeps_ite ?_ ?_))

theorem flitReceive_keeps {s0 : State} {s : State} {p : Nat} {fl : List Byte} (h : Keeps s0 s) : Keeps s0 (flitReceive s p fl)
    := by
  unfold flitReceive
  (repeat' (first
    | with_reducible assumption | (with_reducible refine flitAccepted_keeps ?_) | (with_reducible refine sendNak_keeps ?_)
    | (with_reducible refine State.raise_keeps ?_) | (with_reducible refine State.addWrap_keeps ?_)
    | (with_reducible refine takeAck_keeps ?_) | (with_reducible refine frameErr_keeps ?_)
    | (with_reducible refine setPort_keeps ?_) | with_reducible refine keeps_ite ?_ ?_))

/-! ### Release -/

theorem drainDone_keeps {s0 : State} {s : State} {flow : Nat} (h : Keeps s0 s) : Keeps s0 (drainDone s flow) := by
  unfold drainDone
  (repeat' (first
    | with_reducible assumption | (with_reducible refine ctxSet_keeps ?_) | (with_reducible refine State.setFld_keeps ?_)
    | (with_reducible refine State.raise_keeps ?_) | (with_reducible refine updCmd_keeps ?_) | split
    | fail_if_no_progress (with_reducible refine Keeps.upd ?_)))

theorem stopFlow_keeps {s0 : State} {s : State} {p : Parcel} (h : Keeps s0 s) : Keeps s0 (stopFlow s p) := by
  unfold stopFlow
  (repeat' (first
    | with_reducible assumption | (with_reducible refine ctxSet_keeps ?_) | (with_reducible refine discardFlow_keeps ?_)
    | (with_reducible refine State.raise_keeps ?_) | (with_reducible refine notifyVendor_keeps ?_)
    | (with_reducible refine State.capture_keeps ?_) | fail_if_no_progress (with_reducible refine Keeps.upd ?_)))

theorem dropAbandoned_keeps {s0 : State} {s : State} (h : Keeps s0 s) : Keeps s0 (dropAbandoned s) := by
  unfold dropAbandoned
  (repeat' (first | with_reducible assumption | fail_if_no_progress (with_reducible refine Keeps.upd ?_)))

theorem cmdRetire_keeps {s0 : State} {s : State} {cmd : Option Nat} {rel : Option Nat} (h : Keeps s0 s) : Keeps s0 (cmdRetire s
    cmd rel) := by
  unfold cmdRetire
  (repeat' (first
    | with_reducible assumption | (with_reducible refine updCmd_keeps ?_) | (with_reducible refine dropAbandoned_keeps ?_)
    | split))

theorem headStall_keeps {s0 : State} {s : State} {flow : Nat} (h : Keeps s0 s) : Keeps s0 (headStall s flow) := by
  unfold headStall
  (repeat' (first
    | with_reducible assumption | (with_reducible refine State.raise_keeps ?_) | (with_reducible refine State.capture_keeps ?_)
    | split | fail_if_no_progress (with_reducible refine Keeps.upd ?_)))

theorem shortParcel_keeps {s0 : State} {s : State} {flow : Nat} {seq : Nat} (h : Keeps s0 s) : Keeps s0 (shortParcel s flow
    seq) := by
  unfold shortParcel
  (repeat' (first
    | with_reducible assumption | (with_reducible refine writeMem_keeps ?_) | (with_reducible refine ctxAdd64_keeps ?_)
    | (with_reducible refine State.raise_keeps ?_) | (with_reducible refine pushParcel_keeps ?_)
    | (with_reducible refine failParcel_keeps ?_) | (with_reducible refine ctxAdd_keeps ?_) | split))

theorem releaseOutputs_keeps {s0 : State} {s : State} {p : Parcel} (h : Keeps s0 s) : Keeps s0 (releaseOutputs s p) := by
  unfold releaseOutputs
  (repeat' (first
    | with_reducible assumption | (with_reducible refine ctxAdd64_keeps ?_) | (with_reducible refine State.raise_keeps ?_)
    | (with_reducible refine enqueueMap_keeps ?_) | (with_reducible refine ctxAdd_keeps ?_)
    | (with_reducible refine cmdRetire_keeps ?_) | with_reducible refine keeps_ite ?_ ?_
    | fail_if_no_progress (with_reducible refine Keeps.upd ?_)))

theorem execHeadStallExpiry_keeps {s0 : State} {flow : Fin 262144} {s : State} (h : Keeps s0 s) : KRes s0 (execHeadStallExpiry
    flow s) := by
  unfold execHeadStallExpiry
  (repeat' (first
    | with_reducible assumption | (with_reducible refine headStall_keeps ?_) | with_reducible refine kRes_next ?_))

theorem releaseNothing_keeps {s0 : State} {s : State} {p : Parcel} (h : Keeps s0 s) : Keeps s0 (releaseNothing s p) := by
  unfold releaseNothing
  (repeat' (first
    | with_reducible assumption | (with_reducible refine stopFlow_keeps ?_) | (with_reducible refine enqueueMap_keeps ?_)
    | (with_reducible refine cmdRetire_keeps ?_) | with_reducible refine keeps_ite ?_ ?_))

theorem headDeadline_keeps {s0 : State} {s : State} {flow : Nat} (h : Keeps s0 s) : Keeps s0 (headDeadline s flow) := by
  unfold headDeadline
  (repeat' (first
    | with_reducible assumption | (with_reducible refine tileReset_keeps ?_) | (with_reducible refine State.raise_keeps ?_)
    | (with_reducible refine failParcel_keeps ?_) | split))

theorem advanceHead_keeps {s0 : State} {s : State} {flow : Nat} (h : Keeps s0 s) : Keeps s0 (advanceHead s flow) := by
  unfold advanceHead
  (repeat' (first
    | with_reducible assumption | (with_reducible refine ctxAdd_keeps ?_)
    | fail_if_no_progress (with_reducible refine Keeps.upd ?_)))

theorem retRelease_keeps {s0 : State} {s : State} (h : Keeps s0 s) : Keeps s0 (retRelease s) := by
  unfold retRelease
  (repeat' (first
    | with_reducible assumption | (with_reducible refine drainDone_keeps ?_) | (with_reducible refine clearBlocked_keeps ?_)
    | (with_reducible refine advanceHead_keeps ?_) | (with_reducible refine releaseNothing_keeps ?_)
    | (with_reducible refine releaseOutputs_keeps ?_) | (with_reducible refine cmdRetire_keeps ?_) | split
    | fail_if_no_progress (with_reducible refine Keeps.upd ?_)))

theorem execRetRelease_keeps {s0 : State} {s : State} (h : Keeps s0 s) : KRes s0 (execRetRelease s) := by
  unfold execRetRelease
  (repeat' (first
    | with_reducible assumption | (with_reducible refine retRelease_keeps ?_) | with_reducible refine kRes_next ?_))

theorem parcelComplete_keeps {s0 : State} {s : State} {flow : Nat} {seq : Nat} (h : Keeps s0 s) : Keeps s0 (parcelComplete s
    flow seq) := by
  unfold parcelComplete
  (repeat' (first
    | with_reducible assumption | (with_reducible refine writeMem_keeps ?_) | (with_reducible refine clearBlocked_keeps ?_)
    | (with_reducible refine updParcel_keeps ?_) | split))

theorem execParcelComplete_keeps {s0 : State} {flow : Fin 262144} {seq : Nat} {s : State} (h : Keeps s0 s) : KRes s0
    (execParcelComplete flow seq s) := by
  unfold execParcelComplete
  (repeat' (first
    | with_reducible assumption | (with_reducible refine parcelComplete_keeps ?_) | with_reducible refine kRes_next ?_))

theorem execHeadDeadlineExpiry_keeps {s0 : State} {flow : Fin 262144} {s : State} (h : Keeps s0 s) : KRes s0
    (execHeadDeadlineExpiry flow s) := by
  unfold execHeadDeadlineExpiry
  (repeat' (first
    | with_reducible assumption | (with_reducible refine headDeadline_keeps ?_) | with_reducible refine kRes_next ?_))

/-! ### FlowCmds -/

theorem drainFlow_keeps {s0 : State} {s : State} {flow : Nat} {cmd : Option Nat} (h : Keeps s0 s) : Keeps s0 (drainFlow s flow
    cmd) := by
  unfold drainFlow
  (repeat' (first
    | with_reducible assumption | (with_reducible refine drainDone_keeps ?_)
    | fail_if_no_progress (with_reducible refine Keeps.upd ?_)))

theorem bindFlow_keeps {s0 : State} {s : State} {flow : Nat} {img : List Byte} (h : Keeps s0 s) : Keeps s0 (bindFlow s flow
    img) := by
  unfold bindFlow
  (repeat' (first
    | with_reducible assumption | (with_reducible refine State.setFld_keeps ?_) | (with_reducible refine ctxPut_keeps ?_)))

theorem flowCmd_keeps {s0 : State} {s : State} {flow : Nat} {op : Nat} (h : Keeps s0 s) : Keeps s0 (flowCmd s flow op) := by
  unfold flowCmd
  (repeat' (first
    | with_reducible assumption | (with_reducible refine setClaimErr_keeps ?_) | (with_reducible refine State.raise_keeps ?_)
    | with_reducible refine keeps_ite ?_ ?_ | fail_if_no_progress (with_reducible refine Keeps.upd ?_)))

theorem parcelTake_keeps {s0 : State} {s : State} {t_ : Nat} (h : Keeps s0 s) : Keeps s0 (parcelTake s t_) := by
  unfold parcelTake
  (repeat' (first
    | with_reducible assumption | (with_reducible refine takeHead_keeps ?_) | with_reducible refine keeps_ite ?_ ?_))

theorem execParcelTake_keeps {s0 : State} {t_ : TileId} {s : State} (h : Keeps s0 s) : KRes s0 (execParcelTake t_ s) := by
  unfold execParcelTake
  (repeat' (first
    | with_reducible assumption | (with_reducible refine parcelTake_keeps ?_) | with_reducible refine kRes_next ?_))

theorem execRateMeterInterval_keeps {s0 : State} {s : State} (h : Keeps s0 s) : KRes s0 (execRateMeterInterval s) := by
  unfold execRateMeterInterval
  (repeat' (first
    | with_reducible assumption | (with_reducible refine meterInterval_keeps ?_) | with_reducible refine kRes_next ?_))

theorem dispatchWaiting_keeps {s0 : State} {s : State} (h : Keeps s0 s) : Keeps s0 (dispatchWaiting s) := by
  unfold dispatchWaiting
  (repeat' (first
    | with_reducible assumption | (with_reducible refine pushParcel_keeps ?_) | dsimp only | split
    | fail_if_no_progress (with_reducible refine Keeps.upd ?_)))

theorem landBytes_keeps {s0 : State} {s : State} {p : Parcel} {bs : List Byte} (h : Keeps s0 s) : Keeps s0 (landBytes s p bs)
    := by
  unfold landBytes
  (repeat' (first
    | with_reducible assumption | (with_reducible refine writeMem_keeps ?_) | (with_reducible refine parcelLanded_keeps ?_)
    | (with_reducible refine updParcel_keeps ?_) | with_reducible refine keeps_ite ?_ ?_))

theorem setThief_keeps {s0 : State} {s : State} {t_ : Nat} {x : Thief} (h : Keeps s0 s) : Keeps s0 (setThief s t_ x) := by
  unfold setThief
  (repeat' (first | with_reducible assumption | fail_if_no_progress (with_reducible refine Keeps.upd ?_)))

theorem probeFails_keeps {s0 : State} {s : State} {t_ : Nat} {x : Thief} (h : Keeps s0 s) : Keeps s0 (probeFails s t_ x) := by
  unfold probeFails
  (repeat' (first
    | with_reducible assumption | (with_reducible refine setThief_keeps ?_) | with_reducible refine keeps_ite ?_ ?_))

theorem stealTail_keeps {s0 : State} {s : State} {t_ : Nat} {v : Nat} {x : Thief} (h : Keeps s0 s) : Keeps s0 (stealTail s t_ v
    x) := by
  unfold stealTail
  (repeat' (first
    | with_reducible assumption | (with_reducible refine setDeque_keeps ?_) | (with_reducible refine takeHead_keeps ?_)
    | (with_reducible refine State.addWrap_keeps ?_) | (with_reducible refine setThief_keeps ?_) | split))

theorem stealProbe_keeps {s0 : State} {s : State} {ts : List Nat} (h : Keeps s0 s) : Keeps s0 (stealProbe s ts) := by
  unfold stealProbe
  (repeat' (first
    | with_reducible assumption | (with_reducible refine probeFails_keeps ?_) | (with_reducible refine stealTail_keeps ?_)
    | (with_reducible refine setThief_keeps ?_) | with_reducible refine keeps_foldl (fun _ _ _ => ?_) ?_ | split))

theorem execStealProbe_keeps {s0 : State} {thieves : List TileId} {s : State} (h : Keeps s0 s) : KRes s0 (execStealProbe
    thieves s) := by
  unfold execStealProbe
  (repeat' (first
    | with_reducible assumption | (with_reducible refine stealProbe_keeps ?_) | with_reducible refine kRes_next ?_))

theorem cutNext_keeps {s0 : State} {s : State} {flow : Nat} (h : Keeps s0 s) : Keeps s0 (cutNext s flow) := by
  fun_cases cutNext s flow <;> (repeat' (first
    | with_reducible assumption | (with_reducible refine noteBlocked_keeps ?_)
    | (with_reducible refine cutParcel_keeps_e ?_ (by assumption)) | fail_if_no_progress (with_reducible refine Keeps.upd ?_)))

theorem fetchParcel_keeps {s0 : State} {s : State} {flow : Nat} {seq : Nat} {bs : List Byte} (h : Keeps s0 s) : Keeps s0
    (fetchParcel s flow seq bs) := by
  unfold fetchParcel
  (repeat' (first
    | with_reducible assumption | (with_reducible refine landBytes_keeps ?_) | split
    | fail_if_no_progress (with_reducible refine Keeps.upd ?_)))

theorem flowCmdDone_keeps {s0 : State} {s : State} (h : Keeps s0 s) : Keeps s0 (flowCmdDone s) := by
  unfold flowCmdDone
  (repeat' (first
    | with_reducible assumption | (with_reducible refine State.clear_keeps ?_) | (with_reducible refine ctxSet_keeps ?_)
    | (with_reducible refine State.setFld_keeps ?_) | (with_reducible refine State.raise_keeps ?_)
    | (with_reducible refine drainFlow_keeps ?_) | dsimp only | split))

theorem execFlowCmdDone_keeps {s0 : State} {s : State} (h : Keeps s0 s) : KRes s0 (execFlowCmdDone s) := by
  unfold execFlowCmdDone
  (repeat' (first
    | with_reducible assumption | (with_reducible refine flowCmdDone_keeps ?_) | with_reducible refine kRes_next ?_))

theorem execParcelCut_keeps {s0 : State} {flow : Fin 262144} {s : State} (h : Keeps s0 s) : KRes s0 (execParcelCut flow s) := by
  unfold execParcelCut
  (repeat' (first | with_reducible assumption | (with_reducible refine cutNext_keeps ?_) | with_reducible refine kRes_next ?_))

theorem backoffExpiry_keeps {s0 : State} {s : State} {t_ : Nat} (h : Keeps s0 s) : Keeps s0 (backoffExpiry s t_) := by
  unfold backoffExpiry
  (repeat' (first
    | with_reducible assumption | (with_reducible refine setThief_keeps ?_) | with_reducible refine keeps_ite ?_ ?_))

theorem execStealBackoffExpiry_keeps {s0 : State} {t_ : TileId} {s : State} (h : Keeps s0 s) : KRes s0 (execStealBackoffExpiry
    t_ s) := by
  unfold execStealBackoffExpiry
  (repeat' (first
    | with_reducible assumption | (with_reducible refine backoffExpiry_keeps ?_) | with_reducible refine kRes_next ?_))

theorem execDispatchWaiting_keeps {s0 : State} {s : State} (h : Keeps s0 s) : KRes s0 (execDispatchWaiting s) := by
  unfold execDispatchWaiting
  (repeat' (first
    | with_reducible assumption | (with_reducible refine dispatchWaiting_keeps ?_) | with_reducible refine kRes_next ?_))

theorem execParcelFetch_keeps {s0 : State} {flow : Fin 262144} {seq : Nat} {bytes : List Byte} {s : State} (h : Keeps s0 s) :
    KRes s0 (execParcelFetch flow seq bytes s) := by
  unfold execParcelFetch
  (repeat' (first
    | with_reducible assumption | (with_reducible refine fetchParcel_keeps ?_) | with_reducible refine kRes_next ?_))

/-! ### Fabric -/

theorem passSlot_keeps {s0 : State} {s : State} {w : HwWin} {slot : Nat} {tag : Nat} (h : Keeps s0 s) : Keeps s0 (passSlot s w
    slot tag) := by
  unfold passSlot
  (repeat' (first
    | with_reducible assumption | (with_reducible refine sendTo_keeps ?_) | (with_reducible refine State.raise_keeps ?_)
    | (with_reducible refine writeRam_keeps ?_) | with_reducible refine keeps_ite ?_ ?_))

theorem loadRoutes_keeps {s0 s : State} {bs : List Byte} (h : Keeps s0 s) : Keeps s0 (loadRoutes s bs) := by
  have k : ∀ p : Nat → Bool, Keeps s0 ({ s with regs := tblKeep p s.regs } : State) := fun p =>
    h.trans ⟨rfl, fun w => tblWf_tblKeep p w, id, id, fun _ => Nat.le_refl _, Nat.le_refl _, rfl, id⟩
  unfold loadRoutes
  dsimp only
  exact keeps_foldl (fun _ _ k => keeps_ite k (State.setFlds_keeps k)) (k _)


theorem enterAssigned_keeps {s0 : State} {s : State} {addr : Nat} (h : Keeps s0 s) : Keeps s0 (enterAssigned s addr) := by
  unfold enterAssigned
  (repeat' (first
    | with_reducible assumption | (with_reducible refine State.setFlds_keeps ?_) | (with_reducible refine State.raise_keeps ?_)
    | fail_if_no_progress (with_reducible refine Keeps.upd ?_)))

theorem discFinish_keeps {s0 : State} {s : State} {nodes : List (List Nat × List Byte)} (h : Keeps s0 s) : Keeps s0 (discFinish
    s nodes) := by
  unfold discFinish
  (repeat' (first
    | with_reducible assumption | (with_reducible refine sendDirected_keeps ?_) | (with_reducible refine loadRoutes_keeps ?_)
    | (with_reducible refine State.raise_keeps ?_) | (with_reducible refine enterAssigned_keeps ?_)
    | with_reducible refine keeps_foldl (fun _ _ _ => ?_) ?_ | split
    | fail_if_no_progress (with_reducible refine Keeps.upd ?_)))

theorem probeOne_keeps {s0 : State} {s : State} {path : List Nat} (h : Keeps s0 s) : Keeps s0 (probeOne s path) := by
  unfold probeOne
  (repeat' (first | with_reducible assumption | (with_reducible refine sendDirected_keeps ?_)))

theorem discStart_keeps {s0 : State} {s : State} (h : Keeps s0 s) : Keeps s0 (discStart s) := by
  unfold discStart
  (repeat' (first
    | with_reducible assumption | (with_reducible refine discFinish_keeps ?_) | (with_reducible refine probeOne_keeps ?_)
    | with_reducible refine keeps_ite ?_ ?_ | with_reducible refine keeps_foldl (fun _ _ _ => ?_) ?_
    | fail_if_no_progress (with_reducible refine Keeps.upd ?_)))

theorem leaveAssigned_keeps {s0 : State} {s : State} (h : Keeps s0 s) : Keeps s0 (leaveAssigned s) := by
  unfold leaveAssigned
  (repeat' (first
    | with_reducible assumption | (with_reducible refine State.setFlds_keeps ?_)
    | (with_reducible refine loadRoutes_keeps ?_)))

theorem hwTagGo_keeps {s0 : State} {s : State} {win : Nat} {slot : Nat} (h : Keeps s0 s) : Keeps s0 (hwTagGo s win slot) := by
  unfold hwTagGo
  (repeat' (first
    | with_reducible assumption | (with_reducible refine setClaimErr_keeps ?_) | (with_reducible refine passSlot_keeps ?_)
    | (with_reducible refine State.setFld_keeps ?_) | with_reducible refine keeps_ite ?_ ?_ | split))

theorem timeSet_keeps {s0 : State} {s : State} (h : Keeps s0 s) : Keeps s0 (timeSet s) := by
  unfold timeSet
  (repeat' (first
    | with_reducible assumption | with_reducible refine keeps_ite ?_ ?_
    | fail_if_no_progress (with_reducible refine Keeps.upd ?_)))

theorem onFrame_keeps {s0 : State} {s : State} {p : Nat} {ok : Frame → Bool} {act : State → Frame → State} (h : Keeps s0 s)
    (h_act : ∀ z0 z1, Keeps s0 z0 → Keeps s0 (act z0 z1)) : Keeps s0 (onFrame s p ok act) := by
  unfold onFrame
  (repeat' (first
    | (with_reducible refine popFrame_keeps ?_) | (with_reducible refine State.addWrap_keeps ?_) | split
    | with_reducible apply_assumption))

theorem execEvent_keeps {s0 : State} {p : Fin 4} {s : State} (h : Keeps s0 s) : KRes s0 (execEvent p s) := by
  unfold execEvent
  (repeat' (first
    | with_reducible assumption | (with_reducible refine onFrame_keeps ?_ ?_) | (with_reducible refine discStart_keeps ?_)
    | with_reducible refine kRes_next ?_ | intro _))

theorem mresp_keeps {s0 : State} {s : State} {p : Nat} {f : Frame} {st : Nat} {data : List Byte} (h : Keeps s0 s) : Keeps s0
    (mresp s p f st data) := by
  unfold mresp
  (repeat' (first | with_reducible assumption | (with_reducible refine replyTo_keeps ?_)))

theorem execMreqTimeq_keeps {s0 : State} {p : Fin 4} {dt : Nat} {s : State} (h : Keeps s0 s) : KRes s0 (execMreqTimeq p dt s)
    := by
  unfold execMreqTimeq
  (repeat' (first
    | with_reducible assumption | (with_reducible refine onFrame_keeps ?_ ?_) | (with_reducible refine mresp_keeps ?_)
    | (with_reducible refine timePass_keeps ?_) | with_reducible refine kRes_next ?_ | intro _))

theorem mreqLog_keeps {s0 : State} {s : State} {p : Nat} {f : Frame} (h : Keeps s0 s) : Keeps s0 (mreqLog s p f) := by
  unfold mreqLog
  (repeat' (first
    | with_reducible assumption | (with_reducible refine fillPage_keeps ?_) | (with_reducible refine mresp_keeps ?_)
    | with_reducible refine keeps_ite ?_ ?_))

theorem execDamdomTrainDone_keeps {s0 : State} {p : Fin 4} {x4 : Bool} {s : State} (h : Keeps s0 s) : KRes s0
    (execDamdomTrainDone p x4 s) := by
  unfold execDamdomTrainDone
  (repeat' (first
    | with_reducible assumption | (with_reducible refine State.setFld_keeps ?_) | (with_reducible refine setLState_keeps ?_)
    | with_reducible refine kRes_next ?_ | with_reducible refine keeps_ite ?_ ?_))

theorem badDecl_keeps {s0 : State} {s : State} (h : Keeps s0 s) : Keeps s0 (badDecl s) := by
  unfold badDecl
  (repeat' (first
    | with_reducible assumption | (with_reducible refine State.raise_keeps ?_)
    | (with_reducible refine State.addWrap_keeps ?_)))

theorem gapTimeout_keeps {s0 : State} {s : State} {flow : Nat} {seq : Nat} (h : Keeps s0 s) : Keeps s0 (gapTimeout s flow seq)
    := by
  unfold gapTimeout
  (repeat' (first
    | with_reducible assumption | (with_reducible refine shortParcel_keeps ?_) | (with_reducible refine setPort_keeps ?_)
    | split))

theorem execHelloTimer_keeps {s0 : State} {p : Fin 4} {s : State} (h : Keeps s0 s) : KRes s0 (execHelloTimer p s) := by
  unfold execHelloTimer
  (repeat' (first
    | with_reducible assumption | (with_reducible refine helloTimer_keeps ?_) | with_reducible refine kRes_next ?_))

theorem execHello_keeps {s0 : State} {p : Fin 4} {s : State} (h : Keeps s0 s) : KRes s0 (execHello p s) := by
  unfold execHello
  (repeat' (first
    | with_reducible assumption | (with_reducible refine helloReceived_keeps ?_)
    | (with_reducible refine takeLink_keeps_e ?_ (by assumption)) | with_reducible refine kRes_next ?_ | split))

theorem execReplayTimeout_keeps {s0 : State} {p : Fin 4} {s : State} (h : Keeps s0 s) : KRes s0 (execReplayTimeout p s) := by
  unfold execReplayTimeout
  (repeat' (first
    | with_reducible assumption | (with_reducible refine resend_keeps ?_) | with_reducible refine kRes_next ?_
    | with_reducible refine keeps_ite ?_ ?_))

theorem hallwayAnswer_keeps {s0 : State} {s : State} {p : Nat} {f : Frame} {st : Nat} (h : Keeps s0 s) : Keeps s0
    (hallwayAnswer s p f st) := by
  unfold hallwayAnswer
  (repeat' (first
    | with_reducible assumption | (with_reducible refine replyTo_keeps ?_) | with_reducible refine keeps_ite ?_ ?_))

theorem hwrFrame_keeps {s0 : State} {s : State} {p : Nat} {f : Frame} (h : Keeps s0 s) : Keeps s0 (hwrFrame s p f) := by
  unfold hwrFrame
  (repeat' (first
    | with_reducible assumption | (with_reducible refine State.raise_keeps ?_) | (with_reducible refine hallwayAnswer_keeps ?_)
    | (with_reducible refine writeRam_keeps ?_) | (with_reducible refine State.addWrap_keeps ?_)
    | with_reducible refine keeps_ite ?_ ?_ | split))

theorem execHwr_keeps {s0 : State} {p : Fin 4} {s : State} (h : Keeps s0 s) : KRes s0 (execHwr p s) := by
  unfold execHwr
  (repeat' (first
    | with_reducible assumption | (with_reducible refine onFrame_keeps ?_ ?_) | (with_reducible refine hwrFrame_keeps ?_)
    | with_reducible refine kRes_next ?_ | intro _))

theorem treqReceived_keeps {s0 : State} {s : State} {p : Nat} {m : List Byte} {dt2 : Nat} {dt3 : Nat} (h : Keeps s0 s) : Keeps
    s0 (treqReceived s p m dt2 dt3) := by
  unfold treqReceived
  (repeat' (first
    | with_reducible assumption | (with_reducible refine sendLink_keeps ?_) | (with_reducible refine timePass_keeps ?_)
    | with_reducible refine keeps_ite ?_ ?_))

theorem execTreq_keeps {s0 : State} {p : Fin 4} {dt2 : Nat} {dt3 : Nat} {s : State} (h : Keeps s0 s) : KRes s0 (execTreq p dt2
    dt3 s) := by
  unfold execTreq
  (repeat' (first
    | with_reducible assumption | (with_reducible refine treqReceived_keeps ?_)
    | (with_reducible refine takeLink_keeps_e ?_ (by assumption)) | with_reducible refine kRes_next ?_ | split))

theorem execHelloTimeout_keeps {s0 : State} {p : Fin 4} {s : State} (h : Keeps s0 s) : KRes s0 (execHelloTimeout p s) := by
  unfold execHelloTimeout
  (repeat' (first
    | with_reducible assumption | (with_reducible refine leaveLink_keeps ?_) | with_reducible refine kRes_next ?_
    | with_reducible refine keeps_ite ?_ ?_))

theorem htagFrame_keeps {s0 : State} {s : State} {p : Nat} {f : Frame} (h : Keeps s0 s) : Keeps s0 (htagFrame s p f) := by
  unfold htagFrame
  (repeat' (first
    | with_reducible assumption | (with_reducible refine passSlot_keeps ?_) | (with_reducible refine hallwayAnswer_keeps ?_)
    | with_reducible refine keeps_ite ?_ ?_ | split))

theorem execMreqUndefined_keeps {s0 : State} {p : Fin 4} {s : State} (h : Keeps s0 s) : KRes s0 (execMreqUndefined p s) := by
  unfold execMreqUndefined
  (repeat' (first
    | with_reducible assumption | (with_reducible refine onFrame_keeps ?_ ?_) | (with_reducible refine mresp_keeps ?_)
    | with_reducible refine kRes_next ?_ | intro _))

theorem execHtag_keeps {s0 : State} {p : Fin 4} {s : State} (h : Keeps s0 s) : KRes s0 (execHtag p s) := by
  unfold execHtag
  (repeat' (first
    | with_reducible assumption | (with_reducible refine onFrame_keeps ?_ ?_) | (with_reducible refine htagFrame_keeps ?_)
    | with_reducible refine kRes_next ?_ | intro _))

theorem execGapTimeout_keeps {s0 : State} {flow : Fin 262144} {seq : Nat} {s : State} (h : Keeps s0 s) : KRes s0
    (execGapTimeout flow seq s) := by
  unfold execGapTimeout
  (repeat' (first
    | with_reducible assumption | (with_reducible refine gapTimeout_keeps ?_) | with_reducible refine kRes_next ?_))

theorem holdPair_keeps {s0 : State} {s : State} {p : Nat} {flow : Nat} (h : Keeps s0 s) : Keeps s0 (holdPair s p flow) := by
  unfold holdPair
  (repeat' (first | with_reducible assumption | (with_reducible refine setPort_keeps ?_)))

theorem probeAnswer_keeps {s0 : State} {s : State} {p : Nat} {f : Frame} (h : Keeps s0 s) : Keeps s0 (probeAnswer s p f) := by
  unfold probeAnswer
  (repeat' (first
    | with_reducible assumption | (with_reducible refine replyTo_keeps ?_) | (with_reducible refine sendDirected_keeps ?_)
    | with_reducible refine keeps_ite ?_ ?_))

theorem timeExchange_keeps {s0 : State} {s0_ : State} {dt : Nat} (h : Keeps s0 s0_) : Keeps s0 (timeExchange s0_ dt) := by
  unfold timeExchange
  (repeat' (first
    | with_reducible assumption | (with_reducible refine sendLink_keeps ?_) | (with_reducible refine timePass_keeps ?_)
    | (with_reducible refine setPort_keeps ?_) | dsimp only | split))

theorem execTimeExchangeTimer_keeps {s0 : State} {dt : Nat} {s : State} (h : Keeps s0 s) : KRes s0 (execTimeExchangeTimer dt s)
    := by
  unfold execTimeExchangeTimer
  (repeat' (first
    | with_reducible assumption | (with_reducible refine timeExchange_keeps ?_) | with_reducible refine kRes_next ?_))

theorem fenceCheck_keeps {s0 : State} {s : State} {hash : List Byte} (h : Keeps s0 s) : Keeps s0 (fenceCheck s hash) := by
  unfold fenceCheck
  (repeat' (first
    | with_reducible assumption | (with_reducible refine State.clear_keeps ?_) | (with_reducible refine State.raise_keeps ?_)
    | with_reducible refine keeps_ite ?_ ?_))

theorem execDamdomSignalDetect_keeps {s0 : State} {p : Fin 4} {s : State} (h : Keeps s0 s) : KRes s0 (execDamdomSignalDetect p
    s) := by
  unfold execDamdomSignalDetect
  (repeat' (first
    | with_reducible assumption | (with_reducible refine setLState_keeps ?_) | with_reducible refine kRes_next ?_
    | with_reducible refine keeps_ite ?_ ?_))

theorem execCredit_keeps {s0 : State} {p : Fin 4} {s : State} (h : Keeps s0 s) : KRes s0 (execCredit p s) := by
  unfold execCredit
  (repeat' (first
    | with_reducible assumption | (with_reducible refine pumpPort_keeps ?_)
    | (with_reducible refine takeLink_keeps_e ?_ (by assumption)) | (with_reducible refine setPort_keeps ?_)
    | with_reducible refine kRes_next ?_ | split))

theorem execFlitReceive_keeps {s0 : State} {p : Fin 4} {fl : List Byte} {s : State} (h : Keeps s0 s) : KRes s0 (execFlitReceive
    p fl s) := by
  unfold execFlitReceive
  (repeat' (first
    | with_reducible assumption | (with_reducible refine flitReceive_keeps ?_) | with_reducible refine kRes_next ?_))

theorem trspReceived_keeps {s0 : State} {s0_ : State} {p : Nat} {m : List Byte} {dt : Nat} (h : Keeps s0 s0_) : Keeps s0
    (trspReceived s0_ p m dt) := by
  unfold trspReceived
  (repeat' (first
    | with_reducible assumption | (with_reducible refine State.setFld_keeps ?_)
    | (with_reducible refine State.addWrap_keeps ?_) | (with_reducible refine timePass_keeps ?_)
    | (with_reducible refine syncUpdate_keeps ?_) | (with_reducible refine setPort_keeps ?_)
    | with_reducible refine keeps_ite ?_ ?_ | fail_if_no_progress (with_reducible refine Keeps.upd ?_)))

theorem execTrsp_keeps {s0 : State} {p : Fin 4} {dt : Nat} {s : State} (h : Keeps s0 s) : KRes s0 (execTrsp p dt s) := by
  unfold execTrsp
  (repeat' (first
    | with_reducible assumption | (with_reducible refine trspReceived_keeps ?_)
    | (with_reducible refine takeLink_keeps_e ?_ (by assumption)) | with_reducible refine kRes_next ?_ | split))

theorem execProbe_keeps {s0 : State} {p : Fin 4} {s : State} (h : Keeps s0 s) : KRes s0 (execProbe p s) := by
  unfold execProbe
  (repeat' (first
    | with_reducible assumption | (with_reducible refine onFrame_keeps ?_ ?_) | (with_reducible refine probeAnswer_keeps ?_)
    | with_reducible refine kRes_next ?_ | intro _))

theorem passOn_keeps {s0 : State} {s : State} {p : Nat} {vc : Nat} {q : Nat} {f : Frame} (h : Keeps s0 s) : Keeps s0 (passOn s
    p vc q f) := by
  unfold passOn
  (repeat' (first
    | with_reducible assumption | (with_reducible refine State.raise_keeps ?_) | (with_reducible refine sendOn_keeps ?_)
    | (with_reducible refine hallwayAnswer_keeps ?_) | (with_reducible refine State.addWrap_keeps ?_)
    | with_reducible refine keeps_ite ?_ ?_))

theorem frameForward_keeps {s0 : State} {s : State} {p : Nat} {vc : Nat} (h : Keeps s0 s) : Keeps s0 (frameForward s p vc) := by
  unfold frameForward
  (repeat' (first
    | with_reducible assumption | (with_reducible refine popFrame_keeps ?_) | (with_reducible refine sendOn_keeps ?_)
    | (with_reducible refine State.addWrap_keeps ?_) | (with_reducible refine passOn_keeps ?_)
    | with_reducible refine keeps_ite ?_ ?_ | split))

theorem dataFrame_keeps {s0 : State} {s : State} {p : Nat} {f : Frame} (h : Keeps s0 s) : Keeps s0 (dataFrame s p f) := by
  unfold dataFrame
  (repeat' (first
    | with_reducible assumption | (with_reducible refine landBytes_keeps ?_) | (with_reducible refine State.raise_keeps ?_)
    | (with_reducible refine State.addWrap_keeps ?_) | (with_reducible refine shortParcel_keeps ?_)
    | (with_reducible refine ctxAdd_keeps ?_) | (with_reducible refine setPort_keeps ?_) | dsimp only | split
    | fail_if_no_progress (with_reducible refine Keeps.upd ?_)))

theorem execData_keeps {s0 : State} {p : Fin 4} {s : State} (h : Keeps s0 s) : KRes s0 (execData p s) := by
  unfold execData
  (repeat' (first
    | with_reducible assumption | (with_reducible refine onFrame_keeps ?_ ?_) | (with_reducible refine dataFrame_keeps ?_)
    | with_reducible refine kRes_next ?_ | with_reducible refine keeps_ite ?_ ?_ | intro _))

theorem blockOpen_keeps {s0 s : State} {flow seq len : Nat} (h : Keeps s0 s) : Keeps s0 (blockOpen s flow seq len) := by
  unfold blockOpen
  generalize cutBlock s flow seq len true = o
  cases o with
  | none => exact h
  | some w => exact noteBlocked_keeps h


theorem execNak_keeps {s0 : State} {p : Fin 4} {s : State} (h : Keeps s0 s) : KRes s0 (execNak p s) := by
  unfold execNak
  (repeat' (first
    | with_reducible assumption | (with_reducible refine nakReceived_keeps ?_)
    | (with_reducible refine takeLink_keeps_e ?_ (by assumption)) | with_reducible refine kRes_next ?_ | split))

theorem assignReceived_keeps {s0 : State} {s : State} {f : Frame} (h : Keeps s0 s) : Keeps s0 (assignReceived s f) := by
  unfold assignReceived
  (repeat' (first
    | with_reducible assumption | (with_reducible refine leaveAssigned_keeps ?_) | (with_reducible refine fenceCheck_keeps ?_)
    | fail_if_no_progress (with_reducible refine Keeps.upd ?_)))

theorem timeStale_keeps {s0 : State} {s : State} (h : Keeps s0 s) : Keeps s0 (timeStale s) := by
  unfold timeStale
  (repeat' (first
    | with_reducible assumption | (with_reducible refine syncUpdate_keeps ?_) | split
    | fail_if_no_progress (with_reducible refine Keeps.upd ?_)))

theorem openReply_keeps {s0 : State} {s : State} {p : Nat} {f : Frame} {st : Nat} {reason : Nat} {seq : Nat} (h : Keeps s0 s) :
    Keeps s0 (openReply s p f st reason seq) := by
  unfold openReply
  (repeat' (first | with_reducible assumption | (with_reducible refine replyTo_keeps ?_)))

theorem openFrame_keeps {s0 : State} {s : State} {p : Nat} {f : Frame} (h : Keeps s0 s) : Keeps s0 (openFrame s p f) := by
  unfold openFrame
  (repeat' (first
    | with_reducible assumption | (with_reducible refine badDecl_keeps ?_) | (with_reducible refine ctxSet_keeps ?_)
    | (with_reducible refine openReply_keeps ?_) | (with_reducible refine holdPair_keeps ?_)
    | (with_reducible refine blockOpen_keeps ?_) | (with_reducible refine cutParcel_keeps_e ?_ (by assumption))
    | (with_reducible refine setPort_keeps ?_) | with_reducible refine keeps_ite ?_ ?_ | split))

theorem execOpenFrame_keeps {s0 : State} {p : Fin 4} {dt : Nat} {s : State} (h : Keeps s0 s) : KRes s0 (execOpenFrame p dt s)
    := by
  unfold execOpenFrame
  (repeat' (first
    | with_reducible assumption | (with_reducible refine onFrame_keeps ?_ ?_) | (with_reducible refine openFrame_keeps ?_)
    | (with_reducible refine timePass_keeps ?_) | with_reducible refine kRes_next ?_ | intro _))

theorem execNakRepeat_keeps {s0 : State} {p : Fin 4} {s : State} (h : Keeps s0 s) : KRes s0 (execNakRepeat p s) := by
  unfold execNakRepeat
  (repeat' (first
    | with_reducible assumption | (with_reducible refine sendNak_keeps ?_) | with_reducible refine kRes_next ?_
    | with_reducible refine keeps_ite ?_ ?_))

theorem execSegmentDiscovery_keeps {s0 : State} {s : State} (h : Keeps s0 s) : KRes s0 (execSegmentDiscovery s) := by
  unfold execSegmentDiscovery
  (repeat' (first
    | with_reducible assumption | (with_reducible refine discStart_keeps ?_) | with_reducible refine kRes_next ?_))

theorem execAckTimer_keeps {s0 : State} {p : Fin 4} {s : State} (h : Keeps s0 s) : KRes s0 (execAckTimer p s) := by
  unfold execAckTimer
  (repeat' (first
    | with_reducible assumption | (with_reducible refine returnCredits_keeps ?_) | (with_reducible refine linkOut_keeps ?_)
    | with_reducible refine kRes_next ?_ | with_reducible refine keeps_ite ?_ ?_))

theorem execFrameKindUndefined_keeps {s0 : State} {p : Fin 4} {s : State} (h : Keeps s0 s) : KRes s0 (execFrameKindUndefined p
    s) := by
  unfold execFrameKindUndefined
  (repeat' (first
    | with_reducible assumption | (with_reducible refine popFrame_keeps ?_) | (with_reducible refine frameErr_keeps ?_)
    | with_reducible refine kRes_next ?_ | split))

theorem execMreqHwlist_keeps {s0 : State} {p : Fin 4} {s : State} (h : Keeps s0 s) : KRes s0 (execMreqHwlist p s) := by
  unfold execMreqHwlist
  (repeat' (first
    | with_reducible assumption | (with_reducible refine onFrame_keeps ?_ ?_) | (with_reducible refine mresp_keeps ?_)
    | with_reducible refine kRes_next ?_ | intro _))

theorem execMreqIdent_keeps {s0 : State} {p : Fin 4} {s : State} (h : Keeps s0 s) : KRes s0 (execMreqIdent p s) := by
  unfold execMreqIdent
  (repeat' (first
    | with_reducible assumption | (with_reducible refine onFrame_keeps ?_ ?_) | (with_reducible refine mresp_keeps ?_)
    | with_reducible refine kRes_next ?_ | intro _))

theorem execMreqFlowq_keeps {s0 : State} {p : Fin 4} {s : State} (h : Keeps s0 s) : KRes s0 (execMreqFlowq p s) := by
  unfold execMreqFlowq
  (repeat' (first
    | with_reducible assumption | (with_reducible refine onFrame_keeps ?_ ?_) | (with_reducible refine mresp_keeps ?_)
    | with_reducible refine kRes_next ?_ | with_reducible refine keeps_ite ?_ ?_ | intro _))

theorem execTimeExchangeStale_keeps {s0 : State} {s : State} (h : Keeps s0 s) : KRes s0 (execTimeExchangeStale s) := by
  unfold execTimeExchangeStale
  (repeat' (first
    | with_reducible assumption | (with_reducible refine timeStale_keeps ?_) | with_reducible refine kRes_next ?_))

theorem execMreqLog_keeps {s0 : State} {p : Fin 4} {s : State} (h : Keeps s0 s) : KRes s0 (execMreqLog p s) := by
  unfold execMreqLog
  (repeat' (first
    | with_reducible assumption | (with_reducible refine onFrame_keeps ?_ ?_) | (with_reducible refine mreqLog_keeps ?_)
    | with_reducible refine kRes_next ?_ | intro _))

theorem execDamdomRetryWait_keeps {s0 : State} {p : Fin 4} {s : State} (h : Keeps s0 s) : KRes s0 (execDamdomRetryWait p s) :=
    by
  unfold execDamdomRetryWait
  (repeat' (first
    | with_reducible assumption | (with_reducible refine portEnabled_keeps ?_) | with_reducible refine kRes_next ?_
    | with_reducible refine keeps_ite ?_ ?_))

theorem probeReply_keeps {s0 : State} {s : State} {p : Nat} {f : Frame} (h : Keeps s0 s) : Keeps s0 (probeReply s p f) := by
  unfold probeReply
  (repeat' (first
    | with_reducible assumption | (with_reducible refine State.clear_keeps ?_) | (with_reducible refine State.raise_keeps ?_)
    | (with_reducible refine discFinish_keeps ?_) | (with_reducible refine probeOne_keeps ?_)
    | with_reducible refine keeps_ite ?_ ?_ | with_reducible refine keeps_foldl (fun _ _ _ => ?_) ?_ | split
    | fail_if_no_progress (with_reducible refine Keeps.upd ?_)))

theorem execProbeReply_keeps {s0 : State} {p : Fin 4} {s : State} (h : Keeps s0 s) : KRes s0 (execProbeReply p s) := by
  unfold execProbeReply
  (repeat' (first
    | with_reducible assumption | (with_reducible refine onFrame_keeps ?_ ?_) | (with_reducible refine probeReply_keeps ?_)
    | with_reducible refine kRes_next ?_ | intro _))

theorem execDown_keeps {s0 : State} {p : Fin 4} {s : State} (h : Keeps s0 s) : KRes s0 (execDown p s) := by
  unfold execDown
  (repeat' (first
    | with_reducible assumption | (with_reducible refine leaveLink_keeps ?_)
    | (with_reducible refine takeLink_keeps_e ?_ (by assumption)) | with_reducible refine kRes_next ?_ | split))

theorem routesReceived_keeps {s0 : State} {s : State} {f : Frame} (h : Keeps s0 s) : Keeps s0 (routesReceived s f) := by
  unfold routesReceived
  (repeat' (first
    | with_reducible assumption | (with_reducible refine loadRoutes_keeps ?_) | (with_reducible refine enterAssigned_keeps ?_)
    | split))

theorem execRoutes_keeps {s0 : State} {p : Fin 4} {s : State} (h : Keeps s0 s) : KRes s0 (execRoutes p s) := by
  unfold execRoutes
  (repeat' (first
    | with_reducible assumption | (with_reducible refine onFrame_keeps ?_ ?_) | (with_reducible refine routesReceived_keeps ?_)
    | with_reducible refine kRes_next ?_ | intro _))

theorem execAssign_keeps {s0 : State} {p : Fin 4} {s : State} (h : Keeps s0 s) : KRes s0 (execAssign p s) := by
  unfold execAssign
  (repeat' (first
    | with_reducible assumption | (with_reducible refine onFrame_keeps ?_ ?_) | (with_reducible refine assignReceived_keeps ?_)
    | with_reducible refine kRes_next ?_ | intro _))

theorem execDamdomStateTimeout_keeps {s0 : State} {p : Fin 4} {s : State} (h : Keeps s0 s) : KRes s0 (execDamdomStateTimeout p
    s) := by
  unfold execDamdomStateTimeout
  (repeat' (first
    | with_reducible assumption | (with_reducible refine leaveLink_keeps ?_) | with_reducible refine kRes_next ?_
    | with_reducible refine keeps_ite ?_ ?_))

theorem execFrameForward_keeps {s0 : State} {p : Fin 4} {vc : Fin 3} {s : State} (h : Keeps s0 s) : KRes s0 (execFrameForward p
    vc s) := by
  unfold execFrameForward
  (repeat' (first
    | with_reducible assumption | (with_reducible refine frameForward_keeps ?_) | with_reducible refine kRes_next ?_))

theorem execMresp_keeps {s0 : State} {p : Fin 4} {s : State} (h : Keeps s0 s) : KRes s0 (execMresp p s) := by
  unfold execMresp
  (repeat' (first
    | with_reducible assumption | (with_reducible refine onFrame_keeps ?_ ?_) | with_reducible refine kRes_next ?_ | intro _))

theorem hrdFrame_keeps {s0 : State} {s : State} {p : Nat} {f : Frame} (h : Keeps s0 s) : Keeps s0 (hrdFrame s p f) := by
  unfold hrdFrame
  (repeat' (first
    | with_reducible assumption | (with_reducible refine replyTo_keeps ?_) | (with_reducible refine readRam_keeps ?_)
    | (with_reducible refine hallwayAnswer_keeps ?_) | with_reducible refine keeps_ite ?_ ?_ | split))

theorem execHrd_keeps {s0 : State} {p : Fin 4} {s : State} (h : Keeps s0 s) : KRes s0 (execHrd p s) := by
  unfold execHrd
  (repeat' (first
    | with_reducible assumption | (with_reducible refine onFrame_keeps ?_ ?_) | (with_reducible refine hrdFrame_keeps ?_)
    | with_reducible refine kRes_next ?_ | intro _))

end Sys2Proof.Machine
end

