-- ==== Sys2Proof/Laws/Keeps5.lean ====
section
/-! SUPPORT. Sys2Proof/Laws/Keeps5.lean: what each operation of Therm, Keys, Vault, Blocks, FabCfg, Start keeps (`Keeps`). -/

set_option Elab.async false
set_option linter.unusedVariables false

namespace Sys2Proof.Machine

/-! ### Therm -/

theorem thermalTrip_keeps {s0 : State} {s : State} {die : Int} (h : Keeps s0 s) : Keeps s0 (thermalTrip s die) := by
  unfold thermalTrip
  (repeat' (first
    | with_reducible assumption | (with_reducible refine State.raise_keeps ?_) | (with_reducible refine flushStart_keeps ?_)
    | with_reducible refine keeps_ite ?_ ?_))

theorem execThermalTrip_keeps {s0 : State} {die : Int} {s : State} (h : Keeps s0 s) : KRes s0 (execThermalTrip die s) := by
  unfold execThermalTrip
  (repeat' (first
    | with_reducible assumption | (with_reducible refine thermalTrip_keeps ?_) | with_reducible refine kRes_next ?_))

theorem thermLoad_keeps {s0 : State} {s : State} {p : List Byte} (h : Keeps s0 s) : Keeps s0 (thermLoad s p) := by
  unfold thermLoad
  (repeat' (first | with_reducible assumption | (with_reducible refine State.setFlds_keeps ?_)))

theorem thermSave_keeps {s0 : State} {s : State} {v : Nat} (h : Keeps s0 s) : Keeps s0 (thermSave s v) := by
  unfold thermSave
  (repeat' (first
    | with_reducible assumption | (with_reducible refine setClaimErr_keeps ?_) | (with_reducible refine State.raise_keeps ?_)
    | with_reducible refine keeps_ite ?_ ?_ | fail_if_no_progress (with_reducible refine Keeps.upd ?_)))

theorem execStringTestSettle_keeps {s0 : State} {mv : Nat} {s : State} (h : Keeps s0 s) : KRes s0 (execStringTestSettle mv s)
    := by
  unfold execStringTestSettle
  (repeat' (first
    | with_reducible assumption | (with_reducible refine testSettle_keeps ?_) | with_reducible refine kRes_next ?_))

theorem gpioClaim_keeps {s0 : State} {s : State} {rq : Requester} {n : Nat} (h : Keeps s0 s) : Keeps s0 (gpioClaim s rq n) := by
  unfold gpioClaim
  (repeat' (first
    | with_reducible assumption | (with_reducible refine setClaimErr_keeps ?_) | (with_reducible refine State.setFlds_keeps ?_)
    | split))

theorem gpioRelease_keeps {s0 : State} {s : State} {rq : Requester} {n : Nat} (h : Keeps s0 s) : Keeps s0 (gpioRelease s rq n)
    := by
  unfold gpioRelease
  (repeat' (first
    | with_reducible assumption | (with_reducible refine setClaimErr_keeps ?_) | (with_reducible refine State.setFld_keeps ?_)
    | split))

theorem execQualChargeTimeout_keeps {s0 : State} {s : State} (h : Keeps s0 s) : KRes s0 (execQualChargeTimeout s) := by
  unfold execQualChargeTimeout
  (repeat' (first
    | with_reducible assumption | (with_reducible refine chargeTimeout_keeps ?_) | with_reducible refine kRes_next ?_))

theorem thermSaveDone_keeps {s0 : State} {s : State} (h : Keeps s0 s) : Keeps s0 (thermSaveDone s) := by
  unfold thermSaveDone
  (repeat' (first
    | with_reducible assumption | (with_reducible refine State.clear_keeps ?_) | split
    | fail_if_no_progress (with_reducible refine Keeps.upd ?_)))

theorem setNaks_keeps {s0 : State} {s : State} {n : Nat} {v : Nat} (h : Keeps s0 s) : Keeps s0 (setNaks s n v) := by
  unfold setNaks
  (repeat' (first | with_reducible assumption | fail_if_no_progress (with_reducible refine Keeps.upd ?_)))

theorem execThermSaveDone_keeps {s0 : State} {s : State} (h : Keeps s0 s) : KRes s0 (execThermSaveDone s) := by
  unfold execThermSaveDone
  (repeat' (first
    | with_reducible assumption | (with_reducible refine thermSaveDone_keeps ?_) | with_reducible refine kRes_next ?_))

theorem execChargerTick_keeps {s0 : State} {s : State} (h : Keeps s0 s) : KRes s0 (execChargerTick s) := by
  unfold execChargerTick
  (repeat' (first
    | with_reducible assumption | (with_reducible refine chargerTick_keeps ?_) | with_reducible refine kRes_next ?_))

theorem wholdUpdate_keeps {s0 : State} {s : State} (h : Keeps s0 s) : Keeps s0 (wholdUpdate s) := by
  unfold wholdUpdate
  (repeat' (first
    | with_reducible assumption | (with_reducible refine State.setFld_keeps ?_)
    | (with_reducible refine State.setFlds_keeps ?_) | (with_reducible refine State.raise_keeps ?_)
    | (with_reducible refine notifyVendor_keeps ?_) | with_reducible refine keeps_ite ?_ ?_))

theorem chanFault_keeps {s0 : State} {s : State} {n : Nat} (h : Keeps s0 s) : Keeps s0 (chanFault s n) := by
  unfold chanFault
  (repeat' (first
    | with_reducible assumption | (with_reducible refine State.setFld_keeps ?_) | (with_reducible refine State.raise_keeps ?_)
    | with_reducible refine keeps_ite ?_ ?_))

theorem chanWindows_keeps {s0 : State} {s : State} {n : Nat} (h : Keeps s0 s) : Keeps s0 (chanWindows s n) := by
  unfold chanWindows
  (repeat' (first
    | with_reducible assumption | with_reducible refine keeps_foldl (fun _ _ _ => ?_) ?_ | split
    | fail_if_no_progress (with_reducible refine Keeps.upd ?_)))

theorem gpioEdge_keeps {s0 : State} {s : State} {n : Nat} {level : Bool} (h : Keeps s0 s) : Keeps s0 (gpioEdge s n level) := by
  unfold gpioEdge
  (repeat' (first
    | with_reducible assumption | (with_reducible refine State.setFld_keeps ?_) | with_reducible refine keeps_ite ?_ ?_))

theorem execGpioEdge_keeps {s0 : State} {n : Fin 16} {level : Bool} {s : State} (h : Keeps s0 s) : KRes s0 (execGpioEdge n
    level s) := by
  unfold execGpioEdge
  (repeat' (first | with_reducible assumption | (with_reducible refine gpioEdge_keeps ?_) | with_reducible refine kRes_next ?_))

theorem chanHeals_keeps {s0 : State} {s : State} {n : Nat} (h : Keeps s0 s) : Keeps s0 (chanHeals s n) := by
  unfold chanHeals
  (repeat' (first
    | with_reducible assumption | (with_reducible refine State.setFld_keeps ?_) | with_reducible refine keeps_ite ?_ ?_))

theorem chanRead_keeps {s0 : State} {s : State} {n : Nat} {r : SensorRead} (h : Keeps s0 s) : Keeps s0 (chanRead s n r) := by
  unfold chanRead
  (repeat' (first
    | with_reducible assumption | (with_reducible refine setNaks_keeps ?_) | (with_reducible refine State.setFld_keeps ?_)
    | (with_reducible refine chanWindows_keeps ?_) | (with_reducible refine chanHeals_keeps ?_)
    | (with_reducible refine chanFault_keeps ?_) | with_reducible refine keeps_ite ?_ ?_ | split))

theorem setSpeed_keeps {s0 : State} {s : State} {n : Nat} {rpm : Nat} (h : Keeps s0 s) : Keeps s0 (setSpeed s n rpm) := by
  unfold setSpeed
  (repeat' (first
    | with_reducible assumption | (with_reducible refine State.setFld_keeps ?_) | with_reducible refine keeps_ite ?_ ?_
    | fail_if_no_progress (with_reducible refine Keeps.upd ?_)))

theorem sensorRead_keeps {s0 : State} {s : State} {rs : List SensorRead} {rpm : List Nat} {die : Int} (h : Keeps s0 s) : Keeps
    s0 (sensorRead s rs rpm die) := by
  unfold sensorRead
  (repeat' (first
    | with_reducible assumption | (with_reducible refine chanRead_keeps ?_) | (with_reducible refine setSpeed_keeps ?_)
    | (with_reducible refine State.setFlds_keeps ?_) | (with_reducible refine wholdUpdate_keeps ?_)
    | with_reducible refine keeps_foldl (fun _ _ _ => ?_) ?_ | split
    | fail_if_no_progress (with_reducible refine Keeps.upd ?_)))

theorem execVoltageSample_keeps {s0 : State} {mv : List Nat} {s : State} (h : Keeps s0 s) : KRes s0 (execVoltageSample mv s) :=
    by
  unfold execVoltageSample
  (repeat' (first
    | with_reducible assumption | (with_reducible refine voltageSample_keeps ?_) | with_reducible refine kRes_next ?_))

theorem execPowerFail_keeps {s0 : State} {pin : Option (Fin 16)} {s : State} (h : Keeps s0 s) : KRes s0 (execPowerFail pin s)
    := by
  unfold execPowerFail
  (repeat' (first
    | with_reducible assumption | (with_reducible refine powerFail_keeps ?_) | with_reducible refine kRes_next ?_))

theorem execThermalSensorRead_keeps {s0 : State} {readings : List SensorRead} {rpm : List Nat} {die : Int} {s : State} (h :
    Keeps s0 s) : KRes s0 (execThermalSensorRead readings rpm die s) := by
  unfold execThermalSensorRead
  (repeat' (first
    | with_reducible assumption | (with_reducible refine sensorRead_keeps ?_) | with_reducible refine kRes_next ?_))

theorem execHoldSaveDone_keeps {s0 : State} {s : State} (h : Keeps s0 s) : KRes s0 (execHoldSaveDone s) := by
  unfold execHoldSaveDone
  (repeat' (first
    | with_reducible assumption | (with_reducible refine holdSaveDone_keeps ?_) | with_reducible refine kRes_next ?_))

theorem fanStall_keeps {s0 : State} {s : State} {n : Nat} (h : Keeps s0 s) : Keeps s0 (fanStall s n) := by
  unfold fanStall
  (repeat' (first
    | with_reducible assumption | (with_reducible refine State.setFlds_keeps ?_) | (with_reducible refine State.raise_keeps ?_)
    | with_reducible refine keeps_ite ?_ ?_ | fail_if_no_progress (with_reducible refine Keeps.upd ?_)))

theorem execFanStall_keeps {s0 : State} {n : Fin 4} {s : State} (h : Keeps s0 s) : KRes s0 (execFanStall n s) := by
  unfold execFanStall
  (repeat' (first | with_reducible assumption | (with_reducible refine fanStall_keeps ?_) | with_reducible refine kRes_next ?_))

theorem execStringTestEnd_keeps {s0 : State} {mv : Nat} {s : State} (h : Keeps s0 s) : KRes s0 (execStringTestEnd mv s) := by
  unfold execStringTestEnd
  (repeat' (first | with_reducible assumption | (with_reducible refine testEnd_keeps ?_) | with_reducible refine kRes_next ?_))

theorem execStringLoadSample_keeps {s0 : State} {mv : Nat} {s : State} (h : Keeps s0 s) : KRes s0 (execStringLoadSample mv s)
    := by
  unfold execStringLoadSample
  (repeat' (first
    | with_reducible assumption | (with_reducible refine loadSample_keeps ?_) | with_reducible refine kRes_next ?_))

/-! ### Keys -/

theorem drbgTake_keeps {s0 : State} {s : State} {y1 : Nat} (h : Keeps s0 s) : Keeps s0 (drbgTake s y1).2 := by
  fun_induction drbgTake s y1 <;> (repeat' (first
    | (with_reducible refine State.fresh_keeps ?_) | with_reducible apply_assumption))

theorem drbgTake_keeps_e {s0 : State} {s : State} {y1 : Nat} {x0} {t : State} (h : Keeps s0 s) (e : drbgTake s y1 = (x0, t)) :
    Keeps s0 t := by
  have k := drbgTake_keeps (s0 := s0) (s := s) (y1 := y1) h
  rw [e] at k
  exact k

theorem drbgBytes_keeps {s0 : State} {s : State} {n : Nat} (h : Keeps s0 s) : Keeps s0 (drbgBytes s n).2 := by
  unfold drbgBytes
  (repeat' (first
    | with_reducible assumption | (with_reducible refine drbgTake_keeps ?_)
    | fail_if_no_progress (with_reducible refine Keeps.updDrbg ?_ rfl)))

theorem drbgBytes_keeps_e {s0 : State} {s : State} {n : Nat} {x0} {t : State} (h : Keeps s0 s) (e : drbgBytes s n = (x0, t)) :
    Keeps s0 t := by
  have k := drbgBytes_keeps (s0 := s0) (s := s) (n := n) h
  rw [e] at k
  exact k

theorem newKey_keeps {s0 : State} {s : State} {ktype : Nat} {usage : Nat} (h : Keeps s0 s) : Keeps s0 (newKey s ktype usage).2
    := by
  unfold newKey
  (repeat' (first | with_reducible assumption | (with_reducible refine drbgBytes_keeps ?_)))

theorem newKey_keeps_e {s0 : State} {s : State} {ktype : Nat} {usage : Nat} {x0} {t : State} (h : Keeps s0 s) (e : newKey s
    ktype usage = (x0, t)) : Keeps s0 t := by
  have k := newKey_keeps (s0 := s0) (s := s) (ktype := ktype) (usage := usage) h
  rw [e] at k
  exact k

theorem putKey_keeps {s0 : State} {s : State} {n : Nat} {k_ : Option KeySlot} (h : Keeps s0 s) : Keeps s0 (putKey s n k_) := by
  unfold putKey
  (repeat' (first | with_reducible assumption | fail_if_no_progress (with_reducible refine Keeps.upd ?_)))

theorem keysEnd_keeps {s0 : State} {s : State} {code : Nat} (h : Keeps s0 s) : Keeps s0 (keysEnd s code) := by
  unfold keysEnd
  (repeat' (first
    | with_reducible assumption | (with_reducible refine State.setFld_keeps ?_)
    | (with_reducible refine State.raise_keeps ?_)))

theorem keysErase_keeps {s0 : State} {s : State} {slot : Nat} (h : Keeps s0 s) : Keeps s0 (keysErase s slot) := by
  unfold keysErase
  (repeat' (first
    | with_reducible assumption | (with_reducible refine keysEnd_keeps ?_) | (with_reducible refine putKey_keeps ?_)
    | with_reducible refine keeps_ite ?_ ?_))

theorem keysGenerate_keeps {s0 : State} {s : State} {slot : Nat} {ktype : Nat} {usage : Nat} (h : Keeps s0 s) : Keeps s0
    (keysGenerate s slot ktype usage) := by
  unfold keysGenerate
  (repeat' (first
    | with_reducible assumption | (with_reducible refine newKey_keeps ?_) | (with_reducible refine keysEnd_keeps ?_)
    | (with_reducible refine putKey_keeps ?_) | with_reducible refine keeps_ite ?_ ?_))

theorem keysCmd_keeps {s0 : State} {s : State} {op : Nat} {slot : Nat} {ktype : Nat} {usage : Nat} (h : Keeps s0 s) : Keeps s0
    (keysCmd s op slot ktype usage) := by
  unfold keysCmd
  (repeat' (first
    | with_reducible assumption | (with_reducible refine keysErase_keeps ?_) | (with_reducible refine keysGenerate_keeps ?_)
    | (with_reducible refine setClaimErr_keeps ?_) | (with_reducible refine State.setFlds_keeps ?_)
    | (with_reducible refine setCfgErr_keeps ?_) | with_reducible refine keeps_ite ?_ ?_))

theorem eraseAllKeys_keeps {s0 : State} {s : State} (h : Keeps s0 s) : Keeps s0 (eraseAllKeys s) := by
  unfold eraseAllKeys
  (repeat' (first | with_reducible assumption | fail_if_no_progress (with_reducible refine Keeps.upd ?_)))

theorem drbgTake_lc (s : State) (n : Nat) : (drbgTake s n).2.fuses = s.fuses := by
  induction n generalizing s with
  | zero => rfl
  | succ n ih => exact ih s.fresh.2

theorem lifecycleBurn_keeps {s0 s : State} {target : Nat} (h : Keeps s0 s) (he : target = s.fuses.lc + 1 ∧ target ≤ 3) :
    Keeps s0 (lifecycleBurn s target) := by
  have base : ∀ x : State, Keeps s x → x.fuses.lc = s.fuses.lc → Keeps s ({ x with drbg := { x.drbg with burn := some target }
      } : State) := by
    intro x k e
    refine k.trans ⟨rfl, id, id, ?_, fun _ => Nat.le_refl _, Nat.le_refl _, rfl, id⟩
    intro i
    refine ⟨i.1, ?_⟩
    intro n hn
    cases hn
    exact ⟨by rw [he.1, ← e], he.2⟩
  refine h.trans ?_
  unfold lifecycleBurn
  dsimp only
  refine State.raise_keeps (base _ ?_ ?_)
  · split
    · have k := drbgBytes_keeps (s0 := s) (s := s) (n := 32) (Keeps.refl s)
      refine k.trans ⟨rfl, id, id, id, fun _ => Nat.le_refl _, Nat.le_refl _, rfl, id⟩
    · split
      · exact ⟨rfl, id, id, id, fun _ => Nat.le_refl _, Nat.le_refl _, rfl, id⟩
      · exact Keeps.refl s
  · split
    · show (drbgTake s 32).2.fuses.lc = s.fuses.lc
      rw [drbgTake_lc]
    · split <;> rfl


theorem lifecycleAdvance_keeps {s0 s : State} {rq : Requester} {target keyword : Nat} (h : Keeps s0 s) :
    Keeps s0 (lifecycleAdvance s rq target keyword) := by
  unfold lifecycleAdvance
  dsimp only
  split
  all_goals
    split
    · exact setCfgErr_keeps h
    · next c =>
      refine keeps_ite (State.setFld_keeps h) (lifecycleBurn_keeps h ?_)
      simp only [not_or, Decidable.not_not] at c
      omega


theorem execLifecycleAdvance_keeps {s0 : State} {rq : Requester} {target : Fin 4} {keyword : BitVec 16} {s : State} (h : Keeps
    s0 s) : KRes s0 (execLifecycleAdvance rq target keyword s) := by
  unfold execLifecycleAdvance
  (repeat' (first
    | with_reducible assumption | (with_reducible refine lifecycleAdvance_keeps ?_) | with_reducible refine kRes_next ?_
    | with_reducible refine keeps_ite ?_ ?_))

theorem rngRead_keeps {s0 : State} {s : State} (h : Keeps s0 s) : Keeps s0 (rngRead s).2 := by
  unfold rngRead
  (repeat' (first | with_reducible assumption | (with_reducible refine drbgBytes_keeps ?_) | split))

theorem rngRead_keeps_e {s0 : State} {s : State} {x0} {t : State} (h : Keeps s0 s) (e : rngRead s = (x0, t)) : Keeps s0 t := by
  have k := rngRead_keeps (s0 := s0) (s := s) h
  rw [e] at k
  exact k

theorem execKeysRngRead_keeps {s0 : State} {rq : Requester} {s : State} (h : Keeps s0 s) : KRes s0 (execKeysRngRead rq s) := by
  unfold execKeysRngRead
  (repeat' (first
    | with_reducible assumption | (with_reducible refine rngRead_keeps ?_) | with_reducible refine kRes_next ?_
    | with_reducible refine keeps_ite ?_ ?_))

theorem lifecycleBurnDone_keeps {s0 s : State} (h : Keeps s0 s) : Keeps s0 (lifecycleBurnDone s) := by
  refine h.trans ?_
  unfold lifecycleBurnDone
  split
  · exact Keeps.refl s
  · next t e =>
    refine State.raise_keeps (State.setFlds_keeps ⟨rfl, id, id, fun i => ⟨(i.2 t e).2, fun n hn => nomatch hn⟩, ?_, Nat.le_refl
        _, rfl, id⟩)
    intro i
    have := (i.2 t e).1
    show s.fuses.lc ≤ t
    omega


theorem execLifecycleBurnDone_keeps {s0 : State} {s : State} (h : Keeps s0 s) : KRes s0 (execLifecycleBurnDone s) := by
  unfold execLifecycleBurnDone
  (repeat' (first
    | with_reducible assumption | (with_reducible refine lifecycleBurnDone_keeps ?_) | with_reducible refine kRes_next ?_))

theorem drbgReady_keeps {s0 : State} {s : State} (h : Keeps s0 s) : Keeps s0 (drbgReady s) := by
  unfold drbgReady
  (repeat' (first
    | with_reducible assumption | (with_reducible refine State.raise_keeps ?_) | with_reducible refine keeps_ite ?_ ?_
    | fail_if_no_progress (with_reducible refine Keeps.updDrbg ?_ rfl)))

theorem noiseFail_keeps {s0 : State} {s : State} (h : Keeps s0 s) : Keeps s0 (noiseFail s) := by
  unfold noiseFail
  (repeat' (first
    | with_reducible assumption | (with_reducible refine State.clear_keeps ?_) | (with_reducible refine State.raise_keeps ?_)
    | with_reducible refine keeps_ite ?_ ?_ | fail_if_no_progress (with_reducible refine Keeps.updDrbg ?_ rfl)))

theorem execDrbgReady_keeps {s0 : State} {s : State} (h : Keeps s0 s) : KRes s0 (execDrbgReady s) := by
  unfold execDrbgReady
  (repeat' (first
    | with_reducible assumption | (with_reducible refine drbgReady_keeps ?_) | with_reducible refine kRes_next ?_))

theorem drbgReseed_keeps {s0 : State} {s : State} (h : Keeps s0 s) : Keeps s0 (drbgReseed s) := by
  unfold drbgReseed
  (repeat' (first
    | with_reducible assumption | with_reducible refine keeps_ite ?_ ?_
    | fail_if_no_progress (with_reducible refine Keeps.updDrbg ?_ rfl)))

theorem execNoiseTestFailure_keeps {s0 : State} {s : State} (h : Keeps s0 s) : KRes s0 (execNoiseTestFailure s) := by
  unfold execNoiseTestFailure
  (repeat' (first
    | with_reducible assumption | (with_reducible refine noiseFail_keeps ?_) | with_reducible refine kRes_next ?_))

theorem execKeysGenerate_keeps {s0 : State} {rq : Requester} {slot : Fin 512} {ktype : BitVec 8} {usage : Fin 16} {s : State}
    (h : Keeps s0 s) : KRes s0 (execKeysGenerate rq slot ktype usage s) := by
  unfold execKeysGenerate
  (repeat' (first
    | with_reducible assumption | (with_reducible refine keysCmd_keeps ?_) | with_reducible refine kRes_next ?_
    | with_reducible refine keeps_ite ?_ ?_))

theorem execDrbgReseed_keeps {s0 : State} {s : State} (h : Keeps s0 s) : KRes s0 (execDrbgReseed s) := by
  unfold execDrbgReseed
  (repeat' (first
    | with_reducible assumption | (with_reducible refine drbgReseed_keeps ?_) | with_reducible refine kRes_next ?_))

theorem execKeysErase_keeps {s0 : State} {rq : Requester} {slot : Fin 512} {s : State} (h : Keeps s0 s) : KRes s0
    (execKeysErase rq slot s) := by
  unfold execKeysErase
  (repeat' (first
    | with_reducible assumption | (with_reducible refine keysCmd_keeps ?_) | with_reducible refine kRes_next ?_
    | with_reducible refine keeps_ite ?_ ?_))

/-! ### Vault -/

theorem vaultWipe_keeps {s0 : State} {s : State} (h : Keeps s0 s) : Keeps s0 (vaultWipe s) := by
  unfold vaultWipe
  (repeat' (first
    | with_reducible assumption | (with_reducible refine State.setFlds_keeps ?_)
    | fail_if_no_progress (with_reducible refine Keeps.upd ?_)))

theorem vaultFree_keeps {s0 : State} {s : State} (h : Keeps s0 s) : Keeps s0 (vaultFree s) := by
  unfold vaultFree
  (repeat' (first
    | with_reducible assumption | (with_reducible refine State.setFlds_keeps ?_) | (with_reducible refine vaultWipe_keeps ?_)))

theorem vaultRelease_keeps {s0 : State} {s : State} {w : Who} (h : Keeps s0 s) : Keeps s0 (vaultRelease s w) := by
  unfold vaultRelease
  (repeat' (first
    | with_reducible assumption | (with_reducible refine setClaimErr_keeps ?_) | (with_reducible refine vaultFree_keeps ?_)
    | with_reducible refine keeps_ite ?_ ?_))

theorem vaultEnd_keeps {s0 : State} {s : State} {code : Nat} (h : Keeps s0 s) : Keeps s0 (vaultEnd s code) := by
  unfold vaultEnd
  (repeat' (first
    | with_reducible assumption | (with_reducible refine State.setFld_keeps ?_)
    | (with_reducible refine State.setFlds_keeps ?_) | (with_reducible refine State.raise_keeps ?_)
    | with_reducible refine keeps_ite ?_ ?_ | fail_if_no_progress (with_reducible refine Keeps.upd ?_)))

theorem vaultRun_keeps {s0 : State} {s : State} {op : Nat} (h : Keeps s0 s) : Keeps s0 (vaultRun s op) := by
  unfold vaultRun
  (repeat' (first
    | with_reducible assumption | (with_reducible refine State.setFld_keeps ?_)
    | fail_if_no_progress (with_reducible refine Keeps.upd ?_)))

theorem vaultWrap_keeps {s0 : State} {s : State} (h : Keeps s0 s) : Keeps s0 (vaultWrap s) := by
  unfold vaultWrap
  (repeat' (first
    | with_reducible assumption | (with_reducible refine vaultEnd_keeps ?_) | (with_reducible refine vaultRun_keeps ?_)
    | split))

theorem vaultStep_keeps {s0 : State} {s : State} (h : Keeps s0 s) : Keeps s0 (vaultStep s) := by
  unfold vaultStep
  (repeat' (first
    | with_reducible assumption | (with_reducible refine vaultEnd_keeps ?_) | (with_reducible refine vaultRun_keeps ?_)
    | split))

theorem newIv_keeps {s0 : State} {s : State} {v : Nat} (h : Keeps s0 s) : Keeps s0 (newIv s v).2 := by
  unfold newIv
  (repeat' (first | with_reducible assumption | (with_reducible refine drbgBytes_keeps ?_)))

theorem newIv_keeps_e {s0 : State} {s : State} {v : Nat} {x0} {t : State} (h : Keeps s0 s) (e : newIv s v = (x0, t)) : Keeps s0
    t := by
  have k := newIv_keeps (s0 := s0) (s := s) (v := v) h
  rw [e] at k
  exact k

theorem setVaultIv_keeps {s0 : State} {s : State} {iv : List Byte} (h : Keeps s0 s) : Keeps s0 (setVaultIv s iv) := by
  unfold setVaultIv
  (repeat' (first | with_reducible assumption | (with_reducible refine State.setFlds_keeps ?_)))

theorem vaultOpen_keeps {s0 : State} {s : State} {mode : Nat} {slot : Nat} {decrypt : Bool} (h : Keeps s0 s) : Keeps s0
    (vaultOpen s mode slot decrypt) := by
  unfold vaultOpen
  (repeat' (first
    | with_reducible assumption | (with_reducible refine vaultEnd_keeps ?_) | (with_reducible refine State.setFld_keeps ?_)
    | (with_reducible refine newIv_keeps ?_) | (with_reducible refine State.addWrap_keeps ?_)
    | (with_reducible refine setVaultIv_keeps ?_) | split | fail_if_no_progress (with_reducible refine Keeps.upd ?_)))

theorem vaultCmd_keeps {s0 : State} {s : State} {w : Who} {f : State → State} (h : Keeps s0 s) (h_f : ∀ z0, Keeps s0 z0 → Keeps
    s0 (f z0)) : Keeps s0 (vaultCmd s w f) := by
  unfold vaultCmd
  (repeat' (first
    | (with_reducible refine setClaimErr_keeps ?_) | with_reducible refine keeps_ite ?_ ?_ | with_reducible apply_assumption))

theorem vaultClose_keeps {s0 : State} {s : State} (h : Keeps s0 s) : Keeps s0 (vaultClose s) := by
  unfold vaultClose
  (repeat' (first
    | with_reducible assumption | (with_reducible refine vaultEnd_keeps ?_) | (with_reducible refine State.setFld_keeps ?_)
    | split | fail_if_no_progress (with_reducible refine Keeps.upd ?_)))

theorem vaultUnwrap_keeps {s0 : State} {s : State} (h : Keeps s0 s) : Keeps s0 (vaultUnwrap s) := by
  unfold vaultUnwrap
  (repeat' (first
    | with_reducible assumption | (with_reducible refine vaultEnd_keeps ?_) | (with_reducible refine vaultRun_keeps ?_)
    | split))

theorem vaultAcquire_keeps {s0 : State} {s : State} {w : Who} (h : Keeps s0 s) : Keeps s0 (vaultAcquire s w) := by
  unfold vaultAcquire
  (repeat' (first
    | with_reducible assumption | (with_reducible refine setClaimErr_keeps ?_) | (with_reducible refine State.setFlds_keeps ?_)
    | with_reducible refine keeps_ite ?_ ?_ | fail_if_no_progress (with_reducible refine Keeps.upd ?_)))

theorem vaultAs_keeps {s0 : State} {s : State} {rq : Requester} {f : Who → State} (h : Keeps s0 s) (h_f : ∀ z0, Keeps s0 (f
    z0)) : Keeps s0 (vaultAs s rq f) := by
  unfold vaultAs
  (repeat' (first | split | with_reducible apply_assumption))

theorem execVaultStep_keeps {s0 : State} {rq : Requester} {s : State} (h : Keeps s0 s) : KRes s0 (execVaultStep rq s) := by
  unfold execVaultStep
  (repeat' (first
    | with_reducible assumption | (with_reducible refine vaultStep_keeps ?_) | (with_reducible refine vaultCmd_keeps ?_ ?_)
    | (with_reducible refine vaultAs_keeps ?_ ?_) | with_reducible refine kRes_next ?_ | intro _))

theorem vaultBlocks_keeps {s0 : State} {s : State} {m : VMsg} {src : Nat} {dst : Nat} {len : Nat} {bad : Nat} {y6 : Nat} (h :
    Keeps s0 s) : Keeps s0 (vaultBlocks s m src dst len bad y6).2.1 := by
  fun_induction vaultBlocks s m src dst len bad y6 <;> (repeat' (first
    | (with_reducible refine writeGlobal_keeps_e ?_ (by assumption))
    | (with_reducible refine readGlobal_keeps_e ?_ (by assumption)) | with_reducible apply_assumption))

theorem vaultBlocks_keeps_e {s0 : State} {s : State} {m : VMsg} {src : Nat} {dst : Nat} {len : Nat} {bad : Nat} {y6 : Nat} {x0
    x1} {t : State} (h : Keeps s0 s) (e : vaultBlocks s m src dst len bad y6 = (x0, (t, x1))) : Keeps s0 t := by
  have k := vaultBlocks_keeps (s0 := s0) (s := s) (m := m) (src := src) (dst := dst) (len := len) (bad := bad) (y6 := y6) h
  rw [e] at k
  exact k

theorem vaultDone_keeps {s0 : State} {s : State} {bad : Option Nat} (h : Keeps s0 s) : Keeps s0 (vaultDone s bad) := by
  unfold vaultDone
  (repeat' (first
    | with_reducible assumption | (with_reducible refine writeGlobal_keeps_e ?_ (by assumption))
    | (with_reducible refine vaultEnd_keeps ?_) | (with_reducible refine putKey_keeps ?_)
    | (with_reducible refine vaultBlocks_keeps ?_) | (with_reducible refine newIv_keeps ?_)
    | (with_reducible refine State.addWrap_keeps ?_) | (with_reducible refine readGlobal_keeps_e ?_ (by assumption))
    | with_reducible refine keeps_ite ?_ ?_ | split | fail_if_no_progress (with_reducible refine Keeps.upd ?_)))

theorem execVaultStepDone_keeps {s0 : State} {bad : Option Nat} {s : State} (h : Keeps s0 s) : KRes s0 (execVaultStepDone bad
    s) := by
  unfold execVaultStepDone
  (repeat' (first
    | with_reducible assumption | (with_reducible refine vaultDone_keeps ?_) | with_reducible refine kRes_next ?_))

theorem execVaultClose_keeps {s0 : State} {rq : Requester} {s : State} (h : Keeps s0 s) : KRes s0 (execVaultClose rq s) := by
  unfold execVaultClose
  (repeat' (first
    | with_reducible assumption | (with_reducible refine vaultCmd_keeps ?_ ?_) | (with_reducible refine vaultClose_keeps ?_)
    | (with_reducible refine vaultAs_keeps ?_ ?_) | with_reducible refine kRes_next ?_ | intro _))

theorem execVaultWrap_keeps {s0 : State} {rq : Requester} {slot : Fin 512} {kek : Fin 514} {s : State} (h : Keeps s0 s) : KRes
    s0 (execVaultWrap rq slot kek s) := by
  unfold execVaultWrap
  (repeat' (first
    | with_reducible assumption | (with_reducible refine vaultWrap_keeps ?_) | (with_reducible refine vaultCmd_keeps ?_ ?_)
    | (with_reducible refine State.setFlds_keeps ?_) | (with_reducible refine vaultAs_keeps ?_ ?_)
    | with_reducible refine kRes_next ?_ | intro _))

theorem execVaultAcquire_keeps {s0 : State} {rqs : List Requester} {s : State} (h : Keeps s0 s) : KRes s0 (execVaultAcquire rqs
    s) := by
  unfold execVaultAcquire
  (repeat' (first
    | with_reducible assumption | (with_reducible refine vaultAcquire_keeps ?_) | with_reducible refine kRes_next ?_
    | with_reducible refine keeps_foldl (fun _ _ _ => ?_) ?_))

theorem execVaultUnwrap_keeps {s0 : State} {rq : Requester} {slot : Fin 512} {kek : Fin 514} {s : State} (h : Keeps s0 s) :
    KRes s0 (execVaultUnwrap rq slot kek s) := by
  unfold execVaultUnwrap
  (repeat' (first
    | with_reducible assumption | (with_reducible refine vaultCmd_keeps ?_ ?_) | (with_reducible refine State.setFlds_keeps ?_)
    | (with_reducible refine vaultAs_keeps ?_ ?_) | (with_reducible refine vaultUnwrap_keeps ?_)
    | with_reducible refine kRes_next ?_ | intro _))

theorem execVaultRelease_keeps {s0 : State} {rq : Requester} {s : State} (h : Keeps s0 s) : KRes s0 (execVaultRelease rq s) :=
    by
  unfold execVaultRelease
  (repeat' (first
    | with_reducible assumption | (with_reducible refine vaultRelease_keeps ?_) | (with_reducible refine vaultAs_keeps ?_ ?_)
    | with_reducible refine kRes_next ?_ | intro _))

theorem execVaultOpen_keeps {s0 : State} {rq : Requester} {mode : Fin 3} {decrypt : Bool} {slot : Fin 512} {s : State} (h :
    Keeps s0 s) : KRes s0 (execVaultOpen rq mode decrypt slot s) := by
  unfold execVaultOpen
  (repeat' (first
    | with_reducible assumption | (with_reducible refine vaultOpen_keeps ?_) | (with_reducible refine vaultCmd_keeps ?_ ?_)
    | (with_reducible refine State.setFlds_keeps ?_) | (with_reducible refine vaultAs_keeps ?_ ?_)
    | with_reducible refine kRes_next ?_ | intro _))

theorem vaultLapse_keeps {s0 : State} {s : State} (h : Keeps s0 s) : Keeps s0 (vaultLapse s) := by
  unfold vaultLapse
  (repeat' (first
    | with_reducible assumption | (with_reducible refine vaultFree_keeps ?_) | (with_reducible refine State.raise_keeps ?_)
    | with_reducible refine keeps_ite ?_ ?_ | fail_if_no_progress (with_reducible refine Keeps.upd ?_)))

theorem execVaultLeaseLapse_keeps {s0 : State} {s : State} (h : Keeps s0 s) : KRes s0 (execVaultLeaseLapse s) := by
  unfold execVaultLeaseLapse
  (repeat' (first
    | with_reducible assumption | (with_reducible refine vaultLapse_keeps ?_) | with_reducible refine kRes_next ?_))

/-! ### Blocks -/

theorem takeManager_keeps {s0 : State} {s : State} (h : Keeps s0 s) : Keeps s0 (takeManager s) := by
  unfold takeManager
  (repeat' (first
    | with_reducible assumption | (with_reducible refine discStart_keeps ?_) | (with_reducible refine State.raise_keeps ?_)
    | with_reducible refine keeps_ite ?_ ?_))

theorem blockEnable_keeps {s0 : State} {s : State} {b : BlockId} (h : Keeps s0 s) : Keeps s0 (blockEnable s b) := by
  unfold blockEnable
  (repeat' (first
    | with_reducible assumption | (with_reducible refine requestOn_keeps ?_) | with_reducible refine keeps_ite ?_ ?_))

theorem enterQuiesce_keeps {s0 : State} {s : State} {b : BlockId} (h : Keeps s0 s) : Keeps s0 (enterQuiesce s b) := by
  unfold enterQuiesce
  (repeat' (first
    | with_reducible assumption | (with_reducible refine portQuiesce_keeps ?_) | (with_reducible refine redistribute_keeps ?_)
    | (with_reducible refine dmaDisable_keeps ?_) | (with_reducible refine holdQuiesce_keeps ?_) | split))

theorem blockDisable_keeps {s0 : State} {s : State} {b : BlockId} (h : Keeps s0 s) : Keeps s0 (blockDisable s b) := by
  unfold blockDisable
  (repeat' (first
    | with_reducible assumption | (with_reducible refine requestOff_keeps ?_) | (with_reducible refine enterQuiesce_keeps ?_)
    | with_reducible refine keeps_ite ?_ ?_))

theorem writeEn_keeps {s0 : State} {s : State} {b : BlockId} {v : Nat} (h : Keeps s0 s) : Keeps s0 (writeEn s b v) := by
  unfold writeEn
  (repeat' (first
    | with_reducible assumption | (with_reducible refine blockEnable_keeps ?_) | (with_reducible refine setCfgErr_keeps ?_)
    | (with_reducible refine blockDisable_keeps ?_) | with_reducible refine keeps_ite ?_ ?_))

theorem enterOn_keeps {s0 : State} {s : State} {b : BlockId} (h : Keeps s0 s) : Keeps s0 (enterOn s b) := by
  unfold enterOn
  (repeat' (first
    | with_reducible assumption | (with_reducible refine takeManager_keeps ?_) | (with_reducible refine portEnabled_keeps ?_)
    | (with_reducible refine State.setFld_keeps ?_) | (with_reducible refine dmaEnable_keeps ?_) | split))

theorem d3Settle_keeps {s0 : State} {s : State} (h : Keeps s0 s) : Keeps s0 (d3Settle s) := by
  unfold d3Settle
  (repeat' (first
    | with_reducible assumption | (with_reducible refine writeEn_keeps ?_) | with_reducible refine keeps_ite ?_ ?_
    | with_reducible refine keeps_foldl (fun _ _ _ => ?_) ?_ | fail_if_no_progress (with_reducible refine Keeps.upd ?_)))

theorem enabled_keeps {s0 : State} {s : State} {b : BlockId} (h : Keeps s0 s) : Keeps s0 (enabled s b) := by
  unfold enabled
  (repeat' (first | with_reducible assumption | (with_reducible refine selfRefreshExit_keeps ?_) | split))

theorem blockEnablingDone_keeps {s0 : State} {s : State} {b : BlockId} (h : Keeps s0 s) : Keeps s0 (blockEnablingDone s b) := by
  unfold blockEnablingDone
  (repeat' (first
    | with_reducible assumption | (with_reducible refine enterOn_keeps ?_) | (with_reducible refine d3Settle_keeps ?_)
    | (with_reducible refine enablingEnds_keeps ?_) | (with_reducible refine enabled_keeps ?_)
    | (with_reducible refine enterQuiesce_keeps ?_) | with_reducible refine keeps_ite ?_ ?_))

theorem bringUp_keeps {s0 : State} {s : State} {b : BlockId} (h : Keeps s0 s) : Keeps s0 (bringUp s b) := by
  unfold bringUp
  (repeat' (first
    | with_reducible assumption | (with_reducible refine blockEnable_keeps ?_)
    | (with_reducible refine blockEnablingDone_keeps ?_)))

theorem bringUpAll_keeps {s0 : State} {s : State} {bs : List BlockId} (h : Keeps s0 s) : Keeps s0 (bringUpAll s bs) := by
  unfold bringUpAll
  (repeat' (first
    | with_reducible assumption | (with_reducible refine bringUp_keeps ?_)
    | with_reducible refine keeps_foldl (fun _ _ _ => ?_) ?_))

theorem blockLock_keeps {s0 : State} {s : State} {b : BlockId} (h : Keeps s0 s) : Keeps s0 (blockLock s b) := by
  unfold blockLock
  (repeat' (first | with_reducible assumption | (with_reducible refine State.raise_keeps ?_)))

theorem d3Enter_keeps {s0 : State} {s : State} (h : Keeps s0 s) : Keeps s0 (d3Enter s) := by
  unfold d3Enter
  (repeat' (first
    | with_reducible assumption | (with_reducible refine d3Settle_keeps ?_) | (with_reducible refine writeEn_keeps ?_)
    | with_reducible refine keeps_ite ?_ ?_ | with_reducible refine keeps_foldl (fun _ _ _ => ?_) ?_
    | fail_if_no_progress (with_reducible refine Keeps.upd ?_)))

theorem d3Move_keeps {s0 : State} {s : State} {p : Nat} {d3 : Bool} (h : Keeps s0 s) : Keeps s0 (d3Move s p d3) := by
  unfold d3Move
  (repeat' (first
    | with_reducible assumption | (with_reducible refine d3Settle_keeps ?_) | (with_reducible refine d3Enter_keeps ?_)
    | with_reducible refine keeps_ite ?_ ?_ | fail_if_no_progress (with_reducible refine Keeps.upd ?_)))

theorem pcieLinkDown_keeps {s0 : State} {s : State} {p : Nat} (h : Keeps s0 s) : Keeps s0 (pcieLinkDown s p) := by
  unfold pcieLinkDown
  (repeat' (first
    | with_reducible assumption | (with_reducible refine State.setFlds_keeps ?_) | (with_reducible refine State.raise_keeps ?_)
    | with_reducible refine keeps_ite ?_ ?_))

theorem execBlockLock_keeps {s0 : State} {b : BlockId} {s : State} (h : Keeps s0 s) : KRes s0 (execBlockLock b s) := by
  unfold execBlockLock
  (repeat' (first
    | with_reducible assumption | (with_reducible refine blockLock_keeps ?_) | with_reducible refine kRes_next ?_))

theorem execBlockEnable_keeps {s0 : State} {b : BlockId} {s : State} (h : Keeps s0 s) : KRes s0 (execBlockEnable b s) := by
  unfold execBlockEnable
  (repeat' (first | with_reducible assumption | (with_reducible refine writeEn_keeps ?_) | with_reducible refine kRes_next ?_))

theorem execBlockEnablingDone_keeps {s0 : State} {b : BlockId} {s : State} (h : Keeps s0 s) : KRes s0 (execBlockEnablingDone b
    s) := by
  unfold execBlockEnablingDone
  (repeat' (first
    | with_reducible assumption | (with_reducible refine blockEnablingDone_keeps ?_) | with_reducible refine kRes_next ?_))

theorem execBlockDisable_keeps {s0 : State} {b : BlockId} {s : State} (h : Keeps s0 s) : KRes s0 (execBlockDisable b s) := by
  unfold execBlockDisable
  (repeat' (first | with_reducible assumption | (with_reducible refine writeEn_keeps ?_) | with_reducible refine kRes_next ?_))

theorem drainEnds_keeps {s0 : State} {s : State} {b : BlockId} (h : Keeps s0 s) : Keeps s0 (drainEnds s b) := by
  unfold drainEnds
  (repeat' (first
    | with_reducible assumption | (with_reducible refine selfRefreshEnter_keeps ?_)
    | (with_reducible refine State.clear_keeps ?_) | (with_reducible refine pcieLinkDown_keeps ?_)
    | (with_reducible refine vaultFree_keeps ?_) | (with_reducible refine portOff_keeps ?_) | split))

theorem blockQuiesceDone_keeps {s0 : State} {s : State} {b : BlockId} (h : Keeps s0 s) : Keeps s0 (blockQuiesceDone s b) := by
  unfold blockQuiesceDone
  (repeat' (first
    | with_reducible assumption | (with_reducible refine drainEnds_keeps ?_) | (with_reducible refine d3Settle_keeps ?_)
    | (with_reducible refine quiesceEnds_keeps ?_) | with_reducible refine keeps_ite ?_ ?_))

theorem execBlockQuiesceDone_keeps {s0 : State} {b : BlockId} {s : State} (h : Keeps s0 s) : KRes s0 (execBlockQuiesceDone b s)
    := by
  unfold execBlockQuiesceDone
  (repeat' (first
    | with_reducible assumption | (with_reducible refine blockQuiesceDone_keeps ?_) | with_reducible refine kRes_next ?_))

/-! ### FabCfg -/

theorem fabTags_keeps {s0 : State} {s : State} {hport : Nat} {d : List Byte} {y3 : Nat} {y4 : Nat} (h : Keeps s0 s) : Keeps s0
    (fabTags s hport d y3 y4).2.2 := by
  fun_induction fabTags s hport d y3 y4 <;> (repeat' (first
    | (with_reducible refine passSlot_keeps ?_) | with_reducible apply_assumption))

theorem fabTags_keeps_e {s0 : State} {s : State} {hport : Nat} {d : List Byte} {y3 : Nat} {y4 : Nat} {x0 x1} {t : State} (h :
    Keeps s0 s) (e : fabTags s hport d y3 y4 = (x0, (x1, t))) : Keeps s0 t := by
  have k := fabTags_keeps (s0 := s0) (s := s) (hport := hport) (d := d) (y3 := y3) (y4 := y4) h
  rw [e] at k
  exact k

theorem fcPort_keeps {s0 : State} {ports : Nat} {s : State} {p : Fin 4} (h : Keeps s0 s) : Keeps s0 (fcPort ports s p) := by
  unfold fcPort
  (repeat' (first | with_reducible assumption | (with_reducible refine writeEn_keeps ?_)))

theorem zeroRam_keeps {s0 : State} {s : State} {a : Nat} {n : Nat} (h : Keeps s0 s) : Keeps s0 (zeroRam s a n) := by
  unfold zeroRam
  (repeat' (first | with_reducible assumption | with_reducible refine Keeps.updMem ?_ (fun w => tblWf_tblKeep _ w)))

theorem freshWindows_keeps {s0 s : State} {old ws : List HwWin} (h : Keeps s0 s) : Keeps s0 (freshWindows s old ws) := by
  induction ws generalizing s with
  | nil => exact h
  | cons w ws ih => exact ih (keeps_ite h (zeroRam_keeps h))


theorem fabApply_keeps {s0 : State} {s : State} {shared : List Byte} {locals : List Byte} (h : Keeps s0 s) : Keeps s0 (fabApply
    s shared locals) := by
  unfold fabApply
  (repeat' (first
    | with_reducible assumption | (with_reducible refine takeManager_keeps ?_) | (with_reducible refine State.clear_keeps ?_)
    | (with_reducible refine leaveAssigned_keeps ?_) | (with_reducible refine State.setFlds_keeps ?_)
    | (with_reducible refine fcPort_keeps ?_) | (with_reducible refine timeSource_keeps ?_)
    | (with_reducible refine freshWindows_keeps ?_) | with_reducible refine keeps_ite ?_ ?_
    | with_reducible refine keeps_foldl (fun _ _ _ => ?_) ?_ | fail_if_no_progress (with_reducible refine Keeps.upd ?_)))

theorem fabLoad_keeps {s0 : State} {s : State} {d : List Byte} (h : Keeps s0 s) : Keeps s0 (fabLoad s d) := by
  unfold fabLoad
  (repeat' (first
    | with_reducible assumption | (with_reducible refine fabApply_keeps ?_)
    | fail_if_no_progress (with_reducible refine Keeps.upd ?_)))

/-! ### Start -/

theorem bootFail_keeps {s0 : State} {s : State} {ph : Nat} {detail : Nat} {m : BootMode} (h : Keeps s0 s) : Keeps s0 (bootFail
    s ph detail m) := by
  unfold bootFail
  (repeat' (first
    | with_reducible assumption | (with_reducible refine State.setFlds_keeps ?_)
    | fail_if_no_progress (with_reducible refine Keeps.upd ?_)))

theorem bootHalt_keeps {s0 s : State} {ph detail : Nat} (h : Keeps s0 s) : Keeps s0 (bootHalt s ph detail) := by
  have k : Keeps s0 (bootFail s ph detail .halt) := bootFail_keeps h
  exact k.trans ⟨rfl, id, id, id, fun _ => Nat.le_refl _, Nat.le_refl _, rfl, fun e => by simpa [bootHalt] using e⟩


theorem clocksFail_keeps {s0 : State} {s : State} {detail : Nat} (h : Keeps s0 s) : Keeps s0 (clocksFail s detail) := by
  unfold clocksFail
  (repeat' (first
    | with_reducible assumption | (with_reducible refine bootHalt_keeps ?_) | (with_reducible refine State.setFlds_keeps ?_)
    | with_reducible refine keeps_ite ?_ ?_ | fail_if_no_progress (with_reducible refine Keeps.upd ?_)))

theorem warmBy_keeps {s0 : State} {s : State} {rq : Requester} (h : Keeps s0 s) : Keeps s0 (warmBy s rq) := by
  unfold warmBy
  (repeat' (first | with_reducible assumption | (with_reducible refine warmReset_keeps ?_) | split))

theorem houseRun_keeps {s0 : State} {s : State} {mask : Nat} (h : Keeps s0 s) : Keeps s0 (houseRun s mask) := by
  unfold houseRun
  (repeat' (first
    | with_reducible assumption | (with_reducible refine State.setFld_keeps ?_)
    | (with_reducible refine State.setCore_keeps ?_) | with_reducible refine keeps_ite ?_ ?_
    | with_reducible refine keeps_foldl (fun _ _ _ => ?_) ?_))

theorem flushEnd_keeps {s0 : State} {s : State} {us : Nat} (h : Keeps s0 s) : Keeps s0 (flushEnd s us) := by
  unfold flushEnd
  (repeat' (first
    | with_reducible assumption | (with_reducible refine postFlushReset_keeps ?_) | (with_reducible refine flushPend_keeps ?_)
    | (with_reducible refine flushStops_keeps ?_) | with_reducible refine keeps_ite ?_ ?_))

theorem clocksOn_keeps {s0 : State} {s : State} (h : Keeps s0 s) : Keeps s0 (clocksOn s) := by
  unfold clocksOn
  (repeat' (first | with_reducible assumption | (with_reducible refine State.setFlds_keeps ?_)))

theorem pllRelock_keeps {s0 : State} {s : State} (h : Keeps s0 s) : Keeps s0 (pllRelock s) := by
  unfold pllRelock
  (repeat' (first
    | with_reducible assumption | (with_reducible refine flushStart_keeps ?_) | (with_reducible refine clocksOn_keeps ?_)
    | with_reducible refine keeps_ite ?_ ?_))

theorem execRootPllRelock_keeps {s0 : State} {s : State} (h : Keeps s0 s) : KRes s0 (execRootPllRelock s) := by
  unfold execRootPllRelock
  (repeat' (first
    | with_reducible assumption | (with_reducible refine pllRelock_keeps ?_) | with_reducible refine kRes_next ?_))

theorem tapIr_keeps {s0 : State} {s : State} {ir : TapIr} (h : Keeps s0 s) : Keeps s0 (tapIr s ir) := by
  unfold tapIr
  (repeat' (first | with_reducible assumption | fail_if_no_progress (with_reducible refine Keeps.upd ?_)))

theorem execTapIdcode_keeps {s0 : State} {s : State} (h : Keeps s0 s) : KRes s0 (execTapIdcode s) := by
  unfold execTapIdcode
  (repeat' (first | with_reducible assumption | (with_reducible refine tapIr_keeps ?_) | with_reducible refine kRes_next ?_))

theorem execTapClamp_keeps {s0 : State} {s : State} (h : Keeps s0 s) : KRes s0 (execTapClamp s) := by
  unfold execTapClamp
  (repeat' (first | with_reducible assumption | (with_reducible refine tapIr_keeps ?_) | with_reducible refine kRes_next ?_))

theorem bootRecovery_keeps {s0 : State} {s : State} {ph : Nat} {detail : Nat} (h : Keeps s0 s) : Keeps s0 (bootRecovery s ph
    detail) := by
  unfold bootRecovery
  (repeat' (first
    | with_reducible assumption | (with_reducible refine State.setFld_keeps ?_) | (with_reducible refine bootFail_keeps ?_)))

theorem bootFatal_keeps {s0 : State} {s : State} {ph : Nat} {detail : Nat} (h : Keeps s0 s) : Keeps s0 (bootFatal s ph detail)
    := by
  unfold bootFatal
  (repeat' (first
    | with_reducible assumption | (with_reducible refine bringUp_keeps ?_) | (with_reducible refine bootFail_keeps ?_)))

theorem execTapDebug_keeps {s0 : State} {s : State} (h : Keeps s0 s) : KRes s0 (execTapDebug s) := by
  unfold execTapDebug
  (repeat' (first | with_reducible assumption | (with_reducible refine tapIr_keeps ?_) | with_reducible refine kRes_next ?_))

theorem clocksOff_keeps {s0 : State} {s : State} (h : Keeps s0 s) : Keeps s0 (clocksOff s) := by
  unfold clocksOff
  (repeat' (first | with_reducible assumption | (with_reducible refine State.setFlds_keeps ?_)))

theorem pllLoss_keeps {s0 : State} {s : State} (h : Keeps s0 s) : Keeps s0 (pllLoss s) := by
  unfold pllLoss
  (repeat' (first
    | with_reducible assumption | (with_reducible refine clocksFail_keeps ?_) | (with_reducible refine State.raise_keeps ?_)
    | (with_reducible refine clocksOff_keeps ?_) | with_reducible refine keeps_ite ?_ ?_
    | fail_if_no_progress (with_reducible refine Keeps.upd ?_)))

theorem execTapReset_keeps {s0 : State} {s : State} (h : Keeps s0 s) : KRes s0 (execTapReset s) := by
  unfold execTapReset
  (repeat' (first
    | with_reducible assumption | with_reducible refine kRes_next ?_
    | fail_if_no_progress (with_reducible refine Keeps.upd ?_)))

theorem cutFlush_keeps {s0 : State} {s : State} {recorded : Nat} {us : Nat} (h : Keeps s0 s) : Keeps s0 (cutFlush s recorded
    us) := by
  unfold cutFlush
  (repeat' (first
    | with_reducible assumption | (with_reducible refine flushStops_keeps ?_) | with_reducible refine keeps_ite ?_ ?_))

theorem countCycle_keeps {s0 old s : State} (h : Keeps s0 s) : Keeps s0 (countCycle old s) :=
  keeps_ite h (h.of_eq rfl rfl rfl rfl rfl rfl)


theorem execAonRailLow_keeps {s0 : State} {recorded : Nat} {us : Nat} {s : State} (h : Keeps s0 s) : KRes s0 (execAonRailLow
    recorded us s) := by
  unfold execAonRailLow
  (repeat' (first
    | with_reducible assumption | (with_reducible refine cutFlush_keeps ?_) | (with_reducible refine powerOnReset_keeps ?_)
    | (with_reducible refine countCycle_keeps ?_) | with_reducible refine kRes_next ?_))

theorem tapScan_keeps {s0 : State} {s : State} {ir : TapIr} {levels : Nat} {shifted : Nat} (h : Keeps s0 s) : Keeps s0 (tapScan
    s ir levels shifted) := by
  unfold tapScan
  (repeat' (first
    | with_reducible assumption | (with_reducible refine tapIr_keeps ?_) | with_reducible refine keeps_ite ?_ ?_
    | fail_if_no_progress (with_reducible refine Keeps.upd ?_)))

theorem execTapExtest_keeps {s0 : State} {levels : Nat} {shifted : Nat} {s : State} (h : Keeps s0 s) : KRes s0 (execTapExtest
    levels shifted s) := by
  unfold execTapExtest
  (repeat' (first | with_reducible assumption | (with_reducible refine tapScan_keeps ?_) | with_reducible refine kRes_next ?_))

theorem execHouseCoreRun_keeps {s0 : State} {mask : Fin 8} {s : State} (h : Keeps s0 s) : KRes s0 (execHouseCoreRun mask s) :=
    by
  unfold execHouseCoreRun
  (repeat' (first | with_reducible assumption | (with_reducible refine houseRun_keeps ?_) | with_reducible refine kRes_next ?_))

theorem sysRstLow_keeps {s0 : State} {s : State} (h : Keeps s0 s) : Keeps s0 (sysRstLow s) := by
  unfold sysRstLow
  (repeat' (first
    | with_reducible assumption | (with_reducible refine coldReset_keeps ?_) | with_reducible refine keeps_ite ?_ ?_
    | fail_if_no_progress (with_reducible refine Keeps.upd ?_)))

theorem sysRstHigh_keeps {s0 : State} {s : State} {bifur : Bool} (h : Keeps s0 s) : Keeps s0 (sysRstHigh s bifur) := by
  unfold sysRstHigh
  (repeat' (first
    | with_reducible assumption | (with_reducible refine State.setFlds_keeps ?_) | with_reducible refine keeps_ite ?_ ?_
    | fail_if_no_progress (with_reducible refine Keeps.upd ?_)))

theorem wdtExpiry_keeps {s0 : State} {s : State} (h : Keeps s0 s) : Keeps s0 (wdtExpiry s) := by
  unfold wdtExpiry
  (repeat' (first
    | with_reducible assumption | (with_reducible refine State.addSat_keeps ?_) | (with_reducible refine State.raise_keeps ?_)
    | (with_reducible refine warmReset_keeps ?_) | with_reducible refine keeps_ite ?_ ?_))

theorem holdRelease_keeps {s0 : State} {s : State} {die : Int} (h : Keeps s0 s) : Keeps s0 (holdRelease s die) := by
  unfold holdRelease
  (repeat' (first | with_reducible assumption | split | fail_if_no_progress (with_reducible refine Keeps.upd ?_)))

theorem execSysRstRelease_keeps {s0 : State} {bifur : Bool} {s : State} (h : Keeps s0 s) : KRes s0 (execSysRstRelease bifur s)
    := by
  unfold execSysRstRelease
  (repeat' (first
    | with_reducible assumption | (with_reducible refine sysRstHigh_keeps ?_) | with_reducible refine kRes_next ?_))

theorem execTapHighz_keeps {s0 : State} {s : State} (h : Keeps s0 s) : KRes s0 (execTapHighz s) := by
  unfold execTapHighz
  (repeat' (first | with_reducible assumption | (with_reducible refine tapIr_keeps ?_) | with_reducible refine kRes_next ?_))

theorem execFlushEnd_keeps {s0 : State} {us : Nat} {s : State} (h : Keeps s0 s) : KRes s0 (execFlushEnd us s) := by
  unfold execFlushEnd
  (repeat' (first | with_reducible assumption | (with_reducible refine flushEnd_keeps ?_) | with_reducible refine kRes_next ?_))

theorem execSerdesPllLock_keeps {s0 : State} {damdom : Bool} {s : State} (h : Keeps s0 s) : KRes s0 (execSerdesPllLock damdom
    s) := by
  unfold execSerdesPllLock
  (repeat' (first
    | with_reducible assumption | (with_reducible refine State.raise_keeps ?_) | with_reducible refine kRes_next ?_))

theorem execWatchdogExpiry_keeps {s0 : State} {s : State} (h : Keeps s0 s) : KRes s0 (execWatchdogExpiry s) := by
  unfold execWatchdogExpiry
  (repeat' (first
    | with_reducible assumption | (with_reducible refine wdtExpiry_keeps ?_) | with_reducible refine kRes_next ?_))

theorem execRtcCrystalStart_keeps {s0 : State} {s : State} (h : Keeps s0 s) : KRes s0 (execRtcCrystalStart s) := by
  unfold execRtcCrystalStart
  (repeat' (first
    | with_reducible assumption | (with_reducible refine State.raise_keeps ?_) | with_reducible refine kRes_next ?_))

theorem execMainRailLow_keeps {s0 : State} {recorded : Nat} {us : Nat} {s : State} (h : Keeps s0 s) : KRes s0 (execMainRailLow
    recorded us s) := by
  unfold execMainRailLow
  (repeat' (first
    | with_reducible assumption | (with_reducible refine cutFlush_keeps ?_) | (with_reducible refine countCycle_keeps ?_)
    | (with_reducible refine coldReset_keeps ?_) | with_reducible refine kRes_next ?_))

theorem execTapBypass_keeps {s0 : State} {s : State} (h : Keeps s0 s) : KRes s0 (execTapBypass s) := by
  unfold execTapBypass
  (repeat' (first | with_reducible assumption | (with_reducible refine tapIr_keeps ?_) | with_reducible refine kRes_next ?_))

theorem execPostflushRelease_keeps {s0 : State} {die : Int} {s : State} (h : Keeps s0 s) : KRes s0 (execPostflushRelease die s)
    := by
  unfold execPostflushRelease
  (repeat' (first
    | with_reducible assumption | (with_reducible refine holdRelease_keeps ?_) | with_reducible refine kRes_next ?_))

theorem execRootPllLockLoss_keeps {s0 : State} {s : State} (h : Keeps s0 s) : KRes s0 (execRootPllLockLoss s) := by
  unfold execRootPllLockLoss
  (repeat' (first | with_reducible assumption | (with_reducible refine pllLoss_keeps ?_) | with_reducible refine kRes_next ?_))

theorem execAonPowerOn_keeps {s0 : State} {s : State} (h : Keeps s0 s) : KRes s0 (execAonPowerOn s) := by
  unfold execAonPowerOn
  (repeat' (first
    | with_reducible assumption | (with_reducible refine powerOnReset_keeps ?_) | with_reducible refine kRes_next ?_))

theorem execTapSamplePreload_keeps {s0 : State} {levels : Nat} {shifted : Nat} {s : State} (h : Keeps s0 s) : KRes s0
    (execTapSamplePreload levels shifted s) := by
  unfold execTapSamplePreload
  (repeat' (first | with_reducible assumption | (with_reducible refine tapScan_keeps ?_) | with_reducible refine kRes_next ?_))

theorem execColdReset_keeps {s0 : State} {s : State} (h : Keeps s0 s) : KRes s0 (execColdReset s) := by
  unfold execColdReset
  (repeat' (first
    | with_reducible assumption | (with_reducible refine sysRstLow_keeps ?_) | with_reducible refine kRes_next ?_))

theorem execWarmReset_keeps {s0 : State} {rq : Requester} {s : State} (h : Keeps s0 s) : KRes s0 (execWarmReset rq s) := by
  unfold execWarmReset
  (repeat' (first | with_reducible assumption | (with_reducible refine warmBy_keeps ?_) | with_reducible refine kRes_next ?_))

theorem execWatchdogWarn_keeps {s0 : State} {s : State} (h : Keeps s0 s) : KRes s0 (execWatchdogWarn s) := by
  unfold execWatchdogWarn
  (repeat' (first | with_reducible assumption | (with_reducible refine wdtWarn_keeps ?_) | with_reducible refine kRes_next ?_))

end Sys2Proof.Machine
end

