-- ==== Sys2Proof/Laws/Keeps6.lean ====
section
/-! SUPPORT. Sys2Proof/Laws/Keeps6.lean: what each operation of Reg, RegView, Access, Exc, Alu keeps (`Keeps`). -/

set_option Elab.async false
set_option linter.unusedVariables false

namespace Sys2Proof.Machine

/-! ### Reg -/

theorem setLegal_keeps {s0 : State} {s : State} {b : BlockId} {f : Fld} {x : Nat} {ok : Bool} (h : Keeps s0 s) : Keeps s0
    (setLegal s b f x ok) := by
  unfold setLegal
  (repeat' (first
    | with_reducible assumption | (with_reducible refine State.setFld_keeps ?_) | (with_reducible refine setCfgErr_keeps ?_)
    | with_reducible refine keeps_ite ?_ ?_))

theorem writeField_keeps {s0 s1 s : State} {b : BlockId} {o v : Nat} {f : CardField} (h : Keeps s0 s) :
    Keeps s0 (writeField s1 b o v s f) := by
  unfold writeField
  dsimp only
  refine keeps_ite h ?_
  split
  · exact h
  · exact setLegal_keeps h
  · exact keeps_ite h (setCfgErr_keeps h)
  · exact State.setFld_keeps h
  · exact State.setFld_keeps h
  · exact keeps_ite (keeps_ite h (setCfgErr_keeps h)) (setLegal_keeps h)


theorem writeCodes_keeps {s0 : State} {s : State} {b : BlockId} {o : Nat} {v : Nat} (h : Keeps s0 s) : Keeps s0 (writeCodes s b
    o v) := by
  unfold writeCodes
  (repeat' (first
    | with_reducible assumption | (with_reducible refine writeField_keeps ?_)
    | with_reducible refine keeps_foldl (fun _ _ _ => ?_) ?_ | split))

theorem ftlaWrite_keeps {s0 : State} {s : State} {o : Nat} {v : Nat} (h : Keeps s0 s) : Keeps s0 (ftlaWrite s o v) := by
  unfold ftlaWrite
  (repeat' (first
    | with_reducible assumption | (with_reducible refine setClaimErr_keeps ?_) | (with_reducible refine writeCodes_keeps ?_)
    | (with_reducible refine gcUpdate_keeps ?_) | (with_reducible refine startScan_keeps ?_)
    | with_reducible refine keeps_ite ?_ ?_))

theorem flowWrite_keeps {s0 : State} {s : State} {o : Nat} {v : Nat} (h : Keeps s0 s) : Keeps s0 (flowWrite s o v) := by
  unfold flowWrite
  (repeat' (first
    | with_reducible assumption | (with_reducible refine flowCmd_keeps ?_) | (with_reducible refine writeCodes_keeps ?_)
    | with_reducible refine keeps_ite ?_ ?_))

theorem ownWrite_keeps {s0 : State} {s : State} {b : BlockId} {op : Nat} {claim : State → State} {release : State → State} (h :
    Keeps s0 s) (h_claim : ∀ z0, Keeps s0 z0 → Keeps s0 (claim z0)) (h_release : ∀ z0, Keeps s0 z0 → Keeps s0 (release z0)) :
    Keeps s0 (ownWrite s b op claim release) := by
  unfold ownWrite
  (repeat' (first
    | (with_reducible refine setCfgErr_keeps ?_) | with_reducible refine keeps_ite ?_ ?_ | with_reducible apply_assumption))

theorem digCtrl_keeps {s0 : State} {s : State} {who : Who} {n : Nat} {v : Nat} (h : Keeps s0 s) : Keeps s0 (digCtrl s who n v)
    := by
  unfold digCtrl
  (repeat' (first
    | with_reducible assumption | (with_reducible refine digCompare_keeps ?_) | (with_reducible refine digDrive_keeps ?_ ?_)
    | (with_reducible refine digInit_keeps ?_) | (with_reducible refine digFinal_keeps ?_)
    | (with_reducible refine writeCodes_keeps ?_) | (with_reducible refine State.raise_keeps ?_)
    | (with_reducible refine digWipe_keeps ?_) | (with_reducible refine digAbsorbCtx_keeps ?_)
    | (with_reducible refine digFeed_keeps ?_) | with_reducible refine keeps_ite ?_ ?_ | intro _))

theorem digCtxWrite_keeps {s0 : State} {s : State} {who : Who} {n : Nat} {r : Nat} {v : Nat} (h : Keeps s0 s) : Keeps s0
    (digCtxWrite s who n r v) := by
  unfold digCtxWrite
  (repeat' (first
    | with_reducible assumption | (with_reducible refine digRelease_keeps ?_) | (with_reducible refine writeCodes_keeps ?_)
    | (with_reducible refine ownWrite_keeps ?_ ?_ ?_) | (with_reducible refine digRefuse_keeps ?_)
    | (with_reducible refine digCtrl_keeps ?_) | (with_reducible refine digClaim_keeps ?_)
    | with_reducible refine keeps_ite ?_ ?_ | intro _))

theorem digestWrite_keeps {s0 : State} {s : State} {rq : Requester} {o : Nat} {v : Nat} (h : Keeps s0 s) : Keeps s0
    (digestWrite s rq o v) := by
  unfold digestWrite
  (repeat' (first
    | with_reducible assumption | (with_reducible refine digCtxWrite_keeps ?_) | (with_reducible refine writeCodes_keeps ?_)
    | with_reducible refine keeps_ite ?_ ?_))

theorem cstoreWrite_keeps {s0 : State} {s : State} {rq : Requester} {o : Nat} {v : Nat} (h : Keeps s0 s) : Keeps s0
    (cstoreWrite s rq o v) := by
  unfold cstoreWrite
  (repeat' (first
    | with_reducible assumption | (with_reducible refine gateReject_keeps ?_) | (with_reducible refine writeCodes_keeps ?_)
    | (with_reducible refine csGo_keeps ?_) | with_reducible refine keeps_ite ?_ ?_))

theorem keysWrite_keeps {s0 : State} {s : State} {rq : Requester} {o : Nat} {v : Nat} (h : Keeps s0 s) : Keeps s0 (keysWrite s
    rq o v) := by
  unfold keysWrite
  (repeat' (first
    | with_reducible assumption | (with_reducible refine keysCmd_keeps ?_) | (with_reducible refine lifecycleAdvance_keeps ?_)
    | (with_reducible refine writeCodes_keeps ?_) | with_reducible refine keeps_ite ?_ ?_))

theorem mcmdWrite_keeps {s0 : State} {s : State} {t_ : Nat} {v : Nat} (h : Keeps s0 s) : Keeps s0 (mcmdWrite s t_ v) := by
  unfold mcmdWrite
  (repeat' (first
    | with_reducible assumption | (with_reducible refine writeCodes_keeps ?_) | (with_reducible refine mariResume_keeps ?_)
    | (with_reducible refine mariAbort_keeps ?_) | (with_reducible refine mariStart_keeps ?_)
    | with_reducible refine keeps_ite ?_ ?_))

theorem tileDmaWrite_keeps {s0 : State} {s : State} {t_ : Nat} {v : Nat} (h : Keeps s0 s) : Keeps s0 (tileDmaWrite s t_ v) := by
  unfold tileDmaWrite
  (repeat' (first
    | with_reducible assumption | (with_reducible refine dmaRefuse_keeps ?_) | (with_reducible refine dmaRelease_keeps ?_)
    | (with_reducible refine dmaAbort_keeps ?_) | (with_reducible refine dmaUnpause_keeps ?_)
    | (with_reducible refine State.setFlds_keeps ?_) | (with_reducible refine dmaClaim_keeps ?_)
    | (with_reducible refine writeCodes_keeps ?_) | (with_reducible refine dmaPause_keeps ?_)
    | (with_reducible refine dmaGo_keeps ?_) | with_reducible refine keeps_ite ?_ ?_))

theorem cacheEnable_keeps {s0 : State} {s : State} {c : Nat} {en : Fld} {ok : Fld} {want : Bool} {inv : Bool} {busy : Bool} (h
    : Keeps s0 s) : Keeps s0 (cacheEnable s c en ok want inv busy).1 := by
  unfold cacheEnable
  (repeat' (first
    | with_reducible assumption | (with_reducible refine State.setFlds_keeps ?_) | (with_reducible refine State.raise_keeps ?_)
    | (with_reducible refine cacheErr_keeps ?_) | split))

theorem cacheEnable_keeps_e {s0 : State} {s : State} {c : Nat} {en : Fld} {ok : Fld} {want : Bool} {inv : Bool} {busy : Bool}
    {x0} {t : State} (h : Keeps s0 s) (e : cacheEnable s c en ok want inv busy = (t, x0)) : Keeps s0 t := by
  have k := cacheEnable_keeps (s0 := s0) (s := s) (c := c) (en := en) (ok := ok) (want := want) (inv := inv) (busy := busy) h
  rw [e] at k
  exact k

theorem cacheControl_keeps {s0 : State} {s0_ : State} {c : Nat} {v : Nat} (h : Keeps s0 s0_) : Keeps s0 (cacheControl s0_ c v)
    := by
  unfold cacheControl
  (repeat' (first
    | with_reducible assumption | (with_reducible refine cacheEnable_keeps ?_) | (with_reducible refine cleanAll_keeps ?_)
    | (with_reducible refine State.clear_keeps ?_) | (with_reducible refine State.raise_keeps ?_)
    | (with_reducible refine State.setCore_keeps ?_) | (with_reducible refine dropAll_keeps ?_)
    | (with_reducible refine dropAllI_keeps ?_) | with_reducible refine keeps_ite ?_ ?_))

theorem cacheControlBy_keeps {s0 : State} {s : State} {rq : Requester} {c : Nat} {v : Nat} (h : Keeps s0 s) : Keeps s0
    (cacheControlBy s rq c v) := by
  unfold cacheControlBy
  (repeat' (first
    | with_reducible assumption | (with_reducible refine setClaimErr_keeps ?_) | (with_reducible refine cacheControl_keeps ?_)
    | (with_reducible refine tileClaimErr_keeps ?_) | with_reducible refine keeps_ite ?_ ?_))

theorem streamWrite_keeps {s0 : State} {s : State} {t_ : Nat} {o : Nat} {v : Nat} (h : Keeps s0 s) : Keeps s0 (streamWrite s t_
    o v) := by
  unfold streamWrite
  (repeat' (first
    | with_reducible assumption | (with_reducible refine writeCodes_keeps ?_) | (with_reducible refine tileClaimErr_keeps ?_)
    | (with_reducible refine updMari_keeps ?_) | with_reducible refine keeps_ite ?_ ?_))

theorem tileWrite_keeps {s0 : State} {s : State} {rq : Requester} {t_ : Nat} {o : Nat} {v : Nat} (h : Keeps s0 s) : Keeps s0
    (tileWrite s rq t_ o v) := by
  unfold tileWrite
  (repeat' (first
    | with_reducible assumption | (with_reducible refine tileDjob_keeps ?_) | (with_reducible refine tileReset_keeps ?_)
    | (with_reducible refine mcmdWrite_keeps ?_) | (with_reducible refine digCtxWrite_keeps ?_)
    | (with_reducible refine codecClose_keeps ?_) | (with_reducible refine tileDmaWrite_keeps ?_)
    | (with_reducible refine writeCodes_keeps ?_) | (with_reducible refine codecSelect_keeps ?_)
    | (with_reducible refine cacheControlBy_keeps ?_) | (with_reducible refine ringDoorbell_keeps ?_)
    | (with_reducible refine streamWrite_keeps ?_) | with_reducible refine keeps_ite ?_ ?_))

theorem wdtWrite_keeps {s0 : State} {s : State} {o : Nat} {v : Nat} (h : Keeps s0 s) : Keeps s0 (wdtWrite s o v) := by
  unfold wdtWrite
  (repeat' (first
    | with_reducible assumption | (with_reducible refine writeCodes_keeps ?_) | (with_reducible refine wdtBootOk_keeps ?_)
    | (with_reducible refine wdtKick_keeps ?_) | with_reducible refine keeps_ite ?_ ?_))

theorem sysWrite_keeps {s0 : State} {s : State} {rq : Requester} {o : Nat} {v : Nat} (h : Keeps s0 s) : Keeps s0 (sysWrite s rq
    o v) := by
  unfold sysWrite
  (repeat' (first
    | with_reducible assumption | (with_reducible refine writeCodes_keeps ?_) | (with_reducible refine warmBy_keeps ?_)
    | (with_reducible refine setCfgErr_keeps ?_) | (with_reducible refine cacheControlBy_keeps ?_)
    | (with_reducible refine houseRun_keeps ?_) | with_reducible refine keeps_ite ?_ ?_))

theorem dramWrite_keeps {s0 : State} {s : State} {o : Nat} {v : Nat} (h : Keeps s0 s) : Keeps s0 (dramWrite s o v) := by
  unfold dramWrite
  (repeat' (first
    | with_reducible assumption | (with_reducible refine setClaimErr_keeps ?_) | (with_reducible refine writeCodes_keeps ?_)
    | with_reducible refine keeps_ite ?_ ?_))

theorem ruleWrite_keeps {s0 : State} {s : State} {o : Nat} {v : Nat} (h : Keeps s0 s) : Keeps s0 (ruleWrite s o v) := by
  unfold ruleWrite
  (repeat' (first
    | with_reducible assumption | (with_reducible refine ruleInsert_keeps ?_) | (with_reducible refine setClaimErr_keeps ?_)
    | (with_reducible refine writeCodes_keeps ?_) | (with_reducible refine ruleDelete_keeps ?_)
    | with_reducible refine keeps_ite ?_ ?_))

theorem fabWrite_keeps {s0 : State} {s : State} {o : Nat} {v : Nat} (h : Keeps s0 s) : Keeps s0 (fabWrite s o v) := by
  unfold fabWrite
  (repeat' (first
    | with_reducible assumption | (with_reducible refine hwTagGo_keeps ?_) | (with_reducible refine timeSet_keeps ?_)
    | (with_reducible refine writeCodes_keeps ?_) | with_reducible refine keeps_ite ?_ ?_))

theorem vaultCmdWrite_keeps {s0 : State} {s : State} {w : Who} {v : Nat} (h : Keeps s0 s) : Keeps s0 (vaultCmdWrite s w v) := by
  unfold vaultCmdWrite
  (repeat' (first
    | with_reducible assumption | (with_reducible refine vaultWrap_keeps ?_) | (with_reducible refine vaultStep_keeps ?_)
    | (with_reducible refine vaultOpen_keeps ?_) | (with_reducible refine vaultCmd_keeps ?_ ?_)
    | (with_reducible refine vaultClose_keeps ?_) | (with_reducible refine writeCodes_keeps ?_)
    | (with_reducible refine vaultUnwrap_keeps ?_) | with_reducible refine keeps_ite ?_ ?_ | intro _))

theorem vaultWrite_keeps {s0 : State} {s : State} {rq : Requester} {o : Nat} {v : Nat} (h : Keeps s0 s) : Keeps s0 (vaultWrite
    s rq o v) := by
  unfold vaultWrite
  (repeat' (first
    | with_reducible assumption | (with_reducible refine setClaimErr_keeps ?_) | (with_reducible refine vaultRelease_keeps ?_)
    | (with_reducible refine vaultCmdWrite_keeps ?_) | (with_reducible refine writeCodes_keeps ?_)
    | (with_reducible refine vaultAcquire_keeps ?_) | split))

theorem dmaCtrl_keeps {s0 : State} {s : State} {who : Who} {ch : Nat} {v : Nat} (h : Keeps s0 s) : Keeps s0 (dmaCtrl s who ch
    v) := by
  unfold dmaCtrl
  (repeat' (first
    | with_reducible assumption | (with_reducible refine dmaAbort_keeps ?_) | (with_reducible refine dmaUnpause_keeps ?_)
    | (with_reducible refine State.setFld_keeps ?_) | (with_reducible refine dmaPause_keeps ?_)
    | (with_reducible refine dmaGo_keeps ?_) | (with_reducible refine dmaKick_keeps ?_)
    | with_reducible refine keeps_ite ?_ ?_))

theorem dmaChWrite_keeps {s0 : State} {s : State} {rq : Requester} {ch : Nat} {r : Nat} {o : Nat} {v : Nat} (h : Keeps s0 s) :
    Keeps s0 (dmaChWrite s rq ch r o v) := by
  unfold dmaChWrite
  (repeat' (first
    | with_reducible assumption | (with_reducible refine dmaRefuse_keeps ?_) | (with_reducible refine dmaRelease_keeps ?_)
    | (with_reducible refine dmaCtrl_keeps ?_) | (with_reducible refine dmaClaim_keeps ?_)
    | (with_reducible refine writeCodes_keeps ?_) | (with_reducible refine ownWrite_keeps ?_ ?_ ?_)
    | with_reducible refine keeps_ite ?_ ?_ | intro _))

theorem dmaWrite_keeps {s0 : State} {s : State} {rq : Requester} {o : Nat} {v : Nat} (h : Keeps s0 s) : Keeps s0 (dmaWrite s rq
    o v) := by
  unfold dmaWrite
  (repeat' (first
    | with_reducible assumption | (with_reducible refine dmaHeadWrite_keeps ?_) | (with_reducible refine dmaEventSet_keeps ?_)
    | (with_reducible refine writeCodes_keeps ?_) | (with_reducible refine dmaChWrite_keeps ?_)
    | with_reducible refine keeps_ite ?_ ?_))

theorem gpioWrite_keeps {s0 : State} {s : State} {rq : Requester} {o : Nat} {v : Nat} (h : Keeps s0 s) : Keeps s0 (gpioWrite s
    rq o v) := by
  unfold gpioWrite
  (repeat' (first
    | with_reducible assumption | (with_reducible refine gpioClaim_keeps ?_) | (with_reducible refine State.setFld_keeps ?_)
    | (with_reducible refine writeCodes_keeps ?_) | (with_reducible refine ownWrite_keeps ?_ ?_ ?_)
    | (with_reducible refine gpioRelease_keeps ?_) | with_reducible refine keeps_ite ?_ ?_ | intro _))

theorem eccWrite_keeps {s0 : State} {s : State} {rq : Requester} {o : Nat} {v : Nat} (h : Keeps s0 s) : Keeps s0 (eccWrite s rq
    o v) := by
  unfold eccWrite
  (repeat' (first
    | with_reducible assumption | (with_reducible refine repairGo_keeps ?_) | (with_reducible refine setClaimErr_keeps ?_)
    | (with_reducible refine testOp_keeps ?_) | (with_reducible refine writeCodes_keeps ?_)
    | with_reducible refine keeps_ite ?_ ?_))

theorem blockBody_keeps {s0 : State} {s : State} {rq : Requester} {b : BlockId} {o : Nat} {v : Nat} (h : Keeps s0 s) : Keeps s0
    (blockBody s rq b o v) := by
  unfold blockBody
  (repeat' (first
    | with_reducible assumption | (with_reducible refine ftlaWrite_keeps ?_) | (with_reducible refine dqTailWrite_keeps ?_)
    | (with_reducible refine flowWrite_keeps ?_) | (with_reducible refine digestWrite_keeps ?_)
    | (with_reducible refine clearBlocked_keeps ?_) | (with_reducible refine cstoreWrite_keeps ?_)
    | (with_reducible refine keysWrite_keeps ?_) | (with_reducible refine tileWrite_keeps ?_)
    | (with_reducible refine writeCodes_keeps ?_) | (with_reducible refine holdSave_keeps ?_)
    | (with_reducible refine wdtWrite_keeps ?_) | (with_reducible refine sysWrite_keeps ?_)
    | (with_reducible refine dramWrite_keeps ?_) | (with_reducible refine ruleWrite_keeps ?_)
    | (with_reducible refine fabWrite_keeps ?_) | (with_reducible refine vaultWrite_keeps ?_)
    | (with_reducible refine dmaWrite_keeps ?_) | (with_reducible refine gpioWrite_keeps ?_)
    | (with_reducible refine thermSave_keeps ?_) | (with_reducible refine eccWrite_keeps ?_) | split))

theorem blockWrite_keeps {s0 : State} {s : State} {rq : Requester} {b : BlockId} {o : Nat} {v : Nat} (h : Keeps s0 s) : Keeps
    s0 (blockWrite s rq b o v) := by
  unfold blockWrite
  (repeat' (first
    | with_reducible assumption | (with_reducible refine blockBody_keeps ?_) | (with_reducible refine writeEn_keeps ?_)
    | with_reducible refine keeps_ite ?_ ?_))

theorem regWrite_keeps {s0 : State} {s : State} {rq : Requester} {off : Nat} {v : Nat} (h : Keeps s0 s) : KOpt (fun x => Keeps
    s0 x) (regWrite s rq off v) := by
  unfold regWrite
  (repeat' (first
    | with_reducible assumption | (with_reducible refine blockWrite_keeps ?_) | with_reducible exact kOpt_none
    | with_reducible refine kOpt_some ?_ | split))

theorem regWrite_keeps_e {s0 : State} {s : State} {rq : Requester} {off : Nat} {v : Nat} {t : State} (h : Keeps s0 s) (e :
    regWrite s rq off v = .some t) : Keeps s0 t := by
  have k := regWrite_keeps (s0 := s0) (s := s) (rq := rq) (off := off) (v := v) h
  rw [e] at k
  exact k

theorem invalidateDone_keeps {s0 : State} {s : State} {c : Nat} (h : Keeps s0 s) : Keeps s0 (invalidateDone s c) := by
  unfold invalidateDone
  (repeat' (first
    | with_reducible assumption | (with_reducible refine State.clear_keeps ?_) | (with_reducible refine State.raise_keeps ?_)
    | (with_reducible refine State.setCore_keeps ?_) | split))

theorem regWrite64_keeps {s0 : State} {s : State} {rq : Requester} {off : Nat} {v : Nat} (h : Keeps s0 s) : KOpt (fun x =>
    Keeps s0 x) (regWrite64 s rq off v) := by
  unfold regWrite64
  (repeat' (first
    | with_reducible assumption | (with_reducible refine regWrite_keeps ?_)
    | (with_reducible refine regWrite_keeps_e ?_ (by assumption)) | with_reducible exact kOpt_none | split))

theorem regWrite64_keeps_e {s0 : State} {s : State} {rq : Requester} {off : Nat} {v : Nat} {t : State} (h : Keeps s0 s) (e :
    regWrite64 s rq off v = .some t) : Keeps s0 t := by
  have k := regWrite64_keeps (s0 := s0) (s := s) (rq := rq) (off := off) (v := v) h
  rw [e] at k
  exact k

/-! ### RegView -/

theorem cstoreStatus_keeps {s0 : State} {s : State} {n : Nat} (h : Keeps s0 s) : Keeps s0 (cstoreStatus s n).2 := by
  unfold cstoreStatus
  (repeat' (first | with_reducible assumption | (with_reducible refine State.fresh_keeps ?_) | split))

theorem cstoreStatus_keeps_e {s0 : State} {s : State} {n : Nat} {x0} {t : State} (h : Keeps s0 s) (e : cstoreStatus s n = (x0,
    t)) : Keeps s0 t := by
  have k := cstoreStatus_keeps (s0 := s0) (s := s) (n := n) h
  rw [e] at k
  exact k

theorem timeView_keeps {s0 : State} {s : State} {o : Nat} (h : Keeps s0 s) : Keeps s0 (timeView s o).2 := by
  unfold timeView
  (repeat' (first | with_reducible assumption | split | fail_if_no_progress (with_reducible refine Keeps.upd ?_)))

theorem timeView_keeps_e {s0 : State} {s : State} {o : Nat} {x0} {t : State} (h : Keeps s0 s) (e : timeView s o = (x0, t)) :
    Keeps s0 t := by
  have k := timeView_keeps (s0 := s0) (s := s) (o := o) h
  rw [e] at k
  exact k

theorem blockView_keeps {s0 : State} {s : State} {rq : Requester} {b : BlockId} {o : Nat} {n : Nat} (h : Keeps s0 s) : Keeps s0
    (blockView s rq b o n).2 := by
  unfold blockView
  (repeat' (first
    | with_reducible assumption | (with_reducible refine setClaimErr_keeps ?_) | (with_reducible refine cstoreStatus_keeps ?_)
    | (with_reducible refine timeView_keeps ?_) | (with_reducible refine rngRead_keeps ?_) | split))

theorem blockView_keeps_e {s0 : State} {s : State} {rq : Requester} {b : BlockId} {o : Nat} {n : Nat} {x0} {t : State} (h :
    Keeps s0 s) (e : blockView s rq b o n = (x0, t)) : Keeps s0 t := by
  have k := blockView_keeps (s0 := s0) (s := s) (rq := rq) (b := b) (o := o) (n := n) h
  rw [e] at k
  exact k

theorem regRead_keeps {s0 : State} {s : State} {rq : Requester} {off : Nat} (h : Keeps s0 s) : KOpt (fun x => Keeps s0 x.2)
    (regRead s rq off) := by
  unfold regRead
  (repeat' (first
    | with_reducible assumption | (with_reducible refine blockView_keeps ?_) | with_reducible exact kOpt_none
    | with_reducible refine kOpt_some ?_ | split))

theorem regRead_keeps_e {s0 : State} {s : State} {rq : Requester} {off : Nat} {x10} {t : State} (h : Keeps s0 s) (e : regRead s
    rq off = .some (x10, t)) : Keeps s0 t := by
  have k := regRead_keeps (s0 := s0) (s := s) (rq := rq) (off := off) h
  rw [e] at k
  exact k

theorem regRead64_keeps {s0 : State} {s : State} {rq : Requester} {off : Nat} (h : Keeps s0 s) : KOpt (fun x => Keeps s0 x.2)
    (regRead64 s rq off) := by
  unfold regRead64
  (repeat' (first
    | with_reducible assumption | (with_reducible refine regRead_keeps_e ?_ (by assumption)) | with_reducible exact kOpt_none
    | with_reducible refine kOpt_some ?_ | split))

theorem regRead64_keeps_e {s0 : State} {s : State} {rq : Requester} {off : Nat} {x10} {t : State} (h : Keeps s0 s) (e :
    regRead64 s rq off = .some (x10, t)) : Keeps s0 t := by
  have k := regRead64_keeps (s0 := s0) (s := s) (rq := rq) (off := off) h
  rw [e] at k
  exact k

/-! ### Access -/

theorem settleEv_keeps {s0 : State} {s : State} {c : Nat} {g : Nat} (h : Keeps s0 s) : Keeps s0 (settleEv s c g) := by
  unfold settleEv
  (repeat' (first
    | with_reducible assumption | (with_reducible refine evictAll_keeps ?_) | with_reducible refine keeps_ite ?_ ?_))

theorem fillMarks_keeps {s0 s : State} {g : Nat} (h : Keeps s0 s) : Keeps s0 (fillMarks s g).1 := by
  unfold fillMarks
  split
  · exact noteWord_keeps h
  · have go : ∀ (l : List Nat) (p : State × List (Nat × Nat)), Keeps s0 p.1 →
        Keeps s0 (l.foldl (fun (acc : State × List (Nat × Nat)) i =>
          ((noteWord acc.1 (g + 8 * i)).1, if (noteWord acc.1 (g + 8 * i)).2 then tblSet 0 acc.2 i 0xFF else acc.2)) p).1 := by
      intro l
      induction l with
      | nil => exact fun _ k => k
      | cons i l ih => exact fun p k => ih _ (noteWord_keeps k)
    exact go _ (s, []) h

theorem fillMarks_keeps_e {s0 s : State} {g : Nat} {x : List (Nat × Nat)} {t : State} (h : Keeps s0 s) (e : fillMarks s g = (t,
    x)) :
    Keeps s0 t := by
  have k := fillMarks_keeps (g := g) h
  rw [e] at k
  exact k


theorem dcMiss_keeps {s0 : State} {s : State} {c : Nat} {g : Nat} {load : Bool} (h : Keeps s0 s) : Keeps s0 (dcMiss s c g
    load).2 := by
  unfold dcMiss
  (repeat' (first
    | with_reducible assumption | (with_reducible refine makeRoom_keeps ?_) | (with_reducible refine fillMarks_keeps ?_)
    | (with_reducible refine State.setCore_keeps ?_) | dsimp only | split))

theorem dcMiss_keeps_e {s0 : State} {s : State} {c : Nat} {g : Nat} {load : Bool} {x0} {t : State} (h : Keeps s0 s) (e : dcMiss
    s c g load = (x0, t)) : Keeps s0 t := by
  have k := dcMiss_keeps (s0 := s0) (s := s) (c := c) (g := g) (load := load) h
  rw [e] at k
  exact k

theorem noteDcue_keeps {s0 : State} {s : State} {c : Nat} (h : Keeps s0 s) : Keeps s0 (noteDcue s c) := by
  unfold noteDcue
  (repeat' (first
    | with_reducible assumption | (with_reducible refine State.raise_keeps ?_) | with_reducible refine keeps_ite ?_ ?_))

theorem dcCheck_keeps {s0 : State} {s : State} {c : Nat} {slot : Nat} {l : Line} {i : Nat} (h : Keeps s0 s) : KLook s0 (dcCheck
    s c slot l i) := by
  unfold dcCheck
  (repeat' (first
    | with_reducible assumption | (with_reducible refine noteDcue_keeps ?_) | (with_reducible refine dropSlot_keeps ?_)
    | (with_reducible refine State.setCore_keeps ?_) | (with_reducible refine countUe_keeps ?_)
    | (with_reducible refine countCe_keeps ?_) | with_reducible refine kLook_use ?_ | with_reducible refine kLook_gone ?_
    | with_reducible refine kLook_bad ?_ | split))

theorem dcCheck_keeps_e0 {s0 : State} {s : State} {c : Nat} {slot : Nat} {l : Line} {i : Nat} {t : State} (h : Keeps s0 s) (e :
    dcCheck s c slot l i = .use t) : Keeps s0 t := by
  have k := dcCheck_keeps (s0 := s0) (s := s) (c := c) (slot := slot) (l := l) (i := i) h
  rw [e] at k
  exact k

theorem dcCheck_keeps_e1 {s0 : State} {s : State} {c : Nat} {slot : Nat} {l : Line} {i : Nat} {t : State} (h : Keeps s0 s) (e :
    dcCheck s c slot l i = .gone t) : Keeps s0 t := by
  have k := dcCheck_keeps (s0 := s0) (s := s) (c := c) (slot := slot) (l := l) (i := i) h
  rw [e] at k
  exact k

theorem dcCheck_keeps_e2 {s0 : State} {s : State} {c : Nat} {slot : Nat} {l : Line} {i : Nat} {t : State} (h : Keeps s0 s) (e :
    dcCheck s c slot l i = .bad t) : Keeps s0 t := by
  have k := dcCheck_keeps (s0 := s0) (s := s) (c := c) (slot := slot) (l := l) (i := i) h
  rw [e] at k
  exact k

theorem dcLine_keeps {s0 : State} {s : State} {c : Nat} {g : Nat} {load : Bool} (h : Keeps s0 s) : Keeps s0 (dcLine s c g
    load).2 := by
  unfold dcLine
  (repeat' (first
    | with_reducible assumption | (with_reducible refine dcMiss_keeps ?_)
    | (with_reducible refine dcCheck_keeps_e0 ?_ (by assumption)) | (with_reducible refine dcCheck_keeps_e1 ?_ (by assumption))
    | (with_reducible refine dcCheck_keeps_e2 ?_ (by assumption)) | split))

theorem dcLine_keeps_e {s0 : State} {s : State} {c : Nat} {g : Nat} {load : Bool} {x0} {t : State} (h : Keeps s0 s) (e : dcLine
    s c g load = (x0, t)) : Keeps s0 t := by
  have k := dcLine_keeps (s0 := s0) (s := s) (c := c) (g := g) (load := load) h
  rw [e] at k
  exact k

theorem dcStore_keeps {s0 : State} {s : State} {c : Nat} {g : Nat} {bs : List Byte} (h : Keeps s0 s) : Keeps s0 (dcStore s c g
    bs) := by
  unfold dcStore
  (repeat' (first
    | with_reducible assumption | (with_reducible refine dcLine_keeps_e ?_ (by assumption))
    | (with_reducible refine State.setCore_keeps ?_) | split))

theorem coreStore_keeps {s0 : State} {s : State} {c : Nat} {kind : AccKind} {a : Word} {n : Nat} {v : Nat} (h : Keeps s0 s) :
    KAcc s0 (coreStore s c kind a n v) := by
  unfold coreStore
  (repeat' (first
    | with_reducible assumption | (with_reducible refine regWrite_keeps_e ?_ (by assumption))
    | (with_reducible refine settleEv_keeps ?_) | (with_reducible refine coreWrite_keeps ?_)
    | (with_reducible refine dcStore_keeps ?_) | with_reducible refine kAcc_ok ?_ | with_reducible refine kAcc_trap ?_
    | split))

theorem coreStore_keeps_e0 {s0 : State} {s : State} {c : Nat} {kind : AccKind} {a : Word} {n : Nat} {v : Nat} {x0} {t : State}
    (h : Keeps s0 s) (e : coreStore s c kind a n v = .ok x0 t) : Keeps s0 t := by
  have k := coreStore_keeps (s0 := s0) (s := s) (c := c) (kind := kind) (a := a) (n := n) (v := v) h
  rw [e] at k
  exact k

theorem coreStore_keeps_e1 {s0 : State} {s : State} {c : Nat} {kind : AccKind} {a : Word} {n : Nat} {v : Nat} {x0} {t : State}
    (h : Keeps s0 s) (e : coreStore s c kind a n v = .trap x0 t) : Keeps s0 t := by
  have k := coreStore_keeps (s0 := s0) (s := s) (c := c) (kind := kind) (a := a) (n := n) (v := v) h
  rw [e] at k
  exact k

theorem icMiss_keeps {s0 : State} {s : State} {c : Nat} {g : Nat} (h : Keeps s0 s) : Keeps s0 (icMiss s c g).2 := by
  unfold icMiss
  (repeat' (first
    | with_reducible assumption | (with_reducible refine fillMarks_keeps ?_) | (with_reducible refine State.setCore_keeps ?_)
    | (with_reducible refine makeRoomI_keeps ?_) | dsimp only | split))

theorem icMiss_keeps_e {s0 : State} {s : State} {c : Nat} {g : Nat} {x0} {t : State} (h : Keeps s0 s) (e : icMiss s c g = (x0,
    t)) : Keeps s0 t := by
  have k := icMiss_keeps (s0 := s0) (s := s) (c := c) (g := g) h
  rw [e] at k
  exact k

theorem icLine_keeps {s0 : State} {s : State} {c : Nat} {g : Nat} (h : Keeps s0 s) : Keeps s0 (icLine s c g).2 := by
  unfold icLine
  (repeat' (first
    | with_reducible assumption | (with_reducible refine icMiss_keeps ?_) | (with_reducible refine dropISlot_keeps ?_)
    | split))

theorem icLine_keeps_e {s0 : State} {s : State} {c : Nat} {g : Nat} {x0} {t : State} (h : Keeps s0 s) (e : icLine s c g = (x0,
    t)) : Keeps s0 t := by
  have k := icLine_keeps (s0 := s0) (s := s) (c := c) (g := g) h
  rw [e] at k
  exact k

theorem icLoad_keeps {s0 : State} {s : State} {c : Nat} {g : Nat} (h : Keeps s0 s) : Keeps s0 (icLoad s c g).2 := by
  unfold icLoad
  (repeat' (first
    | with_reducible assumption | (with_reducible refine icLine_keeps_e ?_ (by assumption))
    | (with_reducible refine State.setCore_keeps ?_) | split))

theorem icLoad_keeps_e {s0 : State} {s : State} {c : Nat} {g : Nat} {x0} {t : State} (h : Keeps s0 s) (e : icLoad s c g = (x0,
    t)) : Keeps s0 t := by
  have k := icLoad_keeps (s0 := s0) (s := s) (c := c) (g := g) h
  rw [e] at k
  exact k

theorem rawLoad_keeps {s0 : State} {s0_ : State} {c : Nat} {g : Nat} {n : Nat} (h : Keeps s0 s0_) : Keeps s0 (rawLoad s0_ c g
    n).2 := by
  unfold rawLoad
  (repeat' (first
    | with_reducible assumption | (with_reducible refine settleEv_keeps ?_)
    | (with_reducible refine readRam_keeps_e ?_ (by assumption)) | (with_reducible refine csDataRead_keeps ?_) | dsimp only
    | split))

theorem rawLoad_keeps_e {s0 : State} {s0_ : State} {c : Nat} {g : Nat} {n : Nat} {x0} {t : State} (h : Keeps s0 s0_) (e :
    rawLoad s0_ c g n = (x0, t)) : Keeps s0 t := by
  have k := rawLoad_keeps (s0 := s0) (s0_ := s0_) (c := c) (g := g) (n := n) h
  rw [e] at k
  exact k

theorem rawFetch_keeps {s0 : State} {s0_ : State} {c : Nat} {g : Nat} (h : Keeps s0 s0_) : Keeps s0 (rawFetch s0_ c g).2 := by
  unfold rawFetch
  (repeat' (first
    | with_reducible assumption | (with_reducible refine rawLoad_keeps ?_) | (with_reducible refine settleEv_keeps ?_)
    | dsimp only | split))

theorem rawFetch_keeps_e {s0 : State} {s0_ : State} {c : Nat} {g : Nat} {x0} {t : State} (h : Keeps s0 s0_) (e : rawFetch s0_ c
    g = (x0, t)) : Keeps s0 t := by
  have k := rawFetch_keeps (s0 := s0) (s0_ := s0_) (c := c) (g := g) h
  rw [e] at k
  exact k

theorem coreFetch_keeps {s0 s : State} {c : Nat} {a : Word} (h : Keeps s0 s) : KAcc s0 (coreFetch s c a) := by
  unfold coreFetch
  split
  · exact h
  · next g io _ =>
    dsimp only
    split
    · exact h
    · have k : Keeps s0 (if (s.flag (ccIcEn c) && !io) = true then icLoad s c g else rawFetch s c g).2 := by
        split
        · exact icLoad_keeps h
        · exact rawFetch_keeps h
      split
      · next e => rw [e] at k; exact k
      · next e => rw [e] at k; exact k

theorem coreFetch_keeps_e0 {s0 s : State} {c : Nat} {a : Word} {x : Nat} {t : State} (h : Keeps s0 s) (e : coreFetch s c a =
    .ok x t) :
    Keeps s0 t := by
  have k := coreFetch_keeps (c := c) (a := a) h
  rw [e] at k
  exact k

theorem coreFetch_keeps_e1 {s0 s : State} {c : Nat} {a : Word} {x : Trap} {t : State} (h : Keeps s0 s) (e : coreFetch s c a =
    .trap x t) :
    Keeps s0 t := by
  have k := coreFetch_keeps (c := c) (a := a) h
  rw [e] at k
  exact k


theorem dcLoad_keeps {s0 : State} {s : State} {c : Nat} {g : Nat} {n : Nat} (h : Keeps s0 s) : Keeps s0 (dcLoad s c g n).2 := by
  unfold dcLoad
  (repeat' (first
    | with_reducible assumption | (with_reducible refine dcLine_keeps_e ?_ (by assumption))
    | (with_reducible refine State.setCore_keeps ?_) | split))

theorem dcLoad_keeps_e {s0 : State} {s : State} {c : Nat} {g : Nat} {n : Nat} {x0} {t : State} (h : Keeps s0 s) (e : dcLoad s c
    g n = (x0, t)) : Keeps s0 t := by
  have k := dcLoad_keeps (s0 := s0) (s := s) (c := c) (g := g) (n := n) h
  rw [e] at k
  exact k

theorem coreLoad_keeps {s0 s : State} {c : Nat} {kind : AccKind} {a : Word} {n : Nat} (h : Keeps s0 s) : KAcc s0 (coreLoad s c
    kind a n) := by
  unfold coreLoad
  split
  · exact h
  · split
    · exact h
    · next g io _ =>
      split
      · split
        · next e => exact regRead_keeps_e h e
        · exact h
      · have k : Keeps s0 (if (dcServes s c io && !csNotCached s g n) = true then dcLoad s c g n else rawLoad s c g n).2 := by
          split
          · exact dcLoad_keeps h
          · exact rawLoad_keeps h
        dsimp only
        split
        · next e => rw [e] at k; exact k
        · next e => rw [e] at k; exact k

theorem coreLoad_keeps_e0 {s0 s : State} {c : Nat} {kind : AccKind} {a : Word} {n x : Nat} {t : State} (h : Keeps s0 s)
    (e : coreLoad s c kind a n = .ok x t) : Keeps s0 t := by
  have k := coreLoad_keeps (c := c) (kind := kind) (a := a) (n := n) h
  rw [e] at k
  exact k

theorem coreLoad_keeps_e1 {s0 s : State} {c : Nat} {kind : AccKind} {a : Word} {n : Nat} {x : Trap} {t : State} (h : Keeps s0 s)
    (e : coreLoad s c kind a n = .trap x t) : Keeps s0 t := by
  have k := coreLoad_keeps (c := c) (kind := kind) (a := a) (n := n) h
  rw [e] at k
  exact k

/-! ### Exc -/

theorem updCore_keeps {s0 : State} {s : State} {c : Nat} {f : Core → Core} (h : Keeps s0 s) : Keeps s0 (updCore s c f) := by
  unfold updCore
  (repeat' (first | with_reducible assumption | (with_reducible refine State.setCore_keeps ?_)))

theorem pushFrame_keeps {s0 : State} {s : State} {c : Nat} {sp : Word} {y3 : List Word} (h : Keeps s0 s) : KOpt (fun x => Keeps
    s0 x) (pushFrame s c sp y3) := by
  fun_induction pushFrame s c sp y3 <;> (repeat' (first
    | (with_reducible refine coreStore_keeps_e0 ?_ (by assumption)) | with_reducible apply_assumption))

theorem pushFrame_keeps_e {s0 : State} {s : State} {c : Nat} {sp : Word} {y3 : List Word} {t : State} (h : Keeps s0 s) (e :
    pushFrame s c sp y3 = .some t) : Keeps s0 t := by
  have k := pushFrame_keeps (s0 := s0) (s := s) (c := c) (sp := sp) (y3 := y3) h
  rw [e] at k
  exact k

theorem doubleFault_keeps {s0 : State} {s : State} {c : Nat} (h : Keeps s0 s) : Keeps s0 (doubleFault s c) := by
  unfold doubleFault
  (repeat' (first
    | with_reducible assumption | (with_reducible refine updCore_keeps ?_) | (with_reducible refine tileReset_keeps ?_)
    | (with_reducible refine doubleFaultReset_keeps ?_) | with_reducible refine keeps_ite ?_ ?_))

theorem takeExc_keeps {s0 : State} {s : State} {c : Nat} {t_ : Trap} {ret : Word} (h : Keeps s0 s) : Keeps s0 (takeExc s c t_
    ret) := by
  unfold takeExc
  (repeat' (first
    | with_reducible assumption | (with_reducible refine updCore_keeps ?_) | (with_reducible refine endJob_keeps ?_)
    | (with_reducible refine State.setCore_keeps ?_) | (with_reducible refine pushFrame_keeps_e ?_ (by assumption))
    | (with_reducible refine doubleFault_keeps ?_) | with_reducible refine keeps_ite ?_ ?_ | split))

theorem arrive_keeps {s0 : State} {s : State} {c : Nat} (h : Keeps s0 s) : Keeps s0 (arrive s c) := by
  unfold arrive
  (repeat' (first
    | with_reducible assumption | (with_reducible refine endJob_keeps ?_) | with_reducible refine keeps_ite ?_ ?_))

theorem retire_keeps {s0 : State} {s : State} {c : Nat} {pc : Word} {cost : Nat} (h : Keeps s0 s) : Keeps s0 (retire s c pc
    cost) := by
  unfold retire
  (repeat' (first
    | with_reducible assumption | (with_reducible refine updCore_keeps ?_) | (with_reducible refine arrive_keeps ?_)
    | with_reducible refine keeps_ite ?_ ?_))

theorem fetchInstr_keeps {s0 : State} {s : State} {c : Nat} {width : Nat} (h : Keeps s0 s) : KAcc s0 (fetchInstr s c width) :=
    by
  unfold fetchInstr
  (repeat' (first
    | with_reducible assumption | (with_reducible refine coreFetch_keeps ?_) | with_reducible refine kAcc_ok ?_
    | with_reducible refine kAcc_andThen ?_ (fun _ _ _ => ?_) | split))

theorem fetchInstr_keeps_e0 {s0 : State} {s : State} {c : Nat} {width : Nat} {x0} {t : State} (h : Keeps s0 s) (e : fetchInstr
    s c width = .ok x0 t) : Keeps s0 t := by
  have k := fetchInstr_keeps (s0 := s0) (s := s) (c := c) (width := width) h
  rw [e] at k
  exact k

theorem fetchInstr_keeps_e1 {s0 : State} {s : State} {c : Nat} {width : Nat} {x0} {t : State} (h : Keeps s0 s) (e : fetchInstr
    s c width = .trap x0 t) : Keeps s0 t := by
  have k := fetchInstr_keeps (s0 := s0) (s := s) (c := c) (width := width) h
  rw [e] at k
  exact k

theorem issue_keeps {s0 s : State} {c width : Nat} {body : State → CoreAcc (Word × Nat)} (h : Keeps s0 s)
    (hb : ∀ z, Keeps s0 z → KAcc s0 (body z)) : Keeps s0 (issue s c width body) := by
  unfold issue
  split
  · split
    · exact arrive_keeps h
    · have k : KAcc s0 ((fetchInstr s c width).andThen (fun _ s1 => body s1)) := kAcc_andThen (fetchInstr_keeps h) (fun _ z hz
        => hb z hz)
      dsimp only
      split
      · next e => rw [e] at k; exact retire_keeps k
      · next e => rw [e] at k; exact takeExc_keeps k
  · exact h


theorem issueCore_keeps {s0 : State} {s : State} {c : Nat} {width : Nat} {cost : Nat} {f : Core → Core} (h : Keeps s0 s) :
    Keeps s0 (issueCore s c width cost f) := by
  unfold issueCore
  (repeat' (first
    | with_reducible assumption | (with_reducible refine updCore_keeps ?_) | (with_reducible refine issue_keeps ?_ ?_)
    | with_reducible refine kAcc_ok ?_ | intro _))

/-! ### Alu -/

theorem move1_keeps {s0 : State} {s : State} {c : Nat} {rd : Reg} {rb : Reg} {op : Word → Word} (h : Keeps s0 s) : Keeps s0
    (move1 s c rd rb op) := by
  unfold move1
  (repeat' (first | with_reducible assumption | (with_reducible refine issueCore_keeps ?_)))

theorem execBswap_keeps {s0 : State} {c : CoreId} {rd : Reg} {rb : Reg} {s : State} (h : Keeps s0 s) : KRes s0 (execBswap c rd
    rb s) := by
  unfold execBswap
  (repeat' (first | with_reducible assumption | (with_reducible refine move1_keeps ?_) | with_reducible refine kRes_next ?_))

theorem execMov_keeps {s0 : State} {c : CoreId} {rd : Reg} {rb : Reg} {s : State} (h : Keeps s0 s) : KRes s0 (execMov c rd rb
    s) := by
  unfold execMov
  (repeat' (first | with_reducible assumption | (with_reducible refine move1_keeps ?_) | with_reducible refine kRes_next ?_))

theorem execSxh_keeps {s0 : State} {c : CoreId} {rd : Reg} {rb : Reg} {s : State} (h : Keeps s0 s) : KRes s0 (execSxh c rd rb
    s) := by
  unfold execSxh
  (repeat' (first | with_reducible assumption | (with_reducible refine move1_keeps ?_) | with_reducible refine kRes_next ?_))

theorem shift_keeps {s0 : State} {s : State} {c : Nat} {f : ShiftForm} {op : Word → Nat → Word → Word × Word} (h : Keeps s0 s)
    : Keeps s0 (shift s c f op) := by
  unfold shift
  (repeat' (first | with_reducible assumption | (with_reducible refine issueCore_keeps ?_)))

theorem alu2_keeps {s0 : State} {s : State} {c : Nat} {f : AluForm} {op : Word → Word → Word → Word × Word} (h : Keeps s0 s) :
    Keeps s0 (alu2 s c f op) := by
  unfold alu2
  (repeat' (first | with_reducible assumption | (with_reducible refine issueCore_keeps ?_)))

theorem execOr_keeps {s0 : State} {c : CoreId} {f : AluForm} {s : State} (h : Keeps s0 s) : KRes s0 (execOr c f s) := by
  unfold execOr
  (repeat' (first | with_reducible assumption | (with_reducible refine alu2_keeps ?_) | with_reducible refine kRes_next ?_))

theorem execAsr_keeps {s0 : State} {c : CoreId} {f : ShiftForm} {s : State} (h : Keeps s0 s) : KRes s0 (execAsr c f s) := by
  unfold execAsr
  (repeat' (first | with_reducible assumption | (with_reducible refine shift_keeps ?_) | with_reducible refine kRes_next ?_))

theorem alu3_keeps {s0 : State} {s : State} {c : Nat} {rd : Reg} {ra : Reg} {rb : Reg} {op : Word → Word → Word → Word × Word}
    (h : Keeps s0 s) : Keeps s0 (alu3 s c rd ra rb op) := by
  unfold alu3
  (repeat' (first | with_reducible assumption | (with_reducible refine alu2_keeps ?_)))

theorem execMaxu_keeps {s0 : State} {c : CoreId} {rd : Reg} {ra : Reg} {rb : Reg} {s : State} (h : Keeps s0 s) : KRes s0
    (execMaxu c rd ra rb s) := by
  unfold execMaxu
  (repeat' (first | with_reducible assumption | (with_reducible refine alu3_keeps ?_) | with_reducible refine kRes_next ?_))

theorem execMovhi_keeps {s0 : State} {c : CoreId} {rd : Reg} {imm : BitVec 16} {s : State} (h : Keeps s0 s) : KRes s0
    (execMovhi c rd imm s) := by
  unfold execMovhi
  (repeat' (first
    | with_reducible assumption | (with_reducible refine issueCore_keeps ?_) | with_reducible refine kRes_next ?_))

theorem logicImm_keeps {s0 : State} {s : State} {c : Nat} {rd : Reg} {ra : Reg} {imm : BitVec 16} {op : Word → Word → Word →
    Word × Word} (h : Keeps s0 s) : Keeps s0 (logicImm s c rd ra imm op) := by
  unfold logicImm
  (repeat' (first | with_reducible assumption | (with_reducible refine issueCore_keeps ?_)))

theorem division_keeps {s0 : State} {s : State} {c : Nat} {signed : Bool} {rd : Reg} {ra : Reg} {rb : Reg} {rr : Reg} (h :
    Keeps s0 s) : Keeps s0 (division s c signed rd ra rb rr) := by
  unfold division
  (repeat' (first
    | with_reducible assumption | (with_reducible refine issue_keeps ?_ ?_) | (with_reducible refine State.setCore_keeps ?_)
    | with_reducible refine kAcc_ok ?_ | with_reducible refine kAcc_trap ?_ | intro _ | dsimp only | split))

theorem execMul_keeps {s0 : State} {c : CoreId} {f : AluForm} {s : State} (h : Keeps s0 s) : KRes s0 (execMul c f s) := by
  unfold execMul
  (repeat' (first | with_reducible assumption | (with_reducible refine alu2_keeps ?_) | with_reducible refine kRes_next ?_))

theorem execDiv_keeps {s0 : State} {c : CoreId} {rd : Reg} {ra : Reg} {rb : Reg} {rr : Reg} {s : State} (h : Keeps s0 s) : KRes
    s0 (execDiv c rd ra rb rr s) := by
  unfold execDiv
  (repeat' (first | with_reducible assumption | (with_reducible refine division_keeps ?_) | with_reducible refine kRes_next ?_))

theorem execAddi_keeps {s0 : State} {c : CoreId} {f : AddiForm} {s : State} (h : Keeps s0 s) : KRes s0 (execAddi c f s) := by
  unfold execAddi
  (repeat' (first
    | with_reducible assumption | (with_reducible refine issueCore_keeps ?_) | with_reducible refine kRes_next ?_))

theorem execRol_keeps {s0 : State} {c : CoreId} {f : ShiftForm} {s : State} (h : Keeps s0 s) : KRes s0 (execRol c f s) := by
  unfold execRol
  (repeat' (first | with_reducible assumption | (with_reducible refine shift_keeps ?_) | with_reducible refine kRes_next ?_))

theorem alu1_keeps {s0 : State} {s : State} {c : Nat} {rd : Reg} {rb : Reg} {op : Word → Word → Word × Word} (h : Keeps s0 s) :
    Keeps s0 (alu1 s c rd rb op) := by
  unfold alu1
  (repeat' (first | with_reducible assumption | (with_reducible refine issueCore_keeps ?_)))

theorem execNeg_keeps {s0 : State} {c : CoreId} {rd : Reg} {rb : Reg} {s : State} (h : Keeps s0 s) : KRes s0 (execNeg c rd rb
    s) := by
  unfold execNeg
  (repeat' (first | with_reducible assumption | (with_reducible refine alu1_keeps ?_) | with_reducible refine kRes_next ?_))

theorem execAdd_keeps {s0 : State} {c : CoreId} {f : AluForm} {s : State} (h : Keeps s0 s) : KRes s0 (execAdd c f s) := by
  unfold execAdd
  (repeat' (first | with_reducible assumption | (with_reducible refine alu2_keeps ?_) | with_reducible refine kRes_next ?_))

theorem execAdc_keeps {s0 : State} {c : CoreId} {f : AluForm} {s : State} (h : Keeps s0 s) : KRes s0 (execAdc c f s) := by
  unfold execAdc
  (repeat' (first | with_reducible assumption | (with_reducible refine alu2_keeps ?_) | with_reducible refine kRes_next ?_))

theorem execNot_keeps {s0 : State} {c : CoreId} {rd : Reg} {rb : Reg} {s : State} (h : Keeps s0 s) : KRes s0 (execNot c rd rb
    s) := by
  unfold execNot
  (repeat' (first | with_reducible assumption | (with_reducible refine alu1_keeps ?_) | with_reducible refine kRes_next ?_))

theorem execSub_keeps {s0 : State} {c : CoreId} {f : AluForm} {s : State} (h : Keeps s0 s) : KRes s0 (execSub c f s) := by
  unfold execSub
  (repeat' (first | with_reducible assumption | (with_reducible refine alu2_keeps ?_) | with_reducible refine kRes_next ?_))

theorem execMinu_keeps {s0 : State} {c : CoreId} {rd : Reg} {ra : Reg} {rb : Reg} {s : State} (h : Keeps s0 s) : KRes s0
    (execMinu c rd ra rb s) := by
  unfold execMinu
  (repeat' (first | with_reducible assumption | (with_reducible refine alu3_keeps ?_) | with_reducible refine kRes_next ?_))

theorem execAndi_keeps {s0 : State} {c : CoreId} {rd : Reg} {ra : Reg} {imm : BitVec 16} {s : State} (h : Keeps s0 s) : KRes s0
    (execAndi c rd ra imm s) := by
  unfold execAndi
  (repeat' (first | with_reducible assumption | (with_reducible refine logicImm_keeps ?_) | with_reducible refine kRes_next ?_))

theorem execXori_keeps {s0 : State} {c : CoreId} {rd : Reg} {ra : Reg} {imm : BitVec 16} {s : State} (h : Keeps s0 s) : KRes s0
    (execXori c rd ra imm s) := by
  unfold execXori
  (repeat' (first | with_reducible assumption | (with_reducible refine logicImm_keeps ?_) | with_reducible refine kRes_next ?_))

theorem execLsr_keeps {s0 : State} {c : CoreId} {f : ShiftForm} {s : State} (h : Keeps s0 s) : KRes s0 (execLsr c f s) := by
  unfold execLsr
  (repeat' (first | with_reducible assumption | (with_reducible refine shift_keeps ?_) | with_reducible refine kRes_next ?_))

theorem execZxh_keeps {s0 : State} {c : CoreId} {rd : Reg} {rb : Reg} {s : State} (h : Keeps s0 s) : KRes s0 (execZxh c rd rb
    s) := by
  unfold execZxh
  (repeat' (first | with_reducible assumption | (with_reducible refine move1_keeps ?_) | with_reducible refine kRes_next ?_))

theorem execAdr_keeps {s0 : State} {c : CoreId} {rd : Reg} {imm : BitVec 22} {s : State} (h : Keeps s0 s) : KRes s0 (execAdr c
    rd imm s) := by
  unfold execAdr
  (repeat' (first
    | with_reducible assumption | (with_reducible refine issueCore_keeps ?_) | with_reducible refine kRes_next ?_))

theorem execAnd_keeps {s0 : State} {c : CoreId} {f : AluForm} {s : State} (h : Keeps s0 s) : KRes s0 (execAnd c f s) := by
  unfold execAnd
  (repeat' (first | with_reducible assumption | (with_reducible refine alu2_keeps ?_) | with_reducible refine kRes_next ?_))

theorem execSbc_keeps {s0 : State} {c : CoreId} {f : AluForm} {s : State} (h : Keeps s0 s) : KRes s0 (execSbc c f s) := by
  unfold execSbc
  (repeat' (first | with_reducible assumption | (with_reducible refine alu2_keeps ?_) | with_reducible refine kRes_next ?_))

theorem execAndn_keeps {s0 : State} {c : CoreId} {rd : Reg} {ra : Reg} {rb : Reg} {s : State} (h : Keeps s0 s) : KRes s0
    (execAndn c rd ra rb s) := by
  unfold execAndn
  (repeat' (first | with_reducible assumption | (with_reducible refine alu3_keeps ?_) | with_reducible refine kRes_next ?_))

theorem execLsl_keeps {s0 : State} {c : CoreId} {f : ShiftForm} {s : State} (h : Keeps s0 s) : KRes s0 (execLsl c f s) := by
  unfold execLsl
  (repeat' (first | with_reducible assumption | (with_reducible refine shift_keeps ?_) | with_reducible refine kRes_next ?_))

theorem execDivu_keeps {s0 : State} {c : CoreId} {rd : Reg} {ra : Reg} {rb : Reg} {rr : Reg} {s : State} (h : Keeps s0 s) :
    KRes s0 (execDivu c rd ra rb rr s) := by
  unfold execDivu
  (repeat' (first | with_reducible assumption | (with_reducible refine division_keeps ?_) | with_reducible refine kRes_next ?_))

theorem execXor_keeps {s0 : State} {c : CoreId} {f : AluForm} {s : State} (h : Keeps s0 s) : KRes s0 (execXor c f s) := by
  unfold execXor
  (repeat' (first | with_reducible assumption | (with_reducible refine alu2_keeps ?_) | with_reducible refine kRes_next ?_))

theorem execMin_keeps {s0 : State} {c : CoreId} {rd : Reg} {ra : Reg} {rb : Reg} {s : State} (h : Keeps s0 s) : KRes s0
    (execMin c rd ra rb s) := by
  unfold execMin
  (repeat' (first | with_reducible assumption | (with_reducible refine alu3_keeps ?_) | with_reducible refine kRes_next ?_))

theorem execPopc_keeps {s0 : State} {c : CoreId} {rd : Reg} {rb : Reg} {s : State} (h : Keeps s0 s) : KRes s0 (execPopc c rd rb
    s) := by
  unfold execPopc
  (repeat' (first | with_reducible assumption | (with_reducible refine move1_keeps ?_) | with_reducible refine kRes_next ?_))

theorem execMax_keeps {s0 : State} {c : CoreId} {rd : Reg} {ra : Reg} {rb : Reg} {s : State} (h : Keeps s0 s) : KRes s0
    (execMax c rd ra rb s) := by
  unfold execMax
  (repeat' (first | with_reducible assumption | (with_reducible refine alu3_keeps ?_) | with_reducible refine kRes_next ?_))

theorem execMulhu_keeps {s0 : State} {c : CoreId} {rd : Reg} {ra : Reg} {rb : Reg} {s : State} (h : Keeps s0 s) : KRes s0
    (execMulhu c rd ra rb s) := by
  unfold execMulhu
  (repeat' (first | with_reducible assumption | (with_reducible refine alu3_keeps ?_) | with_reducible refine kRes_next ?_))

theorem execRor_keeps {s0 : State} {c : CoreId} {f : ShiftForm} {s : State} (h : Keeps s0 s) : KRes s0 (execRor c f s) := by
  unfold execRor
  (repeat' (first | with_reducible assumption | (with_reducible refine shift_keeps ?_) | with_reducible refine kRes_next ?_))

theorem execMulh_keeps {s0 : State} {c : CoreId} {rd : Reg} {ra : Reg} {rb : Reg} {s : State} (h : Keeps s0 s) : KRes s0
    (execMulh c rd ra rb s) := by
  unfold execMulh
  (repeat' (first | with_reducible assumption | (with_reducible refine alu3_keeps ?_) | with_reducible refine kRes_next ?_))

theorem execSxb_keeps {s0 : State} {c : CoreId} {rd : Reg} {rb : Reg} {s : State} (h : Keeps s0 s) : KRes s0 (execSxb c rd rb
    s) := by
  unfold execSxb
  (repeat' (first | with_reducible assumption | (with_reducible refine move1_keeps ?_) | with_reducible refine kRes_next ?_))

theorem execMovi_keeps {s0 : State} {c : CoreId} {f : MoviForm} {s : State} (h : Keeps s0 s) : KRes s0 (execMovi c f s) := by
  unfold execMovi
  (repeat' (first
    | with_reducible assumption | (with_reducible refine issueCore_keeps ?_) | with_reducible refine kRes_next ?_))

theorem execZxb_keeps {s0 : State} {c : CoreId} {rd : Reg} {rb : Reg} {s : State} (h : Keeps s0 s) : KRes s0 (execZxb c rd rb
    s) := by
  unfold execZxb
  (repeat' (first | with_reducible assumption | (with_reducible refine move1_keeps ?_) | with_reducible refine kRes_next ?_))

theorem execClz_keeps {s0 : State} {c : CoreId} {rd : Reg} {rb : Reg} {s : State} (h : Keeps s0 s) : KRes s0 (execClz c rd rb
    s) := by
  unfold execClz
  (repeat' (first | with_reducible assumption | (with_reducible refine move1_keeps ?_) | with_reducible refine kRes_next ?_))

theorem execOri_keeps {s0 : State} {c : CoreId} {rd : Reg} {ra : Reg} {imm : BitVec 16} {s : State} (h : Keeps s0 s) : KRes s0
    (execOri c rd ra imm s) := by
  unfold execOri
  (repeat' (first | with_reducible assumption | (with_reducible refine logicImm_keeps ?_) | with_reducible refine kRes_next ?_))

end Sys2Proof.Machine
end

