-- ==== Sys2Proof/Laws/Keeps7.lean ====
section
/-! SUPPORT. Sys2Proof/Laws/Keeps7.lean: what each operation of Boot, Dma, Images, Queues, NvmeIo, NvmeAdmin keeps (`Keeps`). -/

set_option Elab.async false
set_option linter.unusedVariables false

namespace Sys2Proof.Machine

/-! ### Boot -/

theorem mapReplay_keeps {s0 : State} {s : State} (h : Keeps s0 s) : Keeps s0 (mapReplay s) := by
  unfold mapReplay
  (repeat' (first
    | with_reducible assumption | (with_reducible refine recount_keeps ?_)
    | fail_if_no_progress (with_reducible refine Keeps.upd ?_)))

theorem remapNow_keeps {s0 : State} {s : State} (h : Keeps s0 s) : Keeps s0 (remapNow s) := by
  unfold remapNow
  (repeat' (first
    | with_reducible assumption | (with_reducible refine State.setFlds_keeps ?_)
    | (with_reducible refine csBuildRemap_keeps ?_)))

theorem grownAdd_keeps {s0 : State} {s : State} {b : Nat} (h : Keeps s0 s) : Keeps s0 (grownAdd s b) := by
  unfold grownAdd
  (repeat' (first
    | with_reducible assumption | (with_reducible refine grownWrite_keeps ?_) | with_reducible refine keeps_ite ?_ ?_))

theorem phaseNext_keeps {s0 : State} {s : State} {n : Nat} (h : Keeps s0 s) : Keeps s0 (phaseNext s n) := by
  unfold phaseNext
  (repeat' (first | with_reducible assumption | (with_reducible refine State.setFld_keeps ?_)))

theorem reErase_keeps {s0 : State} {s : State} {bad : List Nat} {y2 : List Nat} (h : Keeps s0 s) : Keeps s0 (reErase s bad y2)
    := by
  fun_induction reErase s bad y2 <;> (repeat' (first
    | (with_reducible refine csEraseWhole_keeps ?_) | with_reducible apply_assumption))

theorem phaseCstore_keeps {s0 : State} {s : State} {bad : List Nat} (h : Keeps s0 s) : Keeps s0 (phaseCstore s bad) := by
  unfold phaseCstore
  (repeat' (first
    | with_reducible assumption | (with_reducible refine State.setFld_keeps ?_) | (with_reducible refine remapNow_keeps ?_)
    | (with_reducible refine grownAdd_keeps ?_) | (with_reducible refine phaseNext_keeps ?_)
    | (with_reducible refine reErase_keeps ?_) | with_reducible refine keeps_ite ?_ ?_
    | with_reducible refine keeps_foldl (fun _ _ _ => ?_) ?_))

theorem execPhaseCstore_keeps {s0 : State} {bad : List Nat} {s : State} (h : Keeps s0 s) : KRes s0 (execPhaseCstore bad s) := by
  unfold execPhaseCstore
  (repeat' (first
    | with_reducible assumption | (with_reducible refine phaseCstore_keeps ?_) | with_reducible refine kRes_next ?_))

theorem phaseRom_keeps {s0 : State} {s : State} (h : Keeps s0 s) : Keeps s0 (phaseRom s) := by
  unfold phaseRom
  (repeat' (first
    | with_reducible assumption | (with_reducible refine State.setFld_keeps ?_) | (with_reducible refine phaseNext_keeps ?_)
    | (with_reducible refine bringUpAll_keeps ?_) | with_reducible refine keeps_ite ?_ ?_))

theorem execPhaseRom_keeps {s0 : State} {s : State} (h : Keeps s0 s) : KRes s0 (execPhaseRom s) := by
  unfold execPhaseRom
  (repeat' (first | with_reducible assumption | (with_reducible refine phaseRom_keeps ?_) | with_reducible refine kRes_next ?_))

theorem phaseLimit_keeps {s0 : State} {s : State} (h : Keeps s0 s) : Keeps s0 (phaseLimit s) := by
  unfold phaseLimit
  (repeat' (first
    | with_reducible assumption | (with_reducible refine clocksFail_keeps ?_) | (with_reducible refine bootHalt_keeps ?_)
    | (with_reducible refine bringUp_keeps ?_) | (with_reducible refine State.setFlds_keeps ?_)
    | (with_reducible refine remapNow_keeps ?_) | (with_reducible refine phaseNext_keeps ?_)
    | (with_reducible refine bootRecovery_keeps ?_) | (with_reducible refine noiseFail_keeps ?_)
    | (with_reducible refine bringUpAll_keeps ?_) | (with_reducible refine qualStart_keeps ?_)
    | (with_reducible refine bootFatal_keeps ?_) | with_reducible refine keeps_ite ?_ ?_ | split))

theorem execPhaseLimitExpiry_keeps {s0 : State} {s : State} (h : Keeps s0 s) : KRes s0 (execPhaseLimitExpiry s) := by
  unfold execPhaseLimitExpiry
  (repeat' (first
    | with_reducible assumption | (with_reducible refine phaseLimit_keeps ?_) | with_reducible refine kRes_next ?_))

theorem setXo_keeps {s0 : State} {s : State} {n : Nat} (h : Keeps s0 s) : Keeps s0 (setXo s n) := by
  unfold setXo
  (repeat' (first | with_reducible assumption | (with_reducible refine State.setFlds_keeps ?_)))

theorem enterImage_keeps {s0 : State} {s : State} {n : Nat} (h : Keeps s0 s) : Keeps s0 (enterImage s n) := by
  unfold enterImage
  (repeat' (first | with_reducible assumption | (with_reducible refine State.setCore_keeps ?_)))

theorem phaseFwload_keeps {s0 : State} {s : State} (h : Keeps s0 s) : Keeps s0 (phaseFwload s) := by
  unfold phaseFwload
  (repeat' (first
    | with_reducible assumption | (with_reducible refine setXo_keeps ?_) | (with_reducible refine phaseNext_keeps ?_)
    | (with_reducible refine enterImage_keeps ?_) | (with_reducible refine houseRun_keeps ?_)
    | (with_reducible refine blockLock_keeps ?_) | split))

theorem execPhaseFwload_keeps {s0 : State} {s : State} (h : Keeps s0 s) : KRes s0 (execPhaseFwload s) := by
  unfold execPhaseFwload
  (repeat' (first
    | with_reducible assumption | (with_reducible refine phaseFwload_keeps ?_) | with_reducible refine kRes_next ?_))

theorem placeBuffers_keeps {s0 : State} {s : State} (h : Keeps s0 s) : Keeps s0 (placeBuffers s) := by
  unfold placeBuffers
  (repeat' (first | with_reducible assumption | (with_reducible refine State.setFlds_keeps ?_)))

theorem restoreRel_keeps {s0 : State} {s : State} {r : Rel} (h : Keeps s0 s) : Keeps s0 (restoreRel s r) := by
  unfold restoreRel
  (repeat' (first
    | with_reducible assumption | (with_reducible refine enqueueMap_keeps ?_)
    | fail_if_no_progress (with_reducible refine Keeps.upd ?_)))

theorem cellarReplay_keeps {s0 : State} {s : State} (h : Keeps s0 s) : Keeps s0 (cellarReplay s) := by
  unfold cellarReplay
  (repeat' (first
    | with_reducible assumption | (with_reducible refine restoreRel_keeps ?_) | (with_reducible refine State.setFld_keeps ?_)
    | (with_reducible refine setWarn_keeps ?_) | (with_reducible refine State.raise_keeps ?_)
    | with_reducible refine keeps_ite ?_ ?_ | with_reducible refine keeps_foldl (fun _ _ _ => ?_) ?_ | split
    | fail_if_no_progress (with_reducible refine Keeps.upd ?_)))

theorem rescue.retLost_keeps {s0 : State} {s : State} (h : Keeps s0 s) : Keeps s0 (rescue.retLost s) := by
  unfold rescue.retLost
  (repeat' (first
    | with_reducible assumption | (with_reducible refine State.setFld_keeps ?_) | (with_reducible refine setWarn_keeps ?_)
    | (with_reducible refine State.raise_keeps ?_) | with_reducible refine keeps_ite ?_ ?_
    | fail_if_no_progress (with_reducible refine Keeps.upd ?_)))

theorem rescueTake_keeps {s0 : State} {s : State} {i : RetIdx} (h : Keeps s0 s) : Keeps s0 (rescueTake s i) := by
  unfold rescueTake
  (repeat' (first
    | with_reducible assumption | (with_reducible refine wbPut_keeps ?_) | (with_reducible refine runQueue_keeps ?_)
    | with_reducible refine keeps_foldl (fun _ _ _ => ?_) ?_ | fail_if_no_progress (with_reducible refine Keeps.upd ?_)))

theorem rescue_keeps {s0 : State} {s : State} {indexOk : Bool} (h : Keeps s0 s) : Keeps s0 (rescue s indexOk) := by
  unfold rescue
  (repeat' (first
    | with_reducible assumption | (with_reducible refine rescue.retLost_keeps ?_) | (with_reducible refine rescueTake_keeps ?_)
    | split))

theorem fabricUp_keeps {s0 : State} {s : State} (h : Keeps s0 s) : Keeps s0 (fabricUp s) := by
  unfold fabricUp
  (repeat' (first
    | with_reducible assumption | (with_reducible refine bringUp_keeps ?_) | (with_reducible refine fabApply_keeps ?_)
    | split))

theorem phaseReplay_keeps {s0 : State} {s : State} {indexOk : Bool} {fail : Option Bool} (h : Keeps s0 s) : Keeps s0
    (phaseReplay s indexOk fail) := by
  unfold phaseReplay
  (repeat' (first
    | with_reducible assumption | (with_reducible refine cellarReplay_keeps ?_) | (with_reducible refine placeBuffers_keeps ?_)
    | (with_reducible refine rescue_keeps ?_) | (with_reducible refine bringUpAll_keeps ?_)
    | (with_reducible refine bootFatal_keeps ?_) | (with_reducible refine fabricUp_keeps ?_)
    | (with_reducible refine mapReplay_keeps ?_) | split | fail_if_no_progress (with_reducible refine Keeps.upd ?_)))

theorem execPhaseReplay_keeps {s0 : State} {indexOk : Bool} {fail : Option Bool} {s : State} (h : Keeps s0 s) : KRes s0
    (execPhaseReplay indexOk fail s) := by
  unfold execPhaseReplay
  (repeat' (first
    | with_reducible assumption | (with_reducible refine phaseReplay_keeps ?_) | with_reducible refine kRes_next ?_))

theorem enumerate_keeps {s0 : State} {s0_ : State} {ids : List (Nat × Nat)} {bad : List Nat} (h : Keeps s0 s0_) : Keeps s0
    (enumerate s0_ ids bad) := by
  unfold enumerate
  (repeat' (first
    | with_reducible assumption | (with_reducible refine State.setFlds_keeps ?_) | (with_reducible refine State.raise_keeps ?_)
    | with_reducible refine keeps_ite ?_ ?_ | fail_if_no_progress (with_reducible refine Keeps.upd ?_)))

theorem loadBlocks_keeps {s0 : State} {s : State} (h : Keeps s0 s) : Keeps s0 (loadBlocks s) := by
  unfold loadBlocks
  (repeat' (first
    | with_reducible assumption | (with_reducible refine State.setFld_keeps ?_) | (with_reducible refine btSet_keeps ?_)
    | with_reducible refine keeps_ite ?_ ?_ | with_reducible refine keeps_foldl (fun _ _ _ => ?_) ?_))

theorem addNewLuns_keeps {s0 : State} {s : State} {marks : List (Nat × Nat)} (h : Keeps s0 s) : Keeps s0 (addNewLuns s marks)
    := by
  unfold addNewLuns
  (repeat' (first | with_reducible assumption | fail_if_no_progress (with_reducible refine Keeps.upd ?_)))

theorem phaseNand_keeps {s0 : State} {s : State} {ids : List (Nat × Nat)} {bad : List Nat} {marks : List (Nat × Nat)} (h :
    Keeps s0 s) : Keeps s0 (phaseNand s ids bad marks) := by
  unfold phaseNand
  (repeat' (first
    | with_reducible assumption | (with_reducible refine enumerate_keeps ?_) | (with_reducible refine bringUp_keeps ?_)
    | (with_reducible refine loadBlocks_keeps ?_) | (with_reducible refine State.setFlds_keeps ?_)
    | (with_reducible refine wholdUpdate_keeps ?_) | (with_reducible refine phaseNext_keeps ?_)
    | (with_reducible refine addNewLuns_keeps ?_) | (with_reducible refine gcUpdate_keeps ?_)
    | (with_reducible refine bringUpAll_keeps ?_) | with_reducible refine keeps_ite ?_ ?_))

theorem execPhaseNand_keeps {s0 : State} {ids : List (Nat × Nat)} {bad : List Nat} {marks : List (Nat × Nat)} {s : State} (h :
    Keeps s0 s) : KRes s0 (execPhaseNand ids bad marks s) := by
  unfold execPhaseNand
  (repeat' (first
    | with_reducible assumption | (with_reducible refine phaseNand_keeps ?_) | with_reducible refine kRes_next ?_))

theorem phaseClocks_keeps {s0 : State} {s : State} (h : Keeps s0 s) : Keeps s0 (phaseClocks s) := by
  unfold phaseClocks
  (repeat' (first
    | with_reducible assumption | (with_reducible refine phaseNext_keeps ?_) | (with_reducible refine clocksOn_keeps ?_)
    | with_reducible refine keeps_ite ?_ ?_))

theorem execPhaseClocks_keeps {s0 : State} {s : State} (h : Keeps s0 s) : KRes s0 (execPhaseClocks s) := by
  unfold execPhaseClocks
  (repeat' (first
    | with_reducible assumption | (with_reducible refine phaseClocks_keeps ?_) | with_reducible refine kRes_next ?_))

theorem phaseReady_keeps {s0 : State} {s : State} (h : Keeps s0 s) : Keeps s0 (phaseReady s) := by
  unfold phaseReady
  (repeat' (first
    | with_reducible assumption | (with_reducible refine phaseNext_keeps ?_) | with_reducible refine keeps_ite ?_ ?_))

theorem setPopulation_keeps {s0 : State} {s : State} {cap : Nat} {half : Bool} (h : Keeps s0 s) : Keeps s0 (setPopulation s cap
    half) := by
  unfold setPopulation
  (repeat' (first | with_reducible assumption | (with_reducible refine State.setFlds_keeps ?_)))

theorem phaseDram_keeps {s0 : State} {s : State} {pop : Option (Fin 3 × Bool)} {trains : Bool} (h : Keeps s0 s) : Keeps s0
    (phaseDram s pop trains) := by
  unfold phaseDram
  (repeat' (first
    | with_reducible assumption | (with_reducible refine setPopulation_keeps ?_) | (with_reducible refine bringUp_keeps ?_)
    | (with_reducible refine State.setFlds_keeps ?_) | (with_reducible refine enablingEnds_keeps ?_)
    | (with_reducible refine phaseNext_keeps ?_) | (with_reducible refine bootFatal_keeps ?_)
    | (with_reducible refine requestOn_keeps ?_) | split | fail_if_no_progress (with_reducible refine Keeps.upd ?_)))

theorem phaseRecords_keeps {s0 : State} {s : State} {bad : List Nat} (h : Keeps s0 s) : Keeps s0 (phaseRecords s bad) := by
  unfold phaseRecords
  (repeat' (first
    | with_reducible assumption | (with_reducible refine thermLoad_keeps ?_) | (with_reducible refine bringUp_keeps ?_)
    | (with_reducible refine phaseNext_keeps ?_) | (with_reducible refine bringUpAll_keeps ?_)
    | (with_reducible refine qualStart_keeps ?_) | (with_reducible refine setProf_keeps ?_) | split
    | fail_if_no_progress (with_reducible refine Keeps.upd ?_)))

theorem execPhaseReady_keeps {s0 : State} {s : State} (h : Keeps s0 s) : KRes s0 (execPhaseReady s) := by
  unfold execPhaseReady
  (repeat' (first
    | with_reducible assumption | (with_reducible refine phaseReady_keeps ?_) | with_reducible refine kRes_next ?_))

theorem phaseVerify_keeps {s0 : State} {s : State} {fault0 : Bool} {fault1 : Bool} (h : Keeps s0 s) : Keeps s0 (phaseVerify s
    fault0 fault1) := by
  unfold phaseVerify
  (repeat' (first
    | with_reducible assumption | (with_reducible refine State.setFld_keeps ?_)
    | (with_reducible refine State.setFlds_keeps ?_) | (with_reducible refine phaseNext_keeps ?_)
    | (with_reducible refine bootRecovery_keeps ?_) | dsimp only | split
    | fail_if_no_progress (with_reducible refine Keeps.upd ?_)))

theorem execPhaseVerify_keeps {s0 : State} {fault0 : Bool} {fault1 : Bool} {s : State} (h : Keeps s0 s) : KRes s0
    (execPhaseVerify fault0 fault1 s) := by
  unfold execPhaseVerify
  (repeat' (first
    | with_reducible assumption | (with_reducible refine phaseVerify_keeps ?_) | with_reducible refine kRes_next ?_))

theorem phaseFuses_keeps {s0 : State} {s : State} {ok : Bool} (h : Keeps s0 s) : Keeps s0 (phaseFuses s ok) := by
  unfold phaseFuses
  (repeat' (first
    | with_reducible assumption | (with_reducible refine bootHalt_keeps ?_) | (with_reducible refine fuseRegs_keeps ?_)
    | (with_reducible refine phaseNext_keeps ?_) | (with_reducible refine State.setCore_keeps ?_)
    | with_reducible refine keeps_ite ?_ ?_))

theorem rescueWrite_keeps {s0 : State} {s : State} (h : Keeps s0 s) : Keeps s0 (rescueWrite s) := by
  unfold rescueWrite
  (repeat' (first
    | with_reducible assumption | (with_reducible refine State.clear_keeps ?_) | (with_reducible refine writeRestored_keeps ?_)
    | with_reducible refine keeps_ite ?_ ?_ | fail_if_no_progress (with_reducible refine Keeps.upd ?_)))

theorem phaseKeys_keeps {s0 : State} {s : State} {ok : Bool} (h : Keeps s0 s) : Keeps s0 (phaseKeys s ok) := by
  unfold phaseKeys
  (repeat' (first
    | with_reducible assumption | (with_reducible refine drbgReady_keeps ?_) | (with_reducible refine bringUp_keeps ?_)
    | (with_reducible refine State.setFld_keeps ?_) | (with_reducible refine phaseNext_keeps ?_)
    | (with_reducible refine noiseFail_keeps ?_) | with_reducible refine keeps_ite ?_ ?_))

theorem execPhaseKeys_keeps {s0 : State} {ok : Bool} {s : State} (h : Keeps s0 s) : KRes s0 (execPhaseKeys ok s) := by
  unfold execPhaseKeys
  (repeat' (first
    | with_reducible assumption | (with_reducible refine phaseKeys_keeps ?_) | with_reducible refine kRes_next ?_))

theorem execPhaseRecords_keeps {s0 : State} {bad : List Nat} {s : State} (h : Keeps s0 s) : KRes s0 (execPhaseRecords bad s) :=
    by
  unfold execPhaseRecords
  (repeat' (first
    | with_reducible assumption | (with_reducible refine phaseRecords_keeps ?_) | with_reducible refine kRes_next ?_))

theorem execRescueWrite_keeps {s0 : State} {s : State} (h : Keeps s0 s) : KRes s0 (execRescueWrite s) := by
  unfold execRescueWrite
  (repeat' (first
    | with_reducible assumption | (with_reducible refine rescueWrite_keeps ?_) | with_reducible refine kRes_next ?_))

theorem execPhaseFuses_keeps {s0 : State} {ok : Bool} {s : State} (h : Keeps s0 s) : KRes s0 (execPhaseFuses ok s) := by
  unfold execPhaseFuses
  (repeat' (first
    | with_reducible assumption | (with_reducible refine phaseFuses_keeps ?_) | with_reducible refine kRes_next ?_))

theorem execPhaseDram_keeps {s0 : State} {pop : Option (Fin 3 × Bool)} {trains : Bool} {s : State} (h : Keeps s0 s) : KRes s0
    (execPhaseDram pop trains s) := by
  unfold execPhaseDram
  (repeat' (first
    | with_reducible assumption | (with_reducible refine phaseDram_keeps ?_) | with_reducible refine kRes_next ?_))

/-! ### Dma -/

theorem dmaWriteBytes_keeps {s0 : State} {s : State} {ch : Nat} {a : Nat} {bs : List Byte} (h : Keeps s0 s) : KDma s0
    (dmaWriteBytes s ch a bs) := by
  unfold dmaWriteBytes
  (repeat' (first
    | with_reducible assumption | (with_reducible refine writeMem_keeps ?_)
    | (with_reducible refine regWrite_keeps_e ?_ (by assumption)) | with_reducible refine kDma_ok ?_
    | with_reducible refine kDma_bad ?_ | dsimp only | split))

theorem dmaWriteBytes_keeps_e0 {s0 : State} {s : State} {ch : Nat} {a : Nat} {bs : List Byte} {x0} {t : State} (h : Keeps s0 s)
    (e : dmaWriteBytes s ch a bs = .ok x0 t) : Keeps s0 t := by
  have k := dmaWriteBytes_keeps (s0 := s0) (s := s) (ch := ch) (a := a) (bs := bs) h
  rw [e] at k
  exact k

theorem dmaWriteBytes_keeps_e1 {s0 : State} {s : State} {ch : Nat} {a : Nat} {bs : List Byte} {x0 x1} {t : State} (h : Keeps s0
    s) (e : dmaWriteBytes s ch a bs = .bad x0 x1 t) : Keeps s0 t := by
  have k := dmaWriteBytes_keeps (s0 := s0) (s := s) (ch := ch) (a := a) (bs := bs) h
  rw [e] at k
  exact k

theorem descDone_keeps {s0 : State} {s0_ : State} {ch : Nat} {bs : List Byte} (h : Keeps s0 s0_) : Keeps s0 (descDone s0_ ch
    bs) := by
  unfold descDone
  (repeat' (first
    | with_reducible assumption | (with_reducible refine setDma_keeps ?_)
    | (with_reducible refine dmaWriteBytes_keeps_e0 ?_ (by assumption))
    | (with_reducible refine dmaWriteBytes_keeps_e1 ?_ (by assumption)) | (with_reducible refine dmaFail_keeps ?_)
    | (with_reducible refine State.setFld_keeps ?_) | (with_reducible refine setDmaPc_keeps ?_)
    | (with_reducible refine dmaDrainWrites_keeps ?_) | (with_reducible refine dmaSetEvent_keeps ?_)
    | (with_reducible refine dmaRecord_keeps ?_) | dsimp only | split))

theorem dmaRead_keeps {s0 : State} {s : State} {ch : Nat} {a : Nat} {n : Nat} (h : Keeps s0 s) : KDma s0 (dmaRead s ch a n) :=
    by
  unfold dmaRead
  (repeat' (first
    | with_reducible assumption | (with_reducible refine regRead_keeps_e ?_ (by assumption))
    | (with_reducible refine readGlobal_keeps_e ?_ (by assumption)) | with_reducible refine kDma_ok ?_
    | with_reducible refine kDma_bad ?_ | dsimp only | split))

theorem dmaRead_keeps_e0 {s0 : State} {s : State} {ch : Nat} {a : Nat} {n : Nat} {x0} {t : State} (h : Keeps s0 s) (e : dmaRead
    s ch a n = .ok x0 t) : Keeps s0 t := by
  have k := dmaRead_keeps (s0 := s0) (s := s) (ch := ch) (a := a) (n := n) h
  rw [e] at k
  exact k

theorem dmaRead_keeps_e1 {s0 : State} {s : State} {ch : Nat} {a : Nat} {n : Nat} {x0 x1} {t : State} (h : Keeps s0 s) (e :
    dmaRead s ch a n = .bad x0 x1 t) : Keeps s0 t := by
  have k := dmaRead_keeps (s0 := s0) (s := s) (ch := ch) (a := a) (n := n) h
  rw [e] at k
  exact k

theorem dmaCount_keeps {s0 : State} {s : State} {ch : Nat} {n : Nat} (h : Keeps s0 s) : Keeps s0 (dmaCount s ch n) := by
  unfold dmaCount
  (repeat' (first
    | with_reducible assumption | (with_reducible refine State.setFld_keeps ?_)
    | (with_reducible refine State.addWrap_keeps ?_)))

theorem dmaCopy_keeps {s0 : State} {s : State} {ch : Nat} {src : Nat} {dst : Nat} {left : Nat} {y5 : Nat} (h : Keeps s0 s) :
    KDma s0 (dmaCopy s ch src dst left y5) := by
  fun_induction dmaCopy s ch src dst left y5 <;> (repeat' (first
    | (with_reducible refine dmaRead_keeps_e0 ?_ (by assumption)) | (with_reducible refine dmaRead_keeps_e1 ?_ (by assumption))
    | (with_reducible refine dmaWriteBytes_keeps_e0 ?_ (by assumption))
    | (with_reducible refine dmaWriteBytes_keeps_e1 ?_ (by assumption)) | (with_reducible refine dmaCount_keeps ?_)
    | with_reducible refine kDma_bad ?_ | with_reducible apply_assumption))

theorem dmaCopy_keeps_e0 {s0 : State} {s : State} {ch : Nat} {src : Nat} {dst : Nat} {left : Nat} {y5 : Nat} {x0} {t : State}
    (h : Keeps s0 s) (e : dmaCopy s ch src dst left y5 = .ok x0 t) : Keeps s0 t := by
  have k := dmaCopy_keeps (s0 := s0) (s := s) (ch := ch) (src := src) (dst := dst) (left := left) (y5 := y5) h
  rw [e] at k
  exact k

theorem dmaCopy_keeps_e1 {s0 : State} {s : State} {ch : Nat} {src : Nat} {dst : Nat} {left : Nat} {y5 : Nat} {x0 x1} {t :
    State} (h : Keeps s0 s) (e : dmaCopy s ch src dst left y5 = .bad x0 x1 t) : Keeps s0 t := by
  have k := dmaCopy_keeps (s0 := s0) (s := s) (ch := ch) (src := src) (dst := dst) (left := left) (y5 := y5) h
  rw [e] at k
  exact k

theorem dmaMoveOn_keeps {s0 : State} {s : State} {ch : Nat} {src : Nat} {dst : Nat} {len : Nat} {k_ : Nat} (h : Keeps s0 s) :
    KDma s0 (dmaMoveOn s ch src dst len k_) := by
  unfold dmaMoveOn
  (repeat' (first | with_reducible assumption | (with_reducible refine dmaCopy_keeps ?_)))

theorem dmaMoveOn_keeps_e0 {s0 : State} {s : State} {ch : Nat} {src : Nat} {dst : Nat} {len : Nat} {k_ : Nat} {x0} {t : State}
    (h : Keeps s0 s) (e : dmaMoveOn s ch src dst len k_ = .ok x0 t) : Keeps s0 t := by
  have k := dmaMoveOn_keeps (s0 := s0) (s := s) (ch := ch) (src := src) (dst := dst) (len := len) (k_ := k_) h
  rw [e] at k
  exact k

theorem dmaMoveOn_keeps_e1 {s0 : State} {s : State} {ch : Nat} {src : Nat} {dst : Nat} {len : Nat} {k_ : Nat} {x0 x1} {t :
    State} (h : Keeps s0 s) (e : dmaMoveOn s ch src dst len k_ = .bad x0 x1 t) : Keeps s0 t := by
  have k := dmaMoveOn_keeps (s0 := s0) (s := s) (ch := ch) (src := src) (dst := dst) (len := len) (k_ := k_) h
  rw [e] at k
  exact k

theorem dmaDescriptor_keeps {s0 : State} {s : State} {ch : Nat} {k_ : Nat} (h : Keeps s0 s) : Keeps s0 (dmaDescriptor s ch k_)
    := by
  unfold dmaDescriptor
  (repeat' (first
    | with_reducible assumption | (with_reducible refine setDmaState_keeps ?_) | (with_reducible refine descDone_keeps ?_)
    | (with_reducible refine dmaRead_keeps_e0 ?_ (by assumption)) | (with_reducible refine dmaRead_keeps_e1 ?_ (by assumption))
    | (with_reducible refine dmaFail_keeps ?_) | (with_reducible refine dmaMoveOn_keeps_e0 ?_ (by assumption))
    | (with_reducible refine dmaMoveOn_keeps_e1 ?_ (by assumption)) | dsimp only | split))

theorem dmaNext_keeps {s0 : State} {s : State} {ch : Nat} (h : Keeps s0 s) : Keeps s0 (dmaNext s ch) := by
  unfold dmaNext
  (repeat' (first | with_reducible assumption | (with_reducible refine setDmaPc_keeps ?_)))

theorem dmaBadInstr_keeps {s0 : State} {s : State} {ch : Nat} (h : Keeps s0 s) : Keeps s0 (dmaBadInstr s ch) := by
  unfold dmaBadInstr
  (repeat' (first | with_reducible assumption | (with_reducible refine dmaFail_keeps ?_)))

theorem dmaMove_keeps {s0 : State} {s : State} {ch : Nat} {k_ : Nat} {bs : List Byte} (h : Keeps s0 s) : Keeps s0 (dmaMove s ch
    k_ bs) := by
  unfold dmaMove
  (repeat' (first
    | with_reducible assumption | (with_reducible refine dmaFail_keeps ?_) | (with_reducible refine dmaNext_keeps ?_)
    | (with_reducible refine State.setFld_keeps ?_) | (with_reducible refine dmaBadInstr_keeps ?_)
    | (with_reducible refine dmaMoveOn_keeps_e0 ?_ (by assumption))
    | (with_reducible refine dmaMoveOn_keeps_e1 ?_ (by assumption)) | with_reducible refine keeps_ite ?_ ?_ | split))

theorem dmaInstr_keeps {s0 : State} {s : State} {ch : Nat} {mine : Nat → Bool} {f : State → List Byte → State} (h : Keeps s0 s)
    (h_f : ∀ z0 z1, Keeps s0 z0 → Keeps s0 (f z0 z1)) : Keeps s0 (dmaInstr s ch mine f) := by
  unfold dmaInstr
  (repeat' (first
    | (with_reducible refine dmaRead_keeps_e0 ?_ (by assumption)) | (with_reducible refine dmaRead_keeps_e1 ?_ (by assumption))
    | (with_reducible refine dmaFail_keeps ?_) | split | with_reducible apply_assumption))

theorem execDmaMove_keeps {s0 : State} {ch : Fin 64} {k_ : Nat} {s : State} (h : Keeps s0 s) : KRes s0 (execDmaMove ch k_ s) :=
    by
  unfold execDmaMove
  (repeat' (first
    | with_reducible assumption | (with_reducible refine dmaMove_keeps ?_) | (with_reducible refine dmaInstr_keeps ?_ ?_)
    | with_reducible refine kRes_next ?_ | intro _))

theorem dmaSignalInstr_keeps {s0 : State} {s : State} {ch : Nat} {bs : List Byte} (h : Keeps s0 s) : Keeps s0 (dmaSignalInstr s
    ch bs) := by
  unfold dmaSignalInstr
  (repeat' (first
    | with_reducible assumption | (with_reducible refine setDma_keeps ?_) | (with_reducible refine dmaNext_keeps ?_)
    | (with_reducible refine dmaDrainWrites_keeps ?_) | (with_reducible refine dmaBadInstr_keeps ?_)
    | (with_reducible refine dmaSetEvent_keeps ?_) | (with_reducible refine dmaRecord_keeps ?_)
    | with_reducible refine keeps_ite ?_ ?_))

theorem execDmaSignal_keeps {s0 : State} {ch : Fin 64} {s : State} (h : Keeps s0 s) : KRes s0 (execDmaSignal ch s) := by
  unfold execDmaSignal
  (repeat' (first
    | with_reducible assumption | (with_reducible refine dmaSignalInstr_keeps ?_)
    | (with_reducible refine dmaInstr_keeps ?_ ?_) | with_reducible refine kRes_next ?_ | intro _))

theorem dmaWait_keeps {s0 : State} {s : State} {ch : Nat} {bs : List Byte} (h : Keeps s0 s) : Keeps s0 (dmaWait s ch bs) := by
  unfold dmaWait
  (repeat' (first
    | with_reducible assumption | (with_reducible refine setDmaState_keeps ?_) | (with_reducible refine setDma_keeps ?_)
    | (with_reducible refine dmaNext_keeps ?_) | (with_reducible refine dmaBadInstr_keeps ?_)
    | (with_reducible refine dmaClearEvent_keeps ?_) | with_reducible refine keeps_ite ?_ ?_))

theorem execDmaWait_keeps {s0 : State} {ch : Fin 64} {s : State} (h : Keeps s0 s) : KRes s0 (execDmaWait ch s) := by
  unfold execDmaWait
  (repeat' (first
    | with_reducible assumption | (with_reducible refine dmaWait_keeps ?_) | (with_reducible refine dmaInstr_keeps ?_ ?_)
    | with_reducible refine kRes_next ?_ | intro _))

theorem dmaEnd_keeps {s0 : State} {s : State} {ch : Nat} {bs : List Byte} (h : Keeps s0 s) : Keeps s0 (dmaEnd s ch bs) := by
  unfold dmaEnd
  (repeat' (first
    | with_reducible assumption | (with_reducible refine dmaDrainWrites_keeps ?_)
    | (with_reducible refine dmaBadInstr_keeps ?_) | (with_reducible refine dmaRecord_keeps ?_)
    | with_reducible refine keeps_ite ?_ ?_))

theorem execDmaEnd_keeps {s0 : State} {ch : Fin 64} {s : State} (h : Keeps s0 s) : KRes s0 (execDmaEnd ch s) := by
  unfold execDmaEnd
  (repeat' (first
    | with_reducible assumption | (with_reducible refine dmaEnd_keeps ?_) | (with_reducible refine dmaInstr_keeps ?_ ?_)
    | with_reducible refine kRes_next ?_ | intro _))

theorem execDmaUndefinedInstruction_keeps {s0 : State} {ch : Fin 64} {s : State} (h : Keeps s0 s) : KRes s0
    (execDmaUndefinedInstruction ch s) := by
  unfold execDmaUndefinedInstruction
  (repeat' (first
    | with_reducible assumption | (with_reducible refine dmaInstr_keeps ?_ ?_) | (with_reducible refine dmaBadInstr_keeps ?_)
    | with_reducible refine kRes_next ?_ | intro _))

theorem execDmaDescriptor_keeps {s0 : State} {ch : Fin 64} {k_ : Nat} {s : State} (h : Keeps s0 s) : KRes s0 (execDmaDescriptor
    ch k_ s) := by
  unfold execDmaDescriptor
  (repeat' (first
    | with_reducible assumption | (with_reducible refine dmaDescriptor_keeps ?_) | with_reducible refine kRes_next ?_))

theorem dmaLoop_keeps {s0 : State} {s : State} {ch : Nat} {bs : List Byte} (h : Keeps s0 s) : Keeps s0 (dmaLoop s ch bs) := by
  unfold dmaLoop
  (repeat' (first
    | with_reducible assumption | (with_reducible refine setDma_keeps ?_) | (with_reducible refine dmaNext_keeps ?_)
    | (with_reducible refine State.setFld_keeps ?_) | (with_reducible refine setDmaPc_keeps ?_)
    | (with_reducible refine dmaBadInstr_keeps ?_) | with_reducible refine keeps_ite ?_ ?_))

theorem execDmaLoop_keeps {s0 : State} {ch : Fin 64} {s : State} (h : Keeps s0 s) : KRes s0 (execDmaLoop ch s) := by
  unfold execDmaLoop
  (repeat' (first
    | with_reducible assumption | (with_reducible refine dmaLoop_keeps ?_) | (with_reducible refine dmaInstr_keeps ?_ ?_)
    | with_reducible refine kRes_next ?_ | intro _))

/-! ### Images -/

theorem profLoad_keeps {s0 : State} {s : State} {d : List Byte} (h : Keeps s0 s) : Keeps s0 (profLoad s d) := by
  unfold profLoad
  (repeat' (first
    | with_reducible assumption | (with_reducible refine State.setFlds_keeps ?_)
    | with_reducible refine keeps_foldl (fun _ _ _ => ?_) ?_ | fail_if_no_progress (with_reducible refine Keeps.upd ?_)))

theorem writeTiles_keeps {s0 : State} {s : State} {o : Nat} {bs : List Byte} (h : Keeps s0 s) : Keeps s0 (writeTiles s o bs) :=
    by
  unfold writeTiles
  (repeat' (first
    | with_reducible assumption | (with_reducible refine writeMem_keeps ?_)
    | with_reducible refine keeps_foldl (fun _ _ _ => ?_) ?_))

theorem setLoad_keeps {s0 : State} {s : State} {d : List Byte} (h : Keeps s0 s) : Keeps s0 (setLoad s d) := by
  unfold setLoad
  (repeat' (first
    | with_reducible assumption | (with_reducible refine writeTiles_keeps ?_)
    | fail_if_no_progress (with_reducible refine Keeps.upd ?_)))

theorem autoLoad_keeps {s0 : State} {s : State} {d : List Byte} (h : Keeps s0 s) : Keeps s0 (autoLoad s d) := by
  unfold autoLoad
  (repeat' (first
    | with_reducible assumption | (with_reducible refine State.setFlds_keeps ?_) | (with_reducible refine tmWrite_keeps ?_)
    | (with_reducible refine State.raise_keeps ?_) | dsimp only | split
    | fail_if_no_progress (with_reducible refine Keeps.upd ?_)))

theorem persLoad_keeps {s0 : State} {s : State} {slot : Nat} {d : List Byte} (h : Keeps s0 s) : Keeps s0 (persLoad s slot d) :=
    by
  unfold persLoad
  (repeat' (first
    | with_reducible assumption | (with_reducible refine State.setFld_keeps ?_)
    | fail_if_no_progress (with_reducible refine Keeps.upd ?_)))

theorem ruleReplace_keeps {s0 : State} {s : State} {d : List Byte} (h : Keeps s0 s) : Keeps s0 (ruleReplace s d) := by
  unfold ruleReplace
  (repeat' (first
    | with_reducible assumption | (with_reducible refine writeSlot_keeps ?_) | (with_reducible refine insertRule_keeps ?_)
    | with_reducible refine keeps_foldl (fun _ _ _ => ?_) ?_ | with_reducible refine keeps_getD ?_ ?_
    | fail_if_no_progress (with_reducible refine Keeps.upd ?_)))

theorem ruleQueue_keeps {s0 : State} {s : State} {mode : Nat} {d : List Byte} {cmd : Nat} (h : Keeps s0 s) : Keeps s0
    (ruleQueue s mode d cmd) := by
  unfold ruleQueue
  (repeat' (first
    | with_reducible assumption | (with_reducible refine ruleLoadNext_keeps ?_)
    | fail_if_no_progress (with_reducible refine Keeps.upd ?_)))

theorem progLoad_keeps {s0 : State} {s : State} {slot : Nat} {d : List Byte} (h : Keeps s0 s) : Keeps s0 (progLoad s slot d) :=
    by
  unfold progLoad
  (repeat' (first
    | with_reducible assumption | (with_reducible refine writeTiles_keeps ?_)
    | fail_if_no_progress (with_reducible refine Keeps.upd ?_)))

/-! ### Queues -/

theorem setSq_keeps {s0 : State} {s : State} {c : Nat} {q : Nat} {x : Option Sq} (h : Keeps s0 s) : Keeps s0 (setSq s c q x) :=
    by
  unfold setSq
  (repeat' (first | with_reducible assumption | (with_reducible refine setCtrl_keeps ?_)))

theorem retireCmd_keeps {s0 : State} {s : State} {c : Cmd} {st : Nat} (h : Keeps s0 s) : Keeps s0 (retireCmd s c st) := by
  unfold retireCmd
  (repeat' (first
    | with_reducible assumption | (with_reducible refine setSq_keeps ?_) | (with_reducible refine State.raise_keeps ?_) | split
    | fail_if_no_progress (with_reducible refine Keeps.upd ?_)))

theorem endCmd_keeps {s0 : State} {s : State} {id : Nat} {st : Nat} {dw0 : Nat} {data : List Byte} (h : Keeps s0 s) : Keeps s0
    (endCmd s id st dw0 data) := by
  unfold endCmd
  (repeat' (first | with_reducible assumption | (with_reducible refine updCmd_keeps ?_)))

theorem noteWaits_keeps {s0 : State} {s : State} (h : Keeps s0 s) : Keeps s0 (noteWaits s) := by
  unfold noteWaits
  (repeat' (first
    | with_reducible assumption | (with_reducible refine State.raise_keeps ?_) | (with_reducible refine State.addWrap_keeps ?_)
    | with_reducible refine keeps_ite ?_ ?_ | fail_if_no_progress (with_reducible refine Keeps.upd ?_)))

theorem fetchEntry_keeps {s0 : State} {s : State} {src : CmdRef} (h : Keeps s0 s) : Keeps s0 (fetchEntry s src) := by
  unfold fetchEntry
  (repeat' (first | with_reducible assumption | (with_reducible refine setSq_keeps ?_) | split))

theorem addCmd_keeps {s0 : State} {s : State} {src : CmdRef} {op : NvmeOp} (h : Keeps s0 s) : Keeps s0 (addCmd s src op) := by
  unfold addCmd
  (repeat' (first | with_reducible assumption | fail_if_no_progress (with_reducible refine Keeps.upd ?_)))

theorem setCq_keeps {s0 : State} {s : State} {c : Nat} {q : Nat} {x : Option Cq} (h : Keeps s0 s) : Keeps s0 (setCq s c q x) :=
    by
  unfold setCq
  (repeat' (first | with_reducible assumption | (with_reducible refine setCtrl_keeps ?_)))

theorem endSelfTest_keeps {s0 : State} {s : State} {code : Nat} (h : Keeps s0 s) : Keeps s0 (endSelfTest s code) := by
  unfold endSelfTest
  (repeat' (first | with_reducible assumption | split | fail_if_no_progress (with_reducible refine Keeps.upd ?_)))

theorem markIndet_keeps {s0 : State} {s : State} {c : Cmd} (h : Keeps s0 s) : Keeps s0 (markIndet s c) := by
  unfold markIndet
  (repeat' (first | with_reducible assumption | split | fail_if_no_progress (with_reducible refine Keeps.upd ?_)))

theorem dropUncut_keeps {s0 : State} {s : State} {id : Nat} (h : Keeps s0 s) : Keeps s0 (dropUncut s id) := by
  unfold dropUncut
  (repeat' (first
    | with_reducible assumption | (with_reducible refine clearBlocked_keeps ?_)
    | fail_if_no_progress (with_reducible refine Keeps.upd ?_)))

theorem abortCmd_keeps {s0 : State} {s : State} {c : Cmd} {byDel : Bool} (h : Keeps s0 s) : Keeps s0 (abortCmd s c byDel).2 :=
    by
  unfold abortCmd
  (repeat' (first
    | with_reducible assumption | (with_reducible refine endCmd_keeps ?_) | (with_reducible refine markIndet_keeps ?_)
    | (with_reducible refine dropUncut_keeps ?_) | (with_reducible refine updCmd_keeps ?_)
    | (with_reducible refine endSelfTest_keeps ?_) | dsimp only | split))

theorem abortCmd_keeps_e {s0 : State} {s : State} {c : Cmd} {byDel : Bool} {x0} {t : State} (h : Keeps s0 s) (e : abortCmd s c
    byDel = (x0, t)) : Keeps s0 t := by
  have k := abortCmd_keeps (s0 := s0) (s := s) (c := c) (byDel := byDel) h
  rw [e] at k
  exact k

theorem abortQueue_keeps {s0 : State} {s : State} {r : QueueRef} (h : Keeps s0 s) : Keeps s0 (abortQueue s r) := by
  unfold abortQueue
  (repeat' (first
    | with_reducible assumption | (with_reducible refine abortCmd_keeps ?_)
    | with_reducible refine keeps_foldl (fun _ _ _ => ?_) ?_))

theorem countAbort_keeps {s0 : State} {s : State} {aborted : Bool} (h : Keeps s0 s) : Keeps s0 (countAbort s aborted) := by
  unfold countAbort
  (repeat' (first
    | with_reducible assumption | (with_reducible refine State.raise_keeps ?_)
    | (with_reducible refine State.addWrap_keeps ?_)))

theorem abortPoint_keeps {s0 : State} {s : State} {c : Cmd} {sqid : Nat} {cid : Nat} (h : Keeps s0 s) : Keeps s0 (abortPoint s
    c sqid cid) := by
  unfold abortPoint
  (repeat' (first
    | with_reducible assumption | (with_reducible refine endCmd_keeps ?_) | (with_reducible refine countAbort_keeps ?_)
    | (with_reducible refine abortCmd_keeps ?_) | split))

theorem postEntry_keeps {s0 : State} {s : State} {c : Cmd} {st : Nat} {dw0 : Nat} (h : Keeps s0 s) : KOpt (fun x => Keeps s0 x)
    (postEntry s c st dw0) := by
  unfold postEntry
  (repeat' (first
    | with_reducible assumption | (with_reducible refine setCq_keeps ?_) | with_reducible exact kOpt_none
    | with_reducible refine kOpt_some ?_ | split | fail_if_no_progress (with_reducible refine Keeps.upd ?_)))

theorem postEntry_keeps_e {s0 : State} {s : State} {c : Cmd} {st : Nat} {dw0 : Nat} {t : State} (h : Keeps s0 s) (e : postEntry
    s c st dw0 = .some t) : Keeps s0 t := by
  have k := postEntry_keeps (s0 := s0) (s := s) (c := c) (st := st) (dw0 := dw0) h
  rw [e] at k
  exact k

theorem commandComplete_keeps {s0 : State} {s : State} {r : QueueRef} (h : Keeps s0 s) : Keeps s0 (commandComplete s r) := by
  unfold commandComplete
  (repeat' (first
    | with_reducible assumption | (with_reducible refine noteWaits_keeps ?_)
    | (with_reducible refine postEntry_keeps_e ?_ (by assumption)) | (with_reducible refine retireCmd_keeps ?_) | dsimp only
    | split))

theorem shutdownStart_keeps {s0 : State} {s : State} {c : Nat} {shn : Nat} (h : Keeps s0 s) : Keeps s0 (shutdownStart s c shn)
    := by
  unfold shutdownStart
  (repeat' (first
    | with_reducible assumption | (with_reducible refine setCtrl_keeps ?_) | with_reducible refine keeps_ite ?_ ?_))

theorem abandonOne_keeps {s0 : State} {s : State} {c : Cmd} (h : Keeps s0 s) : Keeps s0 (abandonOne s c) := by
  unfold abandonOne
  (repeat' (first
    | with_reducible assumption | (with_reducible refine markIndet_keeps ?_) | (with_reducible refine dropUncut_keeps ?_)
    | (with_reducible refine updCmd_keeps ?_) | split | fail_if_no_progress (with_reducible refine Keeps.upd ?_)))

theorem resetCtrl_keeps {s0 : State} {s : State} {c : Nat} (h : Keeps s0 s) : Keeps s0 (resetCtrl s c) := by
  unfold resetCtrl
  (repeat' (first
    | with_reducible assumption | (with_reducible refine abandonOne_keeps ?_) | (with_reducible refine noteWaits_keeps ?_)
    | (with_reducible refine setCtrl_keeps ?_) | (with_reducible refine endSelfTest_keeps ?_)
    | (with_reducible refine dropAbandoned_keeps ?_) | with_reducible refine keeps_foldl (fun _ _ _ => ?_) ?_
    | fail_if_no_progress (with_reducible refine Keeps.upd ?_)))

theorem ctrlDisable_keeps {s0 : State} {s : State} {c : Nat} (h : Keeps s0 s) : Keeps s0 (ctrlDisable s c) := by
  unfold ctrlDisable
  (repeat' (first
    | with_reducible assumption | (with_reducible refine resetCtrl_keeps ?_) | with_reducible refine keeps_ite ?_ ?_))

theorem ctrlEnable_keeps {s0 : State} {s : State} {c : Nat} {asqs : Nat} {acqs : Nat} (h : Keeps s0 s) : Keeps s0 (ctrlEnable s
    c asqs acqs) := by
  unfold ctrlEnable
  (repeat' (first
    | with_reducible assumption | (with_reducible refine setCtrl_keeps ?_) | with_reducible refine keeps_ite ?_ ?_))

theorem cqHead_keeps {s0 : State} {s : State} {c : Nat} {q : Nat} {head : Nat} (h : Keeps s0 s) : Keeps s0 (cqHead s c q head)
    := by
  unfold cqHead
  (repeat' (first
    | with_reducible assumption | (with_reducible refine setCq_keeps ?_) | with_reducible refine keeps_ite ?_ ?_ | split))

theorem sqTail_keeps {s0 : State} {s : State} {c : Nat} {q : Nat} {tail : Nat} (h : Keeps s0 s) : Keeps s0 (sqTail s c q tail)
    := by
  unfold sqTail
  (repeat' (first | with_reducible assumption | (with_reducible refine setSq_keeps ?_) | split))

theorem shutdownEnd_keeps {s0 : State} {s : State} {c : Nat} (h : Keeps s0 s) : Keeps s0 (shutdownEnd s c) := by
  unfold shutdownEnd
  (repeat' (first
    | with_reducible assumption | (with_reducible refine setCtrl_keeps ?_) | with_reducible refine keeps_ite ?_ ?_))

/-! ### NvmeIo -/

theorem startParcelRead_keeps {s0 : State} {s : State} {c : Cmd} {nsid : Nat} {slba : Nat} {cdw12 : Nat} {bad : List Nat} (h :
    Keeps s0 s) : Keeps s0 (startParcelRead s c nsid slba cdw12 bad) := by
  unfold startParcelRead
  (repeat' (first
    | with_reducible assumption | (with_reducible refine endCmd_keeps ?_) | with_reducible refine keeps_ite ?_ ?_ | split))

theorem startDsm_keeps {s0 : State} {s : State} {c : Cmd} {nsid : Nat} {rs : List LbaRange} (h : Keeps s0 s) : Keeps s0
    (startDsm s c nsid rs) := by
  unfold startDsm
  (repeat' (first
    | with_reducible assumption | (with_reducible refine endCmd_keeps ?_) | (with_reducible refine enqueueMap_keeps ?_)
    | (with_reducible refine updCmd_keeps ?_) | with_reducible refine keeps_ite ?_ ?_
    | with_reducible refine keeps_foldl (fun _ _ _ => ?_) ?_ | split))

theorem startSlmRead_keeps {s0 : State} {s : State} {c : Cmd} {slm : Nat} {off : Nat} {len : Nat} (h : Keeps s0 s) : Keeps s0
    (startSlmRead s c slm off len) := by
  unfold startSlmRead
  (repeat' (first
    | with_reducible assumption | (with_reducible refine readRam_keeps_e ?_ (by assumption))
    | (with_reducible refine endCmd_keeps ?_) | split))

theorem cpStart_keeps {s0 : State} {s : State} {c : Cmd} {p : CpPlan} {t_ : Nat} {pind : Nat} {p0 : Nat} {p1 : Nat} {p2 : Nat}
    (h : Keeps s0 s) : Keeps s0 (cpStart s c p t_ pind p0 p1 p2) := by
  unfold cpStart
  (repeat' (first
    | with_reducible assumption | (with_reducible refine State.setFld_keeps ?_) | (with_reducible refine startJob_keeps ?_)
    | with_reducible refine keeps_ite ?_ ?_ | intro _ | dsimp only | split
    | fail_if_no_progress (with_reducible refine Keeps.upd ?_) ))

theorem startExecute_keeps {s0 : State} {s : State} {c : Cmd} {pind : Nat} {rsid : Nat} {p0 : Nat} {p1 : Nat} {p2 : Nat} (h :
    Keeps s0 s) : Keeps s0 (startExecute s c pind rsid p0 p1 p2) := by
  unfold startExecute
  (repeat' (first
    | with_reducible assumption | (with_reducible refine endCmd_keeps ?_) | (with_reducible refine cpStart_keeps ?_)
    | with_reducible refine keeps_ite ?_ ?_ | intro _ | dsimp only | split ))

theorem startVerify_keeps {s0 : State} {s : State} {c : Cmd} {nsid : Nat} {slba : Nat} {nlb : Nat} {bad : List Nat} (h : Keeps
    s0 s) : Keeps s0 (startVerify s c nsid slba nlb bad) := by
  unfold startVerify
  (repeat' (first | with_reducible assumption | (with_reducible refine endCmd_keeps ?_)))

theorem reserveRun_keeps {s0 : State} {s : State} {c : Cmd} {f : Nat} {nsid : Nat} {slba : Nat} {nlb : Nat} (h : Keeps s0 s) :
    Keeps s0 (reserveRun s c f nsid slba nlb) := by
  unfold reserveRun
  (repeat' (first
    | with_reducible assumption | (with_reducible refine ctxSet_keeps ?_) | (with_reducible refine updCmd_keeps ?_)
    | fail_if_no_progress (with_reducible refine Keeps.upd ?_)))

theorem startWrite_keeps {s0 : State} {s : State} {c : Cmd} {nsid : Nat} {slba : Nat} {nlb : Nat} {dtype : Nat} {dspec : Nat}
    {ptr : DataPtr} (h : Keeps s0 s) : Keeps s0 (startWrite s c nsid slba nlb dtype dspec ptr) := by
  unfold startWrite
  (repeat' (first
    | with_reducible assumption | (with_reducible refine endCmd_keeps ?_) | (with_reducible refine reserveRun_keeps ?_)
    | (with_reducible refine State.addWrap_keeps ?_) | split))

theorem startRangeSet_keeps {s0 : State} {s : State} {c : Cmd} {m : SetMgmt} (h : Keeps s0 s) : Keeps s0 (startRangeSet s c m)
    := by
  unfold startRangeSet
  (repeat' (first
    | with_reducible assumption | (with_reducible refine endCmd_keeps ?_) | with_reducible refine keeps_ite ?_ ?_ | split
    | fail_if_no_progress (with_reducible refine Keeps.upd ?_)))

theorem startSlmWrite_keeps {s0 : State} {s : State} {c : Cmd} {slm : Nat} {off : Nat} {bs : List Byte} (h : Keeps s0 s) :
    Keeps s0 (startSlmWrite s c slm off bs) := by
  unfold startSlmWrite
  (repeat' (first
    | with_reducible assumption | (with_reducible refine writeMem_keeps ?_) | (with_reducible refine endCmd_keeps ?_)
    | with_reducible refine keeps_ite ?_ ?_ | split))

theorem startMemoryCopy_keeps {s0 : State} {s : State} {c : Cmd} {nsid : Nat} {slba : Nat} {nlb : Nat} {slm : Nat} {off : Nat}
    {bad : List Nat} (h : Keeps s0 s) : Keeps s0 (startMemoryCopy s c nsid slba nlb slm off bad) := by
  unfold startMemoryCopy
  (repeat' (first
    | with_reducible assumption | (with_reducible refine writeMem_keeps ?_) | (with_reducible refine endCmd_keeps ?_)
    | with_reducible refine keeps_ite ?_ ?_ | split))

theorem startActivate_keeps {s0 : State} {s : State} {c : Cmd} {pind : Nat} {act : Bool} (h : Keeps s0 s) : Keeps s0
    (startActivate s c pind act) := by
  unfold startActivate
  (repeat' (first
    | with_reducible assumption | (with_reducible refine endCmd_keeps ?_) | split
    | fail_if_no_progress (with_reducible refine Keeps.upd ?_)))

theorem startFlush_keeps {s0 : State} {s : State} {c : Cmd} {nsid : Nat} (h : Keeps s0 s) : Keeps s0 (startFlush s c nsid) := by
  unfold startFlush
  (repeat' (first
    | with_reducible assumption | (with_reducible refine endCmd_keeps ?_) | (with_reducible refine updCmd_keeps ?_)
    | dsimp only | split))

theorem startHostRead_keeps {s0 : State} {s : State} {c : Cmd} {nsid : Nat} {slba : Nat} {nlb : Nat} {bad : List Nat} (h :
    Keeps s0 s) : Keeps s0 (startHostRead s c nsid slba nlb bad) := by
  unfold startHostRead
  (repeat' (first | with_reducible assumption | (with_reducible refine endCmd_keeps ?_)))

theorem cpTimeLimit_keeps {s0 : State} {s : State} {t_ : Nat} (h : Keeps s0 s) : Keeps s0 (cpTimeLimit s t_) := by
  unfold cpTimeLimit
  (repeat' (first
    | with_reducible assumption | (with_reducible refine tileReset_keeps ?_) | (with_reducible refine State.raise_keeps ?_)
    | split))

/-! ### NvmeAdmin -/

theorem deallocNs_keeps {s0 : State} {s : State} {nsid : Nat} (h : Keeps s0 s) : Keeps s0 (deallocNs s nsid) := by
  unfold deallocNs
  (repeat' (first
    | with_reducible assumption | (with_reducible refine enqueueMap_keeps ?_)
    | with_reducible refine keeps_foldl (fun _ _ _ => ?_) ?_))

theorem newMediaKey_keeps {s0 : State} {s : State} {nsid : Nat} (h : Keeps s0 s) : KOpt (fun x => Keeps s0 x) (newMediaKey s
    nsid) := by
  unfold newMediaKey
  (repeat' (first
    | with_reducible assumption | (with_reducible refine newKey_keeps ?_) | (with_reducible refine putKey_keeps ?_)
    | with_reducible exact kOpt_none | with_reducible refine kOpt_some ?_ | split))

theorem newMediaKey_keeps_e {s0 : State} {s : State} {nsid : Nat} {t : State} (h : Keeps s0 s) (e : newMediaKey s nsid = .some
    t) : Keeps s0 t := by
  have k := newMediaKey_keeps (s0 := s0) (s := s) (nsid := nsid) h
  rw [e] at k
  exact k

theorem setNs_keeps {s0 : State} {s : State} {nsid : Nat} {n : Option Ns} (h : Keeps s0 s) : Keeps s0 (setNs s nsid n) := by
  unfold setNs
  (repeat' (first | with_reducible assumption | fail_if_no_progress (with_reducible refine Keeps.upd ?_)))

theorem formatNs_keeps {s0 : State} {lbaf : Nat} {ses : Nat} {s : State} {nsid : Nat} (h : Keeps s0 s) : Keeps s0 (formatNs
    lbaf ses s nsid) := by
  unfold formatNs
  (repeat' (first
    | with_reducible assumption | (with_reducible refine deallocNs_keeps ?_) | (with_reducible refine newMediaKey_keeps ?_)
    | (with_reducible refine setNs_keeps ?_) | with_reducible refine keeps_getD ?_ ?_ | split))

theorem startFormat_keeps {s0 : State} {s : State} {c : Cmd} {nsid : Nat} {lbaf : Nat} {ses : Nat} (h : Keeps s0 s) : Keeps s0
    (startFormat s c nsid lbaf ses) := by
  unfold startFormat
  (repeat' (first
    | with_reducible assumption | (with_reducible refine endCmd_keeps ?_) | (with_reducible refine formatNs_keeps ?_)
    | with_reducible refine keeps_ite ?_ ?_ | with_reducible refine keeps_foldl (fun _ _ _ => ?_) ?_))

theorem nsCreate_keeps {s0 : State} {s : State} {nsze : Nat} {flbas : Nat} (h : Keeps s0 s) : KExc (fun x => Keeps s0 x.2)
    (nsCreate s nsze flbas) := by
  unfold nsCreate
  (repeat' (first
    | with_reducible assumption | (with_reducible refine newMediaKey_keeps_e ?_ (by assumption))
    | (with_reducible refine setNs_keeps ?_) | with_reducible exact kExc_error | with_reducible refine kExc_ok ?_ | dsimp only
    | split))

theorem nsCreate_keeps_e {s0 : State} {s : State} {nsze : Nat} {flbas : Nat} {x10} {t : State} (h : Keeps s0 s) (e : nsCreate s
    nsze flbas = .ok (x10, t)) : Keeps s0 t := by
  have k := nsCreate_keeps (s0 := s0) (s := s) (nsze := nsze) (flbas := flbas) h
  rw [e] at k
  exact k

theorem nsDelete_keeps {s0 : State} {s : State} {nsid : Nat} (h : Keeps s0 s) : Keeps s0 (nsDelete s nsid) := by
  unfold nsDelete
  (repeat' (first
    | with_reducible assumption | (with_reducible refine putKey_keeps ?_) | (with_reducible refine deallocNs_keeps ?_)
    | (with_reducible refine setNs_keeps ?_)))

theorem setSlm_keeps {s0 : State} {s : State} {k_ : Nat} {r : Option (Nat × Nat)} (h : Keeps s0 s) : Keeps s0 (setSlm s k_ r)
    := by
  unfold setSlm
  (repeat' (first | with_reducible assumption | fail_if_no_progress (with_reducible refine Keeps.upd ?_)))

theorem startNsManage_keeps {s0 : State} {s : State} {c : Cmd} {m : NsMgmt} (h : Keeps s0 s) : Keeps s0 (startNsManage s c m)
    := by
  unfold startNsManage
  (repeat' (first
    | with_reducible assumption | (with_reducible refine endCmd_keeps ?_)
    | (with_reducible refine nsCreate_keeps_e ?_ (by assumption)) | (with_reducible refine nsDelete_keeps ?_)
    | (with_reducible refine setSlm_keeps ?_) | with_reducible refine keeps_ite ?_ ?_
    | with_reducible refine keeps_foldl (fun _ _ _ => ?_) ?_ | split))

theorem returnPage_keeps {s0 : State} {s : State} {c : Cmd} {dw0 : Nat} {p : PageBytes} (h : Keeps s0 s) : Keeps s0 (returnPage
    s c dw0 p) := by
  unfold returnPage
  (repeat' (first
    | with_reducible assumption | (with_reducible refine endCmd_keeps ?_) | (with_reducible refine fillPage_keeps ?_)))

theorem startDirReceive_keeps {s0 : State} {s : State} {c : Cmd} {nsid : Nat} {dtype : Nat} {doper : Nat} (h : Keeps s0 s) :
    Keeps s0 (startDirReceive s c nsid dtype doper) := by
  unfold startDirReceive
  (repeat' (first
    | with_reducible assumption | (with_reducible refine State.fresh_keeps ?_) | (with_reducible refine endCmd_keeps ?_)
    | (with_reducible refine returnPage_keeps ?_) | split))

theorem startFabTags_keeps {s0 : State} {s : State} {c : Cmd} {hi : Nat} {d : List Byte} (h : Keeps s0 s) : Keeps s0
    (startFabTags s c hi d) := by
  unfold startFabTags
  (repeat' (first
    | with_reducible assumption | (with_reducible refine endCmd_keeps ?_) | (with_reducible refine fabTags_keeps ?_) | split))

theorem startDeleteCq_keeps {s0 : State} {s : State} {c : Cmd} {qid : Nat} (h : Keeps s0 s) : Keeps s0 (startDeleteCq s c qid)
    := by
  unfold startDeleteCq
  (repeat' (first
    | with_reducible assumption | (with_reducible refine endCmd_keeps ?_) | (with_reducible refine setCq_keeps ?_)
    | with_reducible refine keeps_ite ?_ ?_))

theorem startSanitize_keeps {s0 : State} {s : State} {c : Cmd} {crypto : Bool} (h : Keeps s0 s) : Keeps s0 (startSanitize s c
    crypto) := by
  unfold startSanitize
  (repeat' (first
    | with_reducible assumption | (with_reducible refine endCmd_keeps ?_) | (with_reducible refine newMediaKey_keeps ?_)
    | with_reducible refine keeps_ite ?_ ?_ | with_reducible refine keeps_foldl (fun _ _ _ => ?_) ?_
    | with_reducible refine keeps_getD ?_ ?_ | fail_if_no_progress (with_reducible refine Keeps.upd ?_)))

theorem startFlowUnbind_keeps {s0 : State} {s : State} {c : Cmd} {cdw10 : Nat} (h : Keeps s0 s) : Keeps s0 (startFlowUnbind s c
    cdw10) := by
  unfold startFlowUnbind
  (repeat' (first
    | with_reducible assumption | (with_reducible refine endCmd_keeps ?_) | (with_reducible refine drainFlow_keeps ?_)
    | split))

theorem startCreateCq_keeps {s0 : State} {s : State} {c : Cmd} {qid : Nat} {size : Nat} {vector : Nat} {ien : Bool} (h : Keeps
    s0 s) : Keeps s0 (startCreateCq s c qid size vector ien) := by
  unfold startCreateCq
  (repeat' (first
    | with_reducible assumption | (with_reducible refine endCmd_keeps ?_) | (with_reducible refine setCq_keeps ?_)
    | with_reducible refine keeps_ite ?_ ?_))

theorem startCreateSq_keeps {s0 : State} {s : State} {c : Cmd} {qid : Nat} {size : Nat} {cqid : Nat} {prio : Nat} (h : Keeps s0
    s) : Keeps s0 (startCreateSq s c qid size cqid prio) := by
  unfold startCreateSq
  (repeat' (first
    | with_reducible assumption | (with_reducible refine endCmd_keeps ?_) | (with_reducible refine setSq_keeps ?_)
    | with_reducible refine keeps_ite ?_ ?_))

theorem startIdentify_keeps {s0 : State} {s : State} {c : Cmd} {cns : Nat} {nsid : Nat} (h : Keeps s0 s) : Keeps s0
    (startIdentify s c cns nsid) := by
  unfold startIdentify
  (repeat' (first
    | with_reducible assumption | (with_reducible refine endCmd_keeps ?_) | (with_reducible refine returnPage_keeps ?_)
    | split))

theorem startSelfTest_keeps {s0 : State} {s : State} {c : Cmd} {code : Nat} {nsid : Nat} (h : Keeps s0 s) : Keeps s0
    (startSelfTest s c code nsid) := by
  unfold startSelfTest
  (repeat' (first
    | with_reducible assumption | (with_reducible refine endCmd_keeps ?_) | (with_reducible refine endSelfTest_keeps ?_)
    | with_reducible refine keeps_ite ?_ ?_ | fail_if_no_progress (with_reducible refine Keeps.upd ?_)))

theorem startDirSend_keeps {s0 : State} {s : State} {c : Cmd} {nsid : Nat} {dtype : Nat} {doper : Nat} {value : Nat} (h : Keeps
    s0 s) : Keeps s0 (startDirSend s c nsid dtype doper value) := by
  unfold startDirSend
  (repeat' (first
    | with_reducible assumption | (with_reducible refine endCmd_keeps ?_) | (with_reducible refine setNs_keeps ?_) | split))

theorem powerEnter_keeps {s0 : State} {s : State} {ps : Nat} (h : Keeps s0 s) : Keeps s0 (powerEnter s ps) := by
  unfold powerEnter
  (repeat' (first
    | with_reducible assumption | (with_reducible refine writeEn_keeps ?_) | with_reducible refine keeps_ite ?_ ?_
    | with_reducible refine keeps_foldl (fun _ _ _ => ?_) ?_ | fail_if_no_progress (with_reducible refine Keeps.upd ?_)))

theorem startSetFeatures_keeps {s0 : State} {s : State} {c : Cmd} {fid : Nat} {nsid : Nat} {value : Nat} {save : Bool} (h :
    Keeps s0 s) : Keeps s0 (startSetFeatures s c fid nsid value save) := by
  unfold startSetFeatures
  (repeat' (first
    | with_reducible assumption | (with_reducible refine endCmd_keeps ?_) | (with_reducible refine setCtrl_keeps ?_)
    | (with_reducible refine powerEnter_keeps ?_) | split))

theorem startGetFeatures_keeps {s0 : State} {s : State} {c : Cmd} {fid : Nat} {nsid : Nat} (h : Keeps s0 s) : Keeps s0
    (startGetFeatures s c fid nsid) := by
  unfold startGetFeatures
  (repeat' (first | with_reducible assumption | (with_reducible refine endCmd_keeps ?_) | split))

theorem startFlowBind_keeps {s0 : State} {s : State} {c : Cmd} {cdw10 : Nat} {img : List Byte} (h : Keeps s0 s) : Keeps s0
    (startFlowBind s c cdw10 img) := by
  unfold startFlowBind
  (repeat' (first
    | with_reducible assumption | (with_reducible refine endCmd_keeps ?_) | (with_reducible refine bindFlow_keeps ?_) | split))

theorem startDeleteSq_keeps {s0 : State} {s : State} {c : Cmd} {qid : Nat} (h : Keeps s0 s) : Keeps s0 (startDeleteSq s c qid)
    := by
  unfold startDeleteSq
  (repeat' (first
    | with_reducible assumption | (with_reducible refine endCmd_keeps ?_) | (with_reducible refine abortQueue_keeps ?_)
    | split))

theorem startAbort_keeps {s0 : State} {s : State} {c : Cmd} {sqid : Nat} {cid : Nat} (h : Keeps s0 s) : Keeps s0 (startAbort s
    c sqid cid) := by
  unfold startAbort
  (repeat' (first
    | with_reducible assumption | (with_reducible refine endCmd_keeps ?_) | (with_reducible refine abortPoint_keeps ?_)
    | with_reducible refine keeps_ite ?_ ?_))

theorem startAsync_keeps {s0 : State} {s : State} {c : Cmd} (h : Keeps s0 s) : Keeps s0 (startAsync s c) := by
  unfold startAsync
  (repeat' (first
    | with_reducible assumption | (with_reducible refine endCmd_keeps ?_) | (with_reducible refine deliverEvent_keeps ?_)
    | with_reducible refine keeps_ite ?_ ?_ | split))

theorem startRequalify_keeps {s0 : State} {s : State} {c : Cmd} {op : Nat} {hi : Nat} {d : List Byte} (h : Keeps s0 s) : Keeps
    s0 (startRequalify s c op hi d) := by
  unfold startRequalify
  (repeat' (first
    | with_reducible assumption | (with_reducible refine qualDrain_keeps ?_) | (with_reducible refine endCmd_keeps ?_)
    | (with_reducible refine thermLoad_keeps ?_) | (with_reducible refine holdSave_keeps ?_)
    | (with_reducible refine thermSave_keeps ?_) | (with_reducible refine setProf_keeps ?_)
    | with_reducible refine keeps_ite ?_ ?_))

theorem pageRead_keeps {s0 : State} {s : State} {ctrl : Nat} {lid : Nat} {rae : Bool} (h : Keeps s0 s) : Keeps s0 (pageRead s
    ctrl lid rae) := by
  unfold pageRead
  (repeat' (first
    | with_reducible assumption | (with_reducible refine setCtrl_keeps ?_) | with_reducible refine keeps_ite ?_ ?_
    | fail_if_no_progress (with_reducible refine Keeps.upd ?_)))

theorem startGetLog_keeps {s0 : State} {s : State} {c : Cmd} {lid : Nat} {off : Nat} {len : Nat} {rae : Bool} (h : Keeps s0 s)
    : Keeps s0 (startGetLog s c lid off len rae) := by
  unfold startGetLog
  (repeat' (first
    | with_reducible assumption | (with_reducible refine pageRead_keeps ?_) | (with_reducible refine endCmd_keeps ?_)
    | (with_reducible refine returnPage_keeps ?_) | split))

theorem startLoad_keeps {s0 : State} {s : State} {c : Cmd} {d : List Byte} {fieldBad : Bool} {st : Nat} {go : State → State} (h
    : Keeps s0 s) (h_go : ∀ z0, Keeps s0 z0 → Keeps s0 (go z0)) : Keeps s0 (startLoad s c d fieldBad st go) := by
  unfold startLoad
  (repeat' (first
    | (with_reducible refine endCmd_keeps ?_) | with_reducible refine keeps_ite ?_ ?_ | with_reducible apply_assumption))

theorem slotErase_keeps {s0 : State} {s : State} {slot : Nat} {n : Nat} (h : Keeps s0 s) : Keeps s0 (slotErase s slot n) := by
  unfold slotErase
  (repeat' (first
    | with_reducible assumption | (with_reducible refine csEraseWhole_keeps ?_)
    | with_reducible refine keeps_foldl (fun _ _ _ => ?_) ?_ | split))

theorem slotProgram_keeps {s0 : State} {s : State} {slot : Nat} {off : Nat} {bs : List Byte} (h : Keeps s0 s) : Keeps s0
    (slotProgram s slot off bs) := by
  unfold slotProgram
  (repeat' (first
    | with_reducible assumption | (with_reducible refine csProgram_keeps ?_)
    | with_reducible refine keeps_foldl (fun _ _ _ => ?_) ?_ | dsimp only | split))

theorem startFwCommit_keeps {s0 : State} {s : State} {c : Cmd} {action : Nat} {slot : Nat} {fault : Bool} {ok : Bool} (h :
    Keeps s0 s) : Keeps s0 (startFwCommit s c action slot fault ok) := by
  unfold startFwCommit
  (repeat' (first
    | with_reducible assumption | (with_reducible refine gateCommit_keeps ?_) | (with_reducible refine endCmd_keeps ?_)
    | (with_reducible refine slotErase_keeps ?_) | (with_reducible refine warmReset_keeps ?_)
    | (with_reducible refine gateActivate_keeps ?_) | (with_reducible refine slotProgram_keeps ?_)
    | with_reducible refine keeps_ite ?_ ?_ | fail_if_no_progress (with_reducible refine Keeps.upd ?_)))

theorem startRuleLoad_keeps {s0 : State} {s : State} {c : Cmd} {mode : Nat} {hi : Nat} {d : List Byte} (h : Keeps s0 s) : Keeps
    s0 (startRuleLoad s c mode hi d) := by
  unfold startRuleLoad
  (repeat' (first
    | with_reducible assumption | (with_reducible refine endCmd_keeps ?_) | (with_reducible refine ruleReplace_keeps ?_)
    | (with_reducible refine ruleQueue_keeps ?_) | with_reducible refine keeps_ite ?_ ?_))

theorem startFwDownload_keeps {s0 : State} {s : State} {c : Cmd} {off : Nat} {bs : List Byte} (h : Keeps s0 s) : Keeps s0
    (startFwDownload s c off bs) := by
  unfold startFwDownload
  (repeat' (first
    | with_reducible assumption | (with_reducible refine endCmd_keeps ?_) | (with_reducible refine slotErase_keeps ?_)
    | (with_reducible refine slotProgram_keeps ?_) | with_reducible refine keeps_ite ?_ ?_
    | fail_if_no_progress (with_reducible refine Keeps.upd ?_)))

theorem startNsAttach_keeps {s0 : State} {s : State} {c : Cmd} {nsid : Nat} {attach : Bool} (h : Keeps s0 s) : Keeps s0
    (startNsAttach s c nsid attach) := by
  unfold startNsAttach
  (repeat' (first
    | with_reducible assumption | (with_reducible refine endCmd_keeps ?_) | (with_reducible refine setNs_keeps ?_) | split))

theorem correctorCheck_keeps {s0 : State} {s : State} {cls : Nat} (h : Keeps s0 s) : Keeps s0 (correctorCheck s cls) := by
  unfold correctorCheck
  (repeat' (first
    | with_reducible assumption | (with_reducible refine State.fresh_keeps ?_) | (with_reducible refine countCe_keeps ?_)))

theorem selfTestEnd_keeps {s0 : State} {s : State} {pass : Bool} (h : Keeps s0 s) : Keeps s0 (selfTestEnd s pass) := by
  unfold selfTestEnd
  (repeat' (first
    | with_reducible assumption | (with_reducible refine shadowCheck_keeps ?_)
    | (with_reducible refine correctorCheck_keeps ?_) | (with_reducible refine endSelfTest_keeps ?_)
    | with_reducible refine keeps_foldl (fun _ _ _ => ?_) ?_ | split))

theorem sanitizeDone_keeps {s0 : State} {s : State} (h : Keeps s0 s) : Keeps s0 (sanitizeDone s) := by
  unfold sanitizeDone
  (repeat' (first
    | with_reducible assumption | (with_reducible refine deallocNs_keeps ?_)
    | with_reducible refine keeps_foldl (fun _ _ _ => ?_) ?_ | split
    | fail_if_no_progress (with_reducible refine Keeps.upd ?_)))

end Sys2Proof.Machine
end

