-- ==== Sys2Proof/Laws/Keeps8.lean ====
section
/-! SUPPORT. Sys2Proof/Laws/Keeps8.lean: what each operation of NvmeCmds, Mi, Pcie keeps (`Keeps`). -/

set_option Elab.async false
set_option linter.unusedVariables false

namespace Sys2Proof.Machine

/-! ### NvmeCmds -/

theorem enterCmd_keeps {s0 : State} {s : State} {q : CmdRef} {op : NvmeOp} (h : Keeps s0 s) : Keeps s0 (enterCmd s q op) := by
  unfold enterCmd
  (repeat' (first
    | with_reducible assumption | (with_reducible refine fetchEntry_keeps ?_) | (with_reducible refine addCmd_keeps ?_)
    | (with_reducible refine updCmd_keeps ?_) | with_reducible refine keeps_ite ?_ ?_
    | fail_if_no_progress (with_reducible refine Keeps.upd ?_)))

theorem miReply_keeps {s0 : State} {s : State} {st : Nat} {dw0 : Nat} {data : List Byte} (h : Keeps s0 s) : Keeps s0 (miReply s
    st dw0 data) := by
  unfold miReply
  (repeat' (first | with_reducible assumption | fail_if_no_progress (with_reducible refine Keeps.upd ?_)))

theorem arbServed_keeps {s0 : State} {s : State} {k_ : Fin 2} {q : Nat} {cls : Nat} {anew : Bool} (h : Keeps s0 s) : Keeps s0
    (arbServed s k_ q cls anew) := by
  unfold arbServed
  (repeat' (first
    | with_reducible assumption | (with_reducible refine setCtrl_keeps ?_) | with_reducible refine keeps_ite ?_ ?_))

theorem startCmd_keeps {s0 : State} {s : State} {c : Cmd} (h : Keeps s0 s) : Keeps s0 (startCmd s c) := by
  unfold startCmd
  (repeat' (first
    | with_reducible assumption | (with_reducible refine startDsm_keeps ?_) | (with_reducible refine startFormat_keeps ?_)
    | (with_reducible refine startSlmRead_keeps ?_) | (with_reducible refine startNsManage_keeps ?_)
    | (with_reducible refine startDirReceive_keeps ?_) | (with_reducible refine startFabTags_keeps ?_)
    | (with_reducible refine startDeleteCq_keeps ?_) | (with_reducible refine startSanitize_keeps ?_)
    | (with_reducible refine profLoad_keeps ?_) | (with_reducible refine startExecute_keeps ?_)
    | (with_reducible refine endCmd_keeps ?_) | (with_reducible refine startParcelRead_keeps ?_)
    | (with_reducible refine startVerify_keeps ?_) | (with_reducible refine setLoad_keeps ?_)
    | (with_reducible refine startFlowUnbind_keeps ?_) | (with_reducible refine startCreateCq_keeps ?_)
    | (with_reducible refine startCreateSq_keeps ?_) | (with_reducible refine startWrite_keeps ?_)
    | (with_reducible refine startRangeSet_keeps ?_) | (with_reducible refine startIdentify_keeps ?_)
    | (with_reducible refine fabLoad_keeps ?_) | (with_reducible refine startSelfTest_keeps ?_)
    | (with_reducible refine startSlmWrite_keeps ?_) | (with_reducible refine startDirSend_keeps ?_)
    | (with_reducible refine startSetFeatures_keeps ?_) | (with_reducible refine startGetFeatures_keeps ?_)
    | (with_reducible refine startFlowBind_keeps ?_) | (with_reducible refine autoLoad_keeps ?_)
    | (with_reducible refine startDeleteSq_keeps ?_) | (with_reducible refine startAbort_keeps ?_)
    | (with_reducible refine persLoad_keeps ?_) | (with_reducible refine startMemoryCopy_keeps ?_)
    | (with_reducible refine startAsync_keeps ?_) | (with_reducible refine startActivate_keeps ?_)
    | (with_reducible refine startRequalify_keeps ?_) | (with_reducible refine startFlush_keeps ?_)
    | (with_reducible refine startGetLog_keeps ?_) | (with_reducible refine startLoad_keeps ?_ ?_)
    | (with_reducible refine startFwCommit_keeps ?_) | (with_reducible refine startHostRead_keeps ?_)
    | (with_reducible refine startRuleLoad_keeps ?_) | (with_reducible refine startFwDownload_keeps ?_)
    | (with_reducible refine startNsAttach_keeps ?_) | (with_reducible refine progLoad_keeps ?_) | intro _ | split))

theorem startPicked_keeps {s0 : State} {s : State} {c : Cmd} (h : Keeps s0 s) : Keeps s0 (startPicked s c) := by
  unfold startPicked
  (repeat' (first
    | with_reducible assumption | (with_reducible refine startCmd_keeps ?_) | (with_reducible refine updCmd_keeps ?_)))

theorem arbStart_keeps {s0 : State} {s : State} {k_ : Fin 2} {want : Cmd → Bool} (h : Keeps s0 s) : Keeps s0 (arbStart s k_
    want) := by
  unfold arbStart
  (repeat' (first
    | with_reducible assumption | (with_reducible refine arbServed_keeps ?_) | (with_reducible refine startPicked_keeps ?_)
    | split))

theorem tunnelStart_keeps {s0 : State} {s : State} (h : Keeps s0 s) : Keeps s0 (tunnelStart s) := by
  unfold tunnelStart
  (repeat' (first | with_reducible assumption | (with_reducible refine startPicked_keeps ?_) | split))

theorem submit_keeps {s0 : State} {s : State} {q : CmdRef} {op : NvmeOp} (h : Keeps s0 s) : Keeps s0 (submit s q op) := by
  unfold submit
  (repeat' (first
    | with_reducible assumption | (with_reducible refine noteWaits_keeps ?_) | (with_reducible refine enterCmd_keeps ?_)
    | (with_reducible refine miReply_keeps ?_) | (with_reducible refine arbStart_keeps ?_)
    | (with_reducible refine tunnelStart_keeps ?_) | split))

theorem execProgramSlotLoad_keeps {s0 : State} {q : CmdRef} {cdw10 : BitVec 32} {image : List Byte} {s : State} (h : Keeps s0
    s) : KRes s0 (execProgramSlotLoad q cdw10 image s) := by
  unfold execProgramSlotLoad
  (repeat' (first | with_reducible assumption | (with_reducible refine submit_keeps ?_) | with_reducible refine kRes_next ?_))

theorem execStepTableLoad_keeps {s0 : State} {q : CmdRef} {image : List Byte} {s : State} (h : Keeps s0 s) : KRes s0
    (execStepTableLoad q image s) := by
  unfold execStepTableLoad
  (repeat' (first | with_reducible assumption | (with_reducible refine submit_keeps ?_) | with_reducible refine kRes_next ?_))

theorem execNamespaceAttachment_keeps {s0 : State} {q : CmdRef} {nsid : Nat} {attach : Bool} {s : State} (h : Keeps s0 s) :
    KRes s0 (execNamespaceAttachment q nsid attach s) := by
  unfold execNamespaceAttachment
  (repeat' (first | with_reducible assumption | (with_reducible refine submit_keeps ?_) | with_reducible refine kRes_next ?_))

theorem execCreateIoCq_keeps {s0 : State} {q : CmdRef} {qid : Nat} {size : Nat} {vector : Nat} {ien : Bool} {s : State} (h :
    Keeps s0 s) : KRes s0 (execCreateIoCq q qid size vector ien s) := by
  unfold execCreateIoCq
  (repeat' (first | with_reducible assumption | (with_reducible refine submit_keeps ?_) | with_reducible refine kRes_next ?_))

theorem execHoldupRequalifyProfile_keeps {s0 : State} {q : CmdRef} {hi : BitVec 30} {data : List Byte} {s : State} (h : Keeps
    s0 s) : KRes s0 (execHoldupRequalifyProfile q hi data s) := by
  unfold execHoldupRequalifyProfile
  (repeat' (first | with_reducible assumption | (with_reducible refine submit_keeps ?_) | with_reducible refine kRes_next ?_))

theorem execShutdownNotify_keeps {s0 : State} {c : Fin 2} {shn : Fin 4} {s : State} (h : Keeps s0 s) : KRes s0
    (execShutdownNotify c shn s) := by
  unfold execShutdownNotify
  (repeat' (first
    | with_reducible assumption | (with_reducible refine shutdownStart_keeps ?_) | with_reducible refine kRes_next ?_))

theorem execProgramActivationManagement_keeps {s0 : State} {q : CmdRef} {pind : Nat} {act : Bool} {s : State} (h : Keeps s0 s)
    : KRes s0 (execProgramActivationManagement q pind act s) := by
  unfold execProgramActivationManagement
  (repeat' (first | with_reducible assumption | (with_reducible refine submit_keeps ?_) | with_reducible refine kRes_next ?_))

theorem execSelfTestEnd_keeps {s0 : State} {pass : Bool} {s : State} (h : Keeps s0 s) : KRes s0 (execSelfTestEnd pass s) := by
  unfold execSelfTestEnd
  (repeat' (first
    | with_reducible assumption | (with_reducible refine selfTestEnd_keeps ?_) | with_reducible refine kRes_next ?_))

theorem execRuleTableLoadReplace_keeps {s0 : State} {q : CmdRef} {hi : BitVec 30} {image : List Byte} {s : State} (h : Keeps s0
    s) : KRes s0 (execRuleTableLoadReplace q hi image s) := by
  unfold execRuleTableLoadReplace
  (repeat' (first | with_reducible assumption | (with_reducible refine submit_keeps ?_) | with_reducible refine kRes_next ?_))

theorem execCpTimeLimitExpiry_keeps {s0 : State} {t_ : TileId} {s : State} (h : Keeps s0 s) : KRes s0 (execCpTimeLimitExpiry t_
    s) := by
  unfold execCpTimeLimitExpiry
  (repeat' (first
    | with_reducible assumption | (with_reducible refine cpTimeLimit_keeps ?_) | with_reducible refine kRes_next ?_))

theorem execCreateIoSq_keeps {s0 : State} {q : CmdRef} {qid : Nat} {size : Nat} {cqid : Nat} {prio : Fin 4} {s : State} (h :
    Keeps s0 s) : KRes s0 (execCreateIoSq q qid size cqid prio s) := by
  unfold execCreateIoSq
  (repeat' (first | with_reducible assumption | (with_reducible refine submit_keeps ?_) | with_reducible refine kRes_next ?_))

theorem execFirmwareCommitAction0_keeps {s0 : State} {q : CmdRef} {slot : Nat} {fault : Bool} {ok : Bool} {s : State} (h :
    Keeps s0 s) : KRes s0 (execFirmwareCommitAction0 q slot fault ok s) := by
  unfold execFirmwareCommitAction0
  (repeat' (first | with_reducible assumption | (with_reducible refine submit_keeps ?_) | with_reducible refine kRes_next ?_))

theorem execCodecProfileLoad_keeps {s0 : State} {q : CmdRef} {image : List Byte} {s : State} (h : Keeps s0 s) : KRes s0
    (execCodecProfileLoad q image s) := by
  unfold execCodecProfileLoad
  (repeat' (first | with_reducible assumption | (with_reducible refine submit_keeps ?_) | with_reducible refine kRes_next ?_))

theorem execFabricConfigureLoad_keeps {s0 : State} {q : CmdRef} {hi : BitVec 30} {image : List Byte} {s : State} (h : Keeps s0
    s) : KRes s0 (execFabricConfigureLoad q hi image s) := by
  unfold execFabricConfigureLoad
  (repeat' (first | with_reducible assumption | (with_reducible refine submit_keeps ?_) | with_reducible refine kRes_next ?_))

theorem execDirectiveSend_keeps {s0 : State} {q : CmdRef} {nsid : Nat} {dtype : Nat} {doper : Nat} {value : Nat} {s : State} (h
    : Keeps s0 s) : KRes s0 (execDirectiveSend q nsid dtype doper value s) := by
  unfold execDirectiveSend
  (repeat' (first | with_reducible assumption | (with_reducible refine submit_keeps ?_) | with_reducible refine kRes_next ?_))

theorem execDatasetManagement_keeps {s0 : State} {q : CmdRef} {nsid : Nat} {ranges : List LbaRange} {s : State} (h : Keeps s0
    s) : KRes s0 (execDatasetManagement q nsid ranges s) := by
  unfold execDatasetManagement
  (repeat' (first | with_reducible assumption | (with_reducible refine submit_keeps ?_) | with_reducible refine kRes_next ?_))

theorem execGetFeatures_keeps {s0 : State} {q : CmdRef} {fid : Nat} {nsid : Nat} {s : State} (h : Keeps s0 s) : KRes s0
    (execGetFeatures q fid nsid s) := by
  unfold execGetFeatures
  (repeat' (first | with_reducible assumption | (with_reducible refine submit_keeps ?_) | with_reducible refine kRes_next ?_))

theorem execSanitizeBlockErase_keeps {s0 : State} {q : CmdRef} {s : State} (h : Keeps s0 s) : KRes s0 (execSanitizeBlockErase q
    s) := by
  unfold execSanitizeBlockErase
  (repeat' (first | with_reducible assumption | (with_reducible refine submit_keeps ?_) | with_reducible refine kRes_next ?_))

theorem execSetFeatures_keeps {s0 : State} {q : CmdRef} {fid : Nat} {nsid : Nat} {value : Nat} {save : Bool} {s : State} (h :
    Keeps s0 s) : KRes s0 (execSetFeatures q fid nsid value save s) := by
  unfold execSetFeatures
  (repeat' (first | with_reducible assumption | (with_reducible refine submit_keeps ?_) | with_reducible refine kRes_next ?_))

theorem execHoldupThermalProfile_keeps {s0 : State} {q : CmdRef} {hi : BitVec 30} {data : List Byte} {s : State} (h : Keeps s0
    s) : KRes s0 (execHoldupThermalProfile q hi data s) := by
  unfold execHoldupThermalProfile
  (repeat' (first | with_reducible assumption | (with_reducible refine submit_keeps ?_) | with_reducible refine kRes_next ?_))

theorem execDeviceSelfTestAbort_keeps {s0 : State} {q : CmdRef} {s : State} (h : Keeps s0 s) : KRes s0 (execDeviceSelfTestAbort
    q s) := by
  unfold execDeviceSelfTestAbort
  (repeat' (first | with_reducible assumption | (with_reducible refine submit_keeps ?_) | with_reducible refine kRes_next ?_))

theorem execAsyncEventRequest_keeps {s0 : State} {q : CmdRef} {s : State} (h : Keeps s0 s) : KRes s0 (execAsyncEventRequest q
    s) := by
  unfold execAsyncEventRequest
  (repeat' (first | with_reducible assumption | (with_reducible refine submit_keeps ?_) | with_reducible refine kRes_next ?_))

theorem execWrite_keeps {s0 : State} {q : CmdRef} {nsid : Nat} {slba : Nat} {nlb : Nat} {dtype : Nat} {dspec : Nat} {fua :
    Bool} {ptr : DataPtr} {s : State} (h : Keeps s0 s) : KRes s0 (execWrite q nsid slba nlb dtype dspec fua ptr s) := by
  unfold execWrite
  (repeat' (first | with_reducible assumption | (with_reducible refine submit_keeps ?_) | with_reducible refine kRes_next ?_))

theorem fetchFails_keeps {s0 : State} {s : State} {c : Cmd} {seq : Nat} (h : Keeps s0 s) : Keeps s0 (fetchFails s c seq) := by
  unfold fetchFails
  (repeat' (first
    | with_reducible assumption | (with_reducible refine dropUncut_keeps ?_) | (with_reducible refine updCmd_keeps ?_)
    | with_reducible refine keeps_ite ?_ ?_ | split | fail_if_no_progress (with_reducible refine Keeps.upd ?_)))

theorem hostReadFailure_keeps {s0 : State} {s : State} {q : CmdRef} {seq : Option Nat} {cto : Bool} (h : Keeps s0 s) : Keeps s0
    (hostReadFailure s q seq cto) := by
  unfold hostReadFailure
  (repeat' (first
    | with_reducible assumption | (with_reducible refine fetchFails_keeps ?_) | (with_reducible refine State.raise_keeps ?_)
    | (with_reducible refine updCmd_keeps ?_) | dsimp only | split | fail_if_no_progress (with_reducible refine Keeps.upd ?_)))

theorem execHostReadFailure_keeps {s0 : State} {q : CmdRef} {seq : Option Nat} {cto : Bool} {s : State} (h : Keeps s0 s) : KRes
    s0 (execHostReadFailure q seq cto s) := by
  unfold execHostReadFailure
  (repeat' (first
    | with_reducible assumption | (with_reducible refine hostReadFailure_keeps ?_) | with_reducible refine kRes_next ?_))

theorem execControllerEnable_keeps {s0 : State} {c : Fin 2} {asqs : Nat} {acqs : Nat} {s : State} (h : Keeps s0 s) : KRes s0
    (execControllerEnable c asqs acqs s) := by
  unfold execControllerEnable
  (repeat' (first
    | with_reducible assumption | (with_reducible refine ctrlEnable_keeps ?_) | with_reducible refine kRes_next ?_))

theorem execExecuteProgram_keeps {s0 : State} {q : CmdRef} {pind : Nat} {rsid : Nat} {p0 : BitVec 32} {p1 : BitVec 32} {p2 :
    BitVec 32} {s : State} (h : Keeps s0 s) : KRes s0 (execExecuteProgram q pind rsid p0 p1 p2 s) := by
  unfold execExecuteProgram
  (repeat' (first | with_reducible assumption | (with_reducible refine submit_keeps ?_) | with_reducible refine kRes_next ?_))

theorem execPersonalityLoad_keeps {s0 : State} {q : CmdRef} {cdw10 : BitVec 32} {image : List Byte} {s : State} (h : Keeps s0
    s) : KRes s0 (execPersonalityLoad q cdw10 image s) := by
  unfold execPersonalityLoad
  (repeat' (first | with_reducible assumption | (with_reducible refine submit_keeps ?_) | with_reducible refine kRes_next ?_))

theorem execInvalidCommandOpcode_keeps {s0 : State} {q : CmdRef} {opcode : Nat} {s : State} (h : Keeps s0 s) : KRes s0
    (execInvalidCommandOpcode q opcode s) := by
  unfold execInvalidCommandOpcode
  (repeat' (first | with_reducible assumption | (with_reducible refine submit_keeps ?_) | with_reducible refine kRes_next ?_))

theorem execSlmRead_keeps {s0 : State} {q : CmdRef} {slm : Nat} {off : Nat} {len : Nat} {s : State} (h : Keeps s0 s) : KRes s0
    (execSlmRead q slm off len s) := by
  unfold execSlmRead
  (repeat' (first | with_reducible assumption | (with_reducible refine submit_keeps ?_) | with_reducible refine kRes_next ?_))

theorem execFirmwareCommitAction2_keeps {s0 : State} {q : CmdRef} {slot : Nat} {fault : Bool} {ok : Bool} {s : State} (h :
    Keeps s0 s) : KRes s0 (execFirmwareCommitAction2 q slot fault ok s) := by
  unfold execFirmwareCommitAction2
  (repeat' (first | with_reducible assumption | (with_reducible refine submit_keeps ?_) | with_reducible refine kRes_next ?_))

theorem execRead_keeps {s0 : State} {q : CmdRef} {nsid : Nat} {slba : Nat} {nlb : Nat} {bad : List Nat} {s : State} (h : Keeps
    s0 s) : KRes s0 (execRead q nsid slba nlb bad s) := by
  unfold execRead
  (repeat' (first | with_reducible assumption | (with_reducible refine submit_keeps ?_) | with_reducible refine kRes_next ?_))

theorem execFlowUnbind_keeps {s0 : State} {q : CmdRef} {cdw10 : BitVec 32} {s : State} (h : Keeps s0 s) : KRes s0
    (execFlowUnbind q cdw10 s) := by
  unfold execFlowUnbind
  (repeat' (first | with_reducible assumption | (with_reducible refine submit_keeps ?_) | with_reducible refine kRes_next ?_))

theorem execCommandComplete_keeps {s0 : State} {src : QueueRef} {s : State} (h : Keeps s0 s) : KRes s0 (execCommandComplete src
    s) := by
  unfold execCommandComplete
  (repeat' (first
    | with_reducible assumption | (with_reducible refine commandComplete_keeps ?_) | with_reducible refine kRes_next ?_))

theorem execVerify_keeps {s0 : State} {q : CmdRef} {nsid : Nat} {slba : Nat} {nlb : Nat} {bad : List Nat} {s : State} (h :
    Keeps s0 s) : KRes s0 (execVerify q nsid slba nlb bad s) := by
  unfold execVerify
  (repeat' (first | with_reducible assumption | (with_reducible refine submit_keeps ?_) | with_reducible refine kRes_next ?_))

theorem execDirectiveReceive_keeps {s0 : State} {q : CmdRef} {nsid : Nat} {dtype : Nat} {doper : Nat} {s : State} (h : Keeps s0
    s) : KRes s0 (execDirectiveReceive q nsid dtype doper s) := by
  unfold execDirectiveReceive
  (repeat' (first | with_reducible assumption | (with_reducible refine submit_keeps ?_) | with_reducible refine kRes_next ?_))

theorem execFlush_keeps {s0 : State} {q : CmdRef} {nsid : Nat} {s : State} (h : Keeps s0 s) : KRes s0 (execFlush q nsid s) := by
  unfold execFlush
  (repeat' (first | with_reducible assumption | (with_reducible refine submit_keeps ?_) | with_reducible refine kRes_next ?_))

theorem execDeleteIoCq_keeps {s0 : State} {q : CmdRef} {qid : Nat} {s : State} (h : Keeps s0 s) : KRes s0 (execDeleteIoCq q qid
    s) := by
  unfold execDeleteIoCq
  (repeat' (first | with_reducible assumption | (with_reducible refine submit_keeps ?_) | with_reducible refine kRes_next ?_))

theorem execCqHeadDoorbell_keeps {s0 : State} {c : Fin 2} {cq : Nat} {head : Nat} {s : State} (h : Keeps s0 s) : KRes s0
    (execCqHeadDoorbell c cq head s) := by
  unfold execCqHeadDoorbell
  (repeat' (first | with_reducible assumption | (with_reducible refine cqHead_keeps ?_) | with_reducible refine kRes_next ?_))

theorem execSanitizeCryptoErase_keeps {s0 : State} {q : CmdRef} {s : State} (h : Keeps s0 s) : KRes s0 (execSanitizeCryptoErase
    q s) := by
  unfold execSanitizeCryptoErase
  (repeat' (first | with_reducible assumption | (with_reducible refine submit_keeps ?_) | with_reducible refine kRes_next ?_))

theorem execFirmwareImageDownload_keeps {s0 : State} {q : CmdRef} {off : Nat} {bytes : List Byte} {s : State} (h : Keeps s0 s)
    : KRes s0 (execFirmwareImageDownload q off bytes s) := by
  unfold execFirmwareImageDownload
  (repeat' (first | with_reducible assumption | (with_reducible refine submit_keeps ?_) | with_reducible refine kRes_next ?_))

theorem execAutomatonLoad_keeps {s0 : State} {q : CmdRef} {image : List Byte} {s : State} (h : Keeps s0 s) : KRes s0
    (execAutomatonLoad q image s) := by
  unfold execAutomatonLoad
  (repeat' (first | with_reducible assumption | (with_reducible refine submit_keeps ?_) | with_reducible refine kRes_next ?_))

theorem execParcelRead_keeps {s0 : State} {q : CmdRef} {nsid : Nat} {slba : Nat} {cdw12 : BitVec 32} {bad : List Nat} {s :
    State} (h : Keeps s0 s) : KRes s0 (execParcelRead q nsid slba cdw12 bad s) := by
  unfold execParcelRead
  (repeat' (first | with_reducible assumption | (with_reducible refine submit_keeps ?_) | with_reducible refine kRes_next ?_))

theorem commandStart_keeps {s0 : State} {s : State} {k_ : Fin 2} (h : Keeps s0 s) : Keeps s0 (commandStart s k_) := by
  unfold commandStart
  (repeat' (first
    | with_reducible assumption | (with_reducible refine noteWaits_keeps ?_) | (with_reducible refine arbStart_keeps ?_)
    | (with_reducible refine tunnelStart_keeps ?_) | with_reducible refine keeps_ite ?_ ?_ | intro _ | dsimp only | split ))

theorem execGetLogPage_keeps {s0 : State} {q : CmdRef} {lid : Nat} {nsid : Nat} {off : Nat} {len : Nat} {rae : Bool} {s :
    State} (h : Keeps s0 s) : KRes s0 (execGetLogPage q lid nsid off len rae s) := by
  unfold execGetLogPage
  (repeat' (first | with_reducible assumption | (with_reducible refine submit_keeps ?_) | with_reducible refine kRes_next ?_))

theorem execFormatNvm_keeps {s0 : State} {q : CmdRef} {nsid : Nat} {lbaf : Nat} {ses : Nat} {s : State} (h : Keeps s0 s) : KRes
    s0 (execFormatNvm q nsid lbaf ses s) := by
  unfold execFormatNvm
  (repeat' (first | with_reducible assumption | (with_reducible refine submit_keeps ?_) | with_reducible refine kRes_next ?_))

theorem execDeviceSelfTestExtended_keeps {s0 : State} {q : CmdRef} {nsid : Nat} {s : State} (h : Keeps s0 s) : KRes s0
    (execDeviceSelfTestExtended q nsid s) := by
  unfold execDeviceSelfTestExtended
  (repeat' (first | with_reducible assumption | (with_reducible refine submit_keeps ?_) | with_reducible refine kRes_next ?_))

theorem execLoadProgram_keeps {s0 : State} {q : CmdRef} {pind : Nat} {image : List Byte} {s : State} (h : Keeps s0 s) : KRes s0
    (execLoadProgram q pind image s) := by
  unfold execLoadProgram
  (repeat' (first | with_reducible assumption | (with_reducible refine submit_keeps ?_) | with_reducible refine kRes_next ?_))

theorem execFlowBind_keeps {s0 : State} {q : CmdRef} {cdw10 : BitVec 32} {image : List Byte} {s : State} (h : Keeps s0 s) :
    KRes s0 (execFlowBind q cdw10 image s) := by
  unfold execFlowBind
  (repeat' (first | with_reducible assumption | (with_reducible refine submit_keeps ?_) | with_reducible refine kRes_next ?_))

theorem execShutdownComplete_keeps {s0 : State} {c : Fin 2} {s : State} (h : Keeps s0 s) : KRes s0 (execShutdownComplete c s)
    := by
  unfold execShutdownComplete
  (repeat' (first
    | with_reducible assumption | (with_reducible refine shutdownEnd_keeps ?_) | with_reducible refine kRes_next ?_))

theorem execNamespaceManagement_keeps {s0 : State} {q : CmdRef} {m : NsMgmt} {s : State} (h : Keeps s0 s) : KRes s0
    (execNamespaceManagement q m s) := by
  unfold execNamespaceManagement
  (repeat' (first | with_reducible assumption | (with_reducible refine submit_keeps ?_) | with_reducible refine kRes_next ?_))

theorem execSqTailDoorbell_keeps {s0 : State} {c : Fin 2} {sq : Nat} {tail : Nat} {s : State} (h : Keeps s0 s) : KRes s0
    (execSqTailDoorbell c sq tail s) := by
  unfold execSqTailDoorbell
  (repeat' (first | with_reducible assumption | (with_reducible refine sqTail_keeps ?_) | with_reducible refine kRes_next ?_))

theorem execRuleTableLoadInsert_keeps {s0 : State} {q : CmdRef} {hi : BitVec 30} {image : List Byte} {s : State} (h : Keeps s0
    s) : KRes s0 (execRuleTableLoadInsert q hi image s) := by
  unfold execRuleTableLoadInsert
  (repeat' (first | with_reducible assumption | (with_reducible refine submit_keeps ?_) | with_reducible refine kRes_next ?_))

theorem execSanitizeDone_keeps {s0 : State} {s : State} (h : Keeps s0 s) : KRes s0 (execSanitizeDone s) := by
  unfold execSanitizeDone
  (repeat' (first
    | with_reducible assumption | (with_reducible refine sanitizeDone_keeps ?_) | with_reducible refine kRes_next ?_))

theorem execFabricConfigureTags_keeps {s0 : State} {q : CmdRef} {hi : BitVec 30} {records : List Byte} {s : State} (h : Keeps
    s0 s) : KRes s0 (execFabricConfigureTags q hi records s) := by
  unfold execFabricConfigureTags
  (repeat' (first | with_reducible assumption | (with_reducible refine submit_keeps ?_) | with_reducible refine kRes_next ?_))

theorem execIdentify_keeps {s0 : State} {q : CmdRef} {cns : Nat} {nsid : Nat} {s : State} (h : Keeps s0 s) : KRes s0
    (execIdentify q cns nsid s) := by
  unfold execIdentify
  (repeat' (first | with_reducible assumption | (with_reducible refine submit_keeps ?_) | with_reducible refine kRes_next ?_))

theorem execMemoryRangeSetManagement_keeps {s0 : State} {q : CmdRef} {m : SetMgmt} {s : State} (h : Keeps s0 s) : KRes s0
    (execMemoryRangeSetManagement q m s) := by
  unfold execMemoryRangeSetManagement
  (repeat' (first | with_reducible assumption | (with_reducible refine submit_keeps ?_) | with_reducible refine kRes_next ?_))

theorem execHoldupRequalify_keeps {s0 : State} {q : CmdRef} {hi : BitVec 30} {s : State} (h : Keeps s0 s) : KRes s0
    (execHoldupRequalify q hi s) := by
  unfold execHoldupRequalify
  (repeat' (first | with_reducible assumption | (with_reducible refine submit_keeps ?_) | with_reducible refine kRes_next ?_))

theorem execControllerReset_keeps {s0 : State} {c : Fin 2} {s : State} (h : Keeps s0 s) : KRes s0 (execControllerReset c s) :=
    by
  unfold execControllerReset
  (repeat' (first
    | with_reducible assumption | (with_reducible refine ctrlDisable_keeps ?_) | with_reducible refine kRes_next ?_))

theorem execCommandStart_keeps {s0 : State} {c : Fin 2} {s : State} (h : Keeps s0 s) : KRes s0 (execCommandStart c s) := by
  unfold execCommandStart
  (repeat' (first
    | with_reducible assumption | (with_reducible refine commandStart_keeps ?_) | with_reducible refine kRes_next ?_))

theorem execAbort_keeps {s0 : State} {q : CmdRef} {sqid : Nat} {cid : BitVec 16} {s : State} (h : Keeps s0 s) : KRes s0
    (execAbort q sqid cid s) := by
  unfold execAbort
  (repeat' (first | with_reducible assumption | (with_reducible refine submit_keeps ?_) | with_reducible refine kRes_next ?_))

theorem execSlmWrite_keeps {s0 : State} {q : CmdRef} {slm : Nat} {off : Nat} {bytes : List Byte} {s : State} (h : Keeps s0 s) :
    KRes s0 (execSlmWrite q slm off bytes s) := by
  unfold execSlmWrite
  (repeat' (first | with_reducible assumption | (with_reducible refine submit_keeps ?_) | with_reducible refine kRes_next ?_))

theorem execFirmwareCommitAction1_keeps {s0 : State} {q : CmdRef} {slot : Nat} {fault : Bool} {ok : Bool} {s : State} (h :
    Keeps s0 s) : KRes s0 (execFirmwareCommitAction1 q slot fault ok s) := by
  unfold execFirmwareCommitAction1
  (repeat' (first | with_reducible assumption | (with_reducible refine submit_keeps ?_) | with_reducible refine kRes_next ?_))

theorem execMemoryCopy_keeps {s0 : State} {q : CmdRef} {nsid : Nat} {slba : Nat} {nlb : Nat} {slm : Nat} {off : Nat} {bad :
    List Nat} {s : State} (h : Keeps s0 s) : KRes s0 (execMemoryCopy q nsid slba nlb slm off bad s) := by
  unfold execMemoryCopy
  (repeat' (first | with_reducible assumption | (with_reducible refine submit_keeps ?_) | with_reducible refine kRes_next ?_))

theorem execDeviceSelfTestShort_keeps {s0 : State} {q : CmdRef} {nsid : Nat} {s : State} (h : Keeps s0 s) : KRes s0
    (execDeviceSelfTestShort q nsid s) := by
  unfold execDeviceSelfTestShort
  (repeat' (first | with_reducible assumption | (with_reducible refine submit_keeps ?_) | with_reducible refine kRes_next ?_))

theorem execRuleTableLoadDelete_keeps {s0 : State} {q : CmdRef} {hi : BitVec 30} {image : List Byte} {s : State} (h : Keeps s0
    s) : KRes s0 (execRuleTableLoadDelete q hi image s) := by
  unfold execRuleTableLoadDelete
  (repeat' (first | with_reducible assumption | (with_reducible refine submit_keeps ?_) | with_reducible refine kRes_next ?_))

theorem execDeleteIoSq_keeps {s0 : State} {q : CmdRef} {qid : Nat} {s : State} (h : Keeps s0 s) : KRes s0 (execDeleteIoSq q qid
    s) := by
  unfold execDeleteIoSq
  (repeat' (first | with_reducible assumption | (with_reducible refine submit_keeps ?_) | with_reducible refine kRes_next ?_))

/-! ### Mi -/

theorem miCommand_keeps {s0 : State} {s : State} {inRecovery : Bool} {f : State → State} (h : Keeps s0 s) (h_f : ∀ z0, Keeps s0
    z0 → Keeps s0 (f z0)) : Keeps s0 (miCommand s inRecovery f) := by
  unfold miCommand
  (repeat' (first
    | (with_reducible refine miReply_keeps ?_) | with_reducible refine keeps_ite ?_ ?_ | with_reducible apply_assumption))

theorem miVpdRead_keeps {s0 : State} {s : State} {off : Nat} {len : Nat} (h : Keeps s0 s) : Keeps s0 (miVpdRead s off len) := by
  unfold miVpdRead
  (repeat' (first
    | with_reducible assumption | (with_reducible refine miReply_keeps ?_) | (with_reducible refine miCommand_keeps ?_ ?_)
    | with_reducible refine keeps_ite ?_ ?_ | intro _))

theorem miPrimitive_keeps {s0 : State} {s : State} {f : State → State} (h : Keeps s0 s) (h_f : ∀ z0, Keeps s0 z0 → Keeps s0 (f
    z0)) : Keeps s0 (miPrimitive s f) := by
  unfold miPrimitive
  (repeat' (first
    | (with_reducible refine miReply_keeps ?_) | with_reducible refine keeps_ite ?_ ?_ | with_reducible apply_assumption))

theorem updMi_keeps {s0 : State} {s : State} {g : MiSt → MiSt} (h : Keeps s0 s) : Keeps s0 (updMi s g) := by
  unfold updMi
  (repeat' (first | with_reducible assumption | fail_if_no_progress (with_reducible refine Keeps.upd ?_)))

theorem miPause_keeps {s0 : State} {s : State} {on : Bool} (h : Keeps s0 s) : Keeps s0 (miPause s on) := by
  unfold miPause
  (repeat' (first
    | with_reducible assumption | (with_reducible refine miPrimitive_keeps ?_ ?_) | (with_reducible refine updMi_keeps ?_)
    | (with_reducible refine miReply_keeps ?_) | intro _))

theorem execMiPause_keeps {s0 : State} {s : State} (h : Keeps s0 s) : KRes s0 (execMiPause s) := by
  unfold execMiPause
  (repeat' (first | with_reducible assumption | (with_reducible refine miPause_keeps ?_) | with_reducible refine kRes_next ?_))

theorem miConfigSet_keeps {s0 : State} {s : State} {id : Nat} {value : Nat} (h : Keeps s0 s) : Keeps s0 (miConfigSet s id
    value) := by
  unfold miConfigSet
  (repeat' (first
    | with_reducible assumption | (with_reducible refine lifecycleAdvance_keeps ?_) | (with_reducible refine updMi_keeps ?_)
    | (with_reducible refine miReply_keeps ?_) | (with_reducible refine miCommand_keeps ?_ ?_)
    | with_reducible refine keeps_ite ?_ ?_ | intro _))

theorem miPage_keeps {s0 : State} {s : State} {p : PageBytes} (h : Keeps s0 s) : Keeps s0 (miPage s p) := by
  unfold miPage
  (repeat' (first
    | with_reducible assumption | (with_reducible refine miReply_keeps ?_) | (with_reducible refine fillPage_keeps ?_)))

theorem miSubsystemPoll_keeps {s0 : State} {s : State} (h : Keeps s0 s) : Keeps s0 (miSubsystemPoll s) := by
  unfold miSubsystemPoll
  (repeat' (first
    | with_reducible assumption | (with_reducible refine miPage_keeps ?_) | (with_reducible refine miCommand_keeps ?_ ?_)
    | intro _))

theorem execMiSubsystemHealthPoll_keeps {s0 : State} {s : State} (h : Keeps s0 s) : KRes s0 (execMiSubsystemHealthPoll s) := by
  unfold execMiSubsystemHealthPoll
  (repeat' (first
    | with_reducible assumption | (with_reducible refine miSubsystemPoll_keeps ?_) | with_reducible refine kRes_next ?_))

theorem miVpdWrite_keeps {s0 : State} {s : State} {off : Nat} {bs : List Byte} (h : Keeps s0 s) : Keeps s0 (miVpdWrite s off
    bs) := by
  unfold miVpdWrite
  (repeat' (first
    | with_reducible assumption | (with_reducible refine updMi_keeps ?_) | (with_reducible refine miReply_keeps ?_)
    | (with_reducible refine miCommand_keeps ?_ ?_) | with_reducible refine keeps_ite ?_ ?_ | intro _))

theorem miAddress_keeps {s0 : State} {s : State} {addr : Nat} (h : Keeps s0 s) : Keeps s0 (miAddress s addr) := by
  unfold miAddress
  (repeat' (first | with_reducible assumption | (with_reducible refine updMi_keeps ?_) | with_reducible refine keeps_ite ?_ ?_))

theorem execMiDynamicAddress_keeps {s0 : State} {addr : Fin 128} {s : State} (h : Keeps s0 s) : KRes s0 (execMiDynamicAddress
    addr s) := by
  unfold execMiDynamicAddress
  (repeat' (first
    | with_reducible assumption | (with_reducible refine miAddress_keeps ?_) | with_reducible refine kRes_next ?_))

theorem miGetState_keeps {s0 : State} {s : State} (h : Keeps s0 s) : Keeps s0 (miGetState s) := by
  unfold miGetState
  (repeat' (first
    | with_reducible assumption | (with_reducible refine miPrimitive_keeps ?_ ?_) | (with_reducible refine miReply_keeps ?_)
    | intro _))

theorem miAbort_keeps {s0 : State} {s : State} (h : Keeps s0 s) : Keeps s0 (miAbort s) := by
  unfold miAbort
  (repeat' (first
    | with_reducible assumption | (with_reducible refine miPrimitive_keeps ?_ ?_) | (with_reducible refine endCmd_keeps ?_)
    | (with_reducible refine miReply_keeps ?_) | with_reducible refine keeps_foldl (fun _ _ _ => ?_) ?_ | intro _))

theorem miConfigGet_keeps {s0 : State} {s : State} {id : Nat} (h : Keeps s0 s) : Keeps s0 (miConfigGet s id) := by
  unfold miConfigGet
  (repeat' (first
    | with_reducible assumption | (with_reducible refine miReply_keeps ?_) | (with_reducible refine miCommand_keeps ?_ ?_)
    | with_reducible refine keeps_ite ?_ ?_ | intro _))

theorem execMiConfigurationGet_keeps {s0 : State} {id : Nat} {s : State} (h : Keeps s0 s) : KRes s0 (execMiConfigurationGet id
    s) := by
  unfold execMiConfigurationGet
  (repeat' (first
    | with_reducible assumption | (with_reducible refine miConfigGet_keeps ?_) | with_reducible refine kRes_next ?_))

theorem miReadDs_keeps {s0 : State} {s : State} {kind : Nat} (h : Keeps s0 s) : Keeps s0 (miReadDs s kind) := by
  unfold miReadDs
  (repeat' (first
    | with_reducible assumption | (with_reducible refine miReply_keeps ?_) | (with_reducible refine miPage_keeps ?_)
    | (with_reducible refine miCommand_keeps ?_ ?_) | with_reducible refine keeps_ite ?_ ?_ | intro _))

theorem execMiReadDataStructure_keeps {s0 : State} {kind : Nat} {s : State} (h : Keeps s0 s) : KRes s0 (execMiReadDataStructure
    kind s) := by
  unfold execMiReadDataStructure
  (repeat' (first | with_reducible assumption | (with_reducible refine miReadDs_keeps ?_) | with_reducible refine kRes_next ?_))

theorem execMiGetState_keeps {s0 : State} {s : State} (h : Keeps s0 s) : KRes s0 (execMiGetState s) := by
  unfold execMiGetState
  (repeat' (first
    | with_reducible assumption | (with_reducible refine miGetState_keeps ?_) | with_reducible refine kRes_next ?_))

theorem execMiConfigurationSet_keeps {s0 : State} {id : Nat} {value : Nat} {s : State} (h : Keeps s0 s) : KRes s0
    (execMiConfigurationSet id value s) := by
  unfold execMiConfigurationSet
  (repeat' (first
    | with_reducible assumption | (with_reducible refine miConfigSet_keeps ?_) | with_reducible refine kRes_next ?_))

theorem execMiVpdRead_keeps {s0 : State} {off : Nat} {len : Nat} {s : State} (h : Keeps s0 s) : KRes s0 (execMiVpdRead off len
    s) := by
  unfold execMiVpdRead
  (repeat' (first
    | with_reducible assumption | (with_reducible refine miVpdRead_keeps ?_) | with_reducible refine kRes_next ?_))

theorem execMiAbort_keeps {s0 : State} {s : State} (h : Keeps s0 s) : KRes s0 (execMiAbort s) := by
  unfold execMiAbort
  (repeat' (first | with_reducible assumption | (with_reducible refine miAbort_keeps ?_) | with_reducible refine kRes_next ?_))

theorem miControllerPoll_keeps {s0 : State} {s : State} {c : Nat} (h : Keeps s0 s) : Keeps s0 (miControllerPoll s c) := by
  unfold miControllerPoll
  (repeat' (first
    | with_reducible assumption | (with_reducible refine miPage_keeps ?_) | (with_reducible refine miCommand_keeps ?_ ?_)
    | intro _))

theorem execMiControllerHealthPoll_keeps {s0 : State} {c : Nat} {s : State} (h : Keeps s0 s) : KRes s0
    (execMiControllerHealthPoll c s) := by
  unfold execMiControllerHealthPoll
  (repeat' (first
    | with_reducible assumption | (with_reducible refine miControllerPoll_keeps ?_) | with_reducible refine kRes_next ?_))

theorem execMiResume_keeps {s0 : State} {s : State} (h : Keeps s0 s) : KRes s0 (execMiResume s) := by
  unfold execMiResume
  (repeat' (first | with_reducible assumption | (with_reducible refine miPause_keeps ?_) | with_reducible refine kRes_next ?_))

theorem execMiVpdWrite_keeps {s0 : State} {off : Nat} {bytes : List Byte} {s : State} (h : Keeps s0 s) : KRes s0
    (execMiVpdWrite off bytes s) := by
  unfold execMiVpdWrite
  (repeat' (first
    | with_reducible assumption | (with_reducible refine miVpdWrite_keeps ?_) | with_reducible refine kRes_next ?_))

/-! ### Pcie -/

theorem portReset_keeps {s0 : State} {s : State} {p : Nat} (h : Keeps s0 s) : Keeps s0 (portReset s p) := by
  unfold portReset
  (repeat' (first
    | with_reducible assumption | (with_reducible refine resetCtrl_keeps ?_) | (with_reducible refine d3Move_keeps ?_)
    | (with_reducible refine pcieLinkDown_keeps ?_) | fail_if_no_progress (with_reducible refine Keeps.upd ?_)))

theorem perstAssert_keeps {s0 : State} {s : State} {p : Nat} (h : Keeps s0 s) : Keeps s0 (perstAssert s p) := by
  unfold perstAssert
  (repeat' (first
    | with_reducible assumption | (with_reducible refine portReset_keeps ?_)
    | fail_if_no_progress (with_reducible refine Keeps.upd ?_)))

theorem execPerstAssert_keeps {s0 : State} {p : Fin 2} {s : State} (h : Keeps s0 s) : KRes s0 (execPerstAssert p s) := by
  unfold execPerstAssert
  (repeat' (first
    | with_reducible assumption | (with_reducible refine perstAssert_keeps ?_) | with_reducible refine kRes_next ?_))

theorem d3hot_keeps {s0 : State} {s : State} {p : Nat} {d3 : Bool} (h : Keeps s0 s) : Keeps s0 (d3hot s p d3) := by
  unfold d3hot
  (repeat' (first
    | with_reducible assumption | (with_reducible refine d3Move_keeps ?_) | with_reducible refine keeps_ite ?_ ?_))

theorem pcieLinkUp_keeps {s0 : State} {s : State} {p : Nat} {speed : Nat} {width : Nat} {flit : Bool} (h : Keeps s0 s) : Keeps
    s0 (pcieLinkUp s p speed width flit) := by
  unfold pcieLinkUp
  (repeat' (first
    | with_reducible assumption | (with_reducible refine State.setFlds_keeps ?_) | (with_reducible refine State.raise_keeps ?_)
    | (with_reducible refine State.addWrap_keeps ?_) | with_reducible refine keeps_ite ?_ ?_
    | fail_if_no_progress (with_reducible refine Keeps.upd ?_)))

theorem execD3hotTransition_keeps {s0 : State} {p : Fin 2} {d3 : Bool} {s : State} (h : Keeps s0 s) : KRes s0
    (execD3hotTransition p d3 s) := by
  unfold execD3hotTransition
  (repeat' (first | with_reducible assumption | (with_reducible refine d3hot_keeps ?_) | with_reducible refine kRes_next ?_))

theorem perstDeassert_keeps {s0 : State} {s : State} {p : Nat} {bifur : Bool} (h : Keeps s0 s) : Keeps s0 (perstDeassert s p
    bifur) := by
  unfold perstDeassert
  (repeat' (first
    | with_reducible assumption | (with_reducible refine State.setFld_keeps ?_) | with_reducible refine keeps_ite ?_ ?_
    | fail_if_no_progress (with_reducible refine Keeps.upd ?_)))

theorem hotReset_keeps {s0 : State} {s : State} {p : Nat} (h : Keeps s0 s) : Keeps s0 (hotReset s p) := by
  unfold hotReset
  (repeat' (first
    | with_reducible assumption | (with_reducible refine portReset_keeps ?_) | with_reducible refine keeps_ite ?_ ?_))

theorem execHotReset_keeps {s0 : State} {p : Fin 2} {s : State} (h : Keeps s0 s) : KRes s0 (execHotReset p s) := by
  unfold execHotReset
  (repeat' (first | with_reducible assumption | (with_reducible refine hotReset_keeps ?_) | with_reducible refine kRes_next ?_))

theorem execPerstDeassert_keeps {s0 : State} {p : Fin 2} {bifur : Bool} {s : State} (h : Keeps s0 s) : KRes s0
    (execPerstDeassert p bifur s) := by
  unfold execPerstDeassert
  (repeat' (first
    | with_reducible assumption | (with_reducible refine perstDeassert_keeps ?_) | with_reducible refine kRes_next ?_))

theorem pcieL1_keeps {s0 : State} {s : State} {p : Nat} {on : Bool} (h : Keeps s0 s) : Keeps s0 (pcieL1 s p on) := by
  unfold pcieL1
  (repeat' (first
    | with_reducible assumption | (with_reducible refine State.setFld_keeps ?_) | with_reducible refine keeps_ite ?_ ?_))

theorem flr_keeps {s0 : State} {s : State} {p : Nat} (h : Keeps s0 s) : Keeps s0 (flr s p) := by
  unfold flr
  (repeat' (first
    | with_reducible assumption | (with_reducible refine resetCtrl_keeps ?_) | (with_reducible refine d3Move_keeps ?_)
    | (with_reducible refine State.raise_keeps ?_) | with_reducible refine keeps_ite ?_ ?_))

theorem execPcieL1Entry_keeps {s0 : State} {p : Fin 2} {s : State} (h : Keeps s0 s) : KRes s0 (execPcieL1Entry p s) := by
  unfold execPcieL1Entry
  (repeat' (first | with_reducible assumption | (with_reducible refine pcieL1_keeps ?_) | with_reducible refine kRes_next ?_))

theorem execPcieLinkDown_keeps {s0 : State} {p : Fin 2} {s : State} (h : Keeps s0 s) : KRes s0 (execPcieLinkDown p s) := by
  unfold execPcieLinkDown
  (repeat' (first
    | with_reducible assumption | (with_reducible refine pcieLinkDown_keeps ?_) | with_reducible refine kRes_next ?_))

theorem execFlr_keeps {s0 : State} {p : Fin 2} {s : State} (h : Keeps s0 s) : KRes s0 (execFlr p s) := by
  unfold execFlr
  (repeat' (first | with_reducible assumption | (with_reducible refine flr_keeps ?_) | with_reducible refine kRes_next ?_))

theorem execPcieL1Exit_keeps {s0 : State} {p : Fin 2} {s : State} (h : Keeps s0 s) : KRes s0 (execPcieL1Exit p s) := by
  unfold execPcieL1Exit
  (repeat' (first | with_reducible assumption | (with_reducible refine pcieL1_keeps ?_) | with_reducible refine kRes_next ?_))

theorem execPcieLinkUp_keeps {s0 : State} {p : Fin 2} {speed : Nat} {width : Nat} {flit : Bool} {s : State} (h : Keeps s0 s) :
    KRes s0 (execPcieLinkUp p speed width flit s) := by
  unfold execPcieLinkUp
  (repeat' (first
    | with_reducible assumption | (with_reducible refine pcieLinkUp_keeps ?_) | with_reducible refine kRes_next ?_))

end Sys2Proof.Machine
end

