-- ==== Sys2Proof/Laws/Keeps9.lean ====
section
/-! SUPPORT. Sys2Proof/Laws/Keeps9.lean: what each operation of Siriz, RegCmds keeps (`Keeps`). -/

set_option Elab.async false
set_option linter.unusedVariables false

namespace Sys2Proof.Machine

/-! ### Siriz -/

theorem takeIrq_keeps {s0 : State} {s : State} {c : Nat} (h : Keeps s0 s) : Keeps s0 (takeIrq s c) := by
  unfold takeIrq
  (repeat' (first | with_reducible assumption | (with_reducible refine takeExc_keeps ?_)))

theorem execExternalInterrupt_keeps {s0 : State} {c : CoreId} {s : State} (h : Keeps s0 s) : KRes s0 (execExternalInterrupt c
    s) := by
  unfold execExternalInterrupt
  (repeat' (first
    | with_reducible assumption | (with_reducible refine takeIrq_keeps ?_) | with_reducible refine kRes_next ?_
    | with_reducible refine keeps_ite ?_ ?_))

theorem readCycle_keeps {s0 : State} {s : State} {c : Nat} {hi : Bool} (h : Keeps s0 s) : Keeps s0 (readCycle s c hi).2 := by
  unfold readCycle
  (repeat' (first
    | with_reducible assumption | (with_reducible refine State.fresh_keeps ?_) | (with_reducible refine State.setCore_keeps ?_)
    | split))

theorem readCycle_keeps_e {s0 : State} {s : State} {c : Nat} {hi : Bool} {x0} {t : State} (h : Keeps s0 s) (e : readCycle s c
    hi = (x0, t)) : Keeps s0 t := by
  have k := readCycle_keeps (s0 := s0) (s := s) (c := c) (hi := hi) h
  rw [e] at k
  exact k

theorem skip_keeps {s0 : State} {s : State} {c : Nat} {own : Nat} {cond : Core → Bool} (h : Keeps s0 s) : Keeps s0 (skip s c
    own cond) := by
  unfold skip
  (repeat' (first
    | with_reducible assumption | (with_reducible refine coreFetch_keeps ?_) | (with_reducible refine issue_keeps ?_ ?_)
    | with_reducible refine kAcc_ok ?_ | with_reducible refine kAcc_andThen ?_ (fun _ _ _ => ?_) | intro _ | split))

theorem execSbz_keeps {s0 : State} {c : CoreId} {ra : Reg} {b : Fin 32} {s : State} (h : Keeps s0 s) : KRes s0 (execSbz c ra b
    s) := by
  unfold execSbz
  (repeat' (first | with_reducible assumption | (with_reducible refine skip_keeps ?_) | with_reducible refine kRes_next ?_))

theorem execFence_keeps {s0 : State} {c : CoreId} {s : State} (h : Keeps s0 s) : KRes s0 (execFence c s) := by
  unfold execFence
  (repeat' (first
    | with_reducible assumption | (with_reducible refine updCore_keeps ?_) | (with_reducible refine flushMerge_keeps ?_)
    | (with_reducible refine issue_keeps ?_ ?_) | with_reducible refine kRes_next ?_ | with_reducible refine kAcc_ok ?_
    | intro _ | dsimp only | split))

theorem execSkipi_keeps {s0 : State} {c : CoreId} {cond : Cond} {ra : Reg} {imm : BitVec 16} {s : State} (h : Keeps s0 s) :
    KRes s0 (execSkipi c cond ra imm s) := by
  unfold execSkipi
  (repeat' (first | with_reducible assumption | (with_reducible refine skip_keeps ?_) | with_reducible refine kRes_next ?_))

theorem execFenceDone_keeps {s0 : State} {c : CoreId} {s : State} (h : Keeps s0 s) : KRes s0 (execFenceDone c s) := by
  unfold execFenceDone
  (repeat' (first
    | with_reducible assumption | (with_reducible refine updCore_keeps ?_) | (with_reducible refine flushMerge_keeps ?_)
    | (with_reducible refine arrive_keeps ?_) | with_reducible refine kRes_next ?_ | with_reducible refine keeps_ite ?_ ?_))

theorem popWords_keeps {s0 : State} {s : State} {c : Nat} {done : Nat} {a : Word} {y4 : Nat} (h : Keeps s0 s) : KAcc s0
    (popWords s c done a y4) := by
  fun_induction popWords s c done a y4 <;> (repeat' (first
    | (with_reducible refine coreLoad_keeps_e0 ?_ (by assumption))
    | (with_reducible refine coreLoad_keeps_e1 ?_ (by assumption)) | with_reducible refine kAcc_trap ?_
    | with_reducible refine kAcc_andThen ?_ (fun _ _ _ => ?_) | with_reducible apply_assumption))

theorem popWords_keeps_e0 {s0 : State} {s : State} {c : Nat} {done : Nat} {a : Word} {y4 : Nat} {x0} {t : State} (h : Keeps s0
    s) (e : popWords s c done a y4 = .ok x0 t) : Keeps s0 t := by
  have k := popWords_keeps (s0 := s0) (s := s) (c := c) (done := done) (a := a) (y4 := y4) h
  rw [e] at k
  exact k

theorem popWords_keeps_e1 {s0 : State} {s : State} {c : Nat} {done : Nat} {a : Word} {y4 : Nat} {x0} {t : State} (h : Keeps s0
    s) (e : popWords s c done a y4 = .trap x0 t) : Keeps s0 t := by
  have k := popWords_keeps (s0 := s0) (s := s) (c := c) (done := done) (a := a) (y4 := y4) h
  rw [e] at k
  exact k

theorem retBody_keeps {s0 : State} {c : Nat} {m : BitVec 16} {s : State} (h : Keeps s0 s) : KAcc s0 (retBody c m s) := by
  unfold retBody
  (repeat' (first
    | with_reducible assumption | (with_reducible refine updCore_keeps ?_)
    | (with_reducible refine coreLoad_keeps_e0 ?_ (by assumption))
    | (with_reducible refine coreLoad_keeps_e1 ?_ (by assumption)) | (with_reducible refine popWords_keeps ?_)
    | with_reducible refine kAcc_ok ?_ | with_reducible refine kAcc_trap ?_
    | with_reducible refine kAcc_andThen ?_ (fun _ _ _ => ?_) | dsimp only | split))

theorem retBody_keeps_e0 {s0 : State} {c : Nat} {m : BitVec 16} {s : State} {x0} {t : State} (h : Keeps s0 s) (e : retBody c m
    s = .ok x0 t) : Keeps s0 t := by
  have k := retBody_keeps (s0 := s0) (c := c) (m := m) (s := s) h
  rw [e] at k
  exact k

theorem retBody_keeps_e1 {s0 : State} {c : Nat} {m : BitVec 16} {s : State} {x0} {t : State} (h : Keeps s0 s) (e : retBody c m
    s = .trap x0 t) : Keeps s0 t := by
  have k := retBody_keeps (s0 := s0) (c := c) (m := m) (s := s) h
  rw [e] at k
  exact k

theorem gateCall_keeps {s0 : State} {s : State} {c : Nat} {op : Nat} {f : Core → Nat × Nat × State} (h : Keeps s0 s) (h_f : ∀
    z0, Keeps s0 (f z0).2.2) : Keeps s0 (gateCall s c op f) := by
  unfold gateCall
  (repeat' (first
    | (with_reducible refine updCore_keeps ?_) | (with_reducible refine State.fresh_keeps ?_)
    | (with_reducible refine takeExc_keeps ?_) | (with_reducible refine retire_keeps ?_)
    | (with_reducible refine retBody_keeps_e0 ?_ (by assumption)) | (with_reducible refine retBody_keeps_e1 ?_ (by assumption))
    | dsimp only | split | with_reducible apply_assumption))

theorem execGateProgram_keeps {s0 : State} {c : CoreId} {s : State} (h : Keeps s0 s) : KRes s0 (execGateProgram c s) := by
  unfold execGateProgram
  (repeat' (first
    | with_reducible assumption | (with_reducible refine gateProgram_keeps ?_) | (with_reducible refine gateCall_keeps ?_ ?_)
    | with_reducible refine kRes_next ?_ | intro _))

theorem execWait_keeps {s0 : State} {c : CoreId} {s : State} (h : Keeps s0 s) : KRes s0 (execWait c s) := by
  unfold execWait
  (repeat' (first
    | with_reducible assumption | (with_reducible refine updCore_keeps ?_) | (with_reducible refine issue_keeps ?_ ?_)
    | with_reducible refine kRes_next ?_ | with_reducible refine kAcc_ok ?_ | intro _ | split))

theorem storeBody_keeps {s0 : State} {c : Nat} {kind : AccKind} {a : Word} {n : Nat} {width : Nat} {rs : Reg} {s : State} (h :
    Keeps s0 s) : KAcc s0 (storeBody c kind a n width rs s) := by
  unfold storeBody
  (repeat' (first
    | with_reducible assumption | (with_reducible refine coreStore_keeps ?_) | with_reducible refine kAcc_ok ?_
    | with_reducible refine kAcc_andThen ?_ (fun _ _ _ => ?_)))

theorem storeBody_keeps_e0 {s0 : State} {c : Nat} {kind : AccKind} {a : Word} {n : Nat} {width : Nat} {rs : Reg} {s : State}
    {x0} {t : State} (h : Keeps s0 s) (e : storeBody c kind a n width rs s = .ok x0 t) : Keeps s0 t := by
  have k := storeBody_keeps (s0 := s0) (c := c) (kind := kind) (a := a) (n := n) (width := width) (rs := rs) (s := s) h
  rw [e] at k
  exact k

theorem storeBody_keeps_e1 {s0 : State} {c : Nat} {kind : AccKind} {a : Word} {n : Nat} {width : Nat} {rs : Reg} {s : State}
    {x0} {t : State} (h : Keeps s0 s) (e : storeBody c kind a n width rs s = .trap x0 t) : Keeps s0 t := by
  have k := storeBody_keeps (s0 := s0) (c := c) (kind := kind) (a := a) (n := n) (width := width) (rs := rs) (s := s) h
  rw [e] at k
  exact k

theorem execStw_keeps {s0 : State} {c : CoreId} {f : WordForm} {s : State} (h : Keeps s0 s) : KRes s0 (execStw c f s) := by
  unfold execStw
  (repeat' (first
    | with_reducible assumption | (with_reducible refine issue_keeps ?_ ?_) | (with_reducible refine storeBody_keeps ?_)
    | with_reducible refine kRes_next ?_ | intro _))

theorem storeWide_keeps {s0 : State} {s : State} {c : Nat} {rs : Reg} {ra : Reg} {imm : BitVec 16} {n : Nat} (h : Keeps s0 s) :
    Keeps s0 (storeWide s c rs ra imm n) := by
  unfold storeWide
  (repeat' (first
    | with_reducible assumption | (with_reducible refine issue_keeps ?_ ?_) | (with_reducible refine storeBody_keeps ?_)
    | intro _))

theorem execGateGrown_keeps {s0 : State} {c : CoreId} {ok0 : Bool} {ok1 : Bool} {s : State} (h : Keeps s0 s) : KRes s0
    (execGateGrown c ok0 ok1 s) := by
  unfold execGateGrown
  (repeat' (first
    | with_reducible assumption | (with_reducible refine gateCall_keeps ?_ ?_) | (with_reducible refine gateGrown_keeps ?_)
    | with_reducible refine kRes_next ?_ | intro _))

theorem execGateActivate_keeps {s0 : State} {c : CoreId} {fault : Bool} {ok : Bool} {s : State} (h : Keeps s0 s) : KRes s0
    (execGateActivate c fault ok s) := by
  unfold execGateActivate
  (repeat' (first
    | with_reducible assumption | (with_reducible refine gateCall_keeps ?_ ?_) | (with_reducible refine gateActivate_keeps ?_)
    | with_reducible refine kRes_next ?_ | intro _))

theorem rteBody_keeps {s0 : State} {c : Nat} {s : State} (h : Keeps s0 s) : KAcc s0 (rteBody c s) := by
  unfold rteBody
  (repeat' (first
    | with_reducible assumption | (with_reducible refine updCore_keeps ?_)
    | (with_reducible refine coreLoad_keeps_e0 ?_ (by assumption))
    | (with_reducible refine coreLoad_keeps_e1 ?_ (by assumption)) | (with_reducible refine popWords_keeps ?_)
    | with_reducible refine kAcc_ok ?_ | with_reducible refine kAcc_trap ?_
    | with_reducible refine kAcc_andThen ?_ (fun _ _ _ => ?_) | dsimp only | split))

theorem rteBody_keeps_e0 {s0 : State} {c : Nat} {s : State} {x0} {t : State} (h : Keeps s0 s) (e : rteBody c s = .ok x0 t) :
    Keeps s0 t := by
  have k := rteBody_keeps (s0 := s0) (c := c) (s := s) h
  rw [e] at k
  exact k

theorem rteBody_keeps_e1 {s0 : State} {c : Nat} {s : State} {x0} {t : State} (h : Keeps s0 s) (e : rteBody c s = .trap x0 t) :
    Keeps s0 t := by
  have k := rteBody_keeps (s0 := s0) (c := c) (s := s) h
  rw [e] at k
  exact k

theorem loadBody_keeps {s0 : State} {c : Nat} {kind : AccKind} {a : Word} {n : Nat} {width : Nat} {rd : Reg} {ext : Nat → Word}
    {s : State} (h : Keeps s0 s) : KAcc s0 (loadBody c kind a n width rd ext s) := by
  unfold loadBody
  (repeat' (first
    | with_reducible assumption | (with_reducible refine updCore_keeps ?_) | (with_reducible refine coreLoad_keeps ?_)
    | with_reducible refine kAcc_ok ?_ | with_reducible refine kAcc_andThen ?_ (fun _ _ _ => ?_)))

theorem loadBody_keeps_e0 {s0 : State} {c : Nat} {kind : AccKind} {a : Word} {n : Nat} {width : Nat} {rd : Reg} {ext : Nat →
    Word} {s : State} {x0} {t : State} (h : Keeps s0 s) (e : loadBody c kind a n width rd ext s = .ok x0 t) : Keeps s0 t := by
  have k := loadBody_keeps (s0 := s0) (c := c) (kind := kind) (a := a) (n := n) (width := width) (rd := rd) (ext := ext) (s :=
      s) h
  rw [e] at k
  exact k

theorem loadBody_keeps_e1 {s0 : State} {c : Nat} {kind : AccKind} {a : Word} {n : Nat} {width : Nat} {rd : Reg} {ext : Nat →
    Word} {s : State} {x0} {t : State} (h : Keeps s0 s) (e : loadBody c kind a n width rd ext s = .trap x0 t) : Keeps s0 t := by
  have k := loadBody_keeps (s0 := s0) (c := c) (kind := kind) (a := a) (n := n) (width := width) (rd := rd) (ext := ext) (s :=
      s) h
  rw [e] at k
  exact k

theorem loadWide_keeps {s0 : State} {s : State} {c : Nat} {rd : Reg} {ra : Reg} {imm : BitVec 16} {n : Nat} {ext : Nat → Word}
    (h : Keeps s0 s) : Keeps s0 (loadWide s c rd ra imm n ext) := by
  unfold loadWide
  (repeat' (first
    | with_reducible assumption | (with_reducible refine loadBody_keeps ?_) | (with_reducible refine issue_keeps ?_ ?_)
    | intro _))

theorem execLdb_keeps {s0 : State} {c : CoreId} {rd : Reg} {ra : Reg} {imm : BitVec 16} {s : State} (h : Keeps s0 s) : KRes s0
    (execLdb c rd ra imm s) := by
  unfold execLdb
  (repeat' (first | with_reducible assumption | (with_reducible refine loadWide_keeps ?_) | with_reducible refine kRes_next ?_))

theorem execIllegalInstruction_keeps {s0 : State} {c : CoreId} {w : InstrWord} {s : State} (h : Keeps s0 s) : KRes s0
    (execIllegalInstruction c w s) := by
  unfold execIllegalInstruction
  (repeat' (first
    | with_reducible assumption | (with_reducible refine issue_keeps ?_ ?_) | with_reducible refine kRes_next ?_
    | with_reducible refine kAcc_trap ?_ | with_reducible refine keeps_ite ?_ ?_ | intro _))

theorem execB_keeps {s0 : State} {c : CoreId} {f : BranchForm} {s : State} (h : Keeps s0 s) : KRes s0 (execB c f s) := by
  unfold execB
  (repeat' (first
    | with_reducible assumption | (with_reducible refine issue_keeps ?_ ?_) | with_reducible refine kRes_next ?_
    | with_reducible refine kAcc_ok ?_ | intro _))

theorem execSbs_keeps {s0 : State} {c : CoreId} {ra : Reg} {b : Fin 32} {s : State} (h : Keeps s0 s) : KRes s0 (execSbs c ra b
    s) := by
  unfold execSbs
  (repeat' (first | with_reducible assumption | (with_reducible refine skip_keeps ?_) | with_reducible refine kRes_next ?_))

theorem execWaitWake_keeps {s0 : State} {c : CoreId} {s : State} (h : Keeps s0 s) : KRes s0 (execWaitWake c s) := by
  unfold execWaitWake
  (repeat' (first
    | with_reducible assumption | (with_reducible refine updCore_keeps ?_) | (with_reducible refine takeIrq_keeps ?_)
    | (with_reducible refine arrive_keeps ?_) | with_reducible refine kRes_next ?_ | with_reducible refine keeps_ite ?_ ?_))

theorem gateUndefined_keeps {s0 : State} {s : State} {c : Nat} (h : Keeps s0 s) : Keeps s0 (gateUndefined s c) := by
  unfold gateUndefined
  (repeat' (first
    | with_reducible assumption | (with_reducible refine gateCall_keeps ?_ ?_) | with_reducible refine keeps_ite ?_ ?_
    | intro _))

theorem execGateErase_keeps {s0 : State} {c : CoreId} {s : State} (h : Keeps s0 s) : KRes s0 (execGateErase c s) := by
  unfold execGateErase
  (repeat' (first
    | with_reducible assumption | (with_reducible refine gateErase_keeps ?_) | (with_reducible refine gateCall_keeps ?_ ?_)
    | (with_reducible refine gateUndefined_keeps ?_) | with_reducible refine kRes_next ?_
    | with_reducible refine keeps_ite ?_ ?_ | intro _))

theorem cacheOp_keeps {s0 : State} {s : State} {c : Nat} {scope : CacheScope} {instr : Bool} {one : State → Nat → State} {all :
    State → State} (h : Keeps s0 s) (h_one : ∀ z0 z1, Keeps s0 z0 → Keeps s0 (one z0 z1)) (h_all : ∀ z0, Keeps s0 z0 → Keeps s0
    (all z0)) : Keeps s0 (cacheOp s c scope instr one all) := by
  unfold cacheOp
  (repeat' (first | (with_reducible refine issue_keeps ?_ ?_) | intro _ | dsimp only | split | with_reducible apply_assumption))

theorem execCacheInvalidateDc_keeps {s0 : State} {c : CoreId} {scope : CacheScope} {s : State} (h : Keeps s0 s) : KRes s0
    (execCacheInvalidateDc c scope s) := by
  unfold execCacheInvalidateDc
  (repeat' (first
    | with_reducible assumption | (with_reducible refine dropSlot_keeps ?_) | (with_reducible refine State.raise_keeps ?_)
    | (with_reducible refine dropAll_keeps ?_) | (with_reducible refine cacheOp_keeps ?_ ?_ ?_)
    | with_reducible refine kRes_next ?_ | intro _))

theorem execSth_keeps {s0 : State} {c : CoreId} {rs : Reg} {ra : Reg} {imm : BitVec 16} {s : State} (h : Keeps s0 s) : KRes s0
    (execSth c rs ra imm s) := by
  unfold execSth
  (repeat' (first
    | with_reducible assumption | (with_reducible refine storeWide_keeps ?_) | with_reducible refine kRes_next ?_))

theorem execSfl_keeps {s0 : State} {c : CoreId} {cond : FlagCond} {s : State} (h : Keeps s0 s) : KRes s0 (execSfl c cond s) :=
    by
  unfold execSfl
  (repeat' (first | with_reducible assumption | (with_reducible refine skip_keeps ?_) | with_reducible refine kRes_next ?_))

theorem execCacheCleanInvalidateDc_keeps {s0 : State} {c : CoreId} {scope : CacheScope} {s : State} (h : Keeps s0 s) : KRes s0
    (execCacheCleanInvalidateDc c scope s) := by
  unfold execCacheCleanInvalidateDc
  (repeat' (first
    | with_reducible assumption | (with_reducible refine cleanAll_keeps ?_) | (with_reducible refine dropSlot_keeps ?_)
    | (with_reducible refine State.raise_keeps ?_) | (with_reducible refine dropAll_keeps ?_)
    | (with_reducible refine cacheOp_keeps ?_ ?_ ?_) | (with_reducible refine cleanSlot_keeps ?_)
    | with_reducible refine kRes_next ?_ | intro _))

theorem execSeqi_keeps {s0 : State} {c : CoreId} {ra : Reg} {imm : BitVec 5} {s : State} (h : Keeps s0 s) : KRes s0 (execSeqi c
    ra imm s) := by
  unfold execSeqi
  (repeat' (first | with_reducible assumption | (with_reducible refine skip_keeps ?_) | with_reducible refine kRes_next ?_))

theorem execCacheInvalidateIc_keeps {s0 : State} {c : CoreId} {scope : CacheScope} {s : State} (h : Keeps s0 s) : KRes s0
    (execCacheInvalidateIc c scope s) := by
  unfold execCacheInvalidateIc
  (repeat' (first
    | with_reducible assumption | (with_reducible refine State.raise_keeps ?_) | (with_reducible refine cacheOp_keeps ?_ ?_ ?_)
    | (with_reducible refine dropAllI_keeps ?_) | (with_reducible refine dropISlot_keeps ?_)
    | with_reducible refine kRes_next ?_ | intro _))

theorem execSkipOnRegisters_keeps {s0 : State} {c : CoreId} {cond : Cond} {ra : Reg} {rb : Reg} {s : State} (h : Keeps s0 s) :
    KRes s0 (execSkipOnRegisters c cond ra rb s) := by
  unfold execSkipOnRegisters
  (repeat' (first | with_reducible assumption | (with_reducible refine skip_keeps ?_) | with_reducible refine kRes_next ?_))

theorem execSta_keeps {s0 : State} {c : CoreId} {rs : Reg} {size : AccSize} {off : BitVec 16} {s : State} (h : Keeps s0 s) :
    KRes s0 (execSta c rs size off s) := by
  unfold execSta
  (repeat' (first
    | with_reducible assumption | (with_reducible refine issue_keeps ?_ ?_) | (with_reducible refine storeBody_keeps ?_)
    | with_reducible refine kRes_next ?_ | intro _))

theorem execLdw_keeps {s0 : State} {c : CoreId} {f : WordForm} {s : State} (h : Keeps s0 s) : KRes s0 (execLdw c f s) := by
  unfold execLdw
  (repeat' (first
    | with_reducible assumption | (with_reducible refine loadBody_keeps ?_) | (with_reducible refine issue_keeps ?_ ?_)
    | with_reducible refine kRes_next ?_ | intro _))

theorem execGateCommit_keeps {s0 : State} {c : CoreId} {fault : Bool} {ok : Bool} {s : State} (h : Keeps s0 s) : KRes s0
    (execGateCommit c fault ok s) := by
  unfold execGateCommit
  (repeat' (first
    | with_reducible assumption | (with_reducible refine gateCommit_keeps ?_) | (with_reducible refine gateCall_keeps ?_ ?_)
    | with_reducible refine kRes_next ?_ | intro _))

theorem execMts_keeps {s0 : State} {c : CoreId} {sn : Fin 32} {ra : Reg} {s : State} (h : Keeps s0 s) : KRes s0 (execMts c sn
    ra s) := by
  unfold execMts
  (repeat' (first
    | with_reducible assumption | (with_reducible refine updCore_keeps ?_) | (with_reducible refine issue_keeps ?_ ?_)
    | with_reducible refine kRes_next ?_ | with_reducible refine kAcc_ok ?_ | with_reducible refine kAcc_trap ?_ | intro _
    | split))

theorem execMfs_keeps {s0 : State} {c : CoreId} {rd : Reg} {sn : Fin 32} {s : State} (h : Keeps s0 s) : KRes s0 (execMfs c rd
    sn s) := by
  unfold execMfs
  (repeat' (first
    | with_reducible assumption | (with_reducible refine updCore_keeps ?_) | (with_reducible refine issue_keeps ?_ ?_)
    | (with_reducible refine readCycle_keeps ?_) | with_reducible refine kRes_next ?_ | with_reducible refine kAcc_ok ?_
    | with_reducible refine kAcc_trap ?_ | intro _ | split))

theorem pushWords_keeps {s0 : State} {s : State} {c : Nat} {done : Nat} {a : Word} {y4 : List Word} (h : Keeps s0 s) : KAcc s0
    (pushWords s c done a y4) := by
  fun_induction pushWords s c done a y4 <;> (repeat' (first
    | (with_reducible refine coreStore_keeps_e0 ?_ (by assumption))
    | (with_reducible refine coreStore_keeps_e1 ?_ (by assumption)) | with_reducible refine kAcc_trap ?_
    | with_reducible apply_assumption))

theorem pushWords_keeps_e0 {s0 : State} {s : State} {c : Nat} {done : Nat} {a : Word} {y4 : List Word} {x0} {t : State} (h :
    Keeps s0 s) (e : pushWords s c done a y4 = .ok x0 t) : Keeps s0 t := by
  have k := pushWords_keeps (s0 := s0) (s := s) (c := c) (done := done) (a := a) (y4 := y4) h
  rw [e] at k
  exact k

theorem pushWords_keeps_e1 {s0 : State} {s : State} {c : Nat} {done : Nat} {a : Word} {y4 : List Word} {x0} {t : State} (h :
    Keeps s0 s) (e : pushWords s c done a y4 = .trap x0 t) : Keeps s0 t := by
  have k := pushWords_keeps (s0 := s0) (s := s) (c := c) (done := done) (a := a) (y4 := y4) h
  rw [e] at k
  exact k

theorem callBody_keeps {s0 : State} {c : Nat} {rt : Reg} {m : BitVec 16} {s : State} (h : Keeps s0 s) : KAcc s0 (callBody c rt
    m s) := by
  unfold callBody
  (repeat' (first
    | with_reducible assumption | (with_reducible refine updCore_keeps ?_) | (with_reducible refine pushWords_keeps ?_)
    | with_reducible refine kAcc_ok ?_ | with_reducible refine kAcc_trap ?_
    | with_reducible refine kAcc_andThen ?_ (fun _ _ _ => ?_) | dsimp only | split))

theorem callBody_keeps_e0 {s0 : State} {c : Nat} {rt : Reg} {m : BitVec 16} {s : State} {x0} {t : State} (h : Keeps s0 s) (e :
    callBody c rt m s = .ok x0 t) : Keeps s0 t := by
  have k := callBody_keeps (s0 := s0) (c := c) (rt := rt) (m := m) (s := s) h
  rw [e] at k
  exact k

theorem callBody_keeps_e1 {s0 : State} {c : Nat} {rt : Reg} {m : BitVec 16} {s : State} {x0} {t : State} (h : Keeps s0 s) (e :
    callBody c rt m s = .trap x0 t) : Keeps s0 t := by
  have k := callBody_keeps (s0 := s0) (c := c) (rt := rt) (m := m) (s := s) h
  rw [e] at k
  exact k

theorem execCall_keeps {s0 : State} {c : CoreId} {rt : Reg} {mask : BitVec 16} {s : State} (h : Keeps s0 s) : KRes s0 (execCall
    c rt mask s) := by
  unfold execCall
  (repeat' (first
    | with_reducible assumption | (with_reducible refine issue_keeps ?_ ?_) | (with_reducible refine callBody_keeps ?_)
    | with_reducible refine kRes_next ?_ | intro _))

theorem execFetchFault_keeps {s0 : State} {c : CoreId} {s : State} (h : Keeps s0 s) : KRes s0 (execFetchFault c s) := by
  unfold execFetchFault
  (repeat' (first
    | with_reducible assumption | (with_reducible refine issue_keeps ?_ ?_) | with_reducible refine kRes_next ?_
    | with_reducible refine kAcc_ok ?_ | intro _ | split))

theorem execNop_keeps {s0 : State} {c : CoreId} {s : State} (h : Keeps s0 s) : KRes s0 (execNop c s) := by
  unfold execNop
  (repeat' (first
    | with_reducible assumption | (with_reducible refine issueCore_keeps ?_) | with_reducible refine kRes_next ?_))

theorem execLdh_keeps {s0 : State} {c : CoreId} {rd : Reg} {ra : Reg} {imm : BitVec 16} {s : State} (h : Keeps s0 s) : KRes s0
    (execLdh c rd ra imm s) := by
  unfold execLdh
  (repeat' (first | with_reducible assumption | (with_reducible refine loadWide_keeps ?_) | with_reducible refine kRes_next ?_))

theorem execStb_keeps {s0 : State} {c : CoreId} {rs : Reg} {ra : Reg} {imm : BitVec 16} {s : State} (h : Keeps s0 s) : KRes s0
    (execStb c rs ra imm s) := by
  unfold execStb
  (repeat' (first
    | with_reducible assumption | (with_reducible refine storeWide_keeps ?_) | with_reducible refine kRes_next ?_))

theorem execBr_keeps {s0 : State} {c : CoreId} {rt : Reg} {s : State} (h : Keeps s0 s) : KRes s0 (execBr c rt s) := by
  unfold execBr
  (repeat' (first
    | with_reducible assumption | (with_reducible refine issue_keeps ?_ ?_) | with_reducible refine kRes_next ?_
    | with_reducible refine kAcc_ok ?_ | with_reducible refine kAcc_trap ?_ | intro _ | dsimp only | split))

theorem execRte_keeps {s0 : State} {c : CoreId} {s : State} (h : Keeps s0 s) : KRes s0 (execRte c s) := by
  unfold execRte
  (repeat' (first
    | with_reducible assumption | (with_reducible refine rteBody_keeps ?_) | (with_reducible refine issue_keeps ?_ ?_)
    | with_reducible refine kRes_next ?_ | intro _))

theorem execLda_keeps {s0 : State} {c : CoreId} {rd : Reg} {size : AccSize} {off : BitVec 16} {s : State} (h : Keeps s0 s) :
    KRes s0 (execLda c rd size off s) := by
  unfold execLda
  (repeat' (first
    | with_reducible assumption | (with_reducible refine loadBody_keeps ?_) | (with_reducible refine issue_keeps ?_ ?_)
    | with_reducible refine kRes_next ?_ | intro _))

theorem execCacheCleanDc_keeps {s0 : State} {c : CoreId} {scope : CacheScope} {s : State} (h : Keeps s0 s) : KRes s0
    (execCacheCleanDc c scope s) := by
  unfold execCacheCleanDc
  (repeat' (first
    | with_reducible assumption | (with_reducible refine cleanAll_keeps ?_) | (with_reducible refine cacheOp_keeps ?_ ?_ ?_)
    | (with_reducible refine cleanSlot_keeps ?_) | with_reducible refine kRes_next ?_ | intro _))

theorem execRet_keeps {s0 : State} {c : CoreId} {mask : BitVec 16} {s : State} (h : Keeps s0 s) : KRes s0 (execRet c mask s) :=
    by
  unfold execRet
  (repeat' (first
    | with_reducible assumption | (with_reducible refine issue_keeps ?_ ?_) | (with_reducible refine retBody_keeps ?_)
    | with_reducible refine kRes_next ?_ | intro _))

theorem execLdbu_keeps {s0 : State} {c : CoreId} {rd : Reg} {ra : Reg} {imm : BitVec 16} {s : State} (h : Keeps s0 s) : KRes s0
    (execLdbu c rd ra imm s) := by
  unfold execLdbu
  (repeat' (first | with_reducible assumption | (with_reducible refine loadWide_keeps ?_) | with_reducible refine kRes_next ?_))

theorem execTrap_keeps {s0 : State} {c : CoreId} {n : BitVec 8} {s : State} (h : Keeps s0 s) : KRes s0 (execTrap c n s) := by
  unfold execTrap
  (repeat' (first
    | with_reducible assumption | (with_reducible refine issue_keeps ?_ ?_) | with_reducible refine kRes_next ?_
    | with_reducible refine kAcc_trap ?_ | intro _))

theorem execLdhu_keeps {s0 : State} {c : CoreId} {rd : Reg} {ra : Reg} {imm : BitVec 16} {s : State} (h : Keeps s0 s) : KRes s0
    (execLdhu c rd ra imm s) := by
  unfold execLdhu
  (repeat' (first | with_reducible assumption | (with_reducible refine loadWide_keeps ?_) | with_reducible refine kRes_next ?_))

/-! ### RegCmds -/

theorem execTileResetDone_keeps {s0 : State} {t_ : TileId} {s : State} (h : Keeps s0 s) : KRes s0 (execTileResetDone t_ s) := by
  unfold execTileResetDone
  (repeat' (first
    | with_reducible assumption | (with_reducible refine tileResetDone_keeps ?_) | with_reducible refine kRes_next ?_))

theorem execScrubWord_keeps {s0 : State} {slow : Bool} {s : State} (h : Keeps s0 s) : KRes s0 (execScrubWord slow s) := by
  unfold execScrubWord
  (repeat' (first
    | with_reducible assumption | (with_reducible refine scrubWord_keeps ?_) | with_reducible refine kRes_next ?_))

theorem busErrorAt_keeps {s0 : State} {s : State} {rq : Requester} {off : Nat} (h : Keeps s0 s) : Keeps s0 (busErrorAt s rq
    off) := by
  unfold busErrorAt
  (repeat' (first
    | with_reducible assumption | (with_reducible refine State.raise_keeps ?_) | (with_reducible refine takeExc_keeps ?_)
    | split | fail_if_no_progress (with_reducible refine Keeps.upd ?_)))

theorem regWriteWd_keeps {s0 : State} {s : State} {rq : Requester} {off : Nat} {wd : AccWidth} {v : Nat} (h : Keeps s0 s) :
    KOpt (fun x => Keeps s0 x) (regWriteWd s rq off wd v) := by
  unfold regWriteWd
  (repeat' (first
    | with_reducible assumption | (with_reducible refine regWrite_keeps ?_) | (with_reducible refine regWrite64_keeps ?_)
    | with_reducible exact kOpt_none | split))

theorem regWriteWd_keeps_e {s0 : State} {s : State} {rq : Requester} {off : Nat} {wd : AccWidth} {v : Nat} {t : State} (h :
    Keeps s0 s) (e : regWriteWd s rq off wd v = .some t) : Keeps s0 t := by
  have k := regWriteWd_keeps (s0 := s0) (s := s) (rq := rq) (off := off) (wd := wd) (v := v) h
  rw [e] at k
  exact k

theorem writeByWd_keeps {s0 : State} {s : State} {rq : Requester} {off : Nat} {wd : AccWidth} {v : Nat} (h : Keeps s0 s) :
    Keeps s0 (writeByWd s rq off wd v) := by
  unfold writeByWd
  (repeat' (first
    | with_reducible assumption | (with_reducible refine busErrorAt_keeps ?_) | (with_reducible refine State.raise_keeps ?_)
    | (with_reducible refine regWriteWd_keeps ?_) | with_reducible refine keeps_getD ?_ ?_ | split))

theorem writeBy_keeps {s0 : State} {s : State} {rq : Requester} {off : Nat} {v : Nat} (h : Keeps s0 s) : Keeps s0 (writeBy s rq
    off v) := by
  unfold writeBy
  (repeat' (first | with_reducible assumption | (with_reducible refine writeByWd_keeps ?_)))

theorem ccWrite_keeps {s0 : State} {s : State} {rq : Requester} {c : Nat} {set : Nat} {clr : Nat} {act : Nat} (h : Keeps s0 s)
    : Keeps s0 (ccWrite s rq c set clr act) := by
  unfold ccWrite
  (repeat' (first | with_reducible assumption | (with_reducible refine writeBy_keeps ?_)))

theorem execCacheDisable_keeps {s0 : State} {rq : Requester} {c : CoreId} {ic : Bool} {dc : Bool} {s : State} (h : Keeps s0 s)
    : KRes s0 (execCacheDisable rq c ic dc s) := by
  unfold execCacheDisable
  (repeat' (first | with_reducible assumption | (with_reducible refine ccWrite_keeps ?_) | with_reducible refine kRes_next ?_))

theorem execTileDoorbell_keeps {s0 : State} {rq : Requester} {t_ : TileId} {v : BitVec 32} {s : State} (h : Keeps s0 s) : KRes
    s0 (execTileDoorbell rq t_ v s) := by
  unfold execTileDoorbell
  (repeat' (first | with_reducible assumption | (with_reducible refine writeBy_keeps ?_) | with_reducible refine kRes_next ?_))

theorem execFlowCmdActivate_keeps {s0 : State} {rq : Requester} {flow : Fin 262144} {s : State} (h : Keeps s0 s) : KRes s0
    (execFlowCmdActivate rq flow s) := by
  unfold execFlowCmdActivate
  (repeat' (first | with_reducible assumption | (with_reducible refine writeBy_keeps ?_) | with_reducible refine kRes_next ?_))

theorem execDcClinv_keeps {s0 : State} {rq : Requester} {c : CoreId} {s : State} (h : Keeps s0 s) : KRes s0 (execDcClinv rq c
    s) := by
  unfold execDcClinv
  (repeat' (first | with_reducible assumption | (with_reducible refine ccWrite_keeps ?_) | with_reducible refine kRes_next ?_))

theorem execThermSave_keeps {s0 : State} {rq : Requester} {s : State} (h : Keeps s0 s) : KRes s0 (execThermSave rq s) := by
  unfold execThermSave
  (repeat' (first | with_reducible assumption | (with_reducible refine writeBy_keeps ?_) | with_reducible refine kRes_next ?_))

theorem dbgSet_keeps {s0 : State} {s : State} {data : Nat} {status : Nat} (h : Keeps s0 s) : Keeps s0 (dbgSet s data status) :=
    by
  unfold dbgSet
  (repeat' (first | with_reducible assumption | fail_if_no_progress (with_reducible refine Keeps.upd ?_)))

theorem execWatchdogBootok_keeps {s0 : State} {rq : Requester} {s : State} (h : Keeps s0 s) : KRes s0 (execWatchdogBootok rq s)
    := by
  unfold execWatchdogBootok
  (repeat' (first | with_reducible assumption | (with_reducible refine writeBy_keeps ?_) | with_reducible refine kRes_next ?_))

theorem eccTest_keeps {s0 : State} {s : State} {rq : Requester} {op : Nat} {mid : Nat} {word : Nat} {d : Option (Nat × Nat)} (h
    : Keeps s0 s) : Keeps s0 (eccTest s rq op mid word d) := by
  unfold eccTest
  (repeat' (first | with_reducible assumption | (with_reducible refine writeBy_keeps ?_) | split))

theorem execEccTestRawWrite_keeps {s0 : State} {rq : Requester} {mid : Nat} {word : Nat} {data : BitVec 64} {chk : BitVec 8} {s
    : State} (h : Keeps s0 s) : KRes s0 (execEccTestRawWrite rq mid word data chk s) := by
  unfold execEccTestRawWrite
  (repeat' (first | with_reducible assumption | (with_reducible refine eccTest_keeps ?_) | with_reducible refine kRes_next ?_))

theorem debugRead_keeps {s0 : State} {s : State} {word : Nat} (h : Keeps s0 s) : Keeps s0 (debugRead s word) := by
  unfold debugRead
  (repeat' (first
    | with_reducible assumption | (with_reducible refine dbgSet_keeps ?_)
    | (with_reducible refine regRead_keeps_e ?_ (by assumption))
    | (with_reducible refine readGlobal_keeps_e ?_ (by assumption)) | with_reducible refine keeps_ite ?_ ?_ | split))

theorem execIcInv_keeps {s0 : State} {rq : Requester} {c : CoreId} {s : State} (h : Keeps s0 s) : KRes s0 (execIcInv rq c s) :=
    by
  unfold execIcInv
  (repeat' (first | with_reducible assumption | (with_reducible refine ccWrite_keeps ?_) | with_reducible refine kRes_next ?_))

theorem execEccRepairDone_keeps {s0 : State} {s : State} (h : Keeps s0 s) : KRes s0 (execEccRepairDone s) := by
  unfold execEccRepairDone
  (repeat' (first
    | with_reducible assumption | (with_reducible refine repairDone_keeps ?_) | with_reducible refine kRes_next ?_))

theorem mcmd_keeps {s0 : State} {s : State} {rq : Requester} {t_ : Nat} {cmd : Nat} {tab : Nat} {step : Nat} (h : Keeps s0 s) :
    Keeps s0 (mcmd s rq t_ cmd tab step) := by
  unfold mcmd
  (repeat' (first | with_reducible assumption | (with_reducible refine writeBy_keeps ?_)))

theorem execHoldSave_keeps {s0 : State} {rq : Requester} {s : State} (h : Keeps s0 s) : KRes s0 (execHoldSave rq s) := by
  unfold execHoldSave
  (repeat' (first | with_reducible assumption | (with_reducible refine writeBy_keeps ?_) | with_reducible refine kRes_next ?_))

theorem execDebugRead_keeps {s0 : State} {word : BitVec 46} {s : State} (h : Keeps s0 s) : KRes s0 (execDebugRead word s) := by
  unfold execDebugRead
  (repeat' (first
    | with_reducible assumption | (with_reducible refine debugRead_keeps ?_) | with_reducible refine kRes_next ?_))

theorem execFlowCmdDrain_keeps {s0 : State} {rq : Requester} {flow : Fin 262144} {s : State} (h : Keeps s0 s) : KRes s0
    (execFlowCmdDrain rq flow s) := by
  unfold execFlowCmdDrain
  (repeat' (first | with_reducible assumption | (with_reducible refine writeBy_keeps ?_) | with_reducible refine kRes_next ?_))

theorem cstoreGo_keeps {s0 : State} {s : State} {rq : Requester} {op : Nat} {addr : Nat} {src : Nat} (h : Keeps s0 s) : Keeps
    s0 (cstoreGo s rq op addr src) := by
  unfold cstoreGo
  (repeat' (first | with_reducible assumption | (with_reducible refine writeBy_keeps ?_)))

theorem execCstoreEraseSequence_keeps {s0 : State} {rq : Requester} {addr : BitVec 26} {s : State} (h : Keeps s0 s) : KRes s0
    (execCstoreEraseSequence rq addr s) := by
  unfold execCstoreEraseSequence
  (repeat' (first | with_reducible assumption | (with_reducible refine cstoreGo_keeps ?_) | with_reducible refine kRes_next ?_))

theorem execWatchdogKick_keeps {s0 : State} {rq : Requester} {v : BitVec 16} {s : State} (h : Keeps s0 s) : KRes s0
    (execWatchdogKick rq v s) := by
  unfold execWatchdogKick
  (repeat' (first | with_reducible assumption | (with_reducible refine writeBy_keeps ?_) | with_reducible refine kRes_next ?_))

theorem execCodecClose_keeps {s0 : State} {rq : Requester} {t_ : TileId} {s : State} (h : Keeps s0 s) : KRes s0 (execCodecClose
    rq t_ s) := by
  unfold execCodecClose
  (repeat' (first | with_reducible assumption | (with_reducible refine writeBy_keeps ?_) | with_reducible refine kRes_next ?_))

theorem execCodecProfileSelect_keeps {s0 : State} {rq : Requester} {t_ : TileId} {prof : Fin 256} {s : State} (h : Keeps s0 s)
    : KRes s0 (execCodecProfileSelect rq t_ prof s) := by
  unfold execCodecProfileSelect
  (repeat' (first | with_reducible assumption | (with_reducible refine writeBy_keeps ?_) | with_reducible refine kRes_next ?_))

theorem execEvictionWrite_keeps {s0 : State} {c : CoreId} {s : State} (h : Keeps s0 s) : KRes s0 (execEvictionWrite c s) := by
  unfold execEvictionWrite
  (repeat' (first
    | with_reducible assumption | (with_reducible refine evictHead_keeps ?_) | with_reducible refine kRes_next ?_))

theorem execCstorePageProgram_keeps {s0 : State} {rq : Requester} {addr : BitVec 26} {src : BitVec 22} {s : State} (h : Keeps
    s0 s) : KRes s0 (execCstorePageProgram rq addr src s) := by
  unfold execCstorePageProgram
  (repeat' (first | with_reducible assumption | (with_reducible refine cstoreGo_keeps ?_) | with_reducible refine kRes_next ?_))

theorem gpioOp_keeps {s0 : State} {s : State} {rq : Requester} {pin : Nat} {op : Nat} (h : Keeps s0 s) : Keeps s0 (gpioOp s rq
    pin op) := by
  unfold gpioOp
  (repeat' (first | with_reducible assumption | (with_reducible refine writeBy_keeps ?_)))

theorem execGpioRelease_keeps {s0 : State} {rq : Requester} {pin : Fin 16} {s : State} (h : Keeps s0 s) : KRes s0
    (execGpioRelease rq pin s) := by
  unfold execGpioRelease
  (repeat' (first | with_reducible assumption | (with_reducible refine gpioOp_keeps ?_) | with_reducible refine kRes_next ?_))

theorem execEccTestRawRead_keeps {s0 : State} {rq : Requester} {mid : Nat} {word : Nat} {s : State} (h : Keeps s0 s) : KRes s0
    (execEccTestRawRead rq mid word s) := by
  unfold execEccTestRawRead
  (repeat' (first | with_reducible assumption | (with_reducible refine eccTest_keeps ?_) | with_reducible refine kRes_next ?_))

theorem execFabTimeset_keeps {s0 : State} {rq : Requester} {t_ : BitVec 64} {s : State} (h : Keeps s0 s) : KRes s0
    (execFabTimeset rq t_ s) := by
  unfold execFabTimeset
  (repeat' (first | with_reducible assumption | (with_reducible refine writeBy_keeps ?_) | with_reducible refine kRes_next ?_))

theorem execCstoreRecordProgram_keeps {s0 : State} {rq : Requester} {addr : BitVec 26} {src : BitVec 22} {s : State} (h : Keeps
    s0 s) : KRes s0 (execCstoreRecordProgram rq addr src s) := by
  unfold execCstoreRecordProgram
  (repeat' (first | with_reducible assumption | (with_reducible refine cstoreGo_keeps ?_) | with_reducible refine kRes_next ?_))

theorem execMariAbort_keeps {s0 : State} {rq : Requester} {t_ : TileId} {s : State} (h : Keeps s0 s) : KRes s0 (execMariAbort
    rq t_ s) := by
  unfold execMariAbort
  (repeat' (first | with_reducible assumption | (with_reducible refine mcmd_keeps ?_) | with_reducible refine kRes_next ?_))

theorem execTileDjob_keeps {s0 : State} {rq : Requester} {t_ : TileId} {desc : Nat} {s : State} (h : Keeps s0 s) : KRes s0
    (execTileDjob rq t_ desc s) := by
  unfold execTileDjob
  (repeat' (first | with_reducible assumption | (with_reducible refine writeBy_keeps ?_) | with_reducible refine kRes_next ?_))

theorem execMariResume_keeps {s0 : State} {rq : Requester} {t_ : TileId} {step : Fin 1024} {s : State} (h : Keeps s0 s) : KRes
    s0 (execMariResume rq t_ step s) := by
  unfold execMariResume
  (repeat' (first | with_reducible assumption | (with_reducible refine mcmd_keeps ?_) | with_reducible refine kRes_next ?_))

theorem execFtlaScanLeastWorn_keeps {s0 : State} {rq : Requester} {lun : Fin 1024} {all : Bool} {s : State} (h : Keeps s0 s) :
    KRes s0 (execFtlaScanLeastWorn rq lun all s) := by
  unfold execFtlaScanLeastWorn
  (repeat' (first | with_reducible assumption | (with_reducible refine writeBy_keeps ?_) | with_reducible refine kRes_next ?_))

theorem execDcInv_keeps {s0 : State} {rq : Requester} {c : CoreId} {s : State} (h : Keeps s0 s) : KRes s0 (execDcInv rq c s) :=
    by
  unfold execDcInv
  (repeat' (first | with_reducible assumption | (with_reducible refine ccWrite_keeps ?_) | with_reducible refine kRes_next ?_))

theorem regReadWd_keeps {s0 : State} {s : State} {rq : Requester} {off : Nat} {wd : AccWidth} (h : Keeps s0 s) : KOpt (fun x =>
    Keeps s0 x.2) (regReadWd s rq off wd) := by
  unfold regReadWd
  (repeat' (first
    | with_reducible assumption | (with_reducible refine regRead64_keeps ?_) | (with_reducible refine regRead_keeps ?_)
    | with_reducible exact kOpt_none | split))

theorem regReadWd_keeps_e {s0 : State} {s : State} {rq : Requester} {off : Nat} {wd : AccWidth} {x10} {t : State} (h : Keeps s0
    s) (e : regReadWd s rq off wd = .some (x10, t)) : Keeps s0 t := by
  have k := regReadWd_keeps (s0 := s0) (s := s) (rq := rq) (off := off) (wd := wd) h
  rw [e] at k
  exact k

theorem bar2_keeps {s0 : State} {s : State} {ctrl : Fin 2} {off : Nat} {wd : AccWidth} {w : Option (BitVec 64)} (h : Keeps s0
    s) : Keeps s0 (bar2 s ctrl off wd w) := by
  unfold bar2
  (repeat' (first
    | with_reducible assumption | (with_reducible refine writeByWd_keeps ?_) | (with_reducible refine State.raise_keeps ?_)
    | (with_reducible refine regReadWd_keeps_e ?_ (by assumption)) | split))

theorem execBar2Access_keeps {s0 : State} {ctrl : Fin 2} {off : Nat} {wd : AccWidth} {w : Option (BitVec 64)} {s : State} (h :
    Keeps s0 s) : KRes s0 (execBar2Access ctrl off wd w s) := by
  unfold execBar2Access
  (repeat' (first | with_reducible assumption | (with_reducible refine bar2_keeps ?_) | with_reducible refine kRes_next ?_))

theorem eccRepair_keeps {s0 : State} {s : State} {rq : Requester} {kind : Nat} {mid : Nat} {index : Nat} (h : Keeps s0 s) :
    Keeps s0 (eccRepair s rq kind mid index) := by
  unfold eccRepair
  (repeat' (first | with_reducible assumption | (with_reducible refine writeBy_keeps ?_)))

theorem execEccRepairRow_keeps {s0 : State} {rq : Requester} {mid : Nat} {index : Nat} {s : State} (h : Keeps s0 s) : KRes s0
    (execEccRepairRow rq mid index s) := by
  unfold execEccRepairRow
  (repeat' (first
    | with_reducible assumption | (with_reducible refine eccRepair_keeps ?_) | with_reducible refine kRes_next ?_))

theorem execGpioClaim_keeps {s0 : State} {rq : Requester} {pin : Fin 16} {s : State} (h : Keeps s0 s) : KRes s0 (execGpioClaim
    rq pin s) := by
  unfold execGpioClaim
  (repeat' (first | with_reducible assumption | (with_reducible refine gpioOp_keeps ?_) | with_reducible refine kRes_next ?_))

theorem execMariStart_keeps {s0 : State} {rq : Requester} {t_ : TileId} {tab : Fin 8} {s : State} (h : Keeps s0 s) : KRes s0
    (execMariStart rq t_ tab s) := by
  unfold execMariStart
  (repeat' (first | with_reducible assumption | (with_reducible refine mcmd_keeps ?_) | with_reducible refine kRes_next ?_))

theorem execCodecDqTailWrite_keeps {s0 : State} {rq : Requester} {idx : BitVec 16} {s : State} (h : Keeps s0 s) : KRes s0
    (execCodecDqTailWrite rq idx s) := by
  unfold execCodecDqTailWrite
  (repeat' (first | with_reducible assumption | (with_reducible refine writeBy_keeps ?_) | with_reducible refine kRes_next ?_))

theorem execFtlaScanVictim_keeps {s0 : State} {rq : Requester} {lun : Fin 1024} {all : Bool} {s : State} (h : Keeps s0 s) :
    KRes s0 (execFtlaScanVictim rq lun all s) := by
  unfold execFtlaScanVictim
  (repeat' (first | with_reducible assumption | (with_reducible refine writeBy_keeps ?_) | with_reducible refine kRes_next ?_))

theorem execCstoreOpDone_keeps {s0 : State} {ok : Bool} {s : State} (h : Keeps s0 s) : KRes s0 (execCstoreOpDone ok s) := by
  unfold execCstoreOpDone
  (repeat' (first | with_reducible assumption | (with_reducible refine csOpDone_keeps ?_) | with_reducible refine kRes_next ?_))

theorem execCacheEnable_keeps {s0 : State} {rq : Requester} {c : CoreId} {ic : Bool} {dc : Bool} {s : State} (h : Keeps s0 s) :
    KRes s0 (execCacheEnable rq c ic dc s) := by
  unfold execCacheEnable
  (repeat' (first | with_reducible assumption | (with_reducible refine ccWrite_keeps ?_) | with_reducible refine kRes_next ?_))

theorem execEccRepairColumn_keeps {s0 : State} {rq : Requester} {mid : Nat} {index : Nat} {s : State} (h : Keeps s0 s) : KRes
    s0 (execEccRepairColumn rq mid index s) := by
  unfold execEccRepairColumn
  (repeat' (first
    | with_reducible assumption | (with_reducible refine eccRepair_keeps ?_) | with_reducible refine kRes_next ?_))

theorem execTileReset_keeps {s0 : State} {rq : Requester} {t_ : TileId} {s : State} (h : Keeps s0 s) : KRes s0 (execTileReset
    rq t_ s) := by
  unfold execTileReset
  (repeat' (first | with_reducible assumption | (with_reducible refine writeBy_keeps ?_) | with_reducible refine kRes_next ?_))

theorem execRuleCmdDelete_keeps {s0 : State} {rq : Requester} {set : Fin 256} {rid : BitVec 16} {s : State} (h : Keeps s0 s) :
    KRes s0 (execRuleCmdDelete rq set rid s) := by
  unfold execRuleCmdDelete
  (repeat' (first | with_reducible assumption | (with_reducible refine writeBy_keeps ?_) | with_reducible refine kRes_next ?_))

theorem execMergeEntryTimeout_keeps {s0 : State} {word : Nat} {s : State} (h : Keeps s0 s) : KRes s0 (execMergeEntryTimeout
    word s) := by
  unfold execMergeEntryTimeout
  (repeat' (first
    | with_reducible assumption | (with_reducible refine writeMerge_keeps ?_) | with_reducible refine kRes_next ?_ | split))

theorem execRegisterWrite_keeps {s0 : State} {rq : Requester} {off : Nat} {wd : AccWidth} {v : BitVec 64} {s : State} (h :
    Keeps s0 s) : KRes s0 (execRegisterWrite rq off wd v s) := by
  unfold execRegisterWrite
  (repeat' (first
    | with_reducible assumption | (with_reducible refine writeByWd_keeps ?_) | with_reducible refine kRes_next ?_))

theorem execInvalidateAllDone_keeps {s0 : State} {c : CoreId} {s : State} (h : Keeps s0 s) : KRes s0 (execInvalidateAllDone c
    s) := by
  unfold execInvalidateAllDone
  (repeat' (first
    | with_reducible assumption | (with_reducible refine invalidateDone_keeps ?_) | with_reducible refine kRes_next ?_))

theorem execFabHwtagWrite_keeps {s0 : State} {rq : Requester} {win : Fin 64} {slot : Fin 1048576} {s : State} (h : Keeps s0 s)
    : KRes s0 (execFabHwtagWrite rq win slot s) := by
  unfold execFabHwtagWrite
  (repeat' (first | with_reducible assumption | (with_reducible refine writeBy_keeps ?_) | with_reducible refine kRes_next ?_))

theorem execRuleCmdInsert_keeps {s0 : State} {rq : Requester} {s : State} (h : Keeps s0 s) : KRes s0 (execRuleCmdInsert rq s)
    := by
  unfold execRuleCmdInsert
  (repeat' (first | with_reducible assumption | (with_reducible refine writeBy_keeps ?_) | with_reducible refine kRes_next ?_))

theorem debugWrite_keeps {s0 : State} {s : State} {word : Nat} {v : Word} (h : Keeps s0 s) : Keeps s0 (debugWrite s word v) :=
    by
  unfold debugWrite
  (repeat' (first
    | with_reducible assumption | (with_reducible refine writeGlobal_keeps_e ?_ (by assumption))
    | (with_reducible refine dbgSet_keeps ?_) | (with_reducible refine regWrite_keeps_e ?_ (by assumption))
    | with_reducible refine keeps_ite ?_ ?_ | split))

theorem execDebugWrite_keeps {s0 : State} {word : BitVec 46} {v : BitVec 32} {s : State} (h : Keeps s0 s) : KRes s0
    (execDebugWrite word v s) := by
  unfold execDebugWrite
  (repeat' (first
    | with_reducible assumption | (with_reducible refine debugWrite_keeps ?_) | with_reducible refine kRes_next ?_))

end Sys2Proof.Machine
end

