-- ==== Sys2Proof/Laws/KeepsExec.lean ====
section
/-! SUPPORT. Sys2Proof/Laws/KeepsExec.lean: every command keeps the canonical forms, the lifecycle and the queue. -/

set_option Elab.async false

namespace Sys2Proof.Machine

/-- What any command keeps of the state. -/
theorem exec_keeps (i : Instr) (s : State) : KRes s (exec i s) :=
  match i with
  | .registerWrite _ _ _ _ => execRegisterWrite_keeps (Keeps.refl s)
  | .blockEnable _ => execBlockEnable_keeps (Keeps.refl s)
  | .blockDisable _ => execBlockDisable_keeps (Keeps.refl s)
  | .blockEnablingDone _ => execBlockEnablingDone_keeps (Keeps.refl s)
  | .blockQuiesceDone _ => execBlockQuiesceDone_keeps (Keeps.refl s)
  | .blockLock _ => execBlockLock_keeps (Keeps.refl s)
  | .rootPllLockLoss => execRootPllLockLoss_keeps (Keeps.refl s)
  | .rootPllRelock => execRootPllRelock_keeps (Keeps.refl s)
  | .flowBind _ _ _ => execFlowBind_keeps (Keeps.refl s)
  | .flowUnbind _ _ => execFlowUnbind_keeps (Keeps.refl s)
  | .flowCmdActivate _ _ => execFlowCmdActivate_keeps (Keeps.refl s)
  | .flowCmdDrain _ _ => execFlowCmdDrain_keeps (Keeps.refl s)
  | .flowCmdDone => execFlowCmdDone_keeps (Keeps.refl s)
  | .parcelCut _ => execParcelCut_keeps (Keeps.refl s)
  | .parcelFetch _ _ _ => execParcelFetch_keeps (Keeps.refl s)
  | .rateMeterInterval => execRateMeterInterval_keeps (Keeps.refl s)
  | .dispatchWaiting => execDispatchWaiting_keeps (Keeps.refl s)
  | .parcelTake _ => execParcelTake_keeps (Keeps.refl s)
  | .stealProbe _ => execStealProbe_keeps (Keeps.refl s)
  | .stealBackoffExpiry _ => execStealBackoffExpiry_keeps (Keeps.refl s)
  | .parcelComplete _ _ => execParcelComplete_keeps (Keeps.refl s)
  | .retRelease => execRetRelease_keeps (Keeps.refl s)
  | .headStallExpiry _ => execHeadStallExpiry_keeps (Keeps.refl s)
  | .headDeadlineExpiry _ => execHeadDeadlineExpiry_keeps (Keeps.refl s)
  | .rawStore _ _ _ => execRawStore_keeps (Keeps.refl s)
  | .gapTimeout _ _ => execGapTimeout_keeps (Keeps.refl s)
  | .nop _ => execNop_keeps (Keeps.refl s)
  | .rte _ => execRte_keeps (Keeps.refl s)
  | .wait _ => execWait_keeps (Keeps.refl s)
  | .waitWake _ => execWaitWake_keeps (Keeps.refl s)
  | .fence _ => execFence_keeps (Keeps.refl s)
  | .fenceDone _ => execFenceDone_keeps (Keeps.refl s)
  | .br _ _ => execBr_keeps (Keeps.refl s)
  | .trap _ _ => execTrap_keeps (Keeps.refl s)
  | .externalInterrupt _ => execExternalInterrupt_keeps (Keeps.refl s)
  | .mov _ _ _ => execMov_keeps (Keeps.refl s)
  | .add _ _ => execAdd_keeps (Keeps.refl s)
  | .sub _ _ => execSub_keeps (Keeps.refl s)
  | .and _ _ => execAnd_keeps (Keeps.refl s)
  | .or _ _ => execOr_keeps (Keeps.refl s)
  | .xor _ _ => execXor_keeps (Keeps.refl s)
  | .andn _ _ _ _ => execAndn_keeps (Keeps.refl s)
  | .not _ _ _ => execNot_keeps (Keeps.refl s)
  | .neg _ _ _ => execNeg_keeps (Keeps.refl s)
  | .lsl _ _ => execLsl_keeps (Keeps.refl s)
  | .lsr _ _ => execLsr_keeps (Keeps.refl s)
  | .asr _ _ => execAsr_keeps (Keeps.refl s)
  | .ror _ _ => execRor_keeps (Keeps.refl s)
  | .rol _ _ => execRol_keeps (Keeps.refl s)
  | .mul _ _ => execMul_keeps (Keeps.refl s)
  | .mulh _ _ _ _ => execMulh_keeps (Keeps.refl s)
  | .mulhu _ _ _ _ => execMulhu_keeps (Keeps.refl s)
  | .adc _ _ => execAdc_keeps (Keeps.refl s)
  | .sbc _ _ => execSbc_keeps (Keeps.refl s)
  | .min _ _ _ _ => execMin_keeps (Keeps.refl s)
  | .max _ _ _ _ => execMax_keeps (Keeps.refl s)
  | .minu _ _ _ _ => execMinu_keeps (Keeps.refl s)
  | .maxu _ _ _ _ => execMaxu_keeps (Keeps.refl s)
  | .addi _ _ => execAddi_keeps (Keeps.refl s)
  | .andi _ _ _ _ => execAndi_keeps (Keeps.refl s)
  | .ori _ _ _ _ => execOri_keeps (Keeps.refl s)
  | .xori _ _ _ _ => execXori_keeps (Keeps.refl s)
  | .movi _ _ => execMovi_keeps (Keeps.refl s)
  | .movhi _ _ _ => execMovhi_keeps (Keeps.refl s)
  | .adr _ _ _ => execAdr_keeps (Keeps.refl s)
  | .div _ _ _ _ _ => execDiv_keeps (Keeps.refl s)
  | .divu _ _ _ _ _ => execDivu_keeps (Keeps.refl s)
  | .sxb _ _ _ => execSxb_keeps (Keeps.refl s)
  | .sxh _ _ _ => execSxh_keeps (Keeps.refl s)
  | .zxb _ _ _ => execZxb_keeps (Keeps.refl s)
  | .zxh _ _ _ => execZxh_keeps (Keeps.refl s)
  | .clz _ _ _ => execClz_keeps (Keeps.refl s)
  | .popc _ _ _ => execPopc_keeps (Keeps.refl s)
  | .bswap _ _ _ => execBswap_keeps (Keeps.refl s)
  | .skipOnRegisters _ _ _ _ => execSkipOnRegisters_keeps (Keeps.refl s)
  | .skipi _ _ _ _ => execSkipi_keeps (Keeps.refl s)
  | .seqi _ _ _ => execSeqi_keeps (Keeps.refl s)
  | .sbs _ _ _ => execSbs_keeps (Keeps.refl s)
  | .sbz _ _ _ => execSbz_keeps (Keeps.refl s)
  | .sfl _ _ => execSfl_keeps (Keeps.refl s)
  | .ldw _ _ => execLdw_keeps (Keeps.refl s)
  | .ldh _ _ _ _ => execLdh_keeps (Keeps.refl s)
  | .ldhu _ _ _ _ => execLdhu_keeps (Keeps.refl s)
  | .ldb _ _ _ _ => execLdb_keeps (Keeps.refl s)
  | .ldbu _ _ _ _ => execLdbu_keeps (Keeps.refl s)
  | .stw _ _ => execStw_keeps (Keeps.refl s)
  | .sth _ _ _ _ => execSth_keeps (Keeps.refl s)
  | .stb _ _ _ _ => execStb_keeps (Keeps.refl s)
  | .lda _ _ _ _ => execLda_keeps (Keeps.refl s)
  | .sta _ _ _ _ => execSta_keeps (Keeps.refl s)
  | .b _ _ => execB_keeps (Keeps.refl s)
  | .call _ _ _ => execCall_keeps (Keeps.refl s)
  | .ret _ _ => execRet_keeps (Keeps.refl s)
  | .mfs _ _ _ => execMfs_keeps (Keeps.refl s)
  | .mts _ _ _ => execMts_keeps (Keeps.refl s)
  | .cacheCleanDc _ _ => execCacheCleanDc_keeps (Keeps.refl s)
  | .cacheInvalidateDc _ _ => execCacheInvalidateDc_keeps (Keeps.refl s)
  | .cacheCleanInvalidateDc _ _ => execCacheCleanInvalidateDc_keeps (Keeps.refl s)
  | .cacheInvalidateIc _ _ => execCacheInvalidateIc_keeps (Keeps.refl s)
  | .programSlotLoad _ _ _ => execProgramSlotLoad_keeps (Keeps.refl s)
  | .cacheEnable _ _ _ _ => execCacheEnable_keeps (Keeps.refl s)
  | .cacheDisable _ _ _ _ => execCacheDisable_keeps (Keeps.refl s)
  | .icInv _ _ => execIcInv_keeps (Keeps.refl s)
  | .dcInv _ _ => execDcInv_keeps (Keeps.refl s)
  | .dcClinv _ _ => execDcClinv_keeps (Keeps.refl s)
  | .invalidateAllDone _ => execInvalidateAllDone_keeps (Keeps.refl s)
  | .evictionWrite _ => execEvictionWrite_keeps (Keeps.refl s)
  | .mergeEntryTimeout _ => execMergeEntryTimeout_keeps (Keeps.refl s)
  | .tileReset _ _ => execTileReset_keeps (Keeps.refl s)
  | .tileResetDone _ => execTileResetDone_keeps (Keeps.refl s)
  | .tileDoorbell _ _ _ => execTileDoorbell_keeps (Keeps.refl s)
  | .scrubWord _ => execScrubWord_keeps (Keeps.refl s)
  | .eccRepairRow _ _ _ => execEccRepairRow_keeps (Keeps.refl s)
  | .eccRepairColumn _ _ _ => execEccRepairColumn_keeps (Keeps.refl s)
  | .eccRepairDone => execEccRepairDone_keeps (Keeps.refl s)
  | .eccTestRawRead _ _ _ => execEccTestRawRead_keeps (Keeps.refl s)
  | .eccTestRawWrite _ _ _ _ _ => execEccTestRawWrite_keeps (Keeps.refl s)
  | .mariStart _ _ _ => execMariStart_keeps (Keeps.refl s)
  | .mariLoadDone _ => execMariLoadDone_keeps (Keeps.refl s)
  | .mariResume _ _ _ => execMariResume_keeps (Keeps.refl s)
  | .mariAbort _ _ => execMariAbort_keeps (Keeps.refl s)
  | .mariRunEnd _ => execMariRunEnd_keeps (Keeps.refl s)
  | .mariBudgetExpiry _ => execMariBudgetExpiry_keeps (Keeps.refl s)
  | .mariNop _ => execMariNop_keeps (Keeps.refl s)
  | .mariMov _ => execMariMov_keeps (Keeps.refl s)
  | .mariAdd _ => execMariAdd_keeps (Keeps.refl s)
  | .mariSub _ => execMariSub_keeps (Keeps.refl s)
  | .mariMin _ => execMariMin_keeps (Keeps.refl s)
  | .mariMax _ => execMariMax_keeps (Keeps.refl s)
  | .mariAnd _ => execMariAnd_keeps (Keeps.refl s)
  | .mariOr _ => execMariOr_keeps (Keeps.refl s)
  | .mariXor _ => execMariXor_keeps (Keeps.refl s)
  | .mariCmpgt _ => execMariCmpgt_keeps (Keeps.refl s)
  | .mariCmpge _ => execMariCmpge_keeps (Keeps.refl s)
  | .mariCmpeq _ => execMariCmpeq_keeps (Keeps.refl s)
  | .mariThr _ => execMariThr_keeps (Keeps.refl s)
  | .mariSel _ => execMariSel_keeps (Keeps.refl s)
  | .mariShl _ => execMariShl_keeps (Keeps.refl s)
  | .mariShr _ => execMariShr_keeps (Keeps.refl s)
  | .mariShn _ => execMariShn_keeps (Keeps.refl s)
  | .mariPopc _ => execMariPopc_keeps (Keeps.refl s)
  | .mariPsum _ => execMariPsum_keeps (Keeps.refl s)
  | .mariCpk _ => execMariCpk_keeps (Keeps.refl s)
  | .mariCpkp _ => execMariCpkp_keeps (Keeps.refl s)
  | .mariHist _ => execMariHist_keeps (Keeps.refl s)
  | .mariNsum3 _ => execMariNsum3_keeps (Keeps.refl s)
  | .mariLmax3 _ => execMariLmax3_keeps (Keeps.refl s)
  | .mariGath _ => execMariGath_keeps (Keeps.refl s)
  | .stepTableLoad _ _ => execStepTableLoad_keeps (Keeps.refl s)
  | .codecClose _ _ => execCodecClose_keeps (Keeps.refl s)
  | .codecProfileSelect _ _ _ => execCodecProfileSelect_keeps (Keeps.refl s)
  | .codecBlockForm _ => execCodecBlockForm_keeps (Keeps.refl s)
  | .codecEncode _ => execCodecEncode_keeps (Keeps.refl s)
  | .verifierDecide _ _ => execVerifierDecide_keeps (Keeps.refl s)
  | .blockOutputWrite _ => execBlockOutputWrite_keeps (Keeps.refl s)
  | .codecDqTailWrite _ _ => execCodecDqTailWrite_keeps (Keeps.refl s)
  | .decodeQueueFetch => execDecodeQueueFetch_keeps (Keeps.refl s)
  | .decodeJobEnd _ => execDecodeJobEnd_keeps (Keeps.refl s)
  | .tileDjob _ _ _ => execTileDjob_keeps (Keeps.refl s)
  | .tileDecodeJobEnd _ => execTileDecodeJobEnd_keeps (Keeps.refl s)
  | .codecProfileLoad _ _ => execCodecProfileLoad_keeps (Keeps.refl s)
  | .automatonLoad _ _ => execAutomatonLoad_keeps (Keeps.refl s)
  | .automatonScan _ => execAutomatonScan_keeps (Keeps.refl s)
  | .tcamSearch => execTcamSearch_keeps (Keeps.refl s)
  | .ruleTableLoadReplace _ _ _ => execRuleTableLoadReplace_keeps (Keeps.refl s)
  | .ruleTableLoadInsert _ _ _ => execRuleTableLoadInsert_keeps (Keeps.refl s)
  | .ruleTableLoadDelete _ _ _ => execRuleTableLoadDelete_keeps (Keeps.refl s)
  | .ruleCmdInsert _ => execRuleCmdInsert_keeps (Keeps.refl s)
  | .ruleInsertDone => execRuleInsertDone_keeps (Keeps.refl s)
  | .ruleCmdDelete _ _ _ => execRuleCmdDelete_keeps (Keeps.refl s)
  | .ruleDeleteDone => execRuleDeleteDone_keeps (Keeps.refl s)
  | .shadowCheck _ => execShadowCheck_keeps (Keeps.refl s)
  | .perstAssert _ => execPerstAssert_keeps (Keeps.refl s)
  | .perstDeassert _ _ => execPerstDeassert_keeps (Keeps.refl s)
  | .hotReset _ => execHotReset_keeps (Keeps.refl s)
  | .flr _ => execFlr_keeps (Keeps.refl s)
  | .pcieLinkUp _ _ _ _ => execPcieLinkUp_keeps (Keeps.refl s)
  | .pcieLinkDown _ => execPcieLinkDown_keeps (Keeps.refl s)
  | .bar2Access _ _ _ _ => execBar2Access_keeps (Keeps.refl s)
  | .hostReadFailure _ _ _ => execHostReadFailure_keeps (Keeps.refl s)
  | .controllerEnable _ _ _ => execControllerEnable_keeps (Keeps.refl s)
  | .controllerReset _ => execControllerReset_keeps (Keeps.refl s)
  | .shutdownNotify _ _ => execShutdownNotify_keeps (Keeps.refl s)
  | .shutdownComplete _ => execShutdownComplete_keeps (Keeps.refl s)
  | .sqTailDoorbell _ _ _ => execSqTailDoorbell_keeps (Keeps.refl s)
  | .cqHeadDoorbell _ _ _ => execCqHeadDoorbell_keeps (Keeps.refl s)
  | .commandStart _ => execCommandStart_keeps (Keeps.refl s)
  | .commandComplete _ => execCommandComplete_keeps (Keeps.refl s)
  | .createIoSq _ _ _ _ _ => execCreateIoSq_keeps (Keeps.refl s)
  | .createIoCq _ _ _ _ _ => execCreateIoCq_keeps (Keeps.refl s)
  | .deleteIoSq _ _ => execDeleteIoSq_keeps (Keeps.refl s)
  | .deleteIoCq _ _ => execDeleteIoCq_keeps (Keeps.refl s)
  | .getLogPage _ _ _ _ _ _ => execGetLogPage_keeps (Keeps.refl s)
  | .identify _ _ _ => execIdentify_keeps (Keeps.refl s)
  | .abort _ _ _ => execAbort_keeps (Keeps.refl s)
  | .setFeatures _ _ _ _ _ => execSetFeatures_keeps (Keeps.refl s)
  | .getFeatures _ _ _ => execGetFeatures_keeps (Keeps.refl s)
  | .asyncEventRequest _ => execAsyncEventRequest_keeps (Keeps.refl s)
  | .namespaceManagement _ _ => execNamespaceManagement_keeps (Keeps.refl s)
  | .namespaceAttachment _ _ _ => execNamespaceAttachment_keeps (Keeps.refl s)
  | .firmwareImageDownload _ _ _ => execFirmwareImageDownload_keeps (Keeps.refl s)
  | .firmwareCommitAction0 _ _ _ _ => execFirmwareCommitAction0_keeps (Keeps.refl s)
  | .firmwareCommitAction1 _ _ _ _ => execFirmwareCommitAction1_keeps (Keeps.refl s)
  | .firmwareCommitAction2 _ _ _ _ => execFirmwareCommitAction2_keeps (Keeps.refl s)
  | .deviceSelfTestShort _ _ => execDeviceSelfTestShort_keeps (Keeps.refl s)
  | .deviceSelfTestExtended _ _ => execDeviceSelfTestExtended_keeps (Keeps.refl s)
  | .deviceSelfTestAbort _ => execDeviceSelfTestAbort_keeps (Keeps.refl s)
  | .selfTestEnd _ => execSelfTestEnd_keeps (Keeps.refl s)
  | .directiveSend _ _ _ _ _ => execDirectiveSend_keeps (Keeps.refl s)
  | .directiveReceive _ _ _ _ => execDirectiveReceive_keeps (Keeps.refl s)
  | .formatNvm _ _ _ _ => execFormatNvm_keeps (Keeps.refl s)
  | .sanitizeBlockErase _ => execSanitizeBlockErase_keeps (Keeps.refl s)
  | .sanitizeCryptoErase _ => execSanitizeCryptoErase_keeps (Keeps.refl s)
  | .sanitizeDone => execSanitizeDone_keeps (Keeps.refl s)
  | .personalityLoad _ _ _ => execPersonalityLoad_keeps (Keeps.refl s)
  | .fabricConfigureLoad _ _ _ => execFabricConfigureLoad_keeps (Keeps.refl s)
  | .fabricConfigureTags _ _ _ => execFabricConfigureTags_keeps (Keeps.refl s)
  | .holdupRequalify _ _ => execHoldupRequalify_keeps (Keeps.refl s)
  | .holdupRequalifyProfile _ _ _ => execHoldupRequalifyProfile_keeps (Keeps.refl s)
  | .holdupThermalProfile _ _ _ => execHoldupThermalProfile_keeps (Keeps.refl s)
  | .flush _ _ => execFlush_keeps (Keeps.refl s)
  | .write _ _ _ _ _ _ _ _ => execWrite_keeps (Keeps.refl s)
  | .read _ _ _ _ _ => execRead_keeps (Keeps.refl s)
  | .datasetManagement _ _ _ => execDatasetManagement_keeps (Keeps.refl s)
  | .verify _ _ _ _ _ => execVerify_keeps (Keeps.refl s)
  | .parcelRead _ _ _ _ _ => execParcelRead_keeps (Keeps.refl s)
  | .loadProgram _ _ _ => execLoadProgram_keeps (Keeps.refl s)
  | .programActivationManagement _ _ _ => execProgramActivationManagement_keeps (Keeps.refl s)
  | .memoryRangeSetManagement _ _ => execMemoryRangeSetManagement_keeps (Keeps.refl s)
  | .executeProgram _ _ _ _ _ _ => execExecuteProgram_keeps (Keeps.refl s)
  | .cpTimeLimitExpiry _ => execCpTimeLimitExpiry_keeps (Keeps.refl s)
  | .memoryCopy _ _ _ _ _ _ _ => execMemoryCopy_keeps (Keeps.refl s)
  | .slmRead _ _ _ _ => execSlmRead_keeps (Keeps.refl s)
  | .slmWrite _ _ _ _ => execSlmWrite_keeps (Keeps.refl s)
  | .miDynamicAddress _ => execMiDynamicAddress_keeps (Keeps.refl s)
  | .miReadDataStructure _ => execMiReadDataStructure_keeps (Keeps.refl s)
  | .miSubsystemHealthPoll => execMiSubsystemHealthPoll_keeps (Keeps.refl s)
  | .miControllerHealthPoll _ => execMiControllerHealthPoll_keeps (Keeps.refl s)
  | .miConfigurationSet _ _ => execMiConfigurationSet_keeps (Keeps.refl s)
  | .miConfigurationGet _ => execMiConfigurationGet_keeps (Keeps.refl s)
  | .miVpdRead _ _ => execMiVpdRead_keeps (Keeps.refl s)
  | .miVpdWrite _ _ => execMiVpdWrite_keeps (Keeps.refl s)
  | .miPause => execMiPause_keeps (Keeps.refl s)
  | .miResume => execMiResume_keeps (Keeps.refl s)
  | .miAbort => execMiAbort_keeps (Keeps.refl s)
  | .miGetState => execMiGetState_keeps (Keeps.refl s)
  | .nandOpReset _ => execNandOpReset_keeps (Keeps.refl s)
  | .nandOpRead _ _ _ => execNandOpRead_keeps (Keeps.refl s)
  | .nandOpReadSlc _ _ _ => execNandOpReadSlc_keeps (Keeps.refl s)
  | .nandOpProgram _ => execNandOpProgram_keeps (Keeps.refl s)
  | .nandOpProgramSlc _ => execNandOpProgramSlc_keeps (Keeps.refl s)
  | .nandOpErase _ _ => execNandOpErase_keeps (Keeps.refl s)
  | .nandOpRetrySet _ => execNandOpRetrySet_keeps (Keeps.refl s)
  | .nandOpRetryClear _ => execNandOpRetryClear_keeps (Keeps.refl s)
  | .nandOpParamRead _ => execNandOpParamRead_keeps (Keeps.refl s)
  | .nandCmd _ => execNandCmd_keeps (Keeps.refl s)
  | .nandAddr _ => execNandAddr_keeps (Keeps.refl s)
  | .nandDin _ => execNandDin_keeps (Keeps.refl s)
  | .nandDout _ _ _ => execNandDout_keeps (Keeps.refl s)
  | .nandWait _ => execNandWait_keeps (Keeps.refl s)
  | .nandPoll _ _ => execNandPoll_keeps (Keeps.refl s)
  | .nandPollTimeout _ => execNandPollTimeout_keeps (Keeps.refl s)
  | .nandFeat _ => execNandFeat_keeps (Keeps.refl s)
  | .nandEnd _ => execNandEnd_keeps (Keeps.refl s)
  | .unitWrite _ _ => execUnitWrite_keeps (Keeps.refl s)
  | .unitTimeout _ _ => execUnitTimeout_keeps (Keeps.refl s)
  | .irregularReform => execIrregularReform_keeps (Keeps.refl s)
  | .journalCommit => execJournalCommit_keeps (Keeps.refl s)
  | .checkpoint => execCheckpoint_keeps (Keeps.refl s)
  | .gcVictim => execGcVictim_keeps (Keeps.refl s)
  | .gcCommit => execGcCommit_keeps (Keeps.refl s)
  | .gcErase _ _ _ => execGcErase_keeps (Keeps.refl s)
  | .ftlaScanVictim _ _ _ => execFtlaScanVictim_keeps (Keeps.refl s)
  | .ftlaScanLeastWorn _ _ _ => execFtlaScanLeastWorn_keeps (Keeps.refl s)
  | .ftlaScanDone => execFtlaScanDone_keeps (Keeps.refl s)
  | .damdomSignalDetect _ => execDamdomSignalDetect_keeps (Keeps.refl s)
  | .damdomTrainDone _ _ => execDamdomTrainDone_keeps (Keeps.refl s)
  | .damdomStateTimeout _ => execDamdomStateTimeout_keeps (Keeps.refl s)
  | .damdomRetryWait _ => execDamdomRetryWait_keeps (Keeps.refl s)
  | .flitReceive _ _ => execFlitReceive_keeps (Keeps.refl s)
  | .nakRepeat _ => execNakRepeat_keeps (Keeps.refl s)
  | .ackTimer _ => execAckTimer_keeps (Keeps.refl s)
  | .replayTimeout _ => execReplayTimeout_keeps (Keeps.refl s)
  | .hello _ => execHello_keeps (Keeps.refl s)
  | .helloTimer _ => execHelloTimer_keeps (Keeps.refl s)
  | .helloTimeout _ => execHelloTimeout_keeps (Keeps.refl s)
  | .nak _ => execNak_keeps (Keeps.refl s)
  | .credit _ => execCredit_keeps (Keeps.refl s)
  | .treq _ _ _ => execTreq_keeps (Keeps.refl s)
  | .trsp _ _ => execTrsp_keeps (Keeps.refl s)
  | .down _ => execDown_keeps (Keeps.refl s)
  | .frameForward _ _ => execFrameForward_keeps (Keeps.refl s)
  | .probe _ => execProbe_keeps (Keeps.refl s)
  | .probeReply _ => execProbeReply_keeps (Keeps.refl s)
  | .assign _ => execAssign_keeps (Keeps.refl s)
  | .routes _ => execRoutes_keeps (Keeps.refl s)
  | .event _ => execEvent_keeps (Keeps.refl s)
  | .segmentDiscovery => execSegmentDiscovery_keeps (Keeps.refl s)
  | .mresp _ => execMresp_keeps (Keeps.refl s)
  | .mreqIdent _ => execMreqIdent_keeps (Keeps.refl s)
  | .mreqLog _ => execMreqLog_keeps (Keeps.refl s)
  | .mreqFlowq _ => execMreqFlowq_keeps (Keeps.refl s)
  | .mreqTimeq _ _ => execMreqTimeq_keeps (Keeps.refl s)
  | .mreqHwlist _ => execMreqHwlist_keeps (Keeps.refl s)
  | .mreqUndefined _ => execMreqUndefined_keeps (Keeps.refl s)
  | .openFrame _ _ => execOpenFrame_keeps (Keeps.refl s)
  | .data _ => execData_keeps (Keeps.refl s)
  | .hwr _ => execHwr_keeps (Keeps.refl s)
  | .hrd _ => execHrd_keeps (Keeps.refl s)
  | .htag _ => execHtag_keeps (Keeps.refl s)
  | .fabHwtagWrite _ _ _ => execFabHwtagWrite_keeps (Keeps.refl s)
  | .fabTimeset _ _ => execFabTimeset_keeps (Keeps.refl s)
  | .timeExchangeTimer _ => execTimeExchangeTimer_keeps (Keeps.refl s)
  | .timeExchangeStale => execTimeExchangeStale_keeps (Keeps.refl s)
  | .dramRequestServe _ _ _ _ _ => execDramRequestServe_keeps (Keeps.refl s)
  | .refreshDue _ _ => execRefreshDue_keeps (Keeps.refl s)
  | .owedRefreshIssue _ => execOwedRefreshIssue_keeps (Keeps.refl s)
  | .mr4Poll _ _ => execMr4Poll_keeps (Keeps.refl s)
  | .retrainPauseDue _ => execRetrainPauseDue_keeps (Keeps.refl s)
  | .retrainDeferExpiry _ => execRetrainDeferExpiry_keeps (Keeps.refl s)
  | .retrainPauseStart _ => execRetrainPauseStart_keeps (Keeps.refl s)
  | .retrainPauseEnd _ _ _ => execRetrainPauseEnd_keeps (Keeps.refl s)
  | .dramScrubLine _ _ => execDramScrubLine_keeps (Keeps.refl s)
  | .dramSegmentInitDone => execDramSegmentInitDone_keeps (Keeps.refl s)
  | .dmaClaim _ _ => execDmaClaim_keeps (Keeps.refl s)
  | .dmaRelease _ _ => execDmaRelease_keeps (Keeps.refl s)
  | .dmaGo _ _ => execDmaGo_keeps (Keeps.refl s)
  | .dmaPause _ _ => execDmaPause_keeps (Keeps.refl s)
  | .dmaUnpause _ _ => execDmaUnpause_keeps (Keeps.refl s)
  | .dmaPauseDrained _ => execDmaPauseDrained_keeps (Keeps.refl s)
  | .dmaAbort _ _ => execDmaAbort_keeps (Keeps.refl s)
  | .dmaKick _ _ => execDmaKick_keeps (Keeps.refl s)
  | .dmaMove _ _ => execDmaMove_keeps (Keeps.refl s)
  | .dmaLoop _ => execDmaLoop_keeps (Keeps.refl s)
  | .dmaWait _ => execDmaWait_keeps (Keeps.refl s)
  | .dmaWaitWake _ => execDmaWaitWake_keeps (Keeps.refl s)
  | .dmaWaitTimeout _ => execDmaWaitTimeout_keeps (Keeps.refl s)
  | .dmaSignal _ => execDmaSignal_keeps (Keeps.refl s)
  | .dmaEnd _ => execDmaEnd_keeps (Keeps.refl s)
  | .dmaDescriptor _ _ => execDmaDescriptor_keeps (Keeps.refl s)
  | .dmaCqHeadWrite _ _ => execDmaCqHeadWrite_keeps (Keeps.refl s)
  | .dmaEventSet _ _ => execDmaEventSet_keeps (Keeps.refl s)
  | .digestClaim _ _ => execDigestClaim_keeps (Keeps.refl s)
  | .digestRelease _ _ => execDigestRelease_keeps (Keeps.refl s)
  | .digestInit _ _ _ _ => execDigestInit_keeps (Keeps.refl s)
  | .digestFeed _ _ => execDigestFeed_keeps (Keeps.refl s)
  | .digestFeedDone _ => execDigestFeedDone_keeps (Keeps.refl s)
  | .digestFinal _ _ => execDigestFinal_keeps (Keeps.refl s)
  | .digestAbsorb _ _ _ => execDigestAbsorb_keeps (Keeps.refl s)
  | .digestCompare _ _ _ => execDigestCompare_keeps (Keeps.refl s)
  | .digestWipe _ _ => execDigestWipe_keeps (Keeps.refl s)
  | .keysGenerate _ _ _ _ => execKeysGenerate_keeps (Keeps.refl s)
  | .keysErase _ _ => execKeysErase_keeps (Keeps.refl s)
  | .drbgReady => execDrbgReady_keeps (Keeps.refl s)
  | .drbgReseed => execDrbgReseed_keeps (Keeps.refl s)
  | .noiseTestFailure => execNoiseTestFailure_keeps (Keeps.refl s)
  | .keysRngRead _ => execKeysRngRead_keeps (Keeps.refl s)
  | .vaultAcquire _ => execVaultAcquire_keeps (Keeps.refl s)
  | .vaultRelease _ => execVaultRelease_keeps (Keeps.refl s)
  | .vaultOpen _ _ _ _ => execVaultOpen_keeps (Keeps.refl s)
  | .vaultStep _ => execVaultStep_keeps (Keeps.refl s)
  | .vaultStepDone _ => execVaultStepDone_keeps (Keeps.refl s)
  | .vaultClose _ => execVaultClose_keeps (Keeps.refl s)
  | .vaultUnwrap _ _ _ => execVaultUnwrap_keeps (Keeps.refl s)
  | .vaultWrap _ _ _ => execVaultWrap_keeps (Keeps.refl s)
  | .vaultLeaseLapse => execVaultLeaseLapse_keeps (Keeps.refl s)
  | .lifecycleAdvance _ _ _ => execLifecycleAdvance_keeps (Keeps.refl s)
  | .lifecycleBurnDone => execLifecycleBurnDone_keeps (Keeps.refl s)
  | .gateErase _ => execGateErase_keeps (Keeps.refl s)
  | .gateProgram _ => execGateProgram_keeps (Keeps.refl s)
  | .gateCommit _ _ _ => execGateCommit_keeps (Keeps.refl s)
  | .gateActivate _ _ _ => execGateActivate_keeps (Keeps.refl s)
  | .gateGrown _ _ _ => execGateGrown_keeps (Keeps.refl s)
  | .cstoreEraseSequence _ _ => execCstoreEraseSequence_keeps (Keeps.refl s)
  | .cstorePageProgram _ _ _ => execCstorePageProgram_keeps (Keeps.refl s)
  | .cstoreRecordProgram _ _ _ => execCstoreRecordProgram_keeps (Keeps.refl s)
  | .cstoreOpDone _ => execCstoreOpDone_keeps (Keeps.refl s)
  | .watchdogKick _ _ => execWatchdogKick_keeps (Keeps.refl s)
  | .watchdogBootok _ => execWatchdogBootok_keeps (Keeps.refl s)
  | .watchdogWarn => execWatchdogWarn_keeps (Keeps.refl s)
  | .watchdogExpiry => execWatchdogExpiry_keeps (Keeps.refl s)
  | .powerFail _ => execPowerFail_keeps (Keeps.refl s)
  | .flushEnd _ => execFlushEnd_keeps (Keeps.refl s)
  | .postflushRelease _ => execPostflushRelease_keeps (Keeps.refl s)
  | .voltageSample _ => execVoltageSample_keeps (Keeps.refl s)
  | .chargerTick => execChargerTick_keeps (Keeps.refl s)
  | .qualChargeTimeout => execQualChargeTimeout_keeps (Keeps.refl s)
  | .stringTestSettle _ => execStringTestSettle_keeps (Keeps.refl s)
  | .stringLoadSample _ => execStringLoadSample_keeps (Keeps.refl s)
  | .stringTestEnd _ => execStringTestEnd_keeps (Keeps.refl s)
  | .holdSave _ => execHoldSave_keeps (Keeps.refl s)
  | .holdSaveDone => execHoldSaveDone_keeps (Keeps.refl s)
  | .thermSave _ => execThermSave_keeps (Keeps.refl s)
  | .thermSaveDone => execThermSaveDone_keeps (Keeps.refl s)
  | .cellarReplayWrite => execCellarReplayWrite_keeps (Keeps.refl s)
  | .thermalSensorRead _ _ _ => execThermalSensorRead_keeps (Keeps.refl s)
  | .fanStall _ => execFanStall_keeps (Keeps.refl s)
  | .thermalTrip _ => execThermalTrip_keeps (Keeps.refl s)
  | .gpioClaim _ _ => execGpioClaim_keeps (Keeps.refl s)
  | .gpioRelease _ _ => execGpioRelease_keeps (Keeps.refl s)
  | .gpioEdge _ _ => execGpioEdge_keeps (Keeps.refl s)
  | .aonPowerOn => execAonPowerOn_keeps (Keeps.refl s)
  | .coldReset => execColdReset_keeps (Keeps.refl s)
  | .sysRstRelease _ => execSysRstRelease_keeps (Keeps.refl s)
  | .mainRailLow _ _ => execMainRailLow_keeps (Keeps.refl s)
  | .aonRailLow _ _ => execAonRailLow_keeps (Keeps.refl s)
  | .warmReset _ => execWarmReset_keeps (Keeps.refl s)
  | .houseCoreRun _ => execHouseCoreRun_keeps (Keeps.refl s)
  | .phaseClocks => execPhaseClocks_keeps (Keeps.refl s)
  | .phaseFuses _ => execPhaseFuses_keeps (Keeps.refl s)
  | .phaseRom => execPhaseRom_keeps (Keeps.refl s)
  | .phaseCstore _ => execPhaseCstore_keeps (Keeps.refl s)
  | .phaseVerify _ _ => execPhaseVerify_keeps (Keeps.refl s)
  | .phaseFwload => execPhaseFwload_keeps (Keeps.refl s)
  | .phaseKeys _ => execPhaseKeys_keeps (Keeps.refl s)
  | .phaseDram _ _ => execPhaseDram_keeps (Keeps.refl s)
  | .phaseRecords _ => execPhaseRecords_keeps (Keeps.refl s)
  | .phaseNand _ _ _ => execPhaseNand_keeps (Keeps.refl s)
  | .phaseReplay _ _ => execPhaseReplay_keeps (Keeps.refl s)
  | .rescueWrite => execRescueWrite_keeps (Keeps.refl s)
  | .phaseReady => execPhaseReady_keeps (Keeps.refl s)
  | .phaseLimitExpiry => execPhaseLimitExpiry_keeps (Keeps.refl s)
  | .tapReset => execTapReset_keeps (Keeps.refl s)
  | .tapExtest _ _ => execTapExtest_keeps (Keeps.refl s)
  | .tapIdcode => execTapIdcode_keeps (Keeps.refl s)
  | .tapSamplePreload _ _ => execTapSamplePreload_keeps (Keeps.refl s)
  | .tapHighz => execTapHighz_keeps (Keeps.refl s)
  | .tapClamp => execTapClamp_keeps (Keeps.refl s)
  | .tapDebug => execTapDebug_keeps (Keeps.refl s)
  | .tapBypass => execTapBypass_keeps (Keeps.refl s)
  | .debugRead _ => execDebugRead_keeps (Keeps.refl s)
  | .debugWrite _ _ => execDebugWrite_keeps (Keeps.refl s)
  | .illegalInstruction _ _ => execIllegalInstruction_keeps (Keeps.refl s)
  | .fetchFault _ => execFetchFault_keeps (Keeps.refl s)
  | .dmaUndefinedInstruction _ => execDmaUndefinedInstruction_keeps (Keeps.refl s)
  | .invalidCommandOpcode _ _ => execInvalidCommandOpcode_keeps (Keeps.refl s)
  | .frameKindUndefined _ => execFrameKindUndefined_keeps (Keeps.refl s)
  | .d3hotTransition _ _ => execD3hotTransition_keeps (Keeps.refl s)
  | .pcieL1Entry _ => execPcieL1Entry_keeps (Keeps.refl s)
  | .pcieL1Exit _ => execPcieL1Exit_keeps (Keeps.refl s)
  | .serdesPllLock _ => execSerdesPllLock_keeps (Keeps.refl s)
  | .rtcCrystalStart => execRtcCrystalStart_keeps (Keeps.refl s)

end Sys2Proof.Machine
end

