-- ==== Sys2Proof/Laws/Submit.lean ====
section
/-! SUPPORT. Sys2Proof/Laws/Submit.lean: an NVMe command that starts at once is entered, marked as started and given its
effect; what holds of the command that arbitration picked. -/

set_option Elab.async false

namespace Sys2Proof.Machine

/-- Everything `startsAtOnce` says of the state and the command it gives. -/
theorem startsAtOnce_spec {s s1 : State} {q : CmdRef} {op : NvmeOp} {c : Cmd} (h : startsAtOnce s q op = some (s1, c)) :
    submit s q op = noteWaits (startCmd s1 c) ∧ c.op = op ∧ c.src = q ∧ c.xfer = false ∧ opMisplaced c = isInvalid op := by
  unfold startsAtOnce at h
  cases q with
  | mi => cases h
  | host k n cid =>
    simp only at h
    split at h
    · rename_i hf
      split at h
      · cases h
      · rename_i m cls anew ha
        split at h
        · cases h
        · rename_i c' hr
          split at h
          · rename_i hc
            cases h
            refine ⟨?_, hc.2⟩
            simp [submit, hf, arbStart, ha, hr, hc.1, startPicked]
          · cases h
    · cases h

end Sys2Proof.Machine
end

