-- ==== Sys2Proof/Tests/Setup.lean ====
section
/-! SUPPORT. Sys2Proof/Tests/Setup.lean: the small states and images that the tests and the witnesses are stated on. -/

namespace Sys2Proof.Machine

/-- Reset with no register field set. -/
def tiny : State := { State.reset with regs := [] }

/-- The same with some fields set. -/
def tinyW (l : List (Fld × Nat)) : State := tiny.setFlds l

/-- The same with stack pointers in local memory, at 0x1000. -/
def stacked (s : State) : State :=
  (s.setCore 3 { Core.tileReset with pc := 0x100, run := .run, w := [(14, 0x1000)] }).setCore 32
    { Core.houseReset with run := .run, w := [(14, 0x1000)] }

/-- A state with tile core 3 running at 0x100, and house core 32 running at the reset vector. -/
def running (s : State) : State :=
  (s.setCore 3 { Core.tileReset with pc := 0x100, run := .run }).setCore 32 { Core.houseReset with run := .run }

/-- A step of an operation on v0 and v1 into v0. -/
def stepWord (op : Nat) : Nat := op + 4 * 2 ^ 8 + 5 * 2 ^ 12 + 2 * 2 ^ 16

/-- Tile 3 with its marionette running the one step `w` over 64-byte vectors. -/
def puppet (s : State) (w : Nat) : State :=
  updMari (s.setFld (R.TILE_MSTAT_MSTATE 3) 2) 3 (fun m => { m with steps := [w], nstep := 1, line := 64, v := [(0, 5), (1, 7)] })

/-- The same, row by row. -/
def raster (s : State) (op : Nat) : State :=
  updMari (s.setFlds [(R.TILE_MSTAT_MSTATE 3, 2), (R.TILE_MIS_LEN_LEN 3 0, 256)]) 3
    (fun m => { m with steps := [stepWord op - 0x400], nstep := 1, line := 64, isOff := [(0, 128)] })

/-- The marionette at its next row. -/
def nextRow (s : State) : Mari := { (s.tile 3).mari with row0 := List.replicate 64 0, nrow := 2 }

/-- DMA channel `ch` owned by tile 1 in a state, its program in local memory. -/
def dmaRun (s : State) (ch st : Nat) (bs : List (Nat × Nat)) : State :=
  { s.setFlds [(R.DMA_CH_OWN_KIND ch, 1), (R.DMA_CH_OWN_ID ch, 1), (R.DMA_CH_STAT_CSTATE ch, st), (R.DMA_CH_PCLO_PCLO ch, tileLocalAddr 3 0), (R.DMA_CH_PCHI_PCHI ch, tileLocalAddr 3 0 / 2 ^ 32),
     (R.DMA_CH_PROGLO_PROGLO ch, tileLocalAddr 3 0), (R.DMA_CH_PROGHI_PROGHI ch, tileLocalAddr 3 0 / 2 ^ 32), (fldState 0xD0000, 2)] with
    mem := bs.map (fun e => (tileLocalAddr 3 0 + e.1, BitVec.ofNat 8 e.2)) }

/-- A frame at the head of port 1. -/
def framed (s : State) (vc : Nat) (f : Frame) : State := setPort (s.setFld (fldState 0x310000) 2) 1 { Port.reset with rx := [(vc, f, 1)] }

/-- A frame of a kind for this node. -/
def frameK (kind arg0 arg1 : Nat) (data : List Byte) : Frame := ⟨0xF001, 0x41, kind, 5, arg0, arg1, data⟩

/-- Port 1 active with a link message waiting. -/
def linked (s : State) (m : List Byte) : State := setPort (s.setFld (R.DPORT_STATUS_LSTATE 1) 4) 1 { Port.reset with links := [m] }

/-- Port 1 active. -/
def unlinked (s : State) : State := setPort (s.setFld (R.DPORT_STATUS_LSTATE 1) 4) 1 Port.reset

/-- A start-up in a phase. -/
def booting (s : State) (n : Nat) : State := { s.setFld R.SYS_PHASE_PHASE n with boot := { BootSt.reset with held := .none } }

/-- A code store whose slot 0 has one valid marker record. -/
def markedCode : CodeSt :=
  { CodeSt.reset with arr := ((markBytes 1 (List.replicate 128 0xFF)).zipIdx.filter (fun e => e.1 != 0xFF)).map (fun e => (slotMark 0 * csBlockSize + e.2, e.1)) }

/-- A personality of the given micro-steps. -/
def pers0 (steps : List Nat) : Pers :=
  { cell := 2, nretry := 2, matchId := 0, idMask := 0, planes := 1, planeBit := 8, pgu := 1, adrCyc := 0x32, bpp := 3, ppb := 16, ppbSlc := 8,
    peLimit := 1000, peSlc := 1000, ptMin := 0, ptMax := 100, lunBit := 20, rate := 1, ops := List.replicate 9 0, retry := [1, 2], steps := steps }

/-- NAND channel 0 ON with LUN 0 in use. -/
def nandW (s : State) (steps : List Nat) (op : Option NandOp) (phase : RetryPhase) (again : Option NandOp) : State :=
  { s.setFlds [(fldState 0xA0000, 2), (R.NAND_STATUS_STATE 0, 2), (R.NAND_STATUS_PSLOT 0, 0), (R.FTLA_FLOOR_BLOCKS, 0), (R.FTLA_BTBASE_BASE, 0)] with
    media := { MediaSt.reset with pers := [(0, some (pers0 steps))], luns := [(0, some ⟨0, true, op, 0, phase, again⟩)] } }

/-- An operation at its start. -/
def op0 (k : Nat) : NandOp := newOp k 1 2 0 none

/-- LUN 0. -/
def lun0 (op : Option NandOp) : Lun := ⟨0, true, op, 0, .none, none⟩

/-- Controller 1 ready with an admin queue and an I/O queue, each with an entry to fetch, and namespace 1. -/
def nvmeW (s : State) : State :=
  { s.setFlds [(fldState 0x80000, 2), (fldState 0x20000, 2), (fldState 0xF0000, 2), (R.NVME_STATUS_WHOLD, 0), (R.KEYS_STATUS_RNGOK, 1)] with
    nvme := { NvmeSt.reset with
      ctrls := [(0, { Ctrl.reset with en := true, sqs := [(0, some ⟨4, 0, 1, 0, 0⟩), (1, some ⟨4, 0, 1, 1, 0⟩)],
                                      cqs := [(0, some (newCq 4 0 true)), (1, some (newCq 4 1 true))] })],
      nss := [(1, some ⟨64, 0, true, true⟩)] },
    keys := [(1, some ⟨1, 4, List.replicate 64 0⟩)], ftl := { Ftl.reset with ready := true } }

/-- A command of the admin queue, and of the I/O queue. -/
def admQ : CmdRef := .host 0 0 7

/-- See `admQ`. -/
def ioQ : CmdRef := .host 0 1 7

/-- What `startsAtOnce` gives. -/
def startOf (s : State) (q : CmdRef) (op : NvmeOp) : State × Cmd := (startsAtOnce s q op).getD (tiny, newCmd 0 .mi .asyncEvent)

/-- `n` bytes, some of them set. -/
def bytesAt (n : Nat) (l : List (Nat × Nat)) : List Byte :=
  (List.range n).map (fun i => match l.find? (fun e => e.1 == i) with | some e => BitVec.ofNat 8 e.2 | none => 0)

/-- An image with its digest. -/
def sealed (hdr : List Byte) (at_ : Nat) (body : List Byte) : List Byte :=
  hdr.take at_ ++ sha256 body ++ hdr.drop (at_ + 32) ++ body

/-- A program image of two bytes of code. -/
def progImg (kind : Nat) : List Byte :=
  sealed (bytesAt 96 [(0, 0x53), (1, 0x52), (2, 0x49), (3, 0x5A), (4, 1), (6, 96), (8, 1), (0xA, kind), (0x14, 255), (0x15, 255), (0x16, 255),
    (0x17, 255), (0x18, 2), (0x25, 1), (0x28, 2)]) 0x40 [1, 2]

/-- A set of one table of one step. -/
def setImg : List Byte :=
  sealed (bytesAt 64 [(0, 0x53), (1, 0x54), (2, 0x42), (3, 0x4C), (4, 1), (6, 64), (9, 1), (0xD, 0x10), (0x10, 80)]) 0x20 (bytesAt 80 [(0, 1), (2, 1)])

/-- A codec profile image. -/
def profImg : List Byte :=
  sealed (bytesAt 64 [(0, 0x51), (1, 0x42), (2, 0x43), (3, 0x50), (4, 1), (6, 64), (8, 1), (0xC, 16)]) 0x20 (bytesAt 16 [])

/-- An automaton of two entries. -/
def autoImg : List Byte :=
  sealed (bytesAt 64 [(0, 0x51), (1, 0x41), (2, 0x54), (3, 0x41), (4, 1), (6, 64), (9, 1), (0xA, 2), (0xC, 2), (0x14, 0x10), (0x15, 1)]) 0x20
    (bytesAt 272 [])

/-- A rule image without rules. -/
def ruleImg : List Byte :=
  sealed (bytesAt 64 [(0, 0x51), (1, 0x52), (2, 0x55), (3, 0x4C), (4, 1), (6, 64), (9, 0xFF), (0xA, 1)]) 0x20 []

/-- A personality image. -/
def persImg : List Byte :=
  sealed (bytesAt 64 [(0, 0x51), (1, 0x4E), (2, 0x52), (3, 0x53), (4, 1), (6, 64), (9, 1), (0xC, 3), (0x10, 0x58), (0x11, 1)]) 0x20
    (bytesAt 344 ([(0x10, 1), (0x12, 1), (0x13, 0x21), (0x14, 1), (0x18, 4), (0x1A, 4), (0x1E, 128), (0x1C, 0x40), (0x1D, 2), (0x29, 1),
      (0x50, 50), (0x80 + 12, 1), (0x148, 3)] ++ ((List.range 10).flatMap (fun i => [(0x98 + 4 * i, 255), (0x99 + 4 * i, 255)]))))

/-- A fabric configuration of one node. -/
def fabImg : List Byte :=
  sealed (bytesAt 64 [(0, 0x51), (1, 0x44), (2, 0x46), (3, 0x42), (4, 1), (6, 64), (8, 16), (12, 16), (16, 32)]) 0x20
    (bytesAt 32 [(1, 1), (4, 16)])

/-- A hold-up profile. -/
def holdImg : List Byte :=
  let p := bytesAt 128 [(0, 0x48), (1, 0x55), (2, 1), (3, 2), (4, 0x50), (5, 0xC3), (6, 0x20), (7, 0x4E), (8, 0xE0), (9, 0x2E), (0xA, 0xE8), (0xB, 3),
    (0x10, 1), (0x12, 1), (0x14, 1), (0x16, 1), (0x18, 1), (0x19, 1), (0x1A, 1), (0x20, 1), (0x26, 0xFF), (0x27, 0xFF), (0x28, 1)]
  p.take 0x1C ++ leBytes 4 (crc32c (p.take 0x1C ++ p.drop 0x20)) ++ p.drop 0x20

/-- Flow 0 bound for namespace 1. -/
def flowMem : List (Nat × Byte) :=
  [(flowCtxBase, 1), (flowCtxBase + 1, 1), (flowCtxBase + 8, 255), (flowCtxBase + 0x1A, 1)]

/-- Its image. -/
def flowImg : List Byte := bytesAt 64 [(0, 1), (1, 1), (8, 255), (0x1A, 1)]

/-- A program, a set, a codec profile and an index profile loaded. -/
def loadedW (s : State) : State :=
  { s with loaded := { s.loaded with progs := [(0, some ⟨0, 0, 0, 0, 0xFFFFFFFF, 2, 320, false⟩)], sets := [(0, some ⟨0x1000, 1, 192, 1⟩)] },
           profs := [(0, some ⟨0, 0, 0, 0, 0⟩)], index := { s.index with profs := [(0, some ⟨0xFF, 1, 0, false⟩)] } }

/-- A stored-mode block of two bytes. -/
def rawBlock : List Byte := bytesAt 12 [(0, 1), (1, 0x40), (6, 2), (8, 2)] ++ leBytes 4 (crc32c [1, 2]) ++ [1, 2]

/-- A thermal profile. -/
def thermImg : List Byte :=
  let p := bytesAt 252 [(0xD1, 10), (0xD4, 105)]
  p ++ leBytes 4 (crc32c p)

end Sys2Proof.Machine
end

