-- ==== Sys2Proof/Tests/Slice0.lean ====
section
/-! SUPPORT. Sys2Proof/Tests/Slice0.lean: the model's own tests: the smoke test of WellFormed, which refuses an ill-formed
command for each of its checks, and single steps whose expected results come from the manual's worked examples, its tables
or a published standard that it names. -/

set_option Elab.async false
set_option maxRecDepth 20000

namespace Sys2Proof.Machine

/-! ### WellFormed -/

/-- A command reference, and one to a queue that does not exist. -/
def okQ : CmdRef := .host 0 0 0

/-- See `okQ`. -/
def badQ : CmdRef := .host 0 1025 0

/-- One ill-formed command for each check, part 1. -/
theorem test_ill_formed_1 : ([
    .registerWrite .classD 0x100000000 .w32 0, .bar2Access 0 0x800000 .w32 none, .flowBind badQ 0 [], .flowBind okQ 0 [1],
    .programSlotLoad badQ 0 [], .programSlotLoad okQ 0 [1], .personalityLoad badQ 0 [], .personalityLoad okQ 0 [1],
    .ruleTableLoadReplace badQ 0 [], .ruleTableLoadReplace okQ 0 [1], .ruleTableLoadInsert badQ 0 [],
    .ruleTableLoadInsert okQ 0 [1], .ruleTableLoadDelete badQ 0 [], .ruleTableLoadDelete okQ 0 [1],
    .fabricConfigureLoad badQ 0 [], .fabricConfigureLoad okQ 0 [1], .fabricConfigureTags badQ 0 [],
    .fabricConfigureTags okQ 0 [1], .holdupRequalifyProfile badQ 0 [], .holdupRequalifyProfile okQ 0 [1],
    .holdupThermalProfile badQ 0 [], .holdupThermalProfile okQ 0 [1], .stepTableLoad badQ [], .stepTableLoad okQ [1]] : List Instr).all (fun i => WellFormed i == false) = true := by decide +kernel

/-- One ill-formed command for each check, part 2. -/
theorem test_ill_formed_2 : ([
    .codecProfileLoad badQ [], .codecProfileLoad okQ [1], .automatonLoad badQ [], .automatonLoad okQ [1],
    .loadProgram badQ 0 [], .loadProgram okQ 0x10000 [], .loadProgram okQ 0 [1], .flowUnbind badQ 0, .holdupRequalify badQ 0,
    .asyncEventRequest badQ, .deviceSelfTestAbort badQ, .sanitizeBlockErase badQ, .sanitizeCryptoErase badQ,
    .parcelFetch 0 0x100000000 [0], .parcelFetch 0 0 [], .parcelComplete 0 0x100000000, .rawStore 0 0x100000000 false,
    .gapTimeout 0 0x100000000, .stealProbe [], .stealProbe [3, 3], .hostReadFailure badQ none false,
    .hostReadFailure okQ (some 0x100000000) false, .pcieLinkUp 0 0 16 true, .pcieLinkUp 0 7 16 true] : List Instr).all (fun i => WellFormed i == false) = true := by decide +kernel

/-- One ill-formed command for each check, part 3. -/
theorem test_ill_formed_3 : ([
    .pcieLinkUp 0 6 3 true, .controllerEnable 0 0x1000 0, .controllerEnable 0 0 0x1000, .sqTailDoorbell 0 1025 0,
    .sqTailDoorbell 0 0 0x10000, .cqHeadDoorbell 0 1025 0, .cqHeadDoorbell 0 0 0x10000, .commandComplete (.host 0 1025),
    .createIoSq badQ 0 1 0 0, .createIoSq okQ 0x10000 1 0 0, .createIoSq okQ 0 0 0 0, .createIoSq okQ 0 65537 0 0,
    .createIoSq okQ 0 1 0x10000 0, .createIoCq badQ 0 1 0 true, .createIoCq okQ 0x10000 1 0 true, .createIoCq okQ 0 0 0 true,
    .createIoCq okQ 0 65537 0 true, .createIoCq okQ 0 1 0x10000 true, .deleteIoSq badQ 0, .deleteIoSq okQ 0x10000,
    .deleteIoCq badQ 0, .deleteIoCq okQ 0x10000, .getLogPage badQ 0 0 0 0 false, .getLogPage okQ 0x100 0 0 0 false] : List Instr).all (fun i => WellFormed i == false) = true := by decide +kernel

/-- One ill-formed command for each check, part 4. -/
theorem test_ill_formed_4 : ([
    .getLogPage okQ 0 0x100000000 0 0 false, .getLogPage okQ 0 0 0x10000000000000000 0 false,
    .getLogPage okQ 0 0 0 0x400000000 false, .identify badQ 0 0, .identify okQ 0x100 0, .identify okQ 0 0x100000000,
    .abort badQ 0 0, .abort okQ 0x10000 0, .setFeatures badQ 0 0 0 false, .setFeatures okQ 0x100 0 0 false,
    .setFeatures okQ 0 0x100000000 0 false, .setFeatures okQ 0 0 0x10000000000000000 false, .getFeatures badQ 0 0,
    .getFeatures okQ 0x100 0, .getFeatures okQ 0 0x100000000, .namespaceManagement badQ (.delete 1),
    .namespaceManagement okQ (.create 0x10000000000000000 0), .namespaceManagement okQ (.create 0 256),
    .namespaceManagement okQ (.delete 0x100000000), .namespaceManagement okQ (.createSlm 0x100000000 0),
    .namespaceManagement okQ (.createSlm 0 0x10000000000000000), .namespaceManagement okQ (.deleteSlm 0x100000000),
    .namespaceAttachment badQ 0 true, .namespaceAttachment okQ 0x100000000 true] : List Instr).all (fun i => WellFormed i == false) = true := by decide +kernel

/-- One ill-formed command for each check, part 5. -/
theorem test_ill_formed_5 : ([
    .firmwareImageDownload badQ 0 [], .firmwareImageDownload okQ 0x400000000 [], .firmwareImageDownload okQ 0 [1],
    .firmwareCommitAction0 badQ 0 false true, .firmwareCommitAction0 okQ 0x8 false true,
    .firmwareCommitAction1 badQ 0 false true, .firmwareCommitAction1 okQ 0x8 false true,
    .firmwareCommitAction2 badQ 0 false true, .firmwareCommitAction2 okQ 0x8 false true, .deviceSelfTestShort badQ 0,
    .deviceSelfTestShort okQ 0x100000000, .deviceSelfTestExtended badQ 0, .deviceSelfTestExtended okQ 0x100000000,
    .directiveSend badQ 0 0 0 0, .directiveSend okQ 0x100000000 0 0 0, .directiveSend okQ 0 0x100 0 0,
    .directiveSend okQ 0 0 0x100 0, .directiveSend okQ 0 0 0 0x100000000, .directiveReceive badQ 0 0 0,
    .directiveReceive okQ 0x100000000 0 0, .directiveReceive okQ 0 0x100 0, .directiveReceive okQ 0 0 0x100,
    .formatNvm badQ 0 0 0, .formatNvm okQ 0x100000000 0 0] : List Instr).all (fun i => WellFormed i == false) = true := by decide +kernel

/-- One ill-formed command for each check, part 6. -/
theorem test_ill_formed_6 : ([
    .formatNvm okQ 0 0x40 0, .formatNvm okQ 0 0 0x8, .flush badQ 0, .flush okQ 0x100000000, .write badQ 0 0 1 0 0 false .prp,
    .write okQ 0x100000000 0 1 0 0 false .prp, .write okQ 0 0x10000000000000000 1 0 0 false .prp,
    .write okQ 0 0 0 0 0 false .prp, .write okQ 0 0 65537 0 0 false .prp, .write okQ 0 0 1 0x10 0 false .prp,
    .write okQ 0 0 1 0 0x10000 false .prp, .write okQ 0 0 1 0 0 false (.sgl 2), .write okQ 0 0 1 0 0 false (.bad 0),
    .read badQ 0 0 1 [], .read okQ 0x100000000 0 1 [], .read okQ 0 0x10000000000000000 1 [], .read okQ 0 0 0 [],
    .read okQ 0 0 65537 [], .verify badQ 0 0 1 [], .verify okQ 0x100000000 0 1 [], .verify okQ 0 0x10000000000000000 1 [],
    .verify okQ 0 0 0 [], .verify okQ 0 0 65537 [], .datasetManagement badQ 0 [⟨0, 1⟩]] : List Instr).all (fun i => WellFormed i == false) = true := by decide +kernel

/-- One ill-formed command for each check, part 7. -/
theorem test_ill_formed_7 : ([
    .datasetManagement okQ 0x100000000 [⟨0, 1⟩], .datasetManagement okQ 0 [],
    .datasetManagement okQ 0 [⟨0x10000000000000000, 1⟩], .datasetManagement okQ 0 [⟨0, 0x100000000⟩],
    .datasetManagement okQ 0 (List.replicate 257 ⟨0, 1⟩), .parcelRead badQ 0 0 0 [], .parcelRead okQ 0x100000000 0 0 [],
    .parcelRead okQ 0 0x10000000000000000 0 [], .programActivationManagement badQ 0 true,
    .programActivationManagement okQ 0x10000 true, .memoryRangeSetManagement badQ (.delete 0),
    .memoryRangeSetManagement okQ (.create 65536 []), .memoryRangeSetManagement okQ (.create 0 [⟨0x100000000, 0, 0⟩]),
    .memoryRangeSetManagement okQ (.create 0 [⟨0, 0x10000000000000000, 0⟩]),
    .memoryRangeSetManagement okQ (.create 0 [⟨0, 0, 0x100000000⟩]), .memoryRangeSetManagement okQ (.delete 65536),
    .executeProgram badQ 0 0 0 0 0, .executeProgram okQ 0x10000 0 0 0 0, .executeProgram okQ 0 0x10000 0 0 0,
    .memoryCopy badQ 0 0 1 0 0 [], .memoryCopy okQ 0x100000000 0 1 0 0 [], .memoryCopy okQ 0 0x10000000000000000 1 0 0 [],
    .memoryCopy okQ 0 0 0 0 0 [], .memoryCopy okQ 0 0 65537 0 0 []] : List Instr).all (fun i => WellFormed i == false) = true := by decide +kernel

/-- One ill-formed command for each check, part 8. -/
theorem test_ill_formed_8 : ([
    .memoryCopy okQ 0 0 1 0x100000000 0 [], .memoryCopy okQ 0 0 1 0 0x10000000000000000 [], .slmRead badQ 0 0 0,
    .slmRead okQ 0x100000000 0 0, .slmRead okQ 0 0x10000000000000000 0, .slmRead okQ 0 0 0x100000000, .slmWrite badQ 0 0 [],
    .slmWrite okQ 0x100000000 0 [], .slmWrite okQ 0 0x10000000000000000 [], .slmWrite okQ 0 0 [1],
    .invalidCommandOpcode badQ 0, .invalidCommandOpcode okQ 0x100, .miReadDataStructure 0x100,
    .miControllerHealthPoll 0x10000, .miConfigurationSet 0x100 0, .miConfigurationSet 0 0x100000000,
    .miConfigurationGet 0x100, .miVpdRead 0x10000 0, .miVpdRead 0 0x10000, .miVpdWrite 0x10000 [],
    .miVpdWrite 0 (List.replicate 65536 0), .eccRepairRow .classD 0x1000 0, .eccRepairRow .classD 0 0x10000,
    .eccRepairColumn .classD 0x1000 0] : List Instr).all (fun i => WellFormed i == false) = true := by decide +kernel

/-- One ill-formed command for each check, part 9. -/
theorem test_ill_formed_9 : ([
    .eccRepairColumn .classD 0 0x10000, .eccTestRawRead .classD 0x1000 0, .eccTestRawRead .classD 0 0x10000,
    .eccTestRawWrite .classD 0x1000 0 0 0, .eccTestRawWrite .classD 0 0x10000 0 0, .tileDjob .classD 0 1,
    .tileDjob .classD 0 0x10000000000, .shadowCheck (some (8192, 0)), .nandOpRead 1024 0 0, .nandOpRead 0 0x4000000 0,
    .nandOpRead 0 0 0x4000000, .nandOpReadSlc 1024 0 0, .nandOpReadSlc 0 0x4000000 0, .nandOpReadSlc 0 0 0x4000000,
    .nandOpErase 1024 0, .nandOpErase 0 0x4000000, .gcErase 1024 0 true, .gcErase 0 0x4000000 true, .nandPoll 1024 0,
    .nandDout 1024 [] [], .unitWrite 0 0, .unitWrite 257 0, .unitWrite 1 0x10000000000, .unitTimeout 0 0] : List Instr).all (fun i => WellFormed i == false) = true := by decide +kernel

/-- One ill-formed command for each check, part 10. -/
theorem test_ill_formed_10 : ([
    .unitTimeout 257 0, .unitTimeout 1 0x10000000000, .flitReceive 0 [], .dmaClaim [] 0, .dmaClaim [.tile 3, .tile 3] 0,
    .digestClaim [] 0, .digestClaim [.tile 3, .tile 3] 0, .vaultAcquire [], .vaultAcquire [.classD, .classD],
    .voltageSample [0], .phaseNand [] [1024] [],
    .tapExtest 0x100000000000000000000000000000000000000000000000000000000000000000000000000000000000000000000000000000000000000000000000000000000 0,
    .tapExtest 0 0x100000000000000000000000000000000000000000000000000000000000000000000000000000000000000000000000000000000000000000000000000000000,
    .tapSamplePreload 0x100000000000000000000000000000000000000000000000000000000000000000000000000000000000000000000000000000000000000000000000000000000 0,
    .tapSamplePreload 0 0x100000000000000000000000000000000000000000000000000000000000000000000000000000000000000000000000000000000000000000000000000000000,
    .nandOpReset 1024, .nandOpProgram 1024, .nandOpProgramSlc 1024, .nandOpRetrySet 1024, .nandOpRetryClear 1024,
    .nandOpParamRead 1024, .nandCmd 1024, .nandAddr 1024, .nandDin 1024] : List Instr).all (fun i => WellFormed i == false) = true := by decide +kernel

/-- One ill-formed command for each check, part 11. -/
theorem test_ill_formed_11 : ([
    .nandWait 1024, .nandPollTimeout 1024, .nandFeat 1024, .nandEnd 1024,
    .dramRequestServe 0 0 0 0 [⟨0, false, 0x10000000000000000, 64, none, 0, false⟩],
    .dramRequestServe 0 0 0 0 [⟨0, false, 0, 65, none, 0, false⟩],
    .dramRequestServe 0 0 0 0 [⟨0, false, 0, 2, some [0], 0, false⟩], .thermalSensorRead [] [0, 0, 0, 0] 0,
    .thermalSensorRead (List.replicate 8 .broken) [] 0] : List Instr).all (fun i => WellFormed i == false) = true := by decide +kernel

/-- The same commands well formed, part 1. -/
theorem test_well_formed_1 : ([
    .registerWrite .classD 0 .w32 0, .bar2Access 0 0 .w32 none, .flowBind okQ 0 [], .programSlotLoad okQ 0 [],
    .personalityLoad okQ 0 [], .ruleTableLoadReplace okQ 0 [], .ruleTableLoadInsert okQ 0 [], .ruleTableLoadDelete okQ 0 [],
    .fabricConfigureLoad okQ 0 [], .fabricConfigureTags okQ 0 [], .holdupRequalifyProfile okQ 0 [],
    .holdupThermalProfile okQ 0 [], .stepTableLoad okQ [], .codecProfileLoad okQ [], .automatonLoad okQ [],
    .loadProgram okQ 0 [], .flowUnbind okQ 0, .holdupRequalify okQ 0, .asyncEventRequest okQ, .deviceSelfTestAbort okQ,
    .sanitizeBlockErase okQ, .sanitizeCryptoErase okQ, .parcelFetch 0 0 [0], .parcelComplete 0 0] : List Instr).all (fun i => WellFormed i == true) = true := by decide +kernel

/-- The same commands well formed, part 2. -/
theorem test_well_formed_2 : ([
    .rawStore 0 0 false, .gapTimeout 0 0, .stealProbe [0], .hostReadFailure okQ none false, .pcieLinkUp 0 6 16 true,
    .controllerEnable 0 0 0, .sqTailDoorbell 0 0 0, .cqHeadDoorbell 0 0 0, .commandComplete (.host 0 0),
    .createIoSq okQ 0 1 0 0, .createIoCq okQ 0 1 0 true, .deleteIoSq okQ 0, .deleteIoCq okQ 0, .getLogPage okQ 0 0 0 0 false,
    .identify okQ 0 0, .abort okQ 0 0, .setFeatures okQ 0 0 0 false, .getFeatures okQ 0 0,
    .namespaceManagement okQ (.delete 1), .namespaceAttachment okQ 0 true, .firmwareImageDownload okQ 0 [],
    .firmwareCommitAction0 okQ 0 false true, .firmwareCommitAction1 okQ 0 false true, .firmwareCommitAction2 okQ 0 false true] : List Instr).all (fun i => WellFormed i == true) = true := by decide +kernel

/-- The same commands well formed, part 3. -/
theorem test_well_formed_3 : ([
    .deviceSelfTestShort okQ 0, .deviceSelfTestExtended okQ 0, .directiveSend okQ 0 0 0 0, .directiveReceive okQ 0 0 0,
    .formatNvm okQ 0 0 0, .flush okQ 0, .write okQ 0 0 1 0 0 false .prp, .read okQ 0 0 1 [], .verify okQ 0 0 1 [],
    .datasetManagement okQ 0 [⟨0, 1⟩], .parcelRead okQ 0 0 0 [], .programActivationManagement okQ 0 true,
    .memoryRangeSetManagement okQ (.delete 0), .executeProgram okQ 0 0 0 0 0, .memoryCopy okQ 0 0 1 0 0 [],
    .slmRead okQ 0 0 0, .slmWrite okQ 0 0 [], .invalidCommandOpcode okQ 0, .miReadDataStructure 0, .miControllerHealthPoll 0,
    .miConfigurationSet 0 0, .miConfigurationGet 0, .miVpdRead 0 0, .miVpdWrite 0 []] : List Instr).all (fun i => WellFormed i == true) = true := by decide +kernel

/-- The same commands well formed, part 4. -/
theorem test_well_formed_4 : ([
    .eccRepairRow .classD 0 0, .eccRepairColumn .classD 0 0, .eccTestRawRead .classD 0 0, .eccTestRawWrite .classD 0 0 0 0,
    .tileDjob .classD 0 0, .shadowCheck none, .nandOpRead 0 0 0, .nandOpReadSlc 0 0 0, .nandOpErase 0 0, .gcErase 0 0 true,
    .nandPoll 0 0, .nandDout 0 [] [], .unitWrite 1 0, .unitTimeout 1 0, .flitReceive 0 (List.replicate 256 0),
    .dmaClaim [.tile 0] 0, .digestClaim [.tile 0] 0, .vaultAcquire [.classD], .voltageSample [0, 0, 0, 0],
    .phaseNand [] [] [], .tapExtest 0 0, .tapSamplePreload 0 0, .nandOpReset 0, .nandOpProgram 0] : List Instr).all (fun i => WellFormed i == true) = true := by decide +kernel

/-- The same commands well formed, part 5. -/
theorem test_well_formed_5 : ([
    .nandOpProgramSlc 0, .nandOpRetrySet 0, .nandOpRetryClear 0, .nandOpParamRead 0, .nandCmd 0, .nandAddr 0, .nandDin 0,
    .nandWait 0, .nandPollTimeout 0, .nandFeat 0, .nandEnd 0,
    .dramRequestServe 0 0 0 0 [⟨0, false, 0, 2, some [0, 0], 0, false⟩],
    .thermalSensorRead (List.replicate 8 .broken) [0, 0, 0, 0] 0, .nop 3, .phaseReady] : List Instr).all (fun i => WellFormed i == true) = true := by decide +kernel

/-! ### Worked examples of the manual -/

/-- Bytes given as numbers. -/
def hexes (l : List Nat) : List Byte := l.map (BitVec.ofNat 8)

/-- R219, Table 7.4: the check value of "123456789". -/
theorem test_crc32c_check_value : crc32c (hexes [49, 50, 51, 52, 53, 54, 55, 56, 57]) = 0xE3069283 := by decide +kernel

/-- The example under R218: 0x1234 at shift 3 decodes to 0x1230. -/
theorem test_fixed_ratio_example : reconstruct 16 3 [0x1234] = hexes [0x30, 0x12] := by decide +kernel

/-- The worked example of 07: residuals 40 and -40 map to 80 and 79. -/
theorem test_residual_example : mapResidual 16 140 100 = 80 ∧ mapResidual 16 100 140 = 79 := by decide +kernel

/-- The example under R248: classes 2, 1, 1, 0 give the row entry 22. -/
theorem test_class_example :
    strideClass (0 :: List.replicate 127 1 ++ List.replicate 128 2) 4 4 (hexes [0xD0, 0x37, 0x0A, 0]) 0 = 22 := by decide +kernel

/-- The example of 12: global address 0x30A40 lies in channel 1 at offset 0x2240, bank group 0, bank 1, row 0. -/
theorem test_dram_map_example :
    dramChannel tiny 0x30A40 = 1 ∧ dramOff tiny 0x30A40 = 0x2240 ∧ dramBank 0x2240 = 4 ∧ dramRow 0x2240 = 0 := by decide +kernel

/-- The example of 02: the buffers at full population, in MiB. -/
theorem test_buffers_example :
    let s := placeBuffers (tinyW [(R.DRAM_USABLE_MIB, 184320)])
    (s.fld R.RET_OSTG_SIZE_SIZE, s.fld R.RET_OSTG_BASE_BASE, s.fld (R.DISP_LAND_BASE_BASE 0), s.fld (R.DISP_LAND_BASE_BASE 1)) =
      (11520, 0x2A300, 0x28C80, 0x27600) := by decide +kernel

/-- The OPEN of the example under R357, of flow 5 with PH 7, at SEQ 5 and without ACK. -/
theorem test_open_example :
    (mkFlit ftSingle 1 5 none ((framePays ⟨0x42, 0x49, 0x10, 0x20, 0x0000000700000005, 0x1000, []⟩).headD [])).take 28 =
      hexes [0x14, 5, 0, 0, 0x42, 0, 0x49, 0, 0x10, 0x20, 0, 0, 5, 0, 0, 0, 7, 0, 0, 0, 0, 0x10, 0, 0, 0, 0, 0, 0] := by
  decide +kernel

/-- The same example: a DATA frame of 4,096 bytes takes 74 flits. -/
theorem test_flits_example : flitsFor 4096 = 74 := by decide +kernel

/-- The hold-up profile of the example of 16, its curve with a point every 1.6 V. -/
def exampleProf : List Byte :=
  bytesAt 128 [(3, 16)] |>.take 4 |>.append (leBytes 2 36000 ++ leBytes 2 35000 ++ leBytes 2 12000 ++ leBytes 2 10000 ++
    leBytes 2 900 ++ leBytes 2 60 ++ leBytes 2 2000 ++ leBytes 2 900 ++ leBytes 2 3000 ++ leBytes 2 7000 ++
    List.replicate 8 0 ++ ((List.range 16).map (fun i =>
      let v := 12000 + 1600 * i
      leBytes 2 v ++ leBytes 4 ((v * v - 144000000) / 2000))).flatten)

/-- The string test of the example: ESR 39.9 mΩ (in µΩ) and 10.0 mF (in µF). -/
theorem test_string_example :
    stringEsr exampleProf 36000 35857 / 100 = 398 ∧
      (stringCap exampleProf (stringEsr exampleProf 36000 35857) 35857 21790 + 50) / 100 = 100 := by decide +kernel

/-- The curve of the example: e(35.0) = 540,800 and e(12.2) = 2,560 mJ/F, in µJ/F. -/
theorem test_curve_example :
    curveAt exampleProf 35000000 = 540800000 ∧ curveAt exampleProf 12200000 = 2560000 := by decide +kernel

/-- Block A of the garbage-collection example under R330: 25 % valid, closed 300 s ago, 1,500 erases of 3,000. -/
theorem test_gc_score_example :
    let p := { pers0 [] with peLimit := 3000 }
    let s := nandW (tinyW [(R.DRAM_USABLE_MIB, 1), (R.DRAM_STATUS_STATE, 2), (R.FTLA_GCW_WI, 4), (R.FTLA_GCW_WA, 1), (R.FTLA_GCW_WW, 2), (R.FTLA_AGEU_AGE_UNIT, 1)]) [] none .none none
    let t := btSet { s with ftl := { s.ftl with seconds := 300 } } 0 1 1500 65536 0 2
    (gcScore t p 0 1).1 = 2348 := by decide +kernel

/-- The example under R320: sector 77 of a fixed-slot unit of budget 1,024 is the block at byte 1,024 of extent sector 19. -/
theorem test_fixed_slot_example :
    locate tiny { MapUnit.none with kind := 1, psa := 4096, len := 64, budget := 1 } 77 = some (blockAt tiny (4096 + 19) 1024 1024) := by
  decide +kernel

/-! ### Published standards that the manual names -/

/-- FIPS 180-4: SHA-256 of "abc". -/
theorem test_sha256_abc : beNat (sha256 (hexes [97, 98, 99])) = 0xba7816bf8f01cfea414140de5dae2223b00361a396177a9cb410ff61f20015ad := by
  decide +kernel

/-- FIPS 180-4: SHA-384 of "abc". -/
theorem test_sha384_abc : beNat (sha384 (hexes [97, 98, 99])) =
    0xcb00753f45a35e8bb5a03d699ac65007272c32ab0eded1631a8b605a43ff5bed8086072ba1e7cc2358baeca134c825a7 := by decide +kernel

/-- FIPS 202: SHA3-256 of "abc". -/
theorem test_sha3_abc : beNat (sha3_256 (hexes [97, 98, 99])) = 0x3a985da74fe225b2045c172d6bd390bd855f086e3e9d525b46bfe24511431532 := by
  decide +kernel

/-- FIPS 197, appendix C.3: AES-256 of 00112233…FF under 00010203…1F. -/
theorem test_aes256 :
    aesEncrypt (List.range 32) ((List.range 16).map (· * 17)) =
      [0x8e, 0xa2, 0xb7, 0xca, 0x51, 0x67, 0x45, 0xbf, 0xea, 0xfc, 0x49, 0x90, 0x4b, 0x49, 0x60, 0x89] := by decide +kernel

/-! ### Siriz instructions on tile core 3 -/

/-- Tile core 3 at a PC with some registers. -/
def core3 (pc : Word) (w : List (Nat × Word)) : State :=
  tiny.setCore 3 { Core.tileReset with pc := pc, run := .run, w := w }

/-- Core 3 after a command: PC and a register. -/
def pcReg (r : Result) (n : Reg) : Word × Word :=
  match r with
  | .next t => ((t.core 3).pc, gpr (t.core 3) n)
  | _ => (0, 0)

/-- The flags Z, N, C, V, DZ of core 3 after a command, from bit 0 on. -/
def flagsAfter (r : Result) : List Bool :=
  match r with
  | .next t => [stZ, stN, stC, stV, stDZ].map (fun b => (t.core 3).st.getLsbD b)
  | _ => []

/-- The example under R105: CALL w6 with mask 0x8030 at 0x1200. -/
def afterCall : Result := exec (.call 3 6 0x8030) (core3 0x1200 [(4, 4), (5, 5), (6, 0x3400), (14, 0xFF000), (15, 15)])

/-- CALL leaves SP at 0xFEFF0 and goes on at its target. -/
theorem test_call_example : pcReg afterCall 14 = (0x3400, 0xFEFF0) := by decide +kernel

/-- The words of its frame: the return address, w4, w5, w15. -/
theorem test_call_frame : (match afterCall with | .next t => t.memBytes (tileLocalAddr 3 0xFEFF0) 16 | _ => []) =
    hexes [4, 0x12, 0, 0, 4, 0, 0, 0, 5, 0, 0, 0, 15, 0, 0, 0] := by decide +kernel

/-- RET with the same mask returns to 0x1204 with SP as before. -/
theorem test_ret_example :
    (match afterCall with | .next t => pcReg (exec (.ret 3 0x8030) t) 14 | _ => (0, 0)) = (0x1204, 0xFF000) := by decide +kernel

/-- RET with mask 0x0030 leaves SP at 0xFEFFC. -/
theorem test_ret_short_mask :
    (match afterCall with | .next t => pcReg (exec (.ret 3 0x0030) t) 14 | _ => (0, 0)) = (0x1204, 0xFEFFC) := by decide +kernel

/-- Table 4.12: SEQI w1, 0 at 0x102 skips the halfword at 0x104 when w1 is 0. -/
theorem test_seqi_skips : (pcReg (exec (.seqi 3 1 0) (core3 0x102 [])) 0).1 = 0x106 := by decide +kernel

/-- And goes on at 0x104 while w1 is not. -/
theorem test_seqi_goes_on : (pcReg (exec (.seqi 3 1 0) (core3 0x102 [(1, 5)])) 0).1 = 0x104 := by decide +kernel

/-- Table 4.12: B with simm11 0x7F9 at 0x110 branches to 0x102. -/
theorem test_branch_back : (pcReg (exec (.b 3 (.short 0x7F9)) (core3 0x110 [])) 0).1 = 0x102 := by decide +kernel

/-- ADD wraps: Z and C. -/
theorem test_add_wraps : flagsAfter (exec (.add 3 (.short 1 2)) (core3 0x100 [(1, 0xFFFFFFFF), (2, 1)])) =
    [true, false, true, false, false] := by decide +kernel

/-- ADD of two large positive numbers: N and V. -/
theorem test_add_overflows : flagsAfter (exec (.add 3 (.wide 0 1 2)) (core3 0x100 [(1, 0x7FFFFFFF), (2, 1)])) =
    [false, true, false, true, false] := by decide +kernel

/-- MOVI sign-extends simm7. -/
theorem test_movi_sign : pcReg (exec (.movi 3 (.short 1 0x7F)) (core3 0x100 [])) 1 = (0x102, 0xFFFFFFFF) := by decide +kernel

/-- Table 3.9: a division by 0 gives all ones and sets DZ. -/
theorem test_div_by_zero : pcReg (exec (.div 3 1 2 3 4) (core3 0x100 [(2, 7)])) 1 = (0x104, 0xFFFFFFFF) := by decide +kernel

/-- The remainder of a division has the sign of the dividend: -7 by 2. -/
theorem test_div_remainder : pcReg (exec (.div 3 1 2 3 4) (core3 0x100 [(2, 0xFFFFFFF9), (3, 2)])) 4 = (0x104, 0xFFFFFFFF) := by
  decide +kernel

/-- A store of a byte reaches that byte alone. -/
theorem test_stb : (match exec (.stb 3 1 2 0) (core3 0x100 [(1, 0x1234), (2, 0x2001)]) with
    | .next t => t.memBytes (tileLocalAddr 3 0x2000) 4 | _ => []) = hexes [0, 0x34, 0, 0] := by decide +kernel

/-- LDB sign-extends. -/
theorem test_ldb_sign : pcReg (exec (.ldb 3 1 2 0)
    { core3 0x100 [(2, 0x2000)] with mem := [(tileLocalAddr 3 0x2000, 0x80)] }) 1 = (0x104, 0xFFFFFF80) := by decide +kernel

/-- R147: BSWAP reverses the bytes. -/
theorem test_bswap : pcReg (exec (.bswap 3 1 2) (core3 0x100 [(2, 0x01020304)])) 1 = (0x102, 0x04030201) := by decide +kernel

/-- Table 3.9: a shift by 32 and more clears. -/
theorem test_lsl_33 : pcReg (exec (.lsl 3 (.wide 1 2 3)) (core3 0x100 [(2, 1), (3, 33)])) 1 = (0x104, 0) := by decide +kernel

/-! ### Registers -/

/-- R9: an 8-bit write has no effect on a register. -/
theorem test_narrow_write : (match exec (.registerWrite (.core 32) 0x20000 .w8 1) tiny with | .next t => t.regs | _ => []) = [] := by
  decide +kernel

/-- R12: writing 1 to LOCK sets it, and writing 0 does not clear it. -/
theorem test_lock_stays : (match exec (.registerWrite (.core 32) 0x20000 .w32 0x80000000) tiny with
    | .next t => (match exec (.registerWrite (.core 32) 0x20000 .w32 0) t with | .next u => u.fld (fldLock 0x20000) | _ => 0)
    | _ => 0) = 1 := by decide +kernel

/-- R20: EN set again while QUIESCING passes directly to ENABLING when the drain ends. -/
theorem test_quiesce_to_enabling :
    (match exec (.blockQuiesceDone .digest) (tinyW [(fldEn 0xE0000, 1), (fldState 0xE0000, stQuiescing)]) with
     | .next t => t.fld (fldState 0xE0000) | _ => 9) = stEnabling := by decide +kernel

/-! ### Host commands -/

/-- An admin command with an unsupported opcode ends with Invalid Command Opcode. -/
theorem test_invalid_opcode : (match exec (.invalidCommandOpcode admQ 0x7F) (nvmeW tiny) with
    | .next t => t.nvme.cmds.map (fun c => c.status) | _ => []) = [scInvalidOpcode] := by decide +kernel

/-- R60: a Flow Bind of PSIZE 7 is an invalid field. -/
theorem test_bind_bad_psize : (match exec (.flowBind admQ 0 (bytesAt 64 [(0, 1), (1, 1), (8, 255), (0xC, 7), (0x1A, 1)])) (nvmeW tiny) with
    | .next t => t.nvme.cmds.map (fun c => c.status) | _ => []) = [scInvalidField] := by decide +kernel

end Sys2Proof.Machine
end

