-- ==== Sys2Proof/Tests/Witness1.lean ====
section
/-! SUPPORT. Sys2Proof/Tests/Witness1.lean: for every clause of a statement that has hypotheses, a state and operands that meet
all of them together. -/

set_option Elab.async false
set_option linter.unusedVariables false
set_option maxRecDepth 20000

namespace Sys2Proof.Machine

theorem wit_StepRunsTheFrontCommand : ∃ (s : State) (c : Instr) (rest : List Instr), s.pending = c :: rest :=
  ⟨{ tiny with pending := [.nop 3] }, .nop 3, [], rfl⟩

theorem wit_EmptyQueueIdles : ∃ s : State, s.pending = [] :=
  ⟨tiny, rfl⟩

theorem wit_MachineShapeIsKept : ∃ s t : State, (Memory.wf s.mem = true ∧ Registers.wf s.regs = true ∧ s.cores.length = 36) ∧
  step s = .next t :=
  ⟨tiny, tiny, by decide +kernel, rfl⟩

theorem wit_LifecycleNeverGoesBack : ∃ s t : State, LifecycleInv s ∧ step s = .next t :=
  ⟨tiny, tiny, ⟨by decide, fun n h => by cases h⟩, rfl⟩

theorem wit_ResetGivesTheSegmentsOfTable36 :
    (∃ c, c < 32) ∧
    (∃ c, 32 ≤ c ∧ c < 36) :=
  ⟨⟨31, by decide⟩,
   ⟨35, by decide⟩⟩

theorem wit_RegisterWriteCommandsComplete :
    (∃ (s : State) (rq : Requester) (v : BitVec 64), (reaches s rq .ret = true)) ∧
    (∃ (s : State) (rq : Requester) (flow : Fin 262144), (reaches s rq .flow = true) ∧
      (s.flag R.FLOW_STATUS_CMD_BUSY = false)) ∧
    (∃ (s : State) (rq : Requester) (flow : Fin 262144), (reaches s rq .flow = true) ∧
      (s.flag R.FLOW_STATUS_CMD_BUSY = false)) ∧
    (∃ (s : State) (rq : Requester) (c : CoreId) (ic dc : Bool), (mayControlCache s rq c = true) ∧ (s.fld (ccIcEn c.val) = 0) ∧
      (s.fld (ccDcEn c.val) = 0) ∧ (s.flag (ccIcOk c.val) = true) ∧ (s.flag (ccDcOk c.val) = true) ∧
      ((s.core c.val).inv = none)) ∧
    (∃ (s : State) (rq : Requester) (c : CoreId) (ic dc : Bool), (mayControlCache s rq c = true) ∧ (s.fld (ccIcEn c.val) = 1) ∧
      (s.fld (ccDcEn c.val) = 1) ∧ ((s.core c.val).inv = none)) ∧
    (∃ (s : State) (rq : Requester) (c : CoreId), (mayControlCache s rq c = true) ∧ (s.fld (ccIcEn c.val) ≤ 1) ∧
      (s.fld (ccDcEn c.val) ≤ 1) ∧ (s.cores.length = 36) ∧ ((s.core c.val).inv = none)) ∧
    (∃ (s : State) (rq : Requester) (c : CoreId), (mayControlCache s rq c = true) ∧ (s.fld (ccIcEn c.val) ≤ 1) ∧
      (s.fld (ccDcEn c.val) ≤ 1) ∧ (s.cores.length = 36) ∧ ((s.core c.val).inv = none)) ∧
    (∃ (s : State) (rq : Requester) (c : CoreId), (mayControlCache s rq c = true) ∧ (s.fld (ccIcEn c.val) ≤ 1) ∧
      (s.fld (ccDcEn c.val) ≤ 1) ∧ (s.cores.length = 36) ∧ ((s.core c.val).inv = none)) ∧
    (∃ (s : State) (c : CoreId), (s.cores.length = 36) ∧ ((s.core c.val).inv = some ⟨true, true, true, false⟩) ∧
      (Registers.wf s.regs = true)) ∧
    (∃ (s : State) (c : CoreId) (e : EvEnt) (r : List EvEnt), ((s.core c.val).ev = e :: r)) ∧
    (∃ (s : State) (word : Nat) (e : MergeEnt), (s.merge.find? (fun x => x.word == word) = some e)) :=
  ⟨⟨tinyW [], .core 32, 0xFFFFFFFFFFFFFFF5#64, by decide +kernel⟩,
   ⟨tinyW [(R.FLOW_STATUS_CMD_BUSY, 0)], .core 32, 5, by decide +kernel, by decide +kernel⟩,
   ⟨tinyW [(R.FLOW_STATUS_CMD_BUSY, 0)], .core 35, 262143, by decide +kernel, by decide +kernel⟩,
   ⟨tinyW [(ccIcOk 3, 1), (ccDcOk 3, 1), (ccIcEn 3, 0), (ccDcEn 3, 0)], .core 3, 3, true, false, by decide +kernel,
     by decide +kernel, by decide +kernel, by decide +kernel, by decide +kernel, by decide +kernel⟩,
   ⟨tinyW [(ccIcEn 3, 1), (ccDcEn 3, 1)], .core 3, 3, true, false, by decide +kernel, by decide +kernel, by decide +kernel,
     by decide +kernel⟩,
   ⟨tinyW [], .core 3, 3, by decide +kernel, by decide +kernel, by decide +kernel, by decide +kernel, by decide +kernel⟩,
   ⟨tinyW [], .core 3, 3, by decide +kernel, by decide +kernel, by decide +kernel, by decide +kernel, by decide +kernel⟩,
   ⟨tinyW [], .core 3, 3, by decide +kernel, by decide +kernel, by decide +kernel, by decide +kernel, by decide +kernel⟩,
   ⟨(tinyW []).setCore 3 { Core.tileReset with inv := some ⟨true, true, true, false⟩ }, 3, by decide +kernel,
     by decide +kernel, by decide +kernel⟩,
   ⟨(tinyW []).setCore 3 { Core.tileReset with ev := [⟨0x40001000, List.replicate 64 7, []⟩] }, 3, ⟨0x40001000, List.replicate
     64 7, []⟩, [], by decide +kernel⟩,
   ⟨{ tinyW [] with merge := [⟨64, 3, 0x1234, none⟩] }, 64, ⟨64, 3, 0x1234, none⟩, by decide +kernel⟩⟩

theorem wit_TileAndEccCommandsComplete :
    (∃ (s : State) (rq : Requester) (ti : TileId), (reaches s rq (.tile ti) = true) ∧
      (s.fld (fldEn (0x400000 + 0x10000 * ti.val)) = 0) ∧ (blockState s (.tile ti) = stOff) ∧
      (s.fld (fldLock (0x400000 + 0x10000 * ti.val)) ≤ 1)) ∧
    (∃ (s : State) (ti : TileId), ((s.tile ti.val).rstBusy = true)) ∧
    (∃ (s : State) (rq : Requester) (ti : TileId) (v : BitVec 32), (reaches s rq (.tile ti) = true)) ∧
    (∃ (s : State) (slow : Bool), (blockOn s .ecc = true) ∧ (s.ecc.scrubAt = 0) ∧ (s.flag R.ECC_TEST_CTRL_EN = false) ∧
      (s.ecc.syn = [])) ∧
    (∃ (s : State) (rq : Requester) (mid index : Nat), (reaches s rq .ecc = true) ∧ (mid < 2048) ∧ (index < 512) ∧
      (s.ecc.repair = none) ∧ (repairFault s mid 1 index = none) ∧ (Registers.wf s.regs = true)) ∧
    (∃ (s : State) (rq : Requester) (mid index : Nat), (reaches s rq .ecc = true) ∧ (mid < 2048) ∧ (index < 72) ∧
      (s.ecc.repair = none) ∧ (repairFault s mid 2 index = none) ∧ (Registers.wf s.regs = true)) ∧
    (∃ (s : State) (mid index : Nat), (s.ecc.repair = some (mid, 1, index)) ∧
      (repairWords s mid (64 * index) (64 * index + 64) = [])) ∧
    (∃ (s : State) (rq : Requester) (mid word : Nat), (isHouse rq = true) ∧ (macClass mid < 8) ∧ (macClass mid ≠ 5) ∧
      (word < 4096) ∧ (Registers.wf s.regs = true)) ∧
    (∃ (s : State) (rq : Requester) (mid word : Nat) (data : BitVec 64) (chk : BitVec 8), (isHouse rq = true) ∧
      (macClass mid < 8) ∧ (macClass mid ≠ 5) ∧ (word < 4096) ∧ (Registers.wf s.regs = true)) :=
  ⟨⟨tinyW [(fldEn 0x410000, 0), (fldState 0x410000, 0), (fldLock 0x410000, 1)], .core 33, 1, by decide +kernel,
    by decide +kernel, by decide +kernel, by decide +kernel⟩,
   ⟨(tinyW []).setTile 4 { Tile.reset with rstBusy := true }, 4, by decide +kernel⟩,
   ⟨tinyW [], .dma 63, 31, 0xFFFFFFFF#32, by decide +kernel⟩,
   ⟨tinyW [(fldState 0x10000, 2), (R.ECC_TEST_CTRL_EN, 0)], false, by decide +kernel, by decide +kernel, by decide +kernel,
     by decide +kernel⟩,
   ⟨tinyW [], .core 32, 256, 511, by decide +kernel, by decide +kernel, by decide +kernel, by decide +kernel,
     by decide +kernel, by decide +kernel⟩,
   ⟨tinyW [], .core 32, 256, 71, by decide +kernel, by decide +kernel, by decide +kernel, by decide +kernel, by decide +kernel,
     by decide +kernel⟩,
   ⟨{ tinyW [] with ecc := { EccSt.reset with repair := some (256, 1, 5) } }, 256, 5, by decide +kernel, by decide +kernel⟩,
   ⟨tinyW [], .core 32, 2, 4095, by decide +kernel, by decide +kernel, by decide +kernel, by decide +kernel, by decide +kernel⟩,
   ⟨tinyW [], .core 32, 2, 4095, 0x123456789ABCDEF0#64, 0x5A#8, by decide +kernel, by decide +kernel, by decide +kernel,
     by decide +kernel, by decide +kernel⟩⟩

theorem wit_UnitCommandsComplete :
    (∃ (s : State) (rq : Requester) (ti : TileId) (tab : Fin 8), (reaches s rq (.tile ti) = true) ∧
      (s.fld (R.TILE_MSTAT_MSTATE ti.val) = 0) ∧ (tab.val < s.fld (R.TILE_MSET_NTAB ti.val)) ∧
      ((List.range 4).any (isBroken s ti.val) = false) ∧ (Registers.wf s.regs = true)) ∧
    (∃ (s : State) (rq : Requester) (ti : TileId) (step : Fin 1024), (reaches s rq (.tile ti) = true) ∧
      (s.fld (R.TILE_MSTAT_MSTATE ti.val) = 3) ∧ (step.val < (s.tile ti.val).mari.nstep) ∧
      ((List.range 4).any (isBroken s ti.val) = false) ∧ (Registers.wf s.regs = true)) ∧
    (∃ (s : State) (rq : Requester) (ti : TileId), (reaches s rq (.tile ti) = true) ∧
      (s.fld (R.TILE_MSTAT_MSTATE ti.val) = 3) ∧ ((s.tile ti.val).mari.ending = none) ∧ (Registers.wf s.regs = true)) ∧
    (∃ (s : State) (rq : Requester) (ti : TileId), (reaches s rq (.tile ti) = true)) ∧
    (∃ (s : State) (rq : Requester) (ti : TileId) (prof : Fin 256), (reaches s rq (.tile ti) = true) ∧
      (codecPend (s.tile ti.val) = 0) ∧ ((profOf s prof.val).isSome = true)) ∧
    (∃ (s : State) (rq : Requester) (idx : BitVec 16), (reaches s rq .codec = true) ∧
      ((2 ^ 16 + idx.toNat - s.fld R.CODEC_DQ_HEAD_IDX) % 2 ^ 16 ≤ dqSize s)) ∧
    (∃ (s : State) (rq : Requester) (ti : TileId) (desc : Nat), (reaches s rq (.tile ti) = true) ∧ (desc % 32 = 0) ∧
      (desc < 2 ^ 20) ∧ ((s.tile ti.val).tileDec = none)) ∧
    (∃ (s : State) (rq : Requester) (x : TSlot), (reaches s rq .rule = true) ∧ (s.flag R.RULE_STATUS_BUSY = false) ∧
      (x = slotOfRecord (stagedRecord s) true) ∧ (badRecord (stagedRecord s) = false) ∧ ((idxProfOf s x.set).isSome = true) ∧
      (ruleSlot s x.set x.rid = none) ∧ (nValid s < tcamSlots) ∧ (Registers.wf s.regs = true)) ∧
    (∃ (s : State) (rq : Requester) (set : Fin 256) (rid : BitVec 16), (reaches s rq .rule = true) ∧
      (s.flag R.RULE_STATUS_BUSY = false) ∧ ((idxProfOf s set.val).isSome = true) ∧
      ((ruleSlot s set.val rid.toNat).isSome = true) ∧ (Registers.wf s.regs = true)) ∧
    (∃ (s : State) (rq : Requester) (lun : Fin 1024) (all : Bool), (reaches s rq .ftla = true) ∧ (blockOn s .ftla = true) ∧
      (s.flag R.FTLA_STATUS_SCANBUSY = false) ∧ (Registers.wf s.regs = true)) ∧
    (∃ (s : State) (rq : Requester) (lun : Fin 1024) (all : Bool), (reaches s rq .ftla = true) ∧ (blockOn s .ftla = true) ∧
      (s.flag R.FTLA_STATUS_SCANBUSY = false) ∧ (Registers.wf s.regs = true)) :=
  ⟨⟨tinyW [(R.TILE_MSET_NTAB 3, 8), (R.TILE_MSTAT_MSTATE 3, 0)], .core 3, 3, 7, by decide +kernel, by decide +kernel,
    by decide +kernel, by decide +kernel, by decide +kernel⟩,
   ⟨(tinyW [(R.TILE_MSTAT_MSTATE 3, 3)]).setTile 3 { Tile.reset with mari := { Mari.reset with nstep := 1024 } }, .core 3, 3,
     1023, by decide +kernel, by decide +kernel, by decide +kernel, by decide +kernel, by decide +kernel⟩,
   ⟨tinyW [(R.TILE_MSTAT_MSTATE 3, 3)], .core 3, 3, by decide +kernel, by decide +kernel, by decide +kernel, by decide +kernel⟩,
   ⟨tinyW [], .core 3, 3, by decide +kernel⟩,
   ⟨{ tinyW [] with profs := [(5, some ⟨1, 0, 2, 0, 64⟩)] }, .core 3, 3, 5, by decide +kernel, by decide +kernel,
     by decide +kernel⟩,
   ⟨tinyW [(R.CODEC_DQ_SIZE_LOG2, 4), (R.CODEC_DQ_HEAD_IDX, 65530)], .core 32, 10#16, by decide +kernel, by decide +kernel⟩,
   ⟨tinyW [], .core 3, 3, 1048544, by decide +kernel, by decide +kernel, by decide +kernel, by decide +kernel⟩,
   ⟨{ tinyW [(R.RULE_STATUS_BUSY, 0), (R.RULE_REC_DATA 10, 0x00FF0000)] with index := { IndexSt.reset with profs := [(0, some ⟨0, 16, 0, false⟩)] } },
     .core 32, slotOfRecord (stagedRecord (tinyW [(R.RULE_REC_DATA 10, 0x00FF0000)])) true, by decide +kernel,
     by decide +kernel, by decide +kernel, by decide +kernel, by decide +kernel, by decide +kernel, by decide +kernel,
     by decide +kernel⟩,
   ⟨{ tinyW [(R.RULE_STATUS_BUSY, 0)] with index := { IndexSt.reset with profs := [(0, some ⟨0, 16, 0, false⟩)], slots := [(7, ⟨true, 0, 0, 0, 9, 0, 0⟩)] } },
     .core 32, 0, 9#16, by decide +kernel, by decide +kernel, by decide +kernel, by decide +kernel, by decide +kernel⟩,
   ⟨tinyW [(fldState 0xB0000, 2), (R.FTLA_STATUS_SCANBUSY, 0)], .core 32, 1023, true, by decide +kernel, by decide +kernel,
     by decide +kernel, by decide +kernel⟩,
   ⟨tinyW [(fldState 0xB0000, 2), (R.FTLA_STATUS_SCANBUSY, 0)], .core 32, 0, false, by decide +kernel, by decide +kernel,
     by decide +kernel, by decide +kernel⟩⟩

theorem wit_SystemRegisterCommandsComplete :
    (∃ (s : State) (rq : Requester) (win : Fin 64) (slot : Fin 1048576) (x : HwWin), (reaches s rq .fab = true) ∧
      (blockOn s .fab = true) ∧ (findWin s win.val = some x) ∧ (slot.val < x.slots) ∧ (slotTag s x slot.val = tagLocal) ∧
      (tagBad (s.fld R.FAB_HWNEW_TAG) = false) ∧ (Registers.wf s.regs = true)) ∧
    (∃ (s : State) (rq : Requester) (x : BitVec 64), (reaches s rq .fab = true) ∧ (s.flag R.FAB_STATUS_MASTER = true) ∧
      (Registers.wf s.regs = true)) ∧
    (∃ (s : State) (rq : Requester), (reaches s rq .wdt = true)) ∧
    (∃ (s : State) (rq : Requester), (reaches s rq .wdt = true)) ∧
    (∃ (s : State) (rq : Requester) (addr : BitVec 26) (p : Nat), (inGate s rq = true) ∧ (blockOn s .cstore = true) ∧
      (s.code.op = none) ∧ (csPhys s (addr.toNat / csBlockSize) = some p) ∧ (Registers.wf s.regs = true)) ∧
    (∃ (s : State) (rq : Requester) (addr : BitVec 26) (src : BitVec 22) (p : Nat), (inGate s rq = true) ∧
      (blockOn s .cstore = true) ∧ (s.code.op = none) ∧ (csPhys s (addr.toNat / csBlockSize) = some p) ∧
      (Registers.wf s.regs = true)) ∧
    (∃ (s : State) (rq : Requester) (addr : BitVec 26) (src : BitVec 22) (p : Nat), (inGate s rq = true) ∧
      (blockOn s .cstore = true) ∧ (s.code.op = none) ∧ (csPhys s (addr.toNat / csBlockSize) = some p) ∧
      (Registers.wf s.regs = true)) ∧
    (∃ (s : State) (o : CsOp), (s.code.op = some o) ∧ (o.op = 1) ∧ (o.stage = 2)) ∧
    (∃ (s : State) (rq : Requester), (reaches s rq .hold = true) ∧ (s.flag R.HOLD_SAVE_BUSY = false)) ∧
    (∃ (s : State) (rq : Requester), (reaches s rq .therm = true) ∧ (s.flag R.THERM_SAVE_BUSY = false)) ∧
    (∃ (s : State) (c : CoreId) (pin : Fin 16), (32 ≤ c.val) ∧ (s.fld (R.GPIO_PIN_OWN pin.val) = 0) ∧
      (s.fld (R.GPIO_PIN_OE pin.val) ≤ 1) ∧ (s.fld (R.GPIO_PIN_EDGE pin.val) ≤ 3) ∧ (Registers.wf s.regs = true)) ∧
    (∃ (s : State) (c : CoreId) (pin : Fin 16), (32 ≤ c.val) ∧ (s.fld (R.GPIO_PIN_OWN pin.val) = 3 + (c.val - 32)) ∧
      (s.fld (R.GPIO_PIN_OE pin.val) ≤ 1) ∧ (s.fld (R.GPIO_PIN_EDGE pin.val) ≤ 3) ∧ (Registers.wf s.regs = true)) ∧
    (∃ (s : State) (ctrl : Fin 2) (v : BitVec 64), (barOpen s = true)) ∧
    (∃ (s : State), (s.tap.ir = .debug) ∧ (classDOpen s = true) ∧ (targetOf s 0x4800030010 = .reg 0x30010)) ∧
    (∃ (s : State) (v : BitVec 32), (s.tap.ir = .debug) ∧ (classDOpen s = true) ∧ (targetOf s 0x480003000C = .reg 0x3000C)) :=
  ⟨⟨{ tinyW [(fldState 0x310000, 2), (R.FAB_HWNEW_TAG, 0x1234)] with hwWins := [⟨2, 0x40010000, 16, 0x40000000, true⟩] }, .core
    32, 2, 15, ⟨2, 0x40010000, 16, 0x40000000, true⟩, by decide +kernel, by decide +kernel, by decide +kernel,
    by decide +kernel, by decide +kernel, by decide +kernel, by decide +kernel⟩,
   ⟨tinyW [(R.FAB_STATUS_MASTER, 1)], .core 32, 0x8000000112345678#64, by decide +kernel, by decide +kernel, by decide +kernel⟩,
   ⟨tinyW [(R.WDT_TIMEOUT_TIMEOUT, 65535)], .core 32, by decide +kernel⟩,
   ⟨{ tinyW [(R.WDT_STATUS_BOOTFAIL, 3)] with boot := { BootSt.reset with rbidx := 7 } }, .core 32, by decide +kernel⟩,
   ⟨{ (tinyW [(fldState 0x350000, 2)]).setCore 32 { Core.houseReset with pc := 0x00800100 } with code := CodeSt.reset }, .core
     32, 0x10000#26, 1, by decide +kernel, by decide +kernel, by decide +kernel, by decide +kernel, by decide +kernel⟩,
   ⟨{ (tinyW [(fldState 0x350000, 2)]).setCore 32 { Core.houseReset with pc := 0x008007FF } with code := CodeSt.reset }, .core
     32, 0x10100#26, 0x1000#22, 1, by decide +kernel, by decide +kernel, by decide +kernel, by decide +kernel,
     by decide +kernel⟩,
   ⟨{ (tinyW [(fldState 0x350000, 2)]).setCore 32 { Core.houseReset with pc := 0x00800400 } with code := CodeSt.reset }, .core
     32, 0x10100#26, 0x1000#22, 1, by decide +kernel, by decide +kernel, by decide +kernel, by decide +kernel,
     by decide +kernel⟩,
   ⟨{ tinyW [] with code := { CodeSt.reset with op := some ⟨1, 2, 5, 0, []⟩ } }, ⟨1, 2, 5, 0, []⟩, by decide +kernel,
     by decide +kernel, by decide +kernel⟩,
   ⟨tinyW [(R.HOLD_SAVE_BUSY, 0)], .core 32, by decide +kernel, by decide +kernel⟩,
   ⟨tinyW [(R.THERM_SAVE_BUSY, 0)], .core 32, by decide +kernel, by decide +kernel⟩,
   ⟨tinyW [(R.GPIO_PIN_OWN 15, 0)], 35, 15, by decide +kernel, by decide +kernel, by decide +kernel, by decide +kernel,
     by decide +kernel⟩,
   ⟨tinyW [(R.GPIO_PIN_OWN 0, 3)], 32, 0, by decide +kernel, by decide +kernel, by decide +kernel, by decide +kernel,
     by decide +kernel⟩,
   ⟨tinyW [(R.PCIE_CTRL_REGWIN, 1)], 1, 0x5#64, by decide +kernel⟩,
   ⟨{ tinyW [(R.RET_PTO_TIME, 777)] with tap := { TapSt.reset with ir := .debug } }, by decide +kernel, by decide +kernel,
     by decide +kernel⟩,
   ⟨{ tinyW [] with tap := { TapSt.reset with ir := .debug } }, 0x9#32, by decide +kernel, by decide +kernel,
     by decide +kernel⟩⟩

theorem wit_BlockCommandsComplete :
    (∃ (s : State) (b : BlockId), (blockHasEnable b = true) ∧ (b ≠ .wdt) ∧ (blockState s b = stOff)) ∧
    (∃ (s : State) (b : BlockId), (b ∈ [.ecc, .disp, .pat, .rule, .codec, .nvme, .pcie, .media, .ftla, .digest, .vault, .keys,
      .fab, .cstore, .therm]) ∧ (blockState s b = stOn)) ∧
    (∃ (s : State) (b : BlockId), (b ∈ [.ecc, .disp, .pat, .rule, .codec, .nvme, .pcie, .media, .ftla, .digest, .vault, .keys,
      .cstore, .therm]) ∧ (blockState s b = stEnabling) ∧ (s.flag (fldEn (blockBase b)) = true) ∧
      (Registers.wf s.regs = true)) ∧
    (∃ (s : State) (b : BlockId), (b ∈ [.ecc, .disp, .pat, .rule, .codec, .nvme, .media, .ftla, .digest, .cstore, .therm]) ∧
      (blockState s b = stQuiescing) ∧ (drained s b = true) ∧ (s.flag (fldEn (blockBase b)) = false) ∧ (s.nvme.d3off = [])) :=
  ⟨⟨tinyW [(fldState 0x740000, 0), (fldState 0x0, 0), (fldState 0x80000, 0)], .nvme, by decide +kernel, by decide +kernel,
    by decide +kernel⟩,
   ⟨tinyW [(fldState 0x80000, 2)], .nvme, by decide +kernel, by decide +kernel⟩,
   ⟨tinyW [(fldState 0x80000, 1), (fldEn 0x80000, 1)], .nvme, by decide +kernel, by decide +kernel, by decide +kernel,
     by decide +kernel⟩,
   ⟨tinyW [(fldState 0x80000, 3), (fldEn 0x80000, 0)], .nvme, by decide +kernel, by decide +kernel, by decide +kernel,
     by decide +kernel, by decide +kernel⟩⟩

theorem wit_StartCommandsComplete :
    (∃ (s : State), (s.boot.held = .none) ∧ (s.boot.mode ≠ .halt) ∧ (s.flag R.SYS_CLKSTAT_ROOT_LOCK = true) ∧
      (s.fld R.SYS_PHASE_PHASE = 12)) ∧
    (∃ (s : State), (s.boot.pllLost = true) ∧ (s.flag R.SYS_CLKSTAT_ROOT_LOCK = false) ∧ (s.boot.held = .none)) ∧
    (∃ (s : State), (wdtRuns s = true) ∧ (25000 * s.fld R.WDT_WARN_WARN < s.fld R.WDT_COUNT_COUNT)) ∧
    (∃ (s : State), (wdtRuns s = true) ∧ (flushing s = false) ∧ (s.boot.held = .none) ∧ (s.boot.mode = .normal) ∧
      (s.boot.bootOk = true)) ∧
    (∃ (s : State) (us : Nat), (flushing s = true) ∧ (flushIdle s = true) ∧ (s.boot.rstLow = false) ∧
      (s.boot.pllLost = false)) ∧
    (∃ (s : State) (die : Int), (s.boot.held = .post false)) ∧
    (∃ (s : State), (flushing s = false) ∧ (Registers.wf s.regs = true)) ∧
    (∃ (s : State) (bifur : Bool), (flushing s = false) ∧ (s.boot.held = .rails)) ∧
    (∃ (s : State) (recorded us : Nat), (flushing s = false) ∧ (s.boot.held = .none)) ∧
    (∃ (s : State) (recorded us : Nat), (flushing s = false)) ∧
    (∃ (s : State) (c : CoreId), (32 ≤ c.val) ∧ (flushing s = false) ∧ (s.boot.held = .none) ∧ (s.boot.mode = .normal) ∧
      (s.dram.trained = true)) ∧
    (∃ (s : State) (mask : Fin 8), (s.cores.length = 36) ∧ ((s.core 33).run = .idle) ∧ ((s.core 34).run = .idle) ∧
      ((s.core 35).run = .idle) ∧ (Registers.wf s.regs = true)) :=
  ⟨⟨{ tinyW [(R.SYS_CLKSTAT_ROOT_LOCK, 1), (R.SYS_PHASE_PHASE, 12)] with boot := { BootSt.reset with held := .none } },
    by decide +kernel, by decide +kernel, by decide +kernel, by decide +kernel⟩,
   ⟨{ tinyW [(R.SYS_CLKSTAT_ROOT_LOCK, 0)] with boot := { BootSt.reset with held := .none, pllLost := true } },
     by decide +kernel, by decide +kernel, by decide +kernel⟩,
   ⟨tinyW [(fldState 0x380000, 2), (R.WDT_STATUS_FROZEN, 0), (R.WDT_WARN_WARN, 3), (R.WDT_COUNT_COUNT, 75001)],
     by decide +kernel, by decide +kernel⟩,
   ⟨{ tinyW [(fldState 0x380000, 2), (R.WDT_STATUS_FROZEN, 0), (R.HOLD_STATUS_FLUSH, 0)] with boot := { BootSt.reset with held := .none, bootOk := true } },
     by decide +kernel, by decide +kernel, by decide +kernel, by decide +kernel, by decide +kernel⟩,
   ⟨{ tinyW [(R.HOLD_STATUS_FLUSH, 1)] with boot := { BootSt.reset with held := .none } }, 700, by decide +kernel,
     by decide +kernel, by decide +kernel, by decide +kernel⟩,
   ⟨{ tinyW [] with boot := { BootSt.reset with held := .post false } }, 400, by decide +kernel⟩,
   ⟨tinyW [(R.HOLD_STATUS_FLUSH, 0), (R.SYS_CLKSTAT_ROOT_LOSS, 1)], by decide +kernel, by decide +kernel⟩,
   ⟨tinyW [(R.HOLD_STATUS_FLUSH, 0)], true, by decide +kernel, by decide +kernel⟩,
   ⟨{ tinyW [(R.HOLD_STATUS_FLUSH, 0)] with boot := { BootSt.reset with held := .none, cycles := 3 } }, 0, 0,
     by decide +kernel, by decide +kernel⟩,
   ⟨tinyW [(R.HOLD_STATUS_FLUSH, 0)], 0, 0, by decide +kernel⟩,
   ⟨{ tinyW [(R.HOLD_STATUS_FLUSH, 0)] with boot := { BootSt.reset with held := .none }, dram := { DramSt.reset with trained := true }, mem := [(5, 7), (0x4000000000, 9)] },
     32, by decide +kernel, by decide +kernel, by decide +kernel, by decide +kernel, by decide +kernel⟩,
   ⟨tinyW [], 5, by decide +kernel, by decide +kernel, by decide +kernel, by decide +kernel, by decide +kernel⟩⟩

theorem wit_JtagAndClockCommandsComplete :
    (∃ (s : State) (levels shifted : Nat), (s.fuses.lc ≤ 1)) ∧
    (∃ (s : State) (levels shifted : Nat), (s.fuses.lc ≤ 1)) ∧
    (∃ (s : State), (s.fuses.lc ≤ 1)) ∧
    (∃ (s : State), (s.fuses.lc ≤ 1)) :=
  ⟨⟨tinyW [], 5, 9, by decide +kernel⟩,
   ⟨tinyW [], 5, 9, by decide +kernel⟩,
   ⟨tinyW [], by decide +kernel⟩,
   ⟨tinyW [], by decide +kernel⟩⟩

theorem wit_FlowAndParcelCommandsComplete :
    (∃ (s : State), (s.flag R.FLOW_STATUS_CMD_BUSY = true) ∧ (s.flows.cmdOp = 2) ∧
      (unbindFault s s.flows.cmdFlow = some scSequence) ∧ (Registers.wf s.regs = true)) ∧
    (∃ (s : State) (flow : Fin 262144) (r : SeqRun), (s.flows.runs.find? (fun x => x.flow == flow.val) = some r) ∧
      (blockState s .disp = stOn) ∧ (cutBlock s flow.val r.next (min r.bytes (ctxParcelSize s flow.val)) false = none)) ∧
    (∃ (s : State) (flow : Fin 262144) (seq : Nat) (bytes : List Byte) (p : Parcel) (id : Nat), (findParcel s flow.val seq =
      some p) ∧ (p.src = .host id) ∧ (p.st = .landing) ∧ (s.flows.hostUsed < s.flows.hostLimit) ∧
      (p.got + bytes.length < p.len)) ∧
    (∃ (s : State), (s.flag R.DISP_PART_LEND = false)) ∧
    (∃ (s : State) (p : Parcel) (i : Nat), (s.flows.parcels = [p]) ∧ (p.st = .waiting) ∧ (pushTarget s p.flow = some i) ∧
      (s.flows.deques = [])) ∧
    (∃ (s : State) (ti : TileId) (fq : Nat × Nat) (r : List (Nat × Nat)), (tileReady s ti.val = true) ∧
      (tileOwesRaw s ti.val = false) ∧ (dequeOf s ti.val = fq :: r)) ∧
    (∃ (s : State) (ti : TileId), (mayProbe s ti.val = true) ∧ ((thiefOf s ti.val).searching = false) ∧
      (candidateIn s ti.val (ti.val / 4) [] = none)) ∧
    (∃ (s : State) (ti : TileId), ((thiefOf s ti.val).backoff = true)) ∧
    (∃ (s : State) (flow : Fin 262144) (seq : Nat) (p : Parcel), (findParcel s flow.val seq = some p) ∧
      (completes s p = true) ∧ (releases p = false) ∧ (s.flows.blocked = [])) ∧
    (∃ (s : State) (f : Nat) (r : SeqRun), (nextRelease s = some f) ∧ (findParcel s f (ctxGet s f cxRET) = none) ∧
      (voidAt s f (ctxGet s f cxRET) = some r)) ∧
    (∃ (s : State) (flow : Fin 262144) (p : Parcel), (waitingHead s flow.val = some p) ∧ (s.fld R.RET_STALL_TIME ≠ 0) ∧
      (s.flows.stalled = []) ∧ (s.flag R.RET_STALLFLOW_VALID = false)) ∧
    (∃ (s : State) (flow : Fin 262144) (p : Parcel), (waitingHead s flow.val = some p) ∧ (s.fld R.RET_PTO_TIME ≠ 0) ∧
      (p.st = .landing) ∧ (p.cause = 0) ∧ (p.discarded = false) ∧ (Registers.wf s.regs = true)) :=
  ⟨⟨{ tinyW [(R.FLOW_STATUS_CMD_BUSY, 1)] with flows := { FlowSt.reset with cmdOp := 2, cmdFlow := 5 } }, by decide +kernel,
    by decide +kernel, by decide +kernel, by decide +kernel⟩,
   ⟨{ tinyW [(fldState 0x20000, 2), (R.DISP_INFLIGHT_LIMIT, 10), (R.DISP_PART_HOST_STG, 64), (R.RET_OSTG_SIZE_SIZE, 64)] with flows := { FlowSt.reset with runs := [⟨7, 0, 2, 1, 0, 5000⟩] } },
     7, ⟨7, 0, 2, 1, 0, 5000⟩, by decide +kernel, by decide +kernel, by decide +kernel⟩,
   ⟨{ tinyW [] with flows := { FlowSt.reset with parcels := [{ flow := 7, seq := 0, src := .host 1, len := 4096, part := 0, land := 0x4000000000, landLen := 4096, landHeld := true, ost := 0, ostLen := 8192, got := 0, tile := 0, st := .landing, cause := 0, discarded := false, raw := false, nblk := 0, ebytes := 0, nent := 0, codecProf := 0, jobEnded := false, rawSkip := false }] } },
     7, 0, [1, 2, 3, 4, 5, 6, 7, 8],
     { flow := 7, seq := 0, src := .host 1, len := 4096, part := 0, land := 0x4000000000, landLen := 4096, landHeld := true, ost := 0, ostLen := 8192, got := 0, tile := 0, st := .landing, cause := 0, discarded := false, raw := false, nblk := 0, ebytes := 0, nent := 0, codecProf := 0, jobEnded := false, rawSkip := false },
     1, by decide +kernel, by decide +kernel, by decide +kernel, by decide +kernel, by decide +kernel⟩,
   ⟨tinyW [(R.DISP_PART_LEND, 0), (R.DISP_PART_HOST_RATE, 64)], by decide +kernel⟩,
   ⟨{ tinyW [(R.TILE_STATUS_STATE 3, 2)] with flows := { FlowSt.reset with parcels := [⟨0, 0, .host 1, 4096, 0, 0, 0, true, 0, 0, 4096, 0, .waiting, 0, false, false, 0, 0, 0, 0, false, false⟩] }, mem := [(0x4010000008, 8)] },
     ⟨0, 0, .host 1, 4096, 0, 0, 0, true, 0, 0, 4096, 0, .waiting, 0, false, false, 0, 0, 0, 0, false, false⟩, 3,
     by decide +kernel, by decide +kernel, by decide +kernel, by decide +kernel⟩,
   ⟨{ tinyW [(R.TILE_STATUS_STATE 3, 2)] with flows := { FlowSt.reset with deques := [(3, [(0, 0)])] } }, 3, (0, 0), [],
     by decide +kernel, by decide +kernel, by decide +kernel⟩,
   ⟨tinyW [(R.TILE_STATUS_STATE 3, 2), (R.DISP_STEAL_STEAL_EN, 1), (R.DISP_STEAL_STEAL_MIN, 1)], 3, by decide +kernel,
     by decide +kernel, by decide +kernel⟩,
   ⟨{ tinyW [] with flows := { FlowSt.reset with thieves := [(3, ⟨false, true, 1, 0, [], 1⟩)] } }, 3, by decide +kernel⟩,
   ⟨{ tinyW [] with flows := { FlowSt.reset with parcels := [⟨0, 0, .host 1, 4096, 0, 0, 0, true, 0, 0, 4096, 0, .ended 3, 2, false, false, 0, 0, 0, 0, true, true⟩] } },
     0, 0, ⟨0, 0, .host 1, 4096, 0, 0, 0, true, 0, 0, 4096, 0, .ended 3, 2, false, false, 0, 0, 0, 0, true, true⟩,
     by decide +kernel, by decide +kernel, by decide +kernel, by decide +kernel⟩,
   ⟨{ tinyW [] with flows := { FlowSt.reset with voids := [⟨7, 0, 2, 1, 0, 0⟩] } }, 7, ⟨7, 0, 2, 1, 0, 0⟩, by decide +kernel,
     by decide +kernel, by decide +kernel⟩,
   ⟨{ tinyW [(R.RET_STALL_TIME, 5), (R.RET_STALLFLOW_VALID, 0)] with flows := { FlowSt.reset with parcels := [⟨0, 0, .host 1, 4096, 0, 0, 0, true, 0, 0, 4096, 0, .ended 3, 2, false, false, 0, 0, 0, 0, true, true⟩] } },
     0, ⟨0, 0, .host 1, 4096, 0, 0, 0, true, 0, 0, 4096, 0, .ended 3, 2, false, false, 0, 0, 0, 0, true, true⟩,
     by decide +kernel, by decide +kernel, by decide +kernel, by decide +kernel⟩,
   ⟨{ tinyW [(R.RET_PTO_TIME, 5)] with flows := { FlowSt.reset with parcels := [⟨0, 0, .host 1, 4096, 0, 0, 0, true, 0, 0, 4096, 0, .landing, 0, false, false, 0, 0, 0, 0, false, false⟩] } },
     0, ⟨0, 0, .host 1, 4096, 0, 0, 0, true, 0, 0, 4096, 0, .landing, 0, false, false, 0, 0, 0, 0, false, false⟩,
     by decide +kernel, by decide +kernel, by decide +kernel, by decide +kernel, by decide +kernel, by decide +kernel⟩⟩

theorem wit_AluRegisterFormsComplete :
    (∃ (s : State) (c : CoreId) (f : AluForm) (s1 : State), (issued s c.val (aluForm (s.core c.val) f).2.2.2 = some s1)) ∧
    (∃ (s : State) (c : CoreId) (f : AluForm) (s1 : State), (issued s c.val (aluForm (s.core c.val) f).2.2.2 = some s1)) ∧
    (∃ (s : State) (c : CoreId) (f : AluForm) (s1 : State), (issued s c.val (aluForm (s.core c.val) f).2.2.2 = some s1)) ∧
    (∃ (s : State) (c : CoreId) (f : AluForm) (s1 : State), (issued s c.val (aluForm (s.core c.val) f).2.2.2 = some s1)) ∧
    (∃ (s : State) (c : CoreId) (f : AluForm) (s1 : State), (issued s c.val (aluForm (s.core c.val) f).2.2.2 = some s1)) ∧
    (∃ (s : State) (c : CoreId) (f : AluForm) (s1 : State), (issued s c.val (aluForm (s.core c.val) f).2.2.2 = some s1)) ∧
    (∃ (s : State) (c : CoreId) (f : AluForm) (s1 : State), (issued s c.val (aluForm (s.core c.val) f).2.2.2 = some s1)) ∧
    (∃ (s : State) (c : CoreId) (f : AluForm) (s1 : State), (issued s c.val (aluForm (s.core c.val) f).2.2.2 = some s1)) ∧
    (∃ (s : State) (c : CoreId) (rd ra rb : Reg) (s1 : State), (issued s c.val 4 = some s1)) ∧
    (∃ (s : State) (c : CoreId) (rd ra rb : Reg) (s1 : State), (issued s c.val 4 = some s1)) ∧
    (∃ (s : State) (c : CoreId) (rd ra rb : Reg) (s1 : State), (issued s c.val 4 = some s1)) ∧
    (∃ (s : State) (c : CoreId) (rd ra rb : Reg) (s1 : State), (issued s c.val 4 = some s1)) ∧
    (∃ (s : State) (c : CoreId) (rd ra rb : Reg) (s1 : State), (issued s c.val 4 = some s1)) ∧
    (∃ (s : State) (c : CoreId) (rd ra rb : Reg) (s1 : State), (issued s c.val 4 = some s1)) ∧
    (∃ (s : State) (c : CoreId) (rd ra rb : Reg) (s1 : State), (issued s c.val 4 = some s1)) :=
  ⟨⟨running (tinyW []), 3, .wide 1 2 3, running (tinyW []), by decide +kernel⟩,
   ⟨running (tinyW []), 3, .wide 1 2 3, running (tinyW []), by decide +kernel⟩,
   ⟨running (tinyW []), 3, .wide 1 2 3, running (tinyW []), by decide +kernel⟩,
   ⟨running (tinyW []), 3, .wide 1 2 3, running (tinyW []), by decide +kernel⟩,
   ⟨running (tinyW []), 3, .wide 1 2 3, running (tinyW []), by decide +kernel⟩,
   ⟨running (tinyW []), 3, .wide 1 2 3, running (tinyW []), by decide +kernel⟩,
   ⟨running (tinyW []), 3, .wide 1 2 3, running (tinyW []), by decide +kernel⟩,
   ⟨running (tinyW []), 3, .wide 1 2 3, running (tinyW []), by decide +kernel⟩,
   ⟨running (tinyW []), 3, 1, 2, 15, running (tinyW []), by decide +kernel⟩,
   ⟨running (tinyW []), 3, 1, 2, 15, running (tinyW []), by decide +kernel⟩,
   ⟨running (tinyW []), 3, 1, 2, 15, running (tinyW []), by decide +kernel⟩,
   ⟨running (tinyW []), 3, 1, 2, 15, running (tinyW []), by decide +kernel⟩,
   ⟨running (tinyW []), 3, 1, 2, 15, running (tinyW []), by decide +kernel⟩,
   ⟨running (tinyW []), 3, 1, 2, 15, running (tinyW []), by decide +kernel⟩,
   ⟨running (tinyW []), 3, 1, 2, 15, running (tinyW []), by decide +kernel⟩⟩

theorem wit_AluShiftAndImmediateComplete :
    (∃ (s : State) (c : CoreId) (f : ShiftForm) (s1 : State), (issued s c.val (shiftForm (s.core c.val) f).2.2.2 = some s1)) ∧
    (∃ (s : State) (c : CoreId) (f : ShiftForm) (s1 : State), (issued s c.val (shiftForm (s.core c.val) f).2.2.2 = some s1)) ∧
    (∃ (s : State) (c : CoreId) (f : ShiftForm) (s1 : State), (issued s c.val (shiftForm (s.core c.val) f).2.2.2 = some s1)) ∧
    (∃ (s : State) (c : CoreId) (f : ShiftForm) (s1 : State), (issued s c.val (shiftForm (s.core c.val) f).2.2.2 = some s1)) ∧
    (∃ (s : State) (c : CoreId) (f : ShiftForm) (s1 : State), (issued s c.val (shiftForm (s.core c.val) f).2.2.2 = some s1)) ∧
    (∃ (s : State) (c : CoreId) (rd rb : Reg) (s1 : State), (issued s c.val 2 = some s1)) ∧
    (∃ (s : State) (c : CoreId) (rd rb : Reg) (s1 : State), (issued s c.val 2 = some s1)) ∧
    (∃ (s : State) (c : CoreId) (f : AddiForm) (s1 : State), (issued s c.val (addiForm (s.core c.val) f).2.2.2 = some s1)) ∧
    (∃ (s : State) (c : CoreId) (rd ra : Reg) (imm : BitVec 16) (s1 : State), (issued s c.val 4 = some s1)) ∧
    (∃ (s : State) (c : CoreId) (rd ra : Reg) (imm : BitVec 16) (s1 : State), (issued s c.val 4 = some s1)) ∧
    (∃ (s : State) (c : CoreId) (rd ra : Reg) (imm : BitVec 16) (s1 : State), (issued s c.val 4 = some s1)) :=
  ⟨⟨running (tinyW []), 3, .imm6 1 2 63, running (tinyW []), by decide +kernel⟩,
   ⟨running (tinyW []), 3, .imm6 1 2 63, running (tinyW []), by decide +kernel⟩,
   ⟨running (tinyW []), 3, .imm6 1 2 63, running (tinyW []), by decide +kernel⟩,
   ⟨running (tinyW []), 3, .imm6 1 2 63, running (tinyW []), by decide +kernel⟩,
   ⟨running (tinyW []), 3, .imm6 1 2 63, running (tinyW []), by decide +kernel⟩,
   ⟨running (tinyW []), 3, 1, 2, running (tinyW []), by decide +kernel⟩,
   ⟨running (tinyW []), 3, 1, 2, running (tinyW []), by decide +kernel⟩,
   ⟨running (tinyW []), 3, .wide 1 2 0xFFFF#16, running (tinyW []), by decide +kernel⟩,
   ⟨running (tinyW []), 3, 1, 2, 0x8001#16, running (tinyW []), by decide +kernel⟩,
   ⟨running (tinyW []), 3, 1, 2, 0x8001#16, running (tinyW []), by decide +kernel⟩,
   ⟨running (tinyW []), 3, 1, 2, 0x8001#16, running (tinyW []), by decide +kernel⟩⟩

theorem wit_MovesExtendsAndDivisionComplete :
    (∃ (s : State) (c : CoreId) (rd rb : Reg) (s1 : State), (issued s c.val 2 = some s1)) ∧
    (∃ (s : State) (c : CoreId) (rd rb : Reg) (s1 : State), (issued s c.val 2 = some s1)) ∧
    (∃ (s : State) (c : CoreId) (rd rb : Reg) (s1 : State), (issued s c.val 2 = some s1)) ∧
    (∃ (s : State) (c : CoreId) (rd rb : Reg) (s1 : State), (issued s c.val 2 = some s1)) ∧
    (∃ (s : State) (c : CoreId) (rd rb : Reg) (s1 : State), (issued s c.val 2 = some s1)) ∧
    (∃ (s : State) (c : CoreId) (rd rb : Reg) (s1 : State), (issued s c.val 2 = some s1)) ∧
    (∃ (s : State) (c : CoreId) (rd rb : Reg) (s1 : State), (issued s c.val 2 = some s1)) ∧
    (∃ (s : State) (c : CoreId) (rd rb : Reg) (s1 : State), (issued s c.val 2 = some s1)) ∧
    (∃ (s : State) (c : CoreId) (f : MoviForm) (s1 : State), (issued s c.val (moviForm f).2.2 = some s1)) ∧
    (∃ (s : State) (c : CoreId) (rd : Reg) (imm : BitVec 16) (s1 : State), (issued s c.val 4 = some s1)) ∧
    (∃ (s : State) (c : CoreId) (rd : Reg) (imm : BitVec 22) (s1 : State), (issued s c.val 4 = some s1)) ∧
    (∃ (s : State) (c : CoreId) (rd ra rb rr : Reg) (s1 : State), (issued s c.val 4 = some s1) ∧
      (gpr (s1.core c.val) rb ≠ 0#32 ∨ stBit (s1.core c.val).st stDZT = false)) ∧
    (∃ (s : State) (c : CoreId) (rd ra rb rr : Reg) (s1 : State), (issued s c.val 4 = some s1) ∧
      (gpr (s1.core c.val) rb ≠ 0#32 ∨ stBit (s1.core c.val).st stDZT = false)) :=
  ⟨⟨running (tinyW []), 3, 1, 2, running (tinyW []), by decide +kernel⟩,
   ⟨running (tinyW []), 3, 1, 2, running (tinyW []), by decide +kernel⟩,
   ⟨running (tinyW []), 3, 1, 2, running (tinyW []), by decide +kernel⟩,
   ⟨running (tinyW []), 3, 1, 2, running (tinyW []), by decide +kernel⟩,
   ⟨running (tinyW []), 3, 1, 2, running (tinyW []), by decide +kernel⟩,
   ⟨running (tinyW []), 3, 1, 2, running (tinyW []), by decide +kernel⟩,
   ⟨running (tinyW []), 3, 1, 2, running (tinyW []), by decide +kernel⟩,
   ⟨running (tinyW []), 3, 1, 2, running (tinyW []), by decide +kernel⟩,
   ⟨running (tinyW []), 3, .short 15 0x7F#7, running (tinyW []), by decide +kernel⟩,
   ⟨running (tinyW []), 3, 15, 0x8001#16, running (tinyW []), by decide +kernel⟩,
   ⟨running (tinyW []), 3, 15, 0x3FFFFF#22, running (tinyW []), by decide +kernel⟩,
   ⟨running (tinyW []), 3, 1, 2, 3, 4, running (tinyW []), by decide +kernel, by decide +kernel⟩,
   ⟨running (tinyW []), 3, 1, 2, 3, 4, running (tinyW []), by decide +kernel, by decide +kernel⟩⟩

theorem wit_SkipAndBranchComplete :
    (∃ (s : State) (c : CoreId) (cond : Cond) (ra rb : Reg) (s1 : State) (x : Nat × State), (issued s c.val 2 = some s1) ∧
      (condHolds cond (gpr (s1.core c.val) ra) (gpr (s1.core c.val) rb) = true →
      fetchedAt s1 c.val ((s1.core c.val).pc + 2#32) = some x) ∧ (condHolds cond (gpr (s1.core c.val) ra) (gpr (s1.core c.val)
      rb) = true → offGate c.val ((s1.core c.val).pc + 2#32 + (if bitOf x.1 15 then 4 else 2)) = true)) ∧
    (∃ (s : State) (c : CoreId) (cond : Cond) (ra : Reg) (imm : BitVec 16) (s1 : State) (x : Nat × State), (issued s c.val 4 =
      some s1) ∧ (condHolds cond (gpr (s1.core c.val) ra) (skipImm cond imm) = true →
      fetchedAt s1 c.val ((s1.core c.val).pc + 4#32) = some x) ∧ (condHolds cond (gpr (s1.core c.val) ra) (skipImm cond imm) =
      true → offGate c.val ((s1.core c.val).pc + 4#32 + (if bitOf x.1 15 then 4 else 2)) = true)) ∧
    (∃ (s : State) (c : CoreId) (ra : Reg) (imm : BitVec 5) (s1 : State) (x : Nat × State), (issued s c.val 2 = some s1) ∧
      ((gpr (s1.core c.val) ra == imm.signExtend 32) = true → fetchedAt s1 c.val ((s1.core c.val).pc + 2#32) = some x) ∧
      ((gpr (s1.core c.val) ra == imm.signExtend 32) = true → offGate c.val ((s1.core c.val).pc + 2#32 + (if bitOf x.1 15 then
      4 else 2)) = true)) ∧
    (∃ (s : State) (c : CoreId) (ra : Reg) (b : Fin 32) (s1 : State) (x : Nat × State), (issued s c.val 2 = some s1) ∧
      ((gpr (s1.core c.val) ra).getLsbD b.val = true → fetchedAt s1 c.val ((s1.core c.val).pc + 2#32) = some x) ∧
      ((gpr (s1.core c.val) ra).getLsbD b.val = true → offGate c.val ((s1.core c.val).pc + 2#32 + (if bitOf x.1 15 then 4 else
      2)) = true)) ∧
    (∃ (s : State) (c : CoreId) (ra : Reg) (b : Fin 32) (s1 : State) (x : Nat × State), (issued s c.val 2 = some s1) ∧
      ((!(gpr (s1.core c.val) ra).getLsbD b.val) = true → fetchedAt s1 c.val ((s1.core c.val).pc + 2#32) = some x) ∧
      ((!(gpr (s1.core c.val) ra).getLsbD b.val) = true → offGate c.val ((s1.core c.val).pc + 2#32 + (if bitOf x.1 15 then 4
      else 2)) = true)) ∧
    (∃ (s : State) (c : CoreId) (cond : FlagCond) (s1 : State) (x : Nat × State), (issued s c.val 2 = some s1) ∧
      (flagHolds cond (s1.core c.val).st = true → fetchedAt s1 c.val ((s1.core c.val).pc + 2#32) = some x) ∧
      (flagHolds cond (s1.core c.val).st = true → offGate c.val ((s1.core c.val).pc + 2#32 + (if bitOf x.1 15 then 4 else 2)) =
      true)) ∧
    (∃ (s : State) (c : CoreId) (f : BranchForm) (s1 : State), (issued s c.val (branchForm 0 f).2 = some s1) ∧
      (offGate c.val (branchForm (s1.core c.val).pc f).1 = true)) ∧
    (∃ (s : State) (c : CoreId) (rt : Reg) (s1 : State), (issued s c.val 2 = some s1) ∧
      ((gpr (s1.core c.val) rt).getLsbD 0 = false) ∧ (offGate c.val (gpr (s1.core c.val) rt) = true)) ∧
    (∃ (s : State) (c : CoreId) (s1 : State), (issued s c.val 2 = some s1)) ∧
    (∃ (s : State) (c : CoreId) (rd : Reg) (sn : Fin 32) (s1 : State), (issued s c.val 4 = some s1) ∧
      (srPresent sn.val = true) ∧ (sn.val ≠ 5) ∧ (sn.val ≠ 6)) ∧
    (∃ (s : State) (c : CoreId) (sn : Fin 32) (ra : Reg) (s1 : State), (issued s c.val 4 = some s1) ∧
      (srWritable sn.val = true)) :=
  ⟨⟨running (tinyW []), 3, .eq, 1, 2, running (tinyW []), (0, running (tinyW [])), by decide +kernel, by decide +kernel,
    by decide +kernel⟩,
   ⟨running (tinyW []), 3, .ne, 1, 0xFFFF#16, running (tinyW []), (0, running (tinyW [])), by decide +kernel,
     by decide +kernel, by decide +kernel⟩,
   ⟨running (tinyW []), 3, 1, 0#5, running (tinyW []), (0, running (tinyW [])), by decide +kernel, by decide +kernel,
     by decide +kernel⟩,
   ⟨running (tinyW []), 3, 1, 31, running (tinyW []), (0, running (tinyW [])), by decide +kernel, by decide +kernel,
     by decide +kernel⟩,
   ⟨running (tinyW []), 3, 1, 31, running (tinyW []), (0, running (tinyW [])), by decide +kernel, by decide +kernel,
     by decide +kernel⟩,
   ⟨running (tinyW []), 3, .nz, running (tinyW []), (0, running (tinyW [])), by decide +kernel, by decide +kernel,
     by decide +kernel⟩,
   ⟨running (tinyW []), 3, .wide 0x100#26, running (tinyW []), by decide +kernel, by decide +kernel⟩,
   ⟨running (tinyW []), 3, 1, running (tinyW []), by decide +kernel, by decide +kernel, by decide +kernel⟩,
   ⟨running (tinyW []), 3, running (tinyW []), by decide +kernel⟩,
   ⟨running (tinyW []), 3, 1, 19, running (tinyW []), by decide +kernel, by decide +kernel, by decide +kernel,
     by decide +kernel⟩,
   ⟨running (tinyW []), 3, 0, 1, running (tinyW []), by decide +kernel, by decide +kernel⟩⟩

theorem wit_LoadAndStoreComplete :
    (∃ (s : State) (c : CoreId) (f : WordForm) (s1 : State) (x : Nat × State), (issued s c.val (wordForm (s.core c.val)
      f).2.2.2 = some s1) ∧ (loadedAt s1 c.val (baseKind (wordForm (s1.core c.val) f).2.1 false) (wordForm (s1.core c.val)
      f).2.2.1 4 = some x) ∧ (offGate c.val ((s1.core c.val).pc + BitVec.ofNat 32 (wordForm (s1.core c.val) f).2.2.2) = true)) ∧
    (∃ (s : State) (c : CoreId) (f : WordForm) (s1 x : State), (issued s c.val (wordForm (s.core c.val) f).2.2.2 = some s1) ∧
      (storedAt s1 c.val (baseKind (wordForm (s1.core c.val) f).2.1 true) (wordForm (s1.core c.val) f).2.2.1 4 (gpr (s1.core
      c.val) (wordForm (s1.core c.val) f).1).toNat = some x) ∧ (offGate c.val ((s1.core c.val).pc + BitVec.ofNat 32 (wordForm
      (s1.core c.val) f).2.2.2) = true)) ∧
    (∃ (s : State) (c : CoreId) (rd ra : Reg) (imm : BitVec 16) (s1 : State) (x : Nat × State), (issued s c.val 4 = some s1) ∧
      (loadedAt s1 c.val (baseKind ra false) (gpr (s1.core c.val) ra + imm.signExtend 32) 2 = some x) ∧
      (offGate c.val ((s1.core c.val).pc + 4#32) = true)) ∧
    (∃ (s : State) (c : CoreId) (rd ra : Reg) (imm : BitVec 16) (s1 : State) (x : Nat × State), (issued s c.val 4 = some s1) ∧
      (loadedAt s1 c.val (baseKind ra false) (gpr (s1.core c.val) ra + imm.signExtend 32) 2 = some x) ∧
      (offGate c.val ((s1.core c.val).pc + 4#32) = true)) ∧
    (∃ (s : State) (c : CoreId) (rd ra : Reg) (imm : BitVec 16) (s1 : State) (x : Nat × State), (issued s c.val 4 = some s1) ∧
      (loadedAt s1 c.val (baseKind ra false) (gpr (s1.core c.val) ra + imm.signExtend 32) 1 = some x) ∧
      (offGate c.val ((s1.core c.val).pc + 4#32) = true)) ∧
    (∃ (s : State) (c : CoreId) (rd ra : Reg) (imm : BitVec 16) (s1 : State) (x : Nat × State), (issued s c.val 4 = some s1) ∧
      (loadedAt s1 c.val (baseKind ra false) (gpr (s1.core c.val) ra + imm.signExtend 32) 1 = some x) ∧
      (offGate c.val ((s1.core c.val).pc + 4#32) = true)) ∧
    (∃ (s : State) (c : CoreId) (rs ra : Reg) (imm : BitVec 16) (s1 x : State), (issued s c.val 4 = some s1) ∧
      (storedAt s1 c.val (baseKind ra true) (gpr (s1.core c.val) ra + imm.signExtend 32) 2 ((gpr (s1.core c.val) rs).toNat % 2
      ^ 16) = some x) ∧ (offGate c.val ((s1.core c.val).pc + 4#32) = true)) ∧
    (∃ (s : State) (c : CoreId) (rs ra : Reg) (imm : BitVec 16) (s1 x : State), (issued s c.val 4 = some s1) ∧
      (storedAt s1 c.val (baseKind ra true) (gpr (s1.core c.val) ra + imm.signExtend 32) 1 ((gpr (s1.core c.val) rs).toNat % 2
      ^ 8) = some x) ∧ (offGate c.val ((s1.core c.val).pc + 4#32) = true)) ∧
    (∃ (s : State) (c : CoreId) (rd : Reg) (size : AccSize) (off : BitVec 16) (s1 : State) (x : Nat × State), (issued s c.val 4
      = some s1) ∧ (loadedAt s1 c.val .read (shortAddr (s1.core c.val) off) (sizeBytes size) = some x) ∧
      (offGate c.val ((s1.core c.val).pc + 4#32) = true)) ∧
    (∃ (s : State) (c : CoreId) (rs : Reg) (size : AccSize) (off : BitVec 16) (s1 x : State), (issued s c.val 4 = some s1) ∧
      (storedAt s1 c.val .write (shortAddr (s1.core c.val) off) (sizeBytes size) ((gpr (s1.core c.val) rs).toNat % 2 ^ (8 *
      sizeBytes size)) = some x) ∧ (offGate c.val ((s1.core c.val).pc + 4#32) = true)) :=
  ⟨⟨running (tinyW []), 3, .wide 1 2 0x200#16, running (tinyW []), (0, running (tinyW [])), by decide +kernel,
    by decide +kernel, by decide +kernel⟩,
   ⟨running (tinyW []), 3, .wide 1 2 0x200#16, running (tinyW []),
     { (running (tinyW [])) with merge := [⟨(tileLocalAddr 3 0x200) / 8, 15, 0, some 3⟩] }, by decide +kernel,
     by decide +kernel, by decide +kernel⟩,
   ⟨running (tinyW []), 3, 1, 2, 0x200#16, running (tinyW []), (0, running (tinyW [])), by decide +kernel, by decide +kernel,
     by decide +kernel⟩,
   ⟨running (tinyW []), 3, 1, 2, 0x200#16, running (tinyW []), (0, running (tinyW [])), by decide +kernel, by decide +kernel,
     by decide +kernel⟩,
   ⟨running (tinyW []), 3, 1, 2, 0x200#16, running (tinyW []), (0, running (tinyW [])), by decide +kernel, by decide +kernel,
     by decide +kernel⟩,
   ⟨running (tinyW []), 3, 1, 2, 0x200#16, running (tinyW []), (0, running (tinyW [])), by decide +kernel, by decide +kernel,
     by decide +kernel⟩,
   ⟨running (tinyW []), 3, 1, 2, 0x200#16, running (tinyW []),
     { (running (tinyW [])) with merge := [⟨(tileLocalAddr 3 0x200) / 8, 3, 0, some 3⟩] }, by decide +kernel,
     by decide +kernel, by decide +kernel⟩,
   ⟨running (tinyW []), 3, 1, 2, 0x200#16, running (tinyW []),
     { (running (tinyW [])) with merge := [⟨(tileLocalAddr 3 0x200) / 8, 1, 0, some 3⟩] }, by decide +kernel,
     by decide +kernel, by decide +kernel⟩,
   ⟨running (tinyW []), 3, 1, .half, 0x200#16, running (tinyW []), (0, running (tinyW [])), by decide +kernel,
     by decide +kernel, by decide +kernel⟩,
   ⟨running (tinyW []), 3, 1, .half, 0x200#16, running (tinyW []),
     { (running (tinyW [])) with merge := [⟨(tileLocalAddr 3 0x200) / 8, 3, 0, some 3⟩] }, by decide +kernel,
     by decide +kernel, by decide +kernel⟩⟩

theorem wit_CallReturnAndExceptionComplete :
    (∃ (s : State) (c : CoreId) (rt : Reg) (mask : BitVec 16) (s1 x : State), (issued s c.val 4 = some s1) ∧
      (mask.getLsbD 14 = false) ∧ ((gpr (s1.core c.val) rt).getLsbD 0 = false) ∧ ((gpr (s1.core c.val) spReg).toNat % 4 = 0) ∧
      (checkWords s1 c.val (gpr (s1.core c.val) spReg - BitVec.ofNat 32 (4 * ((maskRegs mask).length + 1))) ((maskRegs
      mask).length + 1) = none) ∧ (pushedAt s1 c.val (gpr (s1.core c.val) spReg - BitVec.ofNat 32 (4 * ((maskRegs mask).length
      + 1)))
       (((s1.core c.val).pc + 4#32) :: (maskRegs mask).map (gpr (s1.core c.val))) = some x) ∧
         (offGate c.val (gpr (s1.core c.val) rt) = true)) ∧
    (∃ (s : State) (c : CoreId) (mask : BitVec 16) (s1 x : State) (pc : Word) (vs : List Word), (issued s c.val 4 = some s1) ∧
      (mask.getLsbD 14 = false) ∧ ((gpr (s1.core c.val) spReg).toNat % 4 = 0) ∧
      (poppedAt s1 c.val (gpr (s1.core c.val) spReg) ((maskRegs mask).length + 1) = some (pc :: vs, x)) ∧
      (pc.getLsbD 0 = false) ∧ (offGate c.val pc = true)) ∧
    (∃ (s : State) (c : CoreId) (s1 x : State) (pc st : Word), (issued s c.val 2 = some s1) ∧ ((s1.core c.val).exdepth ≠ 0) ∧
      ((gpr (s1.core c.val) spReg).toNat % 4 = 0) ∧ (poppedAt s1 c.val (gpr (s1.core c.val) spReg) 2 = some ([pc, st], x)) ∧
      (pc.getLsbD 0 = false) ∧ (offGate c.val pc = true)) ∧
    (∃ (s : State) (c : CoreId) (n : BitVec 8) (s1 x : State), (issued s c.val 2 = some s1) ∧
      (framedAt s1 c.val ⟨8, 0, 0, n.toNat, true, false, 0⟩ ((s.core c.val).pc + 2#32) = some x)) ∧
    (∃ (s : State) (c : CoreId) (w : InstrWord) (s1 x : State), (isIllegal w = true) ∧
      (issued s c.val (illegalWidth w) = some s1) ∧ (framedAt s1 c.val (illegalTrap (illegalFaddr w)) (s.core c.val).pc = some
      x)) ∧
    (∃ (s : State) (c : CoreId) (p : Trap × State) (x : State), (mayIssue s c.val = true) ∧ (atGate s c.val = false) ∧
      (fetchTrap s c.val = some p) ∧ (framedAt p.2 c.val p.1 (returnPc p.1 (s.core c.val).pc 2) = some x)) ∧
    (∃ (s : State) (c : CoreId) (x : State), ((s.core c.val).run = .run) ∧ (irqDue s c.val = true) ∧
      (framedAt s c.val irqTrap (s.core c.val).pc = some x)) ∧
    (∃ (s : State) (c : CoreId) (s1 : State), (issued s c.val 2 = some s1) ∧ (irqPending s1 c.val = false)) ∧
    (∃ (s : State) (c : CoreId), ((s.core c.val).run = .wait) ∧ (irqPending s c.val = true) ∧
      (irqOpen (s.core c.val) = false) ∧ (s.cores.length = 36) ∧ (offGate c.val (s.core c.val).pc = true)) ∧
    (∃ (s : State) (c : CoreId) (s1 x : State), (issued s c.val 2 = some s1) ∧
      (flushMerge s1 (fun e => e.owner == some c.val) = x) ∧ (coreRuns x c.val = true) ∧ ((x.core c.val).ev = [])) ∧
    (∃ (s : State) (c : CoreId), ((s.core c.val).run = .fence) ∧ ((s.core c.val).ev = []) ∧ (s.merge = []) ∧
      (s.cores.length = 36) ∧ (offGate c.val (s.core c.val).pc = true)) :=
  ⟨⟨stacked (tinyW []), 3, 1, 0xA003#16, stacked (tinyW []), (pushedAt (stacked (tinyW [])) 3 0xFEC [0x104, 0, 0, 0, 0]).getD
    (stacked (tinyW [])), by decide +kernel, by decide +kernel, by decide +kernel, by decide +kernel, by decide +kernel,
    by decide +kernel, by decide +kernel⟩,
   ⟨stacked (tinyW []), 3, 0x8001#16, stacked (tinyW []), stacked (tinyW []), 0, [0, 0], by decide +kernel, by decide +kernel,
     by decide +kernel, by decide +kernel, by decide +kernel, by decide +kernel⟩,
   ⟨(stacked (tinyW [])).setCore 3 { (stacked (tinyW [])).core 3 with exdepth := 1 }, 3, (stacked (tinyW [])).setCore 3
     { (stacked (tinyW [])).core 3 with exdepth := 1 }, (stacked (tinyW [])).setCore 3
     { (stacked (tinyW [])).core 3 with exdepth := 1 }, 0, 0, by decide +kernel, by decide +kernel, by decide +kernel,
     by decide +kernel, by decide +kernel, by decide +kernel⟩,
   ⟨stacked (tinyW []), 3, 0xFF#8, stacked (tinyW []), (framedAt (stacked (tinyW [])) 3 ⟨8, 0, 0, 255, true, false, 0⟩
     0x102).getD (tinyW []), by decide +kernel, by decide +kernel⟩,
   ⟨stacked (tinyW []), 3, .half 0x7000#16, stacked (tinyW []), (framedAt (stacked (tinyW [])) 3 (illegalTrap 0x7000)
     0x100).getD (tinyW []), by decide +kernel, by decide +kernel, by decide +kernel⟩,
   ⟨(stacked (tinyW [])).setCore 3 { (stacked (tinyW [])).core 3 with pc := 0x100000 }, 3, (accTrap 3 .fetch 0x100000 false,
     (stacked (tinyW [])).setCore 3 { (stacked (tinyW [])).core 3 with pc := 0x100000 }), (framedAt ((stacked (tinyW
     [])).setCore 3 { (stacked (tinyW [])).core 3 with pc := 0x100000 }) 3 (accTrap 3 .fetch 0x100000 false) 0x100000).getD
     (tinyW []), by decide +kernel, by decide +kernel, by decide +kernel, by decide +kernel⟩,
   ⟨(stacked (tinyW [(R.TILE_CIRQ_DOORBELL 3, 1), (R.TILE_CIEN_DOORBELL 3, 1)])).setCore 3
     { (stacked (tinyW [])).core 3 with st := 0x300 }, 3, (framedAt ((stacked (tinyW [(R.TILE_CIRQ_DOORBELL 3, 1),
     (R.TILE_CIEN_DOORBELL 3, 1)])).setCore 3 { (stacked (tinyW [])).core 3 with st := 0x300 }) 3 irqTrap 0x100).getD (tinyW
     []), by decide +kernel, by decide +kernel, by decide +kernel⟩,
   ⟨running (tinyW []), 3, running (tinyW []), by decide +kernel, by decide +kernel⟩,
   ⟨(tinyW [(R.TILE_CIRQ_DOORBELL 3, 1), (R.TILE_CIEN_DOORBELL 3, 1)]).setCore 3
     { Core.tileReset with pc := 0x100, run := .wait }, 3, by decide +kernel, by decide +kernel, by decide +kernel,
     by decide +kernel, by decide +kernel⟩,
   ⟨running (tinyW []), 3, running (tinyW []), running (tinyW []), by decide +kernel, by decide +kernel, by decide +kernel,
     by decide +kernel⟩,
   ⟨(tinyW []).setCore 3 { Core.tileReset with pc := 0x100, run := .fence }, 3, by decide +kernel, by decide +kernel,
     by decide +kernel, by decide +kernel, by decide +kernel⟩⟩

theorem wit_CacheInstructionsComplete :
    (∃ (s : State) (c : CoreId) (ra : Reg) (s1 x : State) (g : Nat), (issued s c.val 4 = some s1) ∧
      (cacheLine s1 c.val .read (gpr (s1.core c.val) ra) = some g) ∧
      (x = (match findWay (s1.core c.val).dc (cacheSets c.val) g with | some e => cleanSlot s1 c.val e.1 | none => s1)) ∧
      (coreRuns x c.val = true)) ∧
    (∃ (s : State) (c : CoreId) (ra : Reg) (s1 x : State), (issued s c.val 4 = some s1) ∧
      (x = cleanSlot s1 c.val (wayOf c.val (gpr (s1.core c.val) ra))) ∧ (coreRuns x c.val = true)) ∧
    (∃ (s : State) (c : CoreId) (s1 x : State), (issued s c.val 4 = some s1) ∧ (x = cleanAll s1 c.val) ∧
      (coreRuns x c.val = true)) ∧
    (∃ (s : State) (c : CoreId) (ra : Reg) (s1 x : State) (g : Nat), (issued s c.val 4 = some s1) ∧
      (cacheLine s1 c.val .read (gpr (s1.core c.val) ra) = some g) ∧
      (x = (match findWay (s1.core c.val).dc (cacheSets c.val) g with | some e => dropSlot s1 c.val e.1 | none => s1)) ∧
      (coreRuns x c.val = true)) ∧
    (∃ (s : State) (c : CoreId) (ra : Reg) (s1 x : State), (issued s c.val 4 = some s1) ∧
      (x = dropSlot s1 c.val (wayOf c.val (gpr (s1.core c.val) ra))) ∧ (coreRuns x c.val = true)) ∧
    (∃ (s : State) (c : CoreId) (s1 x : State), (issued s c.val 4 = some s1) ∧ (x = (dropAll s1 c.val).raise (ccDcOk c.val)) ∧
      (coreRuns x c.val = true)) ∧
    (∃ (s : State) (c : CoreId) (ra : Reg) (s1 x : State) (g : Nat), (issued s c.val 4 = some s1) ∧
      (cacheLine s1 c.val .read (gpr (s1.core c.val) ra) = some g) ∧
      (x = (match findWay (s1.core c.val).dc (cacheSets c.val) g with | some e => dropSlot (cleanSlot s1 c.val e.1) c.val e.1 | none => s1))
      ∧ (coreRuns x c.val = true)) ∧
    (∃ (s : State) (c : CoreId) (ra : Reg) (s1 x : State), (issued s c.val 4 = some s1) ∧
      (x = dropSlot (cleanSlot s1 c.val (wayOf c.val (gpr (s1.core c.val) ra))) c.val (wayOf c.val (gpr (s1.core c.val) ra))) ∧
      (coreRuns x c.val = true)) ∧
    (∃ (s : State) (c : CoreId) (s1 x : State), (issued s c.val 4 = some s1) ∧
      (x = (dropAll (cleanAll s1 c.val) c.val).raise (ccDcOk c.val)) ∧ (coreRuns x c.val = true)) ∧
    (∃ (s : State) (c : CoreId) (ra : Reg) (s1 x : State) (g : Nat), (issued s c.val 4 = some s1) ∧
      (cacheLine s1 c.val .fetch (gpr (s1.core c.val) ra) = some g) ∧
      (x = (match findWay (s1.core c.val).ic (cacheSets c.val) g with | some e => dropISlot s1 c.val e.1 | none => s1)) ∧
      (coreRuns x c.val = true)) ∧
    (∃ (s : State) (c : CoreId) (ra : Reg) (s1 x : State), (issued s c.val 4 = some s1) ∧
      (x = dropISlot s1 c.val (wayOf c.val (gpr (s1.core c.val) ra))) ∧ (coreRuns x c.val = true)) ∧
    (∃ (s : State) (c : CoreId) (s1 x : State), (issued s c.val 4 = some s1) ∧ (x = (dropAllI s1 c.val).raise (ccIcOk c.val)) ∧
      (coreRuns x c.val = true)) :=
  ⟨⟨running (tinyW []), 3, 1, running (tinyW []), running (tinyW []), tileLocalAddr 3 0, by decide +kernel, by decide +kernel,
    by decide +kernel, by decide +kernel⟩,
   ⟨running (tinyW []), 3, 1, running (tinyW []), cleanSlot (running (tinyW [])) 3 0, by decide +kernel, by decide +kernel,
     by decide +kernel⟩,
   ⟨running (tinyW []), 3, running (tinyW []), cleanAll (running (tinyW [])) 3, by decide +kernel, by decide +kernel,
     by decide +kernel⟩,
   ⟨running (tinyW []), 3, 1, running (tinyW []), running (tinyW []), tileLocalAddr 3 0, by decide +kernel, by decide +kernel,
     by decide +kernel, by decide +kernel⟩,
   ⟨running (tinyW []), 3, 1, running (tinyW []), dropSlot (running (tinyW [])) 3 0, by decide +kernel, by decide +kernel,
     by decide +kernel⟩,
   ⟨running (tinyW []), 3, running (tinyW []), (dropAll (running (tinyW [])) 3).raise (ccDcOk 3), by decide +kernel,
     by decide +kernel, by decide +kernel⟩,
   ⟨running (tinyW []), 3, 1, running (tinyW []), running (tinyW []), tileLocalAddr 3 0, by decide +kernel, by decide +kernel,
     by decide +kernel, by decide +kernel⟩,
   ⟨running (tinyW []), 3, 1, running (tinyW []), dropSlot (cleanSlot (running (tinyW [])) 3 0) 3 0, by decide +kernel,
     by decide +kernel, by decide +kernel⟩,
   ⟨running (tinyW []), 3, running (tinyW []), (dropAll (cleanAll (running (tinyW [])) 3) 3).raise (ccDcOk 3),
     by decide +kernel, by decide +kernel, by decide +kernel⟩,
   ⟨running (tinyW []), 3, 1, running (tinyW []), running (tinyW []), tileLocalAddr 3 0, by decide +kernel, by decide +kernel,
     by decide +kernel, by decide +kernel⟩,
   ⟨running (tinyW []), 3, 1, running (tinyW []), dropISlot (running (tinyW [])) 3 0, by decide +kernel, by decide +kernel,
     by decide +kernel⟩,
   ⟨running (tinyW []), 3, running (tinyW []), (dropAllI (running (tinyW [])) 3).raise (ccIcOk 3), by decide +kernel,
     by decide +kernel, by decide +kernel⟩⟩

theorem wit_GateRoutineComplete :
    (∃ (s : State) (c : CoreId)  (r : Nat × Nat × State) (sp : Word), (32 ≤ c.val) ∧ (mayIssue s c.val = true) ∧
      ((s.core c.val).pc = gateEntry) ∧ ((gpr (s.core c.val) 0).toNat = 1) ∧ (r = gateErase s (gateArg (s.core c.val))) ∧
      (coreRuns r.2.2 c.val = true) ∧ (sp = gpr (r.2.2.core c.val) spReg) ∧ (sp.toNat % 4 = 0) ∧ (sp.toNat + 4 ≤ 0x400000) ∧
      ((segCheck (r.2.2.core c.val) .stackRead sp 4).isSome = true) ∧ (targetOf r.2.2 (houseBase + sp.toNat) = .house) ∧
      (r.2.2.flag (ccDcEn c.val) = false) ∧ ((r.2.2.core c.val).ev = []) ∧ (r.2.2.ecc.syn = []) ∧ (r.2.2.dramBad = []) ∧
      (r.2.2.memNat (houseBase + sp.toNat) 4 % 2 = 0)) ∧
    (∃ (s : State) (c : CoreId)  (r : Nat × Nat × State) (sp : Word), (32 ≤ c.val) ∧ (mayIssue s c.val = true) ∧
      ((s.core c.val).pc = gateEntry) ∧ ((gpr (s.core c.val) 0).toNat = 2) ∧
      (r = gateProgram s (gateArg (s.core c.val)) (gateSrc (s.core c.val))) ∧ (coreRuns r.2.2 c.val = true) ∧
      (sp = gpr (r.2.2.core c.val) spReg) ∧ (sp.toNat % 4 = 0) ∧ (sp.toNat + 4 ≤ 0x400000) ∧
      ((segCheck (r.2.2.core c.val) .stackRead sp 4).isSome = true) ∧ (targetOf r.2.2 (houseBase + sp.toNat) = .house) ∧
      (r.2.2.flag (ccDcEn c.val) = false) ∧ ((r.2.2.core c.val).ev = []) ∧ (r.2.2.ecc.syn = []) ∧ (r.2.2.dramBad = []) ∧
      (r.2.2.memNat (houseBase + sp.toNat) 4 % 2 = 0)) ∧
    (∃ (s : State) (c : CoreId) (fault ok : Bool) (r : Nat × Nat × State) (sp : Word), (32 ≤ c.val) ∧
      (mayIssue s c.val = true) ∧ ((s.core c.val).pc = gateEntry) ∧ ((gpr (s.core c.val) 0).toNat = 3) ∧
      (r = gateCommit s (gateArg (s.core c.val)) (gateSrc (s.core c.val)) fault ok) ∧ (coreRuns r.2.2 c.val = true) ∧
      (sp = gpr (r.2.2.core c.val) spReg) ∧ (sp.toNat % 4 = 0) ∧ (sp.toNat + 4 ≤ 0x400000) ∧
      ((segCheck (r.2.2.core c.val) .stackRead sp 4).isSome = true) ∧ (targetOf r.2.2 (houseBase + sp.toNat) = .house) ∧
      (r.2.2.flag (ccDcEn c.val) = false) ∧ ((r.2.2.core c.val).ev = []) ∧ (r.2.2.ecc.syn = []) ∧ (r.2.2.dramBad = []) ∧
      (r.2.2.memNat (houseBase + sp.toNat) 4 % 2 = 0)) ∧
    (∃ (s : State) (c : CoreId) (fault ok : Bool) (r : Nat × Nat × State) (sp : Word), (32 ≤ c.val) ∧
      (mayIssue s c.val = true) ∧ ((s.core c.val).pc = gateEntry) ∧ ((gpr (s.core c.val) 0).toNat = 4) ∧
      (r = gateActivate s (gateArg (s.core c.val)) fault ok) ∧ (coreRuns r.2.2 c.val = true) ∧
      (sp = gpr (r.2.2.core c.val) spReg) ∧ (sp.toNat % 4 = 0) ∧ (sp.toNat + 4 ≤ 0x400000) ∧
      ((segCheck (r.2.2.core c.val) .stackRead sp 4).isSome = true) ∧ (targetOf r.2.2 (houseBase + sp.toNat) = .house) ∧
      (r.2.2.flag (ccDcEn c.val) = false) ∧ ((r.2.2.core c.val).ev = []) ∧ (r.2.2.ecc.syn = []) ∧ (r.2.2.dramBad = []) ∧
      (r.2.2.memNat (houseBase + sp.toNat) 4 % 2 = 0)) ∧
    (∃ (s : State) (c : CoreId) (ok0 ok1 : Bool) (r : Nat × Nat × State) (sp : Word), (32 ≤ c.val) ∧
      (mayIssue s c.val = true) ∧ ((s.core c.val).pc = gateEntry) ∧ ((gpr (s.core c.val) 0).toNat = 5) ∧
      (r = gateGrown s (gateArg (s.core c.val)) ok0 ok1) ∧ (coreRuns r.2.2 c.val = true) ∧
      (sp = gpr (r.2.2.core c.val) spReg) ∧ (sp.toNat % 4 = 0) ∧ (sp.toNat + 4 ≤ 0x400000) ∧
      ((segCheck (r.2.2.core c.val) .stackRead sp 4).isSome = true) ∧ (targetOf r.2.2 (houseBase + sp.toNat) = .house) ∧
      (r.2.2.flag (ccDcEn c.val) = false) ∧ ((r.2.2.core c.val).ev = []) ∧ (r.2.2.ecc.syn = []) ∧ (r.2.2.dramBad = []) ∧
      (r.2.2.memNat (houseBase + sp.toNat) 4 % 2 = 0)) :=
  ⟨⟨(tinyW []).setCore 32 { Core.houseReset with run := .run, pc := 0x800100, w := [(0, 1), (14, 0x1000)] }, 32, gateErase
    ((tinyW []).setCore 32 { Core.houseReset with run := .run, pc := 0x800100, w := [(0, 1), (14, 0x1000)] }) (gateArg (((tinyW
    []).setCore 32 { Core.houseReset with run := .run, pc := 0x800100, w := [(0, 1), (14, 0x1000)] }).core 32)), 0x1000,
    by decide +kernel, by decide +kernel, by decide +kernel, by decide +kernel, by decide +kernel, by decide +kernel,
    by decide +kernel, by decide +kernel, by decide +kernel, by decide +kernel, by decide +kernel, by decide +kernel,
    by decide +kernel, by decide +kernel, by decide +kernel, by decide +kernel⟩,
   ⟨(tinyW []).setCore 32 { Core.houseReset with run := .run, pc := 0x800100, w := [(0, 2), (14, 0x1000)] }, 32, gateProgram
     ((tinyW []).setCore 32 { Core.houseReset with run := .run, pc := 0x800100, w := [(0, 2), (14, 0x1000)] }) (gateArg
     (((tinyW []).setCore 32 { Core.houseReset with run := .run, pc := 0x800100, w := [(0, 2), (14, 0x1000)] }).core 32))
     (gateSrc (((tinyW []).setCore 32 { Core.houseReset with run := .run, pc := 0x800100, w := [(0, 2), (14, 0x1000)] }).core
     32)), 0x1000, by decide +kernel, by decide +kernel, by decide +kernel, by decide +kernel, by decide +kernel,
     by decide +kernel, by decide +kernel, by decide +kernel, by decide +kernel, by decide +kernel, by decide +kernel,
     by decide +kernel, by decide +kernel, by decide +kernel, by decide +kernel, by decide +kernel⟩,
   ⟨(tinyW []).setCore 32 { Core.houseReset with run := .run, pc := 0x800100, w := [(0, 3), (14, 0x1000)] }, 32, false, true,
     gateCommit ((tinyW []).setCore 32 { Core.houseReset with run := .run, pc := 0x800100, w := [(0, 3), (14, 0x1000)] })
     (gateArg (((tinyW []).setCore 32 { Core.houseReset with run := .run, pc := 0x800100, w := [(0, 3), (14, 0x1000)] }).core
     32)) (gateSrc (((tinyW []).setCore 32
     { Core.houseReset with run := .run, pc := 0x800100, w := [(0, 3), (14, 0x1000)] }).core 32)) false true, 0x1000,
     by decide +kernel, by decide +kernel, by decide +kernel, by decide +kernel, by decide +kernel, by decide +kernel,
     by decide +kernel, by decide +kernel, by decide +kernel, by decide +kernel, by decide +kernel, by decide +kernel,
     by decide +kernel, by decide +kernel, by decide +kernel, by decide +kernel⟩,
   ⟨(tinyW []).setCore 32 { Core.houseReset with run := .run, pc := 0x800100, w := [(0, 4), (14, 0x1000)] }, 32, false, true,
     gateActivate ((tinyW []).setCore 32 { Core.houseReset with run := .run, pc := 0x800100, w := [(0, 4), (14, 0x1000)] })
     (gateArg (((tinyW []).setCore 32 { Core.houseReset with run := .run, pc := 0x800100, w := [(0, 4), (14, 0x1000)] }).core
     32)) false true, 0x1000, by decide +kernel, by decide +kernel, by decide +kernel, by decide +kernel, by decide +kernel,
     by decide +kernel, by decide +kernel, by decide +kernel, by decide +kernel, by decide +kernel, by decide +kernel,
     by decide +kernel, by decide +kernel, by decide +kernel, by decide +kernel, by decide +kernel⟩,
   ⟨(tinyW []).setCore 32 { Core.houseReset with run := .run, pc := 0x800100, w := [(0, 5), (14, 0x1000)] }, 32, true, true,
     gateGrown ((tinyW []).setCore 32 { Core.houseReset with run := .run, pc := 0x800100, w := [(0, 5), (14, 0x1000)] })
     (gateArg (((tinyW []).setCore 32 { Core.houseReset with run := .run, pc := 0x800100, w := [(0, 5), (14, 0x1000)] }).core
     32)) true true, 0x1000, by decide +kernel, by decide +kernel, by decide +kernel, by decide +kernel, by decide +kernel,
     by decide +kernel, by decide +kernel, by decide +kernel, by decide +kernel, by decide +kernel, by decide +kernel,
     by decide +kernel, by decide +kernel, by decide +kernel, by decide +kernel, by decide +kernel⟩⟩

theorem wit_MarionetteLaneStepsComplete :
    (∃ (s : State) (ti : TileId) (st : Step) (s1 s2 : State), (dueAs s ti.val 0x00 = some st) ∧ (s1 = s) ∧
      (puttable s1 ti.val st ({ plain ((s1.tile ti.val).mari) 0 0 with zero := true }) = some s2)) ∧
    (∃ (s : State) (ti : TileId) (st : Step) (a : Nat × Nat) (s1 s2 : State), (dueAs s ti.val 0x01 = some st) ∧
      (gotOf (readSrc s ti.val st st.srca) = some (a, s1)) ∧ (puttable s1 ti.val st (plain ((s1.tile ti.val).mari) a.1 a.2) =
      some s2)) ∧
    (∃ (s : State) (ti : TileId) (st : Step) (a b : Nat × Nat) (s1 s2 : State), (dueAs s ti.val 0x02 = some st) ∧
      (gotOf (readAB s ti.val st) = some ((a, b), s1)) ∧ (puttable s1 ti.val st
      ({ plain ((s1.tile ti.val).mari) (packLanes st.w (narrowAll st st.w (List.zipWith (fun p q => (fun x y : Int => x + y) (laneVal st.sgn st.w p) (laneVal st.sgn st.w q)) (lanesOf st.w a.1 st.lanes) (lanesOf st.w b.1 st.lanes))).1) (tagAB st a.2 b.2) with clamped := (narrowAll st st.w (List.zipWith (fun p q => (fun x y : Int => x + y) (laneVal st.sgn st.w p) (laneVal st.sgn st.w q)) (lanesOf st.w a.1 st.lanes) (lanesOf st.w b.1 st.lanes))).2 })
      = some s2)) ∧
    (∃ (s : State) (ti : TileId) (st : Step) (a b : Nat × Nat) (s1 s2 : State), (dueAs s ti.val 0x03 = some st) ∧
      (gotOf (readAB s ti.val st) = some ((a, b), s1)) ∧ (puttable s1 ti.val st
      ({ plain ((s1.tile ti.val).mari) (packLanes st.w (narrowAll st st.w (List.zipWith (fun p q => (fun x y : Int => x - y) (laneVal st.sgn st.w p) (laneVal st.sgn st.w q)) (lanesOf st.w a.1 st.lanes) (lanesOf st.w b.1 st.lanes))).1) (tagAB st a.2 b.2) with clamped := (narrowAll st st.w (List.zipWith (fun p q => (fun x y : Int => x - y) (laneVal st.sgn st.w p) (laneVal st.sgn st.w q)) (lanesOf st.w a.1 st.lanes) (lanesOf st.w b.1 st.lanes))).2 })
      = some s2)) ∧
    (∃ (s : State) (ti : TileId) (st : Step) (a b : Nat × Nat) (s1 s2 : State), (dueAs s ti.val 0x04 = some st) ∧
      (gotOf (readAB s ti.val st) = some ((a, b), s1)) ∧ (puttable s1 ti.val st
      ({ plain ((s1.tile ti.val).mari) (packLanes st.w (narrowAll st st.w (List.zipWith (fun p q => (fun x y : Int => min x y) (laneVal st.sgn st.w p) (laneVal st.sgn st.w q)) (lanesOf st.w a.1 st.lanes) (lanesOf st.w b.1 st.lanes))).1) (tagAB st a.2 b.2) with clamped := (narrowAll st st.w (List.zipWith (fun p q => (fun x y : Int => min x y) (laneVal st.sgn st.w p) (laneVal st.sgn st.w q)) (lanesOf st.w a.1 st.lanes) (lanesOf st.w b.1 st.lanes))).2 })
      = some s2)) ∧
    (∃ (s : State) (ti : TileId) (st : Step) (a b : Nat × Nat) (s1 s2 : State), (dueAs s ti.val 0x05 = some st) ∧
      (gotOf (readAB s ti.val st) = some ((a, b), s1)) ∧ (puttable s1 ti.val st
      ({ plain ((s1.tile ti.val).mari) (packLanes st.w (narrowAll st st.w (List.zipWith (fun p q => (fun x y : Int => max x y) (laneVal st.sgn st.w p) (laneVal st.sgn st.w q)) (lanesOf st.w a.1 st.lanes) (lanesOf st.w b.1 st.lanes))).1) (tagAB st a.2 b.2) with clamped := (narrowAll st st.w (List.zipWith (fun p q => (fun x y : Int => max x y) (laneVal st.sgn st.w p) (laneVal st.sgn st.w q)) (lanesOf st.w a.1 st.lanes) (lanesOf st.w b.1 st.lanes))).2 })
      = some s2)) ∧
    (∃ (s : State) (ti : TileId) (st : Step) (a b : Nat × Nat) (s1 s2 : State), (dueAs s ti.val 0x06 = some st) ∧
      (gotOf (readAB s ti.val st) = some ((a, b), s1)) ∧ (puttable s1 ti.val st (plain ((s1.tile ti.val).mari) (a.1 &&& b.1)
      (tagAB st a.2 b.2)) = some s2)) ∧
    (∃ (s : State) (ti : TileId) (st : Step) (a b : Nat × Nat) (s1 s2 : State), (dueAs s ti.val 0x07 = some st) ∧
      (gotOf (readAB s ti.val st) = some ((a, b), s1)) ∧ (puttable s1 ti.val st (plain ((s1.tile ti.val).mari) (a.1 ||| b.1)
      (tagAB st a.2 b.2)) = some s2)) ∧
    (∃ (s : State) (ti : TileId) (st : Step) (a b : Nat × Nat) (s1 s2 : State), (dueAs s ti.val 0x08 = some st) ∧
      (gotOf (readAB s ti.val st) = some ((a, b), s1)) ∧ (puttable s1 ti.val st (plain ((s1.tile ti.val).mari) (a.1 ^^^ b.1)
      (tagAB st a.2 b.2)) = some s2)) ∧
    (∃ (s : State) (ti : TileId) (st : Step) (a b : Nat × Nat) (s1 s2 : State), (dueAs s ti.val 0x09 = some st) ∧
      (gotOf (readAB s ti.val st) = some ((a, b), s1)) ∧ (puttable s1 ti.val st (maskExec s1 ti.val st (List.zipWith (fun p q
      => (fun x y : Int => decide (y < x)) (laneVal st.sgn st.w p) (laneVal st.sgn st.w q)) (lanesOf st.w a.1 st.lanes)
      (lanesOf st.w b.1 st.lanes)) ((List.zipWith (fun p q => (fun x y : Int => decide (y < x)) (laneVal st.sgn st.w p)
      (laneVal st.sgn st.w q)) (lanesOf st.w a.1 st.lanes) (lanesOf st.w b.1 st.lanes)).map (fun k => if k then 2 ^ (8 * st.w)
      - 1 else 0)) (tagAB st a.2 b.2)) = some s2)) ∧
    (∃ (s : State) (ti : TileId) (st : Step) (a b : Nat × Nat) (s1 s2 : State), (dueAs s ti.val 0x0A = some st) ∧
      (gotOf (readAB s ti.val st) = some ((a, b), s1)) ∧ (puttable s1 ti.val st (maskExec s1 ti.val st (List.zipWith (fun p q
      => (fun x y : Int => decide (y ≤ x)) (laneVal st.sgn st.w p) (laneVal st.sgn st.w q)) (lanesOf st.w a.1 st.lanes)
      (lanesOf st.w b.1 st.lanes)) ((List.zipWith (fun p q => (fun x y : Int => decide (y ≤ x)) (laneVal st.sgn st.w p)
      (laneVal st.sgn st.w q)) (lanesOf st.w a.1 st.lanes) (lanesOf st.w b.1 st.lanes)).map (fun k => if k then 2 ^ (8 * st.w)
      - 1 else 0)) (tagAB st a.2 b.2)) = some s2)) ∧
    (∃ (s : State) (ti : TileId) (st : Step) (a b : Nat × Nat) (s1 s2 : State), (dueAs s ti.val 0x0B = some st) ∧
      (gotOf (readAB s ti.val st) = some ((a, b), s1)) ∧ (puttable s1 ti.val st (maskExec s1 ti.val st (List.zipWith (fun p q
      => (fun x y : Int => decide (x = y)) (laneVal st.sgn st.w p) (laneVal st.sgn st.w q)) (lanesOf st.w a.1 st.lanes)
      (lanesOf st.w b.1 st.lanes)) ((List.zipWith (fun p q => (fun x y : Int => decide (x = y)) (laneVal st.sgn st.w p)
      (laneVal st.sgn st.w q)) (lanesOf st.w a.1 st.lanes) (lanesOf st.w b.1 st.lanes)).map (fun k => if k then 2 ^ (8 * st.w)
      - 1 else 0)) (tagAB st a.2 b.2)) = some s2)) ∧
    (∃ (s : State) (ti : TileId) (st : Step) (a : Nat × Nat) (s1 s2 : State), (dueAs s ti.val 0x0C = some st) ∧
      (gotOf (readSrc s ti.val st st.srca) = some (a, s1)) ∧ (puttable s1 ti.val st (maskExec s1 ti.val st ((lanesOf st.w a.1
      st.lanes).map (fun x => decide ((fun (x : Nat) => if st.lw = 0 then laneVal st.sgn 1 (x % 256) else laneVal st.sgn 2 x)
      (st.imm % 65536) ≤ laneVal st.sgn st.w x ∧ laneVal st.sgn st.w x ≤ (fun (x : Nat) => if st.lw = 0 then laneVal st.sgn 1
      (x % 256) else laneVal st.sgn 2 x) (st.imm / 65536)))) (List.zipWith (fun x (k : Bool) => if k then x else 0) (lanesOf
      st.w a.1 st.lanes) ((lanesOf st.w a.1 st.lanes).map (fun x => decide ((fun (x : Nat) => if st.lw = 0 then laneVal st.sgn
      1 (x % 256) else laneVal st.sgn 2 x) (st.imm % 65536) ≤ laneVal st.sgn st.w x ∧
      laneVal st.sgn st.w x ≤ (fun (x : Nat) => if st.lw = 0 then laneVal st.sgn 1 (x % 256) else laneVal st.sgn 2 x) (st.imm /
      65536))))) a.2) = some s2)) ∧
    (∃ (s : State) (ti : TileId) (st : Step) (a b : Nat × Nat) (s1 s2 : State), (dueAs s ti.val 0x0D = some st) ∧
      (gotOf (readAB s ti.val st) = some ((a, b), s1)) ∧ (puttable s1 ti.val st (plain ((s1.tile ti.val).mari) (packLanes st.w
      ((List.range st.lanes).map (fun i => bitsOf (if (maskOf s1 ti.val st.msel).testBit i then a.1 else b.1) (8 * st.w * i) (8
      * st.w)))) (tagAB st a.2 b.2)) = some s2)) ∧
    (∃ (s : State) (ti : TileId) (st : Step) (a : Nat × Nat) (s1 s2 : State), (dueAs s ti.val 0x0E = some st) ∧
      (gotOf (readSrc s ti.val st st.srca) = some (a, s1)) ∧ (puttable s1 ti.val st
      ({ plain ((s1.tile ti.val).mari) (packLanes st.w (narrowAll st st.w ((lanesOf st.w a.1 st.lanes).map (fun x => laneVal st.sgn st.w x * ((2 ^ st.sh : Nat) : Int)))).1) a.2 with clamped := (narrowAll st st.w ((lanesOf st.w a.1 st.lanes).map (fun x => laneVal st.sgn st.w x * ((2 ^ st.sh : Nat) : Int)))).2 })
      = some s2)) ∧
    (∃ (s : State) (ti : TileId) (st : Step) (a : Nat × Nat) (s1 s2 : State), (dueAs s ti.val 0x0F = some st) ∧
      (gotOf (readSrc s ti.val st st.srca) = some (a, s1)) ∧ (puttable s1 ti.val st
      ({ plain ((s1.tile ti.val).mari) (packLanes st.w (narrowAll st st.w ((lanesOf st.w a.1 st.lanes).map (fun x => laneVal st.sgn st.w x / ((2 ^ st.sh : Nat) : Int)))).1) a.2 with clamped := (narrowAll st st.w ((lanesOf st.w a.1 st.lanes).map (fun x => laneVal st.sgn st.w x / ((2 ^ st.sh : Nat) : Int)))).2 })
      = some s2)) ∧
    (∃ (s : State) (ti : TileId) (st : Step) (a b : Nat × Nat) (s1 s2 : State), (dueAs s ti.val 0x10 = some st) ∧
      (gotOf (readAB s ti.val st) = some ((a, b), s1)) ∧ (puttable s1 ti.val st
      ({ plain ((s1.tile ti.val).mari) (packLanes (st.w / 2) (narrowAll st (st.w / 2) (((lanesOf st.w a.1 st.lanes) ++ (lanesOf st.w b.1 st.lanes)).map (fun x => laneVal st.sgn st.w x / ((2 ^ st.sh : Nat) : Int)))).1) (tagAB st a.2 b.2) with clamped := (narrowAll st (st.w / 2) (((lanesOf st.w a.1 st.lanes) ++ (lanesOf st.w b.1 st.lanes)).map (fun x => laneVal st.sgn st.w x / ((2 ^ st.sh : Nat) : Int)))).2 })
      = some s2)) :=
  ⟨⟨puppet (tinyW []) (stepWord 0), 3, stepOf (stepWord 0), (puppet (tinyW []) (stepWord 0)), (puppet (tinyW []) (stepWord 0)),
    by decide +kernel, by decide +kernel, by decide +kernel⟩,
   ⟨puppet (tinyW []) (stepWord 1), 3, stepOf (stepWord 1), (5, 0), (puppet (tinyW []) (stepWord 1)), (puppet (tinyW [])
     (stepWord 1)), by decide +kernel, by decide +kernel, by decide +kernel⟩,
   ⟨puppet (tinyW []) (stepWord 2), 3, stepOf (stepWord 2), (5, 0), (7, 0), (puppet (tinyW []) (stepWord 2)), (puppet (tinyW
     []) (stepWord 2)), by decide +kernel, by decide +kernel, by decide +kernel⟩,
   ⟨puppet (tinyW []) (stepWord 3), 3, stepOf (stepWord 3), (5, 0), (7, 0), (puppet (tinyW []) (stepWord 3)), (puppet (tinyW
     []) (stepWord 3)), by decide +kernel, by decide +kernel, by decide +kernel⟩,
   ⟨puppet (tinyW []) (stepWord 4), 3, stepOf (stepWord 4), (5, 0), (7, 0), (puppet (tinyW []) (stepWord 4)), (puppet (tinyW
     []) (stepWord 4)), by decide +kernel, by decide +kernel, by decide +kernel⟩,
   ⟨puppet (tinyW []) (stepWord 5), 3, stepOf (stepWord 5), (5, 0), (7, 0), (puppet (tinyW []) (stepWord 5)), (puppet (tinyW
     []) (stepWord 5)), by decide +kernel, by decide +kernel, by decide +kernel⟩,
   ⟨puppet (tinyW []) (stepWord 6), 3, stepOf (stepWord 6), (5, 0), (7, 0), (puppet (tinyW []) (stepWord 6)), (puppet (tinyW
     []) (stepWord 6)), by decide +kernel, by decide +kernel, by decide +kernel⟩,
   ⟨puppet (tinyW []) (stepWord 7), 3, stepOf (stepWord 7), (5, 0), (7, 0), (puppet (tinyW []) (stepWord 7)), (puppet (tinyW
     []) (stepWord 7)), by decide +kernel, by decide +kernel, by decide +kernel⟩,
   ⟨puppet (tinyW []) (stepWord 8), 3, stepOf (stepWord 8), (5, 0), (7, 0), (puppet (tinyW []) (stepWord 8)), (puppet (tinyW
     []) (stepWord 8)), by decide +kernel, by decide +kernel, by decide +kernel⟩,
   ⟨puppet (tinyW []) (stepWord 9), 3, stepOf (stepWord 9), (5, 0), (7, 0), (puppet (tinyW []) (stepWord 9)), (puppet (tinyW
     []) (stepWord 9)), by decide +kernel, by decide +kernel, by decide +kernel⟩,
   ⟨puppet (tinyW []) (stepWord 10), 3, stepOf (stepWord 10), (5, 0), (7, 0), (puppet (tinyW []) (stepWord 10)), (puppet (tinyW
     []) (stepWord 10)), by decide +kernel, by decide +kernel, by decide +kernel⟩,
   ⟨puppet (tinyW []) (stepWord 11), 3, stepOf (stepWord 11), (5, 0), (7, 0), (puppet (tinyW []) (stepWord 11)), (puppet (tinyW
     []) (stepWord 11)), by decide +kernel, by decide +kernel, by decide +kernel⟩,
   ⟨puppet (tinyW []) (stepWord 12), 3, stepOf (stepWord 12), (5, 0), (puppet (tinyW []) (stepWord 12)), (puppet (tinyW [])
     (stepWord 12)), by decide +kernel, by decide +kernel, by decide +kernel⟩,
   ⟨puppet (tinyW []) (stepWord 13), 3, stepOf (stepWord 13), (5, 0), (7, 0), (puppet (tinyW []) (stepWord 13)), (puppet (tinyW
     []) (stepWord 13)), by decide +kernel, by decide +kernel, by decide +kernel⟩,
   ⟨puppet (tinyW []) (stepWord 14), 3, stepOf (stepWord 14), (5, 0), (puppet (tinyW []) (stepWord 14)), (puppet (tinyW [])
     (stepWord 14)), by decide +kernel, by decide +kernel, by decide +kernel⟩,
   ⟨puppet (tinyW []) (stepWord 15), 3, stepOf (stepWord 15), (5, 0), (puppet (tinyW []) (stepWord 15)), (puppet (tinyW [])
     (stepWord 15)), by decide +kernel, by decide +kernel, by decide +kernel⟩,
   ⟨puppet (tinyW []) (stepWord 16 + 2 ^ 6), 3, stepOf (stepWord 16 + 2 ^ 6), (5, 0), (7, 0), (puppet (tinyW []) (stepWord 16 +
     2 ^ 6)), (puppet (tinyW []) (stepWord 16 + 2 ^ 6)), by decide +kernel, by decide +kernel, by decide +kernel⟩⟩

end Sys2Proof.Machine
end

