-- ==== Sys2Proof/Tests/Witness2.lean ====
section
/-! SUPPORT. Sys2Proof/Tests/Witness2.lean: for every clause of a statement that has hypotheses, a state and operands that meet
all of them together. -/

set_option Elab.async false
set_option linter.unusedVariables false
set_option maxRecDepth 20000

namespace Sys2Proof.Machine

theorem wit_MarionetteCountsAndRunsComplete :
    (∃ (s : State) (ti : TileId) (st : Step) (s1 s2 : State), (dueAs s ti.val 0x11 = some st) ∧ (s1 = s) ∧
      (puttable s1 ti.val st
      ({ plain ((s1.tile ti.val).mari) (packLanes st.w (List.replicate st.lanes (min (popBits (maskOf s1 ti.val st.msel) st.lanes) (2 ^ (8 * st.w) - 1)))) 0 with zero := (popBits (maskOf s1 ti.val st.msel) st.lanes) == 0, acc := some ((s1.fld (R.TILE_MACC_ACC ti.val) + (popBits (maskOf s1 ti.val st.msel) st.lanes)) % 2 ^ 32) })
      = some s2)) ∧
    (∃ (s : State) (ti : TileId) (st : Step) (a : Nat × Nat) (s1 s2 : State), (dueAs s ti.val 0x12 = some st) ∧
      (gotOf (readSrc s ti.val st st.srca) = some (a, s1)) ∧ (puttable s1 ti.val st
      ({ plain { ((s1.tile ti.val).mari) with carry := unsignedOf (laneVal st.sgn st.w ((narrowAll st st.w (prefixSums (laneVal st.sgn 4 (if ((s1.tile ti.val).mari).fresh ∧ st.imm % 2 = 0 then 0 else ((s1.tile ti.val).mari).carry)) ((lanesOf st.w a.1 st.lanes).map (laneVal st.sgn st.w)))).1.getLast?.getD 0)) 32 } (packLanes st.w (narrowAll st st.w (prefixSums (laneVal st.sgn 4 (if ((s1.tile ti.val).mari).fresh ∧ st.imm % 2 = 0 then 0 else ((s1.tile ti.val).mari).carry)) ((lanesOf st.w a.1 st.lanes).map (laneVal st.sgn st.w)))).1) a.2 with clamped := (narrowAll st st.w (prefixSums (laneVal st.sgn 4 (if ((s1.tile ti.val).mari).fresh ∧ st.imm % 2 = 0 then 0 else ((s1.tile ti.val).mari).carry)) ((lanesOf st.w a.1 st.lanes).map (laneVal st.sgn st.w)))).2 })
      = some s2)) ∧
    (∃ (s : State) (ti : TileId) (st : Step) (a : Nat × Nat) (s1 s2 : State), (dueAs s ti.val 0x13 = some st) ∧
      (gotOf (readSrc s ti.val st st.srca) = some (a, s1)) ∧ (puttable s1 ti.val st
      ({ plain ((s1.tile ti.val).mari) (packLanes st.w ((selected (maskOf s1 ti.val st.msel) (lanesOf st.w a.1 st.lanes)).map Prod.snd)) a.2 with bytes := some ((((selected (maskOf s1 ti.val st.msel) (lanesOf st.w a.1 st.lanes)).map Prod.snd).map (leBytes st.w)).flatten), zero := ((selected (maskOf s1 ti.val st.msel) (lanesOf st.w a.1 st.lanes)).map Prod.snd).isEmpty })
      = some s2)) ∧
    (∃ (s : State) (ti : TileId) (st : Step) (a : Nat × Nat) (s1 s2 : State), (dueAs s ti.val 0x14 = some st) ∧
      (gotOf (readSrc s ti.val st st.srca) = some (a, s1)) ∧ (puttable s1 ti.val st
      ({ plain ((s1.tile ti.val).mari) 0 a.2 with bytes := some (((selected (maskOf s1 ti.val st.msel) (lanesOf st.w a.1 st.lanes)).map (fun e => leBytes 4 ((a.2 + e.1) % 2 ^ 32) ++ leBytes 4 (unsignedOf (laneVal st.sgn st.w e.2) 32))).flatten), zero := (selected (maskOf s1 ti.val st.msel) (lanesOf st.w a.1 st.lanes)).isEmpty })
      = some s2)) ∧
    (∃ (s : State) (ti : TileId) (st : Step) (a : Nat × Nat) (s1 s2 : State) (hov : Bool) (xs : List (Nat × Nat)), (dueAs s
      ti.val 0x15 = some st) ∧ (gotOf (readSrc s ti.val st st.srca) = some (a, s1)) ∧
      (xs = ((List.range st.lanes).zip (lanesOf st.w a.1 st.lanes)).filter (fun e => !st.mu || (maskOf s1 ti.val
      st.msel).testBit e.1)) ∧ (gotOf (histBins s1 ti.val (st.imm % 2 ^ 20) false (xs.map (fun e => min (e.2 / 2 ^ st.sh)
      (st.imm / 2 ^ 20)))) = some (hov, s2)) ∧ (st.dst ≠ 8 ∧ st.dst ≠ 9)) ∧
    (∃ (s : State) (ti : TileId) (st : Step) (tag : Nat) (rw : Rows) (m : Mari) (s1 s2 : State), (dueAs s ti.val 0x16 = some
      st) ∧ (gotOf (readRaster s ti.val st) = some ((tag, some rw, m), s1)) ∧
      (puttable s1.fresh.2 ti.val st
      ({ plain m (packLanes st.w (narrowAll st st.w ((List.range st.lanes).map (fun i => (fun (k : Nat) => (nine rw st.w k).foldl (fun x y => x + (match y with | some v => laneVal st.sgn st.w v | none => 0)) (0 : Int)) (rw.col + i)))).1) tag with clamped := (narrowAll st st.w ((List.range st.lanes).map (fun i => (fun (k : Nat) => (nine rw st.w k).foldl (fun x y => x + (match y with | some v => laneVal st.sgn st.w v | none => 0)) (0 : Int)) (rw.col + i)))).2, nbout := true })
      = some s2)) ∧
    (∃ (s : State) (ti : TileId) (st : Step) (tag : Nat) (rw : Rows) (m : Mari) (s1 s2 : State), (dueAs s ti.val 0x17 = some
      st) ∧ (gotOf (readRaster s ti.val st) = some ((tag, some rw, m), s1)) ∧
      (puttable s1.fresh.2 ti.val st
      ({ maskExec s1 ti.val st (((List.range st.lanes).map (fun i => nine rw st.w (rw.col + i))).map (isLmax st.sgn st.w)) (((List.range st.lanes).map (fun i => nine rw st.w (rw.col + i))).map (fun x => ((x.getD 4 none).getD 0))) tag with m := m, nbout := true })
      = some s2)) ∧
    (∃ (s : State) (ti : TileId) (st : Step) (a : Nat × Nat) (s1 s2 s3 : State) (xs : List Nat), (dueAs s ti.val 0x18 = some
      st) ∧ (gotOf (readSrc s ti.val st st.srca) = some (a, s1)) ∧
      (gotOf (gather s1 ti.val st.w ((lanesOf st.w a.1 st.lanes).map (fun x => st.imm + x * st.w))) = some (xs, s2)) ∧
      (puttable s2 ti.val st (plain (s2.tile ti.val).mari (packLanes st.w xs) a.2) = some s3)) ∧
    (∃ (s : State) (ti : TileId) (g n : Nat) (bs : List Byte) (s1 : State), (s.fld (R.TILE_MSTAT_MSTATE ti.val) = 1) ∧
      (g = tileLocalAddr ti.val (tableAddr s ti.val (s.fld (R.TILE_MSET_BASE ti.val) + 64) (s.tile ti.val).mari.tab)) ∧
      (n = s.memNat (g + 2) 2) ∧ (readRam s g (64 + 16 * n) = (bs, s1, none))) ∧
    (∃ (s : State) (ti : TileId) (code : Nat), ((s.tile ti.val).mari.ending = some code) ∧
      (s.fld (R.TILE_MSTAT_MSTATE ti.val) = 2) ∧ (codecWaiting (s.tile ti.val) = 0 ∧ kqTotal (s.tile ti.val) ≤ 4096)) ∧
    (∃ (s : State) (ti : TileId), (s.fld (R.TILE_MSTAT_MSTATE ti.val) = 2) ∧ ((s.tile ti.val).mari.ending = none) ∧
      ((s.tile ti.val).mari.budget ≠ 0) ∧ (s.fld (R.TILE_MEXEC_COUNT ti.val) = (s.tile ti.val).mari.budget)) :=
  ⟨⟨puppet (tinyW []) (stepWord 17), 3, stepOf (stepWord 17), (puppet (tinyW []) (stepWord 17)), (puppet (tinyW []) (stepWord
    17)), by decide +kernel, by decide +kernel, by decide +kernel⟩,
   ⟨puppet (tinyW []) (stepWord 18), 3, stepOf (stepWord 18), (5, 0), (puppet (tinyW []) (stepWord 18)), (puppet (tinyW [])
     (stepWord 18)), by decide +kernel, by decide +kernel, by decide +kernel⟩,
   ⟨puppet (tinyW []) (stepWord 19), 3, stepOf (stepWord 19), (5, 0), (puppet (tinyW []) (stepWord 19)), (puppet (tinyW [])
     (stepWord 19)), by decide +kernel, by decide +kernel, by decide +kernel⟩,
   ⟨puppet (tinyW []) (stepWord 20), 3, stepOf (stepWord 20), (5, 0), (puppet (tinyW []) (stepWord 20)), (puppet (tinyW [])
     (stepWord 20)), by decide +kernel, by decide +kernel, by decide +kernel⟩,
   ⟨puppet (tinyW []) (stepWord 0x15 + 2 ^ 23), 3, stepOf (stepWord 0x15 + 2 ^ 23), (5, 0), (puppet (tinyW []) (stepWord 0x15 +
     2 ^ 23)), (puppet (tinyW []) (stepWord 0x15 + 2 ^ 23)), false, [], by decide +kernel, by decide +kernel,
     by decide +kernel, by decide +kernel, by decide +kernel⟩,
   ⟨raster (tinyW []) 0x16, 3, stepOf (stepWord 0x16 - 0x400), 64, ⟨[], [], List.replicate 64 0, 0, 64, 0⟩, nextRow (raster
     (tinyW []) 0x16), (raster (tinyW []) 0x16), ((raster (tinyW []) 0x16)).fresh.2, by decide +kernel, by decide +kernel,
     by decide +kernel⟩,
   ⟨raster (tinyW []) 0x17, 3, stepOf (stepWord 0x17 - 0x400), 64, ⟨[], [], List.replicate 64 0, 0, 64, 0⟩, nextRow (raster
     (tinyW []) 0x17), (raster (tinyW []) 0x17), ((raster (tinyW []) 0x17)).fresh.2, by decide +kernel, by decide +kernel,
     by decide +kernel⟩,
   ⟨puppet (tinyW []) (stepWord 0x18), 3, stepOf (stepWord 0x18), (5, 0), (puppet (tinyW []) (stepWord 0x18)), (puppet (tinyW
     []) (stepWord 0x18)), (puppet (tinyW []) (stepWord 0x18)), List.replicate 64 0, by decide +kernel, by decide +kernel,
     by decide +kernel, by decide +kernel⟩,
   ⟨tinyW [(R.TILE_MSTAT_MSTATE 3, 1)], 3, tileLocalAddr 3 64, 0, List.replicate 64 0, (tinyW [(R.TILE_MSTAT_MSTATE 3, 1)]),
     by decide +kernel, by decide +kernel, by decide +kernel, by decide +kernel⟩,
   ⟨updMari (puppet (tinyW []) 0) 3 (fun m => { m with ending := some 0 }), 3, 0, by decide +kernel, by decide +kernel,
     by decide +kernel⟩,
   ⟨updMari ((puppet (tinyW []) 0).setFld (R.TILE_MEXEC_COUNT 3) 9) 3 (fun m => { m with budget := 9 }), 3, by decide +kernel,
     by decide +kernel, by decide +kernel, by decide +kernel⟩⟩

theorem wit_CodecAndIndexCommandsComplete :
    (∃ (s : State) (ti : TileId) (g : Seg) (rest : List Seg), ((s.tile ti.val).segs = g :: rest) ∧
      ((s.tile ti.val).formed.length + (s.tile ti.val).encoded.length < 2) ∧ (g.data.length = 4096)) ∧
    (∃ (s : State) (ti : TileId) (b : InBlock) (rest : List InBlock), ((s.tile ti.val).formed = b :: rest)) ∧
    (∃ (s : State) (ti : TileId) (e : EncBlock) (rest : List EncBlock), ((s.tile ti.val).encoded = e :: rest) ∧
      (verify e none = none)) ∧
    (∃ (s : State) (ti : TileId) (e : EncBlock) (rest : List EncBlock) (test : Nat), ((s.tile ti.val).encoded = e :: rest) ∧
      (verify e none = some test)) ∧
    (∃ (s : State) (ti : TileId) (e : EncBlock) (rest : List EncBlock) (s2 : State), ((s.tile ti.val).accepted = e :: rest) ∧
      (placeBlock (s.setTile ti.val { s.tile ti.val with accepted := rest }) e.inp.job e.bytes = (s2, true))) ∧
    (∃ (s : State) (flow : Fin 262144) (seq : Nat) (p : Parcel) (ti : TileId), (findParcel s flow.val seq = some p) ∧
      (p.st = .ended ti.val) ∧ (rawDue s p = true) ∧ ((s.tile ti.val).job = none)) ∧
    (∃ (s : State) (d : DecJob), (s.decWait = none) ∧ (blockOn s .codec = true) ∧
      (s.fld R.CODEC_DQ_HEAD_IDX ≠ s.fld R.CODEC_DQ_TAIL_IDX) ∧ ((readRam s (dqSlot s (s.fld R.CODEC_DQ_HEAD_IDX)) 32).2.2 =
      none) ∧ (d = decJobOf (readRam s (dqSlot s (s.fld R.CODEC_DQ_HEAD_IDX)) 32).1)) ∧
    (∃ (s : State) (ti : TileId) (d : DecJob) (e : DecEnd) (s1 : State), ((s.tile ti.val).lane = some d) ∧
      (runDecode s d = (e, s1))) ∧
    (∃ (s : State) (ti : TileId) (d : DecJob) (e : DecEnd) (s1 : State), ((s.tile ti.val).tileDec = some d) ∧
      ((s.tile ti.val).tileDecRun = true) ∧ (runDecode s d = (e, s1))) ∧
    (∃ (s : State) (e : Fin 16) (ti : Nat) (k : Key) (q : List Key) (r : Nat × Bool × State), (tblGet none s.index.engHold
      e.val = none) ∧ (engineTile s e.val = some ti) ∧ ((s.tile ti).kq = k :: q) ∧
      (r = (if (keyProf s k).aset = 0xFF then (0xFFFF, false, (kqTake
      { s with index := { s.index with engTurn := tblSet 0 s.index.engTurn e.val (1 - ti % 2) } } ti)) else scanKey (kqTake
      { s with index := { s.index with engTurn := tblSet 0 s.index.engTurn e.val (1 - ti % 2) } } ti) (keyProf s k).aset
      k.bytes)) ∧ (hasRules r.2.2 k.idxProf = false)) ∧
    (∃ (s : State) (e : Fin 16) (ti : Nat) (k : Key) (q : List Key) (r : Nat × Bool × State), (tblGet none s.index.engHold
      e.val = none) ∧ (engineTile s e.val = some ti) ∧ ((s.tile ti).kq = k :: q) ∧
      (r = (if (keyProf s k).aset = 0xFF then (0xFFFF, false, (kqTake
      { s with index := { s.index with engTurn := tblSet 0 s.index.engTurn e.val (1 - ti % 2) } } ti)) else scanKey (kqTake
      { s with index := { s.index with engTurn := tblSet 0 s.index.engTurn e.val (1 - ti % 2) } } ti) (keyProf s k).aset
      k.bytes)) ∧ (hasRules r.2.2 k.idxProf = true)) ∧
    (∃ (s : State) (e : Nat) (sc : Scanned) (ms : List TSlot), (blockOn s .rule = true) ∧
      (((List.range 16).map (fun i => (s.index.lastEng + 1 + i) % 16)).find? (fun n => (tblGet none s.index.engHold n).isSome)
      = some e) ∧ (tblGet none s.index.engHold e = some sc) ∧ (ms = allMatches s (searchKey sc.report sc.key.idxProf
      sc.key.bytes))) ∧
    (∃ (s : State) (x : TSlot) (s1 : State), (s.index.op = some (.insert x)) ∧ (insertRule s x = some s1)) ∧
    (∃ (s : State) (set rid : Nat) (e : Nat × TSlot), (s.index.op = some (.delete set rid)) ∧ (ruleSlot s set rid = some e)) ∧
    (∃ (s : State) (bs : List Byte) (s1 : State), (s.flag R.RULE_CTRL_CHK_EN = true) ∧ (s.flag R.RULE_STATUS_BUSY = false) ∧
      (readRam { s with index := { s.index with checkAt := (s.index.checkAt + 1) % 32768 } } (shadowAddr s s.index.checkAt) 128
      = (bs, s1, none)) ∧ (bitOf (leAt bs 96 1) 0 = (slotAt s1 s.index.checkAt).valid) ∧
      (leAt bs 0 40 = (slotAt s1 s.index.checkAt).value ∧ leAt bs 40 40 = (slotAt s1 s.index.checkAt).mask)) :=
  ⟨⟨(tinyW []).setTile 3 { Tile.reset with segs := [⟨⟨false, 1, 0, 0⟩, ⟨0, 0, 0, 0, 0⟩, List.replicate 4096 0, false⟩] }, 3,
    ⟨⟨false, 1, 0, 0⟩, ⟨0, 0, 0, 0, 0⟩, List.replicate 4096 0, false⟩, [], by decide +kernel, by decide +kernel,
    by decide +kernel⟩,
   ⟨(tinyW []).setTile 3 { Tile.reset with formed := [⟨⟨false, 1, 0, 0⟩, ⟨0, 0, 0, 0, 0⟩, [1, 2], 0⟩] }, 3, ⟨⟨false, 1, 0, 0⟩,
     ⟨0, 0, 0, 0, 0⟩, [1, 2], 0⟩, [], by decide +kernel⟩,
   ⟨(tinyW []).setTile 3
     { Tile.reset with encoded := [⟨⟨⟨false, 1, 0, 0⟩, ⟨0, 0, 0, 0, 0⟩, [1, 2], 0⟩, storedBlock 0 [1, 2], true, 0⟩] }, 3,
     ⟨⟨⟨false, 1, 0, 0⟩, ⟨0, 0, 0, 0, 0⟩, [1, 2], 0⟩, storedBlock 0 [1, 2], true, 0⟩, [], by decide +kernel, by decide +kernel⟩,
   ⟨(tinyW []).setTile 3 { Tile.reset with encoded := [⟨⟨⟨false, 1, 0, 0⟩, ⟨0, 0, 0, 0, 0⟩, [1, 2], 0⟩, [], true, 0⟩] }, 3,
     ⟨⟨⟨false, 1, 0, 0⟩, ⟨0, 0, 0, 0, 0⟩, [1, 2], 0⟩, [], true, 0⟩, [], 0, by decide +kernel, by decide +kernel⟩,
   ⟨({ tinyW [] with flows := { FlowSt.reset with parcels := [⟨1, 0, .host 1, 4096, 0, 0, 0, true, 0x4000000000, 8192, 4096, 3, .running 3, 0, false, false, 0, 0, 0, 0, false, false⟩] } }).setTile
     3 { Tile.reset with accepted := [⟨⟨⟨false, 1, 0, 0⟩, ⟨0, 0, 0, 0, 0⟩, [1, 2], 0⟩, [7], true, 0⟩] }, 3, ⟨⟨⟨false, 1, 0, 0⟩,
     ⟨0, 0, 0, 0, 0⟩, [1, 2], 0⟩, [7], true, 0⟩, [], (placeBlock
     ((({ tinyW [] with flows := { FlowSt.reset with parcels := [⟨1, 0, .host 1, 4096, 0, 0, 0, true, 0x4000000000, 8192, 4096, 3, .running 3, 0, false, false, 0, 0, 0, 0, false, false⟩] } }).setTile
     3 { Tile.reset with accepted := [⟨⟨⟨false, 1, 0, 0⟩, ⟨0, 0, 0, 0, 0⟩, [1, 2], 0⟩, [7], true, 0⟩] }).setTile 3
     { (({ tinyW [] with flows := { FlowSt.reset with parcels := [⟨1, 0, .host 1, 4096, 0, 0, 0, true, 0x4000000000, 8192, 4096, 3, .running 3, 0, false, false, 0, 0, 0, 0, false, false⟩] } }).setTile 3 { Tile.reset with accepted := [⟨⟨⟨false, 1, 0, 0⟩, ⟨0, 0, 0, 0, 0⟩, [1, 2], 0⟩, [7], true, 0⟩] }).tile 3 with accepted := [] })
     ⟨false, 1, 0, 0⟩ [7]).1, by decide +kernel, by decide +kernel⟩,
   ⟨{ tinyW [] with flows := { FlowSt.reset with parcels := [⟨0, 0, .host 1, 4, 0, 0x4000000000, 0, true, 0x4000001000, 8192, 4, 3, .ended 3, 3, false, false, 0, 0, 0, 0, true, false⟩] }, mem := [(0x4010000000, 8)] },
     0, 0, ⟨0, 0, .host 1, 4, 0, 0x4000000000, 0, true, 0x4000001000, 8192, 4, 3, .ended 3, 3, false, false, 0, 0, 0, 0, true,
     false⟩, 3, by decide +kernel, by decide +kernel, by decide +kernel, by decide +kernel⟩,
   ⟨tinyW [(fldState 0x70000, 2), (R.CODEC_DQ_TAIL_IDX, 2)], decJobOf (List.replicate 32 0), by decide +kernel,
     by decide +kernel, by decide +kernel, by decide +kernel, by decide +kernel⟩,
   ⟨(tinyW []).setTile 3 { Tile.reset with lane := some ⟨0, 0, 16, 16, 1, 5, false, true⟩ }, 3, ⟨0, 0, 16, 16, 1, 5, false,
     true⟩, ⟨8, 0, 0⟩, ((tinyW []).setTile 3 { Tile.reset with lane := some ⟨0, 0, 16, 16, 1, 5, false, true⟩ }),
     by decide +kernel, by decide +kernel⟩,
   ⟨(tinyW []).setTile 3 { Tile.reset with tileDec := some ⟨0, 0, 16, 16, 1, 5, false, true⟩, tileDecRun := true }, 3, ⟨0, 0,
     16, 16, 1, 5, false, true⟩, ⟨8, 0, 0⟩, ((tinyW []).setTile 3
     { Tile.reset with tileDec := some ⟨0, 0, 16, 16, 1, 5, false, true⟩, tileDecRun := true }), by decide +kernel,
     by decide +kernel, by decide +kernel⟩,
   ⟨(tinyW []).setTile 3 { Tile.reset with kq := [⟨⟨false, 0, 0, 0⟩, 1, 0, [1, 2]⟩] }, 1, 3, ⟨⟨false, 0, 0, 0⟩, 1, 0, [1, 2]⟩,
     [], (0xFFFF, false, kqTake
     { ((tinyW []).setTile 3 { Tile.reset with kq := [⟨⟨false, 0, 0, 0⟩, 1, 0, [1, 2]⟩] }) with index := { ((tinyW []).setTile 3 { Tile.reset with kq := [⟨⟨false, 0, 0, 0⟩, 1, 0, [1, 2]⟩] }).index with engTurn := [] } }
     3), by decide +kernel, by decide +kernel, by decide +kernel, by decide +kernel, by decide +kernel⟩,
   ⟨{ (tinyW []).setTile 3 { Tile.reset with kq := [⟨⟨false, 0, 0, 0⟩, 1, 0, [1, 2]⟩] } with index := { IndexSt.reset with slots := [(0, ⟨true, 0x10000, 0, 0, 0, 0, 0⟩)] } },
     1, 3, ⟨⟨false, 0, 0, 0⟩, 1, 0, [1, 2]⟩, [], (0xFFFF, false, kqTake
     { ({ (tinyW []).setTile 3 { Tile.reset with kq := [⟨⟨false, 0, 0, 0⟩, 1, 0, [1, 2]⟩] } with index := { IndexSt.reset with slots := [(0, ⟨true, 0x10000, 0, 0, 0, 0, 0⟩)] } }) with index := { ({ (tinyW []).setTile 3 { Tile.reset with kq := [⟨⟨false, 0, 0, 0⟩, 1, 0, [1, 2]⟩] } with index := { IndexSt.reset with slots := [(0, ⟨true, 0x10000, 0, 0, 0, 0, 0⟩)] } }).index with engTurn := [] } }
     3), by decide +kernel, by decide +kernel, by decide +kernel, by decide +kernel, by decide +kernel⟩,
   ⟨{ tinyW [(fldState 0x60000, 2)] with index := { IndexSt.reset with engHold := [(1, some ⟨⟨⟨false, 0, 0, 0⟩, 1, 0, [1, 2]⟩, 3, 0xFFFF, false⟩)] } },
     1, ⟨⟨⟨false, 0, 0, 0⟩, 1, 0, [1, 2]⟩, 3, 0xFFFF, false⟩, [], by decide +kernel, by decide +kernel, by decide +kernel,
     by decide +kernel⟩,
   ⟨{ tinyW [] with index := { IndexSt.reset with op := some (.insert ⟨true, 0x10000, 0xFF0000, 5, 1, 9, 0⟩) } }, ⟨true,
     0x10000, 0xFF0000, 5, 1, 9, 0⟩, writeSlot
     ({ tinyW [] with index := { IndexSt.reset with op := some (.insert ⟨true, 0x10000, 0xFF0000, 5, 1, 9, 0⟩) } }) 0 ⟨true,
     0x10000, 0xFF0000, 5, 1, 9, 0⟩, by decide +kernel, by decide +kernel⟩,
   ⟨{ tinyW [] with index := { IndexSt.reset with op := some (.delete 1 1), slots := [(4, ⟨true, 0x10000, 0xFF0000, 5, 1, 9, 0⟩)] } },
     1, 1, (4, ⟨true, 0x10000, 0xFF0000, 5, 1, 9, 0⟩), by decide +kernel, by decide +kernel⟩,
   ⟨tinyW [(R.RULE_CTRL_CHK_EN, 1)], List.replicate 128 0,
     { (tinyW [(R.RULE_CTRL_CHK_EN, 1)]) with index := { (tinyW [(R.RULE_CTRL_CHK_EN, 1)]).index with checkAt := 1 } },
     by decide +kernel, by decide +kernel, by decide +kernel, by decide +kernel, by decide +kernel⟩⟩

theorem wit_HoldUpCommandsComplete :
    (∃ (s : State), (s.hold.pfail = false) ∧ (flushing s = false) ∧ (s.boot.held = .none) ∧ (s.fld R.SYS_PHASE_PHASE = 12) ∧
      (s.hold.qual = .idle) ∧ (Registers.wf s.regs = true)) ∧
    (∃ (s : State), (s.hold.pfail = true)) ∧
    (∃ (s : State) (mv : List Nat), (s.hold.w = 0) ∧ (s.hold.qual = .idle)) ∧
    (∃ (s : State) (mv : List Nat), (s.hold.w ≠ 0) ∧ (s.hold.pfail = false) ∧ (flushing s = false) ∧
      (railOf s mv < pfVACK s.hold.active)) ∧
    (∃ (s : State), (flushing s = false) ∧ (s.flag R.HOLD_CTRL_EN = true) ∧ (railMv s + 200 < pfVCHG s.hold.active)) ∧
    (∃ (s : State), (flushing s = false) ∧ (s.flag R.HOLD_CTRL_EN = true) ∧ (pfVCHG s.hold.active ≤ railMv s)) ∧
    (∃ (s : State), (s.hold.qual = .charge) ∧ (s.hold.reached = false)) ∧
    (∃ (s : State) (mv n : Nat), (s.hold.qual = .settle n)) ∧
    (∃ (s : State) (mv n : Nat), (s.hold.qual = .load n)) ∧
    (∃ (s : State) (mv n : Nat) (pass : Bool), (s.hold.qual = .vb n) ∧
      (pass = (decide (10 * pfCMIN s.hold.active ≤ (measured s s.hold.active s.hold.va s.hold.vb mv).1) && decide ((measured s
      s.hold.active s.hold.va s.hold.vb mv).2 ≤ 1000 * pfESRMAX s.hold.active)))) ∧
    (∃ (s : State) (p : List Byte), (s.hold.saving = some p)) ∧
    (∃ (s : State) (p : List Byte), (s.therm.saving = some p)) :=
  ⟨⟨{ tinyW [(R.SYS_PHASE_PHASE, 12)] with hold := { HoldSt.reset with pfail := false }, boot := { BootSt.reset with held := .none } },
    by decide +kernel, by decide +kernel, by decide +kernel, by decide +kernel, by decide +kernel, by decide +kernel⟩,
   ⟨{ tinyW [] with hold := { HoldSt.reset with pfail := true } }, by decide +kernel⟩,
   ⟨tinyW [], [1, 2, 3, 4], by decide +kernel, by decide +kernel⟩,
   ⟨{ tinyW [] with hold := { HoldSt.reset with w := 4096, active := List.replicate 64 9 } }, [1, 2, 3, 4], by decide +kernel,
     by decide +kernel, by decide +kernel, by decide +kernel⟩,
   ⟨{ tinyW [(R.HOLD_CTRL_EN, 1)] with hold := { HoldSt.reset with active := List.replicate 64 9 } }, by decide +kernel,
     by decide +kernel, by decide +kernel⟩,
   ⟨tinyW [(R.HOLD_CTRL_EN, 1)], by decide +kernel, by decide +kernel, by decide +kernel⟩,
   ⟨{ tinyW [] with hold := { HoldSt.reset with qual := .charge } }, by decide +kernel, by decide +kernel⟩,
   ⟨{ tinyW [] with hold := { HoldSt.reset with qual := .settle 2 } }, 5, 2, by decide +kernel⟩,
   ⟨{ tinyW [] with hold := { HoldSt.reset with qual := .load 2 } }, 5, 2, by decide +kernel⟩,
   ⟨{ tinyW [] with hold := { HoldSt.reset with qual := .vb 2, va := 1000, vb := 900, active := List.replicate 64 9 } }, 800,
     2, true, by decide +kernel, by decide +kernel⟩,
   ⟨{ tinyW [(R.HOLD_SAVE_BUSY, 1)] with hold := { HoldSt.reset with saving := some [1] } }, [1], by decide +kernel⟩,
   ⟨{ tinyW [(R.THERM_SAVE_BUSY, 1)] with therm := { ThermSt.reset with saving := some [1] } }, [1], by decide +kernel⟩⟩

theorem wit_ThermalAndPinCommandsComplete :
    (∃ (s : State) (readings : List SensorRead) (rpm : List Nat) (die : Int) (s1 s2 : State), (blockOn s .therm = false) ∧
      (s1 = (List.range 8).foldl (fun x n => match readings[n]? with | some r => chanRead x n r | none => x) s) ∧
      (s2 = (List.range 4).foldl (fun x n => match rpm[n]? with | some r => setSpeed x n r | none => x) s1) ∧
      (blockOn s2 .therm = false)) ∧
    (∃ (s : State) (readings : List SensorRead) (rpm : List Nat) (die : Int) (s1 s2 s3 : State), (s1 = (List.range 8).foldl
      (fun x n => match readings[n]? with | some r => chanRead x n r | none => x) s) ∧
      (s2 = (List.range 4).foldl (fun x n => match rpm[n]? with | some r => setSpeed x n r | none => x) s1) ∧
      (s3 = { s2 with therm := { s2.therm with dieMax := max s2.therm.dieMax die, held := s2.therm.held + s2.fld R.THERM_STATUS_WHOLD } })
      ∧ (blockOn s2 .therm = true) ∧ (flushing s2 = false)) ∧
    (∃ (s : State) (n : Fin 4), (s.flag (R.THERM_OUT_CFG_MODE n.val) = false) ∧
      (s.fld (R.THERM_OUT_STAT_RPM n.val) < s.fld (R.THERM_OUT_CFG_MINRPM n.val)) ∧ (s.fld (R.THERM_OUT_STAT_DUTY n.val) ≠ 0)) ∧
    (∃ (s : State) (die : Int), (16 * (s.fld R.THERM_TRIP_TRIP : Int) ≤ die)) ∧
    (∃ (s : State) (die : Int), (die < 16 * (s.fld R.THERM_TRIP_TRIP : Int))) ∧
    (∃ (s : State) (n : Fin 16), ((s.fld R.GPIO_IN_IN).testBit n.val = false) ∧
      ((s.fld (R.GPIO_PIN_EDGE n.val)).testBit 0 = true)) ∧
    (∃ (s : State) (n : Fin 16), ((s.fld R.GPIO_IN_IN).testBit n.val = true) ∧
      ((s.fld (R.GPIO_PIN_EDGE n.val)).testBit 1 = false)) :=
  ⟨⟨tinyW [], [], [], 3, (tinyW []), (tinyW []), by decide +kernel, by decide +kernel, by decide +kernel, by decide +kernel⟩,
   ⟨tinyW [(fldState 0x370000, 2)], [], [], 3, (tinyW [(fldState 0x370000, 2)]), (tinyW [(fldState 0x370000, 2)]),
     { (tinyW [(fldState 0x370000, 2)]) with therm := { (tinyW [(fldState 0x370000, 2)]).therm with dieMax := max (tinyW [(fldState 0x370000, 2)]).therm.dieMax 3, held := (tinyW [(fldState 0x370000, 2)]).therm.held + (tinyW [(fldState 0x370000, 2)]).fld R.THERM_STATUS_WHOLD } },
     by decide +kernel, by decide +kernel, by decide +kernel, by decide +kernel, by decide +kernel⟩,
   ⟨tinyW [(R.THERM_OUT_CFG_MINRPM 2, 5), (R.THERM_OUT_STAT_DUTY 2, 9), (R.THERM_OUT_CFG_MODE 2, 0), (R.THERM_OUT_STAT_RPM 2,
     0)], 2, by decide +kernel, by decide +kernel, by decide +kernel⟩,
   ⟨tinyW [], 5000, by decide +kernel⟩,
   ⟨tinyW [(R.THERM_TRIP_TRIP, 100)], 5, by decide +kernel⟩,
   ⟨tinyW [(R.GPIO_IN_IN, 0), (R.GPIO_PIN_EDGE 5, 1)], 5, by decide +kernel, by decide +kernel⟩,
   ⟨tinyW [(R.GPIO_IN_IN, 0x20), (R.GPIO_PIN_EDGE 5, 1)], 5, by decide +kernel, by decide +kernel⟩⟩

theorem wit_DramCommandsComplete :
    (∃ (s : State) (c : Fin 24) (now fill0 fill1 : Nat) (arrivals : List DramReq) (q : DramReq), (dchServes s c.val = true) ∧
      ((dch (queueReqs (panicUpdate s fill0 fill1) c.val arrivals) c.val).pausing = false) ∧
      (nextReq (queueReqs (panicUpdate s fill0 fill1) c.val arrivals) c.val now = some q)) ∧
    (∃ (s : State) (c : Fin 24) (bank : Fin 16), (dchServes s c.val = true) ∧ ((dch s c.val).pausing = false) ∧
      (panicOnBank s c.val bank.val = false)) ∧
    (∃ (s : State) (c : Fin 24) (bank : Fin 16), (dchServes s c.val = true) ∧ ((dch s c.val).pausing = false) ∧
      (panicOnBank s c.val bank.val = true) ∧ (flushing s = false) ∧ (tblGet 0 (dch s c.val).owed bank.val < 8)) ∧
    (∃ (s : State) (c : Fin 24) (b : Nat), (dchServes s c.val = true) ∧ ((dch s c.val).pausing = false) ∧
      (((List.range 16).map (fun i => ((dch s c.val).lastBank + 1 + i) % 16)).find? (fun b => tblGet 0 (dch s c.val).owed b !=
      0 && (!panicOnBank s c.val b || flushing s)) = some b)) ∧
    (∃ (s : State) (c : Fin 24) (rate : Fin 32), (dchServes s c.val = true)) ∧
    (∃ (s : State) (c : Fin 24), (dchServes s c.val = true) ∧ ((dch s c.val).pausing = false)) ∧
    (∃ (s : State) (c : Fin 24), ((dch s c.val).due = true) ∧ (s.flag (R.DCH_STATUS_TDUE c.val) = true) ∧
      ((dch s c.val).forced = false)) ∧
    (∃ (s : State) (c : Fin 24), ((dch s c.val).due = true) ∧ (dchServes s c.val = true) ∧ (flushing s = false) ∧
      (panicRaised s = false) ∧ ((dch s c.val).owed.all (fun e => decide (e.2 ≤ 4)) = true)) ∧
    (∃ (s : State) (c : Fin 24) (drift : Nat), ((dch s c.val).pausing = true)) ∧
    (∃ (s : State) (c : Fin 24) (drift : Nat), ((dch s c.val).pausing = true) ∧ ((dch s c.val).fails < 2)) ∧
    (∃ (s : State) (n : Nat), (blockOn s .dram = true) ∧ (s.flag R.DRAM_SCRUB_EN = true) ∧ (flushing s = false) ∧
      (dramMark s (s.dram.scrubAt * 64) = n) ∧ (n ≤ 1) ∧ (tblWf 0 s.dramBad = true)) ∧
    (∃ (s : State), (s.dram.zeroing = true)) :=
  ⟨⟨{ tinyW [(R.DCH_STATUS_POP 2, 1), (fldState 0xC0000, 2)] with dram := { DramSt.reset with chans := [(2, { DramCh.reset with queue := [DramReq.mk 1 false 0 64 none 3 true] })] } },
    2, 9, 0, 0, [], ⟨1, false, 0, 64, none, 3, true⟩, by decide +kernel, by decide +kernel, by decide +kernel⟩,
   ⟨tinyW [(R.DCH_STATUS_POP 2, 1), (fldState 0xC0000, 2)], 2, 3, by decide +kernel, by decide +kernel, by decide +kernel⟩,
   ⟨{ tinyW [(R.DCH_STATUS_POP 2, 1), (fldState 0xC0000, 2), (R.DRAM_STATUS_PANIC0, 1)] with dram := { DramSt.reset with chans := [(2, { DramCh.reset with queue := [DramReq.mk 0 false 0 64 none 3 true] })] } },
     2, 0, by decide +kernel, by decide +kernel, by decide +kernel, by decide +kernel, by decide +kernel⟩,
   ⟨{ tinyW [(R.DCH_STATUS_POP 2, 1), (fldState 0xC0000, 2)] with dram := { DramSt.reset with chans := [(2, { DramCh.reset with owed := [(3, 2)] })] } },
     2, 3, by decide +kernel, by decide +kernel, by decide +kernel⟩,
   ⟨tinyW [(R.DCH_STATUS_POP 2, 1), (fldState 0xC0000, 2)], 2, 3, by decide +kernel⟩,
   ⟨tinyW [(R.DCH_STATUS_POP 2, 1), (fldState 0xC0000, 2)], 2, by decide +kernel, by decide +kernel⟩,
   ⟨{ tinyW [(R.DCH_STATUS_TDUE 2, 1)] with dram := { DramSt.reset with chans := [(2, { DramCh.reset with due := true })] } },
     2, by decide +kernel, by decide +kernel, by decide +kernel⟩,
   ⟨{ tinyW [(R.DCH_STATUS_POP 2, 1), (fldState 0xC0000, 2)] with dram := { DramSt.reset with chans := [(2, { DramCh.reset with due := true })] } },
     2, by decide +kernel, by decide +kernel, by decide +kernel, by decide +kernel, by decide +kernel⟩,
   ⟨{ tinyW [] with dram := { DramSt.reset with chans := [(2, { DramCh.reset with pausing := true })] } }, 2, 9,
     by decide +kernel⟩,
   ⟨{ tinyW [] with dram := { DramSt.reset with chans := [(2, { DramCh.reset with pausing := true, fails := 1 })] } }, 2, 9,
     by decide +kernel, by decide +kernel⟩,
   ⟨tinyW [(fldState 0xC0000, 2), (R.DRAM_SCRUB_EN, 1)], 0, by decide +kernel, by decide +kernel, by decide +kernel,
     by decide +kernel, by decide +kernel, by decide +kernel⟩,
   ⟨{ tinyW [(R.DRAM_STATUS_INIT, 1)] with dram := { DramSt.reset with zeroing := true } }, by decide +kernel⟩⟩

theorem wit_DmaChannelCommandsComplete :
    (∃ (s : State) (rq : Requester) (ch : Fin 64), ((whoOf rq).1 < 3) ∧ (s.fld (R.DMA_CH_OWN_KIND ch.val) = 0)) ∧
    (∃ (s : State) (ti : TileId) (ch : Fin 64), (ch.val < 56) ∧ (s.fld (R.DMA_CH_OWN_KIND ch.val) = 0) ∧
      (Registers.wf s.regs = true)) ∧
    (∃ (s : State) (rq : Requester) (ch : Fin 64), (dmaOwns s ch.val (whoOf rq) = true) ∧
      (dmaState s ch.val = 0 ∨ dmaState s ch.val = 5)) ∧
    (∃ (s : State) (rq : Requester) (ch : Fin 64), (dmaOwns s ch.val (whoOf rq) = true) ∧ (blockOn s .dma = true) ∧
      (dmaState s ch.val = 0 ∨ dmaState s ch.val = 5) ∧ (dmaProg s ch.val % 64 = 0) ∧
      (s.flag (R.DMA_CH_CTRL_PAUSE ch.val) = false) ∧ (Registers.wf s.regs = true)) ∧
    (∃ (s : State) (rq : Requester) (ch : Fin 64), (dmaOwns s ch.val (whoOf rq) = true) ∧ (dmaState s ch.val = 1) ∧
      (Registers.wf s.regs = true)) ∧
    (∃ (s : State) (ch : Fin 64), (dmaState s ch.val = 3) ∧ ((dmaOf s ch.val).abort = false) ∧
      (s.flag (R.DMA_CH_CTRL_PAUSE ch.val) = true)) ∧
    (∃ (s : State) (rq : Requester) (ch : Fin 64), (dmaOwns s ch.val (whoOf rq) = true) ∧ (dmaState s ch.val = 4) ∧
      (blockOn s .dma = true)) ∧
    (∃ (s : State) (rq : Requester) (ch : Fin 64), (dmaOwns s ch.val (whoOf rq) = true) ∧ (dmaState s ch.val = 4)) ∧
    (∃ (s : State) (rq : Requester) (ch : Fin 64), (dmaOwns s ch.val (whoOf rq) = true) ∧ (dmaState s ch.val = 1)) ∧
    (∃ (s : State) (rq : Requester) (ch : Fin 64), (dmaOwns s ch.val (whoOf rq) = true) ∧ (56 ≤ ch.val) ∧
      (dmaState s ch.val = 2)) ∧
    (∃ (s : State) (e : Fin 64) (ch : Nat) (clr : Bool), (dmaEvent s e.val = true) ∧ (dmaWaiters s e.val = [ch]) ∧
      (((dmaOf s ch).wait.map (fun x => x.2.1)) = some clr)) ∧
    (∃ (s : State) (ch : Fin 64) (x : Nat × Bool × Nat), ((dmaOf s ch.val).wait = some x) ∧ (dmaState s ch.val = 2) ∧
      (x.2.2 ≠ 0)) ∧
    (∃ (s : State) (q : Fin 8) (x : BitVec 16), (dmaOldest s q.val = none) ∧ (Registers.wf s.regs = true)) :=
  ⟨⟨tinyW [(R.DMA_CH_OWN_KIND 5, 0)], .core 33, 5, by decide +kernel, by decide +kernel⟩,
   ⟨tinyW [(R.DMA_CH_OWN_KIND 5, 0)], 3, 5, by decide +kernel, by decide +kernel, by decide +kernel⟩,
   ⟨dmaRun (tinyW []) 5 0 [], .core 33, 5, by decide +kernel, by decide +kernel⟩,
   ⟨dmaRun (tinyW []) 5 0 [], .core 33, 5, by decide +kernel, by decide +kernel, by decide +kernel, by decide +kernel,
     by decide +kernel, by decide +kernel⟩,
   ⟨dmaRun (tinyW []) 5 1 [], .core 33, 5, by decide +kernel, by decide +kernel, by decide +kernel⟩,
   ⟨dmaRun (tinyW [(R.DMA_CH_CTRL_PAUSE 5, 1)]) 5 3 [], 5, by decide +kernel, by decide +kernel, by decide +kernel⟩,
   ⟨dmaRun (tinyW []) 5 4 [], .core 33, 5, by decide +kernel, by decide +kernel, by decide +kernel⟩,
   ⟨dmaRun (tinyW []) 5 4 [], .core 33, 5, by decide +kernel, by decide +kernel⟩,
   ⟨dmaRun (tinyW []) 5 1 [], .core 33, 5, by decide +kernel, by decide +kernel⟩,
   ⟨dmaRun (tinyW []) 60 2 [], .core 33, 60, by decide +kernel, by decide +kernel, by decide +kernel⟩,
   ⟨{ dmaRun (tinyW [(R.DMA_EVT_EVT 0, 2)]) 5 2 [] with dmas := [(5, { DmaCh.reset with wait := some (1, true, 0) })] }, 1, 5,
     true, by decide +kernel, by decide +kernel, by decide +kernel⟩,
   ⟨{ dmaRun (tinyW []) 5 2 [] with dmas := [(5, { DmaCh.reset with wait := some (1, true, 9) })] }, 5, (1, true, 9),
     by decide +kernel, by decide +kernel, by decide +kernel⟩,
   ⟨tinyW [], 2, 7, by decide +kernel, by decide +kernel⟩⟩

theorem wit_DmaInstructionsComplete :
    (∃ (s : State) (ch : Fin 64) (k : Nat) (bs : List Byte) (s1 s2 : State) (src dst len : Nat), (dmaFetched s ch.val 1 = some
      (bs, s1)) ∧ (zeroBytes bs 1 4 = true ∧ dmaMods bs / 2 = 0 ∧ zeroBytes bs 7 8 = true ∧ zeroBytes bs 0xE 0x10 = true ∧
      zeroBytes bs 0x16 0x18 = true) ∧ (len = leAt bs 4 3 + 1) ∧ (src = dmaAddr (leAt bs 8 6) (s1.fld (R.DMA_CH_ITER_ITER
      ch.val)) (leAt bs 0x18 4)) ∧ (dst = dmaAddr (leAt bs 0x10 6) (s1.fld (R.DMA_CH_ITER_ITER ch.val)) (leAt bs 0x1C 4)) ∧
      (dmaOverlaps src dst len = false) ∧ (doneAt (dmaMoveOn s1 ch.val src dst len k) = some ((), s2))) ∧
    (∃ (s : State) (ch : Fin 64) (bs : List Byte) (s1 : State), (dmaFetched s ch.val 2 = some (bs, s1)) ∧
      (zeroBytes bs 1 4 = true ∧ dmaMods bs = 0 ∧ zeroBytes bs 7 8 = true ∧ zeroBytes bs 0xA 0x20 = true ∧ 2 ≤ leAt bs 4 3 ∧
      leAt bs 8 2 ≠ 0) ∧ ((dmaOf s1 ch.val).loopPc = some (dmaPc s1 ch.val) ∨ s1.fld (R.DMA_CH_ITER_ITER ch.val) = 0) ∧
      (dmaProg s1 ch.val + 32 * leAt bs 8 2 ≤ dmaPc s1 ch.val) ∧ (s1.fld (R.DMA_CH_ITER_ITER ch.val) + 1 < leAt bs 4 3)) ∧
    (∃ (s : State) (ch : Fin 64) (bs : List Byte) (s1 : State), (dmaFetched s ch.val 3 = some (bs, s1)) ∧
      (zeroBytes bs 1 4 = true ∧ dmaMods bs / 2 = 0 ∧ leAt bs 8 1 < 64 ∧ zeroBytes bs 9 0x20 = true)) ∧
    (∃ (s : State) (ch : Fin 64) (bs : List Byte) (s1 : State), (dmaFetched s ch.val 4 = some (bs, s1)) ∧
      (zeroBytes bs 1 4 = true ∧ dmaMods bs / 4 = 0 ∧ leAt bs 8 1 < 64 ∧ zeroBytes bs 9 0x20 = true)) ∧
    (∃ (s : State) (ch : Fin 64) (bs : List Byte) (s1 : State), (dmaFetched s ch.val 0 = some (bs, s1)) ∧
      (zeroBytes bs 1 4 = true ∧ dmaMods bs = 0 ∧ zeroBytes bs 8 0x20 = true)) ∧
    (∃ (s : State) (ch : Fin 64) (op : Nat) (bs : List Byte) (s1 : State), (dmaFetched s ch.val op = some (bs, s1)) ∧
      (5 ≤ op)) ∧
    (∃ (s : State) (ch : Fin 64) (k : Nat) (bs : List Byte) (s1 : State), (56 ≤ ch.val) ∧ (dmaState s ch.val = 1) ∧
      (doneAt (dmaRead s ch.val (dmaPc s ch.val) 64) = some (bs, s1)) ∧ (leAt bs 0x1C 4 % 2 = 0)) ∧
    (∃ (s : State) (ch : Fin 64) (k : Nat) (bs : List Byte) (s1 s2 : State), (56 ≤ ch.val) ∧ (dmaState s ch.val = 1) ∧
      (doneAt (dmaRead s ch.val (dmaPc s ch.val) 64) = some (bs, s1)) ∧ (leAt bs 0x1C 4 % 2 = 1 ∧ leAt bs 0 1 % 64 = 0 ∧
      descBad bs = false) ∧ (doneAt (dmaMoveOn s1 ch.val (leAt bs 8 6) (leAt bs 0x10 6) (leAt bs 0x18 4) k) = some ((), s2))) :=
  ⟨⟨dmaRun (tinyW []) 5 1 [(0, 1), (4, 3), (8, 0x40), (0x10, 0x80)], 5, 0, ((dmaRun (tinyW []) 5 1 [(0, 1), (4, 3), (8, 0x40),
    (0x10, 0x80)])).memBytes (tileLocalAddr 3 0) 32, (dmaRun (tinyW []) 5 1 [(0, 1), (4, 3), (8, 0x40), (0x10, 0x80)]), (dmaRun
    (tinyW []) 5 1 [(0, 1), (4, 3), (8, 0x40), (0x10, 0x80)]), 0x40, 0x80, 4, by decide +kernel, by decide +kernel,
    by decide +kernel, by decide +kernel, by decide +kernel, by decide +kernel, by decide +kernel⟩,
   ⟨{ dmaRun (tinyW [(R.DMA_CH_ITER_ITER 5, 0)]) 5 1 [(0x40, 2), (0x44, 3), (0x48, 1)] with regs := ((dmaRun (tinyW [(R.DMA_CH_ITER_ITER 5, 0)]) 5 1 []).setFld (R.DMA_CH_PCLO_PCLO 5) (tileLocalAddr 3 0x40)).regs },
     5, (({ dmaRun (tinyW [(R.DMA_CH_ITER_ITER 5, 0)]) 5 1 [(0x40, 2), (0x44, 3), (0x48, 1)] with regs := ((dmaRun (tinyW [(R.DMA_CH_ITER_ITER 5, 0)]) 5 1 []).setFld (R.DMA_CH_PCLO_PCLO 5) (tileLocalAddr 3 0x40)).regs })).memBytes
     (tileLocalAddr 3 0x40) 32,
     ({ dmaRun (tinyW [(R.DMA_CH_ITER_ITER 5, 0)]) 5 1 [(0x40, 2), (0x44, 3), (0x48, 1)] with regs := ((dmaRun (tinyW [(R.DMA_CH_ITER_ITER 5, 0)]) 5 1 []).setFld (R.DMA_CH_PCLO_PCLO 5) (tileLocalAddr 3 0x40)).regs }),
     by decide +kernel, by decide +kernel, by decide +kernel, by decide +kernel, by decide +kernel⟩,
   ⟨dmaRun (tinyW []) 5 1 [(0, 3), (8, 7)], 5, ((dmaRun (tinyW []) 5 1 [(0, 3), (8, 7)])).memBytes (tileLocalAddr 3 0) 32,
     (dmaRun (tinyW []) 5 1 [(0, 3), (8, 7)]), by decide +kernel, by decide +kernel⟩,
   ⟨dmaRun (tinyW []) 5 1 [(0, 0x24), (8, 7)], 5, ((dmaRun (tinyW []) 5 1 [(0, 0x24), (8, 7)])).memBytes (tileLocalAddr 3 0)
     32, (dmaRun (tinyW []) 5 1 [(0, 0x24), (8, 7)]), by decide +kernel, by decide +kernel⟩,
   ⟨dmaRun (tinyW []) 5 1 [], 5, ((dmaRun (tinyW []) 5 1 [])).memBytes (tileLocalAddr 3 0) 32, (dmaRun (tinyW []) 5 1 []),
     by decide +kernel, by decide +kernel⟩,
   ⟨dmaRun (tinyW []) 5 1 [(0, 5)], 5, 5, ((dmaRun (tinyW []) 5 1 [(0, 5)])).memBytes (tileLocalAddr 3 0) 32, (dmaRun (tinyW
     []) 5 1 [(0, 5)]), by decide +kernel, by decide +kernel⟩,
   ⟨dmaRun (tinyW []) 60 1 [], 60, 0, ((dmaRun (tinyW []) 60 1 [])).memBytes (tileLocalAddr 3 0) 64, (dmaRun (tinyW []) 60 1
     []), by decide +kernel, by decide +kernel, by decide +kernel, by decide +kernel⟩,
   ⟨dmaRun (tinyW []) 60 1 [(0x1C, 1)], 60, 0, ((dmaRun (tinyW []) 60 1 [(0x1C, 1)])).memBytes (tileLocalAddr 3 0) 64, (dmaRun
     (tinyW []) 60 1 [(0x1C, 1)]), (dmaRun (tinyW []) 60 1 [(0x1C, 1)]), by decide +kernel, by decide +kernel,
     by decide +kernel, by decide +kernel, by decide +kernel⟩⟩

theorem wit_DigestCommandsComplete :
    (∃ (s : State) (rq : Requester) (n : Fin 64), ((whoOf rq).1 < 3) ∧ (s.fld (R.DIGEST_CTX_OWN_KIND n.val) = 0)) ∧
    (∃ (s : State) (v : DmaVia) (n : Fin 64) (k : Nat), (k = digCtx s v n.val) ∧ (digOwner s k = dmaWho v) ∧
      ((dmaWho v).1 ≠ 0) ∧ (digState s k = 0 ∨ digState s k = 4)) ∧
    (∃ (s : State) (v : DmaVia) (n : Fin 64) (alg : Fin 4) (sealed : Bool) (k : Nat), (k = digCtx s v n.val) ∧
      (digOwner s k = dmaWho v) ∧ ((dmaWho v).1 ≠ 0) ∧ (blockOn s .digest = true) ∧
      (digState s k = 0 ∨ digState s k = 1 ∨ digState s k = 3 ∨ digState s k = 4)) ∧
    (∃ (s : State) (v : DmaVia) (n : Fin 64) (k : Nat), (k = digCtx s v n.val) ∧ (digOwner s k = dmaWho v) ∧
      ((dmaWho v).1 ≠ 0) ∧ (blockOn s .digest = true) ∧ (digState s k = 1)) ∧
    (∃ (s : State) (n : Fin 64) (src len : Nat) (bs : List Byte) (s1 : State), ((digOf s n.val).feed = some (src, len)) ∧
      (ownerReach s (digOwner s n.val) src len = true) ∧ (readGlobal (setDig s n.val { digOf s n.val with feed := none }) src
      len xoDigest = some (bs, s1, none))) ∧
    (∃ (s : State) (v : DmaVia) (n : Fin 64) (k : Nat), (k = digCtx s v n.val) ∧ (digOwner s k = dmaWho v) ∧
      ((dmaWho v).1 ≠ 0) ∧ (blockOn s .digest = true) ∧ (digState s k = 1) ∧
      ((digOf s k).decl = 2 ^ 64 - 1 ∨ (digOf s k).decl ≤ (digOf s k).msg.length)) ∧
    (∃ (s : State) (v : DmaVia) (n : Fin 64) (k : Nat), (k = digCtx s v n.val) ∧ (digOwner s k = dmaWho v) ∧
      ((dmaWho v).1 ≠ 0) ∧ (blockOn s .digest = true) ∧ (digState s k = 1) ∧ ((digOf s k).decl ≠ 2 ^ 64 - 1 ∧
      (digOf s k).msg.length < (digOf s k).decl)) ∧
    (∃ (s : State) (v : DmaVia) (n src : Fin 64) (k : Nat), (k = digCtx s v n.val) ∧ (digOwner s k = dmaWho v) ∧
      ((dmaWho v).1 ≠ 0) ∧ (blockOn s .digest = true) ∧ (digState s k = 1) ∧ (digState s src.val = 3 ∧
      digOwner s src.val = digOwner s k)) ∧
    (∃ (s : State) (v : DmaVia) (n : Fin 64) (k x : Nat) (bs : List Byte) (s1 : State), (k = digCtx s v n.val) ∧
      (digOwner s k = dmaWho v) ∧ ((dmaWho v).1 ≠ 0) ∧ (blockOn s .digest = true) ∧ (digState s k = 3) ∧
      (ownerReach s (digOwner s k) (s.fld (R.DIGEST_CTX_REFLO_REFLO k) + 2 ^ 32 * s.fld (R.DIGEST_CTX_REFHI_REFHI k))
      (digestLen (digOf s k).alg) = true) ∧ (readGlobal s (s.fld (R.DIGEST_CTX_REFLO_REFLO k) + 2 ^ 32 * s.fld
      (R.DIGEST_CTX_REFHI_REFHI k)) (digestLen (digOf s k).alg) xoDigest = some (bs, s1, none)) ∧
      (x = (if bs = (digOf s k).digest then 0x5AC3A53C else 0xA53C5AC3))) ∧
    (∃ (s : State) (v : DmaVia) (n : Fin 64) (k : Nat), (k = digCtx s v n.val) ∧ (digOwner s k = dmaWho v) ∧
      ((dmaWho v).1 ≠ 0) ∧ (blockOn s .digest = true) ∧ (digState s k ≠ 2) ∧ (digState s k ≤ 4)) :=
  ⟨⟨tinyW [(R.DIGEST_CTX_OWN_KIND 5, 0)], .core 33, 5, by decide +kernel, by decide +kernel⟩,
   ⟨tinyW [(R.DIGEST_CTX_OWN_KIND 5, 1), (R.DIGEST_CTX_OWN_ID 5, 1), (R.DIGEST_CTX_STAT_CSTATE 5, 4)], .reg (.core 33), 5, 5,
     by decide +kernel, by decide +kernel, by decide +kernel, by decide +kernel⟩,
   ⟨tinyW [(R.DIGEST_CTX_OWN_KIND 5, 1), (R.DIGEST_CTX_OWN_ID 5, 1), (fldState 0xE0000, 2)], .reg (.core 33), 5, 2, true, 5,
     by decide +kernel, by decide +kernel, by decide +kernel, by decide +kernel, by decide +kernel⟩,
   ⟨tinyW [(R.DIGEST_CTX_OWN_KIND 5, 1), (R.DIGEST_CTX_OWN_ID 5, 1), (R.DIGEST_CTX_STAT_CSTATE 5, 1), (fldState 0xE0000, 2)],
     .reg (.core 33), 5, 5, by decide +kernel, by decide +kernel, by decide +kernel, by decide +kernel, by decide +kernel⟩,
   ⟨{ tinyW [(R.DIGEST_CTX_OWN_KIND 5, 1), (R.DIGEST_CTX_OWN_ID 5, 1)] with digs := [(5, { DigCtx.reset with feed := some (tileLocalAddr 3 0, 4) })] },
     5, tileLocalAddr 3 0, 4, [0, 0, 0, 0],
     { ({ tinyW [(R.DIGEST_CTX_OWN_KIND 5, 1), (R.DIGEST_CTX_OWN_ID 5, 1)] with digs := [(5, { DigCtx.reset with feed := some (tileLocalAddr 3 0, 4) })] }) with digs := [] },
     by decide +kernel, by decide +kernel, by decide +kernel⟩,
   ⟨tinyW [(R.DIGEST_CTX_OWN_KIND 5, 1), (R.DIGEST_CTX_OWN_ID 5, 1), (R.DIGEST_CTX_STAT_CSTATE 5, 1), (fldState 0xE0000, 2)],
     .reg (.core 33), 5, 5, by decide +kernel, by decide +kernel, by decide +kernel, by decide +kernel, by decide +kernel,
     by decide +kernel⟩,
   ⟨{ tinyW [(R.DIGEST_CTX_OWN_KIND 5, 1), (R.DIGEST_CTX_OWN_ID 5, 1), (R.DIGEST_CTX_STAT_CSTATE 5, 1), (fldState 0xE0000, 2)] with digs := [(5, { DigCtx.reset with decl := 5 })] },
     .reg (.core 33), 5, 5, by decide +kernel, by decide +kernel, by decide +kernel, by decide +kernel, by decide +kernel,
     by decide +kernel⟩,
   ⟨tinyW [(R.DIGEST_CTX_OWN_KIND 5, 1), (R.DIGEST_CTX_OWN_ID 5, 1), (R.DIGEST_CTX_STAT_CSTATE 5, 1), (R.DIGEST_CTX_OWN_KIND 6,
     1), (R.DIGEST_CTX_OWN_ID 6, 1), (R.DIGEST_CTX_STAT_CSTATE 6, 3), (fldState 0xE0000, 2)], .reg (.core 33), 5, 6, 5,
     by decide +kernel, by decide +kernel, by decide +kernel, by decide +kernel, by decide +kernel, by decide +kernel⟩,
   ⟨tinyW [(R.DIGEST_CTX_OWN_KIND 5, 1), (R.DIGEST_CTX_OWN_ID 5, 1), (R.DIGEST_CTX_STAT_CSTATE 5, 3), (R.DIGEST_CTX_REFLO_REFLO
     5, tileLocalAddr 3 0), (R.DIGEST_CTX_REFHI_REFHI 5, tileLocalAddr 3 0 / 2 ^ 32), (fldState 0xE0000, 2)], .reg (.core 33),
     5, 5, 0xA53C5AC3, List.replicate 32 0, (tinyW [(R.DIGEST_CTX_OWN_KIND 5, 1), (R.DIGEST_CTX_OWN_ID 5, 1),
     (R.DIGEST_CTX_STAT_CSTATE 5, 3), (R.DIGEST_CTX_REFLO_REFLO 5, tileLocalAddr 3 0), (R.DIGEST_CTX_REFHI_REFHI 5,
     tileLocalAddr 3 0 / 2 ^ 32), (fldState 0xE0000, 2)]), by decide +kernel, by decide +kernel, by decide +kernel,
     by decide +kernel, by decide +kernel, by decide +kernel, by decide +kernel, by decide +kernel⟩,
   ⟨tinyW [(R.DIGEST_CTX_OWN_KIND 5, 1), (R.DIGEST_CTX_OWN_ID 5, 1), (R.DIGEST_CTX_STAT_CSTATE 5, 3), (fldState 0xE0000, 2)],
     .reg (.core 33), 5, 5, by decide +kernel, by decide +kernel, by decide +kernel, by decide +kernel, by decide +kernel,
     by decide +kernel⟩⟩

theorem wit_KeyStoreCommandsComplete :
    (∃ (s : State) (rq : Requester) (slot : Fin 512) (ktype : BitVec 8) (usage : Fin 16) (k : KeySlot × State), ((vaultWho s
      rq).isSome = true) ∧ (blockOn s .keys = true) ∧ (s.fuses.lc < 3) ∧ (keyPermitted ktype.toNat usage.val = true) ∧
      (slotKey s slot.val = none) ∧ (rngOk s = true) ∧ (Registers.wf s.regs = true) ∧
      (k = newKey (s.setFlds [(R.KEYS_CMD_SLOT, slot.val), (R.KEYS_CMD_KTYPE, ktype.toNat), (R.KEYS_CMD_USAGE, usage.val)])
      ktype.toNat usage.val)) ∧
    (∃ (s : State) (rq : Requester) (slot : Fin 512), ((vaultWho s rq).isSome = true) ∧ (blockOn s .keys = true) ∧
      (s.fuses.lc < 3) ∧ (Registers.wf s.regs = true)) ∧
    (∃ (s : State), (s.flag R.KEYS_CTRL_EN = true) ∧ (rngOk s = false) ∧ (s.drbg.failed = false)) ∧
    (∃ (s : State), (rngOk s = true) ∧ (65536 ≤ s.drbg.requests)) ∧
    (∃ (s : State), (s.flag R.KEYS_CTRL_EN = true)) ∧
    (∃ (s : State) (rq : Requester), ((vaultWho s rq).isSome = true) ∧ (rngOk s = true)) ∧
    (∃ (s : State) (rq : Requester), ((vaultWho s rq).isSome = true) ∧ (rngOk s = false)) ∧
    (∃ (s : State) (c : CoreId) (target : Fin 4) (keyword : BitVec 16), (32 ≤ c.val) ∧ (keyword = 0x4C43#16) ∧
      (target.val = s.fuses.lc + 1) ∧ (s.drbg.burn = none) ∧ (target.val ≠ 1 ∨ rngOk s = true)) ∧
    (∃ (s : State) (rq : Requester) (target : Fin 4) (keyword : BitVec 16), ((vaultWho s rq).isSome = true) ∧
      (keyword ≠ 0x4C43#16 ∨ target.val ≠ s.fuses.lc + 1)) ∧
    (∃ (s : State) (n : Nat), (s.drbg.burn = some n)) :=
  ⟨⟨tinyW [(fldState 0x300000, 2), (R.KEYS_STATUS_RNGOK, 1)], .core 33, 7, 1, 2, newKey (((tinyW [(fldState 0x300000, 2),
    (R.KEYS_STATUS_RNGOK, 1)])).setFlds [(R.KEYS_CMD_SLOT, 7), (R.KEYS_CMD_KTYPE, 1), (R.KEYS_CMD_USAGE, 2)]) 1 2,
    by decide +kernel, by decide +kernel, by decide +kernel, by decide +kernel, by decide +kernel, by decide +kernel,
    by decide +kernel, rfl⟩,
   ⟨tinyW [(fldState 0x300000, 2)], .core 33, 7, by decide +kernel, by decide +kernel, by decide +kernel, by decide +kernel⟩,
   ⟨tinyW [(R.KEYS_CTRL_EN, 1), (R.KEYS_STATUS_RNGOK, 0)], by decide +kernel, by decide +kernel, by decide +kernel⟩,
   ⟨{ tinyW [(R.KEYS_STATUS_RNGOK, 1)] with drbg := { DrbgSt.reset with requests := 65536 } }, by decide +kernel,
     by decide +kernel⟩,
   ⟨tinyW [(R.KEYS_CTRL_EN, 1)], by decide +kernel⟩,
   ⟨tinyW [(R.KEYS_STATUS_RNGOK, 1)], .core 33, by decide +kernel, by decide +kernel⟩,
   ⟨tinyW [(R.KEYS_STATUS_RNGOK, 0)], .core 33, by decide +kernel, by decide +kernel⟩,
   ⟨{ tinyW [(R.KEYS_STATUS_RNGOK, 1)] with fuses := { Fuses.blank with lc := 1 } }, 33, 2, 0x4C43#16, by decide +kernel,
     by decide +kernel, by decide +kernel, by decide +kernel, by decide +kernel⟩,
   ⟨tinyW [], .core 33, 2, 0x4C43#16, by decide +kernel, by decide +kernel⟩,
   ⟨{ tinyW [] with drbg := { DrbgSt.reset with burn := some 1 } }, 1, by decide +kernel⟩⟩

theorem wit_VaultCommandsComplete :
    (∃ (s : State) (rq : Requester) (who : Who), (vaultWho s rq = some who) ∧ (vaultHeld s = false) ∧
      (blockOn s .vault = true) ∧ (s.vault.lapsed = none)) ∧
    (∃ (s : State) (rq : Requester) (who : Who), (vaultWho s rq = some who) ∧ (vaultMine s who = true)) ∧
    (∃ (s : State) (rq : Requester) (who : Who) (mode : Fin 3) (slot : Fin 512) (k : KeySlot), (vaultWho s rq = some who) ∧
      (vaultMine s who = true) ∧ (s.vault.run = none) ∧ (s.vault.msg = none) ∧ (s.fuses.lc < 3) ∧
      (slotKey s slot.val = some k) ∧ (k.ktype = 1 ∧ bitOf k.usage 1 = true)) ∧
    (∃ (s : State) (rq : Requester) (who : Who) (m : VMsg), (vaultWho s rq = some who) ∧ (vaultMine s who = true) ∧
      (s.vault.run = none) ∧ (s.vault.msg = some m) ∧ (m.last = false) ∧ (stepBad m (s.fld R.VAULT_LEN_LEN) = false)) ∧
    (∃ (s : State) (m : VMsg) (r : Nat × State × VMsg), (s.vault.run = some 2) ∧ (s.vault.msg = some m) ∧
      (r = vaultBlocks s m (vaultSrc s) (vaultDst s) (s.fld R.VAULT_LEN_LEN) (s.fld R.VAULT_LEN_LEN) (s.fld R.VAULT_LEN_LEN))) ∧
    (∃ (s : State) (rq : Requester) (who : Who) (m : VMsg), (vaultWho s rq = some who) ∧ (vaultMine s who = true) ∧
      (s.vault.run = none) ∧ (s.vault.msg = some m)) ∧
    (∃ (s : State) (rq : Requester) (who : Who) (slot : Fin 512) (kek : Fin 514) (key : List Byte), (vaultWho s rq = some who)
      ∧ (vaultMine s who = true) ∧ (s.vault.run = none) ∧ (s.vault.msg = none) ∧ (Registers.wf s.regs = true) ∧
      ((kekKey (s.setFlds [(R.VAULT_CMD_SLOT, slot.val), (R.VAULT_CMD_KEK, kek.val)]) kek.val).toOption = some key) ∧
      (slotKey s slot.val = none)) ∧
    (∃ (s : State) (rq : Requester) (who : Who) (slot : Fin 512) (kek : Fin 514) (key : List Byte) (k : KeySlot), (vaultWho s
      rq = some who) ∧ (vaultMine s who = true) ∧ (s.vault.run = none) ∧ (s.vault.msg = none) ∧ (Registers.wf s.regs = true) ∧
      ((kekKey (s.setFlds [(R.VAULT_CMD_SLOT, slot.val), (R.VAULT_CMD_KEK, kek.val)]) kek.val).toOption = some key) ∧
      (slotKey s slot.val = some k) ∧ (bitOf k.usage 3 = true ∨ kek.val = 512) ∧ (rngOk s = true)) ∧
    (∃ (s : State), (vaultHeld s = true) ∧ (s.vault.run = none)) :=
  ⟨⟨tinyW [(fldState 0xF0000, 2), (R.VAULT_LOCK_KIND, 0)], .core 33, (1, 1), by decide +kernel, by decide +kernel,
    by decide +kernel, by decide +kernel⟩,
   ⟨tinyW [(R.VAULT_LOCK_KIND, 1), (R.VAULT_LOCK_ID, 1)], .core 33, (1, 1), by decide +kernel, by decide +kernel⟩,
   ⟨{ tinyW [(R.VAULT_LOCK_KIND, 1), (R.VAULT_LOCK_ID, 1)] with keys := [(7, some ⟨1, 2, List.replicate 64 0⟩)] }, .core 33,
     (1, 1), 1, 7, ⟨1, 2, List.replicate 64 0⟩, by decide +kernel, by decide +kernel, by decide +kernel, by decide +kernel,
     by decide +kernel, by decide +kernel, by decide +kernel⟩,
   ⟨{ tinyW [(R.VAULT_LOCK_KIND, 1), (R.VAULT_LOCK_ID, 1), (R.VAULT_LEN_LEN, 16)] with vault := { VaultSt.reset with msg := some ⟨0, true, List.replicate 32 0, List.replicate 16 0, 0, false⟩ } },
     .core 33, (1, 1), ⟨0, true, List.replicate 32 0, List.replicate 16 0, 0, false⟩, by decide +kernel, by decide +kernel,
     by decide +kernel, by decide +kernel, by decide +kernel, by decide +kernel⟩,
   ⟨{ tinyW [(R.VAULT_LEN_LEN, 0)] with vault := { VaultSt.reset with run := some 2, msg := some ⟨1, true, List.replicate 32 0, List.replicate 16 0, 0, false⟩ } },
     ⟨1, true, List.replicate 32 0, List.replicate 16 0, 0, false⟩, (0,
     ({ tinyW [(R.VAULT_LEN_LEN, 0)] with vault := { VaultSt.reset with run := some 2, msg := some ⟨1, true, List.replicate 32 0, List.replicate 16 0, 0, false⟩ } }),
     ⟨1, true, List.replicate 32 0, List.replicate 16 0, 0, false⟩), by decide +kernel, by decide +kernel, by decide +kernel⟩,
   ⟨{ tinyW [(R.VAULT_LOCK_KIND, 1), (R.VAULT_LOCK_ID, 1)] with vault := { VaultSt.reset with msg := some ⟨1, true, [], [], 0, false⟩ } },
     .core 33, (1, 1), ⟨1, true, [], [], 0, false⟩, by decide +kernel, by decide +kernel, by decide +kernel, by decide +kernel⟩,
   ⟨{ tinyW [(R.VAULT_LOCK_KIND, 1), (R.VAULT_LOCK_ID, 1)] with fuses := { Fuses.blank with root := some [1] } }, .core 33, (1,
     1), 7, 512, [1], by decide +kernel, by decide +kernel, by decide +kernel, by decide +kernel, by decide +kernel,
     by decide +kernel, by decide +kernel⟩,
   ⟨{ tinyW [(R.VAULT_LOCK_KIND, 1), (R.VAULT_LOCK_ID, 1), (R.KEYS_STATUS_RNGOK, 1)] with fuses := { Fuses.blank with root := some [1] }, keys := [(7, some ⟨1, 2, List.replicate 64 0⟩)] },
     .core 33, (1, 1), 7, 512, [1], ⟨1, 2, List.replicate 64 0⟩, by decide +kernel, by decide +kernel, by decide +kernel,
     by decide +kernel, by decide +kernel, by decide +kernel, by decide +kernel, by decide +kernel, by decide +kernel⟩,
   ⟨tinyW [(R.VAULT_LOCK_KIND, 1)], by decide +kernel, by decide +kernel⟩⟩

theorem wit_DamdomLinkCommandsComplete :
    (∃ (s : State) (p : Fin 4), (lState s p.val = 1)) ∧
    (∃ (s : State) (p : Fin 4) (x4 : Bool), (lState s p.val = 2)) ∧
    (∃ (s : State) (p : Fin 4), (lState s p.val = 2 ∨ (lState s p.val = 3 ∧ s.flag (R.DPORT_STATUS_NOVER p.val) = false))) ∧
    (∃ (s : State) (p : Fin 4), (s.flag (R.DPORT_CTRL_EN p.val) = true) ∧ (lState s p.val = 0)) ∧
    (∃ (s : State) (p : Fin 4) (fl : List Byte), (lState s p.val = 3 ∨ lState s p.val = 4) ∧
      (fl.length ≠ 64 ∨ leAt fl 60 4 ≠ crc32c (fl.take 60))) ∧
    (∃ (s : State) (p : Fin 4) (fl : List Byte) (ft : Nat), (lState s p.val = 3 ∨ lState s p.val = 4) ∧ (fl.length = 64 ∧
      leAt fl 60 4 = crc32c (fl.take 60)) ∧ (ft = bitsOf (leAt fl 0 4) 0 4) ∧ (1 ≤ ft ∧ ft ≤ 4) ∧
      (bitOf (leAt fl 0 4) 6 = false ∧ bitOf (leAt fl 0 4) 7 = false) ∧ (bitsOf (leAt fl 0 4) 8 12 = (portOf s p.val).rxSeq)) ∧
    (∃ (s : State) (p : Fin 4), ((portOf s p.val).missing = true)) ∧
    (∃ (s : State) (p : Fin 4), (lState s p.val = 4)) ∧
    (∃ (s : State) (p : Fin 4), (lState s p.val = 4) ∧ ((portOf s p.val).replay ≠ []) ∧
      ((portOf s p.val).resends < s.fld (R.DPORT_RETRY_LIMIT p.val))) ∧
    (∃ (s : State) (p : Fin 4), (lState s p.val = 4) ∧ ((portOf s p.val).replay ≠ []) ∧
      (s.fld (R.DPORT_RETRY_LIMIT p.val) ≤ (portOf s p.val).resends)) ∧
    (∃ (s : State) (p : Fin 4) (m : List Byte) (s1 : State), (takeLink s p.val 0 = some (m, s1))) ∧
    (∃ (s : State) (p : Fin 4), (lState s p.val = 4)) ∧
    (∃ (s : State) (p : Fin 4) (s1 : State), (lState s p.val = 3) ∧ ((portOf s p.val).peer.isSome = true) ∧
      (s.fld (R.DPORT_STATUS_VER p.val) ≠ 0) ∧ (s1 = sendLink s p.val 0 (helloBytes s p.val true))) ∧
    (∃ (s : State) (p : Fin 4), (lState s p.val = 4)) ∧
    (∃ (s : State) (p : Fin 4) (m : List Byte) (s1 : State), (takeLink s p.val 1 = some (m, s1))) ∧
    (∃ (s : State) (p : Fin 4) (m : List Byte) (s1 : State), (takeLink s p.val 2 = some (m, s1))) ∧
    (∃ (s : State) (p : Fin 4) (m : List Byte) (s1 : State), (takeLink s p.val 5 = some (m, s1))) :=
  ⟨⟨tinyW [(R.DPORT_STATUS_LSTATE 1, 1)], 1, by decide +kernel⟩,
   ⟨tinyW [(R.DPORT_STATUS_LSTATE 1, 2)], 1, true, by decide +kernel⟩,
   ⟨tinyW [(R.DPORT_STATUS_LSTATE 1, 2)], 1, by decide +kernel⟩,
   ⟨tinyW [(R.DPORT_CTRL_EN 1, 1), (R.DPORT_STATUS_LSTATE 1, 0)], 1, by decide +kernel, by decide +kernel⟩,
   ⟨tinyW [(R.DPORT_STATUS_LSTATE 1, 4)], 1, [1], by decide +kernel, by decide +kernel⟩,
   ⟨tinyW [(R.DPORT_STATUS_LSTATE 1, 4)], 1, mkFlit 4 0 0 none [], 4, by decide +kernel, by decide +kernel, by decide +kernel,
     by decide +kernel, by decide +kernel, by decide +kernel⟩,
   ⟨setPort (tinyW []) 1 { Port.reset with missing := true }, 1, by decide +kernel⟩,
   ⟨tinyW [(R.DPORT_STATUS_LSTATE 1, 4)], 1, by decide +kernel⟩,
   ⟨setPort (tinyW [(R.DPORT_STATUS_LSTATE 1, 4), (R.DPORT_RETRY_LIMIT 1, 3)]) 1 { Port.reset with replay := [(0, [])] }, 1,
     by decide +kernel, by decide +kernel, by decide +kernel⟩,
   ⟨setPort (tinyW [(R.DPORT_STATUS_LSTATE 1, 4), (R.DPORT_RETRY_LIMIT 1, 3)]) 1
     { Port.reset with replay := [(0, [])], resends := 3 }, 1, by decide +kernel, by decide +kernel, by decide +kernel⟩,
   ⟨linked (tinyW []) (List.replicate 36 0), 1, List.replicate 36 0, unlinked (tinyW []), by decide +kernel⟩,
   ⟨tinyW [(R.DPORT_STATUS_LSTATE 1, 4)], 1, by decide +kernel⟩,
   ⟨setPort (tinyW [(R.DPORT_STATUS_LSTATE 1, 3), (R.DPORT_STATUS_VER 1, 2)]) 1 { Port.reset with peer := some ⟨7, 0, 0, 0⟩ },
     1, sendLink (setPort (tinyW [(R.DPORT_STATUS_LSTATE 1, 3), (R.DPORT_STATUS_VER 1, 2)]) 1
     { Port.reset with peer := some ⟨7, 0, 0, 0⟩ }) 1 0 (helloBytes (setPort (tinyW [(R.DPORT_STATUS_LSTATE 1, 3),
     (R.DPORT_STATUS_VER 1, 2)]) 1 { Port.reset with peer := some ⟨7, 0, 0, 0⟩ }) 1 true), by decide +kernel,
     by decide +kernel, by decide +kernel, rfl⟩,
   ⟨tinyW [(R.DPORT_STATUS_LSTATE 1, 4)], 1, by decide +kernel⟩,
   ⟨linked (tinyW []) [1, 0, 0, 0], 1, [1, 0, 0, 0], unlinked (tinyW []), by decide +kernel⟩,
   ⟨linked (tinyW []) [2, 0, 5, 0, 0, 0, 0, 0], 1, [2, 0, 5, 0, 0, 0, 0, 0], unlinked (tinyW []), by decide +kernel⟩,
   ⟨linked (tinyW []) [5], 1, [5], unlinked (tinyW []), by decide +kernel⟩⟩

theorem wit_FabricFrameCommandsComplete :
    (∃ (s : State) (p : Fin 4) (vc : Fin 3) (f : Frame) (q : Nat), (headFrame s p.val vc.val = some f) ∧ (forUs s f = false) ∧
      (isFenced s = false) ∧ (f.dst ≠ 0xF000) ∧ (isAssigned s = true) ∧ (1 < f.ttl) ∧ (routeOf s f.dst = some q) ∧
      (q ≠ p.val) ∧ (Registers.wf s.regs = true)) ∧
    (∃ (s : State) (p : Fin 4) (vc : Nat) (f : Frame), (headVc s p.val (fun f => !kindDefined f.kind && forUs s f) = some (vc,
      f))) ∧
    (∃ (s : State) (p : Fin 4) (f : Frame) (s1 : State), (frameTaken s p.val (fun f => f.kind == 0x01) = some (f, s1))) ∧
    (∃ (s : State) (p : Fin 4) (f : Frame) (s1 : State) (d : Disc), (frameTaken s p.val (fun f => f.kind == 0x02) = some (f,
      s1)) ∧ (s1.fab.disc = some d) ∧ ((recMgr f.data && recSeg f.data == mySegment s1 && decide (recUid f.data <
      s1.fuses.uid)) = false) ∧ (d.nodes.any (fun n => recUid n.2 == recUid f.data) = true) ∧
      (d.wait.erase (reversePath f p.val) = [])) ∧
    (∃ (s : State) (p : Fin 4) (f : Frame) (s1 : State), (frameTaken s p.val (fun f => f.kind == 0x03) = some (f, s1))) ∧
    (∃ (s : State) (p : Fin 4) (f : Frame) (s1 : State) (addr : Nat), (frameTaken s p.val (fun f => f.kind == 0x04) = some (f,
      s1)) ∧ (s1.fab.assign = some addr)) ∧
    (∃ (s : State) (p : Fin 4) (f : Frame) (s1 : State), (frameTaken s p.val (fun f => f.kind == 0x07) = some (f, s1))) ∧
    (∃ (s : State), (isManager s = true) ∧ (blockOn s .fab = true) ∧
      (probesFrom s [([], nodeRecord s)] [] (nodeRecord s) ≠ [])) ∧
    (∃ (s : State) (p : Fin 4) (f : Frame) (s1 : State), (frameTaken s p.val (fun f => f.kind == 0x06) = some (f, s1))) ∧
    (∃ (s : State) (p : Fin 4) (f : Frame) (s1 : State), (frameTaken s p.val (isMreq (fun k => k == 1)) = some (f, s1))) ∧
    (∃ (s : State) (p : Fin 4) (f : Frame) (s1 : State), (frameTaken s p.val (isMreq (fun k => k == 2)) = some (f, s1)) ∧
      (bitsOf f.arg1 8 32 % 4 ≠ 0)) ∧
    (∃ (s : State) (p : Fin 4) (f : Frame) (s1 : State) (r : List Byte × State), (frameTaken s p.val (isMreq (fun k => k == 2))
      = some (f, s1)) ∧ (bitsOf f.arg1 0 8 = 0xC0 ∨ bitsOf f.arg1 0 8 = 0xC2 ∨ bitsOf f.arg1 0 8 = 0xC3 ∨ bitsOf f.arg1 0 8 =
      0xC4) ∧ (bitsOf f.arg1 8 32 % 4 = 0) ∧ (bitsOf f.arg1 8 32 < (pageLen s1 (bitsOf f.arg1 0 8)).getD 0) ∧
      (r = fillPage s1 (vendorPage s1 (bitsOf f.arg1 0 8) (bitsOf f.arg1 8 32) 4096))) ∧
    (∃ (s : State) (p : Fin 4) (f : Frame) (s1 : State), (frameTaken s p.val (isMreq (fun k => k == 3)) = some (f, s1)) ∧
      (f.arg1 < 2 ^ 18)) ∧
    (∃ (s : State) (p : Fin 4) (dt : Nat) (f : Frame) (s1 : State), (frameTaken s p.val (isMreq (fun k => k == 4)) = some (f,
      s1))) ∧
    (∃ (s : State) (p : Fin 4) (f : Frame) (s1 : State), (frameTaken s p.val (isMreq (fun k => k == 5)) = some (f, s1))) ∧
    (∃ (s : State) (p : Fin 4) (f : Frame) (s1 : State), (frameTaken s p.val (isMreq (fun k => k == 0 || decide (5 < k))) =
      some (f, s1))) :=
  ⟨⟨setPort (tinyW [(R.FAB_STATUS_ASSIGNED, 1), (R.FAB_ROUTE_VALID 66, 1), (R.FAB_ROUTE_PORT 66, 2)]) 1
    { Port.reset with rx := [(0, ⟨66, 65, 1, 5, 0, 0, []⟩, 1)] }, 1, 0, ⟨66, 65, 1, 5, 0, 0, []⟩, 2, by decide +kernel,
    by decide +kernel, by decide +kernel, by decide +kernel, by decide +kernel, by decide +kernel, by decide +kernel,
    by decide +kernel, by decide +kernel⟩,
   ⟨framed (tinyW []) 0 (frameK 0x30 0 0 []), 1, 0, frameK 0x30 0 0 [], by decide +kernel⟩,
   ⟨framed (tinyW []) 0 (frameK 1 0 0 []), 1, frameK 1 0 0 [], popFrame (framed (tinyW []) 0 (frameK 1 0 0 [])) 1 0,
     by decide +kernel⟩,
   ⟨{ framed (tinyW []) 0 (frameK 2 0 0 []) with fab := { FabSt.reset with ports := [(1, { Port.reset with rx := [(0, frameK 2 0 0 [], 1)] })], disc := some ⟨[([], [])], []⟩ } },
     1, frameK 2 0 0 [], popFrame
     ({ framed (tinyW []) 0 (frameK 2 0 0 []) with fab := { FabSt.reset with ports := [(1, { Port.reset with rx := [(0, frameK 2 0 0 [], 1)] })], disc := some ⟨[([], [])], []⟩ } })
     1 0, ⟨[([], [])], []⟩, by decide +kernel, by decide +kernel, by decide +kernel, by decide +kernel, by decide +kernel⟩,
   ⟨framed (tinyW []) 0 (frameK 3 0 0 []), 1, frameK 3 0 0 [], popFrame (framed (tinyW []) 0 (frameK 3 0 0 [])) 1 0,
     by decide +kernel⟩,
   ⟨{ framed (tinyW []) 0 (frameK 4 0 0 []) with fab := { FabSt.reset with ports := [(1, { Port.reset with rx := [(0, frameK 4 0 0 [], 1)] })], assign := some 65 } },
     1, frameK 4 0 0 [], popFrame
     ({ framed (tinyW []) 0 (frameK 4 0 0 []) with fab := { FabSt.reset with ports := [(1, { Port.reset with rx := [(0, frameK 4 0 0 [], 1)] })], assign := some 65 } })
     1 0, 65, by decide +kernel, by decide +kernel⟩,
   ⟨framed (tinyW []) 0 (frameK 7 0 0 []), 1, frameK 7 0 0 [], popFrame (framed (tinyW []) 0 (frameK 7 0 0 [])) 1 0,
     by decide +kernel⟩,
   ⟨tinyW [(R.FAB_STATUS_MANAGER, 1), (fldState 0x310000, 2), (R.DPORT_STATUS_LSTATE 1, 4), (R.DPORT_PEERUIDLO_UID 1, 9)],
     by decide +kernel, by decide +kernel, by decide +kernel⟩,
   ⟨framed (tinyW []) 0 (frameK 6 0 0 []), 1, frameK 6 0 0 [], popFrame (framed (tinyW []) 0 (frameK 6 0 0 [])) 1 0,
     by decide +kernel⟩,
   ⟨framed (tinyW []) 0 (frameK 5 1 0 []), 1, frameK 5 1 0 [], popFrame (framed (tinyW []) 0 (frameK 5 1 0 [])) 1 0,
     by decide +kernel⟩,
   ⟨framed (tinyW []) 0 (frameK 5 2 0x1C0 []), 1, frameK 5 2 0x1C0 [], popFrame (framed (tinyW []) 0 (frameK 5 2 0x1C0 [])) 1
     0, by decide +kernel, by decide +kernel⟩,
   ⟨framed (tinyW []) 0 (frameK 5 2 0xC0 []), 1, frameK 5 2 0xC0 [], popFrame (framed (tinyW []) 0 (frameK 5 2 0xC0 [])) 1 0,
     fillPage (popFrame (framed (tinyW []) 0 (frameK 5 2 0xC0 [])) 1 0) (vendorPage (popFrame (framed (tinyW []) 0 (frameK 5 2
     0xC0 [])) 1 0) 0xC0 0 4096), by decide +kernel, by decide +kernel, by decide +kernel, by decide +kernel, rfl⟩,
   ⟨framed (tinyW []) 0 (frameK 5 3 7 []), 1, frameK 5 3 7 [], popFrame (framed (tinyW []) 0 (frameK 5 3 7 [])) 1 0,
     by decide +kernel, by decide +kernel⟩,
   ⟨framed (tinyW []) 0 (frameK 5 4 7 []), 1, 5, frameK 5 4 7 [], popFrame (framed (tinyW []) 0 (frameK 5 4 7 [])) 1 0,
     by decide +kernel⟩,
   ⟨framed (tinyW []) 0 (frameK 5 5 7 []), 1, frameK 5 5 7 [], popFrame (framed (tinyW []) 0 (frameK 5 5 7 [])) 1 0,
     by decide +kernel⟩,
   ⟨framed (tinyW []) 0 (frameK 5 9 7 []), 1, frameK 5 9 7 [], popFrame (framed (tinyW []) 0 (frameK 5 9 7 [])) 1 0,
     by decide +kernel⟩⟩

theorem wit_IngestHallwayAndTimeComplete :
    (∃ (s : State) (p : Fin 4) (dt : Nat) (f : Frame) (s0 s1 s2 : State) (flow seq len : Nat), (frameTaken s p.val (fun f =>
      f.kind == 0x10) = some (f, s0)) ∧ (s1 = timePass s0 dt) ∧ (isFenced s1 = false) ∧ (flow = bitsOf f.arg0 0 18 ∧
      len = bitsOf f.arg1 0 32 ∧ seq = ctxGet s1 flow cxNEXT) ∧ ((portOf s1 p.val).held.contains flow = false) ∧ (len ≠ 0 ∧
      len % 4096 = 0 ∧ len ≤ ctxParcelSize s1 flow) ∧ (ctxBound s1 flow = true ∧ ctxDraining s1 flow = false ∧
      ctxGet s1 flow cxFABIN ≠ 0 ∧ ctxStopped s1 flow = false) ∧ ((portOf s1 p.val).opens.length < 256 ∧
      blockOn s1 .disp = true ∧ blockOn s1 (.dport p) = true) ∧ (cutParcel (setPort s1 p.val
      { portOf s1 p.val with held := (portOf s1 p.val).held.erase flow }) flow seq len 0 .fab = some s2)) ∧
    (∃ (s : State) (p : Fin 4) (dt : Nat) (f : Frame) (s1 : State), (frameTaken s p.val (fun f => f.kind == 0x10) = some (f,
      s1)) ∧ (isFenced s1 = true)) ∧
    (∃ (s : State) (p : Fin 4) (f : Frame) (s1 : State), (s.flows.fabUsed < s.flows.fabLimit) ∧
      (frameTaken s p.val (fun f => f.kind == 0x11) = some (f, s1)) ∧ (isFenced s1 = false) ∧
      ((portOf s1 p.val).opens.find? (fun o => o.ph == bitsOf f.arg0 0 16) = none)) ∧
    (∃ (s : State) (p : Fin 4) (f : Frame) (s1 : State) (o : OpenParcel) (q : Parcel), (s.flows.fabUsed < s.flows.fabLimit) ∧
      (frameTaken s p.val (fun f => f.kind == 0x11) = some (f, s1)) ∧ (isFenced s1 = false) ∧
      ((portOf s1 p.val).opens.find? (fun o => o.ph == bitsOf f.arg0 0 16) = some o) ∧ (landingParcel s1 o = some q) ∧
      (f.data ≠ [] ∧ q.got + f.data.length < q.len) ∧ (bitOf f.arg0 16 = false) ∧ (o.closed = false ∧ o.long = false)) ∧
    (∃ (s : State) (flow : Fin 262144) (seq p : Nat), (s.fld R.DISP_GAPTO_GAP ≠ 0) ∧
      ((List.range 4).find? (fun p => (portOf s p).opens.any (fun o => o.flow == flow.val && o.seq == seq)) = some p)) ∧
    (∃ (s : State) (p : Fin 4) (f : Frame) (s1 : State) (x : HwWin), (frameTaken s p.val (fun f => f.kind == 0x20) = some (f,
      s1)) ∧ (isFenced s1 = false) ∧ (findWin s1 (bitsOf f.arg0 0 6) = some x) ∧
      (hwRangeBad x (bitsOf f.arg0 8 36) f.data.length = false) ∧
      (slotTag s1 x (bitsOf f.arg0 8 36 / 0x10000) = tagPeer f.src)) ∧
    (∃ (s : State) (p : Fin 4) (f : Frame) (s1 : State) (x : HwWin), (frameTaken s p.val (fun f => f.kind == 0x20) = some (f,
      s1)) ∧ (isFenced s1 = false) ∧ (findWin s1 (bitsOf f.arg0 0 6) = some x) ∧
      (hwRangeBad x (bitsOf f.arg0 8 36) f.data.length = false) ∧
      (slotTag s1 x (bitsOf f.arg0 8 36 / 0x10000) ≠ tagPeer f.src)) ∧
    (∃ (s : State) (p : Fin 4) (f : Frame) (s1 s2 : State) (x : HwWin) (bs : List Byte), (frameTaken s p.val (fun f => f.kind
      == 0x21) = some (f, s1)) ∧ (isFenced s1 = false) ∧ (findWin s1 (bitsOf f.arg0 0 6) = some x) ∧
      (hwRangeBad x (bitsOf f.arg0 8 36) (bitsOf f.arg1 0 13) = false) ∧
      (x.rdall = true ∨ slotTag s1 x (bitsOf f.arg0 8 36 / 0x10000) = tagPeer f.src) ∧
      (readRam s1 (x.base + bitsOf f.arg0 8 36) (bitsOf f.arg1 0 13) = (bs, s2, none))) ∧
    (∃ (s : State) (p : Fin 4) (f : Frame) (s1 : State) (x : HwWin), (frameTaken s p.val (fun f => f.kind == 0x23) = some (f,
      s1)) ∧ (isFenced s1 = false) ∧ (findWin s1 (bitsOf f.arg0 0 6) = some x) ∧ (bitsOf f.arg0 8 20 < x.slots) ∧
      (slotTag s1 x (bitsOf f.arg0 8 20) = tagPeer f.src) ∧ (tagBad (bitsOf f.arg1 0 32) = false)) ∧
    (∃ (s : State) (p : Fin 4) (dt2 dt3 : Nat) (m : List Byte) (s1 : State), (takeLink s p.val 3 = some (m, s1)) ∧
      (s1.fld (R.DPORT_STATUS_VER p.val) = 3) ∧ (blockOn s1 .fab = true)) ∧
    (∃ (s : State) (p : Fin 4) (dt : Nat) (m : List Byte) (s1 : State), (takeLink s p.val 4 = some (m, s1)) ∧
      (upstream (timePass s1 dt) = some p.val) ∧ ((portOf s1 p.val).t1 = some (leAt m 4 8)) ∧ (blockOn s1 .fab = true) ∧
      (Registers.wf s1.regs = true)) ∧
    (∃ (s : State) (dt p : Nat), (upstream (timePass s dt) = some p) ∧ (lState s p = 4) ∧ (blockOn s .fab = true)) ∧
    (∃ (s : State) (p : Nat), (upstream s = some p)) :=
  ⟨⟨{ framed (tinyW [(fldState 0x20000, 2), (fldState 0x790000, 2), (R.DISP_INFLIGHT_LIMIT, 10), (R.DISP_PART_HOST_STG, 0), (R.RET_OSTG_SIZE_SIZE, 64)]) 1 (frameK 0x10 7 4096 []) with mem := [(ctxAddr 7, 0x11)] },
    1, 5, frameK 0x10 7 4096 [], popFrame
    ({ framed (tinyW [(fldState 0x20000, 2), (fldState 0x790000, 2), (R.DISP_INFLIGHT_LIMIT, 10), (R.DISP_PART_HOST_STG, 0), (R.RET_OSTG_SIZE_SIZE, 64)]) 1 (frameK 0x10 7 4096 []) with mem := [(ctxAddr 7, 0x11)] })
    1 1, timePass (popFrame
    ({ framed (tinyW [(fldState 0x20000, 2), (fldState 0x790000, 2), (R.DISP_INFLIGHT_LIMIT, 10), (R.DISP_PART_HOST_STG, 0), (R.RET_OSTG_SIZE_SIZE, 64)]) 1 (frameK 0x10 7 4096 []) with mem := [(ctxAddr 7, 0x11)] })
    1 1) 5, (cutParcel (timePass (popFrame
    ({ framed (tinyW [(fldState 0x20000, 2), (fldState 0x790000, 2), (R.DISP_INFLIGHT_LIMIT, 10), (R.DISP_PART_HOST_STG, 0), (R.RET_OSTG_SIZE_SIZE, 64)]) 1 (frameK 0x10 7 4096 []) with mem := [(ctxAddr 7, 0x11)] })
    1 1) 5) 7 0 4096 0 .fab).getD tiny, 7, 0, 4096, by decide +kernel, by decide +kernel, by decide +kernel, by decide +kernel,
    by decide +kernel, by decide +kernel, by decide +kernel, by decide +kernel, by decide +kernel⟩,
   ⟨framed (tinyW [(R.FAB_STATUS_FENCED, 1)]) 1 (frameK 0x10 7 4096 []), 1, 5, frameK 0x10 7 4096 [], popFrame (framed (tinyW
     [(R.FAB_STATUS_FENCED, 1)]) 1 (frameK 0x10 7 4096 [])) 1 1, by decide +kernel, by decide +kernel⟩,
   ⟨{ framed (tinyW []) 1 (frameK 0x11 7 0 [1]) with flows := { FlowSt.reset with fabLimit := 9 } }, 1, frameK 0x11 7 0 [1],
     popFrame ({ framed (tinyW []) 1 (frameK 0x11 7 0 [1]) with flows := { FlowSt.reset with fabLimit := 9 } }) 1 1,
     by decide +kernel, by decide +kernel, by decide +kernel, by decide +kernel⟩,
   ⟨{ setPort (tinyW [(fldState 0x310000, 2)]) 1 { Port.reset with rx := [(1, frameK 0x11 7 0 [1], 1)], opens := [⟨7, 5, 0, false, false⟩] } with flows := { FlowSt.reset with fabLimit := 9, parcels := [⟨5, 0, .fab, 4096, 0, 0x4000000000, 0, true, 0x4000001000, 8192, 4, 3, .landing, 0, false, false, 0, 0, 0, 0, true, false⟩] } },
     1, frameK 0x11 7 0 [1], popFrame
     ({ setPort (tinyW [(fldState 0x310000, 2)]) 1 { Port.reset with rx := [(1, frameK 0x11 7 0 [1], 1)], opens := [⟨7, 5, 0, false, false⟩] } with flows := { FlowSt.reset with fabLimit := 9, parcels := [⟨5, 0, .fab, 4096, 0, 0x4000000000, 0, true, 0x4000001000, 8192, 4, 3, .landing, 0, false, false, 0, 0, 0, 0, true, false⟩] } })
     1 1, ⟨7, 5, 0, false, false⟩, ⟨5, 0, .fab, 4096, 0, 0x4000000000, 0, true, 0x4000001000, 8192, 4, 3, .landing, 0, false,
     false, 0, 0, 0, 0, true, false⟩, by decide +kernel, by decide +kernel, by decide +kernel, by decide +kernel,
     by decide +kernel, by decide +kernel, by decide +kernel, by decide +kernel⟩,
   ⟨setPort (tinyW [(R.DISP_GAPTO_GAP, 9)]) 1 { Port.reset with opens := [⟨3, 7, 0, false, false⟩] }, 7, 0, 1,
     by decide +kernel, by decide +kernel⟩,
   ⟨{ framed (tinyW []) 2 (frameK 0x20 3 0 (List.replicate 8 1)) with hwWins := [⟨3, 0x10000, 1, 0x20000, false⟩], mem := [(0x20000, 2), (0x20002, 0x41)] },
     1, frameK 0x20 3 0 (List.replicate 8 1), popFrame
     ({ framed (tinyW []) 2 (frameK 0x20 3 0 (List.replicate 8 1)) with hwWins := [⟨3, 0x10000, 1, 0x20000, false⟩], mem := [(0x20000, 2), (0x20002, 0x41)] })
     1 2, ⟨3, 0x10000, 1, 0x20000, false⟩, by decide +kernel, by decide +kernel, by decide +kernel, by decide +kernel,
     by decide +kernel⟩,
   ⟨{ framed (tinyW []) 2 (frameK 0x20 3 0 (List.replicate 8 1)) with hwWins := [⟨3, 0x10000, 1, 0x20000, false⟩] }, 1, frameK
     0x20 3 0 (List.replicate 8 1), popFrame
     ({ framed (tinyW []) 2 (frameK 0x20 3 0 (List.replicate 8 1)) with hwWins := [⟨3, 0x10000, 1, 0x20000, false⟩] }) 1 2, ⟨3,
     0x10000, 1, 0x20000, false⟩, by decide +kernel, by decide +kernel, by decide +kernel, by decide +kernel,
     by decide +kernel⟩,
   ⟨{ framed (tinyW []) 2 (frameK 0x21 3 8 []) with hwWins := [⟨3, 0x10000, 1, 0x20000, true⟩] }, 1, frameK 0x21 3 8 [],
     popFrame ({ framed (tinyW []) 2 (frameK 0x21 3 8 []) with hwWins := [⟨3, 0x10000, 1, 0x20000, true⟩] }) 1 2, popFrame
     ({ framed (tinyW []) 2 (frameK 0x21 3 8 []) with hwWins := [⟨3, 0x10000, 1, 0x20000, true⟩] }) 1 2, ⟨3, 0x10000, 1,
     0x20000, true⟩, List.replicate 8 0, by decide +kernel, by decide +kernel, by decide +kernel, by decide +kernel,
     by decide +kernel, by decide +kernel⟩,
   ⟨{ framed (tinyW []) 2 (frameK 0x23 3 0 []) with hwWins := [⟨3, 0x10000, 1, 0x20000, false⟩], mem := [(0x20000, 2), (0x20002, 0x41)] },
     1, frameK 0x23 3 0 [], popFrame
     ({ framed (tinyW []) 2 (frameK 0x23 3 0 []) with hwWins := [⟨3, 0x10000, 1, 0x20000, false⟩], mem := [(0x20000, 2), (0x20002, 0x41)] })
     1 2, ⟨3, 0x10000, 1, 0x20000, false⟩, by decide +kernel, by decide +kernel, by decide +kernel, by decide +kernel,
     by decide +kernel, by decide +kernel⟩,
   ⟨linked (tinyW [(R.DPORT_STATUS_VER 1, 3), (fldState 0x310000, 2)]) [3], 1, 5, 6, [3], unlinked (tinyW [(R.DPORT_STATUS_VER
     1, 3), (fldState 0x310000, 2)]), by decide +kernel, by decide +kernel, by decide +kernel⟩,
   ⟨setPort (tinyW [(fldState 0x310000, 2), (R.FAB_STATUS_MASTER, 0), (R.FAB_TSTAT_NOSRC, 0), (R.FAB_TSTAT_UPPORT, 1)]) 1
     { Port.reset with links := [[4]], t1 := some 0 }, 1, 5, [4], setPort (tinyW [(fldState 0x310000, 2), (R.FAB_STATUS_MASTER,
     0), (R.FAB_TSTAT_NOSRC, 0), (R.FAB_TSTAT_UPPORT, 1)]) 1 { Port.reset with t1 := some 0 }, by decide +kernel,
     by decide +kernel, by decide +kernel, by decide +kernel, by decide +kernel⟩,
   ⟨tinyW [(R.DPORT_STATUS_LSTATE 1, 4), (fldState 0x310000, 2), (R.FAB_STATUS_MASTER, 0), (R.FAB_TSTAT_NOSRC, 0),
     (R.FAB_TSTAT_UPPORT, 1)], 5, 1, by decide +kernel, by decide +kernel, by decide +kernel⟩,
   ⟨tinyW [(R.FAB_STATUS_MASTER, 0), (R.FAB_TSTAT_NOSRC, 0), (R.FAB_TSTAT_UPPORT, 1)], 1, by decide +kernel⟩⟩

end Sys2Proof.Machine
end

