-- ==== Sys2Proof/Tests/Witness3.lean ====
section
/-! SUPPORT. Sys2Proof/Tests/Witness3.lean: for every clause of a statement that has hypotheses, a state and operands that meet
all of them together. -/

set_option Elab.async false
set_option linter.unusedVariables false
set_option maxRecDepth 20000

namespace Sys2Proof.Machine

theorem wit_StartUpPhasesComplete :
    (∃ (s : State), (phaseAt s 1 = true)) ∧
    (∃ (s : State), (phaseAt s 2 = true)) ∧
    (∃ (s : State), (phaseAt s 2 = true)) ∧
    (∃ (s : State), (phaseAt s 3 = true)) ∧
    (∃ (s : State) (bad : List Nat) (due : List Nat), (phaseAt s 4 = true) ∧
      (due = (List.range csBlocks).filter (csInterrupted s))) ∧
    (∃ (s : State) (f0 f1 : Bool) (n : Nat), (phaseAt s 5 = true) ∧ (s.fld R.WDT_STATUS_BOOTFAIL < 3) ∧
      (bootChoice s = some n) ∧ (slotGen s (1 - n) = none)) ∧
    (∃ (s : State) (f0 f1 : Bool), (phaseAt s 5 = true) ∧ (bootChoice s = none)) ∧
    (∃ (s : State) (n : Nat), (phaseAt s 6 = true) ∧ (s.boot.slot = some n)) ∧
    (∃ (s : State), (phaseAt s 7 = true)) ∧
    (∃ (s : State) (cap : Fin 3) (half : Bool), (phaseAt s 8 = true) ∧ (s.dram.trained = false)) ∧
    (∃ (s : State) (cap : Fin 3) (half : Bool), (phaseAt s 8 = true) ∧ (s.dram.trained = false)) ∧
    (∃ (s : State) (bad : List Nat), (phaseAt s 9 = true) ∧ (s.hold.prof = none ∧ s.hold.thermProf = none)) ∧
    (∃ (s : State) (ids : List (Nat × Nat)) (bad : List Nat) (marks : List (Nat × Nat)) (s2 : State), (phaseAt s 10 = true) ∧
      (s2 = loadBlocks (addNewLuns (bringUpAll (enumerate s ids bad) (.media :: (List.finRange 32).map .nand)) marks))) ∧
    (∃ (s : State) (indexOk : Bool) (s2 : State), (phaseAt s 11 = true) ∧ (s.ftl.ready = false) ∧
      (s2 = fabricUp (bringUpAll (placeBuffers (rescue (cellarReplay (mapReplay s)) indexOk)) replayBlocksOn))) ∧
    (∃ (s : State), (s.boot.index.isSome = true) ∧ (s.ftl.ready = true) ∧ (restoredRels s false ≠ [])) ∧
    (∃ (s : State), (s.boot.index.isSome = true) ∧ (s.ftl.ready = true) ∧ (restoredRels s false = [])) ∧
    (∃ (s : State), (phaseAt s 11 = true) ∧ (s.ftl.ready = true)) ∧
    (∃ (s : State), (phaseAt s 5 = true)) ∧
    (∃ (s : State), (phaseAt s 8 = true)) :=
  ⟨⟨booting (tinyW []) 1, by decide +kernel⟩,
   ⟨booting (tinyW []) 2, by decide +kernel⟩,
   ⟨booting (tinyW []) 2, by decide +kernel⟩,
   ⟨booting (tinyW []) 3, by decide +kernel⟩,
   ⟨booting (tinyW []) 4, [], (List.range csBlocks).filter (csInterrupted (booting (tinyW []) 4)), by decide +kernel, rfl⟩,
   ⟨{ booting (tinyW []) 5 with code := markedCode }, false, false, 0, by decide +kernel, by decide +kernel, by decide +kernel,
     by decide +kernel⟩,
   ⟨booting (tinyW []) 5, false, false, by decide +kernel, by decide +kernel⟩,
   ⟨{ booting (tinyW []) 6 with boot := { BootSt.reset with held := .none, slot := some 1 } }, 1, by decide +kernel,
     by decide +kernel⟩,
   ⟨booting (tinyW []) 7, by decide +kernel⟩,
   ⟨booting (tinyW []) 8, 1, true, by decide +kernel, by decide +kernel⟩,
   ⟨booting (tinyW []) 8, 1, true, by decide +kernel, by decide +kernel⟩,
   ⟨booting (tinyW []) 9, [], by decide +kernel, by decide +kernel⟩,
   ⟨booting (tinyW []) 10, [], [], [], loadBlocks (addNewLuns (bringUpAll (enumerate (booting (tinyW []) 10) [] []) (.media ::
     (List.finRange 32).map .nand)) []), by decide +kernel, rfl⟩,
   ⟨booting (tinyW []) 11, true, fabricUp (bringUpAll (placeBuffers (rescue (cellarReplay (mapReplay (booting (tinyW []) 11)))
     true)) replayBlocksOn), by decide +kernel, by decide +kernel, rfl⟩,
   ⟨{ booting (tinyW []) 11 with boot := { BootSt.reset with index := some ⟨[], [], []⟩ }, ftl := { State.reset.ftl with ready := true, rels := [⟨1, 0, 0, none, 1, 0, 1, 4096, 1, 4112, [], 0, false, false, [], true, false⟩] } },
     by decide +kernel, by decide +kernel, by decide +kernel⟩,
   ⟨{ booting (tinyW []) 11 with boot := { BootSt.reset with index := some ⟨[], [], []⟩ }, ftl := { State.reset.ftl with ready := true } },
     by decide +kernel, by decide +kernel, by decide +kernel⟩,
   ⟨{ booting (tinyW []) 11 with ftl := { State.reset.ftl with ready := true } }, by decide +kernel, by decide +kernel⟩,
   ⟨booting (tinyW []) 5, by decide +kernel⟩,
   ⟨booting (tinyW []) 8, by decide +kernel⟩⟩

theorem wit_PcieCommandsComplete :
    (∃ (s : State) (p : Fin 2) (bifur : Bool), (s.nvme.perst.contains p.val = true) ∧
      (p.val = 1 ∨ s.nvme.perst.contains 1 = false)) ∧
    (∃ (s : State) (bifur : Bool), (s.nvme.perst.contains 0 = true) ∧ (s.nvme.perst.contains 1 = true)) ∧
    (∃ (s : State) (p : Fin 2), (blockOn s .pcie = true) ∧ (ctrlExists s p.val = true)) ∧
    (∃ (s : State) (p : Fin 2), (blockOn s .pcie = true) ∧ (ctrlExists s p.val = true)) ∧
    (∃ (s : State) (p : Fin 2) (speed width : Nat) (flit : Bool), (blockOn s .pcie = true) ∧ (ctrlExists s p.val = true) ∧
      (s.nvme.perst.contains p.val = false) ∧ (linkOk s speed width flit = true) ∧ (s.nvme.trained.contains p.val = false)) ∧
    (∃ (s : State) (p : Fin 2), (pcieUp s p.val = true)) ∧
    (∃ (s : State) (p : Fin 2) (d3 : Bool), (pcieUp s p.val = true) ∧ (d3 ≠ s.nvme.d3.contains p.val)) ∧
    (∃ (s : State) (p : Fin 2), (pcieUp s p.val = true)) ∧
    (∃ (s : State) (p : Fin 2), (pcieUp s p.val = true)) :=
  ⟨⟨{ tinyW [] with nvme := { NvmeSt.reset with perst := [1] } }, 1, true, by decide +kernel, by decide +kernel⟩,
   ⟨{ tinyW [] with nvme := { NvmeSt.reset with perst := [0, 1] } }, true, by decide +kernel, by decide +kernel⟩,
   ⟨tinyW [(fldState 0x90000, 2), (R.PCIE_STATUS_BIFUR, 1)], 1, by decide +kernel, by decide +kernel⟩,
   ⟨tinyW [(fldState 0x90000, 2), (R.PCIE_STATUS_BIFUR, 1)], 1, by decide +kernel, by decide +kernel⟩,
   ⟨{ tinyW [(fldState 0x90000, 2), (R.PCIE_STATUS_BIFUR, 1)] with nvme := { NvmeSt.reset with perst := [], trained := [] } },
     1, 6, 8, true, by decide +kernel, by decide +kernel, by decide +kernel, by decide +kernel, by decide +kernel⟩,
   ⟨tinyW [(R.PCIE_LINK_SPEED 1, 5)], 1, by decide +kernel⟩,
   ⟨tinyW [(R.PCIE_LINK_SPEED 1, 5)], 1, true, by decide +kernel, by decide +kernel⟩,
   ⟨tinyW [(R.PCIE_LINK_SPEED 1, 5)], 1, by decide +kernel⟩,
   ⟨tinyW [(R.PCIE_LINK_SPEED 1, 5)], 1, by decide +kernel⟩⟩

theorem wit_ManagementInterfaceComplete :
    (∃ (s : State) (addr : Fin 128), (miUp s = true)) ∧
    (∃ (s : State) (kind : Nat), (miUp s = true) ∧ (s.nvme.mi.paused = false) ∧ (kind = 2)) ∧
    (∃ (s : State), (miUp s = true) ∧ (s.nvme.mi.paused = false)) ∧
    (∃ (s : State) (n : Nat), (miUp s = true) ∧ (s.nvme.mi.paused = false) ∧ (s.boot.mode ≠ .recovery)) ∧
    (∃ (s : State) (id x : Nat), (miUp s = true) ∧ (s.nvme.mi.paused = false) ∧ (s.boot.mode ≠ .recovery) ∧ (1 ≤ id ∧ id ≤ 3)) ∧
    (∃ (s : State) (id : Nat), (miUp s = true) ∧ (s.nvme.mi.paused = false) ∧ (s.boot.mode ≠ .recovery) ∧ (1 ≤ id ∧ id ≤ 3)) ∧
    (∃ (s : State) (off len : Nat), (miUp s = true) ∧ (s.nvme.mi.paused = false) ∧ (s.boot.mode ≠ .recovery) ∧
      (off + len ≤ 256)) ∧
    (∃ (s : State) (off : Nat) (bytes : List Byte), (miUp s = true) ∧ (s.nvme.mi.paused = false) ∧ (s.boot.mode ≠ .recovery) ∧
      (off + bytes.length ≤ 256)) ∧
    (∃ (s : State), (miUp s = true) ∧ (s.boot.mode ≠ .recovery)) ∧
    (∃ (s : State), (miUp s = true) ∧ (s.boot.mode ≠ .recovery)) ∧
    (∃ (s : State), (miUp s = true) ∧ (s.boot.mode ≠ .recovery)) ∧
    (∃ (s : State), (miUp s = true) ∧ (s.boot.mode ≠ .recovery)) :=
  ⟨⟨booting (tinyW []) 12, 9, by decide +kernel⟩,
   ⟨booting (tinyW []) 12, 2, by decide +kernel, by decide +kernel, by decide +kernel⟩,
   ⟨booting (tinyW []) 12, by decide +kernel, by decide +kernel⟩,
   ⟨booting (tinyW []) 12, 1, by decide +kernel, by decide +kernel, by decide +kernel⟩,
   ⟨booting (tinyW []) 12, 2, 5, by decide +kernel, by decide +kernel, by decide +kernel, by decide +kernel⟩,
   ⟨booting (tinyW []) 12, 2, by decide +kernel, by decide +kernel, by decide +kernel, by decide +kernel⟩,
   ⟨booting (tinyW []) 12, 2, 5, by decide +kernel, by decide +kernel, by decide +kernel, by decide +kernel⟩,
   ⟨booting (tinyW []) 12, 2, [1], by decide +kernel, by decide +kernel, by decide +kernel, by decide +kernel⟩,
   ⟨booting (tinyW []) 12, by decide +kernel, by decide +kernel⟩,
   ⟨booting (tinyW []) 12, by decide +kernel, by decide +kernel⟩,
   ⟨booting (tinyW []) 12, by decide +kernel, by decide +kernel⟩,
   ⟨booting (tinyW []) 12, by decide +kernel, by decide +kernel⟩⟩

theorem wit_NandOperationsStart :
    (∃ (s : State) (lun : Nat) (l : Lun) (b : Nat), (lunFree s lun = true) ∧ (lunOf s lun = some l ∧ l.phase = .none) ∧
      (opStart s lun 0 = some b)) ∧
    (∃ (s : State) (lun : Nat) (l : Lun) (b : Nat), (lunFree s lun = true) ∧ (lunOf s lun = some l ∧ l.phase = .none) ∧
      (opStart s lun 8 = some b)) ∧
    (∃ (s : State) (lun block page : Nat) (l : Lun) (b : Nat), (lunFree s lun = true) ∧ (lunOf s lun = some l ∧
      l.phase = .none) ∧ (opStart s lun 1 = some b)) ∧
    (∃ (s : State) (lun block page : Nat) (l : Lun) (b : Nat), (lunFree s lun = true) ∧ (lunOf s lun = some l ∧
      l.phase = .none) ∧ (opStart s lun 2 = some b)) ∧
    (∃ (s : State) (lun : Nat) (l : Lun) (b : Nat) (g : Prog), (lunFree s lun = true) ∧ (lunOf s lun = some l ∧
      l.phase = .none) ∧ (opStart s lun 3 = some b) ∧ (s.media.progs.find? (fun q => q.lun == lun && q.slc == false) = some g))
      ∧
    (∃ (s : State) (lun : Nat) (l : Lun) (b : Nat) (g : Prog), (lunFree s lun = true) ∧ (lunOf s lun = some l ∧
      l.phase = .none) ∧ (opStart s lun 4 = some b) ∧ (s.media.progs.find? (fun q => q.lun == lun && q.slc == true) = some g)) ∧
    (∃ (s : State) (lun block : Nat) (l : Lun) (b : Nat), (lunFree s lun = true) ∧ (lunOf s lun = some l ∧ l.phase = .none) ∧
      (btState s lun block = 7) ∧ (opStart s lun 5 = some b)) ∧
    (∃ (s : State) (lun : Nat) (l : Lun) (b : Nat), (lunFree s lun = true) ∧ (lunOf s lun = some l ∧ l.phase = .set) ∧
      (opStart s lun 6 = some b) ∧ (l.op = none)) ∧
    (∃ (s : State) (lun : Nat) (l : Lun) (b : Nat), (lunFree s lun = true) ∧ (lunOf s lun = some l ∧ l.phase = .clear) ∧
      (opStart s lun 7 = some b)) :=
  ⟨⟨nandW (tinyW []) [0] none .none none, 0, lun0 none, 0, by decide +kernel, by decide +kernel, by decide +kernel⟩,
   ⟨nandW (tinyW []) [0] none .none none, 0, lun0 none, 0, by decide +kernel, by decide +kernel, by decide +kernel⟩,
   ⟨nandW (tinyW []) [0] none .none none, 0, 1, 2, lun0 none, 0, by decide +kernel, by decide +kernel, by decide +kernel⟩,
   ⟨nandW (tinyW []) [0] none .none none, 0, 1, 2, lun0 none, 0, by decide +kernel, by decide +kernel, by decide +kernel⟩,
   ⟨{ nandW (tinyW []) [0] none .none none with media := { (nandW (tinyW []) [0] none .none none).media with progs := [⟨0, 1, 2, false, [], 5⟩] } },
     0, lun0 none, 0, ⟨0, 1, 2, false, [], 5⟩, by decide +kernel, by decide +kernel, by decide +kernel, by decide +kernel⟩,
   ⟨{ nandW (tinyW []) [0] none .none none with media := { (nandW (tinyW []) [0] none .none none).media with progs := [⟨0, 1, 2, true, [], 5⟩] } },
     0, lun0 none, 0, ⟨0, 1, 2, true, [], 5⟩, by decide +kernel, by decide +kernel, by decide +kernel, by decide +kernel⟩,
   ⟨{ nandW (tinyW []) [0] none .none none with mem := [(28, 7)] }, 0, 1, lun0 none, 0, by decide +kernel, by decide +kernel,
     by decide +kernel, by decide +kernel⟩,
   ⟨nandW (tinyW []) [0] none .set (some (op0 1)), 0, ⟨0, true, none, 0, .set, some (op0 1)⟩, 0, by decide +kernel,
     by decide +kernel, by decide +kernel, by decide +kernel⟩,
   ⟨nandW (tinyW []) [0] none .clear none, 0, ⟨0, true, none, 0, .clear, none⟩, 0, by decide +kernel, by decide +kernel,
     by decide +kernel⟩⟩

theorem wit_NandMicroStepsComplete :
    (∃ (s : State) (lun : Nat) (l : Lun) (o : NandOp) (p : Pers) (n : Nat), (atStep s lun = some (l, o, p, n)) ∧
      (stepKind n = 1)) ∧
    (∃ (s : State) (lun : Nat) (l : Lun) (o : NandOp) (p : Pers) (n : Nat), (atStep s lun = some (l, o, p, n)) ∧
      (stepKind n = 2) ∧ (stepArg n = 0)) ∧
    (∃ (s : State) (lun : Nat) (l : Lun) (o : NandOp) (p : Pers) (n : Nat), (atStep s lun = some (l, o, p, n)) ∧
      (stepKind n = 3) ∧ (stepArg n = 0)) ∧
    (∃ (s : State) (lun : Nat) (ok : List Bool) (bytes : List Byte) (l : Lun) (o : NandOp) (p : Pers) (n : Nat), (atStep s lun
      = some (l, o, p, n)) ∧ (stepKind n = 4) ∧ (stepArg n = 0)) ∧
    (∃ (s : State) (lun : Nat) (l : Lun) (o : NandOp) (p : Pers) (n : Nat), (atStep s lun = some (l, o, p, n)) ∧
      (stepKind n = 5)) ∧
    (∃ (s : State) (lun : Nat) (status : BitVec 8) (l : Lun) (o : NandOp) (p : Pers) (n : Nat), (atStep s lun = some (l, o, p,
      n)) ∧ (stepKind n = 6) ∧ (stepArg n = 0) ∧ (status.toNat &&& stepByte n = stepVal n) ∧
      (status.toNat &&& stepFailm n = 0)) ∧
    (∃ (s : State) (lun : Nat) (status : BitVec 8) (l : Lun) (o : NandOp) (p : Pers) (n : Nat), (atStep s lun = some (l, o, p,
      n)) ∧ (stepKind n = 6) ∧ (stepArg n = 0) ∧ (status.toNat &&& stepByte n ≠ stepVal n)) ∧
    (∃ (s : State) (lun : Nat) (l : Lun) (o : NandOp) (p : Pers) (n : Nat), (atStep s lun = some (l, o, p, n)) ∧
      (stepKind n = 6)) ∧
    (∃ (s : State) (lun : Nat) (l : Lun) (o : NandOp) (p : Pers) (n : Nat), (atStep s lun = some (l, o, p, n)) ∧
      (stepKind n = 7) ∧ (stepArg n = 0)) ∧
    (∃ (s : State) (lun : Nat) (l : Lun) (o : NandOp) (p : Pers) (n : Nat), (atStep s lun = some (l, o, p, n)) ∧
      (stepKind n = 0)) :=
  ⟨⟨nandW (tinyW []) [0x7001] (some (op0 1)) .none none, 0, lun0 (some (op0 1)), op0 1, pers0 [0x7001], 0x7001,
    by decide +kernel, by decide +kernel⟩,
   ⟨nandW (tinyW []) [0x0002] (some (op0 1)) .none none, 0, lun0 (some (op0 1)), op0 1, pers0 [0x0002], 0x0002,
     by decide +kernel, by decide +kernel, by decide +kernel⟩,
   ⟨nandW (tinyW []) [3] (some (op0 3)) .none none, 0, lun0 (some (op0 3)), op0 3, pers0 [3], 3, by decide +kernel,
     by decide +kernel, by decide +kernel⟩,
   ⟨nandW (tinyW []) [4] (some (op0 1)) .none none, 0, [true], [], lun0 (some (op0 1)), op0 1, pers0 [4], 4, by decide +kernel,
     by decide +kernel, by decide +kernel⟩,
   ⟨nandW (tinyW []) [5] (some (op0 1)) .none none, 0, lun0 (some (op0 1)), op0 1, pers0 [5], 5, by decide +kernel,
     by decide +kernel⟩,
   ⟨nandW (tinyW []) [6] (some (op0 1)) .none none, 0, 3, lun0 (some (op0 1)), op0 1, pers0 [6], 6, by decide +kernel,
     by decide +kernel, by decide +kernel, by decide +kernel, by decide +kernel⟩,
   ⟨nandW (tinyW []) [0x106] (some (op0 1)) .none none, 0, 3, lun0 (some (op0 1)), op0 1, pers0 [0x106], 0x106,
     by decide +kernel, by decide +kernel, by decide +kernel, by decide +kernel⟩,
   ⟨nandW (tinyW []) [6] (some (op0 1)) .none none, 0, lun0 (some (op0 1)), op0 1, pers0 [6], 6, by decide +kernel,
     by decide +kernel⟩,
   ⟨nandW (tinyW []) [7] (some (op0 1)) .none none, 0, lun0 (some (op0 1)), op0 1, pers0 [7], 7, by decide +kernel,
     by decide +kernel, by decide +kernel⟩,
   ⟨nandW (tinyW []) [0] (some (op0 0)) .none none, 0, lun0 (some (op0 0)), op0 0, pers0 [0], 0, by decide +kernel,
     by decide +kernel⟩⟩

theorem wit_TranslationCommandsComplete :
    (∃ (s : State) (nsid unit : Nat) (s1 : State), (unitDue s nsid unit = true) ∧ (s.fld R.FTLA_FLOOR_BLOCKS < atticCount s) ∧
      (needsFine s nsid unit = false ∨ fineFree s ≠ 0) ∧ (writeUnit s nsid unit = some s1)) ∧
    (∃ (s : State) (nsid unit : Nat), (s.fld R.FTLA_UNITTO_TIME ≠ 0) ∧ (wbUnit s nsid unit ≠ []) ∧
      (s.ftl.due.contains (nsid, unit) = false)) ∧
    (∃ (s : State) (rel : Nat) (q : List MapReq) (r : Rel) (n : Nat) (bl : List (List Byte)), (s.ftl.queue = .parcel rel :: q)
      ∧ (findRel s rel = some r) ∧ (isIrregular r = true) ∧ (n = (if (decodeImage r.blocks).2 then relSectors r else min
      (relSectors r) ((decodeImage r.blocks).1.length / 4096))) ∧ (bl = storedBlocks (decodeImage r.blocks).1 n)) ∧
    (∃ (s : State) (lun block : Nat) (sc : Int) (s0 s1 : State), (s.ftl.victim = none) ∧ (s.ftl.relocate = []) ∧
      (s.flag R.FTLA_STATUS_GCRUN = true) ∧ (victimOver s (usedLuns s) = some (lun, block, sc)) ∧
      (s0 = (match tblGet none s.ftl.openBlk lun with | some (o, _) => if o = block then closeOpen s lun else s | none => s)) ∧
      (copyUnits s0 lun block (unitsIn s0 lun block) = some s1)) ∧
    (∃ (s : State), (s.ftl.victim = none) ∧ (s.ftl.relocate = []) ∧ (s.flag R.FTLA_STATUS_GCRUN = true ∧
      s.flag R.FTLA_STATUS_GCFORCED = true) ∧ (victimOver s (usedLuns s) = none) ∧ (atticCount s < s.fld R.FTLA_FLOOR_BLOCKS)) ∧
    (∃ (s : State) (k : Nat) (s2 : State), (s.ftl.victim = some k) ∧ (s.ftl.jobs = []) ∧
      (unitsIn s (k / 2 ^ 19) (k % 2 ^ 19) = []) ∧ (s2 = (if s.ftl.relocate.any (fun e => e.1 == k && e.2) then retireBlock s
      (k / 2 ^ 19) (k % 2 ^ 19) else setBlock s (k / 2 ^ 19) (k % 2 ^ 19) 7))) ∧
    (∃ (s : State) (lun block : Nat) (ok : Bool), (lunFree s lun = true) ∧ (btState s lun block = 7) ∧
      (readInFlight s lun block = false)) ∧
    (∃ (s : State) (lun : Nat) (all : Bool) (l b : Nat), (s.ftl.scan = some (2, lun, all)) ∧
      (leastWornOver s (scanLuns s lun all) = some (l, b))) ∧
    (∃ (s : State), (s.ftl.replaying = true) ∧ (restoredRels s true = [])) ∧
    (∃ (s : State), (s.ftl.replaying = true) ∧ (restoredRels s true ≠ [])) :=
  ⟨⟨{ nandW (tinyW []) [0] none .none none with ftl := { Ftl.reset with due := [(1, 0)] } }, 1, 0, (writeUnit
    ({ nandW (tinyW []) [0] none .none none with ftl := { Ftl.reset with due := [(1, 0)] } }) 1 0).getD tiny,
    by decide +kernel, by decide +kernel, by decide +kernel, by decide +kernel⟩,
   ⟨{ tinyW [(R.FTLA_UNITTO_TIME, 5)] with ftl := { Ftl.reset with wb := [⟨1, 5, [], false, 1⟩] } }, 1, 0, by decide +kernel,
     by decide +kernel, by decide +kernel⟩,
   ⟨{ tinyW [] with ftl := { Ftl.reset with queue := [.parcel 1], rels := [⟨1, 0, 0, none, 1, 0, 1, 4096, 1, 4112, [], 0, false, false, [[1], [1]], true, false⟩] } },
     1, [], ⟨1, 0, 0, none, 1, 0, 1, 4096, 1, 4112, [], 0, false, false, [[1], [1]], true, false⟩, (if (decodeImage [[1],
     [1]]).2 then relSectors ⟨1, 0, 0, none, 1, 0, 1, 4096, 1, 4112, [], 0, false, false, [[1], [1]], true, false⟩ else min
     (relSectors ⟨1, 0, 0, none, 1, 0, 1, 4096, 1, 4112, [], 0, false, false, [[1], [1]], true, false⟩) ((decodeImage [[1],
     [1]]).1.length / 4096)), storedBlocks (decodeImage [[1], [1]]).1 ((if (decodeImage [[1], [1]]).2 then relSectors ⟨1, 0, 0,
     none, 1, 0, 1, 4096, 1, 4112, [], 0, false, false, [[1], [1]], true, false⟩ else min (relSectors ⟨1, 0, 0, none, 1, 0, 1,
     4096, 1, 4112, [], 0, false, false, [[1], [1]], true, false⟩) ((decodeImage [[1], [1]]).1.length / 4096))),
     by decide +kernel, by decide +kernel, by decide +kernel, rfl, rfl⟩,
   ⟨{ nandW (tinyW [(R.FTLA_STATUS_GCRUN, 1), (R.FTLA_GCW_WI, 0), (R.FTLA_GCW_WA, 0), (R.FTLA_GCW_WW, 0)]) [0] none .none none with mem := [(28, 2)] },
     0, 1, 0, ({ nandW (tinyW [(R.FTLA_STATUS_GCRUN, 1), (R.FTLA_GCW_WI, 0), (R.FTLA_GCW_WA, 0), (R.FTLA_GCW_WW, 0)]) [0] none .none none with mem := [(28, 2)] }),
     ({ nandW (tinyW [(R.FTLA_STATUS_GCRUN, 1), (R.FTLA_GCW_WI, 0), (R.FTLA_GCW_WA, 0), (R.FTLA_GCW_WW, 0)]) [0] none .none none with mem := [(28, 2)] }),
     by decide +kernel, by decide +kernel, by decide +kernel, by decide +kernel, by decide +kernel, by decide +kernel⟩,
   ⟨tinyW [(R.FTLA_STATUS_GCRUN, 1), (R.FTLA_STATUS_GCFORCED, 1), (R.FTLA_FLOOR_BLOCKS, 5)], by decide +kernel,
     by decide +kernel, by decide +kernel, by decide +kernel, by decide +kernel⟩,
   ⟨{ nandW (tinyW []) [0] none .none none with ftl := { Ftl.reset with victim := some 1 } }, 1, setBlock
     ({ nandW (tinyW []) [0] none .none none with ftl := { Ftl.reset with victim := some 1 } }) 0 1 7, by decide +kernel,
     by decide +kernel, by decide +kernel, by decide +kernel⟩,
   ⟨{ nandW (tinyW []) [0] none .none none with mem := [(28, 7)] }, 0, 1, true, by decide +kernel, by decide +kernel,
     by decide +kernel⟩,
   ⟨{ nandW (tinyW []) [0] none .none none with ftl := { Ftl.reset with scan := some (2, 0, true) } }, 0, true, 0, 0,
     by decide +kernel, by decide +kernel⟩,
   ⟨{ tinyW [] with ftl := { Ftl.reset with replaying := true } }, by decide +kernel, by decide +kernel⟩,
   ⟨{ tinyW [] with ftl := { Ftl.reset with replaying := true, cellar := some ⟨1, [⟨⟨1, 0, 0, none, 1, 0, 1, 4096, 1, 4112, [], 0, false, false, [], true, false⟩, false, true⟩], true⟩, rels := [⟨1, 0, 0, none, 1, 0, 1, 4096, 1, 4112, [], 0, false, false, [], true, false⟩] } },
     by decide +kernel, by decide +kernel⟩⟩

theorem wit_ControllersAndQueuesComplete :
    (∃ (s : State) (k : Fin 2) (asqs acqs : Nat), (ctrlExists s k.val = true ∧ (ctrlOf s k.val).en = false) ∧ (1 ≤ asqs ∧
      asqs ≤ 4095) ∧ (1 ≤ acqs ∧ acqs ≤ 4095)) ∧
    (∃ (s : State) (k : Fin 2), ((ctrlOf s k.val).en = true)) ∧
    (∃ (s : State) (k : Fin 2) (shn : Fin 4), ((ctrlOf s k.val).en = true) ∧ (shn.val = 1 ∨ shn.val = 2)) ∧
    (∃ (s : State) (k : Fin 2), ((ctrlOf s k.val).shst = 1) ∧ (writesSafe s k.val = true)) ∧
    (∃ (s : State) (k : Fin 2) (q tail : Nat) (x : Sq), (sqOf s k.val q = some x) ∧ (tail < x.size)) ∧
    (∃ (s : State) (k : Fin 2) (q head n : Nat) (x : Cq), (cqOf s k.val q = some x ∧ head < x.size) ∧
      (n = (head + x.size - x.head) % x.size) ∧ (n ≤ x.ents.length)) ∧
    (∃ (s : State) (k : Fin 2) (q cls : Nat) (anew : Bool) (c : Cmd), (ctrlReady s k.val = true) ∧
      (arbChoice s k = some (q, cls, anew)) ∧ (runnable s (.host k q) = some c)) ∧
    (∃ (s : State) (src : QueueRef) (c : Cmd) (s1 : State), (queueFront s src = some c) ∧ (cmdReady s c = true) ∧
      (postEntry s c (cmdResult s c).1 (cmdResult s c).2 = some s1)) ∧
    (∃ (s : State) (q : CmdRef) (cto : Bool) (c : Cmd), (s.nvme.cmds.find? (fun d => d.src == q && !d.abandoned) = some c) ∧
      (c.st = .waiting)) ∧
    (∃ (s : State) (q : CmdRef) (n : Nat) (cto : Bool) (c : Cmd), (s.nvme.cmds.find? (fun d => d.src == q && !d.abandoned) =
      some c) ∧ (c.st = .started)) ∧
    (∃ (s : State) (q : CmdRef) (qid size cqid : Nat) (prio : Fin 4) (s1 : State) (c : Cmd), (startsAtOnce s q (.createSq qid
      size cqid prio.val) = some (s1, c)) ∧ (cqid ≠ 0 ∧ (cqOf s1 (ctrlNum c) cqid).isSome = true) ∧ (1 ≤ qid ∧ qid ≤ 1024 ∧
      sqOf s1 (ctrlNum c) qid = none) ∧ (2 ≤ size ∧ size ≤ 65536)) ∧
    (∃ (s : State) (q : CmdRef) (qid size vector : Nat) (ien : Bool) (s1 : State) (c : Cmd), (startsAtOnce s q (.createCq qid
      size vector ien) = some (s1, c)) ∧ (1 ≤ qid ∧ qid ≤ 1024 ∧ cqOf s1 (ctrlNum c) qid = none) ∧ (2 ≤ size ∧ size ≤ 65536) ∧
      (vector ≤ 1024)) ∧
    (∃ (s : State) (q : CmdRef) (k : Fin 2) (cid : BitVec 16) (qid : Nat) (s1 : State) (c : Cmd), (startsAtOnce s q (.deleteSq
      qid) = some (s1, c)) ∧ (q = .host k 0 cid) ∧ (1 ≤ qid ∧ qid ≤ 1024 ∧ (sqOf s1 k.val qid).isSome = true)) ∧
    (∃ (s : State) (q : CmdRef) (qid : Nat) (s1 : State) (c : Cmd), (startsAtOnce s q (.deleteCq qid) = some (s1, c)) ∧
      (1 ≤ qid ∧ qid ≤ 1024 ∧ (cqOf s1 (ctrlNum c) qid).isSome = true) ∧
      ((ctrlOf s1 (ctrlNum c)).sqs.any (fun e => e.2.any (fun x => x.cq == qid)) = false)) ∧
    (∃ (s : State) (q : CmdRef) (sqid : Nat) (cid : BitVec 16) (s1 : State) (c : Cmd), (startsAtOnce s q (.abort sqid
      cid.toNat) = some (s1, c)) ∧ (s1.nvme.cmds.countP (fun d => d.id != c.id && d.st != .waiting && ctrlNum d == ctrlNum c &&
      (match d.op with | .abort .. => true | _ => false)) < 8)) ∧
    (∃ (s : State) (q : CmdRef) (opcode : Nat) (s1 : State) (c : Cmd), (startsAtOnce s q (.invalid opcode) = some (s1, c))) :=
  ⟨⟨tinyW [], 0, 1, 4095, by decide +kernel, by decide +kernel, by decide +kernel⟩,
   ⟨nvmeW (tinyW []), 0, by decide +kernel⟩,
   ⟨nvmeW (tinyW []), 0, 1, by decide +kernel, by decide +kernel⟩,
   ⟨setCtrl (nvmeW (tinyW [])) 0 { Ctrl.reset with en := true, shst := 1 }, 0, by decide +kernel, by decide +kernel⟩,
   ⟨nvmeW (tinyW []), 0, 1, 3, ⟨4, 0, 1, 1, 0⟩, by decide +kernel, by decide +kernel⟩,
   ⟨setCtrl (nvmeW (tinyW [])) 0
     { Ctrl.reset with cqs := [(1, some { newCq 4 1 true with tail := 1, ents := [⟨1, 7, 0, 0, 1, 1, []⟩] })] }, 0, 1, 1, 1,
     { newCq 4 1 true with tail := 1, ents := [⟨1, 7, 0, 0, 1, 1, []⟩] }, by decide +kernel, by decide +kernel,
     by decide +kernel⟩,
   ⟨{ nvmeW (tinyW []) with nvme := { (nvmeW (tinyW [])).nvme with cmds := [newCmd 0 admQ (.identify 1 0)] } }, 0, 0, 0, false,
     newCmd 0 admQ (.identify 1 0), by decide +kernel, by decide +kernel, by decide +kernel⟩,
   ⟨{ nvmeW (tinyW []) with nvme := { (nvmeW (tinyW [])).nvme with cmds := [{ newCmd 0 admQ (.identify 1 0) with st := .done }] } },
     .host 0 0, { newCmd 0 admQ (.identify 1 0) with st := .done }, (postEntry
     ({ nvmeW (tinyW []) with nvme := { (nvmeW (tinyW [])).nvme with cmds := [{ newCmd 0 admQ (.identify 1 0) with st := .done }] } })
     ({ newCmd 0 admQ (.identify 1 0) with st := .done }) 0 0).getD tiny, by decide +kernel, by decide +kernel,
     by decide +kernel⟩,
   ⟨{ nvmeW (tinyW []) with nvme := { (nvmeW (tinyW [])).nvme with cmds := [newCmd 0 ioQ (.flush 1)] } }, ioQ, true, newCmd 0
     ioQ (.flush 1), by decide +kernel, by decide +kernel⟩,
   ⟨{ nvmeW (tinyW []) with nvme := { (nvmeW (tinyW [])).nvme with cmds := [{ newCmd 0 ioQ (.write 1 0 1 0 0 false .prp) with st := .started, run := some (0, 0, 1), left := 1 }] } },
     ioQ, 0, false, { newCmd 0 ioQ (.write 1 0 1 0 0 false .prp) with st := .started, run := some (0, 0, 1), left := 1 },
     by decide +kernel, by decide +kernel⟩,
   ⟨nvmeW (tinyW []), admQ, 1024, 65536, 1, (2 : Fin 4), (startOf (nvmeW (tinyW [])) (admQ) (.createSq (1024) (65536) (1) ((2 :
     Fin 4)).val)).1, (startOf (nvmeW (tinyW [])) (admQ) (.createSq (1024) (65536) (1) ((2 : Fin 4)).val)).2,
     by decide +kernel, by decide +kernel, by decide +kernel, by decide +kernel⟩,
   ⟨nvmeW (tinyW []), admQ, 2, 2, 1024, true, (startOf (nvmeW (tinyW [])) (admQ) (.createCq (2) (2) (1024) (true))).1, (startOf
     (nvmeW (tinyW [])) (admQ) (.createCq (2) (2) (1024) (true))).2, by decide +kernel, by decide +kernel, by decide +kernel,
     by decide +kernel⟩,
   ⟨nvmeW (tinyW []), admQ, (0 : Fin 2), (7 : BitVec 16), 1, (startOf (nvmeW (tinyW [])) (admQ) (.deleteSq (1))).1, (startOf
     (nvmeW (tinyW [])) (admQ) (.deleteSq (1))).2, by decide +kernel, by decide +kernel, by decide +kernel⟩,
   ⟨setCq (nvmeW (tinyW [])) 0 2 (some (newCq 4 0 true)), admQ, 2, (startOf (setCq (nvmeW (tinyW [])) 0 2 (some (newCq 4 0
     true))) (admQ) (.deleteCq (2))).1, (startOf (setCq (nvmeW (tinyW [])) 0 2 (some (newCq 4 0 true))) (admQ) (.deleteCq
     (2))).2, by decide +kernel, by decide +kernel, by decide +kernel⟩,
   ⟨nvmeW (tinyW []), admQ, 1, (7 : BitVec 16), (startOf (nvmeW (tinyW [])) (admQ) (.abort (1) ((7 : BitVec 16)).toNat)).1,
     (startOf (nvmeW (tinyW [])) (admQ) (.abort (1) ((7 : BitVec 16)).toNat)).2, by decide +kernel, by decide +kernel⟩,
   ⟨nvmeW (tinyW []), admQ, 3, (startOf (nvmeW (tinyW [])) (admQ) (.invalid (3))).1, (startOf (nvmeW (tinyW [])) (admQ)
     (.invalid (3))).2, by decide +kernel⟩⟩

theorem wit_AdminCommandsComplete :
    (∃ (s : State) (q : CmdRef) (cns nsid : Nat) (n : Ns) (s1 : State) (c : Cmd), (startsAtOnce s q (.identify cns nsid) = some
      (s1, c)) ∧ (cns = 0 ∧ nsid ≠ 0xFFFFFFFF) ∧ (nsOf s1 nsid = some n)) ∧
    (∃ (s : State) (q : CmdRef) (nsid : Nat) (s1 : State) (c : Cmd), (startsAtOnce s q (.identify 1 nsid) = some (s1, c))) ∧
    (∃ (s : State) (q : CmdRef) (lid nsid off len : Nat) (rae : Bool) (s1 : State) (c : Cmd), (startsAtOnce s q (.getLog lid
      nsid off len rae) = some (s1, c)) ∧ (0xC0 ≤ lid ∧ lid ≤ 0xC5)) ∧
    (∃ (s : State) (q : CmdRef) (lid nsid off len : Nat) (rae : Bool) (pg : PageBytes) (s1 : State) (c : Cmd), (startsAtOnce s
      q (.getLog lid nsid off len rae) = some (s1, c)) ∧ (standardPage s1 lid = some pg)) ∧
    (∃ (s : State) (q : CmdRef) (fid nsid value : Nat) (s1 : State) (c : Cmd), (startsAtOnce s q (.setFeatures fid nsid value
      false) = some (s1, c)) ∧ (features.contains fid = true ∧ fid ≠ featPower ∧ fid ≠ featQueues ∧ fid ≠ featErrorRecovery) ∧
      (nsid = 0 ∨ nsid = 0xFFFFFFFF)) ∧
    (∃ (s : State) (q : CmdRef) (nsid value : Nat) (s1 : State) (c : Cmd), (startsAtOnce s q (.setFeatures 2 nsid value false)
      = some (s1, c)) ∧ (nsid = 0 ∨ nsid = 0xFFFFFFFF) ∧ (powerFault s1 (value % 32) = false)) ∧
    (∃ (s : State) (q : CmdRef) (fid nsid : Nat) (s1 : State) (c : Cmd), (startsAtOnce s q (.getFeatures fid nsid) = some (s1,
      c)) ∧ (features.contains fid = true ∧ fid ≠ 0x0E ∧ fid ≠ featErrorRecovery) ∧ (nsid = 0 ∨ nsid = 0xFFFFFFFF)) ∧
    (∃ (s : State) (q : CmdRef) (s1 : State) (c : Cmd), (startsAtOnce s q (.asyncEvent) = some (s1, c)) ∧
      (s1.nvme.cmds.countP (fun d => d.id != c.id && d.op == .asyncEvent && d.st == .started && ctrlNum d == ctrlNum c) < 8) ∧
      ((ctrlOf s1 (ctrlNum c)).events = [])) ∧
    (∃ (s : State) (q : CmdRef) (e : AEvent) (es : List AEvent) (s1 : State) (c : Cmd), (startsAtOnce s q (.asyncEvent) = some
      (s1, c)) ∧ (s1.nvme.cmds.countP (fun d => d.id != c.id && d.op == .asyncEvent && d.st == .started && ctrlNum d == ctrlNum
      c) < 8) ∧ ((ctrlOf s1 (ctrlNum c)).events = e :: es)) ∧
    (∃ (s : State) (q : CmdRef) (nsze flbas id : Nat) (s2 : State) (s1 : State) (c : Cmd), (startsAtOnce s q (.nsManage
      (.create nsze flbas)) = some (s1, c)) ∧ (nsCreated s1 nsze flbas = some (id, s2))) ∧
    (∃ (s : State) (q : CmdRef) (nsid : Nat) (s1 : State) (c : Cmd), (startsAtOnce s q (.nsManage (.delete nsid)) = some (s1,
      c)) ∧ (nsid ≠ 0xFFFFFFFF ∧ (nsOf s1 nsid).isSome = true)) ∧
    (∃ (s : State) (q : CmdRef) (slm len a : Nat) (s1 : State) (c : Cmd), (startsAtOnce s q (.nsManage (.createSlm slm len)) =
      some (s1, c)) ∧ (slm < 16 ∧ slmRegion s1 (ctrlNum c) slm = none) ∧ (1 ≤ len ∧ len ≤ 2 ^ 30) ∧
      (slmPlace s1 len = some a)) ∧
    (∃ (s : State) (q : CmdRef) (nsid : Nat) (attach : Bool) (n : Ns) (s1 : State) (c : Cmd), (startsAtOnce s q (.nsAttach nsid
      attach) = some (s1, c)) ∧ (nsOf s1 nsid = some n) ∧ (n.attached = !attach)) ∧
    (∃ (s : State) (q : CmdRef) (nsid value : Nat) (n : Ns) (s1 : State) (c : Cmd), (startsAtOnce s q (.dirSend nsid 0 1 value)
      = some (s1, c)) ∧ (nsOf s1 nsid = some n) ∧ (bitsOf value 8 8 = 1)) ∧
    (∃ (s : State) (q : CmdRef) (nsid : Nat) (n : Ns) (s1 : State) (c : Cmd), (startsAtOnce s q (.dirReceive nsid 0 1) = some
      (s1, c)) ∧ (nsOf s1 nsid = some n)) ∧
    (∃ (s : State) (q : CmdRef) (nsid lbaf ses : Nat) (s1 : State) (c : Cmd), (startsAtOnce s q (.formatNvm nsid lbaf ses) =
      some (s1, c)) ∧ (nsid ≠ 0xFFFFFFFF ∧ (nsOf s1 nsid).isSome = true) ∧ (lbaf ≤ 1 ∧ ses ≤ 2) ∧ (s1.nvme.sanitize = none ∧
      nsInFlow s1 nsid = false) ∧ (ses = 2 → rngOk s1 = true)) ∧
    (∃ (s : State) (q : CmdRef) (s1 : State) (c : Cmd), (startsAtOnce s q (.sanitize false) = some (s1, c)) ∧
      (s1.nvme.sanitize = none)) ∧
    (∃ (s : State) (q : CmdRef) (s2 : State) (s1 : State) (c : Cmd), (startsAtOnce s q (.sanitize true) = some (s1, c)) ∧
      (s1.nvme.sanitize = none ∧ rngOk s1 = true) ∧ (s2 = (0 :: nsIds s1).foldl (fun acc n => (newMediaKey acc n).getD acc)
      s1)) ∧
    (∃ (s : State) (k : Nat) (s1 : State), (s.nvme.sanitize = some k ∧ s.ftl.rels = []) ∧
      (s1 = { (nsIds s).foldl deallocNs s with nvme := { ((nsIds s).foldl deallocNs s).nvme with sanitize := none } })) :=
  ⟨⟨nvmeW (tinyW []), admQ, 0, 1, ⟨64, 0, true, true⟩, (startOf (nvmeW (tinyW [])) (admQ) (.identify (0) (1))).1, (startOf
    (nvmeW (tinyW [])) (admQ) (.identify (0) (1))).2, by decide +kernel, by decide +kernel, by decide +kernel⟩,
   ⟨nvmeW (tinyW []), admQ, 0, (startOf (nvmeW (tinyW [])) (admQ) (.identify 1 (0))).1, (startOf (nvmeW (tinyW [])) (admQ)
     (.identify 1 (0))).2, by decide +kernel⟩,
   ⟨nvmeW (tinyW []), admQ, 0xC2, 0, 0, 4, false, (startOf (nvmeW (tinyW [])) (admQ) (.getLog (0xC2) (0) (0) (4) (false))).1,
     (startOf (nvmeW (tinyW [])) (admQ) (.getLog (0xC2) (0) (0) (4) (false))).2, by decide +kernel, by decide +kernel⟩,
   ⟨nvmeW (tinyW []), admQ, 2, 0, 0, 4, true, (standardPage (nvmeW (tinyW [])) 2).getD [], (startOf (nvmeW (tinyW [])) (admQ)
     (.getLog (2) (0) (0) (4) (true))).1, (startOf (nvmeW (tinyW [])) (admQ) (.getLog (2) (0) (0) (4) (true))).2,
     by decide +kernel, by decide +kernel⟩,
   ⟨nvmeW (tinyW []), admQ, 1, 0, 0x7000, (startOf (nvmeW (tinyW [])) (admQ) (.setFeatures (1) (0) (0x7000) false)).1, (startOf
     (nvmeW (tinyW [])) (admQ) (.setFeatures (1) (0) (0x7000) false)).2, by decide +kernel, by decide +kernel,
     by decide +kernel⟩,
   ⟨nvmeW (tinyW []), admQ, 0, 2, (startOf (nvmeW (tinyW [])) (admQ) (.setFeatures 2 (0) (2) false)).1, (startOf (nvmeW (tinyW
     [])) (admQ) (.setFeatures 2 (0) (2) false)).2, by decide +kernel, by decide +kernel, by decide +kernel⟩,
   ⟨nvmeW (tinyW []), admQ, 7, 0, (startOf (nvmeW (tinyW [])) (admQ) (.getFeatures (7) (0))).1, (startOf (nvmeW (tinyW []))
     (admQ) (.getFeatures (7) (0))).2, by decide +kernel, by decide +kernel, by decide +kernel⟩,
   ⟨nvmeW (tinyW []), admQ, (startOf (nvmeW (tinyW [])) (admQ) (.asyncEvent)).1, (startOf (nvmeW (tinyW [])) (admQ)
     (.asyncEvent)).2, by decide +kernel, by decide +kernel, by decide +kernel⟩,
   ⟨setCtrl (nvmeW (tinyW [])) 0 { ctrlOf (nvmeW (tinyW [])) 0 with events := [⟨7, 0xC2, 0xC2⟩] }, admQ, ⟨7, 0xC2, 0xC2⟩, [],
     (startOf (setCtrl (nvmeW (tinyW [])) 0 { ctrlOf (nvmeW (tinyW [])) 0 with events := [⟨7, 0xC2, 0xC2⟩] }) (admQ)
     (.asyncEvent)).1, (startOf (setCtrl (nvmeW (tinyW [])) 0 { ctrlOf (nvmeW (tinyW [])) 0 with events := [⟨7, 0xC2, 0xC2⟩] })
     (admQ) (.asyncEvent)).2, by decide +kernel, by decide +kernel, by decide +kernel⟩,
   ⟨{ nvmeW (tinyW []) with nvme := { (nvmeW (tinyW [])).nvme with nss := [(1, some ⟨0, 0, true, true⟩)] } }, admQ, 0, 1, 2,
     ((nsCreated ((startOf
     ({ nvmeW (tinyW []) with nvme := { (nvmeW (tinyW [])).nvme with nss := [(1, some ⟨0, 0, true, true⟩)] } }) (admQ)
     (.nsManage (.create (0) (1)))).1) 0 1).getD (0, tiny)).2, (startOf
     ({ nvmeW (tinyW []) with nvme := { (nvmeW (tinyW [])).nvme with nss := [(1, some ⟨0, 0, true, true⟩)] } }) (admQ)
     (.nsManage (.create (0) (1)))).1, (startOf
     ({ nvmeW (tinyW []) with nvme := { (nvmeW (tinyW [])).nvme with nss := [(1, some ⟨0, 0, true, true⟩)] } }) (admQ)
     (.nsManage (.create (0) (1)))).2, by decide +kernel, by rfl⟩,
   ⟨nvmeW (tinyW []), admQ, 1, (startOf (nvmeW (tinyW [])) (admQ) (.nsManage (.delete (1)))).1, (startOf (nvmeW (tinyW []))
     (admQ) (.nsManage (.delete (1)))).2, by decide +kernel, by decide +kernel⟩,
   ⟨nvmeW (tinyW [(R.DRAM_USABLE_MIB, 4096)]), admQ, 15, 1073741824, 0, (startOf (nvmeW (tinyW [(R.DRAM_USABLE_MIB, 4096)]))
     (admQ) (.nsManage (.createSlm (15) (1073741824)))).1, (startOf (nvmeW (tinyW [(R.DRAM_USABLE_MIB, 4096)])) (admQ)
     (.nsManage (.createSlm (15) (1073741824)))).2, by decide +kernel, by decide +kernel, by decide +kernel, by decide +kernel⟩,
   ⟨nvmeW (tinyW []), admQ, 1, false, ⟨64, 0, true, true⟩, (startOf (nvmeW (tinyW [])) (admQ) (.nsAttach (1) (false))).1,
     (startOf (nvmeW (tinyW [])) (admQ) (.nsAttach (1) (false))).2, by decide +kernel, by decide +kernel, by decide +kernel⟩,
   ⟨nvmeW (tinyW []), admQ, 1, 256, ⟨64, 0, true, true⟩, (startOf (nvmeW (tinyW [])) (admQ) (.dirSend (1) 0 1 (256))).1,
     (startOf (nvmeW (tinyW [])) (admQ) (.dirSend (1) 0 1 (256))).2, by decide +kernel, by decide +kernel, by decide +kernel⟩,
   ⟨nvmeW (tinyW []), admQ, 1, ⟨64, 0, true, true⟩, (startOf (nvmeW (tinyW [])) (admQ) (.dirReceive (1) 0 1)).1, (startOf
     (nvmeW (tinyW [])) (admQ) (.dirReceive (1) 0 1)).2, by decide +kernel, by decide +kernel⟩,
   ⟨nvmeW (tinyW []), admQ, 1, 1, 2, (startOf (nvmeW (tinyW [])) (admQ) (.formatNvm (1) (1) (2))).1, (startOf (nvmeW (tinyW
     [])) (admQ) (.formatNvm (1) (1) (2))).2, by decide +kernel, by decide +kernel, by decide +kernel, by decide +kernel,
     by decide +kernel⟩,
   ⟨nvmeW (tinyW []), admQ, (startOf (nvmeW (tinyW [])) (admQ) (.sanitize false)).1, (startOf (nvmeW (tinyW [])) (admQ)
     (.sanitize false)).2, by decide +kernel, by decide +kernel⟩,
   ⟨nvmeW (tinyW []), admQ, (0 :: nsIds ((startOf (nvmeW (tinyW [])) (admQ) (.sanitize true)).1)).foldl (fun acc n =>
     (newMediaKey acc n).getD acc) ((startOf (nvmeW (tinyW [])) (admQ) (.sanitize true)).1), (startOf (nvmeW (tinyW [])) (admQ)
     (.sanitize true)).1, (startOf (nvmeW (tinyW [])) (admQ) (.sanitize true)).2, by decide +kernel, by decide +kernel, rfl⟩,
   ⟨{ nvmeW (tinyW []) with nvme := { (nvmeW (tinyW [])).nvme with sanitize := some 0 } }, 0,
     { (nsIds ({ nvmeW (tinyW []) with nvme := { (nvmeW (tinyW [])).nvme with sanitize := some 0 } })).foldl deallocNs ({ nvmeW (tinyW []) with nvme := { (nvmeW (tinyW [])).nvme with sanitize := some 0 } }) with nvme := { ((nsIds ({ nvmeW (tinyW []) with nvme := { (nvmeW (tinyW [])).nvme with sanitize := some 0 } })).foldl deallocNs ({ nvmeW (tinyW []) with nvme := { (nvmeW (tinyW [])).nvme with sanitize := some 0 } })).nvme with sanitize := none } },
     by decide +kernel, by decide +kernel⟩⟩

theorem wit_FirmwareSelfTestAndRequalifyComplete :
    (∃ (s : State) (q : CmdRef) (off : Nat) (bytes : List Byte) (s1 : State) (c : Cmd), (startsAtOnce s q (.fwDownload off
      bytes) = some (s1, c)) ∧ (s1.boot.mode ≠ .recovery)) ∧
    (∃ (s : State) (q : CmdRef) (slot : Nat) (fault ok : Bool) (img : List Byte) (s2 : State) (r : Nat × Nat × State) (s1 :
      State) (c : Cmd), (startsAtOnce s q (.fwCommit 0 slot fault ok) = some (s1, c)) ∧ (s1.boot.mode ≠ .recovery) ∧
      ((slot = 1 ∨ slot = 2) ∧ s1.boot.slot ≠ some (slot - 1)) ∧ (img = (List.range (fwLength s1)).map (tblGet 0xFF
      s1.nvme.fwBuf)) ∧ (s2 = slotProgram (slotErase s1 (slot - 1) (fwLength s1)) (slot - 1) 0 img) ∧
      (r = gateCommit s2 (slot - 1) 0 fault ok)) ∧
    (∃ (s : State) (q : CmdRef) (slot : Nat) (fault ok : Bool) (img : List Byte) (s2 : State) (r : Nat × Nat × State) (s1 :
      State) (c : Cmd), (startsAtOnce s q (.fwCommit 1 slot fault ok) = some (s1, c)) ∧ (s1.boot.mode ≠ .recovery) ∧
      ((slot = 1 ∨ slot = 2) ∧ s1.boot.slot ≠ some (slot - 1)) ∧ (img = (List.range (fwLength s1)).map (tblGet 0xFF
      s1.nvme.fwBuf)) ∧ (s2 = slotProgram (slotErase s1 (slot - 1) (fwLength s1)) (slot - 1) 0 img) ∧
      (r = gateCommit s2 (slot - 1) 1 fault ok)) ∧
    (∃ (s : State) (q : CmdRef) (slot : Nat) (fault ok : Bool) (r : Nat × Nat × State) (s1 : State) (c : Cmd), (startsAtOnce s
      q (.fwCommit 2 slot fault ok) = some (s1, c)) ∧ (s1.boot.mode ≠ .recovery) ∧ ((slot = 1 ∨ slot = 2) ∧
      s1.boot.slot ≠ some (slot - 1)) ∧ (r = gateActivate s1 (slot - 1) fault ok)) ∧
    (∃ (s : State) (q : CmdRef) (nsid : Nat) (s1 : State) (c : Cmd), (startsAtOnce s q (.selfTest 1 nsid) = some (s1, c)) ∧
      (nsid = 0 ∨ nsid = 0xFFFFFFFF ∨ (nsOf s1 nsid).isSome = true) ∧ (s1.nvme.selfTest.run = none)) ∧
    (∃ (s : State) (q : CmdRef) (nsid : Nat) (s1 : State) (c : Cmd), (startsAtOnce s q (.selfTest 2 nsid) = some (s1, c)) ∧
      (nsid = 0 ∨ nsid = 0xFFFFFFFF ∨ (nsOf s1 nsid).isSome = true) ∧ (s1.nvme.selfTest.run = none)) ∧
    (∃ (s : State) (q : CmdRef) (s1 : State) (c : Cmd), (startsAtOnce s q (.selfTest 0xF 0) = some (s1, c))) ∧
    (∃ (s : State) (pass : Bool) (k : Nat) (s1 : State), (s.nvme.selfTest.run = some k) ∧
      (s1 = (List.range tcamSlots).foldl (fun acc _ => shadowCheck acc) ([0, 1, 2, 3, 4, 6, 7].foldl correctorCheck s))) ∧
    (∃ (s : State) (q : CmdRef) (hi : BitVec 30) (s1 : State) (c : Cmd), (startsAtOnce s q (.requalify 0 hi.toNat []) = some
      (s1, c)) ∧ (hi = 0) ∧ (qualRunning s1 = false)) ∧
    (∃ (s : State) (q : CmdRef) (hi : BitVec 30) (data : List Byte) (s1 : State) (c : Cmd), (startsAtOnce s q (.requalify 1
      hi.toNat data) = some (s1, c)) ∧ (hi = 0 ∧ data.length = 128) ∧ (holdProfOk data = true) ∧ (qualRunning s1 = false)) ∧
    (∃ (s : State) (q : CmdRef) (hi : BitVec 30) (data : List Byte) (s1 : State) (c : Cmd), (startsAtOnce s q (.requalify 2
      hi.toNat data) = some (s1, c)) ∧ (hi = 0 ∧ data.length = 256) ∧ (thermProfOk data = true)) :=
  ⟨⟨nvmeW (tinyW []), admQ, 2, [1, 2], (startOf (nvmeW (tinyW [])) (admQ) (.fwDownload (2) ([1, 2]))).1, (startOf (nvmeW (tinyW
    [])) (admQ) (.fwDownload (2) ([1, 2]))).2, by decide +kernel, by decide +kernel⟩,
   ⟨nvmeW (tinyW [(fldState 0x350000, 2)]), admQ, 2, false, true, [], slotErase ((startOf (nvmeW (tinyW [(fldState 0x350000,
     2)])) (admQ) (.fwCommit 0 (2) (false) (true))).1) 1 0, gateCommit (slotErase ((startOf (nvmeW (tinyW [(fldState 0x350000,
     2)])) (admQ) (.fwCommit 0 (2) (false) (true))).1) 1 0) 1 0 false true, (startOf (nvmeW (tinyW [(fldState 0x350000, 2)]))
     (admQ) (.fwCommit 0 (2) (false) (true))).1, (startOf (nvmeW (tinyW [(fldState 0x350000, 2)])) (admQ) (.fwCommit 0 (2)
     (false) (true))).2, by decide +kernel, by decide +kernel, by decide +kernel, by decide +kernel, by decide +kernel, rfl⟩,
   ⟨nvmeW (tinyW [(fldState 0x350000, 2)]), admQ, 2, false, true, [], slotErase ((startOf (nvmeW (tinyW [(fldState 0x350000,
     2)])) (admQ) (.fwCommit 1 (2) (false) (true))).1) 1 0, gateCommit (slotErase ((startOf (nvmeW (tinyW [(fldState 0x350000,
     2)])) (admQ) (.fwCommit 1 (2) (false) (true))).1) 1 0) 1 1 false true, (startOf (nvmeW (tinyW [(fldState 0x350000, 2)]))
     (admQ) (.fwCommit 1 (2) (false) (true))).1, (startOf (nvmeW (tinyW [(fldState 0x350000, 2)])) (admQ) (.fwCommit 1 (2)
     (false) (true))).2, by decide +kernel, by decide +kernel, by decide +kernel, by decide +kernel, by decide +kernel, rfl⟩,
   ⟨nvmeW (tinyW [(fldState 0x350000, 2)]), admQ, 2, false, true, gateActivate ((startOf (nvmeW (tinyW [(fldState 0x350000,
     2)])) (admQ) (.fwCommit 2 (2) (false) (true))).1) 1 false true, (startOf (nvmeW (tinyW [(fldState 0x350000, 2)])) (admQ)
     (.fwCommit 2 (2) (false) (true))).1, (startOf (nvmeW (tinyW [(fldState 0x350000, 2)])) (admQ) (.fwCommit 2 (2) (false)
     (true))).2, by decide +kernel, by decide +kernel, by decide +kernel, rfl⟩,
   ⟨nvmeW (tinyW []), admQ, 1, (startOf (nvmeW (tinyW [])) (admQ) (.selfTest 1 (1))).1, (startOf (nvmeW (tinyW [])) (admQ)
     (.selfTest 1 (1))).2, by decide +kernel, by decide +kernel, by decide +kernel⟩,
   ⟨nvmeW (tinyW []), admQ, 1, (startOf (nvmeW (tinyW [])) (admQ) (.selfTest 2 (1))).1, (startOf (nvmeW (tinyW [])) (admQ)
     (.selfTest 2 (1))).2, by decide +kernel, by decide +kernel, by decide +kernel⟩,
   ⟨nvmeW (tinyW []), admQ, (startOf (nvmeW (tinyW [])) (admQ) (.selfTest 0xF 0)).1, (startOf (nvmeW (tinyW [])) (admQ)
     (.selfTest 0xF 0)).2, by decide +kernel⟩,
   ⟨{ nvmeW (tinyW [(R.RULE_CTRL_CHK_EN, 0)]) with nvme := { (nvmeW (tinyW [])).nvme with selfTest := ⟨some 1, 0, none⟩ } },
     true, 1, (List.range tcamSlots).foldl (fun acc _ => shadowCheck acc) ([0, 1, 2, 3, 4, 6, 7].foldl correctorCheck
     ({ nvmeW (tinyW [(R.RULE_CTRL_CHK_EN, 0)]) with nvme := { (nvmeW (tinyW [])).nvme with selfTest := ⟨some 1, 0, none⟩ } })),
     by decide +kernel, rfl⟩,
   ⟨nvmeW (tinyW []), admQ, (0 : BitVec 30), (startOf (nvmeW (tinyW [])) (admQ) (.requalify 0 ((0 : BitVec 30)).toNat [])).1,
     (startOf (nvmeW (tinyW [])) (admQ) (.requalify 0 ((0 : BitVec 30)).toNat [])).2, by decide +kernel, by decide +kernel,
     by decide +kernel⟩,
   ⟨nvmeW (tinyW []), admQ, (0 : BitVec 30), holdImg, (startOf (nvmeW (tinyW [])) (admQ) (.requalify 1 ((0 : BitVec 30)).toNat
     (holdImg))).1, (startOf (nvmeW (tinyW [])) (admQ) (.requalify 1 ((0 : BitVec 30)).toNat (holdImg))).2, by decide +kernel,
     by decide +kernel, by decide +kernel, by decide +kernel⟩,
   ⟨nvmeW (tinyW []), admQ, (0 : BitVec 30), thermImg, (startOf (nvmeW (tinyW [])) (admQ) (.requalify 2 ((0 : BitVec 30)).toNat
     (thermImg))).1, (startOf (nvmeW (tinyW [])) (admQ) (.requalify 2 ((0 : BitVec 30)).toNat (thermImg))).2,
     by decide +kernel, by decide +kernel, by decide +kernel⟩⟩

theorem wit_InputOutputCommandsComplete :
    (∃ (s : State) (q : CmdRef) (nsid : Nat) (s1 : State) (c : Cmd), (startsAtOnce s q (.flush nsid) = some (s1, c)) ∧
      (nsid ≠ 0xFFFFFFFF ∧ ioFault s1 nsid [] = none) ∧ (heldOff s1 = false)) ∧
    (∃ (s : State) (q : CmdRef) (nsid slba nlb dtype dspec f : Nat) (fua : Bool) (ptr : DataPtr) (s1 : State) (c : Cmd),
      (startsAtOnce s q (.write nsid slba nlb dtype dspec fua ptr) = some (s1, c)) ∧
      (writeFault s1 nsid slba nlb dtype ptr = none) ∧ (hostFlow s1 nsid (if dtype = 1 then dspec else 0) = some f) ∧
      (ctxDraining s1 f = false ∧ ctxStopped s1 f = false)) ∧
    (∃ (s : State) (q : CmdRef) (nsid slba nlb : Nat) (bad : List Nat) (s1 : State) (c : Cmd), (startsAtOnce s q (.read nsid
      slba nlb bad) = some (s1, c)) ∧ ((readRange s1 bad nsid slba nlb).1 = scOk)) ∧
    (∃ (s : State) (q : CmdRef) (nsid slba nlb : Nat) (bad : List Nat) (s1 : State) (c : Cmd), (startsAtOnce s q (.verify nsid
      slba nlb bad) = some (s1, c)) ∧ ((readRange s1 bad nsid slba nlb).1 = scOk)) ∧
    (∃ (s : State) (q : CmdRef) (nsid : Nat) (ranges : List LbaRange) (s1 : State) (c : Cmd), (startsAtOnce s q (.dsm nsid
      ranges) = some (s1, c)) ∧ (ioFault s1 nsid (ranges.map (fun r => (r.slba, r.nlb))) = none) ∧ (heldOff s1 = false)) ∧
    (∃ (s : State) (q : CmdRef) (nsid slba : Nat) (cdw12 : BitVec 32) (bad : List Nat) (pc : FoundParcel) (s1 : State) (c :
      Cmd), (startsAtOnce s q (.parcelRead nsid slba cdw12.toNat bad) = some (s1, c)) ∧ (cdw12.toNat < 0x10000 ∧
      ioFault s1 nsid [(slba, 1)] = none) ∧ ((sectorBlock s1 nsid (lbaSectors s1 nsid slba 1).1).isSome = true) ∧
      (parcelOf s1 nsid (lbaSectors s1 nsid slba 1).1 = some pc)) ∧
    (∃ (s : State) (q : CmdRef) (slm off len a : Nat) (bs : List Byte) (s2 : State) (s1 : State) (c : Cmd), (startsAtOnce s q
      (.slmRead slm off len) = some (s1, c)) ∧ (slmAddr s1 (ctrlNum c) slm off len = some a) ∧
      (readRam s1 a len = (bs, s2, none))) ∧
    (∃ (s : State) (q : CmdRef) (slm off a : Nat) (bytes : List Byte) (s1 : State) (c : Cmd), (startsAtOnce s q (.slmWrite slm
      off bytes) = some (s1, c)) ∧ (slmAddr s1 (ctrlNum c) slm off bytes.length = some a)) ∧
    (∃ (s : State) (q : CmdRef) (nsid slba nlb slm off a : Nat) (bad : List Nat) (s1 : State) (c : Cmd), (startsAtOnce s q
      (.memoryCopy nsid slba nlb slm off bad) = some (s1, c)) ∧ ((readRange s1 bad nsid slba nlb).1 = scOk) ∧
      (slmAddr s1 (ctrlNum c) slm off (readRange s1 bad nsid slba nlb).2.length = some a)) :=
  ⟨⟨nvmeW (tinyW []), ioQ, 1, (startOf (nvmeW (tinyW [])) (ioQ) (.flush (1))).1, (startOf (nvmeW (tinyW [])) (ioQ) (.flush
    (1))).2, by decide +kernel, by decide +kernel, by decide +kernel⟩,
   ⟨{ nvmeW (tinyW []) with mem := flowMem }, ioQ, 1, 63, 1, 0, 9, 0, false, .prp, (startOf
     ({ nvmeW (tinyW []) with mem := flowMem }) (ioQ) (.write (1) (63) (1) (0) (9) (false) (.prp))).1, (startOf
     ({ nvmeW (tinyW []) with mem := flowMem }) (ioQ) (.write (1) (63) (1) (0) (9) (false) (.prp))).2, by decide +kernel,
     by decide +kernel, by decide +kernel, by decide +kernel⟩,
   ⟨{ nvmeW (tinyW []) with ftl := { Ftl.reset with ready := true, wb := [⟨1, 5, rawBlock, false, 0⟩] } }, ioQ, 1, 5, 1, [],
     (startOf ({ nvmeW (tinyW []) with ftl := { Ftl.reset with ready := true, wb := [⟨1, 5, rawBlock, false, 0⟩] } }) (ioQ)
     (.read (1) (5) (1) ([]))).1, (startOf
     ({ nvmeW (tinyW []) with ftl := { Ftl.reset with ready := true, wb := [⟨1, 5, rawBlock, false, 0⟩] } }) (ioQ) (.read (1)
     (5) (1) ([]))).2, by decide +kernel, by decide +kernel⟩,
   ⟨{ nvmeW (tinyW []) with ftl := { Ftl.reset with ready := true, wb := [⟨1, 5, rawBlock, false, 0⟩] } }, ioQ, 1, 5, 1, [],
     (startOf ({ nvmeW (tinyW []) with ftl := { Ftl.reset with ready := true, wb := [⟨1, 5, rawBlock, false, 0⟩] } }) (ioQ)
     (.verify (1) (5) (1) ([]))).1, (startOf
     ({ nvmeW (tinyW []) with ftl := { Ftl.reset with ready := true, wb := [⟨1, 5, rawBlock, false, 0⟩] } }) (ioQ) (.verify (1)
     (5) (1) ([]))).2, by decide +kernel, by decide +kernel⟩,
   ⟨nvmeW (tinyW []), ioQ, 1, [⟨0, 64⟩], (startOf (nvmeW (tinyW [])) (ioQ) (.dsm (1) ([⟨0, 64⟩]))).1, (startOf (nvmeW (tinyW
     [])) (ioQ) (.dsm (1) ([⟨0, 64⟩]))).2, by decide +kernel, by decide +kernel, by decide +kernel⟩,
   ⟨{ nvmeW (tinyW []) with ftl := { Ftl.reset with ready := true, wb := [⟨1, 5, rawBlock, false, 0⟩], rels := [⟨1, 0, 0, none, 1, 5, 1, 2, 1, 18, [], 0, false, false, [], true, false⟩] } },
     ioQ, 1, 5, (1 : BitVec 32), [], ⟨0, 0, 0, 5, 2, 0, []⟩, (startOf
     ({ nvmeW (tinyW []) with ftl := { Ftl.reset with ready := true, wb := [⟨1, 5, rawBlock, false, 0⟩], rels := [⟨1, 0, 0, none, 1, 5, 1, 2, 1, 18, [], 0, false, false, [], true, false⟩] } })
     (ioQ) (.parcelRead (1) (5) ((1 : BitVec 32)).toNat ([]))).1, (startOf
     ({ nvmeW (tinyW []) with ftl := { Ftl.reset with ready := true, wb := [⟨1, 5, rawBlock, false, 0⟩], rels := [⟨1, 0, 0, none, 1, 5, 1, 2, 1, 18, [], 0, false, false, [], true, false⟩] } })
     (ioQ) (.parcelRead (1) (5) ((1 : BitVec 32)).toNat ([]))).2, by decide +kernel, by decide +kernel, by decide +kernel,
     by decide +kernel⟩,
   ⟨{ nvmeW (tinyW [(R.DRAM_USABLE_MIB, 4096), (R.DRAM_STATUS_STATE, 2)]) with nvme := { (nvmeW (tinyW [])).nvme with slms := [(0, some (0, 4096))] }, ftl := { Ftl.reset with ready := true, wb := [⟨1, 5, rawBlock, false, 0⟩] } },
     ioQ, 0, 4092, 4, 4092, [0, 0, 0, 0], (readRam ((startOf
     ({ nvmeW (tinyW [(R.DRAM_USABLE_MIB, 4096), (R.DRAM_STATUS_STATE, 2)]) with nvme := { (nvmeW (tinyW [])).nvme with slms := [(0, some (0, 4096))] }, ftl := { Ftl.reset with ready := true, wb := [⟨1, 5, rawBlock, false, 0⟩] } })
     (ioQ) (.slmRead (0) (4092) (4))).1) 4092 4).2.1, (startOf
     ({ nvmeW (tinyW [(R.DRAM_USABLE_MIB, 4096), (R.DRAM_STATUS_STATE, 2)]) with nvme := { (nvmeW (tinyW [])).nvme with slms := [(0, some (0, 4096))] }, ftl := { Ftl.reset with ready := true, wb := [⟨1, 5, rawBlock, false, 0⟩] } })
     (ioQ) (.slmRead (0) (4092) (4))).1, (startOf
     ({ nvmeW (tinyW [(R.DRAM_USABLE_MIB, 4096), (R.DRAM_STATUS_STATE, 2)]) with nvme := { (nvmeW (tinyW [])).nvme with slms := [(0, some (0, 4096))] }, ftl := { Ftl.reset with ready := true, wb := [⟨1, 5, rawBlock, false, 0⟩] } })
     (ioQ) (.slmRead (0) (4092) (4))).2, by decide +kernel, by decide +kernel, by decide +kernel⟩,
   ⟨{ nvmeW (tinyW [(R.DRAM_USABLE_MIB, 4096), (R.DRAM_STATUS_STATE, 2)]) with nvme := { (nvmeW (tinyW [])).nvme with slms := [(0, some (0, 4096))] }, ftl := { Ftl.reset with ready := true, wb := [⟨1, 5, rawBlock, false, 0⟩] } },
     ioQ, 0, 4095, 4095, [7], (startOf
     ({ nvmeW (tinyW [(R.DRAM_USABLE_MIB, 4096), (R.DRAM_STATUS_STATE, 2)]) with nvme := { (nvmeW (tinyW [])).nvme with slms := [(0, some (0, 4096))] }, ftl := { Ftl.reset with ready := true, wb := [⟨1, 5, rawBlock, false, 0⟩] } })
     (ioQ) (.slmWrite (0) (4095) ([7]))).1, (startOf
     ({ nvmeW (tinyW [(R.DRAM_USABLE_MIB, 4096), (R.DRAM_STATUS_STATE, 2)]) with nvme := { (nvmeW (tinyW [])).nvme with slms := [(0, some (0, 4096))] }, ftl := { Ftl.reset with ready := true, wb := [⟨1, 5, rawBlock, false, 0⟩] } })
     (ioQ) (.slmWrite (0) (4095) ([7]))).2, by decide +kernel, by decide +kernel⟩,
   ⟨{ nvmeW (tinyW [(R.DRAM_USABLE_MIB, 4096), (R.DRAM_STATUS_STATE, 2)]) with nvme := { (nvmeW (tinyW [])).nvme with slms := [(0, some (0, 4096))] }, ftl := { Ftl.reset with ready := true, wb := [⟨1, 5, rawBlock, false, 0⟩] } },
     ioQ, 1, 5, 1, 0, 0, 0, [], (startOf
     ({ nvmeW (tinyW [(R.DRAM_USABLE_MIB, 4096), (R.DRAM_STATUS_STATE, 2)]) with nvme := { (nvmeW (tinyW [])).nvme with slms := [(0, some (0, 4096))] }, ftl := { Ftl.reset with ready := true, wb := [⟨1, 5, rawBlock, false, 0⟩] } })
     (ioQ) (.memoryCopy (1) (5) (1) (0) (0) ([]))).1, (startOf
     ({ nvmeW (tinyW [(R.DRAM_USABLE_MIB, 4096), (R.DRAM_STATUS_STATE, 2)]) with nvme := { (nvmeW (tinyW [])).nvme with slms := [(0, some (0, 4096))] }, ftl := { Ftl.reset with ready := true, wb := [⟨1, 5, rawBlock, false, 0⟩] } })
     (ioQ) (.memoryCopy (1) (5) (1) (0) (0) ([]))).2, by decide +kernel, by decide +kernel, by decide +kernel⟩⟩

theorem wit_VendorLoadsComplete :
    (∃ (s : State) (q : CmdRef) (cdw10 : BitVec 32) (image : List Byte) (s1 : State) (c : Cmd), (startsAtOnce s q (.flowBind
      cdw10.toNat image) = some (s1, c)) ∧ (image.length = 64 ∧ cdw10.toNat < 2 ^ 18) ∧
      (bindFault s1 cdw10.toNat image = none) ∧ (maskQuiesced s1 (imgFld image cxMASK) = false)) ∧
    (∃ (s : State) (q : CmdRef) (cdw10 : BitVec 32) (s1 : State) (c : Cmd), (startsAtOnce s q (.flowUnbind cdw10.toNat) = some
      (s1, c)) ∧ (cdw10.toNat < 2 ^ 18) ∧ (ctxBound s1 cdw10.toNat = true ∧ ctxDraining s1 cdw10.toNat = false)) ∧
    (∃ (s : State) (q : CmdRef) (cdw10 : BitVec 32) (image : List Byte) (s1 : State) (c : Cmd), (startsAtOnce s q (.programLoad
      cdw10.toNat image) = some (s1, c)) ∧ (dataLengthBad image = false) ∧ (cdw10.toNat < 64) ∧
      (progStatus s1 0 cdw10.toNat image = scOk)) ∧
    (∃ (s : State) (q : CmdRef) (image : List Byte) (s1 : State) (c : Cmd), (startsAtOnce s q (.stepTableLoad image) = some
      (s1, c)) ∧ (dataLengthBad image = false) ∧ (setStatus s1 image = scOk)) ∧
    (∃ (s : State) (q : CmdRef) (image : List Byte) (s1 : State) (c : Cmd), (startsAtOnce s q (.profileLoad image) = some (s1,
      c)) ∧ (dataLengthBad image = false) ∧ (profStatus s1 image = scOk)) ∧
    (∃ (s : State) (q : CmdRef) (image : List Byte) (s1 : State) (c : Cmd), (startsAtOnce s q (.automatonLoad image) = some
      (s1, c)) ∧ (dataLengthBad image = false) ∧ (autoStatus s1 image = scOk)) ∧
    (∃ (s : State) (q : CmdRef) (cdw10 : BitVec 32) (image : List Byte) (s1 : State) (c : Cmd), (startsAtOnce s q
      (.personalityLoad cdw10.toNat image) = some (s1, c)) ∧ (dataLengthBad image = false) ∧ (cdw10.toNat < 4) ∧
      (persStatus s1 cdw10.toNat image = scOk)) ∧
    (∃ (s : State) (q : CmdRef) (hi : BitVec 30) (image : List Byte) (s1 : State) (c : Cmd), (startsAtOnce s q (.fabricLoad
      hi.toNat image) = some (s1, c)) ∧ (dataLengthBad image = false) ∧ (hi = 0) ∧ (fcStatus s1 image = scOk)) ∧
    (∃ (s : State) (q : CmdRef) (k : Fin 2) (n : Nat) (cid : BitVec 16) (hi : BitVec 30) (records : List Byte) (r : Nat × Bool
      × State) (s1 : State) (c : Cmd), (startsAtOnce s q (.fabricTags hi.toNat records) = some (s1, c)) ∧ (q = .host k n cid ∧
      hi = 0 ∧ dataLengthBad records = false) ∧ (r = fabTags s1 k.val records 0 (records.length / 8))) ∧
    (∃ (s : State) (q : CmdRef) (hi : BitVec 30) (image : List Byte) (s1 : State) (c : Cmd), (startsAtOnce s q (.ruleLoad 0
      hi.toNat image) = some (s1, c)) ∧ (hi = 0 ∧ dataLengthBad image = false) ∧ (ruleStatus s1 0 image = scOk)) ∧
    (∃ (s : State) (q : CmdRef) (hi : BitVec 30) (image : List Byte) (s1 : State) (c : Cmd), (startsAtOnce s q (.ruleLoad 1
      hi.toNat image) = some (s1, c)) ∧ (hi = 0 ∧ dataLengthBad image = false) ∧ (ruleStatus s1 1 image = scOk)) ∧
    (∃ (s : State) (q : CmdRef) (hi : BitVec 30) (image : List Byte) (s1 : State) (c : Cmd), (startsAtOnce s q (.ruleLoad 2
      hi.toNat image) = some (s1, c)) ∧ (hi = 0 ∧ dataLengthBad image = false) ∧ (ruleStatus s1 2 image = scOk)) :=
  ⟨⟨loadedW (nvmeW (tinyW [])), admQ, (262143 : BitVec 32), flowImg, (startOf (loadedW (nvmeW (tinyW []))) (admQ) (.flowBind
    ((262143 : BitVec 32)).toNat (flowImg))).1, (startOf (loadedW (nvmeW (tinyW []))) (admQ) (.flowBind ((262143 : BitVec
    32)).toNat (flowImg))).2, by decide +kernel, by decide +kernel, by decide +kernel, by decide +kernel⟩,
   ⟨{ nvmeW (tinyW []) with mem := flowMem }, admQ, (0 : BitVec 32), (startOf ({ nvmeW (tinyW []) with mem := flowMem }) (admQ)
     (.flowUnbind ((0 : BitVec 32)).toNat)).1, (startOf ({ nvmeW (tinyW []) with mem := flowMem }) (admQ) (.flowUnbind ((0 :
     BitVec 32)).toNat)).2, by decide +kernel, by decide +kernel, by decide +kernel⟩,
   ⟨nvmeW (tinyW []), admQ, (63 : BitVec 32), progImg 0, (startOf (nvmeW (tinyW [])) (admQ) (.programLoad ((63 : BitVec
     32)).toNat (progImg 0))).1, (startOf (nvmeW (tinyW [])) (admQ) (.programLoad ((63 : BitVec 32)).toNat (progImg 0))).2,
     by decide +kernel, by decide +kernel, by decide +kernel, by decide +kernel⟩,
   ⟨nvmeW (tinyW []), admQ, setImg, (startOf (nvmeW (tinyW [])) (admQ) (.stepTableLoad (setImg))).1, (startOf (nvmeW (tinyW
     [])) (admQ) (.stepTableLoad (setImg))).2, by decide +kernel, by decide +kernel, by decide +kernel⟩,
   ⟨nvmeW (tinyW []), admQ, profImg, (startOf (nvmeW (tinyW [])) (admQ) (.profileLoad (profImg))).1, (startOf (nvmeW (tinyW
     [])) (admQ) (.profileLoad (profImg))).2, by decide +kernel, by decide +kernel, by decide +kernel⟩,
   ⟨nvmeW (tinyW []), admQ, autoImg, (startOf (nvmeW (tinyW [])) (admQ) (.automatonLoad (autoImg))).1, (startOf (nvmeW (tinyW
     [])) (admQ) (.automatonLoad (autoImg))).2, by decide +kernel, by decide +kernel, by decide +kernel⟩,
   ⟨nvmeW (tinyW []), admQ, (0 : BitVec 32), persImg, (startOf (nvmeW (tinyW [])) (admQ) (.personalityLoad ((0 : BitVec
     32)).toNat (persImg))).1, (startOf (nvmeW (tinyW [])) (admQ) (.personalityLoad ((0 : BitVec 32)).toNat (persImg))).2,
     by decide +kernel, by decide +kernel, by decide +kernel, by decide +kernel⟩,
   ⟨nvmeW (tinyW []), admQ, (0 : BitVec 30), fabImg, (startOf (nvmeW (tinyW [])) (admQ) (.fabricLoad ((0 : BitVec 30)).toNat
     (fabImg))).1, (startOf (nvmeW (tinyW [])) (admQ) (.fabricLoad ((0 : BitVec 30)).toNat (fabImg))).2, by decide +kernel,
     by decide +kernel, by decide +kernel, by decide +kernel⟩,
   ⟨{ nvmeW (tinyW []) with hwWins := [⟨0, 0, 4, 0x100000, false⟩], mem := [(0x100000, 1)] }, admQ, (0 : Fin 2), 0, (7 : BitVec
     16), (0 : BitVec 30), bytesAt 8 [(4, 1)], fabTags ((startOf
     ({ nvmeW (tinyW []) with hwWins := [⟨0, 0, 4, 0x100000, false⟩], mem := [(0x100000, 1)] }) (admQ) (.fabricTags ((0 :
     BitVec 30)).toNat (bytesAt 8 [(4, 1)]))).1) 0 (bytesAt 8 [(4, 1)]) 0 1, (startOf
     ({ nvmeW (tinyW []) with hwWins := [⟨0, 0, 4, 0x100000, false⟩], mem := [(0x100000, 1)] }) (admQ) (.fabricTags ((0 :
     BitVec 30)).toNat (bytesAt 8 [(4, 1)]))).1, (startOf
     ({ nvmeW (tinyW []) with hwWins := [⟨0, 0, 4, 0x100000, false⟩], mem := [(0x100000, 1)] }) (admQ) (.fabricTags ((0 :
     BitVec 30)).toNat (bytesAt 8 [(4, 1)]))).2, by decide +kernel, by decide +kernel, by decide +kernel⟩,
   ⟨nvmeW (tinyW []), admQ, (0 : BitVec 30), ruleImg, (startOf (nvmeW (tinyW [])) (admQ) (.ruleLoad 0 ((0 : BitVec 30)).toNat
     (ruleImg))).1, (startOf (nvmeW (tinyW [])) (admQ) (.ruleLoad 0 ((0 : BitVec 30)).toNat (ruleImg))).2, by decide +kernel,
     by decide +kernel, by decide +kernel⟩,
   ⟨loadedW (nvmeW (tinyW [])), admQ, (0 : BitVec 30), ruleImg, (startOf (loadedW (nvmeW (tinyW []))) (admQ) (.ruleLoad 1 ((0 :
     BitVec 30)).toNat (ruleImg))).1, (startOf (loadedW (nvmeW (tinyW []))) (admQ) (.ruleLoad 1 ((0 : BitVec 30)).toNat
     (ruleImg))).2, by decide +kernel, by decide +kernel, by decide +kernel⟩,
   ⟨loadedW (nvmeW (tinyW [])), admQ, (0 : BitVec 30), ruleImg, (startOf (loadedW (nvmeW (tinyW []))) (admQ) (.ruleLoad 2 ((0 :
     BitVec 30)).toNat (ruleImg))).1, (startOf (loadedW (nvmeW (tinyW []))) (admQ) (.ruleLoad 2 ((0 : BitVec 30)).toNat
     (ruleImg))).2, by decide +kernel, by decide +kernel, by decide +kernel⟩⟩

theorem wit_ComputationalProgramsComplete :
    (∃ (s : State) (q : CmdRef) (pind : Nat) (image : List Byte) (s1 : State) (c : Cmd), (startsAtOnce s q (.loadProgram pind
      image) = some (s1, c)) ∧ (dataLengthBad image = false) ∧ (pind < 64) ∧ (progStatus s1 1 pind image = scOk)) ∧
    (∃ (s : State) (q : CmdRef) (pind : Nat) (act : Bool) (pg : ProgSlot) (s1 : State) (c : Cmd), (startsAtOnce s q
      (.programActivate pind act) = some (s1, c)) ∧ (cpProgram s1 pind = some pg)) ∧
    (∃ (s : State) (q : CmdRef) (rsid : Nat) (rs : List SlmRange) (s1 : State) (c : Cmd), (startsAtOnce s q (.rangeSet (.create
      rsid rs)) = some (s1, c)) ∧ (rs.all (fun r => (slmAddr s1 (ctrlNum c) r.slm r.off r.len).isSome) = true)) ∧
    (∃ (s : State) (q : CmdRef) (rsid : Nat) (s1 : State) (c : Cmd), (startsAtOnce s q (.rangeSet (.delete rsid)) = some (s1,
      c)) ∧ ((setOf s1 (ctrlNum c) rsid).isSome = true)) ∧
    (∃ (s : State) (q : CmdRef) (pind rsid t0 : Nat) (p0 p1 p2 : BitVec 32) (pl : CpPlan) (s1 : State) (c : Cmd), (startsAtOnce
      s q (.execute pind rsid p0.toNat p1.toNat p2.toNat) = some (s1, c)) ∧
      (cpPlanned s1 (ctrlNum c) pind rsid p2.toNat = some pl) ∧ (cpTile s1 = some t0)) ∧
    (∃ (s : State) (k : TileId) (j : Job), ((s.tile k.val).job = some j) ∧ (j.ref.cp = true)) :=
  ⟨⟨nvmeW (tinyW []), ioQ, 0, progImg 1, (startOf (nvmeW (tinyW [])) (ioQ) (.loadProgram (0) (progImg 1))).1, (startOf (nvmeW
    (tinyW [])) (ioQ) (.loadProgram (0) (progImg 1))).2, by decide +kernel, by decide +kernel, by decide +kernel,
    by decide +kernel⟩,
   ⟨{ nvmeW (tinyW [(R.NVME_CPMASK_MASK, 0xFFFFFFFF), (fldState 0x400000, 2), (fldState 0x410000, 2)]) with nvme := { (nvmeW (tinyW [])).nvme with slms := [(0, some (0, 4096))], sets := [⟨0, [(0, 0, 64), (0, 64, 64)]⟩] }, loaded := { (loadedW (tinyW [])).loaded with progs := [(1, some ⟨1, 0, 0, 0, 0xFFFFFFFF, 2, 320, true⟩)] }, profs := (loadedW (tinyW [])).profs, index := (loadedW (tinyW [])).index },
     ioQ, 1, false, ⟨1, 0, 0, 0, 0xFFFFFFFF, 2, 320, true⟩, (startOf
     ({ nvmeW (tinyW [(R.NVME_CPMASK_MASK, 0xFFFFFFFF), (fldState 0x400000, 2), (fldState 0x410000, 2)]) with nvme := { (nvmeW (tinyW [])).nvme with slms := [(0, some (0, 4096))], sets := [⟨0, [(0, 0, 64), (0, 64, 64)]⟩] }, loaded := { (loadedW (tinyW [])).loaded with progs := [(1, some ⟨1, 0, 0, 0, 0xFFFFFFFF, 2, 320, true⟩)] }, profs := (loadedW (tinyW [])).profs, index := (loadedW (tinyW [])).index })
     (ioQ) (.programActivate (1) (false))).1, (startOf
     ({ nvmeW (tinyW [(R.NVME_CPMASK_MASK, 0xFFFFFFFF), (fldState 0x400000, 2), (fldState 0x410000, 2)]) with nvme := { (nvmeW (tinyW [])).nvme with slms := [(0, some (0, 4096))], sets := [⟨0, [(0, 0, 64), (0, 64, 64)]⟩] }, loaded := { (loadedW (tinyW [])).loaded with progs := [(1, some ⟨1, 0, 0, 0, 0xFFFFFFFF, 2, 320, true⟩)] }, profs := (loadedW (tinyW [])).profs, index := (loadedW (tinyW [])).index })
     (ioQ) (.programActivate (1) (false))).2, by decide +kernel, by decide +kernel⟩,
   ⟨{ nvmeW (tinyW [(R.NVME_CPMASK_MASK, 0xFFFFFFFF), (fldState 0x400000, 2), (fldState 0x410000, 2)]) with nvme := { (nvmeW (tinyW [])).nvme with slms := [(0, some (0, 4096))], sets := [⟨0, [(0, 0, 64), (0, 64, 64)]⟩] }, loaded := { (loadedW (tinyW [])).loaded with progs := [(1, some ⟨1, 0, 0, 0, 0xFFFFFFFF, 2, 320, true⟩)] }, profs := (loadedW (tinyW [])).profs, index := (loadedW (tinyW [])).index },
     ioQ, 1, [⟨0, 0, 64⟩], (startOf
     ({ nvmeW (tinyW [(R.NVME_CPMASK_MASK, 0xFFFFFFFF), (fldState 0x400000, 2), (fldState 0x410000, 2)]) with nvme := { (nvmeW (tinyW [])).nvme with slms := [(0, some (0, 4096))], sets := [⟨0, [(0, 0, 64), (0, 64, 64)]⟩] }, loaded := { (loadedW (tinyW [])).loaded with progs := [(1, some ⟨1, 0, 0, 0, 0xFFFFFFFF, 2, 320, true⟩)] }, profs := (loadedW (tinyW [])).profs, index := (loadedW (tinyW [])).index })
     (ioQ) (.rangeSet (.create (1) ([⟨0, 0, 64⟩])))).1, (startOf
     ({ nvmeW (tinyW [(R.NVME_CPMASK_MASK, 0xFFFFFFFF), (fldState 0x400000, 2), (fldState 0x410000, 2)]) with nvme := { (nvmeW (tinyW [])).nvme with slms := [(0, some (0, 4096))], sets := [⟨0, [(0, 0, 64), (0, 64, 64)]⟩] }, loaded := { (loadedW (tinyW [])).loaded with progs := [(1, some ⟨1, 0, 0, 0, 0xFFFFFFFF, 2, 320, true⟩)] }, profs := (loadedW (tinyW [])).profs, index := (loadedW (tinyW [])).index })
     (ioQ) (.rangeSet (.create (1) ([⟨0, 0, 64⟩])))).2, by decide +kernel, by decide +kernel⟩,
   ⟨{ nvmeW (tinyW [(R.NVME_CPMASK_MASK, 0xFFFFFFFF), (fldState 0x400000, 2), (fldState 0x410000, 2)]) with nvme := { (nvmeW (tinyW [])).nvme with slms := [(0, some (0, 4096))], sets := [⟨0, [(0, 0, 64), (0, 64, 64)]⟩] }, loaded := { (loadedW (tinyW [])).loaded with progs := [(1, some ⟨1, 0, 0, 0, 0xFFFFFFFF, 2, 320, true⟩)] }, profs := (loadedW (tinyW [])).profs, index := (loadedW (tinyW [])).index },
     ioQ, 0, (startOf ({ nvmeW (tinyW [(R.NVME_CPMASK_MASK, 0xFFFFFFFF), (fldState 0x400000, 2), (fldState 0x410000, 2)]) with nvme := { (nvmeW (tinyW [])).nvme with slms := [(0, some (0, 4096))], sets := [⟨0, [(0, 0, 64), (0, 64, 64)]⟩] }, loaded := { (loadedW (tinyW [])).loaded with progs := [(1, some ⟨1, 0, 0, 0, 0xFFFFFFFF, 2, 320, true⟩)] }, profs := (loadedW (tinyW [])).profs, index := (loadedW (tinyW [])).index })
     (ioQ) (.rangeSet (.delete (0)))).1, (startOf
     ({ nvmeW (tinyW [(R.NVME_CPMASK_MASK, 0xFFFFFFFF), (fldState 0x400000, 2), (fldState 0x410000, 2)]) with nvme := { (nvmeW (tinyW [])).nvme with slms := [(0, some (0, 4096))], sets := [⟨0, [(0, 0, 64), (0, 64, 64)]⟩] }, loaded := { (loadedW (tinyW [])).loaded with progs := [(1, some ⟨1, 0, 0, 0, 0xFFFFFFFF, 2, 320, true⟩)] }, profs := (loadedW (tinyW [])).profs, index := (loadedW (tinyW [])).index })
     (ioQ) (.rangeSet (.delete (0)))).2, by decide +kernel, by decide +kernel⟩,
   ⟨{ nvmeW (tinyW [(R.NVME_CPMASK_MASK, 0xFFFFFFFF), (fldState 0x400000, 2), (fldState 0x410000, 2)]) with nvme := { (nvmeW (tinyW [])).nvme with slms := [(0, some (0, 4096))], sets := [⟨0, [(0, 0, 64), (0, 64, 64)]⟩] }, loaded := { (loadedW (tinyW [])).loaded with progs := [(1, some ⟨1, 0, 0, 0, 0xFFFFFFFF, 2, 320, true⟩)] }, profs := (loadedW (tinyW [])).profs, index := (loadedW (tinyW [])).index },
     ioQ, 1, 0, 0, (5 : BitVec 32), (6 : BitVec 32), (0 : BitVec 32), ⟨⟨1, 0, 0, 0, 0xFFFFFFFF, 2, 320, true⟩, 0, [(0, 64),
     (64, 64)]⟩, (startOf
     ({ nvmeW (tinyW [(R.NVME_CPMASK_MASK, 0xFFFFFFFF), (fldState 0x400000, 2), (fldState 0x410000, 2)]) with nvme := { (nvmeW (tinyW [])).nvme with slms := [(0, some (0, 4096))], sets := [⟨0, [(0, 0, 64), (0, 64, 64)]⟩] }, loaded := { (loadedW (tinyW [])).loaded with progs := [(1, some ⟨1, 0, 0, 0, 0xFFFFFFFF, 2, 320, true⟩)] }, profs := (loadedW (tinyW [])).profs, index := (loadedW (tinyW [])).index })
     (ioQ) (.execute (1) (0) ((5 : BitVec 32)).toNat ((6 : BitVec 32)).toNat ((0 : BitVec 32)).toNat)).1, (startOf
     ({ nvmeW (tinyW [(R.NVME_CPMASK_MASK, 0xFFFFFFFF), (fldState 0x400000, 2), (fldState 0x410000, 2)]) with nvme := { (nvmeW (tinyW [])).nvme with slms := [(0, some (0, 4096))], sets := [⟨0, [(0, 0, 64), (0, 64, 64)]⟩] }, loaded := { (loadedW (tinyW [])).loaded with progs := [(1, some ⟨1, 0, 0, 0, 0xFFFFFFFF, 2, 320, true⟩)] }, profs := (loadedW (tinyW [])).profs, index := (loadedW (tinyW [])).index })
     (ioQ) (.execute (1) (0) ((5 : BitVec 32)).toNat ((6 : BitVec 32)).toNat ((0 : BitVec 32)).toNat)).2, by decide +kernel,
     by decide +kernel, by decide +kernel⟩,
   ⟨(tinyW []).setTile 3
     { (tinyW []).tile 3 with job := some { ref := ⟨true, 0, 0, 5⟩, slot := 0, idxProf := 0, hasIdx := true, noVec := true } },
     3, { ref := ⟨true, 0, 0, 5⟩, slot := 0, idxProf := 0, hasIdx := true, noVec := true }, by decide +kernel,
     by decide +kernel⟩⟩

theorem wit_RegisterInstructionsKeepTheRest : ∃ (i : Instr) (c : CoreId) (rd : Reg) (w m : Nat) (s s1 : State), regOnly i =
  some (c, rd, w, m) ∧ issued s c.val w = some s1 ∧
         (s.core c.val).ev = [] :=
  ⟨.neg 3 1 2, 3, 1, 2, 15, running tiny, running tiny, rfl, by decide +kernel, by decide +kernel⟩

theorem wit_FetchKeepsEveryRegister : ∃ (s s1 : State) (c : Nat) (a : Word) (h : Nat), s.cores.length = 36 ∧
  fetchedAt s c a = some (h, s1) :=
  ⟨running tiny, running tiny, 3, 0x100, 0, by decide +kernel, by decide +kernel⟩

theorem wit_DivisionFollowsTheManual : ∃ (c : CoreId) (s s1 : State), issued s c.val 4 = some s1 :=
  ⟨3, running tiny, running tiny, by decide +kernel⟩

theorem wit_DivideByZeroIsSticky :
    (∃ (sgn : Bool) (a b st : Word), stBit st stDZ = true) ∧
    (∃ (s s1 : State) (c : CoreId) (t : Trap) (ret : Word), framedAt s c.val t ret = some s1 ∧
      (s1.core c.val).st = handlerSt (s.core c.val)) ∧
    (∃ (s s1 x : State) (c : CoreId) (pc st : Word), issued s c.val 2 = some s1 ∧ (s1.core c.val).exdepth ≠ 0 ∧
           (gpr (s1.core c.val) spReg).toNat % 4 = 0 ∧ poppedAt s1 c.val (gpr (s1.core c.val) spReg) 2 = some ([pc, st], x) ∧
           pc.getLsbD 0 = false ∧ offGate c.val pc = true) ∧
    (∃ (s s1 : State) (c : CoreId), issued s c.val 4 = some s1) :=
  ⟨⟨true, 1, 1, 0x10, by decide⟩,
   ⟨stacked tiny, (framedAt (stacked tiny) 3 ⟨8, 0, 0, 5, true, false, 0⟩ 0x102).getD tiny, 3, ⟨8, 0, 0, 5, true, false, 0⟩,
     0x102,
        by decide +kernel, by decide +kernel⟩,
   ⟨(stacked tiny).setCore 3 { (stacked tiny).core 3 with exdepth := 1 }, (stacked tiny).setCore 3
     { (stacked tiny).core 3 with exdepth := 1 },
        (stacked tiny).setCore 3 { (stacked tiny).core 3 with exdepth := 1 }, 3, 0, 0, by decide +kernel, by decide +kernel,
          by decide +kernel,
        by decide +kernel, by decide +kernel, by decide +kernel⟩,
   ⟨running tiny, running tiny, 3, by decide +kernel⟩⟩

theorem wit_UnassignedOffsetsReadZero :
    (∃ (s : State) (rq : Requester) (off : Nat) (b : BlockId), off % 4 = 0 ∧ windowBlock off = some b ∧ mayReach s rq b = true ∧
           findCard off = none ∧ ((∃ t, b = .tile t) → off % 0x10000 < 0x200 ∨ 0x280 ≤ off % 0x10000)) ∧
    (∃ (off : Nat), windowBlock off = none) :=
  ⟨⟨tiny, .core 32, 0x40FFFC, .tile 0, by decide, by decide +kernel, by decide +kernel, by decide +kernel, fun _ => by decide⟩,
   ⟨0x7C0000, by decide +kernel⟩⟩

theorem wit_ResidualMappingInverts : ∃ (k q p : Nat), q < 2 ^ k ∧ p < 2 ^ k :=
  ⟨32, 0, 2 ^ 32 - 1, by decide, by decide⟩

theorem wit_FixedRatioErrorIsOneSided : ∃ (w s : Nat) (xs : List Nat), (w = 8 ∨ w = 16 ∨ w = 32) ∧ s ≤ w ∧
  (∀ x ∈ xs, x < 2 ^ w) :=
  ⟨32, 32, [2 ^ 32 - 1], by decide, by decide, by decide⟩

theorem wit_LanesWrapOrClamp :
    (∃ w : Nat, (w = 1 ∨ w = 2 ∨ w = 4)) ∧
    (∃ (w : Nat) (r : Int), (w = 1 ∨ w = 2 ∨ w = 4) ∧ r < -(2 ^ (8 * w - 1))) ∧
    (∃ (w : Nat) (r : Int), (w = 1 ∨ w = 2 ∨ w = 4) ∧ 2 ^ (8 * w) - 1 < r) :=
  ⟨⟨4, by decide⟩,
   ⟨1, -129, by decide, by decide⟩,
   ⟨2, 65536, by decide, by decide⟩⟩

theorem wit_RangeLocksHoldCommandsBack : ∃ (s : State) (i : Instr) (q : CmdRef) (op : NvmeOp), lockTested i = some (q, op) ∧
  lockHeld (enterCmd s q op) op = true ∧
           (∀ d ∈ s.nvme.cmds, d.id ≠ nextId s q) ∧ q ≠ .mi :=
  ⟨{ nvmeW tiny with nvme := { (nvmeW tiny).nvme with nextCmd := 1, cmds := [{ newCmd 0 (.host 0 1 9) (.write 1 0 8 0 0 false .prp) with st := .started, lock := some (1, [(0, 8)]) }] } },
        .read ioQ 1 7 1 [], ioQ, .read 1 7 1 [], rfl, by decide +kernel, by decide +kernel, by decide⟩

theorem wit_StoreReachesItsBytesAlone : ∃ (s s1 : State) (g : Nat) (io : Bool), storedAt s 32 .write 0x40000004 4 7 = some s1 ∧
  locatedAt s 32 .write 0x40000004 4 = some (g, io) ∧
         dcServes s 32 io = false ∧ (s.core 32).ev = [] ∧ Memory.wf s.mem = true ∧ targetOf s g = .dram ∧
           hwAllows s g 4 tagLocal = true ∧
         (∀ e ∈ s.merge, e.word * 8 + 8 ≤ g ∨ g + 4 ≤ e.word * 8) :=
  ⟨((running (tinyW [(R.DRAM_USABLE_MIB, 4096), (R.DRAM_STATUS_STATE, 2), (R.SYS_HWIN_VALID 0, 1), (R.SYS_HWIN_BASE 0,
    0)])).setCore 32 { Core.houseReset with run := .run, st := 0 }),
       (storedAt ((running (tinyW [(R.DRAM_USABLE_MIB, 4096), (R.DRAM_STATUS_STATE, 2), (R.SYS_HWIN_VALID 0, 1),
         (R.SYS_HWIN_BASE 0, 0)])).setCore 32 { Core.houseReset with run := .run, st := 0 }) 32 .write 0x40000004 4 7).getD
         tiny,
       4, false, by decide +kernel, by decide +kernel, by decide +kernel, by decide +kernel, by decide +kernel,
         by decide +kernel, by decide +kernel, by decide +kernel⟩

end Sys2Proof.Machine
end

section
/-! Proofs of the scope family: the shape of memory, registers and cores over a step (R9), enabling, quiescing and locking
blocks (R14, R17 to R20), and the unassigned offsets of a window (R11). -/

namespace Sys2Proof.Machine

/-! ### What a step keeps -/

/-- The state a command answers keeps everything that `Keeps` names. -/
theorem keeps_of_exec_next {c : Instr} {s t : State} (h : exec c s = .next t) : Keeps s t := by
  have hk := exec_keeps c s
  rw [h] at hk
  exact hk

/-- A step idles, or it keeps what `Keeps` names of the state without the front command. -/
theorem step_next_cases {s t : State} (h : step s = .next t) :
    t = s ∨ ∃ c rest, s.pending = c :: rest ∧ Keeps (s.popped rest) t := by
  unfold step at h
  split at h
  · injection h with hst
    exact .inl hst.symm
  · next c rest hp => exact .inr ⟨c, rest, hp, keeps_of_exec_next h⟩

/-- Settles O4: a step idles or runs one command on the popped state, whose memory, registers and cores are those of the
state before, and every command keeps their shape. -/
theorem machineShapeIsKept : Obligations.MachineShapeIsKept := by
  rintro s t ⟨hmem, hregs, hcores⟩ hstep
  obtain rfl | ⟨c, rest, -, hk⟩ := step_next_cases hstep
  · exact ⟨hmem, hregs, hcores⟩
  · exact ⟨hk.mem hmem, hk.regs hregs, hk.cores hcores⟩

/-! ### Enabling, quiescing and locking (R14, R17 to R20)

The blocks that a clause of O12 lists are those with an enable whose chapter does nothing more at that moment. -/

/-- EN written with a value asks a block other than the watchdog, whose EN its LOCK holds, to come on or to go off. -/
theorem writeEn_of_ne_wdt {b : BlockId} (s : State) (v : Nat) (hb : b ≠ .wdt) :
    writeEn s b v = if v = 1 then blockEnable s b else blockDisable s b := by
  simp [writeEn, hb]

/-- EN written 1 takes a block that is OFF to ENABLING (R17). -/
theorem blockEnable_of_off {s : State} {b : BlockId} (he : blockHasEnable b = true) (hoff : blockState s b = stOff) :
    blockEnable s b = s.setFlds [(fldEn (blockBase b), 1), (fldState (blockBase b), stEnabling)] := by
  simp [blockEnable, requestOn, State.setFlds, he, hoff]

/-- EN written 0 takes a block that is ON to QUIESCING, with what its chapter does on entering it (R17). -/
theorem blockDisable_of_on {s : State} {b : BlockId} (he : blockHasEnable b = true) (hon : blockState s b = stOn) :
    blockDisable s b =
      enterQuiesce (s.setFlds [(fldEn (blockBase b), 0), (fldState (blockBase b), stQuiescing)]) b := by
  simp [blockDisable, requestOff, State.setFlds, he, hon]

/-- With EN still 1 at the end of enabling the block's STATE is ON (R20). -/
theorem enablingEnds_of_en {s : State} {b : BlockId} (hen : s.flag (fldEn (blockBase b)) = true) :
    enablingEnds s b = s.setFld (fldState (blockBase b)) stOn := by
  simp [enablingEnds, hen]

/-- With EN still 0 at the end of the drain the block's STATE is OFF (R20). -/
theorem quiesceEnds_of_not_en {s : State} {b : BlockId} (hen : s.flag (fldEn (blockBase b)) = false) :
    quiesceEnds s b = s.setFld (fldState (blockBase b)) stOff := by
  simp [quiesceEnds, hen]

/-- Enabling that ends with EN 1 turns a block ON, with what its chapter does on entering ON. -/
theorem blockEnablingDone_of_en {s : State} {b : BlockId} (he : blockHasEnable b = true) (hd : b ≠ .dram)
    (hst : blockState s b = stEnabling) (hen : s.flag (fldEn (blockBase b)) = true) (hwf : Registers.wf s.regs = true) :
    blockEnablingDone s b = enterOn (s.setFld (fldState (blockBase b)) stOn) b := by
  have hself : enabled s b = s := by
    unfold enabled
    split
    · exact absurd rfl hd
    · rfl
  have hon : blockState (s.setFld (fldState (blockBase b)) stOn) b = stOn := by
    rw [← enablingEnds_of_en hen, blockState_enablingEnds s b hwf, if_pos hen]
  simp [blockEnablingDone, he, hst, hd, hself, enablingEnds_of_en hen, hon]

/-- A drain that ends with EN 0, in a block whose chapter does nothing then, turns the block OFF. -/
theorem blockQuiesceDone_of_not_en {s : State} {b : BlockId} (he : blockHasEnable b = true) (hde : drainEnds s b = s)
    (hst : blockState s b = stQuiescing) (hdr : drained s b = true) (hen : s.flag (fldEn (blockBase b)) = false)
    (hd3 : s.nvme.d3off = []) : blockQuiesceDone s b = s.setFld (fldState (blockBase b)) stOff := by
  simp [blockQuiesceDone, he, hst, hdr, hde, quiesceEnds_of_not_en hen, hd3]

/-- BLOCK_ENABLE of a block that is OFF (R17). -/
theorem exec_blockEnable_of_off {s : State} {b : BlockId} (he : blockHasEnable b = true) (hb : b ≠ .wdt)
    (hoff : blockState s b = stOff) :
    exec (.blockEnable b) s = .next (s.setFlds [(fldEn (blockBase b), 1), (fldState (blockBase b), stEnabling)]) := by
  change Host.Outcome.next (writeEn s b 1) = _
  rw [writeEn_of_ne_wdt s 1 hb, if_pos rfl, blockEnable_of_off he hoff]

/-- BLOCK_DISABLE of a block that is ON (R17). -/
theorem exec_blockDisable_of_on {s : State} {b : BlockId} (he : blockHasEnable b = true) (hb : b ≠ .wdt)
    (hon : blockState s b = stOn) :
    exec (.blockDisable b) s =
      .next (enterQuiesce (s.setFlds [(fldEn (blockBase b), 0), (fldState (blockBase b), stQuiescing)]) b) := by
  change Host.Outcome.next (writeEn s b 0) = _
  rw [writeEn_of_ne_wdt s 0 hb, if_neg Nat.zero_ne_one, blockDisable_of_on he hon]

/-- Settles O12: each clause is the operation's own lemma; a block of a clause's list has an enable and no effect of its
own at that moment. -/
theorem blockCommandsComplete : Obligations.BlockCommandsComplete := by
  refine ⟨fun s b he hb hoff => exec_blockEnable_of_off he hb hoff, ?_, ?_, ?_, fun s b => rfl⟩
  · -- BLOCK_DISABLE
    intro s b hb hon
    have hlist : blockHasEnable b = true ∧ b ≠ .wdt ∧ ∀ t, enterQuiesce t b = t := by
      fin_cases hb <;> exact ⟨rfl, nofun, fun _ => rfl⟩
    obtain ⟨he, hwdt, hquiet⟩ := hlist
    rw [exec_blockDisable_of_on he hwdt hon, hquiet]
  · -- BLOCK_ENABLING_DONE
    intro s b hb hst hen hwf
    have hlist : blockHasEnable b = true ∧ b ≠ .dram ∧ ∀ t, enterOn t b = t := by
      fin_cases hb <;> exact ⟨rfl, nofun, fun _ => rfl⟩
    obtain ⟨he, hdram, hquiet⟩ := hlist
    exact congrArg Host.Outcome.next ((blockEnablingDone_of_en he hdram hst hen hwf).trans (hquiet _))
  · -- BLOCK_QUIESCE_DONE
    intro s b hb hst hdr hen hd3
    have hlist : blockHasEnable b = true ∧ drainEnds s b = s := by
      fin_cases hb <;> exact ⟨rfl, rfl⟩
    obtain ⟨he, hquiet⟩ := hlist
    exact congrArg Host.Outcome.next (blockQuiesceDone_of_not_en he hquiet hst hdr hen hd3)

/-! ### Unassigned offsets (R11)

The access codes ignore a write to an unassigned offset, but any write into the dispatcher's window also judges the blocked
parcels again (`clearBlocked`), whatever offset it names. -/

/-- By the access codes a write to an unassigned offset is ignored. -/
theorem writeCodes_unassigned {s : State} {b : BlockId} {o : Nat} (v : Nat) (h : findCard (blockBase b + o) = none) :
    writeCodes s b o v = s := by
  unfold writeCodes
  rw [h]

/-- A write to an unassigned offset of the dispatcher's window answers the state with its blocked parcels judged again. -/
theorem regWrite_disp_unassigned {s : State} {rq : Requester} {o : Nat} (v : Nat) (halign : o % 4 = 0) (hpos : o ≠ 0)
    (hwin : o < blockWindow) (hreach : mayReach s rq .disp = true) (hnone : findCard (blockBase .disp + o) = none) :
    regWrite s rq (blockBase .disp + o) v = some (clearBlocked s) := by
  have hw : blockWindow = 0x10000 := rfl
  have hbase : blockBase .disp = 0x20000 := rfl
  have hal : (blockBase .disp + o) % 4 = 0 := by omega
  have hdiv : (blockBase .disp + o) / blockWindow = 2 := by rw [hbase, hw]; omega
  have hmod : (blockBase .disp + o) % blockWindow = o := by rw [hbase, hw]; omega
  have hblock : windowBlock (blockBase .disp + o) = some .disp := by simp [windowBlock, hdiv]
  simp [regWrite, hal, hblock, hreach, hmod, blockWrite, hpos, blockBody, writeCodes_unassigned _ hnone]

/-- A dispatcher that still lists a parcel of Damdom as blocked, though there is room for it by now: it waited for output
staging, and RET_OSTG_SIZE has been written since. -/
def staleBlocked : State :=
  { tinyW [(R.DISP_INFLIGHT_LIMIT, 10), (R.RET_OSTG_SIZE_SIZE, 64)] with
    flows := { FlowSt.reset with blocked := [⟨0, 0, true, .device, 4096⟩] } }

/-- Judged again, the parcel is blocked no more. -/
theorem clearBlocked_staleBlocked : (clearBlocked staleBlocked).flows.blocked = [] := by decide +kernel

theorem clearBlocked_staleBlocked_ne : clearBlocked staleBlocked ≠ staleBlocked := by
  intro h
  have hcons : staleBlocked.flows.blocked = [] := by rw [← clearBlocked_staleBlocked, h]
  exact List.cons_ne_nil _ _ hcons

/-- Refutes O55: offset 0x38 of the dispatcher's window is unassigned, and a house core's write to it drops a blocked parcel
that can be cut now. -/
theorem not_unassignedOffsetsReadZero : ¬ Obligations.UnassignedOffsetsReadZero := by
  intro h
  have hnone : findCard (blockBase .disp + 0x38) = none := by decide +kernel
  have hreach : mayReach staleBlocked (.core 32) .disp = true := rfl
  obtain ⟨-, hignored⟩ := h.1 staleBlocked (.core 32) (blockBase .disp + 0x38) 0 .disp (by decide) (by decide +kernel)
    hreach hnone (fun ⟨_, ht⟩ => nomatch ht)
  rw [regWrite_disp_unassigned 0 (by decide) (by decide) (by decide) hreach hnone] at hignored
  exact clearBlocked_staleBlocked_ne (Option.some.inj hignored)

end Sys2Proof.Machine
end

section
/-! Proofs of the architecture family: resets, rails, the watchdog and the clocks (R38, R452, R465, R474 to R478,
R502 to R504), and the JTAG instructions with the lock reports (R35, R490). -/

namespace Sys2Proof.Machine

/-! ### Fields raised, and fields carried over a reset -/

/-- A field carried over reads as it read before the reset, at its width. -/
theorem fld_keepFields_of_mem {old s : State} {fs : List Fld} {f : Fld} (hf : f ∈ fs)
    (huniq : ∀ g ∈ fs, g.key = f.key → g = f) (hwf : Registers.wf s.regs = true) :
    (keepFields old s fs).fld f = old.fld f % 2 ^ f.width := by
  induction fs generalizing s with
  | nil => exact absurd hf List.not_mem_nil
  | cons g gs ih =>
    have hstep : keepFields old s (g :: gs) = keepFields old (s.setFld g (old.fld g)) gs := rfl
    rw [hstep]
    by_cases hgs : f ∈ gs
    · exact ih hgs (fun x hx => huniq x (List.mem_cons_of_mem _ hx)) (setFld_regs_wf s g _ hwf)
    · have hout : ∀ e ∈ gs.map (fun x => (x, old.fld x)), f.key ≠ e.1.key := by
        intro e he hkey
        obtain ⟨x, hx, rfl⟩ := List.mem_map.mp he
        exact hgs (huniq x (List.mem_cons_of_mem _ hx) hkey.symm ▸ hx)
      obtain rfl : f = g := (List.mem_cons.mp hf).resolve_right hgs
      rw [keepFields, fld_setFlds_out _ _ _ hout, fld_setFld_same s f _ hwf]

/-- A field that is not carried over stays as the reset left it. -/
theorem fld_keepFields_of_not_mem {old s : State} {fs : List Fld} {f : Fld} (hf : ∀ g ∈ fs, f.key ≠ g.key) :
    (keepFields old s fs).fld f = s.fld f := by
  refine fld_setFlds_out _ _ _ fun e he => ?_
  obtain ⟨x, hx, rfl⟩ := List.mem_map.mp he
  exact hf x hx

/-- A field reads 1 once raised, in whatever form the registers were. -/
theorem fld_raise_one (s : State) (f : Fld) (hw : 0 < f.width) : (s.raise f).fld f = 1 := by
  have hval : 1 % 2 ^ f.width = 1 := Nat.mod_eq_of_lt (Nat.one_lt_two_pow (by omega))
  rw [State.fld, State.raise, State.setFld_regs, hval, tblSet, if_neg Nat.one_ne_zero, tblGet_tblPut_same]

/-- The fields of a state are those of any state with its registers. -/
theorem fld_of_regs_eq {s t : State} (f : Fld) (h : t.regs = s.regs) : t.fld f = s.fld f :=
  congrArg (fun r => tblGet 0 r f.key) h

theorem fld_with_boot (s : State) (b : BootSt) (f : Fld) : ({ s with boot := b } : State).fld f = s.fld f := rfl

/-! ### What every reset leaves (Table 17.1, R477) -/

theorem csProgram_eq_code (s : State) (a : Nat) (bs : List Byte) : ∃ c, csProgram s a bs = { s with code := c } := by
  induction bs generalizing s a with
  | nil => exact ⟨s.code, rfl⟩
  | cons x xs ih =>
    obtain ⟨c, hc⟩ := ih { s with code := { s.code with arr := tblSet 0xFF s.code.arr a (csByte s a &&& x) } } (a + 1)
    exact ⟨c, hc⟩

/-- Cutting off the code store's operation changes the code store alone, and takes free values. -/
theorem csCutOff_eq_code (s : State) : ∃ n c, csCutOff s = { s with free := n, code := c } := by
  unfold csCutOff
  split
  · exact ⟨s.free, s.code, rfl⟩
  · next o _ =>
    dsimp only
    split
    · split <;> exact ⟨_, _, rfl⟩
    · obtain ⟨c, hc⟩ := csProgram_eq_code { s with free := s.free + csBlockSize, code := { s.code with op := none } }
        o.page (List.zipWith (fun a b => a ||| b) o.data (freeBytes s.free 256))
      exact ⟨_, c, hc⟩

theorem csCutOff_fuses (s : State) : (csCutOff s).fuses = s.fuses := by
  obtain ⟨n, c, h⟩ := csCutOff_eq_code s
  rw [h]

theorem csCutOff_boot (s : State) : (csCutOff s).boot = s.boot := by
  obtain ⟨n, c, h⟩ := csCutOff_eq_code s
  rw [h]

theorem csCutOff_pending (s : State) : (csCutOff s).pending = s.pending := by
  obtain ⟨n, c, h⟩ := csCutOff_eq_code s
  rw [h]

@[simp] theorem durable_fuses (s : State) : (durable s).fuses = s.fuses := csCutOff_fuses s
@[simp] theorem durable_pending (s : State) : (durable s).pending = s.pending := csCutOff_pending s

@[simp] theorem durable_boot_cycles (s : State) : (durable s).boot.cycles = s.boot.cycles :=
  (congrArg BootSt.cycles (csCutOff_boot s) :)

/-- The registers after a reset are in canonical form, whatever they were before. -/
theorem durable_regs_wf (s : State) : Registers.wf (durable s).regs = true := setFlds_regs_wf _ _ reset_regs_wf

/-- A field that the fuse map does not show takes its reset value. -/
theorem durable_fld {s : State} {f : Fld}
    (hf : ∀ g ∈ [R.KEYS_STATUS_LC, R.FAB_UIDLO_UID, R.FAB_UIDHI_UID], f.key ≠ g.key) :
    (durable s).fld f = State.reset.fld f := by
  refine fld_setFlds_out _ _ _ fun e he => ?_
  simp only [List.mem_cons, List.not_mem_nil, or_false] at he
  rcases he with rfl | rfl | rfl
  · exact hf _ (by simp)
  · exact hf _ (by simp)
  · exact hf _ (by simp)

/-! ### The always-on power-on reset and the cold reset (R474, R475) -/

@[simp] theorem powerOnReset_mem (s : State) : (powerOnReset s).mem = [] := rfl
@[simp] theorem powerOnReset_cores (s : State) : (powerOnReset s).cores = State.reset.cores := rfl
@[simp] theorem powerOnReset_tiles (s : State) : (powerOnReset s).tiles = [] := rfl
@[simp] theorem powerOnReset_flows (s : State) : (powerOnReset s).flows = FlowSt.reset := rfl
@[simp] theorem powerOnReset_tap (s : State) : (powerOnReset s).tap = TapSt.reset := rfl
@[simp] theorem powerOnReset_code_arr (s : State) : (powerOnReset s).code.arr = (csCutOff s).code.arr := rfl
@[simp] theorem powerOnReset_boot_held (s : State) : (powerOnReset s).boot.held = .rails := rfl
@[simp] theorem powerOnReset_boot_rtc (s : State) : (powerOnReset s).boot.rtc = 0 := rfl
@[simp] theorem powerOnReset_fuses (s : State) : (powerOnReset s).fuses = s.fuses := durable_fuses s
@[simp] theorem powerOnReset_pending (s : State) : (powerOnReset s).pending = s.pending := durable_pending s

@[simp] theorem coldReset_mem (s : State) : (coldReset s).mem = [] := rfl
@[simp] theorem coldReset_boot_held (s : State) : (coldReset s).boot.held = .rails := rfl
@[simp] theorem coldReset_boot_rtc (s : State) : (coldReset s).boot.rtc = s.boot.rtc := rfl
@[simp] theorem coldReset_boot_cycles (s : State) : (coldReset s).boot.cycles = s.boot.cycles := durable_boot_cycles s
@[simp] theorem coldReset_fuses (s : State) : (coldReset s).fuses = s.fuses := durable_fuses s

theorem fld_powerOnReset_aonpor (s : State) : (powerOnReset s).fld R.SYS_RSTCAUSE_AONPOR = 1 :=
  (durable_fld (by decide)).trans (by decide)

theorem fld_powerOnReset_phase (s : State) : (powerOnReset s).fld R.SYS_PHASE_PHASE = 1 :=
  (durable_fld (by decide)).trans (by decide)

theorem keepFields_durable_regs_wf (s : State) (fs : List Fld) : Registers.wf (keepFields s (durable s) fs).regs = true :=
  setFlds_regs_wf _ _ (durable_regs_wf s)

/-- The registers after a cold reset. -/
theorem coldReset_fld (s : State) (f : Fld) :
    (coldReset s).fld f = ((keepFields s (durable s) aonFields).raise R.SYS_RSTCAUSE_COLD).fld f := by
  unfold coldReset
  generalize keepFields s (durable s) aonFields = kept
  rfl

theorem fld_coldReset_cold (s : State) : (coldReset s).fld R.SYS_RSTCAUSE_COLD = 1 := by
  rw [coldReset_fld, fld_raise_one _ _ Nat.one_pos]

/-- The fields of the always-on domain stand (R475). -/
theorem fld_coldReset_of_aon {s : State} {f : Fld} (hf : f ∈ aonFields)
    (huniq : ∀ g ∈ aonFields, g.key = f.key → g = f) (hcold : f.key ≠ R.SYS_RSTCAUSE_COLD.key) :
    (coldReset s).fld f = s.fld f % 2 ^ f.width := by
  rw [coldReset_fld, fld_raise_ne _ hcold, fld_keepFields_of_mem hf huniq (durable_regs_wf s)]

theorem fld_coldReset_phase (s : State) : (coldReset s).fld R.SYS_PHASE_PHASE = 1 := by
  rw [coldReset_fld, fld_raise_ne _ (by decide), fld_keepFields_of_not_mem (by decide), durable_fld (by decide)]
  decide

/-- SYS_RST# falls outside a flush: the cold reset (R475, R504). -/
theorem sysRstLow_of_not_flushing {s : State} (h : flushing s = false) : sysRstLow s = coldReset s := by
  simp [sysRstLow, h]

/-- SYS_RST# rises with the device held by the rails: start-up stands at CLOCKS (R502). -/
theorem sysRstHigh_of_rails {s : State} (bifur : Bool) (h : flushing s = false) (hheld : s.boot.held = .rails) :
    sysRstHigh s bifur =
      { (s.setFlds [(R.SYS_PHASE_PHASE, 1), (R.PCIE_STATUS_BIFUR, b2n bifur), (R.SYS_CLKSTAT_AON_OSC, 1)]) with
        boot := { s.boot with held := .none }, hold := { s.hold with pfail := false } } := by
  simp [sysRstHigh, h, hheld]

theorem cutFlush_of_not_flushing {s : State} (recorded us : Nat) (h : flushing s = false) : cutFlush s recorded us = s := by
  simp [cutFlush, h]

/-- A rail's fall counts the power cycle in `boot` alone. -/
theorem countCycle_eq_boot (old s : State) : ∃ n, countCycle old s = { s with boot := { s.boot with cycles := n } } := by
  unfold countCycle
  split
  · exact ⟨s.boot.cycles, rfl⟩
  · exact ⟨s.boot.cycles + 1, rfl⟩

/-- The first rail to fall counts a power cycle. -/
theorem countCycle_of_not_held {old : State} (s : State) (h : old.boot.held = .none) :
    countCycle old s = { s with boot := { s.boot with cycles := s.boot.cycles + 1 } } := by
  simp [countCycle, h]

/-- Outside a flush the fall of a main rail is a cold reset, counted (R503). -/
theorem exec_mainRailLow_of_not_flushing {s : State} (recorded us : Nat) (h : flushing s = false) :
    exec (.mainRailLow recorded us) s = .next (countCycle s (coldReset s)) := by
  change Host.Outcome.next (countCycle s (coldReset (cutFlush s recorded us))) = _
  rw [cutFlush_of_not_flushing recorded us h]

/-- Outside a flush the fall of the always-on rail is the power-on reset, counted (R503). -/
theorem exec_aonRailLow_of_not_flushing {s : State} (recorded us : Nat) (h : flushing s = false) :
    exec (.aonRailLow recorded us) s = .next (countCycle s (powerOnReset s)) := by
  change Host.Outcome.next (countCycle s (powerOnReset (cutFlush s recorded us))) = _
  rw [cutFlush_of_not_flushing recorded us h]

/-! ### The warm reset (R476, R478) -/

/-- The registers after a warm or post-flush reset. -/
theorem coreReset_fld (s : State) (retain : Bool) (f : Fld) :
    (coreReset s retain).fld f =
      (((keepFields s (durable s) (R.PCIE_STATUS_BIFUR :: (aonFields ++ clockFields))).setFld R.SYS_PHASE_PHASE 2).setFld
        R.SYS_RSTCAUSE_RETAINED (b2n retain)).fld f := rfl

@[simp] theorem coreReset_mem (s : State) (retain : Bool) :
    (coreReset s retain).mem = if retain then dramKept s else [] := rfl
@[simp] theorem coreReset_tiles (s : State) (retain : Bool) : (coreReset s retain).tiles = [] := rfl
@[simp] theorem coreReset_flows (s : State) (retain : Bool) : (coreReset s retain).flows = FlowSt.reset := rfl
@[simp] theorem coreReset_loaded_progs (s : State) (retain : Bool) : (coreReset s retain).loaded.progs = [] := rfl
@[simp] theorem coreReset_profs (s : State) (retain : Bool) : (coreReset s retain).profs = [] := rfl
@[simp] theorem coreReset_tap (s : State) (retain : Bool) : (coreReset s retain).tap = s.tap := rfl
@[simp] theorem coreReset_boot_held (s : State) (retain : Bool) : (coreReset s retain).boot.held = .none := rfl
@[simp] theorem coreReset_fuses (s : State) (retain : Bool) : (coreReset s retain).fuses = s.fuses := durable_fuses s
@[simp] theorem coreReset_pending (s : State) (retain : Bool) : (coreReset s retain).pending = s.pending := durable_pending s

/-- Start-up begins again at FUSES. -/
theorem fld_coreReset_phase (s : State) (retain : Bool) : (coreReset s retain).fld R.SYS_PHASE_PHASE = 2 := by
  rw [coreReset_fld, fld_setFld_ne _ _ (by decide), fld_setFld_same _ _ _ (keepFields_durable_regs_wf s _)]
  decide

theorem fld_coreReset_retained (s : State) : (coreReset s true).fld R.SYS_RSTCAUSE_RETAINED = 1 := by
  rw [coreReset_fld, fld_setFld_same _ _ _ (setFld_regs_wf _ _ _ (keepFields_durable_regs_wf s _))]
  decide

theorem fld_coreReset_expired (s : State) (retain : Bool) :
    (coreReset s retain).fld R.WDT_STATUS_EXPIRED = s.fld R.WDT_STATUS_EXPIRED % 2 := by
  rw [coreReset_fld, fld_setFld_ne _ _ (by decide), fld_setFld_ne _ _ (by decide),
    fld_keepFields_of_mem (by decide) (by decide) (durable_regs_wf s)]
  rfl

/-- Outside a flush, a device that runs takes the warm reset. -/
theorem warmReset_of_running {s : State} (cause : Fld) (retain : Bool) (hflush : flushing s = false)
    (hheld : s.boot.held = .none) (hmode : s.boot.mode = .normal) :
    warmReset s cause retain = (coreReset s (retain && s.dram.trained)).raise cause := by
  simp [warmReset, hflush, hheld, hmode]

/-- A house core's request is a warm reset that keeps DRAM (R478). -/
theorem warmBy_house {s : State} {c : CoreId} (hc : 32 ≤ c.val) :
    warmBy s (.core c) = warmReset s R.SYS_RSTCAUSE_SWWARM true := by
  simp [warmBy, hc]

/-- The watchdog's end after WDT_BOOTOK: the warm reset with EXPIRED set (R452). -/
theorem wdtExpiry_of_bootOk {s : State} (hruns : wdtRuns s = true) (hok : s.boot.bootOk = true) :
    wdtExpiry s = warmReset (s.raise R.WDT_STATUS_EXPIRED) R.SYS_RSTCAUSE_WDT true := by
  simp [wdtExpiry, hruns, hok]

theorem exec_watchdogExpiry_of_bootOk {s : State} (hruns : wdtRuns s = true) (hflush : flushing s = false)
    (hheld : s.boot.held = .none) (hmode : s.boot.mode = .normal) (hok : s.boot.bootOk = true) :
    exec .watchdogExpiry s =
      .next ((coreReset (s.raise R.WDT_STATUS_EXPIRED) s.dram.trained).raise R.SYS_RSTCAUSE_WDT) := by
  have hflush' : flushing (s.raise R.WDT_STATUS_EXPIRED) = false := by
    rw [flushing, State.flag, fld_raise_ne _ (by decide)]
    exact hflush
  change Host.Outcome.next (wdtExpiry s) = _
  rw [wdtExpiry_of_bootOk hruns hok, warmReset_of_running _ _ hflush' hheld hmode]
  rfl

/-! ### The end of the flush (R465, R476) -/

theorem flushStops_boot (s : State) (ended : Bool) (recorded us : Nat) :
    (flushStops s ended recorded us).boot = s.boot := by
  unfold flushStops
  dsimp only
  split
  · split <;> rfl
  · rfl

/-- The post-flush reset with SYS_RST# high and the root PLL locked. -/
theorem postFlushReset_of_locked {s : State} (trip : Bool) (hrst : s.boot.rstLow = false) (hpll : s.boot.pllLost = false) :
    postFlushReset s trip =
      { ((coreReset s false).raise R.SYS_RSTCAUSE_FLUSH) with
        boot := { (coreReset s false).boot with held := .post trip, pllLost := false, lostX := 0, lostW := false } } := by
  simp [postFlushReset, hrst, hpll]

/-- The registers after that reset. -/
theorem postFlushReset_fld {s : State} (trip : Bool) (f : Fld) (hrst : s.boot.rstLow = false)
    (hpll : s.boot.pllLost = false) :
    (postFlushReset s trip).fld f = ((coreReset s false).raise R.SYS_RSTCAUSE_FLUSH).fld f := by
  rw [postFlushReset_of_locked trip hrst hpll, fld_with_boot]

/-- The flush that has nothing left to program ends in the post-flush reset, of a state that starts as this one did. -/
theorem flushEnd_of_idle {s : State} (us : Nat) (hflush : flushing s = true) (hidle : flushIdle s = true) :
    ∃ u, flushEnd s us = postFlushReset u s.hold.trip ∧ u.boot = s.boot := by
  rw [flushEnd, if_pos ⟨hflush, hidle⟩]
  refine ⟨_, rfl, ?_⟩
  rw [flushStops_boot]
  split <;> rfl

/-- The end of the hold after a flush that no thermal trip began (R476). -/
theorem holdRelease_of_post {s : State} (die : Int) (h : s.boot.held = .post false) :
    holdRelease s die =
      { s with boot := { s.boot with held := .none, pllLost := false }, hold := { s.hold with pfail := false } } := by
  simp [holdRelease, h]

/-! ### The root PLL and the watchdog's warning (R38, R452) -/

/-- Lock lost in service: the core clocks stop, and the loss is noted (R38). -/
theorem pllLoss_in_service {s : State} (hheld : s.boot.held = .none) (hmode : s.boot.mode ≠ .halt)
    (hlock : s.flag R.SYS_CLKSTAT_ROOT_LOCK = true) (hphase : s.fld R.SYS_PHASE_PHASE = 12) :
    pllLoss s = { ((clocksOff s).raise R.SYS_CLKSTAT_ROOT_LOSS) with boot := { s.boot with pllLost := true } } := by
  rw [pllLoss, if_neg (by simp [hheld, hmode, hlock]), if_pos (.inl hphase)]
  rfl

theorem pllRelock_of_lost {s : State} (hlost : s.boot.pllLost = true) (hlock : s.flag R.SYS_CLKSTAT_ROOT_LOCK = false)
    (hheld : s.boot.held = .none) : pllRelock s = flushStart (clocksOn s) 2 false := by
  simp [pllRelock, hlost, hlock, hheld]

theorem wdtWarn_of_due {s : State} (hruns : wdtRuns s = true)
    (hdue : 25000 * s.fld R.WDT_WARN_WARN < s.fld R.WDT_COUNT_COUNT) :
    wdtWarn s = (s.setFld R.WDT_COUNT_COUNT (25000 * s.fld R.WDT_WARN_WARN)).raise R.WDT_ISR_WARN := by
  simp [wdtWarn, hruns, hdue]

/-! ### House cores leave reset (SYS_RSTCTL.HCRUN) -/

/-- House core `n` leaves reset if its bit of HCRUN is 1 and it stands in reset. -/
def houseLeaves (mask : Nat) (s : State) (n : Nat) : State :=
  if mask.testBit (n - 1) ∧ (s.core (32 + n)).run = .idle then
    s.setCore (32 + n) { Core.houseReset with run := .run, ic := (s.core (32 + n)).ic, dc := (s.core (32 + n)).dc }
  else s

/-- The three house cores take their bits in turn. -/
theorem houseRun_eq (s : State) (mask : Nat) :
    houseRun s mask =
      houseLeaves mask (houseLeaves mask (houseLeaves mask (s.setFld R.SYS_RSTCTL_HCRUN mask) 1) 2) 3 := rfl

/-- Only cores change. -/
theorem houseLeaves_eq_cores (mask : Nat) (s : State) (n : Nat) :
    houseLeaves mask s n = { s with cores := (houseLeaves mask s n).cores } := by
  unfold houseLeaves
  split <;> rfl

@[simp] theorem houseLeaves_cores_length (mask : Nat) (s : State) (n : Nat) :
    (houseLeaves mask s n).cores.length = s.cores.length := by
  unfold houseLeaves
  split
  · simp
  · rfl

/-- The core itself runs exactly if its bit says so. -/
theorem run_houseLeaves_same {mask : Nat} {s : State} {n : Nat} (hlen : 32 + n < s.cores.length)
    (hidle : (s.core (32 + n)).run = .idle) :
    ((houseLeaves mask s n).core (32 + n)).run = if mask.testBit (n - 1) then .run else .idle := by
  by_cases hbit : mask.testBit (n - 1) = true
  · rw [houseLeaves, if_pos ⟨hbit, hidle⟩, core_setCore_same s _ hlen, if_pos hbit]
  · rw [houseLeaves, if_neg fun h => hbit h.1, if_neg hbit, hidle]

/-- The other cores stay as they are. -/
theorem core_houseLeaves_ne (mask : Nat) (s : State) {n c : Nat} (h : c ≠ 32 + n) :
    (houseLeaves mask s n).core c = s.core c := by
  unfold houseLeaves
  split
  · simp [State.core, State.setCore, List.getD, List.getElem?_set_ne h.symm]
  · rfl

@[simp] theorem houseLeaves_regs (mask : Nat) (s : State) (n : Nat) : (houseLeaves mask s n).regs = s.regs := by
  rw [houseLeaves_eq_cores]

/-- HOUSE_CORE_RUN writes HCRUN alone of the registers. -/
theorem houseRun_regs (s : State) (mask : Nat) : (houseRun s mask).regs = (s.setFld R.SYS_RSTCTL_HCRUN mask).regs := by
  rw [houseRun_eq, houseLeaves_regs, houseLeaves_regs, houseLeaves_regs]

/-- HOUSE_CORE_RUN changes registers and cores alone. -/
theorem houseRun_eq_regs_cores (s : State) (mask : Nat) :
    houseRun s mask = { s with regs := (houseRun s mask).regs, cores := (houseRun s mask).cores } := by
  rw [houseRun_regs, houseRun_eq, houseLeaves_eq_cores mask _ 3, houseLeaves_eq_cores mask _ 2,
    houseLeaves_eq_cores mask _ 1]
  rfl

section
variable {s : State} (mask : Nat) (hlen : s.cores.length = 36)
include hlen

theorem run_houseRun_33 (hidle : (s.core 33).run = .idle) :
    ((houseRun s mask).core 33).run = if mask.testBit 0 then .run else .idle := by
  rw [houseRun_eq, core_houseLeaves_ne _ _ (by decide), core_houseLeaves_ne _ _ (by decide)]
  exact run_houseLeaves_same (n := 1) (by simp [hlen]) hidle

theorem run_houseRun_34 (hidle : (s.core 34).run = .idle) :
    ((houseRun s mask).core 34).run = if mask.testBit 1 then .run else .idle := by
  rw [houseRun_eq, core_houseLeaves_ne _ _ (by decide)]
  refine run_houseLeaves_same (n := 2) (by simp [hlen]) ?_
  rw [core_houseLeaves_ne _ _ (by decide)]
  exact hidle

theorem run_houseRun_35 (hidle : (s.core 35).run = .idle) :
    ((houseRun s mask).core 35).run = if mask.testBit 2 then .run else .idle := by
  rw [houseRun_eq]
  refine run_houseLeaves_same (n := 3) (by simp [hlen]) ?_
  rw [core_houseLeaves_ne _ _ (by decide), core_houseLeaves_ne _ _ (by decide)]
  exact hidle

end

/-- Settles O13: each clause is the operation's own lemma, and what a reset leaves is read off `durable` and the fields it
carries over. -/
theorem startCommandsComplete : Obligations.StartCommandsComplete := by
  refine ⟨?_, ?_, ?_, ?_, ?_, ?_, ?_, ?_, ?_, ?_, ?_, ?_, ?_⟩
  · -- ROOT_PLL_LOCK_LOSS
    exact fun s hheld hmode hlock hphase => congrArg Host.Outcome.next (pllLoss_in_service hheld hmode hlock hphase)
  · -- ROOT_PLL_RELOCK
    exact fun s hlost hlock hheld => congrArg Host.Outcome.next (pllRelock_of_lost hlost hlock hheld)
  · -- WATCHDOG_WARN
    exact fun s hruns hdue => congrArg Host.Outcome.next (wdtWarn_of_due hruns hdue)
  · -- WATCHDOG_EXPIRY
    intro s hruns hflush hheld hmode hok
    refine ⟨_, exec_watchdogExpiry_of_bootOk hruns hflush hheld hmode hok, fld_raise_one _ _ Nat.one_pos, ?_, ?_,
      by simp, by simp, by simp, by simp, by simp⟩
    · rw [fld_raise_ne _ (by decide), fld_coreReset_expired, fld_raise_one _ _ Nat.one_pos]
    · rw [fld_raise_ne _ (by decide), fld_coreReset_phase]
  · -- FLUSH_END
    intro s us hflush hidle hrst hpll
    obtain ⟨u, hend, hboot⟩ := flushEnd_of_idle us hflush hidle
    rw [← hboot] at hrst hpll
    have hlocked := postFlushReset_of_locked s.hold.trip hrst hpll
    refine ⟨_, congrArg Host.Outcome.next hend, by rw [hlocked], ?_, ?_, by simp [hlocked],
      by simp [hlocked], by rw [hlocked]⟩
    · rw [postFlushReset_fld _ _ hrst hpll, fld_raise_one _ _ Nat.one_pos]
    · rw [postFlushReset_fld _ _ hrst hpll, fld_raise_ne _ (by decide), fld_coreReset_phase]
  · -- POSTFLUSH_RELEASE
    exact fun s die hheld => congrArg Host.Outcome.next (holdRelease_of_post die hheld)
  · -- AON_POWER_ON
    exact fun s => ⟨powerOnReset s, rfl, powerOnReset_boot_held s, fld_powerOnReset_aonpor s, fld_powerOnReset_phase s,
      powerOnReset_mem s, powerOnReset_cores s, powerOnReset_tiles s, powerOnReset_flows s, powerOnReset_boot_rtc s,
      powerOnReset_tap s, powerOnReset_fuses s, powerOnReset_code_arr s, powerOnReset_pending s⟩
  · -- COLD_RESET
    intro s hflush _
    exact ⟨coldReset s, congrArg Host.Outcome.next (sysRstLow_of_not_flushing hflush), coldReset_boot_held s,
      fld_coldReset_cold s, fld_coldReset_phase s, coldReset_mem s, coldReset_boot_rtc s,
      fld_coldReset_of_aon (by decide) (by decide) (by decide), fld_coldReset_of_aon (by decide) (by decide) (by decide),
      coldReset_fuses s⟩
  · -- SYS_RST_RELEASE
    exact fun s bifur hflush hheld => congrArg Host.Outcome.next (sysRstHigh_of_rails bifur hflush hheld)
  · -- MAIN_RAIL_LOW
    intro s recorded us hflush hheld
    refine ⟨_, (exec_mainRailLow_of_not_flushing recorded us hflush).trans
      (congrArg Host.Outcome.next (countCycle_of_not_held _ hheld)), by simp, ?_, by simp, by simp, by simp⟩
    rw [fld_with_boot, fld_coldReset_cold]
  · -- AON_RAIL_LOW
    intro s recorded us hflush
    obtain ⟨n, hcount⟩ := countCycle_eq_boot s (powerOnReset s)
    refine ⟨_, (exec_aonRailLow_of_not_flushing recorded us hflush).trans (congrArg Host.Outcome.next hcount), by simp, ?_,
      by simp, by simp, by simp⟩
    rw [fld_with_boot, fld_powerOnReset_aonpor]
  · -- WARM_RESET
    intro s c hc hflush hheld hmode htrained
    have hwarm : warmBy s (.core c) = (coreReset s true).raise R.SYS_RSTCAUSE_SWWARM := by
      rw [warmBy_house hc, warmReset_of_running _ _ hflush hheld hmode, htrained]
      rfl
    refine ⟨_, congrArg Host.Outcome.next hwarm, fld_raise_one _ _ Nat.one_pos, ?_, ?_, by simp, by simp,
      by simp, by simp, by simp, by simp⟩
    · rw [fld_raise_ne _ (by decide), fld_coreReset_retained]
    · rw [fld_raise_ne _ (by decide), fld_coreReset_phase]
  · -- HOUSE_CORE_RUN
    intro s mask hlen h1 h2 h3 hwf
    refine ⟨houseRun s mask.val, rfl, ?_, run_houseRun_33 mask.val hlen h1, run_houseRun_34 mask.val hlen h2,
      run_houseRun_35 mask.val hlen h3, houseRun_eq_regs_cores s mask.val⟩
    rw [fld_of_regs_eq _ (houseRun_regs s mask.val), fld_setFld_same s _ _ hwf]
    exact Nat.mod_eq_of_lt mask.isLt

/-! ### JTAG (R490) -/

/-- Before LOCKED every instruction can be selected. -/
theorem tapIr_of_open {s : State} (ir : TapIr) (h : s.fuses.lc ≤ 1) :
    tapIr s ir = { s with tap := { s.tap with ir := ir } } := by
  have hopen : tapClosed s = false := decide_eq_false (by omega)
  simp [tapIr, hopen]

/-- Before LOCKED a pass through the boundary-scan register captures the levels and shifts the cells in. -/
theorem tapScan_of_open {s : State} {ir : TapIr} (levels shifted : Nat) (h : s.fuses.lc ≤ 1) (hir : ir ≠ .bypass) :
    tapScan s ir levels shifted = { s with tap := { s.tap with ir := ir, captured := levels, cells := shifted } } := by
  simp [tapScan, tapIr_of_open ir h, hir]

/-- IDCODE and BYPASS are left in every lifecycle state. -/
theorem tapIr_idcode (s : State) : tapIr s .idcode = { s with tap := { s.tap with ir := .idcode } } := by
  simp [tapIr]

theorem tapIr_bypass (s : State) : tapIr s .bypass = { s with tap := { s.tap with ir := .bypass } } := by
  simp [tapIr]

theorem tapIr_debug (s : State) :
    tapIr s .debug = { s with tap := { s.tap with ir := if 2 ≤ s.fuses.lc then .bypass else .debug } } := by
  simp [tapIr, tapClosed]

/-- Settles O14: each clause is the lemma of its instruction; a lock report raises one bit. -/
theorem jtagAndClockCommandsComplete : Obligations.JtagAndClockCommandsComplete := by
  refine ⟨fun s => rfl, ?_, ?_, ?_, ?_, ?_, ?_, ?_, fun s damdom => rfl, fun s => rfl⟩
  · exact fun s levels shifted h => congrArg Host.Outcome.next (tapScan_of_open levels shifted h nofun)
  · exact fun s => congrArg Host.Outcome.next (tapIr_idcode s)
  · exact fun s levels shifted h => congrArg Host.Outcome.next (tapScan_of_open levels shifted h nofun)
  · exact fun s h => congrArg Host.Outcome.next (tapIr_of_open .highz h)
  · exact fun s h => congrArg Host.Outcome.next (tapIr_of_open .clamp h)
  · exact fun s => ⟨_, rfl, tapIr_debug s⟩
  · exact fun s => congrArg Host.Outcome.next (tapIr_bypass s)

end Sys2Proof.Machine
end

section
/-! Proofs of the family of flows and ordered work: the I/O commands and the vendor loads that start at once (R60, R61, R278
to R285, R292, R299), and the end of a time exchange, also on a port table that is not in canonical form (R363, R365). -/

namespace Sys2Proof.Machine

/-! ### A command that starts at once -/

/-- The command's row answers with what its start comes to, and the waits are noted. -/
theorem submit_of_startsAtOnce {s s1 t : State} {q : CmdRef} {op : NvmeOp} {c : Cmd}
    (h : startsAtOnce s q op = some (s1, c))
    (heff : c.op = op → c.xfer = false → opMisplaced c = isInvalid op → startCmd s1 c = t) :
    (.next (submit s q op) : Result) = .next (noteWaits t) := by
  obtain ⟨hsub, hop, -, hxfer, hplace⟩ := startsAtOnce_spec h
  rw [hsub, heff hop hxfer hplace]

/-- The command keeps the queue it came through. -/
theorem src_of_startsAtOnce {s s1 : State} {q : CmdRef} {op : NvmeOp} {c : Cmd}
    (h : startsAtOnce s q op = some (s1, c)) : c.src = q := by
  obtain ⟨-, -, hsrc, -, -⟩ := startsAtOnce_spec h
  exact hsrc

/-! ### I/O commands as they start (R278 to R285, R299) -/

/-- A Write that nothing refuses meets a bound flow that neither drains nor is stopped (R63). -/
theorem writeFate_accepted {s : State} {nsid slba nlb dtype dspec f : Nat} {ptr : DataPtr}
    (hfault : writeFault s nsid slba nlb dtype ptr = none)
    (hflow : hostFlow s nsid (if dtype = 1 then dspec else 0) = some f) (hdrain : ctxDraining s f = false)
    (hstop : ctxStopped s f = false) :
    writeFate s false nsid slba nlb dtype dspec ptr = .accepted f := by
  simp [writeFate, hfault, hflow, hdrain, hstop]

section
variable {s : State} {c : Cmd} (hxfer : c.xfer = false) (hplace : opMisplaced c = false)

include hplace

theorem startCmd_flush {nsid : Nat} (hop : c.op = .flush nsid) (hall : nsid ≠ 0xFFFFFFFF)
    (hfault : ioFault s nsid [] = none) (hheld : heldOff s = false) :
    startCmd s c = updCmd s c.id (fun d => { d with rels := flushSet s nsid }) := by
  simp [startCmd, hop, hplace, startFlush, hall, hfault, hheld]

theorem startCmd_read {nsid slba nlb : Nat} {bad : List Nat} (hop : c.op = .read nsid slba nlb bad)
    (hread : (readRange s bad nsid slba nlb).1 = scOk) :
    startCmd s c = endCmd s c.id scOk 0 (readRange s bad nsid slba nlb).2 := by
  simp [startCmd, hop, hplace, startHostRead, hread]

theorem startCmd_verify {nsid slba nlb : Nat} {bad : List Nat} (hop : c.op = .verify nsid slba nlb bad)
    (hread : (readRange s bad nsid slba nlb).1 = scOk) :
    startCmd s c = endCmd s c.id scOk 0 [] := by
  simp [startCmd, hop, hplace, startVerify, hread]

theorem startCmd_parcelRead {nsid slba cdw12 : Nat} {bad : List Nat} {pc : FoundParcel}
    (hop : c.op = .parcelRead nsid slba cdw12 bad) (hfield : cdw12 < 0x10000)
    (hfault : ioFault s nsid [(slba, 1)] = none)
    (hblock : (sectorBlock s nsid (lbaSectors s nsid slba 1).1).isSome = true)
    (hparcel : parcelOf s nsid (lbaSectors s nsid slba 1).1 = some pc) :
    startCmd s c = endCmd s c.id (parcelRecord s bad nsid pc).1 (parcelRecord s bad nsid pc).2.length
      ((parcelRecord s bad nsid pc).2.take (4096 * (cdw12 % 0x10000 + 1))) := by
  have hnone : (sectorBlock s nsid (lbaSectors s nsid slba 1).1).isNone = false := by
    rw [← Option.not_isSome, hblock]
    rfl
  simp [startCmd, hop, hplace, startParcelRead, Nat.div_eq_of_lt hfield, hfault, hnone, hparcel]

theorem startCmd_slmRead {slm off len a : Nat} {bs : List Byte} {s2 : State} (hop : c.op = .slmRead slm off len)
    (haddr : slmAddr s (ctrlNum c) slm off len = some a) (hread : readRam s a len = (bs, s2, none)) :
    startCmd s c = endCmd s2 c.id scOk 0 bs := by
  rw [ctrlNum] at haddr
  simp [startCmd, hop, hplace, startSlmRead, haddr, hread]

theorem startCmd_memoryCopy {nsid slba nlb slm off a : Nat} {bad : List Nat}
    (hop : c.op = .memoryCopy nsid slba nlb slm off bad) (hread : (readRange s bad nsid slba nlb).1 = scOk)
    (haddr : slmAddr s (ctrlNum c) slm off (readRange s bad nsid slba nlb).2.length = some a) :
    startCmd s c = endCmd (writeMem s a (readRange s bad nsid slba nlb).2 none tagLocal) c.id scOk 0 [] := by
  rw [ctrlNum] at haddr
  simp [startCmd, hop, hplace, startMemoryCopy, hread, haddr]

include hxfer

theorem startCmd_write {nsid slba nlb dtype dspec f : Nat} {fua : Bool} {ptr : DataPtr}
    (hop : c.op = .write nsid slba nlb dtype dspec fua ptr)
    (hfate : writeFate s false nsid slba nlb dtype dspec ptr = .accepted f) :
    startCmd s c = reserveRun s c f nsid slba nlb := by
  simp [startCmd, hop, hplace, startWrite, hxfer, hfate]

theorem startCmd_dsm {nsid : Nat} {ranges : List LbaRange} (hop : c.op = .dsm nsid ranges)
    (hfault : ioFault s nsid (ranges.map (fun r => (r.slba, r.nlb))) = none) (hheld : heldOff s = false) :
    startCmd s c = endCmd (ranges.foldl (fun acc r => enqueueMap acc (.dealloc nsid (lbaSectors acc nsid r.slba r.nlb).1
      (lbaSectors acc nsid r.slba r.nlb).2)) (updCmd s c.id (fun d =>
      { d with lock := some (nsid, ranges.map (fun r => (r.slba, r.nlb))) }))) c.id scOk 0 [] := by
  simp [startCmd, hop, hplace, startDsm, hxfer, hfault, hheld]

theorem startCmd_slmWrite {slm off a : Nat} {bytes : List Byte} (hop : c.op = .slmWrite slm off bytes)
    (haddr : slmAddr s (ctrlNum c) slm off bytes.length = some a) :
    startCmd s c = endCmd (writeMem s a bytes none (tagHost (ctrlNum c))) c.id scOk 0 [] := by
  rw [ctrlNum] at haddr
  simp [startCmd, hop, hplace, startSlmWrite, hxfer, haddr, ctrlNum]

end

/-- Settles O47: each command that starts at once comes to its start's own lemma. -/
theorem inputOutputCommandsComplete : Obligations.InputOutputCommandsComplete := by
  refine ⟨?_, ?_, ?_, ?_, ?_, ?_, ?_, ?_, ?_⟩
  · -- FLUSH
    intro s q nsid s1 c h ⟨hall, hfault⟩ hheld
    exact submit_of_startsAtOnce h fun hop _ hplace => startCmd_flush hplace hop hall hfault hheld
  · -- WRITE
    intro s q nsid slba nlb dtype dspec f fua ptr s1 c h hfault hflow ⟨hdrain, hstop⟩
    exact submit_of_startsAtOnce h fun hop hxfer hplace =>
      startCmd_write hxfer hplace hop (writeFate_accepted hfault hflow hdrain hstop)
  · -- READ
    intro s q nsid slba nlb bad s1 c h hread
    exact submit_of_startsAtOnce h fun hop _ hplace => startCmd_read hplace hop hread
  · -- VERIFY
    intro s q nsid slba nlb bad s1 c h hread
    exact submit_of_startsAtOnce h fun hop _ hplace => startCmd_verify hplace hop hread
  · -- DATASET_MANAGEMENT
    intro s q nsid ranges s1 c h hfault hheld
    exact submit_of_startsAtOnce h fun hop hxfer hplace => startCmd_dsm hxfer hplace hop hfault hheld
  · -- PARCEL_READ
    intro s q nsid slba cdw12 bad pc s1 c h ⟨hfield, hfault⟩ hblock hparcel
    exact submit_of_startsAtOnce h fun hop _ hplace => startCmd_parcelRead hplace hop hfield hfault hblock hparcel
  · -- SLM_READ
    intro s q slm off len a bs s2 s1 c h haddr hread
    exact submit_of_startsAtOnce h fun hop _ hplace => startCmd_slmRead hplace hop haddr hread
  · -- SLM_WRITE
    intro s q slm off a bytes s1 c h haddr
    exact submit_of_startsAtOnce h fun hop hxfer hplace => startCmd_slmWrite hxfer hplace hop haddr
  · -- MEMORY_COPY
    intro s q nsid slba nlb slm off a bad s1 c h hread haddr
    exact submit_of_startsAtOnce h fun hop _ hplace => startCmd_memoryCopy hplace hop hread haddr

/-! ### Vendor commands as they start (R60, R61, R250, R292, R370) -/

/-- An image with no cause of refusal is loaded (R292). -/
theorem startLoad_of_ok {s : State} {c : Cmd} {d : List Byte} {fieldBad : Bool} {st : Nat} (go : State → State)
    (hxfer : c.xfer = false) (hlen : dataLengthBad d = false) (hfield : fieldBad = false) (hst : st = scOk) :
    startLoad s c d fieldBad st go = endCmd (go s) c.id scOk 0 [] := by
  simp [startLoad, hxfer, hlen, hfield, hst]

section
variable {s : State} {c : Cmd} (hxfer : c.xfer = false) (hplace : opMisplaced c = false)

include hplace

theorem startCmd_flowUnbind {cdw10 : Nat} (hop : c.op = .flowUnbind cdw10) (hfield : cdw10 < 2 ^ 18)
    (hbound : ctxBound s cdw10 = true) (hdrain : ctxDraining s cdw10 = false) :
    startCmd s c = drainFlow s cdw10 (some c.id) := by
  have hmax : ¬ 262144 ≤ cdw10 := by omega
  simp [startCmd, hop, hplace, startFlowUnbind, hmax, unbindFault, hbound, hdrain]

include hxfer

theorem startCmd_flowBind {cdw10 : Nat} {image : List Byte} (hop : c.op = .flowBind cdw10 image)
    (hlen : image.length = 64) (hfield : cdw10 < 2 ^ 18) (hfault : bindFault s cdw10 image = none)
    (hmask : maskQuiesced s (imgFld image cxMASK) = false) :
    startCmd s c = endCmd (bindFlow s cdw10 image) c.id scOk 0 [] := by
  have hmax : ¬ 262144 ≤ cdw10 := by omega
  simp [startCmd, hop, hplace, startFlowBind, hxfer, hlen, hmax, hfault, hmask]

theorem startCmd_programLoad {cdw10 : Nat} {image : List Byte} (hop : c.op = .programLoad cdw10 image)
    (hlen : dataLengthBad image = false) (hfield : cdw10 < 64) (hst : progStatus s 0 cdw10 image = scOk) :
    startCmd s c = endCmd (progLoad s cdw10 image) c.id scOk 0 [] := by
  simp [startCmd, hop, hplace, startLoad_of_ok _ hxfer hlen (decide_eq_false (Nat.not_le.mpr hfield)) hst]

theorem startCmd_stepTableLoad {image : List Byte} (hop : c.op = .stepTableLoad image)
    (hlen : dataLengthBad image = false) (hst : setStatus s image = scOk) :
    startCmd s c = endCmd (setLoad s image) c.id scOk 0 [] := by
  simp [startCmd, hop, hplace, startLoad_of_ok _ hxfer hlen rfl hst]

theorem startCmd_profileLoad {image : List Byte} (hop : c.op = .profileLoad image)
    (hlen : dataLengthBad image = false) (hst : profStatus s image = scOk) :
    startCmd s c = endCmd (profLoad s image) c.id scOk 0 [] := by
  simp [startCmd, hop, hplace, startLoad_of_ok _ hxfer hlen rfl hst]

theorem startCmd_automatonLoad {image : List Byte} (hop : c.op = .automatonLoad image)
    (hlen : dataLengthBad image = false) (hst : autoStatus s image = scOk) :
    startCmd s c = endCmd (autoLoad s image) c.id scOk 0 [] := by
  simp [startCmd, hop, hplace, startLoad_of_ok _ hxfer hlen rfl hst]

theorem startCmd_personalityLoad {cdw10 : Nat} {image : List Byte} (hop : c.op = .personalityLoad cdw10 image)
    (hlen : dataLengthBad image = false) (hfield : cdw10 < 4) (hst : persStatus s cdw10 image = scOk) :
    startCmd s c = endCmd (persLoad s cdw10 image) c.id scOk 0 [] := by
  simp [startCmd, hop, hplace, startLoad_of_ok _ hxfer hlen (decide_eq_false (Nat.not_le.mpr hfield)) hst]

theorem startCmd_fabricLoad {image : List Byte} (hop : c.op = .fabricLoad 0 image)
    (hlen : dataLengthBad image = false) (hst : fcStatus s image = scOk) :
    startCmd s c = endCmd (fabLoad s image) c.id scOk 0 [] := by
  simp [startCmd, hop, hplace, startLoad_of_ok _ hxfer hlen rfl hst]

theorem startCmd_fabricTags {k : Fin 2} {n : Nat} {cid : BitVec 16} {records : List Byte}
    (hop : c.op = .fabricTags 0 records) (hsrc : c.src = .host k n cid) (hlen : dataLengthBad records = false)
    {r : Nat × Bool × State} (hr : r = fabTags s k.val records 0 (records.length / 8)) :
    startCmd s c = endCmd r.2.2 c.id (if r.2.1 then scOk else scSequence) r.1 [] := by
  simp [startCmd, hop, hplace, startFabTags, hxfer, hlen, hsrc, hr]

theorem startCmd_ruleLoad_replace {image : List Byte} (hop : c.op = .ruleLoad 0 0 image)
    (hlen : dataLengthBad image = false) (hst : ruleStatus s 0 image = scOk) :
    startCmd s c = endCmd (ruleReplace s image) c.id scOk 0 [] := by
  simp [startCmd, hop, hplace, startRuleLoad, hxfer, hlen, hst]

/-- Modes 1 and 2 stage their records one at a time. -/
theorem startCmd_ruleLoad_records {mode : Nat} {image : List Byte} (hop : c.op = .ruleLoad mode 0 image)
    (hmode : mode = 1 ∨ mode = 2) (hlen : dataLengthBad image = false) (hst : ruleStatus s mode image = scOk) :
    startCmd s c = ruleQueue s mode image c.id := by
  have hpos : mode ≠ 0 := by omega
  have hmax : ¬ 3 ≤ mode := by omega
  simp [startCmd, hop, hplace, startRuleLoad, hxfer, hlen, hst, hpos, hmax]

end

/-- Settles O48: each command that starts at once comes to its start's own lemma. -/
theorem vendorLoadsComplete : Obligations.VendorLoadsComplete := by
  refine ⟨?_, ?_, ?_, ?_, ?_, ?_, ?_, ?_, ?_, ?_, ?_, ?_⟩
  · -- FLOW_BIND
    intro s q cdw10 image s1 c h ⟨hlen, hfield⟩ hfault hmask
    exact submit_of_startsAtOnce h fun hop hxfer hplace =>
      startCmd_flowBind hxfer hplace hop hlen hfield hfault hmask
  · -- FLOW_UNBIND
    intro s q cdw10 s1 c h hfield ⟨hbound, hdrain⟩
    exact submit_of_startsAtOnce h fun hop _ hplace => startCmd_flowUnbind hplace hop hfield hbound hdrain
  · -- PROGRAM_SLOT_LOAD
    intro s q cdw10 image s1 c h hlen hfield hst
    exact submit_of_startsAtOnce h fun hop hxfer hplace => startCmd_programLoad hxfer hplace hop hlen hfield hst
  · -- STEP_TABLE_LOAD
    intro s q image s1 c h hlen hst
    exact submit_of_startsAtOnce h fun hop hxfer hplace => startCmd_stepTableLoad hxfer hplace hop hlen hst
  · -- CODEC_PROFILE_LOAD
    intro s q image s1 c h hlen hst
    exact submit_of_startsAtOnce h fun hop hxfer hplace => startCmd_profileLoad hxfer hplace hop hlen hst
  · -- AUTOMATON_LOAD
    intro s q image s1 c h hlen hst
    exact submit_of_startsAtOnce h fun hop hxfer hplace => startCmd_automatonLoad hxfer hplace hop hlen hst
  · -- PERSONALITY_LOAD
    intro s q cdw10 image s1 c h hlen hfield hst
    exact submit_of_startsAtOnce h fun hop hxfer hplace => startCmd_personalityLoad hxfer hplace hop hlen hfield hst
  · -- FABRIC_CONFIGURE_LOAD
    rintro s q _ image s1 c h hlen rfl hst
    exact submit_of_startsAtOnce h fun hop hxfer hplace => startCmd_fabricLoad hxfer hplace hop hlen hst
  · -- FABRIC_CONFIGURE_TAGS
    rintro s q k n cid _ records r s1 c h ⟨hq, rfl, hlen⟩ hr
    have hsrc : c.src = .host k n cid := (src_of_startsAtOnce h).trans hq
    exact submit_of_startsAtOnce h fun hop hxfer hplace => startCmd_fabricTags hxfer hplace hop hsrc hlen hr
  · -- RULE_TABLE_LOAD_REPLACE
    rintro s q _ image s1 c h ⟨rfl, hlen⟩ hst
    exact submit_of_startsAtOnce h fun hop hxfer hplace => startCmd_ruleLoad_replace hxfer hplace hop hlen hst
  · -- RULE_TABLE_LOAD_INSERT
    rintro s q _ image s1 c h ⟨rfl, hlen⟩ hst
    exact submit_of_startsAtOnce h fun hop hxfer hplace =>
      startCmd_ruleLoad_records hxfer hplace hop (.inl rfl) hlen hst
  · -- RULE_TABLE_LOAD_DELETE
    rintro s q _ image s1 c h ⟨rfl, hlen⟩ hst
    exact submit_of_startsAtOnce h fun hop hxfer hplace =>
      startCmd_ruleLoad_records hxfer hplace hop (.inr rfl) hlen hst

/-! ### The end of a time exchange (R363, R365)

Taking t1 out of a port that holds nothing else leaves it as at reset, and `setPort` then removes the port's entry. In a
table that lists the port a second time the other entry shows, with its own t1. A table in canonical form lists it once, and
the exchange completes. -/

/-- Where a TRSP is the oldest link message of a port, its row takes it and acts on it. -/
theorem exec_trsp_of_takeLink {s s1 : State} {p : Fin 4} {m : List Byte} (dt : Nat)
    (h : takeLink s p.val 4 = some (m, s1)) : exec (.trsp p dt) s = .next (trspReceived s1 p.val m dt) := by
  change (.next _ : Result) = _
  rw [h]

/-- Bringing UNSYNC up to date changes registers alone. -/
theorem syncUpdate_eq_regs (s : State) : syncUpdate s = { s with regs := (syncUpdate s).regs } := by
  unfold syncUpdate
  dsimp only
  split
  · rfl
  · split <;> rfl

@[simp] theorem syncUpdate_mem (s : State) : (syncUpdate s).mem = s.mem := by rw [syncUpdate_eq_regs]
@[simp] theorem syncUpdate_cores (s : State) : (syncUpdate s).cores = s.cores := by rw [syncUpdate_eq_regs]
@[simp] theorem syncUpdate_fab (s : State) : (syncUpdate s).fab = s.fab := by rw [syncUpdate_eq_regs]

/-- The fabric's state after the answer to the TREQ last sent upstream, with the node's time and trim as they come out. -/
theorem trspReceived_due {s : State} {p dt : Nat} {m : List Byte} (hup : upstream (timePass s dt) = some p)
    (ht1 : (portOf s p).t1 = some (leAt m 4 8)) (hon : blockOn s .fab = true) :
    ∃ u, trspReceived s p m dt = syncUpdate u ∧ u.mem = s.mem ∧ u.cores = s.cores ∧ u.fab.stale = false ∧
      u.fab.upUnsync = bitOf (leAt m 28 1) 0 ∧
      u.fab.ports = tblSet Port.reset s.fab.ports p { portOf s p with t1 := none } := by
  have hdue : ¬ (upstream (timePass s dt) ≠ some p ∨ (portOf (timePass s dt) p).t1 ≠ some (leAt m 4 8) ∨
      ¬ blockOn (timePass s dt) .fab) := by
    rintro (h | h | h)
    · exact h hup
    · exact h ht1
    · exact h hon
  exact ⟨_, if_neg hdue, rfl, rfl, rfl, rfl, rfl⟩

/-- On a port table in canonical form a TRSP completes with every effect of R363 and R365, t1 taken included. -/
theorem exec_trsp_of_canonical_ports {s s1 : State} {p : Fin 4} {dt : Nat} {m : List Byte}
    (htake : takeLink s p.val 4 = some (m, s1)) (hup : upstream (timePass s1 dt) = some p.val)
    (ht1 : (portOf s1 p.val).t1 = some (leAt m 4 8)) (hon : blockOn s1 .fab = true)
    (hports : tblWf Port.reset s1.fab.ports = true) :
    ∃ t, exec (.trsp p dt) s = .next t ∧ t.fab.stale = false ∧ (portOf t p.val).t1 = none ∧
      t.fab.upUnsync = bitOf (leAt m 28 1) 0 ∧ t.mem = s1.mem ∧ t.cores = s1.cores := by
  obtain ⟨u, hu, hmem, hcores, hstale, hunsync, huports⟩ := trspReceived_due hup ht1 hon
  refine ⟨syncUpdate u, (exec_trsp_of_takeLink dt htake).trans (congrArg Host.Outcome.next hu), by simp [hstale], ?_,
    by simp [hunsync], by simp [hmem], by simp [hcores]⟩
  rw [portOf, syncUpdate_fab, huports, tblGet_tblSet_same _ _ hports]

/-- A slave whose port table lists its upstream port 1 twice: with a first entry that has sent a TREQ at time 0, the link
messages given, and a second one that has sent a TREQ at time 5. -/
def portListedTwice (links : List (List Byte)) : State :=
  { tinyW [(fldState 0x310000, 2), (R.FAB_TSTAT_UPPORT, 1)] with
    fab := { FabSt.reset with
      ports := [(1, { Port.reset with links := links, t1 := some 0 }), (1, { Port.reset with t1 := some 5 })] } }

/-- The exchange that the answer to the TREQ of time 0 completes leaves the port with the t1 of its second entry. -/
theorem t1_trspReceived_portListedTwice :
    (portOf (trspReceived (portListedTwice []) 1 [4] 0) 1).t1 = some 5 := by decide +kernel

/-- Refutes O37: at a port that the table lists twice a TRSP completes the exchange and t1 still shows. -/
theorem not_ingestHallwayAndTimeComplete : ¬ Obligations.IngestHallwayAndTimeComplete := by
  intro h
  obtain ⟨-, -, -, -, -, -, -, -, -, -, htrsp, -, -⟩ := h
  have htake : takeLink (portListedTwice [[4]]) 1 4 = some ([4], portListedTwice []) := by decide +kernel
  obtain ⟨t, ht, -, ht1, -⟩ := htrsp (portListedTwice [[4]]) 1 0 [4] (portListedTwice []) htake (by decide +kernel)
    (by decide +kernel) (by decide +kernel) (by decide +kernel)
  rw [exec_trsp_of_takeLink 0 htake] at ht
  obtain rfl : trspReceived (portListedTwice []) 1 [4] 0 = t := Host.Outcome.next.inj ht
  exact absurd (t1_trspReceived_portListedTwice.symm.trans ht1) nofun

end Sys2Proof.Machine
end

section
/-! Proofs of the family of the Siriz programming model: the flags of arithmetic and division (R113, R114, R136), the cores at
reset (R98), loads and stores (R90, R91, R145), calls, returns, exceptions, waits and fences (R103 to R111, R142, R148, R163),
and the frames of stores into DRAM and of instructions of registers alone (R93, R113, R126). -/

namespace Sys2Proof.Machine

/-! ### Bits of ST (Tables 3.2 and 3.9) -/

theorem stBit_stPut_same (st : Word) {i : Nat} (b : Bool) (hi : i < 32) : stBit (stPut st i b) i = b := by
  cases b <;> simp [stBit, stPut, hi]

theorem stBit_stPut_ne (st : Word) {i j : Nat} (b : Bool) (h : j ≠ i) : stBit (stPut st i b) j = stBit st j := by
  have hmask : (1#32 <<< i).getLsbD j = false := by
    rw [BitVec.getLsbD_shiftLeft, BitVec.getLsbD_one]
    grind
  have hset : (if b then 1#32 <<< i else 0#32).getLsbD j = false := by
    split
    · exact hmask
    · exact BitVec.getLsbD_zero
  by_cases hj : j < 32
  · rw [stBit, stPut, BitVec.getLsbD_or, BitVec.getLsbD_and, BitVec.getLsbD_not, hmask, hset]
    simp [stBit, hj]
  · rw [stBit, stBit, BitVec.getLsbD_of_ge _ j (not_lt.mp hj), BitVec.getLsbD_of_ge _ j (not_lt.mp hj)]

@[simp] theorem stBit_stResult_z (st r : Word) : stBit (stResult st r) stZ = (r == 0#32) := by
  rw [stResult, stBit_stPut_ne _ _ (by decide), stBit_stPut_same _ _ (by decide)]

@[simp] theorem stBit_stResult_n (st r : Word) : stBit (stResult st r) stN = r.msb :=
  stBit_stPut_same _ _ (by decide)

theorem stBit_stResult_ne (st r : Word) {i : Nat} (hz : i ≠ stZ) (hn : i ≠ stN) : stBit (stResult st r) i = stBit st i := by
  rw [stResult, stBit_stPut_ne _ _ hn, stBit_stPut_ne _ _ hz]

/-- ST with all four flags written: Z and N from a result, C and V as given. -/
def stFlags (st r : Word) (c v : Bool) : Word := stPut (stPut (stResult st r) stC c) stV v

@[simp] theorem stBit_stFlags_z (st r : Word) (c v : Bool) : stBit (stFlags st r c v) stZ = (r == 0#32) := by
  rw [stFlags, stBit_stPut_ne _ _ (by decide), stBit_stPut_ne _ _ (by decide), stBit_stResult_z]

@[simp] theorem stBit_stFlags_n (st r : Word) (c v : Bool) : stBit (stFlags st r c v) stN = r.msb := by
  rw [stFlags, stBit_stPut_ne _ _ (by decide), stBit_stPut_ne _ _ (by decide), stBit_stResult_n]

@[simp] theorem stBit_stFlags_c (st r : Word) (c v : Bool) : stBit (stFlags st r c v) stC = c := by
  rw [stFlags, stBit_stPut_ne _ _ (by decide), stBit_stPut_same _ _ (by decide)]

@[simp] theorem stBit_stFlags_v (st r : Word) (c v : Bool) : stBit (stFlags st r c v) stV = v :=
  stBit_stPut_same _ _ (by decide)

/-- The bits above the four flags stay. -/
theorem stBit_stFlags_of_ge (st r : Word) (c v : Bool) {i : Nat} (hi : 4 ≤ i) : stBit (stFlags st r c v) i = stBit st i := by
  have hz : i ≠ stZ := by rintro rfl; exact absurd hi (by decide)
  have hn : i ≠ stN := by rintro rfl; exact absurd hi (by decide)
  have hc : i ≠ stC := by rintro rfl; exact absurd hi (by decide)
  have hv : i ≠ stV := by rintro rfl; exact absurd hi (by decide)
  rw [stFlags, stBit_stPut_ne _ _ hv, stBit_stPut_ne _ _ hc, stBit_stResult_ne _ _ hz hn]

/-! ### Sums and differences (Table 4.4a) -/

theorem b2n_eq_toNat (b : Bool) : b2n b = b.toNat := by cases b <;> rfl

/-- An integer overflows exactly where its 32-bit word reads as another integer. -/
theorem overflows_iff {r : Word} {i : Int} (h : r = BitVec.ofInt 32 i) : overflows i = true ↔ r.toInt ≠ i := by
  rw [h, BitVec.toInt_ofInt, overflows, Bool.or_eq_true, decide_eq_true_eq, decide_eq_true_eq]
  constructor
  · rintro hi heq
    have hlo := Int.le_bmod (x := i) (m := 2 ^ 32) (by decide)
    have hhi := Int.bmod_lt (x := i) (m := 2 ^ 32) (by decide)
    omega
  · intro hne
    by_contra hin
    exact hne (Int.bmod_eq_of_le (by omega) (by omega))

/-- The sum is the word of the signed sum. -/
theorem addWith_word (a b st : Word) (c : Bool) :
    (addWith a b c st).1 = BitVec.ofInt 32 (a.toInt + b.toInt + (b2n c : Int)) := by
  simp [addWith, BitVec.ofNat_add, BitVec.ofInt_add]

/-- The difference is the word of the signed difference. -/
theorem subWith_word (a b st : Word) (c : Bool) :
    (subWith a b c st).1 = BitVec.ofInt 32 (a.toInt - b.toInt - (b2n c : Int)) := by
  simp [subWith, sub_eq_add_neg, BitVec.ofInt_add, BitVec.ofInt_neg]

/-- Settles O52: the flags are those of `stFlags`, and V tells whether the word of the exact signed result reads as it. -/
theorem flagsOfArithmetic : Obligations.FlagsOfArithmetic := by
  refine ⟨?_, ?_, ?_⟩
  · -- addition
    intro a b st ci
    have hflags : (addWith a b ci st).2 = stFlags st (addWith a b ci st).1
        (decide (2 ^ 32 ≤ a.toNat + b.toNat + b2n ci)) (overflows (a.toInt + b.toInt + (b2n ci : Int))) := rfl
    dsimp only
    rw [hflags, ← b2n_eq_toNat]
    exact ⟨BitVec.toNat_ofNat _ _, by simp, by simp, by simp, by simpa using overflows_iff (addWith_word a b st ci),
      fun i hi => stBit_stFlags_of_ge _ _ _ _ hi⟩
  · -- subtraction
    intro a b st ci
    have hflags : (subWith a b ci st).2 = stFlags st (subWith a b ci st).1
        (decide (a.toNat < b.toNat + b2n ci)) (overflows (a.toInt - b.toInt - (b2n ci : Int))) := rfl
    have hnat : ((subWith a b ci st).1.toNat : Int) = ((a.toNat : Int) - b.toNat - b2n ci) % 2 ^ 32 := by
      have hci : b2n ci < 2 ^ 32 := by cases ci <;> decide
      simp only [subWith, BitVec.toNat_sub, BitVec.toNat_ofNat]
      omega
    dsimp only
    rw [hflags, ← b2n_eq_toNat]
    exact ⟨hnat, by simp, by simp, by simp, by simpa using overflows_iff (subWith_word a b st ci),
      fun i hi => stBit_stFlags_of_ge _ _ _ _ hi⟩
  · -- NEG
    intro b st
    have hflags : (aluNeg b st).2 = stFlags st (aluNeg b st).1 (b != 0#32) (b == 0x80000000#32) := rfl
    dsimp only
    rw [hflags]
    exact ⟨BitVec.zero_sub b, by simp, by simp, by simp, by simp, fun i hi => stBit_stFlags_of_ge _ _ _ _ hi⟩

/-! ### The cores at reset (Table 3.6) -/

theorem core_reset_tile {c : Nat} (hc : c < 32) : State.reset.core c = Core.tileReset := by
  have hlen : c < (List.replicate 32 Core.tileReset).length := hc
  exact (List.getD_append _ _ _ _ hlen).trans (List.getD_replicate _ hc)

theorem core_reset_house {c : Nat} (hlo : 32 ≤ c) (hhi : c < 36) : State.reset.core c = Core.houseReset := by
  have hlen : (List.replicate 32 Core.tileReset).length ≤ c := hlo
  have hrest : c - 32 < 4 := by omega
  exact (List.getD_append_right _ _ _ _ hlen).trans (List.getD_replicate _ hrest)

/-- Settles O7: the tile cores and the house cores are reset alike, each kind to its column of Table 3.6. -/
theorem resetGivesTheSegmentsOfTable36 : Obligations.ResetGivesTheSegmentsOfTable36 := by
  refine ⟨fun c hc => ?_, fun c hlo hhi => ?_⟩
  · rw [core_reset_tile hc]
    exact ⟨rfl, rfl⟩
  · rw [core_reset_house hlo hhi]
    exact ⟨rfl, rfl, rfl⟩

/-! ### The effect of an issued instruction -/

theorem coreRuns_spec {s : State} {c : Nat} (h : coreRuns s c = true) : (s.core c).run = .run ∧ s.cores.length = 36 := by
  simpa [coreRuns] using h

theorem goneTo_updCore (s : State) (c : Nat) (f : Core → Core) (k : Core) (pc : Word) (cost : Nat) :
    goneTo (updCore s c f) c k pc cost = goneTo s c k pc cost := setCore_setCore _ _ _ _

section
variable {s s1 x : State} {c : CoreId} {width cost : Nat} {pc : Word} {body : State → CoreAcc (Word × Nat)}

/-- A core that still runs after its instruction goes on at the next address. -/
theorem retire_of_coreRuns (hx : coreRuns x c.val = true) (hg : offGate c.val pc = true) :
    retire x c.val pc cost = goneTo x c.val (x.core c.val) pc cost := by
  obtain ⟨hrun, hlen⟩ := coreRuns_spec hx
  exact retire_goneTo _ _ _ _ (by omega) hrun hg

/-- The same where the instruction last writes its core's registers. -/
theorem retire_updCore_of_coreRuns {f : Core → Core} (hf : ∀ k, (f k).run = k.run) (hx : coreRuns x c.val = true)
    (hg : offGate c.val pc = true) :
    retire (updCore x c.val f) c.val pc cost = goneTo x c.val (f (x.core c.val)) pc cost := by
  obtain ⟨hrun, hlen⟩ := coreRuns_spec hx
  have hcore : (updCore x c.val f).core c.val = f (x.core c.val) := core_setCore_same _ _ (by omega)
  have hupd : coreRuns (updCore x c.val f) c.val = true := by
    rw [coreRuns, hcore, hf, hrun]
    simp [updCore, hlen]
  rw [retire_of_coreRuns hupd hg, hcore, goneTo_updCore]

theorem issue_of_body_ok (h : issued s c.val width = some s1) (hb : body s1 = .ok (pc, cost) x) :
    issue s c.val width body = retire x c.val pc cost := by
  rw [issue_of_issued body h, hb]

theorem issue_of_body_trap {t : Trap} (h : issued s c.val width = some s1) (hb : body s1 = .trap t x) :
    issue s c.val width body = takeExc x c.val t (returnPc t (s.core c.val).pc width) := by
  rw [issue_of_issued body h, hb]

end

/-! ### Loads and stores -/

section
variable {s : State} {c : Nat} {kind : AccKind} {a : Word} {n : Nat}

theorem loadedAt_spec {x : Nat × State} (h : loadedAt s c kind a n = some x) :
    coreLoad s c kind a n = .ok x.1 x.2 ∧ coreRuns x.2 c = true := by
  unfold loadedAt at h
  split at h
  · next hload =>
    split at h
    · next hruns =>
      cases h
      exact ⟨hload, hruns⟩
    · cases h
  · cases h

theorem storedAt_spec {v : Nat} {x : State} (h : storedAt s c kind a n v = some x) :
    coreStore s c kind a n v = .ok () x ∧ coreRuns x c = true := by
  unfold storedAt at h
  split at h
  · next hstore =>
    split at h
    · next hruns =>
      cases h
      exact ⟨hstore, hruns⟩
    · cases h
  · cases h

end

section
variable {s s1 : State} {c : CoreId} {kind : AccKind} {a : Word} {n width w : Nat} {body : State → CoreAcc (Word × Nat)}

/-- An issued load that raises nothing writes its register and goes on. -/
theorem issue_of_loadedAt {x : Nat × State} {rd : Reg} {ext : Nat → Word} (h : issued s c.val width = some s1)
    (hload : loadedAt s1 c.val kind a n = some x) (hg : offGate c.val (nextPc s1 c.val w) = true)
    (hb : body s1 = loadBody c.val kind a n w rd ext s1) :
    issue s c.val width body = goneTo x.2 c.val (setGpr (x.2.core c.val) rd (ext x.1)) (nextPc s1 c.val w) 1 := by
  obtain ⟨hok, hruns⟩ := loadedAt_spec hload
  have hbody : body s1 = .ok (nextPc s1 c.val w, 1) (updCore x.2 c.val (fun k => setGpr k rd (ext x.1))) := by
    rw [hb, loadBody, hok, CoreAcc.andThen]
  rw [issue_of_body_ok h hbody, retire_updCore_of_coreRuns (f := fun k => setGpr k rd (ext x.1)) (fun _ => rfl) hruns hg]

/-- A load with a base register and a 16-bit offset. -/
theorem loadWide_of_loadedAt {x : Nat × State} {rd ra : Reg} {imm : BitVec 16} {ext : Nat → Word}
    (h : issued s c.val 4 = some s1)
    (hload : loadedAt s1 c.val (baseKind ra false) (gpr (s1.core c.val) ra + sext imm) n = some x)
    (hg : offGate c.val (nextPc s1 c.val 4) = true) :
    loadWide s c.val rd ra imm n ext =
      goneTo x.2 c.val (setGpr (x.2.core c.val) rd (ext x.1)) (nextPc s1 c.val 4) 1 :=
  issue_of_loadedAt h hload hg rfl

/-- An issued store that raises nothing goes on. -/
theorem issue_of_storedAt {x : State} {rs : Reg} (h : issued s c.val width = some s1)
    (hstore : storedAt s1 c.val kind a n ((gpr (s1.core c.val) rs).toNat % 2 ^ (8 * n)) = some x)
    (hg : offGate c.val (nextPc s1 c.val w) = true) (hb : body s1 = storeBody c.val kind a n w rs s1) :
    issue s c.val width body = goneTo x c.val (x.core c.val) (nextPc s1 c.val w) 1 := by
  obtain ⟨hok, hruns⟩ := storedAt_spec hstore
  have hbody : body s1 = .ok (nextPc s1 c.val w, 1) x := by
    rw [hb, storeBody, hok, CoreAcc.andThen]
  rw [issue_of_body_ok h hbody, retire_of_coreRuns hruns hg]

end

/-- Settles O20: each load and each store is the one load and the one store, at its own address, size and extension. -/
theorem loadAndStoreComplete : Obligations.LoadAndStoreComplete := by
  refine ⟨?_, ?_, ?_, ?_, ?_, ?_, ?_, ?_, ?_, ?_⟩
  · -- LDW
    exact fun s c f s1 x h hload hg => congrArg Host.Outcome.next (issue_of_loadedAt h hload hg rfl)
  · -- STW
    intro s c f s1 x h hstore hg
    rw [← Nat.mod_eq_of_lt (gpr (s1.core c.val) (wordForm (s1.core c.val) f).1).isLt] at hstore
    exact congrArg Host.Outcome.next (issue_of_storedAt h hstore hg rfl)
  · -- LDH
    exact fun s c rd ra imm s1 x h hload hg => congrArg Host.Outcome.next (loadWide_of_loadedAt h hload hg)
  · -- LDHU
    exact fun s c rd ra imm s1 x h hload hg => congrArg Host.Outcome.next (loadWide_of_loadedAt h hload hg)
  · -- LDB
    exact fun s c rd ra imm s1 x h hload hg => congrArg Host.Outcome.next (loadWide_of_loadedAt h hload hg)
  · -- LDBU
    exact fun s c rd ra imm s1 x h hload hg => congrArg Host.Outcome.next (loadWide_of_loadedAt h hload hg)
  · -- STH
    exact fun s c rs ra imm s1 x h hstore hg => congrArg Host.Outcome.next (issue_of_storedAt h hstore hg rfl)
  · -- STB
    exact fun s c rs ra imm s1 x h hstore hg => congrArg Host.Outcome.next (issue_of_storedAt h hstore hg rfl)
  · -- LDA
    exact fun s c rd size off s1 x h hload hg => congrArg Host.Outcome.next (issue_of_loadedAt h hload hg rfl)
  · -- STA
    exact fun s c rs size off s1 x h hstore hg => congrArg Host.Outcome.next (issue_of_storedAt h hstore hg rfl)

/-! ### Words on the stack (R103, R104) -/

section
variable {s : State} {c : Nat} {a : Word}

theorem pushedAt_spec {xs : List Word} {x : State} (h : pushedAt s c a xs = some x) :
    pushWords s c 0 a xs = .ok () x ∧ coreRuns x c = true := by
  unfold pushedAt at h
  split at h
  · next hpush =>
    split at h
    · next hruns =>
      cases h
      exact ⟨hpush, hruns⟩
    · cases h
  · cases h

theorem poppedAt_spec {n : Nat} {vs : List Word} {x : State} (h : poppedAt s c a n = some (vs, x)) :
    popWords s c 0 a n = .ok vs x ∧ coreRuns x c = true := by
  unfold poppedAt at h
  split at h
  · next hpop =>
    split at h
    · next hruns =>
      cases h
      exact ⟨hpop, hruns⟩
    · cases h
  · cases h

/-- Words popped without an exception: the first load, then the rest. -/
theorem popWords_succ_ok {d n : Nat} {vs : List Word} {x : State} (h : popWords s c d a (n + 1) = .ok vs x) :
    ∃ v s1 ws, coreLoad s c .stackRead a 4 = .ok v s1 ∧ popWords s1 c (d + 1) (a + 4) n = .ok ws x ∧
      vs = BitVec.ofNat 32 v :: ws := by
  unfold popWords at h
  split at h
  · next v s1 hload =>
    cases hrest : popWords s1 c (d + 1) (a + 4) n with
    | ok ws s2 =>
      rw [hrest] at h
      cases h
      exact ⟨v, s1, ws, hload, hrest, rfl⟩
    | trap t s2 =>
      rw [hrest] at h
      cases h
  · cases h

/-- The count of words already done shows only in an exception. -/
theorem popWords_done {d d' n : Nat} {vs : List Word} {x : State} (h : popWords s c d a n = .ok vs x) :
    popWords s c d' a n = .ok vs x := by
  induction n generalizing s d d' a vs with
  | zero => exact h
  | succ n ih =>
    obtain ⟨v, s1, ws, hload, hrest, rfl⟩ := popWords_succ_ok h
    rw [popWords, hload]
    simp only [ih hrest, CoreAcc.andThen]

/-- What RET and RTE read: the return PC by itself, then the other words of the frame. -/
theorem poppedAt_cons_spec {n : Nat} {pc : Word} {vs : List Word} {x : State} (h : poppedAt s c a (n + 1) = some (pc :: vs, x)) :
    ∃ v s1, coreLoad s c .stackRead a 4 = .ok v s1 ∧ pc = BitVec.ofNat 32 v ∧ popWords s1 c 1 (a + 4) n = .ok vs x ∧
      coreRuns x c = true := by
  obtain ⟨hpop, hruns⟩ := poppedAt_spec h
  obtain ⟨v, s1, ws, hload, hrest, hvs⟩ := popWords_succ_ok hpop
  obtain ⟨rfl, rfl⟩ := List.cons.inj hvs
  exact ⟨v, s1, hload, rfl, popWords_done hrest, hruns⟩

end

/-- Bit 0 of a loaded word is that of the number loaded. -/
theorem bitOf_zero_of_getLsbD {v : Nat} (h : (BitVec.ofNat 32 v).getLsbD 0 = false) : bitOf v 0 = false := by
  rw [BitVec.getLsbD_ofNat] at h
  simpa only [bitOf, Nat.zero_lt_succ, decide_true, Bool.true_and] using h

@[simp] theorem setGpr_run (k : Core) (r : Reg) (v : Word) : (setGpr k r v).run = k.run := rfl

@[simp] theorem setRegs_run (k : Core) (xs : List (Reg × Word)) : (setRegs k xs).run = k.run := by
  induction xs generalizing k with
  | nil => rfl
  | cons x xs ih => exact ih _

/-! ### Calls and returns (R103, R104, R111) -/

section
variable {s s1 x : State} {c : CoreId} {pc : Word}

theorem issue_callBody {rt : Reg} {mask : BitVec 16} (h : issued s c.val 4 = some s1) (hm : mask.getLsbD 14 = false)
    (ht : (gpr (s1.core c.val) rt).getLsbD 0 = false) (hsp : (gpr (s1.core c.val) spReg).toNat % 4 = 0)
    {sp : Word} (hnew : sp = gpr (s1.core c.val) spReg - BitVec.ofNat 32 (4 * ((maskRegs mask).length + 1)))
    (hcheck : checkWords s1 c.val sp ((maskRegs mask).length + 1) = none)
    (hpush : pushedAt s1 c.val sp (nextPc s1 c.val 4 :: (maskRegs mask).map (gpr (s1.core c.val))) = some x)
    (hg : offGate c.val (gpr (s1.core c.val) rt) = true) :
    issue s c.val 4 (callBody c.val rt mask) =
      goneTo x c.val (setGpr (x.core c.val) spReg sp) (gpr (s1.core c.val) rt) (3 + (maskRegs mask).length) := by
  obtain ⟨hok, hruns⟩ := pushedAt_spec hpush
  have hbody : callBody c.val rt mask s1 = .ok (gpr (s1.core c.val) rt, 3 + (maskRegs mask).length)
      (updCore x c.val (fun k => setGpr k spReg sp)) := by
    subst hnew
    simp only [callBody, hm, ht, hsp, hcheck, hok, CoreAcc.andThen, Bool.false_eq_true, if_false, ne_eq, not_true_eq_false]
  rw [issue_of_body_ok h hbody, retire_updCore_of_coreRuns (f := fun k => setGpr k spReg sp) (fun _ => rfl) hruns hg]

theorem issue_retBody {mask : BitVec 16} {vs : List Word} (h : issued s c.val 4 = some s1) (hm : mask.getLsbD 14 = false)
    (hsp : (gpr (s1.core c.val) spReg).toNat % 4 = 0)
    (hpop : poppedAt s1 c.val (gpr (s1.core c.val) spReg) ((maskRegs mask).length + 1) = some (pc :: vs, x))
    (hpc : pc.getLsbD 0 = false) (hg : offGate c.val pc = true) :
    issue s c.val 4 (retBody c.val mask) = goneTo x c.val (setGpr (setRegs (x.core c.val) ((maskRegs mask).zip vs)) spReg
      (gpr (s1.core c.val) spReg + BitVec.ofNat 32 (4 * ((maskRegs mask).length + 1)))) pc (3 + (maskRegs mask).length) := by
  obtain ⟨v, s2, hload, rfl, hrest, hruns⟩ := poppedAt_cons_spec hpop
  have hbody : retBody c.val mask s1 = .ok (BitVec.ofNat 32 v, 3 + (maskRegs mask).length) (updCore x c.val (fun k =>
      setGpr (setRegs k ((maskRegs mask).zip vs)) spReg
        (gpr (s1.core c.val) spReg + BitVec.ofNat 32 (4 * ((maskRegs mask).length + 1))))) := by
    simp only [retBody, hm, hsp, hload, bitOf_zero_of_getLsbD hpc, hrest, CoreAcc.andThen, Bool.false_eq_true, if_false,
      ne_eq, not_true_eq_false]
  rw [issue_of_body_ok h hbody, retire_updCore_of_coreRuns (fun _ => by simp) hruns hg]

/-- The core as RTE leaves it, PC aside (R111). -/
def rteCore (k : Core) (st sp : Word) : Core :=
  setGpr { k with st := restoredSt k.st st, exdepth := k.exdepth - 1 } spReg sp

theorem issue_rteBody {st : Word} (h : issued s c.val 2 = some s1) (hdepth : (s1.core c.val).exdepth ≠ 0)
    (hsp : (gpr (s1.core c.val) spReg).toNat % 4 = 0)
    (hpop : poppedAt s1 c.val (gpr (s1.core c.val) spReg) 2 = some ([pc, st], x)) (hpc : pc.getLsbD 0 = false)
    (hg : offGate c.val pc = true) :
    issue s c.val 2 (rteBody c.val) =
      goneTo x c.val (rteCore (x.core c.val) st (gpr (s1.core c.val) spReg + 16)) pc 4 := by
  obtain ⟨v, s2, hload, rfl, hrest, hruns⟩ := poppedAt_cons_spec hpop
  have hbody : rteBody c.val s1 = .ok (BitVec.ofNat 32 v, 4)
      (updCore x c.val (fun k => rteCore k st (gpr (s1.core c.val) spReg + 16))) := by
    simp only [rteBody, rteCore, hdepth, hsp, hload, bitOf_zero_of_getLsbD hpc, hrest, CoreAcc.andThen, List.headD_cons,
      Bool.false_eq_true, if_false, ne_eq, not_true_eq_false]
  rw [issue_of_body_ok h hbody,
    retire_updCore_of_coreRuns (f := fun k => rteCore k st (gpr (s1.core c.val) spReg + 16)) (fun _ => rfl) hruns hg]

end

/-! ### Exceptions (R110) -/

/-- What `framedAt` says of an exception: it ends no job, is no double fault, and its frame is written. -/
theorem framedAt_spec {s x : State} {c : Nat} {t : Trap} {ret : Word} (h : framedAt s c t ret = some x) :
    ¬ ((s.core c).noVec = true ∧ c < 32) ∧ (s.core c).exdepth ≠ 15 ∧ (gpr (s.core c) spReg).toNat % 4 = 0 ∧
      pushFrame (s.setCore c { s.core c with st := handlerSt (s.core c) }) c (gpr (s.core c) spReg)
        [t.faddr, causeWord t, (s.core c).st, ret] = some x ∧ coreRuns x c = true := by
  unfold framedAt at h
  dsimp only at h
  split at h
  · cases h
  · next hno =>
    simp only [Bool.or_eq_true, Bool.and_eq_true, decide_eq_true_eq, bne_iff_ne, not_or, not_not] at hno
    obtain ⟨⟨hvec, hdepth⟩, hsp⟩ := hno
    split at h
    · next s2 hpush =>
      split at h
      · next hruns =>
        cases h
        exact ⟨hvec, hdepth, hsp, hpush, hruns⟩
      · cases h
    · cases h

/-- An exception whose frame is written enters its handler. -/
theorem takeExc_of_framedAt {s x : State} {c : Nat} {t : Trap} {ret : Word} (h : framedAt s c t ret = some x) :
    takeExc s c t ret = entered s x c t := by
  obtain ⟨hvec, hdepth, hsp, hpush, -⟩ := framedAt_spec h
  unfold takeExc
  simp only [if_neg hvec, if_neg hdepth, hsp, hpush, ne_eq, not_true_eq_false, if_false]
  rfl

theorem fetchTrap_spec {s : State} {c : Nat} {p : Trap × State} (h : fetchTrap s c = some p) :
    coreFetch s c (s.core c).pc = .trap p.1 p.2 := by
  unfold fetchTrap at h
  split at h
  · cases h
  · next hfetch =>
    cases h
    exact hfetch

/-- The exception that the fetch at PC raises is taken, whatever the instruction. -/
theorem issue_of_fetchTrap {s : State} {c width : Nat} {p : Trap × State} (body : State → CoreAcc (Word × Nat))
    (hmay : mayIssue s c = true) (hgate : atGate s c = false) (hp : fetchTrap s c = some p) :
    issue s c width body = takeExc p.2 c p.1 (returnPc p.1 (s.core c).pc width) := by
  simp [issue, hmay, hgate, fetchInstr, fetchTrap_spec hp, CoreAcc.andThen]

theorem exec_fetchFault_of_fetchTrap {s x : State} {c : CoreId} {p : Trap × State} (hmay : mayIssue s c.val = true)
    (hgate : atGate s c.val = false) (hp : fetchTrap s c.val = some p)
    (hframe : framedAt p.2 c.val p.1 (returnPc p.1 (s.core c.val).pc 2) = some x) :
    exec (.fetchFault c) s = .next (entered p.2 x c.val p.1) := by
  change execFetchFault c s = _
  rw [execFetchFault, fetchTrap_spec hp]
  exact congrArg Host.Outcome.next ((issue_of_fetchTrap _ hmay hgate hp).trans (takeExc_of_framedAt hframe))

/-! ### Waiting and fences (R148, R163) -/

/-- An issued instruction that leaves its core waiting retires nothing more. -/
theorem retire_of_not_run {s : State} {c : Nat} (pc : Word) (cost : Nat) (h : (s.core c).run ≠ .run) : retire s c pc cost = s :=
  if_neg h

theorem flushMerge_of_empty {s : State} (p : MergeEnt → Bool) (h : s.merge = []) : flushMerge s p = s := by
  simp [flushMerge, flushMergeList, h]

/-- A core that runs again. -/
def Core.woken (k : Core) : Core := { k with run := .run }

/-- A core past a WAIT, waiting. -/
def Core.waiting (k : Core) (pc : Word) : Core := { k with pc := pc, cycle := k.cycle + 1, run := .wait }

/-- Running again after a wait or a fence, away from the parcel gate. -/
theorem arrive_woken {s : State} {c : CoreId} (hlen : s.cores.length = 36) (hg : offGate c.val (s.core c.val).pc = true) :
    arrive (updCore s c.val Core.woken) c.val = s.setCore c.val (s.core c.val).woken := by
  refine arrive_offGate _ _ ?_
  rw [updCore, core_setCore_same s _ (by omega)]
  exact hg

theorem exec_wait_of_not_pending {s s1 : State} {c : CoreId} (h : issued s c.val 2 = some s1)
    (hirq : irqPending s1 c.val = false) :
    exec (.wait c) s = .next (s1.setCore c.val ((s1.core c.val).waiting ((s1.core c.val).pc + 2#32))) := by
  obtain ⟨-, -, -, -, hlen, -⟩ := issued_spec h
  have hwaits : ((updCore s1 c.val (Core.waiting · (nextPc s1 c.val 2))).core c.val).run ≠ .run := by
    rw [updCore, core_setCore_same s1 _ (by omega)]
    nofun
  exact congrArg Host.Outcome.next
    ((issue_of_body_ok h (by simp only [hirq]; rfl)).trans (retire_of_not_run (nextPc s1 c.val 2) 1 hwaits))

theorem exec_waitWake_of_not_accepted {s : State} {c : CoreId} (hrun : (s.core c.val).run = .wait)
    (hirq : irqPending s c.val = true) (hopen : irqOpen (s.core c.val) = false) (hlen : s.cores.length = 36)
    (hg : offGate c.val (s.core c.val).pc = true) :
    exec (.waitWake c) s = .next (s.setCore c.val (s.core c.val).woken) := by
  have hopen' : ¬ irqOpen ((updCore s c.val Core.woken).core c.val) = true := by
    rw [updCore, core_setCore_same s _ (by omega)]
    exact Bool.eq_false_iff.mp hopen
  refine congrArg Host.Outcome.next ((if_pos ⟨hrun, hirq⟩).trans ((if_neg hopen').trans (arrive_woken hlen hg)))

theorem exec_fence_of_ev_empty {s s1 x : State} {c : CoreId} (h : issued s c.val 2 = some s1)
    (hx : flushMerge s1 (fun e => e.owner == some c.val) = x) (hruns : coreRuns x c.val = true) (hev : (x.core c.val).ev = []) :
    exec (.fence c) s = .next (goneTo x c.val (x.core c.val) ((s1.core c.val).pc + 2#32) 1) := by
  obtain ⟨-, -, -, -, -, hg⟩ := issued_spec h
  exact congrArg Host.Outcome.next
    ((issue_of_body_ok h (by simp only [hx, hev]; rfl)).trans (retire_of_coreRuns (pc := nextPc s1 c.val 2) hruns hg))

theorem exec_fenceDone_of_ev_empty {s : State} {c : CoreId} (hrun : (s.core c.val).run = .fence)
    (hev : (s.core c.val).ev = []) (hmerge : s.merge = []) (hlen : s.cores.length = 36)
    (hg : offGate c.val (s.core c.val).pc = true) :
    exec (.fenceDone c) s = .next (s.setCore c.val (s.core c.val).woken) := by
  change execFenceDone c s = _
  rw [execFenceDone, if_pos ⟨hrun, by simp [hev]⟩, flushMerge_of_empty _ hmerge]
  exact congrArg Host.Outcome.next (arrive_woken hlen hg)

/-- Settles O21: calls and returns go through the words of the stack, traps and interrupts through the frame of their
exception, waits and fences through the state that runs or waits. -/
theorem callReturnAndExceptionComplete : Obligations.CallReturnAndExceptionComplete := by
  refine ⟨?_, ?_, ?_, ?_, ?_, ?_, ?_, ?_, ?_, ?_, ?_⟩
  · -- CALL
    exact fun s c rt mask s1 x h hm ht hsp hcheck hpush hg =>
      congrArg Host.Outcome.next (issue_callBody h hm ht hsp rfl hcheck hpush hg)
  · -- RET
    exact fun s c mask s1 x pc vs h hm hsp hpop hpc hg => congrArg Host.Outcome.next (issue_retBody h hm hsp hpop hpc hg)
  · -- RTE
    exact fun s c s1 x pc st h hdepth hsp hpop hpc hg => congrArg Host.Outcome.next (issue_rteBody h hdepth hsp hpop hpc hg)
  · -- TRAP
    exact fun s c n s1 x h hframe =>
      congrArg Host.Outcome.next ((issue_of_body_trap h rfl).trans (takeExc_of_framedAt hframe))
  · -- ILLEGAL_INSTRUCTION
    intro s c w s1 x hw h hframe
    change execIllegalInstruction c w s = _
    rw [execIllegalInstruction, if_pos hw]
    exact congrArg Host.Outcome.next ((issue_of_body_trap h rfl).trans (takeExc_of_framedAt hframe))
  · -- FETCH_FAULT
    exact fun s c p x hmay hgate hp hframe => exec_fetchFault_of_fetchTrap hmay hgate hp hframe
  · -- EXTERNAL_INTERRUPT
    intro s c x hrun hdue hframe
    change execExternalInterrupt c s = _
    rw [execExternalInterrupt, if_pos ⟨hrun, hdue⟩, takeIrq, takeExc_of_framedAt hframe]
  · -- WAIT
    exact fun s c s1 h hirq => exec_wait_of_not_pending h hirq
  · -- WAIT_WAKE
    exact fun s c hrun hirq hopen hlen hg => exec_waitWake_of_not_accepted hrun hirq hopen hlen hg
  · -- FENCE
    exact fun s c s1 x h hx hruns hev => exec_fence_of_ev_empty h hx hruns hev
  · -- FENCE_DONE
    exact fun s c hrun hev hmerge hlen hg => exec_fenceDone_of_ev_empty hrun hev hmerge hlen hg

/-! ### The divide-by-zero flag (R114) -/

/-- A division sets DZ or leaves it. -/
theorem stBit_divide_dz {sgn : Bool} {a b st : Word} (h : stBit st stDZ = true) :
    stBit (divide sgn a b st).2.2 stDZ = true := by
  have hkeep : ∀ (v : Bool) (q : Word), stBit (stResult (stPut st stV v) q) stDZ = true := by
    intro v q
    rw [stBit_stResult_ne _ _ (by decide) (by decide), stBit_stPut_ne _ _ (by decide), h]
  unfold divide
  split
  · rw [stBit_stResult_ne _ _ (by decide) (by decide), stBit_stPut_ne _ _ (by decide), stBit_stPut_same _ _ (by decide)]
  · split
    · exact hkeep _ _
    · split <;> exact hkeep _ _

/-- The handler finds every bit of ST but AM and IE as it was. -/
theorem stBit_handlerSt_ne (k : Core) {i : Nat} (ham : i ≠ stAM) (hie : i ≠ stIE) : stBit (handlerSt k) i = stBit k.st i := by
  rw [handlerSt, stBit_stPut_ne _ _ hie, stBit_stPut_ne _ _ ham]

/-- The bits that RTE takes from the saved ST alone. -/
theorem stBit_restoredSt_of_mem (old saved : Word) {i : Nat} (h : i ∈ [stZ, stN, stC, stV, stDZT, stIE, stAM]) :
    stBit (restoredSt old saved) i = stBit saved i := by
  have hmask : (0x33F#32).getLsbD i = true ∧ (0x10#32).getLsbD i = false := by
    revert i
    decide
  obtain ⟨hsaved, hold⟩ := hmask
  rw [stBit, restoredSt, BitVec.getLsbD_or, BitVec.getLsbD_and, BitVec.getLsbD_and, hsaved, hold, Bool.and_true,
    Bool.and_false, Bool.or_false, stBit]

/-- DZ after RTE is 1 if it was 1 or is 1 in the saved ST. -/
theorem stBit_restoredSt_dz (old saved : Word) :
    stBit (restoredSt old saved) stDZ = (stBit old stDZ || stBit saved stDZ) := by
  have hsaved : (0x33F#32).getLsbD stDZ = true := by decide
  have hold : (0x10#32).getLsbD stDZ = true := by decide
  rw [stBit, restoredSt, BitVec.getLsbD_or, BitVec.getLsbD_and, BitVec.getLsbD_and, hsaved, hold, Bool.and_true,
    Bool.and_true, Bool.or_comm, stBit, stBit]

theorem core_goneTo_same {s : State} {c : Nat} (k : Core) (pc : Word) (cost : Nat) (h : c < s.cores.length) :
    (goneTo s c k pc cost).core c = { k with pc := pc, cycle := k.cycle + cost } := core_setCore_same _ _ h

theorem st_entered {s x : State} {c : Nat} (t : Trap) (h : c < x.cores.length) :
    ((entered s x c t).core c).st = (x.core c).st := by
  rw [entered, core_setCore_same x _ h]
  rfl

/-- MTS to ST writes every bit that is not reserved (R87, R148). -/
theorem exec_mts_st {s s1 : State} {c : CoreId} {ra : Reg} (h : issued s c.val 4 = some s1) :
    exec (.mts c 0 ra) s =
      .next (goneTo s1 c.val (srSet (s1.core c.val) 0 (gpr (s1.core c.val) ra)) (nextPc s1 c.val 4) 3) := by
  obtain ⟨-, -, -, hrun, hlen, hg⟩ := issued_spec h
  have hruns : coreRuns s1 c.val = true := by simp [coreRuns, hrun, hlen]
  refine congrArg Host.Outcome.next
    ((issue_of_body_ok (x := updCore s1 c.val (fun k => srSet k 0 (gpr k ra))) h rfl).trans ?_)
  exact retire_updCore_of_coreRuns (f := fun k => srSet k 0 (gpr k ra)) (fun _ => rfl) hruns hg

/-- Settles O54: DZ is kept by each of the three, and MTS writes it. -/
theorem divideByZeroIsSticky : Obligations.DivideByZeroIsSticky := by
  refine ⟨fun sgn a b st h => stBit_divide_dz h, ?_, ?_, ?_⟩
  · -- exception entry
    intro s s1 c t ret hframe hst
    obtain ⟨-, -, -, -, hruns⟩ := framedAt_spec hframe
    obtain ⟨-, hlen⟩ := coreRuns_spec hruns
    rw [takeExc_of_framedAt hframe, st_entered t (by omega), hst, stBit_handlerSt_ne _ (by decide) (by decide)]
  · -- RTE
    intro s s1 x c pc st h hdepth hsp hpop hpc hg
    obtain ⟨-, hruns⟩ := poppedAt_spec hpop
    obtain ⟨-, hlen⟩ := coreRuns_spec hruns
    refine ⟨_, congrArg Host.Outcome.next (issue_rteBody h hdepth hsp hpop hpc hg), ?_, ?_⟩
    · rw [core_goneTo_same _ _ _ (by omega)]
      exact stBit_restoredSt_dz _ _
    · intro b hb
      rw [core_goneTo_same _ _ _ (by omega)]
      exact stBit_restoredSt_of_mem _ _ hb
  · -- MTS
    intro s s1 c ra h
    obtain ⟨-, -, -, -, hlen, -⟩ := issued_spec h
    refine ⟨_, exec_mts_st h, ?_⟩
    have hmask : (0x33F#32).getLsbD stDZ = true := by decide
    rw [core_goneTo_same _ _ _ (by omega)]
    change (gpr (s1.core c.val) ra &&& 0x33F#32).getLsbD stDZ = _
    rw [BitVec.getLsbD_and, hmask, Bool.and_true, stBit]

/-! ### The registers that count and report memory errors (R173, R376) -/

/-- The fields that an error met in memory can change. -/
def errorReports : List Fld :=
  [R.ECC_CECNT_COUNT, R.ECC_ISR_CE, R.ECC_LASTCE_VALID, R.ECC_LASTCE_MACRO, R.ECC_LASTCE_WORD,
   R.ECC_UECNT_COUNT, R.ECC_ISR_UE, R.ECC_LASTUE_VALID, R.ECC_LASTUE_MACRO, R.ECC_LASTUE_WORD,
   R.DRAM_CECNT_COUNT, R.DRAM_ISR_CE, R.DRAM_UECNT_COUNT, R.DRAM_ISR_UE, R.DRAM_ISR_POISON,
   R.DRAM_LASTERR_VALID, R.DRAM_LASTERR_CH, R.DRAM_LASTERR_KIND, R.DRAM_LASTADDR_ADDR]

/-- Is a field none of the error reports? -/
def Fld.reportsNothing (f : Fld) : Prop := ∀ g ∈ errorReports, f.key ≠ g.key

/-- Two states that agree on every register field but the error reports. -/
def SameRegs (s t : State) : Prop := ∀ f : Fld, f.reportsNothing → t.fld f = s.fld f

theorem SameRegs.refl (s : State) : SameRegs s s := fun _ _ => rfl

theorem SameRegs.trans {s t u : State} (h : SameRegs s t) (k : SameRegs t u) : SameRegs s u :=
  fun f hf => (k f hf).trans (h f hf)

/-- A field outside the windows of ECC and DRAM is no error report. -/
theorem reportsNothing_of_window {f : Fld} (hlo : f.lo < 32) (hecc : windowBlock f.off ≠ some .ecc)
    (hdram : windowBlock f.off ≠ some .dram) : f.reportsNothing := by
  have hwin : ∀ g ∈ errorReports, g.lo < 32 ∧ (windowBlock g.off = some .ecc ∨ windowBlock g.off = some .dram) := by
    decide +kernel
  intro g hg hkey
  obtain ⟨hglo, hblock⟩ := hwin g hg
  have hoff : f.off = g.off := by
    simp only [Fld.key] at hkey
    omega
  rw [← hoff] at hblock
  exact hblock.elim hecc hdram

theorem usable_reportsNothing : R.DRAM_USABLE_MIB.reportsNothing := by
  unfold Fld.reportsNothing
  decide

/-! ### What errors change

An error met in memory shows in the error reports and in the mark of its DRAM line, and nowhere else. -/

/-- Two states that agree on all but the error reports and the marks of DRAM lines. -/
structure OnlyErrors (s t : State) : Prop where
  regs : SameRegs s t
  rest : t = { s with regs := t.regs, dramBad := t.dramBad }

theorem OnlyErrors.refl (s : State) : OnlyErrors s s := ⟨SameRegs.refl s, rfl⟩

theorem OnlyErrors.trans {s t u : State} (h : OnlyErrors s t) (k : OnlyErrors t u) : OnlyErrors s u :=
  ⟨h.regs.trans k.regs,
    k.rest.trans (congrArg (fun x => { x with regs := u.regs, dramBad := u.dramBad }) h.rest)⟩

section
variable {s t : State} (h : OnlyErrors s t)
include h

theorem OnlyErrors.mem : t.mem = s.mem := by rw [h.rest]
theorem OnlyErrors.merge : t.merge = s.merge := by rw [h.rest]
theorem OnlyErrors.ecc : t.ecc = s.ecc := by rw [h.rest]
theorem OnlyErrors.cores : t.cores = s.cores := by rw [h.rest]

theorem OnlyErrors.core (c : Nat) : t.core c = s.core c := by rw [State.core, State.core, h.cores]

theorem OnlyErrors.setFld {g : Fld} (v : Nat) (hg : g ∈ errorReports) : OnlyErrors s (t.setFld g v) :=
  h.trans ⟨fun _ hf => fld_setFld_ne t v (hf g hg), rfl⟩

theorem OnlyErrors.setDramMark (a v : Nat) : OnlyErrors s (setDramMark t a v) :=
  h.trans ⟨SameRegs.refl t, rfl⟩

theorem OnlyErrors.setFlds {l : List (Fld × Nat)} (hl : ∀ e ∈ l, e.1 ∈ errorReports) : OnlyErrors s (t.setFlds l) := by
  induction l generalizing t with
  | nil => exact h
  | cons e l ih =>
    exact ih (h.setFld e.2 (hl e List.mem_cons_self)) (fun x hx => hl x (List.mem_cons_of_mem _ hx))

theorem OnlyErrors.capture {v : Fld} {l : List (Fld × Nat)} (hv : v ∈ errorReports) (hl : ∀ e ∈ l, e.1 ∈ errorReports) :
    OnlyErrors s (t.capture v l) := by
  unfold State.capture
  split
  · exact h
  · exact (h.setFlds hl).setFld 1 hv

theorem OnlyErrors.countCe (k : Nat) : OnlyErrors s (countCe t k) :=
  ((h.setFld _ (by decide)).setFld _ (by decide)).capture (by decide) (by simp [errorReports])

theorem OnlyErrors.countUe (k : Nat) : OnlyErrors s (countUe t k) :=
  ((h.setFld _ (by decide)).setFld _ (by decide)).capture (by decide) (by simp [errorReports])

theorem OnlyErrors.countDram (a kind : Nat) : OnlyErrors s (countDram t a kind) := by
  refine OnlyErrors.capture ?_ (by decide) (by simp [errorReports])
  split
  · exact (h.setFld _ (by decide)).setFld _ (by decide)
  · exact (h.setFld _ (by decide)).setFld _ (by decide)

theorem OnlyErrors.noteWord (a : Nat) : OnlyErrors s (noteWord t a).1 := by
  unfold Machine.noteWord
  split
  · split
    · exact h
    · exact h.countCe _
    · exact h.countUe _
  · split
    · split
      · exact h
      · exact h.countDram _ _
      · exact h.countDram _ _
    · exact h

theorem OnlyErrors.noteWords (w n : Nat) : OnlyErrors s (noteWords t w n).1 := by
  induction n generalizing t w with
  | zero => exact h
  | succ n ih => exact ih (h.noteWord _) _

theorem OnlyErrors.readRam (a n : Nat) : OnlyErrors s (readRam t a n).2.1 := by
  unfold Machine.readRam
  dsimp only
  split
  · exact h
  · exact h.noteWords _ _

theorem OnlyErrors.dramMarks (a n k : Nat) : OnlyErrors s (dramMarks t a n k) := by
  induction k with
  | zero => exact h
  | succ k ih =>
    unfold Machine.dramMarks
    dsimp only
    split
    · exact ih
    · split
      · exact ih.setDramMark _ _
      · exact (ih.countDram _ _).setDramMark _ _
    · split
      · exact ih.setDramMark _ _
      · exact ((ih.countDram _ _).setDramMark _ _).setFld _ (by decide)

end

/-! ### The address map and the bytes read (R49, R50, R173) -/

theorem dramEnd_of_sameRegs {s t : State} (h : SameRegs s t) : dramEnd t = dramEnd s := by
  rw [dramEnd, dramEnd, h _ usable_reportsNothing]

theorem lt_dramEnd_of_dram {s : State} {a : Nat} (h : targetOf s a = .dram) : a < dramEnd s := by
  by_contra hge
  revert h
  unfold targetOf
  rw [if_neg hge]
  dsimp only
  repeat' split
  all_goals nofun

theorem targetOf_of_lt_dramEnd {s : State} {a : Nat} (h : a < dramEnd s) :
    targetOf s a = .dram ∨ targetOf s a = .hole := by
  unfold targetOf
  rw [if_pos h]
  split
  · exact .inl rfl
  · exact .inr rfl

/-- DRAM has no ECC word of an SRAM. -/
theorem eccKey_of_lt_dramEnd {s : State} {a : Nat} (h : a < dramEnd s) : eccKey s a = none := by
  unfold eccKey
  rcases targetOf_of_lt_dramEnd h with ht | ht <;> rw [ht]

theorem synAt_of_lt_dramEnd {s : State} {a : Nat} (h : a < dramEnd s) : synAt s a = 0 := by
  rw [synAt, eccKey_of_lt_dramEnd h]

/-- The ECC word of an address depends on the end of DRAM alone. -/
theorem eccKey_of_dramEnd_eq {s t : State} (h : dramEnd t = dramEnd s) (a : Nat) : eccKey t a = eccKey s a := by
  by_cases ha : a < dramEnd s
  · rw [eccKey_of_lt_dramEnd ha, eccKey_of_lt_dramEnd (h ▸ ha)]
  · have htarget : targetOf t a = targetOf s a := by
      unfold targetOf
      rw [h, if_neg ha, if_neg ha]
    unfold eccKey
    rw [htarget]

/-- The byte a read returns depends on the end of DRAM, the merge buffers, the check bits and the word's stored bytes. -/
theorem memByte_congr {s t : State} {a : Nat} (hend : dramEnd t = dramEnd s) (hmerge : t.merge = s.merge)
    (hecc : t.ecc = s.ecc) (hbyte : t.rawByte a = s.rawByte a)
    (hword : dramEnd s ≤ a → t.rawWord a = s.rawWord a) : t.memByte a = s.memByte a := by
  have hsyn : synAt t a = synAt s a := by
    rw [synAt, synAt, eccKey_of_dramEnd_eq hend, hecc]
  unfold State.memByte
  rw [hmerge, hsyn, hbyte]
  by_cases ha : a < dramEnd s
  · rw [synAt_of_lt_dramEnd ha]
    rfl
  · rw [hword (not_lt.mp ha)]

/-- Where memory, merge buffers, check bits and all but the error reports are the same, every byte reads the same. -/
theorem memByte_of_same {s t : State} (hregs : SameRegs s t) (hmem : t.mem = s.mem) (hmerge : t.merge = s.merge)
    (hecc : t.ecc = s.ecc) (a : Nat) : t.memByte a = s.memByte a := by
  refine memByte_congr (dramEnd_of_sameRegs hregs) hmerge hecc ?_ (fun _ => ?_)
  · rw [State.rawByte, State.rawByte, hmem]
  · rw [State.rawWord, State.rawWord, hmem]

/-- DRAM that no pending narrow write covers reads as stored. -/
theorem memByte_of_dram {s : State} {a : Nat} (ha : a < dramEnd s)
    (hmerge : ∀ e ∈ s.merge, e.word * 8 + 8 ≤ a ∨ a < e.word * 8) : s.memByte a = s.rawByte a := by
  have hfind : s.merge.find? (fun e => e.word == a / 8 && e.mask.testBit (a % 8)) = none := by
    refine List.find?_eq_none.mpr fun e he hcover => ?_
    rw [Bool.and_eq_true, beq_iff_eq] at hcover
    obtain ⟨hword, -⟩ := hcover
    have hout := hmerge e he
    omega
  unfold State.memByte
  rw [hfind, synAt_of_lt_dramEnd ha]
  rfl

/-! ### A store into DRAM (R91, R93, R375) -/

theorem memBytes_eq_of_memByte {s : State} {a : Nat} {bs : List Byte}
    (h : ∀ i, (hi : i < bs.length) → s.memByte (a + i) = bs[i]) : s.memBytes a bs.length = bs := by
  induction bs generalizing a with
  | nil => rfl
  | cons b bs ih =>
    have hhead : s.memByte a = b := h 0 (Nat.zero_lt_succ _)
    have htail : s.memBytes (a + 1) bs.length = bs := by
      refine ih fun i hi => ?_
      rw [Nat.add_assoc, Nat.add_comm 1 i]
      exact h (i + 1) (Nat.succ_lt_succ hi)
    rw [List.length_cons, State.memBytes, hhead, htail]

theorem tblRange_congr {α : Type} {d : α} {t u : List (Nat × α)} {n : Nat} (len : Nat)
    (h : ∀ i, tblGet d t (n + i) = tblGet d u (n + i)) : tblRange d t n len = tblRange d u n len := by
  induction len generalizing n with
  | zero => rfl
  | succ len ih =>
    have htail : tblRange d t (n + 1) len = tblRange d u (n + 1) len := by
      refine ih fun i => ?_
      rw [Nat.add_assoc]
      exact h (1 + i)
    rw [tblRange, tblRange, htail]
    exact congrArg (· :: _) (h 0)

theorem leBytes_length (n v : Nat) : (leBytes n v).length = n := by
  induction n generalizing v with
  | zero => rfl
  | succ n ih => rw [leBytes, List.length_cons, ih]

theorem OnlyErrors.memByte {s t : State} (h : OnlyErrors s t) (a : Nat) : t.memByte a = s.memByte a :=
  memByte_of_same h.regs h.mem h.merge h.ecc a

theorem OnlyErrors.memBytes {s t : State} (h : OnlyErrors s t) (a n : Nat) : t.memBytes a n = s.memBytes a n := by
  induction n generalizing a with
  | zero => rfl
  | succ n ih => rw [State.memBytes, State.memBytes, h.memByte, ih]

/-- A write of DRAM stores its bytes; beside them it changes error marks and reports alone. -/
theorem onlyErrors_writeRam_dram {s : State} {a : Nat} (bs : List Byte) (owner : Option Nat) (ht : targetOf s a = .dram) :
    OnlyErrors (s.putBytes a bs) (writeRam s a bs owner) := by
  unfold writeRam
  rw [ht]
  dsimp only
  split
  · exact OnlyErrors.refl _
  · exact (OnlyErrors.refl _).dramMarks _ _ _

/-- Bytes stored in DRAM that no pending narrow write covers read as stored. -/
theorem memBytes_putBytes_dram {s : State} {a : Nat} {bs : List Byte} (hmem : Memory.wf s.mem = true)
    (hend : a + bs.length ≤ dramEnd s) (hmerge : ∀ e ∈ s.merge, e.word * 8 + 8 ≤ a ∨ a + bs.length ≤ e.word * 8) :
    (s.putBytes a bs).memBytes a bs.length = bs := by
  have hbyte : ∀ i, (hi : i < bs.length) → (s.putBytes a bs).memByte (a + i) = bs[i] := by
    intro i hi
    have hdram : a + i < dramEnd (s.putBytes a bs) := by
      change a + i < dramEnd s
      omega
    rw [memByte_of_dram hdram (fun e he => by have := hmerge e he; omega), rawByte_putBytes_in s a bs hi hmem]
  exact memBytes_eq_of_memByte hbyte

/-- A byte outside bytes stored in DRAM reads as before. -/
theorem memByte_putBytes_dram_out {s : State} {a b : Nat} {bs : List Byte} (hend : a + bs.length ≤ dramEnd s)
    (hb : b < a ∨ a + bs.length ≤ b) : (s.putBytes a bs).memByte b = s.memByte b := by
  refine memByte_congr rfl rfl rfl (rawByte_putBytes_out s a bs hb) (fun hge => ?_)
  have h8 : dramEnd s % 8 = 0 := by
    rw [dramEnd]
    omega
  have hout : ∀ i, (s.putBytes a bs).rawByte (b / 8 * 8 + i) = s.rawByte (b / 8 * 8 + i) :=
    fun i => rawByte_putBytes_out s a bs (by omega)
  exact congrArg leNat (tblRange_congr 8 hout)

/-! ### The alignment of what an address reaches (Tables 1.10 and 3.5) -/

theorem tileMap_mod_four {s : State} {t a g : Nat} (h : tileMap s t a = some g) : g % 4 = a % 4 := by
  unfold tileMap at h
  split at h
  · -- local memory
    obtain rfl := Option.some.inj h
    rw [tileLocalAddr, tileWinBase, tileWinSize]
    omega
  split at h
  · -- the tile's registers
    obtain rfl := Option.some.inj h
    rw [regBase, blockWindow]
    omega
  split at h
  · -- the DRAM window
    dsimp only at h
    split at h
    · obtain rfl := Option.some.inj h
      omega
    · cases h
  · cases h

theorem houseMap_mod_four {s : State} {a g : Nat} (h : houseMap s a = some g) : g % 4 = a % 4 := by
  unfold houseMap at h
  split at h
  · -- house memory
    obtain rfl := Option.some.inj h
    rw [houseBase]
    omega
  split at h
  · -- the boot ROM
    obtain rfl := Option.some.inj h
    rw [romBase]
    omega
  split at h
  · -- the code store
    obtain rfl := Option.some.inj h
    rw [codeBase]
    omega
  split at h
  · -- register space
    obtain rfl := Option.some.inj h
    rw [regBase]
    omega
  split at h
  · -- a window
    dsimp only at h
    split at h
    · obtain rfl := Option.some.inj h
      omega
    · cases h
  · cases h

/-- The maps of tile cores and house cores move an address by whole words. -/
theorem coreMap_mod_four {s : State} {c a g : Nat} (h : coreMap s c a = some g) : g % 4 = a % 4 := by
  unfold coreMap at h
  split at h
  · exact tileMap_mod_four h
  · exact houseMap_mod_four h

/-- The address that an access reaches is the one its map gives. -/
theorem locatedAt_spec {s : State} {c : Nat} {kind : AccKind} {a : Word} {n g : Nat} {io : Bool}
    (h : locatedAt s c kind a n = some (g, io)) :
    coreLocate s c kind a n = .ok (g, io) ∧ coreMap s c a.toNat = some g := by
  unfold locatedAt at h
  split at h
  · next p hloc =>
    obtain rfl := Option.some.inj h
    refine ⟨hloc, ?_⟩
    unfold coreLocate at hloc
    split at hloc
    · cases hloc
    split at hloc
    · cases hloc
    next g' hmap =>
    rw [hmap]
    repeat' split at hloc
    all_goals cases hloc
    all_goals rfl
  · cases h

/-- A store that raises nothing was aligned (R91). -/
theorem aligned_of_coreStore_ok {s x : State} {c : Nat} {kind : AccKind} {a : Word} {n v : Nat}
    (h : coreStore s c kind a n v = .ok () x) : a.toNat % n = 0 := by
  by_contra hmis
  rw [coreStore, if_pos hmis] at h
  cases h

/-- With its eviction buffer empty a core holds nothing back. -/
theorem settleEv_of_ev_empty {s : State} {c : Nat} (g : Nat) (h : (s.core c).ev = []) : settleEv s c g = s := by
  simp [settleEv, h]

/-- A store past the cache into DRAM, with nothing held back for its line and no slot of another owner in its way, is a
write of DRAM (R91, R93). -/
theorem coreStore_dram {s : State} {c : Nat} {kind : AccKind} {a : Word} {n v g : Nat} {io : Bool}
    (hal : a.toNat % n = 0) (hloc : coreLocate s c kind a n = .ok (g, io)) (hserve : dcServes s c io = false)
    (hev : (s.core c).ev = []) (ht : targetOf s g = .dram) (hhw : hwAllows s g n tagLocal = true) :
    coreStore s c kind a n v = .ok () (writeRam s g (leBytes n v) (some c)) := by
  have hctx : boundCtx s g = false := by rw [boundCtx, ht]
  rw [← leBytes_length n v] at hhw
  simp only [coreStore, hal, hloc, ht, hserve, settleEv_of_ev_empty g hev, coreWrite, hctx, writeMem, hhw, ne_eq, not_true_eq_false,
    Bool.false_eq_true, if_false, if_true]

/-- Settles O60: the store is a write of DRAM, whose bytes lie below the end of DRAM because the address is aligned. -/
theorem storeReachesItsBytesAlone : Obligations.StoreReachesItsBytesAlone := by
  intro s s1 c kind a n v g io hstored hn hlocated hserve hev hmem ht hhw hmerge
  obtain ⟨hok, -⟩ := storedAt_spec hstored
  obtain ⟨hloc, hmap⟩ := locatedAt_spec hlocated
  have hal := aligned_of_coreStore_ok hok
  rw [coreStore_dram hal hloc hserve hev ht hhw] at hok
  obtain rfl : writeRam s g (leBytes n v) (some c) = s1 := by
    injection hok
  have hlen := leBytes_length n v
  have hend : g + (leBytes n v).length ≤ dramEnd s := by
    have hlt := lt_dramEnd_of_dram ht
    have hmod := coreMap_mod_four hmap
    rw [hlen]
    rw [dramEnd] at hlt ⊢
    rcases hn with rfl | rfl | rfl <;> omega
  have honly := onlyErrors_writeRam_dram (leBytes n v) (some c) ht
  refine ⟨?_, fun b hb => ?_, honly.cores⟩
  · have hbytes := memBytes_putBytes_dram hmem hend (by rwa [hlen])
    rw [hlen] at hbytes
    rw [honly.memBytes, hbytes]
  · rw [honly.memByte, memByte_putBytes_dram_out hend (by rwa [hlen])]

/-! ### What a fetch changes (R123, R138)

With its eviction buffer empty, a core that fetches changes its instruction cache, and errors met in memory are reported;
nothing else changes. -/

theorem core_setCore_ne (s : State) {c d : Nat} (k : Core) (h : d ≠ c) : (s.setCore c k).core d = s.core d := by
  simp [State.core, State.setCore, List.getD, List.getElem?_set_ne h.symm]

/-- A write of a core's instruction cache leaves the rest of the core; a core that does not exist stays absent. -/
theorem core_setCore_ic (s : State) (c : Nat) (i : Cache) :
    ∃ j, (s.setCore c { s.core c with ic := i }).core c = { s.core c with ic := j } := by
  by_cases hc : c < s.cores.length
  · exact ⟨i, core_setCore_same s _ hc⟩
  · have hno : s.setCore c { s.core c with ic := i } = s := by
      rw [State.setCore, List.set_eq_of_length_le (not_lt.mp hc)]
    rw [hno]
    exact ⟨(s.core c).ic, rfl⟩

/-- What a fetch by core `c` keeps of a state. -/
structure FetchKeeps (c : Nat) (s t : State) : Prop where
  regs : SameRegs s t
  mem : t.mem = s.mem
  merge : t.merge = s.merge
  ecc : t.ecc = s.ecc
  others : ∀ d, d ≠ c → t.core d = s.core d
  core : ∃ i, t.core c = { s.core c with ic := i }

theorem FetchKeeps.refl (c : Nat) (s : State) : FetchKeeps c s s :=
  ⟨SameRegs.refl s, rfl, rfl, rfl, fun _ _ => rfl, (s.core c).ic, rfl⟩

section
variable {c : Nat} {s t : State} (h : FetchKeeps c s t)
include h

theorem FetchKeeps.trans {u : State} (k : FetchKeeps c t u) : FetchKeeps c s u := by
  obtain ⟨i, hi⟩ := h.core
  obtain ⟨j, hj⟩ := k.core
  exact ⟨h.regs.trans k.regs, k.mem.trans h.mem, k.merge.trans h.merge, k.ecc.trans h.ecc,
    fun d hd => (k.others d hd).trans (h.others d hd), j, by rw [hj, hi]⟩

theorem FetchKeeps.errors {u : State} (k : OnlyErrors t u) : FetchKeeps c s u :=
  h.trans ⟨k.regs, k.mem, k.merge, k.ecc, fun d _ => k.core d, (t.core c).ic, k.core c⟩

theorem FetchKeeps.setIc (i : Cache) : FetchKeeps c s (t.setCore c { t.core c with ic := i }) :=
  h.trans ⟨SameRegs.refl t, rfl, rfl, rfl, fun _ hd => core_setCore_ne t _ hd, core_setCore_ic t c i⟩

theorem FetchKeeps.ev : (t.core c).ev = (s.core c).ev := by
  obtain ⟨i, hi⟩ := h.core
  rw [hi]

theorem FetchKeeps.memByte (a : Nat) : t.memByte a = s.memByte a :=
  memByte_of_same h.regs h.mem h.merge h.ecc a

end

theorem onlyErrors_fillMarks (s : State) (g : Nat) : OnlyErrors s (fillMarks s g).1 := by
  unfold fillMarks
  split
  · exact (OnlyErrors.refl s).noteWord g
  · exact List.foldlRecOn (motive := fun (p : State × List (Nat × Nat)) => OnlyErrors s p.1) _ _ (OnlyErrors.refl s)
      (fun p hp i _ => hp.noteWord (g + 8 * i))

theorem fetchKeeps_icMiss (s : State) (c g : Nat) : FetchKeeps c s (icMiss s c g).2 := by
  unfold icMiss
  dsimp only
  split
  · exact ((FetchKeeps.refl c s).setIc _).setIc _
  · have hmarks := (FetchKeeps.refl c s).errors (onlyErrors_fillMarks s (lineOf g))
    split
    · exact hmarks
    · exact (hmarks.setIc _).setIc _

theorem fetchKeeps_icLine (s : State) (c g : Nat) : FetchKeeps c s (icLine s c g).2 := by
  unfold icLine
  split
  · split
    · exact FetchKeeps.refl c s
    · exact ((FetchKeeps.refl c s).setIc _).trans (fetchKeeps_icMiss _ c g)
  · exact fetchKeeps_icMiss s c g

theorem fetchKeeps_icLoad (s : State) (c g : Nat) : FetchKeeps c s (icLoad s c g).2 := by
  have hline := fetchKeeps_icLine s c g
  unfold icLoad
  split
  · next heq =>
    rw [heq] at hline
    exact hline
  · next heq =>
    rw [heq] at hline
    split
    · exact hline.setIc _
    · exact hline

/-- A load past the cache from anything but the code store reports errors alone. -/
theorem onlyErrors_rawLoad {s : State} {c g : Nat} (n : Nat) (hev : (s.core c).ev = [])
    (hcode : ∀ o, targetOf s g ≠ .code o) : OnlyErrors s (rawLoad s c g n).2 := by
  have hread := (OnlyErrors.refl s).readRam g n
  unfold rawLoad
  rw [settleEv_of_ev_empty g hev]
  dsimp only
  split
  · next o ho => exact absurd ho (hcode o)
  · exact OnlyErrors.refl s
  · split
    · next heq =>
      rw [heq] at hread
      exact hread
    · next heq =>
      rw [heq] at hread
      exact hread

theorem onlyErrors_rawFetch {s : State} {c : Nat} (g : Nat) (hev : (s.core c).ev = []) :
    OnlyErrors s (rawFetch s c g).2 := by
  unfold rawFetch
  rw [settleEv_of_ev_empty g hev]
  dsimp only
  split
  · exact OnlyErrors.refl s
  · next hcode => exact onlyErrors_rawLoad 2 hev hcode

theorem fetchKeeps_of_coreFetch {s t : State} {c h : Nat} {a : Word} (hev : (s.core c).ev = [])
    (hfetch : coreFetch s c a = .ok h t) : FetchKeeps c s t := by
  unfold coreFetch at hfetch
  split at hfetch
  · cases hfetch
  next g io _ =>
  have hread : FetchKeeps c s (if s.flag (ccIcEn c) && !io then icLoad s c g else rawFetch s c g).2 := by
    split
    · exact fetchKeeps_icLoad s c g
    · exact (FetchKeeps.refl c s).errors (onlyErrors_rawFetch g hev)
  dsimp only at hfetch
  split at hfetch
  · cases hfetch
  split at hfetch
  · next heq =>
    rw [heq] at hread
    cases hfetch
    exact hread
  · cases hfetch

/-- The fetch of a whole instruction is the fetch of one halfword, or of two. -/
theorem fetchInstr_ok {s t : State} {c width : Nat} (h : fetchInstr s c width = .ok () t) :
    ∃ v s1, coreFetch s c (s.core c).pc = .ok v s1 ∧ (t = s1 ∨ ∃ u, coreFetch s1 c ((s.core c).pc + 2) = .ok u t) := by
  unfold fetchInstr at h
  dsimp only at h
  cases hfirst : coreFetch s c (s.core c).pc with
  | trap p s1 =>
    rw [hfirst] at h
    cases h
  | ok v s1 =>
    rw [hfirst] at h
    refine ⟨v, s1, rfl, ?_⟩
    simp only [CoreAcc.andThen] at h
    split at h
    · split at h
      · next heq =>
        cases h
        exact .inr ⟨_, heq⟩
      · cases h
    · cases h
      exact .inl rfl

theorem fetchKeeps_of_issued {s s1 : State} {c width : Nat} (hev : (s.core c).ev = [])
    (h : issued s c width = some s1) : FetchKeeps c s s1 := by
  obtain ⟨-, -, hfetch, -⟩ := issued_spec h
  obtain ⟨v, t, hfirst, hsecond⟩ := fetchInstr_ok hfetch
  have hkeep := fetchKeeps_of_coreFetch hev hfirst
  obtain rfl | ⟨u, hu⟩ := hsecond
  · exact hkeep
  · exact hkeep.trans (fetchKeeps_of_coreFetch (hkeep.ev.trans hev) hu)

/-! ### The flags an operation writes (Table 4.4a) -/

/-- An operation that writes no bit of ST but those that a mask names. -/
def FlagsWithin (m : Nat) (op : Word → Word × Word) : Prop :=
  ∀ st i, m.testBit i = false → stBit (op st).2 i = stBit st i

/-- Outside Z, N, C and V (mask 15) the four flags leave ST. -/
theorem stBit_stFlags_of_mask (st r : Word) (c v : Bool) {i : Nat} (hi : Nat.testBit 15 i = false) :
    stBit (stFlags st r c v) i = stBit st i := by
  have hlow : ∀ j < 4, Nat.testBit 15 j = true := by decide
  refine stBit_stFlags_of_ge _ _ _ _ (not_lt.mp fun hlt => ?_)
  rw [hlow i hlt] at hi
  cases hi

/-- Outside Z and N (mask 3) a result leaves ST. -/
theorem stBit_stResult_of_mask (st r : Word) {i : Nat} (hi : Nat.testBit 3 i = false) :
    stBit (stResult st r) i = stBit st i :=
  stBit_stResult_ne _ _ (by rintro rfl; exact absurd hi (by decide)) (by rintro rfl; exact absurd hi (by decide))

/-- Outside Z, N and C (mask 7) a shift leaves ST. -/
theorem stBit_shiftFlags_of_mask (st r : Word) (c : Option Bool) {i : Nat} (hi : Nat.testBit 7 i = false) :
    stBit (shiftFlags st r c) i = stBit st i := by
  have hresult : stBit (stResult st r) i = stBit st i :=
    stBit_stResult_ne _ _ (by rintro rfl; exact absurd hi (by decide)) (by rintro rfl; exact absurd hi (by decide))
  cases c with
  | none => exact hresult
  | some b => rw [shiftFlags, stBit_stPut_ne _ _ (by rintro rfl; exact absurd hi (by decide)), hresult]

theorem flagsWithin_addWith (a b : Word) (c : Word → Bool) : FlagsWithin 15 (fun st => addWith a b (c st) st) :=
  fun _ _ hi => stBit_stFlags_of_mask _ _ _ _ hi

theorem flagsWithin_subWith (a b : Word) (c : Word → Bool) : FlagsWithin 15 (fun st => subWith a b (c st) st) :=
  fun _ _ hi => stBit_stFlags_of_mask _ _ _ _ hi

theorem flagsWithin_zn (r : Word) : FlagsWithin 3 (zn r) := fun _ _ hi => stBit_stResult_of_mask _ _ hi

theorem flagsWithin_shift (r : Word) (c : Option Bool) : FlagsWithin 7 (fun st => (r, shiftFlags st r c)) :=
  fun _ _ hi => stBit_shiftFlags_of_mask _ _ _ hi

/-! ### Instructions of registers alone -/

/-- The state `t` is one in which an issued instruction of `w` bytes completed, in one cycle, after writing register `rd` and,
of ST, the bits that the mask `m` names alone. -/
def WritesRegister (s1 : State) (c : CoreId) (rd : Reg) (w m : Nat) (t : State) : Prop :=
  ∃ st v : Word, (∀ i, m.testBit i = false → stBit st i = stBit (s1.core c.val).st i) ∧
    t = completed s1 c.val (setGpr { s1.core c.val with st := st } rd v) w 1

section
variable {s s1 : State} {c : CoreId} {rd : Reg} {w m : Nat}

/-- An instruction that writes a result and its flags. -/
theorem writesRegister_putResult (op : Core → Word → Word × Word) (hop : ∀ k, FlagsWithin m (op k))
    (h : issued s c.val w = some s1) :
    WritesRegister s1 c rd w m (issueCore s c.val w 1 (fun k => putResult k rd (op k k.st))) :=
  ⟨_, _, fun i hi => hop (s1.core c.val) _ i hi, issueCore_of_issued 1 _ c.isLt (fun _ => rfl) h⟩

/-- An instruction that writes a register and no flag. -/
theorem writesRegister_setGpr (v : Core → Word) (h : issued s c.val w = some s1) :
    WritesRegister s1 c rd w m (issueCore s c.val w 1 (fun k => setGpr k rd (v k))) :=
  ⟨(s1.core c.val).st, _, fun _ _ => rfl, issueCore_of_issued 1 _ c.isLt (fun _ => rfl) h⟩

theorem writesRegister_alu2 {f : AluForm} {op : Word → Word → Word → Word × Word} (hop : ∀ a b, FlagsWithin m (op a b))
    (h : issued s c.val (aluTarget f).2 = some s1) :
    WritesRegister s1 c (aluTarget f).1 (aluTarget f).2 m (alu2 s c.val f op) := by
  cases f with
  | short rd rb => exact writesRegister_putResult (fun k => op (gpr k rd) (gpr k rb)) (fun _ => hop _ _) h
  | wide rd ra rb => exact writesRegister_putResult (fun k => op (gpr k ra) (gpr k rb)) (fun _ => hop _ _) h

theorem writesRegister_shift {f : ShiftForm} {op : Word → Nat → Word → Word × Word} (hop : ∀ a n, FlagsWithin m (op a n))
    (h : issued s c.val (shiftTarget f).2 = some s1) :
    WritesRegister s1 c (shiftTarget f).1 (shiftTarget f).2 m (shift s c.val f op) := by
  cases f with
  | short rd rb => exact writesRegister_putResult (fun k => op (gpr k rd) ((gpr k rb).toNat % 64)) (fun _ => hop _ _) h
  | imm5 rd n => exact writesRegister_putResult (fun k => op (gpr k rd) n.val) (fun _ => hop _ _) h
  | wide rd ra rb => exact writesRegister_putResult (fun k => op (gpr k ra) ((gpr k rb).toNat % 64)) (fun _ => hop _ _) h
  | imm6 rd ra n => exact writesRegister_putResult (fun k => op (gpr k ra) n.val) (fun _ => hop _ _) h

theorem writesRegister_alu1 {rb : Reg} {op : Word → Word → Word × Word} (hop : ∀ b, FlagsWithin m (op b))
    (h : issued s c.val 2 = some s1) : WritesRegister s1 c rd 2 m (alu1 s c.val rd rb op) :=
  writesRegister_putResult (fun k => op (gpr k rb)) (fun _ => hop _) h

theorem writesRegister_logicImm {ra : Reg} {imm : BitVec 16} {op : Word → Word → Word → Word × Word}
    (hop : ∀ a b, FlagsWithin m (op a b)) (h : issued s c.val 4 = some s1) :
    WritesRegister s1 c rd 4 m (logicImm s c.val rd ra imm op) :=
  writesRegister_putResult (fun k => op (gpr k ra) (zext imm)) (fun _ => hop _ _) h

theorem writesRegister_move1 {rb : Reg} {op : Word → Word} (h : issued s c.val 2 = some s1) :
    WritesRegister s1 c rd 2 m (move1 s c.val rd rb op) :=
  writesRegister_setGpr (fun k => op (gpr k rb)) h

theorem writesRegister_addi {f : AddiForm} (h : issued s c.val (addiTarget f).2 = some s1) :
    WritesRegister s1 c (addiTarget f).1 (addiTarget f).2 15 (issueCore s c.val (addiForm (s.core c.val) f).2.2.2 1
      (fun k => putResult k (addiForm k f).1 (aluAdd (addiForm k f).2.1 (addiForm k f).2.2.1 k.st))) := by
  have hop : ∀ a b, FlagsWithin 15 (aluAdd a b) := fun a b => flagsWithin_addWith a b (fun _ => false)
  cases f with
  | short rd imm => exact writesRegister_putResult (fun k => aluAdd (gpr k rd) (sext imm)) (fun _ => hop _ _) h
  | wide rd ra imm => exact writesRegister_putResult (fun k => aluAdd (gpr k ra) (sext imm)) (fun _ => hop _ _) h

theorem writesRegister_movi {f : MoviForm} (h : issued s c.val (moviTarget f).2 = some s1) :
    WritesRegister s1 c (moviTarget f).1 (moviTarget f).2 0
      (issueCore s c.val (moviForm f).2.2 1 (fun k => setGpr k (moviForm f).1 (moviForm f).2.1)) := by
  cases f with
  | short rd imm => exact writesRegister_setGpr (fun _ => sext imm) h
  | wide rd imm => exact writesRegister_setGpr (fun _ => sext imm) h

end

/-- Every instruction of `regOnly` writes its register and its flags alone. -/
theorem exec_regOnly {i : Instr} {c : CoreId} {rd : Reg} {w m : Nat} {s s1 : State} (hi : regOnly i = some (c, rd, w, m))
    (h : issued s c.val w = some s1) : ∃ t, exec i s = .next t ∧ WritesRegister s1 c rd w m t := by
  unfold regOnly at hi
  split at hi
  all_goals cases hi
  all_goals refine ⟨_, rfl, ?_⟩
  · -- ADD
    exact writesRegister_alu2 (fun a b => flagsWithin_addWith a b (fun _ => false)) h
  · -- SUB
    exact writesRegister_alu2 (fun a b => flagsWithin_subWith a b (fun _ => false)) h
  · -- ADC
    exact writesRegister_alu2 (fun a b => flagsWithin_addWith a b (fun st => stBit st stC)) h
  · -- SBC
    exact writesRegister_alu2 (fun a b => flagsWithin_subWith a b (fun st => stBit st stC)) h
  · -- AND
    exact writesRegister_alu2 (fun _ _ => flagsWithin_zn _) h
  · -- OR
    exact writesRegister_alu2 (fun _ _ => flagsWithin_zn _) h
  · -- XOR
    exact writesRegister_alu2 (fun _ _ => flagsWithin_zn _) h
  · -- MUL
    exact writesRegister_alu2 (fun _ _ => flagsWithin_zn _) h
  · -- ANDN
    exact writesRegister_alu2 (fun _ _ => flagsWithin_zn _) h
  · -- MULH
    exact writesRegister_alu2 (fun _ _ => flagsWithin_zn _) h
  · -- MULHU
    exact writesRegister_alu2 (fun _ _ => flagsWithin_zn _) h
  · -- MIN
    exact writesRegister_alu2 (fun _ _ => flagsWithin_zn _) h
  · -- MAX
    exact writesRegister_alu2 (fun _ _ => flagsWithin_zn _) h
  · -- MINU
    exact writesRegister_alu2 (fun _ _ => flagsWithin_zn _) h
  · -- MAXU
    exact writesRegister_alu2 (fun _ _ => flagsWithin_zn _) h
  · -- ANDI
    exact writesRegister_logicImm (fun _ _ => flagsWithin_zn _) h
  · -- ORI
    exact writesRegister_logicImm (fun _ _ => flagsWithin_zn _) h
  · -- XORI
    exact writesRegister_logicImm (fun _ _ => flagsWithin_zn _) h
  · -- ADDI
    exact writesRegister_addi h
  · -- NEG
    exact writesRegister_alu1 (fun b _ _ hi => stBit_stFlags_of_mask _ _ _ _ hi) h
  · -- NOT
    exact writesRegister_alu1 (fun _ => flagsWithin_zn _) h
  · -- LSL
    exact writesRegister_shift (fun _ _ => flagsWithin_shift _ _) h
  · -- LSR
    exact writesRegister_shift (fun _ _ => flagsWithin_shift _ _) h
  · -- ASR
    exact writesRegister_shift (fun _ _ => flagsWithin_shift _ _) h
  · -- ROR
    exact writesRegister_shift (fun _ _ => flagsWithin_shift _ _) h
  · -- ROL
    exact writesRegister_shift (fun _ _ => flagsWithin_shift _ _) h
  · -- MOV
    exact writesRegister_move1 h
  · -- SXB
    exact writesRegister_move1 h
  · -- SXH
    exact writesRegister_move1 h
  · -- ZXB
    exact writesRegister_move1 h
  · -- ZXH
    exact writesRegister_move1 h
  · -- CLZ
    exact writesRegister_move1 h
  · -- POPC
    exact writesRegister_move1 h
  · -- BSWAP
    exact writesRegister_move1 h
  · -- MOVI
    exact writesRegister_movi h
  · -- MOVHI
    exact writesRegister_setGpr _ h
  · -- ADR
    exact writesRegister_setGpr _ h

theorem gpr_setGpr_ne (k : Core) {r rd : Reg} (v : Word) (h : r ≠ rd) : gpr (setGpr k rd v) r = gpr k r :=
  tblGet_tblSet_ne 0 k.w v (fun heq => h (Fin.ext heq))

/-- Settles O50: the fetch keeps all but the core's instruction cache and the error reports, and the instruction then writes
its register, its flags, PC and the cycle count. -/
theorem registerInstructionsKeepTheRest : Obligations.RegisterInstructionsKeepTheRest := by
  intro i c rd w m s s1 hi h hev
  have hkeep := fetchKeeps_of_issued hev h
  obtain ⟨j, hcore⟩ := hkeep.core
  obtain ⟨-, -, -, -, hlen, -⟩ := issued_spec h
  obtain ⟨_, hexec, st, v, hst, rfl⟩ := exec_regOnly hi h
  rw [hcore] at hst
  refine ⟨_, hexec, fun d hd => ?_, fun r hr => ?_, fun b hb => ?_, ?_, fun a => ?_, fun f hlo hecc hdram => ?_⟩
  · exact (core_setCore_ne s1 _ hd).trans (hkeep.others d hd)
  · rw [completed, core_goneTo_same _ _ _ (by omega), hcore]
    exact gpr_setGpr_ne _ v hr
  · rw [completed, core_goneTo_same _ _ _ (by omega)]
    exact hst b hb
  · rw [completed, core_goneTo_same _ _ _ (by omega), hcore]
    exact ⟨rfl, rfl, rfl, rfl, rfl, rfl, rfl, rfl, rfl, rfl, rfl, rfl⟩
  · exact (memByte_congr rfl rfl rfl rfl (fun _ => rfl)).trans (hkeep.memByte a)
  · exact hkeep.regs f (reportsNothing_of_window hlo hecc hdram)

end Sys2Proof.Machine
end

section
/-! Proofs of the family of the Siriz encoding: the frame of a fetch (R123, R138), the instructions of the ALU and the moves
(R129 to R136, R147), division (R136), skips, branches and special registers (R137 to R141, R148), and the maintenance of the
caches (R151 to R154). -/

namespace Sys2Proof.Machine

/-! ### What writing memory leaves of the cores

A line that leaves the eviction buffer changes memory, its merge buffers and check bits, and error reports, but no core. -/

@[simp] theorem countCe_cores (s : State) (k : Nat) : (countCe s k).cores = s.cores := ((OnlyErrors.refl s).countCe k).cores

@[simp] theorem countUe_cores (s : State) (k : Nat) : (countUe s k).cores = s.cores := ((OnlyErrors.refl s).countUe k).cores

@[simp] theorem setDramMark_cores (s : State) (a v : Nat) : (setDramMark s a v).cores = s.cores := rfl

@[simp] theorem setSyn_cores (s : State) (a v : Nat) : (setSyn s a v).cores = s.cores := by
  unfold setSyn
  split <;> rfl

@[simp] theorem writeMerge_cores (s : State) (e : MergeEnt) : (writeMerge s e).cores = s.cores := by
  unfold writeMerge
  dsimp only
  split
  · simp
  · split
    · simp
    · split <;> simp
    · split <;> simp

@[simp] theorem mergeWrite_cores (s : State) (w mask data : Nat) (owner : Option Nat) :
    (mergeWrite s w mask data owner).cores = s.cores := by
  unfold mergeWrite
  dsimp only
  split
  · split <;> simp
  · split
    · rfl
    · split <;> simp

@[simp] theorem writeSramWord_cores (s : State) (w lo : Nat) (bs : List Byte) (owner : Option Nat) :
    (writeSramWord s w lo bs owner).cores = s.cores := by
  unfold writeSramWord
  split <;> simp

@[simp] theorem writeSram_cores (s : State) (a : Nat) (bs : List Byte) (owner : Option Nat) (n : Nat) :
    (writeSram s a bs owner n).cores = s.cores := by
  induction n generalizing s a bs with
  | zero => rfl
  | succ n ih =>
    unfold writeSram
    split
    · rfl
    · exact (ih _ _ _).trans (writeSramWord_cores _ _ _ _ _)

@[simp] theorem writeRam_cores (s : State) (a : Nat) (bs : List Byte) (owner : Option Nat) :
    (writeRam s a bs owner).cores = s.cores := by
  cases ht : targetOf s a with
  | dram => exact (onlyErrors_writeRam_dram bs owner ht).cores
  | _ => simp [writeRam, ht]

@[simp] theorem writeMem_cores (s : State) (a : Nat) (bs : List Byte) (owner : Option Nat) (tag : Nat) :
    (writeMem s a bs owner tag).cores = s.cores := by
  unfold writeMem
  split <;> simp

@[simp] theorem coreWrite_cores (s : State) (c a : Nat) (bs : List Byte) : (coreWrite s c a bs).cores = s.cores := by
  unfold coreWrite
  split <;> simp

@[simp] theorem storeLine_cores (s : State) (c : Nat) (e : EvEnt) : (storeLine s c e).cores = s.cores := by
  unfold storeLine
  split
  · simp
  · refine List.foldlRecOn (motive := fun (t : State) => t.cores = s.cores) _ _ (coreWrite_cores _ _ _ _) fun t ht x _ => ?_
    split
    · exact ht
    · simpa using ht
    · split <;> simpa using ht

@[simp] theorem csDataRead_cores (s : State) (a n src : Nat) : (csDataRead s a n src).2.cores = s.cores := by
  unfold csDataRead
  dsimp only
  split
  · simp
  · split
    · rfl
    · split
      · exact State.fresh_cores s
      · rfl

/-! ### What any fetch leaves of the cores (R123, R138)

A fetch can write back lines of its core's eviction buffer (R162): unlike `FetchKeeps`, this frame says nothing of memory. -/

/-- What the part keeps of its cores when core `c` fetches: all but its instruction cache and its eviction buffer. -/
structure FetchFrame (c : Nat) (s t : State) : Prop where
  others : ∀ d, d ≠ c → t.core d = s.core d
  core : ∃ i e, t.core c = { s.core c with ic := i, ev := e }

theorem FetchFrame.of_cores_eq {c : Nat} {s t : State} (h : t.cores = s.cores) : FetchFrame c s t := by
  have hcore : ∀ d, t.core d = s.core d := fun d => by rw [State.core, State.core, h]
  exact ⟨fun d _ => hcore d, (s.core c).ic, (s.core c).ev, hcore c⟩

theorem FetchKeeps.fetchFrame {c : Nat} {s t : State} (h : FetchKeeps c s t) : FetchFrame c s t := by
  obtain ⟨i, hi⟩ := h.core
  exact ⟨h.others, i, (s.core c).ev, hi⟩

theorem FetchFrame.trans {c : Nat} {s t u : State} (h : FetchFrame c s t) (k : FetchFrame c t u) : FetchFrame c s u := by
  obtain ⟨i, e, hi⟩ := h.core
  obtain ⟨j, f, hj⟩ := k.core
  exact ⟨fun d hd => (k.others d hd).trans (h.others d hd), j, f, by rw [hj, hi]⟩

theorem fetchFrame_setCore_ev (s : State) (c : Nat) (e : List EvEnt) :
    FetchFrame c s (s.setCore c { s.core c with ev := e }) := by
  by_cases hc : c < s.cores.length
  · exact ⟨fun d hd => core_setCore_ne s _ hd, (s.core c).ic, e, core_setCore_same s _ hc⟩
  · refine .of_cores_eq ?_
    rw [State.setCore_cores, List.set_eq_of_length_le (not_lt.mp hc)]

theorem fetchFrame_evictHead (s : State) (c : Nat) : FetchFrame c s (evictHead s c) := by
  unfold evictHead
  split
  · exact .of_cores_eq rfl
  · exact (fetchFrame_setCore_ev s c _).trans (.of_cores_eq (storeLine_cores _ _ _))

theorem fetchFrame_evictAll (s : State) (c n : Nat) : FetchFrame c s (evictAll s c n) := by
  induction n generalizing s with
  | zero => exact .of_cores_eq rfl
  | succ n ih => exact (fetchFrame_evictHead s c).trans (ih _)

theorem fetchFrame_settleEv (s : State) (c g : Nat) : FetchFrame c s (settleEv s c g) := by
  unfold settleEv
  split
  · exact fetchFrame_evictAll s c _
  · exact .of_cores_eq rfl

theorem fetchFrame_rawLoad (s : State) (c g n : Nat) : FetchFrame c s (rawLoad s c g n).2 := by
  refine (fetchFrame_settleEv s c g).trans (.of_cores_eq ?_)
  have hread := ((OnlyErrors.refl (settleEv s c g)).readRam g n).cores
  unfold rawLoad
  dsimp only
  split
  · exact csDataRead_cores _ _ _ _
  · rfl
  · split
    · next heq =>
      rw [heq] at hread
      exact hread
    · next heq =>
      rw [heq] at hread
      exact hread

theorem fetchFrame_rawFetch (s : State) (c g : Nat) : FetchFrame c s (rawFetch s c g).2 := by
  have hsettle := fetchFrame_settleEv s c g
  unfold rawFetch
  dsimp only
  split
  · exact hsettle
  · exact hsettle.trans (fetchFrame_rawLoad _ c g 2)

/-- A fetch that answers a halfword comes through the instruction cache or past it. -/
theorem fetchFrame_of_coreFetch {s t : State} {c h : Nat} {a : Word} (hfetch : coreFetch s c a = .ok h t) :
    FetchFrame c s t := by
  unfold coreFetch at hfetch
  split at hfetch
  · cases hfetch
  next g io _ =>
  have hread : FetchFrame c s (if s.flag (ccIcEn c) && !io then icLoad s c g else rawFetch s c g).2 := by
    split
    · exact (fetchKeeps_icLoad s c g).fetchFrame
    · exact fetchFrame_rawFetch s c g
  dsimp only at hfetch
  split at hfetch
  · cases hfetch
  split at hfetch
  · next heq =>
    rw [heq] at hread
    cases hfetch
    exact hread
  · cases hfetch

theorem fetchFrame_of_issued {s s1 : State} {c width : Nat} (h : issued s c width = some s1) : FetchFrame c s s1 := by
  obtain ⟨-, -, hfetch, -⟩ := issued_spec h
  obtain ⟨v, t, hfirst, hsecond⟩ := fetchInstr_ok hfetch
  have hframe := fetchFrame_of_coreFetch hfirst
  obtain rfl | ⟨u, hu⟩ := hsecond
  · exact hframe
  · exact hframe.trans (fetchFrame_of_coreFetch hu)

/-- The fetch leaves PC, so an exception of the instruction finds it. -/
theorem pc_of_issued {s s1 : State} {c width : Nat} (h : issued s c width = some s1) : (s1.core c).pc = (s.core c).pc := by
  obtain ⟨i, e, hcore⟩ := (fetchFrame_of_issued h).core
  rw [hcore]

/-- Settles O51: the fetch changes its core's instruction cache and eviction buffer alone. -/
theorem fetchKeepsEveryRegister : Obligations.FetchKeepsEveryRegister := by
  intro s s1 c a h _ hfetch
  obtain ⟨hothers, i, e, hcore⟩ := fetchFrame_of_coreFetch hfetch
  rw [hcore]
  exact ⟨hothers, rfl, rfl, rfl, rfl, rfl, rfl, rfl, rfl, rfl, rfl, rfl, rfl⟩

/-! ### Issued instructions that raise nothing -/

/-- An issued instruction's core runs, and what it falls through to is no gate. -/
theorem coreRuns_of_issued {s s1 : State} {c width : Nat} (h : issued s c width = some s1) :
    coreRuns s1 c = true ∧ offGate c (nextPc s1 c width) = true := by
  obtain ⟨-, -, -, hrun, hlen, hg⟩ := issued_spec h
  exact ⟨by simp [coreRuns, hrun, hlen], hg⟩

section
variable {s s1 : State} {c : CoreId} {width cost : Nat} {body : State → CoreAcc (Word × Nat)}

/-- An issued instruction that changes nothing but PC and the cycle count. -/
theorem issue_of_body_pc {pc : Word} (h : issued s c.val width = some s1) (hb : body s1 = .ok (pc, cost) s1)
    (hg : offGate c.val pc = true) :
    issue s c.val width body = goneTo s1 c.val (s1.core c.val) pc cost :=
  (issue_of_body_ok h hb).trans (retire_of_coreRuns (coreRuns_of_issued h).1 hg)

/-- An issued instruction that writes its core's registers and falls through. -/
theorem issue_of_body_updCore {f : Core → Core} (h : issued s c.val width = some s1) (hf : ∀ k, (f k).run = k.run)
    (hb : body s1 = .ok (nextPc s1 c.val width, cost) (updCore s1 c.val f)) :
    issue s c.val width body = completed s1 c.val (f (s1.core c.val)) width cost := by
  obtain ⟨hruns, hg⟩ := coreRuns_of_issued h
  exact (issue_of_body_ok h hb).trans (retire_updCore_of_coreRuns hf hruns hg)

end

/-! ### The instructions of the ALU and the moves (R129 to R135, R147)

Each shape of instruction completes with the registers its function of the core gives. -/

section
variable {s s1 : State} {c : CoreId}

theorem alu2_of_issued {f : AluForm} (op : Word → Word → Word → Word × Word)
    (h : issued s c.val (aluForm (s.core c.val) f).2.2.2 = some s1) :
    alu2 s c.val f op = completed s1 c.val (putResult (s1.core c.val) (aluForm (s1.core c.val) f).1
      (op (aluForm (s1.core c.val) f).2.1 (aluForm (s1.core c.val) f).2.2.1 (s1.core c.val).st))
      (aluForm (s.core c.val) f).2.2.2 1 :=
  issueCore_of_issued 1 _ c.isLt (fun _ => rfl) h

theorem shift_of_issued {f : ShiftForm} (op : Word → Nat → Word → Word × Word)
    (h : issued s c.val (shiftForm (s.core c.val) f).2.2.2 = some s1) :
    shift s c.val f op = completed s1 c.val (putResult (s1.core c.val) (shiftForm (s1.core c.val) f).1
      (op (shiftForm (s1.core c.val) f).2.1 (shiftForm (s1.core c.val) f).2.2.1 (s1.core c.val).st))
      (shiftForm (s.core c.val) f).2.2.2 1 :=
  issueCore_of_issued 1 _ c.isLt (fun _ => rfl) h

theorem alu1_of_issued {rd rb : Reg} (op : Word → Word → Word × Word) (h : issued s c.val 2 = some s1) :
    alu1 s c.val rd rb op =
      completed s1 c.val (putResult (s1.core c.val) rd (op (gpr (s1.core c.val) rb) (s1.core c.val).st)) 2 1 :=
  issueCore_of_issued 1 _ c.isLt (fun _ => rfl) h

theorem logicImm_of_issued {rd ra : Reg} {imm : BitVec 16} (op : Word → Word → Word → Word × Word)
    (h : issued s c.val 4 = some s1) :
    logicImm s c.val rd ra imm op =
      completed s1 c.val (putResult (s1.core c.val) rd (op (gpr (s1.core c.val) ra) (zext imm) (s1.core c.val).st)) 4 1 :=
  issueCore_of_issued 1 _ c.isLt (fun _ => rfl) h

theorem move1_of_issued {rd rb : Reg} (op : Word → Word) (h : issued s c.val 2 = some s1) :
    move1 s c.val rd rb op = completed s1 c.val (setGpr (s1.core c.val) rd (op (gpr (s1.core c.val) rb))) 2 1 :=
  issueCore_of_issued 1 _ c.isLt (fun _ => rfl) h

end

/-- The 16 bits of MOVHI stand above the 16 bits kept (R132). -/
theorem movhi_value (imm : BitVec 16) (x : Word) : (zext imm <<< 16) ||| (x &&& 0xFFFF#32) = imm ++ x.extractLsb' 0 16 := by
  have hlow : x &&& 0xFFFF#32 = zext (x.extractLsb' 0 16) := by
    refine BitVec.eq_of_toNat_eq ?_
    simp only [zext, BitVec.toNat_and, BitVec.toNat_ofNat, Nat.and_two_pow_sub_one_eq_mod x.toNat 16, BitVec.toNat_setWidth,
      BitVec.extractLsb'_toNat]
    omega
  rw [hlow, BitVec.append_def, BitVec.shiftLeftZeroExtend_eq, BitVec.setWidth'_eq]
  rfl

/-- Settles O16: every instruction is the one of two operands, with its own function. -/
theorem aluRegisterFormsComplete : Obligations.AluRegisterFormsComplete := by
  refine ⟨?_, ?_, ?_, ?_, ?_, ?_, ?_, ?_, ?_, ?_, ?_, ?_, ?_, ?_, ?_⟩
  · -- ADD
    exact fun s c f s1 h => congrArg Host.Outcome.next (alu2_of_issued aluAdd h)
  · -- SUB
    exact fun s c f s1 h => congrArg Host.Outcome.next (alu2_of_issued aluSub h)
  · -- AND
    exact fun s c f s1 h => congrArg Host.Outcome.next (alu2_of_issued aluAnd h)
  · -- OR
    exact fun s c f s1 h => congrArg Host.Outcome.next (alu2_of_issued aluOr h)
  · -- XOR
    exact fun s c f s1 h => congrArg Host.Outcome.next (alu2_of_issued aluXor h)
  · -- ADC
    exact fun s c f s1 h => congrArg Host.Outcome.next (alu2_of_issued aluAdc h)
  · -- SBC
    exact fun s c f s1 h => congrArg Host.Outcome.next (alu2_of_issued aluSbc h)
  · -- MUL
    exact fun s c f s1 h => congrArg Host.Outcome.next (alu2_of_issued aluMul h)
  · -- ANDN
    exact fun s c rd ra rb s1 h => congrArg Host.Outcome.next (alu2_of_issued (f := .wide rd ra rb) aluAndn h)
  · -- MULH
    exact fun s c rd ra rb s1 h => congrArg Host.Outcome.next (alu2_of_issued (f := .wide rd ra rb) aluMulh h)
  · -- MULHU
    exact fun s c rd ra rb s1 h => congrArg Host.Outcome.next (alu2_of_issued (f := .wide rd ra rb) aluMulhu h)
  · -- MIN
    exact fun s c rd ra rb s1 h => congrArg Host.Outcome.next (alu2_of_issued (f := .wide rd ra rb) aluMin h)
  · -- MAX
    exact fun s c rd ra rb s1 h => congrArg Host.Outcome.next (alu2_of_issued (f := .wide rd ra rb) aluMax h)
  · -- MINU
    exact fun s c rd ra rb s1 h => congrArg Host.Outcome.next (alu2_of_issued (f := .wide rd ra rb) aluMinu h)
  · -- MAXU
    exact fun s c rd ra rb s1 h => congrArg Host.Outcome.next (alu2_of_issued (f := .wide rd ra rb) aluMaxu h)

/-- Settles O17: every instruction is the shift, the one operand or the immediate of its shape, with its own function. -/
theorem aluShiftAndImmediateComplete : Obligations.AluShiftAndImmediateComplete := by
  refine ⟨?_, ?_, ?_, ?_, ?_, ?_, ?_, ?_, ?_, ?_, ?_⟩
  · -- LSL
    exact fun s c f s1 h => congrArg Host.Outcome.next (shift_of_issued aluLsl h)
  · -- LSR
    exact fun s c f s1 h => congrArg Host.Outcome.next (shift_of_issued aluLsr h)
  · -- ASR
    exact fun s c f s1 h => congrArg Host.Outcome.next (shift_of_issued aluAsr h)
  · -- ROR
    exact fun s c f s1 h => congrArg Host.Outcome.next (shift_of_issued aluRor h)
  · -- ROL
    exact fun s c f s1 h => congrArg Host.Outcome.next (shift_of_issued aluRol h)
  · -- NOT
    exact fun s c rd rb s1 h => congrArg Host.Outcome.next (alu1_of_issued aluNot h)
  · -- NEG
    exact fun s c rd rb s1 h => congrArg Host.Outcome.next (alu1_of_issued aluNeg h)
  · -- ADDI
    exact fun s c f s1 h => congrArg Host.Outcome.next (issueCore_of_issued 1 _ c.isLt (fun _ => rfl) h)
  · -- ANDI
    exact fun s c rd ra imm s1 h => congrArg Host.Outcome.next (logicImm_of_issued aluAnd h)
  · -- ORI
    exact fun s c rd ra imm s1 h => congrArg Host.Outcome.next (logicImm_of_issued aluOr h)
  · -- XORI
    exact fun s c rd ra imm s1 h => congrArg Host.Outcome.next (logicImm_of_issued aluXor h)

/-! ### Division (R136) -/

/-- The core after a division has written its flags, `rd` and then `rr`. -/
def dividedCore (sgn : Bool) (k : Core) (rd ra rb rr : Reg) : Core :=
  setGpr (setGpr { k with st := (divide sgn (gpr k ra) (gpr k rb) k.st).2.2 } rd (divide sgn (gpr k ra) (gpr k rb) k.st).1) rr
    (divide sgn (gpr k ra) (gpr k rb) k.st).2.1

/-- The divide trap: the return PC is the next instruction (Table 3.7). -/
def divideTrap : Trap := ⟨5, 0, 0, 0, true, false, 0⟩

/-- Is the divide trap due: a zero divisor with DZT set? -/
def DivideTrapDue (k : Core) (rb : Reg) : Prop := gpr k rb = 0#32 ∧ stBit k.st stDZT = true

section
variable {s s1 : State} {c : CoreId} {sgn : Bool} {rd ra rb rr : Reg}

theorem division_of_not_trapDue (h : issued s c.val 4 = some s1) (hdue : ¬ DivideTrapDue (s1.core c.val) rb) :
    division s c.val sgn rd ra rb rr = completed s1 c.val (dividedCore sgn (s1.core c.val) rd ra rb rr) 4 34 :=
  issue_of_body_updCore (f := fun k => dividedCore sgn k rd ra rb rr) h (fun _ => rfl) (if_neg hdue)

theorem division_of_trapDue (h : issued s c.val 4 = some s1) (hdue : DivideTrapDue (s1.core c.val) rb) :
    division s c.val sgn rd ra rb rr = takeExc (s1.setCore c.val (dividedCore sgn (s1.core c.val) rd ra rb rr)) c.val divideTrap
      ((s1.core c.val).pc + 4) := by
  rw [pc_of_issued h]
  exact issue_of_body_trap (t := divideTrap) h (if_pos hdue)

end

/-- Settles O18: moves and extends are the one move, and a division whose trap is not due completes. -/
theorem movesExtendsAndDivisionComplete : Obligations.MovesExtendsAndDivisionComplete := by
  refine ⟨?_, ?_, ?_, ?_, ?_, ?_, ?_, ?_, ?_, ?_, ?_, ?_, ?_⟩
  · -- MOV
    exact fun s c rd rb s1 h => congrArg Host.Outcome.next (move1_of_issued id h)
  · -- SXB
    exact fun s c rd rb s1 h => congrArg Host.Outcome.next (move1_of_issued aluSxb h)
  · -- SXH
    exact fun s c rd rb s1 h => congrArg Host.Outcome.next (move1_of_issued aluSxh h)
  · -- ZXB
    exact fun s c rd rb s1 h => congrArg Host.Outcome.next (move1_of_issued aluZxb h)
  · -- ZXH
    exact fun s c rd rb s1 h => congrArg Host.Outcome.next (move1_of_issued aluZxh h)
  · -- CLZ
    exact fun s c rd rb s1 h => congrArg Host.Outcome.next (move1_of_issued aluClz h)
  · -- POPC
    exact fun s c rd rb s1 h => congrArg Host.Outcome.next (move1_of_issued aluPopc h)
  · -- BSWAP
    exact fun s c rd rb s1 h => congrArg Host.Outcome.next (move1_of_issued aluBswap h)
  · -- MOVI
    exact fun s c f s1 h => congrArg Host.Outcome.next (issueCore_of_issued 1 _ c.isLt (fun _ => rfl) h)
  · -- MOVHI
    intro s c rd imm s1 h
    rw [← movhi_value]
    exact congrArg Host.Outcome.next (issueCore_of_issued 1
      (fun k => setGpr k rd ((zext imm <<< 16) ||| (gpr k rd &&& 0xFFFF#32))) c.isLt (fun _ => rfl) h)
  · -- ADR
    exact fun s c rd imm s1 h => congrArg Host.Outcome.next (issueCore_of_issued 1
      (fun k => setGpr k rd (k.pc + (sext imm <<< 1))) c.isLt (fun _ => rfl) h)
  · -- DIV
    intro s c rd ra rb rr s1 h hno
    have hdue : ¬ DivideTrapDue (s1.core c.val) rb := fun ⟨hzero, htrap⟩ => by simp [hzero, htrap] at hno
    exact congrArg Host.Outcome.next (division_of_not_trapDue h hdue)
  · -- DIVU
    intro s c rd ra rb rr s1 h hno
    have hdue : ¬ DivideTrapDue (s1.core c.val) rb := fun ⟨hzero, htrap⟩ => by simp [hzero, htrap] at hno
    exact congrArg Host.Outcome.next (division_of_not_trapDue h hdue)

/-- The quotient of R136. -/
def quotient (sgn : Bool) (a b : Word) : Word := if b = 0#32 then 0xFFFFFFFF#32 else if sgn then a.sdiv b else a / b

/-- The remainder of R136. -/
def remainder (sgn : Bool) (a b : Word) : Word := if b = 0#32 then a else if sgn then a.srem b else a % b

/-- Does a division overflow (R136)? -/
def divOverflows (sgn : Bool) (a b : Word) : Bool := sgn && a == 0x80000000#32 && b == 0xFFFFFFFF#32

/-- ST after a division: Z and N of the quotient, V as given, DZ set by a zero divisor. -/
def divisionSt (st q : Word) (v dz : Bool) : Word := stResult (stPut (if dz then stPut st stDZ true else st) stV v) q

theorem sdiv_eq_ofInt (a b : Word) : a.sdiv b = BitVec.ofInt 32 (a.toInt.tdiv b.toInt) := by
  refine BitVec.eq_of_toInt_eq ?_
  rw [BitVec.toInt_sdiv, BitVec.toInt_ofInt]

theorem srem_eq_ofInt (a b : Word) : a.srem b = BitVec.ofInt 32 (a.toInt.tmod b.toInt) := by
  rw [← BitVec.toInt_srem, BitVec.ofInt_toInt]

/-- A division gives the quotient, the remainder and the flags of R136. -/
theorem divide_eq (sgn : Bool) (a b st : Word) :
    divide sgn a b st = (quotient sgn a b, remainder sgn a b,
      divisionSt st (quotient sgn a b) (divOverflows sgn a b) (b == 0#32)) := by
  by_cases hzero : b = 0#32
  · subst hzero
    simp [divide, quotient, remainder, divOverflows, divisionSt]
  by_cases hover : sgn = true ∧ a = 0x80000000#32 ∧ b = 0xFFFFFFFF#32
  · obtain ⟨rfl, rfl, rfl⟩ := hover
    rfl
  have hno : divOverflows sgn a b = false := by
    simpa [divOverflows] using hover
  rw [divide, if_neg hzero, if_neg hover, quotient, if_neg hzero, remainder, if_neg hzero, hno, divisionSt, beq_false_of_ne hzero]
  cases sgn with
  | true => simp [sdiv_eq_ofInt, srem_eq_ofInt]
  | false => simp [BitVec.udiv_def, BitVec.umod_def]

section
variable (st q : Word) (v dz : Bool)

theorem stBit_divisionSt_z : stBit (divisionSt st q v dz) stZ = (q == 0#32) := stBit_stResult_z _ _

theorem stBit_divisionSt_n : stBit (divisionSt st q v dz) stN = q.msb := stBit_stResult_n _ _

theorem stBit_divisionSt_v : stBit (divisionSt st q v dz) stV = v := by
  rw [divisionSt, stBit_stResult_ne _ _ (by decide) (by decide), stBit_stPut_same _ _ (by decide)]

theorem stBit_divisionSt_dz : stBit (divisionSt st q v dz) stDZ = (stBit st stDZ || dz) := by
  rw [divisionSt, stBit_stResult_ne _ _ (by decide) (by decide), stBit_stPut_ne _ _ (by decide)]
  cases dz with
  | true => rw [if_pos rfl, stBit_stPut_same _ _ (by decide), Bool.or_true]
  | false => rw [if_neg Bool.false_ne_true, Bool.or_false]

theorem stBit_divisionSt_ne {i : Nat} (hz : i ≠ stZ) (hn : i ≠ stN) (hv : i ≠ stV) (hdz : i ≠ stDZ) :
    stBit (divisionSt st q v dz) i = stBit st i := by
  rw [divisionSt, stBit_stResult_ne _ _ hz hn, stBit_stPut_ne _ _ hv]
  split
  · exact stBit_stPut_ne _ _ hdz
  · rfl

end

theorem exec_division (sgn : Bool) (c : CoreId) (rd ra rb rr : Reg) (s : State) :
    exec (if sgn then .div c rd ra rb rr else .divu c rd ra rb rr) s = .next (division s c.val sgn rd ra rb rr) := by
  cases sgn <;> rfl

theorem dividedCore_eq (sgn : Bool) (k : Core) (rd ra rb rr : Reg) :
    dividedCore sgn k rd ra rb rr = setGpr (setGpr
      { k with st := (divisionSt k.st (quotient sgn (gpr k ra) (gpr k rb)) (divOverflows sgn (gpr k ra) (gpr k rb))
        (gpr k rb == 0#32)) } rd (quotient sgn (gpr k ra) (gpr k rb))) rr (remainder sgn (gpr k ra) (gpr k rb)) := by
  rw [dividedCore, divide_eq]

/-- Settles O53: the flags are those of `divisionSt`, and the divide trap is taken on the core that the division leaves. -/
theorem divisionFollowsTheManual : Obligations.DivisionFollowsTheManual := by
  intro sgn c rd ra rb rr s s1 h k a b q r v
  refine ⟨divisionSt k.st q v (b == 0#32), stBit_divisionSt_z _ _ _ _, stBit_divisionSt_n _ _ _ _, stBit_divisionSt_v _ _ _ _,
    stBit_divisionSt_dz _ _ _ _, fun i hz hn hv hdz => stBit_divisionSt_ne _ _ _ _ hz hn hv hdz, ?_⟩
  rw [exec_division]
  have hcore : dividedCore sgn k rd ra rb rr =
      setGpr (setGpr { k with st := divisionSt k.st q v (b == 0#32) } rd q) rr r := dividedCore_eq sgn k rd ra rb rr
  dsimp only
  split
  · next hdue => rw [division_of_trapDue h hdue, ← hcore]; rfl
  · next hdue => rw [division_of_not_trapDue h hdue, ← hcore]

/-! ### Skips, branches and special registers (R137 to R141, R148) -/

theorem fetchedAt_spec {s : State} {c : Nat} {a : Word} {x : Nat × State} (h : fetchedAt s c a = some x) :
    coreFetch s c a = .ok x.1 x.2 ∧ coreRuns x.2 c = true := by
  unfold fetchedAt at h
  split at h
  · next hfetch =>
    split at h
    · next hruns =>
      cases h
      exact ⟨hfetch, hruns⟩
    · cases h
  · cases h

section
variable {s s1 : State} {c : CoreId}

/-- Where its condition holds, a skip fetches the next instruction's first halfword and goes past it (R137). -/
theorem skip_of_issued {own : Nat} {cond : Core → Bool} {x : Nat × State} (h : issued s c.val own = some s1)
    (hfetch : cond (s1.core c.val) = true → fetchedAt s1 c.val (nextPc s1 c.val own) = some x)
    (hg : cond (s1.core c.val) = true → offGate c.val (nextPc s1 c.val own + (if bitOf x.1 15 then 4 else 2)) = true) :
    skip s c.val own cond = if cond (s1.core c.val) then
        goneTo x.2 c.val (x.2.core c.val) (nextPc s1 c.val own + (if bitOf x.1 15 then 4 else 2)) 2
      else completed s1 c.val (s1.core c.val) own 1 := by
  split
  · next hcond =>
    obtain ⟨hok, hruns⟩ := fetchedAt_spec (hfetch hcond)
    exact (issue_of_body_ok h (by simp only [hcond, if_true, hok, CoreAcc.andThen])).trans
      (retire_of_coreRuns hruns (hg hcond))
  · next hcond => exact issue_of_body_pc h (if_neg hcond) (coreRuns_of_issued h).2

theorem exec_br_of_even {rt : Reg} (h : issued s c.val 2 = some s1) (heven : (gpr (s1.core c.val) rt).getLsbD 0 = false)
    (hg : offGate c.val (gpr (s1.core c.val) rt) = true) :
    exec (.br c rt) s = .next (goneTo s1 c.val (s1.core c.val) (gpr (s1.core c.val) rt) 2) :=
  congrArg Host.Outcome.next (issue_of_body_pc h (if_neg (Bool.eq_false_iff.mp heven)) hg)

theorem exec_mfs_of_present {rd : Reg} {sn : Fin 32} (h : issued s c.val 4 = some s1) (hsn : srPresent sn.val = true)
    (hlo : sn.val ≠ 5) (hhi : sn.val ≠ 6) :
    exec (.mfs c rd sn) s = .next (completed s1 c.val (setGpr (s1.core c.val) rd (srGet c.val (s1.core c.val) sn.val)) 4 1) := by
  have hcycle : ¬ (sn.val = 5 ∨ sn.val = 6) := not_or.mpr ⟨hlo, hhi⟩
  exact congrArg Host.Outcome.next (issue_of_body_updCore (f := fun k => setGpr k rd (srGet c.val k sn.val)) h (fun _ => rfl)
    ((if_pos hsn).trans (if_neg hcycle)))

theorem run_srSet (k : Core) (n : Nat) (v : Word) : (srSet k n v).run = k.run := by
  unfold srSet
  repeat' split
  all_goals rfl

theorem exec_mts_of_writable {sn : Fin 32} {ra : Reg} (h : issued s c.val 4 = some s1) (hsn : srWritable sn.val = true) :
    exec (.mts c sn ra) s = .next (completed s1 c.val (srSet (s1.core c.val) sn.val (gpr (s1.core c.val) ra)) 4
      (if sn.val = 1 ∨ sn.val = 2 then 1 else 3)) :=
  congrArg Host.Outcome.next
    (issue_of_body_updCore (f := fun k => srSet k sn.val (gpr k ra)) h (fun _ => run_srSet _ _ _) (if_pos hsn))

end

/-- Settles O19: every skip is the one skip with its own condition; a branch goes to its target; a special register is read or
written. -/
theorem skipAndBranchComplete : Obligations.SkipAndBranchComplete := by
  refine ⟨?_, ?_, ?_, ?_, ?_, ?_, ?_, ?_, ?_, ?_, ?_⟩
  · -- SKIP_ON_REGISTERS
    exact fun s c cond ra rb s1 x h hfetch hg => congrArg Host.Outcome.next
      (skip_of_issued (cond := fun k => condHolds cond (gpr k ra) (gpr k rb)) h hfetch hg)
  · -- SKIPI
    exact fun s c cond ra imm s1 x h hfetch hg => congrArg Host.Outcome.next
      (skip_of_issued (cond := fun k => condHolds cond (gpr k ra) (skipImm cond imm)) h hfetch hg)
  · -- SEQI
    exact fun s c ra imm s1 x h hfetch hg => congrArg Host.Outcome.next
      (skip_of_issued (cond := fun k => gpr k ra == sext imm) h hfetch hg)
  · -- SBS
    exact fun s c ra b s1 x h hfetch hg => congrArg Host.Outcome.next
      (skip_of_issued (cond := fun k => (gpr k ra).getLsbD b.val) h hfetch hg)
  · -- SBZ
    exact fun s c ra b s1 x h hfetch hg => congrArg Host.Outcome.next
      (skip_of_issued (cond := fun k => !(gpr k ra).getLsbD b.val) h hfetch hg)
  · -- SFL
    exact fun s c cond s1 x h hfetch hg => congrArg Host.Outcome.next
      (skip_of_issued (cond := fun k => flagHolds cond k.st) h hfetch hg)
  · -- B
    exact fun s c f s1 h hg => congrArg Host.Outcome.next (issue_of_body_pc h rfl hg)
  · -- BR
    exact fun s c rt s1 h heven hg => exec_br_of_even h heven hg
  · -- NOP
    exact fun s c s1 h => congrArg Host.Outcome.next (issueCore_of_issued 1 id c.isLt (fun _ => rfl) h)
  · -- MFS
    exact fun s c rd sn s1 h hsn hlo hhi => exec_mfs_of_present h hsn hlo hhi
  · -- MTS
    exact fun s c sn ra s1 h hsn => exec_mts_of_writable h hsn

/-! ### Maintenance of the caches (R151 to R154)

`one` is what a CACHE instruction does to one slot, `all` what it does to the whole cache. -/

theorem cacheLine_spec {s : State} {c : Nat} {kind : AccKind} {a : Word} {g : Nat} (h : cacheLine s c kind a = some g) :
    cacheCheck s c kind a = .ok (some g) := by
  unfold cacheLine at h
  split at h
  · next heq => rw [heq, h]
  · cases h

section
variable {s s1 x : State} {c : CoreId} {ra : Reg} {instr : Bool} {one : State → Nat → State} {all : State → State}

/-- By address: the slot that holds the line, if one does. -/
theorem cacheOp_addr {g : Nat} (h : issued s c.val 4 = some s1)
    (hline : cacheLine s1 c.val (if instr then .fetch else .read) (gpr (s1.core c.val) ra) = some g)
    (hx : x = match findWay (if instr then (s1.core c.val).ic else (s1.core c.val).dc) (cacheSets c.val) g with
      | some e => one s1 e.1
      | none => s1)
    (hruns : coreRuns x c.val = true) :
    cacheOp s c.val (.addr ra) instr one all = goneTo x c.val (x.core c.val) (nextPc s1 c.val 4) 2 := by
  refine (issue_of_body_ok h ?_).trans (retire_of_coreRuns hruns (coreRuns_of_issued h).2)
  rw [hx]
  simp only [cacheLine_spec hline]
  cases findWay (if instr then (s1.core c.val).ic else (s1.core c.val).dc) (cacheSets c.val) g with
  | none => rfl
  | some e => rfl

theorem cacheOp_setWay (h : issued s c.val 4 = some s1) (hx : x = one s1 (wayOf c.val (gpr (s1.core c.val) ra)))
    (hruns : coreRuns x c.val = true) :
    cacheOp s c.val (.setWay ra) instr one all = goneTo x c.val (x.core c.val) (nextPc s1 c.val 4) 2 := by
  subst hx
  refine (issue_of_body_ok h ?_).trans (retire_of_coreRuns hruns (coreRuns_of_issued h).2)
  rfl

theorem cacheOp_all (h : issued s c.val 4 = some s1) (hx : x = all s1) (hruns : coreRuns x c.val = true) :
    cacheOp s c.val .all instr one all =
      goneTo x c.val (x.core c.val) (nextPc s1 c.val 4) (if c.val < 32 then 512 else 1024) := by
  subst hx
  refine (issue_of_body_ok h ?_).trans (retire_of_coreRuns hruns (coreRuns_of_issued h).2)
  rfl

end

/-- Settles O22: every CACHE instruction is the one operation, with what it does to a slot and to its cache. -/
theorem cacheInstructionsComplete : Obligations.CacheInstructionsComplete := by
  refine ⟨?_, ?_, ?_, ?_, ?_, ?_, ?_, ?_, ?_, ?_, ?_, ?_⟩
  · -- CACHE_CLEAN_DC by address
    exact fun s c ra s1 x g h hline hx hruns =>
      congrArg Host.Outcome.next (cacheOp_addr (instr := false) h hline hx hruns)
  · -- CACHE_CLEAN_DC by set and way
    exact fun s c ra s1 x h hx hruns => congrArg Host.Outcome.next (cacheOp_setWay h hx hruns)
  · -- CACHE_CLEAN_DC of all lines
    exact fun s c s1 x h hx hruns => congrArg Host.Outcome.next (cacheOp_all h hx hruns)
  · -- CACHE_INVALIDATE_DC by address
    exact fun s c ra s1 x g h hline hx hruns =>
      congrArg Host.Outcome.next (cacheOp_addr (instr := false) h hline hx hruns)
  · -- CACHE_INVALIDATE_DC by set and way
    exact fun s c ra s1 x h hx hruns => congrArg Host.Outcome.next (cacheOp_setWay h hx hruns)
  · -- CACHE_INVALIDATE_DC of all lines
    exact fun s c s1 x h hx hruns => congrArg Host.Outcome.next (cacheOp_all h hx hruns)
  · -- CACHE_CLEAN_INVALIDATE_DC by address
    exact fun s c ra s1 x g h hline hx hruns =>
      congrArg Host.Outcome.next (cacheOp_addr (instr := false) h hline hx hruns)
  · -- CACHE_CLEAN_INVALIDATE_DC by set and way
    exact fun s c ra s1 x h hx hruns => congrArg Host.Outcome.next (cacheOp_setWay h hx hruns)
  · -- CACHE_CLEAN_INVALIDATE_DC of all lines
    exact fun s c s1 x h hx hruns => congrArg Host.Outcome.next (cacheOp_all h hx hruns)
  · -- CACHE_INVALIDATE_IC by address
    exact fun s c ra s1 x g h hline hx hruns =>
      congrArg Host.Outcome.next (cacheOp_addr (instr := true) h hline hx hruns)
  · -- CACHE_INVALIDATE_IC by set and way
    exact fun s c ra s1 x h hx hruns => congrArg Host.Outcome.next (cacheOp_setWay h hx hruns)
  · -- CACHE_INVALIDATE_IC of all lines
    exact fun s c s1 x h hx hruns => congrArg Host.Outcome.next (cacheOp_all h hx hruns)

end Sys2Proof.Machine
end

section
/-! Proofs of the marionette's family: how a lane result narrows (R189), the steps of Tables 6.3 and 6.4, the loading, the end
and the budget of a run (R195, R202, R203), and what a write of TILE_MCMD does (R202, R204). -/

namespace Sys2Proof.Machine

/-! ### Narrowing to a lane (R189) -/

/-- The lowest value of a lane. -/
def laneLo (sgn : Bool) (w : Nat) : Int := if sgn then -(2 ^ (8 * w - 1)) else 0

/-- The highest value of a lane. -/
def laneHi (sgn : Bool) (w : Nat) : Int := if sgn then 2 ^ (8 * w - 1) - 1 else 2 ^ (8 * w) - 1

theorem laneLo_le_laneHi (sgn : Bool) (w : Nat) : laneLo sgn w ≤ laneHi sgn w := by
  have hhalf : (0 : Int) < 2 ^ (8 * w - 1) := by positivity
  have hfull : (0 : Int) < 2 ^ (8 * w) := by positivity
  cases sgn with
  | false => exact Int.le_sub_one_of_lt hfull
  | true => exact (neg_neg_of_pos hhalf).le.trans (Int.le_sub_one_of_lt hhalf)

theorem unsignedOf_lt (r : Int) (k : Nat) : unsignedOf r k < 2 ^ k := by
  have hpos : (0 : Int) < ((2 ^ k : Nat) : Int) := by positivity
  have hlt := Int.emod_lt_of_pos r hpos
  unfold unsignedOf
  omega

theorem unsignedOf_cast (r : Int) (k : Nat) : (unsignedOf r k : Int) = r % 2 ^ k := by
  have hnonneg := Int.emod_nonneg r (show ((2 ^ k : Nat) : Int) ≠ 0 by positivity)
  rw [unsignedOf, Int.toNat_of_nonneg hnonneg, Nat.cast_pow, Nat.cast_ofNat]

/-- Reading back as signed what was written at the same width. -/
theorem signedOf_unsignedOf {r : Int} {k : Nat} (hk : 0 < k) (hlo : -(2 ^ (k - 1)) ≤ r) (hhi : r < 2 ^ (k - 1)) :
    signedOf (unsignedOf r k) k = r := by
  have hdouble : (2 : Int) ^ k = 2 * 2 ^ (k - 1) := by rw [← pow_succ', Nat.sub_add_cancel hk]
  have hcast := unsignedOf_cast r k
  have hpow : ((2 ^ (k - 1) : Nat) : Int) = 2 ^ (k - 1) := by push_cast; rfl
  have hpow' : ((2 ^ k : Nat) : Int) = 2 ^ k := by push_cast; rfl
  rw [signedOf, Nat.mod_eq_of_lt (unsignedOf_lt r k)]
  rcases lt_or_ge r 0 with hneg | hnonneg
  · have hmod : r % 2 ^ k = r + 2 ^ k := by
      rw [← Int.add_emod_right, Int.emod_eq_of_lt] <;> omega
    rw [if_neg (by omega), hcast, hmod, hpow']
    omega
  · have hmod : r % 2 ^ k = r := Int.emod_eq_of_lt hnonneg (by omega)
    rw [if_pos (by omega), hcast, hmod]

/-- A value within a lane's range reads back as itself. -/
theorem laneVal_unsignedOf {sgn : Bool} {w : Nat} {r : Int} (hw : 0 < w) (hlo : laneLo sgn w ≤ r) (hhi : r ≤ laneHi sgn w) :
    laneVal sgn w (unsignedOf r (8 * w)) = r := by
  cases sgn with
  | false =>
    have hlt : r < 2 ^ (8 * w) := Int.lt_of_le_sub_one hhi
    exact (unsignedOf_cast r (8 * w)).trans (Int.emod_eq_of_lt hlo hlt)
  | true => exact signedOf_unsignedOf (by omega) hlo (Int.lt_of_le_sub_one hhi)

/-- The three cases of the common rule: below the range, above it, or neither or without SAT. -/
theorem narrow_eq (sgn sat : Bool) (w : Nat) (r : Int) :
    narrow sgn sat w r =
      if sat ∧ r < laneLo sgn w then (unsignedOf (laneLo sgn w) (8 * w), true)
      else if sat ∧ laneHi sgn w < r then (unsignedOf (laneHi sgn w) (8 * w), true)
      else (unsignedOf r (8 * w), false) := by
  simp only [narrow, laneLo, laneHi, Nat.cast_pow, Nat.cast_ofNat]
  rfl

theorem narrow_fst_lt (sgn sat : Bool) (w : Nat) (r : Int) : (narrow sgn sat w r).1 < 2 ^ (8 * w) := by
  rw [narrow_eq]
  split
  · exact unsignedOf_lt _ _
  · split <;> exact unsignedOf_lt _ _

theorem narrow_wraps (sgn : Bool) (w : Nat) (r : Int) : narrow sgn false w r = (unsignedOf r (8 * w), false) := by
  simp [narrow_eq]

section
variable {sgn sat : Bool} {w : Nat} {r : Int}

theorem narrow_within (hlo : laneLo sgn w ≤ r) (hhi : r ≤ laneHi sgn w) :
    narrow sgn sat w r = (unsignedOf r (8 * w), false) := by
  rw [narrow_eq, if_neg fun h => hlo.not_gt h.2, if_neg fun h => hhi.not_gt h.2]

theorem narrow_below (h : r < laneLo sgn w) : narrow sgn true w r = (unsignedOf (laneLo sgn w) (8 * w), true) := by
  rw [narrow_eq, if_pos ⟨rfl, h⟩]

theorem narrow_above (h : laneHi sgn w < r) : narrow sgn true w r = (unsignedOf (laneHi sgn w) (8 * w), true) := by
  have hlo : ¬ r < laneLo sgn w := ((laneLo_le_laneHi sgn w).trans_lt h).not_gt
  rw [narrow_eq, if_neg fun h => hlo h.2, if_pos ⟨rfl, h⟩]

end

/-- Settles O58: without SAT a result wraps; with SAT one outside the range becomes the end it passed, which lies in the range. -/
theorem lanesWrapOrClamp : Obligations.LanesWrapOrClamp := by
  intro sgn sat w r hw
  have hpos : 0 < w := by omega
  refine ⟨narrow_fst_lt sgn sat w r, ?_, fun hlo hhi => ?_, ?_, ?_⟩
  · rintro rfl
    simp only [narrow_wraps]
    exact ⟨unsignedOf_cast r (8 * w), trivial⟩
  · have hx : narrow sgn sat w r = (unsignedOf r (8 * w), false) := narrow_within hlo hhi
    simp only [hx]
    exact ⟨laneVal_unsignedOf hpos hlo hhi, trivial⟩
  · rintro rfl hlt
    have hx : narrow sgn true w r = (unsignedOf (laneLo sgn w) (8 * w), true) := narrow_below hlt
    simp only [hx]
    exact ⟨laneVal_unsignedOf hpos le_rfl (laneLo_le_laneHi sgn w), trivial⟩
  · rintro rfl hlt
    have hx : narrow sgn true w r = (unsignedOf (laneHi sgn w) (8 * w), true) := narrow_above hlt
    simp only [hx]
    exact ⟨laneVal_unsignedOf hpos (laneLo_le_laneHi sgn w) le_rfl, trivial⟩

/-! ### One execution of a due step (R187, R189, R195) -/

theorem dueAs_spec {s : State} {t code : Nat} {st : Step} (h : dueAs s t code = some st) :
    dueStep s t = some st ∧ st.op = code := by
  unfold dueAs at h
  split at h
  · next st' hdue =>
    split at h
    · next hop => exact Option.some.inj h ▸ ⟨hdue, hop⟩
    · cases h
  · cases h

theorem ok_of_gotOf {α : Type} {g : Got α} {v : α} {s : State} (h : gotOf g = some (v, s)) : g = .ok v s := by
  cases g with
  | ok v' s' => cases h; rfl
  | stop code s' => cases h

theorem putStream_of_puttable {s s2 : State} {t : Nat} {st : Step} {e : Exec} (h : puttable s t st e = some s2)
    (hout : st.op ≠ 0 ∧ (st.dst = 8 ∨ st.dst = 9)) : putStream s t (st.dst - 8) (streamBytes e) = .done s2 := by
  rw [puttable, if_pos hout] at h
  split at h
  · next s' hput => rw [hput, Option.some.inj h]
  · cases h

theorem puttable_of_vector {s : State} {t : Nat} {st : Step} (e : Exec) (h : st.dst ≠ 8 ∧ st.dst ≠ 9) :
    puttable s t st e = some s :=
  if_neg fun hout => hout.2.elim h.1 h.2

section
variable {s s1 s2 : State} {t code : Nat} {st : Step} {a b : Nat × Nat}

/-- A due step that its reads do not stop, and whose output there is room for, takes its effect and selects the next one. -/
theorem mariRun_of_due {streams : Step → List Nat} {f : State → Nat → Step → Got Exec} {e : Exec}
    (hdue : dueAs s t code = some st) (hf : f s t st = .ok e s1) (hput : puttable s1 t st e = some s2) :
    mariRun s t code code streams f = finishExec s2 t st (streams st) e := by
  obtain ⟨hstep, rfl⟩ := dueAs_spec hdue
  simp only [mariRun, hstep, lt_irrefl, or_self, if_false, hf]
  split
  · next hout => rw [putStream_of_puttable hput hout]
  · next hout =>
    rw [puttable, if_neg hout] at hput
    rw [Option.some.inj hput]

/-! What the operations of one shape make of their operands. -/

/-- The lanes of two vectors, taken as values and combined. -/
def zipLanes {α : Type} (f : Int → Int → α) (st : Step) (a b : Nat) : List α :=
  List.zipWith (fun x y => f (laneVal st.sgn st.w x) (laneVal st.sgn st.w y)) (lanesOf st.w a st.lanes) (lanesOf st.w b st.lanes)

/-- The execution that exact results of `w` bytes make, narrowed. -/
def narrowedExec (m : Mari) (st : Step) (w tag : Nat) (rs : List Int) : Exec :=
  { plain m (packLanes w (narrowAll st w rs).1) tag with clamped := (narrowAll st w rs).2 }

/-- The execution of a comparison: a mask bit and a lane of ones or zeros for each test. -/
def comparedExec (s : State) (t : Nat) (st : Step) (tag : Nat) (test : List Bool) : Exec :=
  maskExec s t st test (test.map (fun k => if k then 2 ^ (8 * st.w) - 1 else 0)) tag

theorem opArith_of_read (f : Int → Int → Int) (h : gotOf (readAB s t st) = some ((a, b), s1)) :
    opArith f s t st = .ok (narrowedExec (s1.tile t).mari st st.w (tagAB st a.2 b.2) (zipLanes f st a.1 b.1)) s1 := by
  simp only [opArith, ok_of_gotOf h, narrowedExec, zipLanes]

theorem opBits_of_read (f : Nat → Nat → Nat) (h : gotOf (readAB s t st) = some ((a, b), s1)) :
    opBits f s t st = .ok (plain (s1.tile t).mari (f a.1 b.1) (tagAB st a.2 b.2)) s1 := by
  simp only [opBits, ok_of_gotOf h]

theorem opCmp_of_read (f : Int → Int → Bool) (h : gotOf (readAB s t st) = some ((a, b), s1)) :
    opCmp f s t st = .ok (comparedExec s1 t st (tagAB st a.2 b.2) (zipLanes f st a.1 b.1)) s1 := by
  simp only [opCmp, ok_of_gotOf h, comparedExec, zipLanes]

theorem opShift_of_read (f : Int → Int) (h : gotOf (readSrc s t st st.srca) = some (a, s1)) :
    opShift f s t st = .ok (narrowedExec (s1.tile t).mari st st.w a.2
      ((lanesOf st.w a.1 st.lanes).map (fun x => f (laneVal st.sgn st.w x)))) s1 := by
  simp only [opShift, ok_of_gotOf h, narrowedExec]

theorem opMov_of_read (h : gotOf (readSrc s t st st.srca) = some (a, s1)) :
    opMov s t st = .ok (plain (s1.tile t).mari a.1 a.2) s1 := by
  simp only [opMov, ok_of_gotOf h]

end

/-- Settles O24: every row is the one execution of a due step, with what its operation makes of the operands read. -/
theorem marionetteLaneStepsComplete : Obligations.MarionetteLaneStepsComplete := by
  refine ⟨?_, ?_, ?_, ?_, ?_, ?_, ?_, ?_, ?_, ?_, ?_, ?_, ?_, ?_, ?_, ?_, ?_⟩
  · -- MARI_NOP
    rintro s ti st s1 s2 hdue rfl hput
    exact congrArg Host.Outcome.next (mariRun_of_due (f := opNop) hdue rfl hput)
  · -- MARI_MOV
    exact fun s ti st a s1 s2 hdue hread hput =>
      congrArg Host.Outcome.next (mariRun_of_due hdue (opMov_of_read hread) hput)
  · -- MARI_ADD
    exact fun s ti st a b s1 s2 hdue hread hput =>
      congrArg Host.Outcome.next (mariRun_of_due hdue (opArith_of_read (· + ·) hread) hput)
  · -- MARI_SUB
    exact fun s ti st a b s1 s2 hdue hread hput =>
      congrArg Host.Outcome.next (mariRun_of_due hdue (opArith_of_read (· - ·) hread) hput)
  · -- MARI_MIN
    exact fun s ti st a b s1 s2 hdue hread hput =>
      congrArg Host.Outcome.next (mariRun_of_due hdue (opArith_of_read min hread) hput)
  · -- MARI_MAX
    exact fun s ti st a b s1 s2 hdue hread hput =>
      congrArg Host.Outcome.next (mariRun_of_due hdue (opArith_of_read max hread) hput)
  · -- MARI_AND
    exact fun s ti st a b s1 s2 hdue hread hput =>
      congrArg Host.Outcome.next (mariRun_of_due hdue (opBits_of_read (· &&& ·) hread) hput)
  · -- MARI_OR
    exact fun s ti st a b s1 s2 hdue hread hput =>
      congrArg Host.Outcome.next (mariRun_of_due hdue (opBits_of_read (· ||| ·) hread) hput)
  · -- MARI_XOR
    exact fun s ti st a b s1 s2 hdue hread hput =>
      congrArg Host.Outcome.next (mariRun_of_due hdue (opBits_of_read (· ^^^ ·) hread) hput)
  · -- MARI_CMPGT
    exact fun s ti st a b s1 s2 hdue hread hput =>
      congrArg Host.Outcome.next (mariRun_of_due hdue (opCmp_of_read (fun x y => decide (y < x)) hread) hput)
  · -- MARI_CMPGE
    exact fun s ti st a b s1 s2 hdue hread hput =>
      congrArg Host.Outcome.next (mariRun_of_due hdue (opCmp_of_read (fun x y => decide (y ≤ x)) hread) hput)
  · -- MARI_CMPEQ
    exact fun s ti st a b s1 s2 hdue hread hput =>
      congrArg Host.Outcome.next (mariRun_of_due hdue (opCmp_of_read (fun x y => decide (x = y)) hread) hput)
  · -- MARI_THR
    exact fun s ti st a s1 s2 hdue hread hput => congrArg Host.Outcome.next
      (mariRun_of_due (f := opThr) hdue (by simp only [opThr, ok_of_gotOf hread]) hput)
  · -- MARI_SEL
    exact fun s ti st a b s1 s2 hdue hread hput => congrArg Host.Outcome.next
      (mariRun_of_due (f := opSel) hdue (by simp only [opSel, ok_of_gotOf hread]) hput)
  · -- MARI_SHL
    exact fun s ti st a s1 s2 hdue hread hput => congrArg Host.Outcome.next (mariRun_of_due
      (f := fun s t st => opShift (fun x => x * ((2 ^ st.sh : Nat) : Int)) s t st) hdue (opShift_of_read _ hread) hput)
  · -- MARI_SHR
    exact fun s ti st a s1 s2 hdue hread hput => congrArg Host.Outcome.next (mariRun_of_due
      (f := fun s t st => opShift (fun x => x / ((2 ^ st.sh : Nat) : Int)) s t st) hdue (opShift_of_read _ hread) hput)
  · -- MARI_SHN
    exact fun s ti st a b s1 s2 hdue hread hput => congrArg Host.Outcome.next
      (mariRun_of_due (f := opShn) hdue (by simp only [opShn, ok_of_gotOf hread]) hput)

/-! ### The loading, the end and the budget of a run (R195, R202, R203) -/

theorem mariLoadDone_of_read {s s1 : State} {t g n : Nat} {bs : List Byte} (hstate : s.fld (R.TILE_MSTAT_MSTATE t) = 1)
    (hg : g = tileLocalAddr t (tableAddr s t (s.fld (R.TILE_MSET_BASE t) + 64) (s.tile t).mari.tab))
    (hn : n = s.memNat (g + 2) 2) (hread : readRam s g (64 + 16 * n) = (bs, s1, none)) :
    mariLoadDone s t = mariGo (updMari s1 t (fun m =>
      { m with steps := (List.range n).map (fun i => leAt bs (64 + 16 * i) 16), nstep := n, line := leAt bs 4 2,
               start := leAt bs 6 2, budget := leAt bs 8 4, step := leAt bs 6 2, k := 0, fresh := true,
               resident := some (curLoading s t, m.tab) })) t := by
  subst hn hg
  have hloading : ¬ s.fld (R.TILE_MSTAT_MSTATE t) ≠ 1 := not_not.mpr hstate
  simp only [mariLoadDone, if_neg hloading, hread]
  rfl

theorem mariRunEnd_of_accepted {s : State} {t code : Nat} (hend : (s.tile t).mari.ending = some code)
    (hrun : s.fld (R.TILE_MSTAT_MSTATE t) = 2) (hacc : codecWaiting (s.tile t) = 0 ∧ kqTotal (s.tile t) ≤ 4096) :
    mariRunEnd s t = mariReport s t code := by
  have hout : outputsAccepted (s.tile t) = true := by simp [outputsAccepted, hacc]
  simp only [mariRunEnd, hend, hrun, hout, and_self, if_true]

theorem mariBudget_of_spent {s : State} {t : Nat} (hrun : s.fld (R.TILE_MSTAT_MSTATE t) = 2)
    (hend : (s.tile t).mari.ending = none) (hbudget : (s.tile t).mari.budget ≠ 0)
    (hspent : s.fld (R.TILE_MEXEC_COUNT t) = (s.tile t).mari.budget) : mariBudget s t = mariEnding s t errBudget :=
  if_pos ⟨hrun, hend, hbudget, hspent⟩

/-- Settles O25: the counting steps are executions of a due step like those of a lane operation; a table that reads without
error is loaded, a run whose bytes are accepted is reported, and one that has spent its budget ends. -/
theorem marionetteCountsAndRunsComplete : Obligations.MarionetteCountsAndRunsComplete := by
  refine ⟨?_, ?_, ?_, ?_, ?_, ?_, ?_, ?_, ?_, ?_, ?_⟩
  · -- MARI_POPC
    rintro s ti st s1 s2 hdue rfl hput
    exact congrArg Host.Outcome.next (mariRun_of_due (f := opPopc) hdue rfl hput)
  · -- MARI_PSUM
    exact fun s ti st a s1 s2 hdue hread hput => congrArg Host.Outcome.next
      (mariRun_of_due (f := opPsum) hdue (by simp only [opPsum, ok_of_gotOf hread]) hput)
  · -- MARI_CPK
    exact fun s ti st a s1 s2 hdue hread hput => congrArg Host.Outcome.next
      (mariRun_of_due (f := opCpk) hdue (by simp only [opCpk, ok_of_gotOf hread]) hput)
  · -- MARI_CPKP
    exact fun s ti st a s1 s2 hdue hread hput => congrArg Host.Outcome.next
      (mariRun_of_due (f := opCpkp) hdue (by simp only [opCpkp, ok_of_gotOf hread]) hput)
  · -- MARI_HIST
    rintro s ti st a s1 s2 hov xs hdue hread rfl hbins hdst
    refine congrArg Host.Outcome.next (mariRun_of_due (f := opHist) hdue ?_ (puttable_of_vector _ hdst))
    simp only [opHist, ok_of_gotOf hread, Nat.add_sub_cancel, ok_of_gotOf hbins]
  · -- MARI_NSUM3
    exact fun s ti st tag rw m s1 s2 hdue hread hput => congrArg Host.Outcome.next
      (mariRun_of_due (f := opNsum3) hdue (by unfold opNsum3; rewrite [ok_of_gotOf hread]; rfl) hput)
  · -- MARI_LMAX3
    exact fun s ti st tag rw m s1 s2 hdue hread hput => congrArg Host.Outcome.next
      (mariRun_of_due (f := opLmax3) hdue (by simp only [opLmax3, ok_of_gotOf hread]) hput)
  · -- MARI_GATH
    exact fun s ti st a s1 s2 s3 xs hdue hread hgather hput => congrArg Host.Outcome.next
      (mariRun_of_due (f := opGath) hdue (by simp only [opGath, ok_of_gotOf hread, ok_of_gotOf hgather]) hput)
  · -- MARI_LOAD_DONE
    exact fun s ti g n bs s1 hstate hg hn hread =>
      congrArg Host.Outcome.next (mariLoadDone_of_read hstate hg hn hread)
  · -- MARI_RUN_END
    exact fun s ti code hend hrun hacc => congrArg Host.Outcome.next (mariRunEnd_of_accepted hend hrun hacc)
  · -- MARI_BUDGET_EXPIRY
    exact fun s ti hrun hend hbudget hspent =>
      congrArg Host.Outcome.next (mariBudget_of_spent hrun hend hbudget hspent)

/-! ### A write of TILE_MCMD (R202) -/

/-- A 32-bit write by a requester that reaches the block of its offset. -/
theorem writeBy_of_reaches {s : State} {rq : Requester} {off v : Nat} {b : BlockId} (halign : off % 4 = 0)
    (hblock : windowBlock off = some b) (h : reaches s rq b = true) :
    writeBy s rq off v = blockWrite s rq b (off % blockWindow) (v % 2 ^ 32) := by
  obtain ⟨hmay, hbar⟩ := Bool.and_eq_true_iff.mp h
  have hwrite : regWriteWd s rq off .w32 v = some (blockWrite s rq b (off % blockWindow) (v % 2 ^ 32)) := by
    simp [regWriteWd, regWrite, halign, hblock, hmay]
  unfold writeBy writeByWd
  cases rq with
  | classA k => rw [if_pos hbar, hwrite, Option.getD_some]
  | core c => rw [hwrite, Option.getD_some]
  | classD => rw [hwrite, Option.getD_some]
  | dma c => rw [hwrite, Option.getD_some]

theorem fld_setFld_of_ne_zero (s : State) (f : Fld) {v : Nat} (h : v % 2 ^ f.width ≠ 0) :
    (s.setFld f v).fld f = v % 2 ^ f.width := by
  rw [State.fld, State.setFld_regs, tblSet, if_neg h, tblGet_tblPut_same]

theorem tile_setTile_of_ne_reset (s : State) (t : Nat) {x : Tile} (h : x ≠ Tile.reset) : (s.setTile t x).tile t = x := by
  rw [State.tile, State.setTile, tblSet, if_neg h, tblGet_tblPut_same]

section
variable {s : State} {rq : Requester} {ti : TileId}

theorem mcmd_of_reaches (cmd tab step : Nat) (h : reaches s rq (.tile ti) = true) :
    mcmd s rq ti.val cmd tab step = mcmdWrite s ti.val ((cmd + tab * 2 ^ 8 + 2 ^ 16 * step) % 2 ^ 32) := by
  have hoff : (0x400040 + 0x10000 * ti.val) % 4 = 0 ∧ (0x400040 + 0x10000 * ti.val) % blockWindow = 0x40 := by
    unfold blockWindow
    omega
  have hblock : ∀ t : TileId, windowBlock (0x400040 + 0x10000 * t.val) = some (.tile t) := by decide +kernel
  rw [mcmd, writeBy_of_reaches hoff.1 (hblock ti) h, hoff.2]
  rfl

/-- The state in which a command of TILE_MCMD acts: TAB and STEP have taken their values. -/
def mcmdTaken (s : State) (t v : Nat) : State :=
  s.setFlds [(R.TILE_MCMD_TAB t, bitsOf v 8 3), (R.TILE_MCMD_STEP t, bitsOf v 16 10)]

theorem writeCodes_mcmd {v : Nat} (hcmd : bitsOf v 0 3 ≤ 3) : writeCodes s (.tile ti) 0x40 v = mcmdTaken s ti.val v := by
  have hcard : ∀ t : TileId, (findCard (blockBase (.tile t) + 0x40)).map (fun x => x.1.fields) =
      some [⟨0, 3, .wo, .val 0, .ranges [(0, 3)]⟩, ⟨8, 3, .rw, .val 0, .any⟩, ⟨16, 10, .rw, .val 0, .any⟩] := by
    decide +kernel
  obtain ⟨⟨c, nk⟩, hfound, hfields⟩ := Option.map_eq_some_iff.mp (hcard ti)
  dsimp only at hfields
  have hbase : blockBase (.tile ti) + 0x40 = 0x400040 + 0x10000 * ti.val := Nat.add_right_comm _ _ _
  unfold writeCodes
  rw [hfound]
  simp [hfields, writeField, legalFor, setLegal, hcmd, hbase, mcmdTaken, State.setFlds, R.TILE_MCMD_TAB,
    R.TILE_MCMD_STEP]

end

section
variable {s : State} {t : Nat}

/-- A command of TILE_MCMD finds every field of another register as it was. -/
theorem fld_mcmdTaken {g : Fld} (v : Nat) (hlo : g.lo < 32) (hoff : g.off ≠ 0x400040 + 0x10000 * t) :
    (mcmdTaken s t v).fld g = s.fld g := by
  refine fld_setFlds_out s _ g fun e he => ?_
  have hkey : e.1.off = 0x400040 + 0x10000 * t ∧ e.1.lo < 32 := by
    fin_cases he <;> simp [R.TILE_MCMD_TAB, R.TILE_MCMD_STEP]
  unfold Fld.key
  omega

theorem isBroken_mcmdTaken (v n : Nat) : isBroken (mcmdTaken s t v) t n = isBroken s t n := by
  have hspace : (mcmdTaken s t v).fld (R.TILE_MIS_AHI_SPACE t n) = s.fld (R.TILE_MIS_AHI_SPACE t n) :=
    fld_mcmdTaken v (by simp [R.TILE_MIS_AHI_SPACE]) (by simp only [R.TILE_MIS_AHI_SPACE]; omega)
  have halo : (mcmdTaken s t v).fld (R.TILE_MIS_ALO_ALO t n) = s.fld (R.TILE_MIS_ALO_ALO t n) :=
    fld_mcmdTaken v (by simp [R.TILE_MIS_ALO_ALO]) (by simp only [R.TILE_MIS_ALO_ALO]; omega)
  have hlen : (mcmdTaken s t v).fld (R.TILE_MIS_LEN_LEN t n) = s.fld (R.TILE_MIS_LEN_LEN t n) :=
    fld_mcmdTaken v (by simp [R.TILE_MIS_LEN_LEN]) (by simp only [R.TILE_MIS_LEN_LEN]; omega)
  simp only [isBroken, isSpace, isLen, State.flag, hspace, halo, hlen]
  rfl

/-- Restarting the output streams rewritten during a pause changes registers alone. -/
theorem foldl_setFld_eq_regs (s : State) (f : Nat → Fld) (ns : List Nat) :
    ∃ r, ns.foldl (fun acc n => acc.setFld (f n) 0) s = { s with regs := r } := by
  induction ns generalizing s with
  | nil => exact ⟨s.regs, rfl⟩
  | cons n ns ih => exact (ih (s.setFld (f n) 0)).imp fun r hr => hr

/-- The marionette of a tile as RESUME leaves it: at the step named, with the offsets of the streams not rewritten (R204). -/
def resumedMari (s : State) (t step : Nat) : Mari :=
  { (s.tile t).mari with
    isOff := tblKeep (fun n => !(s.tile t).mari.isRewritten.contains n) (s.tile t).mari.isOff, isRewritten := [],
    osRewritten := [], step := step, k := 0, fresh := decide (step ≠ s.fld (R.TILE_MSTAT_LAST t)) }

theorem mariResume_eq_mariGo {step : Nat} (hpaused : s.fld (R.TILE_MSTAT_MSTATE t) = 3)
    (hstep : step < (s.tile t).mari.nstep) (hstreams : (List.range 4).any (isBroken s t) = false) :
    ∃ r, mariResume s t step =
      mariGo ({ s with regs := r }.setTile t { s.tile t with mari := resumedMari s t step }) t := by
  obtain ⟨r, hr⟩ := foldl_setFld_eq_regs s (R.TILE_MOS_USED_USED t) (s.tile t).mari.osRewritten
  have hgo : ¬ s.fld (R.TILE_MSTAT_MSTATE t) ≠ 3 := not_not.mpr hpaused
  have hok : ¬ ((s.tile t).mari.nstep ≤ step ∨ (List.range 4).any (isBroken s t) = true) := by
    simp only [hstreams, Bool.false_eq_true, or_false, not_le, hstep]
  refine ⟨r, ?_⟩
  simp only [mariResume, if_neg hgo, if_neg hok, hr]
  rfl

/-- RESUME of a paused run: it goes on RUNNING at the step named, with its vectors (R202). -/
theorem mariResume_of_paused {u : State} {step : Nat} (hpaused : s.fld (R.TILE_MSTAT_MSTATE t) = 3)
    (hstep : step < (s.tile t).mari.nstep) (hstreams : (List.range 4).any (isBroken s t) = false)
    (hu : mariResume s t step = u) :
    u.fld (R.TILE_MSTAT_MSTATE t) = 2 ∧ (u.tile t).mari = resumedMari s t step ∧
      u = { s with regs := u.regs, tiles := u.tiles } := by
  obtain ⟨r, hgo⟩ := mariResume_eq_mariGo hpaused hstep hstreams
  have hne : { s.tile t with mari := resumedMari s t step } ≠ Tile.reset := fun h =>
    have hzero : (s.tile t).mari.nstep = 0 := congrArg (fun x => x.mari.nstep) h
    Nat.not_lt_zero step (hzero ▸ hstep)
  obtain rfl := hgo.symm.trans hu
  exact ⟨fld_setFld_of_ne_zero _ _ (v := 2) (Nat.succ_ne_zero 1), congrArg Tile.mari (tile_setTile_of_ne_reset _ t hne), rfl⟩

end

section
variable {s : State} {rq : Requester} {ti : TileId} {step : Fin 1024}

/-- The write of RESUME names its step, where the TAB it writes back is held at its width. -/
theorem step_of_resume_write {tab : Nat} (htab : tab < 8) :
    bitsOf ((2 + tab * 2 ^ 8 + 2 ^ 16 * step.val) % 2 ^ 32) 0 3 = 2 ∧
      bitsOf ((2 + tab * 2 ^ 8 + 2 ^ 16 * step.val) % 2 ^ 32) 16 10 = step.val := by
  simp only [bitsOf, Nat.shiftRight_eq_div_pow]
  omega

/-- In a state that holds TILE_MCMD.TAB at its width, MARI_RESUME completes as O10 says. -/
theorem exec_mariResume_of_tab_lt (hreach : reaches s rq (.tile ti) = true)
    (hpaused : s.fld (R.TILE_MSTAT_MSTATE ti.val) = 3) (hstep : step.val < (s.tile ti.val).mari.nstep)
    (hstreams : (List.range 4).any (isBroken s ti.val) = false) (htab : s.fld (R.TILE_MCMD_TAB ti.val) < 8) :
    ∃ u, exec (.mariResume rq ti step) s = .next u ∧ u.fld (R.TILE_MSTAT_MSTATE ti.val) = 2 ∧
      (u.tile ti.val).mari.step = step.val ∧ (u.tile ti.val).mari.k = 0 ∧
      (u.tile ti.val).mari.v = (s.tile ti.val).mari.v ∧ u = { s with regs := u.regs, tiles := u.tiles } := by
  obtain ⟨hcmd, hnamed⟩ := step_of_resume_write (step := step) htab
  have hwrite := mcmd_of_reaches 2 (s.fld (R.TILE_MCMD_TAB ti.val)) step.val hreach
  generalize (2 + s.fld (R.TILE_MCMD_TAB ti.val) * 2 ^ 8 + 2 ^ 16 * step.val) % 2 ^ 32 = v at hcmd hnamed hwrite
  have hact : mcmdWrite s ti.val v = mariResume (mcmdTaken s ti.val v) ti.val step.val := by
    have htile : Fin.ofNat 32 ti.val = ti := Fin.ofNat_val_eq_self ti
    simp only [mcmdWrite, hcmd, hnamed, htile, writeCodes_mcmd (hcmd.le.trans (by decide))]
    rfl
  have hpaused' : (mcmdTaken s ti.val v).fld (R.TILE_MSTAT_MSTATE ti.val) = 3 := by
    rw [fld_mcmdTaken v (by simp [R.TILE_MSTAT_MSTATE]) (by simp only [R.TILE_MSTAT_MSTATE]; omega), hpaused]
  have hstreams' : (List.range 4).any (isBroken (mcmdTaken s ti.val v) ti.val) = false :=
    (congrArg _ (funext (isBroken_mcmdTaken v))).trans hstreams
  obtain ⟨hrun, hmari, hrest⟩ := mariResume_of_paused hpaused' hstep hstreams' rfl
  refine ⟨_, congrArg Host.Outcome.next (hwrite.trans hact), hrun, ?_, ?_, ?_, hrest⟩ <;> rw [hmari] <;> rfl

end

/-! The clause of O10 for MARI_RESUME has no such hypothesis. The row writes TILE_MCMD with the TAB that the state holds, and a
value above the field's three bits, which the canonical form of the registers allows, runs into STEP. -/

/-- Tile 3 with a paused run of 1,024 steps, and 256 held in the three bits of TILE_MCMD.TAB. -/
def wideTab : State :=
  { tiny.setTile 3 { Tile.reset with mari := { Mari.reset with nstep := 1024 } } with
    regs := [((R.TILE_MCMD_TAB 3).key, 256), ((R.TILE_MSTAT_MSTATE 3).key, 3)] }

theorem step_resumed_wideTab : ((mcmd wideTab (.core 3) 3 2 256 0).tile 3).mari.step = 1 := by decide +kernel

/-- Refutes O10: MARI_RESUME at step 0 of a run whose TILE_MCMD.TAB holds 256 goes on at step 1. -/
theorem not_unitCommandsComplete : ¬ Obligations.UnitCommandsComplete := by
  intro h
  obtain ⟨-, hresume, -⟩ := h
  obtain ⟨t, ht, -, hstep, -⟩ := hresume wideTab (.core 3) 3 0 (by decide +kernel) (by decide +kernel) (by decide +kernel)
    (by decide +kernel) (by decide +kernel)
  obtain rfl : mcmd wideTab (.core 3) 3 2 256 0 = t := Host.Outcome.next.inj ht
  exact absurd (step_resumed_wideTab.symm.trans hstep) (by decide)

end Sys2Proof.Machine
end

section
/-! Proofs of the block code's family: the mapped value of a residual and its inverse (R212), the bytes a fixed-ratio block
reconstructs (R218), and the forming of a whole block (R222, R223). -/

namespace Sys2Proof.Machine

/-! ### Residuals (R212) -/

/-- The residual (q - p) mod `2 * m` as a number from 0, before its two's-complement reading. -/
def residual (m q p : Nat) : Nat := (q + 2 * m - p) % (2 * m)

section
variable {m q p : Nat}

theorem residual_eq (hq : q < 2 * m) (hp : p < 2 * m) : residual m q p = if p ≤ q then q - p else q + 2 * m - p := by
  unfold residual
  split
  · next hle =>
    rw [show q + 2 * m - p = q - p + 2 * m by omega, Nat.add_mod_right]
    exact Nat.mod_eq_of_lt (by omega)
  · next hgt => exact Nat.mod_eq_of_lt (by omega)

theorem residual_lt (hm : 0 < m) (q p : Nat) : residual m q p < 2 * m := Nat.mod_lt _ (by omega)

/-- The prediction and the residual give the value back. -/
theorem add_residual_mod (hq : q < 2 * m) (hp : p < 2 * m) : (p + residual m q p) % (2 * m) = q := by
  rw [residual_eq hq hp]
  split
  · next hle => rw [Nat.add_sub_cancel' hle, Nat.mod_eq_of_lt hq]
  · next hgt => rw [show p + (q + 2 * m - p) = q + 2 * m by omega, Nat.add_mod_right, Nat.mod_eq_of_lt hq]

/-- The two's-complement reading of the residual. -/
theorem bmod_eq_residual (hp : p < 2 * m) :
    Int.bmod ((q : Int) - p) (2 * m) = if residual m q p < m then (residual m q p : Int) else residual m q p - 2 * m := by
  have hmod : ((q : Int) - p) % ((2 * m : Nat) : Int) = (residual m q p : Nat) := by
    rw [residual, Int.natCast_mod, Nat.cast_sub (by omega), Nat.cast_add, add_sub_right_comm, Int.add_emod_right]
  rw [Int.bmod_def, hmod]
  split <;> split <;> omega

end

section
variable {j q p z : Nat}

theorem bmod_pow_succ_eq_residual (hp : p < 2 ^ (j + 1)) :
    Int.bmod ((q : Int) - p) (2 ^ (j + 1)) =
      if residual (2 ^ j) q p < 2 ^ j then (residual (2 ^ j) q p : Int)
      else residual (2 ^ j) q p - 2 * ((2 ^ j : Nat) : Int) := by
  rw [pow_succ'] at hp ⊢
  exact bmod_eq_residual hp

theorem mapResidual_succ (hp : p < 2 ^ (j + 1)) :
    mapResidual (j + 1) q p =
      if residual (2 ^ j) q p < 2 ^ j then 2 * residual (2 ^ j) q p else 2 * (2 * 2 ^ j - residual (2 ^ j) q p) - 1 := by
  rw [mapResidual, if_neg (Nat.succ_ne_zero j), Nat.mod_eq_of_lt hp, Nat.add_sub_cancel, pow_succ']
  rfl

theorem unmapResidual_succ (z p : Nat) :
    unmapResidual (j + 1) z p =
      if z % 2 = 0 then (p + z / 2) % (2 * 2 ^ j) else (p + 2 * 2 ^ j - (z + 1) / 2) % (2 * 2 ^ j) := by
  simp only [unmapResidual, if_neg (Nat.succ_ne_zero j), pow_succ']

/-- The decoder maps the mapped value back to the value it came from. -/
theorem unmapResidual_mapResidual (hq : q < 2 ^ (j + 1)) (hp : p < 2 ^ (j + 1)) :
    unmapResidual (j + 1) (mapResidual (j + 1) q p) p = q := by
  have hlt := residual_lt (Nat.two_pow_pos j) q p
  rw [unmapResidual_succ, mapResidual_succ hp]
  rw [pow_succ'] at hq hp
  refine Eq.trans ?_ (add_residual_mod hq hp)
  split
  · next hpos => rw [if_pos (Nat.mul_mod_right 2 _), Nat.mul_div_cancel_left _ Nat.two_pos]
  · next hneg =>
    rw [if_neg (by omega)]
    congr 1
    omega

/-- What the decoder forms from any mapped value: the prediction plus the residual read from it, mod 2^k. -/
theorem unmapResidual_succ_cast (hz : z < 2 ^ (j + 1)) :
    (unmapResidual (j + 1) z p : Int) =
      ((p : Int) + (if z % 2 = 0 then (z : Int) / 2 else -(((z : Int) + 1) / 2))) % 2 ^ (j + 1) := by
  rw [unmapResidual_succ]
  rw [pow_succ'] at hz ⊢
  split
  · push_cast
    rfl
  · rw [Int.natCast_mod, Nat.cast_sub (by omega)]
    push_cast
    rw [add_sub_right_comm, Int.add_emod_right, Int.sub_eq_add_neg]

end

/-- Settles O56: at width 0 every value is 0; at any other width the mapped value is even for a residual in the lower half of
the range, which reads as it stands, and odd for one in the upper half, which reads as negative. -/
theorem residualMappingInverts : Obligations.ResidualMappingInverts := by
  intro k q p hq hp
  cases k with
  | zero =>
    obtain rfl : q = 0 := Nat.lt_one_iff.mp hq
    obtain rfl : p = 0 := Nat.lt_one_iff.mp hp
    simp [mapResidual, unmapResidual]
  | succ j =>
    have hlt := residual_lt (Nat.two_pow_pos j) q p
    have hmap := mapResidual_succ (q := q) hp
    have hr := bmod_pow_succ_eq_residual (q := q) hp
    refine ⟨?_, ?_, ?_, unmapResidual_mapResidual hq hp, fun z hz => unmapResidual_succ_cast hz⟩
    all_goals rw [hmap]
    · intro hpos
      rw [hr] at hpos ⊢
      split <;> omega
    · intro hneg
      rw [hr] at hneg ⊢
      split <;> omega
    · rw [pow_succ']
      split <;> omega

/-! ### Samples as bytes and their reconstruction (R207, R218) -/

theorem leNat_leBytes (n v : Nat) : leNat (leBytes n v) = v % 256 ^ n := by
  induction n generalizing v with
  | zero => rw [pow_zero, Nat.mod_one]; rfl
  | succ n ih => rw [leBytes, leNat, ih, BitVec.toNat_ofNat, pow_succ' 256, Nat.mod_mul]

/-- Samples written as bytes one after another are read back, each at its width. -/
theorem samplesOf_leBytes (n : Nat) (ys : List Nat) :
    samplesOf n (ys.map (leBytes n)).flatten ys.length = ys.map (· % 256 ^ n) := by
  induction ys with
  | nil => rfl
  | cons y ys ih =>
    have htake : ((leBytes n y) ++ (ys.map (leBytes n)).flatten).take n = leBytes n y :=
      List.take_left' (leBytes_length n y)
    have hdrop : ((leBytes n y) ++ (ys.map (leBytes n)).flatten).drop n = (ys.map (leBytes n)).flatten :=
      List.drop_left' (leBytes_length n y)
    rw [List.map_cons, List.flatten_cons, List.length_cons, samplesOf, htake, hdrop, ih, leNat_leBytes, List.map_cons]

/-- A sample of `w` bits as the block at shift `s` gives it back. -/
def reconstructed (w s x : Nat) : Nat := if s = w then 0 else x / 2 ^ s * 2 ^ s

theorem reconstruct_eq (w s : Nat) (xs : List Nat) :
    reconstruct w s xs = ((xs.map (reconstructed w s)).map (leBytes (w / 8))).flatten := by
  simp only [reconstruct, List.map_map, Nat.shiftRight_eq_div_pow, Nat.shiftLeft_eq]
  rfl

theorem reconstructed_le (w s x : Nat) : reconstructed w s x ≤ x := by
  unfold reconstructed
  split
  · exact Nat.zero_le x
  · exact Nat.div_mul_le_self x _

/-- A shift drops the bits below it, and the shift of the whole width drops the sample. -/
theorem sub_reconstructed_le {w x : Nat} (s : Nat) (hx : x < 2 ^ w) : x - reconstructed w s x ≤ 2 ^ s - 1 := by
  unfold reconstructed
  split
  · next hs =>
    subst hs
    exact Nat.le_sub_one_of_lt hx
  · have hmod := Nat.mod_lt x (Nat.two_pow_pos s)
    have hdiv := Nat.div_add_mod' x (2 ^ s)
    omega

/-- Settles O57: what a block reconstructs lies at or below its sample, so it fits the bytes of the sample. -/
theorem fixedRatioErrorIsOneSided : Obligations.FixedRatioErrorIsOneSided := by
  intro w s xs hw _ hxs
  have hbytes : 256 ^ (w / 8) = 2 ^ w := by
    obtain rfl | rfl | rfl := hw <;> rfl
  refine ⟨?_, ?_⟩
  · calc samplesOf (w / 8) (reconstruct w s xs) xs.length
        = (xs.map (reconstructed w s)).map (· % 256 ^ (w / 8)) := by
          rw [reconstruct_eq, ← samplesOf_leBytes, List.length_map]
      _ = xs.map (reconstructed w s) := by
          rw [List.map_map]
          refine List.map_congr_left fun x hx => Nat.mod_eq_of_lt ?_
          rw [hbytes]
          exact (reconstructed_le w s x).trans_lt (hxs x hx)
  · rintro x hx y rfl
    exact ⟨reconstructed_le w s x, sub_reconstructed_le s (hxs x hx)⟩

/-! ### The forming of a whole block (R222, R223) -/

/-- The zero bytes that fill `n` bytes up to a whole sample of a WIDTH code. -/
def samplePad (width n : Nat) : Nat := (widthBits width / 8 - n % (widthBits width / 8)) % (widthBits width / 8)

/-- The block that the encode lane forms of pending bytes, filled up to a whole sample. -/
def paddedBlock (g : Seg) : InBlock :=
  ⟨g.job, g.prof, g.data ++ List.replicate (samplePad g.prof.width g.data.length) 0,
    crc32c (g.data ++ List.replicate (samplePad g.prof.width g.data.length) 0)⟩

section
variable {s : State} {t : Nat} {g : Seg} {rest : List Seg}

/-- At the widths of R207, 4,096 bytes are a whole number of samples. -/
theorem samplePad_of_width_le_two {width : Nat} (h : width ≤ 2) : samplePad width 4096 = 0 := by
  interval_cases width <;> rfl

/-- What a tile holds once its lane has formed the block of its first 4,096 pending bytes. -/
def withBlock (x : Tile) (rest : List Seg) (b : InBlock) : Tile := { x with segs := rest, formed := x.formed ++ [b] }

theorem blockForm_of_full (hsegs : (s.tile t).segs = g :: rest)
    (hroom : (s.tile t).formed.length + (s.tile t).encoded.length < 2) (hfull : g.data.length = 4096) :
    blockForm s t =
      if samplePad g.prof.width g.data.length = 0 then s.setTile t (withBlock (s.tile t) rest (paddedBlock g))
      else (s.setTile t (withBlock (s.tile t) rest (paddedBlock g))).raise (R.TILE_CDSTAT_PADDED t) := by
  have hgo : ¬ (2 ≤ (s.tile t).formed.length + (s.tile t).encoded.length ∨ (¬ g.closed ∧ g.data.length < 4096)) := by
    omega
  simp only [blockForm, hsegs, if_neg hgo]
  rfl

/-- At the widths of R207, CODEC_BLOCK_FORM completes as O26 says. -/
theorem exec_codecBlockForm_of_width_le_two {ti : TileId} (hsegs : (s.tile ti.val).segs = g :: rest)
    (hroom : (s.tile ti.val).formed.length + (s.tile ti.val).encoded.length < 2) (hfull : g.data.length = 4096)
    (hwidth : g.prof.width ≤ 2) :
    exec (.codecBlockForm ti) s =
      .next (s.setTile ti.val (withBlock (s.tile ti.val) rest ⟨g.job, g.prof, g.data, crc32c g.data⟩)) := by
  have hpad : samplePad g.prof.width g.data.length = 0 := hfull ▸ samplePad_of_width_le_two hwidth
  have hblock : paddedBlock g = ⟨g.job, g.prof, g.data, crc32c g.data⟩ := by
    rw [paddedBlock, hpad, List.replicate_zero, List.append_nil]
  refine congrArg Host.Outcome.next ?_
  rw [blockForm_of_full hsegs hroom hfull, if_pos hpad, hblock]

theorem tile_withBlock (x : Tile) (rest : List Seg) (b : InBlock) :
    (s.setTile t (withBlock x rest b)).tile t = withBlock x rest b :=
  tile_setTile_of_ne_reset s t fun h =>
    List.append_ne_nil_of_right_ne_nil x.formed (List.cons_ne_nil b []) (congrArg Tile.formed h)

theorem formed_blockForm_of_full (hsegs : (s.tile t).segs = g :: rest)
    (hroom : (s.tile t).formed.length + (s.tile t).encoded.length < 2) (hfull : g.data.length = 4096) :
    ((blockForm s t).tile t).formed = (s.tile t).formed ++ [paddedBlock g] := by
  have htile := tile_withBlock (s := s) (t := t) (s.tile t) rest (paddedBlock g)
  rw [blockForm_of_full hsegs hroom hfull]
  split
  · rw [htile]
    rfl
  · exact congrArg Tile.formed htile

end

/-! The clause of O26 for CODEC_BLOCK_FORM names no width. The loader takes widths 0 to 2 alone (Table 7.12), but the state can
hold any number, and from 13 on a sample is longer than the 4,096 bytes, so the lane fills them up. -/

/-- 4,096 pending bytes under a profile of WIDTH 13. -/
def wideSeg : Seg := ⟨⟨false, 1, 0, 0⟩, ⟨0, 0, 13, 0, 0⟩, List.replicate 4096 0, false⟩

/-- Tile 3 with these bytes in its codec input. -/
def wideInput : State := (tinyW []).setTile 3 { Tile.reset with segs := [wideSeg] }

theorem tile_wideInput : wideInput.tile 3 = { Tile.reset with segs := [wideSeg] } :=
  tile_setTile_of_ne_reset _ 3 fun h => List.cons_ne_nil wideSeg [] (congrArg Tile.segs h)

theorem length_data_wideSeg : wideSeg.data.length = 4096 := List.length_replicate

theorem length_paddedBlock_wideSeg : (paddedBlock wideSeg).data.length = 8192 := by
  rw [paddedBlock, List.length_append, List.length_replicate, length_data_wideSeg]
  rfl

/-- Refutes O26: of 4,096 pending bytes under a profile of WIDTH 13, CODEC_BLOCK_FORM forms a block of 8,192 bytes. -/
theorem not_codecAndIndexCommandsComplete : ¬ Obligations.CodecAndIndexCommandsComplete := by
  intro h
  obtain ⟨hform, -⟩ := h
  have hsegs : (wideInput.tile 3).segs = [wideSeg] := congrArg Tile.segs tile_wideInput
  have hroom : (wideInput.tile 3).formed.length + (wideInput.tile 3).encoded.length < 2 := by
    rw [tile_wideInput]
    exact Nat.two_pos
  have hnext := Host.Outcome.next.inj (hform wideInput 3 wideSeg [] hsegs hroom length_data_wideSeg)
  have hformed := formed_blockForm_of_full hsegs hroom length_data_wideSeg
  have hstated := congrArg Tile.formed (tile_withBlock (s := wideInput) (t := 3) (wideInput.tile 3) []
    ⟨wideSeg.job, wideSeg.prof, wideSeg.data, crc32c wideSeg.data⟩)
  have hblock := List.singleton_injective
    (List.append_cancel_left (hformed.symm.trans ((congrArg (fun u => (u.tile 3).formed) hnext).trans hstated)))
  have hlength : 8192 = 4096 := by
    rw [← length_paddedBlock_wideSeg, hblock, length_data_wideSeg]
  exact absurd hlength (by decide)

end Sys2Proof.Machine
end

section
/-! Proofs of the family of host and NVMe, the PCIe ports and the management endpoint: links, resets, D3hot and L1 (R264 to
R266, R488, R511), and the endpoint's answers (R300, R427, R485). -/

namespace Sys2Proof.Machine

/-! ### PCIe links and resets (R264, R265, R488, R489) -/

section
variable {s : State} {p : Nat}

/-- PE_PERSTp# rises, where it is not PE_PERST0# that rises while PE_PERST1# is low. -/
theorem perstDeassert_of_no_strap (bifur : Bool) (hlow : s.nvme.perst.contains p = true)
    (hstrap : p = 1 ∨ s.nvme.perst.contains 1 = false) :
    perstDeassert s p bifur = { s with nvme := { s.nvme with perst := s.nvme.perst.filter (· != p) } } := by
  have hnot : ¬ (p = 0 ∧ (s.nvme.perst.filter (· != p)).contains 1 = true) := by
    rintro ⟨rfl, hfiltered⟩
    have hmem : 1 ∈ s.nvme.perst := List.mem_of_mem_filter (List.contains_iff_mem.mp hfiltered)
    obtain hone | hhigh := hstrap
    · exact Nat.zero_ne_one hone
    · exact Bool.false_ne_true (hhigh.symm.trans (List.contains_iff_mem.mpr hmem))
  rw [perstDeassert, if_pos hlow]
  exact if_neg hnot

/-- PE_PERST0# rises while PE_PERST1# is low: the strap is sampled (R265, R488). -/
theorem perstDeassert_of_strap (bifur : Bool) (hlow : s.nvme.perst.contains 0 = true)
    (hother : s.nvme.perst.contains 1 = true) :
    perstDeassert s 0 bifur =
      { s with nvme := { s.nvme with perst := s.nvme.perst.filter (· != 0) } }.setFld R.PCIE_STATUS_BIFUR
        (b2n bifur) := by
  have hmem : 1 ∈ s.nvme.perst.filter (· != 0) :=
    List.mem_filter.mpr ⟨List.contains_iff_mem.mp hother, rfl⟩
  rw [perstDeassert, if_pos hlow]
  exact if_pos ⟨rfl, List.contains_iff_mem.mpr hmem⟩

theorem hotReset_of_exists (hon : blockOn s .pcie = true) (hctrl : ctrlExists s p = true) :
    hotReset s p = portReset s p := if_pos ⟨hon, hctrl⟩

theorem flr_of_exists (hon : blockOn s .pcie = true) (hctrl : ctrlExists s p = true) :
    flr s p = d3Move ((resetCtrl s p).raise R.PCIE_ISR_FLR) p false := if_pos ⟨hon, hctrl⟩

/-- A link that has not trained since its reset comes up. -/
theorem pcieLinkUp_of_untrained {speed width : Nat} {flit : Bool} (hon : blockOn s .pcie = true)
    (hctrl : ctrlExists s p = true) (hperst : s.nvme.perst.contains p = false) (hlink : linkOk s speed width flit = true)
    (htrained : s.nvme.trained.contains p = false) :
    pcieLinkUp s p speed width flit =
      { (s.setFlds [(R.PCIE_LINK_SPEED p, speed), (R.PCIE_LINK_WIDTH p, width), (R.PCIE_LINK_FLIT p, b2n flit),
          (R.PCIE_LINK_L1 p, 0)]).raise R.PCIE_ISR_LINKUP with
        nvme := { s.nvme with trained := s.nvme.trained ++ [p] } } := by
  have hup : blockOn s .pcie = true ∧ ctrlExists s p = true ∧ (!s.nvme.perst.contains p) = true ∧
      linkOk s speed width flit = true := ⟨hon, hctrl, by rw [hperst]; rfl, hlink⟩
  have hnew : ¬ s.nvme.trained.contains p = true := Bool.not_eq_true _ ▸ htrained
  rw [pcieLinkUp, if_pos hup]
  exact if_neg hnew

section
variable (hup : pcieUp s p = true)
include hup

theorem pcieLinkDown_of_up :
    pcieLinkDown s p =
      (s.setFlds [(R.PCIE_LINK_SPEED p, 0), (R.PCIE_LINK_WIDTH p, 0), (R.PCIE_LINK_FLIT p, 0),
        (R.PCIE_LINK_L1 p, 0)]).raise R.PCIE_ISR_LINKDN := if_pos hup

theorem d3hot_of_up {d3 : Bool} (hmoves : d3 ≠ s.nvme.d3.contains p) : d3hot s p d3 = d3Move s p d3 :=
  if_pos ⟨hup, hmoves⟩

theorem pcieL1_of_up (on : Bool) : pcieL1 s p on = s.setFld (R.PCIE_LINK_L1 p) (b2n on) := if_pos hup

end

end

/-- Settles O39: each clause is the lemma of its event. -/
theorem pcieCommandsComplete : Obligations.PcieCommandsComplete := by
  refine ⟨?_, ?_, ?_, ?_, ?_, ?_, ?_, ?_, ?_, ?_⟩
  · -- PERST_ASSERT
    exact fun s p => rfl
  · -- PERST_DEASSERT
    exact fun s p bifur hlow hstrap => congrArg Host.Outcome.next (perstDeassert_of_no_strap bifur hlow hstrap)
  · -- PERST_DEASSERT with the strap sampled
    exact fun s bifur hlow hother => congrArg Host.Outcome.next (perstDeassert_of_strap bifur hlow hother)
  · -- HOT_RESET
    exact fun s p hon hctrl => congrArg Host.Outcome.next (hotReset_of_exists hon hctrl)
  · -- FLR
    exact fun s p hon hctrl => congrArg Host.Outcome.next (flr_of_exists hon hctrl)
  · -- PCIE_LINK_UP
    exact fun s p speed width flit hon hctrl hperst hlink htrained =>
      congrArg Host.Outcome.next (pcieLinkUp_of_untrained hon hctrl hperst hlink htrained)
  · -- PCIE_LINK_DOWN
    exact fun s p hup => congrArg Host.Outcome.next (pcieLinkDown_of_up hup)
  · -- D3HOT_TRANSITION
    exact fun s p d3 hup hmoves => congrArg Host.Outcome.next (d3hot_of_up hup hmoves)
  · -- PCIE_L1_ENTRY
    exact fun s p hup => congrArg Host.Outcome.next (pcieL1_of_up hup true)
  · -- PCIE_L1_EXIT
    exact fun s p hup => congrArg Host.Outcome.next (pcieL1_of_up hup false)

/-! ### The management endpoint (R300, R485) -/

section
variable {s : State} (hup : miUp s = true)
include hup

/-- The endpoint's own command acts where it is alive and not paused, and RECOVERY implements it or is not the mode. -/
theorem miCommand_of_up {inRecovery : Bool} (f : State → State) (hpaused : s.nvme.mi.paused = false)
    (hmode : inRecovery = true ∨ s.boot.mode ≠ .recovery) : miCommand s inRecovery f = f s := by
  have halive : ¬ ((!miUp s || s.nvme.mi.paused) = true) := by simp [hup, hpaused]
  have hserved : ¬ (s.boot.mode = .recovery ∧ (!inRecovery) = true) := by
    rintro ⟨hrec, hnot⟩
    obtain hin | hmode := hmode
    · simp [hin] at hnot
    · exact hmode hrec
  rw [miCommand, if_neg halive, if_neg hserved]

/-- A control primitive acts where the endpoint is alive, paused or not, outside RECOVERY. -/
theorem miPrimitive_of_up (f : State → State) (hmode : s.boot.mode ≠ .recovery) : miPrimitive s f = f s := by
  have halive : ¬ ((!miUp s) = true) := by simp [hup]
  rw [miPrimitive, if_neg halive, if_neg hmode]

theorem miAddress_of_up (addr : Nat) : miAddress s addr = updMi s (fun m => { m with i3c := some addr }) := if_pos hup

theorem miPause_of_up (on : Bool) (hmode : s.boot.mode ≠ .recovery) :
    miPause s on = miReply (updMi s (fun m => { m with paused := on })) scOk
      (miStateWord (updMi s (fun m => { m with paused := on }))) [] := miPrimitive_of_up hup _ hmode

theorem miAbort_of_up (hmode : s.boot.mode ≠ .recovery) :
    miAbort s = miReply (((queueCmds s .mi).filter (fun c => c.st == .waiting)).foldl
        (fun x c => endCmd x c.id scAbortRequested 0 []) s) scOk
      (miStateWord (((queueCmds s .mi).filter (fun c => c.st == .waiting)).foldl
        (fun x c => endCmd x c.id scAbortRequested 0 []) s)) [] := miPrimitive_of_up hup _ hmode

theorem miGetState_of_up (hmode : s.boot.mode ≠ .recovery) : miGetState s = miReply s scOk (miStateWord s) [] :=
  miPrimitive_of_up hup _ hmode

section
variable (hpaused : s.nvme.mi.paused = false)
include hpaused

/-- The controller list: how many, then their numbers. -/
theorem miReadDs_controllers :
    miReadDs s 2 = miPage s (stated (leBytes 2 (if ctrlExists s 1 then 2 else 1) ++
      (if ctrlExists s 1 then leBytes 2 1 ++ leBytes 2 2 else leBytes 2 1))) := by
  rw [miReadDs, miCommand_of_up hup _ hpaused (.inl rfl)]
  cases ctrlExists s 1 <;> simp

theorem miSubsystemPoll_of_up : miSubsystemPoll s = miPage s (unstated 8) :=
  miCommand_of_up hup _ hpaused (.inl rfl)

variable (hmode : s.boot.mode ≠ .recovery)
include hmode

theorem miControllerPoll_of_up (n : Nat) :
    miControllerPoll s n = miPage s (((if ctrlExists s 1 then [1, 2] else [1]).filter (fun i => n ≤ i)).flatMap
      (fun i => stated (leBytes 2 i) ++ unstated 14)) := miCommand_of_up hup _ hpaused (.inr hmode)

theorem miConfigSet_of_standard {id : Nat} (x : Nat) (hid : 1 ≤ id ∧ id ≤ 3) :
    miConfigSet s id x = miReply (updMi s (fun m => { m with config := tblSet 0 m.config id x })) scOk 0 [] := by
  have hvendor : id ≠ 0xC0 := by omega
  rw [miConfigSet, miCommand_of_up hup _ hpaused (.inr hmode), if_neg hvendor, if_pos hid]

theorem miConfigGet_of_standard {id : Nat} (hid : 1 ≤ id ∧ id ≤ 3) :
    miConfigGet s id = miReply s scOk (tblGet 0 s.nvme.mi.config id) [] := by
  rw [miConfigGet, miCommand_of_up hup _ hpaused (.inr hmode), if_pos hid]

theorem miVpdRead_of_le {off len : Nat} (hend : off + len ≤ 256) :
    miVpdRead s off len = miReply s scOk 0 ((List.range len).map (fun i => vpdAt s (off + i))) := by
  rw [miVpdRead, miCommand_of_up hup _ hpaused (.inr hmode), if_neg (Nat.not_lt.mpr hend)]

theorem miVpdWrite_of_le {off : Nat} {bytes : List Byte} (hend : off + bytes.length ≤ 256) :
    miVpdWrite s off bytes = miReply (updMi s (fun m =>
      { m with vpd := (bytes.zipIdx off).foldl (fun v x => tblPut v x.2 x.1) m.vpd })) scOk 0 [] := by
  rw [miVpdWrite, miCommand_of_up hup _ hpaused (.inr hmode), if_neg (Nat.not_lt.mpr hend)]

end

end

/-- Settles O40: each clause is the lemma of its command or control primitive. -/
theorem managementInterfaceComplete : Obligations.ManagementInterfaceComplete := by
  refine ⟨?_, ?_, ?_, ?_, ?_, ?_, ?_, ?_, ?_, ?_, ?_, ?_⟩
  · -- MI_DYNAMIC_ADDRESS
    exact fun s addr hup => congrArg Host.Outcome.next (miAddress_of_up hup addr.val)
  · -- MI_READ_DATA_STRUCTURE
    rintro s _ hup hpaused rfl
    exact congrArg Host.Outcome.next (miReadDs_controllers hup hpaused)
  · -- MI_SUBSYSTEM_HEALTH_POLL
    exact fun s hup hpaused => congrArg Host.Outcome.next (miSubsystemPoll_of_up hup hpaused)
  · -- MI_CONTROLLER_HEALTH_POLL
    exact fun s n hup hpaused hmode => congrArg Host.Outcome.next (miControllerPoll_of_up hup hpaused hmode n)
  · -- MI_CONFIGURATION_SET
    exact fun s id x hup hpaused hmode hid =>
      congrArg Host.Outcome.next (miConfigSet_of_standard hup hpaused hmode x hid)
  · -- MI_CONFIGURATION_GET
    exact fun s id hup hpaused hmode hid => congrArg Host.Outcome.next (miConfigGet_of_standard hup hpaused hmode hid)
  · -- MI_VPD_READ
    exact fun s off len hup hpaused hmode hend => congrArg Host.Outcome.next (miVpdRead_of_le hup hpaused hmode hend)
  · -- MI_VPD_WRITE
    exact fun s off bytes hup hpaused hmode hend =>
      congrArg Host.Outcome.next (miVpdWrite_of_le hup hpaused hmode hend)
  · -- MI_PAUSE
    exact fun s hup hmode => congrArg Host.Outcome.next (miPause_of_up hup true hmode)
  · -- MI_RESUME
    exact fun s hup hmode => congrArg Host.Outcome.next (miPause_of_up hup false hmode)
  · -- MI_ABORT
    exact fun s hup hmode => congrArg Host.Outcome.next (miAbort_of_up hup hmode)
  · -- MI_GET_STATE
    exact fun s hup hmode => congrArg Host.Outcome.next (miGetState_of_up hup hmode)

end Sys2Proof.Machine
end

section
/-! Proofs of the family of host and NVMe, commands of the admin queues and of computational programs as they start: programs
and memory range sets (R295 to R298), firmware, self-test and requalification (R289, R290, R450, R462, R463), and the
administration of controllers and namespaces (R270 to R273, R278, R293 to R295, R425, R512). -/

namespace Sys2Proof.Machine

/-! ### Computational programs (R295 to R298) -/

section
variable {s : State} {c : Cmd} (hplace : opMisplaced c = false)
include hplace

theorem startCmd_loadProgram {pind : Nat} {image : List Byte} (hxfer : c.xfer = false)
    (hop : c.op = .loadProgram pind image) (hlen : dataLengthBad image = false) (hpind : pind < 64)
    (hst : progStatus s 1 pind image = scOk) :
    startCmd s c = endCmd (progLoad s pind image) c.id scOk 0 [] := by
  simp [startCmd, hop, hplace, startLoad_of_ok _ hxfer hlen (decide_eq_false (Nat.not_le.mpr hpind)) hst]

theorem startCmd_programActivate {pind : Nat} {act : Bool} {pg : ProgSlot} (hop : c.op = .programActivate pind act)
    (hprog : cpProgram s pind = some pg) :
    startCmd s c = endCmd
      { s with loaded := { s.loaded with progs := tblSet none s.loaded.progs pind (some { pg with active := act }) } }
      c.id scOk 0 [] := by
  simp [startCmd, hop, hplace, startActivate, hprog]

/-- A set whose every range lies inside an SLM namespace of the controller is created in place of one of its number. -/
theorem startCmd_rangeSet_create {rsid : Nat} {rs : List SlmRange} (hxfer : c.xfer = false)
    (hop : c.op = .rangeSet (.create rsid rs))
    (hall : rs.all (fun r => (slmAddr s (ctrlNum c) r.slm r.off r.len).isSome) = true) :
    startCmd s c = endCmd
      { s with nvme := { s.nvme with sets := s.nvme.sets.filter (fun x => x.rsid != setKey (ctrlNum c) rsid) ++
        [⟨setKey (ctrlNum c) rsid, rs.map (fun r => (r.slm, r.off, r.len))⟩] } } c.id scOk 0 [] := by
  simp only [startCmd, hop, hplace, startRangeSet, hxfer]
  exact if_pos hall

theorem startCmd_rangeSet_delete {rsid : Nat} (hop : c.op = .rangeSet (.delete rsid))
    (hset : (setOf s (ctrlNum c) rsid).isSome = true) :
    startCmd s c = endCmd
      { s with nvme := { s.nvme with sets := s.nvme.sets.filter (fun x => x.rsid != setKey (ctrlNum c) rsid) } }
      c.id scOk 0 [] := by
  simp only [startCmd, hop, hplace, startRangeSet]
  exact if_pos hset

theorem startCmd_execute {pind rsid p0 p1 p2 t0 : Nat} {pl : CpPlan} (hop : c.op = .execute pind rsid p0 p1 p2)
    (hplan : cpPlan s (ctrlNum c) pind rsid p2 = .ok pl) (htile : cpTile s = some t0) :
    startCmd s c = cpStart s c pl t0 pind p0 p1 p2 := by
  rw [ctrlNum] at hplan
  simp [startCmd, hop, hplace, startExecute, hplan, htile]

end

/-- A plan that nothing refuses. -/
theorem cpPlan_ok_of_cpPlanned {s : State} {ctrl pind rsid p2 : Nat} {pl : CpPlan}
    (h : cpPlanned s ctrl pind rsid p2 = some pl) : cpPlan s ctrl pind rsid p2 = .ok pl := by
  unfold cpPlanned at h
  split at h
  · next hplan => rw [hplan, Option.some.inj h]
  · cases h

theorem cpTimeLimit_of_cp {s : State} {t : Nat} {j : Job} (hjob : (s.tile t).job = some j) (hcp : j.ref.cp = true) :
    cpTimeLimit s t = tileReset (s.raise R.NVME_ISR_CPTIME) t causeTimeout := by
  simp [cpTimeLimit, hjob, hcp]

/-- Settles O49: each command comes to its start's own lemma. -/
theorem computationalProgramsComplete : Obligations.ComputationalProgramsComplete := by
  refine ⟨?_, ?_, ?_, ?_, ?_, ?_⟩
  · -- LOAD_PROGRAM
    intro s q pind image s1 c h hlen hpind hst
    exact submit_of_startsAtOnce h fun hop hxfer hplace => startCmd_loadProgram hplace hxfer hop hlen hpind hst
  · -- PROGRAM_ACTIVATION_MANAGEMENT
    intro s q pind act pg s1 c h hprog
    exact submit_of_startsAtOnce h fun hop _ hplace => startCmd_programActivate hplace hop hprog
  · -- MEMORY_RANGE_SET_MANAGEMENT that creates
    intro s q rsid rs s1 c h hall
    exact submit_of_startsAtOnce h fun hop hxfer hplace => startCmd_rangeSet_create hplace hxfer hop hall
  · -- MEMORY_RANGE_SET_MANAGEMENT that deletes
    intro s q rsid s1 c h hset
    exact submit_of_startsAtOnce h fun hop _ hplace => startCmd_rangeSet_delete hplace hop hset
  · -- EXECUTE_PROGRAM
    intro s q pind rsid t0 p0 p1 p2 pl s1 c h hplan htile
    exact submit_of_startsAtOnce h fun hop _ hplace =>
      startCmd_execute hplace hop (cpPlan_ok_of_cpPlanned hplan) htile
  · -- CP_TIME_LIMIT_EXPIRY
    exact fun s k j hjob hcp => congrArg Host.Outcome.next (cpTimeLimit_of_cp hjob hcp)

/-! ### Firmware (R450) -/

section
variable {s : State} {c : Cmd} (hplace : opMisplaced c = false) (hmode : s.boot.mode ≠ .recovery)
include hplace hmode

theorem startCmd_fwDownload {off : Nat} {bytes : List Byte} (hxfer : c.xfer = false)
    (hop : c.op = .fwDownload off bytes) :
    startCmd s c = endCmd
      { s with nvme := { s.nvme with fwBuf := (bytes.zipIdx off).foldl (fun t x => tblSet 0xFF t x.2 x.1) s.nvme.fwBuf } }
      c.id scOk 0 [] := by
  simp [startCmd, hop, hplace, startFwDownload, hxfer, hmode]

section
variable {slot : Nat} {fault ok : Bool} (hslot : (slot = 1 ∨ slot = 2) ∧ s.boot.slot ≠ some (slot - 1))
include hslot

omit hplace in
/-- Outside RECOVERY a commit on a slot that is not the booted one is decided by the gate routine. -/
theorem startFwCommit_of_slot (action : Nat) :
    startFwCommit s c action slot fault ok =
      if action = 2 then
        endCmd (gateActivate s (slot - 1) fault ok).2.2 c.id (commitStatus true (gateActivate s (slot - 1) fault ok).1) 0 []
      else
        let r := gateCommit (slotProgram (slotErase s (slot - 1) (fwLength s)) (slot - 1) 0
          ((List.range (fwLength s)).map (tblGet 0xFF s.nvme.fwBuf))) (slot - 1) action fault ok
        endCmd { r.2.2 with nvme := { r.2.2.nvme with fwBuf := [] } } c.id (commitStatus false r.1) 0 [] := by
  obtain ⟨hnum, hbooted⟩ := hslot
  have hserved : ¬ (slot = 0 ∨ 2 < slot ∨ s.boot.slot = some (slot - 1)) := by
    rintro (h | h | h)
    · omega
    · omega
    · exact hbooted h
  rw [startFwCommit, if_neg hmode, if_neg hserved]

/-- Actions 0 and 1 write the image into the slot and call COMMIT. -/
theorem startCmd_fwCommit_image {action : Nat} {r : Nat × Nat × State} (haction : action ≠ 2)
    (hop : c.op = .fwCommit action slot fault ok)
    (hr : r = gateCommit (slotProgram (slotErase s (slot - 1) (fwLength s)) (slot - 1) 0
      ((List.range (fwLength s)).map (tblGet 0xFF s.nvme.fwBuf))) (slot - 1) action fault ok) :
    startCmd s c = endCmd { r.2.2 with nvme := { r.2.2.nvme with fwBuf := [] } } c.id (commitStatus false r.1) 0 [] := by
  simp only [startCmd, hop, hplace, startFwCommit_of_slot hmode hslot, if_neg haction, hr]
  rfl

theorem startCmd_fwCommit_activate {r : Nat × Nat × State} (hop : c.op = .fwCommit 2 slot fault ok)
    (hr : r = gateActivate s (slot - 1) fault ok) :
    startCmd s c = endCmd r.2.2 c.id (commitStatus true r.1) 0 [] := by
  simp only [startCmd, hop, hplace, startFwCommit_of_slot hmode hslot, hr]
  rfl

end

end

/-! ### Device self-test and Hold-up Requalify (R289, R290, R462, R463) -/

section
variable {s : State} {c : Cmd} (hplace : opMisplaced c = false)
include hplace

theorem startCmd_selfTest_run {code nsid : Nat} (hcode : code = 1 ∨ code = 2) (hop : c.op = .selfTest code nsid)
    (hns : nsid = 0 ∨ nsid = 0xFFFFFFFF ∨ (nsOf s nsid).isSome = true) (hidle : s.nvme.selfTest.run = none) :
    startCmd s c = endCmd
      { s with nvme := { s.nvme with selfTest := { s.nvme.selfTest with run := some code, nsid := nsid } } }
      c.id scOk 0 [] := by
  have habort : code ≠ 0xF := by omega
  have hserved : ¬ (code ≠ 1 ∧ code ≠ 2) := by omega
  have hnamed : ¬ (nsid ≠ 0 ∧ nsid ≠ 0xFFFFFFFF ∧ (nsOf s nsid).isNone = true) := by
    rintro ⟨hzero, hall, hnone⟩
    rw [Option.isNone_iff_eq_none] at hnone
    simp [hzero, hall, hnone] at hns
  simp only [startCmd, hop, hplace, startSelfTest, if_neg habort, if_neg hserved, if_neg hnamed, hidle]
  rfl

theorem startCmd_selfTest_abort {nsid : Nat} (hop : c.op = .selfTest 0xF nsid) :
    startCmd s c = endCmd (endSelfTest s 1) c.id scOk 0 [] := by
  simp [startCmd, hop, hplace, startSelfTest]

section
variable (hxfer : c.xfer = false)
include hxfer

theorem startCmd_requalify (hop : c.op = .requalify 0 0 []) (hidle : qualRunning s = false) :
    startCmd s c = qualDrain s (some c.id) := by
  simp [startCmd, hop, hplace, startRequalify, hxfer, hidle]

theorem startCmd_requalify_profile {data : List Byte} (hop : c.op = .requalify 1 0 data) (hlen : data.length = 128)
    (hok : holdProfOk data = true) (hidle : qualRunning s = false) :
    startCmd s c = qualDrain (holdSave (setProf s data) 1) (some c.id) := by
  simp [startCmd, hop, hplace, startRequalify, hxfer, hlen, hok, hidle]

theorem startCmd_requalify_thermal {data : List Byte} (hop : c.op = .requalify 2 0 data) (hlen : data.length = 256)
    (hok : thermProfOk data = true) :
    startCmd s c = endCmd (thermSave (thermLoad s data) 1) c.id scOk 0 [] := by
  simp [startCmd, hop, hplace, startRequalify, hxfer, hlen, hok]

end

end

/-- The test in progress ends after the corrector checks and the checks of the TCAM's shadow (R289). -/
theorem selfTestEnd_of_run {s s1 : State} {k : Nat} (pass : Bool) (hrun : s.nvme.selfTest.run = some k)
    (hchecks : s1 = (List.range tcamSlots).foldl (fun acc _ => shadowCheck acc)
      ([0, 1, 2, 3, 4, 6, 7].foldl correctorCheck s)) :
    selfTestEnd s pass = endSelfTest s1 (if pass then 0 else 7) := by
  rw [selfTestEnd, hrun, hchecks]

/-- Settles O46: each command comes to its start's own lemma. -/
theorem firmwareSelfTestAndRequalifyComplete : Obligations.FirmwareSelfTestAndRequalifyComplete := by
  refine ⟨?_, ?_, ?_, ?_, ?_, ?_, ?_, ?_, ?_, ?_, ?_⟩
  · -- FIRMWARE_IMAGE_DOWNLOAD
    intro s q off bytes s1 c h hmode
    exact submit_of_startsAtOnce h fun hop hxfer hplace => startCmd_fwDownload hplace hmode hxfer hop
  · -- FIRMWARE_COMMIT_ACTION0
    rintro s q slot fault ok _ _ r s1 c h hmode hslot rfl rfl hr
    exact submit_of_startsAtOnce h fun hop _ hplace =>
      startCmd_fwCommit_image hplace hmode hslot (Nat.succ_ne_zero 1).symm hop hr
  · -- FIRMWARE_COMMIT_ACTION1
    rintro s q slot fault ok _ _ r s1 c h hmode hslot rfl rfl hr
    exact submit_of_startsAtOnce h fun hop _ hplace =>
      startCmd_fwCommit_image hplace hmode hslot (Nat.succ_ne_self 1).symm hop hr
  · -- FIRMWARE_COMMIT_ACTION2
    intro s q slot fault ok r s1 c h hmode hslot hr
    exact submit_of_startsAtOnce h fun hop _ hplace => startCmd_fwCommit_activate hplace hmode hslot hop hr
  · -- DEVICE_SELF_TEST_SHORT
    intro s q nsid s1 c h hns hidle
    exact submit_of_startsAtOnce h fun hop _ hplace => startCmd_selfTest_run hplace (.inl rfl) hop hns hidle
  · -- DEVICE_SELF_TEST_EXTENDED
    intro s q nsid s1 c h hns hidle
    exact submit_of_startsAtOnce h fun hop _ hplace => startCmd_selfTest_run hplace (.inr rfl) hop hns hidle
  · -- DEVICE_SELF_TEST_ABORT
    intro s q s1 c h
    exact submit_of_startsAtOnce h fun hop _ hplace => startCmd_selfTest_abort hplace hop
  · -- SELF_TEST_END
    exact fun s pass k s1 hrun hchecks => congrArg Host.Outcome.next (selfTestEnd_of_run pass hrun hchecks)
  · -- HOLDUP_REQUALIFY
    rintro s q _ s1 c h rfl hidle
    exact submit_of_startsAtOnce h fun hop hxfer hplace => startCmd_requalify hplace hxfer hop hidle
  · -- HOLDUP_REQUALIFY_PROFILE
    rintro s q _ data s1 c h ⟨rfl, hlen⟩ hok hidle
    exact submit_of_startsAtOnce h fun hop hxfer hplace =>
      startCmd_requalify_profile hplace hxfer hop hlen hok hidle
  · -- HOLDUP_THERMAL_PROFILE
    rintro s q _ data s1 c h ⟨rfl, hlen⟩ hok
    exact submit_of_startsAtOnce h fun hop hxfer hplace => startCmd_requalify_thermal hplace hxfer hop hlen hok

/-! ### Identify, log pages, features and events (R271, R273, R293, R294, R512) -/

section
variable {s : State} {c : Cmd} (hplace : opMisplaced c = false)
include hplace

omit hplace in
theorem startIdentify_ns {nsid : Nat} {n : Ns} (hone : nsid ≠ 0xFFFFFFFF) (hns : nsOf s nsid = some n) :
    startIdentify s c 0 nsid = returnPage s c 0 (identifyNs n) := (if_neg hone).trans (by rw [hns])

omit hplace in
theorem startIdentify_ctrl (nsid : Nat) : startIdentify s c 1 nsid = returnPage s c 0 (identifyCtrl (ctrlNum c)) := rfl

theorem startCmd_identify {cns nsid : Nat} (hop : c.op = .identify cns nsid) :
    startCmd s c = startIdentify s c cns nsid := by
  simp [startCmd, hop, hplace]

theorem startCmd_getLog_vendor {lid nsid off len : Nat} {rae : Bool} (hop : c.op = .getLog lid nsid off len rae)
    (hlid : 0xC0 ≤ lid ∧ lid ≤ 0xC5) :
    startCmd s c = pageRead (returnPage s c 0 (vendorPage s lid off len)) (ctrlNum c) lid rae := by
  simp only [startCmd, hop, hplace, startGetLog, if_pos hlid]
  rfl

omit hplace in
/-- The standard log pages have other identifiers than the vendor's. -/
theorem lid_lt_of_standardPage {lid : Nat} {pg : PageBytes} (h : standardPage s lid = some pg) : lid < 0xC0 := by
  unfold standardPage at h
  split at h
  case h_7 => cases h
  all_goals decide

theorem startCmd_getLog_standard {lid nsid off len : Nat} {rae : Bool} {pg : PageBytes}
    (hop : c.op = .getLog lid nsid off len rae) (hpage : standardPage s lid = some pg) :
    startCmd s c = pageRead (returnPage s c 0 (pageCut pg off len)) (ctrlNum c) lid rae := by
  have hlid : ¬ (0xC0 ≤ lid ∧ lid ≤ 0xC5) := fun h => Nat.not_le.mpr (lid_lt_of_standardPage hpage) h.1
  simp only [startCmd, hop, hplace, startGetLog, if_neg hlid, hpage]
  rfl

omit hplace in
/-- A feature of the controller is named for no namespace, or for all. -/
theorem featNsFault_of_ctrl {fid nsid : Nat} (hfid : fid ≠ featErrorRecovery) (hns : nsid = 0 ∨ nsid = 0xFFFFFFFF) :
    featNsFault s fid nsid = none := by
  rw [featNsFault, if_neg hfid, if_pos hns]

theorem startCmd_setFeatures_kept {fid nsid value : Nat} (hop : c.op = .setFeatures fid nsid value false)
    (hfid : features.contains fid = true ∧ fid ≠ featPower ∧ fid ≠ featQueues ∧ fid ≠ featErrorRecovery)
    (hns : nsid = 0 ∨ nsid = 0xFFFFFFFF) :
    startCmd s c = endCmd (setCtrl s (ctrlNum c)
      { ctrlOf s (ctrlNum c) with feats := tblSet 0 (ctrlOf s (ctrlNum c)).feats fid value }) c.id scOk 0 [] := by
  obtain ⟨hknown, hpower, hqueues, herror⟩ := hfid
  simp only [startCmd, hop, hplace, startSetFeatures, hknown, featNsFault_of_ctrl herror hns, featKey, herror, hpower,
    hqueues]
  rfl

theorem startCmd_setFeatures_power {nsid value : Nat} (hop : c.op = .setFeatures 2 nsid value false)
    (hns : nsid = 0 ∨ nsid = 0xFFFFFFFF) (hps : powerFault s (value % 32) = false) :
    startCmd s c = endCmd (powerEnter s (value % 32)) c.id scOk 0 [] := by
  have hknown : features.contains 2 = true := rfl
  have herror : 2 ≠ featErrorRecovery := by decide
  have hpower : 2 = featPower := rfl
  simp only [startCmd, hop, hplace, startSetFeatures, hknown, featNsFault_of_ctrl herror hns, herror, if_pos hpower, hps]
  rfl

theorem startCmd_getFeatures {fid nsid : Nat} (hop : c.op = .getFeatures fid nsid)
    (hfid : features.contains fid = true ∧ fid ≠ 0x0E ∧ fid ≠ featErrorRecovery) (hns : nsid = 0 ∨ nsid = 0xFFFFFFFF) :
    startCmd s c = endCmd s c.id scOk (featValue s (ctrlNum c) fid nsid) [] := by
  obtain ⟨hknown, hstamp, herror⟩ := hfid
  simp only [startCmd, hop, hplace, startGetFeatures, hknown, featNsFault_of_ctrl herror hns, if_neg hstamp]
  rfl

section
variable (hop : c.op = .asyncEvent)
  (hheld : s.nvme.cmds.countP (fun d => d.id != c.id && d.op == .asyncEvent && d.st == .started && ctrlNum d == ctrlNum c)
    < 8)
include hop hheld

theorem startCmd_asyncEvent_waits (hnone : (ctrlOf s (ctrlNum c)).events = []) : startCmd s c = s := by
  simp only [startCmd, hop, hplace, startAsync, if_neg (Nat.not_le.mpr hheld), hnone]
  rfl

theorem startCmd_asyncEvent_takes {e : AEvent} {es : List AEvent} (hev : (ctrlOf s (ctrlNum c)).events = e :: es) :
    startCmd s c = deliverEvent s (ctrlNum c) e := by
  simp only [startCmd, hop, hplace, startAsync, if_neg (Nat.not_le.mpr hheld), hev]
  rfl

end

/-! ### Namespaces, directives, Format and Sanitize (R270, R278, R295, R425) -/

theorem startCmd_nsManage_delete {nsid : Nat} (hop : c.op = .nsManage (.delete nsid))
    (hns : nsid ≠ 0xFFFFFFFF ∧ (nsOf s nsid).isSome = true) :
    startCmd s c = endCmd (nsDelete s nsid) c.id scOk 0 [] := by
  obtain ⟨hone, hsome⟩ := hns
  have hnone : (nsOf s nsid).isNone = false := Option.isNone_eq_false_iff.mpr hsome
  simp [startCmd, hop, hplace, startNsManage, hone, hnone]

theorem startCmd_dirSend_streams {nsid value : Nat} {n : Ns} (hop : c.op = .dirSend nsid 0 1 value)
    (hns : nsOf s nsid = some n) (htype : bitsOf value 8 8 = 1) :
    startCmd s c = endCmd (setNs s nsid (some { n with streams := value % 2 == 1 })) c.id scOk 0 [] := by
  simp [startCmd, hop, hplace, startDirSend, hns, htype]

theorem startCmd_dirReceive_identify {nsid : Nat} {n : Ns} (hop : c.op = .dirReceive nsid 0 1)
    (hns : nsOf s nsid = some n) :
    startCmd s c = returnPage s c 0
      (stated (leBytes 32 3 ++ leBytes 32 (1 + 2 * b2n n.streams) ++ List.replicate 4032 0)) := by
  simp only [startCmd, hop, hplace, startDirReceive, hns]
  rfl

theorem startCmd_formatNvm {nsid lbaf ses : Nat} (hop : c.op = .formatNvm nsid lbaf ses)
    (hns : nsid ≠ 0xFFFFFFFF ∧ (nsOf s nsid).isSome = true) (hform : lbaf ≤ 1 ∧ ses ≤ 2)
    (hfree : s.nvme.sanitize = none ∧ nsInFlow s nsid = false) (hrng : ses = 2 → rngOk s = true) :
    startCmd s c = endCmd (formatNs lbaf ses s nsid) c.id scOk 0 [] := by
  obtain ⟨hone, hsome⟩ := hns
  obtain ⟨hlbaf, hses⟩ := hform
  obtain ⟨hsan, hflow⟩ := hfree
  have hnone : ¬ (nsid ≠ 0xFFFFFFFF ∧ (nsOf s nsid).isNone = true) := by
    rintro ⟨-, h⟩
    rw [Option.isNone_eq_false_iff.mpr hsome] at h
    cases h
  have hkeys : ¬ (ses = 2 ∧ ¬ rngOk s = true) := fun h => h.2 (hrng h.1)
  have hbound : ¬ [nsid].any (nsInFlow s) = true := by simp [hflow]
  simp only [startCmd, hop, hplace, startFormat, if_neg hnone, if_neg hone, if_neg (Nat.not_lt.mpr hlbaf),
    if_neg (Nat.not_lt.mpr hses), hsan, if_neg hbound, if_neg hkeys]
  rfl

theorem startCmd_sanitize_block (hop : c.op = .sanitize false) (hidle : s.nvme.sanitize = none) :
    startCmd s c = endCmd { s with nvme := { s.nvme with sanitize := some 0 } } c.id scOk 0 [] := by
  simp [startCmd, hop, hplace, startSanitize, hidle, b2n]

theorem startCmd_sanitize_crypto {s2 : State} (hop : c.op = .sanitize true) (hidle : s.nvme.sanitize = none)
    (hrng : rngOk s = true) (hs2 : s2 = (0 :: nsIds s).foldl (fun acc n => (newMediaKey acc n).getD acc) s) :
    startCmd s c = endCmd { s2 with nvme := { s2.nvme with sanitize := some 1 } } c.id scOk 0 [] := by
  simp [startCmd, hop, hplace, startSanitize, hidle, hrng, b2n, hs2]

variable (hxfer : c.xfer = false)
include hxfer

theorem startCmd_nsManage_create {nsze flbas id : Nat} {s2 : State} (hop : c.op = .nsManage (.create nsze flbas))
    (hcreate : nsCreate s nsze flbas = .ok (id, s2)) : startCmd s c = endCmd s2 c.id scOk id [] := by
  simp [startCmd, hop, hplace, startNsManage, hxfer, hcreate]

theorem startCmd_nsManage_createSlm {slm len a : Nat} (hop : c.op = .nsManage (.createSlm slm len))
    (hfree : slm < 16 ∧ slmRegion s (ctrlNum c) slm = none) (hlen : 1 ≤ len ∧ len ≤ 2 ^ 30)
    (ha : slmPlace s len = some a) :
    startCmd s c = endCmd (setSlm s (16 * ctrlNum c + slm) (some (a, len))) c.id scOk slm [] := by
  obtain ⟨hslm, hregion⟩ := hfree
  have htaken : ¬ (16 ≤ slm ∨ (slmRegion s (ctrlNum c) slm).isSome = true) := by
    rintro (h | h)
    · omega
    · rw [hregion] at h
      cases h
  have hsize : ¬ (len = 0 ∨ 2 ^ 30 < len) := by omega
  simp only [startCmd, hop, hplace, startNsManage, hxfer, if_neg htaken, if_neg hsize, ha]
  rfl

theorem startCmd_nsAttach {nsid : Nat} {attach : Bool} {n : Ns} (hop : c.op = .nsAttach nsid attach)
    (hns : nsOf s nsid = some n) (hother : n.attached = !attach) :
    startCmd s c = endCmd (setNs s nsid (some { n with attached := attach })) c.id scOk 0 [] := by
  simp [startCmd, hop, hplace, startNsAttach, hns, hxfer, hother]

end

/-- A namespace that nothing refuses is created. -/
theorem nsCreate_ok_of_nsCreated {s s2 : State} {nsze flbas id : Nat} (h : nsCreated s nsze flbas = some (id, s2)) :
    nsCreate s nsze flbas = .ok (id, s2) := by
  unfold nsCreated at h
  split at h
  · next hcreate => rw [hcreate, Option.some.inj h]
  · cases h

theorem sanitizeDone_of_persisted {s : State} {k : Nat} (hrun : s.nvme.sanitize = some k) (hrels : s.ftl.rels = []) :
    sanitizeDone s =
      let s1 := { (nsIds s).foldl deallocNs s with
        nvme := { ((nsIds s).foldl deallocNs s).nvme with sanitize := none } }
      if k = 0 then { s1 with media := { s1.media with cells := [] } } else s1 := by
  rw [sanitizeDone, hrun]
  exact if_pos hrels

/-- Settles O45: each command comes to its start's own lemma. -/
theorem adminCommandsComplete : Obligations.AdminCommandsComplete := by
  refine ⟨?_, ?_, ?_, ?_, ?_, ?_, ?_, ?_, ?_, ?_, ?_, ?_, ?_, ?_, ?_, ?_, ?_, ?_, ?_⟩
  · -- IDENTIFY of a namespace
    rintro s q _ nsid n s1 c h ⟨rfl, hone⟩ hns
    exact submit_of_startsAtOnce h fun hop _ hplace => (startCmd_identify hplace hop).trans (startIdentify_ns hone hns)
  · -- IDENTIFY of the controller
    intro s q nsid s1 c h
    exact submit_of_startsAtOnce h fun hop _ hplace => (startCmd_identify hplace hop).trans (startIdentify_ctrl nsid)
  · -- GET_LOG_PAGE of a vendor page
    intro s q lid nsid off len rae s1 c h hlid
    exact submit_of_startsAtOnce h fun hop _ hplace => startCmd_getLog_vendor hplace hop hlid
  · -- GET_LOG_PAGE of a standard page
    intro s q lid nsid off len rae pg s1 c h hpage
    exact submit_of_startsAtOnce h fun hop _ hplace => startCmd_getLog_standard hplace hop hpage
  · -- SET_FEATURES of a kept value
    intro s q fid nsid value s1 c h hfid hns
    exact submit_of_startsAtOnce h fun hop _ hplace => startCmd_setFeatures_kept hplace hop hfid hns
  · -- SET_FEATURES of the power state
    intro s q nsid value s1 c h hns hps
    exact submit_of_startsAtOnce h fun hop _ hplace => startCmd_setFeatures_power hplace hop hns hps
  · -- GET_FEATURES
    intro s q fid nsid s1 c h hfid hns
    exact submit_of_startsAtOnce h fun hop _ hplace => startCmd_getFeatures hplace hop hfid hns
  · -- ASYNC_EVENT_REQUEST with no event
    intro s q s1 c h hheld hnone
    exact submit_of_startsAtOnce h fun hop _ hplace => startCmd_asyncEvent_waits hplace hop hheld hnone
  · -- ASYNC_EVENT_REQUEST with an event that waits
    intro s q e es s1 c h hheld hev
    exact submit_of_startsAtOnce h fun hop _ hplace => startCmd_asyncEvent_takes hplace hop hheld hev
  · -- NAMESPACE_MANAGEMENT that creates
    intro s q nsze flbas id s2 s1 c h hcreate
    exact submit_of_startsAtOnce h fun hop hxfer hplace =>
      startCmd_nsManage_create hplace hxfer hop (nsCreate_ok_of_nsCreated hcreate)
  · -- NAMESPACE_MANAGEMENT that deletes
    intro s q nsid s1 c h hns
    exact submit_of_startsAtOnce h fun hop _ hplace => startCmd_nsManage_delete hplace hop hns
  · -- NAMESPACE_MANAGEMENT that creates an SLM namespace
    intro s q slm len a s1 c h hfree hlen ha
    exact submit_of_startsAtOnce h fun hop hxfer hplace => startCmd_nsManage_createSlm hplace hxfer hop hfree hlen ha
  · -- NAMESPACE_ATTACHMENT
    intro s q nsid attach n s1 c h hns hother
    exact submit_of_startsAtOnce h fun hop hxfer hplace => startCmd_nsAttach hplace hxfer hop hns hother
  · -- DIRECTIVE_SEND
    intro s q nsid value n s1 c h hns htype
    exact submit_of_startsAtOnce h fun hop _ hplace => startCmd_dirSend_streams hplace hop hns htype
  · -- DIRECTIVE_RECEIVE
    intro s q nsid n s1 c h hns
    exact submit_of_startsAtOnce h fun hop _ hplace => startCmd_dirReceive_identify hplace hop hns
  · -- FORMAT_NVM
    intro s q nsid lbaf ses s1 c h hns hform hfree hrng
    exact submit_of_startsAtOnce h fun hop _ hplace => startCmd_formatNvm hplace hop hns hform hfree hrng
  · -- SANITIZE_BLOCK_ERASE
    intro s q s1 c h hidle
    exact submit_of_startsAtOnce h fun hop _ hplace => startCmd_sanitize_block hplace hop hidle
  · -- SANITIZE_CRYPTO_ERASE
    intro s q s2 s1 c h ⟨hidle, hrng⟩ hs2
    exact submit_of_startsAtOnce h fun hop _ hplace => startCmd_sanitize_crypto hplace hop hidle hrng hs2
  · -- SANITIZE_DONE
    rintro s k _ ⟨hrun, hrels⟩ rfl
    exact congrArg Host.Outcome.next (sanitizeDone_of_persisted hrun hrels)

end Sys2Proof.Machine
end

section
/-! Proofs of the family of host and NVMe, controllers and queues: enabling, resetting and shutting down (R274, R489), doorbells
(R274), arbitration and completion (R275, R276), failing reads of host memory (R268), queue management and aborts (R274, R287,
R288). -/

namespace Sys2Proof.Machine

/-! ### Controllers and doorbells (R274, R482, R489) -/

section
variable {s : State} {k : Nat}

theorem ctrlEnable_of_disabled {asqs acqs : Nat} (hctrl : ctrlExists s k = true ∧ (ctrlOf s k).en = false)
    (hasqs : 1 ≤ asqs ∧ asqs ≤ 4095) (hacqs : 1 ≤ acqs ∧ acqs ≤ 4095) :
    ctrlEnable s k asqs acqs = setCtrl s k
      { Ctrl.reset with en := true, sqs := [(0, some (adminSq (asqs + 1)))], cqs := [(0, some (newCq (acqs + 1) 0 true))] } := by
  obtain ⟨hexists, hoff⟩ := hctrl
  have hen : (!(ctrlOf s k).en) = true := by rw [hoff]; rfl
  exact if_pos ⟨hexists, hen, hasqs.2, hacqs.2, Nat.ne_of_gt hasqs.1, Nat.ne_of_gt hacqs.1⟩

theorem ctrlDisable_of_en (hen : (ctrlOf s k).en = true) : ctrlDisable s k = resetCtrl s k := if_pos hen

theorem shutdownStart_of_en {shn : Nat} (hen : (ctrlOf s k).en = true) (hshn : shn = 1 ∨ shn = 2) :
    shutdownStart s k shn = setCtrl s k { ctrlOf s k with shn := shn, shst := 1 } := if_pos ⟨hen, hshn⟩

theorem shutdownEnd_of_safe (hshst : (ctrlOf s k).shst = 1) (hsafe : writesSafe s k = true) :
    shutdownEnd s k = setCtrl s k { ctrlOf s k with shst := 2 } := if_pos ⟨hshst, hsafe⟩

theorem sqTail_of_lt {q tail : Nat} {x : Sq} (hq : sqOf s k q = some x) (htail : tail < x.size) :
    sqTail s k q tail = setSq s k q (some { x with tail := tail }) := by
  rw [sqTail, hq]
  exact if_pos htail

theorem cqHead_of_le {q head n : Nat} {x : Cq} (hq : cqOf s k q = some x ∧ head < x.size)
    (hn : n = (head + x.size - x.head) % x.size) (hle : n ≤ x.ents.length) :
    cqHead s k q head = setCq s k q (some { x with head := head, ents := x.ents.drop n }) := by
  obtain ⟨hcq, hhead⟩ := hq
  subst hn
  rw [cqHead, hcq]
  exact (if_pos hhead).trans (if_pos hle)

end

/-! ### Start and completion (R275, R276) -/

/-- The command that arbitration picks starts, whichever it is. -/
theorem commandStart_of_choice {s : State} {k : Fin 2} {q cls : Nat} {anew : Bool} {c : Cmd}
    (hready : ctrlReady s k.val = true) (hchoice : arbChoice s k = some (q, cls, anew))
    (hrun : runnable s (.host k q) = some c) :
    commandStart s k = noteWaits (startPicked (arbServed s k q cls anew) c) := by
  simp [commandStart, arbStart, hready, hchoice, hrun]

theorem commandComplete_of_ready {s s1 : State} {src : QueueRef} {c : Cmd} (hfront : queueFront s src = some c)
    (hready : cmdReady s c = true) (hpost : postEntry s c (cmdResult s c).1 (cmdResult s c).2 = some s1) :
    commandComplete s src = noteWaits (retireCmd s1 c (cmdResult s c).1) := by
  simp [commandComplete, hfront, hready, hpost]

/-! ### Reads of host memory that fail (R268) -/

section
variable {s : State} {q : CmdRef} {c : Cmd} (cto : Bool)
  (hfind : s.nvme.cmds.find? (fun d => d.src == q && !d.abandoned) = some c)
include hfind

/-- Noting a completion timeout leaves the commands as they are. -/
theorem find_cmd_after_cto :
    (if cto then s.raise R.PCIE_ISR_CTO else s).nvme.cmds.find? (fun d => d.src == q && !d.abandoned) = some c := by
  cases cto
  · exact hfind
  · exact hfind

theorem hostReadFailure_of_waiting (hst : c.st = .waiting) :
    hostReadFailure s q none cto =
      updCmd (if cto then s.raise R.PCIE_ISR_CTO else s) c.id (fun d => { d with xfer := true }) := by
  unfold hostReadFailure
  simp only [find_cmd_after_cto cto hfind]
  exact if_pos hst

theorem hostReadFailure_of_started (n : Nat) (hst : c.st = .started) :
    hostReadFailure s q (some n) cto = fetchFails (if cto then s.raise R.PCIE_ISR_CTO else s) c n := by
  unfold hostReadFailure
  simp only [find_cmd_after_cto cto hfind]
  exact if_pos hst

end

/-! ### Queue management (R274, R288) and aborts (R287) -/

theorem queueIdBad_of_mem {q : Nat} (hlo : 1 ≤ q) (hhi : q ≤ 1024) : queueIdBad q = false := by
  have hzero : q ≠ 0 := by omega
  simp [queueIdBad, hzero, hhi]

theorem queueSizeBad_of_mem {n : Nat} (hn : 2 ≤ n ∧ n ≤ 65536) : queueSizeBad n = false := by
  obtain ⟨hlo, hhi⟩ := hn
  simp [queueSizeBad, Nat.lt_of_succ_le hlo, hhi]

section
variable {s : State} {c : Cmd}

section
variable (hplace : opMisplaced c = false)
include hplace

theorem startCmd_createSq {qid size cqid prio : Nat} (hop : c.op = .createSq qid size cqid prio)
    (hcq : cqid ≠ 0 ∧ (cqOf s (ctrlNum c) cqid).isSome = true)
    (hqid : 1 ≤ qid ∧ qid ≤ 1024 ∧ sqOf s (ctrlNum c) qid = none) (hsize : 2 ≤ size ∧ size ≤ 65536) :
    startCmd s c = endCmd (setSq s (ctrlNum c) qid (some ⟨size, 0, 0, cqid, prio⟩)) c.id scOk 0 [] := by
  obtain ⟨hadmin, hsome⟩ := hcq
  obtain ⟨hlo, hhi, hnew⟩ := hqid
  simp [startCmd, hop, hplace, startCreateSq, hadmin, Option.ne_none_iff_isSome.mpr hsome, queueIdBad_of_mem hlo hhi, hnew,
    queueSizeBad_of_mem hsize]

theorem startCmd_createCq {qid size vector : Nat} {ien : Bool} (hop : c.op = .createCq qid size vector ien)
    (hqid : 1 ≤ qid ∧ qid ≤ 1024 ∧ cqOf s (ctrlNum c) qid = none) (hsize : 2 ≤ size ∧ size ≤ 65536)
    (hvector : vector ≤ 1024) :
    startCmd s c = endCmd (setCq s (ctrlNum c) qid (some (newCq size vector ien))) c.id scOk 0 [] := by
  obtain ⟨hlo, hhi, hnew⟩ := hqid
  simp [startCmd, hop, hplace, startCreateCq, queueIdBad_of_mem hlo hhi, hnew, queueSizeBad_of_mem hsize,
    Nat.not_lt.mpr hvector]

theorem startCmd_deleteSq {qid : Nat} {k : Fin 2} {n : Nat} {cid : BitVec 16} (hop : c.op = .deleteSq qid)
    (hsrc : c.src = .host k n cid) (hqid : 1 ≤ qid ∧ qid ≤ 1024 ∧ (sqOf s k.val qid).isSome = true) :
    startCmd s c = abortQueue s (.host k qid) := by
  obtain ⟨hlo, hhi, hsome⟩ := hqid
  simp [startCmd, hop, hplace, startDeleteSq, hsrc, queueIdBad_of_mem hlo hhi, Option.ne_none_iff_isSome.mpr hsome]

theorem startCmd_deleteCq {qid : Nat} (hop : c.op = .deleteCq qid)
    (hqid : 1 ≤ qid ∧ qid ≤ 1024 ∧ (cqOf s (ctrlNum c) qid).isSome = true)
    (hunused : (ctrlOf s (ctrlNum c)).sqs.any (fun e => e.2.any (fun x => x.cq == qid)) = false) :
    startCmd s c = endCmd (setCq s (ctrlNum c) qid none) c.id scOk 0 [] := by
  obtain ⟨hlo, hhi, hsome⟩ := hqid
  have hnamed : ¬ (queueIdBad qid = true ∨ (cqOf s (ctrlNum c) qid).isNone = true) := by
    rw [queueIdBad_of_mem hlo hhi, Option.isNone_eq_false_iff.mpr hsome]
    rintro (h | h) <;> cases h
  simp only [startCmd, hop, hplace, startDeleteCq, if_neg hnamed, hunused]
  rfl

theorem startCmd_abort {sqid cid : Nat} (hop : c.op = .abort sqid cid)
    (hheld : s.nvme.cmds.countP (fun d => d.id != c.id && d.st != .waiting && ctrlNum d == ctrlNum c &&
      (match d.op with | .abort .. => true | _ => false)) < 8) :
    startCmd s c = abortPoint s c sqid cid := by
  simp only [startCmd, hop, hplace, startAbort]
  exact if_neg (Nat.not_le.mpr hheld)

end

theorem startCmd_misplaced (hplace : opMisplaced c = true) : startCmd s c = endCmd s c.id scInvalidOpcode 0 [] :=
  if_pos hplace

end

/-- Settles O44: each event and each command comes to its own lemma. -/
theorem controllersAndQueuesComplete : Obligations.ControllersAndQueuesComplete := by
  refine ⟨?_, ?_, ?_, ?_, ?_, ?_, ?_, ?_, ?_, ?_, ?_, ?_, ?_, ?_, ?_, ?_⟩
  · -- CONTROLLER_ENABLE
    exact fun s k asqs acqs hctrl hasqs hacqs =>
      congrArg Host.Outcome.next (ctrlEnable_of_disabled hctrl hasqs hacqs)
  · -- CONTROLLER_RESET
    exact fun s k hen => congrArg Host.Outcome.next (ctrlDisable_of_en hen)
  · -- SHUTDOWN_NOTIFY
    exact fun s k shn hen hshn => congrArg Host.Outcome.next (shutdownStart_of_en hen hshn)
  · -- SHUTDOWN_COMPLETE
    exact fun s k hshst hsafe => congrArg Host.Outcome.next (shutdownEnd_of_safe hshst hsafe)
  · -- SQ_TAIL_DOORBELL
    exact fun s k q tail x hq htail => congrArg Host.Outcome.next (sqTail_of_lt hq htail)
  · -- CQ_HEAD_DOORBELL
    exact fun s k q head n x hq hn hle => congrArg Host.Outcome.next (cqHead_of_le hq hn hle)
  · -- COMMAND_START
    exact fun s k q cls anew c hready hchoice hrun =>
      congrArg Host.Outcome.next (commandStart_of_choice hready hchoice hrun)
  · -- COMMAND_COMPLETE
    exact fun s src c s1 hfront hready hpost =>
      congrArg Host.Outcome.next (commandComplete_of_ready hfront hready hpost)
  · -- HOST_READ_FAILURE of a walk
    exact fun s q cto c hfind hst => congrArg Host.Outcome.next (hostReadFailure_of_waiting cto hfind hst)
  · -- HOST_READ_FAILURE of a data fetch
    exact fun s q n cto c hfind hst => congrArg Host.Outcome.next (hostReadFailure_of_started cto hfind n hst)
  · -- CREATE_IO_SQ
    intro s q qid size cqid prio s1 c h hcq hqid hsize
    exact submit_of_startsAtOnce h fun hop _ hplace => startCmd_createSq hplace hop hcq hqid hsize
  · -- CREATE_IO_CQ
    intro s q qid size vector ien s1 c h hqid hsize hvector
    exact submit_of_startsAtOnce h fun hop _ hplace => startCmd_createCq hplace hop hqid hsize hvector
  · -- DELETE_IO_SQ
    intro s q k cid qid s1 c h hq hqid
    have hsrc : c.src = .host k 0 cid := (src_of_startsAtOnce h).trans hq
    exact submit_of_startsAtOnce h fun hop _ hplace => startCmd_deleteSq hplace hop hsrc hqid
  · -- DELETE_IO_CQ
    intro s q qid s1 c h hqid hunused
    exact submit_of_startsAtOnce h fun hop _ hplace => startCmd_deleteCq hplace hop hqid hunused
  · -- ABORT
    intro s q sqid cid s1 c h hheld
    exact submit_of_startsAtOnce h fun hop _ hplace => startCmd_abort hplace hop hheld
  · -- INVALID_COMMAND_OPCODE
    intro s q opcode s1 c h
    exact submit_of_startsAtOnce h fun _ _ hplace => startCmd_misplaced hplace

end Sys2Proof.Machine
end

section
/-! Proofs of the family of host and NVMe, the commands that are register writes: hallway slots and fabric time (R360 to R362),
the watchdog (R445, R451, R453), the code store (R432, R438), stored profiles (R456, R471), pins (R473), BAR2 (R267) and the
debug register (R491). -/

namespace Sys2Proof.Machine

/-! ### A register write (R9 to R12) -/

/-- The bit of a number is its field of width 1. -/
theorem bitOf_eq_decide_bitsOf (v i : Nat) : bitOf v i = decide (bitsOf v i 1 = 1) := by
  rw [bitOf, bitsOf, Nat.shiftRight_eq_div_pow, Nat.testBit_eq_decide_div_mod_eq, Nat.pow_one]

/-- A value that fits the lowest field of a register is what a 32-bit write gives it. -/
theorem bitsOf_zero_of_lt {v w : Nat} (hv : v < 2 ^ w) (hw : w ≤ 32) : bitsOf (v % 2 ^ 32) 0 w = v := by
  rw [bitsOf, Nat.shiftRight_zero, Nat.mod_eq_of_lt (hv.trans_le (Nat.pow_le_pow_right Nat.two_pos hw)),
    Nat.mod_eq_of_lt hv]

/-- A field takes its part of a 32-bit write, whatever stands above it. -/
theorem setFld_bitsOf (s : State) {f : Fld} (v : Nat) (hf : f.lo + f.width ≤ 32) :
    s.setFld f (bitsOf (v % 2 ^ 32) f.lo f.width) = s.setFld f (v / 2 ^ f.lo) := by
  have hpart : bitsOf (v % 2 ^ 32) f.lo f.width % 2 ^ f.width = v / 2 ^ f.lo % 2 ^ f.width := by
    have hsplit : (2 : Nat) ^ 32 = 2 ^ f.lo * 2 ^ (32 - f.lo) := by rw [← Nat.pow_add]; congr 1; omega
    have hdvd : 2 ^ f.width ∣ 2 ^ (32 - f.lo) := Nat.pow_dvd_pow 2 (by omega)
    rw [bitsOf, Nat.mod_mod, Nat.shiftRight_eq_div_pow, hsplit, Nat.mod_mul_right_div_self, Nat.mod_mod_of_dvd _ hdvd]
  rw [State.setFld, State.setFld, hpart]

theorem setFlds_bitsOf (s : State) (v : Nat) (fs : List Fld) (hfs : ∀ f ∈ fs, f.lo + f.width ≤ 32) :
    s.setFlds (fs.map (fun f => (f, bitsOf (v % 2 ^ 32) f.lo f.width))) =
      s.setFlds (fs.map (fun f => (f, v / 2 ^ f.lo))) := by
  induction fs generalizing s with
  | nil => rfl
  | cons f fs ih =>
    rw [List.map_cons, List.map_cons, State.setFlds, State.setFlds, setFld_bitsOf s v (hfs f List.mem_cons_self)]
    exact ih _ (fun g hg => hfs g (List.mem_cons_of_mem _ hg))

section
variable {s : State} {rq : Requester} {b : BlockId} {off v : Nat}

/-- A 32-bit write beyond the first register of a window, by a requester that reaches its block. -/
theorem writeBy_body (halign : off % 4 = 0) (hblock : windowBlock off = some b) (hpos : off % blockWindow ≠ 0)
    (h : reaches s rq b = true) : writeBy s rq off v = blockBody s rq b (off % blockWindow) (v % 2 ^ 32) := by
  have hen : ¬ (off % blockWindow = 0 ∧ blockHasEnable b = true) := fun h => hpos h.1
  rw [writeBy_of_reaches halign hblock h, blockWrite, if_neg hen]

/-- By the access codes a register's fields take their parts of a value one by one. -/
theorem writeCodes_of_fields {o : Nat} {fs : List CardField}
    (hcard : (findCard (blockBase b + o)).map (fun x => x.1.fields) = some fs) :
    writeCodes s b o v = fs.foldl (writeField s b o v) s := by
  obtain ⟨⟨c, nk⟩, hfound, hfields⟩ := Option.map_eq_some_iff.mp hcard
  rw [writeCodes, hfound]
  exact congrArg (fun l => l.foldl (writeField s b o v) s) hfields

end

/-! ### What writes of some registers leave -/

/-- Two states that agree on all but the fields of the registers at some offsets. -/
structure WritesAt (offs : List Nat) (s t : State) : Prop where
  fld : ∀ g : Fld, g.lo < 32 → g.off ∉ offs → t.fld g = s.fld g
  rest : t = { s with regs := t.regs }

section
variable {offs : List Nat} {s t : State}

theorem WritesAt.refl (offs : List Nat) (s : State) : WritesAt offs s s := ⟨fun _ _ _ => rfl, rfl⟩

theorem WritesAt.setFld (h : WritesAt offs s t) {f : Fld} (v : Nat) (hoff : f.off ∈ offs) (hlo : f.lo < 32) :
    WritesAt offs s (t.setFld f v) := by
  refine ⟨fun g hg hout => ?_, congrArg (fun u => u.setFld f v) h.rest⟩
  have hkey : g.key ≠ f.key := by
    have hne : g.off ≠ f.off := fun heq => hout (heq ▸ hoff)
    unfold Fld.key
    omega
  rw [fld_setFld_ne t v hkey, h.fld g hg hout]

variable (h : WritesAt offs s t)
include h

theorem WritesAt.code : t.code = s.code := by rw [h.rest]
theorem WritesAt.cores : t.cores = s.cores := by rw [h.rest]
theorem WritesAt.fuses : t.fuses = s.fuses := by rw [h.rest]
theorem WritesAt.hwWins : t.hwWins = s.hwWins := by rw [h.rest]

theorem WritesAt.blockOn {b : BlockId} (hout : blockBase b + 4 ∉ offs) : blockOn t b = blockOn s b := by
  have hstate : t.fld (fldState (blockBase b)) = s.fld (fldState (blockBase b)) :=
    h.fld _ (by simp [fldState]) hout
  rw [Machine.blockOn, Machine.blockOn, blockState, blockState, hstate]

/-- The block reached stays in reach while the window of BAR2 stays as it is. -/
theorem WritesAt.reaches (rq : Requester) (b : BlockId) (hout : R.PCIE_CTRL_REGWIN.off ∉ offs) :
    reaches t rq b = reaches s rq b := by
  have hbar : barOpen t = barOpen s := by
    rw [barOpen, barOpen, State.flag, State.flag, h.fld _ (by decide) hout]
  have hclass : classDOpen t = classDOpen s := by rw [classDOpen, classDOpen, h.fuses]
  have hmay : mayReach t rq b = mayReach s rq b := by
    cases rq with
    | classD => exact hclass
    | core c => rfl
    | classA k => rfl
    | dma c => rfl
  unfold Machine.reaches
  rw [hmay, hbar]

theorem WritesAt.inGate (rq : Requester) : inGate t rq = inGate s rq := by
  unfold Machine.inGate State.core
  rw [h.cores]

/-- Every byte reads the same while the end of DRAM stays where it is. -/
theorem WritesAt.memBytes (hout : R.DRAM_USABLE_MIB.off ∉ offs) (a n : Nat) : t.memBytes a n = s.memBytes a n := by
  have hend : dramEnd t = dramEnd s := by rw [dramEnd, dramEnd, h.fld _ (by decide) hout]
  have hmem : t.mem = s.mem := by rw [h.rest]
  have hbyte : ∀ x, t.memByte x = s.memByte x := fun x =>
    memByte_congr hend (by rw [h.rest]) (by rw [h.rest]) (by rw [State.rawByte, State.rawByte, hmem])
      (fun _ => by rw [State.rawWord, State.rawWord, hmem])
  induction n generalizing a with
  | zero => rfl
  | succ n ih => rw [State.memBytes, State.memBytes, hbyte, ih]

end

/-! ### Hallway slots and fabric time (R360, R361, R362) -/

section
variable {s : State} {rq : Requester}

/-- FAB_HWTAG as written: the window and the slot named. -/
def hwTagNamed (s : State) (win slot : Nat) : State := s.setFlds [(R.FAB_HWTAG_WIN, win), (R.FAB_HWTAG_SLOT, slot)]

theorem writesAt_hwTagNamed (win slot : Nat) : WritesAt [0x310040] s (hwTagNamed s win slot) :=
  ((WritesAt.refl _ s).setFld win (f := R.FAB_HWTAG_WIN) (by decide) (by decide)).setFld slot (f := R.FAB_HWTAG_SLOT)
    (by decide) (by decide)

theorem writeCodes_hwtag (v : Nat) : writeCodes s .fab 0x40 v = hwTagNamed s (bitsOf v 0 6) (bitsOf v 8 20) := by
  have hcard : (findCard (blockBase .fab + 0x40)).map (fun x => x.1.fields) =
      some [⟨0, 6, .rw, .val 0, .any⟩, ⟨8, 20, .rw, .val 0, .any⟩, ⟨28, 2, .ro, .val 0, .any⟩,
        ⟨30, 1, .ro, .val 0, .any⟩, ⟨31, 1, .wo, .val 0, .any⟩] := by decide +kernel
  rw [writeCodes_of_fields hcard]
  rfl

/-- A write of FAB_HWTAG with GO names its window and slot and acts on them. -/
theorem writeBy_hwtagGo {win : Fin 64} {slot : Fin 1048576} (hreach : reaches s rq .fab = true) :
    writeBy s rq 0x310040 (win.val + slot.val * 2 ^ 8 + 2 ^ 31) =
      hwTagGo (hwTagNamed s win.val slot.val) win.val slot.val := by
  have hval : (win.val + slot.val * 2 ^ 8 + 2 ^ 31) % 2 ^ 32 = win.val + slot.val * 2 ^ 8 + 2 ^ 31 := by omega
  have hnamed : bitsOf (win.val + slot.val * 2 ^ 8 + 2 ^ 31) 0 6 = win.val ∧
      bitsOf (win.val + slot.val * 2 ^ 8 + 2 ^ 31) 8 20 = slot.val ∧
      bitsOf (win.val + slot.val * 2 ^ 8 + 2 ^ 31) 31 1 = 1 := by
    simp only [bitsOf, Nat.shiftRight_eq_div_pow]
    omega
  obtain ⟨hwin, hslot, hgobit⟩ := hnamed
  have hgo : bitOf (win.val + slot.val * 2 ^ 8 + 2 ^ 31) 31 = true := by
    rw [bitOf_eq_decide_bitsOf, hgobit]
    rfl
  have hfab : ∀ v, bitOf v 31 = true → blockBody s rq .fab (0x310040 % blockWindow) v =
      hwTagGo (writeCodes s .fab 0x40 v) (bitsOf v 0 6) (bitsOf v 8 20) := fun v hv => if_pos ⟨rfl, hv⟩
  rw [writeBy_body rfl rfl (by decide) hreach, hval, hfab _ hgo, writeCodes_hwtag, hwin, hslot]

/-- GO on a slot that the local owner holds passes it to the tag of FAB_HWNEW. -/
theorem hwTagGo_of_local {win slot : Nat} {x : HwWin} (hon : blockOn s .fab = true) (hwin : findWin s win = some x)
    (hslot : slot < x.slots) (hown : slotTag s x slot = tagLocal) (htag : tagBad (s.fld R.FAB_HWNEW_TAG) = false) :
    hwTagGo s win slot = (passSlot s x slot (s.fld R.FAB_HWNEW_TAG)).setFld R.FAB_HWTAG_RESULT 0 := by
  simp [hwTagGo, hon, hwin, Nat.not_le.mpr hslot, hown, htag]

theorem execFabHwtagWrite_of_local {win : Fin 64} {slot : Fin 1048576} {x : HwWin} (hreach : reaches s rq .fab = true)
    (hon : blockOn s .fab = true) (hwin : findWin s win.val = some x) (hslot : slot.val < x.slots)
    (hown : slotTag s x slot.val = tagLocal) (htag : tagBad (s.fld R.FAB_HWNEW_TAG) = false) :
    execFabHwtagWrite rq win slot s =
      .next ((passSlot (hwTagNamed s win.val slot.val) x slot.val (s.fld R.FAB_HWNEW_TAG)).setFld R.FAB_HWTAG_RESULT 0) := by
  have hw := writesAt_hwTagNamed (s := s) win.val slot.val
  have hnew : (hwTagNamed s win.val slot.val).fld R.FAB_HWNEW_TAG = s.fld R.FAB_HWNEW_TAG :=
    hw.fld _ (by decide) (by decide)
  have hon' : blockOn (hwTagNamed s win.val slot.val) .fab = true := (hw.blockOn (by decide)).trans hon
  have hwin' : findWin (hwTagNamed s win.val slot.val) win.val = some x := by
    rw [findWin, hw.hwWins]
    exact hwin
  have hown' : slotTag (hwTagNamed s win.val slot.val) x slot.val = tagLocal := by
    rw [slotTag, State.memNat, hw.memBytes (by decide)]
    exact hown
  rw [execFabHwtagWrite, writeBy_hwtagGo hreach, hwTagGo_of_local hon' hwin' hslot hown' (hnew.symm ▸ htag), hnew]

theorem writeCodes_timesetlo (v : Nat) : writeCodes s .fab 0x28 v = s.setFld R.FAB_TIMESETLO_SET (bitsOf v 0 32) := by
  have hcard : (findCard (blockBase .fab + 0x28)).map (fun x => x.1.fields) = some [⟨0, 32, .rw, .val 0, .any⟩] := by
    decide +kernel
  rw [writeCodes_of_fields hcard]
  rfl

theorem writeCodes_timesethi (v : Nat) : writeCodes s .fab 0x2C v = s.setFld R.FAB_TIMESETHI_SET (bitsOf v 0 32) := by
  have hcard : (findCard (blockBase .fab + 0x2C)).map (fun x => x.1.fields) = some [⟨0, 32, .rw, .val 0, .any⟩] := by
    decide +kernel
  rw [writeCodes_of_fields hcard]
  rfl

theorem writeBy_timesetlo {lo : Nat} (hreach : reaches s rq .fab = true) (hlo : lo < 2 ^ 32) :
    writeBy s rq 0x310028 lo = s.setFld R.FAB_TIMESETLO_SET lo := by
  have hbody : ∀ v, blockBody s rq .fab (0x310028 % blockWindow) v = writeCodes s .fab 0x28 v := fun _ => rfl
  rw [writeBy_body rfl rfl (by decide) hreach, hbody, writeCodes_timesetlo, bitsOf_zero_of_lt hlo (by decide)]

/-- The high word of FAB_TIMESET acts (R362). -/
theorem writeBy_timesethi {hi : Nat} (hreach : reaches s rq .fab = true) (hhi : hi < 2 ^ 32) :
    writeBy s rq 0x31002C hi = timeSet (s.setFld R.FAB_TIMESETHI_SET hi) := by
  have hbody : ∀ v, blockBody s rq .fab (0x31002C % blockWindow) v = timeSet (writeCodes s .fab 0x2C v) := fun _ => rfl
  rw [writeBy_body rfl rfl (by decide) hreach, hbody, writeCodes_timesethi, bitsOf_zero_of_lt hhi (by decide)]

/-- The two words of FAB_TIMESET as written. -/
def timeSetNamed (s : State) (lo hi : Nat) : State := (s.setFld R.FAB_TIMESETLO_SET lo).setFld R.FAB_TIMESETHI_SET hi

theorem writesAt_timeSetNamed (lo hi : Nat) : WritesAt [0x310028, 0x31002C] s (timeSetNamed s lo hi) :=
  ((WritesAt.refl _ s).setFld lo (f := R.FAB_TIMESETLO_SET) (by decide) (by decide)).setFld hi
    (f := R.FAB_TIMESETHI_SET) (by decide) (by decide)

theorem execFabTimeset_of_master {x : BitVec 64} (hreach : reaches s rq .fab = true)
    (hmaster : s.flag R.FAB_STATUS_MASTER = true) (hwf : Registers.wf s.regs = true) :
    ∃ t, execFabTimeset rq x s = .next t ∧ t.fab.time = x.toNat % 2 ^ 63 ∧
      t = { s with regs := t.regs, fab := { s.fab with time := t.fab.time } } := by
  have hlo : x.toNat % 2 ^ 32 < 2 ^ 32 := Nat.mod_lt _ (Nat.two_pow_pos 32)
  have hhi : x.toNat / 2 ^ 32 < 2 ^ 32 := Nat.div_lt_of_lt_mul x.isLt
  have hreach' : reaches (s.setFld R.FAB_TIMESETLO_SET (x.toNat % 2 ^ 32)) rq .fab = true :=
    (((WritesAt.refl [0x310028] s).setFld _ (by decide) (by decide)).reaches rq .fab (by decide)).trans hreach
  have hexec : execFabTimeset rq x s = .next (timeSet (timeSetNamed s (x.toNat % 2 ^ 32) (x.toNat / 2 ^ 32))) := by
    rw [execFabTimeset, writeBy_timesetlo hreach hlo, writeBy_timesethi hreach' hhi, timeSetNamed]
  have hw := writesAt_timeSetNamed (s := s) (x.toNat % 2 ^ 32) (x.toNat / 2 ^ 32)
  have hmaster' : (timeSetNamed s (x.toNat % 2 ^ 32) (x.toNat / 2 ^ 32)).flag R.FAB_STATUS_MASTER = true := by
    rw [State.flag, hw.fld _ (by decide) (by decide)]
    exact hmaster
  have hsetlo : (timeSetNamed s (x.toNat % 2 ^ 32) (x.toNat / 2 ^ 32)).fld R.FAB_TIMESETLO_SET = x.toNat % 2 ^ 32 := by
    rw [timeSetNamed, fld_setFld_ne _ _ (by decide), fld_setFld_same _ _ _ hwf]
    exact Nat.mod_mod _ _
  have hsethi : (timeSetNamed s (x.toNat % 2 ^ 32) (x.toNat / 2 ^ 32)).fld R.FAB_TIMESETHI_SET = x.toNat / 2 ^ 32 := by
    rw [timeSetNamed, fld_setFld_same _ _ _ (setFld_regs_wf _ _ _ hwf)]
    exact Nat.mod_eq_of_lt hhi
  refine ⟨_, hexec, ?_, ?_⟩
  · rw [timeSet, if_pos hmaster', hsetlo, hsethi, Nat.mod_add_div]
  · rw [timeSet, if_pos hmaster']
    rfl

/-! ### The watchdog and stored profiles (R445, R451, R453, R456, R471) -/

theorem execWatchdogKick_of_key (hreach : reaches s rq .wdt = true) :
    execWatchdogKick rq 0x6B1D#16 s = .next (s.setFld R.WDT_COUNT_COUNT (25000 * s.fld R.WDT_TIMEOUT_TIMEOUT)) := by
  rw [execWatchdogKick, writeBy_body rfl rfl (by decide) hreach]
  rfl

theorem execWatchdogBootok_of_reaches (hreach : reaches s rq .wdt = true) :
    execWatchdogBootok rq s = .next { (s.clear R.WDT_STATUS_BOOTFAIL) with
      boot := { s.boot with bootOk := true },
      fuses := { s.fuses with rollback := max s.fuses.rollback s.boot.rbidx } } := by
  rw [execWatchdogBootok, writeBy_body rfl rfl (by decide) hreach]
  rfl

theorem execHoldSave_of_idle (hreach : reaches s rq .hold = true) (hidle : s.flag R.HOLD_SAVE_BUSY = false) :
    execHoldSave rq s = .next { (s.raise R.HOLD_SAVE_BUSY) with hold := { s.hold with saving := some (profBytes s) } } := by
  have hsave : blockBody s rq .hold (0x360180 % blockWindow) (1 % 2 ^ 32) = holdSave s 1 := rfl
  rw [execHoldSave, writeBy_body rfl rfl (by decide) hreach, hsave, holdSave, if_neg Nat.one_ne_zero, hidle]
  rfl

theorem execThermSave_of_idle (hreach : reaches s rq .therm = true) (hidle : s.flag R.THERM_SAVE_BUSY = false) :
    execThermSave rq s =
      .next { (s.raise R.THERM_SAVE_BUSY) with therm := { s.therm with saving := some (thermProfile s) } } := by
  have hsave : blockBody s rq .therm (0x370188 % blockWindow) (1 % 2 ^ 32) = thermSave s 1 := rfl
  rw [execThermSave, writeBy_body rfl rfl (by decide) hreach, hsave, thermSave, if_neg Nat.one_ne_zero, hidle]
  rfl

end

/-! ### The code store (R432, R438) -/

section
variable {s : State} {rq : Requester}

/-- A house core reaches every block (R54). -/
theorem reaches_of_house {c : CoreId} (b : BlockId) (hhouse : 32 ≤ c.val) : reaches s (.core c) b = true := by
  simp [reaches, mayReach, Nat.not_lt.mpr hhouse]

/-- The gate routine runs on a house core. -/
theorem reaches_of_inGate (b : BlockId) (hgate : inGate s rq = true) : reaches s rq b = true := by
  cases rq with
  | core c =>
    by_cases hhouse : 32 ≤ c.val
    · exact reaches_of_house b hhouse
    · have hnone : houseOf (.core c) = none := if_neg hhouse
      rw [inGate, hnone] at hgate
      cases hgate
  | classA k => cases hgate
  | classD => cases hgate
  | dma c => cases hgate

theorem writeCodes_cstoreAddr (v : Nat) : writeCodes s .cstore 0x14 v = s.setFld R.CSTORE_ADDR_ADDR (bitsOf v 0 26) := by
  have hcard : (findCard (blockBase .cstore + 0x14)).map (fun x => x.1.fields) = some [⟨0, 26, .rw, .val 0, .any⟩] := by
    decide +kernel
  rw [writeCodes_of_fields hcard]
  rfl

theorem writeCodes_cstoreSrc (v : Nat) : writeCodes s .cstore 0x18 v = s.setFld R.CSTORE_SRC_SRC (bitsOf v 0 22) := by
  have hcard : (findCard (blockBase .cstore + 0x18)).map (fun x => x.1.fields) = some [⟨0, 22, .rw, .val 0, .any⟩] := by
    decide +kernel
  rw [writeCodes_of_fields hcard]
  rfl

theorem writeCodes_cstoreCmd {v : Nat} (hop : bitsOf v 0 3 ≤ 3) :
    writeCodes s .cstore 0x10 v = s.setFld R.CSTORE_CMD_OP (bitsOf v 0 3) := by
  have hcard : (findCard (blockBase .cstore + 0x10)).map (fun x => x.1.fields) =
      some [⟨0, 3, .rw, .val 0, .ranges [(0, 3)]⟩, ⟨31, 1, .wo, .val 0, .any⟩] := by decide +kernel
  have hlegal : legalFor s .cstore 0x10 v ⟨0, 3, .rw, .val 0, .ranges [(0, 3)]⟩ = true := by simp [legalFor, hop]
  rw [writeCodes_of_fields hcard]
  exact if_pos hlegal

section
variable (hgate : inGate s rq = true)
include hgate

/-- From the gate routine CSTORE_ADDR, CSTORE_SRC and CSTORE_CMD take their fields, and GO starts the operation. -/
theorem cstoreWrite_of_gate {o v : Nat} (ho : 0x10 ≤ o ∧ o ≤ 0x18) :
    cstoreWrite s rq o v = if o = 0x10 ∧ bitOf v 31 then csGo (writeCodes s .cstore o v) rq (bitsOf v 0 3)
      else writeCodes s .cstore o v := by
  have hpass : ¬ ((!inGate s rq) = true) := by simp [hgate]
  rw [cstoreWrite, if_pos ho, if_neg hpass]

theorem writeBy_cstoreAddr {addr : Nat} (haddr : addr < 2 ^ 26) :
    writeBy s rq 0x350014 addr = s.setFld R.CSTORE_ADDR_ADDR addr := by
  have hbody : ∀ v, blockBody s rq .cstore (0x350014 % blockWindow) v = cstoreWrite s rq 0x14 v := fun _ => rfl
  rw [writeBy_body rfl rfl (by decide) (reaches_of_inGate .cstore hgate), hbody, cstoreWrite_of_gate hgate (by decide),
    if_neg (fun h => absurd h.1 (by decide)), writeCodes_cstoreAddr,
    bitsOf_zero_of_lt haddr (by decide)]

theorem writeBy_cstoreSrc {src : Nat} (hsrc : src < 2 ^ 22) :
    writeBy s rq 0x350018 src = s.setFld R.CSTORE_SRC_SRC src := by
  have hbody : ∀ v, blockBody s rq .cstore (0x350018 % blockWindow) v = cstoreWrite s rq 0x18 v := fun _ => rfl
  rw [writeBy_body rfl rfl (by decide) (reaches_of_inGate .cstore hgate), hbody, cstoreWrite_of_gate hgate (by decide),
    if_neg (fun h => absurd h.1 (by decide)), writeCodes_cstoreSrc,
    bitsOf_zero_of_lt hsrc (by decide)]

theorem writeBy_cstoreGo {op : Nat} (hop : op ≤ 3) :
    writeBy s rq 0x350010 (op + 2 ^ 31) = csGo (s.setFld R.CSTORE_CMD_OP op) rq op := by
  have hval : (op + 2 ^ 31) % 2 ^ 32 = op + 2 ^ 31 := by omega
  have hfields : bitsOf (op + 2 ^ 31) 0 3 = op ∧ bitsOf (op + 2 ^ 31) 31 1 = 1 := by
    simp only [bitsOf, Nat.shiftRight_eq_div_pow]
    omega
  obtain ⟨hcmd, hgobit⟩ := hfields
  have hgo : bitOf (op + 2 ^ 31) 31 = true := by
    rw [bitOf_eq_decide_bitsOf, hgobit]
    rfl
  have hbody : ∀ v, blockBody s rq .cstore (0x350010 % blockWindow) v = cstoreWrite s rq 0x10 v := fun _ => rfl
  rw [writeBy_body rfl rfl (by decide) (reaches_of_inGate .cstore hgate), hval, hbody,
    cstoreWrite_of_gate hgate (by decide), if_pos ⟨rfl, hgo⟩, writeCodes_cstoreCmd (hcmd.le.trans hop), hcmd]

end

/-- The registers of the code store as GO finds them: address, source and operation. -/
def csNamed (s : State) (op addr src : Nat) : State :=
  ((s.setFld R.CSTORE_ADDR_ADDR addr).setFld R.CSTORE_SRC_SRC src).setFld R.CSTORE_CMD_OP op

theorem writesAt_csNamed (op addr src : Nat) : WritesAt [0x350014, 0x350018, 0x350010] s (csNamed s op addr src) :=
  (((WritesAt.refl _ s).setFld addr (f := R.CSTORE_ADDR_ADDR) (by decide) (by decide)).setFld src
    (f := R.CSTORE_SRC_SRC) (by decide) (by decide)).setFld op (f := R.CSTORE_CMD_OP) (by decide) (by decide)

theorem fld_csNamed_addr {op addr src : Nat} (hwf : Registers.wf s.regs = true) (haddr : addr < 2 ^ 26) :
    (csNamed s op addr src).fld R.CSTORE_ADDR_ADDR = addr := by
  rw [csNamed, fld_setFld_ne _ _ (by decide), fld_setFld_ne _ _ (by decide), fld_setFld_same _ _ _ hwf]
  exact Nat.mod_eq_of_lt haddr

theorem fld_csNamed_src {op addr src : Nat} (hwf : Registers.wf s.regs = true) (hsrc : src < 2 ^ 22) :
    (csNamed s op addr src).fld R.CSTORE_SRC_SRC = src := by
  rw [csNamed, fld_setFld_ne _ _ (by decide), fld_setFld_same _ _ _ (setFld_regs_wf _ _ _ hwf)]
  exact Nat.mod_eq_of_lt hsrc

/-- The operation of the controller that GO starts, at its first step. -/
def csStarted (s : State) (op addr src p : Nat) : CsOp :=
  { op := op, stage := 1, block := p, page := p * csBlockSize + addr % csBlockSize,
    data := if op = 1 then [] else (readRam s (houseBase + src) 256).1 }

theorem csStart_of_idle {op addr src p : Nat} (hidle : s.code.op = none) (hon : blockOn s .cstore = true)
    (hphys : csPhys s (addr / csBlockSize) = some p) :
    csStart s op addr src = some { s with code := { s.code with op := some (csStarted s op addr src p) } } := by
  simp [csStart, hidle, hon, hphys, csStarted]

/-- GO from the gate routine starts the operation on the address and the source that the registers hold. -/
theorem csGo_of_gate {op p : Nat} (hop : 1 ≤ op ∧ op ≤ 3) (hgate : inGate s rq = true) (hidle : s.code.op = none)
    (hon : blockOn s .cstore = true) (hphys : csPhys s (s.fld R.CSTORE_ADDR_ADDR / csBlockSize) = some p) :
    csGo s rq op = { (s.setFld R.CSTORE_CMD_OP op) with code := { s.code with
      op := some (csStarted (s.setFld R.CSTORE_CMD_OP op) op (s.fld R.CSTORE_ADDR_ADDR) (s.fld R.CSTORE_SRC_SRC) p) } } := by
  have hpass : ¬ ((!inGate s rq) = true) := by simp [hgate]
  have hknown : ¬ (op = 0 ∨ 4 ≤ op) := by omega
  have hw : WritesAt [0x350010] s (s.setFld R.CSTORE_CMD_OP op) :=
    (WritesAt.refl _ s).setFld op (by decide) (by decide)
  have hstart := csStart_of_idle (s := s.setFld R.CSTORE_CMD_OP op) (op := op) (src := s.fld R.CSTORE_SRC_SRC) hidle
    ((hw.blockOn (by decide)).trans hon) hphys
  rw [csGo, if_neg hpass, if_neg hknown]
  simp only [hstart]
  rfl

/-- From the gate routine an operation begins on the block's physical place, and beside it registers alone change. -/
theorem cstoreGo_of_gate {op addr src p : Nat} (hop : 1 ≤ op ∧ op ≤ 3) (haddr : addr < 2 ^ 26) (hsrc : src < 2 ^ 22)
    (hgate : inGate s rq = true) (hon : blockOn s .cstore = true) (hidle : s.code.op = none)
    (hphys : csPhys s (addr / csBlockSize) = some p) (hwf : Registers.wf s.regs = true) :
    ∃ r, cstoreGo s rq op addr src =
      { s with regs := r, code := { s.code with op := some (csStarted s op addr src p) } } := by
  have hgate1 : inGate (s.setFld R.CSTORE_ADDR_ADDR addr) rq = true := hgate
  have hgate2 : inGate ((s.setFld R.CSTORE_ADDR_ADDR addr).setFld R.CSTORE_SRC_SRC src) rq = true := hgate
  have hwrites : cstoreGo s rq op addr src = csGo (csNamed s op addr src) rq op := by
    rw [cstoreGo, writeBy_cstoreAddr hgate haddr, writeBy_cstoreSrc hgate1 hsrc, writeBy_cstoreGo hgate2 hop.2]
    rfl
  have hw := writesAt_csNamed (s := s) op addr src
  have hfldaddr := fld_csNamed_addr (op := op) (src := src) hwf haddr
  have hfldsrc := fld_csNamed_src (op := op) (addr := addr) hwf hsrc
  have hphys' : csPhys (csNamed s op addr src) ((csNamed s op addr src).fld R.CSTORE_ADDR_ADDR / csBlockSize) = some p := by
    rw [hfldaddr]
    exact hphys
  have hstarted : csStarted ((csNamed s op addr src).setFld R.CSTORE_CMD_OP op) op addr src p = csStarted s op addr src p := by
    simp only [csStarted, readRam, (hw.setFld op (f := R.CSTORE_CMD_OP) (by decide) (by decide)).memBytes (by decide)]
  rw [hwrites, csGo_of_gate hop ((hw.inGate rq).trans hgate) hidle ((hw.blockOn (by decide)).trans hon) hphys', hfldaddr,
    hfldsrc, hstarted]
  exact ⟨_, rfl⟩

/-- The second step of an erase sequence writes the flag cells, and the third begins (R438). -/
theorem csOpDone_erase_second {o : CsOp} (hrun : s.code.op = some o) (hop : o.op = 1) (hstage : o.stage = 2) :
    csOpDone s true = { (setCsFlags s o.block 0xFFFF0000) with
      code := { (setCsFlags s o.block 0xFFFF0000).code with op := some { o with stage := 3 } } } := by
  unfold csOpDone
  simp only [hrun, if_pos hop, hstage]
  rfl

end

/-! ### Pins (R473) -/

/-- Writing a field leaves the other fields of its register. -/
theorem fld_setFld_of_lo_ne (s : State) {f g : Fld} (v : Nat) (hoff : g.off = f.off) (hlo : g.lo ≠ f.lo) :
    (s.setFld f v).fld g = s.fld g := fld_setFld_ne s v (by unfold Fld.key; omega)

/-- A state that takes EDGE and OE of a pin from another. -/
def pinKept (s t : State) (n : Nat) : State :=
  (t.setFld (R.GPIO_PIN_EDGE n) (s.fld (R.GPIO_PIN_EDGE n))).setFld (R.GPIO_PIN_OE n) (s.fld (R.GPIO_PIN_OE n))

section
variable (s t : State) (n : Nat)

theorem pinKept_own : (pinKept s t n).fld (R.GPIO_PIN_OWN n) = t.fld (R.GPIO_PIN_OWN n) :=
  (fld_setFld_of_lo_ne (f := R.GPIO_PIN_OE n) (g := R.GPIO_PIN_OWN n) _ _ rfl (show 6 ≠ 0 by decide)).trans
    (fld_setFld_of_lo_ne (f := R.GPIO_PIN_EDGE n) (g := R.GPIO_PIN_OWN n) _ _ rfl (show 6 ≠ 1 by decide))

theorem pinKept_func : (pinKept s t n).fld (R.GPIO_PIN_FUNC n) = t.fld (R.GPIO_PIN_FUNC n) :=
  (fld_setFld_of_lo_ne (f := R.GPIO_PIN_OE n) (g := R.GPIO_PIN_FUNC n) _ _ rfl (show 3 ≠ 0 by decide)).trans
    (fld_setFld_of_lo_ne (f := R.GPIO_PIN_EDGE n) (g := R.GPIO_PIN_FUNC n) _ _ rfl (show 3 ≠ 1 by decide))

variable {s t n} (hwf : Registers.wf t.regs = true)
include hwf

theorem pinKept_edge (hedge : s.fld (R.GPIO_PIN_EDGE n) ≤ 3) :
    (pinKept s t n).fld (R.GPIO_PIN_EDGE n) = s.fld (R.GPIO_PIN_EDGE n) := by
  rw [pinKept, fld_setFld_of_lo_ne (f := R.GPIO_PIN_OE n) (g := R.GPIO_PIN_EDGE n) _ _ rfl (show 1 ≠ 0 by decide),
    fld_setFld_same _ _ _ hwf]
  exact Nat.mod_eq_of_lt (Nat.lt_succ_of_le hedge)

theorem pinKept_oe (hoe : s.fld (R.GPIO_PIN_OE n) ≤ 1) :
    (pinKept s t n).fld (R.GPIO_PIN_OE n) = s.fld (R.GPIO_PIN_OE n) := by
  rw [pinKept, fld_setFld_same _ _ _ (setFld_regs_wf _ _ _ hwf)]
  exact Nat.mod_eq_of_lt (Nat.lt_succ_of_le hoe)

end

section
variable {s : State} {c : CoreId} {pin : Fin 16}

/-- What a write of GPIO_PINn by a house core comes to when it keeps OE and EDGE: its OP, EDGE as it stood, and OE where
the core owns the pin before or after. -/
def pinOp (s : State) (c : CoreId) (pin : Fin 16) (op : Nat) : State :=
  let s1 := ownWrite s .gpio op (fun t => gpioClaim t (.core c) pin.val) (fun t => gpioRelease t (.core c) pin.val)
  let s2 := s1.setFld (R.GPIO_PIN_EDGE pin.val) (s.fld (R.GPIO_PIN_EDGE pin.val))
  if 3 + (c.val - 32) = s.fld (R.GPIO_PIN_OWN pin.val) ∨ 3 + (c.val - 32) = s1.fld (R.GPIO_PIN_OWN pin.val) then
    s2.setFld (R.GPIO_PIN_OE pin.val) (s.fld (R.GPIO_PIN_OE pin.val))
  else s2

variable (hhouse : 32 ≤ c.val)
include hhouse

theorem gpioRank_of_house : gpioRank (.core c) = some (3 + (c.val - 32)) := if_pos hhouse

omit hhouse in
/-- The parts of the value that a row writes to GPIO_PINn. -/
theorem bitsOf_pin_value {oe edge op v : Nat} (hoe : oe ≤ 1) (hedge : edge ≤ 3) (hop : op < 4)
    (hv : v = (oe + edge * 2 + 2 ^ 30 * op) % 2 ^ 32) : bitsOf v 30 2 = op ∧ bitsOf v 1 2 = edge ∧ bitsOf v 0 1 = oe := by
  simp only [bitsOf, Nat.shiftRight_eq_div_pow]
  omega

/-- A write of GPIO_PINn by a house core. -/
theorem writeBy_gpioPin (v : Nat) :
    writeBy s (.core c) (0x390040 + pin.val * 4) v = gpioWrite s (.core c) (0x40 + pin.val * 4) (v % 2 ^ 32) := by
  have hoff : (0x390040 + pin.val * 4) % 4 = 0 ∧ (0x390040 + pin.val * 4) % blockWindow = 0x40 + pin.val * 4 := by
    unfold blockWindow
    omega
  obtain ⟨halign, hmod⟩ := hoff
  have hblock : ∀ n : Fin 16, windowBlock (0x390040 + n.val * 4) = some .gpio := by decide
  rw [writeBy_body halign (hblock pin) (by omega) (reaches_of_house .gpio hhouse), hmod]
  rfl

theorem gpioOp_of_house {op : Nat} (hop : op < 4) (hoe : s.fld (R.GPIO_PIN_OE pin.val) ≤ 1)
    (hedge : s.fld (R.GPIO_PIN_EDGE pin.val) ≤ 3) : gpioOp s (.core c) pin.val op = pinOp s c pin op := by
  have hregs : 0x40 + pin.val * 4 ≠ 0x14 ∧ (0x40 ≤ 0x40 + pin.val * 4 ∧ 0x40 + pin.val * 4 < 0x80) ∧
      (0x40 + pin.val * 4 - 0x40) / 4 = pin.val := by omega
  obtain ⟨hout, hpins, hnum⟩ := hregs
  obtain ⟨hopbits, hedgebits, hoebits⟩ := bitsOf_pin_value hoe hedge hop rfl
  rw [gpioOp, writeBy_gpioPin hhouse]
  simp only [gpioWrite, if_neg hout, if_pos hpins, hnum, hopbits, hedgebits, hoebits, gpioRank_of_house hhouse, pinOp,
    Option.isSome_some, Bool.true_and, Bool.or_eq_true, beq_iff_eq, Option.some.injEq]

/-- What a claim leaves of a free pin: its owner and the owner's own code. -/
def pinClaimed (s : State) (c : CoreId) (pin : Fin 16) : State :=
  s.setFlds [(R.GPIO_PIN_OWN pin.val, 3 + (c.val - 32)), (R.GPIO_PIN_FUNC pin.val, 0)]

omit hhouse in
theorem pinClaimed_own (hwf : Registers.wf s.regs = true) :
    (pinClaimed s c pin).fld (R.GPIO_PIN_OWN pin.val) = 3 + (c.val - 32) := by
  have hfits : 3 + (c.val - 32) < 2 ^ 4 := by omega
  have hfunc := fld_setFld_of_lo_ne (s.setFld (R.GPIO_PIN_OWN pin.val) (3 + (c.val - 32))) (f := R.GPIO_PIN_FUNC pin.val)
    (g := R.GPIO_PIN_OWN pin.val) 0 rfl (show 6 ≠ 3 by decide)
  exact hfunc.trans ((fld_setFld_same _ _ _ hwf).trans (Nat.mod_eq_of_lt hfits))

omit hhouse in
theorem pinClaimed_func (hwf : Registers.wf s.regs = true) :
    (pinClaimed s c pin).fld (R.GPIO_PIN_FUNC pin.val) = 0 := fld_setFld_same _ _ _ (setFld_regs_wf _ _ _ hwf)

theorem pinOp_claim_of_free (hfree : s.fld (R.GPIO_PIN_OWN pin.val) = 0) (hwf : Registers.wf s.regs = true) :
    pinOp s c pin 1 = pinKept s (pinClaimed s c pin) pin.val := by
  have hclaim : gpioClaim s (.core c) pin.val = pinClaimed s c pin := by
    rw [gpioClaim, gpioRank_of_house hhouse]
    exact if_pos hfree
  have hop : ownWrite s .gpio 1 (fun t => gpioClaim t (.core c) pin.val) (fun t => gpioRelease t (.core c) pin.val) =
      gpioClaim s (.core c) pin.val := rfl
  simp only [pinOp, hop, hclaim]
  exact if_pos (.inr (pinClaimed_own hwf).symm)

theorem pinOp_release_of_own (hown : s.fld (R.GPIO_PIN_OWN pin.val) = 3 + (c.val - 32)) :
    pinOp s c pin 2 = pinKept s (s.setFld (R.GPIO_PIN_OWN pin.val) 0) pin.val := by
  have hrelease : gpioRelease s (.core c) pin.val = s.setFld (R.GPIO_PIN_OWN pin.val) 0 := by
    rw [gpioRelease, gpioRank_of_house hhouse]
    exact if_pos hown
  have hop : ownWrite s .gpio 2 (fun t => gpioClaim t (.core c) pin.val) (fun t => gpioRelease t (.core c) pin.val) =
      gpioRelease s (.core c) pin.val := rfl
  simp only [pinOp, hop, hrelease]
  exact if_pos (.inl hown.symm)

end

/-! ### BAR2 and the debug register (R267, R491) -/

section
variable {s : State}

/-- RET_IER takes its four event enables. -/
theorem writeCodes_retIer (v : Nat) :
    writeCodes s .ret 0xC (v % 2 ^ 32) = s.setFlds [(R.RET_IER_STALL, v), (R.RET_IER_TIMEOUT, v / 2),
      (R.RET_IER_FAIL, v / 4), (R.RET_IER_OSTGFULL, v / 8)] := by
  have hcard : (findCard (blockBase .ret + 0xC)).map (fun x => x.1.fields) =
      some [⟨0, 1, .rw, .val 0, .any⟩, ⟨1, 1, .rw, .val 0, .any⟩, ⟨2, 1, .rw, .val 0, .any⟩,
        ⟨3, 1, .rw, .val 0, .any⟩] := by
    decide +kernel
  rw [writeCodes_of_fields hcard]
  exact (setFlds_bitsOf s v [R.RET_IER_STALL, R.RET_IER_TIMEOUT, R.RET_IER_FAIL, R.RET_IER_OSTGFULL] (by decide)).trans
    (congrArg (fun x => s.setFlds [(R.RET_IER_STALL, x), _, _, _]) (Nat.div_one v))

theorem regWrite_retIer {rq : Requester} (hmay : mayReach s rq .ret = true) (v : Nat) :
    regWrite s rq 0x3000C v = some (s.setFlds [(R.RET_IER_STALL, v), (R.RET_IER_TIMEOUT, v / 2), (R.RET_IER_FAIL, v / 4),
      (R.RET_IER_OSTGFULL, v / 8)]) := by
  rw [← writeCodes_retIer]
  exact if_pos hmay

theorem regRead_retPto {rq : Requester} (hmay : mayReach s rq .ret = true) :
    regRead s rq 0x30010 = some (s.fld R.RET_PTO_TIME, s) := by
  have hcard : (findCard 0x30010).map (fun x => x.1.fields) = some [⟨0, 24, .rwl, .val 10000, .any⟩] := by decide +kernel
  obtain ⟨⟨c, nk⟩, hfound, hfields⟩ := Option.map_eq_some_iff.mp hcard
  dsimp only at hfields
  have hshown : regShown s 0x30010 = s.fld R.RET_PTO_TIME := by
    simp [regShown, hfound, hfields, R.RET_PTO_TIME]
  rw [← hshown]
  exact if_pos hmay

theorem bar2_retIer (k : Fin 2) (v : BitVec 64) (hopen : barOpen s = true) :
    bar2 s k 0x3000C .w32 (some v) = s.setFlds [(R.RET_IER_STALL, v.toNat), (R.RET_IER_TIMEOUT, v.toNat / 2),
      (R.RET_IER_FAIL, v.toNat / 4), (R.RET_IER_OSTGFULL, v.toNat / 8)] := by
  rw [bar2, if_neg (not_not.mpr hopen)]
  rw [writeByWd, if_pos hopen, regWriteWd, regWrite_retIer rfl, Option.getD_some]

section
variable (hir : s.tap.ir = .debug) (hopen : classDOpen s = true)
include hir hopen

theorem debugRead_of_reg {word off : Nat} {r : Nat × State} (htarget : targetOf s (word * 4) = .reg off)
    (hread : regRead s .classD off = some r) : debugRead s word = dbgSet r.2 r.1 0 := by
  have hsel : dbgSelected s = true := by rw [dbgSelected, hir]; rfl
  simp [debugRead, hsel, hopen, htarget, hread]

theorem debugWrite_of_reg {word off : Nat} {v : Word} {s1 : State} (htarget : targetOf s (word * 4) = .reg off)
    (hwrite : regWrite s .classD off v.toNat = some s1) : debugWrite s word v = dbgSet s1 v.toNat 0 := by
  have hsel : dbgSelected s = true := by rw [dbgSelected, hir]; rfl
  simp [debugWrite, hsel, hopen, htarget, hwrite]

end

end

/-- Settles O11: each clause is the lemma of its command; a register write is the block's own answer to it. -/
theorem systemRegisterCommandsComplete : Obligations.SystemRegisterCommandsComplete := by
  refine ⟨?_, ?_, ?_, ?_, ?_, ?_, ?_, ?_, ?_, ?_, ?_, ?_, ?_, ?_, ?_⟩
  · -- FAB_HWTAG_WRITE
    exact fun s rq win slot x hreach hon hwin hslot hown htag _ =>
      ⟨_, execFabHwtagWrite_of_local hreach hon hwin hslot hown htag, rfl⟩
  · -- FAB_TIMESET
    exact fun s rq x hreach hmaster hwf => execFabTimeset_of_master hreach hmaster hwf
  · -- WATCHDOG_KICK
    exact fun s rq hreach => execWatchdogKick_of_key hreach
  · -- WATCHDOG_BOOTOK
    exact fun s rq hreach => execWatchdogBootok_of_reaches hreach
  · -- CSTORE_ERASE_SEQUENCE
    intro s rq addr p hgate hon hidle hphys hwf
    obtain ⟨r, hgo⟩ := cstoreGo_of_gate (op := 1) (src := 0) (by decide) addr.isLt (by decide) hgate hon hidle hphys hwf
    exact ⟨_, congrArg Host.Outcome.next hgo, rfl, rfl⟩
  · -- CSTORE_PAGE_PROGRAM
    intro s rq addr src p hgate hon hidle hphys hwf
    obtain ⟨r, hgo⟩ := cstoreGo_of_gate (op := 2) (by decide) addr.isLt src.isLt hgate hon hidle hphys hwf
    exact ⟨_, congrArg Host.Outcome.next hgo, rfl, rfl⟩
  · -- CSTORE_RECORD_PROGRAM
    intro s rq addr src p hgate hon hidle hphys hwf
    obtain ⟨r, hgo⟩ := cstoreGo_of_gate (op := 3) (by decide) addr.isLt src.isLt hgate hon hidle hphys hwf
    exact ⟨_, congrArg Host.Outcome.next hgo, rfl, rfl⟩
  · -- CSTORE_OP_DONE
    exact fun s o hrun hop hstage => congrArg Host.Outcome.next (csOpDone_erase_second hrun hop hstage)
  · -- HOLD_SAVE
    exact fun s rq hreach hidle => execHoldSave_of_idle hreach hidle
  · -- THERM_SAVE
    exact fun s rq hreach hidle => execThermSave_of_idle hreach hidle
  · -- GPIO_CLAIM
    intro s c pin hhouse hfree hoe hedge hwf
    have hwf' : Registers.wf (pinClaimed s c pin).regs = true := setFlds_regs_wf _ _ hwf
    exact ⟨_, congrArg Host.Outcome.next
      ((gpioOp_of_house hhouse (by decide) hoe hedge).trans (pinOp_claim_of_free hhouse hfree hwf)),
      (pinKept_own _ _ _).trans (pinClaimed_own hwf), (pinKept_func _ _ _).trans (pinClaimed_func hwf),
      pinKept_oe hwf' hoe, pinKept_edge hwf' hedge, rfl⟩
  · -- GPIO_RELEASE
    intro s c pin hhouse hown hoe hedge hwf
    exact ⟨_, congrArg Host.Outcome.next
      ((gpioOp_of_house hhouse (by decide) hoe hedge).trans (pinOp_release_of_own hhouse hown)),
      (pinKept_own _ _ _).trans (fld_setFld_same _ _ _ hwf), pinKept_edge (setFld_regs_wf _ _ _ hwf) hedge, rfl⟩
  · -- BAR2_ACCESS
    exact fun s k v hopen => congrArg Host.Outcome.next (bar2_retIer k v hopen)
  · -- DEBUG_READ
    exact fun s hir hopen htarget =>
      congrArg Host.Outcome.next (debugRead_of_reg hir hopen htarget (regRead_retPto (rq := .classD) hopen))
  · -- DEBUG_WRITE
    exact fun s v hir hopen htarget =>
      congrArg Host.Outcome.next (debugWrite_of_reg hir hopen htarget (regWrite_retIer (rq := .classD) hopen v.toNat))

end Sys2Proof.Machine
end

section
/-! Proofs of the family of media and translation: NAND operations and their micro-steps (R305 to R307, R310, R313), and the
translation layer's writing, journal, collection, scans and cellar replay (R316 to R333, R466). -/

namespace Sys2Proof.Machine

/-! ### LUNs -/

theorem lunOf_setLun_same (s : State) (lun : Nat) (l : Lun) : lunOf (setLun s lun l) lun = some l := by
  rw [lunOf, setLun, tblSet, if_neg (Option.some_ne_none l)]
  exact tblGet_tblPut_same none _ lun (some l)

theorem opStart_setLun (s : State) (lun : Nat) (l : Lun) (m k : Nat) : opStart (setLun s lun l) m k = opStart s m k := rfl

/-! ### Starting an operation (Table 10.5, R305, R313) -/

section
variable {s : State} {lun : Nat} {l : Lun}

theorem lunPhase_of_lunOf (hl : lunOf s lun = some l) : lunPhase s lun = l.phase := by
  rw [lunPhase, hl]

/-- A present operation stands at its first micro-step. -/
theorem beginOp_of_opStart {k b : Nat} (block page : Nat) (prog : Option Prog) (hl : lunOf s lun = some l)
    (hstart : opStart s lun k = some b) :
    beginOp s lun k block page prog = setLun s lun { l with op := some (newOp k block page b prog) } := by
  rw [beginOp, hl, hstart]

variable (hfree : lunFree s lun = true) (hl : lunOf s lun = some l)
include hfree hl

section
variable (hphase : l.phase = .none)
include hphase

theorem startPlain_of_free {k b : Nat} (hstart : opStart s lun k = some b) :
    startPlain s lun k = setLun s lun { l with op := some (newOp k 0 0 b none) } := by
  rw [startPlain, if_pos ⟨hfree, (lunPhase_of_lunOf hl).trans hphase⟩, beginOp_of_opStart 0 0 none hl hstart]

theorem startRead_of_free {k b : Nat} (block page : Nat) (hstart : opStart s lun k = some b) :
    startRead s lun k block page = setLun s lun { l with op := some (newOp k block page b none) } := by
  have hlun : lunPhase s lun = .none := (lunPhase_of_lunOf hl).trans hphase
  rw [startRead, if_pos hfree, hlun, hl]
  exact beginOp_of_opStart block page none hl hstart

theorem startErase_of_pending {block b : Nat} (hblock : btState s lun block = bsPending)
    (hstart : opStart s lun opErase = some b) :
    startErase s lun block = setLun s lun { l with op := some (newOp opErase block 0 b none) } := by
  rw [startErase, if_pos ⟨hfree, (lunPhase_of_lunOf hl).trans hphase, hblock⟩, beginOp_of_opStart block 0 none hl hstart]

/-- The program started is the first that waits for the LUN in the mode given, and it waits no longer. -/
theorem startProgram_of_waiting {slc : Bool} {g : Prog} {b : Nat}
    (hnext : s.media.progs.find? (fun q => q.lun == lun && q.slc == slc) = some g)
    (hstart : opStart s lun (if slc then opProgramSlc else opProgram) = some b) :
    startProgram s lun slc = setLun { s with media := { s.media with progs := s.media.progs.erase g } } lun
      { l with op := some (newOp (if slc then opProgramSlc else opProgram) g.block g.page b (some g)) } := by
  rw [startProgram, if_pos ⟨hfree, (lunPhase_of_lunOf hl).trans hphase⟩, hnext]
  exact beginOp_of_opStart g.block g.page (some g) hl hstart

end

theorem startRetrySet_of_due {b : Nat} (hphase : l.phase = .set) (hstart : opStart s lun opRetrySet = some b) :
    startRetrySet s lun = setLun (setLun s lun { l with retry := l.retry + 1 }) lun
      { l with retry := l.retry + 1, op := some (newOp opRetrySet 0 0 b none) } := by
  rw [startRetrySet, if_pos ⟨hfree, (lunPhase_of_lunOf hl).trans hphase⟩, hl]
  exact beginOp_of_opStart 0 0 none (lunOf_setLun_same s lun _) ((opStart_setLun s lun _ lun opRetrySet).trans hstart)

theorem startRetryClear_of_due {b : Nat} (hphase : l.phase = .clear) (hstart : opStart s lun opRetryClear = some b) :
    startRetryClear s lun = setLun s lun { l with op := some (newOp opRetryClear 0 0 b none) } := by
  rw [startRetryClear, if_pos ⟨hfree, (lunPhase_of_lunOf hl).trans hphase⟩, beginOp_of_opStart 0 0 none hl hstart]

end

/-- Settles O41: each operation comes to its start's own lemma; programs differ in their mode alone. -/
theorem nandOperationsStart : Obligations.NandOperationsStart := by
  refine ⟨?_, ?_, ?_, ?_, ?_, ?_, ?_, ?_, ?_⟩
  · -- NAND_OP_RESET
    exact fun s lun l b hfree ⟨hl, hphase⟩ hstart =>
      congrArg Host.Outcome.next (startPlain_of_free hfree hl hphase hstart)
  · -- NAND_OP_PARAM_READ
    exact fun s lun l b hfree ⟨hl, hphase⟩ hstart =>
      congrArg Host.Outcome.next (startPlain_of_free hfree hl hphase hstart)
  · -- NAND_OP_READ
    exact fun s lun block page l b hfree ⟨hl, hphase⟩ hstart =>
      congrArg Host.Outcome.next (startRead_of_free hfree hl hphase block page hstart)
  · -- NAND_OP_READ_SLC
    exact fun s lun block page l b hfree ⟨hl, hphase⟩ hstart =>
      congrArg Host.Outcome.next (startRead_of_free hfree hl hphase block page hstart)
  · -- NAND_OP_PROGRAM
    exact fun s lun l b g hfree ⟨hl, hphase⟩ hstart hnext =>
      congrArg Host.Outcome.next (startProgram_of_waiting (slc := false) hfree hl hphase hnext hstart)
  · -- NAND_OP_PROGRAM_SLC
    exact fun s lun l b g hfree ⟨hl, hphase⟩ hstart hnext =>
      congrArg Host.Outcome.next (startProgram_of_waiting (slc := true) hfree hl hphase hnext hstart)
  · -- NAND_OP_ERASE
    exact fun s lun block l b hfree ⟨hl, hphase⟩ hblock hstart =>
      congrArg Host.Outcome.next (startErase_of_pending hfree hl hphase hblock hstart)
  · -- NAND_OP_RETRY_SET
    exact fun s lun l b hfree ⟨hl, hphase⟩ hstart _ =>
      congrArg Host.Outcome.next (startRetrySet_of_due hfree hl hphase hstart)
  · -- NAND_OP_RETRY_CLEAR
    exact fun s lun l b hfree ⟨hl, hphase⟩ hstart =>
      congrArg Host.Outcome.next (startRetryClear_of_due hfree hl hphase hstart)

/-! ### Micro-steps (Table 10.6, R306, R307, R310, R313) -/

section
variable {s : State} {lun : Nat} {l : Lun} {o : NandOp} {p : Pers} {w : Nat} (hat : atStep s lun = some (l, o, p, w))
include hat

theorem nandCmd_of_step (hkind : stepKind w = 1) :
    nandCmd s lun = nandAdvance s lun l o [BitVec.ofNat 8 (stepByte w)] := by
  rw [nandCmd, hat]
  exact if_pos hkind

theorem nandAddr_of_full_step (hkind : stepKind w = 2) (harg : stepArg w = 0) :
    nandAddr s lun = nandAdvance s lun l o
      (leBytes (p.adrCyc % 16) 0 ++ leBytes (p.adrCyc / 16) (rowAddr p lun o.block (o.page + o.pages) (stepVal w))) := by
  rw [nandAddr, hat]
  simp only [if_pos hkind, if_pos harg]

theorem nandDin_of_page_step (hkind : stepKind w = 3) (harg : stepArg w = 0) :
    nandDin s lun = nandAdvance s lun l { o with pages := o.pages + 1 } [] := by
  rw [nandDin, hat]
  simp only [if_pos hkind, if_pos harg]

theorem nandDout_of_page_step (ok : List Bool) (bytes : List Byte) (hkind : stepKind w = 4) (harg : stepArg w = 0) :
    nandDout s lun ok bytes = nandAdvance s lun l { o with
      pages := o.pages + 1
      got := mergeGot o.got
        ((List.range 4).map (fun i => extRead s (psaOf p lun o.block (o.page + o.pages) 0 + i) 1)) ok } [] := by
  rw [nandDout, hat]
  simp only [if_pos hkind, if_pos harg]

theorem nandWait_of_step (hkind : stepKind w = 5) :
    nandWait s lun = nandAdvance s lun l { o with waits := o.waits + stepTime w } [] := by
  rw [nandWait, hat]
  exact if_pos hkind

theorem nandFeat_of_fixed_step (hkind : stepKind w = 7) (harg : stepArg w = 0) :
    nandFeat s lun = nandAdvance s lun l o (BitVec.ofNat 8 (stepByte w) :: leBytes 4 (stepTime w)) := by
  rw [nandFeat, hat]
  simp only [if_pos hkind, if_pos harg]

theorem nandEnd_of_step (hkind : stepKind w = 0) :
    nandEnd s lun = opEnds s lun l p o (if stepArg w = 0 then .success else .status) := by
  rw [nandEnd, hat]
  exact if_pos hkind

section
variable (hkind : stepKind w = 6)
include hkind

theorem nandPollTimeout_of_step :
    nandPollTimeout s lun =
      beginOp (opEnds (mediaErr (s.raise R.MEDIA_ISR_OPTO) lun o.block 3) lun l p o .timeout) lun opReset 0 0 none := by
  rw [nandPollTimeout, hat]
  exact if_pos hkind

variable {status : BitVec 8} (harg : stepArg w = 0)
include harg

/-- A status read that is not ready goes out on the bus and the step stays (R310). -/
theorem nandPoll_of_not_ready (hbusy : status.toNat &&& stepByte w ≠ stepVal w) :
    nandPoll s lun status = setLun s lun { l with op := some { o with bus := o.bus ++ [0x70] } } := by
  rw [nandPoll, hat]
  simp only [if_pos hkind, if_pos harg, if_pos hbusy]

/-- A status that is ready and shows no failure ends the step (R310). -/
theorem nandPoll_of_ready (hready : status.toNat &&& stepByte w = stepVal w) (hgood : status.toNat &&& stepFailm w = 0) :
    nandPoll s lun status = nandAdvance s lun l { o with bus := o.bus ++ [0x70] } [] := by
  rw [nandPoll, hat]
  simp only [if_pos hkind, if_pos harg, if_neg (not_not.mpr hready), if_neg (not_not.mpr hgood)]

end

end

/-- Settles O42: each micro-step comes to its own lemma, and one that ends moves on as `nandAdvance` does. -/
theorem nandMicroStepsComplete : Obligations.NandMicroStepsComplete := by
  refine ⟨?_, ?_, ?_, ?_, ?_, ?_, ?_, ?_, ?_, ?_⟩
  · -- NAND_CMD
    exact fun s lun l o p n hat hkind => congrArg Host.Outcome.next (nandCmd_of_step hat hkind)
  · -- NAND_ADDR
    exact fun s lun l o p n hat hkind harg => congrArg Host.Outcome.next (nandAddr_of_full_step hat hkind harg)
  · -- NAND_DIN
    exact fun s lun l o p n hat hkind harg => congrArg Host.Outcome.next (nandDin_of_page_step hat hkind harg)
  · -- NAND_DOUT
    exact fun s lun ok bytes l o p n hat hkind harg =>
      congrArg Host.Outcome.next (nandDout_of_page_step hat ok bytes hkind harg)
  · -- NAND_WAIT
    exact fun s lun l o p n hat hkind => congrArg Host.Outcome.next (nandWait_of_step hat hkind)
  · -- NAND_POLL of a status that is ready
    exact fun s lun status l o p n hat hkind harg hready hgood =>
      congrArg Host.Outcome.next (nandPoll_of_ready hat hkind harg hready hgood)
  · -- NAND_POLL of a status that is not
    exact fun s lun status l o p n hat hkind harg hbusy =>
      congrArg Host.Outcome.next (nandPoll_of_not_ready hat hkind harg hbusy)
  · -- NAND_POLL_TIMEOUT
    exact fun s lun l o p n hat hkind => congrArg Host.Outcome.next (nandPollTimeout_of_step hat hkind)
  · -- NAND_FEAT
    exact fun s lun l o p n hat hkind harg => congrArg Host.Outcome.next (nandFeat_of_fixed_step hat hkind harg)
  · -- NAND_END
    exact fun s lun l o p n hat hkind => congrArg Host.Outcome.next (nandEnd_of_step hat hkind)

/-! ### Writing units (R316 to R319, R333) -/

section
variable {s : State} {nsid unit : Nat}

/-- A due unit that wants no fine table, or finds one free, is written above FLOOR. -/
theorem unitWrite_of_due {s1 : State} (hdue : unitDue s nsid unit = true) (hfloor : s.fld R.FTLA_FLOOR_BLOCKS < atticCount s)
    (hfine : needsFine s nsid unit = false ∨ fineFree s ≠ 0) (hwrite : writeUnit s nsid unit = some s1) :
    unitWrite s nsid unit = gcUpdate { s1 with ftl := { s1.ftl with due := s1.ftl.due.erase (nsid, unit) } } := by
  have hroom : ¬ (needsFine s nsid unit = true ∧ fineFree s = 0) := by
    rintro ⟨hneeds, hnone⟩
    exact hfine.elim (fun h => Bool.false_ne_true (h.symm.trans hneeds)) (fun h => h hnone)
  rw [unitWrite, if_pos ⟨hdue, hfloor⟩, if_neg hroom, hwrite]

/-- A unit that waits too long in the buffers becomes due. -/
theorem unitTimeout_of_waiting (htime : s.fld R.FTLA_UNITTO_TIME ≠ 0) (hwb : wbUnit s nsid unit ≠ [])
    (hnew : s.ftl.due.contains (nsid, unit) = false) :
    unitTimeout s nsid unit = unitWrite { s with ftl := { s.ftl with due := s.ftl.due ++ [(nsid, unit)] } } nsid unit := by
  rw [unitTimeout, if_pos ⟨htime, hwb, by rw [hnew]; rfl⟩]

end

/-- A parcel re-formed into stored-mode blocks (R316). -/
def reformed (r : Rel) (bl : List (List Byte)) : Rel :=
  { r with blocks := bl, ebytes := bl.flatten.length, nblk := bl.length }

/-- The sectors that what decoded of a parcel covers (R316). -/
def reformedSectors (r : Rel) : Nat :=
  if (decodeImage r.blocks).2 then relSectors r else min (relSectors r) ((decodeImage r.blocks).1.length / 4096)

/-- The irregular parcel at the head of what waits is re-formed, and what waits behind it is taken up (R316). -/
theorem irregularReform_of_head {s : State} {rel : Nat} {q : List MapReq} {r : Rel} {bl : List (List Byte)}
    (hqueue : s.ftl.queue = .parcel rel :: q) (hfind : findRel s rel = some r) (hirr : isIrregular r = true)
    (hbl : bl = storedBlocks (decodeImage r.blocks).1 (reformedSectors r)) :
    irregularReform s = runQueue (deallocSectors (putSectors (updRel ((s.addWrap R.MEDIA_IRREG_COUNT 1).addWrap
      R.CODEC_DECNT_COUNT 1) rel (fun _ => reformed r bl)) (reformed r bl) 0 bl (reformedSectors r)) r.nsid
      (r.lsec + reformedSectors r) (r.nsec - reformedSectors r)) q := by
  subst hbl
  rw [irregularReform, hqueue]
  simp only [hfind, if_pos hirr]
  rfl

/-! ### Garbage collection (R330 to R333) -/

/-- The state from which a victim's units are copied: where the victim is its LUN's open block, that is closed. -/
def victimClosed (s : State) (lun block : Nat) : State :=
  match tblGet none s.ftl.openBlk lun with
  | some (o, _) => if o = block then closeOpen s lun else s
  | none => s

/-- A victim taken: its units are copied, and where one finds no room nothing changes. -/
def takeVictim (s : State) (lun block : Nat) : State :=
  match copyUnits (victimClosed s lun block) lun block (unitsIn (victimClosed s lun block) lun block) with
  | none => s
  | some s1 => gcUpdate { s1 with ftl := { s1.ftl with victim := some (blkKey lun block) } }

theorem takeVictim_of_copied {s s1 : State} {lun block : Nat}
    (hcopy : copyUnits (victimClosed s lun block) lun block (unitsIn (victimClosed s lun block) lun block) = some s1) :
    takeVictim s lun block = gcUpdate { s1 with ftl := { s1.ftl with victim := some (blkKey lun block) } } := by
  rw [takeVictim, hcopy]

section
variable {s : State} (hnone : s.ftl.victim = none) (hrel : s.ftl.relocate = []) (hrun : s.flag R.FTLA_STATUS_GCRUN = true)
include hnone hrel hrun

/-- With no block marked for relocation the victim is the block of the highest score. -/
theorem gcVictim_of_best {lun block : Nat} {sc : Int} (hbest : victimOver s (usedLuns s) = some (lun, block, sc)) :
    gcVictim s = takeVictim s lun block := by
  simp only [gcVictim, hnone, hrel, Option.isSome_none, Bool.false_eq_true, if_false, List.find?_nil, if_pos hrun, hbest,
    Option.map_some]
  rfl

/-- Collection forced and no victim to take, an attic below FLOOR makes the device read-only (R333). -/
theorem gcVictim_of_no_victim (hforced : s.flag R.FTLA_STATUS_GCFORCED = true)
    (hbest : victimOver s (usedLuns s) = none) (hattic : atticCount s < s.fld R.FTLA_FLOOR_BLOCKS) :
    gcVictim s = enterReadOnly s := by
  simp only [gcVictim, hnone, hrel, Option.isSome_none, Bool.false_eq_true, if_false, List.find?_nil, if_pos hrun, hbest,
    Option.map_none, if_pos (And.intro hforced hattic)]

end

/-- A victim that holds nothing leaves the map: in STATE 7, or retired where it was marked so. -/
theorem gcCommit_of_empty_victim {s s2 : State} {k : Nat} (hvic : s.ftl.victim = some k) (hjobs : s.ftl.jobs = [])
    (hunits : unitsIn s (k / 2 ^ 19) (k % 2 ^ 19) = [])
    (hs2 : s2 = if s.ftl.relocate.any (fun e => e.1 == k && e.2) then retireBlock s (k / 2 ^ 19) (k % 2 ^ 19)
      else setBlock s (k / 2 ^ 19) (k % 2 ^ 19) bsPending) :
    gcCommit s = gcUpdate (noteFine s { flushPend s2 with ftl := { (flushPend s2).ftl with
      victim := none, relocate := (flushPend s2).ftl.relocate.filter (fun e => e.1 != k) } }) := by
  subst hs2
  simp only [gcCommit, hvic, hjobs, List.filter_nil, List.all_nil, List.foldl_nil, hunits, Bool.and_self, if_true,
    List.isEmpty_nil, Bool.not_true, Bool.false_eq_true, if_false]

theorem gcErase_of_pending {s : State} {lun block : Nat} (ok : Bool) (hfree : lunFree s lun = true)
    (hblock : btState s lun block = bsPending) (hread : readInFlight s lun block = false) :
    gcErase s lun block ok = eraseDone s lun block ok := by
  rw [gcErase, if_pos ⟨hfree, hblock, by rw [hread]; rfl⟩]

/-! ### Scans and cellar replay (R327, R466) -/

/-- A scan of the attic reports the least worn block that it found. -/
theorem scanDone_of_leastWorn {s : State} {lun l b : Nat} {all : Bool} (hscan : s.ftl.scan = some (2, lun, all))
    (hfound : leastWornOver s (scanLuns s lun all) = some (l, b)) :
    scanDone s = (({ (s.clear R.FTLA_STATUS_SCANBUSY) with ftl := { s.ftl with scan := none } }).setFlds
      [(R.FTLA_SRES_BLOCK, b), (R.FTLA_SRES_LUN, l), (R.FTLA_SRES_FOUND, 1)]).raise R.FTLA_ISR_SCANDONE := by
  have hop : ¬ (2 = 1) := by decide
  rw [scanDone, hscan]
  simp only [if_neg hop, hfound, Option.map_some]

section
variable {s : State} (hreplay : s.ftl.replaying = true)
include hreplay

theorem cellarReplayWrite_of_committed (hnone : restoredRels s true = []) : cellarReplayWrite s = eraseCellar s := by
  rw [cellarReplayWrite, if_pos hreplay, if_pos hnone]

theorem cellarReplayWrite_of_restored (hsome : restoredRels s true ≠ []) :
    cellarReplayWrite s = writeRestored s (restoredRels s true).contains := by
  rw [cellarReplayWrite, if_pos hreplay, if_neg hsome]

end

/-- Settles O43: each command comes to its own lemma; a journal commit and a checkpoint always act. -/
theorem translationCommandsComplete : Obligations.TranslationCommandsComplete := by
  refine ⟨?_, ?_, ?_, fun s => rfl, fun s => rfl, ?_, ?_, ?_, ?_, ?_, ?_, ?_⟩
  · -- UNIT_WRITE
    exact fun s nsid unit s1 hdue hfloor hfine hwrite =>
      congrArg Host.Outcome.next (unitWrite_of_due hdue hfloor hfine hwrite)
  · -- UNIT_TIMEOUT
    exact fun s nsid unit htime hwb hnew => congrArg Host.Outcome.next (unitTimeout_of_waiting htime hwb hnew)
  · -- IRREGULAR_REFORM
    intro s rel q r n bl hqueue hfind hirr hn hbl
    have hsectors : n = reformedSectors r := hn
    subst hsectors
    exact congrArg Host.Outcome.next (irregularReform_of_head hqueue hfind hirr hbl)
  · -- GC_VICTIM that takes a victim
    intro s lun block sc s0 s1 hnone hrel hrun hbest hs0 hcopy
    have hclosed : s0 = victimClosed s lun block := hs0
    subst hclosed
    exact congrArg Host.Outcome.next ((gcVictim_of_best hnone hrel hrun hbest).trans (takeVictim_of_copied hcopy))
  · -- GC_VICTIM that finds none
    exact fun s hnone hrel ⟨hrun, hforced⟩ hbest hattic =>
      congrArg Host.Outcome.next (gcVictim_of_no_victim hnone hrel hrun hforced hbest hattic)
  · -- GC_COMMIT
    exact fun s k s2 hvic hjobs hunits hs2 =>
      congrArg Host.Outcome.next (gcCommit_of_empty_victim hvic hjobs hunits hs2)
  · -- GC_ERASE
    exact fun s lun block ok hfree hblock hread => congrArg Host.Outcome.next (gcErase_of_pending ok hfree hblock hread)
  · -- FTLA_SCAN_DONE
    exact fun s lun all l b hscan hfound => congrArg Host.Outcome.next (scanDone_of_leastWorn hscan hfound)
  · -- CELLAR_REPLAY_WRITE with every parcel committed
    exact fun s hreplay hnone => congrArg Host.Outcome.next (cellarReplayWrite_of_committed hreplay hnone)
  · -- CELLAR_REPLAY_WRITE with one left
    exact fun s hreplay hsome => congrArg Host.Outcome.next (cellarReplayWrite_of_restored hreplay hsome)

end Sys2Proof.Machine
end

section
/-! Proofs of the Damdom family: the link's states, flits, timers and messages (R337, R339 to R345), and the frames,
discovery, routes and management requests of the fabric (R348, R349, R351 to R354, R369). -/

namespace Sys2Proof.Machine

/-! ### Flits received (R339, R340) -/

section
variable {s : State} {p : Nat} {fl : List Byte} (hup : lState s p = lsNegotiate ∨ lState s p = lsActive)
include hup

/-- In NEGOTIATE or ACTIVE the link takes flits. -/
theorem not_deaf_of_up : ¬ (lState s p ≠ lsNegotiate ∧ lState s p ≠ lsActive) := by
  rwa [not_and_or, not_not, not_not]

theorem flitReceive_of_bad_crc (hbad : fl.length ≠ 64 ∨ leAt fl 60 4 ≠ crc32c (fl.take 60)) :
    flitReceive s p fl = (s.addWrap (R.DPORT_CRCCNT_COUNT p) 1).raise (R.DPORT_ISR_CRC p) := by
  rw [flitReceive, if_neg (not_deaf_of_up hup)]
  exact if_pos (hbad.elim .inl fun hcrc => .inr (.inl hcrc))

/-- A sound flit of FTYPE 1 to 4 that carries no ACK and the expected SEQ is accepted. -/
theorem flitReceive_of_expected (hgood : fl.length = 64 ∧ leAt fl 60 4 = crc32c (fl.take 60))
    (hft : 1 ≤ bitsOf (leAt fl 0 4) 0 4 ∧ bitsOf (leAt fl 0 4) 0 4 ≤ 4)
    (hplain : bitOf (leAt fl 0 4) 6 = false ∧ bitOf (leAt fl 0 4) 7 = false)
    (hseq : bitsOf (leAt fl 0 4) 8 12 = (portOf s p).rxSeq) :
    flitReceive s p fl = flitAccepted
      (setPort s p { portOf s p with rxSeq := ((portOf s p).rxSeq + 1) % 4096, rxAny := true, missing := false }) p
      (bitsOf (leAt fl 0 4) 0 4) (bitsOf (leAt fl 0 4) 4 2) ((fl.drop 4).take 56) := by
  obtain ⟨hlen, hcrc⟩ := hgood
  obtain ⟨hack, hres⟩ := hplain
  obtain ⟨hlo, hhi⟩ := hft
  have hsound : ¬ (fl.length ≠ 64 ∨ leAt fl 60 4 ≠ crc32c (fl.take 60) ∨ ftLink < bitsOf (leAt fl 0 4) 0 4 ∨
      bitOf (leAt fl 0 4) 7 = true) := by
    rintro (hlen' | hcrc' | hlink | hres')
    · exact hlen' hlen
    · exact hcrc' hcrc
    · exact Nat.not_le_of_lt hlink (Nat.le_succ_of_le hhi)
    · exact absurd hres' (Bool.eq_false_iff.mp hres)
  have hidle : bitsOf (leAt fl 0 4) 0 4 ≠ ftIdle := Nat.ne_of_gt hlo
  have hlink : bitsOf (leAt fl 0 4) 0 4 ≠ ftLink := Nat.ne_of_lt (Nat.lt_succ_of_le hhi)
  rw [flitReceive, if_neg (not_deaf_of_up hup)]
  simp only [if_neg hsound, hack, Bool.false_eq_true, if_false, if_neg hidle, if_neg hlink, if_pos hseq]

end

/-! ### Timers (R341, R342, R344, R345) -/

theorem portEnabled_of_down {s : State} {p : Nat} (hdown : lState s p = lsDown) :
    portEnabled s p = setLState s p lsDetect :=
  if_pos hdown

theorem resend_of_below_limit {s : State} {p : Nat} (fs : List (List Byte))
    (hlim : (portOf s p).resends < s.fld (R.DPORT_RETRY_LIMIT p)) :
    resend s p fs = (linkOut (setPort s p { portOf s p with resends := (portOf s p).resends + 1 }) p
      (fs.map (reAck (portOf s p)))).addWrap (R.DPORT_REPLAYCNT_COUNT p) 1 :=
  if_neg (Nat.not_le_of_lt hlim)

theorem resend_of_limit_reached {s : State} {p : Nat} (fs : List (List Byte))
    (hlim : s.fld (R.DPORT_RETRY_LIMIT p) ≤ (portOf s p).resends) : resend s p fs = retrain s p :=
  if_pos hlim

/-- REPLAY_TIMEOUT of an ACTIVE link that holds flits resends them all. -/
theorem execReplayTimeout_of_held {s : State} {p : Fin 4} (hact : lState s p = lsActive)
    (hheld : (portOf s p).replay ≠ []) :
    execReplayTimeout p s = .next (resend s p ((portOf s p).replay.map Prod.snd)) :=
  congrArg Host.Outcome.next (if_pos ⟨hact, hheld⟩)

theorem helloTimer_of_active {s : State} {p : Nat} (hact : lState s p = lsActive) :
    helloTimer s p = returnCredits (sendLink s p 0 (helloBytes s p true)) p :=
  if_pos hact

/-- In NEGOTIATE, after a HELLO of a common version, the HELLO sent brings ACTIVE. -/
theorem helloTimer_of_agreed {s : State} {p : Nat} (hneg : lState s p = lsNegotiate)
    (hpeer : (portOf s p).peer.isSome = true) (hver : s.fld (R.DPORT_STATUS_VER p) ≠ 0) :
    helloTimer s p = enterActive (setPort (sendLink s p 0 (helloBytes s p true)) p
      { portOf (sendLink s p 0 (helloBytes s p true)) p with said := true }) p := by
  have hready : ((portOf s p).peer.isSome && s.fld (R.DPORT_STATUS_VER p) != 0) = true := by
    rw [hpeer, Bool.true_and, bne_iff_ne]
    exact hver
  have hnact : lState s p ≠ lsActive := by
    rw [hneg]
    decide
  rw [helloTimer, if_neg hnact, if_pos hneg]
  simp only [hready, if_true]

/-! ### LINK messages (R344): each command takes the oldest message of its LCTYPE -/

section
variable {s s1 : State} {p : Fin 4} {m : List Byte}

theorem execHello_of_taken (hm : takeLink s p 0 = some (m, s1)) : execHello p s = .next (helloReceived s1 p m) := by
  rw [execHello, hm]

theorem execNak_of_taken (hm : takeLink s p 1 = some (m, s1)) :
    execNak p s = .next (nakReceived s1 p (leAt m 2 2 % 4096)) := by
  rw [execNak, hm]

theorem execCredit_of_taken (hm : takeLink s p 2 = some (m, s1)) :
    execCredit p s = .next (pumpPort (setPort s1 p { portOf s1 p with
      credit := (List.range 3).map (fun vc => (portOf s1 p).credit.getD vc 0 + leAt m (2 + 2 * vc) 2) }) p) := by
  rw [execCredit, hm]

theorem execDown_of_taken (hm : takeLink s p 5 = some (m, s1)) : execDown p s = .next (leaveLink s1 p lsDown) := by
  rw [execDown, hm]

end

/-- Settles O35: a command whose one condition is its due state takes that branch, and the others come to their own
lemmas. -/
theorem damdomLinkCommandsComplete : Obligations.DamdomLinkCommandsComplete := by
  refine ⟨?_, ?_, ?_, ?_, ?_, ?_, ?_, ?_, ?_, ?_, ?_, ?_, ?_, ?_, ?_, ?_, ?_⟩
  · -- DAMDOM_SIGNAL_DETECT
    exact fun s p hdet => congrArg Host.Outcome.next (if_pos hdet)
  · -- DAMDOM_TRAIN_DONE
    exact fun s p x4 htrain => congrArg Host.Outcome.next (if_pos htrain)
  · -- DAMDOM_STATE_TIMEOUT
    exact fun s p hlate => congrArg Host.Outcome.next
      (if_pos (hlate.imp_right fun ⟨hneg, hver⟩ => ⟨hneg, Bool.eq_false_iff.mp hver⟩))
  · -- DAMDOM_RETRY_WAIT
    exact fun s p hen hdown => congrArg Host.Outcome.next ((if_pos hen).trans (portEnabled_of_down hdown))
  · -- FLIT_RECEIVE of a wrong CRC
    exact fun s p fl hup hbad => congrArg Host.Outcome.next (flitReceive_of_bad_crc hup hbad)
  · -- FLIT_RECEIVE of the expected SEQ
    rintro s p fl ft hup hgood rfl hft hplain hseq
    exact congrArg Host.Outcome.next (flitReceive_of_expected hup hgood hft hplain hseq)
  · -- NAK_REPEAT
    exact fun s p hmissing => congrArg Host.Outcome.next (if_pos hmissing)
  · -- ACK_TIMER
    exact fun s p hact => congrArg Host.Outcome.next (if_pos hact)
  · -- REPLAY_TIMEOUT below LIMIT
    exact fun s p hact hheld hlim =>
      (execReplayTimeout_of_held hact hheld).trans (congrArg Host.Outcome.next (resend_of_below_limit _ hlim))
  · -- REPLAY_TIMEOUT at LIMIT
    exact fun s p hact hheld hlim =>
      (execReplayTimeout_of_held hact hheld).trans (congrArg Host.Outcome.next (resend_of_limit_reached _ hlim))
  · -- HELLO
    exact fun s p m s1 hm => execHello_of_taken hm
  · -- HELLO_TIMER in ACTIVE
    exact fun s p hact => congrArg Host.Outcome.next (helloTimer_of_active hact)
  · -- HELLO_TIMER in NEGOTIATE
    rintro s p s1 hneg hpeer hver rfl
    exact congrArg Host.Outcome.next (helloTimer_of_agreed hneg hpeer hver)
  · -- HELLO_TIMEOUT
    exact fun s p hact => congrArg Host.Outcome.next (if_pos hact)
  · -- NAK
    exact fun s p m s1 hm => execNak_of_taken hm
  · -- CREDIT
    exact fun s p m s1 hm => execCredit_of_taken hm
  · -- DOWN
    exact fun s p m s1 hm => execDown_of_taken hm

/-! ### Frames taken and passed on (R348, R349, R351, R353) -/

/-- A frame that is taken is acted on in the state without it. -/
theorem onFrame_of_frameTaken {s s1 : State} {p : Nat} {ok : Frame → Bool} {f : Frame} (act : State → Frame → State)
    (ht : frameTaken s p ok = some (f, s1)) : onFrame s p ok act = act s1 f := by
  unfold frameTaken at ht
  split at ht
  · cases ht
  next vc g hhead =>
    split at ht
    · cases ht
    next hon =>
      cases ht
      simp only [onFrame, hhead, if_neg hon]

/-- A frame for another node that an assigned node has a route for, out of another port than it came by. -/
theorem frameForward_of_routed {s : State} {p vc q : Nat} {f : Frame} (hhead : headFrame s p vc = some f)
    (hother : forUs s f = false) (hfence : isFenced s = false) (hdst : f.dst ≠ dstDirected)
    (hassigned : isAssigned s = true) (httl : 1 < f.ttl) (hroute : routeOf s f.dst = some q) (hq : q ≠ p) :
    frameForward s p vc = passOn (popFrame s p vc) p vc q { f with ttl := f.ttl - 1 } := by
  simp only [frameForward, hhead, hother, hfence, hassigned, hroute, Bool.false_eq_true, if_false, false_and,
    if_neg hdst, not_true_eq_false, if_neg (Nat.not_le_of_lt httl), if_neg hq]

theorem execFrameKindUndefined_of_head {s : State} {p : Fin 4} {vc : Nat} {f : Frame}
    (hhead : headVc s p (fun f => !kindDefined f.kind && forUs s f) = some (vc, f)) :
    execFrameKindUndefined p s = .next (frameErr (popFrame s p vc) p) := by
  rw [execFrameKindUndefined, hhead]

/-! ### Discovery and routes (R351 to R354) -/

/-- The answer of a node already recorded, the last awaited and of no lower manager, ends the discovery. -/
theorem probeReply_of_last_known {s : State} {p : Nat} {f : Frame} {d : Disc} (hdisc : s.fab.disc = some d)
    (hmgr : (recMgr f.data && recSeg f.data == mySegment s && decide (recUid f.data < s.fuses.uid)) = false)
    (hknown : d.nodes.any (fun n => recUid n.2 == recUid f.data) = true)
    (hwait : d.wait.erase (reversePath f p) = []) : probeReply s p f = discFinish s d.nodes := by
  simp only [probeReply, hdisc, hmgr, hknown, probePath, hwait, Bool.false_eq_true, if_false, if_true, and_self]

theorem routesReceived_of_assign {s : State} {addr : Nat} (f : Frame) (haddr : s.fab.assign = some addr) :
    routesReceived s f = enterAssigned (loadRoutes s f.data) addr := by
  simp only [routesReceived, haddr]

/-- A manager with peers at its ports probes them all. -/
theorem discStart_of_peers {s : State} (hmgr : isManager s = true) (hon : blockOn s .fab = true)
    (hpeers : probesFrom s [([], nodeRecord s)] [] (nodeRecord s) ≠ []) :
    discStart s = (probesFrom s [([], nodeRecord s)] [] (nodeRecord s)).foldl probeOne { s with fab := { s.fab with
      disc := some ⟨[([], nodeRecord s)], probesFrom s [([], nodeRecord s)] [] (nodeRecord s)⟩ } } := by
  have hruns : ¬ (¬ isManager s = true ∨ ¬ blockOn s .fab = true) := by
    rw [hmgr, hon]
    decide
  rw [discStart, if_neg hruns]
  exact if_neg hpeers

/-! ### Management requests (R369) -/

/-- A LOG request at an offset that is no multiple of 4 is a bad argument. -/
theorem mreqLog_of_misaligned {s : State} {f : Frame} (p : Nat) (hoff : bitsOf f.arg1 8 32 % 4 ≠ 0) :
    mreqLog s p f = mresp s p f 3 [] :=
  if_pos (.inr (.inl hoff))

/-- A LOG request within one of its pages is answered by the page's bytes. -/
theorem mreqLog_of_page {s : State} {f : Frame} (p : Nat)
    (hpage : bitsOf f.arg1 0 8 = 0xC0 ∨ bitsOf f.arg1 0 8 = 0xC2 ∨ bitsOf f.arg1 0 8 = 0xC3 ∨ bitsOf f.arg1 0 8 = 0xC4)
    (hoff : bitsOf f.arg1 8 32 % 4 = 0)
    (hlen : bitsOf f.arg1 8 32 < (pageLen s (bitsOf f.arg1 0 8)).getD 0) :
    mreqLog s p f = mresp (fillPage s (vendorPage s (bitsOf f.arg1 0 8) (bitsOf f.arg1 8 32) 4096)).2 p f 0
      (fillPage s (vendorPage s (bitsOf f.arg1 0 8) (bitsOf f.arg1 8 32) 4096)).1 := by
  refine if_neg ?_
  rintro (hother | hmis | hbeyond)
  · exact hother hpage
  · exact hmis hoff
  · exact Nat.not_le_of_lt hlen hbeyond

/-- Settles O36: a frame taken is acted on at once, and each action comes to its own lemma. -/
theorem fabricFrameCommandsComplete : Obligations.FabricFrameCommandsComplete := by
  refine ⟨?_, ?_, ?_, ?_, ?_, ?_, ?_, ?_, ?_, ?_, ?_, ?_, ?_, ?_, ?_, ?_⟩
  · -- FRAME_FORWARD
    exact fun s p vc f q hhead hother hfence hdst hassigned httl hroute hq _ =>
      congrArg Host.Outcome.next (frameForward_of_routed hhead hother hfence hdst hassigned httl hroute hq)
  · -- FRAME_KIND_UNDEFINED
    exact fun s p vc f hhead => execFrameKindUndefined_of_head hhead
  · -- PROBE
    exact fun s p f s1 ht => congrArg Host.Outcome.next (onFrame_of_frameTaken _ ht)
  · -- PROBE_REPLY
    exact fun s p f s1 d ht hdisc hmgr hknown hwait => congrArg Host.Outcome.next
      ((onFrame_of_frameTaken _ ht).trans (probeReply_of_last_known hdisc hmgr hknown hwait))
  · -- ASSIGN
    exact fun s p f s1 ht => congrArg Host.Outcome.next (onFrame_of_frameTaken _ ht)
  · -- ROUTES
    exact fun s p f s1 addr ht haddr =>
      congrArg Host.Outcome.next ((onFrame_of_frameTaken _ ht).trans (routesReceived_of_assign f haddr))
  · -- EVENT
    exact fun s p f s1 ht => congrArg Host.Outcome.next (onFrame_of_frameTaken _ ht)
  · -- SEGMENT_DISCOVERY
    exact fun s hmgr hon hpeers => congrArg Host.Outcome.next (discStart_of_peers hmgr hon hpeers)
  · -- MRESP
    exact fun s p f s1 ht => congrArg Host.Outcome.next (onFrame_of_frameTaken _ ht)
  · -- MREQ_IDENT
    exact fun s p f s1 ht => congrArg Host.Outcome.next (onFrame_of_frameTaken _ ht)
  · -- MREQ_LOG at a misaligned offset
    exact fun s p f s1 ht hoff =>
      congrArg Host.Outcome.next ((onFrame_of_frameTaken _ ht).trans (mreqLog_of_misaligned p hoff))
  · -- MREQ_LOG within a page
    rintro s p f s1 r ht hpage hoff hlen rfl
    exact congrArg Host.Outcome.next ((onFrame_of_frameTaken _ ht).trans (mreqLog_of_page p hpage hoff hlen))
  · -- MREQ_FLOWQ
    exact fun s p f s1 ht hflow =>
      congrArg Host.Outcome.next ((onFrame_of_frameTaken _ ht).trans (if_neg (Nat.not_le_of_lt hflow)))
  · -- MREQ_TIMEQ
    exact fun s p dt f s1 ht => congrArg Host.Outcome.next (onFrame_of_frameTaken _ ht)
  · -- MREQ_HWLIST
    exact fun s p f s1 ht => congrArg Host.Outcome.next (onFrame_of_frameTaken _ ht)
  · -- MREQ_UNDEFINED
    exact fun s p f s1 ht => congrArg Host.Outcome.next (onFrame_of_frameTaken _ ht)

end Sys2Proof.Machine
end

section
/-! Proofs of the DRAM controller's family: requests and panic (R380, R381), refreshes (R382, R383), retraining pauses (R384,
R385), the patrol scrubber and segments zeroed after self-refresh (R376, R377, R389). -/

namespace Sys2Proof.Machine

/-! ### Requests (R380) -/

/-- A channel that serves and does not pause serves the request chosen after the arrivals are queued. -/
theorem requestServe_of_chosen {s : State} {c now fill0 fill1 : Nat} {arrivals : List DramReq} {q : DramReq}
    (hserves : dchServes s c = true)
    (hpause : (dch (queueReqs (panicUpdate s fill0 fill1) c arrivals) c).pausing = false)
    (hnext : nextReq (queueReqs (panicUpdate s fill0 fill1) c arrivals) c now = some q) :
    requestServe s c now fill0 fill1 arrivals = serveReq (queueReqs (panicUpdate s fill0 fill1) c arrivals) c q := by
  rw [requestServe, if_pos hserves]
  simp only [hpause, hnext, Bool.false_eq_true, if_false]

/-! ### Refreshes (R382, R383) -/

section
variable {s : State} {c b : Nat} (hserves : dchServes s c = true) (hpause : (dch s c).pausing = false)
include hserves hpause

theorem serves_unpaused : dchServes s c = true ∧ ¬ (dch s c).pausing = true :=
  ⟨hserves, Bool.eq_false_iff.mp hpause⟩

/-- Outside a pause, what becomes of a refresh that is due turns on the panic requests of its bank. -/
theorem refreshDue_of_unpaused : refreshDue s c b = if panicOnBank s c b = true ∧ ¬ flushing s = true then
    if 8 ≤ tblGet 0 (dch s c).owed b then (refreshBank s c b).raise R.DRAM_ISR_RFORCE
    else owe s c b (tblGet 0 (dch s c).owed b + 1)
    else refreshBank s c b := by
  rw [refreshDue, if_pos hserves]
  exact if_neg (Bool.eq_false_iff.mp hpause)

theorem refreshDue_of_no_panic (hcalm : panicOnBank s c b = false) : refreshDue s c b = refreshBank s c b :=
  (refreshDue_of_unpaused hserves hpause).trans (if_neg fun h => Bool.eq_false_iff.mp hcalm h.1)

theorem refreshDue_of_panic (hpanic : panicOnBank s c b = true) (hflush : flushing s = false)
    (howed : tblGet 0 (dch s c).owed b < 8) : refreshDue s c b = owe s c b (tblGet 0 (dch s c).owed b + 1) := by
  rw [refreshDue_of_unpaused hserves hpause, if_pos ⟨hpanic, Bool.eq_false_iff.mp hflush⟩]
  exact if_neg (Nat.not_le_of_lt howed)

theorem owedIssue_of_next (hnext : ((List.range 16).map (fun i => ((dch s c).lastBank + 1 + i) % 16)).find? (fun b =>
      tblGet 0 (dch s c).owed b != 0 && (!panicOnBank s c b || flushing s)) = some b) :
    owedIssue s c = owe (refreshBank s c b) c b (tblGet 0 (dch s c).owed b - 1) := by
  rw [owedIssue, if_pos (serves_unpaused hserves hpause)]
  simp only [hnext]

/-! ### Retraining pauses (R384, R385) -/

theorem pauseDue_of_unpaused : pauseDue s c = if panicRaised s = true ∧ s.fld R.DRAM_TDEFER_TIME ≠ 0 then
      (setDch s c { dch s c with due := true }).raise (R.DCH_STATUS_TDUE c)
    else setDch s c { dch s c with due := true } :=
  if_pos (serves_unpaused hserves hpause)

end

section
variable {s : State} {c : Nat}

/-- Outside panic a due pause starts where no bank owes more than four refreshes. -/
theorem pauseStart_of_calm (hdue : (dch s c).due = true) (hserves : dchServes s c = true) (hflush : flushing s = false)
    (hcalm : panicRaised s = false) (howed : (dch s c).owed.all (fun e => decide (e.2 ≤ 4)) = true) :
    pauseStart s c = setDch s c { dch s c with due := false, pausing := true } :=
  if_pos ⟨hdue, hserves, Bool.eq_false_iff.mp hflush, .inl (Bool.eq_false_iff.mp hcalm), howed⟩

theorem pauseEnd_of_passed (drift : Nat) (hpause : (dch s c).pausing = true) :
    pauseEnd s c drift true = ((setDch s c { dch s c with pausing := false, forced := false, fails := 0 }).setFlds
      [(R.DCH_TRAIN_PERIOD c, nextPeriod s c drift), (R.DCH_TRAIN_DRIFT c, min 255 drift),
        (R.DCH_STATUS_TDUE c, 0)]).addWrap (R.DCH_TRAIN_COUNT c) 1 :=
  if_pos hpause

/-- A failed pause short of the third in a row is reported and goes on. -/
theorem pauseEnd_of_failed (drift : Nat) (hpause : (dch s c).pausing = true) (hfails : (dch s c).fails < 2) :
    pauseEnd s c drift false =
      (setDch s c { dch s c with fails := (dch s c).fails + 1 }).raise R.DRAM_ISR_TRFAIL :=
  (if_pos hpause).trans (if_neg (Nat.not_le_of_lt hfails))

end

/-! ### Marks of DRAM lines (R376) -/

/-- Removing a key below every listed one changes nothing. -/
theorem tblErase_of_above {α : Type} [DecidableEq α] {d : α} {n : Nat} {t : List (Nat × α)} (h : tblAbove d n t = true) :
    tblErase t n = t := by
  induction t with
  | nil => rfl
  | cons e r ih =>
    obtain ⟨k, v⟩ := e
    simp only [tblAbove, Bool.and_eq_true, decide_eq_true_eq] at h
    obtain ⟨⟨hlt, -⟩, habove⟩ := h
    rw [tblErase, if_neg (Nat.ne_of_lt hlt), ih (tblAbove_mono habove (Nat.le_of_lt hlt))]

/-- Listing a key and removing it removes it. -/
theorem tblErase_tblPut_same {α : Type} [DecidableEq α] {d : α} {t : List (Nat × α)} (n : Nat) (x : α)
    (h : tblWf d t = true) : tblErase (tblPut t n x) n = tblErase t n := by
  induction t with
  | nil => simp [tblPut, tblErase]
  | cons e r ih =>
    obtain ⟨k, v⟩ := e
    simp only [tblWf, Bool.and_eq_true, decide_eq_true_eq] at h
    obtain ⟨-, habove⟩ := h
    unfold tblPut
    split
    · next hlt =>
      have hrest : tblErase r n = r := tblErase_of_above (tblAbove_mono habove (Nat.le_of_lt hlt))
      simp [tblErase, Nat.ne_of_lt hlt, hrest]
    · split
      · next hk => simp [tblErase, hk]
      · next hk => simp [tblErase, hk, ih (tblWf_of_above habove)]

/-- A key written and then taken out of the table is out of it. -/
theorem tblSet_tblSet_default {α : Type} [DecidableEq α] {d : α} {t : List (Nat × α)} {n : Nat} {x : α}
    (h : tblWf d t = true) (hx : x ≠ d) : tblSet d (tblSet d t n x) n d = tblSet d t n d := by
  simp only [tblSet, if_neg hx, if_true]
  exact tblErase_tblPut_same n x h

theorem dramMark_setDramMark_same {s : State} (a v : Nat) (hwf : tblWf 0 s.dramBad = true) :
    dramMark (setDramMark s a v) a = v :=
  tblGet_tblSet_same (a / 64) v hwf

@[simp] theorem setDramMark_dram (s : State) (a v : Nat) : (setDramMark s a v).dram = s.dram := (rfl)

@[simp] theorem countDram_dramBad (s : State) (a kind : Nat) : (countDram s a kind).dramBad = s.dramBad := by
  unfold countDram
  split <;> simp

@[simp] theorem countDram_dram (s : State) (a kind : Nat) : (countDram s a kind).dram = s.dram := by
  rw [((OnlyErrors.refl s).countDram a kind).rest]

/-! ### The patrol scrubber (R377) -/

/-- The line that the scrubber reads after the present one; after the last line the pass starts again. -/
def scrubNext (s : State) : Nat := if dramEnd s ≤ s.dram.scrubAt * 64 + 64 then 0 else s.dram.scrubAt + 1

section
variable {s : State} (hon : blockOn s .dram = true) (hen : s.flag R.DRAM_SCRUB_EN = true) (hflush : flushing s = false)
  (hwf : tblWf 0 s.dramBad = true)
include hon hen hflush hwf

/-- A line without an error is left as it is. -/
theorem scrubLine_of_clean (hmark : dramMark s (s.dram.scrubAt * 64) = 0) : scrubLine s 0 false =
    { setDramMark s (s.dram.scrubAt * 64) 0 with dram := { s.dram with scrubAt := scrubNext s } } := by
  rw [scrubLine, if_pos ⟨hon, hen, Bool.eq_false_iff.mp hflush⟩]
  simp only [hmark, Nat.max_self, dramMark_setDramMark_same _ _ hwf]
  rfl

/-- A correctable line is counted and rewritten. -/
theorem scrubLine_of_correctable (hmark : dramMark s (s.dram.scrubAt * 64) = 1) : scrubLine s 0 false =
    { setDramMark (countDram (setDramMark s (s.dram.scrubAt * 64) 1) (s.dram.scrubAt * 64) 0) (s.dram.scrubAt * 64) 0 with
      dram := { s.dram with scrubAt := scrubNext s } } := by
  rw [scrubLine, if_pos ⟨hon, hen, Bool.eq_false_iff.mp hflush⟩]
  simp only [hmark, Nat.zero_max, dramMark_setDramMark_same _ _ hwf]
  simp [scrubNext]

/-- A line without an uncorrectable error carries no mark afterwards, and the pass goes on. -/
theorem scrubLine_of_usable (hmark : dramMark s (s.dram.scrubAt * 64) ≤ 1) :
    (scrubLine s 0 false).dram = { s.dram with scrubAt := scrubNext s } ∧ (scrubLine s 0 false).mem = s.mem ∧
      (scrubLine s 0 false).dramBad = tblSet 0 s.dramBad s.dram.scrubAt 0 ∧
      (dramMark s (s.dram.scrubAt * 64) = 0 → (scrubLine s 0 false).regs = s.regs) := by
  have hline : s.dram.scrubAt * 64 / 64 = s.dram.scrubAt := Nat.mul_div_cancel _ (by decide)
  rcases Nat.le_one_iff_eq_zero_or_eq_one.mp hmark with hclean | hcorr
  · rw [scrubLine_of_clean hon hen hflush hwf hclean]
    exact ⟨rfl, rfl, congrArg (tblSet 0 s.dramBad · 0) hline, fun _ => rfl⟩
  · rw [scrubLine_of_correctable hon hen hflush hwf hcorr]
    refine ⟨rfl, by simp, ?_, fun h => ?_⟩
    · simp only [setDramMark, countDram_dramBad, hline]
      exact tblSet_tblSet_default hwf Nat.one_ne_zero
    · rw [h] at hcorr
      cases hcorr

end

/-- Settles O29: each command due takes the branch of its hypotheses; the scrubber's line is clean or correctable. -/
theorem dramCommandsComplete : Obligations.DramCommandsComplete := by
  refine ⟨?_, ?_, ?_, ?_, ?_, ?_, ?_, ?_, ?_, ?_, ?_, ?_⟩
  · -- DRAM_REQUEST_SERVE
    exact fun s c now fill0 fill1 arrivals q hserves hpause hnext =>
      congrArg Host.Outcome.next (requestServe_of_chosen hserves hpause hnext)
  · -- REFRESH_DUE of a bank without panic requests
    exact fun s c bank hserves hpause hcalm => congrArg Host.Outcome.next (refreshDue_of_no_panic hserves hpause hcalm)
  · -- REFRESH_DUE under a panic request
    exact fun s c bank hserves hpause hpanic hflush howed =>
      congrArg Host.Outcome.next (refreshDue_of_panic hserves hpause hpanic hflush howed)
  · -- OWED_REFRESH_ISSUE
    exact fun s c b hserves hpause hnext => congrArg Host.Outcome.next (owedIssue_of_next hserves hpause hnext)
  · -- MR4_POLL
    exact fun s c rate hserves => congrArg Host.Outcome.next (if_pos hserves)
  · -- RETRAIN_PAUSE_DUE
    exact fun s c hserves hpause => congrArg Host.Outcome.next (pauseDue_of_unpaused hserves hpause)
  · -- RETRAIN_DEFER_EXPIRY
    exact fun s c hdue htdue hforced =>
      congrArg Host.Outcome.next (if_pos ⟨hdue, htdue, Bool.eq_false_iff.mp hforced⟩)
  · -- RETRAIN_PAUSE_START
    exact fun s c hdue hserves hflush hcalm howed =>
      congrArg Host.Outcome.next (pauseStart_of_calm hdue hserves hflush hcalm howed)
  · -- RETRAIN_PAUSE_END of a pause that succeeds
    exact fun s c drift hpause => congrArg Host.Outcome.next (pauseEnd_of_passed drift hpause)
  · -- RETRAIN_PAUSE_END of a first or second failure
    exact fun s c drift hpause hfails => congrArg Host.Outcome.next (pauseEnd_of_failed drift hpause hfails)
  · -- DRAM_SCRUB_LINE
    rintro s n hon hen hflush rfl hn hwf
    exact ⟨_, rfl, scrubLine_of_usable hon hen hflush hwf hn⟩
  · -- DRAM_SEGMENT_INIT_DONE
    exact fun s hzero => congrArg Host.Outcome.next (if_pos hzero)

end Sys2Proof.Machine
end

section
/-! Proofs of the steps as such: the step at the front of the queue, the next state of every command, and the lifecycle over a
step (R426, R427). -/

namespace Sys2Proof.Machine

/-- Settles O1. -/
theorem stepRunsTheFrontCommand : Obligations.StepRunsTheFrontCommand := by
  intro s c rest hfront
  rw [step, hfront]
  rfl

/-- Settles O2. -/
theorem emptyQueueIdles : Obligations.EmptyQueueIdles := by
  intro s hempty
  rw [step, hempty]

/-- What keeps a state is a next state that does. -/
theorem exists_next_of_kRes {s : State} {r : Result} (h : KRes s r) : ∃ t, r = .next t ∧ Keeps s t := by
  cases r with
  | next t => exact ⟨t, rfl, h⟩
  | fault f => exact h.elim
  | refused f => exact h.elim

/-- Settles O3: every command answers a next state that keeps, beside much else, the queue. -/
theorem everyCommandHasANextState : Obligations.EveryCommandHasANextState := by
  intro c s
  obtain ⟨t, hnext, hkeeps⟩ := exists_next_of_kRes (exec_keeps c s)
  exact ⟨t, hnext, hkeeps.pending⟩

/-- Settles O5: a step idles, or it runs one command on the popped state, whose fuses and burn are those of the state
before, and every command keeps the lifecycle. -/
theorem lifecycleNeverGoesBack : Obligations.LifecycleNeverGoesBack := by
  intro s t hlife hstep
  obtain rfl | ⟨c, rest, -, hk⟩ := step_next_cases hstep
  · exact ⟨hlife, Nat.le_refl _, Nat.le_refl _, rfl⟩
  · exact ⟨hk.life hlife, hk.up hlife, hk.back, hk.uid⟩

/-- The blank fuses stand at the first state of the lifecycle, and no burn is in progress. -/
theorem lifecycleInv_reset : LifecycleInv State.reset := ⟨Nat.zero_le 3, nofun⟩

/-- Settles O6. -/
theorem resetMeetsTheInvariants : Obligations.ResetMeetsTheInvariants :=
  ⟨reset_mem_wf, reset_regs_wf, rfl, lifecycleInv_reset, rfl⟩

end Sys2Proof.Machine
end

section
/-! Proofs of the DMA family: the channels' ownership and states, their queues and events (R390, R391, R394 to R397, R400,
R402, R403), and the instructions and descriptors (R398, R399, R401, R405). -/

namespace Sys2Proof.Machine

/-! ### Fields of different registers -/

/-- Writing a field leaves the fields of the other registers. -/
theorem fld_setFld_of_off_ne (s : State) {f g : Fld} (v : Nat) (hf : f.lo < 32) (hg : g.lo < 32) (hoff : g.off ≠ f.off) :
    (s.setFld f v).fld g = s.fld g := fld_setFld_ne s v (by unfold Fld.key; omega)

/-! ### A channel listed twice -/

theorem tblPut_tblPut_same {α : Type} (t : List (Nat × α)) (n : Nat) (x y : α) : tblPut (tblPut t n x) n y = tblPut t n y := by
  induction t with
  | nil => simp [tblPut]
  | cons e r ih =>
    obtain ⟨k, v⟩ := e
    rcases Nat.lt_trichotomy n k with hlt | heq | hgt
    · simp [tblPut, hlt]
    · simp [tblPut, heq]
    · simp [tblPut, Nat.not_lt_of_gt hgt, Nat.ne_of_gt hgt, ih]

theorem dmaOf_setDma_of_ne_reset (s : State) (ch : Nat) {x : DmaCh} (hx : x ≠ DmaCh.reset) : dmaOf (setDma s ch x) ch = x := by
  simp only [dmaOf, setDma, tblSet, if_neg hx]
  exact tblGet_tblPut_same _ _ _ _

theorem setDma_setDma_of_ne_reset (s : State) (ch : Nat) {x y : DmaCh} (hx : x ≠ DmaCh.reset) (hy : y ≠ DmaCh.reset) :
    setDma (setDma s ch x) ch y = setDma s ch y := by
  simp only [setDma, tblSet, if_neg hx, if_neg hy, tblPut_tblPut_same]

/-! ### Claim, release and go (R390, R391, R394) -/

section
variable {s : State} {ch : Nat} {who : Who}

theorem dmaClaim_of_free (hwho : who.1 < 4) (hdesc : who.1 = 3 → ch < 56) (hfree : s.fld (R.DMA_CH_OWN_KIND ch) = 0) :
    dmaClaim s ch who = s.setFlds [(R.DMA_CH_OWN_KIND ch, who.1), (R.DMA_CH_OWN_ID ch, who.2)] := by
  refine if_neg ?_
  simp only [hfree, dmaIsDesc, decide_eq_true_eq]
  omega

/-- A channel named in TILE_DMA keeps its owner. -/
theorem fld_ownKind_dmaName (v : DmaVia) :
    (dmaName s v ch).fld (R.DMA_CH_OWN_KIND ch) = s.fld (R.DMA_CH_OWN_KIND ch) := by
  cases v with
  | reg rq => rfl
  | tile t =>
    simp only [dmaName]
    split
    · next hch =>
      refine fld_setFld_of_off_ne s _ (by decide : 0 < 32) (by decide : 0 < 32) ?_
      show 0xd1008 + 0x40 * ch ≠ 0x400140 + 0x10000 * t.val
      omega
    · rfl

theorem dmaRelease_of_owner (howns : dmaOwns s ch who = true) (hstate : dmaState s ch = dmaIdle ∨ dmaState s ch = dmaError) :
    dmaRelease s ch who = s.setFlds [(R.DMA_CH_OWN_KIND ch, 0), (R.DMA_CH_OWN_ID ch, 0)] := by
  have howner : dmaOwner s ch = who := by simp_all [dmaOwns]
  exact if_pos ⟨howner, hstate⟩

theorem dmaGo_of_aligned (howns : dmaOwns s ch who = true) (hon : blockOn s .dma = true)
    (hstate : dmaState s ch = dmaIdle ∨ dmaState s ch = dmaError) (hprog : dmaProg s ch % 64 = 0)
    (hpause : s.flag (R.DMA_CH_CTRL_PAUSE ch) = false) :
    dmaGo s ch who = setDmaState ((setDmaPc (setDma s ch DmaCh.reset) ch (dmaProg s ch)).setFlds
      [(R.DMA_CH_ITER_ITER ch, 0), (R.DMA_CH_DONE_DONE ch, 0), (R.DMA_CH_TOTAL_TOTAL ch, 0)]) ch dmaRunning := by
  have haligned : dmaProg s ch % (if dmaIsDesc ch then 64 else 32) = 0 := by split <;> omega
  simp [dmaGo, howns, hon, hstate, haligned, hpause]

/-! ### Pause, unpause, abort and kick (R395, R396, R402) -/

theorem dmaStartPause_of_running (hrun : dmaState s ch = dmaRunning) :
    dmaStartPause s ch = setDmaState (setDma s ch { dmaOf s ch with inWait := false }) ch dmaPausing := by
  rw [dmaStartPause, if_pos (.inl hrun), hrun]
  rfl

/-- CSTATE stands in another register than PAUSE. -/
theorem dmaState_setFld_pause (v : Nat) : dmaState (s.setFld (R.DMA_CH_CTRL_PAUSE ch) v) ch = dmaState s ch :=
  fld_setFld_of_off_ne s v (by decide : 1 < 32) (by decide : 0 < 32)
    (show 0xd1004 + 0x40 * ch ≠ 0xd1000 + 0x40 * ch by omega)

theorem dmaPause_of_running (hrun : dmaState s ch = dmaRunning) :
    dmaPause s ch = setDmaState (setDma (s.setFld (R.DMA_CH_CTRL_PAUSE ch) 1) ch { dmaOf s ch with inWait := false }) ch
      dmaPausing :=
  dmaStartPause_of_running ((dmaState_setFld_pause 1).trans hrun)

theorem dmaDrained_of_pause (hstate : dmaState s ch = dmaPausing) (habort : (dmaOf s ch).abort = false)
    (hpause : s.flag (R.DMA_CH_CTRL_PAUSE ch) = true) : dmaDrained s ch = setDmaState s ch dmaPaused := by
  simp [dmaDrained, hstate, habort, hpause]

theorem dmaUnpause_of_paused (hstate : dmaState s ch = dmaPaused) (hon : blockOn s .dma = true) :
    dmaUnpause s ch = dmaResume (s.setFld (R.DMA_CH_CTRL_PAUSE ch) 0) ch := by
  rw [dmaUnpause, if_pos hstate, if_pos hon]

theorem dmaAbort_of_paused (hstate : dmaState s ch = dmaPaused) : dmaAbort s ch = dmaEndAborted s ch := if_pos hstate

/-- The abort of a running channel is noted, and the channel drains. -/
theorem dmaAbort_of_running (hrun : dmaState s ch = dmaRunning) :
    dmaAbort s ch =
      setDmaState (setDma s ch { dmaOf s ch with abort := true, inWait := false }) ch dmaPausing := by
  have hne : ∀ x : DmaCh, x.abort = true → x ≠ DmaCh.reset := fun x hx h => by
    rw [h] at hx
    cases hx
  rw [dmaAbort, if_neg (by rw [hrun]; decide), if_pos (.inl hrun)]
  refine (dmaStartPause_of_running (s := setDma s ch { dmaOf s ch with abort := true }) hrun).trans ?_
  rw [dmaOf_setDma_of_ne_reset s ch (hne _ rfl), setDma_setDma_of_ne_reset s ch (hne _ rfl) (hne _ rfl)]

theorem dmaKick_of_waiting (hdesc : 56 ≤ ch) (hwait : dmaState s ch = dmaWaiting) : dmaKick s ch = setDmaState s ch dmaRunning :=
  if_pos ⟨decide_eq_true hdesc, hwait⟩

/-! ### Events and queue heads (R399, R400, R403) -/

/-- The one channel that waits on a set event goes on after its WAIT, and its CLR clears the event. -/
theorem dmaWake_of_one_waiter {e : Nat} {clr : Bool} (hset : dmaEvent s e = true) (hone : dmaWaiters s e = [ch])
    (hclr : (dmaOf s ch).wait.map (fun x => x.2.1) = some clr) :
    dmaWake s e = if clr then
      dmaClearEvent (setDmaState (setDmaPc (setDma s ch { dmaOf s ch with wait := none }) ch (dmaPc s ch + 32)) ch 1) e
      else setDmaState (setDmaPc (setDma s ch { dmaOf s ch with wait := none }) ch (dmaPc s ch + 32)) ch 1 := by
  obtain ⟨w, hw, rfl⟩ := Option.map_eq_some_iff.mp hclr
  simp [dmaWake, hset, hone, hw, dmaRunning]

theorem execDmaWaitTimeout_of_waiting {ch : Fin 64} {x : Nat × Bool × Nat} (hwait : (dmaOf s ch.val).wait = some x)
    (hstate : dmaState s ch.val = dmaWaiting) (htime : x.2.2 ≠ 0) :
    execDmaWaitTimeout ch s = .next (dmaFail s ch.val dmaWaitTo none) := by
  simp [execDmaWaitTimeout, hwait, hstate, htime]

/-- HEAD of a queue names no channel's queue. -/
theorem dmaOldest_setFld_head (q v : Nat) : dmaOldest (s.setFld (R.DMA_CQ_HEAD_HEAD q) v) q = dmaOldest s q := by
  have hcq : ∀ n, (s.setFld (R.DMA_CQ_HEAD_HEAD q) v).fld (R.DMA_CH_CTRL_CQ n) = s.fld (R.DMA_CH_CTRL_CQ n) := by
    intro n
    refine fld_setFld_ne s v ?_
    show 32 * (0xd1000 + 0x40 * n) + 4 ≠ 32 * (0xd0108 + 0x10 * q) + 0
    omega
  simp only [dmaOldest, hcq, State.setFld_dmas]

theorem dmaHeadWrite_of_none_waiting {q : Nat} (v : Nat) (hnone : dmaOldest s q = none) :
    dmaHeadWrite s q v = s.setFld (R.DMA_CQ_HEAD_HEAD q) v := by
  simp [dmaHeadWrite, dmaResumeRecords, dmaOldest_setFld_head, hnone]

theorem dmaEventSet_word (n : Nat) (x : BitVec 32) :
    dmaEventSet s n x.toNat = s.setFld (R.DMA_EVT_EVT n) (s.fld (R.DMA_EVT_EVT n) ||| x.toNat) := by
  rw [dmaEventSet, Nat.mod_eq_of_lt x.isLt]

end

/-- What the owner drives is done. -/
theorem dmaDrive_of_owns {s : State} {v : DmaVia} {ch : Nat} (f : State → State) (h : dmaOwns s ch (dmaWho v) = true) :
    dmaDrive s v ch f = f s := if_pos h

/-- Settles O30: each command is driven by the owner of its channel, and comes to its own lemma. -/
theorem dmaChannelCommandsComplete : Obligations.DmaChannelCommandsComplete := by
  refine ⟨?_, ?_, ?_, ?_, ?_, ?_, ?_, ?_, ?_, ?_, ?_, ?_, ?_, ?_⟩
  · -- DMA_CLAIM
    exact fun s rq ch hwho hfree =>
      congrArg Host.Outcome.next (dmaClaim_of_free (Nat.lt_succ_of_lt hwho) (fun h => absurd h (Nat.ne_of_lt hwho)) hfree)
  · -- DMA_CLAIM by a tile
    intro s ti ch hprog hfree _
    have hname : dmaName s (.tile ti) ch.val = s.setFld (R.TILE_DMA_CH ti.val) ch.val := if_pos hprog
    have hclaim := dmaClaim_of_free (who := dmaWho (.tile ti)) (show 3 < 4 by decide) (fun _ => hprog)
      ((fld_ownKind_dmaName (.tile ti)).trans hfree)
    rw [hname] at hclaim
    exact congrArg Host.Outcome.next ((congrArg (dmaClaim · ch.val _) hname).trans hclaim)
  · -- DMA_RELEASE
    exact fun s rq ch howns hstate =>
      congrArg Host.Outcome.next ((if_pos howns).trans (dmaRelease_of_owner howns hstate))
  · -- DMA_GO
    exact fun s rq ch howns hon hstate hprog hpause _ => congrArg Host.Outcome.next
      ((dmaDrive_of_owns _ howns).trans (dmaGo_of_aligned howns hon hstate hprog hpause))
  · -- DMA_PAUSE
    exact fun s rq ch howns hrun _ =>
      congrArg Host.Outcome.next ((dmaDrive_of_owns _ howns).trans (dmaPause_of_running hrun))
  · -- DMA_PAUSE_DRAINED
    exact fun s ch hstate habort hpause => congrArg Host.Outcome.next (dmaDrained_of_pause hstate habort hpause)
  · -- DMA_UNPAUSE
    exact fun s rq ch howns hstate hon =>
      congrArg Host.Outcome.next ((dmaDrive_of_owns _ howns).trans (dmaUnpause_of_paused hstate hon))
  · -- DMA_ABORT of a paused channel
    exact fun s rq ch howns hstate =>
      congrArg Host.Outcome.next ((dmaDrive_of_owns _ howns).trans (dmaAbort_of_paused hstate))
  · -- DMA_ABORT of a running channel
    exact fun s rq ch howns hrun =>
      congrArg Host.Outcome.next ((dmaDrive_of_owns _ howns).trans (dmaAbort_of_running hrun))
  · -- DMA_KICK
    exact fun s rq ch howns hdesc hwait =>
      congrArg Host.Outcome.next ((dmaDrive_of_owns (v := .reg rq) _ howns).trans (dmaKick_of_waiting hdesc hwait))
  · -- DMA_WAIT_WAKE
    exact fun s e ch clr hset hone hclr => congrArg Host.Outcome.next (dmaWake_of_one_waiter hset hone hclr)
  · -- DMA_WAIT_TIMEOUT
    exact fun s ch x hwait hstate htime => execDmaWaitTimeout_of_waiting hwait hstate htime
  · -- DMA_CQ_HEAD_WRITE
    exact fun s q x hnone _ => congrArg Host.Outcome.next (dmaHeadWrite_of_none_waiting x.toNat hnone)
  · -- DMA_EVENT_SET
    exact fun s n x => congrArg Host.Outcome.next (dmaEventSet_word n.val x)

/-! ### Instructions and descriptors (R398, R399, R401, R402, R405) -/

theorem ok_of_doneAt {α : Type} {r : DmaAcc α} {x : α} {s : State} (h : doneAt r = some (x, s)) : r = .ok x s := by
  cases r with
  | ok y t =>
    cases h
    rfl
  | bad st a t => cases h

/-- A running program channel executes the instruction it has fetched, where the command is for its opcode. -/
theorem dmaInstr_of_dmaFetched {s s1 : State} {ch op : Nat} {bs : List Byte} {mine : Nat → Bool} (f : State → List Byte → State)
    (h : dmaFetched s ch op = some (bs, s1)) (hmine : mine op = true) : dmaInstr s ch mine f = f s1 bs := by
  unfold dmaFetched at h
  split at h
  · cases h
  · next hidle =>
    split at h
    · next bs' s1' hread =>
      split at h
      · next hop =>
        cases h
        rw [dmaInstr, if_neg hidle]
        simp only [hread, hop, hmine, if_true]
      · cases h
    · cases h

section
variable {s : State} {ch : Nat} {bs : List Byte}

theorem dmaMove_of_moved {s1 : State} {k : Nat}
    (hzero : zeroBytes bs 1 4 = true ∧ dmaMods bs / 2 = 0 ∧ zeroBytes bs 7 8 = true ∧ zeroBytes bs 0xE 0x10 = true ∧
      zeroBytes bs 0x16 0x18 = true)
    (hover : dmaOverlaps (dmaAddr (leAt bs 8 6) (s.fld (R.DMA_CH_ITER_ITER ch)) (leAt bs 0x18 4))
      (dmaAddr (leAt bs 0x10 6) (s.fld (R.DMA_CH_ITER_ITER ch)) (leAt bs 0x1C 4)) (leAt bs 4 3 + 1) = false)
    (hmove : doneAt (dmaMoveOn s ch (dmaAddr (leAt bs 8 6) (s.fld (R.DMA_CH_ITER_ITER ch)) (leAt bs 0x18 4))
      (dmaAddr (leAt bs 0x10 6) (s.fld (R.DMA_CH_ITER_ITER ch)) (leAt bs 0x1C 4)) (leAt bs 4 3 + 1) k) = some ((), s1)) :
    dmaMove s ch k bs = if s1.fld (R.DMA_CH_DONE_DONE ch) = leAt bs 4 3 + 1 then
      dmaNext (s1.setFld (R.DMA_CH_DONE_DONE ch) 0) ch else s1 := by
  obtain ⟨hz1, hmods, hz7, hzE, hz16⟩ := hzero
  simp [dmaMove, hz1, hmods, hz7, hzE, hz16, hover, ok_of_doneAt hmove]

theorem dmaLoop_of_again
    (hzero : zeroBytes bs 1 4 = true ∧ dmaMods bs = 0 ∧ zeroBytes bs 7 8 = true ∧ zeroBytes bs 0xA 0x20 = true ∧
      2 ≤ leAt bs 4 3 ∧ leAt bs 8 2 ≠ 0)
    (hown : (dmaOf s ch).loopPc = some (dmaPc s ch) ∨ s.fld (R.DMA_CH_ITER_ITER ch) = 0)
    (hback : dmaProg s ch + 32 * leAt bs 8 2 ≤ dmaPc s ch) (hagain : s.fld (R.DMA_CH_ITER_ITER ch) + 1 < leAt bs 4 3) :
    dmaLoop s ch bs = setDmaPc ((setDma s ch { dmaOf s ch with loopPc := some (dmaPc s ch) }).setFld (R.DMA_CH_ITER_ITER ch)
      (s.fld (R.DMA_CH_ITER_ITER ch) + 1)) ch (dmaPc s ch - 32 * leAt bs 8 2) := by
  obtain ⟨hz1, hmods, hz7, hzA, hcount, hstep⟩ := hzero
  have hlegal : ¬ ((dmaOf s ch).loopPc ≠ some (dmaPc s ch) ∧ s.fld (R.DMA_CH_ITER_ITER ch) ≠ 0) := by tauto
  simp only [dmaLoop, hz1, hmods, hz7, hzA, Nat.not_lt_of_le hcount, hlegal, Nat.not_lt_of_le hback, hagain]
  simp [hstep]

theorem dmaWait_of_legal (hzero : zeroBytes bs 1 4 = true ∧ dmaMods bs / 2 = 0 ∧ leAt bs 8 1 < 64 ∧ zeroBytes bs 9 0x20 = true) :
    dmaWait s ch bs = if dmaEvent s (leAt bs 8 1) = true then
        dmaNext (if dmaMods bs % 2 = 1 then dmaClearEvent s (leAt bs 8 1) else s) ch
      else setDmaState (setDma s ch
        { dmaOf s ch with wait := some (leAt bs 8 1, dmaMods bs % 2 == 1, leAt bs 4 4) }) ch dmaWaiting := by
  obtain ⟨hz1, hmods, hevent, hz9⟩ := hzero
  simp [dmaWait, hz1, hmods, hevent, hz9]

/-- SIGNAL past its earlier writes: with the event set where it names one. -/
def dmaSignalled (s : State) (ch : Nat) (bs : List Byte) : State :=
  if (dmaMods bs).testBit 1 = true then dmaSetEvent (dmaDrainWrites s ch) (leAt bs 8 1) else dmaDrainWrites s ch

theorem dmaSignalInstr_of_legal
    (hzero : zeroBytes bs 1 4 = true ∧ dmaMods bs / 4 = 0 ∧ leAt bs 8 1 < 64 ∧ zeroBytes bs 9 0x20 = true) :
    dmaSignalInstr s ch bs = if (dmaMods bs).testBit 0 = true then
        dmaRecord (setDma (dmaSignalled s ch bs) ch { dmaOf (dmaSignalled s ch bs) ch with after := some (dmaPc s ch + 32) }) ch
          (leAt bs 4 4) dmaSignal dmaRunning
      else dmaNext (dmaSignalled s ch bs) ch := by
  obtain ⟨hz1, hmods, hevent, hz9⟩ := hzero
  simp only [dmaSignalInstr, hz1, hmods, hz9, Nat.not_le_of_lt hevent]
  rfl

theorem dmaEnd_of_legal (hzero : zeroBytes bs 1 4 = true ∧ dmaMods bs = 0 ∧ zeroBytes bs 8 0x20 = true) :
    dmaEnd s ch bs = dmaRecord (dmaDrainWrites s ch) ch (leAt bs 4 4) dmaOk dmaIdle := by
  obtain ⟨hz1, hmods, hz8⟩ := hzero
  simp [dmaEnd, hz1, hmods, hz8]

theorem dmaDescriptor_of_not_valid {s1 : State} (k : Nat) (hdesc : 56 ≤ ch) (hrun : dmaState s ch = dmaRunning)
    (hread : doneAt (dmaRead s ch (dmaPc s ch) 64) = some (bs, s1)) (hvalid : leAt bs 0x1C 4 % 2 = 0) :
    dmaDescriptor s ch k = setDmaState s1 ch dmaWaiting := by
  simp [dmaDescriptor, dmaIsDesc, hdesc, hrun, ok_of_doneAt hread, hvalid]

theorem dmaDescriptor_of_moved {s1 s2 : State} {k : Nat} (hdesc : 56 ≤ ch) (hrun : dmaState s ch = dmaRunning)
    (hread : doneAt (dmaRead s ch (dmaPc s ch) 64) = some (bs, s1))
    (hvalid : leAt bs 0x1C 4 % 2 = 1 ∧ leAt bs 0 1 % 64 = 0 ∧ descBad bs = false)
    (hmove : doneAt (dmaMoveOn s1 ch (leAt bs 8 6) (leAt bs 0x10 6) (leAt bs 0x18 4) k) = some ((), s2)) :
    dmaDescriptor s ch k = if s2.fld (R.DMA_CH_DONE_DONE ch) = leAt bs 0x18 4 then descDone s2 ch bs else s2 := by
  obtain ⟨hbit, hnext, hgood⟩ := hvalid
  simp [dmaDescriptor, dmaIsDesc, hdesc, hrun, ok_of_doneAt hread, hbit, hnext, hgood, ok_of_doneAt hmove]

end

/-- Settles O31: the command of the fetched opcode executes the instruction, a descriptor is read as it is executed. -/
theorem dmaInstructionsComplete : Obligations.DmaInstructionsComplete := by
  refine ⟨?_, ?_, ?_, ?_, ?_, ?_, ?_, ?_⟩
  · -- DMA_MOVE
    rintro s ch k bs s1 s2 src dst len hfetch hzero rfl rfl rfl hover hmove
    exact congrArg Host.Outcome.next ((dmaInstr_of_dmaFetched _ hfetch rfl).trans (dmaMove_of_moved hzero hover hmove))
  · -- DMA_LOOP
    exact fun s ch bs s1 hfetch hzero hown hback hagain => congrArg Host.Outcome.next
      ((dmaInstr_of_dmaFetched _ hfetch rfl).trans (dmaLoop_of_again hzero hown hback hagain))
  · -- DMA_WAIT
    exact fun s ch bs s1 hfetch hzero =>
      congrArg Host.Outcome.next ((dmaInstr_of_dmaFetched _ hfetch rfl).trans (dmaWait_of_legal hzero))
  · -- DMA_SIGNAL
    exact fun s ch bs s1 hfetch hzero =>
      congrArg Host.Outcome.next ((dmaInstr_of_dmaFetched _ hfetch rfl).trans (dmaSignalInstr_of_legal hzero))
  · -- DMA_END
    exact fun s ch bs s1 hfetch hzero =>
      congrArg Host.Outcome.next ((dmaInstr_of_dmaFetched _ hfetch rfl).trans (dmaEnd_of_legal hzero))
  · -- DMA_UNDEFINED_INSTRUCTION
    exact fun s ch op bs s1 hfetch hop =>
      congrArg Host.Outcome.next (dmaInstr_of_dmaFetched _ hfetch (decide_eq_true hop))
  · -- DMA_DESCRIPTOR that is not VALID
    exact fun s ch k bs s1 hdesc hrun hread hbit =>
      congrArg Host.Outcome.next (dmaDescriptor_of_not_valid k hdesc hrun hread hbit)
  · -- DMA_DESCRIPTOR that is VALID
    exact fun s ch k bs s1 s2 hdesc hrun hread hvalid hmove =>
      congrArg Host.Outcome.next (dmaDescriptor_of_moved hdesc hrun hread hvalid hmove)

end Sys2Proof.Machine
end

section
/-! Proofs of the digest contexts' family (R391, R407 to R411). -/

namespace Sys2Proof.Machine

section
variable {s : State} {n : Nat} {who : Who}

/-! ### Ownership and what an owner drives (R391, R407, R408) -/

theorem digClaim_of_free (hwho : who.1 < 4) (hfree : s.fld (R.DIGEST_CTX_OWN_KIND n) = 0) :
    digClaim s n who = s.setFlds [(R.DIGEST_CTX_OWN_KIND n, who.1), (R.DIGEST_CTX_OWN_ID n, who.2)] :=
  if_neg (not_or.mpr ⟨not_not.mpr hfree, Nat.not_le_of_lt hwho⟩)

/-- The owner of a context drives it while the block is ON and the context's state accepts the operation. -/
theorem digDrive_of_accepted {op : Nat} (f : State → State) (howner : digOwner s n = who) (hwho : who.1 ≠ 0)
    (hon : blockOn s .digest = true) (haccepts : digAccepts (digState s n) op = true) : digDrive s who n op f = f s := by
  rw [digDrive, if_neg (by simp [howner, hwho, hon]), if_pos haccepts]

/-! ### Reads on behalf of the owner (R409) -/

theorem digRead_of_readGlobal {a len : Nat} {bs : List Byte} {s1 : State} (hreach : ownerReach s (digOwner s n) a len = true)
    (hread : readGlobal s a len xoDigest = some (bs, s1, none)) : digRead s n a len = (s1, .ok bs) := by
  simp [digRead, hreach, hread]

/-! ### FEED, FINAL, ABSORB and COMPARE (R409 to R411) -/

theorem digFeedDone_of_read {src len : Nat} {bs : List Byte} {s1 : State} (hfeed : (digOf s n).feed = some (src, len))
    (hreach : ownerReach s (digOwner s n) src len = true)
    (hread : readGlobal (setDig s n { digOf s n with feed := none }) src len xoDigest = some (bs, s1, none)) :
    digFeedDone s n = digEnd (digAbsorb s1 n bs) n cxOpen := by
  have hdig := digRead_of_readGlobal (s := setDig s n { digOf s n with feed := none }) (n := n) hreach hread
  simp [digFeedDone, hfeed, hdig]

theorem digFinal_of_enough (henough : (digOf s n).decl = 2 ^ 64 - 1 ∨ (digOf s n).decl ≤ (digOf s n).msg.length) :
    digFinal s n =
      digEnd (setDig s n { digOf s n with digest := digestOf (digOf s n).alg (digOf s n).msg }) n cxDone :=
  if_neg fun ⟨hdecl, hshort⟩ => henough.elim hdecl (Nat.not_le_of_lt hshort)

theorem digCompare_of_read {x : Nat} {bs : List Byte} {s1 : State}
    (hreach : ownerReach s (digOwner s n) (s.fld (R.DIGEST_CTX_REFLO_REFLO n) + 2 ^ 32 * s.fld (R.DIGEST_CTX_REFHI_REFHI n))
      (digestLen (digOf s n).alg) = true)
    (hread : readGlobal s (s.fld (R.DIGEST_CTX_REFLO_REFLO n) + 2 ^ 32 * s.fld (R.DIGEST_CTX_REFHI_REFHI n))
      (digestLen (digOf s n).alg) xoDigest = some (bs, s1, none))
    (hx : x = if bs = (digOf s n).digest then cmpEqual else cmpDiffer) :
    digCompare s n true =
      digEnd (s1.setFlds [(R.DIGEST_CTX_CMPA_CMPA n, x), (R.DIGEST_CTX_CMPB_CMPB n, 0xFFFFFFFF - x)]) n cxDone := by
  subst hx
  simp only [digCompare, digRead_of_readGlobal hreach hread]
  rfl

/-! ### Which states accept an operation (R408) -/

theorem digAccepts_init {st : Nat} (h : st = 0 ∨ st = 1 ∨ st = 3 ∨ st = 4) : digAccepts st 1 = true := by
  rcases h with rfl | rfl | rfl | rfl <;> rfl

theorem digAccepts_wipe {st : Nat} (h : st ≠ 2) : digAccepts st 6 = true := bne_iff_ne.mpr h

end

/-- Settles O32: the owner drives its context in a state that accepts the operation, and each operation comes to its own
lemma. -/
theorem digestCommandsComplete : Obligations.DigestCommandsComplete := by
  refine ⟨?_, ?_, ?_, ?_, ?_, ?_, ?_, ?_, ?_, ?_⟩
  · -- DIGEST_CLAIM
    exact fun s rq n hwho hfree => congrArg Host.Outcome.next (digClaim_of_free (Nat.lt_succ_of_lt hwho) hfree)
  · -- DIGEST_RELEASE
    rintro s v n k rfl howner hwho hstate
    exact congrArg Host.Outcome.next (if_pos ⟨howner, hwho, hstate⟩)
  · -- DIGEST_INIT
    rintro s v n alg sealed k rfl howner hwho hon hstate
    exact congrArg Host.Outcome.next (digDrive_of_accepted _ howner hwho hon (digAccepts_init hstate))
  · -- DIGEST_FEED
    rintro s v n k rfl howner hwho hon hopen
    exact congrArg Host.Outcome.next (digDrive_of_accepted _ howner hwho hon (by rw [hopen]; rfl))
  · -- DIGEST_FEED_DONE
    exact fun s n src len bs s1 hfeed hreach hread =>
      congrArg Host.Outcome.next (digFeedDone_of_read hfeed hreach hread)
  · -- DIGEST_FINAL
    rintro s v n k rfl howner hwho hon hopen henough
    exact congrArg Host.Outcome.next
      ((digDrive_of_accepted _ howner hwho hon (by rw [hopen]; rfl)).trans (digFinal_of_enough henough))
  · -- DIGEST_FINAL of fewer bytes than DECL
    rintro s v n k rfl howner hwho hon hopen hshort
    exact congrArg Host.Outcome.next
      ((digDrive_of_accepted _ howner hwho hon (by rw [hopen]; rfl)).trans (if_pos hshort))
  · -- DIGEST_ABSORB
    rintro s v n src k rfl howner hwho hon hopen hdone
    exact congrArg Host.Outcome.next
      ((digDrive_of_accepted _ howner hwho hon (by rw [hopen]; rfl)).trans (if_pos hdone))
  · -- DIGEST_COMPARE
    rintro s v n k x bs s1 rfl howner hwho hon hdone hreach hread hx
    exact congrArg Host.Outcome.next
      ((digDrive_of_accepted _ howner hwho hon (by rw [hdone]; rfl)).trans (digCompare_of_read hreach hread hx))
  · -- DIGEST_WIPE
    rintro s v n k rfl howner hwho hon hidle _
    exact congrArg Host.Outcome.next (digDrive_of_accepted _ howner hwho hon (digAccepts_wipe hidle))

end Sys2Proof.Machine
end

section
/-! Proofs of the key store's family (R414, R416 to R418, R427) and of the vault's (R419 to R424). -/

namespace Sys2Proof.Machine

/-! ### Keys (R414, R416, R417) -/

section
variable {s : State} {rq : Requester}

/-- KEYS_CMD as written: the slot, the type and the usage named. -/
def keysNamed (s : State) (slot ktype usage : Nat) : State :=
  s.setFlds [(R.KEYS_CMD_SLOT, slot), (R.KEYS_CMD_KTYPE, ktype), (R.KEYS_CMD_USAGE, usage)]

theorem writesAt_keysNamed (slot ktype usage : Nat) : WritesAt [0x300010] s (keysNamed s slot ktype usage) :=
  (((WritesAt.refl _ s).setFld slot (f := R.KEYS_CMD_SLOT) (by decide) (by decide)).setFld ktype
    (f := R.KEYS_CMD_KTYPE) (by decide) (by decide)).setFld usage (f := R.KEYS_CMD_USAGE) (by decide) (by decide)

theorem WritesAt.rngOk {offs : List Nat} {t : State} (h : WritesAt offs s t) (hout : R.KEYS_STATUS_RNGOK.off ∉ offs) :
    rngOk t = rngOk s := by
  rw [Machine.rngOk, Machine.rngOk, State.flag, State.flag, h.fld _ (by decide) hout]

/-- GENERATE in KEYS_CMD, with KEYS ON. -/
theorem keysCmd_generate {slot ktype usage : Nat} (hon : blockOn s .keys = true) :
    keysCmd s 1 slot ktype usage = keysGenerate (keysNamed s slot ktype usage) slot ktype usage := by
  simp [keysCmd, keysNamed, hon]

/-- ERASE in KEYS_CMD, with KEYS ON. -/
theorem keysCmd_erase {slot ktype usage : Nat} (hon : blockOn s .keys = true) :
    keysCmd s 2 slot ktype usage = keysErase (keysNamed s slot ktype usage) slot := by
  simp [keysCmd, keysNamed, hon]

theorem keysGenerate_of_free {slot ktype usage : Nat} (hlc : s.fuses.lc < 3) (hperm : keyPermitted ktype usage = true)
    (hfree : slotKey s slot = none) (hrng : rngOk s = true) :
    keysGenerate s slot ktype usage =
      keysEnd (putKey (newKey s ktype usage).2 slot (some (newKey s ktype usage).1)) krOk := by
  simp [keysGenerate, lcDecommissioned, Nat.ne_of_lt hlc, hperm, hfree, hrng]

theorem keysErase_of_lc {slot : Nat} (hlc : s.fuses.lc < 3) : keysErase s slot = keysEnd (putKey s slot none) krOk :=
  if_neg (Nat.ne_of_lt hlc)

theorem execKeysGenerate_of_free {slot : Fin 512} {ktype : BitVec 8} {usage : Fin 16}
    (hwho : (vaultWho s rq).isSome = true) (hon : blockOn s .keys = true) (hlc : s.fuses.lc < 3)
    (hperm : keyPermitted ktype.toNat usage.val = true) (hfree : slotKey s slot.val = none) (hrng : rngOk s = true) :
    execKeysGenerate rq slot ktype usage s =
      .next (keysEnd (putKey (newKey (keysNamed s slot.val ktype.toNat usage.val) ktype.toNat usage.val).2 slot.val
        (some (newKey (keysNamed s slot.val ktype.toNat usage.val) ktype.toNat usage.val).1)) krOk) := by
  have hrng1 : rngOk (keysNamed s slot.val ktype.toNat usage.val) = true := by
    rw [(writesAt_keysNamed _ _ _).rngOk (by decide), hrng]
  rw [execKeysGenerate, if_pos hwho, keysCmd_generate hon, keysGenerate_of_free (s := keysNamed s _ _ _) hlc hperm hfree hrng1]

theorem execKeysErase_of_lc {slot : Fin 512} (hwho : (vaultWho s rq).isSome = true) (hon : blockOn s .keys = true)
    (hlc : s.fuses.lc < 3) :
    execKeysErase rq slot s =
      .next (keysEnd (putKey (keysNamed s slot.val (s.fld R.KEYS_CMD_KTYPE) (s.fld R.KEYS_CMD_USAGE)) slot.val none) krOk) := by
  rw [execKeysErase, if_pos hwho, keysCmd_erase hon, keysErase_of_lc (s := keysNamed s slot.val _ _) hlc]

/-! ### The DRBG (R418) -/

theorem drbgReady_of_enabled (hen : s.flag R.KEYS_CTRL_EN = true) (hrng : rngOk s = false) (hfail : s.drbg.failed = false) :
    drbgReady s = ({ s with drbg := { s.drbg with requests := 0 } }).raise R.KEYS_STATUS_RNGOK :=
  if_pos ⟨hen, Bool.eq_false_iff.mp hrng, Bool.eq_false_iff.mp hfail⟩

theorem rngRead_of_rngOk (hrng : rngOk s = true) : (rngRead s).2 = (drbgBytes s 4).2 := by
  rw [rngRead, if_pos hrng]

theorem rngRead_of_not_rngOk (hrng : rngOk s = false) : (rngRead s).2 = s := by
  rw [rngRead, if_neg (Bool.eq_false_iff.mp hrng)]

/-! ### The lifecycle (R427) -/

theorem lifecycleAdvance_of_house {c : CoreId} {target : Fin 4} (hhouse : 32 ≤ c.val) (hnext : target.val = s.fuses.lc + 1)
    (hburn : s.drbg.burn = none) (hrng : target.val ≠ lcProvisioned ∨ rngOk s = true) :
    lifecycleAdvance s (.core c) target.val lcKeyword = lifecycleBurn s target.val := by
  have hlegal : ¬ 3 < target.val := by omega
  have hdrawn : ¬ (target.val = lcProvisioned ∧ ¬ rngOk s = true) := by tauto
  simp only [lifecycleAdvance, hhouse, hnext.symm, hburn, hlegal, hdrawn]
  simp

theorem lifecycleAdvance_of_wrong {target keyword : Nat} (h : keyword ≠ lcKeyword ∨ target ≠ s.fuses.lc + 1) :
    lifecycleAdvance s rq target keyword = setCfgErr s .keys :=
  if_pos (.inr (h.imp_right .inl))

theorem lifecycleBurnDone_of_burn {n : Nat} (hburn : s.drbg.burn = some n) :
    lifecycleBurnDone s =
      (({ s with drbg := { s.drbg with burn := none }, fuses := { s.fuses with lc := n } }).setFlds
        [(R.KEYS_STATUS_LC, n), (R.KEYS_STATUS_LCBUSY, 0)]).raise R.KEYS_ISR_LCDONE := by
  rw [lifecycleBurnDone, hburn]

end

/-- Settles O33: KEYS_CMD names its operands and runs its command, and the DRBG and the lifecycle take the branch of their
hypotheses. -/
theorem keyStoreCommandsComplete : Obligations.KeyStoreCommandsComplete := by
  refine ⟨?_, ?_, ?_, ?_, ?_, ?_, ?_, ?_, ?_, ?_⟩
  · -- KEYS_GENERATE
    rintro s rq slot ktype usage k hwho hon hlc hperm hfree hrng - rfl
    exact execKeysGenerate_of_free hwho hon hlc hperm hfree hrng
  · -- KEYS_ERASE
    exact fun s rq slot hwho hon hlc _ => execKeysErase_of_lc hwho hon hlc
  · -- DRBG_READY
    exact fun s hen hrng hfail => congrArg Host.Outcome.next (drbgReady_of_enabled hen hrng hfail)
  · -- DRBG_RESEED
    exact fun s hrng hmany => congrArg Host.Outcome.next (if_pos ⟨hrng, hmany⟩)
  · -- NOISE_TEST_FAILURE
    exact fun s hen => congrArg Host.Outcome.next (if_pos hen)
  · -- KEYS_RNG_READ
    exact fun s rq hwho hrng => congrArg Host.Outcome.next ((if_pos hwho).trans (rngRead_of_rngOk hrng))
  · -- KEYS_RNG_READ without RNGOK
    exact fun s rq hwho hrng => congrArg Host.Outcome.next ((if_pos hwho).trans (rngRead_of_not_rngOk hrng))
  · -- LIFECYCLE_ADVANCE
    rintro s c target keyword hhouse rfl hnext hburn hrng
    have hwho : (vaultWho s (.core c)).isSome = true := by simp [vaultWho, Nat.not_lt_of_le hhouse]
    exact congrArg Host.Outcome.next ((if_pos hwho).trans (lifecycleAdvance_of_house hhouse hnext hburn hrng))
  · -- LIFECYCLE_ADVANCE with another keyword or code
    intro s rq target keyword hwho hwrong
    have hkey : keyword.toNat ≠ lcKeyword ∨ target.val ≠ s.fuses.lc + 1 :=
      hwrong.imp_left fun hne heq => hne (BitVec.eq_of_toNat_eq heq)
    exact congrArg Host.Outcome.next ((if_pos hwho).trans (lifecycleAdvance_of_wrong hkey))
  · -- LIFECYCLE_BURN_DONE
    exact fun s n hburn => congrArg Host.Outcome.next (lifecycleBurnDone_of_burn hburn)

/-! ### The vault (R419 to R424) -/

section
variable {s : State} {rq : Requester} {who : Who}

/-- A command of a requester that reaches the block is its claimant's. -/
theorem vaultAs_of_vaultWho (f : Who → State) (hwho : vaultWho s rq = some who) : vaultAs s rq f = f who := by
  rw [vaultAs, hwho]

/-- The owner's command runs where none is running. -/
theorem vaultCmd_of_owner (f : State → State) (hmine : vaultMine s who = true) (hrun : s.vault.run = none) :
    vaultCmd s who f = f s := if_pos ⟨hmine, by rw [hrun]; rfl⟩

theorem vaultAs_vaultCmd_of_owner (f : State → State) (hwho : vaultWho s rq = some who) (hmine : vaultMine s who = true)
    (hrun : s.vault.run = none) : vaultAs s rq (fun w => vaultCmd s w f) = f s := by
  rw [vaultAs_of_vaultWho _ hwho, vaultCmd_of_owner f hmine hrun]

theorem execVaultAcquire_of_free (hwho : vaultWho s rq = some who) (hfree : vaultHeld s = false)
    (hon : blockOn s .vault = true) (hlapsed : s.vault.lapsed = none) :
    execVaultAcquire [rq] s = .next (s.setFlds [(R.VAULT_LOCK_KIND, who.1), (R.VAULT_LOCK_ID, who.2)]) := by
  simp [execVaultAcquire, vaultRanked, vaultInsert, vaultAcquire, hwho, hfree, hon, hlapsed]

theorem vaultOpen_of_decrypt {mode slot : Nat} {k : KeySlot} (hmsg : s.vault.msg = none) (hlc : s.fuses.lc < 3)
    (hkey : slotKey s slot = some k) (hkt : k.ktype = ktAes ∧ bitOf k.usage usVault = true) :
    vaultOpen s mode slot true =
      vaultEnd (({ s with vault := { s.vault with msg := some ⟨mode, true, k.value.take 32, vaultIv s, 0, false⟩ } }).setFld
        R.VAULT_RES_INMSG 1) krOk := by
  simp [vaultOpen, hmsg, lcDecommissioned, Nat.ne_of_lt hlc, hkey, hkt]

theorem vaultStep_of_good {m : VMsg} (hmsg : s.vault.msg = some m) (hlast : m.last = false)
    (hgood : stepBad m (s.fld R.VAULT_LEN_LEN) = false) : vaultStep s = vaultRun s 2 := by
  simp [vaultStep, hmsg, hlast, hgood]

theorem vaultDone_of_step {m : VMsg} (hrun : s.vault.run = some 2) (hmsg : s.vault.msg = some m) {r : Nat × State × VMsg}
    (hr : r = vaultBlocks s m (vaultSrc s) (vaultDst s) (s.fld R.VAULT_LEN_LEN) (s.fld R.VAULT_LEN_LEN)
      (s.fld R.VAULT_LEN_LEN)) :
    vaultDone s none = vaultEnd { r.2.1 with vault := { r.2.1.vault with msg := some r.2.2 } } r.1 := by
  simp [vaultDone, hrun, hmsg, hr]

theorem vaultClose_of_open {m : VMsg} (hmsg : s.vault.msg = some m) :
    vaultClose s = vaultEnd (({ s with vault := { s.vault with msg := none } }).setFld R.VAULT_RES_INMSG 0) krOk := by
  rw [vaultClose, hmsg]

/-- VAULT_CMD as UNWRAP and WRAP write it: the slot and the KEK named. -/
def vaultNamed (s : State) (slot : Fin 512) (kek : Fin 514) : State :=
  s.setFlds [(R.VAULT_CMD_SLOT, slot.val), (R.VAULT_CMD_KEK, kek.val)]

theorem writesAt_vaultNamed (slot : Fin 512) (kek : Fin 514) : WritesAt [0xf0014] s (vaultNamed s slot kek) :=
  ((WritesAt.refl _ s).setFld slot.val (f := R.VAULT_CMD_SLOT) (by decide) (by decide)).setFld kek.val (f := R.VAULT_CMD_KEK)
    (by decide) (by decide)

theorem ok_of_toOption {ε α : Type} {e : Except ε α} {x : α} (h : e.toOption = some x) : e = .ok x := by
  cases e with
  | error _ => cases h
  | ok y =>
    cases h
    rfl

section
variable {slot : Fin 512} {kek : Fin 514} (hwf : Registers.wf s.regs = true)
include hwf

theorem fld_vaultNamed_kek : (vaultNamed s slot kek).fld R.VAULT_CMD_KEK = kek.val :=
  (fld_setFld_same _ _ _ (setFld_regs_wf s _ _ hwf)).trans (Nat.mod_eq_of_lt (Nat.lt_trans kek.isLt (by decide)))

theorem fld_vaultNamed_slot : (vaultNamed s slot kek).fld R.VAULT_CMD_SLOT = slot.val :=
  (fld_setFld_ne _ _ (by decide)).trans
    ((fld_setFld_same _ _ _ hwf).trans (Nat.mod_eq_of_lt (Nat.lt_trans slot.isLt (by decide))))

theorem vaultUnwrap_of_free {key : List Byte} (hmsg : s.vault.msg = none)
    (hkek : (kekKey (vaultNamed s slot kek) kek.val).toOption = some key) (hfree : slotKey s slot.val = none) :
    vaultUnwrap (vaultNamed s slot kek) = vaultRun (vaultNamed s slot kek) 4 := by
  have hmsg1 : (vaultNamed s slot kek).vault.msg = none := hmsg
  have hfree1 : slotKey (vaultNamed s slot kek) slot.val = none := hfree
  simp [vaultUnwrap, fld_vaultNamed_kek hwf, fld_vaultNamed_slot hwf, hmsg1, hfree1, ok_of_toOption hkek]

theorem vaultWrap_of_export {key : List Byte} {k : KeySlot} (hmsg : s.vault.msg = none)
    (hkek : (kekKey (vaultNamed s slot kek) kek.val).toOption = some key) (hkey : slotKey s slot.val = some k)
    (hleave : bitOf k.usage usExport = true ∨ kek.val = 512) (hrng : rngOk s = true) :
    vaultWrap (vaultNamed s slot kek) = vaultRun (vaultNamed s slot kek) 5 := by
  have hmsg1 : (vaultNamed s slot kek).vault.msg = none := hmsg
  have hkey1 : slotKey (vaultNamed s slot kek) slot.val = some k := hkey
  have hrng1 : rngOk (vaultNamed s slot kek) = true := ((writesAt_vaultNamed slot kek).rngOk (by decide)).trans hrng
  have hmay : bitOf k.usage usExport = false → kek.val = 512 := hleave.resolve_left ∘ Bool.eq_false_iff.mp
  simp +contextual [vaultWrap, fld_vaultNamed_kek hwf, fld_vaultNamed_slot hwf, hmsg1, hkey1, hrng1, hmay, ok_of_toOption hkek]

end

theorem vaultLapse_of_idle (hheld : vaultHeld s = true) (hrun : s.vault.run = none) :
    vaultLapse s =
      ({ vaultFree s with vault := { (vaultFree s).vault with lapsed := some (vaultOwner s) } }).raise R.VAULT_ISR_LAPSE :=
  if_pos ⟨hheld, by rw [hrun]; rfl⟩

end

/-- Settles O34: the owner's command runs where none is running, and each command comes to its own lemma. -/
theorem vaultCommandsComplete : Obligations.VaultCommandsComplete := by
  refine ⟨?_, ?_, ?_, ?_, ?_, ?_, ?_, ?_, ?_⟩
  · -- VAULT_ACQUIRE
    exact fun s rq who hwho hfree hon hlapsed => execVaultAcquire_of_free hwho hfree hon hlapsed
  · -- VAULT_RELEASE
    exact fun s rq who hwho hmine => congrArg Host.Outcome.next ((vaultAs_of_vaultWho _ hwho).trans (if_pos hmine))
  · -- VAULT_OPEN
    exact fun s rq who mode slot k hwho hmine hrun hmsg hlc hkey hkt => congrArg Host.Outcome.next
      ((vaultAs_vaultCmd_of_owner _ hwho hmine hrun).trans (vaultOpen_of_decrypt hmsg hlc hkey hkt))
  · -- VAULT_STEP
    exact fun s rq who m hwho hmine hrun hmsg hlast hgood => congrArg Host.Outcome.next
      ((vaultAs_vaultCmd_of_owner _ hwho hmine hrun).trans (vaultStep_of_good hmsg hlast hgood))
  · -- VAULT_STEP_DONE
    exact fun s m r hrun hmsg hr => congrArg Host.Outcome.next (vaultDone_of_step hrun hmsg hr)
  · -- VAULT_CLOSE
    exact fun s rq who m hwho hmine hrun hmsg => congrArg Host.Outcome.next
      ((vaultAs_vaultCmd_of_owner _ hwho hmine hrun).trans (vaultClose_of_open hmsg))
  · -- VAULT_UNWRAP
    exact fun s rq who slot kek key hwho hmine hrun hmsg hwf hkek hfree => congrArg Host.Outcome.next
      ((vaultAs_vaultCmd_of_owner _ hwho hmine hrun).trans (vaultUnwrap_of_free hwf hmsg hkek hfree))
  · -- VAULT_WRAP
    exact fun s rq who slot kek key k hwho hmine hrun hmsg hwf hkek hkey hleave hrng => congrArg Host.Outcome.next
      ((vaultAs_vaultCmd_of_owner _ hwho hmine hrun).trans (vaultWrap_of_export hwf hmsg hkek hkey hleave hrng))
  · -- VAULT_LEASE_LAPSE
    exact fun s hheld hrun => congrArg Host.Outcome.next (vaultLapse_of_idle hheld hrun)

end Sys2Proof.Machine
end

section
/-! Refutation of the gate routine's statement (R432, R433): what a call of the routine comes to, and a core whose registers
are listed in no canonical form. -/

namespace Sys2Proof.Machine

/-! ### A word of the stack in house memory -/

section
variable {s : State} {c : CoreId} {sp : Word}

/-- A load past the data cache, of a house core, from house memory without errors. -/
theorem coreLoad_house_uncached (hhouse : 32 ≤ c.val) (halign : sp.toNat % 4 = 0) (hend : sp.toNat + 4 ≤ 0x400000)
    (hseg : (segCheck (s.core c.val) .stackRead sp 4).isSome = true) (htarget : targetOf s (houseBase + sp.toNat) = .house)
    (hdc : s.flag (ccDcEn c.val) = false) (hev : (s.core c.val).ev = []) (hsyn : s.ecc.syn = []) (hbad : s.dramBad = []) :
    coreLoad s c.val .stackRead sp 4 = .ok (s.memNat (houseBase + sp.toNat) 4) s := by
  obtain ⟨io, hio⟩ := Option.isSome_iff_exists.mp hseg
  have hmap : coreMap s c.val sp.toNat = some (houseBase + sp.toNat) := by
    rw [coreMap, if_neg (Nat.not_lt_of_le hhouse), houseMap, if_pos (by omega)]
  have hloc : coreLocate s c.val .stackRead sp 4 = .ok (houseBase + sp.toNat, io) := by
    simp [coreLocate, hio, hmap, htarget, accWrites]
  have hraw : rawLoad s c.val (houseBase + sp.toNat) 4 = (some (s.memNat (houseBase + sp.toNat) 4), s) := by
    simp [rawLoad, settleEv_of_ev_empty, hev, htarget, readRam, hsyn, hbad, State.memNat]
  simp [coreLoad, halign, hloc, htarget, dcServes, hdc, hraw]

end

/-! ### A call of the routine (R433) -/

/-- The registers of a core as the routine leaves them before its return: the result, the detail and two free values. -/
def gateCore (y : State) (c res detail : Nat) : Core :=
  setRegs (y.core c) [(0, BitVec.ofNat 32 res), (1, BitVec.ofNat 32 detail), (2, Config.freeWord y.free),
    (3, Config.freeWord (y.free + 1))]

/-- The state before the return. -/
def gateAnswered (y : State) (c res detail : Nat) : State :=
  { y with free := y.free + 2 }.setCore c (gateCore y c res detail)

theorem gpr_gateCore_of_ge (y : State) (c res detail : Nat) {r : Reg} (hr : 4 ≤ r.val) :
    gpr (gateCore y c res detail) r = gpr (y.core c) r := by
  have hne : ∀ n : Reg, n.val < 4 → r ≠ n := fun n hn h => absurd (h ▸ hr) (Nat.not_le_of_lt hn)
  simp only [gateCore, setRegs]
  rw [gpr_setGpr_ne _ _ (hne 3 (by decide)), gpr_setGpr_ne _ _ (hne 2 (by decide)), gpr_setGpr_ne _ _ (hne 1 (by decide)),
    gpr_setGpr_ne _ _ (hne 0 (by decide))]

/-- What w1 reads is decided by the writes of w0 and w1. -/
theorem gpr_gateCore_w1 (y : State) (c res detail : Nat) :
    gpr (gateCore y c res detail) 1 =
      gpr (setGpr (setGpr (y.core c) 0 (BitVec.ofNat 32 res)) 1 (BitVec.ofNat 32 detail)) 1 := by
  simp only [gateCore, setRegs]
  rw [gpr_setGpr_ne _ _ (by decide), gpr_setGpr_ne _ _ (by decide)]

/-- RET with an empty mask: the word at SP is the next PC, and SP rises by 4. -/
theorem retBody_empty_mask {s : State} {c pc : Nat} {sp : Word} (hsp : gpr (s.core c) spReg = sp) (halign : sp.toNat % 4 = 0)
    (hload : coreLoad s c .stackRead sp 4 = .ok pc s) (heven : bitOf pc 0 = false) :
    retBody c 0 s = .ok (BitVec.ofNat 32 pc, 3) (updCore s c (fun k => setGpr k spReg (sp + 4))) := by
  have hmask : maskRegs 0#16 = [] := by decide
  simp [retBody, hsp, halign, hload, heven, hmask, popWords, CoreAcc.andThen, setRegs]

/-- A call that the routine answers with `(res, detail, y)`, its return address in house memory without errors. -/
theorem gateCall_of_answer {s y : State} {c : CoreId} {op res detail : Nat} {f : Core → Nat × Nat × State} {sp : Word}
    (hhouse : 32 ≤ c.val) (hmay : mayIssue s c.val = true) (hpc : (s.core c.val).pc = gateEntry)
    (hop : (gpr (s.core c.val) 0).toNat = op) (hanswer : f (s.core c.val) = (res, detail, y))
    (hruns : coreRuns y c.val = true) (hsp : gpr (y.core c.val) spReg = sp) (halign : sp.toNat % 4 = 0)
    (hend : sp.toNat + 4 ≤ 0x400000) (hseg : (segCheck (y.core c.val) .stackRead sp 4).isSome = true)
    (htarget : targetOf y (houseBase + sp.toNat) = .house) (hdc : y.flag (ccDcEn c.val) = false)
    (hev : (y.core c.val).ev = []) (hsyn : y.ecc.syn = []) (hbad : y.dramBad = [])
    (heven : y.memNat (houseBase + sp.toNat) 4 % 2 = 0) :
    gateCall s c.val op f =
      goneTo (gateAnswered y c.val res detail) c.val (setGpr (gateCore y c.val res detail) spReg (sp + 4))
        (BitVec.ofNat 32 (y.memNat (houseBase + sp.toNat) 4)) 3 := by
  obtain ⟨hrun, hlen⟩ := coreRuns_spec hruns
  have hcore : (gateAnswered y c.val res detail).core c.val = gateCore y c.val res detail :=
    core_setCore_same _ _ (Nat.lt_of_lt_of_eq c.isLt hlen.symm)
  have hload : coreLoad (gateAnswered y c.val res detail) c.val .stackRead sp 4 =
      .ok (y.memNat (houseBase + sp.toNat) 4) (gateAnswered y c.val res detail) :=
    coreLoad_house_uncached hhouse halign hend (by rw [hcore]; exact hseg) htarget hdc (by rw [hcore]; exact hev) hsyn hbad
  have hret := retBody_empty_mask (by rw [hcore, gpr_gateCore_of_ge y c.val res detail (by decide), hsp]) halign hload
    (by simp [bitOf, heven])
  have hgone := retire_updCore_of_coreRuns (cost := 3) (f := fun k => setGpr k spReg (sp + 4)) (fun _ => rfl)
    (show coreRuns (gateAnswered y c.val res detail) c.val = true by
      rw [coreRuns, hcore]
      simp [gateCore, gateAnswered, hrun, hlen])
    (show offGate c.val (BitVec.ofNat 32 (y.memNat (houseBase + sp.toNat) 4)) = true by simp [offGate, hhouse])
  rw [hcore] at hgone
  rw [gateCall, if_pos ⟨hhouse, hmay, hpc, hop⟩, ← hgone]
  simp only [hanswer]
  exact congrArg (fun r : CoreAcc (Word × Nat) => match r with
    | .ok x s3 => retire s3 c.val x.1 x.2
    | .trap t s3 => takeExc s3 c.val t (s.core c.val).pc) hret

/-! ### Registers listed twice

The clauses of O23 take any register file. The detail 0 of a call unlists w1, and a w1 that stands twice in the list reads
as its second entry then. -/

/-- House core 32 calls ERASE while the code store is OFF; its w1 is listed twice. -/
def gateCaller : State :=
  (tinyW []).setCore 32
    { Core.houseReset with run := .run, pc := gateEntry, w := [(0, 1), (1, 5), (1, 7), (14, 0x1000)] }

theorem gateErase_gateCaller : gateErase gateCaller (gateArg (gateCaller.core 32)) = (gateBusy, 0, gateCaller) :=
  if_pos (by decide +kernel)

/-- The state after the call. -/
def gateCallerReturned : State :=
  goneTo (gateAnswered gateCaller 32 gateBusy 0) 32 (setGpr (gateCore gateCaller 32 gateBusy 0) spReg (0x1000 + 4))
    (BitVec.ofNat 32 (gateCaller.memNat (houseBase + 0x1000) 4)) 3

theorem exec_gateErase_gateCaller : exec (.gateErase 32) gateCaller = .next gateCallerReturned := by
  have hop : (gpr (gateCaller.core 32) 0).toNat = 1 := by decide +kernel
  exact congrArg Host.Outcome.next ((if_pos hop).trans (gateCall_of_answer (c := 32) (sp := 0x1000) (by decide)
    (by decide +kernel) (by decide +kernel) hop gateErase_gateCaller (by decide +kernel) (by decide +kernel) (by decide)
    (by decide) (by decide +kernel) (by decide +kernel) (by decide +kernel) (by decide +kernel) (by decide +kernel)
    (by decide +kernel) (by decide +kernel)))

/-- w1 reads as its second entry. -/
theorem w1_gateCallerReturned : gpr (gateCallerReturned.core 32) 1 = 7 := by
  rw [gateCallerReturned, core_goneTo_same _ _ _ (by decide +kernel)]
  refine (gpr_setGpr_ne (gateCore gateCaller 32 gateBusy 0) (r := 1) (rd := spReg) (0x1000 + 4) (by decide)).trans ?_
  rw [gpr_gateCore_w1]
  decide +kernel

/-- Refutes O23: ERASE called while the code store is OFF has the detail 0, and w1 of `gateCaller` reads 7 after it. -/
theorem not_gateRoutineComplete : ¬ Obligations.GateRoutineComplete := by
  rintro ⟨herase, -⟩
  obtain ⟨t, hnext, -, hdetail, -⟩ := herase gateCaller 32 (gateBusy, 0, gateCaller) 0x1000 (by decide) (by decide +kernel)
    (by decide +kernel) (by decide +kernel) gateErase_gateCaller.symm (by decide +kernel) (by decide +kernel) (by decide)
    (by decide) (by decide +kernel) (by decide +kernel) (by decide +kernel) (by decide +kernel) (by decide +kernel)
    (by decide +kernel) (by decide +kernel)
  obtain rfl := Host.Outcome.next.inj (exec_gateErase_gateCaller.symm.trans hnext)
  exact absurd (w1_gateCallerReturned.symm.trans hdetail) (by decide)

end Sys2Proof.Machine
end

section
/-! Proofs of the hold-up controller's family (R454 to R464). -/

namespace Sys2Proof.Machine

section
variable {s : State}

/-! ### The flush (R461, R464) -/

/-- The parcels that a flush enters in its manifest. -/
def flushEnts (s : State) : List CellarEnt :=
  (flushRels s).map (fun r => { rel := r, acked := relHeld s r.rel, complete := false })

/-- The state that FLUSH_START leaves in service where no qualification runs. -/
def flushBegun (s : State) (by_ : Nat) (trip : Bool) : State :=
  let s2 := flushOutputs (stopTiles s)
  { (s2.setFlds [(R.HOLD_STATUS_FLUSH, 1), (R.WDT_STATUS_FROZEN, 1), (R.HOLD_RAIL_DUTY, 0)]) with
    media := { s2.media with
      progs := s2.media.progs ++ cellarProgs s (s.hold.flushes + 1) (flushRels s) (cellarPages s) },
    ftl := { s2.ftl with
      cellar := if s2.ftl.cellar.isSome ∨ flushRels s = [] then s2.ftl.cellar
        else some ⟨s.hold.flushes + 1, flushEnts s, false⟩ },
    hold := { s2.hold with flushes := s.hold.flushes + 1, flushBy := by_, trip := trip } }

theorem qualAbort_of_idle (hqual : s.hold.qual = .idle) : qualAbort s = s := if_pos hqual

theorem flushStart_of_inService (by_ : Nat) (trip : Bool) (hflush : flushing s = false) (hheld : s.boot.held = .none)
    (hphase : s.fld R.SYS_PHASE_PHASE = 12) (hqual : s.hold.qual = .idle) :
    flushStart s by_ trip = flushBegun s by_ trip := by
  rw [flushStart, if_neg (by simp [hflush, hheld]), if_neg (by simp [hphase]), qualAbort_of_idle hqual]
  rfl

/-- A flush stops every tile and sets the outputs before it sets its own fields: the canonical form stands. -/
theorem flushOutputs_stopTiles_wf (hwf : Registers.wf s.regs = true) :
    tblWf 0 (flushOutputs (stopTiles s)).regs = true := setFlds_regs_wf _ _ hwf

/-- The fields that FLUSH_START itself sets: FLUSH, FROZEN and the charger's duty. -/
theorem fld_flushBegun (by_ : Nat) (trip : Bool) (f : Fld) :
    (flushBegun s by_ trip).fld f = ((((flushOutputs (stopTiles s)).setFld R.HOLD_STATUS_FLUSH 1).setFld
      R.WDT_STATUS_FROZEN 1).setFld R.HOLD_RAIL_DUTY 0).fld f := fld_of_regs_eq f rfl

theorem fld_flushBegun_flush (by_ : Nat) (trip : Bool) (hwf : Registers.wf s.regs = true) :
    (flushBegun s by_ trip).fld R.HOLD_STATUS_FLUSH = 1 := by
  rw [fld_flushBegun, fld_setFld_ne _ _ (by decide), fld_setFld_ne _ _ (by decide)]
  exact fld_setFld_same _ _ 1 (flushOutputs_stopTiles_wf hwf)

theorem fld_flushBegun_frozen (by_ : Nat) (trip : Bool) (hwf : Registers.wf s.regs = true) :
    (flushBegun s by_ trip).fld R.WDT_STATUS_FROZEN = 1 := by
  rw [fld_flushBegun, fld_setFld_ne _ _ (by decide)]
  exact fld_setFld_same _ _ 1 (setFld_regs_wf _ _ _ (flushOutputs_stopTiles_wf hwf))

theorem fld_flushBegun_duty (by_ : Nat) (trip : Bool) (hwf : Registers.wf s.regs = true) :
    (flushBegun s by_ trip).fld R.HOLD_RAIL_DUTY = 0 := by
  rw [fld_flushBegun]
  exact fld_setFld_same _ _ 0 (setFld_regs_wf _ _ _ (setFld_regs_wf _ _ _ (flushOutputs_stopTiles_wf hwf)))

/-- The tiles and their parcels are gone; memory and the NAND array stand. -/
theorem flushBegun_frame (by_ : Nat) (trip : Bool) :
    (flushBegun s by_ trip).flows.parcels = [] ∧ (flushBegun s by_ trip).tiles = [] ∧
      (flushBegun s by_ trip).mem = s.mem ∧ (flushBegun s by_ trip).media.luns = s.media.luns ∧
      (flushBegun s by_ trip).media.cells = s.media.cells := by
  simp [flushBegun, flushOutputs, stopTiles]

/-- After a flush's start a cellar stands where one stood, or where there was a parcel to carry. -/
theorem flushBegun_cellar_isSome (by_ : Nat) (trip : Bool) :
    (flushBegun s by_ trip).ftl.cellar.isSome = (s.ftl.cellar.isSome || !(flushRels s).isEmpty) := by
  by_cases hcellar : s.ftl.cellar.isSome = true
  · simp [flushBegun, flushOutputs, stopTiles, hcellar]
  · cases hrels : flushRels s <;> simp [flushBegun, flushOutputs, stopTiles, hcellar, hrels]

/-! ### Power failure, voltage samples and the charger (R454, R455, R461) -/

theorem powerFail_of_low (pin : Option Nat) (hlow : s.hold.pfail = true) : powerFail s pin = s := if_pos hlow

/-- A fall of HU_PFAIL# in service begins the flush. -/
theorem powerFail_of_inService (hhigh : s.hold.pfail = false) (hflush : flushing s = false) (hheld : s.boot.held = .none)
    (hphase : s.fld R.SYS_PHASE_PHASE = 12) (hqual : s.hold.qual = .idle) :
    powerFail s none = flushBegun { s with hold := { s.hold with pfail := true } } 0 false :=
  (if_neg (Bool.eq_false_iff.mp hhigh)).trans (flushStart_of_inService 0 false hflush hheld hphase hqual)

/-- What the rail and the strings read after a sample. -/
def railSampled (s : State) (mv : List Nat) : State :=
  s.setFlds ((R.HOLD_RAIL_MV, railOf s mv) :: (List.range 4).map (fun n => (R.HOLD_STR_MV_MV n, mv.getD n 0)))

theorem voltageSample_of_idle {mv : List Nat} (hw : s.hold.w = 0) (hqual : s.hold.qual = .idle) :
    voltageSample s mv = takeWindow (railSampled s mv) := by
  rw [voltageSample, if_neg (fun h => h.1 hw), hqual]
  rfl

theorem voltageSample_of_bankFault {mv : List Nat} (hw : s.hold.w ≠ 0) (hhigh : s.hold.pfail = false)
    (hflush : flushing s = false) (hrail : railOf s mv < pfVACK s.hold.active) :
    voltageSample s mv =
      flushStart (((railSampled s mv).raise R.HOLD_STATUS_BANKFLT).raise R.HOLD_ISR_BANKFLT) 1 false :=
  if_pos ⟨hw, Bool.eq_false_iff.mp hhigh, hrail, Bool.eq_false_iff.mp hflush⟩

/-- The charger runs: no flush, and EN set. -/
theorem chargerTick_of_running (hflush : flushing s = false) (hen : s.flag R.HOLD_CTRL_EN = true) :
    chargerTick s = if pfVCHG s.hold.active ≤ railMv s then s.setFld R.HOLD_RAIL_DUTY (s.fld R.HOLD_RAIL_DUTY - 1)
      else if railMv s + 200 < pfVCHG s.hold.active then
        s.setFld R.HOLD_RAIL_DUTY (min (pfDMAX s.hold.active) (s.fld R.HOLD_RAIL_DUTY + 1))
      else s := if_neg (by simp [hflush, hen])

theorem chargerTick_of_below (hflush : flushing s = false) (hen : s.flag R.HOLD_CTRL_EN = true)
    (hrail : railMv s + 200 < pfVCHG s.hold.active) :
    chargerTick s = s.setFld R.HOLD_RAIL_DUTY (min (pfDMAX s.hold.active) (s.fld R.HOLD_RAIL_DUTY + 1)) := by
  rw [chargerTick_of_running hflush hen, if_neg (by omega), if_pos hrail]

theorem chargerTick_of_charged (hflush : flushing s = false) (hen : s.flag R.HOLD_CTRL_EN = true)
    (hrail : pfVCHG s.hold.active ≤ railMv s) :
    chargerTick s = s.setFld R.HOLD_RAIL_DUTY (s.fld R.HOLD_RAIL_DUTY - 1) := by
  rw [chargerTick_of_running hflush hen, if_pos hrail]

/-! ### The qualification's steps (R457, R458) -/

theorem chargeTimeout_of_charging (hqual : s.hold.qual = .charge) (hreached : s.hold.reached = false) :
    chargeTimeout s = qualEnd s qChgTo := if_pos ⟨hqual, Bool.eq_false_iff.mp hreached⟩

theorem testSettle_of_settling {mv n : Nat} (hqual : s.hold.qual = .settle n) :
    testSettle s mv =
      { (s.raise (R.HOLD_STR_MV_LOAD n)) with hold := { s.hold with va := mv, qual := .load n } } := by
  rw [testSettle, hqual]

theorem loadSample_of_loaded {mv n : Nat} (hqual : s.hold.qual = .load n) :
    loadSample s mv = { s with hold := { s.hold with vb := mv, qual := .vb n } } := by
  rw [loadSample, hqual]

/-- Does a string that measures `m` stay within CMIN and ESRMAX (R458)? -/
def stringPasses (s : State) (m : Nat × Nat) : Bool :=
  decide (10 * pfCMIN s.hold.active ≤ m.1) && decide (m.2 ≤ 1000 * pfESRMAX s.hold.active)

/-- The registers of a string after its test. -/
def stringTested (s : State) (n : Nat) (m : Nat × Nat) : State :=
  { s with free := s.free + 2 }.setFlds
    [(R.HOLD_STR_MV_LOAD n, 0), (R.HOLD_STR_MV_ISO n, if stringPasses s m then 1 else 0),
     (R.HOLD_STR_MEAS_C n, min 0xFFFF (m.1 / 10)), (R.HOLD_STR_MEAS_ESR n, min 0xFFFF (m.2 / 1000))]

theorem testEnd_of_measured {mv n : Nat} {m : Nat × Nat} (hqual : s.hold.qual = .vb n)
    (hm : m = measured s s.hold.active s.hold.va s.hold.vb mv) :
    testEnd s mv = { stringTested s n m with hold := { (stringTested s n m).hold with
      qual := .recharge n,
      passed := if stringPasses s m then (stringTested s n m).hold.passed ++ [(n, m)]
        else (stringTested s n m).hold.passed } } := by
  subst hm
  rw [testEnd, hqual]
  rfl

/-! ### The profiles' stores (R456, R463) -/

theorem holdSaveDone_of_saving {p : List Byte} (hsaving : s.hold.saving = some p) :
    holdSaveDone s =
      { (s.clear R.HOLD_SAVE_BUSY) with hold := { s.hold with saving := none, prof := some p } } := by
  rw [holdSaveDone, hsaving]

theorem thermSaveDone_of_saving {p : List Byte} (hsaving : s.therm.saving = some p) :
    thermSaveDone s =
      { (s.clear R.THERM_SAVE_BUSY) with
        therm := { s.therm with saving := none }, hold := { s.hold with thermProf := some p } } := by
  rw [thermSaveDone, hsaving]

end

/-! ### The obligation -/

/-- Settles O27: in service a power failure begins the flush, whose fields read back as it sets them from canonical
registers; the other clauses are their commands' effects. -/
theorem holdUpCommandsComplete : Obligations.HoldUpCommandsComplete := by
  refine ⟨?_, ?_, ?_, ?_, ?_, ?_, ?_, ?_, ?_, ?_, ?_, ?_⟩
  · -- POWER_FAIL
    intro s hhigh hflush hheld hphase hqual hwf
    obtain ⟨hparcels, htiles, hmem, hluns, hcells⟩ :=
      flushBegun_frame (s := { s with hold := { s.hold with pfail := true } }) 0 false
    exact ⟨_, congrArg Host.Outcome.next (powerFail_of_inService hhigh hflush hheld hphase hqual), rfl,
      fld_flushBegun_flush 0 false hwf, fld_flushBegun_frozen 0 false hwf, fld_flushBegun_duty 0 false hwf, rfl, hparcels,
      htiles, hmem, hluns, hcells, flushBegun_cellar_isSome 0 false⟩
  · -- POWER_FAIL: the pin is low already
    exact fun s hlow => congrArg Host.Outcome.next (powerFail_of_low none hlow)
  · -- VOLTAGE_SAMPLE
    exact fun s mv hw hqual => congrArg Host.Outcome.next (voltageSample_of_idle hw hqual)
  · -- VOLTAGE_SAMPLE: a bank fault
    exact fun s mv hw hhigh hflush hrail =>
      congrArg Host.Outcome.next (voltageSample_of_bankFault hw hhigh hflush hrail)
  · -- CHARGER_TICK
    exact fun s hflush hen hrail => congrArg Host.Outcome.next (chargerTick_of_below hflush hen hrail)
  · -- CHARGER_TICK: the rail stands at VCHG
    exact fun s hflush hen hrail => congrArg Host.Outcome.next (chargerTick_of_charged hflush hen hrail)
  · -- QUAL_CHARGE_TIMEOUT
    exact fun s hqual hreached => congrArg Host.Outcome.next (chargeTimeout_of_charging hqual hreached)
  · -- STRING_TEST_SETTLE
    exact fun s mv n hqual => congrArg Host.Outcome.next (testSettle_of_settling hqual)
  · -- STRING_LOAD_SAMPLE
    exact fun s mv n hqual => congrArg Host.Outcome.next (loadSample_of_loaded hqual)
  · -- STRING_TEST_END
    rintro s mv n pass hqual rfl
    exact congrArg Host.Outcome.next (testEnd_of_measured hqual rfl)
  · -- HOLD_SAVE_DONE
    exact fun s p hsaving => congrArg Host.Outcome.next (holdSaveDone_of_saving hsaving)
  · -- THERM_SAVE_DONE
    exact fun s p hsaving => congrArg Host.Outcome.next (thermSaveDone_of_saving hsaving)

end Sys2Proof.Machine
end

section
/-! Proofs of the thermal controller's and the pins' family (R467, R469, R471 to R473). -/

namespace Sys2Proof.Machine

section
variable {s : State}

/-! ### Sensor readings (R467, R472) -/

/-- The state after the channels' readings. -/
def channelsRead (s : State) (readings : List SensorRead) : State :=
  (List.range 8).foldl (fun x n => match readings[n]? with | some r => chanRead x n r | none => x) s

/-- The state after the fans' speeds. -/
def speedsRead (s : State) (rpm : List Nat) : State :=
  (List.range 4).foldl (fun x n => match rpm[n]? with | some r => setSpeed x n r | none => x) s

/-- The hottest on-die reading and the readings under a write hold, counted. -/
def dieRead (s : State) (die : Int) : State :=
  { s with therm := { s.therm with dieMax := max s.therm.dieMax die, held := s.therm.held + s.fld R.THERM_STATUS_WHOLD } }

/-- Every output takes the duty of its curve. -/
def outputsDriven (s : State) : State :=
  { (s.setFlds ((List.range 4).map (fun n => (R.THERM_OUT_STAT_DUTY n, outputDuty s n)))) with free := s.free + 4 }

theorem sensorRead_eq (readings : List SensorRead) (rpm : List Nat) (die : Int) :
    sensorRead s readings rpm die =
      let s3 := dieRead (speedsRead (channelsRead s readings) rpm) die
      wholdUpdate (if blockOn s3 .therm ∧ ¬ flushing s3 then outputsDriven s3 else s3) := rfl

/-- The die's reading is no register: the block's state and the flush stand. -/
theorem blockOn_dieRead (die : Int) (b : BlockId) : blockOn (dieRead s die) b = blockOn s b := rfl

theorem flushing_dieRead (die : Int) : flushing (dieRead s die) = flushing s := rfl

theorem sensorRead_of_off {readings : List SensorRead} {rpm : List Nat} (die : Int)
    (hoff : blockOn (speedsRead (channelsRead s readings) rpm) .therm = false) :
    sensorRead s readings rpm die = wholdUpdate (dieRead (speedsRead (channelsRead s readings) rpm) die) := by
  rw [sensorRead_eq]
  dsimp only
  rw [blockOn_dieRead, if_neg (by simp [hoff])]

theorem sensorRead_of_on {readings : List SensorRead} {rpm : List Nat} (die : Int)
    (hon : blockOn (speedsRead (channelsRead s readings) rpm) .therm = true)
    (hflush : flushing (speedsRead (channelsRead s readings) rpm) = false) :
    sensorRead s readings rpm die =
      wholdUpdate (outputsDriven (dieRead (speedsRead (channelsRead s readings) rpm) die)) := by
  rw [sensorRead_eq]
  dsimp only
  rw [blockOn_dieRead, flushing_dieRead, if_pos ⟨hon, Bool.eq_false_iff.mp hflush⟩]

/-! ### Stalls and trips (R469, R471) -/

theorem fanStall_of_driven {n : Nat} (hfan : s.flag (R.THERM_OUT_CFG_MODE n) = false)
    (hslow : s.fld (R.THERM_OUT_STAT_RPM n) < s.fld (R.THERM_OUT_CFG_MINRPM n))
    (hdriven : s.fld (R.THERM_OUT_STAT_DUTY n) ≠ 0) :
    fanStall s n =
      (({ s with therm := { s.therm with stalled := s.therm.stalled.filter (fun m => m != n) ++ [n] } }).setFlds
        (((List.range 4).filter (fun m => m != n && !s.flag (R.THERM_OUT_CFG_MODE m))).map
          (fun m => (R.THERM_OUT_STAT_DUTY m, 0xFF)))).raise R.THERM_ISR_STALL :=
  if_neg (not_or.mpr ⟨Bool.eq_false_iff.mp hfan, not_or.mpr ⟨Nat.not_le_of_lt hslow, hdriven⟩⟩)

theorem thermalTrip_of_tripped {die : Int} (hhot : 16 * (s.fld R.THERM_TRIP_TRIP : Int) ≤ die) :
    thermalTrip s die = flushStart (s.raise R.THERM_STATUS_TRIPPED) 0 true := if_pos hhot

theorem thermalTrip_of_below {die : Int} (hcool : die < 16 * (s.fld R.THERM_TRIP_TRIP : Int)) : thermalTrip s die = s :=
  if_neg (not_le.mpr hcool)

/-! ### Pins (R473) -/

theorem gpioEdge_of_watchedRise {n : Nat} (hlow : (s.fld R.GPIO_IN_IN).testBit n = false)
    (hwatched : (s.fld (R.GPIO_PIN_EDGE n)).testBit 0 = true) :
    gpioEdge s n true = (s.setFld R.GPIO_IN_IN (s.fld R.GPIO_IN_IN + 2 ^ n)).setFld R.GPIO_ISR_EDGE
      (s.fld R.GPIO_ISR_EDGE ||| 2 ^ n) := by
  simp [gpioEdge, hlow, hwatched]

theorem gpioEdge_of_unwatchedFall {n : Nat} (hhigh : (s.fld R.GPIO_IN_IN).testBit n = true)
    (hunwatched : (s.fld (R.GPIO_PIN_EDGE n)).testBit 1 = false) :
    gpioEdge s n false = s.setFld R.GPIO_IN_IN (s.fld R.GPIO_IN_IN - 2 ^ n) := by
  simp [gpioEdge, hhigh, hunwatched]

end

/-! ### The obligation -/

/-- Settles O28: each clause is its command's effect; a reading of the die changes no register, so the block is ON and no
flush runs after it just where it was before. -/
theorem thermalAndPinCommandsComplete : Obligations.ThermalAndPinCommandsComplete := by
  refine ⟨?_, ?_, ?_, ?_, ?_, ?_, ?_⟩
  · -- THERMAL_SENSOR_READ: the block is not ON
    rintro s readings rpm die s1 s2 - rfl rfl hoff
    exact congrArg Host.Outcome.next (sensorRead_of_off die hoff)
  · -- THERMAL_SENSOR_READ: the block is ON
    rintro s readings rpm die s1 s2 s3 rfl rfl rfl hon hflush
    exact congrArg Host.Outcome.next (sensorRead_of_on die hon hflush)
  · -- FAN_STALL
    exact fun s n hfan hslow hdriven => congrArg Host.Outcome.next (fanStall_of_driven hfan hslow hdriven)
  · -- THERMAL_TRIP
    exact fun s die hhot => congrArg Host.Outcome.next (thermalTrip_of_tripped hhot)
  · -- THERMAL_TRIP: below TRIP
    exact fun s die hcool => congrArg Host.Outcome.next (thermalTrip_of_below hcool)
  · -- GPIO_EDGE: a rising edge that the pin watches
    exact fun s n hlow hwatched => congrArg Host.Outcome.next (gpioEdge_of_watchedRise hlow hwatched)
  · -- GPIO_EDGE: a falling edge that it does not watch
    exact fun s n hhigh hunwatched => congrArg Host.Outcome.next (gpioEdge_of_unwatchedFall hhigh hunwatched)

end Sys2Proof.Machine
end

section
/-! Proofs of the start-up phases' family (R440, R446, R453, R478, R480, R483, R485). -/

namespace Sys2Proof.Machine

section
variable {s : State}

/-! ### From CLOCKS to CSTORE (R440, R453, R483) -/

theorem phaseClocks_of_phaseAt (hat : phaseAt s 1 = true) : phaseClocks s = phaseNext (clocksOn s) 1 := if_pos hat

theorem phaseFuses_of_phaseAt (ok : Bool) (hat : phaseAt s 2 = true) :
    phaseFuses s ok = if ok then phaseNext ((fuseRegs s).setCore 32 { Core.houseReset with run := .run }) 2
      else bootHalt s 2 2 := if_pos hat

theorem phaseRom_of_phaseAt (hat : phaseAt s 3 = true) :
    phaseRom s = phaseNext (bringUpAll (s.setFld R.WDT_TIMEOUT_TIMEOUT 2000) [.pcie, .cstore, .wdt]) 3 := if_pos hat

theorem phaseCstore_of_phaseAt {bad due : List Nat} (hat : phaseAt s 4 = true)
    (hdue : due = (List.range csBlocks).filter (csInterrupted s)) :
    phaseCstore s bad = phaseNext (remapNow ((due.filter (fun b => bad.contains b)).foldl grownAdd
      ((reErase s bad due).setFld R.CSTORE_BOOTINFO_RECOV (min 255 due.length)))) 4 := by
  rw [phaseCstore, if_pos hat, hdue]

/-! ### VERIFY (R446) -/

/-- Where the other slot has no generation, VERIFY tries the chosen one alone. -/
theorem bootOrder_of_only {n : Nat} (hchoice : bootChoice s = some n) (hother : slotGen s (1 - n) = none) :
    bootOrder s = [n] := by
  simp [bootOrder, hchoice, hother]

theorem bootOrder_of_none (hchoice : bootChoice s = none) : bootOrder s = [] := by
  rw [bootOrder, hchoice]

/-- No slot of the order verifies: the device is in RECOVERY. -/
theorem phaseVerify_of_none {f0 f1 : Bool} (hat : phaseAt s 5 = true)
    (hfind : (bootOrder s).find? (fun n => verifySlot s n (if n = 0 then f0 else f1) == 0) = none) :
    phaseVerify s f0 f1 = bootRecovery s 5 3 := by
  rw [phaseVerify, if_pos hat]
  dsimp only
  rw [hfind]

/-- The chosen slot boots: no fallback, and BOOTFAIL stands. -/
theorem phaseVerify_of_chosen {f0 f1 : Bool} {n : Nat} (hat : phaseAt s 5 = true) (hchoice : bootChoice s = some n)
    (hfind : (bootOrder s).find? (fun n => verifySlot s n (if n = 0 then f0 else f1) == 0) = some n) :
    phaseVerify s f0 f1 = phaseNext { s.setFlds [(R.CSTORE_BOOTINFO_SLOT, n), (R.CSTORE_BOOTINFO_FALLBACK, 0),
      (R.CSTORE_BOOTGEN_GEN, (slotGen s n).getD 0)] with
        boot := { s.boot with slot := some n, rbidx := leAt (slotHeader s n) 0x0C 4 } } 5 := by
  have hfallback : (bootChoice s != some n) = false := by simp [hchoice]
  rw [phaseVerify, if_pos hat]
  dsimp only
  rw [hfind]
  simp [hfallback, b2n]

theorem phaseVerify_of_only {f0 f1 : Bool} {n : Nat} (hat : phaseAt s 5 = true) (hchoice : bootChoice s = some n)
    (hother : slotGen s (1 - n) = none) :
    phaseVerify s f0 f1 = if verifySlot s n (if n = 0 then f0 else f1) = 0 then
      phaseNext { s.setFlds [(R.CSTORE_BOOTINFO_SLOT, n), (R.CSTORE_BOOTINFO_FALLBACK, 0),
        (R.CSTORE_BOOTGEN_GEN, (slotGen s n).getD 0)] with
          boot := { s.boot with slot := some n, rbidx := leAt (slotHeader s n) 0x0C 4 } } 5
      else bootRecovery s 5 3 := by
  have horder := bootOrder_of_only hchoice hother
  by_cases hverified : verifySlot s n (if n = 0 then f0 else f1) = 0
  · rw [if_pos hverified]
    exact phaseVerify_of_chosen hat hchoice (by rw [horder, List.find?_cons, beq_iff_eq.mpr hverified])
  · rw [if_neg hverified]
    exact phaseVerify_of_none hat (by rw [horder, List.find?_cons, beq_eq_false_iff_ne.mpr hverified, List.find?_nil])

/-! ### From FWLOAD to NAND (R478, R483) -/

theorem phaseFwload_of_slot {n : Nat} (hat : phaseAt s 6 = true) (hslot : s.boot.slot = some n) :
    phaseFwload s = phaseNext (houseRun (enterImage (blockLock (setXo s n) .cstore) n) 7) 6 := by
  rw [phaseFwload, if_pos hat, hslot]

theorem b2n_eq_ite_of_decide (p : Prop) [Decidable p] : b2n (decide p) = if p then 1 else 0 := by
  by_cases hp : p <;> simp [b2n, hp]

theorem phaseKeys_of_instantiated (hat : phaseAt s 7 = true) :
    phaseKeys s true = phaseNext ((drbgReady (bringUp s .keys)).setFld R.PCIE_CTRL_REGWIN
      (if s.fuses.lc ≤ 1 then 1 else 0)) 7 := by
  rw [← b2n_eq_ite_of_decide]
  exact if_pos hat

/-- DRAM that holds nothing retained is brought up where its channels train, and is FATAL where one does not. -/
theorem phaseDram_of_untrained (cap : Fin 3) (half trains : Bool) (hat : phaseAt s 8 = true)
    (huntrained : s.dram.trained = false) :
    phaseDram s (some (cap, half)) trains =
      let s2 := enablingEnds (requestOn (setPopulation s (cap.val + 1) half) .dram) .dram
      if trains then phaseNext { s2 with dram := { s2.dram with trained := true } } 8
      else bootFatal (setPopulation s (cap.val + 1) half) 8 5 :=
  (if_pos hat).trans (if_neg (Bool.eq_false_iff.mp huntrained))

theorem phaseRecords_of_noProfiles (bad : List Nat) (hat : phaseAt s 9 = true) (hprof : s.hold.prof = none)
    (htherm : s.hold.thermProf = none) :
    phaseRecords s bad = phaseNext (qualStart (bringUpAll
      { bringUp s .vault with keys := s.boot.keyRecs.filter (fun e => !bad.contains e.1) } [.therm, .hold])) 9 := by
  rw [phaseRecords, if_pos hat, hprof, htherm]

/-- The LUNs enumerated, with those new to the block table entered in it, and the table written. -/
def nandLoaded (s : State) (ids : List (Nat × Nat)) (bad : List Nat) (marks : List (Nat × Nat)) : State :=
  loadBlocks (addNewLuns (bringUpAll (enumerate s ids bad) (.media :: (List.finRange 32).map .nand)) marks)

theorem phaseNand_of_phaseAt {ids marks : List (Nat × Nat)} {bad : List Nat} {s2 : State} (hat : phaseAt s 10 = true)
    (hloaded : s2 = nandLoaded s ids bad marks) :
    phaseNand s ids bad marks =
      phaseNext (bringUp (wholdUpdate (gcUpdate (s2.setFlds [(R.FTLA_GROWN_COUNT, (blocksIn s2 bsGrown).length),
        (R.FTLA_FACTBAD_COUNT, (blocksIn s2 bsFactory).length)]))) .nvme) 10 := by
  rw [hloaded]
  exact if_pos hat

/-! ### REPLAY, the rescue and READY (R480, R483) -/

theorem phaseReplay_of_replayed {indexOk : Bool} {s2 : State} (hat : phaseAt s 11 = true) (hready : s.ftl.ready = false)
    (hreplayed : s2 = fabricUp
      (bringUpAll (placeBuffers (rescue (cellarReplay (mapReplay s)) indexOk)) replayBlocksOn)) :
    phaseReplay s indexOk none = { s2 with ftl := { s2.ftl with ready := true } } := by
  rw [hreplayed]
  exact if_pos ⟨hat, Bool.eq_false_iff.mp hready⟩

theorem rescueWrite_of_due (hindex : s.boot.index.isSome = true) (hready : s.ftl.ready = true)
    (hdue : restoredRels s false ≠ []) : rescueWrite s = writeRestored s (restoredRels s false).contains :=
  (if_pos ⟨hindex, hready⟩).trans (if_neg hdue)

theorem rescueWrite_of_done (hindex : s.boot.index.isSome = true) (hready : s.ftl.ready = true)
    (hdone : restoredRels s false = []) :
    rescueWrite s =
      { (s.clear R.SYS_RETBASE_VALID) with boot := { s.boot with index := none, lostX := 0, lostW := false } } :=
  (if_pos ⟨hindex, hready⟩).trans (if_pos hdone)

theorem phaseReady_of_replayed (hat : phaseAt s 11 = true) (hready : s.ftl.ready = true) :
    phaseReady s = phaseNext s 11 := if_pos ⟨hat, hready⟩

/-! ### Limits (R485) -/

theorem fld_phase_of_phaseAt {n : Nat} (hat : phaseAt s n = true) : s.fld R.SYS_PHASE_PHASE = n := by
  simp only [phaseAt, Bool.and_eq_true, beq_iff_eq] at hat
  exact hat.1.1.1

theorem phaseLimit_of_verify (hat : phaseAt s 5 = true) : phaseLimit s = bootRecovery s 5 1 := by
  simp [phaseLimit, fld_phase_of_phaseAt hat, hat]

theorem phaseLimit_of_dram (hat : phaseAt s 8 = true) : phaseLimit s = bootFatal s 8 1 := by
  simp [phaseLimit, fld_phase_of_phaseAt hat, hat]

end

/-! ### The obligation -/

/-- Settles O38: each clause is its command's effect in its phase; VERIFY tries a list of one slot or of none. -/
theorem startUpPhasesComplete : Obligations.StartUpPhasesComplete := by
  refine ⟨?_, ?_, ?_, ?_, ?_, ?_, ?_, ?_, ?_, ?_, ?_, ?_, ?_, ?_, ?_, ?_, ?_, ?_, ?_⟩
  · -- PHASE_CLOCKS
    exact fun s hat => congrArg Host.Outcome.next (phaseClocks_of_phaseAt hat)
  · -- PHASE_FUSES
    exact fun s hat => congrArg Host.Outcome.next (phaseFuses_of_phaseAt true hat)
  · -- PHASE_FUSES: the copies disagree
    exact fun s hat => congrArg Host.Outcome.next (phaseFuses_of_phaseAt false hat)
  · -- PHASE_ROM
    exact fun s hat => congrArg Host.Outcome.next (phaseRom_of_phaseAt hat)
  · -- PHASE_CSTORE
    exact fun s bad due hat hdue => congrArg Host.Outcome.next (phaseCstore_of_phaseAt hat hdue)
  · -- PHASE_VERIFY
    exact fun s f0 f1 n hat _ hchoice hother => congrArg Host.Outcome.next (phaseVerify_of_only hat hchoice hother)
  · -- PHASE_VERIFY: no valid slot
    exact fun s f0 f1 hat hchoice =>
      congrArg Host.Outcome.next (phaseVerify_of_none hat (by rw [bootOrder_of_none hchoice]; rfl))
  · -- PHASE_FWLOAD
    exact fun s n hat hslot => congrArg Host.Outcome.next (phaseFwload_of_slot hat hslot)
  · -- PHASE_KEYS
    exact fun s hat => congrArg Host.Outcome.next (phaseKeys_of_instantiated hat)
  · -- PHASE_DRAM
    exact fun s cap half hat huntrained =>
      congrArg Host.Outcome.next (phaseDram_of_untrained cap half true hat huntrained)
  · -- PHASE_DRAM: a channel does not train
    exact fun s cap half hat huntrained =>
      congrArg Host.Outcome.next (phaseDram_of_untrained cap half false hat huntrained)
  · -- PHASE_RECORDS
    exact fun s bad hat ⟨hprof, htherm⟩ =>
      congrArg Host.Outcome.next (phaseRecords_of_noProfiles bad hat hprof htherm)
  · -- PHASE_NAND
    exact fun s ids bad marks s2 hat hloaded => congrArg Host.Outcome.next (phaseNand_of_phaseAt hat hloaded)
  · -- PHASE_REPLAY
    exact fun s indexOk s2 hat hready hreplayed =>
      congrArg Host.Outcome.next (phaseReplay_of_replayed hat hready hreplayed)
  · -- RESCUE_WRITE
    exact fun s hindex hready hdue => congrArg Host.Outcome.next (rescueWrite_of_due hindex hready hdue)
  · -- RESCUE_WRITE: the last is committed
    exact fun s hindex hready hdone => congrArg Host.Outcome.next (rescueWrite_of_done hindex hready hdone)
  · -- PHASE_READY
    exact fun s hat hready => congrArg Host.Outcome.next (phaseReady_of_replayed hat hready)
  · -- PHASE_LIMIT_EXPIRY: VERIFY
    exact fun s hat => congrArg Host.Outcome.next (phaseLimit_of_verify hat)
  · -- PHASE_LIMIT_EXPIRY: DRAM
    exact fun s hat => congrArg Host.Outcome.next (phaseLimit_of_dram hat)

end Sys2Proof.Machine
end
